-- ==== Sys2Proof/Word.lean ====
section
/-! DEFINITION. The word types of the module (00_scope R4, R5) and their plainest arithmetic. -/

namespace Sys2Proof

/-- A byte, 8 bits (R4). -/
abbrev Byte := BitVec 8
/-- A half, 16 bits (R4). -/
abbrev Half := BitVec 16
/-- A word, 32 bits (R4). -/
abbrev Word := BitVec 32
/-- A long, the machine word, 64 bits (R4). -/
abbrev Long := BitVec 64
/-- A quad, 128 bits (R4). -/
abbrev Quad := BitVec 128

end Sys2Proof
end

