-- ==== Sys2Proof/Syntax.lean ====
section
/-! DEFINITION. The commands of the block: one constructor per row of spec/opcode_table.json, with the
operands that the spec's rules give each step. What an operand stands for is said beside its type. -/

namespace Sys2Proof

/-- Who makes a control-space access (01_overview R21, 24_host_port R529, R530): the service core, the host through
PF0 BAR0, the host through PF1 BAR0, or the software of a partition through its control window (R53). -/
inductive View where
  | service
  | pf0
  | pf1
  | part (p : Nat)
deriving DecidableEq, Repr

/-- A port of the shared link layer (13_serial_links R284): Armature port p or channel port n. -/
inductive PortId where
  | arm (p : Nat)
  | ch (n : Nat)
deriving DecidableEq, Repr

/-- What starts a cold reset (25 R559, R554, R565). -/
inductive ColdCause where
  | command (v : View)
  | feed
  | tripEnd
  | insertion
deriving DecidableEq, Repr

/-- What triggers a recast (20_retry_recast R465). `checkpoint` is the uncorrectable checkpoint error. -/
inductive RecastTrigger where
  | hard
  | checkpoint
  | supply
  | predictive
  | commanded
deriving DecidableEq, Repr

/-- The error pattern of a DRAM burst (12_dram R265): the devices, 0 to 9, that return wrong bits. -/
abbrev EccErr := List Nat

/-- One access that a DRAM controller serves (R268): module physical address, bytes read, or the bytes written;
`poisoned` marks write data that arrives poisoned (R267); `part` is the partition that it serves (R263). -/
structure DramReq where
  pa : Nat
  len : Nat
  write : Option (List Byte)
  poisoned : Bool
  /-- What the burst of subchannel 0 holds, and that of subchannel 1. -/
  err : EccErr
  err1 : EccErr
  part : Option Nat
deriving DecidableEq, Repr

/-- What one controller reports at the end of full training (R275, R258): the DIMMs found and whether they trained. -/
structure TrainResult where
  dimms : Nat
  capGiB : Nat
  density : Nat
  lranks : Nat
  ok : Bool
deriving DecidableEq, Repr

/-- A DIMM or die sensor reading in units of 0.25 °C, or none where it cannot be read (R269, R552). -/
abbrev Reading := Option Int

/-- What the governor reads at an epoch (25 R555): the 60 sensors of TMP_SENSORn, the 32 DIMM sensors (channel
2n+d), and the input power averaged over the epoch. -/
structure GovReadings where
  sensors : List Reading
  dimms : List Reading
  powerW : Nat
deriving DecidableEq, Repr

/-- One lane at the end of an equalisation: lane, whether its receiver locked, its eye height in mV (R300). -/
structure LaneEq where
  lane : Nat
  locked : Bool
  margin : Nat
deriving DecidableEq, Repr

/-- A message of the Armature (14_armature R303): header fields and body. -/
structure Msg where
  /-- The Armature port on which it arrives; 0 on a message that this module sends. -/
  via : Nat
  /-- The virtual channel that carries it (13 R286). -/
  vc : Nat
  dest : Nat
  src : Nat
  kind : Nat
  tag : Nat
  epoch : Bool
  resent : Bool
  addr : Nat
  body : List Byte
deriving DecidableEq, Repr

/-- One port of a link-state advertisement (R313): ACTIVE, neighbour's node and port, width. -/
structure AdvPort where
  active : Bool
  node : Nat
  port : Nat
  width : Nat
deriving DecidableEq, Repr

/-- A link-state advertisement (R313). `fstate` 0 JOINING, 1 MEMBER, 2 LEAVING. -/
structure Adv where
  node : Nat
  serial : Long
  seq : Nat
  fstate : Nat
  torState : Nat
  refHeld : Bool
  ineligible : Bool
  extents : List Nat
  ports : List AdvPort
deriving DecidableEq, Repr

/-- A DATA frame of device data from an adapter (15 R356, R357). -/
structure DataFrame where
  origin : Nat
  subch : Nat
  dev : Nat
  seq : Nat
  ordinal : Nat
  offset : Nat
  last : Bool
  data : List Byte
deriving DecidableEq, Repr

/-- A STATUS frame of an adapter (R356, R357). -/
structure StatusFrame where
  origin : Nat
  subch : Nat
  dev : Nat
  seq : Nat
  ordinal : Nat
  devStatus : Byte
  final : Bool
  stale : Bool
  residual : Nat
deriving DecidableEq, Repr

/-- One partition as the pairing exchange names it (16 R377). -/
structure PairPart where
  uuid : List Byte
  subchBase : Nat
  subchCount : Nat
deriving DecidableEq, Repr

/-- What the partner sends in the pairing exchange (R377): its partitions, its CH_PORT_MODE bytes, and whether it
drives ports taken over from this module; and what its PARTNER_MODE and PARTNER_NODE say (R496). -/
structure PairInfo where
  namesUs : Bool
  parts : List PairPart
  roles : List Nat
  holds : Bool
deriving DecidableEq, Repr

/-- The two heartbeat paths (22 R500). -/
inductive HbPath where
  | armature
  | dedicated
deriving DecidableEq, Repr

/-- The blocks that own work queues (17 R400, 19 R436, 24 R537). -/
inductive QBlock where
  | rasp
  | intaglio
  | mailbox
deriving DecidableEq, Repr

/-- The board-test instructions of IEEE 1149.1 (18 R426). -/
inductive ScanInstr where
  | extest
  | intest
  | clamp
  | bypass
  | idcode
  | samplePreload
deriving DecidableEq, Repr

/-- The windows through which the host reaches memory (24 R528): PF0 BAR2, PF1 BAR2, PF1's expansion ROM, and the BAR0 of a function
(R529). -/
inductive WinSel where
  | bar0 (fn : Nat)
  | pf0
  | pf1
  | rom
deriving DecidableEq, Repr

/-- The reference clocks whose loss is handled (27 R588). -/
inductive ClockId where
  | sys
  | sdsNorth
  | sdsSouth
  | hp
deriving DecidableEq, Repr

/-- The two Maquette sessions (26 R577). -/
inductive Session where
  | uart
  | mailbox
deriving DecidableEq, Repr

/-- What a grant names (26 R574): the module, or partition n. -/
inductive Scope where
  | module
  | partition (p : Nat)
deriving DecidableEq, Repr

/-- A host configuration request (27 R589): a field of the function's configuration space read or written. -/
inductive CfgField where
  | vendorDevice
  | revisionClass
  | bar (n : Nat)
  | romBar
  | command
  | powerState
  | msixControl
  | msixMask (v : Nat)
  | serial
  | other (off : Nat)
deriving DecidableEq, Repr

/-- The commands of the block, one constructor per row of spec/opcode_table.json, in the table's order. -/
inductive Instr where
  /-- R77: logical core l executes a group; `failed` of its attempts fail a check (R462). -/
  | issueGroup (l failed : Nat)
  | waitevDeadline (l : Nat)
  /-- R237: entry idx of core l's store buffer is performed, at CLUSTER scope or, with `system`, at SYSTEM scope;
  `eccBad` is an uncorrectable store-buffer entry (R461). -/
  | storeBufferPerform (l idx : Nat) (system eccBad : Bool)
  | externalInterruption (l : Nat)
  | ioInterruption (l : Nat)
  | machineCheck (l : Nat)
  | torComparatorFire (l n : Nat)
  | ppsEdge
  | todFrame (bytes : List Byte)
  | refLoss
  /-- R65: an exchange on Armature port p measured TOR minus the master's TOR, in ticks; the master's quality. -/
  | timeExchange (p : Nat) (offset : Int) (quality : BitVec 2)
  | refDisable (v : View) (on : Bool)
  | fabricDisable (v : View) (on : Bool)
  | heldWriteRelease (i : Nat)
  | loadFull (v : View)
  | loadPartial (v : View)
  | storeA (v : View)
  | storeB (v : View)
  /-- R36: verification ends; `flashOk` is whether programming the flash copy of a STORE succeeds (R41). -/
  | plinthChecksComplete (flashOk : Bool)
  | applyingEnd
  | start (v : View) (p : Nat)
  | stop (v : View) (p : Nat)
  | partitionStopped (p : Nat)
  | partReset (v : View) (p : Nat)
  | moduleReset (v : View)
  | coldReset (c : ColdCause)
  /-- R590: RESET_N is released after being held low for `ns` nanoseconds. -/
  | resetN (ns : Nat)
  /-- R564: the phase that took time ends; `failSlots` are the slots that failed the self-check of R472. -/
  | bringupStepComplete (failSlots : List Nat)
  | governorEpoch (r : GovReadings)
  | recast (v : View) (l : Nat)
  | recastSequence (l : Nat) (t : RecastTrigger)
  /-- R468: the spare's self-check ended with `spareOk`; `parts` are the readable parts of the checkpoint (bit 3 g,
  2 f, 1 PC/TSW/FPC, 0 c) and `storePath` says whether the store path is usable (R469). -/
  | recastComplete (l : Nat) (spareOk : Bool) (parts : BitVec 4) (storePath : Bool)
  | dramRequest (r : DramReq)
  | refreshTick (n : Nat)
  | refreshIdle (n : Nat)
  /-- R276: `low` are the controllers that found a margin below its limit. -/
  | recentre (low : List Nat)
  /-- R279: the error patterns of the two bursts of the line. -/
  | patrolScrub (n : Nat) (err : EccErr × EccErr)
  | speed (v : View) (n : Nat) (arg : Nat)
  | trainingComplete (rs : List TrainResult)
  | caParityAlert (n : Nat)
  /-- R291: a codeword arrives: the 256 flit bytes as sent, and the symbols (index, error value) the line changed. -/
  | flitReceive (p : PortId) (flit : List Byte) (errs : List (Nat × Byte))
  | nakRepeat (p : PortId)
  | replayTimeout (p : PortId)
  /-- R289: an alignment slot; `missed` lanes missed it and `skewed` lanes exceeded 64 ns. -/
  | alignmentSlot (p : PortId) (missed skewed : List Nat)
  | laneSignalDetect (p : PortId) (lanes : List Nat)
  | equaliseComplete (p : PortId) (lanes : List LaneEq)
  | alignComplete (p : PortId) (peerGood : BitVec 8)
  /-- R294: LINK flits exchanged: whether the port kinds agree, the peer's lane mask and its buffers per VC. -/
  | linkInitFlit (p : PortId) (kindOk : Bool) (peerGood : BitVec 8) (buffers : List Nat)
  | linkStateTimeout (p : PortId)
  | recoveryComplete (p : PortId) (lanes : List LaneEq) (peerGood : BitVec 8)
  | downExpiry (p : PortId)
  | widthFlit (p : PortId) (mask : BitVec 8)
  | widthFlitRepeat (p : PortId)
  | linkKeyRotation (p : PortId)
  | keyPhaseErase (p : PortId)
  | linkDisable (v : View) (p : PortId) (on : Bool)
  | retrain (v : View) (p : PortId)
  | cntClr (v : View) (p : PortId)
  | laneOff (v : View) (p : PortId) (mask : BitVec 8)
  | laneRetry (v : View) (p : PortId) (mask : BitVec 8)
  /-- R309 to R311; p is Armature port p below 8, and channel port p − 8 from 8 on, which uses the same exchange (R294). -/
  | hello (p : Nat) (version : Nat) (serial : Long) (node : Nat) (nodeMode : Nat) (peerPort : Nat) (nonce : List Byte)
  | identity (p : Nat) (certs : List Byte) (ownerHash : List Byte) (report : List Byte)
  | kemOffer (p : Nat) (ek ecPub : List Byte)
  | kemReply (p : Nat) (ct ecPub : List Byte)
  | confirm (p : Nat) (mac : List Byte)
  | nodeIdClaim
  | alone
  | linkStateAdvertisement (p : Nat) (a : Adv)
  | memberTimeout (node : Nat)
  /-- R314: an announcement received (epoch, switch TOR, digest), or none when this module is the announcer. -/
  | epochAnnounce (rx : Option (Nat × Nat × List Byte))
  | routeEpochSwitch
  | routeTableRetire
  | msgRead (m : Msg)
  | msgReadOwn (m : Msg)
  | msgUpgrade (m : Msg)
  | msgWriteback (m : Msg)
  | msgUncached (m : Msg)
  | msgSnoop (m : Msg)
  | msgData (m : Msg)
  | msgDone (m : Msg)
  | messageResend (tag : Nat)
  | requestUnreachable (tag : Nat)
  | snoopTimeout (line : Nat)
  | leave (v : View)
  | rejoin (v : View)
  | removeReqN (asserted : Bool)
  | enterLeft
  /-- R354: a channel processor of hub 0 (north) or 1 (south) takes the next operation. -/
  | cpTake (hub : Nat)
  | priorityAging (i : Nat)
  | waitTorExpiry (i : Nat)
  | dataFrame (n : Nat) (f : DataFrame)
  | statusFrame (n : Nat) (f : StatusFrame)
  | haltTimeout (i : Nat)
  | csSubchWrite (v : View) (i : Nat) (val : Long)
  | mirror (m : Msg)
  | mirrorAck (m : Msg)
  | mirrorTimeout (i : Nat)
  | pairingExchange (info : PairInfo)
  | resyncComplete
  | latClr (v : View)
  /-- R499: a copy received from the partner (index, value), or none when this module sends its oldest waiting copy. -/
  | subchCopy (rx : Option (Nat × Long))
  | heartbeatSend
  | heartbeat (path : HbPath) (l0 l1 : Long)
  | heartbeatMiss (path : HbPath)
  | holddownExpiry
  | failbackNow (v : View)
  | enable (v : View) (b : QBlock) (q : Nat)
  | disable (v : View) (b : QBlock) (q : Nat)
  | resume (v : View) (b : QBlock) (q : Nat)
  | queueDoorbell (v : View) (b : QBlock) (q : Nat) (val : Long)
  /-- R403: Rasp engine k takes its next job, which is a COMPRESS. -/
  | compress (k : Nat)
  | decompress (k : Nat)
  /-- R394: the job of Rasp engine k ends; `parity` is a parity error in the engine. -/
  | raspJobComplete (k : Nat) (parity : Bool)
  | encrypt (k : Nat)
  | decrypt (k : Nat)
  | macGen (k : Nat)
  | macVerify (k : Nat)
  | hash (k : Nat)
  | kwWrap (k : Nat)
  | kwUnwrap (k : Nat)
  | genkey (k : Nat)
  | unwrap (k : Nat)
  | wrap (k : Nat)
  | clear (k : Nat)
  | urgentSuspend (k : Nat)
  /-- R438: the request of Intaglio engine k ends; `fault` is a parity error or a DUAL mismatch (R452). -/
  | intaglioRequestComplete (k : Nat) (fault : Bool)
  | moduleReport (v : View) (off : Nat)
  | partitionReport (v : View) (p off : Nat)
  | trPatt (v : View) (n : Nat) (val : Long)
  /-- R417: the report through TR_ATT_CMD (none) or through TR_PATTn (some n) is complete. -/
  | attestationComplete (which : Option Nat)
  | entropyTestFail (south : Bool)
  /-- R421: the module's instance (none) or partition p's (some p) reseeds. -/
  | drbgReseed (inst : Option Nat)
  | rekeyRequest (src : Nat) (sc : Scope) (uuid : List Byte)
  | rekeyAck (src : Nat) (sc : Scope)
  | boundaryScan (i : ScanInstr)
  | hostWindowRead (w : WinSel) (addr len : Nat)
  | hostWindowWrite (w : WinSel) (addr : Nat) (data : List Byte) (ep : Bool)
  | hostCompletion (tag : Nat) (data : List Byte) (ep : Bool)
  | completionTimeout (tag : Nat)
  | commit (v : View) (mask : BitVec 17)
  | claim (v : View) (kind : Nat) (q : Nat)
  | qpRelease (v : View) (q : Nat)
  | mailboxInbound (q : Nat)
  | mailboxOutbound (q : Nat)
  | flr (fn : Nat)
  | perstN (asserted : Bool)
  | hotReset
  | busMasterEnable (fn : Nat) (on : Bool)
  /-- R478, R485: source src raises event code; `part` is the partition it acts for, `detail` the failing address,
  `holds` whether the condition that raised it goes on holding (R484). -/
  | faultEvent (src code : Nat) (part : Option Nat) (detail : Long) (holds : Bool)
  /-- R481: the rails of the path from the reporter to the collector of die d are equal for 4 samples; the event the
  reporter is read as reporting. -/
  | reportingPathFault (die reporter code : Nat) (part : Option Nat)
  | graceExpiry (src : Nat)
  /-- R484: 1 is written to PENDING; `setNow` when hardware sets it in the same cycle (R9). -/
  | pendingClear (v : View) (src : Nat) (setNow : Bool)
  | patinaClear (v : View) (first last : Nat)
  | unfence (v : View) (src : Nat)
  | patinaSnapshot
  | errNPulseEnd
  /-- R523: CS_CMD STORE_A; `flashOk` is whether programming succeeds. -/
  | csStoreA (v : View) (flashOk : Bool)
  | csStoreB (v : View) (flashOk : Bool)
  | csScrub (n : Nat)
  /-- R517: the rewrite of the word under repair in store n ends; the copies that served, DRAM then flash. -/
  | csRepairDone (n : Nat) (dramOk flashOk : Bool)
  | inject (v : View) (kind : BitVec 2)
  /-- R549: voltages of VIN_A and VIN_B in mV. -/
  | feedSwitch (a b : Nat)
  | feedReturn (a b : Nat)
  | feedLoss (a b : Nat)
  | thermtrip (sensor : Nat)
  /-- R565, R590: PRSNT_N has read low for 50 ms; whether RESET_N is low then. -/
  | hotInsertion (resetLow : Bool)
  | prsntDeassert
  | clockLoss (c : ClockId)
  | smb4ReadWord (code : Nat)
  | mqId (ss : Session)
  | mqTor (ss : Session)
  | mqPatina (ss : Session) (first last : Nat)
  | mqFlt (ss : Session) (n : Nat)
  | mqPlinth (ss : Session)
  | mqJnl (ss : Session) (index : Option Nat)
  | mqLink (ss : Session) (p : Option PortId)
  | mqBaud (ss : Session) (rate : Nat)
  | baudTimeout
  /-- R574: `at` is the service-window offset of a token placed there. -/
  | mqGrant (ss : Session) (sc : Scope) (offset : Option Nat)
  | tokenLine (ss : Session) (line : List Byte)
  | mqRelease (ss : Session)
  | grantExpiry (ss : Session)
  | mqMemR (ss : Session) (addr count : Nat)
  | mqMemW (ss : Session) (addr : Nat) (val : Long)
  | mqCoreHalt (ss : Session) (l : Nat)
  | mqCoreStep (ss : Session) (l : Nat)
  | mqCoreRun (ss : Session) (l : Nat)
  | mqCoreRegs (ss : Session) (l : Nat)
  | mqRecast (ss : Session) (l : Nat)
  | mailboxLine
  | registerWrite (v : View) (off : Nat) (val : Long)
  | laneRetryComplete (p : PortId) (l : LaneEq)
  | laneLockLoss (p : PortId) (lane : Nat)
  | grantDestructionTimeout
  | hostLinkTrained (width rate : Nat) (flit : Bool)
  | functionResetComplete (fn : Nat)
  | vkaLoss
  /-- R548, R551: voltages of VIN_A, VIN_B and VKA in mV. -/
  | feedGoodChange (a b vka : Nat)
  | clockReturn (c : ClockId)
  | mqRxCharacter (c : Byte)
  /-- R589: a read (none) or a write of a configuration field of function fn. -/
  | hostConfigRequest (fn : Nat) (f : CfgField) (write : Option Long)
deriving DecidableEq, Repr

end Sys2Proof
end

