-- ==== Sys2Proof/Decode.lean ====
section
/-! DEFINITION. Decoding of a table word. No row of spec/opcode_table.json gives its command any bits, so no word spells a
command. The decoding of issue groups, of control-space offsets and of messages stands with the blocks that read them. -/

namespace Sys2Proof

/-- The command that a word of `nbits` bits spells by the table's bits: none, as the table gives no bits. -/
def decodeTableWord (_nbits _w : Nat) : Option Instr := none

end Sys2Proof
end

