-- ==== Sys2Proof/Machine/Tab.lean ====
section
/-! DEFINITION. Sparse tables in one canonical form, bit fields of registers, and big-endian byte strings
(00_scope R5, R6). Every indexed piece of state is a `Tab`: a list of (key, value) pairs with strictly rising keys and no
entry equal to what an unlisted key reads as, so that equal contents are equal data. -/

namespace Sys2Proof.Machine

/-- A sparse table by key. What an unlisted key reads as is given at every access. -/
abbrev Tab (α : Type) := List (Nat × α)

/-- The value at a key, `d` where the key is not listed. -/
def tget {α : Type} (d : α) (k : Nat) : Tab α → α
  | [] => d
  | (k', v) :: t => if k' = k then v else tget d k t

/-- The table without a key. -/
def tdel {α : Type} (k : Nat) : Tab α → Tab α
  | [] => []
  | (k', v) :: t => if k' = k then tdel k t else (k', v) :: tdel k t

/-- The table with `v` listed at key `k`. -/
def tins {α : Type} (k : Nat) (v : α) : Tab α → Tab α
  | [] => [(k, v)]
  | (k', v') :: t =>
    if k < k' then (k, v) :: (k', v') :: t
    else if k' = k then (k, v) :: t
    else (k', v') :: tins k v t

/-- Write `v` at key `k`: writing what an unlisted key reads as removes the entry. -/
def tset {α : Type} [DecidableEq α] (d : α) (k : Nat) (v : α) (t : Tab α) : Tab α :=
  if v = d then tdel k t else tins k v t

/-- Apply `f` to the value at key `k`. -/
def tmod {α : Type} [DecidableEq α] (d : α) (k : Nat) (f : α → α) (t : Tab α) : Tab α :=
  tset d k (f (tget d k t)) t

/-- Keep the entries whose key satisfies `p`. -/
def tkeep {α : Type} (p : Nat → Bool) (t : Tab α) : Tab α := t.filter (fun e => p e.1)

/-- Every key is above `lo`, keys rise strictly, and no value is `d`. -/
def tsorted {α : Type} [DecidableEq α] (d : α) : Option Nat → Tab α → Bool
  | _, [] => true
  | lo, (k, v) :: t => (match lo with | none => true | some b => decide (b < k)) && decide (v ≠ d) && tsorted d (some k) t

/-- The canonical form of a table. -/
def twf {α : Type} [DecidableEq α] (d : α) (t : Tab α) : Bool := tsorted d none t

/-- Bits `hi` down to `lo` of a number (R5). -/
def bits (w hi lo : Nat) : Nat := (w >>> lo) % 2 ^ (hi + 1 - lo)

/-- Bit `n` of a number. -/
def bitAt (w n : Nat) : Bool := w.testBit n

/-- Bits `hi` down to `lo` of a long, as a number. -/
def fld (w : Long) (hi lo : Nat) : Nat := bits w.toNat hi lo

/-- Bit `n` of a long. -/
def lbit (w : Long) (n : Nat) : Bool := w.getLsbD n

/-- A Bool as a one-bit field. -/
def b2n (b : Bool) : Nat := if b then 1 else 0

/-- A long built of fields (hi, lo, value); a value wider than its field keeps its low bits. -/
def pack : List (Nat × Nat × Nat) → Long
  | [] => 0
  | (hi, lo, v) :: t => BitVec.ofNat 64 ((v % 2 ^ (hi + 1 - lo)) <<< lo) ||| pack t

/-- The mask with ones in bits `hi` down to `lo`. -/
def maskBits (hi lo : Nat) : Long := BitVec.ofNat 64 ((2 ^ (hi + 1 - lo) - 1) <<< lo)

/-- Sign extension of the low `w` bits of a number. -/
def sextNat (w n : Nat) : Int := if n % 2 ^ w < 2 ^ (w - 1) then Int.ofNat (n % 2 ^ w) else Int.ofNat (n % 2 ^ w) - 2 ^ w

/-- The long with a given integer value modulo 2^64. -/
def longOfInt (i : Int) : Long := BitVec.ofInt 64 i

/-- The `n` bytes of a number, most significant first (R6). -/
def beBytes : Nat → Nat → List Byte
  | 0, _ => []
  | n + 1, w => BitVec.ofNat 8 (w >>> (8 * n)) :: beBytes n w

/-- The number that bytes spell, most significant first (R6). -/
def beNat (bs : List Byte) : Nat := bs.foldl (fun a b => a * 256 + b.toNat) 0

/-- `n` bytes of a list from offset `o`, zero past its end. -/
def bytesAt (bs : List Byte) (o n : Nat) : List Byte := ((bs.drop o).take n) ++ List.replicate (n - ((bs.drop o).take n).length) 0

/-- The big-endian number of `n` bytes at offset `o` of a list. -/
def natAt (bs : List Byte) (o n : Nat) : Nat := beNat (bytesAt bs o n)

/-- Every byte of a list is 0. -/
def allZero (bs : List Byte) : Bool := bs.all (fun b => b == 0)

/-- The numbers below `n`, rising. -/
def upto (n : Nat) : List Nat := List.range n

/-- The first index below `n` that satisfies `p`. -/
def findBelow (n : Nat) (p : Nat → Bool) : Option Nat := (List.range n).find? p

/-- A list made exactly `n` long, with `d` past its end. -/
def fixLen {α : Type} (d : α) (n : Nat) (l : List α) : List α := l.take n ++ List.replicate (n - l.length) d

/-- Replace element `i` of a list. -/
def listSet {α : Type} (l : List α) (i : Nat) (v : α) : List α := l.set i v

/-- Ceiling division. -/
def cdiv (a b : Nat) : Nat := (a + b - 1) / b

/-- Saturating increment of a 16-bit counter (21 R491). -/
def sat16 (h : Half) : Half := if h = 0xFFFF then h else h + 1

end Sys2Proof.Machine
end

