-- ==== Sys2Proof/Machine/Flags.lean ====
section
/-! DEFINITION. Condition-code computations (04_issue_groups R88, R89; 05_binary_integer R120; 06_packed_decimal R138,
R145) and the exception letters of the F unit (07_floating_point R161 to R163). -/

namespace Sys2Proof.Machine

/-- CC "result": zero, negative as signed, positive as signed (R120). -/
def ccResult (r : Long) : BitVec 2 := if r = 0 then 0 else if r.msb then 1 else 2

/-- CC "arithmetic": overflow, else the sign of the result (R120). -/
def ccArith (ov : Bool) (r : Long) : BitVec 2 := if ov then 3 else ccResult r

/-- CC "compare" from a comparison of two integers (R120). -/
def ccCompare (a b : Int) : BitVec 2 := if a = b then 0 else if a < b then 1 else 2

/-- CC of an exact signed value: zero, negative, positive (MULH and MULHU, R124). -/
def ccSign (i : Int) : BitVec 2 := ccCompare i 0

/-- Whether a signed integer fits 64 bits (R119). -/
def fitsLong (i : Int) : Bool := decide (-(2 ^ 63 : Int) ≤ i) && decide (i ≤ 2 ^ 63 - 1)

/-- A 4-bit branch mask selects CC v when mask bit 3 − v is 1 (R89). -/
def maskSelects (mask : Nat) (cc : BitVec 2) : Bool := mask.testBit (3 - cc.toNat)

/-- The exceptions that an F operation signals (R161). -/
structure FpFlags where
  v : Bool
  z : Bool
  o : Bool
  u : Bool
  x : Bool
  /-- The result is tiny, exact or not: what a trapped underflow looks at (R161). -/
  tiny : Bool
deriving DecidableEq, Repr

/-- No exception. -/
def fpNone : FpFlags := ⟨false, false, false, false, false, false⟩

/-- Invalid operation alone. -/
def fpInvalid : FpFlags := { fpNone with v := true }

/-- The sticky flags FL_V, FL_Z, FL_O, FL_U, FL_X in FPC[23:19] (R158). With TE_U underflow is signalled whenever the result is tiny
(R161, R163). -/
def fpSticky (fpc : Long) (f : FpFlags) : Long :=
  pack [(23, 23, b2n f.v), (22, 22, b2n f.z), (21, 21, b2n f.o), (20, 20, b2n (f.u || (f.tiny && lbit fpc 28))), (19, 19, b2n f.x)]

/-- The trapped exceptions under FPC's trap enables, in the FXC's layout: bit 7 V, 6 Z, 5 O, 4 U, 3 X (R158, R163). With
TE_U the underflow trap is taken whenever the result is tiny (R161). -/
def fpTrapped (fpc : Long) (f : FpFlags) : Option Nat :=
  if f.v && lbit fpc 31 then some 0x80
  else if f.z && lbit fpc 30 then some 0x40
  else if f.o && lbit fpc 29 then some 0x20
  else if f.tiny && lbit fpc 28 then some 0x10
  else if f.x && lbit fpc 27 then some 0x08
  else none

end Sys2Proof.Machine
end

