-- ==== Sys2Proof/Machine/BinaryFloat.lean ====
section
/-! DEFINITION. Binary floating point: the values of the three formats, rounding, and the result and exceptions of every
F operation (07_floating_point R155 to R168). A finite value is an exact m × 2^e; every operation computes the exact
result and rounds it once (R160). -/

namespace Sys2Proof.Machine

/-- A format: total width, exponent width, precision with the hidden bit (R155). -/
structure FpFmt where
  w : Nat
  e : Nat
  p : Nat
deriving DecidableEq, Repr

/-- The format that a format field selects: 0b00 .s, 0b01 .d, 0b10 .q (R115). -/
def fpFmt (n : Nat) : FpFmt := if n = 0 then ⟨32, 8, 24⟩ else if n = 1 then ⟨64, 11, 53⟩ else ⟨128, 15, 113⟩

/-- The exponent bias, which is also the greatest exponent. -/
def FpFmt.bias (f : FpFmt) : Nat := 2 ^ (f.e - 1) - 1

/-- The exponent of the last place of subnormal values. -/
def FpFmt.qmin (f : FpFmt) : Int := 2 - (f.bias : Int) - (f.p : Int)

/-- A value of a format. `nan` holds the trailing significand, the quiet bit included. -/
inductive FpVal where
  | nan (sign : Bool) (sig : Nat)
  | inf (sign : Bool)
  | zero (sign : Bool)
  | fin (sign : Bool) (m : Nat) (e : Int)
deriving DecidableEq, Repr

/-- The value that a pattern holds; bits above the format are ignored (R156). -/
def fpRead (f : FpFmt) (v : Nat) : FpVal :=
  let s := v.testBit (f.w - 1)
  let ex := bits v (f.w - 2) (f.p - 1)
  let t := v % 2 ^ (f.p - 1)
  if ex = 2 ^ f.e - 1 then (if t = 0 then .inf s else .nan s t)
  else if ex = 0 then (if t = 0 then .zero s else .fin s t f.qmin)
  else .fin s (t + 2 ^ (f.p - 1)) ((ex : Int) - 1 + f.qmin)

/-- The sign bit of a format, placed. -/
def fpSignBit (f : FpFmt) (s : Bool) : Nat := if s then 2 ^ (f.w - 1) else 0

/-- An infinity. -/
def fpInf (f : FpFmt) (s : Bool) : Nat := fpSignBit f s + (2 ^ f.e - 1) * 2 ^ (f.p - 1)

/-- The largest finite value N (R157). -/
def fpMax (f : FpFmt) (s : Bool) : Nat := fpInf f s - 1

/-- The default NaN (R157, R164). -/
def fpDefaultNan (f : FpFmt) : Nat := fpInf f false + 2 ^ (f.p - 2)

/-- A quieted NaN of the format (R165). -/
def fpNan (f : FpFmt) (s : Bool) (sig : Nat) : Nat :=
  fpInf f s + (if sig.testBit (f.p - 2) then sig else sig + 2 ^ (f.p - 2))

/-- A NaN is signalling when its quiet bit is 0 (R164). -/
def fpSnan (f : FpFmt) : FpVal → Bool
  | .nan _ sig => !sig.testBit (f.p - 2)
  | _ => false

/-- A value is a NaN. -/
def fpIsNan : FpVal → Bool
  | .nan _ _ => true
  | _ => false

/-- Round m / 2^k to an integer under a mode, with whether it was exact (R160). -/
def roundShift (rm : Nat) (s : Bool) (m k : Nat) : Nat × Bool :=
  let q := m >>> k
  let r := m % 2 ^ k
  let up : Bool :=
    if r = 0 then false
    else if rm = 1 then false
    else if rm = 2 then !s
    else if rm = 3 then s
    else if rm = 4 then decide (2 ^ k ≤ 2 * r)
    else decide (2 ^ k < 2 * r) || (decide (2 ^ k = 2 * r) && q.testBit 0)
  (if up then q + 1 else q, r == 0)

/-- Round m × 2^e to an integer multiple of 2^q (R160): the multiple and whether it is exact. -/
def roundTo (rm : Nat) (s : Bool) (m : Nat) (e q : Int) : Nat × Bool :=
  if q ≤ e then (m <<< (e - q).toNat, true) else roundShift rm s m (q - e).toNat

/-- The delivered pattern and the exceptions for an exact non-zero m × 2^e (R160, R161): overflow and tininess are judged
on the result rounded to the precision with unbounded exponent. -/
def fpRound (f : FpFmt) (rm : Nat) (s : Bool) (m : Nat) (e : Int) : Nat × FpFlags :=
  let msb : Int := e + (Nat.log2 m : Int)
  let q0 : Int := msb + 1 - (f.p : Int)
  let r0 := roundTo rm s m e q0
  let msb' : Int := if r0.1 = 2 ^ f.p then msb + 1 else msb
  let tiny : Bool := decide (msb' < 1 - (f.bias : Int))
  if (f.bias : Int) < msb' then
    let toInf : Bool := if rm = 1 then false else if rm = 2 then !s else if rm = 3 then s else true
    ((if toInf then fpInf f s else fpMax f s), { fpNone with o := true, x := true })
  else
    let q : Int := if q0 < f.qmin then f.qmin else q0
    let r := roundTo rm s m e q
    let exField : Nat := (q - f.qmin).toNat
    (fpSignBit f s + exField * 2 ^ (f.p - 1) + r.1, { fpNone with u := tiny && !r.2, x := !r.2, tiny := tiny })

/-- Deliver an exact value: a zero keeps its sign (R160). -/
def fpDeliver (f : FpFmt) (rm : Nat) (s : Bool) (m : Nat) (e : Int) : Nat × FpFlags :=
  if m = 0 then (fpSignBit f s, fpNone) else fpRound f rm s m e

/-- The NaN that an operation delivers for its operands in operand order (R165), and whether invalid is signalled. -/
def fpPickNan (f : FpFmt) (ops : List FpVal) : Nat × FpFlags :=
  match ops.find? (fpSnan f) with
  | some (.nan s sig) => (fpNan f s sig, fpInvalid)
  | _ =>
    match ops.find? fpIsNan with
    | some (.nan s sig) => (fpNan f s sig, fpNone)
    | _ => (fpDefaultNan f, fpInvalid)

/-- The sign of an exact sum of zero: that of both terms where they agree, else plus, or minus under RDN (R168). -/
def zeroSumSign (rm : Nat) (s1 s2 : Bool) : Bool := if s1 = s2 then s1 else rm == 3

/-- The exact sum of two terms m × 2^e, signed: sign, magnitude, exponent. -/
def exactSum (rm : Nat) (s1 : Bool) (m1 : Nat) (e1 : Int) (s2 : Bool) (m2 : Nat) (e2 : Int) : Bool × Nat × Int :=
  let e := min e1 e2
  let a : Int := (if s1 then -1 else 1) * ((m1 <<< (e1 - e).toNat : Nat) : Int)
  let b : Int := (if s2 then -1 else 1) * ((m2 <<< (e2 - e).toNat : Nat) : Int)
  let t := a + b
  if t = 0 then (zeroSumSign rm s1 s2, 0, e) else (decide (t < 0), t.natAbs, e)

/-- A finite value or zero as sign, magnitude, exponent. -/
def fpParts : FpVal → Bool × Nat × Int
  | .zero s => (s, 0, 0)
  | .fin s m e => (s, m, e)
  | .inf s => (s, 0, 0)
  | .nan s _ => (s, 0, 0)

/-- The sign of a value. -/
def fpSign : FpVal → Bool
  | .zero s => s
  | .fin s _ _ => s
  | .inf s => s
  | .nan s _ => s

/-- A value is an infinity. -/
def fpIsInf : FpVal → Bool
  | .inf _ => true
  | _ => false

/-- A value is a zero. -/
def fpIsZero : FpVal → Bool
  | .zero _ => true
  | _ => false

/-- FADD, and FSUB with `neg` on its second operand (R161, R165, R166, R168). -/
def fpAdd (f : FpFmt) (rm : Nat) (neg : Bool) (a b : Nat) : Nat × FpFlags :=
  let x := fpRead f a
  let y := fpRead f b
  if fpIsNan x || fpIsNan y then fpPickNan f [x, y]
  else
    let sy := fpSign y != neg
    if fpIsInf x && fpIsInf y then
      if fpSign x = sy then (fpInf f sy, fpNone) else (fpDefaultNan f, fpInvalid)
    else if fpIsInf x then (fpInf f (fpSign x), fpNone)
    else if fpIsInf y then (fpInf f sy, fpNone)
    else
      let px := fpParts x
      let py := fpParts y
      let t := exactSum rm px.1 px.2.1 px.2.2 sy py.2.1 py.2.2
      fpDeliver f rm t.1 t.2.1 t.2.2

/-- FMUL (R166). -/
def fpMul (f : FpFmt) (rm : Nat) (a b : Nat) : Nat × FpFlags :=
  let x := fpRead f a
  let y := fpRead f b
  let s := fpSign x != fpSign y
  if fpIsNan x || fpIsNan y then fpPickNan f [x, y]
  else if (fpIsInf x && fpIsZero y) || (fpIsZero x && fpIsInf y) then (fpDefaultNan f, fpInvalid)
  else if fpIsInf x || fpIsInf y then (fpInf f s, fpNone)
  else
    let px := fpParts x
    let py := fpParts y
    fpDeliver f rm s (px.2.1 * py.2.1) (px.2.2 + py.2.2)

/-- FDIV (R161, R166): the quotient is taken to enough bits, with a sticky bit, that rounding it is exact. -/
def fpDiv (f : FpFmt) (rm : Nat) (a b : Nat) : Nat × FpFlags :=
  let x := fpRead f a
  let y := fpRead f b
  let s := fpSign x != fpSign y
  if fpIsNan x || fpIsNan y then fpPickNan f [x, y]
  else if (fpIsInf x && fpIsInf y) || (fpIsZero x && fpIsZero y) then (fpDefaultNan f, fpInvalid)
  else if fpIsInf x then (fpInf f s, fpNone)
  else if fpIsInf y then (fpSignBit f s, fpNone)
  else if fpIsZero y then (fpInf f s, { fpNone with z := true })
  else
    let px := fpParts x
    let py := fpParts y
    let k := 2 * f.p + 4
    let n := px.2.1 <<< k
    let q := n / py.2.1
    let st := if n % py.2.1 = 0 then 0 else 1
    fpDeliver f rm s (2 * q + st) (px.2.2 - py.2.2 - (k : Int) - 1)

/-- Integer square root, one bit of the root a time from bit `n` − 1 down. -/
def isqrtFrom (v : Nat) : Nat → Nat → Nat
  | 0, r => r
  | n + 1, r => if (r + 2 ^ n) * (r + 2 ^ n) ≤ v then isqrtFrom v n (r + 2 ^ n) else isqrtFrom v n r

/-- FSQRT (R161, R166). -/
def fpSqrt (f : FpFmt) (rm : Nat) (a : Nat) : Nat × FpFlags :=
  match fpRead f a with
  | .nan s sig => fpPickNan f [.nan s sig]
  | .zero s => (fpSignBit f s, fpNone)
  | .inf s => if s then (fpDefaultNan f, fpInvalid) else (fpInf f false, fpNone)
  | .fin s m e =>
    if s then (fpDefaultNan f, fpInvalid)
    else
      let odd : Nat := (e % 2).toNat
      let k := f.p + 3
      let v := m <<< (2 * k + odd)
      let r := isqrtFrom v (f.p + k + 2) 0
      let st := if r * r = v then 0 else 1
      fpDeliver f rm false (2 * r + st) ((e - (odd : Int)) / 2 - (k : Int) - 1)

/-- FMA, FMS and FNMA (R160, R165, R166): r ← ±(a × b ± d), rounded once. `negd` negates the addend; `negr` negates the
exact sum. -/
def fpFma (f : FpFmt) (rm : Nat) (negd negr : Bool) (a b d : Nat) : Nat × FpFlags :=
  let x := fpRead f a
  let y := fpRead f b
  let z := fpRead f d
  let sp := fpSign x != fpSign y
  let sz := fpSign z != negd
  let zeroInf := (fpIsInf x && fpIsZero y) || (fpIsZero x && fpIsInf y)
  if fpIsNan x || fpIsNan y || fpIsNan z then
    let r := fpPickNan f [x, y, z]
    (r.1, if zeroInf then fpInvalid else r.2)
  else if zeroInf then (fpDefaultNan f, fpInvalid)
  else if fpIsInf x || fpIsInf y then
    if fpIsInf z && sp != sz then (fpDefaultNan f, fpInvalid) else (fpInf f (sp != negr), fpNone)
  else if fpIsInf z then (fpInf f (sz != negr), fpNone)
  else
    let px := fpParts x
    let py := fpParts y
    let pz := fpParts z
    let t := exactSum rm sp (px.2.1 * py.2.1) (px.2.2 + py.2.2) sz pz.2.1 pz.2.2
    fpDeliver f rm (t.1 != negr) t.2.1 t.2.2

/-- The order of two values that are not NaN: sign of x − y. −0 equals +0 (R166). -/
def fpOrder (x y : FpVal) : Int :=
  match x, y with
  | .inf s, .inf t => if s = t then 0 else if s then -1 else 1
  | .inf s, _ => if s then -1 else 1
  | _, .inf t => if t then 1 else -1
  | _, _ =>
    let px := fpParts x
    let py := fpParts y
    let t := exactSum 0 px.1 px.2.1 px.2.2 (!py.1) py.2.1 py.2.2
    if t.2.1 = 0 then 0 else if t.1 then -1 else 1

/-- FCMP (R166): CC and exceptions. -/
def fpCmp (f : FpFmt) (a b : Nat) : BitVec 2 × FpFlags :=
  let x := fpRead f a
  let y := fpRead f b
  if fpIsNan x || fpIsNan y then (3, if fpSnan f x || fpSnan f y then fpInvalid else fpNone)
  else (ccSign (fpOrder x y), fpNone)

/-- FMIN and FMAX (R165, R166). −0 is taken as less than +0. -/
def fpMinMax (f : FpFmt) (isMax : Bool) (a b : Nat) : Nat × FpFlags :=
  let x := fpRead f a
  let y := fpRead f b
  let fl := if fpSnan f x || fpSnan f y then fpInvalid else fpNone
  if fpIsNan x && fpIsNan y then fpPickNan f [x, y]
  else if fpIsNan x then (b % 2 ^ f.w, fl)
  else if fpIsNan y then (a % 2 ^ f.w, fl)
  else
    let o := fpOrder x y
    let less : Bool := decide (o < 0) || (o == 0 && fpSign x && !fpSign y)
    ((if less != isMax then a % 2 ^ f.w else b % 2 ^ f.w), fl)

/-- FABS and FNEG: only the sign bit changes (R156, R166). -/
def fpSetSign (f : FpFmt) (neg : Bool) (a : Nat) : Nat :=
  let m := a % 2 ^ (f.w - 1)
  if neg then m + fpSignBit f (!a.testBit (f.w - 1)) else m

/-- FCLASS (R166). -/
def fpClass (f : FpFmt) (a : Nat) : Nat :=
  match fpRead f a with
  | .inf s => if s then 1 else 0x80
  | .zero s => if s then 8 else 0x10
  | .nan _ sig => if sig.testBit (f.p - 2) then 0x200 else 0x100
  | .fin s m _ =>
    if m < 2 ^ (f.p - 1) then (if s then 4 else 0x20) else (if s then 2 else 0x40)

/-- FCVT (R165, R166). -/
def fpConvert (src dst : FpFmt) (rm : Nat) (a : Nat) : Nat × FpFlags :=
  match fpRead src a with
  | .nan s sig =>
    let sig' := if src.p ≤ dst.p then sig <<< (dst.p - src.p) else sig >>> (src.p - dst.p)
    (fpNan dst s sig', if sig.testBit (src.p - 2) then fpNone else fpInvalid)
  | .inf s => (fpInf dst s, fpNone)
  | .zero s => (fpSignBit dst s, fpNone)
  | .fin s m e => fpDeliver dst rm s m e

/-- FCVTI (R166, R167). -/
def fpToInt (f : FpFmt) (rm : Nat) (unsigned : Bool) (a : Nat) : Nat × FpFlags :=
  let hi : Int := if unsigned then 2 ^ 64 - 1 else 2 ^ 63 - 1
  let lo : Int := if unsigned then 0 else -(2 ^ 63)
  let sat (s : Bool) : Nat := if s then (lo % 2 ^ 64).toNat else hi.toNat
  match fpRead f a with
  | .nan _ _ => (0, fpInvalid)
  | .inf s => (sat s, fpInvalid)
  | .zero _ => (0, fpNone)
  | .fin s m e =>
    let r := roundTo rm s m e 0
    let i : Int := if s then -(r.1 : Int) else (r.1 : Int)
    if lo ≤ i ∧ i ≤ hi then ((i % 2 ^ 64).toNat, { fpNone with x := !r.2 })
    else (sat s, fpInvalid)

/-- FCVTF (R166). -/
def fpFromInt (f : FpFmt) (rm : Nat) (unsigned : Bool) (g : Long) : Nat × FpFlags :=
  let i : Int := if unsigned then (g.toNat : Int) else g.toInt
  let r := fpDeliver f rm (decide (i < 0)) i.natAbs 0
  (r.1, { fpNone with x := r.2.x })

end Sys2Proof.Machine
end

