-- ==== Sys2Proof/Machine/Effects.lean ====
section
/-! DEFINITION. What the operations of an issue group gather before the group commits, as plain data: storage effects in syllable
order, register writes, and what the B operation does (04_issue_groups R92 to R95). A group that has begun an operation outside
its core is held in State with these (20_retry_recast R464). -/

namespace Sys2Proof.Machine

/-- The channel instructions (R117; 15 R330). -/
inductive IoOp where
  | start | halt | cancel | test | store | modify | accept
deriving DecidableEq, Repr

/-- The cache maintenance operations (11_caches R246). -/
inductive CacheOp where
  | wb | inv | wbinv
deriving DecidableEq, Repr

/-- A program interruption condition that is pending at a boundary (08 R179, R180). -/
structure PgmPend where
  code : Nat
  xc : Nat
  addr : Nat
deriving DecidableEq, Repr

/-- What an atomic operation does with the bytes it reads (10 R232): CAS and CASQ store `new` where they equal `cmp`; LAAD adds. -/
inductive AtomKind where
  | cas (cmp new : List Byte)
  | laad (add : Nat)
deriving DecidableEq, Repr

/-- An atomic operation whose place has passed its checks: real address and Armature address, attribute, bytes, what it does, its
destination register or pair, and the leaf entry whose C bit its store has still to set (10 R232, R233; 09 R202). -/
structure AtomOp where
  real : Nat
  arm : Nat
  attr : Nat
  n : Nat
  kind : AtomKind
  rd : Nat
  setC : Option Nat
deriving DecidableEq, Repr

/-- A storage effect of a committed group, at its syllable position (R94). -/
inductive MemOp where
  /-- A store; `grain` is the number of its bytes that are performed together at least (10 R221, R222). -/
  | store (arm attr grain after : Nat) (strl : Option Nat) (data : List Byte)
  | ctl (off : Nat) (v : Long)
  | atom (a : AtomOp)
  /-- STCND; `held` is whether the core held the granule's reservation when the group began (10 R234); `setC` is the leaf entry whose
  C bit its store sets. -/
  | stcnd (arm attr : Nat) (setC : Option Nat) (data : List Byte) (held : Bool)
  | setResv (arm : Nat)
  /-- The place of an LDRES whose reservation was set when the group began to commit. -/
  | ldres
  /-- The C bit of a leaf entry is set (09 R202). -/
  | mark (leaf : Nat)
  | fence (scope mask : Nat)
  | lda (scope : Nat)
  | cache (k : CacheOp) (line : Nat)
  /-- A cache maintenance operation is under way at the home of its line, with this tag (11 R246). -/
  | cacheWait (tag : Nat)
  | tlbi (all : Bool) (scope va : Nat)
deriving DecidableEq, Repr

/-- What the B operation of a group does at commit, beside registers and CC. -/
inductive Special where
  | none
  | rfi
  | mtcr (c : Nat) (v : Long)
  | waitev (deadline : Nat)
  | sig (target kind param : Nat)
  | trap (code : Nat)
  | io (k : IoOp) (a b : Long)
  | hwindow (a : Long)
  | getrand (rd : Nat)
deriving DecidableEq, Repr

/-- A read of storage by a load or a storage operand of a group, in syllable order: Armature address, bytes and attribute; its value,
none for an uncached read that has still to be made (10 R220); and whether that value may yet decide an exception of its operation
(06 R141). -/
structure ReadRec where
  arm : Nat
  n : Nat
  attr : Nat
  real : Nat
  data : Option (List Byte)
  decides : Bool
deriving DecidableEq, Repr

/-- The effects that the operations of a group have gathered. -/
structure Eff where
  g : List (Nat × Long) := []
  f : List (Nat × Quad) := []
  cc : Option (BitVec 2) := none
  flags : Long := 0
  ops : List MemOp := []
  /-- Leaf entries whose C bit is to be set (09 R202). -/
  setC : List Nat := []
  target : Option Nat := none
  ovf : Option PgmPend := none
  special : Special := .none
  /-- The reads of the group, in order. -/
  reads : List ReadRec := []
deriving DecidableEq, Repr

/-- A group that has passed every check and whose operations outside the core are under way (20 R464): its effects, with the
storage effects still to be performed; where it continues; a repeat's count register with its new value; and whether a REPN
repeat goes on after it (04 R95, R103, R105). -/
structure HeldGroup where
  eff : Eff
  cont : Nat
  count : Option (Nat × Long)
  repn : Bool
  /-- What ends with these storage effects is only their first part, of so many; the group's loads come after them (10 R224, R227). -/
  first : Option Nat := none
  /-- The bytes that this part replaces. -/
  old : List (Nat × Byte) := []
deriving DecidableEq, Repr

/-- What a group whose loads come after its own stores has already done (10 R224, R227): how many of its storage effects, the registers
and the CC that these give, and the bytes that they replaced, which its loads still read (04 R94). -/
structure PartGroup where
  n : Nat
  eff : Eff
  old : List (Nat × Byte)
deriving DecidableEq, Repr

/-- A repeated group as fetched and decoded before the first iteration (04 R103): the prefix's address, count register and kind, the
words of the group's operations (first word, second word, number of words), whether an S bit closed it, and the address after it. -/
structure RepGroup where
  ga : Nat
  cr : Nat
  repn : Bool
  raw : List (Nat × Nat × Nat)
  stop : Bool
  next : Nat
deriving DecidableEq, Repr

end Sys2Proof.Machine
end

