-- ==== Sys2Proof/Machine/IntAlu.lean ====
section
/-! DEFINITION. The results and condition codes of the A and M units (05_binary_integer R119 to R127). -/

namespace Sys2Proof.Machine

/-- The two-operand A operations that have a .c form (R112, R122). -/
inductive AluOp where
  | add | sub | and | or | xor | andn | shl | shrl | shra | rotl
deriving DecidableEq, Repr

/-- The M operations (R113, R124). -/
inductive MulOp where
  | mul | mulh | mulhu | div | divu | rem | remu
deriving DecidableEq, Repr

/-- The result of an A operation and its overflow condition (R122). The shift amount is the low 8 bits (R123). -/
def aluResult (f : AluOp) (a b : Long) : Long × Bool :=
  let n := b.toNat % 256
  match f with
  | .add => (a + b, !fitsLong (a.toInt + b.toInt))
  | .sub => (a - b, !fitsLong (a.toInt - b.toInt))
  | .and => (a &&& b, false)
  | .or => (a ||| b, false)
  | .xor => (a ^^^ b, false)
  | .andn => (a &&& ~~~b, false)
  | .shl =>
    if n < 64 then (a <<< n, (a <<< n).sshiftRight n != a)
    else (0, a != 0)
  | .shrl => (if n < 64 then a >>> n else 0, false)
  | .shra => (a.sshiftRight (min n 63), false)
  | .rotl => (a.rotateLeft (n % 64), false)

/-- CC of the .c form of an A operation (R122). Only ADD, SUB and SHL can report overflow. -/
def aluCc (f : AluOp) (a b : Long) : BitVec 2 :=
  let r := aluResult f a b
  ccArith r.2 r.1

/-- Leading zero bits of the low `n` bits, from bit n − 1 down (CLZ of R122). -/
def clzFrom (a : Long) : Nat → Nat
  | 0 => 0
  | n + 1 => if a.getLsbD n then 0 else clzFrom a n + 1

/-- CLZ: number of leading zero bits, 0 to 64 (R122). -/
def clz64 (a : Long) : Nat := clzFrom a 64

/-- Number of 1 bits among the low `n` (POPC of R122). -/
def popFrom (a : Long) : Nat → Nat
  | 0 => 0
  | n + 1 => popFrom a n + (if a.getLsbD n then 1 else 0)

/-- POPC: number of 1 bits, 0 to 64 (R122). -/
def popc64 (a : Long) : Nat := popFrom a 64

/-- NEG: 0 − a, with overflow at MIN (R122). -/
def negResult (a : Long) : Long × Bool := (0 - a, a == 0x8000000000000000)

/-- ABS, with overflow at MIN (R122). -/
def absResult (a : Long) : Long × Bool := (if a.msb then 0 - a else a, a == 0x8000000000000000)

/-- BSWAP: byte k of the result is byte 7 − k of a (R122). -/
def bswap64 (a : Long) : Long := BitVec.ofNat 64 (beNat (beBytes 8 a.toNat).reverse)

/-- EXT: the low byte, half or word, extended (R112, R122). -/
def extResult (size : Nat) (signed : Bool) (a : Long) : Long :=
  let w := 8 * 2 ^ size
  if signed then longOfInt (sextNat w a.toNat) else BitVec.ofNat 64 (a.toNat % 2 ^ w)

/-- The result and CC of an M operation, or none for a Fixed-point divide exception (R124 to R126). -/
def mulResult (f : MulOp) (a b : Long) : Option (Long × BitVec 2) :=
  let sa := a.toInt
  let sb := b.toInt
  match f with
  | .mul =>
    let p := sa * sb
    some (longOfInt p, ccArith (!fitsLong p) (longOfInt p))
  | .mulh =>
    let p := sa * sb
    some (longOfInt (p / 2 ^ 64), ccSign p)
  | .mulhu =>
    let p := a.toNat * b.toNat
    some (BitVec.ofNat 64 (p / 2 ^ 64), ccSign (Int.ofNat p))
  | .div =>
    if b = 0 then none
    else
      let q := sa.tdiv sb
      some (longOfInt q, ccArith (!fitsLong q) (longOfInt q))
  | .divu =>
    if b = 0 then none
    else some (BitVec.ofNat 64 (a.toNat / b.toNat), ccSign (Int.ofNat (a.toNat / b.toNat)))
  | .rem =>
    if b = 0 then none
    else if fitsLong (sa.tdiv sb) then
      let r := sa.tmod sb
      some (longOfInt r, ccResult (longOfInt r))
    else some (0, 3)
  | .remu =>
    if b = 0 then none
    else some (BitVec.ofNat 64 (a.toNat % b.toNat), ccSign (Int.ofNat (a.toNat % b.toNat)))

end Sys2Proof.Machine
end

