-- ==== Sys2Proof/Machine/PackedDecimal.lean ====
section
/-! DEFINITION. Packed decimal: formats, checks and the results and condition codes of the D unit
(06_packed_decimal R134 to R151). A packed operand is a number of nibbles: the sign in the low nibble, digit i above it. -/

namespace Sys2Proof.Machine

/-- Nibble `i` of a number. -/
def nib (v i : Nat) : Nat := (v >>> (4 * i)) % 16

/-- Every one of the `n` digit nibbles above the sign is valid (R137). -/
def digitsOk (v : Nat) : Nat → Bool
  | 0 => true
  | n + 1 => decide (nib v (n + 1) ≤ 9) && digitsOk v n

/-- The sign nibble is valid (R137). -/
def signOk (v : Nat) : Bool := decide (10 ≤ nib v 0)

/-- The sign nibble means minus (R137). -/
def signMinus (v : Nat) : Bool := nib v 0 == 0xB || nib v 0 == 0xD

/-- The number that the `n` digit nibbles spell. -/
def digitsVal (v : Nat) : Nat → Nat
  | 0 => 0
  | n + 1 => nib v (n + 1) * 10 ^ n + digitsVal v n

/-- The value of a packed operand of `n` digits. -/
def packedVal (n v : Nat) : Int := if signMinus v then -(Int.ofNat (digitsVal v n)) else Int.ofNat (digitsVal v n)

/-- The nibbles of a number's `n` low decimal digits, digit 0 lowest. -/
def digitNibs (m : Nat) : Nat → Nat
  | 0 => 0
  | n + 1 => m % 10 + 16 * digitNibs (m / 10) n

/-- A packed result of `n` digits: the low digits of the magnitude, and sign 0xC or 0xD; all digits zero carries 0xC
(R138, R142). -/
def packedOf (n : Nat) (i : Int) : Nat :=
  let m := i.natAbs % 10 ^ n
  digitNibs m n * 16 + (if decide (i < 0) && m != 0 then 0xD else 0xC)

/-- The exact result does not fit `n` digits (R142). -/
def decOverflow (n : Nat) (i : Int) : Bool := decide (10 ^ n ≤ i.natAbs)

/-- CC "arithmetic" of a packed result (R138, R142). -/
def ccDecimal (n : Nat) (i : Int) : BitVec 2 := if decOverflow n i then 3 else ccSign i

/-- The decimal detail code of an invalid operand: `k` is 2 for the first operand and 4 for the second (R140). -/
def ddcOf (k n v : Nat) : Option Nat :=
  if !digitsOk v n then some (16 * k + 1) else if !signOk v then some (16 * k + 2) else none

/-- What a decimal operation answers: a result, or a Data, Decimal divide or Conversion-range exception (R139 to R144). -/
inductive DecRes where
  | ok (v : Nat) (cc : BitVec 2)
  | data (ddc : Nat)
  | divide
  | range
deriving DecidableEq, Repr

/-- The two-operand decimal operations. -/
inductive DecOp where
  | add | sub | mul | div
deriving DecidableEq, Repr

/-- The exact result of a two-operand decimal operation on valid operands; none for a zero divisor (R145, R146, R143). -/
def decExact (f : DecOp) (a b : Int) : Option Int :=
  match f with
  | .add => some (a + b)
  | .sub => some (a - b)
  | .mul => some (a * b)
  | .div => if b = 0 then none else some (a.tdiv b)

/-- A two-operand decimal operation on operands of `na` and `nb` digits with a destination of `na` digits: the checks
of R139 to R141 in their order, then the result (R142, R145, R148). -/
def decArith (f : DecOp) (na nb a b : Nat) : DecRes :=
  match ddcOf 2 na a, ddcOf 4 nb b with
  | some c, _ => .data c
  | none, some c => .data c
  | none, none =>
    match decExact f (packedVal na a) (packedVal nb b) with
    | none => .divide
    | some r => .ok (packedOf na r) (ccDecimal na r)

/-- DCMP and DCMPM: compare by value (R145, R148). -/
def decCompare (na nb a b : Nat) : DecRes :=
  match ddcOf 2 na a, ddcOf 4 nb b with
  | some c, _ => .data c
  | none, some c => .data c
  | none, none => .ok 0 (ccCompare (packedVal na a) (packedVal nb b))

/-- An operation on one valid pair: its exact value goes through `f` (DSHL, DSHR, DNORM of R145). -/
def decUnary (f : Int → Int) (a : Nat) : DecRes :=
  match ddcOf 2 31 a with
  | some c => .data c
  | none => .ok (packedOf 31 (f (packedVal 31 a))) (ccDecimal 31 (f (packedVal 31 a)))

/-- DVAL (R145): 0 valid, 1 an invalid digit, 2 an invalid sign, 3 both. -/
def decValid (a : Nat) : BitVec 2 :=
  match digitsOk a 31, signOk a with
  | true, true => 0
  | false, true => 1
  | true, false => 2
  | false, false => 3

/-- DTOB (R144, R145). -/
def decToBin (a : Nat) : DecRes :=
  match ddcOf 2 31 a with
  | some c => .data c
  | none =>
    let i := packedVal 31 a
    if fitsLong i then .ok (longOfInt i).toNat 0 else .range

/-- DFRB (R145). -/
def decFromBin (g : Long) : Nat := packedOf 31 g.toInt

/-- Digit `i` of a zoned pair is in the low nibble of byte 15 − i, that is bits 8i+3:8i (R136). -/
def zonedDigit (v i : Nat) : Nat := (v >>> (8 * i)) % 16

/-- The packed digits of a zoned operand, below digit `n`, without the sign. -/
def zonedPack (v : Nat) : Nat → Nat
  | 0 => 0
  | n + 1 => zonedDigit v n * 16 ^ (n + 1) + zonedPack v n

/-- The zoned operand rearranged as a packed one: 16 digits, the zone of byte 15 as its sign (DPACK, R145). -/
def zonedAsPacked (v : Nat) : Nat := zonedPack v 16 + (v >>> 4) % 16

/-- DPACK (R145): checked as R139 gives for a zoned source; the result's sign under R138. -/
def decPack (v : Nat) : DecRes :=
  let p := zonedAsPacked v
  match ddcOf 2 16 p with
  | some c => .data c
  | none => .ok (packedOf 31 (packedVal 16 p)) 0

/-- A zoned result of 16 digits: zones 0xF, and the sign as the zone of byte 15 (DUNPK, R145). -/
def zonedOf (i : Int) : Nat :=
  let p := packedOf 16 i
  let rec go : Nat → Nat
    | 0 => 0
    | n + 1 => (nib p (n + 1) + 16 * (if n = 0 then nib p 0 else 0xF)) * 2 ^ (8 * n) + go n
  go 16

/-- DUNPK (R142, R145). -/
def decUnpack (a : Nat) : DecRes :=
  match ddcOf 2 31 a with
  | some c => .data c
  | none => .ok (zonedOf (packedVal 31 a)) (ccDecimal 16 (packedVal 31 a))

end Sys2Proof.Machine
end

