-- ==== Sys2Proof/Machine/Operands.lean ====
section
/-! DEFINITION. The operations of a Steaman core and every operand form: the decoding of syllables and long forms, the
L unit's address forms, what an operation writes, and the composition of a group (04_issue_groups R77 to R118). -/

namespace Sys2Proof.Machine

/-- A second operand: a register or an extended immediate (R83). -/
inductive Src where
  | reg (n : Nat)
  | imm (v : Long)
deriving DecidableEq, Repr

/-- An address form of the L unit (R97, R98). -/
inductive AddrForm where
  | disp (ra : Nat) (d : Int)
  | indexed (ra rb sh : Nat)
  | postInc (ra : Nat) (by_ : Int)
  | preDec (ra s : Nat)
deriving DecidableEq, Repr

/-- The two-operand F operations. -/
inductive FOp2 where
  | add | sub | mul | div | min | max
deriving DecidableEq, Repr

/-- An operation of a group, decoded (R112 to R118). -/
inductive COp where
  | alu (f : AluOp) (cc : Bool) (rd ra : Nat) (b : Src)
  | clz (cc : Bool) (rd ra : Nat)
  | popc (cc : Bool) (rd ra : Nat)
  | neg (rd ra : Nat)
  | abs (rd ra : Nat)
  | cmp (signed : Bool) (ra : Nat) (b : Src)
  | mov (rd ra : Nat)
  | bswap (rd ra : Nat)
  | sel (rd ra rb mask : Nat)
  | ext (rd ra size : Nat) (signed : Bool)
  | movi (rd : Nat) (v : Long)
  | ldih (rd : Nat) (v : Nat) (long : Bool)
  | mul (f : MulOp) (rd ra rb : Nat)
  | load (size : Nat) (signed : Bool) (rd : Nat) (a : AddrForm)
  | loadQ (rd : Nat) (a : AddrForm)
  | store (size rd : Nat) (a : AddrForm)
  | storeQ (rd : Nat) (a : AddrForm)
  | loadF (size rd : Nat) (a : AddrForm)
  | storeF (size rd : Nat) (a : AddrForm)
  | lda (size scope rd ra : Nat)
  | strl (size scope rd ra : Nat)
  | ldres (rd ra : Nat)
  | stcnd (rd ra : Nat)
  | cas (rd ra rb : Nat)
  | casq (rd ra rb : Nat)
  | laad (rd ra rb : Nat)
  | fence (scope mask : Nat)
  | pref (hint : Nat) (a : AddrForm)
  | cache (k : CacheOp) (a : AddrForm)
  | tlbi (all : Bool) (scope ra : Nat)
  | fop2 (f : FOp2) (fmt rd ra rb : Nat)
  | fsqrt (fmt rd ra : Nat)
  | fma (negd negr : Bool) (fmt rd ra rb : Nat)
  | fcmp (fmt ra rb : Nat)
  | fsign (neg : Bool) (fmt rd ra : Nat)
  | fclass (fmt rd ra : Nat)
  | fcvt (src dst rd ra : Nat)
  | fcvti (fmt : Nat) (unsigned : Bool) (rd ra : Nat)
  | fcvtf (fmt : Nat) (unsigned : Bool) (rd ra : Nat)
  | dop (f : DecOp) (rd ra rb : Nat)
  | dcmp (ra rb : Nat)
  | dshl (rd ra n : Nat)
  | dshr (rd ra n : Nat)
  | dnorm (rd ra : Nat)
  | dval (ra : Nat)
  | dtob (rd ra : Nat)
  | dfrb (rd ra : Nat)
  | dpack (rd ra : Nat)
  | dunpk (rd ra : Nat)
  | dopM (f : DecOp) (b1 d1 l1 b2 d2 l2 : Nat)
  | dcmpM (b1 d1 l1 b2 d2 l2 : Nat)
  | br (mask : Nat) (d : Int)
  | brl (rd : Nat) (d : Int)
  | bri (mask rd ra : Nat)
  | ret (ra : Nat)
  | trap (code : Nat)
  | rfi
  | mfcr (rd c : Nat)
  | mtcr (c ra : Nat)
  | rdtor (rd : Nat)
  | waitev (ra : Nat)
  | getrand (rd : Nat)
  | sigcore (ra rb : Nat)
  | hwindow (ra : Nat)
  | io (k : IoOp) (ra rb : Nat)
  | rep (n : Bool) (c : Nat)
deriving DecidableEq, Repr

/-- What decoding one operation answers: the operation, an Operation condition (R107) or a Specification condition
(R108). -/
inductive DecR where
  | op (o : COp)
  | operation
  | spec
deriving DecidableEq, Repr

/-- The operation where its reserved fields hold what they must, else Specification (R84, R108). -/
def okIf (c : Bool) (o : COp) : DecR := if c then .op o else .spec

/-- A register field names a pair (R87). -/
def isPair (n : Nat) : Bool := n % 2 == 0 && decide (2 ≤ n) && decide (n ≤ 62)

/-- A register field names an f register (R87). -/
def isF (n : Nat) : Bool := decide (n < 32)

/-- Unit class of a first word, bits 30:28 (R80). -/
def opUnit (w : Nat) : Nat := bits w 30 28

/-- The unit by which an operation is counted and ordered: that of `UNIT` for a long form (R90). -/
def opClass (w : Nat) : Nat := if opUnit w = 6 then bits w 9 7 else opUnit w

/-- A syllable is the first word of a long form (R78). -/
def isLongForm (w : Nat) : Bool := opUnit w == 6

/-- The A operation of an opcode's low digits, in the map's order (R112). -/
def aluOf (n : Nat) : AluOp :=
  match n with
  | 0 => .add | 1 => .sub | 2 => .and | 3 => .or | 4 => .xor | 5 => .andn | 6 => .shl | 7 => .shrl | 8 => .shra | _ => .rotl

/-- The M operation of an opcode (R113). -/
def mulOf (n : Nat) : MulOp :=
  match n with
  | 0 => .mul | 1 => .mulh | 2 => .mulhu | 3 => .div | 4 => .divu | 5 => .rem | _ => .remu

/-- The immediate of `w` bits extended to 64, zero-extended for the operations marked Z (R83, R112). -/
def immOf (z : Bool) (w n : Nat) : Long := if z then BitVec.ofNat 64 n else longOfInt (sextNat w n)

/-- The A-unit operations with an immediate, by their opcode and the extended immediate (R112). `rd0` says that the
fields which the operation does not name are 0. -/
def decodeAImm (op rd ra : Nat) (v : Long) (rest0 : Bool) : DecR :=
  if 0x10 ≤ op ∧ op ≤ 0x19 then okIf rest0 (.alu (aluOf (op - 0x10)) false rd ra (.imm v))
  else if 0x30 ≤ op ∧ op ≤ 0x39 then okIf rest0 (.alu (aluOf (op - 0x30)) true rd ra (.imm v))
  else if op = 0x1E then okIf (rest0 && rd == 0) (.cmp true ra (.imm v))
  else if op = 0x1F then okIf (rest0 && rd == 0) (.cmp false ra (.imm v))
  else .operation

/-- The A operations marked Z (R112). -/
def aluZ (op : Nat) : Bool := decide (0x12 ≤ op ∧ op ≤ 0x15) || decide (0x32 ≤ op ∧ op ≤ 0x35) || op == 0x1F

/-- A-unit syllables (R112). -/
def decodeA (w : Nat) : DecR :=
  let op := bits w 27 22
  let rd := bits w 21 16
  let ra := bits w 15 10
  let rb := bits w 9 4
  let md := bits w 3 0
  if op ≤ 9 then okIf (md == 0) (.alu (aluOf op) false rd ra (.reg rb))
  else if 0x20 ≤ op ∧ op ≤ 0x29 then okIf (md == 0) (.alu (aluOf (op - 0x20)) true rd ra (.reg rb))
  else if op = 0x0A ∨ op = 0x2A then okIf (rb == 0 && md == 0) (.clz (op == 0x2A) rd ra)
  else if op = 0x0B ∨ op = 0x2B then okIf (rb == 0 && md == 0) (.popc (op == 0x2B) rd ra)
  else if op = 0x0C then okIf (rb == 0 && md == 0) (.neg rd ra)
  else if op = 0x0D then okIf (rb == 0 && md == 0) (.abs rd ra)
  else if op = 0x0E ∨ op = 0x0F then okIf (rd == 0 && md == 0) (.cmp (op == 0x0E) ra (.reg rb))
  else if op = 0x2C then okIf (rb == 0 && md == 0) (.mov rd ra)
  else if op = 0x2D then okIf (rb == 0 && md == 0) (.bswap rd ra)
  else if op = 0x2E then .op (.sel rd ra rb md)
  else if op = 0x2F then okIf (rb == 0 && !md.testBit 2 && decide (md % 4 < 3)) (.ext rd ra (md % 4) (md.testBit 3))
  else if op = 0x3A then .op (.movi rd (immOf false 16 (bits w 15 0)))
  else if op = 0x3B then .op (.ldih rd (bits w 15 0) false)
  else decodeAImm op rd ra (immOf (aluZ op) 10 (bits w 9 0)) true

/-- A-unit long forms (R82, R112). -/
def decodeAx (w w2 : Nat) : DecR :=
  let op := bits w 27 22
  let rd := bits w 21 16
  let ra := bits w 15 10
  let r0 := bits w 6 0 == 0
  if op = 0x3A then okIf (r0 && ra == 0) (.movi rd (immOf false 32 w2))
  else if op = 0x3B then okIf (r0 && ra == 0) (.ldih rd w2 true)
  else decodeAImm op rd ra (immOf (aluZ op) 32 w2) r0

/-- M-unit syllables (R113). -/
def decodeM (w : Nat) : DecR :=
  let op := bits w 27 22
  if op ≤ 6 then okIf (bits w 3 0 == 0) (.mul (mulOf op) (bits w 21 16) (bits w 15 10) (bits w 9 4)) else .operation

/-- The MD-form opcodes of loads, stores and cache operations, and their access size in bytes (R97, R114). -/
def lSize (op : Nat) : Nat :=
  if op ≤ 1 then 1 else if op ≤ 3 then 2 else if op ≤ 5 then 4 else if op = 6 then 8 else if op = 7 then 16
  else if op = 8 then 1 else if op = 9 then 2 else if op = 0xA then 4 else if op = 0xB then 8 else if op = 0xC then 16
  else if op = 0xD ∨ op = 0x10 then 4 else if op = 0xE ∨ op = 0x11 then 8 else if op = 0xF ∨ op = 0x12 then 16 else 128

/-- A load or store of opcode 0x00 to 0x12 at an address form; `ok` says that the other fields hold what they must, and
`upd` is the base that the form updates (R98, R99, R114). -/
def decodeLS (op rd : Nat) (a : AddrForm) (ok : Bool) (upd : Option Nat) : DecR :=
  let s := lSize op
  let ownBase : Bool := upd == some rd && rd != 0
  if op ≤ 6 then okIf (ok && !ownBase) (.load s (op == 0 || op == 2 || op == 4) rd a)
  else if op = 7 then okIf (ok && isPair rd) (.loadQ rd a)
  else if op ≤ 0xB then okIf ok (.store s rd a)
  else if op = 0xC then okIf (ok && isPair rd) (.storeQ rd a)
  else if op ≤ 0xF then okIf (ok && isF rd) (.loadF s rd a)
  else if op ≤ 0x12 then okIf (ok && isF rd) (.storeF s rd a)
  else .operation

/-- MD forms and their long forms, at displacement `d` in bytes (R97, R114). -/
def decodeMD (op rd ra : Nat) (d : Int) (ok : Bool) : DecR :=
  if op ≤ 0x12 then decodeLS op rd (.disp ra d) ok none
  else if op = 0x1B then okIf (ok && decide (rd < 4)) (.pref rd (.disp ra d))
  else if op = 0x1C then okIf (ok && rd == 0) (.cache .wb (.disp ra d))
  else if op = 0x1D then okIf (ok && rd == 0) (.cache .inv (.disp ra d))
  else if op = 0x1E then okIf (ok && rd == 0) (.cache .wbinv (.disp ra d))
  else .operation

/-- MR forms (R98, R114). -/
def decodeMR (op rd ra rb md : Nat) : DecR :=
  let s := lSize op
  if md ≤ 4 then decodeLS op rd (.indexed ra rb md) true none
  else if md = 8 then decodeLS op rd (.postInc ra s) (rb == 0) (some ra)
  else if md = 9 then decodeLS op rd (.postInc ra (sextNat 6 rb * s)) true (some ra)
  else if md = 0xA then decodeLS op rd (.preDec ra s) (rb == 0) (some ra)
  else decodeLS op rd (.preDec ra s) false (some ra)

/-- L-unit syllables (R114). -/
def decodeL (w : Nat) : DecR :=
  let op := bits w 27 22
  let rd := bits w 21 16
  let ra := bits w 15 10
  let rb := bits w 9 4
  let md := bits w 3 0
  let scope := bits w 5 4
  let sc := bits w 9 6 == 0 && decide (scope < 3)
  if op ≤ 0x12 ∨ (0x1B ≤ op ∧ op ≤ 0x1E) then decodeMD op rd ra (sextNat 10 (bits w 9 0) * lSize op) true
  else if op = 0x13 then okIf (sc && decide (md < 4)) (.lda (2 ^ md) scope rd ra)
  else if op = 0x14 then okIf (sc && decide (md < 4)) (.strl (2 ^ md) scope rd ra)
  else if op = 0x15 then okIf (rb == 0 && md == 0) (.ldres rd ra)
  else if op = 0x16 then okIf (rb == 0 && md == 0) (.stcnd rd ra)
  else if op = 0x17 then okIf (md == 0) (.cas rd ra rb)
  else if op = 0x18 then okIf (md == 0 && isPair rd && isPair rb) (.casq rd ra rb)
  else if op = 0x19 then okIf (md == 0) (.laad rd ra rb)
  else if op = 0x1A then okIf (rd == 0 && ra == 0 && sc && md != 0) (.fence scope md)
  else if op = 0x1F then okIf (rd == 0 && sc && decide (md < 2)) (.tlbi (md == 1) scope ra)
  else if 0x20 ≤ op ∧ op ≤ 0x32 then decodeMR (op - 0x20) rd ra rb md
  else .operation

/-- L-unit long forms (R97, R114). -/
def decodeLx (w w2 : Nat) : DecR :=
  decodeMD (bits w 27 22) (bits w 21 16) (bits w 15 10) (sextNat 32 w2) (bits w 6 0 == 0)

/-- F-unit syllables (R115). -/
def decodeF (w : Nat) : DecR :=
  let op := bits w 27 22
  let rd := bits w 21 16
  let ra := bits w 15 10
  let rb := bits w 9 4
  let md := bits w 3 0
  let f3 := isF rd && isF ra && isF rb && decide (md < 3)
  let f2 := isF rd && isF ra && rb == 0 && decide (md < 3)
  if op = 0 then okIf f3 (.fop2 .add md rd ra rb)
  else if op = 1 then okIf f3 (.fop2 .sub md rd ra rb)
  else if op = 2 then okIf f3 (.fop2 .mul md rd ra rb)
  else if op = 3 then okIf f3 (.fop2 .div md rd ra rb)
  else if op = 4 then okIf f2 (.fsqrt md rd ra)
  else if op = 5 then okIf f3 (.fma false false md rd ra rb)
  else if op = 6 then okIf f3 (.fma true false md rd ra rb)
  else if op = 7 then okIf f3 (.fma false true md rd ra rb)
  else if op = 8 then okIf (rd == 0 && isF ra && isF rb && decide (md < 3)) (.fcmp md ra rb)
  else if op = 9 then okIf f3 (.fop2 .min md rd ra rb)
  else if op = 0xA then okIf f3 (.fop2 .max md rd ra rb)
  else if op = 0xB then okIf f2 (.fsign false md rd ra)
  else if op = 0xC then okIf f2 (.fsign true md rd ra)
  else if op = 0xD then okIf (isF ra && rb == 0 && decide (md < 3)) (.fclass md rd ra)
  else if op = 0xE then okIf (isF rd && isF ra && rb == 0 && decide (md % 4 < 3) && decide (md / 4 < 3)) (.fcvt (md / 4) (md % 4) rd ra)
  else if op = 0xF then okIf (isF ra && rb == 0 && decide (md % 4 < 3) && !md.testBit 3) (.fcvti (md % 4) (md.testBit 2) rd ra)
  else if op = 0x10 then okIf (isF rd && rb == 0 && decide (md % 4 < 3) && !md.testBit 3) (.fcvtf (md % 4) (md.testBit 2) rd ra)
  else .operation

/-- D-unit syllables (R116). -/
def decodeD (w : Nat) : DecR :=
  let op := bits w 27 22
  let rd := bits w 21 16
  let ra := bits w 15 10
  let rb := bits w 9 4
  let md := bits w 3 0
  let p3 := isPair rd && isPair ra && isPair rb && md == 0
  let p2 := isPair rd && isPair ra && rb == 0 && md == 0
  let n := bits w 9 0
  if op = 0 then okIf p3 (.dop .add rd ra rb)
  else if op = 1 then okIf p3 (.dop .sub rd ra rb)
  else if op = 2 then okIf (rd == 0 && isPair ra && isPair rb && md == 0) (.dcmp ra rb)
  else if op = 3 then okIf (isPair rd && isPair ra && decide (n < 32)) (.dshl rd ra n)
  else if op = 4 then okIf (isPair rd && isPair ra && decide (n < 32)) (.dshr rd ra n)
  else if op = 5 then okIf p2 (.dnorm rd ra)
  else if op = 6 then okIf (rd == 0 && isPair ra && rb == 0 && md == 0) (.dval ra)
  else if op = 7 then okIf (isPair ra && rb == 0 && md == 0) (.dtob rd ra)
  else if op = 8 then okIf (isPair rd && rb == 0 && md == 0) (.dfrb rd ra)
  else if op = 9 then okIf p2 (.dpack rd ra)
  else if op = 0xA then okIf p2 (.dunpk rd ra)
  else if op = 0xB then okIf p3 (.dop .mul rd ra rb)
  else if op = 0xC then okIf p3 (.dop .div rd ra rb)
  else .operation

/-- D-unit long forms, which are the SS forms (R82, R116). -/
def decodeDx (w w2 : Nat) : DecR :=
  let op := bits w 27 22
  let r0 := bits w 6 0 == 0
  let b1 := bits w 21 16
  let b2 := bits w 15 10
  let l1 := bits w2 31 28 + 1
  let l2 := bits w2 27 24 + 1
  let d1 := bits w2 23 12
  let d2 := bits w2 11 0
  if op = 0x10 then okIf r0 (.dopM .add b1 d1 l1 b2 d2 l2)
  else if op = 0x11 then okIf r0 (.dopM .sub b1 d1 l1 b2 d2 l2)
  else if op = 0x12 then okIf r0 (.dcmpM b1 d1 l1 b2 d2 l2)
  else if op = 0x13 then okIf r0 (.dopM .mul b1 d1 l1 b2 d2 l2)
  else if op = 0x14 then okIf r0 (.dopM .div b1 d1 l1 b2 d2 l2)
  else .operation

/-- A control register number is assigned (08_program_state R173). -/
def crAssigned (n : Nat) : Bool := decide (n ≤ 6) || decide (8 ≤ n ∧ n ≤ 12) || decide (16 ≤ n ∧ n ≤ 21)

/-- The channel instruction of an opcode, in the map's order (R117). -/
def ioOf (n : Nat) : IoOp :=
  match n with
  | 0 => .start | 1 => .halt | 2 => .cancel | 3 => .test | 4 => .store | 5 => .modify | _ => .accept

/-- B-unit syllables (R117). -/
def decodeB (w : Nat) : DecR :=
  let op := bits w 27 22
  let rd := bits w 21 16
  let ra := bits w 15 10
  let rb := bits w 9 4
  let md := bits w 3 0
  let z := md == 0
  if op = 0 then okIf (bits w 17 16 == 0) (.br (bits w 21 18) (sextNat 16 (bits w 15 0)))
  else if op = 1 then .op (.brl rd (sextNat 16 (bits w 15 0)))
  else if op = 2 then okIf (rb == 0) (.bri md rd ra)
  else if op = 3 then okIf (rd == 0 && rb == 0 && z) (.ret ra)
  else if op = 8 then okIf (rd == 0) (.trap (bits w 15 0))
  else if op = 9 then okIf (rd == 0 && ra == 0 && rb == 0 && z) .rfi
  else if op = 0xA then okIf (rb == 0 && z) (.mfcr rd ra)
  else if op = 0xB then okIf (rb == 0 && z && crAssigned rd) (.mtcr rd ra)
  else if op = 0xC then okIf (ra == 0 && rb == 0 && z) (.rdtor rd)
  else if op = 0xD then okIf (rd == 0 && rb == 0 && z) (.waitev ra)
  else if op = 0xE then okIf (ra == 0 && rb == 0 && z) (.getrand rd)
  else if op = 0xF then okIf (rd == 0 && z) (.sigcore ra rb)
  else if op = 0x10 then okIf (rd == 0 && rb == 0 && z) (.hwindow ra)
  else if op = 0x20 ∨ op = 0x24 ∨ op = 0x25 then okIf (rd == 0 && z) (.io (ioOf (op - 0x20)) ra rb)
  else if op = 0x21 ∨ op = 0x22 ∨ op = 0x23 ∨ op = 0x26 then okIf (rd == 0 && rb == 0 && z) (.io (ioOf (op - 0x20)) ra 0)
  else .operation

/-- B-unit long forms (R82, R117). -/
def decodeBx (w w2 : Nat) : DecR :=
  let op := bits w 27 22
  let r0 := bits w 6 0 == 0 && bits w 15 10 == 0
  if op = 0 then okIf (r0 && bits w 17 16 == 0) (.br (bits w 21 18) (sextNat 32 w2))
  else if op = 1 then okIf r0 (.brl (bits w 21 16) (sextNat 32 w2))
  else .operation

/-- P-unit syllables (R102, R118). -/
def decodeP (w : Nat) : DecR :=
  let op := bits w 27 22
  if op ≤ 1 then okIf (bits w 15 0 == 0 && w.testBit 31) (.rep (op == 1) (bits w 21 16)) else .operation

/-- One operation from its first word and, for a long form, its second word (R80 to R84, R107). -/
def decodeOp (w w2 : Nat) : DecR :=
  let u := opUnit w
  if u = 0 then decodeA w
  else if u = 1 then decodeM w
  else if u = 2 then decodeL w
  else if u = 3 then decodeF w
  else if u = 4 then decodeD w
  else if u = 5 then decodeB w
  else if u = 7 then decodeP w
  else
    let un := bits w 9 7
    if un = 0 then decodeAx w w2
    else if un = 2 then decodeLx w w2
    else if un = 4 then decodeDx w w2
    else if un = 5 then decodeBx w w2
    else .operation

/-- A register that an operation writes (R93): g n, f n, or CC. -/
inductive WReg where
  | g (n : Nat)
  | f (n : Nat)
  | cc
deriving DecidableEq, Repr

/-- The write of a g register: a write to g0 is none (R86). -/
def wg (n : Nat) : List WReg := if n = 0 then [] else [.g n]

/-- The base update of an address form (R98, R99). -/
def AddrForm.upd : AddrForm → List WReg
  | .postInc ra _ => wg ra
  | .preDec ra _ => wg ra
  | _ => []

/-- The registers that an operation writes, for the double-write rule (R93, R172, R182). -/
def COp.writes : COp → List WReg
  | .alu _ cc rd _ _ => wg rd ++ (if cc then [.cc] else [])
  | .clz cc rd _ => wg rd ++ (if cc then [.cc] else [])
  | .popc cc rd _ => wg rd ++ (if cc then [.cc] else [])
  | .neg rd _ => wg rd ++ [.cc]
  | .abs rd _ => wg rd ++ [.cc]
  | .cmp _ _ _ => [.cc]
  | .mov rd _ => wg rd
  | .bswap rd _ => wg rd
  | .sel rd _ _ _ => wg rd
  | .ext rd _ _ _ => wg rd
  | .movi rd _ => wg rd
  | .ldih rd _ _ => wg rd
  | .mul _ rd _ _ => wg rd ++ [.cc]
  | .load _ _ rd a => wg rd ++ a.upd
  | .loadQ rd a => [.g rd, .g (rd + 1)] ++ a.upd
  | .store _ _ a => a.upd
  | .storeQ _ a => a.upd
  | .loadF _ rd a => [.f rd] ++ a.upd
  | .storeF _ _ a => a.upd
  | .lda _ _ rd _ => wg rd
  | .strl _ _ _ _ => []
  | .ldres rd _ => wg rd
  | .stcnd _ _ => [.cc]
  | .cas rd _ _ => wg rd ++ [.cc]
  | .casq rd _ _ => [.g rd, .g (rd + 1), .cc]
  | .laad rd _ _ => wg rd
  | .fence _ _ => []
  | .pref _ _ => []
  | .cache _ _ => []
  | .tlbi _ _ _ => []
  | .fop2 _ _ rd _ _ => [.f rd]
  | .fsqrt _ rd _ => [.f rd]
  | .fma _ _ _ rd _ _ => [.f rd]
  | .fcmp _ _ _ => [.cc]
  | .fsign _ _ rd _ => [.f rd]
  | .fclass _ rd _ => wg rd
  | .fcvt _ _ rd _ => [.f rd]
  | .fcvti _ _ rd _ => wg rd
  | .fcvtf _ _ rd _ => [.f rd]
  | .dop _ rd _ _ => [.g rd, .g (rd + 1), .cc]
  | .dcmp _ _ => [.cc]
  | .dshl rd _ _ => [.g rd, .g (rd + 1), .cc]
  | .dshr rd _ _ => [.g rd, .g (rd + 1), .cc]
  | .dnorm rd _ => [.g rd, .g (rd + 1), .cc]
  | .dval _ => [.cc]
  | .dtob rd _ => wg rd
  | .dfrb rd _ => [.g rd, .g (rd + 1)]
  | .dpack rd _ => [.g rd, .g (rd + 1)]
  | .dunpk rd _ => [.g rd, .g (rd + 1), .cc]
  | .dopM _ _ _ _ _ _ _ => [.cc]
  | .dcmpM _ _ _ _ _ _ => [.cc]
  | .br _ _ => []
  | .brl rd _ => wg rd
  | .bri _ rd _ => wg rd
  | .ret _ => []
  | .trap _ => []
  | .rfi => [.cc]
  | .mfcr rd _ => wg rd
  | .mtcr c _ => if c = 1 then [.cc] else []
  | .rdtor rd => wg rd ++ [.cc]
  | .waitev _ => []
  | .getrand rd => wg rd ++ [.cc]
  | .sigcore _ _ => [.cc]
  | .hwindow _ => [.cc]
  | .io _ _ _ => [.cc]
  | .rep _ _ => []

/-- The privileged operations (R109). -/
def COp.privileged : COp → Bool
  | .rfi => true
  | .mfcr _ _ => true
  | .mtcr _ _ => true
  | .cache k _ => k == .inv
  | .tlbi _ _ _ => true
  | .sigcore _ _ => true
  | .hwindow _ => true
  | .io _ _ _ => true
  | _ => false

/-- One operation of a group as fetched: its words and how many there are. -/
structure RawOp where
  w : Nat
  w2 : Nat
  n : Nat
deriving DecidableEq, Repr

/-- The most operations of each unit class that a group holds: 2 A, 1 M, 2 L, 1 F, 1 D, 1 B (R90). -/
def unitLimit (u : Nat) : Nat := if u = 0 then 2 else if u = 2 then 2 else if u ≤ 5 then 1 else 1

/-- The list does not fall. -/
def nonDecreasing : List Nat → Bool
  | a :: b :: t => decide (a ≤ b) && nonDecreasing (b :: t)
  | _ => true

/-- No element twice. -/
def noRepeat {α : Type} [DecidableEq α] : List α → Bool
  | [] => true
  | a :: t => !t.contains a && noRepeat t

/-- Composition (R90): the counts, the order, and a P operation alone. -/
def composed (us : List Nat) : Bool :=
  nonDecreasing us && us.all (fun u => decide ((us.filter (· == u)).length ≤ unitLimit u)) &&
    (!us.contains 7 || us.length == 1)

/-- What decoding a group answers. -/
inductive GroupDec where
  | ops (l : List COp)
  | operation
  | spec
deriving DecidableEq, Repr

/-- The operations of a decoded list, where every one decoded. -/
def decOps : List DecR → List COp
  | .op o :: t => o :: decOps t
  | _ :: t => decOps t
  | [] => []

/-- Decode a fetched group: Operation before Specification (R107, R108, R110). `stop` says that an S bit closed it. -/
def decodeGroup (l : List RawOp) (stop : Bool) : GroupDec :=
  let ds := l.map (fun r => decodeOp r.w r.w2)
  if ds.any (· == .operation) then .operation
  else if ds.any (· == .spec) || !stop || !composed (l.map (fun r => opClass r.w)) ||
      !noRepeat ((decOps ds).flatMap COp.writes) then .spec
  else .ops (decOps ds)

end Sys2Proof.Machine
end

