-- ==== Sys2Proof/Machine/Crypto.lean ====
section
/-! DEFINITION. The hashes, MACs, ciphers and the key derivation of the standards that the spec names (18_trust R411, R412; 19_intaglio R430):
SHA-2 (FIPS 180-4), SHA-3 (FIPS 202), HMAC (FIPS 198-1), AES (FIPS 197) with ECB, CBC, CTR, GCM, CMAC (SP 800-38A, B, D) and XTS (IEEE 1619),
KW and KWP (RFC 3394, RFC 5649), and the KDF of SP 800-108 in counter mode. -/

namespace Sys2Proof.Machine

/-- Pieces of `n` elements, the last one perhaps shorter. -/
def chunks {α : Type} (n : Nat) (l : List α) : List (List α) := (List.range (cdiv l.length n)).map (fun k => (l.drop (n * k)).take n)

/-- Bytes xored, as many as the shorter has. -/
def xorBytes (a b : List Byte) : List Byte := a.zipWith (· ^^^ ·) b

/-- The number that bytes spell, least significant first. -/
def leNat (bs : List Byte) : Nat := beNat bs.reverse

/-! ### SHA-2 -/

/-- The primes below 410: there are 80. -/
def smallPrimes : List Nat := ((List.range 410).drop 2).filter (fun n => ((List.range n).drop 2).all (fun d => n % d != 0))

/-- The integer part of the `k`-th root of a number, bit by bit from a bit downwards. -/
def rootFrom (k n : Nat) : Nat → Nat → Nat
  | 0, r => r
  | b + 1, r => rootFrom k n b (if (r + 2 ^ b) ^ k ≤ n then r + 2 ^ b else r)

/-- The first 64 bits of the fractional part of the `k`-th root of a prime. -/
def rootFraction (k p : Nat) : Nat := rootFrom k (p * 2 ^ (64 * k)) 68 0 % 2 ^ 64

/-- A member of SHA-2: word length, rounds, and the shifts of its functions. -/
structure Sha2 where
  w : Nat
  rounds : Nat
  big0 : List Nat
  big1 : List Nat
  small0 : List Nat
  small1 : List Nat

/-- SHA-256 and SHA-512 (FIPS 180-4, 4.1). -/
def sha2Short : Sha2 := { w := 32, rounds := 64, big0 := [2, 13, 22], big1 := [6, 11, 25], small0 := [7, 18, 3], small1 := [17, 19, 10] }
def sha2Long : Sha2 := { w := 64, rounds := 80, big0 := [28, 34, 39], big1 := [14, 18, 41], small0 := [1, 8, 7], small1 := [19, 61, 6] }

/-- The round constants: cube roots of the primes. -/
def Sha2.consts (h : Sha2) : List Nat := (smallPrimes.take h.rounds).map (fun p => rootFraction 3 p / 2 ^ (64 - h.w))

/-- Rotation of a word to the right. -/
def Sha2.rot (h : Sha2) (x n : Nat) : Nat := x / 2 ^ n + x % 2 ^ n * 2 ^ (h.w - n)

/-- The sum of three rotations, or of two and a shift. -/
def Sha2.big (h : Sha2) (ns : List Nat) (x : Nat) : Nat := ns.foldl (fun r n => r ^^^ h.rot x n) 0
def Sha2.small (h : Sha2) (ns : List Nat) (x : Nat) : Nat := h.big (ns.take 2) x ^^^ (x / 2 ^ ns.getD 2 0)

/-- One round: the eight working words and the next sixteen words of the schedule. -/
def Sha2.step (h : Sha2) (s : List Nat × List Nat) (k : Nat) : List Nat × List Nat :=
  let v (i : Nat) : Nat := s.1.getD i 0
  let m (i : Nat) : Nat := s.2.getD i 0
  let ch := (v 4 &&& v 5) ^^^ ((2 ^ h.w - 1 - v 4) &&& v 6)
  let maj := (v 0 &&& v 1) ^^^ (v 0 &&& v 2) ^^^ (v 1 &&& v 2)
  let t := v 7 + h.big h.big1 (v 4) + ch + k + m 0
  let u := h.big h.big0 (v 0) + maj
  ([(t + u) % 2 ^ h.w, v 0, v 1, v 2, (v 3 + t) % 2 ^ h.w, v 4, v 5, v 6],
   s.2.tail ++ [(h.small h.small1 (m 14) + m 9 + h.small h.small0 (m 1) + m 0) % 2 ^ h.w])

/-- One block. -/
def Sha2.block (h : Sha2) (ks st : List Nat) (b : List Byte) : List Nat :=
  (st.zipWith (fun x y => (x + y) % 2 ^ h.w)) (ks.foldl h.step (st, (chunks (h.w / 8) b).map beNat)).1

/-- A message with its padding: a one bit, zeros, and its length in bits. -/
def Sha2.pad (h : Sha2) (m : List Byte) : List Byte :=
  let n := h.w / 4
  m ++ [0x80] ++ List.replicate ((8 * n - (m.length + 1 + n) % (8 * n)) % (8 * n)) 0 ++ beBytes n (8 * m.length)

/-- The digest of a message from an initial value. -/
def Sha2.digest (h : Sha2) (init : List Nat) (m : List Byte) : List Byte :=
  let ks := h.consts
  ((chunks (2 * h.w) (h.pad m)).foldl (fun st b => h.block ks st b) init).flatMap (beBytes (h.w / 8))

/-- The digests of SHA-256, SHA-384 and SHA-512: initial values are square roots of primes. -/
def sha256 (m : List Byte) : List Byte := sha2Short.digest ((smallPrimes.take 8).map (fun p => rootFraction 2 p / 2 ^ 32)) m
def sha384 (m : List Byte) : List Byte := (sha2Long.digest (((smallPrimes.drop 8).take 8).map (rootFraction 2)) m).take 48
def sha512 (m : List Byte) : List Byte := sha2Long.digest ((smallPrimes.take 8).map (rootFraction 2)) m

/-! ### SHA-3 -/

/-- Rotation of a lane to the left. -/
def laneRot (x n : Nat) : Nat := x * 2 ^ (n % 64) % 2 ^ 64 + x / 2 ^ (64 - n % 64)

/-- The column parities of a state, and the step θ. -/
def keccakTheta (a : List Nat) : List Nat :=
  let c (x : Nat) : Nat := (List.range 5).foldl (fun r y => r ^^^ a.getD (x % 5 + 5 * y) 0) 0
  let d := (List.range 5).map (fun x => c (x + 4) ^^^ laneRot (c (x + 1)) 1)
  (List.range 25).map (fun i => a.getD i 0 ^^^ d.getD (i % 5) 0)

/-- The steps ρ and π: a walk over the lanes from (1, 0), each one rotated on its way to the next place. -/
def keccakRhoPi (a : List Nat) : Nat → Nat → Nat × Nat → List Nat → List Nat
  | 0, _, _, b => b
  | n + 1, t, (x, y), b =>
    let q := (y, (2 * x + 3 * y) % 5)
    keccakRhoPi a n (t + 1) q (b.set (q.1 + 5 * q.2) (laneRot (a.getD (x + 5 * y) 0) ((t + 1) * (t + 2) / 2)))

/-- The step χ. -/
def keccakChi (a : List Nat) : List Nat :=
  let at_ (x y : Nat) : Nat := a.getD (x % 5 + 5 * y) 0
  (List.range 25).map (fun i => at_ i (i / 5) ^^^ ((2 ^ 64 - 1 - at_ (i + 1) (i / 5)) &&& at_ (i + 2) (i / 5)))

/-- The shift register of the round constants. -/
def keccakLfsr (r : Nat) : Nat := if 128 ≤ r then (2 * r) ^^^ 0x171 else 2 * r

/-- A round constant from the register, and the register after it. -/
def keccakConst (r : Nat) : Nat × Nat :=
  (List.range 7).foldl (fun p j => (p.1 + p.2 % 2 * 2 ^ (2 ^ j - 1), keccakLfsr p.2)) (0, r)

/-- The rounds of Keccak-f[1600]. -/
def keccakRounds : Nat → Nat → List Nat → List Nat
  | 0, _, a => a
  | n + 1, r, a =>
    let t := keccakTheta a
    let b := keccakChi (keccakRhoPi t 24 0 (1, 0) t)
    let k := keccakConst r
    keccakRounds n k.2 (b.set 0 (b.getD 0 0 ^^^ k.1))

/-- SHA-3 with a digest of `n` bytes. -/
def sha3 (n : Nat) (m : List Byte) : List Byte :=
  let rate := 200 - 2 * n
  let fill := rate - m.length % rate
  let padded := m ++ (if fill = 1 then [0x86] else [0x06] ++ List.replicate (fill - 2) 0 ++ [0x80])
  let st := (chunks rate padded).foldl (fun a b =>
    let lanes := (chunks 8 b).map leNat
    keccakRounds 24 1 ((List.range 25).map (fun i => a.getD i 0 ^^^ lanes.getD i 0))) (List.replicate 25 0)
  (st.flatMap (fun x => (beBytes 8 x).reverse)).take n

/-! ### Hashes by number, HMAC, KDF -/

/-- The hashes of 19 R430 by number: SHA-256, SHA-384, SHA-512, SHA3-256, SHA3-512. -/
def hashOf (k : Nat) (m : List Byte) : List Byte :=
  match k with
  | 0 => sha256 m | 1 => sha384 m | 2 => sha512 m | 3 => sha3 32 m | _ => sha3 64 m

/-- Bytes of a block of a hash. -/
def hashBlock (k : Nat) : Nat :=
  match k with
  | 0 => 64 | 1 => 128 | 2 => 128 | 3 => 136 | _ => 72

/-- HMAC over a hash (FIPS 198-1). -/
def hmac (k : Nat) (key m : List Byte) : List Byte :=
  let n := hashBlock k
  let key := fixLen 0 n (if n < key.length then hashOf k key else key)
  hashOf k (key.map (· ^^^ 0x5C) ++ hashOf k (key.map (· ^^^ 0x36) ++ m))

/-- The KDF in counter mode with HMAC-SHA-384 (18 R411): `n` is the output length in bits. -/
def kdf (key label context : List Byte) (n : Nat) : List Byte :=
  ((List.range (cdiv n 384)).flatMap (fun i => hmac 1 key (beBytes 4 (i + 1) ++ label ++ [0] ++ context ++ beBytes 4 n))).take (n / 8)

/-! ### AES -/

/-- Multiplication by x, and of two bytes, in the field of AES. -/
def byteDouble (a : Nat) : Nat := if 128 ≤ a then (2 * a) ^^^ 0x11B else 2 * a
def byteMul (a b : Nat) : Nat :=
  ((List.range 8).foldl (fun (r : Nat × Nat) i => (if b.testBit i then r.1 ^^^ r.2 else r.1, byteDouble r.2)) (0, a)).1

/-- The inverse of a byte, 0 for 0: its power 254. -/
def byteInv (a : Nat) : Nat := (List.range 6).foldl (fun r _ => let q := byteMul r r; byteMul q a) a |> fun r => byteMul r r

/-- A byte rotated to the left. -/
def rotByte (a n : Nat) : Nat := a * 2 ^ n % 256 + a / 2 ^ (8 - n)

/-- The substitution of a byte, and its inverse. -/
def subByte (a : Nat) : Nat := let b := byteInv a; (List.range 5).foldl (fun r n => r ^^^ rotByte b n) 0x63
def unsubByte (a : Nat) : Nat := byteInv (rotByte a 1 ^^^ rotByte a 3 ^^^ rotByte a 6 ^^^ 5)

/-- Rows shifted, and shifted back; the state is 16 bytes, column by column. -/
def shiftRows (s : List Nat) : List Nat := (List.range 16).map (fun i => s.getD (4 * ((i / 4 + i % 4) % 4) + i % 4) 0)
def unshiftRows (s : List Nat) : List Nat := (List.range 16).map (fun i => s.getD (4 * ((i / 4 + 4 - i % 4) % 4) + i % 4) 0)

/-- Columns multiplied by the polynomial that the four coefficients give. -/
def mixColumns (cs s : List Nat) : List Nat :=
  (List.range 16).map (fun i => (List.range 4).foldl (fun r j => r ^^^ byteMul (s.getD (i / 4 * 4 + j) 0) (cs.getD ((j + 4 - i % 4) % 4) 0)) 0)

/-- The key schedule, newest word first: `n` more words of a key of `nk` words; `i` words stand, and `rc` is the next round constant. -/
def keyWords (nk : Nat) : Nat → Nat → Nat → List (List Nat) → List (List Nat)
  | 0, _, _, ws => ws
  | n + 1, i, rc, ws =>
    let x := ws.headD []
    let x := if i % nk = 0 then (((x.drop 1 ++ x.take 1).map subByte).zipWith (· ^^^ ·) [rc, 0, 0, 0])
             else if 6 < nk ∧ i % nk = 4 then x.map subByte else x
    keyWords nk n (i + 1) (if i % nk = 0 then byteDouble rc else rc) ((x.zipWith (· ^^^ ·) (ws.getD (nk - 1) [])) :: ws)

/-- The round keys of a key. -/
def roundKeys (key : List Byte) : List (List Nat) :=
  let nk := key.length / 4
  let ws := (chunks 4 (key.map (·.toNat))).reverse
  chunks 16 ((keyWords nk (4 * (nk + 7) - nk) nk 1 ws).reverse.flatMap id)

/-- A round key added. -/
def addKey (s k : List Nat) : List Nat := s.zipWith (· ^^^ ·) k

/-- AES of a block under round keys, and its inverse. -/
def aesRounds (ks : List (List Nat)) (b : List Byte) : List Byte :=
  let s := ((ks.drop 1).dropLast).foldl (fun s k => addKey (mixColumns [2, 3, 1, 1] (shiftRows (s.map subByte))) k)
    (addKey (b.map (·.toNat)) (ks.headD []))
  (addKey (shiftRows (s.map subByte)) (ks.getLastD [])).map (BitVec.ofNat 8)
def aesUnrounds (ks : List (List Nat)) (b : List Byte) : List Byte :=
  let s := ((ks.drop 1).dropLast).reverse.foldl (fun s k => mixColumns [14, 11, 13, 9] (addKey ((unshiftRows s).map unsubByte) k))
    (addKey (b.map (·.toNat)) (ks.getLastD []))
  (addKey ((unshiftRows s).map unsubByte) (ks.headD [])).map (BitVec.ofNat 8)

/-- A block cipher under a key, and its inverse. -/
def aes (key b : List Byte) : List Byte := aesRounds (roundKeys key) b
def aesInv (key b : List Byte) : List Byte := aesUnrounds (roundKeys key) b

/-! ### Modes -/

/-- ECB. -/
def ecb (key text : List Byte) : List Byte := let ks := roundKeys key; (chunks 16 text).flatMap (aesRounds ks)
def ecbInv (key text : List Byte) : List Byte := let ks := roundKeys key; (chunks 16 text).flatMap (aesUnrounds ks)

/-- CBC: blocks behind an IV. -/
def cbcGo (ks : List (List Nat)) (iv : List Byte) : List (List Byte) → List Byte
  | [] => []
  | b :: t => let c := aesRounds ks (xorBytes b iv); c ++ cbcGo ks c t
def cbcInvGo (ks : List (List Nat)) (iv : List Byte) : List (List Byte) → List Byte
  | [] => []
  | b :: t => xorBytes (aesUnrounds ks b) iv ++ cbcInvGo ks b t

/-- A text under the counter blocks that `block` names (SP 800-38A). -/
def ctrWith (key : List Byte) (block : Nat → List Byte) (text : List Byte) : List Byte :=
  let ks := roundKeys key
  (((List.range (cdiv text.length 16)).zip (chunks 16 text))).flatMap (fun e => xorBytes e.2 (aesRounds ks (block e.1)))

/-- CTR from a counter block on, counted as a number of 128 bits (19 R430). -/
def ctr (key iv text : List Byte) : List Byte := ctrWith key (fun k => beBytes 16 ((beNat iv + k) % 2 ^ 128)) text

/-- The counter mode of GCM with a 96-bit IV. -/
def gctr (key iv text : List Byte) : List Byte := ctrWith key (fun k => iv.take 12 ++ beBytes 4 (k + 2)) text

/-- The product of two blocks in the field of GCM. -/
def ghashMul (x y : Nat) : Nat :=
  ((List.range 128).foldl (fun (r : Nat × Nat) i =>
    (if x.testBit (127 - i) then r.1 ^^^ r.2 else r.1, if r.2.testBit 0 then (r.2 / 2) ^^^ (0xE1 * 2 ^ 120) else r.2 / 2)) (0, y)).1

/-- GHASH of blocks, the last one filled with zeros. -/
def ghash (h : Nat) (y : Nat) (m : List Byte) : Nat := (chunks 16 m).foldl (fun y b => ghashMul (y ^^^ beNat (fixLen 0 16 b)) h) y

/-- The tag of GCM: key, IV of 96 bits, AAD, ciphertext. -/
def gcmTag (key iv aad text : List Byte) : List Byte :=
  let h := beNat (aes key (List.replicate 16 0))
  let y := ghash h (ghash h 0 aad) text
  xorBytes (beBytes 16 (ghashMul (y ^^^ (8 * aad.length * 2 ^ 64 + 8 * text.length)) h)) (aes key (iv.take 12 ++ beBytes 4 1))

/-- Sealing: the ciphertext and its tag of 16 bytes. -/
def gcmSeal (key iv aad text : List Byte) : List Byte := let c := gctr key iv text; c ++ gcmTag key iv aad c

/-- Opening: none where the tag fails. -/
def gcmOpen (key iv aad sealed : List Byte) : Option (List Byte) :=
  let c := sealed.take (sealed.length - 16)
  if gcmTag key iv aad c = sealed.drop (sealed.length - 16) then some (gctr key iv c) else none

/-- A tweak doubled (IEEE 1619): blocks are numbers, least significant byte first. -/
def xtsDouble (t : Nat) : Nat := if 2 ^ 127 ≤ t then (2 * t % 2 ^ 128) ^^^ 0x87 else 2 * t

/-- One block of XTS with a tweak, by `f`. -/
def xtsBlock (f : List Byte → List Byte) (t : Nat) (b : List Byte) : List Byte :=
  let x := (beBytes 16 t).reverse
  xorBytes (f (xorBytes b x)) x

/-- The blocks of a data unit; a last one that is not whole steals from the one before it. When deciphering, the two tweaks of that pair
come in the other order. -/
def xtsGo (f : List Byte → List Byte) (inv : Bool) (t : Nat) : List (List Byte) → List Byte
  | [] => []
  | [b] => xtsBlock f t b
  | b :: c :: rest =>
    if c.length = 16 then xtsBlock f t b ++ xtsGo f inv (xtsDouble t) (c :: rest)
    else
      let x := xtsBlock f (if inv then xtsDouble t else t) b
      xtsBlock f (if inv then t else xtsDouble t) (c ++ x.drop c.length) ++ x.take c.length

/-- A data unit of XTS: a pair of keys, the unit's number, its text. -/
def xtsUnit (inv : Bool) (key : List Byte) (n : Nat) (text : List Byte) : List Byte :=
  let h := key.length / 2
  let ks := roundKeys (key.take h)
  xtsGo (if inv then aesUnrounds ks else aesRounds ks) inv (leNat (aes (key.drop h) (beBytes 16 (n % 2 ^ 128)).reverse)) (chunks 16 text)

/-- A text of data units of `unit` bytes, of which the first has the number `n`; with 0 it is one unit (19 R433). -/
def xts (inv : Bool) (key : List Byte) (n unit : Nat) (text : List Byte) : List Byte :=
  let us := if unit = 0 then [text] else chunks unit text
  ((List.range us.length).zip us).flatMap (fun e => xtsUnit inv key (n + e.1) e.2)

/-- A subkey of CMAC doubled. -/
def cmacDouble (x : Nat) : Nat := if 2 ^ 127 ≤ x then (2 * x % 2 ^ 128) ^^^ 0x87 else 2 * x

/-- CMAC (SP 800-38B). -/
def cmac (key m : List Byte) : List Byte :=
  let ks := roundKeys key
  let k1 := cmacDouble (beNat (aesRounds ks (List.replicate 16 0)))
  let bs := if m.isEmpty then [[]] else chunks 16 m
  let z := bs.getLastD []
  let z := if z.length = 16 then xorBytes z (beBytes 16 k1) else xorBytes (fixLen 0 16 (z ++ [0x80])) (beBytes 16 (cmacDouble k1))
  (bs.dropLast ++ [z]).foldl (fun c b => aesRounds ks (xorBytes c b)) (List.replicate 16 0)

/-! ### Key wrap -/

/-- The steps of wrapping: the check register and the blocks of 8 bytes, which go round. -/
def wrapGo (ks : List (List Nat)) : Nat → Nat → List Byte × List (List Byte) → List Byte × List (List Byte)
  | 0, _, r => r
  | n + 1, t, (a, bs) =>
    let c := aesRounds ks (a ++ bs.headD [])
    wrapGo ks n (t + 1) (xorBytes (c.take 8) (beBytes 8 t), bs.tail ++ [c.drop 8])

/-- The steps back. -/
def unwrapGo (ks : List (List Nat)) : Nat → List Byte × List (List Byte) → List Byte × List (List Byte)
  | 0, r => r
  | t + 1, (a, bs) =>
    let c := aesUnrounds ks (xorBytes a (beBytes 8 (t + 1)) ++ bs.getLastD [])
    unwrapGo ks t (c.take 8, c.drop 8 :: bs.dropLast)

/-- A text behind an initial value, wrapped; one block of KWP is enciphered alone. -/
def wrapWith (key iv text : List Byte) : List Byte :=
  if text.length = 8 then aes key (iv ++ text)
  else
    let r := wrapGo (roundKeys key) (6 * (text.length / 8)) 1 (iv, chunks 8 text)
    r.1 ++ r.2.flatMap id

/-- The initial value and the text of what was wrapped. -/
def unwrapWith (key text : List Byte) : List Byte × List Byte :=
  if text.length = 16 then let c := aesInv key text; (c.take 8, c.drop 8)
  else
    let bs := chunks 8 (text.drop 8)
    let r := unwrapGo (roundKeys key) (6 * bs.length) (text.take 8, bs)
    (r.1, r.2.flatMap id)

/-- AES key wrap: KWP or KW, with the default initial values. -/
def kwWrap (padded : Bool) (key text : List Byte) : List Byte :=
  if padded then wrapWith key ([0xA6, 0x59, 0x59, 0xA6] ++ beBytes 4 text.length) (text ++ List.replicate ((8 - text.length % 8) % 8) 0)
  else wrapWith key (List.replicate 8 0xA6) text

/-- AES key unwrap; none where the integrity check fails. -/
def kwUnwrap (padded : Bool) (key text : List Byte) : Option (List Byte) :=
  let r := unwrapWith key text
  if !padded then (if r.1 = List.replicate 8 0xA6 then some r.2 else none)
  else
    let n := beNat (r.1.drop 4)
    if r.1.take 4 = [0xA6, 0x59, 0x59, 0xA6] ∧ r.2.length < n + 8 ∧ n ≤ r.2.length ∧ allZero (r.2.drop n) = true then some (r.2.take n) else none

/-! ### The cipher modes and MACs of 19 R430 -/

/-- The text that ENCRYPT makes of a text: mode 0 ECB, 1 CBC, 2 CTR, 3 GCM, 4 XTS. -/
def encipher (mode : Nat) (key iv : List Byte) (unit : Nat) (text : List Byte) : List Byte :=
  match mode with
  | 0 => ecb key text
  | 1 => cbcGo (roundKeys key) iv (chunks 16 text)
  | 2 => ctr key iv text
  | 3 => gctr key iv text
  | _ => xts false key (beNat iv) unit text

/-- The text that DECRYPT makes. -/
def decipher (mode : Nat) (key iv : List Byte) (unit : Nat) (text : List Byte) : List Byte :=
  match mode with
  | 0 => ecbInv key text
  | 1 => cbcInvGo (roundKeys key) iv (chunks 16 text)
  | 2 => ctr key iv text
  | 3 => gctr key iv text
  | _ => xts true key (beNat iv) unit text

/-- A CMAC (mode 0x10) or an HMAC over a hash (0x11 to 0x15). -/
def macOf (mode : Nat) (key m : List Byte) : List Byte := if mode = 0x10 then cmac key m else hmac (mode - 0x11) key m

end Sys2Proof.Machine
end

