-- ==== Sys2Proof/Config.lean ====
section
/-! DEFINITION. What an implementation fixes and what the spec leaves open: constants without a body, so that nothing can be
proved of a particular value of theirs. The free values are applied to the counter `State.free`, which every draw advances.
Of the standards' public-key algorithms, which the spec cites without giving them, only what they answer stands here. -/

namespace Sys2Proof.Config

/-- A free value of 64 bits, one for each draw. -/
opaque freeLong : Nat → Long

/-- A free choice, one for each draw. -/
opaque freeBit : Nat → Bool

/-- What the storage cipher makes of bytes written under another key (18 R420): for each replacement of a key a byte at each address. -/
opaque freeByte : Nat → Nat → Byte

/-- The serial number in the fuses (01_overview R23). -/
opaque serial : Long

/-- The alignment pattern of the ports (13 R289), which the spec does not give. -/
opaque alignPattern : List Byte

/-- Whether an ML-DSA-65 signature verifies: key, message, signature (02_plinth_image R33). -/
opaque mldsaOk : List Byte → List Byte → List Byte → Bool

/-- Whether an ECDSA P-384 signature with SHA-384 verifies: key, message, signature (02_plinth_image R33). -/
opaque ecdsaOk : List Byte → List Byte → List Byte → Bool

/-- The matches that compression finds in a block behind a history (17 R389): for each element a copy of a length and distance, or a
literal. -/
opaque lzChoices : List Byte → List Byte → List (Option (Nat × Nat))

/-- The tables that compression computes for a block's elements in a first pass (17 R389), as the bits of a dynamic block's header. -/
opaque dynChoice : List Nat → List Bool

/-- The device secret in the fuses (18 R410). -/
opaque deviceSecret : List Byte

/-- Signatures of the module's identity keys over a message (18 R412, R415): ECDSA P-384 by a private key, ML-DSA-65 by a seed. -/
opaque signEc : Nat → List Byte → List Byte
opaque signMl : List Byte → List Byte → List Byte

/-- Trelorn's root public keys in the identity image, ML-DSA-65 and ECDSA P-384, and their hashes in mask ROM (18 R413; 23 R519). -/
opaque rootMl : List Byte
opaque rootEc : List Byte
opaque romMl : List Byte
opaque romEc : List Byte

/-- The certificate chains of the identity image in the boot flash (18 R412; 24 R534), by flash offset. -/
opaque identityImage : Nat → Byte

/-- A peer's certificate chains verify against Trelorn's root for a serial number (14 R311). -/
opaque chainOk : List Byte → Long → Bool

/-- The module's own certificate chains. -/
opaque certificates : List Byte

/-- A signature by a peer's identity keys over a report verifies: certificates, report. -/
opaque reportOk : List Byte → List Byte → Bool

/-- ML-KEM-1024 and ECDH P-384 (14 R310): the key pair of a seed, the ciphertext and shared secret of a seed, decapsulation. -/
opaque kemPublic : Nat → List Byte
opaque kemReply : Nat → List Byte → List Byte
opaque kemSecret : List Byte → List Byte → List Byte

/-- The firmware and control-store images in the boot flash as delivered, by copy × 8 + target (23 R521, R522). -/
opaque delivered : Nat → List Byte

/-- Check bits and syndrome of a micro-word (23 R515): the code's matrix is not given; data, then the bits flipped in it. -/
opaque csCheck : List Byte → Nat
opaque csSyndrome : List Byte → Nat → Nat

end Sys2Proof.Config
end

