-- ==== Sys2Proof/Machine/State.lean ====
section
/-! DEFINITION. The state of the module as plain data, chapter by chapter of the spec, the reasons a command can stop, and
the state right after cold reset. Every structure's docstring names the file and the rules of spec/ it follows. -/

namespace Sys2Proof.Machine

/-! ### Fault collection (21_fault_collection) -/

/-- One entry of the fault log (R494). -/
structure LogEntry where
  tor : Nat
  kind : Nat
  qc : Nat
  source : Nat
  part : Nat
  step : Nat
  detail : Nat
  seq : Nat
deriving DecidableEq, Repr

/-- `FLT_STATUSi` (R483 to R487, R495), with what the module keeps beside it: whether the condition that raised the event
still holds (R484), and the TOR at which the grace timer started (R486). -/
structure FltStatus where
  pending : Bool := false
  overflow : Bool := false
  cls : Nat := 0
  event : Nat := 0
  part : Nat := 0x3F
  step : Nat := 0
  fenced : Bool := false
  holds : Bool := false
  timer : Option Nat := none
deriving DecidableEq, Repr

/-- An escalation step that is due in the command under way (R486, R489). -/
structure DueStep where
  src : Nat
  /-- 1 fence, 2 checkstop partition, 3 checkstop module. -/
  step : Nat
  part : Nat
deriving DecidableEq, Repr

/-- The fault-collection block (R476 to R495). Patina counters, log and snapshot are in the keep-alive domain. -/
structure Flt where
  status : Tab FltStatus := []
  react : Tab Long := []
  hold : Bool := false
  pulseEnd : Option Nat := none
  checkstop : Bool := false
  cmdResult : Nat := 0
  logSel : Nat := 0
  nextSeq : Nat := 0
  lost : Nat := 0
  log : Tab (Option LogEntry) := []
  snapTor : Nat := 0
  live : Tab Half := []
  snap : Tab Half := []
  /-- The steps of `FLT_REACTi` chains that the command under way has made due; empty between commands. -/
  due : List DueStep := []
deriving DecidableEq, Repr

/-! ### Time of record (03_time_of_record) -/

/-- The discipline of TOR (R58). -/
inductive TorState where
  | unreferenced
  | locked
  | fabric
  | slewing
  | holdover
deriving DecidableEq, Repr

/-- The TOR block (R55 to R76). -/
structure TorS where
  tor : Nat := 0
  state : TorState := .unreferenced
  keptValid : Bool := false
  refHeld : Bool := false
  offset : Int := 0
  holdStart : Nat := 0
  lastRef : Nat := 0
  refDisable : Bool := false
  fabricDisable : Bool := false
  /-- The time master in office (R64), none outside a fabric. -/
  master : Option Nat := none
  /-- The master's quality, which is this module's in FABRIC (R59). -/
  masterQuality : Nat := 0
  /-- SLEWING is toward the module's own reference, not toward a master (R63). -/
  slewOwn : Bool := true
  /-- TOR of the last rising edge detected, accepted or not (R62). -/
  edgeSeen : Option Nat := none
  /-- TOR and SECONDS of the last accepted edge (R62, R63). -/
  lastEdge : Option (Nat × Nat) := none
  /-- Consecutive accepted edges of R63's spacing and seconds, that edge included. -/
  goodEdges : Nat := 0
  /-- SECONDS of the valid frame that names the next edge (R62). -/
  named : Option Nat := none
  /-- TOR of the last valid frame (TOD_SEEN). -/
  lastFrame : Option Nat := none
  /-- Consecutive accepted edges at which the own reference and the master differ by more than 1 µs (R65). -/
  disagree : Nat := 0
  /-- The start window of R69 is open. -/
  window : Bool := true
  /-- The step of R69: TOR before and after it. -/
  step : Option (Nat × Nat) := none
  /-- The last multiple of 250 µs at which an Armature port sent its time exchange (R65). -/
  exch : Tab (Option Nat) := []
  /-- TOR of the last DRAM re-centring (R70). -/
  centred : Nat := 0
deriving DecidableEq, Repr

/-! ### Plinth and partitions (02_plinth_image) -/

/-- An extent (R31). -/
structure Extent where
  real : Nat
  size : Nat
  phys : Nat
  attr : Nat
deriving DecidableEq, Repr

/-- The MODULE section (R28). -/
structure PlnModule where
  nodeMode : Nat
  nodeId : Nat
  partnerMode : Nat
  partnerNode : Nat
  failbackHold : Nat
  armPortEn : Nat
  dramSpeed : Nat
  nrK : Nat
  nrFlags : Nat
  clearLink : Nat
  chPortMode : List Nat
  initTor : Nat
deriving DecidableEq, Repr

/-- A PARTITION section (R30). -/
structure PlnPart where
  id : Nat
  pflags : Nat
  torCmp : Nat
  uuid : List Byte
  name : List Byte
  coreMap : Nat
  cacheWays : Nat
  chPorts : Nat
  subchBase : Nat
  subchCount : Nat
  keyBase : Nat
  keyCount : Nat
  hostPerm : Nat
  clkMin : Nat
  clkMax : Nat
  extents : List Extent
deriving DecidableEq, Repr

/-- A route entry (R32). -/
structure PlnRoute where
  dest : Nat
  primary : Nat
  alt : Nat
  pin : Bool
deriving DecidableEq, Repr

/-- A SIGNATURE section (R33), its two public keys together. -/
structure PlnSig where
  keys : List Byte
  sigMl : List Byte
  sigEc : List Byte
deriving DecidableEq, Repr

/-- A Plinth image as its layout is read (R25, R26). -/
structure PlnImage where
  isPartial : Bool
  rotate : Bool
  serial : Nat
  generation : Nat
  buildTor : Nat
  mod_ : Option PlnModule
  parts : List PlnPart
  routes : Option (List PlnRoute)
  sigs : List PlnSig
  /-- The bytes that the signatures cover (R33). -/
  signed : List Byte
deriving DecidableEq, Repr

/-- The states of a partition (R42). -/
inductive PState where
  | undefined
  | stopped
  | running
  | stopping
  | checkstopped
deriving DecidableEq, Repr

/-- The states of `PLN_STATUS` (R49). -/
inductive PlnState where
  | noImage
  | verifying
  | applying
  | applied
deriving DecidableEq, Repr

/-- An image command under way: which (1 LOAD_FULL, 2 LOAD_PARTIAL, 3 STORE_A, 4 STORE_B; 0 the boot path), the staged bytes,
the image once checked, and the state to return to when it is refused (R36, R41, R51). -/
structure PlnJob where
  cmd : Nat
  bytes : List Byte
  image : Option PlnImage
  back : PlnState
  /-- The step of R52 that APPLYING waits in. -/
  stage : Nat
deriving DecidableEq, Repr

/-- The Plinth and partition status block, the flash copies and the fuses (R33 to R49). -/
structure Plinth where
  state : PlnState := .noImage
  result : Nat := 0
  source : Nat := 0
  stageOffset : Nat := 0
  stageLength : Nat := 0
  generation : Nat := 0
  /-- Generation fuses blown, 0 to 64 (R37). -/
  blown : Nat := 0
  /-- The owner hashes written, oldest first; the last is in force (R34, R35). -/
  owners : List (List Byte) := []
  flashA : Option (List Byte) := none
  flashB : Option (List Byte) := none
  /-- The last program of the copy failed, so that it fails its checks (R41). -/
  badA : Bool := false
  badB : Bool := false
  module_ : Option PlnModule := none
  parts : Tab (Option PlnPart) := []
  routes : List PlnRoute := []
  pstate : Tab PState := []
  presult : Tab Nat := []
  /-- A partition has been applied since the last reset of the module (12 R277). -/
  applied : Bool := false
  job : Option PlnJob := none
  /-- Ranges at other homes that are still to be zeroed (R46): base and size. -/
  zero : List (Nat × Nat) := []
  /-- Partitions that start when the copy of their initial program has been performed (25 R563). -/
  starting : List Nat := []
deriving DecidableEq, Repr

/-! ### Power, governor and resets (25_power_governor_reset) -/

/-- The steps of bring-up that `PWR_STATUS.PHASE` names (R564, R567). -/
inductive Phase where
  | firmware
  | controlStore
  | plinth
  | dram
  | fabric
  | journal
  | ready
  | stopped
deriving DecidableEq, Repr

/-- The power, thermal and governor block and what the governor remembers between epochs (R548 to R567). -/
structure Power where
  /-- The module draws from VIN_B (R548). -/
  srcB : Bool := false
  aOk : Bool := false
  bOk : Bool := false
  vkaOk : Bool := false
  /-- Power is on outside the keep-alive domain (R550, R554, R565). -/
  on : Bool := true
  /-- THERMTRIP_N is low (R554). -/
  tripped : Bool := false
  /-- RESET_N is held, or a reset is in force. -/
  phase : Phase := .firmware
  /-- Bring-up runs after a module reset, not after a cold reset (R564). -/
  warm : Bool := false
  throttle : Bool := false
  powerW : Nat := 0
  lastResult : Nat := 0
  ipl : Long := 0
  govEpoch : Nat := 0
  /-- TOR since which both feeds are below 20 V (R554). -/
  below20 : Option Nat := none
  clk : Tab Nat := []
  /-- Last sensor readings and their validity (R567). -/
  temp : Tab Reading := []
  lastTemp : Tab Int := []
  /-- Consecutive epochs at 110.0 °C or more, by sensor (R553). -/
  hot : Tab Nat := []
  /-- Epochs without NR_CLUSTER, by controller (R557). -/
  kQuiet : Tab Nat := []
  /-- The last 60 snapshots of each slot's counter, newest first (R557). -/
  history : Tab (List Nat) := []
  /-- The slot's predictive crossing is already triggered (R557). -/
  crossed : Tab Bool := []
  /-- TOR of the last snapshot that the predictive row has looked at. -/
  lastSnap : Nat := 0
  /-- SYM_CORR of each lane at the last epoch (R557), by port × 8 + lane. -/
  symPrev : Tab Nat := []
  /-- TOR at which the governor marked a lane failed (R557). -/
  laneFail : Tab (Option Nat) := []
deriving DecidableEq, Repr

/-! ### Steaman cores (04 to 11, 20) -/

/-- A machine check that is pending (R185, R187, R188). -/
structure McPend where
  code : Nat
  addr : Nat
  source : Nat
  tor : Nat
  merged : Bool
  /-- Validity bits 47:44 and the store-buffer bit 43 of MC_CODE (R187). -/
  valid : Nat
deriving DecidableEq, Repr

/-- An entry of a store buffer (10 R217, R237): where, what, under which attribute (0 WB, 1 WT, 2 WC, 3 UC), the order marks
that fences and STRL put before it (R224, R226), and the cluster order in which it was performed there. -/
structure SbEntry where
  addr : Nat
  data : List Byte
  attr : Nat
  /-- Every earlier store is performed at CLUSTER (1) or SYSTEM (2) scope before this one is at that scope (STRL, R226);
  0 none. -/
  after : Nat
  /-- Fence epochs at CLUSTER and SYSTEM scope: no store of a later epoch is performed at the scope before one of an
  earlier epoch (R224). -/
  epC : Nat
  epS : Nat
  /-- The store of an STRL, with its scope (R227). -/
  strl : Option Nat
  /-- Performed at CLUSTER scope, with its place in the cluster's order. -/
  cluster : Option Nat
  /-- Its place in the order of the commits; the pieces of one store share it. -/
  seq : Nat
  /-- The bytes that are performed together at least (R221, R222): all of an aligned store's, 8 of an aligned quad's, 1 of a misaligned
  store's and of a decimal operand's. -/
  grain : Nat
  /-- Its request to a remote home has been sent with this tag and is not answered (R217). -/
  sent : Option Nat
  /-- Which of the entries that its store takes it belongs to (R237). -/
  place : Nat
  /-- Its ECC was found uncorrectable: it is performed with its line marked poisoned (20 R461). -/
  bad : Bool
deriving DecidableEq, Repr

/-- A write-combining buffer (R243): its line and the bytes written; the order marks of its oldest store (R224, R226); and
whether it has been released, with the tags of its requests to a remote home that are not answered. -/
structure WcBuf where
  line : Nat
  data : Tab (Option Byte)
  first : Nat
  epC : Nat
  epS : Nat
  /-- The widest scope of an STRL whose store it holds, 0 none (R227). -/
  strl : Nat
  closed : Bool
  out : List Nat
  /-- It holds bytes of an entry whose ECC was uncorrectable (20 R461). -/
  bad : Bool
deriving DecidableEq, Repr

/-- A cached translation (09 R206): an address in it, the low address bits that it translates (a 1 GiB page is held in pieces of
2 MiB, the grain of extents) and those of its page, the first real and Armature address of the piece, the combined attribute, and
the leaf entry as last seen, whose permissions, KEY, FP and C it gives. -/
structure TlbEntry where
  va : Nat
  bits_ : Nat
  page : Nat
  real : Nat
  arm : Nat
  attr : Nat
  leaf : Long
  leafAddr : Nat
  level : Nat
deriving DecidableEq, Repr

/-- A non-leaf entry in the walk cache (R206): level, the virtual-address prefix down to that level's index, next table. -/
structure WalkEntry where
  level : Nat
  pre : Nat
  next : Nat
deriving DecidableEq, Repr

/-- A way of a cache (R239): its line, and the partition for which a shared-cache way was allocated. -/
structure CWay where
  line : Nat
  part : Nat
deriving DecidableEq, Repr

/-- A set of a cache: its valid ways and its pseudo-LRU tree (R242), node n of the tree in bit n. -/
structure CSet where
  ways : Tab (Option CWay) := []
  plru : Nat := 0
deriving DecidableEq, Repr

/-- A line that a disabled cache holds (11 R249 to R251): its 128 bytes and whether it is dirty. -/
structure HeldLine where
  data : List Byte
  dirty : Bool
deriving DecidableEq, Repr

/-- What a core does (08 R190). -/
inductive CoreRun where
  | running
  | waiting (deadline : Option Nat)
  | stopped
  | gated (deadline : Option Nat)
  | lost
  | tcaFault
deriving DecidableEq, Repr

/-- An uncached read that a core has made: the tag of its request to a remote home, address and length, the bytes once they have
arrived, and their poison (20 R464; 14 R318). -/
structure UcVal where
  tag : Nat
  addr : Nat
  n : Nat
  data : Option (List Byte)
  poison : Bool
deriving DecidableEq, Repr

/-- The state of a logical core (R85, R171 to R190): registers, control registers, pending conditions, storage machinery. -/
structure Core where
  g : Tab Long := []
  f : Tab Quad := []
  pc : Long := 0
  tsw : Long := 0
  tcaBase : Long := 0
  rtsw : Long := 0
  rpc : Long := 0
  fpc : Long := 0
  iosub : Long := 0
  torcmp : Tab Long := []
  /-- The value that a comparator written while armed had in force in the tick of the write, and that tick (03 R73). -/
  torPrev : Tab (Option (Long × Nat)) := []
  torctl : Long := 0
  xlRoot : Long := 0
  xlInfo : Long := 0
  xlProbe : Long := 0
  xlResult : Long := 0
  /-- CACHECTL: bit 2 HWPF_OFF, bit 1 L2_OFF, bit 0 L1D_OFF (R247). -/
  cachectl : Long := 0
  staleRisk : Bool := false
  run : CoreRun := .stopped
  /-- Maquette holds the core at a boundary (26 R572). -/
  mqHalt : Bool := false
  /-- A Maquette step is under way (26 R573). -/
  mqStep : Bool := false
  /-- The group of the step is done, and the interruptions of its boundary are being taken (26 R573). -/
  mqBound : Bool := false
  /-- The session that waits for this core to stop (26 R572, R573). -/
  mqWait : Option Session := none
  wake : Bool := false
  /-- Reserved granule: Armature address / 256 (R234). -/
  resv : Option Nat := none
  /-- Between iterations of a REPN repeat (R105). -/
  inRepn : Bool := false
  svc : Option Nat := none
  pgm : Option PgmPend := none
  /-- External call: sender and parameter (R185). -/
  extCall : Option (Nat × Nat) := none
  /-- Governor notices pending, bit k − 1 for kind k (R185). -/
  notices : Nat := 0
  /-- Repressible machine checks, oldest first (R185). -/
  mcs : List McPend := []
  /-- Exigent machine checks. -/
  exig : List McPend := []
  sb : List SbEntry := []
  /-- Fence epochs of the stores to come (R224). -/
  epC : Nat := 0
  epS : Nat := 0
  wc : List WcBuf := []
  /-- The L1 DTLB, the L1 ITLB and the unified L2 TLB, newest entry first (09 R206). -/
  dtlb : List TlbEntry := []
  itlb : List TlbEntry := []
  tlb2 : List TlbEntry := []
  walk : List WalkEntry := []
  /-- How far the core's CORE fences of store-load and load-load type have ordered instruction fetch (R96, R225). -/
  seenOwn : Nat := 0
  seenOther : Nat := 0
  /-- The performed-result buffer (20 R464): the reads that the group under way has made, in order, up to the last uncached one. -/
  ucBuf : List UcVal := []
  /-- The performed-result buffer for atomic operations on UC storage (20 R464). -/
  atomBuf : List UcVal := []
  /-- What a group whose loads come after its own stores has done (10 R224, R227). -/
  part : Option PartGroup := none
  /-- The words of the group under way, as fetched when it began. -/
  code : Option RepGroup := none
  /-- Failed attempts of the group under way (20 R462). -/
  attempts : Nat := 0
  /-- Uncached reads of remote homes for table walks and the TCA (09 R197; 08 R175). -/
  sysBuf : List UcVal := []
  /-- The core is lost as soon as its stores are drained: the parts of its checkpoint that can be read (20 R469). -/
  losing : Option (BitVec 4) := none
  /-- The group whose operations outside the core are under way (20 R464). -/
  held : Option HeldGroup := none
  /-- The performed-result buffer for a channel instruction, HWINDOW or SIGCORE whose group has not committed (20 R464, 16 R370): waiting, or
  its CC. -/
  ioHold : Option (Option Nat) := none
  /-- The repeated group of the repeat under way, as decoded before its first iteration (04 R103). -/
  rep : Option RepGroup := none
  l1i : Tab CSet := []
  l1d : Tab CSet := []
  l2 : Tab CSet := []
  held1 : Tab (Option HeldLine) := []
  held2 : Tab (Option HeldLine) := []
deriving DecidableEq, Repr

/-- A dirty byte in the private caches: the core that holds the line, and the byte (R243). -/
structure DByte where
  core : Nat
  val : Byte
deriving DecidableEq, Repr

/-- Whose instruction fetch a replaced byte concerns (04 R96; 10 R217, R225): the storing core's, from the commit on; the rest of its
cluster's, from the performance at CLUSTER scope on; or, from the performance at SYSTEM scope on, everyone's outside the cluster,
or everyone's but the storing core's. -/
inductive Fetchers where
  | own (l : Nat)
  | cluster (l : Nat)
  | beyond (l : Nat)
  | others (l : Option Nat)
deriving DecidableEq, Repr

/-- What a store replaced, while a fetch may still decode it (04 R96, 10 R225). -/
structure OldBytes where
  addr : Nat
  data : List Byte
  who : Fetchers
  seq : Nat
deriving DecidableEq, Repr

/-- A recast under way in a cluster (20 R466). -/
structure Recasting where
  logical : Nat
  trigger : RecastTrigger
  /-- Started by RECAST_CMD (R475). -/
  byCmd : Bool
deriving DecidableEq, Repr

/-- The cores, the recast registers, the private caches' dirty bytes, and what is held for partitions. -/
structure CoresS where
  core : Tab Core := []
  /-- The slot of a logical core, where it differs from R3. -/
  slot : Tab (Option Nat) := []
  /-- `RECAST_MAPl.STATE`: 1 RECASTING, 2 LOST (R474). -/
  recState : Tab Nat := []
  recasts : Tab Nat := []
  /-- `RECAST_SPAREc.STATE`: 0 AVAILABLE, 1 USED, 2 FAILED. -/
  spare : Tab Nat := []
  inProgress : Tab (Option Recasting) := []
  recBusy : Bool := false
  recResult : Nat := 0
  recLogical : Nat := 0
  dirty : Tab (Option DByte) := []
  clusterSeq : Nat := 0
  /-- Bytes that stores replaced and a fetch may still decode, newest first. -/
  old : List OldBytes := []
  oldSeq : Nat := 0
  /-- Repressible checks held for a partition that has no running core (R188). -/
  heldMc : Tab (List McPend) := []
deriving DecidableEq, Repr

/-! ### Storage (09, 11, 12) -/

/-- A range of Armature addresses whose lines lie under a new key (18 R420): what was there before is unrelated data, the free bytes of a
number; or, without a number, zeros that have been written under the key. -/
structure Rekeyed where
  base : Nat
  size : Nat
  key : Option Nat
deriving DecidableEq, Repr

/-- Main storage: bytes by Armature address (node in bits 57:52), poison by 64-byte burst (12 R267, 21 R480), and the slices
of the shared cache (11 R239). -/
structure Storage where
  mem : List Host.Cell := []
  /-- Ranges of storage whose key has changed or which have been zeroed, the newest first (18 R419, R420). -/
  keyed : List Rekeyed := []
  poison : Tab Bool := []
  slices : Tab (Tab CSet) := []
deriving DecidableEq, Repr

/-- A DRAM controller (12 R257 to R283). `err` holds `DC_ERR_INFO`, `hotRow` holds `DC_HOT_ROW`. -/
structure Dram where
  state : Nat := 0
  speed : Nat := 0
  mode2x : Bool := false
  debt : Nat := 0
  nrCluster : Bool := false
  contentLost : Bool := false
  sensorFail : Bool := false
  lastResult : Nat := 0
  dimms : Nat := 0
  capGiB : Nat := 0
  density : Nat := 0
  lranks : Nat := 0
  k : Nat := 0
  kEff : Nat := 0
  row2 : Bool := false
  rowMap : Tab Long := []
  temp : Tab Reading := []
  lastTemp : Tab Int := []
  errAddr : Long := 0
  err : Long := 0
  hotRow : Long := 0
  passes : Nat := 0
  pos : Nat := 0
  lastRecentre : Nat := 0
  /-- TOR of the last line read by the scrub (R279). -/
  scrubbed : Nat := 0
  /-- The open row of a bank (R268). -/
  openRow : Tab (Option Nat) := []
  /-- Rows queued for neighbour refresh, by bank (R272). -/
  nrQueue : Tab (List Nat) := []
  /-- ACTIVATE counts of up to 16 rows in the epoch: bank, row, count (R274). -/
  acts : List (Nat × Nat × Nat) := []
  /-- Rows of corrected errors in the epoch: bank, row (R274). -/
  ceRows : List (Nat × Nat) := []
  /-- Draws since the generator was last seeded (R272). -/
  draws : Nat := 0
  /-- Parity-alert replays since the last good command (R281). -/
  replays : Nat := 0
  /-- A training is under way at this speed, started by SPEED (R277). -/
  byCmd : Bool := false
  /-- 2x mode has been entered and the debt is being paid back to back (R270). -/
  paying : Bool := false
deriving DecidableEq, Repr

/-! ### The link layer (13_serial_links) -/

/-- A lane (R295, R300). -/
structure Lane where
  symCorr : Nat := 0
  margin : Nat := 0
  lock : Bool := false
  failed : Bool := false
  /-- Consecutive alignment slots missed (R289). -/
  missed : Nat := 0
  /-- It is being re-equalised under LANE_RETRY. -/
  retry : Bool := false
deriving DecidableEq, Repr

/-- A DATA flit in the replay buffer (R290): its 256 bytes as sent, its VC, and how often it has been replayed without
acknowledgement (R294). -/
structure TxFlit where
  seq : Nat
  bytes : List Byte
  vc : Nat
  replays : Nat
  /-- The upper-layer data in it, with its place in the message. -/
  data : List Byte
  som : Bool
  eom : Bool
  via : Option Nat
deriving DecidableEq, Repr

/-- A message that waits for credit: its VC and the bytes not yet sent, and whether its first flit is still to go. -/
structure TxMsg where
  vc : Nat
  bytes : List Byte
  first : Bool
  /-- DATA frames of a channel port: priority, operation and turn in the round robin (15 R354). -/
  prio : Nat := 0
  flow : Nat := 0
  round : Nat := 0
  /-- The Armature port by which a message that this node forwards came (14 R307). -/
  via : Option Nat := none
deriving DecidableEq, Repr

/-- A port of the link layer (R284 to R300). -/
structure Link where
  /-- State code of R294. -/
  state : Nat := 0
  since : Nat := 0
  width : Nat := 0
  group : Nat := 0
  /-- The other end's good-lane mask. -/
  peerGood : Nat := 0
  encOn : Bool := false
  keyPhase : Nat := 0
  disable : Bool := false
  maxWidth : Nat := 3
  laneOff : Nat := 0
  cwCorr : Nat := 0
  cwUncorr : Nat := 0
  crcFail : Nat := 0
  replays : Nat := 0
  tagFail : Nat := 0
  recoveries : Nat := 0
  widthChg : Nat := 0
  downs : Nat := 0
  lane : Tab Lane := []
  replay : List TxFlit := []
  txq : List TxMsg := []
  nextSeq : Nat := 0
  /-- The SEQ that the receiver expects (R291). -/
  expect : Nat := 0
  /-- NAK is set and not yet answered by the expected flit; the TOR of the last NAK sent. -/
  nakSince : Option Nat := none
  /-- TOR of the last advance of ACK, for the 4 µs rule. -/
  ackTor : Nat := 0
  uncorrRun : Nat := 0
  slots : Nat := 0
  /-- TOR of this end's last alignment slot (R289). -/
  alignTor : Nat := 0
  /-- The ACK of the NAK that started the last replay, where a NAK did, and the TOR at which the last flit of that replay has been sent
  (R291). -/
  replayAck : Option Nat := none
  replayUntil : Nat := 0
  /-- A width exchange is under way; it switches at the next alignment slot once both masks agree (R296). -/
  widthPending : Bool := false
  widthAgreed : Bool := false
  widthSent : Nat := 0
  /-- TOR at which the WIDTH flit was last sent. -/
  widthAt : Nat := 0
  credits : Tab Nat := []
  nextVc : Nat := 0
  /-- Flits passed upwards whose credit is still to be returned, by VC. -/
  returns : Tab Nat := []
  rx : Tab (List Byte) := []
  tagRun : Nat := 0
  /-- Data flits sealed and opened under the phases in force (R298). -/
  ivTx : Nat := 0
  ivRx : Nat := 0
  /-- Data flits opened under the previous receive phase, while it is accepted. -/
  ivOld : Nat := 0
  /-- The shared secret of the exchange and the SHA-384 digest of its transcript (14 R310). -/
  secret : List Byte := []
  context : List Byte := []
  rotation : Nat := 0
  /-- The rotation interval of TOR in which the keys in force were loaded (R299). -/
  rotMark : Nat := 0
  rxPhase : Nat := 0
  rxRotation : Nat := 0
  /-- TOR of the first flit of the receive phase in force, while the previous phase is still accepted (R299). -/
  oldPhaseUntil : Option Nat := none
  /-- This end was the initiator of the exchange (14 R309). -/
  initiator : Bool := false
  /-- The link is clear: permitted and chosen (R297). -/
  clear : Bool := false
deriving DecidableEq, Repr

/-! ### Armature fabric (14_armature) -/

/-- A line of a remote module held in this module's private caches (R240, R319). -/
structure RLine where
  data : List Byte
  owned : Bool
  poison : Bool
deriving DecidableEq, Repr

/-- The agent and traffic of a request, which its transaction ID keeps apart (10 R231): a core's misses, write-backs and prefetches; its UC
accesses; its combining buffer of a line; a prefetch, with whether it is into the L1D too; a subchannel's data, status and journal; a Rasp or
Intaglio queue; the host port's posted writes of a function; its reads; the service core. -/
inductive Agent where
  | core (l : Nat)
  | coreUc (l : Nat)
  | coreWc (l line : Nat)
  | pref (l : Nat) (l1 : Bool)
  | subch (i : Nat)
  | rasp (q : Nat)
  | intaglio (q : Nat)
  | hostWrite (fn : Nat)
  | hostRead
  | service
deriving DecidableEq, Repr

/-- A REQ that has been sent and not answered (R317, R318): its message, when it was first and last sent, how often, and the
agent and partition that it serves. -/
structure OutReq where
  msg : Msg
  first : Nat
  last : Nat
  sends : Nat
  who : Agent
  part : Option Nat
deriving DecidableEq, Repr

/-- A line of WC or UC storage that an agent reads at its remote home with UNCACHED (R304): the request's tag, and the answer once it is here. -/
structure AgentGot where
  who : Agent
  tag : Nat
  line : Nat
  data : Option (List Byte) := none
  poison : Bool := false
deriving DecidableEq, Repr

/-- A route entry (R307). -/
structure Route where
  primary : Option Nat := none
  alt : Option Nat := none
  desc : Option Nat := none
  descAlt : Option Nat := none
  hops : Nat := 0
  pinned : Bool := false
  /-- An override of the image is installed (R308). -/
  fixed : Bool := false
deriving DecidableEq, Repr

/-- A member of the link-state database (R313): its advertisement and the TOR at which it last came. -/
structure Member where
  adv : Adv
  seen : Nat
deriving DecidableEq, Repr

/-- A directory entry of a home slice (R319): its line, owned or shared, and the nodes that hold it. -/
structure DirEntry where
  line : Nat
  owned : Bool
  holders : Nat
deriving DecidableEq, Repr

/-- A write of an agent that waits behind an earlier request with the agent's transaction ID (10 R231): the agent, the partition that
it serves, the Armature address and the bytes, which lie in one line. -/
structure LateWrite where
  who : Agent
  part : Option Nat
  addr : Nat
  data : List Byte
deriving DecidableEq, Repr

/-- A request that a home serves (R320): the request, the nodes whose answer it waits for with the tags of their SNOOPs, since when. -/
structure HomeTxn where
  req : Msg
  waiting : Nat
  since : Nat
  /-- It recalls this line for room or for a departure, and serves no request (R321, R325). -/
  forRecall : Bool
  tags : List (Nat × Nat) := []
  /-- It waits for the recall of this line, which makes room for its entry (R321). -/
  room : Option Nat := none
deriving DecidableEq, Repr

/-- What a port has learnt in discovery (R309 to R311): the step reached, the peer, the nonces and the session. -/
structure Peer where
  /-- 0 none, 1 HELLO, 2 IDENTITY, 3 KEM_OFFER, 4 KEM_REPLY, 5 CONFIRM seen; 6 admitted. -/
  step : Nat := 0
  sentConfirm : Bool := false
  node : Nat := 0
  port : Nat := 0
  result : Nat := 0
  serial : Long := 0
  claim : Nat := 0xFF
  transcript : List Byte := []
  nonce : List Byte := []
  secret : List Byte := []
deriving DecidableEq, Repr

/-- A route epoch that is announced (R314). -/
structure EpochAnn where
  num : Nat
  tor : Nat
  digest : List Byte
deriving DecidableEq, Repr

/-- The Armature block (R301 to R326). -/
structure Fabric where
  /-- `FSTATE`: 0 OFF, 1 DISCOVERING, 2 ALONE, 3 JOINING, 4 MEMBER, 5 LEAVING, 6 LEFT. -/
  fstate : Nat := 0
  lastResult : Nat := 0
  node : Option Nat := none
  lastId : Nat := 0
  seq : Nat := 0
  db : Tab (Option Member) := []
  dbChange : Nat := 0
  discoStart : Nat := 0
  claimed : Option Nat := none
  epoch : Nat := 0
  epochTor : Nat := 0
  next : Option EpochAnn := none
  /-- A change waits for the next epoch (R314). -/
  change : Bool := false
  root : Nat := 0
  routes : Tab Route := []
  prev : Tab Route := []
  prevUntil : Nat := 0
  /-- The levels of the nodes at the epoch in force and at the one before it, and the destinations whose override of the image has
  lapsed (R306 to R308). -/
  labels : Tab (Option Nat) := []
  prevLabels : Tab (Option Nat) := []
  lapsed : List Nat := []
  /-- The table of the epoch that is announced, and the levels of its nodes (R315). -/
  shadow : Tab Route := []
  shadowLabels : Tab (Option Nat) := []
  /-- The last report of a differing digest that went out or on: epoch and digest (R315). -/
  report : Option (Nat × List Byte) := none
  peers : Tab Peer := []
  reqs : List OutReq := []
  nextTag : Nat := 0
  recent : Tab (List Nat) := []
  answered : Tab (Option Msg) := []
  rlines : Tab (Option RLine) := []
  dir : Tab (List DirEntry) := []
  txn : Tab (Option HomeTxn) := []
  queue : Tab (List Msg) := []
  /-- Writes of agents that wait behind their earlier ones, oldest first (10 R231). -/
  later : List LateWrite := []
  /-- Lines of WC and UC storage of remote homes that agents have asked for and not used (15 R342; 11 R243). -/
  got : List AgentGot := []
  removeReq : Bool := false
  /-- A departure that the duplex partner has not been told of yet: the state before it (R324). -/
  telling : Option Nat := none
  /-- TOR at which a departing module enters LEFT (R325). -/
  leaveAt : Option Nat := none
deriving DecidableEq, Repr

/-! ### Channel subsystem (15_channel_programs) -/

/-- An offered I/O interruption (R352): module subchannel, its partition and subclass, the interruption parameter, whether it is
intermediate, and whether it has been taken. The list is in the order of the offers. -/
structure Offer where
  subch : Nat
  part : Nat
  cls : Nat
  param : Nat
  inter : Bool
  taken : Bool
deriving DecidableEq, Repr

/-- `CS_SUBCHi` without its `STATE`, which the journal entry holds (R363). -/
structure SubCfg where
  en : Bool := false
  port0 : Nat := 15
  port1 : Nat := 15
  dev : Nat := 0
deriving DecidableEq, Repr

/-- A journal entry (16 R366). Its reset value is all zero: IDLE with `SEQ` 0 (R385). -/
structure JEntry where
  state : Nat := 0
  trans : Nat := 0
  mirror : Bool := false
  takenOver : Bool := false
  simplex : Bool := false
  openSent : Bool := false
  hold : Bool := false
  subclass : Nat := 0
  priority : Nat := 0
  quality : Nat := 0
  part : Nat := 0
  devStatus : Nat := 0
  chCode : Nat := 0
  flags : Nat := 0
  seq : Nat := 0
  tor : Nat := 0
  orderAddr : Nat := 0
  /-- `ORDINAL` before STATUS_PENDING, `RESIDUAL` from then on. -/
  ordinal : Nat := 0
  engine : Nat := 0
  mark : Nat := 0
  param : Nat := 0
  release : Nat := 0
deriving DecidableEq, Repr

/-- The operation block as read at IOSTART (R337), with whether R338 refuses it. -/
structure OpBlock where
  first : Nat := 0
  param : Nat := 0
  relTor : Nat := 0
  relTag : Nat := 0
  raspCtx : Nat := 0
  cipherCtx : Nat := 0
  keySlot : Nat := 0xFFFF
  raspProfile : Nat := 0
  cipherProfile : Nat := 0
  priority : Nat := 0
  hold : Bool := false
  subclass : Nat := 0
  resubmit : Bool := false
  bad : Bool := false
deriving DecidableEq, Repr

/-- A piece of storage that a device order names (R343, R345): real address and length, the order that names it, whether it is
the first of that order, whether that order carries NOTIFY, and whether data is discarded. -/
structure Elem where
  addr : Nat
  len : Nat
  order : Nat
  first : Bool
  notify : Bool
  discard : Bool
deriving DecidableEq, Repr

/-- A device order in progress, a data chain as one (R343), and how far its transfer has come. -/
structure DevOrd where
  opcode : Nat
  /-- `FLAGS` of the last order of the chain. -/
  flags : Nat
  first : Nat
  next : Nat
  count : Nat
  elems : List Elem
  /-- Bits 6 to 9 of `FLAGS`: the engines (R346). -/
  eng : Nat
  slot : Nat
  dev : Nat
  /-- The first order carries `NOTIFY`. -/
  note : Bool := false
  /-- The ORDER frame has been sent. -/
  sent : Bool := false
  /-- The data of a WRITE or CONTROL has been handed to the port, or that of a READ has passed the engines. -/
  pushed : Bool := false
  /-- Device data of a WRITE or CONTROL, once read and transformed. -/
  out : Option (List Byte) := none
  /-- The first storage bytes of a held WRITE, read into the port (R349). -/
  early : List Byte := []
  /-- Device data of a READ that engines are to transform. -/
  got : List Byte := []
  /-- Device bytes received in order. -/
  offset : Nat := 0
  /-- Storage bytes moved. -/
  moved : Nat := 0
  /-- The device offered more than `COUNT` (R344). -/
  excess : Bool := false
  /-- LAST has arrived. -/
  last : Bool := false
  /-- Bytes at which chained orders have begun (R352). -/
  begun : Nat := 0
  /-- The STATUS of the order, where it waits for the engines: device status, FINAL, device bytes not moved. -/
  status : Option (Nat × Bool × Nat) := none
deriving DecidableEq, Repr

/-- A data chain that is being gathered (R343): the device order so far, the address of its next order, the JUMPs that stand before
that, and the first order whose key slot is not permitted (R347). -/
structure Chain where
  d : DevOrd
  next : Nat
  jumps : Nat := 0
  badSlot : Option Nat := none
deriving DecidableEq, Repr

/-- Work in line (R346; 17 R407, 19 R455): for Intaglio or for Rasp, of a READ or of a WRITE, its input, the hub whose engines do it, the
engine that runs it, and what it came to. -/
structure LineReq where
  cipher : Bool
  back : Bool
  input : List Byte
  hub : Nat
  engine : Option Nat := none
  done : Option (Nat × List Byte) := none
deriving DecidableEq, Repr

/-- What an operation waits for. -/
inductive OpWait where
  | none
  /-- A WAIT_TOR order (R349). -/
  | tor (t : Nat)
  /-- The release time, at the first WRITE (R349). -/
  | held
  /-- A named path that is driven and ACTIVE (R355). -/
  | path
  /-- A line of a remote home (14 R322), or an engine of the hub (R346). -/
  | line
  /-- The adapter: DATA and STATUS frames. -/
  | device
deriving DecidableEq, Repr

/-- What the channel subsystem keeps of the operation that last ended on a subchannel, beside its entry: `FUNC`, TOR and quality
of its FINAL transition, the path and origin of its frames, and the ordinal of a final STATUS still to be acknowledged
(R350, R358; 16 R370). -/
structure LastOp where
  func : Nat := 0
  tor : Nat := 0
  quality : Nat := 0
  port : Option Nat := none
  origin : Nat := 0
  ackDue : Option Nat := none
  ordinal : Nat := 0
  /-- The `PARAM` in force, while an IOMODIFY that would replace it is not yet durable (R335). -/
  param : Option Nat := none
  /-- Its START received CONFLICT: its ACCEPT is not mirrored (16 R375). -/
  conflict : Bool := false
deriving DecidableEq, Repr

/-- A channel check that ended the program while the device is being halted (R351): code, order address, engine status, and whether it
interrupted the transfer of an order that had been sent. -/
structure ChCheck where
  code : Nat
  order : Nat
  engine : Nat
  moving : Bool
deriving DecidableEq, Repr

/-- New release values of an IOMODIFY that is not yet durable (R335). -/
structure ModVals where
  relTor : Nat
  relTag : Nat
  param : Nat
  priority : Nat
  hold : Bool
deriving DecidableEq, Repr

/-- What a final status says beside what its operation holds (R350). -/
structure EndVals where
  dev : Nat := 0
  code : Nat := 0
  length : Bool := false
  halted : Bool := false
  uncertain : Bool := false
  addr : Nat
  resid : Nat := 0
  engine : Nat := 0
  /-- Ordinal of the STATUS to acknowledge. -/
  ack : Option Nat := none
deriving DecidableEq, Repr

/-- An operation that has not ended: what the channel subsystem holds of it beside its journal entry. -/
structure ChOp where
  blk : OpBlock := {}
  /-- Node ID in the frames (R356). -/
  origin : Nat := 0
  /-- Its storage can be read (R378). -/
  reach : Bool := true
  /-- It is what settlement made of an entry (16 R379). -/
  settled : Bool := false
  /-- It had sent OPEN when it was settled, and is re-driven (16 R379). -/
  resumed : Bool := false
  /-- The IDLE entry that the operation replaced (R336, R368). -/
  prev : JEntry := {}
  prevLast : LastOp := {}
  func : Nat := 1
  /-- Order of IOSTART, and its TOR (R354). -/
  order : Nat := 0
  started : Nat := 0
  aged : Bool := false
  /-- The START transition is durable in both journals, or needs to be only here (R371). -/
  durable : Bool := false
  /-- The START received CONFLICT (R375). -/
  conflict : Bool := false
  cp : Option Nat := none
  port : Option Nat := none
  /-- The next OPEN carries REDRIVE (R361, R362). -/
  redrive : Bool := false
  /-- An ORDER frame of the operation has been sent. -/
  ordered : Bool := false
  pc : Nat := 0
  jumps : Nat := 0
  /-- Data chains under GCM that have been reached (19 R455). -/
  gcm : Nat := 0
  cur : Option DevOrd := none
  chain : Option Chain := none
  line : Option LineReq := none
  wait : OpWait := .none
  released : Bool := false
  /-- The device is being halted, and since when (R331, R351). -/
  halt : Option Nat := none
  /-- IOHALT was accepted, or the entry is being settled by a halt: `HALTED` is set. -/
  halted : Bool := false
  /-- The halt settles the entry (R379). -/
  settling : Bool := false
  check : Option ChCheck := none
  /-- The status of the order that ended the program while the adapter is still to answer a halt (R358): device status,
  residual, length incorrect. -/
  ended : Option (Nat × Nat × Bool) := none
  mod_ : Option ModVals := none
  /-- A re-drive has begun: `FLAGS.REDRIVEN` (R361). -/
  redriven : Bool := false
  /-- Of the device order that ended last: device status, residual, length incorrect (R350). -/
  lastDev : Nat := 0
  lastRes : Nat := 0
  lastLen : Bool := false
  /-- Intermediate status: TOR, quality and order address (R336, R350). -/
  inter : Option (Nat × Nat × Nat) := none
  /-- The operation has ended, and its status waits for stores of its data that are still to be performed (10 R230). -/
  ending : Option EndVals := none
deriving DecidableEq, Repr

/-- The channel subsystem (R327 to R364). -/
structure Chan where
  sub : Tab SubCfg := []
  /-- `CS_CPk.STATE`: 0 RUN, 1 STOPPED, 2 FAILED. -/
  cp : Tab Nat := []
  driving : Tab Bool := []
  ops : Tab (Option ChOp) := []
  last : Tab LastOp := []
  nextOrder : Nat := 0
deriving DecidableEq, Repr

/-! ### Channel journal (16_channel_journal) -/

/-- A MIRROR that is not yet acknowledged (R370, R374, R376): its transition, the entry as sent, the message's tag, the waiting
core, when it was first and last sent, and how often. -/
structure MirrorOut where
  index : Nat
  trans : Nat
  sync : Bool
  entry : JEntry
  tag : Nat
  core : Option Nat
  first : Nat
  last : Nat
  sends : Nat
  /-- The journal path fault of R376 has been reported for it. -/
  reported : Bool
deriving DecidableEq, Repr

/-- The channel journal (R365 to R385). -/
structure Jnl where
  e : Tab JEntry := []
  keptValid : Bool := false
  /-- `KEPT_VALID` as the cold reset under way found it (R381, R385). -/
  found : Bool := false
  /-- `JNL_STATUS.PAIR` (R385). -/
  pair : Nat := 0
  out : List MirrorOut := []
  lat : Nat := 0
  latMax : Nat := 0
  slow : Nat := 0
  sel : Nat := 0
  /-- Own entries wait for resync before they are settled (R381). -/
  settleDue : Bool := false
  /-- Own entries that resync returned and the partner still works on (R383). -/
  theirs : List Nat := []
  /-- DRAM kept its contents since the entries' operations started (R378). -/
  storageKept : Bool := false
  /-- The `UUID`s of the partitions before the last module reset, until the entries are settled (R378). -/
  uuids : Tab (Option (List Byte)) := []
deriving DecidableEq, Repr

/-! ### Duplex (22_duplex) -/

/-- One heartbeat path (R500 to R503, R511). -/
structure HbState where
  /-- The next multiple of 40,000 ticks whose heartbeat is expected; 0 where none is. -/
  due : Nat := 0
  arrived : List Nat := []
  /-- Consecutive misses. -/
  run : Nat := 0
  ok : Bool := false
  /-- A heartbeat of the partner has arrived since the last reset. -/
  seen : Bool := false
  miss : Nat := 0
  faults : Nat := 0
  /-- A partner that does not name this module has been logged for the path (R496). -/
  logged : Bool := false
deriving DecidableEq, Repr

/-- The duplex block (R496 to R511, R601). -/
structure Duplex where
  state : Nat := 0
  arm : HbState := {}
  ded : HbState := {}
  lastResult : Nat := 0
  inhibit : Bool := false
  seconds : Nat := 0
  n : Nat := 0
  holdEnd : Nat := 0
  failTor : Nat := 0
  hist : List Nat := []
  /-- The partner's roles of the last exchange (R497); none before the first. -/
  roles : Option (List Nat) := none
  parts : List PairPart := []
  /-- Ports driven for the partner (R504). -/
  taken : Tab Bool := []
  /-- The partner holds ports of this module (R507, R601). -/
  heldByPartner : Bool := false
  jnlFault : Bool := false
  released : Bool := false
  /-- The last due time at which heartbeats were sent. -/
  sentAt : Nat := 0
  leaving : Bool := false
  /-- Subchannels whose configuration waits to be copied to the partner, oldest first (R499). -/
  copies : List Nat := []
deriving DecidableEq, Repr

/-! ### Work queues and the engines (17_rasp, 19_intaglio, 24_host_port) -/

/-- A queue: rings, indices, state (17 R398, R401, R409; 24 R537, R544). -/
structure Queue where
  sqBase : Nat := 0
  size : Nat := 0
  cqBase : Nat := 0
  tail : Nat := 0
  cqHead : Nat := 0
  head : Nat := 0
  cqTail : Nat := 0
  /-- 0 DISABLED, 1 ENABLED, 2 DRAINING, 3 PAUSED. -/
  state : Nat := 0
  lastResult : Nat := 0
  pause : Nat := 0
  phase : Bool := true
  /-- A job taken from it runs. -/
  busy : Bool := false
  /-- Tag of the outstanding request for a slot in host memory. -/
  fetch : Option Nat := none
  /-- A slot that has arrived from host memory and waits for its engine or inbox. -/
  slot : Option (List Byte) := none
  /-- A record held while Bus Master Enable is 0, with its failing class for the vector (R544). -/
  held : Option (List Byte) := none
  /-- Its registers return to reset values once it is DISABLED (17 R402). -/
  wipe : Bool := false
  /-- Record of a job that runs while its function is reset is discarded (R543). -/
  drop : Bool := false
  /-- The record of a job that is done, with whether its vector of failures is due, while its output is not yet performed at every home
  (17 R399; 10 R231). -/
  post : Option (List Byte × Bool) := none
  /-- Jobs in line that were taken while the queue had work that none of the engines had taken (R403, R437). -/
  behind : Nat := 0
deriving DecidableEq, Repr

/-- A job that runs on a Rasp engine (R394, R396, R407): its queue, or in line its subchannel; its partition, the descriptor, what is read at
its start, where the input is poisoned first, its output space, and a status decided before the work. -/
structure RaspJob where
  queue : Nat
  part : Nat
  desc : List Byte
  ctx : List Byte := []
  input : List Byte := []
  early : Option Nat := none
  /-- The subchannel of a job in line (R407). -/
  line : Option Nat := none
  /-- Bytes of output space; none in line on WRITE. -/
  space : Option Nat := none
  /-- The first poisoned byte of the input. -/
  bad : Option Nat := none
  /-- Context and input are here. -/
  loaded : Bool := false
deriving DecidableEq, Repr

/-- A Rasp engine (R403, R409). -/
structure RaspEng where
  failed : Bool := false
  jobs : Nat := 0
  job : Option RaspJob := none
deriving DecidableEq, Repr

/-- A key in a slot (19 R440). -/
structure KeySlot where
  key : List Byte
  alg : Nat
  usage : Nat
  never : Bool
  uuid : List Byte
deriving DecidableEq, Repr

/-- A request that runs on, or is suspended in, an Intaglio engine (19 R431 to R451). -/
structure IntJob where
  queue : Nat
  part : Nat
  desc : List Byte
  ctx : List Byte
  input : List Byte
  aad : List Byte
  key : Option KeySlot
  early : Option Nat
  suspended : Bool
  dual : Bool
  /-- The subchannel of a request in line (R455). -/
  line : Option Nat := none
  /-- Place in the order in which requests start (R448). -/
  start : Nat := 0
  /-- Context, AAD and input are here, and a request that acts on its slot has its turn (R448). -/
  loaded : Bool := false
  /-- Input bytes read up to the last suspension (R450). -/
  read : Nat := 0
deriving DecidableEq, Repr

/-- An Intaglio engine (R450, R452, R458). -/
structure IntEng where
  failed : Bool := false
  dual : Bool := false
  jobs : Nat := 0
  faults : Nat := 0
  job : Option IntJob := none
  susp : Option IntJob := none
  /-- The queue whose urgent request has ended and whose record is still to be posted, before the suspended one resumes (R451). -/
  posting : Option Nat := none
deriving DecidableEq, Repr

/-- The Rasp and Intaglio blocks. -/
structure Engines where
  rq : Tab Queue := []
  rasp : Tab RaspEng := []
  iq : Tab Queue := []
  inta : Tab IntEng := []
  slots : Tab (Option KeySlot) := []
  /-- The queue after the one that each block served last (R403, R437). -/
  rNext : Nat := 0
  iNext : Nat := 0
  /-- Intaglio requests started (R448). -/
  order : Nat := 0
deriving DecidableEq, Repr

/-! ### Trust (18_trust) -/

/-- A publication (R423). -/
structure Pub where
  base : Nat
  sizeLog2 : Nat
  perm : Nat
deriving DecidableEq, Repr

/-- `TR_PATTn` (R429). -/
structure PAtt where
  busy : Bool := false
  result : Nat := 0
  addr : Nat := 0
  /-- The area of the report being formed. -/
  area : Nat := 0
  /-- The report has been written, and `BUSY` clears when its stores are performed (18 R417). -/
  wrote : Bool := false
deriving DecidableEq, Repr

/-- A DRBG instance (R421): requests since its seeding, and the TOR of it. -/
structure Drbg where
  requests : Nat := 0
  seeded : Nat := 0
  reseeds : Nat := 0
deriving DecidableEq, Repr

/-- A report under way through `TR_ATT_CMD` (R417): the partition it names, if any, and the offset of the area. -/
structure AttJob where
  part : Option Nat
  off : Nat
deriving DecidableEq, Repr

/-- A grant that waits for its destruction (R426, R427): session (none on a remote module), scope, expiry, when it began, and
the nodes that are still to acknowledge. -/
structure PendGrant where
  session : Session
  scope : Scope
  expiry : Nat
  since : Nat
  waiting : List Nat
deriving DecidableEq, Repr

/-- The trust block (R410 to R429). -/
structure Trust where
  esN : Bool := false
  esS : Bool := false
  fwFail : Bool := false
  moduleDebug : Bool := false
  attBusy : Bool := false
  attResult : Nat := 0
  attJob : Option AttJob := none
  keyGen : Tab Nat := []
  debug : Tab Bool := []
  /-- The `UUID` under which control level was granted on a partition (R427). -/
  debugUuid : Tab (List Byte) := []
  /-- The identity keys (R412): the ECDSA private key and the ML-DSA seed, none before the first cold bring-up. -/
  idEc : Option Nat := none
  idMl : Option (List Byte) := none
  pubs : Tab (Option Pub) := []
  patt : Tab PAtt := []
  /-- Storage keys by partition, 48 the module's (R419). -/
  storageKey : Tab (Option (List Byte)) := []
  /-- The service store has been re-keyed: the number of the free bytes that it reads as where nothing has been written since (R420). -/
  svcKey : Option Nat := none
  /-- DRBG instances by partition, 48 the module's. -/
  drbg : Tab Drbg := []
  /-- `PLINTH_MEAS` (R416). -/
  meas : List Byte := []
  /-- The firmware image in force: digest of its signed bytes. -/
  fwMeas : List Byte := []
  /-- Held in reset after a destructive boundary scan (R426). -/
  scanHeld : Bool := false
  pend : Option PendGrant := none
deriving DecidableEq, Repr

/-! ### Control stores (23_control_store) -/

/-- A control-store or firmware image in force (R519 to R522): version, security version, its data, signed bytes, and whether it
came from copy B. -/
structure CsImage where
  version : Nat
  svn : Nat
  words : List Byte
  signed : List Byte
  fromB : Bool
deriving DecidableEq, Repr

/-- A control store (R512, R517, R525). `flips` are the bits in which a stored word differs from the loaded one. -/
structure CsStore where
  state : Nat := 0
  ce : Nat := 0
  repairs : Nat := 0
  passes : Nat := 0
  flips : Tab Nat := []
  pos : Nat := 0
  repair : Option Nat := none
deriving DecidableEq, Repr

/-- The control-store block. `flash` holds the images by copy × 8 + target (R521, R522). -/
structure CtlStore where
  busy : Bool := false
  result : Nat := 0
  source : Nat := 0
  failTarget : Nat := 0
  stageOffset : Nat := 0
  stageLength : Nat := 0
  img : Tab (Option CsImage) := []
  floor : Tab Nat := []
  store : Tab CsStore := []
  diagStore : Nat := 0
  diagAddr : Nat := 0
  flash : Tab (Option (List Byte)) := []
deriving DecidableEq, Repr

/-! ### Host port (24_host_port) -/

/-- A function of the host port (R527 to R547): its interrupt and master state, its counters, and its configuration space. -/
structure HostFn where
  bme : Bool := false
  msixEnable : Bool := false
  /-- Function Mask of the MSI-X capability. -/
  fnMask : Bool := false
  /-- Unmasked vectors (after a reset every vector is masked, R543). -/
  vOpen : Tab Bool := []
  vAddr : Tab Nat := []
  vData : Tab Nat := []
  pba : Tab Bool := []
  /-- A function reset is in progress (R543), since when. -/
  flr : Bool := false
  late : Nat := 0
  ur : Nat := 0
  dropped : Nat := 0
  bar : Tab Nat := []
  memEnable : Bool := false
  d3 : Bool := false
deriving DecidableEq, Repr

/-- A window entry (R531, R547). -/
structure WinEntry where
  lo : Long := 0
  off : Long := 0
deriving DecidableEq, Repr

/-- A queue pair (R536 to R538, R547). -/
structure HostQp where
  kind : Nat := 0
  owner : Option Nat := none
  lastResult : Nat := 0
  prBase : Nat := 0
  pcBase : Nat := 0
  notify : Nat := 0
  inbox : Nat := 0
  inTail : Nat := 0
  inHead : Nat := 0
  outTail : Nat := 0
  outHead : Nat := 0
deriving DecidableEq, Repr

/-- An outstanding request of the module to host memory: the queue pair that it serves, and when it was sent. -/
structure HostReq where
  qp : Nat
  since : Nat
deriving DecidableEq, Repr

/-- The host port beside its two functions. -/
structure HostPort where
  /-- `HP_LINK.STATE`: 0 DOWN, 1 TRAINING, 2 UP. -/
  state : Nat := 0
  rate : Nat := 0
  width : Nat := 0
  flit : Bool := false
  /-- PERST_N is asserted; an unconnected pin holds it so (27 R582). -/
  perst : Bool := true
  /-- TOR at which both a good feed and the release of PERST_N were there (27 R589). -/
  since : Nat := 0
  aper : Nat := 0
  shadow : Tab WinEntry := []
  win : Tab WinEntry := []
  winResult : Nat := 0
  firstBad : Nat := 0
  qp : Tab HostQp := []
  mq : Tab Queue := []
  req : Tab (Option HostReq) := []
  nextTag : Nat := 0
deriving DecidableEq, Repr

/-! ### Maquette (26_maquette) -/

/-- A command line (R571, R572, R574). -/
inductive MqCmd where
  | nothing
  | id
  | tor
  | patina (first last : Nat)
  | flt (n : Nat)
  | plinth
  | jnl (index : Option Nat)
  | link (p : Option PortId)
  | baud (rate : Nat)
  | grant (sc : Scope) (offset : Option Nat)
  | release
  | memR (addr count : Nat)
  | memW (addr : Nat) (val : Long)
  | halt (l : Nat)
  | step (l : Nat)
  | run (l : Nat)
  | regs (l : Nat)
  | recast (l : Nat)
deriving DecidableEq, Repr

/-- What waits for the monitor while it executes a line (R577): a command, a line, a line that is too long or has an error, or a look at the
mailbox, whose `IN_SEQ` changed meanwhile (R578). -/
inductive MqItem where
  | cmd (ss : Session) (c : MqCmd)
  | line (ss : Session) (bytes : List Byte)
  | bad (ss : Session) (code : Nat)
  | mailbox
deriving DecidableEq, Repr

/-- A storage command of a session that waits for another module (R572): the longs of a read, or a write not yet performed. -/
inductive MqMem where
  | read (sc : Scope) (addr count : Nat)
  | write
deriving DecidableEq, Repr

/-- A session of the monitor (R574, R577). -/
structure MqSession where
  grant : Option (Scope × Nat) := none
  /-- The scope whose token is being sent, and the bytes so far (R574). -/
  await : Option Scope := none
  token : List Byte := []
  mem : Option MqMem := none
deriving DecidableEq, Repr

/-- The monitor (R568 to R579). -/
structure Maquette where
  uart : MqSession := {}
  mbx : MqSession := {}
  baud : Nat := 115200
  oldBaud : Nat := 115200
  /-- TOR of the switch to a new rate at which no complete line has come (R568). -/
  baudSince : Option Nat := none
  /-- The line being received (R569). -/
  line : List Byte := []
  tooLong : Bool := false
  /-- The last `IN_SEQ` taken (R578). -/
  inSeq : Nat := 0
  /-- The session that waits for the end of its `recast` (R572). -/
  recast : Option Session := none
  /-- Complete lines that wait for the end of the one being executed, in order of completion (R577). -/
  queue : List MqItem := []
deriving DecidableEq, Repr

/-! ### Pins and clocks (25_power_governor_reset; 27_electrical_package) -/

/-- Input pins and reference clocks, and the boundary that PRSNT_N sets (R565, R588 to R590). -/
structure Pins where
  prsnt : Bool := true
  /-- RESET_N is low. -/
  resetLow : Bool := false
  sysLost : Bool := false
  sdsNLost : Bool := false
  sdsSLost : Bool := false
  hpLost : Bool := false
  removeOk : Bool := false
deriving DecidableEq, Repr

/-! ### What leaves the module -/

/-- What the module sends or shows outside itself, in order. -/
inductive Out where
  /-- Notice to the service core that source `src` became pending (21 R485). -/
  | scNotice (src : Nat)
  /-- An MSI-X message of a function (24 R539). -/
  | msix (fn vec : Nat)
  /-- A message on Armature port p (14 R303). -/
  | msg (p : Nat) (m : Msg)
  /-- A codeword sent on a port (13 R286, R288): the 256 bytes of a flit and 16 parity symbols. -/
  | flit (p : PortId) (symbols : List Byte)
  /-- An alignment slot sent on a port (13 R289): each active lane, and the bytes that it carries. -/
  | alignment (p : PortId) (lanes : List (Nat × List Byte))
  /-- Upper-layer data delivered by a port: VC and message bytes (13 R291). -/
  | delivered (p : PortId) (vc : Nat) (bytes : List Byte)
  /-- Flits whose delivery is uncertain at DOWN (13 R292). -/
  | uncertain (p : PortId) (seqs : List Nat)
  /-- A MARK is journaled (15 R340): the subchannel, the order's `DEV`, and its TOR. -/
  | mark (i dev tor : Nat)
  /-- A frame to the adapter on channel port n (15 R356). -/
  | frame (n : Nat) (bytes : List Byte)
  /-- A heartbeat on the dedicated path: comma, body, CRC (22 R500). -/
  | hbFrame (bytes : List Byte)
  /-- The pairing exchange sent to the partner on the JNL virtual channel (16 R377). -/
  | pairing (node : Nat) (parts : List PairPart) (roles : List Nat) (holds : Bool)
  /-- A discovery message on a port in KEY (14 R309): kind and body. -/
  | discovery (p : Nat) (kind : Nat) (body : List Byte)
  /-- A link-state advertisement sent on a port (14 R313). -/
  | adv (p : Nat) (a : Adv)
  /-- A route-epoch announcement sent (14 R314). -/
  | epoch (num tor : Nat) (digest : List Byte)
  /-- A time exchange sent on a port (03 R65). -/
  | timeExchange (p : Nat)
  /-- A request to read host memory (24 R537). -/
  | hostRead (tag addr len : Nat)
  /-- A posted write to host memory. -/
  | hostWrite (addr : Nat) (data : List Byte) (ep : Bool)
  /-- A completion with data for a host read, with its EP bit (24 R540). -/
  | hostData (data : List Byte) (ep : Bool)
  /-- An Unsupported Request for a host read (24 R532). -/
  | hostUr
  /-- A successful completion, or the value, of a configuration request; none is Request Retry Status (27 R589). -/
  | config (fn : Nat) (value : Option Long)
  /-- What a monitor session shows (26 R569). -/
  | text (ss : Session) (bytes : List Byte)
  /-- The word of an SMBus Read Word, none where it is refused with NACK (27 R584). -/
  | smbus (word : Option Nat)
  /-- A re-keying request to a node, or its acknowledgement (18 R427). -/
  | rekey (node : Nat) (sc : Scope) (ack : Bool)
  /-- The data that a DRAM controller returns, with its poison (12 R267). -/
  | dramData (n : Nat) (data : List Byte) (poisoned : Bool)
  /-- A line that a DRAM controller writes, as the DRAM holds it: ciphertext (12 R265; 18 R418). -/
  | dramLine (n line : Nat) (cipher : List Byte)
deriving DecidableEq, Repr

--STATE
/-- The module. -/
structure State where
  /-- The commands waiting, first in, first out. -/
  pending : List Instr := []
  out : List Out := []
  /-- The model's own counter: which free value is taken next. -/
  free : Nat := 0
  flt : Flt := {}
  tor : TorS := {}
  pln : Plinth := {}
  pwr : Power := {}
  cpu : CoresS := {}
  sto : Storage := {}
  dram : Tab Dram := []
  arm : Fabric := {}
  ch : Chan := {}
  jnl : Jnl := {}
  dx : Duplex := {}
  offers : List Offer := []
  armLink : Tab Link := []
  chLink : Tab Link := []
  pf0 : HostFn := {}
  pf1 : HostFn := {}
  hp : HostPort := {}
  eng : Engines := {}
  tr : Trust := {}
  cs : CtlStore := {}
  mq : Maquette := {}
  pin : Pins := {}
  /-- The PF0 service store: bytes by service-window offset, and its poisoned lines (24 R534, R540). -/
  svc : Tab Byte := []
  svcPoison : Tab Bool := []
deriving DecidableEq, Repr

/-- Why a command stops with a fault. No command of this model does. -/
inductive Fault where
  /-- Raised by no command: the spec gives every command an effect. Safe. -/
  | none
deriving DecidableEq, Repr

/-- Why a command is refused. -/
inductive Refusal where
  /-- Raised by a dispatch arm whose command has no meaning yet. Safe: nothing is proved of it. -/
  | notModelled (mnemonic : String)
deriving DecidableEq, Repr

/-- The module right after a cold reset, before bring-up: phase FIRMWARE, no image, every table empty (25 R564). -/
def State.reset : State := {}

end Sys2Proof.Machine
end

