-- ==== Sys2Proof/Machine/Ops.lean ====
section
/-! DEFINITION. The operations that every block shares: free values, the fault log and Patina counters, machine checks, MSI-X
vectors, fault events and their reaction (08_program_state R185 to R188; 21_fault_collection R476 to R494; 24_host_port R539,
R544), and the partitions' view of cores and extents. -/

namespace Sys2Proof.Machine

/-! ### Free values -/

/-- Draw a free long. -/
def drawLong (s : State) : Long × State := (Config.freeLong s.free, { s with free := s.free + 1 })

/-- Draw a free choice. -/
def drawBit (s : State) : Bool × State := (Config.freeBit s.free, { s with free := s.free + 1 })

/-- Draw a free number below `n`, which is not 0. -/
def drawBelow (n : Nat) (s : State) : Nat × State :=
  ((Config.freeLong s.free).toNat % n, { s with free := s.free + 1 })

/-- Draw `n` free bytes. -/
def drawBytes (s : State) : Nat → List Byte × State
  | 0 => ([], s)
  | n + 1 =>
    let r := drawBytes { s with free := s.free + 1 } n
    (BitVec.ofNat 8 (Config.freeLong s.free).toNat :: r.1, r.2)

/-- Something leaves the module. -/
def emit (o : Out) (s : State) : State := { s with out := s.out ++ [o] }

/-- Outputs in order. -/
def emits (os : List Out) (s : State) : State := { s with out := s.out ++ os }

/-- One bit of CRC-16: polynomial 0x1021, not reflected (03 R61). -/
def crc16Bit (c : Half) (b : Bool) : Half := if c.msb != b then (c <<< 1) ^^^ 0x1021 else c <<< 1

/-- CRC-16 of bytes, initial value 0xFFFF and no final XOR (03 R61, 22 R500). -/
def crc16 (bs : List Byte) : Nat :=
  (bs.foldl (fun c b => [7, 6, 5, 4, 3, 2, 1, 0].foldl (fun c i => crc16Bit c (b.getLsbD i)) c) (0xFFFF : Half)).toNat

/-! ### Time of record -/

/-- TOR as the registers and stamps hold it, 64 bits (R55). -/
def torLong (s : State) : Long := BitVec.ofNat 64 s.tor.tor

/-- The quality code of TOR (03 R59). -/
def torQuality (s : State) : Nat :=
  match s.tor.state with
  | .locked => 3
  | .slewing => 2
  | .holdover => 1
  | .unreferenced => 0
  | .fabric => s.tor.masterQuality % 4

/-- Ticks in a microsecond, a millisecond and a second (R55). -/
def ticksUs : Nat := 4000
def ticksMs : Nat := 4000000
def ticksS : Nat := 4000000000

/-! ### Patina counters and the fault log -/

/-- Count an event in Patina counter `i`, saturating (R491). -/
def patina (i : Nat) (s : State) : State := { s with flt := { s.flt with live := tmod 0 i sat16 s.flt.live } }

/-- Write a fault-log entry (R494). -/
def logEntry (kind cls source part step detail : Nat) (s : State) : State :=
  let f := s.flt
  let e : LogEntry := { tor := s.tor.tor, kind := kind, qc := torQuality s + 4 * cls, source := source, part := part,
                        step := step, detail := detail, seq := f.nextSeq }
  { s with flt := { f with
      log := tset none (f.nextSeq % 8192) (some e) f.log
      nextSeq := (f.nextSeq + 1) % 2 ^ 64
      lost := if (tget none (f.nextSeq % 8192) f.log).isSome then min (f.lost + 1) 0xFFFF else f.lost } }

/-- The fault-source number of an event (R477). -/
def sourceNo (code src : Nat) : Nat := code * 2 ^ 24 + src

/-- A STATE record that another chapter requires (R494). -/
def logState (src detail : Nat) (s : State) : State := logEntry 5 0 src 0x3F 0 detail s

/-- A governor decision: counted and logged with its new value (01 R17, 25 R557). -/
def logGovernor (counter src detail : Nat) (s : State) : State := logEntry 4 0 src 0x3F 0 detail (patina counter s)

/-! ### MSI-X vectors -/

/-- Signal a vector of a function: a message where it may be sent, else its PBA bit (R539, R544). -/
def HostFn.signal (f : HostFn) (v : Nat) : HostFn × Bool :=
  if f.bme && f.msixEnable && !f.fnMask && tget false v f.vOpen then (f, true)
  else ({ f with pba := tset false v true f.pba }, false)

/-- Signal a vector of PF0. -/
def pf0Vector (v : Nat) (s : State) : State :=
  let r := s.pf0.signal v
  let s := { s with pf0 := r.1 }
  if r.2 then emit (.msix 0 v) s else s

/-- Signal a vector of PF1. -/
def pf1Vector (v : Nat) (s : State) : State :=
  let r := s.pf1.signal v
  let s := { s with pf1 := r.1 }
  if r.2 then emit (.msix 1 v) s else s

/-! ### Cores and partitions -/

/-- The state of a logical core. -/
def coreOf (l : Nat) (s : State) : Core := tget {} l s.cpu.core

/-- Write the state of a logical core. -/
def setCore (l : Nat) (c : Core) (s : State) : State := { s with cpu := { s.cpu with core := tset {} l c s.cpu.core } }

/-- Change the state of a logical core. -/
def modCore (l : Nat) (f : Core → Core) (s : State) : State := setCore l (f (coreOf l s)) s

/-- The slot that serves a logical core: R3 unless recast has moved it. -/
def slotOf (l : Nat) (s : State) : Nat := (tget none l s.cpu.slot).getD (17 * (l / 16) + l % 16)

/-- The definition of a partition, none where no section defines it (R42). -/
def partOf (p : Nat) (s : State) : Option PlnPart := tget none p s.pln.parts

/-- The state of a partition (R42). -/
def pstateOf (p : Nat) (s : State) : PState := tget .undefined p s.pln.pstate

/-- Set the state of a partition. -/
def setPState (p : Nat) (v : PState) (s : State) : State :=
  { s with pln := { s.pln with pstate := tset .undefined p v s.pln.pstate } }

/-- A Plinth image is in force, so that its partitions are applied (00_scope R10; 02 R40, R52): `APPLIED`, or an image command that goes back
to it. Until then a field whose reset value is Plinth reads 0. -/
def imageInForce (s : State) : Bool := s.pln.state == .applied || s.pln.job.any (fun j => j.back == .applied)

/-- The definition of a partition as the registers show it. -/
def shownPart (p : Nat) (s : State) : Option PlnPart := if imageInForce s then partOf p s else none

/-- The partitions that are defined, by rising ID. -/
def partIds (s : State) : List Nat := s.pln.parts.map (·.1)

/-- The partition that owns a logical core (R30). -/
def partOfCore (l : Nat) (s : State) : Option Nat :=
  (partIds s).find? (fun p => match partOf p s with | some d => d.coreMap.testBit l | none => false)

/-- The logical cores of a partition, rising. -/
def coresOf (p : Nat) (s : State) : List Nat :=
  match partOf p s with
  | none => []
  | some d => (List.range 192).filter (fun l => d.coreMap.testBit l)

/-- A core counts as running while its partition is RUNNING and it is RUNNING, WAITING or GATED (R188). -/
def isRunningCore (l : Nat) (s : State) : Bool :=
  (match partOfCore l s with
   | some p => pstateOf p s == .running
   | none => false) &&
  (match (coreOf l s).run with
   | .running => true
   | .waiting _ => true
   | .gated _ => true
   | _ => false)

/-- The lowest running core of a partition (R188). -/
def lowestRunning (p : Nat) (s : State) : Option Nat := (coresOf p s).find? (fun l => isRunningCore l s)

/-- The partitions that are RUNNING. -/
def runningParts (s : State) : List Nat := (partIds s).filter (fun p => pstateOf p s == .running)

/-! ### Machine checks (R185, R187, R188) -/

/-- Add a repressible check to a pending list: one of each code, merged into the pending one (R185). -/
def mergeMc (m : McPend) : List McPend → List McPend
  | [] => [m]
  | x :: t => if x.code = m.code then { m with merged := true } :: t else x :: mergeMc m t

/-- Make a repressible check pending on a core. -/
def mcOnCore (l : Nat) (m : McPend) (s : State) : State := modCore l (fun c => { c with mcs := mergeMc m c.mcs }) s

/-- A repressible check goes to the lowest running core of a partition, or is held for a RUNNING partition that has none (R188). -/
def mcGive (p : Nat) (m : McPend) (s : State) : State :=
  match lowestRunning p s with
  | some l => mcOnCore l m s
  | none => { s with cpu := { s.cpu with heldMc := tmod [] p (mergeMc m) s.cpu.heldMc } }

/-- A repressible check of a partition (R188). -/
def mcOnPart (p code addr source : Nat) (s : State) : State :=
  if pstateOf p s != .running then s
  else mcGive p { code := code, addr := addr, source := source, tor := s.tor.tor, merged := false, valid := 0 } s

/-- A core of a RUNNING partition becomes running: the first to do so takes the checks that are held for the partition (R188). -/
def deliverHeld (l : Nat) (s : State) : State :=
  match partOfCore l s with
  | none => s
  | some p =>
    if isRunningCore l s then
      (tget [] p s.cpu.heldMc).foldl (fun s m => mcOnCore l m s) { s with cpu := { s.cpu with heldMc := tset [] p [] s.cpu.heldMc } }
    else s

/-- A governor notice of a kind (1 to 4) on a core (R185, R186). -/
def noticeOnCore (kind l : Nat) (s : State) : State := modCore l (fun c => { c with notices := c.notices ||| 2 ^ (kind - 1) }) s

/-- A governor notice on every core of a partition. -/
def noticeOnPart (kind p : Nat) (s : State) : State := (coresOf p s).foldl (fun s l => noticeOnCore kind l s) s

/-! ### Fault events (R478 to R487) -/

/-- The class of an event code (R478): 0 CE, 1 UE-contained, 2 UE-partition, 3 UE-module. -/
def eventClass (code : Nat) : Nat :=
  match code with
  | 0x03 => 1 | 0x04 => 1 | 0x05 => 1 | 0x06 => 1 | 0x0E => 1
  | 0x07 => 2 | 0x0B => 2
  | 0x10 => 3
  | _ => 0

/-- The source indices of the table of R476. -/
def isSource (i : Nat) : Bool :=
  decide (i ≤ 0xCB) || decide (0xD0 ≤ i ∧ i ≤ 0xDB) || decide (0xE0 ≤ i ∧ i ≤ 0x117) || decide (0x118 ≤ i ∧ i ≤ 0x123) ||
  decide (0x128 ≤ i ∧ i ≤ 0x197)

/-- Status of a source. -/
def fltStatus (i : Nat) (s : State) : FltStatus := tget {} i s.flt.status

/-- Write the status of a source. -/
def setFlt (i : Nat) (v : FltStatus) (s : State) : State := { s with flt := { s.flt with status := tset {} i v s.flt.status } }

/-- The reset value of `FLT_REACTi` (R495). -/
def reactReset : Long := 0xE00F424000000000

/-- The reaction entry of a source. -/
def reactOf (i : Nat) (s : State) : Long := tget reactReset i s.flt.react

/-- The effective first and last steps of the chain for a class (R486); last 0 is an empty chain. -/
def chainOf (react : Long) (cls : Nat) : Nat × Nat :=
  let last := max (fld react 57 56) (if cls = 2 then 2 else 0)
  let first := fld react 59 58
  (if first = 0 then last else min first last, last)

/-- The steps of a chain above the step last taken (R486). -/
def stepsAfter (chain : Nat × Nat) (taken : Nat) : List Nat :=
  [1, 2, 3].filter (fun k => decide (chain.1 ≤ k) && decide (k ≤ chain.2) && decide (taken < k))

/-- Put escalation steps on the list of those due in this command: of the chain of source `src`, or, where `src` is a
fault-source number with its event code, outside any chain (R489; 08 R188). -/
def makeDue (src part : Nat) (ks : List Nat) (s : State) : State :=
  { s with flt := { s.flt with due := s.flt.due ++ ks.map (fun k => { src := src, step := k, part := part }) } }

/-- ERR_N is pulsed: low until 1 ms after this action (R490). -/
def pulseErrN (s : State) : State := { s with flt := { s.flt with pulseEnd := some (s.tor.tor + ticksMs) } }

/-- Start the grace timer for the pending class where the chain is not empty (R485, R486): with `GRACE_US` 0 every step is
due at once. -/
def startGrace (i : Nat) (s : State) : State :=
  let st := fltStatus i s
  let r := reactOf i s
  let ch := chainOf r st.cls
  if ch.2 = 0 then s
  else if fld r 55 32 = 0 then makeDue i st.part (stepsAfter ch st.step) s
  else setFlt i { st with timer := some s.tor.tor } s

/-- The real address at which a partition sees an Armature address, 0 where none of its extents holds it (08 R188; 09 R192, R205). -/
def realOfArm (p a : Nat) (s : State) : Nat :=
  match partOf p s with
  | none => 0
  | some d => match d.extents.find? (fun e => decide (e.phys ≤ a) && decide (a < e.phys + e.size)) with
    | some e => e.real + (a - e.phys)
    | none => 0

/-- `MC_ADDR` of a fault notice: the failing real address of the partition, or 0 (08 R188; 09 R205). The detail of an event of
poisoned data is a real address, that of an access an Armature address, that of a controller of this module a physical one. -/
def noticeAddr (src code p detail : Nat) (s : State) : Nat :=
  if code = 4 then detail
  else if code = 1 ∨ code = 3 ∨ code = 7 ∨ code = 0xB then
    realOfArm p (if 0x100 ≤ src ∧ src < 0x110 then s.arm.node.getD 0 * 2 ^ 52 + detail % 2 ^ 52 else detail) s
  else 0

/-- The `SC` and `MC` actions of a source's reaction entry (R485). -/
def reactNotify (src code : Nat) (part : Option Nat) (detail : Nat) (s : State) : State :=
  let s := if lbit (reactOf src s) 62 then pf0Vector 0 (emit (.scNotice src) s) else s
  if lbit (reactOf src s) 61 then
    match part with
    | some p => mcOnPart p 2 (noticeAddr src code p detail s) (sourceNo code src) s
    | none => s
  else s

/-- An event of a source that is not pending: recorded, and the module acts on the reaction entry (R483, R485). -/
def firstEvent (cls src code : Nat) (part : Option Nat) (detail : Nat) (holds : Bool) (s : State) : State :=
  let st := fltStatus src s
  let st' : FltStatus := { st with pending := true, cls := cls, event := code, part := part.getD 0x3F, holds := holds,
                                   step := if st.fenced then st.step else 0 }
  startGrace src (reactNotify src code part detail (setFlt src st' s))

/-- An event of a source that is pending: the more severe class is kept, and a raised class may start the grace timer (R483, R485). -/
def laterEvent (cls src code : Nat) (part : Option Nat) (holds : Bool) (s : State) : State :=
  let st := fltStatus src s
  let worse : Bool := decide (st.cls < cls)
  let st' : FltStatus :=
    if worse then { st with overflow := true, cls := cls, event := code, part := part.getD 0x3F, holds := holds }
    else { st with overflow := true, holds := if code = st.event then holds else st.holds }
  let s := setFlt src st' s
  if worse && st.timer.isNone then startGrace src s else s

/-- An event of a stated class reaches the collector (R483, R485, R486, R489): counted, logged, recorded in the source's
status, and the module acts on the source's reaction entry. -/
def raiseClass (cls src code : Nat) (part : Option Nat) (detail : Nat) (holds : Bool) (s : State) : State :=
  let st := fltStatus src s
  let r := reactOf src s
  let pt := part.getD 0x3F
  let s := patina src s
  let s := if lbit r 63 || !st.pending then logEntry 1 cls (sourceNo code src) pt 0 detail s else s
  let s := if st.pending then laterEvent cls src code part holds s else firstEvent cls src code part detail holds s
  let s := if lbit r 60 then pulseErrN s else s
  if cls = 3 then makeDue (sourceNo code src) pt [3] s else s

/-- An event of the class that R478 gives its code. -/
def raise (src code : Nat) (part : Option Nat) (detail : Nat) (s : State) : State :=
  raiseClass (eventClass code) src code part detail false s

/-- The fault sources of the blocks (R476). -/
def srcSlot (n : Nat) : Nat := n
def srcStore (c : Nat) : Nat := 0xD0 + c
def srcSlice (n : Nat) : Nat := 0xE0 + n
def srcDram (n : Nat) : Nat := 0x100 + n
def srcPort : PortId → Nat
  | .arm p => 0x110 + p
  | .ch n => 0x118 + n
def srcCp (k : Nat) : Nat := 0x128 + k
def srcRasp (k : Nat) : Nat := 0x148 + k
def srcInt (k : Nat) : Nat := 0x150 + k
def srcHost : Nat := 0x158
def srcSc : Nat := 0x159
def srcTor : Nat := 0x15A
def srcJnl (i : Nat) : Nat := if i < 131072 then 0x15B else 0x15C
def srcEntropy (south : Bool) : Nat := if south then 0x15E else 0x15D
def srcSupply : Nat := 0x15F
def srcThermal : Nat := 0x160
def srcDie (d : Nat) : Nat := 0x161 + d
def srcDuplex : Nat := 0x167
def srcPart (p : Nat) : Nat := 0x168 + p

/-- An event that belongs to a partition and to no resource (R476), or to none and then to the service core. -/
def raisePart (code : Nat) (part : Option Nat) (detail : Nat) (s : State) : State :=
  raise (match part with | some p => srcPart p | none => srcSc) code part detail s

/-! ### Extents (09 R192) -/

/-- The extent of a partition that holds a real address. -/
def extentOf (p real : Nat) (s : State) : Option Extent :=
  match partOf p s with
  | none => none
  | some d => d.extents.find? (fun e => decide (e.real ≤ real) && decide (real < e.real + e.size))

/-- The Armature address of a partition real address (R192). -/
def armOf (p real : Nat) (s : State) : Option Nat :=
  match extentOf p real s with
  | none => none
  | some e => some (e.phys + (real - e.real))

/-- The storage attribute of an extent: 0 WB, 1 WT, 2 WC, 3 UC (R31). -/
def extAttr (e : Extent) : Nat := e.attr % 4

/-! ### Gates -/

/-- Power is on outside the keep-alive domain. -/
def powered (s : State) : Bool := s.pwr.on

/-- The module's blocks run: powered and not checkstopped (21 R489). -/
def operating (s : State) : Bool := s.pwr.on && !s.flt.checkstop && !s.tr.scanHeld

end Sys2Proof.Machine
end

