-- ==== Sys2Proof/Machine/OpsLink.lean ====
section
/-! DEFINITION. The link layer's shared operations: flits and their CRC, sealing, sending against credit with a replay buffer,
and the entry to RECOVERY and DOWN (13_serial_links R286 to R299). -/

namespace Sys2Proof.Machine

/-- State of a port. -/
def linkOf (p : PortId) (s : State) : Link :=
  match p with
  | .arm k => tget {} k s.armLink
  | .ch k => tget {} k s.chLink

/-- Write the state of a port. -/
def setLink (p : PortId) (l : Link) (s : State) : State :=
  match p with
  | .arm k => { s with armLink := tset {} k l s.armLink }
  | .ch k => { s with chLink := tset {} k l s.chLink }

/-- Change the state of a port. -/
def modLink (p : PortId) (f : Link → Link) (s : State) : State := setLink p (f (linkOf p s)) s

/-- The port exists (R284). -/
def portExists : PortId → Bool
  | .arm k => decide (k < 8)
  | .ch k => decide (k < 12)

/-- Lanes of a port (R284). -/
def portLanes : PortId → Nat
  | .arm _ => 8
  | .ch _ => 4

/-- A port is ACTIVE (R294). -/
def portActive (p : PortId) (s : State) : Bool := (linkOf p s).state == 6

/-- One bit of the CRC-64 register (R287). -/
def crc64Bit (c : Long) (b : Bool) : Long :=
  let t := c <<< 1
  if c.msb != b then t ^^^ 0x42F0E1EBA9EA3693 else t

/-- One byte, most significant bit first. -/
def crc64Byte (c : Long) (b : Byte) : Long :=
  [7, 6, 5, 4, 3, 2, 1, 0].foldl (fun c i => crc64Bit c (b.getLsbD i)) c

/-- The CRC-64 of bytes (R287). -/
def crc64 (bs : List Byte) : Long := ~~~(bs.foldl crc64Byte 0xFFFFFFFFFFFFFFFF)

/-- A flit header (R286). -/
def flitHeader (ftype vc seq ack : Nat) (nak enc : Bool) (phase crVc crCount len : Nat) (som eom : Bool) : Long :=
  pack [(63, 60, ftype), (59, 58, vc), (57, 46, seq), (45, 34, ack), (33, 33, b2n nak), (32, 32, b2n enc),
        (31, 30, if enc then phase else 0), (29, 28, crVc), (27, 22, crCount), (21, 14, len), (13, 13, b2n som), (12, 12, b2n eom)]

/-- A whole flit: header, payload padded to 240 bytes, CRC (R286, R287). -/
def mkFlit (header : Long) (payload : List Byte) : List Byte :=
  let body := beBytes 8 header.toNat ++ fixLen 0 240 payload
  body ++ beBytes 8 (crc64 body).toNat

/-! ### The codeword (R288) -/

/-- Multiplication by the root α in GF(2^8). -/
def gfTimesA (b : Byte) : Byte := if b.msb then (b <<< 1) ^^^ 0x1D else b <<< 1

/-- A product in GF(2^8). -/
def gfMul (a b : Byte) : Byte :=
  [7, 6, 5, 4, 3, 2, 1, 0].foldl (fun c i => let d := gfTimesA c; if b.getLsbD i then d ^^^ a else d) 0

/-- Two polynomials of one length added. -/
def polyAdd (p q : List Byte) : List Byte := (p.zip q).map (fun e => e.1 ^^^ e.2)

/-- The generator polynomial: the product of x − α^i for i = 0 to 15, highest coefficient first. -/
def rsGen : List Byte :=
  ((List.range 16).foldl (fun (r : List Byte × Byte) _ => (polyAdd (r.1 ++ [0]) (0 :: r.1.map (gfMul r.2)), gfTimesA r.2)) ([1], 1)).1

/-- One step of the division by the generator polynomial. -/
def rsStep (r : List Byte) (b : Byte) : List Byte := polyAdd (r.drop 1 ++ [0]) (rsGen.drop 1 |>.map (gfMul (b ^^^ r.headD 0)))

/-- The 16 parity symbols of a flit. -/
def rsParity (f : List Byte) : List Byte := f.foldl rsStep (List.replicate 16 0)

/-- The codeword of a flit. -/
def codeword (f : List Byte) : List Byte := f ++ rsParity f

/-- Flit slots between the alignment slots of a transmitter (R289). -/
def slotsBetween : Nat := 16384

/-- The lanes of the group in use. -/
def activeLanes (l : Link) : List Nat := (List.range (2 ^ l.width)).map (· + l.group * 2 ^ l.width)

/-- Ticks that so many flit slots take (R285): 2,176 bits each, 28 in a tick on each lane. IDLE flits fill the slots in which nothing else
goes (log entry 81). -/
def alignTicks (l : Link) : Nat := cdiv (slotsBetween * 2176) (28 * 2 ^ l.width)

/-- The bytes of an alignment slot on lane i, `n` of them: its number and the pattern, repeated (R289). -/
def laneBytes (i n : Nat) : List Byte :=
  let b := BitVec.ofNat 8 i :: Config.alignPattern
  (List.range n).map (fun k => b.getD (k % b.length) 0)

/-- This end's alignment slot leaves, where so many slots have passed since its last (R289): 2,176 bits over the active lanes. -/
def sendAlign (p : PortId) (s : State) : State :=
  let l := linkOf p s
  if s.tor.tor < l.alignTor + alignTicks l then s
  else emit (.alignment p ((activeLanes l).map (fun i => (i, laneBytes i (272 / 2 ^ l.width))))) (setLink p { l with alignTor := s.tor.tor } s)

/-- A flit leaves (R288), behind an alignment slot that is due. -/
def putFlit (p : PortId) (f : List Byte) (s : State) : State := emit (.flit p (codeword f)) (sendAlign p s)

/-- The ACK that the port's receiver now reports: the last SEQ accepted in order (R286). -/
def linkAck (l : Link) : Nat := (l.expect + 4095) % 4096

/-- The credit to return next: a VC and a count of at most 63 (R286, R293). -/
def creditReturn (l : Link) : Nat × Nat :=
  match l.returns with
  | [] => (0, 0)
  | (vc, n) :: _ => (vc, min n 63)

/-- A direction as both ends number it: 1 from the initiator, 2 to it (R298, R299). -/
def linkDir (l : Link) (tx : Bool) : Byte := if tx == l.initiator then 1 else 2

/-- The key of a direction and rotation of a port (R299; 14 R310). The labels, which the spec does not give, are a purpose and a direction
(log entry 82). -/
def linkKey (l : Link) (tx : Bool) (rotation : Nat) : List Byte := kdf l.secret ([3, linkDir l tx] ++ beBytes 4 rotation) l.context 256

/-- The salt of a direction (R298; 14 R310). -/
def linkSalt (l : Link) (tx : Bool) : List Byte := kdf l.secret [2, linkDir l tx] l.context 32

/-- Send an IDLE flit, which carries ACK, NAK and returned credit (R286, R290, R291). -/
def sendIdle (p : PortId) (nak : Bool) (s : State) : State :=
  let l := linkOf p s
  let cr := creditReturn l
  let h := flitHeader 0 0 0 (linkAck l) nak false 0 cr.1 cr.2 0 false false
  let l := { l with returns := tmod 0 cr.1 (· - cr.2) l.returns }
  putFlit p (mkFlit h []) (setLink p l s)

/-- A LINK flit with a payload (R286): like every flit it carries the current ACK (R290). -/
def linkFlit (p : PortId) (payload : List Byte) (s : State) : State :=
  putFlit p (mkFlit (flitHeader 2 0 0 (linkAck (linkOf p s)) false false 0 0 0 0 false false) payload) s

/-- The receive buffers of a port, in flits, by VC (R293). -/
def rxBuffers : PortId → List Nat
  | .arm _ => [64, 256, 256, 32]
  | .ch _ => [64, 384]

/-- Send one new DATA flit: seal it where the link is encrypted, keep it for replay, spend a credit (R290, R293, R298). -/
def sendData (p : PortId) (vc : Nat) (data : List Byte) (som eom enc : Bool) (via : Option Nat) (s : State) : State :=
  let l := linkOf p s
  let cr := creditReturn l
  let h := flitHeader 1 vc l.nextSeq (linkAck l) false enc l.keyPhase cr.1 cr.2 data.length som eom
  let payload :=
    if enc then
      fixLen 0 240 (gcmSeal (linkKey l true l.rotation) (linkSalt l true ++ beBytes 8 l.ivTx) (beBytes 8 h.toNat) (fixLen 0 224 data))
    else data
  let f := mkFlit h payload
  let l := { l with
    replay := l.replay ++ [{ seq := l.nextSeq, bytes := f, vc := vc, replays := 0, data := data, som := som, eom := eom, via := via }]
    nextSeq := (l.nextSeq + 1) % 4096
    ivTx := if enc then l.ivTx + 1 else l.ivTx
    credits := tmod 0 vc (· - 1) l.credits
    ackTor := if l.replay.isEmpty then s.tor.tor else l.ackTor
    returns := tmod 0 cr.1 (· - cr.2) l.returns }
  putFlit p f (setLink p l s)

/-- A port may carry this VC in its state: every VC in ACTIVE, and in KEY MGT (Armature) or CTL (channel) in clear (R294). -/
def vcOpen (p : PortId) (vc : Nat) (l : Link) : Bool :=
  l.state == 6 || (l.state == 5 && (match p with | .arm _ => vc == 3 | .ch _ => vc == 0))

/-- A DATA flit of this VC is sealed (R297): all but MGT on an Armature port; on a channel port unless the link is clear. -/
def vcEnc (p : PortId) (vc : Nat) (l : Link) : Bool :=
  l.state != 5 && (match p with | .arm _ => vc != 3 | .ch _ => !l.clear)

/-- A waiting message may send its next flit: its VC is open and holds credit, and fewer than 1,024 flits are unacknowledged
(R290, R293, R294). -/
def txReady (p : PortId) (l : Link) (m : TxMsg) : Bool :=
  vcOpen p m.vc l && decide (0 < tget 0 m.vc l.credits) && decide (l.replay.length < 1024)

/-- The waiting message to serve: JNL first on an Armature port, the other VCs round robin (R293). -/
def txPick (p : PortId) (l : Link) : Option Nat :=
  let firstOf (vc : Nat) : Option Nat :=
    match l.txq.findIdx? (fun m => m.vc == vc) with
    | none => none
    | some i => if (l.txq[i]?.map (txReady p l)).getD false then some i else none
  let order := match p with
    | .arm _ => 0 :: (List.range 3).map (fun k => 1 + (l.nextVc + k) % 3)
    | .ch _ => (List.range 2).map (fun k => (l.nextVc + k) % 2)
  order.findSome? firstOf

/-- Send one flit of a waiting message, where one may go (R290, R293). -/
def txOne (p : PortId) (s : State) : State :=
  let l := linkOf p s
  match txPick p l with
  | none => s
  | some i =>
    match l.txq[i]? with
    | none => s
    | some m =>
      let enc := vcEnc p m.vc l
      let n := if enc then 224 else 240
      let eom := decide (m.bytes.length ≤ n)
      let rest : List TxMsg := if eom then l.txq.eraseIdx i else l.txq.set i { m with bytes := m.bytes.drop n, first := false }
      let l := { l with txq := rest, nextVc := (match p with | .arm _ => if m.vc = 0 then l.nextVc else m.vc % 3 | .ch _ => (m.vc + 1) % 2) }
      sendData p m.vc (m.bytes.take n) m.first eom enc m.via (setLink p l s)

/-- Send what may be sent: at most `n` flits. -/
def txDrain (p : PortId) : Nat → State → State
  | 0, s => s
  | n + 1, s => if (txPick p (linkOf p s)).isNone then s else txDrain p n (txOne p s)

/-- Hand a message to a port for a VC (R286); `via` is the port by which it came, where this node forwards it. -/
def linkSendVia (p : PortId) (vc : Nat) (bytes : List Byte) (via : Option Nat) (s : State) : State :=
  let s := modLink p (fun l => { l with txq := l.txq ++ [{ vc := vc, bytes := bytes, first := true, via := via }] }) s
  txDrain p (bytes.length / 224 + 1) s

/-- Hand a message of this node to a port for a VC. -/
def linkSend (p : PortId) (vc : Nat) (bytes : List Byte) (s : State) : State := linkSendVia p vc bytes none s

/-- The event of a port: RECOVERY, DOWN, change of width or tag failure (R294, R296; 21 R478 code 0x08). -/
def portEvent (p : PortId) (detail : Nat) (s : State) : State := raise (srcPort p) 0x08 none detail s

/-- Count within a register field of `w` bits, saturating (R300). -/
def satAdd (w n k : Nat) : Nat := min (n + k) (2 ^ w - 1)

/-- The link part of an entry to DOWN: transmitters idle, replay buffer and keys discarded, the uncertain flits reported
(R292, R294, R299). -/
def linkDownOnly (p : PortId) (s : State) : State :=
  let l := linkOf p s
  let seqs := l.replay.map (·.seq)
  let l' : Link := { l with
    state := 8, since := s.tor.tor, width := 0, group := 0, encOn := false, keyPhase := 0, replay := [], txq := [], secret := [], context := [], replayUntil := 0,
    rotation := 0, rotMark := 0, rxPhase := 0, rxRotation := 0, oldPhaseUntil := none, ivTx := 0, ivRx := 0, ivOld := 0, nakSince := none, uncorrRun := 0,
    widthPending := false, widthAgreed := false, nextSeq := 0, expect := 0, credits := [], returns := [], rx := [], tagRun := 0,
    clear := false, initiator := false, peerGood := 0, downs := satAdd 16 l.downs 1 }
  portEvent p 8 (emit (.uncertain p seqs) (setLink p l' s))

end Sys2Proof.Machine
end

