-- ==== Sys2Proof/Machine/OpsFabric.lean ====
section
/-! DEFINITION. The Armature's shared operations: messages, up*/down* routes, and requests to remote homes
(14_armature R301 to R308, R316 to R318). -/

namespace Sys2Proof.Machine

/-- The node that an Armature address names (R302). -/
def nodeOfAddr (a : Nat) : Nat := bits a 57 52

/-- The module physical address of an Armature address (R302). -/
def physOfAddr (a : Nat) : Nat := a % 2 ^ 52

/-- An Armature address whose home is this module (R302). Before a node ID is known the module uses node 0. -/
def isLocal (a : Nat) (s : State) : Bool := nodeOfAddr a == s.arm.node.getD 0

/-- The Armature address of a module physical address of this module. -/
def ownAddr (pa : Nat) (s : State) : Nat := s.arm.node.getD 0 * 2 ^ 52 + pa

/-- The bytes of a message: header and body (R303). -/
def msgBytes (m : Msg) : List Byte :=
  beBytes 8 (pack [(63, 58, m.dest), (57, 52, m.src), (51, 48, m.kind), (47, 32, m.tag), (31, 31, b2n m.epoch),
                   (30, 30, b2n m.resent), (29, 16, m.body.length)]).toNat ++
  beBytes 8 m.addr ++ m.body

/-- A LINK_MGT message, which travels one hop (R304). -/
def mgtMsg (body : List Byte) : Msg :=
  { via := 0, vc := 3, dest := 0, src := 0, kind := 0xE, tag := 0, epoch := false, resent := false, addr := 0, body := body }

/-- A LINK_MGT message leaves on a port: MGT on the Armature, CTL towards an adapter (R304; 13 R294). Its first byte says what it is: 1 to
5 the steps of R309, 6 an advertisement, 7 an epoch, 8 a time exchange (the model's own layout, log entry 81). -/
def mgtSend (p : PortId) (what : Nat) (body : List Byte) (s : State) : State :=
  linkSend p (match p with | .arm _ => 3 | .ch _ => 0) (msgBytes (mgtMsg (BitVec.ofNat 8 what :: body))) s

/-- The VC that carries a kind, none for a reserved kind (R304). -/
def kindVc (k : Nat) : Option Nat :=
  if k ≤ 1 then some 0 else if k ≤ 6 then some 1 else if k ≤ 9 then some 2 else if k = 0xE then some 3 else none

/-- A hop of the fabric: from node, to node, port of the first. -/
structure Hop where
  src : Nat
  dst : Nat
  port : Nat
deriving DecidableEq, Repr

/-- The ACTIVE links that the advertisements of the database name, between members (R306, R313). -/
def hopsOf (db : Tab (Option Member)) : List Hop :=
  db.flatMap (fun e => match e.2 with
    | none => []
    | some m => ((List.range m.adv.ports.length).zip m.adv.ports).filterMap (fun q =>
        if q.2.active && (tget none q.2.node db).isSome then some { src := e.1, dst := q.2.node, port := q.1 } else none))

/-- The lowest member node ID (R306). -/
def rootOf (db : Tab (Option Member)) : Nat := (db.map (·.1)).foldl min 63

/-- One round of relaxing distances to a target over hops; `none` is out of reach. -/
def relax (hops : List Hop) (d : Tab (Option Nat)) : Tab (Option Nat) :=
  hops.foldl (fun d h =>
    match tget none h.dst d with
    | none => d
    | some k => match tget none h.src d with
      | none => tset none h.src (some (k + 1)) d
      | some j => if k + 1 < j then tset none h.src (some (k + 1)) d else d) d

/-- Distances to a target over hops, in at most `n` rounds. -/
def distTo (hops : List Hop) : Nat → Tab (Option Nat) → Tab (Option Nat)
  | 0, d => d
  | n + 1, d => distTo hops n (relax hops d)

/-- Level of a node: its distance from the root over ACTIVE links (R306). -/
def levelsOf (hops : List Hop) (root : Nat) : Tab (Option Nat) := distTo hops 64 (tset none root (some 0) [])

/-- A hop is up (R306). -/
def hopUp (lv : Tab (Option Nat)) (x y : Nat) : Bool :=
  let lx := (tget none x lv).getD 64
  let ly := (tget none y lv).getD 64
  decide (ly < lx) || (lx == ly && decide (y < x))

/-- A legal route seen as a walk over (node, phase): keys 2n with up hops still allowed, 2n + 1 with down hops only. -/
def phaseHops (hops : List Hop) (lv : Tab (Option Nat)) : List Hop :=
  hops.flatMap (fun h =>
    if hopUp lv h.src h.dst then [{ h with src := 2 * h.src, dst := 2 * h.dst }]
    else [{ h with src := 2 * h.src, dst := 2 * h.dst + 1 }, { h with src := 2 * h.src + 1, dst := 2 * h.dst + 1 }])

/-- The least (distance, port) of a list, ties to the lowest port (R307). -/
def bestPort : List (Nat × Nat) → Option (Nat × Nat)
  | [] => none
  | x :: t => match bestPort t with
    | none => some x
    | some y => if x.1 < y.1 ∨ (x.1 = y.1 ∧ x.2 ≤ y.2) then some x else some y

/-- The route entry of node `me` for a destination, computed from the database (R307). -/
def routeFor (db : Tab (Option Member)) (me dest : Nat) : Route :=
  let hops := hopsOf db
  let lv := levelsOf hops (rootOf db)
  let ph := phaseHops hops lv
  let d := distTo ph 64 (tset none (2 * dest) (some 0) (tset none (2 * dest + 1) (some 0) []))
  let from_ (phase : Nat) : List (Nat × Nat) := ph.filterMap (fun h =>
    if h.src = 2 * me + phase then (tget none h.dst d).map (fun k => (k + 1, h.port)) else none)
  let p := bestPort (from_ 0)
  let a := bestPort ((from_ 0).filter (fun x => some x.2 != p.map (·.2)))
  let q := bestPort (from_ 1)
  let b := bestPort ((from_ 1).filter (fun x => some x.2 != q.map (·.2)))
  { primary := p.map (·.2), alt := a.map (·.2), desc := q.map (·.2), descAlt := b.map (·.2), hops := (p.map (·.1)).getD 0 }

/-- The hops of the shortest legal route to a destination that a named port begins (R308, R326), none where it begins none. -/
def portHops (db : Tab (Option Member)) (me dest port : Nat) : Option Nat :=
  let hops := hopsOf db
  let lv := levelsOf hops (rootOf db)
  let ph := phaseHops hops lv
  let d := distTo ph 64 (tset none (2 * dest) (some 0) (tset none (2 * dest + 1) (some 0) []))
  (bestPort (ph.filterMap (fun h => if h.src = 2 * me ∧ h.port = port then (tget none h.dst d).map (fun k => (k + 1, port)) else none))).map (·.1)

/-- The port for a message under a table: PRIMARY or ALT, or after a down hop DESC or DESC_ALT, by which is ACTIVE (R307). -/
def pickPort (r : Route) (down : Bool) (s : State) : Option Nat :=
  let first := if down then r.desc else r.primary
  let second := if down then r.descAlt else r.alt
  match first with
  | some p => if portActive (.arm p) s then some p else second.filter (fun q => portActive (.arm q) s)
  | none => second.filter (fun q => portActive (.arm q) s)

/-- The epoch whose bit 0 a message carries (R316): the one in force; else the one before it, which is kept for 1 ms; else the one that is
announced, whose sender has switched before this module. -/
inductive EpochOf where
  | now
  | before
  | next
  | older
deriving DecidableEq, Repr

/-- The last 200 ns before a switch, by which the TORs of two disciplined modules may differ (03 R58). -/
def switchNear : Nat := 800

/-- Which it is. In the last moments before a switch the bit means the announced epoch, though the one before is kept still (DESIGN CHOICE,
log entry 105). -/
def epochOf (bit : Bool) (s : State) : EpochOf :=
  if decide (s.arm.epoch % 2 = 1) = bit then .now
  else
    let kept : Bool := decide (s.tor.tor < s.arm.prevUntil)
    match s.arm.next with
    | some n => if !kept || decide (n.tor ≤ s.tor.tor + switchNear) then .next else .before
    | none => if kept then .before else .older

/-- The table for a message (R315, R316), none where its epoch is older than those kept. -/
def tableFor (bit : Bool) (s : State) : Option (Tab Route) :=
  match epochOf bit s with
  | .now => some s.arm.routes
  | .before => some s.arm.prev
  | .next => some s.arm.shadow
  | .older => none

/-- A message that came by port `via` came by a down hop (R306, R307), by the labels of the epoch under which it was sent. -/
def cameDown (m : Msg) (via : Nat) (s : State) : Bool :=
  let lv := match epochOf m.epoch s with
    | .now => s.arm.labels
    | .next => s.arm.shadowLabels
    | .before => s.arm.prevLabels
    | .older => s.arm.prevLabels
  !hopUp lv (tget {} via s.arm.peers).node (s.arm.node.getD 0)

/-- Put a message on its way, which came by port `via` or starts here; without a route or epoch it is discarded and counted in 0x29A
(R307, R316). -/
def forwardMsg (m : Msg) (via : Option Nat) (s : State) : State :=
  match tableFor m.epoch s with
  | none => patina 0x29A s
  | some t => match pickPort (tget {} m.dest t) (via.any (fun q => cameDown m q s)) s with
    | none => patina 0x29A s
    | some p =>
      let vc := (kindVc m.kind).getD 3
      linkSendVia (.arm p) vc (msgBytes m) via (emit (.msg p { m with via := 0, vc := vc }) s)

/-- A message from this node under the epoch in force (R303). -/
def sendMsg (dest kind tag addr : Nat) (body : List Byte) (s : State) : State :=
  forwardMsg { via := 0, vc := (kindVc kind).getD 3, dest := dest, src := s.arm.node.getD 0, kind := kind, tag := tag,
               epoch := decide (s.arm.epoch % 2 = 1), resent := false, addr := addr, body := body } none s

/-- A tag is that of a REQ or a MIRROR without a response. -/
def tagUsed (t : Nat) (s : State) : Bool := s.arm.reqs.any (fun r => r.msg.tag == t) || s.jnl.out.any (fun x => x.tag == t)

/-- The next transaction tag that is not outstanding. -/
def freshTag (s : State) : Nat :=
  ((findBelow (s.arm.reqs.length + s.jnl.out.length + 1) (fun k => !tagUsed ((s.arm.nextTag + k) % 65536) s)).getD 0 + s.arm.nextTag) % 65536

/-- Send a REQ of an agent and keep it until its response arrives (R317; 10 R231). Its tag is `freshTag s`. -/
def sendReq (kind addr : Nat) (body : List Byte) (who : Agent) (part : Option Nat) (s : State) : State :=
  let m : Msg := { via := 0, vc := (kindVc kind).getD 1, dest := nodeOfAddr addr, src := s.arm.node.getD 0, kind := kind, tag := freshTag s,
                   epoch := decide (s.arm.epoch % 2 = 1), resent := false, addr := addr, body := body }
  let r : OutReq := { msg := m, first := s.tor.tor, last := s.tor.tor, sends := 1, who := who, part := part }
  let s := { s with arm := { s.arm with nextTag := (freshTag s + 1) % 65536, reqs := s.arm.reqs ++ [r] } }
  forwardMsg m none s

/-- A REQ of a kind for a line is outstanding. -/
def reqOutstanding (kind addr : Nat) (s : State) : Bool :=
  s.arm.reqs.any (fun r => r.msg.kind == kind && r.msg.addr / 128 == addr / 128)

/-- Ask a remote home for a line, shared or owned, once (R302, R320); ownership waits for a write-back of the line under way
(11 R254). -/
def askRemote (addr : Nat) (own : Bool) (who : Agent) (part : Option Nat) (s : State) : State :=
  let k := if own then 3 else 2
  let a := addr / 128 * 128
  if reqOutstanding 3 a s || (!own && reqOutstanding 2 a s) || reqOutstanding 5 a s then s
  else if own && (tget none (a / 128) s.arm.rlines).isSome then
    if reqOutstanding 4 a s then s else sendReq 4 a [] who part s
  else sendReq k a [] who part s

/-- Body of a DATA message: the bytes, then a byte whose bit 0 says that the line is poisoned. -/
def dataBody (data : List Byte) (poison : Bool) : List Byte := data ++ [BitVec.ofNat 8 (b2n poison)]

/-- The bytes of a DATA body, and its poison. -/
def dataOf (b : List Byte) : List Byte × Bool := (b.dropLast, (b.getLast?.getD 0).getLsbD 0)

/-- The write-back of a remote line that has not reached its home: its bytes and poison (11 R254). -/
def wbBuffer (line : Nat) (s : State) : Option (List Byte × Bool) :=
  (s.arm.reqs.find? (fun r => r.msg.kind == 5 && r.msg.addr / 128 == line)).map (fun r => dataOf r.msg.body)

/-- Operations of an UNCACHED request that are answered with DONE, without data: the first byte of its body says which operation it
is (R304; the model's own layout, log entry 41). -/
def unDone (op : Nat) : Bool := [1, 4, 5, 7, 8, 9, 10, 11].contains op

end Sys2Proof.Machine
end

