-- ==== Sys2Proof/Machine/OpsStore.lean ====
section
/-! DEFINITION. Main storage, the caches and the store buffers: named operations on memory, poison, replacement, what a core
sees of storage, and how a store leaves the core (10_storage_order R216 to R243; 11_caches R239 to R254; 12_dram R258, R263,
R264, R267; 21 R480). Memory is one sparse table of bytes by Armature address. -/

namespace Sys2Proof.Machine

/-! ### Memory -/

/-- What a byte of memory that nothing has written reads as. DESIGN CHOICE (log entry 5). -/
def memDefault : Byte := 0

/-- Read one byte of main storage, as its home holds it. -/
def memGet (a : Nat) (m : List Host.Cell) : Byte := tget memDefault a m

/-- Write one byte of main storage. -/
def memSet (a : Nat) (v : Byte) (m : List Host.Cell) : List Host.Cell := tset memDefault a v m

/-- What an unlisted byte of a re-keyed range reads as: the newest range that holds the address decides (18 R420). -/
def keyMask (a : Nat) (s : State) : Byte :=
  match s.sto.keyed.find? (fun k => decide (k.base ≤ a) && decide (a < k.base + k.size)) with
  | some k => (match k.key with | some n => Config.freeByte n a | none => 0)
  | none => 0

/-- A byte of this module's storage as its home holds it. Memory lists it as it differs from what its range reads as unwritten. -/
def storedByte (a : Nat) (s : State) : Byte := memGet a s.sto.mem ^^^ keyMask a s

/-- Write a byte of this module's storage. -/
def storeByte (a : Nat) (v : Byte) (s : State) : State := { s with sto := { s.sto with mem := memSet a (v ^^^ keyMask a s) s.sto.mem } }

/-- Write bytes of this module's storage from an address upwards. -/
def storeAll (a : Nat) : List Byte → State → State
  | [], s => s
  | b :: t, s => storeAll (a + 1) t (storeByte a b s)

/-- A range lies under a new key, or is zeroed: nothing that it held is left, and a zeroed line is not poisoned (18 R420). -/
def rekeyRange (k : Rekeyed) (s : State) : State :=
  let out (a : Nat) : Bool := decide (a < k.base) || decide (k.base + k.size ≤ a)
  { s with sto := { s.sto with mem := s.sto.mem.filter (fun c => out c.1), keyed := k :: s.sto.keyed,
                               poison := if k.key.isNone then s.sto.poison.filter (fun e => out (e.1 * 64)) else s.sto.poison } }

/-- The canonical form of memory: addresses strictly rising, no entry equal to what an unlisted address reads as. -/
def Memory.wf (m : List Host.Cell) : Bool := twf memDefault m

/-- The line that holds an address (R239). -/
def lineOf (a : Nat) : Nat := a / 128

/-- A line is marked poisoned: either of its bursts is, or the copy of a remote line that is here, be it in the buffer of a write-back
under way (21 R480, 12 R267; 11 R253, R254). -/
def linePoisoned (line : Nat) (s : State) : Bool :=
  tget false (2 * line) s.sto.poison || tget false (2 * line + 1) s.sto.poison ||
  (match tget none line s.arm.rlines with
   | some r => r.poison
   | none => (wbBuffer line s).any (·.2))

/-- Mark a line of this home poisoned, or end its poison. -/
def setPoison (line : Nat) (v : Bool) (s : State) : State :=
  { s with sto := { s.sto with poison := tset false (2 * line) v (tset false (2 * line + 1) v s.sto.poison) } }

/-- Mark a line poisoned where its data lies: at this home, or in this module's copy of a remote line, with which the mark travels
(11 R253; 20 R461; 21 R480). -/
def poisonLine (line : Nat) (s : State) : State :=
  if isLocal (line * 128) s then setPoison line true s
  else match tget none line s.arm.rlines with
    | some r => { s with arm := { s.arm with rlines := tset none line (some { r with poison := true }) s.arm.rlines } }
    | none => s

/-- Used DRAM of the module in bytes: 16 times the smallest channel capacity (12 R258). -/
def usedDram (s : State) : Nat :=
  16 * 2 ^ 30 * ((List.range 16).map (fun n => (tget {} n s.dram).capGiB)).foldl min 512

/-- The two kinds of module physical address that reach DRAM or nothing (12 R263, R264). -/
inductive PhysKind where
  | dram
  | unused
  | unmapped
  | control
deriving DecidableEq, Repr

/-- What stands at a module physical address (R263, R264). -/
def physKind (pa : Nat) (s : State) : PhysKind :=
  if pa < usedDram s then .dram
  else if pa < 2 ^ 43 then .unused
  else if pa < 0xFFFFF00000000 then .unmapped
  else .control

/-! ### Cache arrays -/

/-- Touch a way: every node on its path points away from it (R242). `lv` levels remain below `node`. -/
def plruTouch : Nat → Nat → Nat → Nat → Nat
  | 0, _, _, t => t
  | lv + 1, node, way, t =>
    if way % 2 ^ (lv + 1) < 2 ^ lv then plruTouch lv (2 * node) way (if t.testBit node then t else t + 2 ^ node)
    else plruTouch lv (2 * node + 1) way (if t.testBit node then t - 2 ^ node else t)

/-- A side of the tree holds a way that may be allocated. -/
def sideOk (allowed base n : Nat) : Bool := (allowed >>> base) % 2 ^ n != 0

/-- Walk the tree to the way to replace: a node's other side where its own holds no way that may be allocated (R242). -/
def plruPick : Nat → Nat → Nat → Nat → Nat → Nat
  | 0, _, base, _, _ => base
  | lv + 1, node, base, t, allowed =>
    let right := if t.testBit node then sideOk allowed (base + 2 ^ lv) (2 ^ lv) else !sideOk allowed base (2 ^ lv)
    if right then plruPick lv (2 * node + 1) (base + 2 ^ lv) t allowed else plruPick lv (2 * node) base t allowed

/-- The geometry of a cache: sets, and levels of the tree, ways being 2 to that power (R239). -/
structure Geo where
  sets : Nat
  lv : Nat
deriving DecidableEq, Repr

def geoL1I : Geo := ⟨128, 2⟩
def geoL1D : Geo := ⟨64, 3⟩
def geoL2 : Geo := ⟨512, 4⟩
def geoSlice : Geo := ⟨4096, 4⟩

/-- The way of a set that holds a line. -/
def wayOf (line : Nat) (c : CSet) : Option Nat :=
  (c.ways.find? (fun e => match e.2 with | some w => w.line == line | none => false)).map (·.1)

/-- A cache array holds a line. -/
def cacheHas (g : Geo) (line : Nat) (t : Tab CSet) : Bool := (wayOf line (tget {} (line % g.sets) t)).isSome

/-- Use a line: a hit touches its way; a miss fills the lowest invalid way that may be allocated, else the way that the tree
names; answers the way replaced (R242). -/
def cacheUse (g : Geo) (line part allowed : Nat) (t : Tab CSet) : Tab CSet × Option CWay :=
  let i := line % g.sets
  let c := tget {} i t
  match wayOf line c with
  | some w => (tset {} i { c with plru := plruTouch g.lv 1 w c.plru } t, none)
  | none =>
    let free := findBelow (2 ^ g.lv) (fun w => allowed.testBit w && (tget none w c.ways).isNone)
    let w := free.getD (plruPick g.lv 1 0 c.plru allowed)
    if allowed % 2 ^ (2 ^ g.lv) = 0 then (t, none)
    else (tset {} i { ways := tset none w (some { line := line, part := part }) c.ways, plru := plruTouch g.lv 1 w c.plru } t,
          tget none w c.ways)

/-- Remove a line from a cache array. -/
def cacheDrop (g : Geo) (line : Nat) (t : Tab CSet) : Tab CSet :=
  tmod {} (line % g.sets) (fun c => { c with ways := c.ways.filter (fun e => match e.2 with | some w => w.line != line | none => false) }) t

/-- Every line that a cache array holds. -/
def cacheLines (t : Tab CSet) : List Nat := t.flatMap (fun e => e.2.ways.filterMap (fun w => w.2.map (·.line)))

/-- Every way may be allocated (R244). -/
def allWays : Nat := 0xFFFF

/-- The slice of a physical address (R241). -/
def sliceOf (pa : Nat) : Nat :=
  [(11, 7), (16, 12), (21, 17), (26, 22), (31, 27), (36, 32), (41, 37), (46, 42), (51, 47)].foldl (fun x r => x ^^^ bits pa r.1 r.2) 0

/-! ### The home directory (14 R319 to R321) -/

/-- The set of the directory that a line of this module falls in: slice and set together (R319). -/
def dirKey (line : Nat) : Nat := sliceOf (physOfAddr (line * 128)) * 8192 + line % 8192

/-- The entry of a line, none while no remote node holds it. -/
def dirOf (line : Nat) (s : State) : Option DirEntry := (tget [] (dirKey line) s.arm.dir).find? (fun e => e.line == line)

/-- Write or remove the entry of a line; it becomes the most recently used of its set. -/
def setDir (line : Nat) (e : Option DirEntry) (s : State) : State :=
  let rest := (tget [] (dirKey line) s.arm.dir).filter (fun e => e.line != line)
  { s with arm := { s.arm with dir := tset [] (dirKey line) (match e with | some e => e :: rest | none => rest) s.arm.dir } }

/-- The nodes of a holder mask. -/
def maskNodes (m : Nat) : List Nat := (List.range 64).filter (fun n => m.testBit n)

/-- The request that a home serves for a line. -/
def txnOf (line : Nat) (s : State) : Option HomeTxn := tget none line s.arm.txn

/-- Write it. -/
def setTxn (line : Nat) (t : Option HomeTxn) (s : State) : State := { s with arm := { s.arm with txn := tset none line t s.arm.txn } }

/-- Queue a request for a line (R320). -/
def queueReq (line : Nat) (m : Msg) (s : State) : State :=
  { s with arm := { s.arm with queue := tmod [] line (· ++ [m]) s.arm.queue } }

/-- Send a SNOOP from this home to a holder (R304): `act` 0 supply and keep a clean copy, 1 supply and invalidate, 2 invalidate,
3 recall; for 0 and 1 the node and tag of the request that it serves. -/
def sendSnoop (holder line act : Nat) (req : Msg) (s : State) : State :=
  let tag := freshTag s
  let s := { s with arm := { s.arm with nextTag := (tag + 1) % 65536 } }
  sendMsg holder 7 tag (line * 128) (beBytes 1 act ++ beBytes 1 req.src ++ beBytes 2 req.tag) s

/-- A request of this module to its own home, whose answer goes nowhere. -/
def selfReq (kind addr : Nat) (body : List Byte) (s : State) : Msg :=
  { via := 0, vc := (kindVc kind).getD 1, dest := s.arm.node.getD 0, src := s.arm.node.getD 0, kind := kind, tag := 0, epoch := false, resent := false, addr := addr, body := body }

/-- The home waits for SNOOP answers from holders before it completes a request (R320, R321). -/
def snoopHolders (line act holders : Nat) (req : Msg) (forRecall : Bool) (s : State) : State :=
  let r := (maskNodes holders).foldl (fun (r : List (Nat × Nat) × State) n => (r.1 ++ [(n, freshTag r.2)], sendSnoop n line act req r.2)) ([], s)
  setTxn line (some { req := req, waiting := holders, since := s.tor.tor, forRecall := forRecall, tags := r.1 }) r.2

/-- A line of this module that remote nodes hold is called back for this module's own access, once. -/
def askHome (addr : Nat) (own : Bool) (s : State) : State :=
  let line := addr / 128
  if (txnOf line s).isSome then s
  else match dirOf line s with
    | none => s
    | some e => snoopHolders line (if own then (if e.owned then 1 else 2) else 0) e.holders (selfReq (if own then 3 else 2) (line * 128) [] s) false s

/-- Nothing at the home keeps this module from reading a line of its own, or from writing it. -/
def homeReady (line : Nat) (own : Bool) (s : State) : Bool :=
  (txnOf line s).isNone && (match dirOf line s with | none => true | some e => !own && !e.owned)

/-- Ask for a line, shared or owned: a remote home for it, or this home to call it back (R302, R320). -/
def askLine (addr : Nat) (own : Bool) (who : Agent) (part : Option Nat) (s : State) : State :=
  if isLocal addr s then askHome addr own s else askRemote addr own who part s

/-- An access to a line of this module's shared cache: a hit touches its way in any way; a miss fills the ways granted to the
partition served, and allocates nothing for the service core (R240, R242, R244). -/
def sliceUse (line : Nat) (part : Option Nat) (s : State) : State :=
  let a := line * 128
  if !isLocal a s || physKind (physOfAddr a) s != .dram then s
  else
    let p := part.getD 0
    let ways := match part with
      | some p => (match partOf p s with | some d => d.cacheWays | none => 0)
      | none => 0
    let k := sliceOf (physOfAddr a)
    let set_ := tget [] k s.sto.slices
    { s with sto := { s.sto with slices := tset [] k (cacheUse geoSlice (physOfAddr a / 128) p ways set_).1 s.sto.slices } }

/-- The partition whose extent holds an Armature address, which an access of another module serves (R244). -/
def partOfAddr (a : Nat) (s : State) : Option Nat :=
  (partIds s).find? (fun p => (partOf p s).any (fun d => d.extents.any (fun e => decide (e.phys ≤ a) && decide (a < e.phys + e.size))))

/-- Lines of the shared cache allocated on behalf of a partition (R256). -/
def slicePartLines (p : Nat) (s : State) : Nat :=
  (s.sto.slices.map (fun e => (e.2.map (fun c => (c.2.ways.filter (fun w => match w.2 with | some x => x.part == p | none => false)).length)).foldl (· + ·) 0)).foldl (· + ·) 0

/-! ### Writing at the home -/

/-- The value that a line's home holds for a byte: this module's storage, or the copy of a remote line that is here, be it in the
buffer of a write-back under way (11 R254). -/
def homeByte (a : Nat) (s : State) : Byte :=
  if isLocal a s then storedByte a s
  else match tget none (lineOf a) s.arm.rlines with
    | some r => r.data.getD (a % 128) 0
    | none => match wbBuffer (lineOf a) s with
      | some d => d.1.getD (a % 128) 0
      | none => 0

/-- Write one byte at the home, or in the owned copy of a remote line. -/
def homeSet (a : Nat) (v : Byte) (s : State) : State :=
  if isLocal a s then storeByte a v s
  else match tget none (lineOf a) s.arm.rlines with
    | some r => { s with arm := { s.arm with rlines := tset none (lineOf a) (some { r with data := r.data.set (a % 128) v }) s.arm.rlines } }
    | none => s

/-- Write bytes at the home from an address upwards. -/
def homeSetAll (a : Nat) : List Byte → State → State
  | [], s => s
  | b :: t, s => homeSetAll (a + 1) t (homeSet a b s)

/-- The value that every observer outside the storing core sees of a byte: a dirty copy, else the home's (R243). -/
def cohByte (a : Nat) (s : State) : Byte :=
  match tget none a s.cpu.dirty with
  | some d => d.val
  | none => homeByte a s

/-- Coherent bytes from an address upwards. -/
def cohBytes (a n : Nat) (s : State) : List Byte := (List.range n).map (fun i => cohByte (a + i) s)

/-- Write back the dirty bytes that satisfy a test, to their homes. -/
def writeBackIf (p : Nat → DByte → Bool) (s : State) : State :=
  let go := s.cpu.dirty.filter (fun e => match e.2 with | some d => p e.1 d | none => false)
  let s := go.foldl (fun s e => match e.2 with | some d => homeSet e.1 d.val s | none => s) s
  { s with cpu := { s.cpu with dirty := s.cpu.dirty.filter (fun e => match e.2 with | some d => !p e.1 d | none => false) } }

/-- Discard dirty bytes that satisfy a test. -/
def discardIf (p : Nat → DByte → Bool) (s : State) : State :=
  { s with cpu := { s.cpu with dirty := s.cpu.dirty.filter (fun e => match e.2 with | some d => !p e.1 d | none => false) } }

/-- The line holds a dirty byte of a private cache that satisfies a test. -/
def lineDirty (line : Nat) (p : DByte → Bool) (s : State) : Bool :=
  s.cpu.dirty.any (fun e => lineOf e.1 == line && (match e.2 with | some d => p d | none => false))

/-- Write-backs of the lines of dirty bytes that satisfy a test reach their homes: each is an access of its slice here (R242). -/
def sliceBack (p : Nat → DByte → Bool) (s : State) : State :=
  (((s.cpu.dirty.filter (fun e => match e.2 with | some d => p e.1 d | none => false)).map (fun e => lineOf e.1)).eraseDups).foldl
    (fun s ln => sliceUse ln none s) s

/-- Write back a line from every private cache (R243). A write-back that reaches this home is an access of its slice (R242); one that
misses there allocates no way, since R244 does not say for which partition it would (DESIGN CHOICE, log entry 91). -/
def writeBackLine (line : Nat) (s : State) : State :=
  let s := if lineDirty line (fun _ => true) s then sliceUse line none s else s
  writeBackIf (fun a _ => lineOf a == line) s

/-- A core loses its reservation when it covers a line. -/
def loseResv (line : Nat) (c : Core) : Core := if c.resv = some (line / 2) then { c with resv := none } else c

/-- Drop a line from a core's private caches; its reservation on the line is lost with it (R235, R240). A disabled cache keeps what it
holds, and no longer counts as holding the line (R249). -/
def dropFromCore (line : Nat) (c : Core) : Core :=
  let c := if cacheHas geoL2 line c.l2 then loseResv line c else c
  { c with l1i := cacheDrop geoL1I line c.l1i, l1d := cacheDrop geoL1D line c.l1d, l2 := cacheDrop geoL2 line c.l2 }

/-- Apply a change to every core that the state lists. -/
def onCores (p : Nat → Bool) (f : Core → Core) (s : State) : State :=
  (s.cpu.core.map (·.1)).foldl (fun s l => if p l then modCore l f s else s) s

/-- The L2 of this core is enabled (R247). -/
def l2On (c : Core) : Bool := !lbit c.cachectl 1

/-- The L1D of this core is enabled: neither L1D_OFF nor L2_OFF (R247). -/
def dataCached (c : Core) : Bool := !lbit c.cachectl 0 && l2On c

/-- A disabled cache acknowledges the snoop of another observer's access as if it did not hold the line, and is recorded so from then on
(R249). -/
def snoopOff (line : Nat) (c : Core) : Core :=
  if dataCached c then c
  else { c with l1d := cacheDrop geoL1D line c.l1d, l2 := if l2On c then c.l2 else cacheDrop geoL2 line c.l2 }

/-- Every core but `l` is snooped for a line that is read. -/
def snoopRead (l : Option Nat) (line : Nat) (s : State) : State :=
  s.cpu.core.foldl (fun s e => if some e.1 == l || dataCached e.2 then s else modCore e.1 (snoopOff line) s) s

/-- The snoop filter of the home slices records a core as holding a line: its L2 does, or its L1I while the L2 is off, or it has
reserved it (R240, R249; 10 R234). -/
def coreHolds (line : Nat) (c : Core) : Bool :=
  cacheHas geoL2 line c.l2 || cacheHas geoL1I line c.l1i || c.resv == some (line / 2)

/-- Some core's caches hold a line. -/
def anyHolds (line : Nat) (s : State) : Bool := s.cpu.core.any (fun e => coreHolds line e.2)

/-- A remote line that no core here holds any more leaves the module: written back to its home when owned (R320). -/
def releaseRemote (line : Nat) (who : Agent) (part : Option Nat) (s : State) : State :=
  match tget none line s.arm.rlines with
  | none => s
  | some r =>
    if anyHolds line s then s
    else
      let s := { s with arm := { s.arm with rlines := tset none line none s.arm.rlines } }
      if r.owned then sendReq 5 (line * 128) (dataBody r.data r.poison) who part s else s

/-- A held line of a re-enabled cache is written back over the home when it is dirty, and dropped (R251); a disabled cache writes
nothing back and keeps what it holds (R249, R250). -/
def evictHeld (l line : Nat) (s : State) : State :=
  let c := coreOf l s
  let put (h : Option HeldLine) (s : State) : State :=
    match h with
    | some x => if x.dirty then homeSetAll (line * 128) x.data (sliceUse line none s) else s
    | none => s
  let s := if l2On c then put (tget none line c.held2) s else s
  let s := if dataCached c then put (tget none line c.held1) s else s
  modCore l (fun c => { c with held1 := if dataCached c then tset none line none c.held1 else c.held1,
                               held2 := if l2On c then tset none line none c.held2 else c.held2 }) s

/-- Every copy of a line in an enabled private cache, but those of core `keep`, is written back, if dirty, and invalidated: for an access
that is made at the home (R243). Lines that a re-enabled cache still holds are among them (R251). -/
def cleanLine (keep : Option Nat) (line : Nat) (s : State) : State :=
  let s := writeBackLine line s
  let s := (s.cpu.core.map (·.1)).foldl (fun s l =>
    let c := coreOf l s
    if some l == keep || ((tget none line c.held1).isNone && (tget none line c.held2).isNone) then s else evictHeld l line s) s
  onCores (fun k => some k != keep) (dropFromCore line) s

/-- A line leaves a core's L2: dirty data goes to the home, and the reservation on it is lost (R235, R242, R253). -/
def evictL2 (l line : Nat) (part : Option Nat) (s : State) : State :=
  let s := writeBackIf (fun a d => lineOf a == line && d.core == l) (sliceBack (fun a d => lineOf a == line && d.core == l) s)
  let s := evictHeld l line s
  let s := modCore l (fun c => dropFromCore line (loseResv line c)) s
  releaseRemote line (.core l) part s

/-- Bring a line into a core's L2 (R240, R243). -/
def fillL2 (l line : Nat) (part : Option Nat) (s : State) : State :=
  let s := if cacheHas geoL2 line (coreOf l s).l2 then s else snoopRead (some l) line (sliceUse line part s)
  let r := cacheUse geoL2 line 0 allWays (coreOf l s).l2
  let s := modCore l (fun c => { c with l2 := r.1 }) s
  match r.2 with | some w => evictL2 l w.line part s | none => s

/-- A line leaves a core's L1I while the L2 is off. -/
def evictL1I (l line : Nat) (part : Option Nat) (s : State) : State := releaseRemote line (.core l) part s

/-- Bring a line into a core's L2 and into its L1D, where that is enabled, or L1I (R240, R243); with the L2 off, into the L1I alone (R249).
A line that is served from the buffer of a write-back is not allocated (R254). -/
def cacheFill (l line : Nat) (instr : Bool) (part : Option Nat) (s : State) : State :=
  let c := coreOf l s
  if !isLocal (line * 128) s && (tget none line s.arm.rlines).isNone then s
  else if instr then
    let s := if cacheHas geoL1I line c.l1i then s else if l2On c then fillL2 l line part s else snoopRead (some l) line (sliceUse line part s)
    let r := cacheUse geoL1I line 0 allWays (coreOf l s).l1i
    let s := modCore l (fun c => { c with l1i := r.1 }) s
    match r.2 with | some w => if l2On c then s else evictL1I l w.line part s | none => s
  else
    let s := if dataCached c && cacheHas geoL1D line c.l1d then s else fillL2 l line part s
    if dataCached c then modCore l (fun c => { c with l1d := (cacheUse geoL1D line 0 allWays c.l1d).1 }) s else s

/-- The bytes of a line are known to this module: its home is here, or a copy of it. -/
def lineHere (line : Nat) (s : State) : Bool :=
  isLocal (line * 128) s || (tget none line s.arm.rlines).isSome || (wbBuffer line s).isSome

/-- Record what a store replaces, for the later instruction fetch of those whom it concerns (04 R96, 10 R225); of
a remote line that is not here nothing is known (log entry 92). -/
def noteOld (who : Fetchers) (a : Nat) (old : List Byte) (s : State) : State :=
  if !lineHere (lineOf a) s then s
  else { s with cpu := { s.cpu with old := { addr := a, data := old, who := who, seq := s.cpu.oldSeq } :: s.cpu.old, oldSeq := s.cpu.oldSeq + 1 } }

/-- Every core but `l` loses a reservation on the line of a store (R235). -/
def loseResvAll (l : Option Nat) (line : Nat) (s : State) : State := onCores (fun k => some k != l) (loseResv line) s

/-- The lines that `n` bytes from an address touch. -/
def linesOf (a n : Nat) : List Nat := (List.range (lineOf (a + n - 1) - lineOf a + 1)).map (· + lineOf a)

/-- A line that a re-enabled cache of a core still holds takes the bytes of the core's write-through store (R243, R251). -/
def heldStore (l a : Nat) (data : List Byte) (s : State) : State :=
  let ln := lineOf a
  let put (h : Option HeldLine) : Option HeldLine :=
    h.map (fun h => { h with data := ((List.range data.length).zip data).foldl (fun d e => d.set (a % 128 + e.1) e.2) h.data })
  modCore l (fun c => { c with held1 := if dataCached c then tset none ln (put (tget none ln c.held1)) c.held1 else c.held1,
                               held2 := if l2On c then tset none ln (put (tget none ln c.held2)) c.held2 else c.held2 }) s

/-- Bytes reach the home of their line: every cached copy is written back first and invalidated (R243), but for the copy of core `keep`, which a
write-through store updates; no remote node holds the line; reservations are lost (R235), a store of a whole line ends its poison and a store of
part keeps it (12 R267, 21 R480). Bytes of the DRAM range above the used capacity are discarded with an event (12 R263). -/
def homeWriteKeep (keep : Option Nat) (who : Fetchers) (part : Option Nat) (a : Nat) (data : List Byte) (s : State) : State :=
  if data.isEmpty then s
  else if isLocal a s && physKind (physOfAddr a) s != .dram then
    raisePart 0x0B part a s
  else
    let s := noteOld who a (cohBytes a data.length s) s
    let s := (linesOf a data.length).foldl (fun s ln =>
      let s := onCores (fun k => some k != keep) (loseResv ln) (cleanLine keep ln (sliceUse ln part s))
      if a ≤ ln * 128 ∧ ln * 128 + 128 ≤ a + data.length then setPoison ln false s else s) s
    homeSetAll a data (match keep with | some l => heldStore l a data s | none => s)

/-- Bytes reach the home of their line, no copy of which stays valid. -/
def homeWrite (who : Fetchers) (part : Option Nat) (a : Nat) (data : List Byte) (s : State) : State := homeWriteKeep none who part a data s

/-- A write of an agent at this home to a line that remote nodes hold is queued there until they have given it up (14 R320). It counts as
a request of the agent until it is performed. -/
def homeDefer (who : Agent) (part : Option Nat) (a : Nat) (data : List Byte) (s : State) : State :=
  (linesOf a data.length).foldl (fun s ln =>
    let lo := max a (ln * 128)
    let hi := min (a + data.length) (ln * 128 + 128)
    let d := (data.drop (lo - a)).take (hi - lo)
    let m : Msg := { selfReq 6 lo ([1, BitVec.ofNat 8 d.length] ++ d) s with tag := freshTag s }
    let r : OutReq := { msg := m, first := s.tor.tor, last := s.tor.tor, sends := 1, who := who, part := part }
    let s := { s with arm := { s.arm with nextTag := (m.tag + 1) % 65536, reqs := s.arm.reqs ++ [r] } }
    queueReq ln m (askHome (ln * 128) true s)) s

/-- The partition whose ways an agent's access may fill: none for the service core's own, which allocates nothing (R244). -/
def allocFor (who : Agent) (part : Option Nat) : Option Nat := if who = .service then none else part

/-- A write of an agent other than a core on behalf of a partition: at the home, through the partition's ways (R244). -/
def agentWrite (who : Agent) (part : Option Nat) (a : Nat) (data : List Byte) (s : State) : State :=
  if (linesOf a data.length).any (fun ln => !homeReady ln true s) && !data.isEmpty then homeDefer who part a data s
  else homeWrite (.others none) (allocFor who part) a data s

/-- Requests of an agent's writes that are not answered: at a remote home, or behind holders of their line (10 R230, R231). -/
def agentSent (who : Agent) (s : State) : Bool := s.arm.reqs.any (fun r => r.who == who && r.msg.kind == 6)

/-- Writes of an agent that are not performed yet. -/
def agentPending (who : Agent) (s : State) : Bool := agentSent who s || s.arm.later.any (fun w => w.who == who)

/-- A write of an agent to this line is not performed yet. -/
def lateLine (line : Nat) (s : State) : Bool :=
  s.arm.later.any (fun w => lineOf w.addr == line) ||
  s.arm.reqs.any (fun r => r.msg.kind == 6 && r.msg.addr / 128 == line && (match r.who with | .core _ => false | .coreUc _ => false | .coreWc _ _ => false | _ => unDone (natAt r.msg.body 0 1)))

/-- An agent reads a place of WC or UC storage at its remote home, and not from a copy here (11 R243; 15 R342). -/
def readAway (attr a : Nat) (s : State) : Bool := decide (2 ≤ attr) && !isLocal a s

/-- What an agent has asked for of such a line. -/
def gotOf (who : Agent) (line : Nat) (s : State) : Option AgentGot := s.arm.got.find? (fun g => g.who == who && g.line == line)

/-- What an agent has asked for of such lines that satisfy a test is used, or of no use any more. -/
def dropGot (who : Agent) (p : Nat → Bool) (s : State) : State :=
  { s with arm := { s.arm with got := s.arm.got.filter (fun g => !(g.who == who && p g.line)) } }

/-- An agent asks for a line that it cannot read yet, behind such a write (R302, R304). -/
def agentAsk (who : Agent) (part : Option Nat) (attr a : Nat) (s : State) : State :=
  if lateLine (lineOf a) s then s
  else if !readAway attr a s then askLine a false who part s
  else if (gotOf who (lineOf a) s).isSome then s
  else
    let g : AgentGot := { who := who, tag := freshTag s, line := lineOf a }
    sendReq 6 (lineOf a * 128) [0, 128] who part { s with arm := { s.arm with got := s.arm.got ++ [g] } }

/-- The answer to such a request. -/
def agentArrive (tag : Nat) (data : List Byte) (poison : Bool) (s : State) : State :=
  { s with arm := { s.arm with got := s.arm.got.map (fun g => if g.tag = tag ∧ g.data.isNone then { g with data := some data, poison := poison } else g) } }

/-- The bytes that an agent other than a core reads under a storage attribute, all in one line where their home is remote, and whether any
line of them is poisoned (21 R480). -/
def agentRead (who : Agent) (attr a n : Nat) (s : State) : List Byte × Bool :=
  if readAway attr a s then
    match gotOf who (lineOf a) s with
    | some g => (fixLen 0 n (bytesAt (g.data.getD []) (a % 128) n), g.poison)
    | none => (List.replicate n 0, false)
  else
    let bad := if n = 0 then false else (linesOf a n).any (fun ln => linePoisoned ln s)
    let out := isLocal a s && physKind (physOfAddr a) s != .dram
    (cohBytes a n s, bad || out)

/-- What a read of an agent other than a core does beside answering: it uses the slices through the partition's ways (R242, R244), a
remote line that was fetched for it is kept in no cache (R240), and an address of the DRAM range above the used capacity is an event
of the partition (12 R263). WC and UC storage stays in no cache (11 R243). -/
def agentSeen (who : Agent) (part : Option Nat) (attr a n : Nat) (s : State) : State :=
  if n = 0 then s
  else if readAway attr a s then dropGot who (fun ln => ln == lineOf a) s
  else if isLocal a s && physKind (physOfAddr a) s != .dram then
    raisePart 0x0B part a s
  else (linesOf a n).foldl (fun s ln =>
    let s := if 2 ≤ attr then cleanLine none ln s else s
    releaseRemote ln who part (snoopRead none ln (sliceUse ln (allocFor who part) s))) s

/-! ### What a core sees -/

/-- An entry of a store buffer covers a byte. -/
def SbEntry.byte (e : SbEntry) (a : Nat) : Option Byte := if e.addr ≤ a then e.data[a - e.addr]? else none

/-- The newest byte of a core's own stores that are not yet performed at CLUSTER scope (R217). -/
def sbOwnByte (a : Nat) (sb : List SbEntry) : Option Byte :=
  (sb.reverse.filter (fun e => e.cluster.isNone)).findSome? (fun e => e.byte a)

/-- The newest byte performed at CLUSTER scope and not yet at SYSTEM scope, of any core of the cluster and partition (R217). -/
def clusterByte (l a : Nat) (s : State) : Option Byte :=
  let p := partOfCore l s
  let es := (s.cpu.core.filter (fun e => e.1 / 16 == l / 16 && partOfCore e.1 s == p)).flatMap (fun e => e.2.sb.filterMap (fun x =>
    match x.cluster, x.byte a with | some q, some v => some (q, v) | _, _ => none))
  (es.foldl (fun b e => match b with | none => some e | some m => if m.1 < e.1 then some e else b) none).map (·.2)

/-- A byte held in one of the core's combining buffers, the newest first (R243). -/
def wcByte (a : Nat) (c : Core) : Option Byte :=
  c.wc.reverse.findSome? (fun w => if w.line == lineOf a then tget none (a % 128) w.data else none)

/-- A byte that a re-enabled cache serves as it stood when the cache was disabled (R251). -/
def heldByte (a : Nat) (c : Core) : Option Byte :=
  match (if dataCached c then tget none (lineOf a) c.held1 else none) with
  | some h => h.data[a % 128]?
  | none => match (if l2On c then tget none (lineOf a) c.held2 else none) with
    | some h => h.data[a % 128]?
    | none => none

/-- The byte that a load of core l returns (R217, R218, R243, R251). -/
def coreByte (l a : Nat) (s : State) : Byte :=
  let c := coreOf l s
  (sbOwnByte a c.sb).getD ((clusterByte l a s).getD ((wcByte a c).getD ((heldByte a c).getD (cohByte a s))))

/-- The bytes that a load of core l returns. -/
def coreBytes (l a n : Nat) (s : State) : List Byte := (List.range n).map (fun i => coreByte l (a + i) s)

/-- A line may be read here, or written here as owned (R320); the buffer of a write-back under way serves a read (11 R254). -/
def remoteReady (a : Nat) (own : Bool) (s : State) : Bool :=
  if isLocal a s then homeReady (lineOf a) own s
  else match tget none (lineOf a) s.arm.rlines with
    | some r => !own || r.owned
    | none => !own && (wbBuffer (lineOf a) s).isSome

/-- A place can be read by an agent now: here, or as its home has sent it; and no write of an agent to its line is on its way. -/
def agentHas (who : Agent) (attr a : Nat) (s : State) : Bool :=
  (if readAway attr a s then (gotOf who (lineOf a) s).any (·.data.isSome) else remoteReady a false s) && !lateLine (lineOf a) s

/-! ### Performing stores -/

/-- The bytes of a combining buffer as runs without a gap: first offset and bytes (R221: a store is sent whole). -/
def wcRuns (t : Tab (Option Byte)) : List (Nat × List Byte) :=
  (t.foldl (fun (r : List (Nat × List Byte)) e => match e.2 with
    | none => r
    | some v => match r with
      | (o, d) :: rest => if o + d.length = e.1 then (o, d ++ [v]) :: rest else (e.1, [v]) :: r
      | [] => [(e.1, [v])]) []).reverse

/-- Replace a combining buffer of a core, or take it away. -/
def setWc (l : Nat) (old : WcBuf) (new : Option WcBuf) (s : State) : State :=
  modCore l (fun c => { c with wc := c.wc.flatMap (fun w => if w = old then new.toList else [w]) }) s

/-- No store of the core that a store fence or an interruption puts before those of a combining buffer is still to be performed (R223,
R224, R238). -/
def wcMay (l : Nat) (w : WcBuf) (s : State) : Bool :=
  let c := coreOf l s
  c.sb.all (fun e => (e.cluster.isSome || decide (w.epC ≤ e.epC)) && decide (w.epS ≤ e.epS)) &&
  c.wc.all (fun x => decide (w.epC ≤ x.epC) && decide (w.epS ≤ x.epS))

/-- A combining buffer is released (R243): when the order of the core's stores lets it be, its bytes are performed at this home once no
remote node holds the line, and a remote home is sent them, which has performed them when it answers. -/
def wcReleaseOne (l : Nat) (w : WcBuf) (s : State) : State :=
  let part := partOfCore l s
  let a := w.line * 128
  if !w.out.isEmpty then s
  else if !wcMay l w s then setWc l w (some { w with closed := true }) s
  else if isLocal a s then
    if homeReady w.line true s then
      let s := (wcRuns w.data).foldl (fun s r => homeWrite (.others (some l)) part (a + r.1) r.2 s) (setWc l w none s)
      if w.bad then setPoison w.line true s else s
    else askHome a true (setWc l w (some { w with closed := true }) s)
  else
    let op : Byte := if w.bad then 7 else 1
    let r := (wcRuns w.data).foldl (fun (r : List Nat × State) x =>
      (r.1 ++ [freshTag r.2], sendReq 6 (a + x.1) ([op, BitVec.ofNat 8 x.2.length] ++ x.2) (.coreWc l w.line) part r.2)) ([], s)
    setWc l w (some { w with closed := true, out := r.1 }) r.2

/-- Release every combining buffer of a core (R243). -/
def wcRelease (l : Nat) (s : State) : State := (coreOf l s).wc.foldl (fun s w => wcReleaseOne l w s) s

/-- A WC store finds a combining buffer (R243): its line's, one of four, or that of the oldest, which is released. -/
def wcRoom (l line : Nat) (s : State) : Bool :=
  let c := coreOf l s
  c.wc.any (fun w => w.line == line && !w.closed) || decide (c.wc.length < 4) ||
  (match c.wc with | w :: _ => isLocal (w.line * 128) s && homeReady w.line true s && wcMay l w s | [] => true)

/-- A WC store enters a combining buffer; a full buffer is released, the oldest one when a fifth line is needed, and one whose store
stands before a store fence of its core (R224, R243). -/
def wcStore (l : Nat) (e : SbEntry) (s : State) : State :=
  let ln := lineOf e.addr
  let c := coreOf l s
  let s :=
    if c.wc.any (fun w => w.line == ln && !w.closed) then s
    else
      let s := match c.wc with
        | w :: _ => if c.wc.length < 4 then s else wcReleaseOne l w s
        | [] => s
      modCore l (fun c => { c with wc := c.wc ++ [{ line := ln, data := [], first := e.seq, epC := e.epC, epS := e.epS, strl := 0, closed := false, out := [], bad := false }] }) s
  let put (w : WcBuf) : WcBuf :=
    if w.line == ln && !w.closed then
      { w with data := ((List.range e.data.length).zip e.data).foldl (fun t x => tset none (e.addr % 128 + x.1) (some x.2) t) w.data,
               first := min w.first e.seq, epC := min w.epC e.epC, epS := min w.epS e.epS, strl := max w.strl (e.strl.getD 0), bad := w.bad || e.bad }
    else w
  let s := modCore l (fun c => { c with wc := c.wc.map put }) s
  let c := coreOf l s
  match c.wc.find? (fun w => w.line == ln && !w.closed) with
  | some w => if w.data.length = 128 ∨ w.epC < c.epC ∨ w.epS < c.epS then wcReleaseOne l w s else s
  | none => s

/-- A data access of core l is made at the home: WC or UC storage; or no enabled cache of the core serves it, the L2 being off, or the
L1D alone with the line not in the L2, which is the next level (R243, R249). -/
def madeAtHome (l attr a : Nat) (s : State) : Bool :=
  let c := coreOf l s
  decide (2 ≤ attr) || !l2On c || (!dataCached c && !cacheHas geoL2 (lineOf a) c.l2)

/-- A bound access whose bytes are made as UC accesses are: in program order (R219, R249). -/
def ucOrdered (l attr : Nat) (s : State) : Bool := attr == 3 || (decide (attr ≤ 1) && !dataCached (coreOf l s))

/-- A WB store of a core whose caches serve it: the line becomes the core's own and dirty (R243); an L1D that is off keeps what it holds
(R249). -/
def wbStore (l : Nat) (who : Fetchers) (a : Nat) (data : List Byte) (s : State) : State :=
  let ln := lineOf a
  let part := partOfCore l s
  let c := coreOf l s
  let h1 := if dataCached c then tget none ln c.held1 else none
  match (if h1.isSome then h1 else if l2On c then tget none ln c.held2 else none) with
  | some h =>
    let d := ((List.range data.length).zip data).foldl (fun d e => d.set (a % 128 + e.1) e.2) h.data
    let x : HeldLine := { data := d, dirty := true }
    modCore l (fun c => if dataCached c then { c with held1 := tset none ln (some x) c.held1 } else { c with held2 := tset none ln (some x) c.held2 }) s
  | none =>
    let s := noteOld who a (cohBytes a data.length s) s
    let s := writeBackIf (fun b d => lineOf b == ln && d.core != l) s
    let s := onCores (fun k => k != l) (dropFromCore ln) s
    let s := loseResvAll (some l) ln s
    let s := cacheFill l ln false part (modCore l (snoopOff ln) s)
    ((List.range data.length).zip data).foldl (fun s e =>
      { s with cpu := { s.cpu with dirty := tset none (a + e.1) (some { core := l, val := e.2 }) s.cpu.dirty } }) s

/-- A store goes into the private caches of core l (R243, R249). -/
def cachedStore (l attr a : Nat) (s : State) : Bool := attr == 0 && !madeAtHome l attr a s

/-- A store of core l is made in a line that this module owns: WB, or WT, which writes through from there (R217, R243). -/
def ownedStore (l attr a : Nat) (s : State) : Bool := decide (attr ≤ 1) && !madeAtHome l attr a s

/-- The store of an entry can be performed at SYSTEM scope, or enter its combining buffer, at once: its line is owned where it is
cached; no remote node holds it where it is made at this home. A store that is made at a remote home is performed when that answers. -/
def storeReady (l : Nat) (e : SbEntry) (s : State) : Bool :=
  if e.attr = 2 then wcRoom l (lineOf e.addr) s
  else if isLocal e.addr s && physKind (physOfAddr e.addr) s != .dram then true
  else if ownedStore l e.attr e.addr s then remoteReady e.addr true s
  else isLocal e.addr s && homeReady (lineOf e.addr) true s

/-- Whose fetch a store concerns that is performed at SYSTEM scope: one that the cluster has seen concerns those beyond it (R217). -/
def SbEntry.fetchers (l : Nat) (e : SbEntry) : Fetchers := if e.cluster.isSome then .beyond l else .others (some l)

/-- A WT store to a line of a remote home, which this module owns: its copy takes the bytes, so that every observer sees them from now on
(R217), and the line is written through to its home, or back to it where no cache keeps it (R243). -/
def wtRemote (l : Nat) (e : SbEntry) (s : State) : State :=
  let ln := lineOf e.addr
  let part := partOfCore l s
  let s := noteOld (e.fetchers l) e.addr (cohBytes e.addr e.data.length s) (writeBackLine ln s)
  let s := onCores (fun k => k != l) (fun c => dropFromCore ln (loseResv ln c)) s
  let s := homeSetAll e.addr e.data (heldStore l e.addr e.data s)
  let s := if e.bad then poisonLine ln s else s
  match tget none ln s.arm.rlines with
  | some r =>
    if anyHolds ln s then sendReq 6 (ln * 128) (4 :: dataBody r.data r.poison) (.core l) part s
    else releaseRemote ln (.core l) part s
  | none => s

/-- A store of core l is performed at SYSTEM scope under its attribute, its line being ready (R217, R220, R243, R249). An entry whose ECC
was uncorrectable leaves its line poisoned (20 R461). -/
def sysStore (l : Nat) (e : SbEntry) (s : State) : State :=
  let part := partOfCore l s
  let here := isLocal e.addr s
  let mark (s : State) : State := if e.bad then poisonLine (lineOf e.addr) (writeBackLine (lineOf e.addr) s) else s
  if e.attr = 2 then wcStore l e s
  else if here && physKind (physOfAddr e.addr) s != .dram then homeWriteKeep none (e.fetchers l) part e.addr e.data s
  else if cachedStore l e.attr e.addr s then mark (wbStore l (e.fetchers l) e.addr e.data s)
  else if here then mark (homeWriteKeep (if ownedStore l e.attr e.addr s then some l else none) (e.fetchers l) part e.addr e.data s)
  else wtRemote l e s

/-- Two stores touch a common byte. -/
def overlaps (a n b m : Nat) : Bool := decide (a < b + m) && decide (b < a + n)

/-- Entry `i` of a store buffer may be performed at a scope now, as far as the other entries go (R218, R219, R224, R226): `system`
false is CLUSTER. -/
def sbOrder (l i : Nat) (system : Bool) (s : State) : Bool :=
  let sb := (coreOf l s).sb
  match sb[i]? with
  | none => false
  | some e =>
    let before := sb.take i
    let done (x : SbEntry) : Bool := if system then false else x.cluster.isSome
    before.all (fun x =>
      (done x || !overlaps x.addr x.data.length e.addr e.data.length) &&
      (done x || !(ucOrdered l x.attr s && ucOrdered l e.attr s)) &&
      (x.cluster.isSome || decide (e.epC ≤ x.epC)) &&
      (!system || decide (e.epS ≤ x.epS)) &&
      (x.cluster.isSome || e.after == 0) && (!system || e.after != 2)) &&
    (if system then
       (s.cpu.core.filter (fun k => k.1 / 16 == l / 16)).all (fun k => k.2.sb.all (fun x =>
         match x.cluster with
         | none => true
         | some q => (match e.cluster with | some m => decide (m ≤ q) | none => false) || !overlaps x.addr x.data.length e.addr e.data.length))
     else e.cluster.isNone && ownedStore l e.attr e.addr s)

/-- As far as the combining buffers go: an earlier WC store of the core that lies in one is performed only when the buffer has been
released (R219, R224, R226). -/
def wcOrder (l i : Nat) (system : Bool) (s : State) : Bool :=
  let c := coreOf l s
  match c.sb[i]? with
  | none => false
  | some e => c.wc.all (fun w => (e.attr == 2 && e.after == 0) || decide (e.seq ≤ w.first) ||
      (e.after == 0 && decide (e.epC ≤ w.epC) && (!system || decide (e.epS ≤ w.epS)) && w.line != lineOf e.addr))

/-- Entry `i` of a store buffer may be performed at a scope now. -/
def mayPerform (l i : Nat) (system : Bool) (s : State) : Bool := sbOrder l i system s && wcOrder l i system s

/-- Entry `i` is performed at CLUSTER scope (R217): every other core of the cluster and partition sees it, and loses a reservation on its
granule (R235). A WC store is seen by no other core before its buffer is released (R243), and a store that is made at the home before it
is performed there. -/
def stageEntry (l i : Nat) (s : State) : State :=
  match (coreOf l s).sb[i]? with
  | none => s
  | some e =>
    if e.cluster.isSome || !ownedStore l e.attr e.addr s then s
    else
      let q := s.cpu.clusterSeq
      let p := partOfCore l s
      let old := (List.range e.data.length).map (fun k => (clusterByte l (e.addr + k) s).getD (cohByte (e.addr + k) s))
      let s := noteOld (.cluster l) e.addr old { s with cpu := { s.cpu with clusterSeq := q + 1 } }
      let s := onCores (fun k => k != l && k / 16 == l / 16 && partOfCore k s == p) (loseResv (lineOf e.addr)) s
      modCore l (fun c => { c with sb := c.sb.mapIdx (fun j e => if j = i then { e with cluster := some q } else e) }) s

/-- What a store that is not ready waits for is asked for: room in a combining buffer, ownership of its line, the home to call it
back, or the remote home at which it is performed (R217, R320). -/
def askStore (l i : Nat) (e : SbEntry) (s : State) : State :=
  let part := partOfCore l s
  if e.attr = 2 then (match (coreOf l s).wc with | w :: _ => wcReleaseOne l w s | [] => s)
  else if ownedStore l e.attr e.addr s then askLine e.addr true (.core l) part s
  else if isLocal e.addr s then askHome e.addr true s
  else if e.sent.isSome then s
  else
    let tag := freshTag s
    let s := sendReq 6 e.addr ([if e.bad then 7 else 1, BitVec.ofNat 8 e.data.length] ++ e.data) (.coreUc l) part s
    modCore l (fun c => { c with sb := c.sb.mapIdx (fun j x => if j = i then { x with sent := some tag } else x) }) s

/-- Entry `i` is performed at SYSTEM scope and leaves the buffer (R217); where its line is not ready, that is asked for and the entry
stays. -/
def finishEntry (l i : Nat) (s : State) : State :=
  match (coreOf l s).sb[i]? with
  | none => s
  | some e =>
    if storeReady l e s then sysStore l e (modCore l (fun c => { c with sb := c.sb.eraseIdx i }) s)
    else askStore l i e s

/-- A part of a combining buffer that was sent to its home is over. -/
def wcSent (l tag : Nat) (s : State) : State :=
  modCore l (fun c => { c with wc := c.wc.filterMap (fun w =>
    if w.out.contains tag then (if w.out = [tag] then none else some { w with out := w.out.filter (fun t => t != tag) }) else some w) }) s

/-- The answer to a store that was made at a remote home (R217): the entry, or the part of a combining buffer, is performed. -/
def storeDone (l tag : Nat) (s : State) : State :=
  match (coreOf l s).sb.findIdx? (fun e => e.sent == some tag) with
  | some i =>
    (match (coreOf l s).sb[i]? with
     | some e =>
       modCore l (fun c => { c with sb := c.sb.eraseIdx i }) (noteOld (e.fetchers l) e.addr (cohBytes e.addr e.data.length s) s)
     | none => s)
  | none => wcSent l tag s

/-- A store whose remote home is unreachable is dropped (14 R318). -/
def storeDropped (l tag : Nat) (s : State) : State :=
  match (coreOf l s).sb.findIdx? (fun e => e.sent == some tag) with
  | some i => modCore l (fun c => { c with sb := c.sb.eraseIdx i }) s
  | none => wcSent l tag s

/-- A place in the order of staged entries. -/
def insertPair (x : Nat × Nat) : List (Nat × Nat) → List (Nat × Nat)
  | [] => [x]
  | y :: t => if x.1 ≤ y.1 then x :: y :: t else y :: insertPair x t

/-- The entries of the cluster and partition of core l that are performed at CLUSTER scope only, in their order: place, core. -/
def stagedList (l : Nat) (s : State) : List (Nat × Nat) :=
  let p := partOfCore l s
  ((s.cpu.core.filter (fun e => e.1 / 16 == l / 16 && partOfCore e.1 s == p)).flatMap (fun e =>
    e.2.sb.filterMap (fun x => x.cluster.map (fun q => (q, e.1))))).foldl (fun t x => insertPair x t) []

/-- Perform the staged entries of the cluster and partition of core l at SYSTEM scope, in their order, as far as they may be. -/
def flushStaged (l : Nat) (s : State) : State :=
  (stagedList l s).foldl (fun s e =>
    match (coreOf e.2 s).sb.findIdx? (fun x => x.cluster == some e.1) with
    | some i => if mayPerform e.2 i true s then finishEntry e.2 i s else s
    | none => s) s

/-- The stores of a core that its cluster's point of coherence performs are performed there in program order, as far as they may be: those
that are made at the home go there (R224). -/
def drainCluster (l : Nat) (s : State) : State :=
  (List.range (coreOf l s).sb.length).foldl (fun s i => if mayPerform l i false s then stageEntry l i s else s) s

/-- From entry `i` on, at most `n` steps: the WC stores in a core's store buffer enter combining buffers, and those that are made at the
home go there, as far as they may. -/
def moveDirect (l : Nat) : Nat → Nat → State → State
  | 0, _, s => s
  | n + 1, i, s =>
    match (coreOf l s).sb[i]? with
    | none => s
    | some e =>
      let t := if !ownedStore l e.attr e.addr s && mayPerform l i true s then finishEntry l i s else s
      moveDirect l n (if (coreOf l t).sb.length < (coreOf l s).sb.length then i else i + 1) t

/-- Every store of a core is performed at SYSTEM scope. -/
def drained (l : Nat) (s : State) : Bool := (coreOf l s).sb.isEmpty && (coreOf l s).wc.isEmpty

/-- At most `n` rounds of performing what the order of a core's stores lets be performed at SYSTEM scope. -/
def drainRounds (l : Nat) : Nat → State → State
  | 0, s => s
  | n + 1, s =>
    if drained l s then s
    else
      let s := flushStaged l (drainCluster l s)
      drainRounds l n (wcRelease l (moveDirect l (coreOf l s).sb.length 0 s))

/-- The store buffer and the combining buffers of a core are drained as far as their lines are ready (R224, R238): each round
performs at least the stores of one fence epoch. -/
def drainSystem (l : Nat) (s : State) : State := drainRounds l ((coreOf l s).sb.length + (coreOf l s).wc.length + 1) s

/-- A core holds a store that no cluster's point of coherence performs: WC, or made at the home. -/
def homeStores (l : Nat) (s : State) : Bool :=
  (coreOf l s).sb.any (fun e => !ownedStore l e.attr e.addr s) || !(coreOf l s).wc.isEmpty

/-- Drained to a scope, as far as the lines are ready: 0 CORE, 1 CLUSTER, 2 SYSTEM. -/
def drainScope (l scope : Nat) (s : State) : State :=
  if scope = 0 then s
  else if scope = 1 && !homeStores l s then drainCluster l s
  else drainSystem l s

/-- Every store of a core is performed at a scope. -/
def drainedTo (l scope : Nat) (s : State) : Bool :=
  scope == 0 || drained l s || (scope == 1 && !homeStores l s && (coreOf l s).sb.all (fun e => e.cluster.isSome))

/-- The store buffer is lost, with the combining buffers (R238). -/
def loseStores (l : Nat) (s : State) : State := modCore l (fun c => { c with sb := [], wc := [] }) s

/-- A core's stores are lost, and the loss is recorded in the fault log where there were any (R188, R238). -/
def loseStoresLogged (l : Nat) (s : State) : State :=
  let c := coreOf l s
  if c.sb.isEmpty && c.wc.isEmpty then s else logState (srcSlot (slotOf l s)) c.sb.length (loseStores l s)

/-! ### Cache maintenance (11 R246 to R253) -/

/-- CWB: every dirty copy of a line is written to the home and stays valid; held copies of re-enabled caches too (R246). A copy
in a disabled cache is invalidated without write-back, and the L2's stays where only the L1D is disabled (R250). -/
def cwbLine (line : Nat) (s : State) : State :=
  let s := writeBackLine line s
  (s.cpu.core.map (·.1)).foldl (fun s l =>
    let c := coreOf l s
    if (tget none line c.held1).isNone && (tget none line c.held2).isNone then s
    else
      let s := evictHeld l line s
      modCore l (fun c => { c with
        l1d := if dataCached c then c.l1d else cacheDrop geoL1D line c.l1d
        l2 := if l2On c then c.l2 else cacheDrop geoL2 line c.l2
        held1 := tset none line none c.held1, held2 := tset none line none c.held2 }) s) s

/-- Every copy of a line in any private cache is invalidated without write-back (CINV, R246, R250). -/
def invLine (line : Nat) (s : State) : State :=
  let s := discardIf (fun a _ => lineOf a == line) s
  onCores (fun _ => true) (fun c => { dropFromCore line c with held1 := tset none line none c.held1, held2 := tset none line none c.held2 }) s

/-- A core's private caches are written back and invalidated; a disabled one's contents are discarded (R248, R250, R253), and the
reservation on a line that leaves the L2 is lost (R235). -/
def wbInvCore (l : Nat) (s : State) : State :=
  let part := partOfCore l s
  let s := writeBackIf (fun _ d => d.core == l) (sliceBack (fun _ d => d.core == l) s)
  let s := ((coreOf l s).held1.map (·.1) ++ (coreOf l s).held2.map (·.1)).foldl (fun s ln => evictHeld l ln s) s
  let lines := cacheLines (coreOf l s).l2 ++ cacheLines (coreOf l s).l1i
  let s := modCore l (fun c => { lines.foldl (fun c ln => loseResv ln c) c with l1i := [], l1d := [], l2 := [], held1 := [], held2 := [] }) s
  lines.foldl (fun s ln => releaseRemote ln (.core l) part s) s

/-- What a cache holds when it is switched off: its lines with their bytes, dirty where this core owned dirty bytes (R249). -/
def snapshotLines (l : Nat) (lines : List Nat) (old : Tab (Option HeldLine)) (s : State) : Tab (Option HeldLine) :=
  lines.foldl (fun t ln =>
    if (tget none ln t).isSome then t
    else tset none ln (some { data := cohBytes (ln * 128) 128 s, dirty := lineDirty ln (fun d => d.core == l) s }) t) old

/-- Data caches of a core are switched off: their lines drop out of coherence with what they hold (R249). The L1D is switched off by
either bit, the L2 with `l2`; the L2 that stays on keeps its lines. The reservation is lost (R235). -/
def disableCaches (l : Nat) (l2 : Bool) (s : State) : State :=
  let c := coreOf l s
  let h1 := snapshotLines l (cacheLines c.l1d) c.held1 s
  let h2 := if l2 then snapshotLines l (cacheLines c.l2) c.held2 s else c.held2
  let inOff (a : Nat) : Bool := (tget none (lineOf a) h1).isSome || (l2 && (tget none (lineOf a) h2).isSome)
  let s := discardIf (fun a d => d.core == l && inOff a) s
  modCore l (fun c => { c with held1 := h1, held2 := h2, resv := none }) s

/-- A held line that no snoop has reached while its cache was off is coherent again when the cache is switched on: its dirty bytes are
the core's own once more (R249, R251). `has` says that the snoop filter still records it. -/
def rejoinLines (l : Nat) (has : Nat → Bool) (t : Tab (Option HeldLine)) (s : State) : State :=
  t.foldl (fun s e => match e.2 with
    | some h =>
      if has e.1 && h.dirty then
        ((List.range 128).zip h.data).foldl (fun s b =>
          { s with cpu := { s.cpu with dirty := tset none (e.1 * 128 + b.1) (some { core := l, val := b.2 }) s.cpu.dirty } }) s
      else s
    | none => s) s

/-- Data caches of a core are switched on again (R251): `l1` the L1D, `l2` the L2. What the snoop filter no longer records stays
held, to be served as it was. Lines that the L1I took in while the L2 was off leave it, as the L2 does not hold them (R240). -/
def enableCaches (l : Nat) (l1 l2 : Bool) (s : State) : State :=
  let c := coreOf l s
  let has1 (ln : Nat) : Bool := cacheHas geoL1D ln c.l1d
  let has2 (ln : Nat) : Bool := cacheHas geoL2 ln c.l2
  let s := if l2 then rejoinLines l has2 c.held2 s else s
  let s := if l1 then rejoinLines l has1 c.held1 s else s
  let stray := if l2 then (cacheLines c.l1i).filter (fun ln => !has2 ln) else []
  let s := modCore l (fun c => { c with
    l1i := stray.foldl (fun t ln => cacheDrop geoL1I ln t) c.l1i
    held1 := if l1 then c.held1.filter (fun e => !has1 e.1) else c.held1
    held2 := if l2 then c.held2.filter (fun e => !has2 e.1) else c.held2 }) s
  stray.foldl (fun s ln => releaseRemote ln (.core l) (partOfCore l s) s) s

end Sys2Proof.Machine
end

