-- ==== Sys2Proof/Machine/OpsHome.lean ====
section
/-! DEFINITION. The home of a line: the requests that remote nodes send it, their SNOOPs, answers, recalls and timeouts
(14_armature R317 to R321). The bodies of UNCACHED, SNOOP, DATA and DONE are the model's own layouts (log entry 41). -/

namespace Sys2Proof.Machine

/-- A message of this node under the epoch in force. -/
def ownMsg (dest kind tag addr : Nat) (body : List Byte) (s : State) : Msg :=
  { via := 0, vc := (kindVc kind).getD 3, dest := dest, src := s.arm.node.getD 0, kind := kind, tag := tag, epoch := decide (s.arm.epoch % 2 = 1), resent := false,
    addr := addr, body := body }

/-- A prefetched line comes into the L2 of its core, and into its L1D (11 R246). -/
def prefDone (who : Agent) (line : Nat) (part : Option Nat) (s : State) : State :=
  match who with
  | .pref l l1 =>
    if !l2On (coreOf l s) then s
    else if l1 && dataCached (coreOf l s) then cacheFill l line false part s
    else fillL2 l line part s
  | _ => s

/-- Answer a request and keep the answer for a repeat (R317); this module's own request needs none, and is over. -/
def answer (req : Msg) (kind : Nat) (body : List Byte) (s : State) : State :=
  if req.src = s.arm.node.getD 0 then
    let r := s.arm.reqs.find? (fun r => r.msg.dest == req.src && r.msg.tag == req.tag)
    (fun s => match r with | some r => if r.msg.kind ≤ 4 then prefDone r.who (r.msg.addr / 128) r.part s else s | none => s)
    { s with arm := { s.arm with reqs := s.arm.reqs.filter (fun r => !(r.msg.dest == req.src && r.msg.tag == req.tag)) } }
  else
    let m := ownMsg req.src kind req.tag req.addr body s
    forwardMsg m none { s with arm := { s.arm with answered := tset none (req.src * 65536 + req.tag) (some m) s.arm.answered } }

/-- A line as its home holds it, with its poison, every local dirty copy written back first. -/
def homeLine (line : Nat) (s : State) : List Byte × Bool × State :=
  let s := snoopRead none line (writeBackLine line s)
  (cohBytes (line * 128) 128 s, linePoisoned line s, s)

/-- Every local copy of a line is written back and invalidated (R320). -/
def dropLocal (line : Nat) (s : State) : State :=
  onCores (fun _ => true) (fun c => dropFromCore line (loseResv line c)) (writeBackLine line s)

/-- A whole line reaches the home from a holder, an access of its slice (R242). -/
def homeStoreLine (line : Nat) (data : List Byte) (poison : Bool) (s : State) : State :=
  let s := sliceUse line none s
  let s := noteOld (.others none) (line * 128) (cohBytes (line * 128) 128 s) s
  setPoison line poison (storeAll (line * 128) data s)

/-- Answer a request with the line from this home, an access of its slice for the partition that the line belongs to (R242, R244). -/
def answerLine (req : Msg) (s : State) : State :=
  let h := homeLine (req.addr / 128) (sliceUse (req.addr / 128) (partOfAddr req.addr s) s)
  answer req 8 (dataBody h.1 h.2.1) h.2.2

/-- The directory bit of a node; this module itself is never in its own directory. -/
def nodeBit (n : Nat) (s : State) : Nat := if n = s.arm.node.getD 0 then 0 else 2 ^ n

/-- The entry of a line with holders, none where there is none. -/
def dirPut (line : Nat) (owned : Bool) (holders : Nat) (s : State) : State :=
  setDir line (if holders = 0 then none else some { line := line, owned := owned, holders := holders }) s

/-- Ownership of a line passes to a requester (R320). -/
def finishOwn (m : Msg) (s : State) : State :=
  let line := m.addr / 128
  let up := m.kind == 4 && (match dirOf line s with | some e => !e.owned && e.holders.testBit m.src | none => false)
  let s := dropLocal line s
  let s := if up then answer m 9 [] s else answerLine m s
  dirPut line true (nodeBit m.src s) s

/-- Reads and writes of an UNCACHED request, the line's slice used for the partition that the line belongs to (R242, R244). -/
def uncachedWrite (addr : Nat) (data : List Byte) (s : State) : State := homeWrite (.others none) (partOfAddr addr s) addr data s

/-- What an UNCACHED request does at the home once no holder keeps it from it (R304; 10 R233): 0 read, 1 write, 2 CAS or CASQ, 3 LAAD, 5
a write that marks the line poisoned (21 R480), 6 a look at the line's poison, 7 a write that leaves its line poisoned (20 R461), 11 a
prefetch into the home slice (11 R246), 12 the comparison of a CAS or CASQ. -/
def uncachedAt (m : Msg) (s : State) : State :=
  let op := natAt m.body 0 1
  let n := natAt m.body 1 1
  let line := m.addr / 128
  let part := partOfAddr m.addr s
  let old := cohBytes m.addr n s
  let bad := linePoisoned line s
  let touch (s : State) : State := sliceUse line part (cleanLine none line s)
  if op = 0 then answer m 8 (dataBody old bad) (touch s)
  else if op = 1 then answer m 9 [] (uncachedWrite m.addr (bytesAt m.body 2 n) (touch s))
  else if op = 5 then answer m 9 [] (setPoison line true (touch s))
  else if op = 6 then answer m 8 (dataBody [] bad) s
  else if op = 7 then answer m 9 [] (setPoison line true (uncachedWrite m.addr (bytesAt m.body 2 n) (touch s)))
  else if op = 11 then answer m 9 [] (sliceUse line part s)
  else if op = 12 || bad then answer m 8 (dataBody old bad) (sliceUse line part s)
  else if op = 2 then
    answer m 8 (dataBody old false) (if old = bytesAt m.body 2 n then uncachedWrite m.addr (bytesAt m.body (2 + n) n) (touch s) else sliceUse line part s)
  else
    answer m 8 (dataBody old false) (uncachedWrite m.addr (beBytes 8 (beNat old + natAt m.body 2 8)) (touch s))

/-- The nodes whose copies an UNCACHED request needs gone, or, on the left, an owner that only has to give the line's data: a CAS that does
not store, and a look at the line, end no copy (10 R233). -/
def uncachedNeed (m : Msg) (s : State) : Sum Nat Nat :=
  let op := natAt m.body 0 1
  match dirOf (m.addr / 128) s with
  | none => .inr 0
  | some e =>
    if op = 11 then .inr 0
    else if op = 6 || op = 12 || op = 2 then
      if e.owned then .inl e.holders
      else if op = 2 && cohBytes m.addr (natAt m.body 1 1) s == bytesAt m.body 2 (natAt m.body 1 1) then .inr e.holders
      else .inr 0
    else .inr e.holders

/-- The other members of the fabric, as a mask: the modules on which cores of a partition may hold a line (11 R246). -/
def otherNodes (s : State) : Nat :=
  ((s.arm.db.filterMap (fun e => e.2.map (fun _ => e.1))).filter (fun n => n != s.arm.node.getD 0)).foldl (fun k n => k ||| 2 ^ n) 0

/-- What cache maintenance does to the private caches of this module: 8 CWB, 9 CWBINV, 10 CINV (11 R246, R250). -/
def maintHere (op line : Nat) (s : State) : State :=
  if op = 8 then cwbLine line s else if op = 9 then invLine line (cwbLine line s) else invLine line s

/-- The end of a cache maintenance operation at the home: its own caches, and the directory. -/
def maintDone (m : Msg) (s : State) : State :=
  let op := natAt m.body 0 1
  let line := m.addr / 128
  let s := maintHere op line s
  let holders := ((dirOf line s).map (·.holders)).getD 0
  answer m 9 [] (dirPut line false (if op = 8 then holders else 0) s)

/-- The entry that a full directory set gives up for a line: the least recently used (R321). -/
def recallVictim (line : Nat) (s : State) : Option DirEntry :=
  let es := tget [] (dirKey line) s.arm.dir
  if es.length < 16 ∨ es.any (fun e => e.line == line) then none else es.getLast?

/-- The Patina counter of directory recalls of a slice (21 R491). -/
def recallCounter (slice : Nat) : Nat := 0x270 + slice

/-- An entry is recalled: every holder gives the line up (R321). -/
def recallEntry (e : DirEntry) (s : State) : State :=
  let s := patina (recallCounter (sliceOf (physOfAddr (e.line * 128)))) s
  let s := onCores (fun _ => true) (loseResv e.line) s
  snoopHolders e.line 3 e.holders (selfReq 3 (e.line * 128) [] s) true s

/-- A request waits at its own line for the recall of another (R321), so that later ones for its line wait behind it (R320). -/
def awaitRoom (line victim : Nat) (m : Msg) (s : State) : State :=
  setTxn line (some { req := m, waiting := 0, since := s.tor.tor, forRecall := false, room := some victim }) s

/-- SNOOPs that a home sends for a request which it answers itself. -/
def snoopFor (act nodes : Nat) (m : Msg) (s : State) : State :=
  let line := m.addr / 128
  let s := snoopHolders line act nodes (selfReq 6 m.addr [] s) false s
  setTxn line ((txnOf line s).map (fun t => { t with req := m })) s

/-- The home serves a request for a line of its own (R320). An UNCACHED write-through store comes from the owner of its line, whose copy
it leaves valid, and has no effect from any other node (11 R243). -/
def homeServe (m : Msg) (s : State) : State :=
  let line := m.addr / 128
  let entry := dirOf line s
  let holders := (entry.map (·.holders)).getD 0
  let owned := (entry.map (·.owned)).getD false
  let mine := owned && holders.testBit m.src
  let op := natAt m.body 0 1
  if (txnOf line s).isSome then queueReq line m s
  else if physKind (physOfAddr m.addr) s != .dram then
    let p := partOfAddr m.addr s
    let s := raisePart 0x0B p m.addr s
    if m.kind = 5 ∨ (m.kind = 6 ∧ unDone op) then answer m 9 [] s
    else answer m 8 (dataBody (List.replicate (if m.kind = 6 then natAt m.body 1 1 else 128) 0) true) s
  else if m.kind ≤ 4 ∧ m.src ≠ s.arm.node.getD 0 ∧ (recallVictim line s).isSome then
    (match recallVictim line s with
     | some e => awaitRoom line e.line m (if (txnOf e.line s).isSome then s else recallEntry e s)
     | none => s)
  else match m.kind with
    | 2 =>
      if owned && !mine then snoopHolders line 0 holders m false s
      else dirPut line false (holders ||| nodeBit m.src s) (answerLine m s)
    | 5 =>
      if mine then
        let d := dataOf m.body
        answer m 9 [] (dirPut line false 0 (homeStoreLine line d.1 d.2 s))
      else answer m 9 [] s
    | 6 =>
      if op = 4 then
        let d := dataOf (m.body.drop 1)
        answer m 9 [] (if mine then homeStoreLine line d.1 d.2 s else s)
      else if 8 ≤ op ∧ op ≤ 10 then
        if otherNodes s = 0 then maintDone m s else snoopFor (op - 4) (otherNodes s) m s
      else match uncachedNeed m s with
        | .inl owner => snoopFor 0 owner m s
        | .inr hs => if hs = 0 then uncachedAt m s else snoopFor 3 hs m s
    | _ =>
      if owned then (if mine then finishOwn m s else snoopHolders line 1 holders m false s)
      else
        let others := holders - (holders &&& nodeBit m.src s)
        if others = 0 then finishOwn m s else snoopHolders line 2 others m false (dropLocal line s)

/-- The requests queued for a line are served in order of arrival. -/
def homeDrain (line : Nat) (s : State) : State :=
  let q := tget [] line s.arm.queue
  q.foldl (fun s m => homeServe m s) { s with arm := { s.arm with queue := tset [] line [] s.arm.queue } }

/-- The requests that waited for the recall of a line, or for what it was busy with, are served, each with those behind it (R320, R321). -/
def serveRoom (victim : Nat) (s : State) : State :=
  (s.arm.txn.filterMap (fun e => e.2.bind (fun t => if t.room == some victim then some (e.1, t.req) else none))).foldl
    (fun s x => homeDrain x.1 (homeServe x.2 (setTxn x.1 none s))) s

/-- A departing module recalls an entry whose request has completed (R325, step 2). -/
def leaveRecall (line : Nat) (s : State) : State :=
  match dirOf line s with
  | some e => if s.arm.fstate = 5 ∧ e.holders ≠ 0 ∧ (txnOf line s).isNone then recallEntry e s else s
  | none => s

/-- A home's request completes: every holder that it waited for has answered (R320). `supplied` says that a holder sent the line
to the requester. -/
def homeComplete (line : Nat) (supplied : Bool) (s : State) : State :=
  match txnOf line s with
  | none => s
  | some t =>
    let m := t.req
    let entry := dirOf line s
    let holders := (entry.map (·.holders)).getD 0
    let owned := (entry.map (·.owned)).getD false
    let s := setTxn line none s
    let s :=
      if t.forRecall then dirPut line false 0 s
      else if m.kind = 2 then
        let s := if supplied then s else answerLine m s
        dirPut line false (holders ||| nodeBit m.src s) s
      else if m.kind = 6 then
        let op := natAt m.body 0 1
        if 8 ≤ op ∧ op ≤ 10 then maintDone m s
        else homeServe m (dirPut line false (if owned && (op == 2 || op == 6 || op == 12) then holders else 0) s)
      else if owned then
        let s := if supplied then s else answerLine m s
        dirPut line true (nodeBit m.src s) (dropLocal line s)
      else finishOwn m (dirPut line false (holders &&& nodeBit m.src s) s)
    serveRoom line (leaveRecall line (homeDrain line s))

/-- A holder has answered the SNOOP of a tag from this home (R317): with the line, or without data; `missed` says that it had no copy to
supply. -/
def snoopAnswered (line from_ tag : Nat) (data : Option (List Byte × Bool)) (missed : Bool) (s : State) : State :=
  match txnOf line s with
  | none => s
  | some t =>
    if !t.waiting.testBit from_ || !t.tags.contains (from_, tag) then s
    else
      let s := match data with | some d => homeStoreLine line d.1 d.2 s | none => s
      let t := { t with waiting := t.waiting - 2 ^ from_ }
      let s := setTxn line (some t) s
      if t.waiting = 0 then homeComplete line (!missed) s else s

/-- A holder's copy of a remote line, every local dirty byte in it; or the line in a write-back under way (R320; 11 R254). -/
def heldCopy (line : Nat) (s : State) : Option (List Byte × Bool × Bool) :=
  match tget none line s.arm.rlines with
  | some r => some ((List.range 128).map (fun i => cohByte (line * 128 + i) s), r.poison, r.owned)
  | none => (wbBuffer line s).map (fun d => (d.1, d.2, true))

/-- This module gives up its copy of a remote line: its cores' copies and reservations go with it. -/
def dropRemote (line : Nat) (s : State) : State :=
  let s := discardIf (fun a _ => lineOf a == line) s
  let s := onCores (fun _ => true) (fun c => dropFromCore line (loseResv line c)) s
  { s with arm := { s.arm with rlines := tset none line none s.arm.rlines } }

/-- A SNOOP for cache maintenance reaches a module (11 R246, R250): 4 CWB, 5 CWBINV, 6 CINV. An owned copy's data goes home with the first
two; the copy stays valid with the first. -/
def snoopMaint (m : Msg) (act : Nat) (s : State) : State :=
  let line := m.addr / 128
  let s := maintHere (act + 4) line s
  let d := if act = 6 then none else (heldCopy line s).filter (fun d => d.2.2)
  let s := if act = 4 then
      { s with arm := { s.arm with rlines := tset none line ((tget none line s.arm.rlines).map (fun r => { r with owned := false })) s.arm.rlines } }
    else dropRemote line s
  forwardMsg (match d with
    | some d => ownMsg m.src 8 m.tag m.addr (dataBody d.1 d.2.1) s
    | none => ownMsg m.src 9 m.tag m.addr [] s) none s

/-- A SNOOP reaches a holder (R320, R321). -/
def snoopServe (m : Msg) (s : State) : State :=
  let line := m.addr / 128
  let act := natAt m.body 0 1
  let who := natAt m.body 1 1
  let tag := natAt m.body 2 2
  let reply (kind : Nat) (body : List Byte) (s : State) : State := forwardMsg (ownMsg m.src kind m.tag m.addr body s) none s
  let supply (d : List Byte × Bool × Bool) (s : State) : State :=
    if who = m.src then s else forwardMsg (ownMsg who 8 tag m.addr (dataBody d.1 d.2.1) s) none s
  if 4 ≤ act then snoopMaint m act s
  else match heldCopy line s with
  | none => reply 9 (if act ≤ 1 then [1] else []) s
  | some d =>
    if act = 0 then
      let s := snoopRead none line (writeBackLine line s)
      let s := match tget none line s.arm.rlines with
        | some r => { s with arm := { s.arm with rlines := tset none line (some { r with owned := false }) s.arm.rlines } }
        | none => s
      reply 8 (dataBody d.1 d.2.1) (supply d s)
    else if act = 1 then
      let s := supply d (dropRemote line s)
      if who = m.src then reply 8 (dataBody d.1 d.2.1) s else reply 9 [] s
    else if act = 3 ∧ d.2.2 then reply 8 (dataBody d.1 d.2.1) (dropRemote line s)
    else reply 9 [] (dropRemote line s)

end Sys2Proof.Machine
end

