-- ==== Sys2Proof/Machine/Interrupt.lean ====
section
/-! DEFINITION. Taking an interruption as one operation, the return from one, the conditions a boundary may take and their
order, and the TCA fault (08_program_state R171 to R190). -/

namespace Sys2Proof.Machine

/-! ### Registers of a core -/

/-- Read g n: g0 reads as zero (04 R86). -/
def getG (c : Core) (n : Nat) : Long := if n = 0 then 0 else tget 0 n c.g

/-- Write g n: a write to g0 is discarded (04 R86). -/
def setG (n : Nat) (v : Long) (c : Core) : Core := if n = 0 then c else { c with g := tset 0 n v c.g }

/-- Read f n. -/
def getF (c : Core) (n : Nat) : Quad := tget 0 n c.f

/-- Write f n. -/
def setF (n : Nat) (v : Quad) (c : Core) : Core := { c with f := tset 0 n v c.f }

/-- The value of a pair gN:gN+1 (04 R87). -/
def getPair (c : Core) (n : Nat) : Nat := (getG c n).toNat * 2 ^ 64 + (getG c (n + 1)).toNat

/-- Write a pair. -/
def setPair (n v : Nat) (c : Core) : Core := setG (n + 1) (BitVec.ofNat 64 v) (setG n (BitVec.ofNat 64 (v >>> 64)) c)

/-- The condition code, TSW[49:48] (R171). -/
def getCC (c : Core) : BitVec 2 := BitVec.ofNat 2 (fld c.tsw 49 48)

/-- Replace a field of a long. -/
def setFld (w : Long) (hi lo v : Nat) : Long := (w &&& ~~~(maskBits hi lo)) ||| pack [(hi, lo, v)]

/-- Set the condition code. -/
def setCC (v : BitVec 2) (c : Core) : Core := { c with tsw := setFld c.tsw 49 48 v.toNat }

/-- The fields of TSW (R171). -/
def tswUser (c : Core) : Bool := lbit c.tsw 63
def tswXlate (c : Core) : Bool := lbit c.tsw 62
def tswIom (c : Core) : Bool := lbit c.tsw 61
def tswExm (c : Core) : Bool := lbit c.tsw 60
def tswMcm (c : Core) : Bool := lbit c.tsw 59
def tswFom (c : Core) : Bool := lbit c.tsw 58
def tswDom (c : Core) : Bool := lbit c.tsw 57
def tswKey (c : Core) : Nat := fld c.tsw 55 52

/-- A TSW image has no reserved bit set (R172). -/
def tswOk (w : Long) : Bool := fld w 51 50 == 0 && fld w 47 0 == 0

/-- Bits 63:48 all equal bit 47 (04 R101, 09 R191). -/
def canonical (a : Nat) : Bool := bits a 63 47 == 0 || bits a 63 47 == 2 ^ 17 - 1

/-- A valid group address (04 R79, R101). -/
def pcOk (a : Nat) : Bool := a % 4 == 0 && canonical a

/-- `COREID` (R174). -/
def coreId (l : Nat) (s : State) : Long :=
  pack [(63, 56, l), (55, 48, (partOfCore l s).getD 0), (47, 32, slotOf l s)]

/-- `CACHESTAT` (11 R247). -/
def cacheStat (c : Core) : Long :=
  let off1 := lbit c.cachectl 0 || lbit c.cachectl 1
  pack [(63, 63, b2n c.staleRisk), (62, 62, b2n (off1 && !c.held1.isEmpty)), (61, 61, b2n (lbit c.cachectl 1 && !c.held2.isEmpty))]

/-- Read control register cn; an unassigned register reads 0 (R173). -/
def readCr (l n : Nat) (s : State) : Long :=
  let c := coreOf l s
  match n with
  | 0 => c.tcaBase | 1 => c.tsw | 2 => c.rtsw | 3 => c.rpc | 4 => c.fpc | 5 => c.iosub | 6 => coreId l s
  | 8 => tget 0 0 c.torcmp | 9 => tget 0 1 c.torcmp | 10 => tget 0 2 c.torcmp | 11 => tget 0 3 c.torcmp | 12 => c.torctl
  | 16 => c.xlRoot | 17 => c.xlInfo | 18 => c.xlProbe | 19 => c.xlResult | 20 => c.cachectl | 21 => cacheStat c
  | _ => 0

/-! ### Stores of a core into its buffer (10 R237) -/

/-- A store of `n` bytes at an address is performed as a whole, or by aligned longs (R221). -/
def wholeStore (a n : Nat) : Bool := decide (n ∈ [1, 2, 4, 8, 16]) && a % n == 0

/-- The bytes of a store that are performed together at least (R221, R222): `bytes` says that each of them stands alone. -/
def storeGrain (a n : Nat) (bytes : Bool) : Nat := if bytes || !wholeStore a n then 1 else if n = 16 then 8 else n

/-- The entries of a store: one for an aligned store of up to 16 bytes, else one for each aligned long touched (R237). -/
def splitStore (a : Nat) (data : List Byte) : List (Nat × List Byte) :=
  if wholeStore a data.length then [(a, data)]
  else (List.range ((a + data.length - 1) / 8 - a / 8 + 1)).map (fun k =>
    let lo := max a ((a / 8 + k) * 8)
    let hi := min (a + data.length) ((a / 8 + k + 1) * 8)
    (lo, (data.drop (lo - a)).take (hi - lo)))

/-- The place of an entry in the buffer, which the pieces of one entry share (R237). -/
def SbEntry.slot (e : SbEntry) : Nat × Nat := (e.seq, e.place)

/-- The entries of the buffer that are in use (R237). -/
def sbCount (sb : List SbEntry) : Nat := (sb.foldl (fun seen e => if seen.contains e.slot then seen else e.slot :: seen) []).length

/-- Put a store of a committed group into the buffer (R217, R237), remembering what a later fetch may still decode (04 R96). A UC store
of single bytes makes one request for each (R220, R222). -/
def bufferStore (l attr grain after : Nat) (strl : Option Nat) (a : Nat) (data : List Byte) (s : State) : State :=
  let q := s.cpu.oldSeq
  let s := noteOld (.own l) a (coreBytes l a data.length s) s
  let alone := grain = 1 && !ownedStore l attr a s
  let pieces (e : Nat × Nat × List Byte) : List (Nat × Nat × List Byte) :=
    if alone then ((List.range e.2.2.length).zip e.2.2).map (fun b => (e.1, e.2.1 + b.1, [b.2])) else [e]
  let entries := splitStore a data
  modCore l (fun c => { c with sb := c.sb ++ (((List.range entries.length).zip entries).flatMap pieces).map (fun e =>
    { addr := e.2.1, data := e.2.2, attr := attr, after := after, epC := c.epC, epS := c.epS, strl := strl, cluster := none, seq := q,
      grain := grain, sent := none, place := e.1, bad := false }) }) s

/-! ### Storage as the walker and an interruption read it -/

/-- What such a read answers. -/
inductive SysRes where
  | val (b : List Byte) (s : State)
  | poison (s : State)
  | wait (s : State)
deriving DecidableEq, Repr

/-- No earlier store of the core keeps an uncached read from being made: the UC accesses of a core are made in program order, and one of
the same bytes at a remote home comes after them (R219). -/
def ucClear (l attr a n : Nat) (s : State) : Bool :=
  let c := coreOf l s
  c.sb.all (fun e => !(ucOrdered l attr s && ucOrdered l e.attr s) && (isLocal a s || !overlaps e.addr e.data.length a n)) &&
  (isLocal a s || c.wc.all (fun w => w.line != lineOf a))

/-- One request of core l for an uncached read of a remote home; `n` 0 only looks at the line's poison (the model's own layout, log entry
41). -/
def sysAsk (l a n : Nat) (s : State) : State :=
  let tag := freshTag s
  let s := sendReq 6 a [if n = 0 then 6 else 0, BitVec.ofNat 8 n] (.coreUc l) (partOfCore l s) s
  modCore l (fun c => { c with sysBuf := c.sysBuf ++ [{ tag := tag, addr := a, n := n, data := none, poison := false }] }) s

/-- The answer to such a request, which is kept until the group or the interruption is through; it is asked for when no earlier store keeps
it back (R219). -/
def sysAnswer (l attr a n : Nat) (s : State) : SysRes :=
  match (coreOf l s).sysBuf.find? (fun u => u.addr == a && u.n == n) with
  | some u => (match u.data with
    | some d => if u.poison then .poison s else .val d s
    | none => .wait s)
  | none =>
    let s := if ucClear l attr a (max 1 n) s then s else drainSystem l s
    .wait (if ucClear l attr a (max 1 n) s then sysAsk l a n s else s)

/-- Read `n` bytes under a storage attribute (08 R175; 09 R197): of a remote home with one UC request; at this home, for an uncached
access, after every copy has gone back (11 R243); else from the line, which the L2 takes in. -/
def sysRead (l attr a n : Nat) (s : State) : SysRes :=
  let part := partOfCore l s
  if madeAtHome l attr a s && !isLocal a s then sysAnswer l attr a n s
  else if !remoteReady a false s then .wait (askLine a false (.core l) part s)
  else if isLocal a s && physKind (physOfAddr a) s != .dram then
    .poison (raisePart 0x0B part a s)
  else if linePoisoned (lineOf a) s then .poison s
  else if madeAtHome l attr a s then
    .val (coreBytes l a n s) (sliceUse (lineOf a) part (cleanLine none (lineOf a) s))
  else .val (coreBytes l a n s) (if l2On (coreOf l s) && remoteReady a false s then fillL2 l (lineOf a) part s else s)

/-! ### The Thread Control Area (R175) -/

/-- The Armature address of the TCA and its storage attribute, none where it lies outside every extent. -/
def tcaPlace (l : Nat) (s : State) : Option (Nat × Nat) :=
  match partOfCore l s with
  | none => none
  | some p => match extentOf p (coreOf l s).tcaBase.toNat s with
    | none => none
    | some e => some (e.phys + ((coreOf l s).tcaBase.toNat - e.real), extAttr e)

/-- A condition that an interruption delivers: its class, the code fields it writes at TCA offsets, and the return PC. -/
structure IntrInfo where
  k : Nat
  writes : List (Nat × List Byte)
  ret : Long
deriving DecidableEq, Repr

/-- Information fields of a program interruption (R175, R180). -/
def pgmInfo (p : PgmPend) : List (Nat × List Byte) :=
  [(0xA0, beBytes 2 p.code ++ beBytes 1 p.xc ++ beBytes 5 0), (0xA8, beBytes 8 p.addr)]

/-- Information fields of a supervisor call. -/
def svcInfo (code : Nat) : List (Nat × List Byte) := [(0xB0, beBytes 2 code ++ beBytes 6 0)]

/-- Information fields of an external interruption (R186). -/
def extInfo (code src param : Nat) : List (Nat × List Byte) :=
  [(0xB8, beBytes 2 code ++ beBytes 2 src ++ beBytes 4 0), (0xC0, beBytes 8 param)]

/-- Information fields of an I/O interruption. -/
def ioInfo (subch cls param : Nat) : List (Nat × List Byte) :=
  [(0xC8, beBytes 2 subch ++ beBytes 1 cls ++ beBytes 5 0), (0xD0, beBytes 8 param)]

/-- `MC_CODE` (R187). -/
def mcCode (m : McPend) : Nat := m.code * 2 ^ 48 + m.valid * 2 ^ 43 + b2n m.merged * 2 ^ 42 + m.source

/-- Information fields of a machine check (R175, R187, R188). -/
def mcInfo (m : McPend) : List (Nat × List Byte) :=
  [(0xD8, beBytes 8 (mcCode m) ++ beBytes 8 m.tor ++ beBytes 8 m.addr ++ beBytes 16 0)]

/-- An exigent machine check goes to the lowest running core of a partition; with none left the partition is checkstopped (R188). -/
def exigGive (p : Nat) (m : McPend) (s : State) : State :=
  match lowestRunning p s with
  | some l => modCore l (fun c => { c with exig := c.exig ++ [m] }) s
  | none => makeDue m.source p [2] s

/-- An exigent machine check of a partition (R188). Of a partition that is not RUNNING no core runs: no check is made, no checkstop follows,
and the loss shows in `CORE_STATUS` and at the partition's next START (DESIGN CHOICE, log entry 93: R188's last sentence speaks of a
partition that is left without a running core). -/
def exigOnPart (p code addr source valid : Nat) (s : State) : State :=
  if pstateOf p s != .running then s
  else exigGive p { code := code, addr := addr, source := source, tor := s.tor.tor, merged := false, valid := valid } s

/-- The checks that R188 addresses to the lowest running core of a partition and that are pending on a core which no longer runs are
taken by the lowest core that is still running (R178); where the partition is not RUNNING they are discarded. -/
def passChecks (l : Nat) (s : State) : State :=
  match partOfCore l s with
  | none => s
  | some p =>
    let c := coreOf l s
    let rep (m : McPend) : Bool := m.code == 2 || m.code == 3
    let exi (m : McPend) : Bool := m.code == 0x20 || m.code == 0x21
    let s := modCore l (fun c => { c with mcs := c.mcs.filter (fun m => !rep m), exig := c.exig.filter (fun m => !exi m) }) s
    if pstateOf p s != .running then s
    else
    let s := (c.mcs.filter rep).foldl (fun s m => mcGive p m s) s
    (c.exig.filter exi).foldl (fun s m => exigGive p m s) s

/-- What an attempt to take an interruption does: taken, stopped with TCA_FAULT, or waiting: for the TCA, for entries of the buffer,
or for the buffer to drain. -/
inductive Taken where
  | taken (s : State)
  | tcaFault (s : State)
  | wait (s : State)
deriving DecidableEq, Repr

/-- The core stops with TCA_FAULT: its stores are drained first, and the partition takes "Core stopped" (R178, R188). -/
def tcaFaultStop (l : Nat) (s : State) : Taken :=
  let s := drainSystem l s
  if !drained l s then .wait s
  else
    let s := modCore l (fun c => { c with run := .tcaFault, sysBuf := [], rep := none, attempts := 0 }) s
    let s := passChecks l s
    .tcaFault (match partOfCore l s with
      | some p => exigOnPart p 0x21 l (sourceNo 0x06 (srcSlot (slotOf l s))) 0 s
      | none => s)

/-- Stores made from here on are performed after every store made before (R177, R238). -/
def markStores (l : Nat) (s : State) : State := modCore l (fun c => { c with epC := c.epC + 1, epS := c.epS + 1 }) s

/-- The old state, the information fields and RTSW, RPC are written, and the new state is loaded (R177). -/
def exchange (l a attr : Nat) (i : IntrInfo) (newTsw newPc : Long) (s : State) : State :=
  let c := coreOf l s
  let s := markStores l (wcRelease l s)
  let s := dropGot (.core l) (fun _ => true) (modCore l (fun c => { c with resv := none }) s)
  let put (b : Nat) (d : List Byte) (s : State) : State := bufferStore l attr (storeGrain b d.length false) 0 none b d s
  let s := put (a + 0x20 * i.k) (beBytes 8 c.tsw.toNat) s
  let s := put (a + 0x20 * i.k + 8) (beBytes 8 i.ret.toNat) s
  let s := i.writes.foldl (fun s w => put (a + w.1) w.2 s) s
  modCore l (fun d => { d with
    rtsw := c.tsw, rpc := i.ret, tsw := newTsw, pc := newPc, run := .running, inRepn := false, rep := none, ucBuf := [], atomBuf := [], part := none,
    code := none, attempts := 0, sysBuf := [] }) s

/-- Store-buffer entries that an exchange takes (R237). -/
def exchangeNeed (a : Nat) (i : IntrInfo) : Nat :=
  i.writes.foldl (fun n w => n + (splitStore (a + w.1) w.2).length) 2

/-- Taking an interruption (R177, R178): the new state is read from the TCA and checked; then the reservation is lost, the combining
buffers are released, and the exchange is made. -/
def takeInterruption (l : Nat) (i : IntrInfo) (s : State) : Taken :=
  match tcaPlace l s with
  | none => tcaFaultStop l s
  | some (a, attr) =>
    match sysRead l attr (a + 0x20 * i.k + 0x10) 8 s with
    | .wait s => .wait s
    | .poison s => tcaFaultStop l s
    | .val t s => match sysRead l attr (a + 0x20 * i.k + 0x18) 8 s with
      | .wait s => .wait s
      | .poison s => tcaFaultStop l s
      | .val p s =>
        let newTsw : Long := BitVec.ofNat 64 (beNat t)
        let newPc : Long := BitVec.ofNat 64 (beNat p)
        if !tswOk newTsw || !pcOk newPc.toNat then tcaFaultStop l s
        else if 48 < sbCount (coreOf l s).sb + exchangeNeed a i then .wait s
        else .taken (exchange l a attr i newTsw newPc s)

/-- RFI: TSW and PC are loaded from c2 and c3 (R181, R182); the checks are those of the group. -/
def returnFrom (c : Core) : Core := { c with tsw := c.rtsw, pc := c.rpc }

/-! ### Conditions at a boundary (R179, R186) -/

/-- The lowest bit set among the low `n`. -/
def lowBit (v n : Nat) : Option Nat := findBelow n (fun i => v.testBit i)

/-- The external condition that comes first: comparator, external call, notice (R186). -/
inductive ExtCond where
  | cmp (n : Nat)
  | call (sender param : Nat)
  | notice (kind : Nat)
deriving DecidableEq, Repr

/-- The first pending external condition of a core. -/
def extPending (c : Core) : Option ExtCond :=
  match lowBit (fld c.torctl 7 4) 4 with
  | some n => some (.cmp n)
  | none => match c.extCall with
    | some (a, b) => some (.call a b)
    | none => (lowBit c.notices 4).map (fun k => .notice (k + 1))

/-- The offer that a core would take: the lowest subclass that it has enabled, the oldest of it (15 R352). -/
def offerFor (l : Nat) (s : State) : Option Offer :=
  match partOfCore l s with
  | none => none
  | some p =>
    let en := fld (coreOf l s).iosub 7 0
    let os := s.offers.filter (fun o => o.part == p && !o.taken && en.testBit o.cls)
    match (os.map (·.cls)).foldl min 8 with
    | 8 => none
    | k => os.find? (fun o => o.cls == k)

/-- A condition of a boundary. -/
inductive Cond where
  | exigent (m : McPend)
  | svc (code : Nat)
  | pgm (p : PgmPend)
  | mc (m : McPend)
  | ext (e : ExtCond)
  | io (o : Offer)
deriving DecidableEq, Repr

/-- The first enabled condition in the order of R179; under REPN rows 4 to 6 are held (04 R105). -/
def firstCond (l : Nat) (s : State) : Option Cond :=
  let c := coreOf l s
  match c.exig with
  | m :: _ => some (.exigent m)
  | [] =>
    match c.svc with
    | some k => some (.svc k)
    | none =>
      match c.pgm with
      | some p => some (.pgm p)
      | none =>
        if c.inRepn then none
        else
          match (if tswMcm c then c.mcs.head? else none) with
          | some m => some (.mc m)
          | none =>
            match (if tswExm c then extPending c else none) with
            | some e => some (.ext e)
            | none => if tswIom c then (offerFor l s).map .io else none

/-- The interruption of a condition, with return PC `ret` (R175, R176, R186). -/
def condInfo (l : Nat) (ret : Long) (c : Cond) (s : State) : IntrInfo :=
  match c with
  | .exigent m => { k := 2, writes := mcInfo m, ret := ret }
  | .mc m => { k := 2, writes := mcInfo m, ret := ret }
  | .svc code => { k := 1, writes := svcInfo code, ret := ret }
  | .pgm p => { k := 0, writes := pgmInfo p, ret := ret }
  | .ext (.cmp n) => { k := 3, writes := extInfo 0x1001 n (tget 0 n (coreOf l s).torcmp).toNat, ret := ret }
  | .ext (.call a b) => { k := 3, writes := extInfo 0x1002 a b, ret := ret }
  | .ext (.notice k) => { k := 3, writes := extInfo 0x1003 0 (k * 2 ^ 56), ret := ret }
  | .io o =>
    let base := match partOf o.part s with | some d => d.subchBase | none => 0
    { k := 4, writes := ioInfo (o.subch - base) o.cls o.param, ret := ret }

/-- A condition that is taken is no longer pending; a comparator stays pending while software leaves its bit (R186); an
intermediate offer ends, a final one is marked taken (15 R352). -/
def consumeCond (l : Nat) (c : Cond) (s : State) : State :=
  match c with
  | .exigent _ => modCore l (fun d => { d with exig := d.exig.tail }) s
  | .mc _ => modCore l (fun d => { d with mcs := d.mcs.tail }) s
  | .svc _ => modCore l (fun d => { d with svc := none }) s
  | .pgm _ => modCore l (fun d => { d with pgm := none }) s
  | .ext (.cmp _) => s
  | .ext (.call _ _) => modCore l (fun d => { d with extCall := none }) s
  | .ext (.notice k) => modCore l (fun d => { d with notices := d.notices - 2 ^ (k - 1) }) s
  | .io o =>
    if o.inter then { s with offers := s.offers.erase o }
    else { s with offers := s.offers.map (fun x => if x = o then { x with taken := true } else x) }

/-- Take the enabled conditions of a boundary one after another, each storing the new state of the one before it (R179): at
most `n`. The first return PC is the core's continuation address, which its PC holds. -/
def takeConds (l : Nat) : Nat → State → State
  | 0, s => s
  | n + 1, s =>
    match firstCond l s with
    | none => s
    | some c =>
      match takeInterruption l (condInfo l (coreOf l s).pc c s) s with
      | .wait s' => s'
      | .tcaFault s' => s'
      | .taken s' => takeConds l n (consumeCond l c s')

/-- An upper bound on the conditions that one boundary can take without a new group: each exchange consumes one, or masks. -/
def condBound (l : Nat) (s : State) : Nat :=
  let c := coreOf l s
  c.exig.length + c.mcs.length + s.offers.length + 16

/-- An interruption that the current TSW enables is pending (R183). -/
def condPending (l : Nat) (s : State) : Bool := (firstCond l s).isSome

/-- A core is at a boundary where a STOP of its partition or a Maquette halt is in effect (R179, 02 R43, 26 R572). -/
def coreHeld (l : Nat) (s : State) : Bool :=
  (coreOf l s).mqHalt || (match partOfCore l s with | some p => pstateOf p s != .running | none => true)

/-- A group or repeat has begun that a STOP, a halt or an interruption lets end: a REPN repeat, or a group of which an operation has
left the core (02 R43; 04 R95, R105; 16 R370; 20 R464). -/
def midGroup (c : Core) : Bool :=
  c.inRepn || c.held.isSome || c.ioHold.isSome || !c.ucBuf.isEmpty || !c.atomBuf.isEmpty || c.part.isSome

/-- A core has something to execute or to drain: in service, not recasting, and running or waiting (R179, 02 R43, 26 R572). -/
def coreLive (l : Nat) (s : State) : Bool :=
  operating s && decide (l < 192) && tget 0 l s.cpu.recState == 0 && (coreOf l s).losing.isNone &&
  (match (coreOf l s).run with
   | .running => true
   | .waiting _ => true
   | .gated _ => true
   | _ => false)

/-- A core stops at a boundary for a STOP of its partition or a halt: its store buffer is drained first, for which it may have to
wait, and its reservation is lost (02 R43; 10 R235, R238). -/
def stopCore (l : Nat) (s : State) : State :=
  let s := drainSystem l s
  if drained l s then
    modCore l (fun c => match c.run with
      | .lost => c
      | .tcaFault => c
      | _ => { c with run := .stopped, resv := none, rep := none, sysBuf := [], mqStep := false }) s
  else s

end Sys2Proof.Machine
end

