-- ==== Sys2Proof/Machine/Xlate.lean ====
section
/-! DEFINITION. Address translation and access checks: the table walk, the TLBs with the choice that the spec leaves, the checks
in their order, accessed and changed bits, and the probe (09_translation R191 to R215). -/

namespace Sys2Proof.Machine

/-- What an access does to its bytes (R200). -/
structure Acc where
  fetch : Bool
  store : Bool
  instr : Bool
deriving DecidableEq, Repr

def accLoad : Acc := ⟨true, false, false⟩
def accStore : Acc := ⟨false, true, false⟩
def accBoth : Acc := ⟨true, true, false⟩
def accInstr : Acc := ⟨true, false, true⟩

/-- Where an access goes when it may be made. -/
structure Place where
  /-- Partition real address. -/
  real : Nat
  /-- Armature address (R192). -/
  arm : Nat
  attr : Nat
  /-- Armature address of a leaf entry whose C bit the access has still to set (R202). -/
  setC : Option Nat
  size : Nat
deriving DecidableEq, Repr

/-- A place of the partition control window (02 R53), which an aligned long alone may reach (01 R21): the control-space offset, the
level of the leaf, the check of R198 after the sixth that the access fails, and the leaf entry whose C bit it has still to set. -/
structure CtlPlace where
  off : Nat
  level : Nat
  fail : Option (Nat × Nat)
  setC : Option Nat
deriving DecidableEq, Repr

/-- What translating and checking one address answers. -/
inductive XRes where
  | ok (p : Place)
  | ctl (p : CtlPlace)
  /-- A program interruption with its code, cause and level (R198). -/
  | exc (code cause level : Nat)
  /-- A table entry is poisoned: the real address of its line (R213). -/
  | poison (line : Nat)
  /-- A remote line has been asked for. -/
  | wait
deriving DecidableEq, Repr

/-- The index of a level (R194). -/
def walkIndex (va level : Nat) : Nat := bits va (12 + 9 * level - 1) (12 + 9 * (level - 1))

/-- The prefix of an address down to the index of a level. -/
def walkPrefix (va level : Nat) : Nat := bits va 47 (12 + 9 * (level - 1))

/-- What reading a table entry answers. -/
inductive EntryRes where
  | val (e : Long) (arm : Nat) (s : State)
  | noExtent
  | poison (line : Nat) (s : State)
  | wait (s : State)

/-- The walker reads the entry at a real address under the attribute of its extent, as core l sees storage (R197). -/
def readEntry (l p real : Nat) (s : State) : EntryRes :=
  match extentOf p real s with
  | none => .noExtent
  | some x =>
    let a := x.phys + (real - x.real)
    match sysRead l (extAttr x) a 8 s with
    | .val b s => .val (BitVec.ofNat 64 (beNat b)) a s
    | .poison s => .poison (real / 128 * 128) s
    | .wait s => .wait s

/-- What a walk answers: a leaf with its address and level, or the cause that ends it. -/
inductive WalkRes where
  | leaf (e : Long) (arm level : Nat)
  | exc (code cause level : Nat)
  | poison (line : Nat)
  | wait
deriving DecidableEq, Repr

/-- The bits of `REAL` below the page size of a level are 0 (R196). -/
def largeAligned (e : Long) (level : Nat) : Bool :=
  if level = 3 then fld e 29 12 == 0 else if level = 2 then fld e 20 12 == 0 else true

/-- What one entry of a walk decides (R196): a leaf, the next table, or an exception. -/
def entryStep (e : Long) (level : Nat) : Option (Nat × Nat) :=
  if !lbit e 0 then some (0x0202, 2)
  else if fld e 55 52 != 0 || lbit e 1 then some (0x0202, 3)
  else if lbit e 7 && (level == 4 || level == 1) then some (0x0202, 3)
  else if (lbit e 7 || level == 1) && !largeAligned e level then some (0x0202, 4)
  else none

/-- The level that `XL_INFO` records for a table entry in no extent, which is not read: the level of that entry, 4 for the table of `XL_ROOT`
(DESIGN CHOICE, log entry 94: R214 has 0 where no entry decided). -/
def noExtentLevel (lv : Nat) : Nat := lv

/-- The walk from a table (R196); a cached non-leaf entry may be used in place of the one in storage (R207, R212), which a free
choice decides. `fuel` is the level. -/
def walkGo (l p va : Nat) : Nat → Nat → State → WalkRes × State
  | 0, _, s => (.exc 0x0202 3 1, s)
  | level + 1, t, s =>
    let lv := level + 1
    let cached := ((coreOf l s).walk.find? (fun w => w.level == lv && w.pre == walkPrefix va lv)).map (·.next)
    let pick : Option Nat × State :=
      match cached with
      | some n => let b := drawBit s; (if b.1 then some n else none, b.2)
      | none => (none, s)
    match pick.1 with
    | some n => walkGo l p va level n pick.2
    | none =>
      let s := pick.2
      match readEntry l p (t + 8 * walkIndex va lv) s with
      | .noExtent => (.exc 0x0201 5 (noExtentLevel lv), s)
      | .poison x s => (.poison x, s)
      | .wait s => (.wait, s)
      | .val e a s =>
        match entryStep e lv with
        | some (code, cause) => (.exc code cause lv, s)
        | none =>
          if lbit e 7 || lv == 1 then (.leaf e a lv, s)
          else
            let n := fld e 51 12 * 4096
            let s := modCore l (fun c => { c with walk := { level := lv, pre := walkPrefix va lv, next := n } ::
                                              c.walk.filter (fun w => !(w.level == lv && w.pre == walkPrefix va lv)) }) s
            walkGo l p va level n s

/-- The low bits of a page of a level (R194). -/
def pageBits (level : Nat) : Nat := if level = 3 then 30 else if level = 2 then 21 else 12

/-- The checks 7 to 10 of R198 on a leaf, for an access: the code and cause of the first that fails. -/
def checkLeaf (acc : Acc) (user : Bool) (key : Nat) (e : Long) : Option (Nat × Nat) :=
  let breach := key != 0 && key != fld e 63 60 && (acc.store || lbit e 59)
  if user && !lbit e 56 then some (if acc.instr then 0x0204 else 0x0203, 8)
  else if acc.store && !lbit e 57 then some (0x0203, 7)
  else if breach then some (if acc.instr then 0x0204 else 0x0203, if acc.store then 9 else 0xA)
  else if acc.instr && !lbit e 58 then some (0x0204, 0xB)
  else none

/-- Where a real address lies for a partition: its extent, the control window, or nowhere (R192, 02 R53). -/
def realPlace (p real attr : Nat) (setC : Option Nat) (size : Nat) (level : Nat) (s : State) : XRes :=
  match extentOf p real s with
  | some x => .ok { real := real, arm := x.phys + (real - x.real), attr := max attr (extAttr x), setC := setC, size := size }
  | none =>
    if 0xFFFFF00000000 ≤ real ∧ real < 2 ^ 52 then .ctl { off := real - 0xFFFFF00000000, level := level, fail := none, setC := setC }
    else .exc 0x0201 6 level

/-- A store of the core, or of its cluster, that is not yet performed at SYSTEM scope covers a byte of an entry. -/
def entryStored (l a : Nat) (s : State) : Bool :=
  (coreOf l s).sb.any (fun e => overlaps e.addr e.data.length a 8) || (coreOf l s).wc.any (fun w => w.line == lineOf a) ||
  (List.range 8).any (fun i => (clusterByte l (a + i) s).isSome)

/-- The walker's atomic update of the A and C bits of an entry in storage, which the core may write (R201 to R203): bits 9 and 8 are in
byte 6. Stores to the entry that are on their way go first; none while they are not performed. -/
def setEntryBits (l a mask : Nat) (s : State) : Bool × State :=
  let s := if entryStored l a s then drainSystem l s else s
  if entryStored l a s then (false, s)
  else
    let v := cohByte (a + 6) s
    let v' := v ||| BitVec.ofNat 8 mask
    if v = v' then (true, s)
    else if isLocal a s then (true, homeWrite (.others none) (partOfCore l s) (a + 6) [v'] s)
    else
      let s := noteOld (.others none) (a + 6) [v] (writeBackLine (lineOf a) s)
      (true, homeSet (a + 6) v' (onCores (fun _ => true) (loseResv (lineOf a)) s))

/-- Two addresses lie in one piece of a page. -/
def TlbEntry.has (t : TlbEntry) (va : Nat) : Bool := va >>> t.bits_ == t.va >>> t.bits_

/-- The cached translation of an address that an access may use: of the L1 TLB of its kind, else of the L2 TLB (R206). -/
def tlbFind (instr : Bool) (va : Nat) (c : Core) : Option TlbEntry :=
  match (if instr then c.itlb else c.dtlb).find? (fun t => t.has va) with
  | some t => some t
  | none => c.tlb2.find? (fun t => t.has va)

/-- A cached translation goes into the L1 TLB of its access's kind and into the L2 TLB, in place of the oldest where one is full: 128,
128 and 4,096 entries (R206). -/
def tlbFill (instr : Bool) (t : TlbEntry) (c : Core) : Core :=
  let add (n : Nat) (ts : List TlbEntry) : List TlbEntry := (t :: ts.filter (fun x => !x.has t.va)).take n
  { c with dtlb := if instr then c.dtlb.filter (fun x => !x.has t.va) else add 128 c.dtlb
           itlb := if instr then add 128 c.itlb else c.itlb.filter (fun x => !x.has t.va)
           tlb2 := add 4096 c.tlb2 }

/-- Remove every cached translation of an address (TLBI PAGE, R209): every piece of a page that translates it. -/
def tlbDrop (va : Nat) (c : Core) : Core :=
  let keep (t : TlbEntry) : Bool := !(va >>> t.page == t.va >>> t.page)
  { c with dtlb := c.dtlb.filter keep, itlb := c.itlb.filter keep, tlb2 := c.tlb2.filter keep,
           walk := c.walk.filter (fun w => !(w.pre == walkPrefix va w.level)) }

/-- Empty the TLBs and the walk cache of a core (R208, R209). -/
def tlbEmpty (c : Core) : Core := { c with dtlb := [], itlb := [], tlb2 := [], walk := [] }

/-- The cached copies of a leaf entry follow its C and A bits (R202, R203). -/
def tlbMark (leafAddr : Nat) (c : Core) : Core :=
  let f (t : TlbEntry) : TlbEntry := if t.leafAddr = leafAddr then { t with leaf := t.leaf ||| 0x300 } else t
  { c with dtlb := c.dtlb.map f, itlb := c.itlb.map f, tlb2 := c.tlb2.map f }

/-- The grain of a cached translation: 2 MiB of a larger page. -/
def pieceBits (level : Nat) : Nat := min 21 (pageBits level)

/-- What a leaf makes of an access (R198 from the sixth check on, R204). -/
def leafPlace (l p va : Nat) (acc : Acc) (e : Long) (leafArm level : Nat) (s : State) : XRes :=
  let c := coreOf l s
  let real := fld e 51 12 * 4096 + va % 2 ^ pageBits level
  match realPlace p real (fld e 11 10) (if acc.store && !lbit e 9 then some leafArm else none) (pageBits level) level s with
  | .ctl q => .ctl { q with fail := checkLeaf acc (tswUser c) (tswKey c) e }
  | .ok q => (match checkLeaf acc (tswUser c) (tswKey c) e with
    | some (code, cause) => .exc code cause level
    | none => .ok q)
  | r => r

/-- The cached translation of a leaf, where the page lies in an extent of the partition. -/
def tlbOf (p va : Nat) (e : Long) (leafArm level : Nat) (s : State) : Option TlbEntry :=
  let real := fld e 51 12 * 4096 + va % 2 ^ pageBits level
  let base := real - va % 2 ^ pieceBits level
  match realPlace p real (fld e 11 10) none (pageBits level) level s with
  | .ok q => some { va := va, bits_ := pieceBits level, page := pageBits level, real := base, arm := q.arm - va % 2 ^ pieceBits level,
                    attr := q.attr, leaf := e, leafAddr := leafArm, level := level }
  | _ => none

/-- What a cached translation makes of an access. -/
def tlbPlace (l va : Nat) (acc : Acc) (t : TlbEntry) (s : State) : XRes :=
  let c := coreOf l s
  let off := va % 2 ^ t.bits_
  match checkLeaf acc (tswUser c) (tswKey c) t.leaf with
  | some (code, cause) => .exc code cause t.level
  | none => .ok { real := t.real + off, arm := t.arm + off, attr := t.attr,
                  setC := if acc.store && !lbit t.leaf 9 then some t.leafAddr else none, size := t.page }

/-- Translate and check one address of an access by core l (R191 to R204). A cached translation or a new walk is used, as a
free choice decides where one is cached (R207). -/
def translate (l va : Nat) (acc : Acc) (s : State) : XRes × State :=
  let c := coreOf l s
  match partOfCore l s with
  | none => (.exc 0x0201 6 0, s)
  | some p =>
    if !tswXlate c then
      if bits va 63 52 != 0 then (.exc 0x0201 0xC 0, s) else (realPlace p va 0 none 3 0 s, s)
    else if !canonical va then (.exc 0x0201 1 0, s)
    else
      let pick : Option TlbEntry × State :=
        match tlbFind acc.instr va c with
        | some t => let b := drawBit s; (if b.1 then some t else none, b.2)
        | none => (none, s)
      match pick.1 with
      | some t => (tlbPlace l va acc t pick.2, pick.2)
      | none =>
        match walkGo l p va 4 (fld c.xlRoot 51 12 * 4096) pick.2 with
        | (.exc code cause lv, s) => (.exc code cause lv, s)
        | (.poison x, s) => (.poison x, s)
        | (.wait, s) => (.wait, s)
        | (.leaf e a lv, s) =>
          if !lbit e 8 && !remoteReady a true s then (.wait, askLine a true (.core l) (some p) s)
          else
            let r := if lbit e 8 then (true, s) else setEntryBits l a 1 s
            let s := r.2
            if !r.1 then (.wait, s)
            else
              let e := e ||| 0x100
              let s := match tlbOf p va e a lv s with
                | some t => modCore l (tlbFill acc.instr t) s
                | none => s
              (leafPlace l p va acc e a lv s, s)

/-- The page segments of `n` bytes from an address: first address and length of each. -/
def segments (va n : Nat) : List (Nat × Nat) :=
  let room := 4096 - va % 4096
  if n ≤ room then [(va, n)] else [(va, room), ((va + room) % 2 ^ 64, n - room)]

/-- `XL_INFO` for a failing access (R214). -/
def xlInfoOf (cause level : Nat) (store instr : Bool) : Long :=
  pack [(63, 60, cause), (59, 57, level), (56, 56, b2n store), (55, 55, b2n instr)]

/-- What a probe comes to: `XL_RESULT` and the line of a poisoned entry, or waiting for a table of a remote home. -/
inductive ProbeRes where
  | done (r : Long) (bad : Option Nat) (s : State)
  | wait (s : State)

/-- The page size code of `XL_RESULT` for the level of a leaf (R214). -/
def sizeCode (level : Nat) : Nat := if level = 3 then 2 else if level = 2 then 1 else 0

/-- The probe's walk (R215): no A or C bit is set. Where a leaf was reached, its page size and real address are in the result (R214). -/
def probeWalk (l p va : Nat) (acc : Acc) (user : Bool) (key : Nat) : Nat → Nat → State → ProbeRes
  | 0, _, s => .done (pack [(62, 59, 3)]) none s
  | level + 1, t, s =>
    let lv := level + 1
    match readEntry l p (t + 8 * walkIndex va lv) s with
    | .noExtent => .done (pack [(62, 59, 5)]) none s
    | .poison x s => .done (pack [(62, 59, 0xD)]) (some x) s
    | .wait s => .wait s
    | .val e _ s =>
      match entryStep e lv with
      | some (_, cause) => .done (pack [(62, 59, cause)]) none s
      | none =>
        if lbit e 7 || lv == 1 then
          let real := fld e 51 12 * 4096 + va % 2 ^ pageBits lv
          match extentOf p real s with
          | none => .done (pack [(62, 59, 6), (56, 55, sizeCode lv), (51, 0, real)]) none s
          | some x =>
            match checkLeaf acc user key e with
            | some (_, cause) => .done (pack [(62, 59, cause), (56, 55, sizeCode lv), (51, 0, real)]) none s
            | none => .done (pack [(63, 63, 1), (58, 57, max (fld e 11 10) (extAttr x)), (56, 55, sizeCode lv), (51, 0, real)]) none s
        else probeWalk l p va acc user key level (fld e 51 12 * 4096) s

/-- An MTCR to `XL_PROBE` (R215), with `XL_ROOT` as it stands: the state after it, or on the left the state in which the group
waits for a remote table. A poisoned entry is an event of the core. -/
def probe (l : Nat) (w : Long) (s : State) : Sum State State :=
  match partOfCore l s with
  | none => .inr s
  | some p =>
    let acc : Acc := { fetch := !lbit w 62, store := lbit w 62, instr := lbit w 61 }
    let r : ProbeRes :=
      if lbit w 63 then
        match extentOf p (fld w 51 0) s with
        | some x => .done (pack [(63, 63, 1), (58, 57, extAttr x), (56, 55, 3)]) none s
        | none => .done (pack [(62, 59, 6), (56, 55, 3)]) none s
      else if fld w 51 48 != 0 then .done (pack [(62, 59, 1)]) none s
      else probeWalk l p (sextNat 48 (fld w 47 0) % 2 ^ 64).toNat acc (lbit w 60) (fld w 59 56) 4 (fld (coreOf l s).xlRoot 51 12 * 4096) s
    match r with
    | .wait s => .inl s
    | .done r bad s =>
      let s := modCore l (fun c => { c with xlProbe := w, xlResult := r }) s
      .inr (match bad with | some x => raise (srcSlot (slotOf l s)) 0x04 (some p) x s | none => s)

end Sys2Proof.Machine
end

