-- ==== Sys2Proof/Machine/Group.lean ====
section
/-! DEFINITION. The execution of an issue group: fetch, decoding, every operation of the A, M, L, F, D and B units, the choice
among exception conditions, nullification and commit, and the repeat prefixes (04_issue_groups R77 to R118, R600;
05 R119 to R127; 06 R134 to R151; 07 R155 to R168; 08 R171 to R184; 10 R221 to R238; 11 R246 to R251).
What lies outside the core (control space, channel instructions, HWINDOW, GETRAND) comes in through `CoreEnv`. -/

namespace Sys2Proof.Machine

/-- What an operation performed outside the core answers. -/
inductive OutRes where
  | done (cc : BitVec 2) (s : State)
  | pgm (code addr : Nat)
  | poison (real : Nat)
  | wait (s : State)
deriving DecidableEq, Repr

/-- The services that a group uses outside the core. -/
structure CoreEnv where
  /-- Read a long of the partition control window; none where it is not partition-visible (02 R53). -/
  ctlRead : Nat → Nat → State → Option (Long × State)
  /-- Whether a partition may write the long at an offset of its window. -/
  ctlMay : Nat → Nat → State → Bool
  /-- Write a long of the partition control window. -/
  ctlWrite : Nat → Nat → Long → State → State
  io : IoOp → Nat → Long → Long → State → OutRes
  hwindow : Nat → Long → State → OutRes
  /-- The storage that such an operation reads has still to be fetched from another module: the state in which the group waits. -/
  need : Special → Nat → State → Option State
  getrand : Nat → State → Long × BitVec 2 × State

/-! ### Effects of a group under execution -/

/-- What an operation, or a whole group, comes to before it commits. -/
inductive Flow (α : Type) where
  | ok (a : α) (s : State)
  | pgm (p : PgmPend) (xi : Option Long) (s : State)
  | poison (real : Nat) (s : State)
  | wait (s : State)

/-- Go on with a result. -/
def Flow.bind {α β : Type} (x : Flow α) (k : α → State → Flow β) : Flow β :=
  match x with
  | .ok a s => k a s
  | .pgm p xi s => .pgm p xi s
  | .poison r s => .poison r s
  | .wait s => .wait s

/-- A program interruption without an address. -/
def pgmOf {α : Type} (code xc : Nat) (s : State) : Flow α := .pgm { code := code, xc := xc, addr := 0 } none s

/-- An access exception at an address (R180, 09 R198, R214). -/
def accessExc {α : Type} (code cause level va : Nat) (store instr : Bool) (s : State) : Flow α :=
  .pgm { code := code, xc := 0, addr := va } (some (xlInfoOf cause level store instr)) s

/-! ### Operand access -/

/-- The value of a second operand. -/
def srcVal (c : Core) : Src → Long
  | .reg n => getG c n
  | .imm v => v

/-- The address of a form, and its base update (R97 to R99). -/
def addrVal (c : Core) : AddrForm → Nat × Option (Nat × Long)
  | .disp ra d => (((getG c ra).toNat + d) % 2 ^ 64 |>.toNat, none)
  | .indexed ra rb sh => ((getG c ra + ((getG c rb) <<< sh)).toNat, none)
  | .postInc ra d => ((getG c ra).toNat, some (ra, getG c ra + longOfInt d))
  | .preDec ra n => ((getG c ra - BitVec.ofNat 64 n).toNat, some (ra, getG c ra - BitVec.ofNat 64 n))

/-- The requests of an uncached access: one of its own size, or one for each of its bytes (R220, R222). -/
def ucPieces (a n : Nat) (bytes : Bool) : List (Nat × Nat) :=
  if bytes || !wholeStore a n then (List.range n).map (fun i => (a + i, 1)) else [(a, n)]

/-- An event of the partition: an address of the DRAM range above the used capacity (12 R263). -/
def outsideEvent (l arm : Nat) (s : State) : State :=
  let part := partOfCore l s
  raisePart 0x0B part arm s

/-- An address of this module that is not in its used DRAM (12 R263). -/
def outsideDram (a : Nat) (s : State) : Bool := isLocal a s && physKind (physOfAddr a) s != .dram

/-- Bytes as a load of core l's group reads them: its own stores that the group has already made do not count (R94). -/
def groupBytes (l a n : Nat) (s : State) : List Byte :=
  match (coreOf l s).part with
  | none => coreBytes l a n s
  | some p => (List.range n).map (fun i => match p.old.find? (fun x => x.1 == a + i) with
    | some x => x.2
    | none => coreByte l (a + i) s)

/-- The next read of a group: from the performed-result buffer (20 R464); of a cached place, made now; of another, to be made when the
group has passed every check (10 R220). -/
def nextRead (l attr arm real n : Nat) (decides : Bool) (e : Eff) (s : State) : Flow (List Byte × Eff) :=
  let k := e.reads.length
  let with_ (d : Option (List Byte)) : Eff := { e with reads := e.reads ++ [{ arm := arm, n := n, attr := attr, real := real, data := d, decides := decides }] }
  let fresh (s : State) : Flow (List Byte × Eff) :=
    if madeAtHome l attr arm s then .ok (List.replicate n 0, with_ none) s
    else .ok (groupBytes l arm n s, with_ (some (groupBytes l arm n s))) s
  match (coreOf l s).ucBuf[k]? with
  | none => fresh s
  | some u =>
    if u.addr = arm ∧ u.n = n then
      (match u.data with
       | some d => if u.poison then .poison (real / 128 * 128) s else .ok (d, with_ (some d)) s
       | none => .ok (List.replicate n 0, with_ none) s)
    else fresh (modCore l (fun c => { c with ucBuf := c.ucBuf.take k }) s)

/-- The reads that come before the first uncached one still to be made have been made (R226: none of them is made again after it). -/
def ucKeep (l : Nat) (rs : List ReadRec) (s : State) : State :=
  let old := (coreOf l s).ucBuf
  modCore l (fun c => { c with ucBuf := (List.range rs.length).zip rs |>.map (fun x =>
    old.getD x.1 { tag := 0, addr := x.2.arm, n := x.2.n, data := x.2.data, poison := false }) }) s

/-- A group has passed every check, and its uncached reads are made in order (R219, R220): at most `k` of them now. One of this home is made
at once; one of a remote home is sent, once, and the group waits. With the last of them the group is ready to go on. -/
def askReads (l : Nat) : Nat → List ReadRec → State → Flow Bool
  | 0, _, s => .ok false s
  | k + 1, rs, s =>
    match rs.findIdx? (fun r => r.data.isNone) with
    | none => .ok false s
    | some i => match rs[i]? with
      | none => .ok false s
      | some r =>
        if i < (coreOf l s).ucBuf.length then .wait s
        else
          let s := if ucClear l r.attr r.arm r.n s then s else drainSystem l s
          if !ucClear l r.attr r.arm r.n s then .wait s
          else if isLocal r.arm s then
            if !homeReady (lineOf r.arm) true s then .wait (askHome r.arm true s)
            else
              let bad := linePoisoned (lineOf r.arm) s
              let s := cleanLine none (lineOf r.arm) (sliceUse (lineOf r.arm) (partOfCore l s) (ucKeep l (rs.take i) s))
              let b := groupBytes l r.arm r.n s
              let s := modCore l (fun c => { c with ucBuf := c.ucBuf ++ [{ tag := 0, addr := r.arm, n := r.n, data := some b, poison := bad }] }) s
              askReads l k (rs.set i { r with data := some b }) s
          else
            let tag := freshTag s
            let s := sendReq 6 r.arm [0, BitVec.ofNat 8 r.n] (.coreUc l) (partOfCore l s) (ucKeep l (rs.take i) s)
            .wait (modCore l (fun c => { c with ucBuf := c.ucBuf ++ [{ tag := tag, addr := r.arm, n := r.n, data := none, poison := false }] }) s)

/-- Read `n` bytes at one place for a data access of core l: from its caches, or by uncached reads. -/
def readPlace (l n : Nat) (bytes decides : Bool) (pl : Place) (e : Eff) (s : State) : Flow (List Byte × Eff) :=
  if madeAtHome l pl.attr pl.arm s then
    (ucPieces pl.arm n bytes).foldl (fun (r : Flow (List Byte × Eff)) q => r.bind (fun x s =>
      (nextRead l pl.attr q.1 (pl.real + (q.1 - pl.arm)) q.2 decides x.2 s).bind (fun y s => .ok (x.1 ++ y.1, y.2) s))) (.ok ([], e) s)
  else
    nextRead l pl.attr pl.arm pl.real n decides e ((linesOf pl.arm n).foldl (fun s ln => cacheFill l ln false (partOfCore l s) s) s)

/-- The first failing byte of an access: an access exception, or poison with the real address of its line and, where the line lies
outside the used DRAM, its Armature address. -/
inductive AccBad where
  | exc (code cause level va : Nat)
  | poison (real va : Nat) (outside : Option Nat)
deriving DecidableEq, Repr

/-- It is an access exception. -/
def AccBad.isExc : AccBad → Bool
  | .exc _ _ _ _ => true
  | .poison _ _ _ => false

/-- Its address. -/
def AccBad.at_ : AccBad → Nat
  | .exc _ _ _ va => va
  | .poison _ va _ => va

/-- What it makes of the group. -/
def badFlow {α : Type} (l : Nat) (acc : Acc) (b : AccBad) (s : State) : Flow α :=
  match b with
  | .exc code cause level va => accessExc code cause level va acc.store acc.instr s
  | .poison real _ out => .poison real (match out with | some a => outsideEvent l a s | none => s)

/-- What the segments of an access come to: where they go; an aligned long of the control window; or the first that fails, with the places
before it. -/
inductive Scan where
  | places (ps : List (Nat × Nat × Place))
  | ctl (q : CtlPlace)
  | bad (ps : List (Nat × Nat × Place)) (b : AccBad)
deriving DecidableEq, Repr

/-- The first poisoned line of `n` bytes at a place whose virtual address is `va`. -/
def peekPoison (n va : Nat) (pl : Place) (s : State) : Option AccBad :=
  (linesOf pl.arm n).findSome? (fun ln =>
    let off := ln * 128 - pl.arm
    if outsideDram (ln * 128) s then some (.poison ((pl.real + off) / 128 * 128) (va + off) (some (pl.arm + off)))
    else if linePoisoned ln s then some (.poison ((pl.real + off) / 128 * 128) (va + off) none)
    else none)

/-- Every segment of an access is translated, checked and, where it fetches, looked at for poison, up to the lowest address that fails
(R110, R600; 09 R198). `long` says that the access is an aligned long, which alone may reach the control window (01 R21). With `dec`, for a
decimal operand, an access exception of any byte comes before poison (06 R141); `bad` is the first poison found so far. -/
def accessScan (l : Nat) (acc : Acc) (long dec : Bool) : List (Nat × Nat) → List (Nat × Nat × Place) → Option AccBad → State → Flow Scan
  | [], ps, bad, s => .ok (match bad with | some b => .bad ps b | none => .places ps) s
  | (va, n) :: t, ps, bad, s =>
    let found (b : AccBad) (s : State) : Flow Scan :=
      if dec then accessScan l acc long dec t ps (some (bad.getD b)) s else .ok (.bad ps b) s
    match translate l va acc s with
    | (.exc code cause lv, s) => .ok (.bad ps (.exc code cause lv va)) s
    | (.poison r, s) => found (.poison r va none) s
    | (.wait, s) => .wait s
    | (.ctl q, s) => if long then .ok (.ctl q) s else .ok (.bad ps (.exc 0x0201 6 q.level va)) s
    | (.ok p, s) =>
      if !acc.fetch || (madeAtHome l p.attr p.arm s && !isLocal p.arm s) then accessScan l acc long dec t (ps ++ [(va, n, p)]) bad s
      else match (linesOf p.arm n).find? (fun ln => !remoteReady (ln * 128) false s && !outsideDram (ln * 128) s) with
        | some ln => .wait (askLine (ln * 128) false (.core l) (partOfCore l s) s)
        | none => match peekPoison n va p s with
          | some b => found b s
          | none => accessScan l acc long dec t (ps ++ [(va, n, p)]) bad s

/-- Whether remote lines that a group is to read uncached are poisoned is asked of their homes, in order, where a later condition would
otherwise be reported before theirs (R110, R600; log entry 95): each with its attribute, address and the real address of its line. -/
def lookLines (l : Nat) : List (Nat × Nat × Nat) → State → Flow Unit
  | [], s => .ok () s
  | (attr, ln, real) :: t, s =>
    match sysAnswer l attr (ln * 128) 0 s with
    | .val _ s => lookLines l t s
    | .poison s => .poison real s
    | .wait s => .wait s

/-- The remote lines that reads still to be made need. -/
def pendLines (rs : List ReadRec) (s : State) : List (Nat × Nat × Nat) :=
  rs.filterMap (fun r => if !isLocal r.arm s && (r.data.isNone || r.n == 0) then some (r.attr, lineOf r.arm, r.real / 128 * 128) else none)

/-- Scan an access of `n` bytes at `va`: poison of a remote uncached place before the one that fails counts. -/
def scanOf (l va n : Nat) (acc : Acc) (bytes : Bool) (s : State) : Flow Scan :=
  (accessScan l acc (n == 8 && va % 8 == 0 && !bytes) bytes (segments va n) [] none s).bind (fun r s =>
    match r with
    | .bad ps b =>
      if bytes || !acc.fetch then .ok r s
      else (lookLines l (ps.filterMap (fun q =>
        if madeAtHome l q.2.2.attr q.2.2.arm s && !isLocal q.2.2.arm s then some (q.2.2.attr, lineOf q.2.2.arm, q.2.2.real / 128 * 128) else none)) s).bind
          (fun _ s => .ok (.bad ps b) s)
    | _ => .ok r s)

/-- Read the places of an access in order. -/
def readPlaces (l : Nat) (bytes decides : Bool) (ps : List (Nat × Nat × Place)) (e : Eff) (s : State) : Flow (List Byte × Eff) :=
  ps.foldl (fun (r : Flow (List Byte × Eff)) q => r.bind (fun x s =>
    (readPlace l q.2.1 bytes decides q.2.2 x.2 s).bind (fun y s => .ok (x.1 ++ y.1, y.2) s))) (.ok ([], e) s)

/-- Load `n` bytes at `va` as core l (R94: storage as it stood before the group's stores). -/
def loadBytes (env : CoreEnv) (l va n : Nat) (acc : Acc) (e : Eff) (s : State) : Flow (List Byte × Eff) :=
  (scanOf l va n acc false s).bind (fun r s =>
    match r with
    | .bad _ b => badFlow l acc b s
    | .places ps => readPlaces l (!wholeStore va n) false ps e s
    | .ctl q =>
      match q.fail with
      | some (code, cause) => accessExc code cause q.level va acc.store false s
      | none => match (partOfCore l s).bind (fun p => env.ctlRead p q.off s) with
        | some (v, s) => .ok (beBytes 8 v.toNat, e) s
        | none => accessExc 0x0201 6 q.level va acc.store false s)

/-- Stores of `data` at checked places, performed at commit; `bytes` says that each byte stands alone (R94, R106, R222). -/
def storePlaces (ps : List (Nat × Nat × Place)) (grain after : Nat) (strl : Option Nat) (data : List Byte) (e : Eff) : Eff :=
  let r := ps.foldl (fun (r : Nat × List MemOp × List Nat) q =>
    (r.1 + q.2.1, r.2.1 ++ [.store q.2.2.arm q.2.2.attr grain after strl ((data.drop r.1).take q.2.1)],
      r.2.2 ++ q.2.2.setC.toList)) (0, [], [])
  { e with ops := e.ops ++ r.2.1, setC := e.setC ++ r.2.2 }

/-- The stores of `data` at `va` as core l: checked now, performed at commit (R94, R106). -/
def storeBytes (env : CoreEnv) (l va after : Nat) (strl : Option Nat) (data : List Byte) (e : Eff) (s : State) : Flow Eff :=
  (scanOf l va data.length accStore false s).bind (fun r s =>
    match r with
    | .bad _ b => badFlow l accStore b s
    | .places ps => .ok (storePlaces ps (storeGrain va data.length false) after strl data e) s
    | .ctl q =>
      match q.fail with
      | some (code, cause) => accessExc code cause q.level va true false s
      | none =>
        if (partOfCore l s).any (fun p => env.ctlMay p q.off s) then
          .ok { e with ops := e.ops ++ [.ctl q.off (BitVec.ofNat 64 (beNat data))], setC := e.setC ++ q.setC.toList } s
        else accessExc 0x0201 6 q.level va true false s)

/-- One aligned place for an atomic or reserving access: alignment first (R222), then the checks of R198; WC storage, and with `uc` UC
storage too, is Reservation misuse (10 R233, R234). -/
def atomPlace (l va n : Nat) (acc : Acc) (uc : Bool) (s : State) : Flow Place :=
  if va % n != 0 then pgmOf 0x0103 0 s
  else match translate l va acc s with
    | (.exc code cause lv, s) => accessExc code cause lv va acc.store false s
    | (.poison r, s) => .poison r s
    | (.wait, s) => .wait s
    | (.ctl q, s) => accessExc 0x0201 6 q.level va acc.store false s
    | (.ok p, s) => if p.attr = 2 ∨ (uc ∧ p.attr = 3) then .pgm { code := 0x0205, xc := 0, addr := va } none s else .ok p s

/-- The line of an aligned place is here and sound, or what that comes to; ownership is asked for with `own`. -/
def lineSound (l n va : Nat) (own : Bool) (pl : Place) (s : State) : Flow Unit :=
  if !outsideDram pl.arm s && !remoteReady pl.arm own s then .wait (askLine pl.arm own (.core l) (partOfCore l s) s)
  else match peekPoison n va pl s with
    | some b => badFlow l accLoad b s
    | none => .ok () s

/-- An atomic operation whose bytes lie at a remote home and are not the core's to cache is performed there (10 R233). -/
def atomAtHome (l attr arm : Nat) (s : State) : Bool := !isLocal arm s && madeAtHome l attr arm s

/-- What an atomic operation stores for the bytes it reads, if anything (10 R232). -/
def AtomKind.new (k : AtomKind) (old : List Byte) : Option (List Byte) :=
  match k with
  | .cas cmp v => if old = cmp then some v else none
  | .laad add => some (beBytes 8 (beNat old + add))

/-- An atomic read-modify-write of `n` bytes: checked now, performed at commit (10 R232, R233). Ownership of its line is asked for only
where it stores; one at a remote home leaves a mark of its place among the group's reads. -/
def atomOp (l va n : Nat) (kind : AtomKind) (rd : Nat) (e : Eff) (s : State) : Flow Eff :=
  (atomPlace l va n accBoth false s).bind (fun pl s =>
    let a : AtomOp := { real := pl.real, arm := pl.arm, attr := pl.attr, n := n, kind := kind, rd := rd, setC := pl.setC }
    if atomAtHome l pl.attr pl.arm s then
      .ok { e with ops := e.ops ++ [.atom a],
                   reads := e.reads ++ [{ arm := pl.arm, n := 0, attr := pl.attr, real := pl.real, data := some [], decides := false }] } s
    else (lineSound l n va false pl s).bind (fun _ s =>
      (if (kind.new (coreBytes l pl.arm n s)).isSome then lineSound l n va true pl s else .ok () s).bind (fun _ s =>
        .ok { e with ops := e.ops ++ [.atom a] } s)))

/-! ### Writing effects -/

/-- A g register result: none for g0 (R86). -/
def effG (n : Nat) (v : Long) (e : Eff) : Eff := if n = 0 then e else { e with g := e.g ++ [(n, v)] }

/-- A pair result (R87). -/
def effPair (n v : Nat) (e : Eff) : Eff := effG (n + 1) (BitVec.ofNat 64 v) (effG n (BitVec.ofNat 64 (v >>> 64)) e)

/-- A CC result. -/
def effCC (v : BitVec 2) (e : Eff) : Eff := { e with cc := some v }

/-- An overflow-type condition: the first in syllable order is the one reported (R110). -/
def effOvf (p : PgmPend) (e : Eff) : Eff := if e.ovf.isNone then { e with ovf := some p } else e

/-- A fixed-point result with CC, and Fixed-point overflow when CC is 3 and FOM is 1 (05 R121). -/
def effArith (c : Core) (rd : Nat) (r : Long) (cc : BitVec 2) (ov : Bool) (e : Eff) : Eff :=
  let e := effCC cc (effG rd r e)
  if ov && tswFom c then effOvf { code := 0x0301, xc := 0, addr := 0 } e else e

/-- Decimal overflow when CC is 3 and DOM is 1 (06 R142). -/
def effDecOvf (c : Core) (cc : BitVec 2) (e : Eff) : Eff :=
  if cc = 3 && tswDom c then effOvf { code := 0x0402, xc := 0, addr := 0 } e else e

/-- The exceptions of an F operation (07 R161 to R163): a trapped V or Z nullifies, a trapped O, U or X completes. -/
def effFp (c : Core) (fl : FpFlags) (e : Eff) (s : State) : Flow Eff :=
  match fpTrapped c.fpc fl with
  | some x =>
    if 0x40 ≤ x then pgmOf 0x0501 x s
    else .ok (effOvf { code := 0x0501, xc := x, addr := 0 } { e with flags := e.flags ||| fpSticky c.fpc fl }) s
  | none => .ok { e with flags := e.flags ||| fpSticky c.fpc fl } s

/-- An F result of a format: written at the low end, 0 above (07 R156). -/
def effF (fmt n v : Nat) (e : Eff) : Eff := { e with f := e.f ++ [(n, BitVec.ofNat 128 (v % 2 ^ (fpFmt fmt).w))] }

/-- A result of a decimal operation, or its exception (06 R139 to R145). -/
def decFlow (r : DecRes) (k : Nat → BitVec 2 → Flow Eff) (s : State) : Flow Eff :=
  match r with
  | .ok v cc => k v cc
  | .data ddc => pgmOf 0x0401 ddc s
  | .divide => pgmOf 0x0403 0 s
  | .range => pgmOf 0x0303 0 s

/-- FPC.RM (07 R160). -/
def rmOf (c : Core) : Nat := fld c.fpc 2 0

/-- The result of a two-operand F operation. -/
def fop2Val (f : FOp2) (fmt rm a b : Nat) : Nat × FpFlags :=
  match f with
  | .add => fpAdd (fpFmt fmt) rm false a b
  | .sub => fpAdd (fpFmt fmt) rm true a b
  | .mul => fpMul (fpFmt fmt) rm a b
  | .div => fpDiv (fpFmt fmt) rm a b
  | .min => fpMinMax (fpFmt fmt) false a b
  | .max => fpMinMax (fpFmt fmt) true a b

/-- A branch target is taken: its checks (R101), then the target. -/
def branchTo (t : Nat) (xlate : Bool) (e : Eff) (s : State) : Flow Eff :=
  if t % 4 != 0 then pgmOf 0x0103 0 s
  else if !canonical t then accessExc 0x0201 (if xlate then 1 else 0xC) 0 t false false s
  else .ok { e with target := some t } s

/-- A value that MTCR may write to a control register (R159, R172, R173). -/
def mtcrOk (n : Nat) (v : Long) : Bool :=
  match n with
  | 0 => fld v 63 52 == 0 && fld v 11 0 == 0
  | 1 => tswOk v
  | 4 => fld v 63 32 == 0 && fld v 26 24 == 0 && fld v 18 3 == 0 && decide (fld v 2 0 ≤ 4)
  | 5 => fld v 63 8 == 0
  | 6 => fld v 31 0 == 0
  | 12 => fld v 63 12 == 0
  | 16 => fld v 63 52 == 0 && fld v 11 0 == 0
  | 17 => fld v 54 0 == 0
  | 18 => fld v 55 52 == 0
  | 19 => fld v 54 52 == 0
  | 20 => fld v 63 8 == 0 && fld v 6 3 == 0
  | 21 => fld v 59 0 == 0
  | _ => true

/-! ### The operations -/

/-- The A and M operations (05 R122, R124). -/
def evalInt (c : Core) (o : COp) (e : Eff) (s : State) : Option (Flow Eff) :=
  match o with
  | .alu f cc rd ra b =>
    let r := aluResult f (getG c ra) (srcVal c b)
    some (.ok (if cc then effArith c rd r.1 (ccArith r.2 r.1) r.2 e else effG rd r.1 e) s)
  | .clz cc rd ra =>
    let v : Long := BitVec.ofNat 64 (clz64 (getG c ra))
    some (.ok (if cc then effCC (ccResult v) (effG rd v e) else effG rd v e) s)
  | .popc cc rd ra =>
    let v : Long := BitVec.ofNat 64 (popc64 (getG c ra))
    some (.ok (if cc then effCC (ccResult v) (effG rd v e) else effG rd v e) s)
  | .neg rd ra => let r := negResult (getG c ra); some (.ok (effArith c rd r.1 (ccArith r.2 r.1) r.2 e) s)
  | .abs rd ra => let r := absResult (getG c ra); some (.ok (effArith c rd r.1 (ccArith r.2 r.1) r.2 e) s)
  | .cmp sg ra b =>
    let x := getG c ra
    let y := srcVal c b
    some (.ok (effCC (if sg then ccCompare x.toInt y.toInt else ccCompare x.toNat y.toNat) e) s)
  | .mov rd ra => some (.ok (effG rd (getG c ra) e) s)
  | .bswap rd ra => some (.ok (effG rd (bswap64 (getG c ra)) e) s)
  | .sel rd ra rb mask => some (.ok (effG rd (if maskSelects mask (getCC c) then getG c ra else getG c rb) e) s)
  | .ext rd ra size sg => some (.ok (effG rd (extResult size sg (getG c ra)) e) s)
  | .movi rd v => some (.ok (effG rd v e) s)
  | .ldih rd v long =>
    let low := (getG c rd).toNat
    let r : Long := if long then BitVec.ofNat 64 (low % 2 ^ 32 + v * 2 ^ 32)
      else BitVec.ofNat 64 (low % 2 ^ 16) ||| (immOf false 16 v <<< 16)
    some (.ok (effG rd r e) s)
  | .mul f rd ra rb =>
    some (match mulResult f (getG c ra) (getG c rb) with
      | none => pgmOf 0x0302 0 s
      | some (r, cc) => .ok (effArith c rd r cc (cc == 3) e) s)
  | _ => none

/-- A base update (R98, R99). -/
def effUpd (u : Option (Nat × Long)) (e : Eff) : Eff := match u with | some (n, v) => effG n v e | none => e

/-- An earlier STRL of the core that an LDA of a scope comes after is not performed at its own scope (10 R227). -/
def ldaPending (l scope : Nat) (s : State) : Bool :=
  let in_ (t : Nat) : Bool := decide (1 ≤ t) && decide (t ≤ scope)
  (coreOf l s).sb.any (fun x => match x.strl with | some t => in_ t && (t != 1 || x.cluster.isNone) | none => false) ||
  (coreOf l s).wc.any (fun w => in_ w.strl)

/-- An LDA orders after every earlier STRL of its own or a narrower scope (10 R227): those are performed at their scope, as far as the
lines are ready. -/
def doLda (l scope : Nat) (s : State) : State :=
  if !ldaPending l scope s then s
  else
    let s := drainScope l 1 s
    if ldaPending l scope s then drainSystem l s else s

/-- A prefetch of a line that is not here, or not to be had at once, is asked for (11 R246). -/
def sendPref (l : Nat) (l1 own : Bool) (line : Nat) (s : State) : State :=
  let part := partOfCore l s
  let a := line * 128
  if !isLocal a s then askRemote a own (.pref l l1) part s
  else if (txnOf line s).isSome then s
  else
    let m : Msg := { selfReq (if own then 3 else 2) a [] s with tag := freshTag s }
    let r : OutReq := { msg := m, first := s.tor.tor, last := s.tor.tor, sends := 1, who := .pref l l1, part := part }
    homeServe m { s with arm := { s.arm with nextTag := (m.tag + 1) % 65536, reqs := s.arm.reqs ++ [r] } }

/-- A prefetch of a line (11 R246): 0 into L1D and L2, 1 into L2, 2 into L2 with ownership, 3 into the home slice. What is not ready is
asked for, and no prefetch waits; a disabled cache fills nothing (R249). -/
def doPref (l hint line : Nat) (s : State) : State :=
  let part := partOfCore l s
  if hint = 3 then (if isLocal (line * 128) s then sliceUse line part s else sendReq 6 (line * 128) [11] (.pref l false) part s)
  else if !l2On (coreOf l s) then s
  else if !remoteReady (line * 128) (hint == 2) s then sendPref l (hint == 0) (hint == 2) line s
  else if hint = 2 then
    let s := writeBackIf (fun b d => lineOf b == line && d.core != l) s
    fillL2 l line part (onCores (fun k => k != l) (dropFromCore line) s)
  else if hint = 0 && dataCached (coreOf l s) then cacheFill l line false part s
  else fillL2 l line part s

/-- The other line of a granule (10 R234). -/
def granuleMate (line : Nat) : Nat := if line % 2 = 0 then line + 1 else line - 1

/-- LDRES holds both lines of its granule, so that a store to either is seen (10 R234, R235). -/
def holdGranule (l : Nat) (pl : Place) (s : State) : Flow Unit :=
  let mate := granuleMate (lineOf pl.arm)
  if !outsideDram (mate * 128) s && !remoteReady (mate * 128) false s then .wait (askLine (mate * 128) false (.core l) (partOfCore l s) s)
  else if madeAtHome l pl.attr pl.arm s then .ok () s
  else
    let s := cacheFill l (lineOf pl.arm) false (partOfCore l s) s
    .ok () (if outsideDram (mate * 128) s then s else fillL2 l mate (partOfCore l s) s)

/-- The L operations (04 R97 to R99, R114; 10 R221 to R235; 11 R246). -/
def evalL (env : CoreEnv) (l : Nat) (c : Core) (o : COp) (e : Eff) (s : State) : Option (Flow Eff) :=
  match o with
  | .load n sg rd a =>
    let v := addrVal c a
    some ((loadBytes env l v.1 n accLoad e s).bind (fun r s =>
      let w := beNat r.1
      .ok (effG rd (if sg then longOfInt (sextNat (8 * n) w) else BitVec.ofNat 64 w) (effUpd v.2 r.2)) s))
  | .loadQ rd a =>
    let v := addrVal c a
    some ((loadBytes env l v.1 16 accLoad e s).bind (fun r s => .ok (effPair rd (beNat r.1) (effUpd v.2 r.2)) s))
  | .loadF n rd a =>
    let v := addrVal c a
    some ((loadBytes env l v.1 n accLoad e s).bind (fun r s =>
      let e := effUpd v.2 r.2
      .ok { e with f := e.f ++ [(rd, BitVec.ofNat 128 (beNat r.1))] } s))
  | .store n rd a =>
    let v := addrVal c a
    some (storeBytes env l v.1 0 none (beBytes n (getG c rd).toNat) (effUpd v.2 e) s)
  | .storeQ rd a =>
    let v := addrVal c a
    some (storeBytes env l v.1 0 none (beBytes 16 (getPair c rd)) (effUpd v.2 e) s)
  | .storeF n rd a =>
    let v := addrVal c a
    some (storeBytes env l v.1 0 none (beBytes n (getF c rd).toNat) (effUpd v.2 e) s)
  | .lda n scope rd ra =>
    let va := (getG c ra).toNat
    some (if va % n != 0 then pgmOf 0x0103 0 s
      else
        let s := doLda l scope s
        if ldaPending l scope s then .wait s
        else (loadBytes env l va n accLoad e s).bind (fun r s =>
          .ok (effG rd (BitVec.ofNat 64 (beNat r.1)) { r.2 with ops := r.2.ops ++ [.lda scope] }) s))
  | .strl n scope rd ra =>
    let va := (getG c ra).toNat
    some (if va % n != 0 then pgmOf 0x0103 0 s
      else storeBytes env l va scope (some scope) (beBytes n (getG c rd).toNat) e s)
  | .ldres rd ra =>
    let va := (getG c ra).toNat
    some ((atomPlace l va 8 accLoad true s).bind (fun pl s =>
      (lineSound l 8 va false pl s).bind (fun _ s => (holdGranule l pl s).bind (fun _ s =>
        .ok (effG rd (BitVec.ofNat 64 (beNat (groupBytes l pl.arm 8 s))) { e with ops := e.ops ++ [.setResv pl.arm] }) s))))
  | .stcnd rd ra =>
    let va := (getG c ra).toNat
    some ((atomPlace l va 8 accStore true s).bind (fun pl s =>
      let held := c.resv == some (pl.arm / 256)
      let op : MemOp := .stcnd pl.arm pl.attr pl.setC (beBytes 8 (getG c rd).toNat) held
      if held && !remoteReady pl.arm true s then .wait (askLine pl.arm true (.core l) (partOfCore l s) s)
      else .ok { e with ops := e.ops ++ [op] } s))
  | .cas rd ra rb =>
    some (atomOp l (getG c ra).toNat 8 (.cas (beBytes 8 (getG c rd).toNat) (beBytes 8 (getG c rb).toNat)) rd e s)
  | .casq rd ra rb =>
    some (atomOp l (getG c ra).toNat 16 (.cas (beBytes 16 (getPair c rd)) (beBytes 16 (getPair c rb))) rd e s)
  | .laad rd ra rb => some (atomOp l (getG c ra).toNat 8 (.laad (getG c rb).toNat) rd e s)
  | .fence scope mask =>
    let s := if mask.testBit 1 then drainScope l scope s else s
    some (if mask.testBit 1 && !drainedTo l scope s then .wait s else .ok { e with ops := e.ops ++ [.fence scope mask] } s)
  -- A poisoned table entry ends a PREF as a failing check of R200 does: nothing is prefetched and nothing reported (DESIGN CHOICE, log entry 96).
  | .pref hint a =>
    some (match translate l (addrVal c a).1 accLoad s with
      | (.ok pl, s) => .ok e (if 2 ≤ pl.attr || outsideDram pl.arm s then s else doPref l hint (lineOf pl.arm) s)
      | (.wait, s) => .wait s
      | (_, s) => .ok e s)
  -- CINV and CWBINV are store accesses of R200, so that they set the C bit of R202, though they store no byte (DESIGN CHOICE, log entry 97).
  | .cache k a =>
    let va := (addrVal c a).1
    let acc := if k = .wb then accLoad else accStore
    some (match translate l va acc s with
      | (.exc code cause lv, s) => accessExc code cause lv va acc.store false s
      | (.poison r, s) => .poison r s
      | (.wait, s) => .wait s
      | (.ctl q, s) => accessExc 0x0201 6 q.level va acc.store false s
      | (.ok pl, s) => .ok { e with ops := e.ops ++ [.cache k (lineOf pl.arm)], setC := e.setC ++ pl.setC.toList } s)
  | .tlbi all scope ra => some (.ok { e with ops := e.ops ++ [.tlbi all scope (getG c ra).toNat] } s)
  | _ => none

/-- The F operations (07 R166). -/
def evalF (c : Core) (o : COp) (e : Eff) (s : State) : Option (Flow Eff) :=
  let fv (n : Nat) : Nat := (getF c n).toNat
  let rm := rmOf c
  match o with
  | .fop2 f fmt rd ra rb => let r := fop2Val f fmt rm (fv ra) (fv rb); some (effFp c r.2 (effF fmt rd r.1 e) s)
  | .fsqrt fmt rd ra => let r := fpSqrt (fpFmt fmt) rm (fv ra); some (effFp c r.2 (effF fmt rd r.1 e) s)
  | .fma nd nr fmt rd ra rb =>
    let r := fpFma (fpFmt fmt) rm nd nr (fv ra) (fv rb) (fv rd)
    some (effFp c r.2 (effF fmt rd r.1 e) s)
  | .fcmp fmt ra rb => let r := fpCmp (fpFmt fmt) (fv ra) (fv rb); some (effFp c r.2 (effCC r.1 e) s)
  | .fsign neg fmt rd ra => some (.ok (effF fmt rd (fpSetSign (fpFmt fmt) neg (fv ra)) e) s)
  | .fclass fmt rd ra => some (.ok (effG rd (BitVec.ofNat 64 (fpClass (fpFmt fmt) (fv ra))) e) s)
  | .fcvt src dst rd ra => let r := fpConvert (fpFmt src) (fpFmt dst) rm (fv ra); some (effFp c r.2 (effF dst rd r.1 e) s)
  | .fcvti fmt u rd ra =>
    let r := fpToInt (fpFmt fmt) rm u (fv ra)
    some (effFp c r.2 (effG rd (BitVec.ofNat 64 r.1) e) s)
  | .fcvtf fmt u rd ra => let r := fpFromInt (fpFmt fmt) rm u (getG c ra); some (effFp c r.2 (effF fmt rd r.1 e) s)
  | _ => none

/-- Of what fails in the two operands, an access exception comes before poison (06 R141) and then the lowest address (R110): 1 or 2. Where
both fail at one address the first operand's failure is reported (DESIGN CHOICE, log entry 98). -/
def firstBad (b1 b2 : AccBad) : Nat :=
  if b1.isExc != b2.isExc then (if b1.isExc then 1 else 2) else if b1.at_ ≤ b2.at_ then 1 else 2

/-- The operands of a storage-to-storage operation, whether they have still to be read, and the places of the first: every byte of both is
checked before either is read (04 R110; 06 R141, R149). The operands are bytes, so no control window is reached. -/
def ssOperands (l a1 l1 a2 l2 : Nat) (acc1 : Acc) (e : Eff) (s : State) : Flow (Nat × Nat × Bool × List (Nat × Nat × Place) × Eff) :=
  (scanOf l a1 l1 acc1 true s).bind (fun r1 s => (scanOf l a2 l2 accLoad true s).bind (fun r2 s =>
    match r1, r2 with
    | .bad _ b1, .bad _ b2 => if firstBad b1 b2 = 1 then badFlow l acc1 b1 s else badFlow l accLoad b2 s
    | .bad _ b1, _ => badFlow l acc1 b1 s
    | _, .bad _ b2 => badFlow l accLoad b2 s
    | .places p1, .places p2 =>
      (readPlaces l true true p1 e s).bind (fun x s => (readPlaces l true true p2 x.2 s).bind (fun y s =>
        .ok (beNat x.1, beNat y.1, (y.2.reads.drop e.reads.length).any (fun r => r.data.isNone), p1, y.2) s))
    | _, _ => accessExc 0x0201 6 0 a1 acc1.store false s))

/-- The D operations (06 R145, R148). -/
def evalD (l : Nat) (c : Core) (o : COp) (e : Eff) (s : State) : Option (Flow Eff) :=
  let full (rd : Nat) (v : Nat) (cc : BitVec 2) : Flow Eff := .ok (effDecOvf c cc (effCC cc (effPair rd v e))) s
  match o with
  | .dop f rd ra rb => some (decFlow (decArith f 31 31 (getPair c ra) (getPair c rb)) (full rd) s)
  | .dcmp ra rb => some (decFlow (decCompare 31 31 (getPair c ra) (getPair c rb)) (fun _ cc => .ok (effCC cc e) s) s)
  | .dshl rd ra n => some (decFlow (decUnary (fun i => i * 10 ^ n) (getPair c ra)) (full rd) s)
  | .dshr rd ra n => some (decFlow (decUnary (fun i => i.tdiv (10 ^ n)) (getPair c ra)) (full rd) s)
  | .dnorm rd ra => some (decFlow (decUnary (fun i => i) (getPair c ra)) (full rd) s)
  | .dval ra => some (.ok (effCC (decValid (getPair c ra)) e) s)
  | .dtob rd ra => some (decFlow (decToBin (getPair c ra)) (fun v _ => .ok (effG rd (BitVec.ofNat 64 v) e) s) s)
  | .dfrb rd ra => some (.ok (effPair rd (decFromBin (getG c ra)) e) s)
  | .dpack rd ra => some (decFlow (decPack (getPair c ra)) (fun v _ => .ok (effPair rd v e) s) s)
  | .dunpk rd ra => some (decFlow (decUnpack (getPair c ra)) (full rd) s)
  | .dopM f b1 d1 l1 b2 d2 l2 =>
    let a1 := ((getG c b1) + BitVec.ofNat 64 d1).toNat
    let a2 := ((getG c b2) + BitVec.ofNat 64 d2).toNat
    some ((ssOperands l a1 l1 a2 l2 accBoth e s).bind (fun r s =>
      if r.2.2.1 then .ok (storePlaces r.2.2.2.1 1 0 none (beBytes l1 0) r.2.2.2.2) s
      else decFlow (decArith f (2 * l1 - 1) (2 * l2 - 1) r.1 r.2.1) (fun v cc =>
        .ok (storePlaces r.2.2.2.1 1 0 none (beBytes l1 v) (effDecOvf c cc (effCC cc r.2.2.2.2))) s) s))
  | .dcmpM b1 d1 l1 b2 d2 l2 =>
    let a1 := ((getG c b1) + BitVec.ofNat 64 d1).toNat
    let a2 := ((getG c b2) + BitVec.ofNat 64 d2).toNat
    some ((ssOperands l a1 l1 a2 l2 accLoad e s).bind (fun r s =>
      if r.2.2.1 then .ok r.2.2.2.2 s
      else decFlow (decCompare (2 * l1 - 1) (2 * l2 - 1) r.1 r.2.1) (fun _ cc => .ok (effCC cc r.2.2.2.2) s) s))
  | _ => none

/-- The B operations (04 R100; 03 R57; 08 R181 to R184). `ga` is the group's address and `next` the one after it. -/
def evalB (l : Nat) (c : Core) (ga next : Nat) (o : COp) (e : Eff) (s : State) : Flow Eff :=
  let rel (d : Int) : Nat := (((ga : Int) + d * 4) % 2 ^ 64).toNat
  match o with
  | .br mask d => if maskSelects mask (getCC c) then branchTo (rel d) (tswXlate c) e s else .ok e s
  | .brl rd d => branchTo (rel d) (tswXlate c) (effG rd (BitVec.ofNat 64 next) e) s
  | .bri mask rd ra =>
    if maskSelects mask (getCC c) then branchTo (getG c ra).toNat (tswXlate c) (effG rd (BitVec.ofNat 64 next) e) s else .ok e s
  | .ret ra => branchTo (getG c ra).toNat (tswXlate c) e s
  | .trap code => .ok { e with special := .trap code } s
  | .rfi =>
    if !tswOk c.rtsw || c.rpc.toNat % 4 != 0 then pgmOf 0x0103 0 s
    else if !canonical c.rpc.toNat then accessExc 0x0201 (if tswXlate c then 1 else 0xC) 0 c.rpc.toNat false false s
    else .ok { e with special := .rfi } s
  | .mfcr rd n => .ok (effG rd (readCr l n s) e) s
  | .mtcr n ra => if mtcrOk n (getG c ra) then .ok { e with special := .mtcr n (getG c ra) } s else pgmOf 0x0103 0 s
  | .rdtor rd => .ok (effCC (BitVec.ofNat 2 (3 - torQuality s)) (effG rd (torLong s) e)) s
  | .waitev ra => .ok { e with special := .waitev (getG c ra).toNat } s
  | .getrand rd => .ok { e with special := .getrand rd } s
  | .sigcore ra rb =>
    let t := (getG c ra).toNat
    let kind := fld (getG c rb) 63 56
    let param := fld (getG c rb) 55 0
    if 191 < t || !(kind == 1 || (kind == 2 && param == 0)) then pgmOf 0x0103 0 s
    else .ok { e with special := .sig t kind param } s
  | .hwindow ra => .ok { e with special := .hwindow (getG c ra) } s
  | .io k ra rb => .ok { e with special := .io k (getG c ra) (getG c rb) } s
  | _ => .ok e s

/-- One operation of a group. -/
def evalOp (env : CoreEnv) (l : Nat) (c : Core) (ga next : Nat) (o : COp) (e : Eff) (s : State) : Flow Eff :=
  match evalInt c o e s with
  | some r => r
  | none => match evalL env l c o e s with
    | some r => r
    | none => match evalF c o e s with
      | some r => r
      | none => match evalD l c o e s with
        | some r => r
        | none => evalB l c ga next o e s

/-- The operations of a group in syllable order (R92, R94): every register is read from `c`, as it stood before the group. A condition of
one comes after poison of what an earlier one is still to read (R110, R600). -/
def evalOps (env : CoreEnv) (l : Nat) (c : Core) (ga next : Nat) : List COp → Eff → State → Flow Eff
  | [], e, s => .ok e s
  | o :: t, e, s =>
    match evalOp env l c ga next o e s with
    | .ok e s => evalOps env l c ga next t e s
    | .pgm p xi s => (lookLines l (pendLines e.reads s) s).bind (fun _ s => .pgm p xi s)
    | .poison r s => (lookLines l (pendLines e.reads s) s).bind (fun _ s => .poison r s)
    | .wait s => .wait s

/-! ### Commit -/

/-- A FENCE takes effect, its stores being performed as far as it waits for them (10 R223 to R225): the combining buffers are released by
the store types, store-store opens a new epoch of the stores, and the fence orders instruction fetch. -/
def doFence (l scope mask : Nat) (s : State) : State :=
  let ss := mask.testBit 0
  let sl := mask.testBit 1
  let ll := mask.testBit 3
  let s := if ss || sl then wcRelease l s else s
  modCore l (fun c => { c with
    epC := if ss && decide (1 ≤ scope) then c.epC + 1 else c.epC
    epS := if ss && decide (2 ≤ scope) then c.epS + 1 else c.epS
    seenOwn := if sl then s.cpu.oldSeq else c.seenOwn
    seenOther := if ll then s.cpu.oldSeq else c.seenOther }) s

/-- The cores in a scope of a core's TLBI (09 R210). -/
def scopeCores (l scope : Nat) (s : State) : List Nat :=
  match partOfCore l s with
  | none => [l]
  | some p =>
    if scope = 0 then [l]
    else if scope = 1 then (coresOf p s).filter (fun k => k / 16 == l / 16)
    else coresOf p s

/-- The cores whose stores a TLBI of a scope has performed (09 R211): its own at the scope, and those of the others in it. -/
def tlbiDrain (l scope : Nat) (s : State) : State :=
  (scopeCores l scope s).foldl (fun s k => drainScope k (max 1 scope) s) (drainScope l scope s)

/-- They are performed, and no other core in the scope has storage effects of a group under way (09 R211). -/
def tlbiReady (l scope : Nat) (s : State) : Bool :=
  drainedTo l scope s &&
  (scopeCores l scope s).all (fun k => k == l || (drainedTo k (max 1 scope) s &&
    (match (coreOf k s).held with
     | none => true
     | some h => match h.eff.ops with
       | [] => true
       | .tlbi _ _ _ :: _ => true
       | _ => false)))

/-- TLBI removes the entries that it names (09 R209, R210), and no walk goes on with a table entry that it has read before (R211). A PAGE
whose address is not in form removes nothing. -/
def doTlbi (l : Nat) (all : Bool) (scope va : Nat) (s : State) : State :=
  if !all && !canonical va then s
  else (scopeCores l scope s).foldl (fun s k => modCore k (fun c => { (if all then tlbEmpty c else tlbDrop va c) with sysBuf := [] }) s) s

/-- The core's own reservation is lost by its own store to the granule (10 R235). An LDRES that follows in the group replaces it and a
STCND that follows uses it as it stood before the group (10 R234), so before these it is left alone. -/
def ownStoreResv (l a n : Nat) (rest : List MemOp) (s : State) : State :=
  if rest.any (fun o => match o with | .stcnd _ _ _ _ _ => true | .ldres => true | .setResv _ => true | _ => false) then s
  else modCore l (fun c => (linesOf a n).foldl (fun c ln => loseResv ln c) c) s

/-- What a storage effect comes to: done; to be tried again, in this form; or poisoned. -/
inductive OpRes where
  | done (e : Eff) (s : State)
  | again (o : MemOp) (s : State)
  | poison (real : Nat) (s : State)

/-- The C bit of a leaf entry is set and the core's TLBs follow (09 R202, R203), or what that waits for. -/
def markLeaf (l leaf : Nat) (s : State) : Bool × State :=
  if !remoteReady leaf true s then (false, askLine leaf true (.core l) (partOfCore l s) s)
  else
    let r := setEntryBits l leaf 3 s
    if r.1 then (true, modCore l (tlbMark leaf) r.2) else r

/-- The same for a leaf entry that may be none. -/
def markOpt (l : Nat) (leaf : Option Nat) (s : State) : Bool × State :=
  match leaf with
  | some a => markLeaf l a s
  | none => (true, s)

/-- Stores that come before an atomic operation of the core on these bytes are not performed: its own to the same bytes, those before a
store fence, UC ones before a UC one, and those of its cluster that this core sees (R217, R219, R224). -/
def storesBefore (l attr a n : Nat) (s : State) : Bool :=
  let c := coreOf l s
  c.sb.any (fun e => overlaps e.addr e.data.length a n || decide (e.epC < c.epC) || decide (e.epS < c.epS) ||
    (ucOrdered l attr s && ucOrdered l e.attr s)) ||
  c.wc.any (fun w => w.line == lineOf a || decide (w.epC < c.epC) || decide (w.epS < c.epS)) ||
  (List.range n).any (fun i => (clusterByte l (a + i) s).isSome)

/-- A store that is performed at once, at SYSTEM scope and as one operation, its line being the core's to write (10 R232, R234): in its
caches; at this home; or in the owned copy of a remote line, which is written through or goes home. -/
def storeNow (l attr a : Nat) (data : List Byte) (s : State) : State :=
  let part := partOfCore l s
  let s := noteOld (.own l) a (coreBytes l a data.length s) s
  if cachedStore l attr a s then wbStore l (.others (some l)) a data s
  else if isLocal a s then homeWriteKeep (if ownedStore l attr a s then some l else none) (.others (some l)) part a data s
  else if ownedStore l attr a s then
    wtRemote l { addr := a, data := data, attr := attr, after := 0, epC := 0, epS := 0, strl := none, cluster := none, seq := 0,
                 grain := data.length, sent := none, place := 0, bad := false } s
  else
    let s := noteOld (.others (some l)) a (cohBytes a data.length s) (writeBackLine (lineOf a) s)
    let s := homeSetAll a data s
    releaseRemote (lineOf a) (.core l) part (onCores (fun _ => true) (fun c => dropFromCore (lineOf a) (loseResv (lineOf a) c)) s)

/-- Registers and CC that an atomic operation leaves (10 R232). -/
def atomResult (a : AtomOp) (old : List Byte) (e : Eff) : Eff :=
  let e := if a.n = 16 then effPair a.rd (beNat old) e else effG a.rd (BitVec.ofNat 64 (beNat old)) e
  match a.kind with
  | .cas cmp _ => effCC (if old = cmp then 0 else 1) e
  | .laad _ => e

/-- The body of an atomic operation's request to a remote home (14 R304). -/
def atomBody (a : AtomOp) : List Byte :=
  match a.kind with
  | .cas cmp new => [2, BitVec.ofNat 8 a.n] ++ cmp ++ new
  | .laad add => [3, 8] ++ beBytes 8 add

/-- The body of the request that only compares (the model's own layout, log entry 41). -/
def compareBody (a : AtomOp) : List Byte :=
  match a.kind with
  | .cas cmp _ => [12, BitVec.ofNat 8 a.n] ++ cmp
  | .laad _ => [12, 8]

/-- The C bit that an atomic operation has still to set is set, and the operation goes on without it (09 R202). -/
def atomMark (l : Nat) (a : AtomOp) (s : State) : OpRes :=
  let r := markOpt l a.setC s
  .again (.atom (if r.1 then { a with setC := none } else a)) r.2

/-- An atomic operation at a remote home (10 R233; 20 R464): one request, whose answer ends it. Where its store has still to set a C bit, that
comes first (09 R202): at once for LAAD, and for a CAS when the home has found its comparison equal (log entry 89). -/
def doAtomHome (l : Nat) (a : AtomOp) (rest : List MemOp) (e : Eff) (s : State) : OpRes :=
  let clear (s : State) : State := modCore l (fun c => { c with atomBuf := [] }) s
  let cas := match a.kind with | .cas _ _ => true | .laad _ => false
  match (coreOf l s).atomBuf with
  | [] =>
    if a.setC.isSome && !cas then atomMark l a s
    else
      let tag := freshTag s
      let s := sendReq 6 a.arm (if a.setC.isSome then compareBody a else atomBody a) (.coreUc l) (partOfCore l s) s
      .again (.atom a) (modCore l (fun c => { c with atomBuf := [{ tag := tag, addr := a.arm, n := a.n, data := none, poison := false }] }) s)
  | u :: _ =>
    match u.data with
    | none => .again (.atom a) s
    | some old =>
      if u.poison then .poison (a.real / 128 * 128) s
      else if (a.kind.new old).isNone then .done (atomResult a old e) (clear s)
      else if a.setC.isSome then
        (match atomMark l a s with
         | .again (.atom b) s => .again (.atom b) (if b.setC.isNone then clear s else s)
         | r => r)
      else .done (atomResult a old e) (ownStoreResv l a.arm a.n rest (clear s))

/-- An atomic operation in the core's caches or at this home: it reads and, where it stores, writes in one step (10 R232, R233), after the
C bit of its page has been set, which it may see (09 R202, R203). -/
def doAtomHere (l : Nat) (a : AtomOp) (rest : List MemOp) (e : Eff) (s : State) : OpRes :=
  if !remoteReady a.arm false s then .again (.atom a) (askLine a.arm false (.core l) (partOfCore l s) s)
  else if linePoisoned (lineOf a.arm) s then .poison (a.real / 128 * 128) s
  else
    let old := coreBytes l a.arm a.n s
    match a.kind.new old with
    | none => .done (atomResult a old e) (if cachedStore l a.attr a.arm s then cacheFill l (lineOf a.arm) false (partOfCore l s) s else s)
    | some new =>
      if !remoteReady a.arm true s then .again (.atom a) (askLine a.arm true (.core l) (partOfCore l s) s)
      else if a.setC.isSome then atomMark l a s
      else .done (atomResult a old e) (storeNow l a.attr a.arm new (ownStoreResv l a.arm a.n rest s))

/-- STCND (10 R234): it stores where its core held the reservation when its group began and has not lost it to another observer since. -/
def doStcnd (l arm attr : Nat) (setC : Option Nat) (data : List Byte) (held : Bool) (e : Eff) (s : State) : OpRes :=
  let op : MemOp := .stcnd arm attr setC data held
  if !(held && (coreOf l s).resv == some (arm / 256)) then .done (effCC 1 e) (modCore l (fun c => { c with resv := none }) s)
  else if storesBefore l attr arm 8 s then .again op (drainSystem l s)
  else if !remoteReady arm true s then .again op (askLine arm true (.core l) (partOfCore l s) s)
  else
    let r := markOpt l setC s
    if r.1 then .done (effCC 0 e) (modCore l (fun c => { c with resv := none }) (storeNow l attr arm data r.2)) else .again op r.2

/-- The code of a cache maintenance operation in the request to the home of its line. -/
def CacheOp.code : CacheOp → Byte
  | .wb => 8
  | .wbinv => 9
  | .inv => 10

/-- A cache maintenance operation is asked of the home of its line, this module or another, which has it done in every cache concerned
(11 R246, R250). Its tag is `freshTag s`. -/
def sendMaint (l : Nat) (k : CacheOp) (line : Nat) (s : State) : State :=
  let part := partOfCore l s
  if isLocal (line * 128) s then
    let m : Msg := { selfReq 6 (line * 128) [k.code] s with tag := freshTag s }
    let r : OutReq := { msg := m, first := s.tor.tor, last := s.tor.tor, sends := 1, who := .core l, part := part }
    homeServe m { s with arm := { s.arm with nextTag := (m.tag + 1) % 65536, reqs := s.arm.reqs ++ [r] } }
  else sendReq 6 (line * 128) [k.code] (.core l) part s

/-- A cache maintenance operation comes after the core's earlier stores; CINV and CWBINV lose its reservation on the line (10 R235). -/
def doCache (l : Nat) (k : CacheOp) (line : Nat) (rest : List MemOp) (s : State) : OpRes :=
  let s := drainSystem l s
  if !drained l s then .again (.cache k line) s
  else
    let s := if k = .wb then s else ownStoreResv l (line * 128) 128 rest s
    .again (.cacheWait (freshTag s)) (sendMaint l k line s)

/-- One storage effect of a group that commits; `rest` are those after it. -/
def doMem (env : CoreEnv) (l : Nat) (o : MemOp) (rest : List MemOp) (e : Eff) (s : State) : OpRes :=
  match o with
  | .store a attr grain after strl data => .done e (bufferStore l attr grain after strl a data (ownStoreResv l a data.length rest s))
  | .ctl off v => .done e (match partOfCore l s with | some p => env.ctlWrite p off v s | none => s)
  | .atom a =>
    if storesBefore l a.attr a.arm a.n s then .again (.atom a) (drainSystem l s)
    else if atomAtHome l a.attr a.arm s then doAtomHome l a rest e s
    else doAtomHere l a rest e s
  | .stcnd arm attr setC data held => doStcnd l arm attr setC data held e s
  | .setResv a => .done e (modCore l (fun c => { c with resv := some (a / 256) }) s)
  | .ldres => .done e s
  | .mark leaf => let r := markLeaf l leaf s; if r.1 then .done e r.2 else .again o r.2
  | .fence scope mask =>
    let s := if mask.testBit 1 then drainScope l scope s else s
    if mask.testBit 1 && !drainedTo l scope s then .again o s else .done e (doFence l scope mask s)
  | .lda scope => let s := doLda l scope s; if ldaPending l scope s then .again o s else .done e s
  | .cache k line => doCache l k line rest s
  | .cacheWait tag => if s.arm.reqs.any (fun r => r.msg.tag == tag) then .again o s else .done e s
  | .tlbi all scope va => let s := tlbiDrain l scope s; if tlbiReady l scope s then .done e (doTlbi l all scope va s) else .again o s

/-- A storage effect that could not be done at once is tried again in the same command, until a try changes no more of its wait: at most
`n` times. -/
def tryMem (env : CoreEnv) (l : Nat) : Nat → MemOp → List MemOp → Eff → State → OpRes
  | 0, o, _, _, s => .again o s
  | n + 1, o, rest, e, s => match doMem env l o rest e s with
    | .again o s => tryMem env l n o rest e s
    | r => r

/-- What the storage effects of a group come to. -/
inductive OpsRes where
  | done (e : Eff) (s : State)
  | wait (ops : List MemOp) (e : Eff) (s : State)
  | poison (real : Nat) (s : State)

/-- The storage effects of a group, in order, up to one that has to wait (R94). -/
def doOps (env : CoreEnv) (l : Nat) : List MemOp → Eff → State → OpsRes
  | [], e, s => .done e s
  | o :: rest, e, s => match tryMem env l 6 o rest e s with
    | .done e s => doOps env l rest e s
    | .again o s => .wait (o :: rest) e s
    | .poison r s => .poison r s

/-- Comparators armed on all cores of a partition (03 R74). -/
def armedCount (p : Nat) (s : State) : Nat :=
  ((coresOf p s).map (fun l => ((List.range 4).filter (fun n => (fld (coreOf l s).torctl 3 0).testBit n)).length)).foldl (· + ·) 0

/-- Comparator n of a core fires: PEND set, ARM cleared (03 R73). -/
def fireCmp (n : Nat) (c : Core) : Core :=
  { c with torctl := (c.torctl ||| BitVec.ofNat 64 (2 ^ (4 + n))) &&& ~~~(BitVec.ofNat 64 (2 ^ n)) }

/-- The `VALUE` of comparator n that is in force: one written while it is armed is so from the next tick on (03 R73). -/
def cmpValue (n : Nat) (c : Core) (s : State) : Long :=
  match tget none n c.torPrev with
  | some p => if p.2 = s.tor.tor then p.1 else tget 0 n c.torcmp
  | none => tget 0 n c.torcmp

/-- A write of `TORCMPn` (03 R73): of an armed comparator it takes effect from the next tick of TOR. -/
def writeTorcmp (l n : Nat) (v : Long) (s : State) : State :=
  modCore l (fun c => { c with
    torPrev := if (fld c.torctl 3 0).testBit n then tset none n (some (cmpValue n c s, s.tor.tor)) c.torPrev else tset none n none c.torPrev
    torcmp := tset 0 n v c.torcmp }) s

/-- A write of TORCTL (03 R72 to R74): PEND and DENY clear on 1; arming beyond the partition's `TOR_CMP` sets DENY; a comparator
armed at or below TOR fires at once. -/
def writeTorctl (l : Nat) (v : Long) (s : State) : State :=
  let c := coreOf l s
  let kept : Long := c.torctl &&& ~~~(v &&& 0xFF0) &&& 0xFF0
  let still : Long := c.torctl &&& v &&& 0xF
  let s := setCore l { c with torctl := kept ||| still } s
  (List.range 4).foldl (fun s n =>
    if !(fld v 3 0).testBit n || (fld still 3 0).testBit n then s
    else
      match partOfCore l s with
      | none => s
      | some p =>
        let lim := match partOf p s with | some d => d.torCmp | none => 0
        if armedCount p s < lim then
          modCore l (fun c =>
            let c := { c with torctl := c.torctl ||| BitVec.ofNat 64 (2 ^ n), torPrev := tset none n none c.torPrev }
            if (tget 0 n c.torcmp).toNat ≤ s.tor.tor then fireCmp n c else c) s
        else modCore l (fun c => { c with torctl := c.torctl ||| BitVec.ofNat 64 (2 ^ (8 + n)) }) s) s

/-- A write of CACHECTL whose `WBINV` has been done (11 R247 to R251): what it disables drops out of coherence; what it enables while
`L1D_HELD` or `L2_HELD` is 1 sets STALE_RISK and is counted. The L1D is enabled while both bits are 0. -/
def writeCachectl (l : Nat) (v : Long) (s : State) : State :=
  let c := coreOf l s
  let on1 := !dataCached c && !lbit v 0 && !lbit v 1
  let on2 := !l2On c && !lbit v 1
  let off1 := dataCached c && (lbit v 0 || lbit v 1)
  let off2 := l2On c && lbit v 1
  let s := if off1 || off2 then disableCaches l off2 s else s
  let stale := (on1 || on2) && (lbit (cacheStat c) 62 || lbit (cacheStat c) 61)
  let s := if on1 || on2 then enableCaches l on1 on2 s else s
  let s := modCore l (fun c => { c with cachectl := v &&& 7, staleRisk := c.staleRisk || stale }) s
  if stale then patina (0x1A0 + slotOf l s) s else s

/-- MTCR at commit, effective from the next group (08 R172, R173; 09 R212, R215): `inr` is the state after it, `inl` waits: for a table
of a remote home; for the store buffer, which is empty before caches are written back or switched; or for write-backs to remote homes, which
`WBINV` ends with (11 R248, R249, R253). -/
def doMtcr (l n : Nat) (v : Long) (s : State) : Sum State State :=
  match n with
  | 0 => .inr (modCore l (fun c => { c with tcaBase := v }) s)
  | 1 => .inr (modCore l (fun c => { c with tsw := v }) s)
  | 2 => .inr (modCore l (fun c => { c with rtsw := v }) s)
  | 3 => .inr (modCore l (fun c => { c with rpc := v }) s)
  | 4 => .inr (modCore l (fun c => { c with fpc := v }) s)
  | 5 => .inr (modCore l (fun c => { c with iosub := v }) s)
  | 8 => .inr (writeTorcmp l 0 v s)
  | 9 => .inr (writeTorcmp l 1 v s)
  | 10 => .inr (writeTorcmp l 2 v s)
  | 11 => .inr (writeTorcmp l 3 v s)
  | 12 => .inr (writeTorctl l v s)
  | 16 => .inr (modCore l (fun c => { c with xlRoot := v }) s)
  | 18 => probe l v s
  | 20 =>
    let s := if lbit v 7 || (lbit v 0 || lbit v 1) != !dataCached (coreOf l s) then drainSystem l s else s
    if (lbit v 7 || (lbit v 0 || lbit v 1) != !dataCached (coreOf l s)) && !drained l s then .inl s
    else
      let s := if lbit v 7 then wbInvCore l s else s
      if lbit v 7 && s.arm.reqs.any (fun r => r.msg.kind == 5 && r.who == .core l) then .inl s else .inr (writeCachectl l v s)
  | 21 => .inr (modCore l (fun c => { c with staleRisk := c.staleRisk && !lbit v 63 }) s)
  | _ => .inr s

/-- SIGCORE does not deliver where the target is outside the sender's partition, lost or stopped (R184). -/
def sigTargetOk (l t : Nat) (s : State) : Bool :=
  partOfCore l s == partOfCore t s && tget 0 t s.cpu.recState != 2 &&
  (match (coreOf t s).run with
   | .running => true
   | .waiting _ => true
   | .gated _ => true
   | _ => false)

/-- SIGCORE (08 R183, R184): its CC; a call becomes pending; a WAKE resumes a waiting core or is remembered. -/
def doSignal (l t kind param : Nat) (s : State) : BitVec 2 × State :=
  if !sigTargetOk l t s then (3, s)
  else if kind = 1 ∧ (coreOf t s).extCall.isSome then (2, s)
  else (0, modCore t (fun c =>
    if kind = 1 then { c with extCall := some (l, param) }
    else match c.run with
      | .waiting _ => { c with run := .running }
      | .gated _ => { c with run := .running }
      | _ => { c with wake := true }) s)

/-- WAITEV after its group commits (08 R183). -/
def doWaitev (l deadline : Nat) (s : State) : State :=
  modCore l (fun c =>
    if c.wake then { c with wake := false }
    else if deadline != 0 && decide (deadline ≤ s.tor.tor) then c
    else { c with run := .waiting (if deadline = 0 then none else some deadline) }) s

/-- The register writes of a group take effect together (R92). -/
def writeRegs (e : Eff) (c : Core) : Core :=
  let c := e.g.foldl (fun c w => setG w.1 w.2 c) c
  let c := e.f.foldl (fun c w => setF w.1 w.2 c) c
  let c := { c with fpc := c.fpc ||| e.flags }
  match e.cc with
  | some v => setCC v c
  | none => c

/-- Store-buffer entries that the stores of a group take (10 R237). -/
def sbNeed (ops : List MemOp) : Nat :=
  (ops.map (fun o => match o with | .store a _ _ _ _ d => (splitStore a d).length | _ => 0)).foldl (· + ·) 0

/-- The registers of a group that is through: written together, with a repeat's count and the new PC; nothing of it is held any more. -/
def endRegs (h : HeldGroup) (c : Core) : Core :=
  let c := writeRegs h.eff c
  let c := match h.count with | some (n, v) => setG n v c | none => c
  { c with pc := BitVec.ofNat 64 (h.eff.target.getD h.cont), ucBuf := [], atomBuf := [], part := none, code := none, sysBuf := [], held := none,
           ioHold := none, pgm := if h.eff.ovf.isSome then h.eff.ovf else c.pgm, inRepn := h.repn }

/-- `XL_INFO` of an Addressing exception of a channel instruction or HWINDOW at a real address: not in form, or in no extent (09 R198, R214). -/
def outInfo (code addr : Nat) (store : Bool) : Option Long :=
  if code = 0x0201 then some (xlInfoOf (if bits addr 63 52 != 0 then 0xC else 6) 0 store false) else none

/-- What a channel instruction or HWINDOW makes of its group (R330, R332, R424). -/
def outFlow (l : Nat) (h : HeldGroup) (store : Bool) (r : OutRes) (s : State) : Flow Unit :=
  match r with
  | .done cc s => .ok () (modCore l (fun c => setCC cc (endRegs h c)) s)
  | .pgm code addr => .pgm { code := code, xc := 0, addr := addr } (outInfo code addr store) s
  | .poison r => .poison r s
  | .wait s => .wait (modCore l (fun c => { c with held := some h }) s)

/-- A channel instruction orders every earlier store before itself (10 R230). -/
def afterStores (l : Nat) (h : HeldGroup) (s : State) (k : State → Flow Unit) : Flow Unit :=
  let s := drainSystem l s
  if drained l s then k s else .wait (modCore l (fun c => { c with held := some h }) s)

/-- The end of a group whose storage effects are done: its B operation's own effect, and its registers. -/
def finishGroup (env : CoreEnv) (l : Nat) (h : HeldGroup) (s : State) : Flow Unit :=
  let regs (s : State) : State := modCore l (endRegs h) s
  let hold (s : State) : Flow Unit := .wait (modCore l (fun c => { c with held := some h }) s)
  match h.eff.special with
  | .none => .ok () (regs s)
  | .rfi => .ok () (modCore l returnFrom (regs s))
  | .mtcr n v =>
    if n = 18 ∨ n = 20 then (match doMtcr l n v s with | .inr s => .ok () (regs s) | .inl s => hold s)
    else (match doMtcr l n v (regs s) with | .inr s => .ok () s | .inl s => hold s)
  | .waitev d => .ok () (doWaitev l d (regs s))
  | .sig t k p =>
    (match (coreOf l s).ioHold with
     | some (some cc) => .ok () (modCore l (setCC (BitVec.ofNat 2 cc)) (regs s))
     | _ => let r := doSignal l t k p (regs s); .ok () (modCore l (setCC r.1) r.2))
  | .trap code => .ok () (modCore l (fun c => { c with svc := some code }) (regs s))
  | .getrand rd =>
    let r := env.getrand l s
    .ok () (modCore l (endRegs { h with eff := effCC r.2.1 (effG rd r.1 h.eff) }) r.2.2)
  | .io k a b => afterStores l h s (fun s => outFlow l h (k == .store) (env.io k l a b s) s)
  | .hwindow a => afterStores l h s (fun s => outFlow l h false (env.hwindow l a s) s)

/-- A group that has passed every check goes on: its storage effects, then its end; where an effect has to wait, the group is held with
what remains (20 R464). The answer says whether the group has ended; it has not when these effects were only its first part. -/
def heldGo (env : CoreEnv) (l : Nat) (h : HeldGroup) (s : State) : Flow Bool :=
  match doOps env l h.eff.ops h.eff s with
  | .done e s =>
    (match h.first with
     | some n => .ok false (modCore l (fun c => { c with held := none, part := some { n := n, eff := { e with ops := [] }, old := h.old } }) s)
     | none => (finishGroup env l { h with eff := { e with ops := [] } } s).bind (fun _ s => .ok true s))
  | .wait ops e s => .wait (modCore l (fun c => { c with held := some { h with eff := { e with ops := ops } } }) s)
  | .poison r s => .poison r s

/-- The storage effects of a group in the order in which they are made: the reservation of an LDRES first, whose load has been made (R94, 10
R234); then the C bits, which are visible before any store of the group (09 R202); then all others in syllable order, but for a TLBI,
which is done when every access of its group under the entries that it removes has been performed (09 R211). -/
def arrange (setC : List Nat) (ops : List MemOp) : List MemOp :=
  let stcnd := ops.any (fun o => match o with | .stcnd _ _ _ _ _ => true | _ => false)
  let resv := if stcnd then [] else ops.filter (fun o => match o with | .setResv _ => true | _ => false)
  let rest : List MemOp := if stcnd then ops else ops.map (fun o => match o with | .setResv _ => .ldres | o => o)
  let rest : List MemOp := match rest with
    | [.setResv _, .stcnd a b c d h] => [.stcnd a b c d h]
    | r => r
  let last (o : MemOp) : Bool := match o with | .tlbi _ _ _ => true | _ => false
  resv ++ setC.map .mark ++ rest.filter (fun o => !last o) ++ rest.filter last

/-- How many storage effects of a group its later loads come after: a store-load FENCE of a wider scope than CORE after a store, with a
load behind it, or an LDA after an STRL (10 R224, R227). -/
def syncAt (e : Eff) : Option Nat :=
  ((List.range e.ops.length).find? (fun i => match (e.ops[i]? : Option MemOp) with
    | some (.fence scope mask) => mask.testBit 1 && decide (1 ≤ scope) && e.reads.any (fun r => r.n != 0) &&
        (e.ops.take i).any (fun o => match o with | .store _ _ _ _ _ _ => true | .atom _ => true | .stcnd _ _ _ _ _ => true | _ => false)
    | some (.lda scope) => decide (1 ≤ scope) &&
        (e.ops.take i).any (fun o => match o with | .store _ _ _ _ (some t) _ => decide (1 ≤ t) | _ => false)
    | _ => false)).map (· + 1)

/-- The bytes that storage effects replace, as their core sees them (R94). -/
def replaced (l : Nat) (ops : List MemOp) (s : State) : List (Nat × Byte) :=
  ops.flatMap (fun o =>
    let old (a n : Nat) : List (Nat × Byte) := (List.range n).map (fun i => (a + i, coreByte l (a + i) s))
    match o with
    | .store a _ _ _ _ d => old a d.length
    | .atom a => old a.arm a.n
    | .stcnd a _ _ d _ => old a d.length
    | _ => [])

/-- Storage as a group's plain stores leave it: what its channel instruction or HWINDOW would read. -/
def withStores (ops : List MemOp) (s : State) : State :=
  ops.foldl (fun s o => match o with
    | .store a _ _ _ _ d => homeSetAll a d (discardIf (fun b _ => decide (a ≤ b) && decide (b < a + d.length)) s)
    | _ => s) s

/-- The exception of a channel instruction or HWINDOW is found before the group stores anything, so that it nullifies the group whole
(R77, R106; 15 R332; 18 R423); what the operation reads of another module is fetched first. -/
def outCheck (env : CoreEnv) (l : Nat) (e : Eff) (s : State) : Flow Unit :=
  let bad (store : Bool) (r : OutRes) : Flow Unit :=
    match r with
    | .pgm code addr => .pgm { code := code, xc := 0, addr := addr } (outInfo code addr store) s
    | .poison r => .poison r (match (partOfCore l s).bind (fun p => armOf p r s) with
      | some x => if outsideDram x s then outsideEvent l x s else s
      | none => s)
    | _ => .ok () s
  match env.need e.special l s with
  | some s => .wait s
  | none => match e.special with
    | .io k a b => bad (k == .store) (env.io k l a b (withStores e.ops s))
    | .hwindow a => bad false (env.hwindow l a (withStores e.ops s))
    | _ => .ok () s

/-- A group that has been evaluated without an exception commits, or what keeps it from committing: room in the store buffer, an exception
of its channel instruction, uncached reads, or stores that its loads come after; then it is evaluated again, which the answer says.
`cont` is the continuation address without a branch; `count` is a repeat's count register with its new value, and `repn` whether a REPN
repeat goes on (R103, R105). -/
def commitGroup (env : CoreEnv) (l : Nat) (e : Eff) (cont : Nat) (count : Option (Nat × Long)) (repn : Bool) (s : State) : Flow Bool :=
  let c := coreOf l s
  let done := (c.part.map (·.n)).getD 0
  let h : HeldGroup := { eff := e, cont := cont, count := count, repn := repn }
  let pend := lookLines l (pendLines e.reads s)
  let check : Flow Unit :=
    if c.part.isSome then .ok () s
    else match outCheck env l e s with
      | .ok _ s => if e.ops.length + e.setC.length ≤ 1 then .ok () s
          else lookLines l (pendLines (e.reads.filter (fun r => r.n == 0)) s) s
      | .pgm p xi s => (pend s).bind (fun _ s => .pgm p xi s)
      | .poison r s => (pend s).bind (fun _ s => .poison r s)
      | .wait s => .wait s
  if 48 < sbCount c.sb + sbNeed (e.ops.drop done) then .wait s
  else check.bind (fun _ s =>
    match (if c.part.isNone && !e.reads.any (fun r => r.data.isNone && r.decides) then syncAt e else none) with
    | some n => heldGo env l { h with eff := { ops := arrange e.setC (e.ops.take n) }, first := some n, old := replaced l (e.ops.take n) s } s
    | none =>
      if e.reads.any (fun r => r.data.isNone) then askReads l e.reads.length e.reads s
      else
        let p := (c.part.map (·.eff)).getD {}
        let e : Eff := { e with g := p.g ++ e.g, cc := if e.cc.isSome then e.cc else p.cc, ops := arrange e.setC (e.ops.drop done), setC := [] }
        heldGo env l { h with eff := e } (modCore l (fun c => { c with ucBuf := [] }) s))

/-! ### Fetch -/

/-- A replaced word concerns the fetch of core l: it is its own store, or another's that it could see (R96; 10 R217, R225). -/
def OldBytes.for (o : OldBytes) (l : Nat) (c : Core) : Bool :=
  match o.who with
  | .own k => k == l && decide (c.seenOwn ≤ o.seq)
  | .cluster k => k != l && k / 16 == l / 16 && decide (c.seenOther ≤ o.seq)
  | .beyond k => k / 16 != l / 16 && decide (c.seenOther ≤ o.seq)
  | .others k => k != some l && decide (c.seenOther ≤ o.seq)

/-- Bytes of a word as they stood before a store. -/
def OldBytes.undo (o : OldBytes) (a : Nat) (cur : List Byte) : List Byte :=
  (List.range 4).zip cur |>.map (fun e =>
    if o.addr ≤ a + e.1 ∧ a + e.1 < o.addr + o.data.length then o.data.getD (a + e.1 - o.addr) 0 else e.2)

/-- A word as it stood before each of the stores of a list, newest first, and all newer ones. -/
def undoAll (a : Nat) : List OldBytes → List Byte → List (List Byte)
  | [], _ => []
  | o :: t, cur => o.undo a cur :: undoAll a t (o.undo a cur)

/-- The words that a fetch may decode at an address that holds `cur`: this one; what any one unfenced store replaced in it; and the word as it
stood before any of the unfenced stores (R96, 10 R225). -/
def fetchChoices (l a : Nat) (cur : List Byte) (s : State) : List Nat :=
  let olds := s.cpu.old.filter (fun o => overlaps o.addr o.data.length a 4 && o.for l (coreOf l s))
  (beNat cur :: (olds.map (fun o => beNat (o.undo a cur)) ++ (undoAll a olds cur).map beNat)).eraseDups

/-- One of the words that a fetch may decode. -/
def pickWord (l a : Nat) (cur : List Byte) (s : State) : Flow Nat :=
  match fetchChoices l a cur s with
  | [w] => .ok w s
  | ws => let r := drawBelow ws.length s; .ok (ws.getD r.1 0) r.2

/-- Fetch one word at a virtual address (R110 rank 1, R111, R600): through the L1I, or at the home from WC or UC storage. -/
def fetchWord (l va : Nat) (s : State) : Flow Nat :=
  match translate l va accInstr s with
  | (.exc code cause lv, s) => accessExc code cause lv va false true s
  | (.poison r, s) => .poison r s
  | (.wait, s) => .wait s
  | (.ctl q, s) => accessExc 0x0201 6 q.level va false true s
  | (.ok p, s) =>
    let part := partOfCore l s
    if 2 ≤ p.attr then
      match sysRead l p.attr p.arm 4 s with
      | .val b s => pickWord l p.arm b s
      | .poison s => .poison (p.real / 128 * 128) s
      | .wait s => .wait s
    else if outsideDram p.arm s then .poison (p.real / 128 * 128) (outsideEvent l p.arm s)
    else if !remoteReady p.arm false s then .wait (askLine p.arm false (.core l) part s)
    else if linePoisoned (lineOf p.arm) s then .poison (p.real / 128 * 128) s
    else
      let s := cacheFill l (lineOf p.arm) true part s
      pickWord l p.arm (coreBytes l p.arm 4 s) s

/-- A group as fetched: its operations, whether an S bit closed it, and the address after it. -/
structure Fetched where
  raw : List RawOp
  stop : Bool
  next : Nat
deriving DecidableEq, Repr

/-- Fetch the group at an address: at most `n` more operations (R77, R78). -/
def fetchGo (l : Nat) : Nat → Nat → List RawOp → State → Flow Fetched
  | 0, a, raw, s => .ok { raw := raw, stop := false, next := a } s
  | n + 1, a, raw, s =>
    (fetchWord l a s).bind (fun w s =>
      let stop := w.testBit 31
      if isLongForm w then
        (fetchWord l ((a + 4) % 2 ^ 64) s).bind (fun w2 s =>
          let raw := raw ++ [{ w := w, w2 := w2, n := 2 }]
          let a := (a + 8) % 2 ^ 64
          if stop then .ok { raw := raw, stop := true, next := a } s else fetchGo l n a raw s)
      else
        let raw := raw ++ [{ w := w, w2 := 0, n := 1 }]
        let a := (a + 4) % 2 ^ 64
        if stop then .ok { raw := raw, stop := true, next := a } s else fetchGo l n a raw s)

/-- Fetch the group at an address, which must be a valid group address (R79, R101). -/
def fetchGroup (l a : Nat) (s : State) : Flow Fetched :=
  if !canonical a then accessExc 0x0201 (if tswXlate (coreOf l s) then 1 else 0xC) 0 a false true s
  else fetchGo l 8 a [] s

/-! ### One group -/

/-- Evaluate the operations of a group and commit it; a group whose reads have been made, or whose stores come before its loads, is
evaluated again, at most `n` times. -/
def runEval (env : CoreEnv) (l ga next cont : Nat) (count : Option (Nat × Long)) (repn : Bool) (ops : List COp) : Nat → State → Flow Unit
  | 0, s => .wait s
  | n + 1, s => (evalOps env l (coreOf l s) ga next ops {} s).bind (fun e s => (commitGroup env l e cont count repn s).bind (fun ended s =>
      if ended then .ok () s else runEval env l ga next cont count repn ops n s))

/-- Run the decoded operations of a group at `ga`, after ranks 1 to 3 (R110). -/
def runOps (env : CoreEnv) (l ga next cont : Nat) (count : Option (Nat × Long)) (repn : Bool) (ops : List COp) (s : State) : Flow Unit :=
  if tswUser (coreOf l s) && ops.any COp.privileged then pgmOf 0x0102 0 s
  else runEval env l ga next cont count repn ops 6 s

/-- A repeated group breaks R102: it holds a B or P operation, or writes the count register. -/
def repBreach (raw : List RawOp) (c : Nat) : Bool :=
  raw.any (fun r => opClass r.w == 5 || opClass r.w == 7) ||
  ((decOps (raw.map (fun r => decodeOp r.w r.w2))).flatMap COp.writes).contains (.g c)

/-- A repeated group as it is kept while its repeat goes on (R103), and as fetched. -/
def Fetched.toRep (f : Fetched) (ga cr : Nat) (n : Bool) : RepGroup :=
  { ga := ga, cr := cr, repn := n, raw := f.raw.map (fun r => (r.w, r.w2, r.n)), stop := f.stop, next := f.next }

def RepGroup.fetched (r : RepGroup) : Fetched :=
  { raw := r.raw.map (fun x => { w := x.1, w2 := x.2.1, n := x.2.2 }), stop := r.stop, next := r.next }

/-- One iteration of a repeat whose prefix stands at `ga` (R102 to R105). The repeated group is decoded before the first one. -/
def runRepeat (env : CoreEnv) (l ga : Nat) (n : Bool) (cr : Nat) (f : Fetched) (s : State) : Flow Unit :=
  let c := coreOf l s
  let count := (getG c cr).toNat
  if count = 0 then
    if repBreach f.raw cr then pgmOf 0x0103 0 s
    else .ok () (modCore l (fun c => { c with pc := BitVec.ofNat 64 f.next, inRepn := false, rep := none, sysBuf := [] }) s)
  else
    match decodeGroup f.raw f.stop with
    | .operation => pgmOf 0x0101 0 s
    | .spec => pgmOf 0x0103 0 s
    | .ops ops =>
      if repBreach f.raw cr then pgmOf 0x0103 0 s
      else if tswUser c && ops.any COp.privileged then pgmOf 0x0102 0 s
      else if n && decide (64 < count) && c.rep.isNone then pgmOf 0x0103 0 s
      else
        let left := count - 1
        let s := modCore l (fun c => { c with rep := some (f.toRep ga cr n) }) s
        let r := runOps env l ga f.next (if left = 0 then f.next else ga) (some (cr, BitVec.ofNat 64 left)) (n && left != 0) ops s
        r.bind (fun _ s => .ok () (modCore l (fun c => { c with rep := if left = 0 then none else c.rep }) s))

/-- A group of core l has begun: an operation of it has left the core (R95; 20 R464). -/
def begun (c : Core) : Bool := c.held.isSome || c.ioHold.isSome || !c.ucBuf.isEmpty || !c.atomBuf.isEmpty || c.part.isSome

/-- The group at an address, as fetched: that of the group under way, once it has begun, was fetched before. -/
def codeAt (l ga : Nat) (s : State) : Flow Fetched :=
  match (coreOf l s).code with
  | some r => if begun (coreOf l s) && r.ga == ga then .ok r.fetched s else fetchGroup l ga s
  | none => fetchGroup l ga s

/-- The group at PC from its start: the next iteration of the repeat under way; or it is fetched, decoded, executed and committed (R77,
R103, R110). -/
def runFresh (env : CoreEnv) (l : Nat) (s : State) : Flow Unit :=
  let ga := (coreOf l s).pc.toNat
  match (coreOf l s).rep with
  | some r => runRepeat env l r.ga r.repn r.cr r.fetched s
  | none =>
    (codeAt l ga s).bind (fun f s =>
      match decodeGroup f.raw f.stop with
      | .operation => pgmOf 0x0101 0 s
      | .spec => pgmOf 0x0103 0 s
      | .ops [.rep n cr] => (fetchGroup l f.next s).bind (fun f2 s => runRepeat env l ga n cr f2 s)
      | .ops ops => runOps env l ga f.next f.next none false ops (modCore l (fun c => { c with code := some (f.toRep ga 0 false) }) s))

/-- The group at PC: what is held of it goes on, or it runs from its start, or what it comes to. -/
def runGroup (env : CoreEnv) (l : Nat) (s : State) : Flow Unit :=
  let ga := (coreOf l s).pc.toNat
  match (coreOf l s).held with
  | some h => (heldGo env l h s).bind (fun ended s =>
      if ended then .ok () (modCore l (fun c => { c with rep := if c.pc.toNat = ga then c.rep else none }) s) else runFresh env l s)
  | none => runFresh env l s

/-- A group that ends without committing leaves nothing of itself behind (R106). -/
def dropGroup (c : Core) : Core := { c with
  ucBuf := [], atomBuf := [], part := none, code := none, sysBuf := [], held := none, ioHold := none, inRepn := false, rep := none }

/-- What becomes of the flow of a group: committed; nullified with a program condition or the machine check 0x0010 pending
(R106, R600; 08 R188); or waiting with the core unchanged. -/
def settleGroup (l : Nat) (r : Flow Unit) : State × Bool :=
  match r with
  | .ok _ s => (s, true)
  | .wait s => (s, false)
  | .pgm p xi s => (modCore l (fun c => { dropGroup c with pgm := some p, xlInfo := xi.getD c.xlInfo }) s, true)
  | .poison real s =>
    let src := srcSlot (slotOf l s)
    let s := raise src 0x04 (partOfCore l s) real s
    let m : McPend := { code := 0x10, addr := real, source := sourceNo 0x04 src, tor := s.tor.tor, merged := false, valid := 0 }
    (modCore l (fun c => { dropGroup c with exig := m :: c.exig }) s, true)

/-- A waiting core resumes when an enabled interruption is pending or its deadline has come (08 R183). -/
def resumeIfDue (l : Nat) (s : State) : State :=
  let c := coreOf l s
  let due (d : Option Nat) : Bool := (match d with | some t => decide (t ≤ s.tor.tor) | none => false) || condPending l s
  match c.run with
  | .waiting d => if due d then setCore l { c with run := .running } s else s
  | .gated d => if due d then setCore l { c with run := .running } s else s
  | _ => s

/-- A core that waits may be power-gated (08 R183): whether it is now is free. Its stores are drained and its caches written back and
invalidated first, and a core with a cache disabled is never gated (11 R253; log entry 85). -/
def gateIfWaiting (l : Nat) (s : State) : State :=
  match (coreOf l s).run with
  | .waiting d =>
    if !dataCached (coreOf l s) then s
    else
      let r := drawBit s
      if !r.1 then r.2
      else
        let s := drainSystem l r.2
        if drained l s then modCore l (fun c => { c with run := .gated d }) (wbInvCore l s) else s
  | _ => s

/-- A STOP of the core's partition is in effect at its boundaries (R179). -/
def partStops (l : Nat) (s : State) : Bool := (match partOfCore l s with | some p => pstateOf p s != .running | none => true)

/-- The boundary after the group of a Maquette step (26 R573): the interruptions that R179 takes there, and then the core stops. -/
def stepBoundary (l : Nat) (s : State) : State :=
  let s := takeConds l (condBound l s) s
  if condPending l s && (coreOf l s).run == .running then modCore l (fun c => { c with mqBound := true }) s
  else stopCore l (modCore l (fun c => { c with mqStep := false, mqBound := false }) s)

/-- What running one group comes to: no group ran, it has still to go on, or it has ended. -/
inductive Ran where
  | none
  | waits
  | ended
deriving DecidableEq, Repr

/-- A group, or an iteration, of core l runs, and the boundary after it is considered (R179): a core that a STOP or a halt holds stops
there before it considers a condition; after a Maquette step it first takes what is pending; else it takes the conditions that the
group left. -/
def runBoundary (env : CoreEnv) (l : Nat) (s : State) : State × Ran :=
  let r := settleGroup l (runGroup env l s)
  let s := r.1
  let c := coreOf l s
  if !r.2 then (s, .waits)
  else (if coreHeld l s then (if midGroup c then s else if c.mqStep && !partStops l s then stepBoundary l s else stopCore l s)
    else if c.svc.isSome || c.pgm.isSome || !c.exig.isEmpty then takeConds l (condBound l s) s
    else s, .ended)

/-- Core l executes a group (R77, R179): at its boundary it stops for a STOP or a halt, or takes what is pending; then the group at PC
runs. -/
def issueOne (env : CoreEnv) (l : Nat) (s : State) : State × Ran :=
  let c := coreOf l s
  if coreHeld l s then
    if c.mqBound && !partStops l s then (stepBoundary l s, .none)
    else if midGroup c || (c.mqStep && c.run == .running) then runBoundary env l s
    else (stopCore l s, .none)
  else
    let s := resumeIfDue l s
    let s := if begun (coreOf l s) then s else takeConds l (condBound l s) s
    if (coreOf l s).run != .running then (gateIfWaiting l s, .none)
    else if condPending l s && !begun (coreOf l s) then (s, .none)
    else runBoundary env l s

/-! ### Failed attempts (20 R460 to R464) -/

/-- The operations of the group at PC, with its address and the one after it. -/
def opsAt (l : Nat) (s : State) : Flow (List COp × Nat × Nat) :=
  let ga := (coreOf l s).pc.toNat
  let of_ (f : Fetched) (next : Nat) (s : State) : Flow (List COp × Nat × Nat) :=
    match decodeGroup f.raw f.stop with
    | .ops ops => .ok (ops, ga, next) s
    | _ => .wait s
  match (coreOf l s).rep with
  | some r => of_ r.fetched r.fetched.next s
  | none => (codeAt l ga s).bind (fun f s =>
      match decodeGroup f.raw f.stop with
      | .ops [.rep _ _] => (fetchGroup l f.next s).bind (fun f2 s => of_ f2 f2.next s)
      | _ => of_ f f.next s)

/-- What a failed attempt leaves of a group that it reached so far (20 R464): its uncached reads, an atomic operation on UC storage that
stands first, or its channel instruction, HWINDOW or SIGCORE, performed, with what they answered in the performed-result buffer. -/
def performOut (env : CoreEnv) (l : Nat) (e : Eff) (s : State) : State :=
  let keep (cc : BitVec 2) (s : State) : State := modCore l (fun c => { c with ioHold := some (some cc.toNat) }) s
  let out (r : State → OutRes) : State :=
    let s := drainSystem l s
    if !drained l s || !e.ops.isEmpty then s
    else match r s with
      | .done cc s => keep cc s
      | .wait s => s
      | _ => s
  if e.reads.any (fun r => r.data.isNone) then
    (match askReads l e.reads.length e.reads s with
     | .ok _ s => s
     | .wait s => s
     | _ => s)
  else match e.ops.head? with
    | some (.atom a) =>
      if a.attr = 3 then
        (match heldGo env l { eff := { ops := [.atom a] }, cont := 0, count := none, repn := false, first := some 1, old := replaced l [.atom a] s } s with
         | .ok _ s => s
         | .wait s => s
         | _ => s)
      else s
    | _ => match e.special with
      | .sig t k p => if e.ops.isEmpty && (coreOf l s).ioHold.isNone then (let r := doSignal l t k p s; keep r.1 r.2) else s
      | .io k a b => out (env.io k l a b)
      | .hwindow a => out (env.hwindow l a)
      | _ => s

/-- A failed attempt of the group at PC: it reached an operation whose effect leaves the core, or it did not, which the spec leaves open
(20 R464). -/
def reachOut (env : CoreEnv) (l : Nat) (s : State) : State :=
  let b := drawBit s
  let s := b.2
  let c := coreOf l s
  if !b.1 || c.held.isSome || c.part.isSome || c.run != .running then s
  else match opsAt l s with
    | .ok (ops, ga, next) s =>
      if tswUser c && ops.any COp.privileged then s
      else (match evalOps env l c ga next ops {} s with
        | .ok e s => (match outCheck env l e s with
          | .ok _ s => performOut env l e s
          | .wait s => s
          | _ => s)
        | .wait s => s
        | _ => s)
    | .wait s => s
    | _ => s

/-- A check that fails may be that of a TLB entry, which is then invalidated (20 R460): whether it was, and of which entry, is free. -/
def dropBadTlb (l : Nat) (s : State) : State :=
  let c := coreOf l s
  let ts := c.dtlb ++ c.itlb ++ c.tlb2
  let r := drawBelow (ts.length + 1) s
  match ts[r.1]? with
  | some t => modCore l (fun c => { c with dtlb := c.dtlb.erase t, itlb := c.itlb.erase t, tlb2 := c.tlb2.erase t }) r.2
  | none => r.2

end Sys2Proof.Machine
end

