-- ==== Sys2Proof/Machine/IntaglioJob.lean ====
section
/-! DEFINITION. One Intaglio request as a function of its descriptor, its key, its context and its input (19_intaglio R430 to
R434, R441, R442, R445 to R447, R450). -/

namespace Sys2Proof.Machine

/-- 16 MiB. -/
def mib16 : Nat := 0x1000000

/-- Fields of a descriptor (R431). -/
structure IntDesc where
  op : Nat
  mode : Nat
  flags : Nat
  tagLen : Nat
  slot : Nat
  inLen : Nat
  outLen : Nat
  inAddr : Nat
  outAddr : Nat
  ctxAddr : Nat
  tag : Nat
  aux : Nat
  rsv : Bool
deriving DecidableEq, Repr

/-- Read a descriptor. -/
def intDesc (b : List Byte) : IntDesc :=
  { op := natAt b 0 1, mode := natAt b 1 1, flags := natAt b 2 1, tagLen := natAt b 3 1, slot := natAt b 4 2, inLen := natAt b 8 4,
    outLen := natAt b 12 4, inAddr := natAt b 16 8, outAddr := natAt b 24 8, ctxAddr := natAt b 32 8, tag := natAt b 40 8,
    aux := natAt b 48 8, rsv := natAt b 6 2 != 0 || natAt b 56 8 != 0 }

/-- Key bytes that an algorithm code requires (R441): least and most; none for an undefined code. -/
def algKey (alg : Nat) : Option (Nat × Nat) :=
  match alg with
  | 1 => some (16, 16) | 2 => some (24, 24) | 3 => some (32, 32) | 4 => some (32, 32) | 5 => some (64, 64) | 0x10 => some (16, 64)
  | _ => none

/-- Digest bytes of a hash number 0 to 4 (R430). -/
def digestLen (k : Nat) : Nat :=
  match k with
  | 0 => 32 | 1 => 48 | 2 => 64 | 3 => 32 | _ => 64

/-- The mode is defined for the opcode (R431). -/
def modeOk (op mode : Nat) : Bool :=
  match op with
  | 1 | 2 => decide (mode ≤ 4)
  | 3 | 4 => decide (0x10 ≤ mode ∧ mode ≤ 0x15)
  | 5 => decide (0x20 ≤ mode ∧ mode ≤ 0x24)
  | 6 | 7 => mode == 0x30 || mode == 0x31
  | 0x10 => (algKey mode).isSome
  | 0x11 | 0x12 | 0x13 => mode == 0
  | _ => false

/-- The full tag or MAC length of a mode, 0 where it has none. -/
def fullTag (op mode : Nat) : Nat :=
  if op ≤ 2 then (if mode = 3 then 16 else 0)
  else if op ≤ 4 then (if mode = 0x10 then 16 else digestLen (mode - 0x11))
  else 0

/-- `TAG_LEN` is permitted (R430, R431). -/
def tagOk (op mode t : Nat) : Bool :=
  t == 0 || (decide (t ≤ fullTag op mode) &&
    (if op ≤ 2 then mode == 3 && decide (12 ≤ t)
     else if op ≤ 4 then (if mode = 0x10 then decide (8 ≤ t) else decide (16 ≤ t)) else false))

/-- `IN_LEN` is within R430. -/
def lenOk (op mode n : Nat) : Bool :=
  match op with
  | 1 | 2 =>
    (match mode with
     | 0 | 1 => decide (16 ≤ n ∧ n ≤ mib16 ∧ n % 16 = 0)
     | 2 => decide (1 ≤ n ∧ n ≤ mib16)
     | 3 => decide (n ≤ mib16)
     | _ => decide (16 ≤ n ∧ n ≤ mib16))
  | 3 | 4 | 5 => decide (n ≤ mib16)
  | 6 => if mode = 0x30 then decide (16 ≤ n ∧ n ≤ mib16 ∧ n % 8 = 0) else decide (1 ≤ n ∧ n ≤ mib16)
  | 7 => if mode = 0x30 then decide (24 ≤ n ∧ n ≤ mib16 + 8 ∧ n % 8 = 0) else decide (16 ≤ n ∧ n ≤ mib16 + 8 ∧ n % 8 = 0)
  | _ => true

/-- The request needs a cipher context (R433). -/
def needsCtx (op mode : Nat) : Bool := (decide (op ≤ 2) && decide (1 ≤ mode)) || op == 4

/-- `AUX` is as R431 requires. -/
def auxOk (d : IntDesc) : Bool :=
  if d.op = 0x10 then
    bits d.aux 39 0 == 0 && bits d.aux 63 54 == 0 &&
    (if d.mode = 0x10 then decide (16 ≤ bits d.aux 46 40 ∧ bits d.aux 46 40 ≤ 64) else bits d.aux 46 40 == 0)
  else d.aux == 0

/-- `PARAM_ERROR` from the descriptor alone (R432, R433, R450). -/
def intParamBad (d : IntDesc) : Bool :=
  !modeOk d.op d.mode || decide (1 < d.flags) || (d.flags == 1 && !(decide (d.op ≤ 7) && decide (d.inLen ≤ 4096))) ||
  !tagOk d.op d.mode d.tagLen || d.rsv || !lenOk d.op d.mode d.inLen || !auxOk d || (d.op == 5 && d.slot != 0xFFFF) ||
  (needsCtx d.op d.mode != (d.ctxAddr != 0)) || decide (d.ctxAddr % 128 ≠ 0)

/-- Tag or MAC bytes of a request. -/
def tagBytes (d : IntDesc) : Nat := if d.tagLen = 0 then fullTag d.op d.mode else d.tagLen

/-- `WRAP_LEN` for a key length (R445). -/
def wrapLen (k : Nat) : Nat := 8 * cdiv (32 + k) 8 + 8

/-- Blob bytes for a key length. -/
def blobLen (k : Nat) : Nat := 32 + wrapLen k

/-- Key bytes that GENKEY makes. -/
def genLen (d : IntDesc) : Nat := if d.mode = 0x10 then bits d.aux 46 40 else ((algKey d.mode).map (·.1)).getD 0

/-- Output bytes that a request needs (R432); `k` is the key length of the slot for WRAP. -/
def intOutNeed (d : IntDesc) (k : Nat) : Nat :=
  match d.op with
  | 1 | 2 => d.inLen
  | 3 => tagBytes d
  | 5 => digestLen (d.mode - 0x20)
  | 6 => if d.mode = 0x30 then d.inLen + 8 else 8 * cdiv d.inLen 8 + 8
  | 7 => d.inLen - 8
  | 0x10 => if d.outAddr = 0 then 0 else blobLen (genLen d)
  | 0x12 => blobLen k
  | _ => 0

/-- The mode is permitted by the slot's algorithm (R441). -/
def algPermits (alg op mode : Nat) : Bool :=
  if alg ≤ 3 then (decide (op ≤ 2) && decide (mode ≤ 3)) || (decide (3 ≤ op ∧ op ≤ 4) && mode == 0x10) || decide (6 ≤ op ∧ op ≤ 7)
  else if alg ≤ 5 then decide (op ≤ 2) && mode == 4
  else decide (3 ≤ op ∧ op ≤ 4) && decide (0x11 ≤ mode)

/-- The usage bit of an opcode (R442). -/
def usageBit (op : Nat) : Nat :=
  match op with
  | 1 => 0 | 2 => 1 | 3 => 2 | 4 => 3 | 6 => 4 | _ => 5

/-- A context breaks its form (R433). -/
def ctxBad (d : IntDesc) (c : List Byte) : Bool :=
  natAt c 0x68 8 != 0 || natAt c 0x70 8 != 0 || natAt c 0x78 8 != 0 || (decide (d.op ≤ 2) && d.mode == 3 && natAt c 12 4 != 0)

/-- The number of XTS units of a text, none where its last unit is shorter than 16 bytes or a unit is out of range (R433). -/
def xtsUnits (unit n : Nat) : Option Nat :=
  if unit = 0 then some 1
  else if unit < 16 ∨ mib16 < unit then none
  else if n % unit ≠ 0 ∧ n % unit < 16 then none else some (cdiv n unit)

/-- The context after a success: `GEN` counted, `IV` and tag as R434 gives. -/
def ctxAfter (c iv tag : List Byte) : List Byte :=
  fixLen 0 16 iv ++ bytesAt c 0x10 16 ++ (if tag.isEmpty then bytesAt c 0x20 64 else fixLen 0 64 tag) ++
  beBytes 8 (natAt c 0x60 8 + 1) ++ bytesAt c 0x68 24

/-- The IV that a cipher mode takes from a context (R433). -/
def ivOf (mode : Nat) (c : List Byte) : List Byte :=
  match mode with
  | 0 => []
  | 3 => bytesAt c 0 12
  | _ => bytesAt c 0 16

/-- The text that a DECRYPT request makes. -/
def plainText (d : IntDesc) (key c input : List Byte) : List Byte := decipher d.mode key (ivOf d.mode c) (natAt c 0x1C 4) input

/-- The context after an ENCRYPT or DECRYPT of `n` bytes (R434): `last` is the last block of ciphertext, `tag` the tag of a sealing. -/
def cipherCtx (d : IntDesc) (c : List Byte) (n : Nat) (last tag : List Byte) : List Byte :=
  let iv := bytesAt c 0 16
  match d.mode with
  | 0 => []
  | 1 => ctxAfter c last []
  | 2 => ctxAfter c (beBytes 16 (beNat iv + cdiv n 16)) []
  | 3 => if d.op = 1 then ctxAfter c (iv.take 8 ++ beBytes 4 (natAt c 8 4 + 1) ++ [0, 0, 0, 0]) tag else ctxAfter c iv []
  | _ => ctxAfter c (beBytes 16 (beNat iv + (xtsUnits (natAt c 0x1C 4) n).getD 0)) []

/-- What a cipher, MAC, hash or key-wrap request comes to: status, output, context after it. -/
def intCompute (d : IntDesc) (key c aad input : List Byte) : Nat × List Byte × List Byte :=
  let n := input.length
  match d.op with
  | 1 =>
    let out := encipher d.mode key (ivOf d.mode c) (natAt c 0x1C 4) input
    (0, out, cipherCtx d c n (out.drop (n - 16)) ((gcmTag key (ivOf 3 c) aad out).take (tagBytes d)))
  | 2 =>
    if d.mode = 3 ∧ (gcmTag key (ivOf 3 c) aad input).take (tagBytes d) ≠ bytesAt c 0x20 (tagBytes d) then (0x30, [], [])
    else (0, plainText d key c input, cipherCtx d c n (input.drop (n - 16)) [])
  | 3 => (0, fixLen 0 (tagBytes d) (macOf d.mode key input), [])
  | 4 => if fixLen 0 (tagBytes d) (macOf d.mode key input) = bytesAt c 0x20 (tagBytes d) then (0, [], ctxAfter c (bytesAt c 0 16) []) else (0x30, [], [])
  | 5 => (0, hashOf (d.mode - 0x20) input, [])
  | 6 => (0, kwWrap (d.mode == 0x31) key input, [])
  | 7 => (match kwUnwrap (d.mode == 0x31) key input with
          | some t => (0, t, [])
          | none => (0x30, [], []))
  | _ => (0, [], [])

/-- The ASCII bytes of a string. -/
def ascBytes (t : String) : List Byte := t.toList.map (fun c => BitVec.ofNat 8 c.toNat)

/-- The partition KEK (18 R411, R412): owner hash in force and `UUID`. -/
def kekOf (owner uuid : List Byte) : List Byte := kdf Config.deviceSecret (ascBytes "KEK") (owner ++ uuid) 256

/-- The clear header of a blob (R445). -/
def blobHeader (alg usage : Nat) (never : Bool) (k : Nat) (uuid : List Byte) : List Byte :=
  [1, BitVec.ofNat 8 alg] ++ beBytes 2 usage ++ [BitVec.ofNat 8 (b2n never), BitVec.ofNat 8 k] ++ beBytes 2 (wrapLen k) ++
  List.replicate 8 0 ++ fixLen 0 16 uuid

/-- A blob (R445). -/
def blobOf (kek : List Byte) (alg usage : Nat) (never : Bool) (key uuid : List Byte) : List Byte :=
  let h := blobHeader alg usage never key.length uuid
  h ++ kwWrap true kek (h ++ key)

/-- The layout of a blob fails (R447 step 1). -/
def blobBad (b : List Byte) (inLen : Nat) : Bool :=
  let k := natAt b 5 1
  natAt b 0 1 != 1 || (match algKey (natAt b 1 1) with | some r => !(decide (r.1 ≤ k) && decide (k ≤ r.2)) | none => true) ||
  natAt b 6 2 != wrapLen k || inLen != 32 + natAt b 6 2 || natAt b 8 8 != 0 || decide (1 < natAt b 4 1) || decide (64 ≤ natAt b 2 2)

/-- The key of a blob, none where the integrity check of R447 step 5 fails. -/
def blobKey (kek b : List Byte) : Option (List Byte) :=
  match kwUnwrap true kek (b.drop 32) with
  | none => none
  | some t =>
    let key := t.drop 32
    let k := natAt b 5 1
    if t.take 32 = bytesAt b 0 32 ∧ key.length = k ∧ ¬ ((natAt b 1 1 = 4 ∨ natAt b 1 1 = 5) ∧ key.take (k / 2) = key.drop (k / 2)) then some key else none

end Sys2Proof.Machine
end

