-- ==== Sys2Proof/Machine/OpsPart.lean ====
section
/-! DEFINITION. Storage as the agents outside the cores reach it by partition real address (09 R192; 15 R342; 17 R400; 18 R425):
mapped or not, here or at a remote home (14 R322), read with poison, written at SYSTEM scope. -/

namespace Sys2Proof.Machine

/-- The pieces of `n` bytes from an address, none crossing a line. -/
def pieces (a n : Nat) : List (Nat × Nat) :=
  if n = 0 then []
  else (linesOf a n).map (fun ln =>
    let lo := max a (ln * 128)
    let hi := min (a + n) (ln * 128 + 128)
    (lo, hi - lo))

/-- Every byte lies in an extent of the partition. -/
def partMapped (p a n : Nat) (s : State) : Bool := (pieces a n).all (fun q => (armOf p q.1 s).isSome)

/-- The storage attribute of a place: that of its extent, or a stricter one that the access names (R193, R204; 24 R534). -/
def attrAt (least p real : Nat) (s : State) : Nat := max least ((extentOf p real s).elim 0 extAttr)

/-- The lines of a range that an agent cannot read yet, as places of partition storage with their attribute: their home is remote and they
are not here, or a write of an agent to them is still on its way (10 R231). -/
def partMissingAs (least : Nat) (who : Agent) (p a n : Nat) (s : State) : List (Nat × Nat) :=
  (pieces a n).filterMap (fun q => match armOf p q.1 s with
    | some x => if agentHas who (attrAt least p q.1 s) x s then none else some (attrAt least p q.1 s, x)
    | none => none)

/-- Those lines, under the attributes of their extents. -/
def partMissing (who : Agent) (p a n : Nat) (s : State) : List (Nat × Nat) := partMissingAs 0 who p a n s

/-- Ask the homes of missing lines for them. -/
def askMissing (who : Agent) (p : Nat) (xs : List (Nat × Nat)) (s : State) : State :=
  xs.foldl (fun s x => agentAsk who (some p) x.1 x.2 s) s

/-- The lines of a range that this module may not write as its own: another module holds them. -/
def partUnowned (p a n : Nat) (s : State) : List Nat :=
  (pieces a n).filterMap (fun q => match armOf p q.1 s with
    | some x => if remoteReady x true s then none else some x
    | none => none)

/-- Ask for the ownership of lines. -/
def askOwned (who : Agent) (p : Nat) (xs : List Nat) (s : State) : State := xs.foldl (fun s x => askLine x true who (some p) s) s

/-- What reading bytes at a partition real address does beside answering (11 R240, R242 to R244; 12 R263). -/
def partSeenAs (least : Nat) (who : Agent) (p a n : Nat) (s : State) : State :=
  (pieces a n).foldl (fun s q => match armOf p q.1 s with
    | some x => agentSeen who (some p) (attrAt least p q.1 s) x q.2 s
    | none => s) s

/-- The same, under the attributes of the extents. -/
def partSeen (who : Agent) (p a n : Nat) (s : State) : State := partSeenAs 0 who p a n s

/-- Read bytes at a partition real address: the bytes, and whether a line of them is poisoned. Bytes outside every extent read 0. -/
def partReadAs (least : Nat) (who : Agent) (p a n : Nat) (s : State) : List Byte × Bool :=
  (pieces a n).foldl (fun r q => match armOf p q.1 s with
    | some x => let t := agentRead who (attrAt least p q.1 s) x q.2 s; (r.1 ++ t.1, r.2 || t.2)
    | none => (r.1 ++ List.replicate q.2 0, r.2)) ([], false)

/-- The same, under the attributes of the extents. -/
def partRead (who : Agent) (p a n : Nat) (s : State) : List Byte × Bool := partReadAs 0 who p a n s

/-- The first poisoned byte of a range, by its offset. -/
def partBad (who : Agent) (p a n : Nat) (s : State) : Option Nat :=
  ((pieces a n).find? (fun q => (partRead who p q.1 q.2 s).2)).map (fun q => q.1 - a)

/-- A write of an agent to a remote line that this module owns is made in its copy, which then goes home; else the home is sent it. -/
def remoteWrite (who : Agent) (part : Option Nat) (x : Nat) (data : List Byte) (s : State) : State :=
  if remoteReady x true s then
    let s := noteOld (.others none) x (cohBytes x data.length s) (cleanLine none (lineOf x) s)
    releaseRemote (lineOf x) who part (homeSetAll x data (onCores (fun _ => true) (loseResv (lineOf x)) s))
  else sendReq 6 x ([1, BitVec.ofNat 8 data.length] ++ data) who part s

/-- A line is marked poisoned at its home, as an agent's poisoned write makes it (12 R267, 21 R480); above the used capacity that is an
event (12 R263). -/
def poisonWrite (who : Agent) (part : Option Nat) (x : Nat) (s : State) : State :=
  if !isLocal x s then sendReq 6 (x / 128 * 128) [5, 0] who part s
  else if physKind (physOfAddr x) s != .dram then
    raisePart 0x0B part x s
  else setPoison (lineOf x) true (cleanLine none (lineOf x) s)

/-- A write of an agent, or without bytes a poisoned one, is made here or sent. -/
def agentStore (w : LateWrite) (s : State) : State :=
  if w.data.isEmpty then poisonWrite w.who w.part w.addr s
  else if isLocal w.addr s then agentWrite w.who w.part w.addr w.data s
  else remoteWrite w.who w.part w.addr w.data s

/-- A write of an agent, behind its earlier ones that are not performed yet: they share a transaction ID (10 R231). -/
def agentPut (w : LateWrite) (s : State) : State :=
  if agentPending w.who s then { s with arm := { s.arm with later := s.arm.later ++ [w] } } else agentStore w s

/-- The writes that waited behind others are made, as far as they may be now. -/
def agentLater (s : State) : State :=
  s.arm.later.foldl (fun s w => agentPut w s) { s with arm := { s.arm with later := [] } }

/-- Write bytes at a partition real address, performed at SYSTEM scope; a remote home is sent them. Bytes outside every extent
are not written. -/
def partWrite (who : Agent) (p a : Nat) (data : List Byte) (s : State) : State :=
  (pieces a data.length).foldl (fun s q => match armOf p q.1 s with
    | some x => agentPut { who := who, part := some p, addr := x, data := (data.drop (q.1 - a)).take q.2 } s
    | none => s) s

/-- The publication `k` of a partition (18 R423). -/
def pubOf (p k : Nat) (s : State) : Option Pub := tget none (p * 16 + k) s.tr.pubs

/-- A range lies in one bound publication of the partition with the permissions asked for (18 R425, 24 R537). -/
def inPub (p a n perm : Nat) (s : State) : Bool :=
  n == 0 || (List.range 16).any (fun k => match pubOf p k s with
    | some u => decide (u.base ≤ a) && decide (a + n ≤ u.base + 2 ^ u.sizeLog2) && u.perm &&& perm == perm
    | none => false)

/-- The lines of a range are marked poisoned at their homes, as an agent's poisoned write makes them (12 R267, 21 R480). -/
def partPoisonMark (who : Agent) (p a n : Nat) (s : State) : State :=
  (pieces a n).foldl (fun s q => match armOf p q.1 s with
    | some x => agentPut { who := who, part := some p, addr := x, data := [] } s
    | none => s) s

end Sys2Proof.Machine
end

