-- ==== Sys2Proof/Machine/OpsJournal.lean ====
section
/-! DEFINITION. The channel journal: entries as bytes, transitions, MIRROR and MIRROR_ACK (16_channel_journal R365 to R376). -/

namespace Sys2Proof.Machine

/-- The partner's node (02 R28). -/
def partnerNode (s : State) : Nat := (s.pln.module_.map (·.partnerNode)).getD 0

/-- A duplex partner is configured (22 R496). -/
def partnerOn (s : State) : Bool := (s.pln.module_.map (fun m => m.partnerMode == 1)).getD false

/-- Entry i. -/
def jent (i : Nat) (s : State) : JEntry := tget {} i s.jnl.e

/-- Write entry i. -/
def setJent (i : Nat) (e : JEntry) (s : State) : State := { s with jnl := { s.jnl with e := tset {} i e s.jnl.e } }

/-- The 64 bytes of an entry (R366). -/
def JEntry.bytes (e : JEntry) : List Byte :=
  beBytes 1 (e.state % 8 * 32 + e.trans % 32) ++
  beBytes 1 (b2n e.mirror + 2 * b2n e.takenOver + 4 * b2n e.simplex + 8 * b2n e.openSent + 16 * b2n e.hold) ++
  beBytes 1 (e.subclass % 8 * 32 + e.priority % 8 * 4 + e.quality % 4) ++ beBytes 1 e.part ++ beBytes 1 e.devStatus ++
  beBytes 1 e.chCode ++ beBytes 2 e.flags ++ beBytes 8 e.seq ++ beBytes 8 e.tor ++ beBytes 8 e.orderAddr ++ beBytes 4 e.ordinal ++
  beBytes 2 e.engine ++ [0, 0] ++ beBytes 8 e.mark ++ beBytes 8 e.param ++ beBytes 8 e.release

/-- The entry that 64 bytes spell (R366). -/
def jentOf (b : List Byte) : JEntry :=
  let f := natAt b 1 1
  let c := natAt b 2 1
  { state := natAt b 0 1 / 32, trans := natAt b 0 1 % 32, mirror := f.testBit 0, takenOver := f.testBit 1, simplex := f.testBit 2,
    openSent := f.testBit 3, hold := f.testBit 4, subclass := c / 32, priority := c / 4 % 8, quality := c % 4, part := natAt b 3 1,
    devStatus := natAt b 4 1, chCode := natAt b 5 1, flags := natAt b 6 2, seq := natAt b 8 8, tor := natAt b 16 8,
    orderAddr := natAt b 24 8, ordinal := natAt b 32 4, engine := natAt b 36 2, mark := natAt b 40 8, param := natAt b 48 8,
    release := natAt b 56 8 }

/-- The operation on a subchannel that has not ended. -/
def opOf (i : Nat) (s : State) : Option ChOp := tget none i s.ch.ops

/-- Write the operation of a subchannel. -/
def setOp (i : Nat) (o : Option ChOp) (s : State) : State := { s with ch := { s.ch with ops := tset none i o s.ch.ops } }

/-- Change the operation of a subchannel, where there is one. -/
def modOp (i : Nat) (f : ChOp → ChOp) (s : State) : State :=
  match opOf i s with
  | some o => setOp i (some (f o)) s
  | none => s

/-- What is kept of the operation that last ended on a subchannel. -/
def lastOf (i : Nat) (s : State) : LastOp := tget {} i s.ch.last

/-- Write it. -/
def setLast (i : Nat) (x : LastOp) (s : State) : State := { s with ch := { s.ch with last := tset {} i x s.ch.last } }

/-- Transition codes (R368). -/
def trStart : Nat := 1
def trCancel : Nat := 2
def trModify : Nat := 3
def trTake : Nat := 4
def trOpen : Nat := 5
def trSuspend : Nat := 6
def trRelease : Nat := 7
def trOrderEnd : Nat := 8
def trMark : Nat := 9
def trHalt : Nat := 10
def trFinal : Nat := 11
def trAccept : Nat := 12
def trTakeover : Nat := 13
def trRedrive : Nat := 14

/-- Transitions that wait for the partner's copy (R368, R370). -/
def trSync (t : Nat) : Bool := t == 1 || t == 2 || t == 3 || t == 11

/-- Transitions are mirrored: the pair is PAIRED, in RESYNC or in HOLDDOWN (R376). -/
def mirrorOn (s : State) : Bool := s.jnl.pair == 2 || s.jnl.pair == 3

/-- Body of a MIRROR (R374). -/
def mirrorBody (i trans : Nat) (sync : Bool) (e : JEntry) : List Byte :=
  beBytes 8 (pack [(63, 46, i), (45, 41, trans), (40, 40, b2n sync)]).toNat ++ JEntry.bytes { e with mirror := false }

/-- Body of a MIRROR_ACK (R374). -/
def mirrorAckBody (i trans : Nat) (conflict : Bool) (seq tor : Nat) : List Byte :=
  beBytes 8 (pack [(63, 46, i), (45, 41, trans), (40, 39, b2n conflict)]).toNat ++ beBytes 8 seq ++ beBytes 8 tor

/-- Send the MIRROR of an entry and keep it until it is acknowledged (R370, R372). -/
def sendMirror (i trans : Nat) (sync : Bool) (core : Option Nat) (e : JEntry) (s : State) : State :=
  let tag := freshTag s
  let m : MirrorOut := { index := i, trans := trans, sync := sync, entry := { e with mirror := false }, tag := tag, core := core,
                         first := s.tor.tor, last := s.tor.tor, sends := 1, reported := false }
  let s := { s with arm := { s.arm with nextTag := (s.arm.nextTag + 1) % 65536 }, jnl := { s.jnl with out := s.jnl.out ++ [m] } }
  sendMsg (partnerNode s) 0 tag 0 (mirrorBody i trans sync e) s

/-- The operation of the subchannel, or the one that last ended on it, is not mirrored: its START received CONFLICT (R375). -/
def opConflict (i : Nat) (s : State) : Bool :=
  match opOf i s with
  | some o => o.conflict
  | none => (lastOf i s).conflict

/-- Write a transition (R367, R368): the entry as `f` makes it, with its code, TOR and quality; mirrored while the pair is in
service, and otherwise marked SIMPLEX (R376). -/
def jnlTrans (i t : Nat) (core : Option Nat) (f : JEntry → JEntry) (s : State) : State :=
  let mir := mirrorOn s && !opConflict i s
  let e := f (jent i s)
  let e := { e with trans := t, tor := s.tor.tor, quality := torQuality s, simplex := !mir }
  let s := setJent i e s
  if mir then sendMirror i t (trSync t) core e s else s

/-- A sync transition of this subchannel written now completes at once (R376). -/
def syncAtOnce (i : Nat) (s : State) : Bool := !(mirrorOn s && !opConflict i s)

/-- What the channel subsystem counts and logs of an entry (R385). -/
def jnlLog (i detail : Nat) (s : State) : State := logState (srcJnl i) detail (patina (srcJnl i) s)

end Sys2Proof.Machine
end

