-- ==== Sys2Proof/Machine/Deflate.lean ====
section
/-! DEFINITION. DEFLATE as RFC 1951 defines it (17_rasp R386, R389 to R391, R406): decoding, which may stop and go on at any bit, and the
blocks that compression writes. Which matches compression finds and which codes it computes the spec leaves to the engine: choices of
Config, taken where they are sound. -/

namespace Sys2Proof.Machine

/-! ### Bits and codes -/

/-- The bits of bytes, each byte's least significant bit first. -/
def bitsOf (bs : List Byte) : List Bool := bs.flatMap (fun b => (List.range 8).map (fun i => b.getLsbD i))

/-- `n` bits of a number, least significant first. -/
def numBits (n v : Nat) : List Bool := (List.range n).map (fun i => v.testBit i)

/-- The number that bits spell, least significant first. -/
def bitsNat (bs : List Bool) : Nat := bs.foldr (fun b a => b2n b + 2 * a) 0

/-- Whole bytes of a list of bits, and the bits left over. -/
def bitsBytes (bs : List Bool) : List Byte × List Bool :=
  let n := bs.length / 8
  ((List.range n).map (fun k => BitVec.ofNat 8 (bitsNat ((bs.drop (8 * k)).take 8))), bs.drop (8 * n))

/-- What decoding one part of a stream comes to: its value and the bits behind it; the bits do not suffice; or an error of R406. -/
inductive Dec (α : Type) where
  | ok (a : α) (rest : List Bool)
  | need
  | bad (code : Nat) (rest : List Bool)

/-- One part after another. -/
def Dec.andThen {α β : Type} (d : Dec α) (f : α → List Bool → Dec β) : Dec β :=
  match d with
  | .ok a r => f a r
  | .need => .need
  | .bad c r => .bad c r

/-- A number of `n` bits. -/
def takeBits (n : Nat) (bs : List Bool) : Dec Nat := if bs.length < n then .need else .ok (bitsNat (bs.take n)) (bs.drop n)

/-- A prefix code: how many codes each length has, and the symbols by length and then by value (RFC 1951, 3.2.2). -/
structure Huff where
  counts : List Nat
  syms : List Nat
deriving DecidableEq, Repr

/-- The code that lengths define. -/
def huffOf (lens : List Nat) : Huff :=
  { counts := (List.range 16).map (fun k => if k = 0 then 0 else (lens.filter (· == k)).length)
    syms := (List.range 16).flatMap (fun k => if k = 0 then [] else ((List.range lens.length).zip lens).filterMap (fun e => if e.2 = k then some e.1 else none)) }

/-- The longest length of a code. -/
def Huff.longest (h : Huff) : Nat := ((List.range 16).filter (fun k => h.counts.getD k 0 != 0)).foldl max 0

/-- The space that lengths use of a complete code's 2^15. -/
def kraft (lens : List Nat) : Nat := (lens.map (fun k => if k = 0 then 0 else 2 ^ (15 - k))).foldl (· + ·) 0

/-- A complete code. -/
def fullCode (lens : List Nat) : Bool := kraft lens == 2 ^ 15

/-- A code of distances: complete, or the one that RFC 1951 allows for at most one distance. -/
def distCode (lens : List Nat) : Bool := fullCode lens || lens.all (· == 0) || (lens.filter (· != 0) == [1])

/-- A symbol, one bit at a time: `code` is what has been read, `first` the first code of this length, `index` its place. -/
def symGo (h : Huff) : Nat → Nat → Nat → Nat → Nat → List Bool → Dec Nat
  | 0, _, _, _, _, rest => .bad 0x14 rest
  | _ + 1, _, _, _, _, [] => .need
  | n + 1, len, code, first, index, b :: t =>
    let code := code + b2n b
    let count := h.counts.getD len 0
    if code < first + count then .ok (h.syms.getD (index + (code - first)) 0) t
    else symGo h n (len + 1) (2 * code) (2 * (first + count)) (index + count) t

/-- A symbol of a code. -/
def takeSym (h : Huff) (bs : List Bool) : Dec Nat := symGo h h.longest 1 0 0 0 bs

/-! ### Tables (RFC 1951, 3.2.5 to 3.2.7) -/

/-- Base values of the length symbols from 257 on, and their extra bits. -/
def lenBase : List Nat := [3, 4, 5, 6, 7, 8, 9, 10, 11, 13, 15, 17, 19, 23, 27, 31, 35, 43, 51, 59, 67, 83, 99, 115, 131, 163, 195, 227, 258]
def lenExtra : List Nat := [0, 0, 0, 0, 0, 0, 0, 0, 1, 1, 1, 1, 2, 2, 2, 2, 3, 3, 3, 3, 4, 4, 4, 4, 5, 5, 5, 5, 0]

/-- Base values of the distance symbols, and their extra bits. -/
def distBase : List Nat := [1, 2, 3, 4, 5, 7, 9, 13, 17, 25, 33, 49, 65, 97, 129, 193, 257, 385, 513, 769, 1025, 1537, 2049, 3073, 4097, 6145,
  8193, 12289, 16385, 24577]
def distExtra : List Nat := [0, 0, 0, 0, 1, 1, 2, 2, 3, 3, 4, 4, 5, 5, 6, 6, 7, 7, 8, 8, 9, 9, 10, 10, 11, 11, 12, 12, 13, 13]

/-- The fixed codes. -/
def fixedLit : List Nat := List.replicate 144 8 ++ List.replicate 112 9 ++ List.replicate 24 7 ++ List.replicate 8 8
def fixedDist : List Nat := List.replicate 32 5

/-- The order of the code lengths of the code-length code. -/
def clOrder : List Nat := [16, 17, 18, 0, 8, 7, 9, 6, 10, 5, 11, 4, 12, 3, 13, 2, 14, 1, 15]

/-- The code lengths of a dynamic block, newest first in `acc` (R406: BAD_TABLE). -/
def lensGo (h : Huff) (total : Nat) : Nat → List Nat → List Bool → Dec (List Nat)
  | 0, acc, bs => if acc.length = total then .ok acc.reverse bs else .bad 0x13 bs
  | n + 1, acc, bs =>
    if acc.length = total then .ok acc.reverse bs
    else if total < acc.length then .bad 0x13 bs
    else (takeSym h bs).andThen (fun s r =>
      if s < 16 then lensGo h total n (s :: acc) r
      else if s = 16 then
        match acc with
        | [] => .bad 0x13 r
        | x :: _ => (takeBits 2 r).andThen (fun k r => lensGo h total n (List.replicate (3 + k) x ++ acc) r)
      else if s = 17 then (takeBits 3 r).andThen (fun k r => lensGo h total n (List.replicate (3 + k) 0 ++ acc) r)
      else (takeBits 7 r).andThen (fun k r => lensGo h total n (List.replicate (11 + k) 0 ++ acc) r))

/-- The lengths of the code-length code, as its positions name them. -/
def clPlace (ls : List Nat) : List Nat := (List.range 19).map (fun s => ((clOrder.zip ls).find? (fun e => e.1 == s)).elim 0 (·.2))

/-- `n` lengths of three bits. -/
def clTake : Nat → List Nat → List Bool → Dec (List Nat)
  | 0, acc, bs => .ok acc.reverse bs
  | n + 1, acc, bs => (takeBits 3 bs).andThen (fun k r => clTake n (k :: acc) r)

/-- The codes of a dynamic block: lengths of literals and lengths, and of distances. -/
def takeTables (bs : List Bool) : Dec (List Nat × List Nat) :=
  (takeBits 5 bs).andThen (fun hlit r => (takeBits 5 r).andThen (fun hdist r => (takeBits 4 r).andThen (fun hclen r =>
    (clTake (hclen + 4) [] r).andThen (fun cl r =>
      let cl := clPlace cl
      if !fullCode cl then .bad 0x13 r
      else (lensGo (huffOf cl) (hlit + 257 + hdist + 1) (hlit + 257 + hdist + 1) [] r).andThen (fun ls r =>
        let lit := ls.take (hlit + 257)
        let dist := ls.drop (hlit + 257)
        if fullCode lit && distCode dist then .ok (lit, dist) r else .bad 0x13 r)))))

/-! ### Decoding -/

/-- Where a decoding stands: before a block (0), in a stored block (1) with bytes left, in a coded block (2) with its codes. -/
structure InfSt where
  mode : Nat := 0
  final : Bool := false
  left : Nat := 0
  lit : List Nat := []
  dist : List Nat := []
  hl : Huff := ⟨[], []⟩
  hd : Huff := ⟨[], []⟩
deriving DecidableEq, Repr

/-- A block's header. -/
def takeHead (bs : List Bool) : Dec InfSt :=
  (takeBits 1 bs).andThen (fun fin r => (takeBits 2 r).andThen (fun typ r =>
    let coded (lit dist : List Nat) : InfSt :=
      { mode := 2, final := fin == 1, lit := lit, dist := dist, hl := huffOf lit, hd := huffOf dist }
    if typ = 0 then
      (takeBits 32 (r.drop (r.length % 8))).andThen (fun n r =>
        if n % 65536 + n / 65536 = 65535 then .ok { mode := 1, final := fin == 1, left := n % 65536 } r else .bad 0x12 r)
    else if typ = 1 then .ok (coded fixedLit fixedDist) r
    else if typ = 2 then (takeTables r).andThen (fun t r => .ok (coded t.1 t.2) r)
    else .bad 0x11 r))

/-- An element of a coded block. -/
inductive Tok where
  | lit (b : Byte)
  | copy (len dist : Nat)
  | stop
deriving DecidableEq, Repr

/-- Read one. -/
def takeTok (st : InfSt) (bs : List Bool) : Dec Tok :=
  (takeSym st.hl bs).andThen (fun s r =>
    if s < 256 then .ok (.lit (BitVec.ofNat 8 s)) r
    else if s = 256 then .ok .stop r
    else if 286 ≤ s then .bad 0x14 r
    else (takeBits (lenExtra.getD (s - 257) 0) r).andThen (fun x r => (takeSym st.hd r).andThen (fun d r =>
      if 30 ≤ d then .bad 0x14 r
      else (takeBits (distExtra.getD d 0) r).andThen (fun y r =>
        .ok (.copy (lenBase.getD (s - 257) 0 + x) (distBase.getD d 0 + y)) r))))

/-- Copy `n` bytes from distance `d`; `win` is what has been decoded, newest byte first. -/
def copyBack (d : Nat) : Nat → List Byte → List Byte
  | 0, win => win
  | n + 1, win => copyBack d n (win.getD (d - 1) 0 :: win)

/-- How a decoding ends: more input is needed, the stream has ended, or an error. -/
inductive InfEnd where
  | need (st : InfSt) (rest : List Bool)
  | done (rest : List Bool)
  | bad (code : Nat) (rest : List Bool)

/-- A block has ended. -/
def blockEnd (st : InfSt) : InfSt := { st with mode := if st.final then 3 else 0 }

/-- Decode, part by part; every part takes bits. -/
def infGo : Nat → InfSt → List Byte → List Bool → InfEnd × List Byte
  | 0, st, win, bs => (.need st bs, win)
  | n + 1, st, win, bs =>
    match st.mode with
    | 0 =>
      (match takeHead bs with
       | .ok st' r => infGo n (if st'.mode = 1 ∧ st'.left = 0 then blockEnd st' else st') win r
       | .need => (.need st bs, win)
       | .bad c r => (.bad c r, win))
    | 1 =>
      (match takeBits 8 bs with
       | .ok b r => infGo n (if st.left ≤ 1 then blockEnd st else { st with left := st.left - 1 }) (BitVec.ofNat 8 b :: win) r
       | .need => (.need st bs, win)
       | .bad c r => (.bad c r, win))
    | 2 =>
      (match takeTok st bs with
       | .ok (.lit b) r => infGo n st (b :: win) r
       | .ok .stop r => infGo n (blockEnd st) win r
       | .ok (.copy k d) r => if win.length < d then (.bad 0x15 r, win) else infGo n st (copyBack d k win) r
       | .need => (.need st bs, win)
       | .bad c r => (.bad c r, win))
    | _ => (.done bs, win)

/-! ### The state between jobs (R392) -/

/-- A decoding's state as bytes: mode, the number of bits kept, those bits, and the lengths of the codes in force. The model's own layout
(log entry 33). -/
def infSave (st : InfSt) (rest : List Bool) : List Byte :=
  beBytes 1 (st.mode + 4 * b2n st.final) ++ beBytes 2 st.left ++ beBytes 2 rest.length ++ beBytes 2 st.lit.length ++ beBytes 1 st.dist.length ++
  fixLen 0 600 (bitsBytes (rest ++ List.replicate ((8 - rest.length % 8) % 8) false)).1 ++ (st.lit ++ st.dist).map (BitVec.ofNat 8)

/-- The state that bytes spell; none of them is the start of a stream. -/
def infLoad (b : List Byte) : InfSt × List Bool :=
  if b.isEmpty then ({}, [])
  else
    let nl := natAt b 5 2
    let lens := (b.drop 608).map (·.toNat)
    let lit := lens.take nl
    let dist := (lens.drop nl).take (natAt b 7 1)
    ({ mode := natAt b 0 1 % 4, final := decide (4 ≤ natAt b 0 1), left := natAt b 1 2, lit := lit, dist := dist, hl := huffOf lit, hd := huffOf dist },
     (bitsOf ((b.drop 8).take 600)).take (natAt b 3 2))

/-- What decoding DEFLATE data comes to (R386, R391, R406): the input is used up, with the output so far and the engine state;
the stream ends after some bytes of input; or an error of code 0x11 to 0x15 at an offset, with the output before it. -/
inductive InfRes where
  | more (out state : List Byte)
  | ended (out : List Byte) (used : Nat)
  | bad (code offset : Nat) (out : List Byte)
deriving DecidableEq, Repr

/-- Decode input after a history, from an engine state. An error is found at the byte of the last bit read (DEDUCED, log entry 33). -/
def inflate (state hist input : List Byte) : InfRes :=
  let x := infLoad state
  let bs := x.2 ++ bitsOf input
  let r := infGo (bs.length + 2) x.1 hist.reverse bs
  let out := (r.2.take (r.2.length - hist.length)).reverse
  match r.1 with
  | .need st rest => .more out (infSave st rest)
  | .done rest => .ended out (input.length - rest.length / 8)
  | .bad c rest => .bad c ((8 * input.length - rest.length - 1) / 8) out

/-! ### Compression (R389, R391) -/

/-- A copy that a choice names is one that the window allows: 3 to 258 bytes, within 32 KiB, of the bytes that come next. -/
def copyOk (win rest : List Byte) (k d : Nat) : Bool :=
  decide (3 ≤ k ∧ k ≤ 258 ∧ 1 ≤ d ∧ d ≤ 32768 ∧ d ≤ win.length ∧ k ≤ rest.length) && (copyBack d k win).take k == (rest.take k).reverse

/-- The elements of a block by a list of choices, one for each: a copy where it is sound, else a literal. -/
def tokGo : Nat → List (Option (Nat × Nat)) → List Byte → List Byte → List Tok
  | 0, _, _, _ => [.stop]
  | _ + 1, _, _, [] => [.stop]
  | n + 1, cs, win, b :: t =>
    match cs.head?.join with
    | some (k, d) =>
      if copyOk win (b :: t) k d then .copy k d :: tokGo n cs.tail (copyBack d k win) ((b :: t).drop k)
      else .lit b :: tokGo n cs.tail (b :: win) t
    | none => .lit b :: tokGo n cs.tail (b :: win) t

/-- The elements of a block (R389), its end included. -/
def tokens (hist block : List Byte) : List Tok :=
  tokGo (block.length + 1) (Config.lzChoices (hist.drop (hist.length - 32768)) block) hist.reverse block

/-- The index of a value among base values: the last that is not above it. -/
def baseIndex (base : List Nat) (v : Nat) : Nat := (base.filter (fun b => decide (b ≤ v))).length - 1

/-- The code of a symbol under lengths (RFC 1951, 3.2.2), most significant bit first. -/
def codeBits (lens : List Nat) (s : Nat) : List Bool :=
  let k := lens.getD s 0
  let first := (List.range k).foldl (fun c j => 2 * (c + (if j = 0 then 0 else (lens.filter (· == j)).length))) 0
  (numBits k (first + ((lens.take s).filter (· == k)).length)).reverse

/-- The bits of an element under two codes. -/
def tokBits (lit dist : List Nat) : Tok → List Bool
  | .lit b => codeBits lit b.toNat
  | .stop => codeBits lit 256
  | .copy k d =>
    let i := baseIndex lenBase k
    let j := baseIndex distBase d
    codeBits lit (257 + i) ++ numBits (lenExtra.getD i 0) (k - lenBase.getD i 0) ++ codeBits dist j ++ numBits (distExtra.getD j 0) (d - distBase.getD j 0)

/-- Two codes have a code for an element. -/
def tokCoded (lit dist : List Nat) : Tok → Bool
  | .lit b => lit.getD b.toNat 0 != 0
  | .stop => lit.getD 256 0 != 0
  | .copy k d => lit.getD (257 + baseIndex lenBase k) 0 != 0 && dist.getD (baseIndex distBase d) 0 != 0

/-- Codes that have a code for every element: 286 for literals and lengths, 30 for distances, and the code of their lengths. -/
def allLit : List Nat := List.replicate 226 8 ++ List.replicate 60 9
def allDist : List Nat := List.replicate 2 4 ++ List.replicate 28 5
def allCl : List Nat := [0, 0, 0, 0, 2, 0, 2, 0, 0, 2, 0, 2]

/-- Those codes as the tables of a dynamic block. -/
def allTables : List Bool × List Nat × List Nat :=
  (numBits 5 29 ++ numBits 5 29 ++ numBits 4 8 ++ allCl.flatMap (numBits 3) ++ (allLit ++ allDist).flatMap (codeBits (clPlace allCl)), allLit, allDist)

/-- The tables of a dynamic block: those that the engine computes for its elements, where they are sound; else codes for every element. -/
def dynTables (ts : List Tok) : List Bool × List Nat × List Nat :=
  let h := Config.dynChoice (ts.flatMap (fun t => match t with | .lit b => [b.toNat] | .copy k d => [256 + k, 1024 + d] | .stop => []))
  match takeTables h with
  | .ok t [] => if ts.all (tokCoded t.1 t.2) then (h, t.1, t.2) else allTables
  | _ => allTables

/-- A coded block: `BFINAL`, `BTYPE`, tables, elements. -/
def codedBlock (dynamic fin : Bool) (ts : List Tok) : List Bool :=
  if dynamic then
    let h := dynTables ts
    [fin, false, true] ++ h.1 ++ ts.flatMap (tokBits h.2.1 h.2.2)
  else [fin, true, false] ++ ts.flatMap (tokBits fixedLit fixedDist)

/-- One stored block behind `pos` bits. -/
def storedOne (pos : Nat) (fin : Bool) (b : List Byte) : List Bool :=
  [fin, false, false] ++ List.replicate ((8 - (pos + 3) % 8) % 8) false ++ numBits 16 b.length ++ numBits 16 (65535 - b.length) ++ bitsOf b

/-- Bytes as stored blocks of at most 16,384 bytes each (R389), behind `pos` bits. -/
def storedBlocks (fin : Bool) : Nat → Nat → List Byte → List Bool
  | 0, _, _ => []
  | n + 1, pos, b =>
    if b.length ≤ 16384 then storedOne pos fin b
    else
      let x := storedOne pos false (b.take 16384)
      x ++ storedBlocks fin n (pos + x.length) (b.drop 16384)

/-- A block as it is sent (R389): coded, or stored where that is shorter. -/
def oneBlock (dynamic fin : Bool) (pos : Nat) (hist block : List Byte) : List Bool :=
  let c := codedBlock dynamic fin (tokens hist block)
  let r := storedBlocks fin (block.length / 16384 + 1) pos block
  if r.length < c.length then r else c

/-- The blocks of a job's input (R389), of `size` bytes each, behind `pos` bits. -/
def blocksGo (dynamic fin : Bool) (size : Nat) : Nat → Nat → List Byte → List Byte → List Bool
  | 0, _, _, _ => []
  | n + 1, pos, hist, input =>
    if input.length ≤ size then oneBlock dynamic fin pos hist input
    else
      let x := oneBlock dynamic false pos hist (input.take size)
      x ++ blocksGo dynamic fin size n (pos + x.length) (hist ++ input.take size) (input.drop size)

/-- The bits of a job behind those that the last job left over: its blocks, or with `plain` its input as stored blocks alone, and what its
flush kind adds (R391). A job without input has a block only under FINISH. -/
def jobBits (plain dynamic : Bool) (flush blockLog2 : Nat) (left : List Bool) (hist input : List Byte) : List Bool :=
  let size := 2 ^ (if blockLog2 = 0 then 16 else blockLog2)
  let fin := flush == 3
  let body :=
    if input.isEmpty && !fin then []
    else if plain then storedBlocks fin (input.length / 16384 + 1) left.length input
    else blocksGo dynamic fin size (input.length / size + 1) left.length hist input
  let bs := left ++ body
  if flush = 1 ∨ flush = 2 then bs ++ storedOne bs.length false []
  else if fin then bs ++ List.replicate ((8 - bs.length % 8) % 8) false else bs

end Sys2Proof.Machine
end

