-- ==== Sys2Proof/Machine/RaspJob.lean ====
section
/-! DEFINITION. One Rasp job as a function of its parameters, its context area and its input (17_rasp R386 to R395, R404 to
R406): wrappers, checks, totals, the context area and errors. -/

namespace Sys2Proof.Machine

/-- Parameters of a job (R387, R391, R396). -/
structure RaspParams where
  decomp : Bool
  /-- 0 raw, 1 zlib, 2 gzip. -/
  wrapper : Nat
  dynamic : Bool
  flush : Nat
  blockLog2 : Nat
deriving DecidableEq, Repr

/-- What a job comes to (R397): `ctx` is the whole context area after success. -/
structure RaspRes where
  status : Nat
  read : Nat := 0
  out : List Byte := []
  check : Nat := 0
  trailing : Bool := false
  ended : Bool := false
  ctx : List Byte := []
deriving DecidableEq, Repr

/-- Adler-32 continued over bytes (RFC 1950). -/
def adler32 (c : Nat) (bs : List Byte) : Nat :=
  let r := bs.foldl (fun (p : Nat × Nat) b => let a := (p.1 + b.toNat) % 65521; (a, (p.2 + a) % 65521)) (c % 65536, c / 65536)
  r.2 * 65536 + r.1

/-- One bit of CRC-32. -/
def crc32Bit (c : Word) : Word := if c.getLsbD 0 then (c >>> 1) ^^^ 0xEDB88320 else c >>> 1

/-- CRC-32 continued over bytes (RFC 1952). -/
def crc32 (c : Nat) (bs : List Byte) : Nat :=
  let r := bs.foldl (fun (x : Word) b => (List.range 8).foldl (fun y _ => crc32Bit y) (x ^^^ b.setWidth 32)) (~~~(BitVec.ofNat 32 c))
  (~~~r).toNat

/-- The running check value of a wrapper over uncompressed data (R392). -/
def raspCheck (wrapper c : Nat) (bs : List Byte) : Nat := if wrapper = 1 then adler32 c bs else crc32 c bs

/-- The check value of no data. -/
def raspCheck0 (wrapper : Nat) : Nat := if wrapper = 1 then 1 else 0

/-- Bytes least significant first. -/
def leBytes (n w : Nat) : List Byte := (beBytes n w).reverse

/-- Length of a context area (R392). -/
def ctxLen : Nat := 0x8400

/-- What stands in a context area besides the engine's own bytes. -/
structure RaspCtx where
  check : Nat
  totalIn : Nat
  totalOut : Nat
  gen : Nat
  /-- Header and trailer position of a decompression: stage, `FLG`, bytes to skip, running header CRC, trailer bytes. The length of the
  history is kept with them. -/
  stage : Nat
  flg : Nat
  skip : Nat
  hcrc : Nat
  trailer : List Byte
  body : List Byte
  hist : List Byte
deriving DecidableEq, Repr

/-- The engine-state bytes (R392): the model's own layout, with a CRC-32 as the check value (DESIGN CHOICE, log entry 33). -/
def engineState (x : RaspCtx) : List Byte :=
  let b := beBytes 1 x.stage ++ beBytes 1 x.flg ++ beBytes 2 x.skip ++ beBytes 4 x.hcrc ++ beBytes 1 x.trailer.length ++
    fixLen 0 8 x.trailer ++ beBytes 2 x.hist.length ++ List.replicate 13 0 ++ fixLen 0 956 x.body
  b ++ beBytes 4 (crc32 0 b)

/-- A whole context area (R392). -/
def ctxBytes (state dir wrapper : Nat) (x : RaspCtx) : List Byte :=
  beBytes 1 state ++ beBytes 1 (dir * 128 + wrapper * 32) ++ [0, 0] ++ beBytes 4 x.check ++ beBytes 8 x.totalIn ++ beBytes 8 x.totalOut ++
  beBytes 8 x.gen ++ engineState x ++ List.replicate (32768 - min 32768 x.hist.length) 0 ++ x.hist.drop (x.hist.length - 32768)

/-- The context that a job finds: none where R393 gives CONTEXT_ERROR. A NEW one keeps only `GEN`. -/
def ctxFind (p : RaspParams) (a : List Byte) : Option RaspCtx :=
  let dir := b2n p.decomp
  if natAt a 0 1 = 0 then
    some { check := raspCheck0 p.wrapper, totalIn := 0, totalOut := 0, gen := natAt a 0x18 8, stage := 0, flg := 0, skip := 0, hcrc := 0,
           trailer := [], body := [], hist := [] }
  else if natAt a 0 1 = 1 ∧ natAt a 1 1 = dir * 128 + p.wrapper * 32 ∧ crc32 0 (bytesAt a 0x20 988) = natAt a (0x20 + 988) 4 then
    let n := min 32768 (natAt a 0x31 2)
    some { check := natAt a 4 4, totalIn := natAt a 8 8, totalOut := natAt a 0x10 8, gen := natAt a 0x18 8, stage := natAt a 0x20 1,
           flg := natAt a 0x21 1, skip := natAt a 0x22 2, hcrc := natAt a 0x24 4, trailer := bytesAt a 0x29 (natAt a 0x28 1),
           body := bytesAt a 0x40 956, hist := bytesAt a (0x400 + (32768 - n)) n }
  else none

/-- The last 32 KiB of uncompressed data. -/
def lastHist (h d : List Byte) : List Byte := (h ++ d).drop ((h ++ d).length - 32768)

/-- The wrapper header that compression writes (R387). -/
def wrapHeader (wrapper : Nat) : List Byte :=
  if wrapper = 1 then [0x78, 0x9C] else if wrapper = 2 then [0x1F, 0x8B, 8, 0, 0, 0, 0, 0, 0, 0xFF] else []

/-- The wrapper trailer (R387). -/
def wrapTrailer (wrapper check total : Nat) : List Byte :=
  if wrapper = 1 then beBytes 4 check else if wrapper = 2 then leBytes 4 check ++ leBytes 4 (total % 2 ^ 32) else []

/-- The bits that an engine state of compression holds: at most 7 that do not fill a byte (R391). -/
def leftBits (body : List Byte) : List Bool := (numBits 8 (natAt body 1 1)).take (natAt body 0 1)

/-- The output room with which a compression never receives OUTPUT_FULL (R390). -/
def raspRoom (n : Nat) : Nat := n + 5 * cdiv n 16384 + 32

/-- Compression (R387, R389 to R391), with `plain` in stored blocks alone. The stream ends with FINISH. -/
def compressAs (plain : Bool) (p : RaspParams) (x : RaspCtx) (input : List Byte) : RaspRes × RaspCtx :=
  let n := input.length
  let bs := bitsBytes (jobBits plain p.dynamic p.flush p.blockLog2 (leftBits x.body) x.hist input)
  let check := raspCheck p.wrapper x.check input
  let out := (if x.stage = 0 then wrapHeader p.wrapper else []) ++ bs.1 ++ (if p.flush = 3 then wrapTrailer p.wrapper check (x.totalIn + n) else [])
  let x' := { x with check := check, totalIn := x.totalIn + n, totalOut := x.totalOut + out.length, stage := 20,
                     body := [BitVec.ofNat 8 bs.2.length, BitVec.ofNat 8 (bitsNat bs.2)],
                     hist := if p.flush = 2 then [] else lastHist x.hist input }
  ({ status := 0, read := n, out := out, check := check, ended := p.flush == 3 }, x')

/-- Compression. Where the blocks of R389 would be longer than the room that R390 promises, the input is sent as stored blocks alone
(DESIGN CHOICE, log entry 86). -/
def compressRun (p : RaspParams) (x : RaspCtx) (input : List Byte) : RaspRes × RaspCtx :=
  let r := compressAs false p x input
  if raspRoom input.length < r.1.out.length ∧ !input.isEmpty then compressAs true p x input else r

/-- The stage that follows stage `k` of a gzip header, by the fields that `FLG` announces: 10 FEXTRA, 13 FNAME, 14 FCOMMENT,
15 FHCRC, 20 the body. -/
def hdrFrom (flg : Nat) (k : Nat) : Nat :=
  if k ≤ 10 ∧ flg.testBit 2 then 10 else if k ≤ 13 ∧ flg.testBit 3 then 13 else if k ≤ 14 ∧ flg.testBit 4 then 14
  else if k ≤ 15 ∧ flg.testBit 1 then 15 else 20

/-- One byte of a wrapper header (R388): the context after it, or the status that it gives. -/
def hdrByte (wrapper : Nat) (b : Byte) (x : RaspCtx) : Sum Nat RaspCtx :=
  let v := b.toNat
  let y := { x with hcrc := crc32 x.hcrc [b] }
  if wrapper = 1 then
    if x.stage = 0 then (if v % 16 = 8 ∧ v / 16 ≤ 7 then .inr { x with stage := 1, flg := v } else .inl 0x10)
    else if !v.testBit 5 && (x.flg * 256 + v) % 31 == 0 then .inr { x with stage := 20 } else .inl 0x10
  else
    match x.stage with
    | 0 => if v = 0x1F then .inr { y with stage := 1 } else .inl 0x10
    | 1 => if v = 0x8B then .inr { y with stage := 2 } else .inl 0x10
    | 2 => if v = 8 then .inr { y with stage := 3 } else .inl 0x10
    | 3 => if v / 32 = 0 then .inr { y with stage := 4, flg := v } else .inl 0x10
    | 9 => .inr { y with stage := hdrFrom x.flg 9 }
    | 10 => .inr { y with stage := 11, skip := v }
    | 11 => let n := v * 256 + x.skip
            .inr (if n = 0 then { y with stage := hdrFrom x.flg 11, skip := 0 } else { y with stage := 12, skip := n })
    | 12 => .inr (if x.skip ≤ 1 then { y with stage := hdrFrom x.flg 12, skip := 0 } else { y with skip := x.skip - 1 })
    | 13 => .inr (if v = 0 then { y with stage := hdrFrom x.flg 14 } else y)
    | 14 => .inr (if v = 0 then { y with stage := hdrFrom x.flg 15 } else y)
    | 15 => .inr { x with stage := 16, skip := v }
    | 16 => if v * 256 + x.skip = x.hcrc % 65536 then .inr { x with stage := 20, skip := 0 } else .inl 0x16
    | k => .inr { y with stage := k + 1 }

/-- Header bytes until the body or the end of the input: context and bytes used, or status and offset. -/
def hdrRun (wrapper : Nat) : Nat → List Byte → RaspCtx → Sum (Nat × Nat) (RaspCtx × Nat)
  | n, [], x => .inr (x, n)
  | n, b :: t, x =>
    if x.stage = 20 then .inr (x, n)
    else match hdrByte wrapper b x with
      | .inl c => .inl (c, n)
      | .inr y => hdrRun wrapper (n + 1) t y

/-- Bytes of a wrapper's trailer. -/
def trailerLen (wrapper : Nat) : Nat := if wrapper = 1 then 4 else if wrapper = 2 then 8 else 0

/-- The status of a whole trailer, none where it holds (R406). -/
def trailerBad (wrapper : Nat) (x : RaspCtx) (t : List Byte) : Option Nat :=
  if wrapper = 1 then (if beNat t = x.check then none else some 0x16)
  else if wrapper = 2 then
    if beNat (t.take 4).reverse ≠ x.check then some 0x16
    else if beNat (t.drop 4).reverse ≠ x.totalOut % 2 ^ 32 then some 0x17 else none
  else none

/-- The trailer of a stream from offset `off` of the input on, with stage 21 of the context. -/
def trailerRun (p : RaspParams) (input : List Byte) (off : Nat) (out : List Byte) (x : RaspCtx) : RaspRes × RaspCtx :=
  let need := trailerLen p.wrapper - x.trailer.length
  let got := (input.drop off).take need
  let x := { x with stage := 21, trailer := x.trailer ++ got }
  let off := off + got.length
  if x.trailer.length < trailerLen p.wrapper then
    if p.flush = 3 then ({ status := 0x18, read := input.length, out := out }, x)
    else ({ status := 0, read := off, out := out, check := x.check }, x)
  else match trailerBad p.wrapper x x.trailer with
    | some c => ({ status := c, read := off - 1, out := out }, x)
    | none => ({ status := 0, read := off, out := out, check := x.check, trailing := decide (off < input.length), ended := true },
               { x with stage := 22 })

/-- Decompression (R388, R391, R406). -/
def decompressRun (p : RaspParams) (x : RaspCtx) (input : List Byte) : RaspRes × RaspCtx :=
  if x.stage = 21 then
    let r := trailerRun p input 0 [] x
    (r.1, { r.2 with totalIn := x.totalIn + r.1.read })
  else
  match (if p.wrapper = 0 then .inr ({ x with stage := 20 }, 0) else hdrRun p.wrapper 0 input x) with
  | .inl (c, off) => ({ status := c, read := off }, x)
  | .inr (x, off) =>
    let rest := input.drop off
    if x.stage ≠ 20 then
      if p.flush = 3 then ({ status := 0x18, read := input.length }, x)
      else ({ status := 0, read := off, check := x.check }, { x with totalIn := x.totalIn + off })
    else
      let grow (out : List Byte) : RaspCtx :=
        { x with check := raspCheck p.wrapper x.check out, totalOut := x.totalOut + out.length, hist := lastHist x.hist out }
      match inflate x.body x.hist rest with
      | .bad c o out => ({ status := c, read := off + o, out := out }, x)
      | .more out st =>
        if p.flush = 3 then ({ status := 0x18, read := input.length, out := out }, x)
        else
          let y := grow out
          ({ status := 0, read := input.length, out := out, check := y.check }, { y with body := st, totalIn := x.totalIn + input.length })
      | .ended out used =>
        let y := grow out
        let r := trailerRun p input (off + min used rest.length) out y
        (r.1, { r.2 with totalIn := x.totalIn + r.1.read })

/-- A decompression whose input is sound only up to a poisoned byte (R388, R406): it fails where the stream does not end before that byte. -/
def poisonedRun (p : RaspParams) (x : RaspCtx) (input : List Byte) (bad : Nat) : RaspRes × RaspCtx :=
  let r := decompressRun { p with flush := 0 } x (input.take bad)
  if r.1.status ≠ 0 then r
  else if r.1.ended then ({ r.1 with trailing := decide (r.1.read < input.length) }, r.2)
  else ({ r.1 with status := 4 }, r.2)

/-- The work of a job over its input, the first poisoned byte of which may be named. -/
def raspWork (p : RaspParams) (x : RaspCtx) (input : List Byte) (bad : Option Nat) : RaspRes × RaspCtx :=
  match bad with
  | none => if p.decomp then decompressRun p x input else compressRun p x input
  | some k => if p.decomp then poisonedRun p x input k else ({ status := 4 }, x)

/-- A job over its input with the context area read at its start (none where `CTX_ADDR` is 0), the first poisoned byte of its input, and its
output space (none in line on WRITE): R393, R395, R404 to R406. An output that does not fit goes before every error of the input. -/
def raspRun (p : RaspParams) (area : Option (List Byte)) (input : List Byte) (bad space : Option Nat) : RaspRes :=
  let fail (c read : Nat) : RaspRes := { status := c, read := read }
  if area.isNone && p.flush != 3 then fail 2 0
  else
    match ctxFind p (area.getD []) with
    | none => fail 5 0
    | some x =>
      let r := raspWork p x input bad
      if space.any (fun n => decide (n < r.1.out.length)) then fail 1 0
      else if r.1.status ≠ 0 then fail r.1.status (if 0x10 ≤ r.1.status then r.1.read else 0)
      else { r.1 with ctx := ctxBytes (if r.1.ended then 2 else 1) (b2n p.decomp) p.wrapper { r.2 with gen := x.gen + 1 } }

end Sys2Proof.Machine
end

