-- ==== Sys2Proof/Machine/OpsEngine.lean ====
section
/-! DEFINITION. The work queues and the engines: rings, commands, jobs, key slots, and work in line with channel programs
(17_rasp R394 to R407; 19_intaglio R430 to R455; 24_host_port R536, R537, R543, R544). -/

namespace Sys2Proof.Machine

/-! ### Queues -/

/-- A queue of a block. -/
def queueOf (b : QBlock) (q : Nat) (s : State) : Queue :=
  match b with
  | .rasp => tget {} q s.eng.rq
  | .intaglio => tget {} q s.eng.iq
  | .mailbox => tget {} q s.hp.mq

/-- Write a queue. -/
def setQueue (b : QBlock) (q : Nat) (v : Queue) (s : State) : State :=
  match b with
  | .rasp => { s with eng := { s.eng with rq := tset {} q v s.eng.rq } }
  | .intaglio => { s with eng := { s.eng with iq := tset {} q v s.eng.iq } }
  | .mailbox => { s with hp := { s.hp with mq := tset {} q v s.hp.mq } }

/-- Change a queue. -/
def modQueue (b : QBlock) (q : Nat) (f : Queue → Queue) (s : State) : State := setQueue b q (f (queueOf b q s)) s

/-- Queues that a block has (R400, R436, R536). -/
def queueCount : QBlock → Nat
  | .mailbox => 64
  | _ => 256

/-- The kind of a queue pair that serves a block (24 R547). -/
def blockKind : QBlock → Nat
  | .rasp => 1
  | .intaglio => 2
  | .mailbox => 3

/-- A queue pair of the host port. -/
def qpOf (q : Nat) (s : State) : HostQp := tget {} q s.hp.qp

/-- Write a queue pair. -/
def setQp (q : Nat) (v : HostQp) (s : State) : State := { s with hp := { s.hp with qp := tset {} q v s.hp.qp } }

/-- The partition that a queue serves (R400, R436). -/
def queuePart (b : QBlock) (q : Nat) (s : State) : Option Nat :=
  if q < 64 then (if (qpOf q s).kind = blockKind b then (qpOf q s).owner else none)
  else if b = .mailbox then none else some ((q - 64) / 4)

/-- The block that a queue pair belongs to. -/
def qpBlock (q : Nat) (s : State) : Option QBlock :=
  match (qpOf q s).kind with
  | 1 => some .rasp
  | 2 => some .intaglio
  | 3 => some .mailbox
  | _ => none

/-- Slots of a queue's rings. -/
def Queue.n (q : Queue) : Nat := 2 ^ q.size

/-- Bytes of a completion record: 32, or a whole message of a mailbox (R397, R435, 24 R538). -/
def recordLen : QBlock → Nat
  | .mailbox => 64
  | _ => 32

/-- Descriptors of the submission ring that have not been taken (R398). -/
def sqCount (v : Queue) : Nat := (v.tail + 65536 - v.head) % v.n

/-- Records of the completion ring that have not been released (R398). -/
def cqCount (v : Queue) : Nat := (v.cqTail + 65536 - v.cqHead) % v.n

/-- The queue is ENABLED with a descriptor to take and a released slot for its record (R398). -/
def queueReady (v : Queue) : Bool := v.state == 1 && !v.busy && sqCount v != 0 && decide (cqCount v < v.n - 1)

/-- A queue enters PAUSED (R401); a queue pair signals it (24 R539). -/
def pauseQueue (b : QBlock) (q cause : Nat) (s : State) : State :=
  let s := modQueue b q (fun v => { v with state := 3, pause := cause }) s
  if q < 64 then pf1Vector (2 * q + 1) s else s

/-- The agent of a queue (10 R231). -/
def queueAgent (b : QBlock) (q : Nat) : Agent :=
  match b with
  | .rasp => .rasp q
  | .intaglio => .intaglio q
  | .mailbox => .hostWrite 1

/-- A queue that is DISABLED, its last job posted, loses its registers where a section asked for that (R402). -/
def wipeIfDue (v : Queue) : Queue := if v.state = 0 && !v.busy && v.wipe then {} else v

/-- DISABLE (R401): a running job lets an ENABLED queue drain; a PAUSED one is DISABLED at once, and its running job posts its record
all the same. A held record is discarded and counted (24 R544). -/
def disableQueue (b : QBlock) (q : Nat) (s : State) : State :=
  let v := queueOf b q s
  let s := if v.held.isSome then { s with pf1 := { s.pf1 with dropped := satAdd 16 s.pf1.dropped 1 } } else s
  let s := if v.busy then s else dropGot (queueAgent b q) (fun _ => true) s
  setQueue b q (wipeIfDue { v with state := if v.busy && v.state != 3 then 2 else 0, held := none, slot := none, fetch := none }) s

/-- A partition's own queues are disabled, and with `wipe` their registers reset (R402). -/
def disableOwnQueues (p : Nat) (wipe : Bool) (s : State) : State :=
  (List.range 4).foldl (fun s k =>
    let q := 64 + 4 * p + k
    [QBlock.rasp, QBlock.intaglio].foldl (fun s b =>
      let s := if wipe then modQueue b q (fun v => { v with wipe := true }) s else s
      let s := if (queueOf b q s).state = 0 then s else disableQueue b q s
      modQueue b q wipeIfDue s) s) s

/-- A partition's own queues are all DISABLED, and their jobs have posted their records (R402). -/
def ownQueuesIdle (p : Nat) (s : State) : Bool :=
  (List.range 4).all (fun k => [QBlock.rasp, QBlock.intaglio].all (fun b => (queueOf b (64 + 4 * p + k) s).state == 0 && !(queueOf b (64 + 4 * p + k) s).busy))

/-- The rings of a queue pass the checks of ENABLE (R409; 24 R537, R538). -/
def ringsOk (b : QBlock) (q : Nat) (s : State) : Bool :=
  let v := queueOf b q s
  let sq := v.n * 64
  let cq := v.n * recordLen b
  decide (4 ≤ v.size ∧ v.size ≤ 12) &&
  (if q < 64 then decide ((qpOf q s).prBase % sq = 0) && decide ((qpOf q s).pcBase % cq = 0)
   else match queuePart b q s with
     | some p => decide (v.sqBase % sq = 0) && decide (v.cqBase % cq = 0) && partMapped p v.sqBase sq s && partMapped p v.cqBase cq s
     | none => false)

/-- ENABLE (R401). -/
def enableQueue (b : QBlock) (q : Nat) (s : State) : State :=
  let v := queueOf b q s
  if v.state ≠ 0 then setQueue b q { v with lastResult := 0x0C } s
  else if !ringsOk b q s then setQueue b q { v with lastResult := 5 } s
  else setQueue b q { v with lastResult := 0, state := 1, head := 0, tail := 0, cqHead := 0, cqTail := 0, pause := 0, phase := true,
                             slot := none, fetch := none, held := none, behind := 0 } s

/-- A function may issue requests (24 R543, R544). -/
def fnMaster (f : HostFn) : Bool := f.bme && !f.flr

/-- Ask the host for the slot of a queue pair at `HEAD`, where the queue has work (24 R537, R538). -/
def hostFetch (b : QBlock) (q : Nat) (s : State) : State :=
  let v := queueOf b q s
  let x := qpOf q s
  let room := b ≠ .mailbox || decide ((x.inTail + 65536 - x.inHead) % 65536 < v.n)
  let ready := if b = .mailbox then v.state == 1 && sqCount v != 0 else queueReady v
  if 64 ≤ q || !ready || !room || v.fetch.isSome || v.slot.isSome || !fnMaster s.pf1 || 768 ≤ s.hp.req.length then s
  else
    let tag := s.hp.nextTag % 1024
    let s := setQueue b q { v with fetch := some tag } s
    let s := { s with hp := { s.hp with nextTag := (s.hp.nextTag + 1) % 1024, req := tset none tag (some { qp := q, since := s.tor.tor }) s.hp.req } }
    emit (.hostRead tag (x.prBase + v.head * 64) 64) s

/-- A doorbell (R398, R401): `TAIL` and `CQ_HEAD` are taken; an index of N or above pauses an ENABLED queue. -/
def doorbell (b : QBlock) (q : Nat) (tail cqHead : Nat) (s : State) : State :=
  let v := queueOf b q s
  let s := setQueue b q { v with tail := tail, cqHead := cqHead } s
  if v.state = 1 ∧ (v.n ≤ tail ∨ v.n ≤ cqHead) then pauseQueue b q 1 s else hostFetch b q s

/-- Advance the completion index, with the phase of each pass (R398). -/
def cqAdvance (v : Queue) : Queue :=
  if v.cqTail + 1 = v.n then { v with cqTail := 0, phase := !v.phase } else { v with cqTail := v.cqTail + 1 }

/-- A record of an engine carries the TOR at which it is posted in its last 8 bytes (R397, R435). -/
def withTor (b : QBlock) (tor : Nat) (rcd : List Byte) : List Byte := if b = .mailbox then rcd else rcd.take 24 ++ beBytes 8 tor

/-- Write the record of a queue pair to host memory, with its vectors (24 R537, R539). -/
def hostRecord (b : QBlock) (q : Nat) (rcd : List Byte) (bad : Bool) (s : State) : State :=
  let v := queueOf b q s
  let rcd := withTor b s.tor.tor rcd
  let s := emit (.hostWrite ((qpOf q s).pcBase + v.cqTail * recordLen b) rcd false) s
  let s := setQueue b q (cqAdvance v) s
  let s := pf1Vector (2 * q) s
  if bad then pf1Vector (2 * q + 1) s else s

/-- Put `PHASE` into byte 9 of a record (R397). -/
def withPhase (v : Queue) (rcd : List Byte) : List Byte := rcd.set 9 ((rcd.getD 9 0) ||| BitVec.ofNat 8 (b2n v.phase))

/-- The record of a queue's job is posted, held or discarded, and a DRAINING queue becomes DISABLED (R398, R401; 24 R543, R544). -/
def postNow (b : QBlock) (q : Nat) (rcd : List Byte) (bad : Bool) (s : State) : State :=
  let v := queueOf b q s
  let rcd := withPhase v rcd
  let s :=
    if v.drop then { s with pf1 := { s.pf1 with dropped := satAdd 16 s.pf1.dropped 1 } }
    else if q < 64 then
      if v.state = 3 ∧ v.pause = 3 ∨ !fnMaster s.pf1 then setQueue b q { v with held := some rcd } s
      else hostRecord b q rcd bad s
    else match queuePart b q s with
      | none => s
      | some p =>
        let a := v.cqBase + v.cqTail * recordLen b
        if partMapped p a (recordLen b) s then setQueue b q (cqAdvance v) (partWrite (queueAgent b q) p a (withTor b s.tor.tor rcd) s)
        else pauseQueue b q 2 s
  let s := modQueue b q (fun v => wipeIfDue { v with busy := false, drop := false, post := none, state := if v.state = 2 then 0 else v.state }) s
  hostFetch b q s

/-- The job of a queue ends: its record waits until the output and the context are performed at SYSTEM scope (17 R399, 19 R434). -/
def postRecord (b : QBlock) (q : Nat) (rcd : List Byte) (bad : Bool) (s : State) : State :=
  if agentPending (queueAgent b q) s then modQueue b q (fun v => { v with post := some (rcd, bad) }) s else postNow b q rcd bad s

/-- An Intaglio engine. -/
def intOf (k : Nat) (s : State) : IntEng := tget {} k s.eng.inta

/-- Write an Intaglio engine. -/
def setInt (k : Nat) (v : IntEng) (s : State) : State := { s with eng := { s.eng with inta := tset {} k v s.eng.inta } }

/-- The suspended request of an engine resumes, and the context store is erased (R451). -/
def restoreInt (k : Nat) (s : State) : State := let e := intOf k s; setInt k { e with job := e.susp, susp := none, posting := none } s

/-- Records whose job's output has been performed meanwhile are posted; a request that an urgent one suspended resumes after its record. -/
def postDue (s : State) : State :=
  let go (b : QBlock) (s : State) (q : Nat) : State :=
    match (queueOf b q s).post with
    | some r => if agentPending (queueAgent b q) s then s else postNow b q r.1 r.2 s
    | none => s
  let s := (s.eng.rq.map (·.1)).foldl (go .rasp) s
  let s := (s.eng.iq.map (·.1)).foldl (go .intaglio) s
  (List.range 8).foldl (fun s k =>
    match (intOf k s).posting with
    | some q => if (queueOf .intaglio q s).post.isNone then restoreInt k s else s
    | none => s) s

/-- RESUME (R401; 24 R544): a held record goes first. -/
def resumeQueue (b : QBlock) (q : Nat) (s : State) : State :=
  let v := queueOf b q s
  if v.state ≠ 3 ∨ (q < 64 ∧ !s.pf1.bme) then setQueue b q { v with lastResult := 0x0C } s
  else
    let s := setQueue b q { v with lastResult := 0, state := 1, pause := 0, held := none } s
    let s := match v.held with
      | some r => hostRecord b q r (decide (r.getD 8 0 = 3 ∨ r.getD 8 0 = 4 ∨ r.getD 8 0 = 7)) s
      | none => s
    hostFetch b q s

/-- A queue command (R401): 1 ENABLE, 2 DISABLE, 3 RESUME; any other value completes with `STATE`. -/
def queueCommand (b : QBlock) (q cmd : Nat) (s : State) : State :=
  let v := queueOf b q s
  match cmd with
  | 1 => hostFetch b q (enableQueue b q s)
  | 2 => if v.state = 1 ∨ v.state = 3 then modQueue b q (fun v => { v with lastResult := 0 }) (disableQueue b q s)
         else setQueue b q { v with lastResult := 0x0C } s
  | 3 => resumeQueue b q s
  | _ => setQueue b q { v with lastResult := 0x0C } s

/-- A queue has work that an engine may take. That of a queue pair has its slot here, and one that arrived after Bus Master Enable was
cleared is still used (24 R544). -/
def queueHasWork (q : Nat) (v : Queue) : Bool :=
  if 64 ≤ q then queueReady v
  else v.slot.isSome && (queueReady v || (v.state == 3 && v.pause == 3 && queueReady { v with state := 1 }))

/-- The next queue in round robin from `from_` on that has work (R403, R437). -/
def nextQueue (b : QBlock) (from_ : Nat) (ok : Nat → Bool) (s : State) : Option Nat :=
  ((List.range 256).map (fun k => (from_ + k) % 256)).find? (fun q => queueHasWork q (queueOf b q s) && ok q)

/-- Most jobs in line behind which a queue with work waits (R403, R437). -/
def inlineMax : Nat := 64

/-- A job in line may be taken: no queue with work has waited behind that many (R403, R437). -/
def inlineTurn (qs : Tab Queue) : Bool := qs.all (fun e => !(queueHasWork e.1 e.2 && decide (inlineMax ≤ e.2.behind)))

/-- A job in line is taken before every queue that has work. -/
def inlineCount (qs : Tab Queue) : Tab Queue :=
  qs.map (fun e => (e.1, if queueHasWork e.1 e.2 then { e.2 with behind := e.2.behind + 1 } else e.2))

/-- The descriptor at `HEAD` of a queue in partition storage has been read. -/
def descSeen (b : QBlock) (q : Nat) (s : State) : State :=
  let v := queueOf b q s
  if q < 64 then s
  else match queuePart b q s with
    | some p => partSeen (queueAgent b q) p (v.sqBase + v.head * 64) 64 s
    | none => s

/-- What taking the descriptor at `HEAD` of a queue comes to. -/
inductive TakeRes where
  | desc (d : List Byte)
  /-- A line of the ring is remote and has been asked for (14 R322). -/
  | wait (s : State)
  | fault (s : State)

/-- The descriptor at `HEAD` (R398): a slot outside every extent or read poisoned pauses the queue. -/
def takeDesc (b : QBlock) (q : Nat) (s : State) : TakeRes :=
  let v := queueOf b q s
  if q < 64 then
    match v.slot with
    | some d => .desc d
    | none => .wait s
  else match queuePart b q s with
    | none => .wait s
    | some p =>
      let a := v.sqBase + v.head * 64
      if !partMapped p a 64 s then .fault (pauseQueue b q 2 s)
      else if !(partMissing (queueAgent b q) p a 64 s).isEmpty then .wait (askMissing (queueAgent b q) p (partMissing (queueAgent b q) p a 64 s) s)
      else
        let r := partRead (queueAgent b q) p a 64 s
        if r.2 then .fault (pauseQueue b q 2 (descSeen b q s)) else .desc r.1

/-- The queue's descriptor is taken: `HEAD` moves on and a job runs. -/
def tookDesc (b : QBlock) (q : Nat) (s : State) : State :=
  modQueue b q (fun v => { v with head := (v.head + 1) % v.n, busy := true, slot := none, behind := 0 }) (descSeen b q s)

/-- Bytes of a job lie in the partition's extents, and for a queue pair in a bound publication (R406, 24 R537). -/
def jobMapped (q p a n : Nat) (s : State) : Bool := partMapped p a n s && (decide (64 ≤ q) || inPub p a n 0 s)

/-! ### Rasp -/

/-- A Rasp engine. -/
def raspOf (k : Nat) (s : State) : RaspEng := tget {} k s.eng.rasp

/-- Write a Rasp engine. -/
def setRasp (k : Nat) (v : RaspEng) (s : State) : State := { s with eng := { s.eng with rasp := tset {} k v s.eng.rasp } }

/-- `PARAM_ERROR` of a descriptor (R395, R396). -/
def raspParamBad (d : List Byte) : Bool :=
  let op := natAt d 0 1
  let mode := natAt d 1 1
  let bl := natAt d 2 1
  let flush := mode / 8 % 4
  !(op == 1 || op == 2) || mode / 64 == 3 || mode % 8 != 0 || natAt d 3 1 != 0 || natAt d 0x1C 4 != 0 || natAt d 0x30 8 != 0 ||
  natAt d 0x38 8 != 0 || decide (mib16 < natAt d 4 4) || !(bl == 0 || decide (12 ≤ bl ∧ bl ≤ 18)) ||
  (op == 2 && (mode.testBit 5 || bl != 0 || flush == 1 || flush == 2)) || (natAt d 0x20 8 == 0 && flush != 3) ||
  decide (natAt d 0x20 8 % 128 ≠ 0)

/-- Parameters of a descriptor. -/
def raspParams (d : List Byte) : RaspParams :=
  { decomp := natAt d 0 1 == 2, wrapper := natAt d 1 1 / 64, dynamic := (natAt d 1 1).testBit 5, flush := natAt d 1 1 / 8 % 4,
    blockLog2 := natAt d 2 1 }

/-- Queues whose descriptor has to be fetched from another module ask for it, and let the engine serve the next (R403, R437). -/
def askDescs (b : QBlock) (s : State) : State :=
  (List.range 256).foldl (fun s q =>
    if queueHasWork q (queueOf b q s) then (match takeDesc b q s with | .wait t => t | _ => s) else s) s

/-- The descriptor at `HEAD` of a queue is here, or cannot be read. -/
def descHere (b : QBlock) (q : Nat) (s : State) : Bool :=
  match takeDesc b q s with
  | .wait _ => false
  | _ => true

/-! ### Work in line with channel programs (R346, R403, R407; 19 R437, R455) -/

/-- Engines of a hub: 0 to 3 north, 4 to 7 south (01 R12). -/
def hubEngines (hub : Nat) : List Nat := (List.range 4).map (· + 4 * hub)

/-- The work in line of an operation waits for an engine of a hub. -/
def lineWaits (cipher : Bool) (hub : Nat) (o : ChOp) : Bool :=
  o.line.any (fun r => r.cipher == cipher && r.hub == hub && r.engine.isNone && r.done.isNone)

/-- `x` goes before `y`: higher `PRIORITY`, then first IOSTART (15 R354). -/
def chBefore (x y : Nat × ChOp) : Bool :=
  decide (y.2.blk.priority < x.2.blk.priority) || (x.2.blk.priority == y.2.blk.priority && decide (x.2.order ≤ y.2.order))

/-- The pending work in line of highest priority of a hub (R403, R437): its subchannel and the request. -/
def lineNext (cipher : Bool) (hub : Nat) (s : State) : Option (Nat × LineReq) :=
  let pick (r : Option (Nat × ChOp)) (e : Nat × Option ChOp) : Option (Nat × ChOp) :=
    match e.2 with
    | none => r
    | some o =>
      if !lineWaits cipher hub o then r
      else match r with
        | some x => if chBefore x (e.1, o) then r else some (e.1, o)
        | none => some (e.1, o)
  match s.ch.ops.foldl pick none with
  | some (i, o) => o.line.map (fun r => (i, r))
  | none => none

/-- An engine runs the work in line of an operation. -/
def lineTaken (i k : Nat) (s : State) : State :=
  modOp i (fun o => { o with line := o.line.map (fun r => { r with engine := some k, input := [] }) }) s

/-- What the work in line of an operation came to, where it still waits for that engine. -/
def lineDone (i k status : Nat) (out : List Byte) (s : State) : State :=
  modOp i (fun o => match o.line with
    | some r => if r.engine = some k then { o with line := some { r with engine := none, done := some (status, out) } } else o
    | none => o) s

/-- The queue number of work in line: none of the queues. -/
def noQueue : Nat := 256

/-- The agent of a job: its queue, or its subchannel (10 R231). -/
def jobAgent (b : QBlock) (queue : Nat) (line : Option Nat) : Agent :=
  match line with
  | some i => .subch i
  | none => queueAgent b queue

/-! ### Rasp: jobs taken -/

/-- Bytes of input and of context that a job reads, as (address, length): none where a status was decided before. -/
def raspAreas (j : RaspJob) : (Nat × Nat) × (Nat × Nat) :=
  let d := j.desc
  let cA := natAt d 0x20 8
  if j.early.isSome then ((0, 0), (0, 0))
  else ((natAt d 8 8, if j.line.isSome then 0 else natAt d 4 4), (cA, if cA = 0 then 0 else ctxLen))

/-- The job of an engine reads its context and its input, once they are here (R394, R398). -/
def raspLoad (k : Nat) (s : State) : State :=
  let e := raspOf k s
  match e.job with
  | none => s
  | some j =>
    if j.loaded then s
    else
      let who := jobAgent .rasp j.queue j.line
      let x := raspAreas j
      let miss := partMissing who j.part x.1.1 x.1.2 s ++ partMissing who j.part x.2.1 x.2.2 s
      if !miss.isEmpty then askMissing who j.part miss s
      else
        let ri := partRead who j.part x.1.1 x.1.2 s
        let rc := partRead who j.part x.2.1 x.2.2 s
        let bad := partBad who j.part x.1.1 x.1.2 s
        let early := if j.early.isNone && rc.2 then some 4 else j.early
        let s := partSeen who j.part x.2.1 x.2.2 (partSeen who j.part x.1.1 x.1.2 s)
        setRasp k { e with job := some { j with ctx := rc.1, input := if j.line.isSome then j.input else ri.1, bad := bad, early := early, loaded := true } } s

/-- A job begins on an engine. -/
def raspBegin (k : Nat) (j : RaspJob) (s : State) : State := raspLoad k (setRasp k { raspOf k s with job := some j } s)

/-- The descriptor that stands for a job in line (R407). -/
def raspLineDesc (decomp : Bool) (profile ctxA n : Nat) : List Byte :=
  let mode := bits profile 15 14 * 64 + (if !decomp ∧ profile.testBit 13 then 32 else 0) + bits profile 12 11 * 8
  [if decomp then 2 else 1, BitVec.ofNat 8 mode, 0, 0] ++ beBytes 4 (min n 0xFFFFFFFF) ++ List.replicate 24 0 ++ beBytes 8 ctxA ++ List.replicate 24 0

/-- An engine takes the job in line of an operation (R403, R407). -/
def raspTakeLine (k i : Nat) (r : LineReq) (s : State) : State :=
  match opOf i s with
  | none => s
  | some o =>
    let p := (jent i s).part
    let flush := bits o.blk.raspProfile 12 11
    let cA := o.blk.raspCtx
    let early := if cA % 128 ≠ 0 ∨ (r.back ∧ (flush = 1 ∨ flush = 2)) then some 2
                 else if !partMapped p cA (if cA = 0 then 0 else ctxLen) s then some 3 else none
    let s := { s with eng := { s.eng with rq := inlineCount s.eng.rq } }
    raspBegin k { queue := noQueue, part := p, desc := raspLineDesc r.back o.blk.raspProfile cA r.input.length, input := r.input, early := early,
                  line := some i, space := if r.back then o.cur.map (·.count) else none } (lineTaken i k s)

/-- A Rasp engine is idle and in service. -/
def raspIdle (k : Nat) (s : State) : Bool := operating s && decide (k < 8) && !(raspOf k s).failed && (raspOf k s).job.isNone

/-- The pending job in line that a Rasp engine takes next, if it takes one (R403). -/
def raspLineNext (k : Nat) (s : State) : Option (Nat × LineReq) := if inlineTurn s.eng.rq then lineNext false (k / 4) s else none

/-- A Rasp engine takes the next job, whose opcode satisfies `want`: the pending one in line of highest priority, else that of the next queue
in round robin, whose descriptor it reads once (R394, R398, R403). An engine that is busy or out of service takes none. -/
def raspTake (k : Nat) (want : Nat → Bool) (s : State) : State :=
  if !raspIdle k s then s
  else match raspLineNext k s with
  | some (i, r) => if want (if r.back then 2 else 1) then raspTakeLine k i r s else s
  | none =>
    let s := askDescs .rasp s
    match nextQueue .rasp s.eng.rNext (fun q => descHere .rasp q s) s with
    | none => s
    | some q =>
      match queuePart .rasp q s, takeDesc .rasp q s with
      | none, _ => s
      | _, .wait s => s
      | _, .fault s => s
      | some p, .desc d =>
        if !want (natAt d 0 1) then s
        else
          let cA := natAt d 0x20 8
          let mapped := jobMapped q p (natAt d 8 8) (natAt d 4 4) s && jobMapped q p (natAt d 0x10 8) (natAt d 0x18 4) s &&
            jobMapped q p cA (if cA = 0 then 0 else ctxLen) s
          let early := if raspParamBad d then some 2 else if !mapped then some 3 else none
          let s := tookDesc .rasp q s
          let s := { s with eng := { s.eng with rNext := (q + 1) % 256 } }
          raspBegin k { queue := q, part := p, desc := d, early := early, space := some (natAt d 0x18 4) } s

/-- A completion record of a Rasp job (R397), its TOR still to be set. -/
def raspRecord (d : List Byte) (status : Nat) (r : RaspRes) (head : Nat) : List Byte :=
  bytesAt d 0x28 8 ++ beBytes 1 status ++ beBytes 1 (2 * b2n r.trailing + 4 * b2n r.ended) ++ beBytes 2 head ++ beBytes 4 r.read ++
  beBytes 4 r.out.length ++ beBytes 4 r.check ++ beBytes 8 0

/-- The output area of a failed job holds no valid bytes: the engine may have written any of it (R404). -/
def junkOutput (who : Agent) (p a n : Nat) (s : State) : State :=
  let r := drawBelow (n + 1) s
  let b := drawBytes r.2 r.1
  partWrite who p a b.1 b.2

/-- The context of a job that would be written back lies in a line that another module holds: the check of `GEN` and the update are one
(17 R396; 19 R434), so the line is asked for. -/
def ctxAway (p gen : Nat) (needed : Bool) (s : State) : List Nat := if needed then partUnowned p gen 8 s else []

/-- A Rasp job that succeeds writes its context back. -/
def raspWrites (j : RaspJob) (parity : Bool) : Bool := !parity && j.early.isNone && natAt j.desc 0x20 8 != 0

/-- The job of a Rasp engine ends (R394, R404 to R406): with a parity error in the engine, or with the engine fenced, it fails. -/
def raspEnd (k : Nat) (parity : Bool) (s : State) : State :=
  let e := raspOf k s
  match e.job with
  | none => s
  | some j =>
    let d := j.desc
    let who := jobAgent .rasp j.queue j.line
    let outA := natAt d 0x10 8
    let outN := natAt d 0x18 4
    let cA := natAt d 0x20 8
    let s := setRasp k { e with job := none, jobs := satAdd 32 e.jobs 1 } s
    let r := raspRun (raspParams d) (if cA = 0 then none else some j.ctx) j.input j.bad j.space
    let busy := cA != 0 && (!(ctxAway j.part (cA + 0x18) true s).isEmpty || (partRead who j.part (cA + 0x18) 8 s).1 != bytesAt j.ctx 0x18 8)
    let status := if parity then 7 else match j.early with
      | some c => c
      | none => if r.status ≠ 0 then r.status else if busy then 6 else 0
    let s := if status = 4 then raise (srcRasp k) 0x04 (some j.part) (natAt d 8 8) s else s
    match j.line with
    | some i => lineDone i k status r.out (if status = 0 ∧ cA ≠ 0 then partWrite who j.part cA r.ctx s else s)
    | none =>
      let v := queueOf .rasp j.queue s
      if status = 0 then
        let s := partWrite who j.part outA r.out s
        let s := if cA = 0 then s else partWrite who j.part cA r.ctx s
        postRecord .rasp j.queue (raspRecord d 0 r v.head) false s
      else
        let s := if jobMapped j.queue j.part outA outN s then junkOutput who j.part outA outN s else s
        let x : RaspRes := { status := status, read := if 0x10 ≤ status then r.read else 0 }
        postRecord .rasp j.queue (raspRecord d status x v.head) (status == 3 || status == 4 || status == 7) s

/-- The job of a Rasp engine ends once what it reads is here and the line of its context's `GEN` is this module's to write. -/
def raspTryEnd (k : Nat) (parity : Bool) (s : State) : State :=
  match (raspOf k s).job with
  | none => s
  | some j =>
    let away := ctxAway j.part (natAt j.desc 0x20 8 + 0x18) (raspWrites j parity) s
    if !j.loaded && !parity then raspLoad k s
    else if away.isEmpty then raspEnd k parity s else askOwned (jobAgent .rasp j.queue j.line) j.part away s

/-! ### Key slots -/

/-- A key slot. -/
def keySlotOf (i : Nat) (s : State) : Option KeySlot := tget none i s.eng.slots

/-- Write a key slot. -/
def setKeySlot (i : Nat) (v : Option KeySlot) (s : State) : State := { s with eng := { s.eng with slots := tset none i v s.eng.slots } }

/-- A slot lies in the range of a partition (R440). -/
def slotInRange (p i : Nat) (s : State) : Bool :=
  match partOf p s with
  | some d => decide (d.keyBase ≤ i) && decide (i < d.keyBase + d.keyCount)
  | none => false

/-- The `UUID` of a partition. -/
def uuidOf (p : Nat) (s : State) : List Byte := (partOf p s).elim [] (·.uuid)

/-- The owner hash in force (02 R34); zeros where none is bound. -/
def ownerHash (s : State) : List Byte := s.pln.owners.getLast?.getD (List.replicate 48 0)

/-- The KEK of a partition (18 R412). -/
def partKek (p : Nat) (s : State) : List Byte := kekOf (ownerHash s) (uuidOf p s)

/-- The status of a keyed request before its work (R441 to R443), or its key. -/
def keyFor (p : Nat) (op mode slot : Nat) (s : State) : Sum Nat KeySlot :=
  if !slotInRange p slot s then .inl 0x20
  else match keySlotOf slot s with
    | none => .inl 0x21
    | some k =>
      if k.uuid ≠ uuidOf p s then .inl 0x20
      else if op ≤ 7 ∧ (!algPermits k.alg op mode || !k.usage.testBit (usageBit op)) then .inl 0x22
      else .inr k

/-- Requests running or suspended with a slot's key (R458). -/
def slotUsers (i : Nat) (s : State) : Nat :=
  (s.eng.inta.map (fun e => ([e.2.job, e.2.susp].filter (fun j => match j with
    | some j => j.key.isSome && natAt j.desc 4 2 == i
    | none => false)).length)).foldl (· + ·) 0

/-- The requests that Intaglio engines run or hold suspended. -/
def intJobs (s : State) : List IntJob := s.eng.inta.flatMap (fun e => [e.2.job, e.2.susp].filterMap id)

/-! ### Intaglio -/

/-- Bytes of a request's input area, none where it reads none (R431). -/
def inArea (d : IntDesc) : Nat := if d.op ≤ 7 ∨ d.op = 0x11 then d.inLen else 0

/-- Bytes of a request's output area: none where `OUT_ADDR` is 0 and the request produces no output (R431). -/
def outArea (d : IntDesc) : Nat := if d.outAddr = 0 ∧ (d.op = 4 ∨ 0x10 ≤ d.op ∧ d.op ≠ 0x12) then 0 else d.outLen

/-- Every byte that a request's descriptor names lies in its partition (R438); in line only the context is named (R455). -/
def intMapped (q p : Nat) (line : Bool) (d : IntDesc) (s : State) : Bool :=
  (line || (jobMapped q p d.inAddr (inArea d) s && jobMapped q p d.outAddr (outArea d) s)) &&
  jobMapped q p d.ctxAddr (if d.ctxAddr = 0 then 0 else 128) s

/-- The status of a request that its descriptor, key and addresses decide before its work, with the key it uses (R432, R436,
R438, R441 to R443, R446 to R448). -/
def intEarly (q p : Nat) (line : Bool) (d : IntDesc) (s : State) : Option Nat × Option KeySlot :=
  if intParamBad d then (some 2, none)
  else
    let klen := match keySlotOf d.slot s with | some k => k.key.length | none => 0
    if d.outLen < intOutNeed d klen then (some 1, none)
    else if q < 64 ∧ 0x10 ≤ d.op then (some 0x20, none)
    else
      let mapped := intMapped q p line d s
      if d.op = 5 then (if mapped then (none, none) else (some 3, none))
      else if d.op ≤ 7 ∨ d.op = 0x12 then
        match keyFor p d.op d.mode d.slot s with
        | .inl c => (some c, none)
        | .inr k =>
          if d.op = 0x12 ∧ tget false p s.tr.debug then (some 0x20, none)
          else if d.op = 0x12 ∧ k.never then (some 0x24, none)
          else if !mapped then (some 3, none) else (none, some k)
      else if !slotInRange p d.slot s || (keySlotOf d.slot s).any (fun k => k.uuid != uuidOf p s) then (some 0x20, none)
      else if d.op = 0x10 ∧ d.outAddr ≠ 0 ∧ tget false p s.tr.debug then (some 0x20, none)
      else if !mapped then (some 3, none) else (none, none)

/-- The status that a context decides (R433, R434): CONTEXT_ERROR, IV_EXHAUSTED, PARAM_ERROR of an XTS unit, or of the AAD. -/
def intCtxStatus (d : IntDesc) (c : List Byte) : Option Nat :=
  if !needsCtx d.op d.mode then none
  else if ctxBad d c then some 5
  else if d.op ≤ 2 ∧ d.mode = 4 ∧ (xtsUnits (natAt c 0x1C 4) d.inLen).isNone then some 2
  else if d.op ≤ 2 ∧ d.mode = 3 ∧ 0x10000 < natAt c 0x18 4 then some 2
  else if d.op = 1 ∧ d.mode = 3 ∧ natAt c 8 4 = 0xFFFFFFFF then some 0x27
  else none

/-- AAD of a GCM request: address and length. -/
def aadOf (d : IntDesc) (c : List Byte) : Nat × Nat := if d.op ≤ 2 ∧ d.mode = 3 then (natAt c 0x10 8, natAt c 0x18 4) else (0, 0)

/-- A request that acts on its slot (R448). -/
def slotActs (d : IntDesc) : Bool := d.op == 0x10 || d.op == 0x11 || d.op == 0x13

/-- No earlier request acts on the slot of a request that acts on it: they act one at a time, in order of arrival (R448). -/
def slotTurn (j : IntJob) (s : State) : Bool :=
  let d := intDesc j.desc
  !slotActs d || (intJobs s).all (fun x => !(slotActs (intDesc x.desc) && (intDesc x.desc).slot == d.slot && decide (x.start < j.start)))

/-- The checks of UNWRAP before the integrity check, in their order (R447). -/
def unwrapStatus (p : Nat) (d : IntDesc) (b : List Byte) (s : State) : Option Nat :=
  if blobBad b d.inLen then some 0x25
  else if bytesAt b 16 16 ≠ fixLen 0 16 (uuidOf p s) then some 0x20
  else if tget false p s.tr.debug then some 0x20
  else if (keySlotOf d.slot s).isSome then some 0x23
  else none

/-- What a request reads once as it starts, with the status that this decides; or the lines that it waits for (R434, R438, R446 to R448). -/
def intRead (j : IntJob) (s : State) : Sum (List (Nat × Nat)) IntJob :=
  let d := intDesc j.desc
  let who := jobAgent .intaglio j.queue j.line
  if j.early.isSome then .inr j
  else if d.op = 0x10 then .inr { j with early := if (keySlotOf d.slot s).isSome then some 0x23 else none }
  else
    let cn := if d.ctxAddr = 0 then 0 else 128
    let m := partMissing who j.part d.ctxAddr cn s
    if !m.isEmpty then .inl m
    else
      let c := partRead who j.part d.ctxAddr cn s
      match (if c.2 then some 4 else intCtxStatus d c.1) with
      | some x => .inr { j with ctx := c.1, early := some x }
      | none =>
        let a := aadOf d c.1
        let n := if j.line.isSome then 0 else inArea d
        if !jobMapped j.queue j.part a.1 a.2 s then .inr { j with ctx := c.1, early := some 3 }
        else
          let m := partMissing who j.part a.1 a.2 s ++ partMissing who j.part d.inAddr n s
          if !m.isEmpty then .inl m
          else
            let ra := partRead who j.part a.1 a.2 s
            let ri := partRead who j.part d.inAddr n s
            let early := if ra.2 || ri.2 then some 4 else if d.op = 0x11 then unwrapStatus j.part d ri.1 s else none
            .inr { j with ctx := c.1, aad := ra.1, input := if j.line.isSome then j.input else ri.1, early := early }

/-- What a request reads at its start has been read: its context, and where that was sound its AAD and its input. -/
def intSeen (j : IntJob) (s : State) : State :=
  let d := intDesc j.desc
  let who := jobAgent .intaglio j.queue j.line
  let s := if j.ctx.isEmpty then s else partSeen who j.part d.ctxAddr j.ctx.length s
  let a := aadOf d j.ctx
  let s := if j.aad.isEmpty then s else partSeen who j.part a.1 a.2 s
  if j.input.isEmpty || j.line.isSome then s else partSeen who j.part d.inAddr j.input.length s

/-- DECRYPT and KW_UNWRAP write plaintext as they produce it, before the check is complete (R439): a part of it, which a free choice
decides, lies in the output area while the request runs. What an unwrapping that fails its check has produced is free. -/
def intPlain (j : IntJob) (s : State) : State :=
  let d := intDesc j.desc
  if j.early.isSome || j.line.isSome || !(d.op == 2 || d.op == 7) then s
  else
    let key := match j.key with | some k => k.key | none => []
    let plain : List Byte × State :=
      if d.op = 2 then (plainText d key j.ctx j.input, s)
      else match kwUnwrap (d.mode == 0x31) key j.input with
        | some t => (t.take (j.input.length - 8), s)
        | none => drawBytes s (j.input.length - 8)
    let r := drawBelow (plain.1.length + 1) plain.2
    partWrite (.intaglio j.queue) j.part d.outAddr (plain.1.take r.1) r.2

/-- The request of an engine reads what it needs, once that is here; one that acts on its slot waits for its turn, and a CLEAR empties the
slot for every request that starts from then on (R448). -/
def intLoad (k : Nat) (s : State) : State :=
  let e := intOf k s
  match e.job with
  | none => s
  | some j =>
    if j.loaded || !slotTurn j s then s
    else match intRead j s with
      | .inl m => askMissing (jobAgent .intaglio j.queue j.line) j.part m s
      | .inr j =>
        let s := intSeen j (setInt k { e with job := some { j with loaded := true } } s)
        let s := if j.early.isNone ∧ (intDesc j.desc).op = 0x13 then setKeySlot (intDesc j.desc).slot none s else s
        let s := if j.early = some 4 then raise (srcInt k) 0x04 (some j.part) (intDesc j.desc).inAddr s else s
        intPlain j s

/-- A request starts on an engine (R448). -/
def intBegin (k : Nat) (j : IntJob) (s : State) : State :=
  let e := intOf k s
  intLoad k (setInt k { e with job := some { j with start := s.eng.order, dual := e.dual } } { s with eng := { s.eng with order := s.eng.order + 1 } })

/-- The descriptor at the head of a queue is urgent (R450). -/
def urgentAt (q : Nat) (s : State) : Bool :=
  match takeDesc .intaglio q s with
  | .desc d => (intDesc d).flags == 1
  | _ => false

/-- The queue whose urgent request is next (R437, R450). -/
def urgentNext (s : State) : Option Nat := nextQueue .intaglio s.eng.iNext (fun q => urgentAt q s) s

/-- The descriptor that stands for a request in line (R455). -/
def intLineDesc (enc : Bool) (profile slot ctxA n : Nat) : List Byte :=
  let mode := bits profile 15 12
  [if enc then 1 else 2, BitVec.ofNat 8 mode, 0, if mode = 3 then 16 else 0] ++ beBytes 2 slot ++ [0, 0] ++ beBytes 4 (min n 0xFFFFFFFF) ++
  beBytes 4 (min n 0xFFFFFFFF) ++ List.replicate 16 0 ++ beBytes 8 ctxA ++ List.replicate 24 0

/-- A request that starts: the descriptor, the status that it decides, and the key as it stands now (R448). -/
def intStart (k q p : Nat) (line : Option Nat) (b input : List Byte) (s : State) : State :=
  let r := intEarly q p line.isSome (intDesc b) s
  intBegin k { queue := q, part := p, desc := b, ctx := [], input := input, aad := [], key := r.2, early := r.1, suspended := false, dual := false,
               line := line } s

/-- An engine takes the request in line of an operation (R437, R455). -/
def intTakeLine (k i : Nat) (r : LineReq) (s : State) : State :=
  match opOf i s with
  | none => s
  | some o =>
    let b := intLineDesc (!r.back) o.blk.cipherProfile ((o.cur.map (·.slot)).getD 0xFFFF) o.blk.cipherCtx r.input.length
    let s := { s with eng := { s.eng with iq := inlineCount s.eng.iq } }
    intStart k noQueue (jent i s).part (some i) b r.input (lineTaken i k s)

/-- An Intaglio engine is idle and in service. -/
def intIdle (k : Nat) (s : State) : Bool :=
  operating s && decide (k < 8) && !(intOf k s).failed && (intOf k s).job.isNone && (intOf k s).susp.isNone

/-- The pending request in line that an Intaglio engine takes next, if it takes one (R437): none while an urgent request waits. -/
def intLineNext (k : Nat) (s : State) : Option (Nat × LineReq) :=
  if inlineTurn s.eng.iq && (urgentNext s).isNone then lineNext true (k / 4) s else none

/-- The request of a queue starts on an engine, where its opcode satisfies `want`. -/
def intTakeQueue (k q : Nat) (want : Nat → Bool) (s : State) : State :=
  match queuePart .intaglio q s, takeDesc .intaglio q s with
  | none, _ => s
  | _, .wait s => s
  | _, .fault s => s
  | some p, .desc d =>
    if !want (natAt d 0 1) then s
    else
      let s := tookDesc .intaglio q s
      intStart k q p none d [] { s with eng := { s.eng with iNext := (q + 1) % 256 } }

/-- An Intaglio engine takes the next request, whose opcode satisfies `want` (R437): an urgent one first (R450), then the pending one in line
of highest priority, then that of the next queue in round robin. -/
def intTake (k : Nat) (want : Nat → Bool) (s : State) : State :=
  if !intIdle k s then s
  else
    let s := askDescs .intaglio s
    match urgentNext s with
    | some q => intTakeQueue k q want s
    | none => match intLineNext k s with
      | some (i, r) => if want (if r.back then 2 else 1) then intTakeLine k i r s else s
      | none => match nextQueue .intaglio s.eng.iNext (fun q => descHere .intaglio q s) s with
        | some q => intTakeQueue k q want s
        | none => s

/-- A completion record of an Intaglio request (R435), its TOR still to be set. -/
def intRecord (d : IntDesc) (status : Nat) (susp : Bool) (head rd wr : Nat) : List Byte :=
  beBytes 8 d.tag ++ beBytes 1 status ++ beBytes 1 (2 * b2n susp) ++ beBytes 2 head ++ beBytes 4 rd ++ beBytes 4 wr ++ beBytes 2 d.slot ++
  [0, 0] ++ beBytes 8 0

/-- A failure whose output area is overwritten with zeros (R438). -/
def zeroesOut (status : Nat) : Bool := status == 0x30 || status == 7 || status == 4 || status == 6 || status == 0x26

/-- One generate request of a DRBG instance is counted (18 R421). -/
def drbgCount (inst : Nat) (s : State) : State :=
  { s with tr := { s.tr with drbg := tmod {} inst (fun d => { d with requests := d.requests + 1 }) s.tr.drbg } }

/-- A key of `n` bytes from the DRBG instance of a partition (R446); for XTS it is drawn again until the two halves differ. A draw past the
last of so many takes a second half that differs. -/
def drawKey (inst : Nat) (xts : Bool) (n : Nat) : Nat → State → List Byte × State
  | 0, s =>
    let r := drawBytes (drbgCount inst s) n
    (if xts && r.1.take (n / 2) == r.1.drop (n / 2) then r.1.take (n / 2) ++ (r.1.drop (n / 2)).map (fun b => b ^^^ 0xFF) else r.1, r.2)
  | m + 1, s =>
    let r := drawBytes (drbgCount inst s) n
    if xts && r.1.take (n / 2) == r.1.drop (n / 2) then drawKey inst xts n m r.2 else r

/-- Redrawings of a key at most. -/
def redraws : Nat := 1024

/-- The key-management work of a request whose checks have passed (R446, R447): status, output, and the state with the slot changed. -/
def intManage (p : Nat) (d : IntDesc) (j : IntJob) (s : State) : Nat × List Byte × State :=
  match d.op with
  | 0x10 =>
    let r := drawKey p (d.mode == 4 || d.mode == 5) (genLen d) redraws s
    let usage := bits d.aux 63 48
    let never := d.aux.testBit 47
    let u := uuidOf p s
    let s := setKeySlot d.slot (some { key := r.1, alg := d.mode, usage := usage, never := never, uuid := u }) r.2
    (0, if d.outAddr = 0 then [] else blobOf (partKek p s) d.mode usage never r.1 u, s)
  | 0x11 =>
    let b := j.input
    (match blobKey (partKek p s) b with
     | none => (0x25, [], s)
     | some key =>
       (0, [], setKeySlot d.slot (some { key := key, alg := natAt b 1 1, usage := natAt b 2 2, never := (natAt b 4 1).testBit 0, uuid := uuidOf p s }) s))
  | 0x12 => match j.key with
    | some k => (0, blobOf (partKek p s) k.alg k.usage k.never k.key k.uuid, s)
    | none => (0x21, [], s)
  | _ => (0, [], s)

/-- What a request on engine k comes to: its status, output, context, and the state with a slot changed (R434, R446 to R448). A status that was
decided before stands before KEY_LOST and FAULT. -/
def intOutcome (j : IntJob) (forced : Option Nat) (s : State) : Nat × List Byte × List Byte × State :=
  let d := intDesc j.desc
  match j.early.orElse (fun _ => forced) with
  | some c => (c, [], [], s)
  | none =>
    if 0x10 ≤ d.op then let r := intManage j.part d j s; (r.1, r.2.1, [], r.2.2)
    else
      let key := match j.key with | some k => k.key | none => []
      let r := intCompute d key j.ctx j.aad j.input
      let who := jobAgent .intaglio j.queue j.line
      let busy := d.ctxAddr != 0 && (!(ctxAway j.part (d.ctxAddr + 0x60) true s).isEmpty ||
        (partRead who j.part (d.ctxAddr + 0x60) 8 s).1 != bytesAt j.ctx 0x60 8)
      if r.1 = 0 ∧ busy = true then (6, [], [], s) else (r.1, r.2.1, r.2.2, s)

/-- A request that ran on engine k ends, with a status decided from outside (KEY_LOST, FAULT) or with its own (R434, R438, R449, R452):
output, context, record. -/
def intFinish (k : Nat) (j : IntJob) (forced : Option Nat) (s : State) : State :=
  let d := intDesc j.desc
  let e := intOf k s
  let s := setInt k { e with jobs := satAdd 32 e.jobs 1, faults := if forced = some 7 ∧ j.early.isNone then satAdd 16 e.faults 1 else e.faults } s
  let who := jobAgent .intaglio j.queue j.line
  let r := intOutcome j forced s
  let s := if r.1 = 0 ∧ d.op < 0x10 ∧ d.ctxAddr ≠ 0 then partWrite who j.part d.ctxAddr r.2.2.1 r.2.2.2 else r.2.2.2
  match j.line with
  | some i => lineDone i k r.1 r.2.1 s
  | none =>
    let v := queueOf .intaglio j.queue s
    if r.1 ≠ 0 then
      let s := if zeroesOut r.1 then partWrite who j.part d.outAddr (List.replicate (outArea d) 0) s else s
      postRecord .intaglio j.queue (intRecord d r.1 j.suspended v.head 0 0) (r.1 == 3 || r.1 == 4 || r.1 == 7) s
    else
      let s := partWrite who j.part d.outAddr r.2.1 s
      postRecord .intaglio j.queue (intRecord d 0 j.suspended v.head (inArea d) r.2.1.length) false s

/-- The running request of an engine ends, and a suspended one resumes once its record is posted (R451). -/
def intEnd (k : Nat) (forced : Option Nat) (s : State) : State :=
  let e := intOf k s
  match e.job with
  | none => s
  | some j =>
    let s := intFinish k j forced (setInt k { e with job := none } s)
    if e.susp.isNone then s
    else if j.line.isNone ∧ (queueOf .intaglio j.queue s).post.isSome then setInt k { intOf k s with posting := some j.queue } s
    else restoreInt k s

/-- A CLEAR waits until every request that started with the key before it has posted its completion (R448). -/
def clearWaits (j : IntJob) (s : State) : Bool :=
  let d := intDesc j.desc
  d.op == 0x13 && j.early.isNone &&
  ((intJobs s).any (fun x => x.key.isSome && (intDesc x.desc).slot == d.slot && decide (x.start < j.start)) ||
   s.eng.iq.any (fun e => e.2.post.any (fun r => natAt r.1 0x14 2 == d.slot)))

/-- The running request of an engine ends, once what it reads is here, a CLEAR need not wait, and the line of its context's `GEN` is this
module's to write. -/
def intTryEnd (k : Nat) (forced : Option Nat) (s : State) : State :=
  match (intOf k s).job with
  | none => s
  | some j =>
    let d := intDesc j.desc
    let away := ctxAway j.part (d.ctxAddr + 0x60) (forced.isNone && j.early.isNone && d.ctxAddr != 0) s
    if !j.loaded && forced.isNone then intLoad k s
    else if clearWaits j s then s
    else if away.isEmpty then intEnd k forced s else askOwned (jobAgent .intaglio j.queue j.line) j.part away s

/-- Key slots are destroyed (R444, R449): every request running or suspended that uses one of them, and every one under way that would load
one, ends with KEY_LOST first. -/
def destroySlots (gone : Nat → KeySlot → Bool) (loads : Nat → Nat → Bool) (s : State) : State :=
  let dead := s.eng.slots.filterMap (fun e => match e.2 with | some k => if gone e.1 k then some e.1 else none | none => none)
  let uses (j : IntJob) : Bool :=
    let d := intDesc j.desc
    (j.key.isSome && dead.contains d.slot) || (j.early.isNone && (d.op == 0x10 || d.op == 0x11) && loads j.part d.slot)
  let s := (List.range 8).foldl (fun s k =>
    let e := intOf k s
    let s := match e.susp with
      | some j => if uses j then intFinish k j (some 0x26) (setInt k { e with susp := none, posting := none } s) else s
      | none => s
    if (intOf k s).job.any uses then intEnd k (some 0x26) s else s) s
  dead.foldl (fun s i => setKeySlot i none s) s

/-! ### Engines and work in line -/

/-- Idle engines of the hubs take the work in line that waits for them (R403, R437). -/
def lineStart (s : State) : State :=
  (List.range 8).foldl (fun s k =>
    let s := if raspIdle k s then (match raspLineNext k s with | some (i, r) => raspTakeLine k i r s | none => s) else s
    if intIdle k s then (match intLineNext k s with | some (i, r) => intTakeLine k i r s | none => s) else s) s

/-- A queue command as it is given: work in line that waited behind a queue that DISABLE takes away begins (R403). -/
def queueStep (b : QBlock) (q cmd : Nat) (s : State) : State :=
  let t := queueCommand b q cmd s
  if cmd = 2 then lineStart t else t

/-- Jobs that waited for lines of storage or for a slot read what has come. -/
def engLoad (s : State) : State := (List.range 8).foldl (fun s k => intLoad k (raspLoad k s)) s

end Sys2Proof.Machine
end

