-- ==== Sys2Proof/Machine/OpsChannel.lean ====
section
/-! DEFINITION. The channel subsystem: frames, paths, orders and chains, the run of a channel program, its end, halts, re-drive,
settlement, and the channel instructions (15_channel_programs R327 to R362; 16_channel_journal R368 to R381; 03 R75). -/

namespace Sys2Proof.Machine

/-! ### Frames (R356, R357) -/

/-- The header of a frame (R356). -/
def frameHead (ftype origin i dev body seq : Nat) : List Byte :=
  beBytes 8 (pack [(63, 60, ftype), (59, 54, origin), (53, 36, i), (35, 20, dev), (19, 0, body)]).toNat ++ beBytes 8 seq

/-- An OPEN frame. -/
def openFrame (origin i dev seq prio : Nat) (redrive : Bool) : List Byte :=
  frameHead 1 origin i dev 8 seq ++ beBytes 1 prio ++ beBytes 1 (b2n redrive) ++ beBytes 6 0

/-- An ORDER frame: kind 0 an order, kind 1 a halt, which carries only the ordinal. -/
def orderFrame (origin i dev seq ordinal kind opcode flags count devb : Nat) : List Byte :=
  frameHead 2 origin i dev 32 seq ++ beBytes 4 ordinal ++ beBytes 1 kind ++ beBytes 1 opcode ++ beBytes 2 (flags &&& 5) ++ beBytes 4 count ++
  beBytes 4 0 ++ beBytes 8 devb ++ beBytes 8 0

/-- A DATA frame. -/
def dataFrameBytes (origin i dev seq ordinal offset : Nat) (last : Bool) (data : List Byte) : List Byte :=
  frameHead 3 origin i dev (16 + data.length) seq ++ beBytes 4 ordinal ++ beBytes 4 offset ++ beBytes 1 (b2n last) ++ beBytes 7 0 ++ data

/-- An ACK frame. -/
def ackFrame (origin i dev seq ordinal : Nat) : List Byte := frameHead 5 origin i dev 8 seq ++ beBytes 4 ordinal ++ beBytes 4 0

/-- Send a frame on the CTL virtual channel. -/
def sendCtl (n : Nat) (f : List Byte) (s : State) : State := linkSend (.ch n) 0 f (emit (.frame n f) s)

/-- Most data bytes of a DATA frame. -/
def dataMax : Nat := 65520

/-- The DATA frames of device data from offset 0; `fin` puts LAST on the last. -/
def dataFrames (origin i dev seq ordinal : Nat) (fin : Bool) (data : List Byte) : List (List Byte) :=
  let n := max (cdiv data.length dataMax) (if fin then 1 else 0)
  (List.range n).map (fun k =>
    dataFrameBytes origin i dev seq ordinal (k * dataMax) (fin && k + 1 == n) ((data.drop (k * dataMax)).take dataMax))

/-- The place of a waiting message in a port's service: a message already begun first, then DATA by falling priority and rising
turn (R354). -/
def txKey (m : TxMsg) : Nat × Nat := if !m.first then (0, 0) else (8 - m.prio, m.round)

/-- Put a DATA message in its place among those that wait. -/
def txPlace (m : TxMsg) : List TxMsg → List TxMsg
  | [] => [m]
  | x :: t =>
    if x.vc = 1 ∧ ((txKey m).1 < (txKey x).1 ∨ ((txKey m).1 = (txKey x).1 ∧ (txKey m).2 < (txKey x).2)) then m :: x :: t
    else x :: txPlace m t

/-- The turn at which a new operation joins the round robin of its priority: that of the message served next. -/
def txRound (prio : Nat) (q : List TxMsg) : Nat :=
  match q.find? (fun m => m.vc == 1 && m.first && m.prio == prio) with
  | some m => m.round
  | none => 0

/-- Hand the DATA frames of an operation to a port (R354). -/
def sendDataFrames (n flow prio : Nat) (fs : List (List Byte)) (s : State) : State :=
  let r := txRound prio (linkOf (.ch n) s).txq
  let s := emits (fs.map (fun f => Out.frame n f)) s
  let put (q : List TxMsg) (e : Nat × List Byte) : List TxMsg :=
    txPlace { vc := 1, bytes := e.2, first := true, prio := prio, flow := flow, round := r + e.1 } q
  let s := modLink (.ch n) (fun l => { l with txq := ((List.range fs.length).zip fs).foldl put l.txq }) s
  txDrain (.ch n) ((fs.map (fun f => f.length / 224 + 1)).foldl (· + ·) 0) s

/-- DATA of an operation that has not begun to leave is withdrawn (R331, R348). -/
def dropData (n flow : Nat) (s : State) : State :=
  modLink (.ch n) (fun l => { l with txq := l.txq.filter (fun m => !(m.vc == 1 && m.first && m.flow == flow)) }) s

/-! ### Subchannels and paths -/

/-- Configuration of a subchannel. -/
def subOf (i : Nat) (s : State) : SubCfg := tget {} i s.ch.sub

/-- This module drives the adapter paths on a port (R328). -/
def chDriven (n : Nat) (s : State) : Bool := decide (n < 12) && tget false n s.ch.driving

/-- The named ports of a subchannel. -/
def chPorts (i : Nat) (s : State) : List Nat := [(subOf i s).port0, (subOf i s).port1]

/-- This module drives a port for an operation: for a copy of the partner's entry, a port taken over from it (22 R504). -/
def chDrivenFor (i n : Nat) (s : State) : Bool := if (jent i s).mirror then decide (n < 12) && tget false n s.dx.taken else chDriven n s

/-- The path for an operation: the first named port that is driven and ACTIVE (R355). -/
def chPath (i : Nat) (s : State) : Option Nat := (chPorts i s).find? (fun n => chDrivenFor i n s && portActive (.ch n) s)

/-- The hub of an operation's port: `PORT0` when this module drives it, and `PORT1` otherwise (R354). -/
def chHub (i : Nat) (s : State) : Nat :=
  let c := subOf i s
  (if chDrivenFor i c.port0 s then c.port0 else c.port1) / 6

/-- The partition subchannel of a module subchannel, as its number (R327). -/
def subchBase (p : Nat) (s : State) : Nat := (partOf p s).elim 0 (·.subchBase)

/-- The partition of this module that owns a module subchannel (R30). -/
def subchPart (i : Nat) (s : State) : Option Nat :=
  (partIds s).find? (fun p => match partOf p s with
    | some d => decide (d.subchBase ≤ i) && decide (i < d.subchBase + d.subchCount)
    | none => false)

/-- `STATE` of a channel processor: STOPPED until bring-up (R363). -/
def cpState (k : Nat) (s : State) : Nat := tget 1 k s.ch.cp

/-- Set it. -/
def setCp (k v : Nat) (s : State) : State := { s with ch := { s.ch with cp := tset 1 k v s.ch.cp } }

/-- Operations assigned to a channel processor (R354). -/
def cpActive (k : Nat) (s : State) : Nat :=
  (s.ch.ops.filter (fun e => match e.2 with | some o => o.cp == some k | none => false)).length

/-- The channel processors of a hub (R12). -/
def hubCps (hub : Nat) : List Nat := (List.range 16).map (· + 16 * hub)

/-- The least-loaded of some channel processors, the lowest-numbered among equals. -/
def leastCp (s : State) : List Nat → Option Nat
  | [] => none
  | k :: t => match leastCp s t with
    | none => some k
    | some j => if cpActive k s ≤ cpActive j s then some k else some j

/-- The channel processor that takes an operation of a hub (R354): in RUN, with room. -/
def cpPick (hub : Nat) (s : State) : Option Nat :=
  leastCp s ((hubCps hub).filter (fun k => cpState k s == 0 && decide (cpActive k s < 256)))

/-! ### Status, offers and the end of an operation -/

/-- The address that the entry gives: the first order not yet ended (R366). -/
def opAddr (o : ChOp) : Nat := match o.cur with | some d => d.first | none => o.pc

/-- A transition of an operation that goes on, with `ORDER_ADDR` as it stands (R366, R368). -/
def opTrans (i t : Nat) (f : JEntry → JEntry) (s : State) : State :=
  match opOf i s with
  | none => s
  | some o => jnlTrans i t none (fun e => f { e with orderAddr := opAddr o }) s

/-- The subchannel has an intermediate offer (R352). -/
def hasInter (i : Nat) (s : State) : Bool := s.offers.any (fun x => x.subch == i && x.inter)

/-- An order with `NOTIFY` begins (R352, R336): intermediate status, and an offer into which later ones merge. A copy of the
partner's entry offers nothing (R380). -/
def chNotify (i at_ : Nat) (s : State) : State :=
  let e := jent i s
  if e.mirror then s
  else
    let s := modOp i (fun o => { o with inter := some (s.tor.tor, torQuality s, at_) }) s
    if hasInter i s then s
    else { s with offers := s.offers ++ [{ subch := i, part := e.part, cls := e.subclass, param := (opOf i s).elim e.param (·.blk.param), inter := true, taken := false }] }

/-- Withdraw the offers of a subchannel. -/
def dropOffers (i : Nat) (s : State) : State := { s with offers := s.offers.filter (fun x => x.subch != i) }

/-- Offer the final status of a subchannel (R352). -/
def offerFinal (i : Nat) (s : State) : State :=
  let e := jent i s
  let s := dropOffers i s
  if e.mirror then s
  else { s with offers := s.offers ++ [{ subch := i, part := e.part, cls := e.subclass, param := (lastOf i s).param.getD e.param, inter := false, taken := false }] }

/-- Acknowledge a STATUS of an operation (R358). -/
def sendAck (n origin i seq ordinal : Nat) (s : State) : State := sendCtl n (ackFrame origin i (subOf i s).dev seq ordinal) s

/-- `FLAGS` of a final status. -/
def endFlags (o : ChOp) (v : EndVals) : Nat :=
  2 * b2n v.length + 4 * b2n v.halted + 8 * b2n o.redriven + 16 * b2n o.released + 32 + 64 * b2n v.uncertain

/-- The final status of an operation (R344, R350, R368): its FINAL transition, its offer, and the ACK once the transition is durable
(R370). -/
def chFinal (i : Nat) (v : EndVals) (s : State) : State :=
  match opOf i s with
  | none => s
  | some o =>
    let fl := endFlags o v
    let s := match o.port with | some n => dropData n i s | none => s
    let s := jnlTrans i trFinal none (fun e => { e with state := 5, devStatus := v.dev, chCode := v.code, flags := fl, orderAddr := v.addr,
                                                        ordinal := v.resid, engine := v.engine }) s
    let now := syncAtOnce i s
    let s := setLast i { func := o.func, tor := s.tor.tor, quality := torQuality s, port := o.port, origin := o.origin,
                         ackDue := if now then none else v.ack, ordinal := v.ack.getD 0,
                         param := if o.mod_.isSome then some o.blk.param else none, conflict := o.conflict } s
    let s := offerFinal i (dropGot (.subch i) (fun _ => true) (setOp i none s))
    match v.ack, o.port with
    | some k, some n => if now then sendAck n o.origin i (jent i s).seq k s else s
    | _, _ => s

/-- An operation ends: its status waits until every store made for it is performed at SYSTEM scope (10 R230). -/
def chEnd (i : Nat) (v : EndVals) (s : State) : State :=
  if agentPending (.subch i) s then modOp i (fun o => { o with ending := some (o.ending.getD v), wait := .line }) s else chFinal i v s

/-- A status that waited for stores. -/
def endDue (i : Nat) (s : State) : State :=
  match opOf i s with
  | some o => (match o.ending with
    | some v => if agentPending (.subch i) s then s else chFinal i v s
    | none => s)
  | none => s

/-! ### Halting (R331, R351, R358) -/

/-- The ordinal that a halt carries: that of the first order not yet ended (R358; 16 R366). -/
def haltOrd (i : Nat) (s : State) : Nat := (jent i s).ordinal

/-- Send a halt on the operation's path, with none of its waiting DATA. -/
def sendHalt (i : Nat) (s : State) : State :=
  match opOf i s with
  | none => s
  | some o => match o.port with
    | none => s
    | some n =>
      let s := dropData n i s
      let s := setOp i (some { o with ordered := true }) s
      sendCtl n (orderFrame o.origin i (subOf i s).dev (jent i s).seq (haltOrd i s) 1 0 0 0 0) s

/-- The device is halted, and the operation waits for its final STATUS (R351). -/
def beginHalt (i : Nat) (s : State) : State :=
  sendHalt i (modOp i (fun o => { o with halt := some (o.halt.getD s.tor.tor), wait := .device, line := none }) s)

/-- A check ends the program (R341, R347, R348, R351). The device is halted for ADDRESS_CHECK, DATA_POISON and ENGINE_CHECK once
OPEN has been sent; `moving` says that the check interrupts a transfer. -/
def chCheck (i code at_ engine : Nat) (s : State) : State :=
  match opOf i s with
  | none => s
  | some o =>
    if (jent i s).openSent ∧ (code = 2 ∨ code = 4 ∨ code = 5) then
      beginHalt i (setOp i (some { o with check := some { code := code, order := at_, engine := engine, moving := o.cur.any (·.sent) } }) s)
    else chEnd i { code := code, addr := at_, engine := engine, resid := o.lastRes, length := o.lastLen, halted := o.halted } s

/-- An operation's processor consumed poisoned storage (R351; 21 R480). -/
def cpPoison (i : Nat) (addr : Nat) (s : State) : State :=
  match opOf i s with
  | some o => raise (srcCp (o.cp.getD 0)) 0x04 (some (jent i s).part) addr s
  | none => s

/-! ### Orders (R339 to R343) -/

/-- An order as read. -/
structure Order where
  addr : Nat
  opcode : Nat
  rsv : Bool
  flags : Nat
  count : Nat
  data : Nat
  slot : Nat
  dev : Nat
deriving DecidableEq, Repr

/-- The order that 32 bytes spell (R339). -/
def orderOf (a : Nat) (b : List Byte) : Order :=
  { addr := a, opcode := natAt b 0 1, rsv := natAt b 1 1 != 0 || natAt b 0x12 6 != 0, flags := natAt b 2 2, count := natAt b 4 4,
    data := natAt b 8 8, slot := natAt b 0x10 2, dev := natAt b 0x18 8 }

/-- The flags permitted on an opcode, none where it is undefined (R340). -/
def permitted (op : Nat) : Option Nat :=
  match op with
  | 0x10 => some 0x177
  | 0x11 => some 0x2BF
  | 0x12 => some 0x35
  | 0x13 => some 0x3D
  | 0x20 => some 0x11 | 0x21 => some 0x11 | 0x22 => some 0x11 | 0x23 => some 0x11
  | _ => none

/-- A fault of one order by itself (R341). -/
def orderBad (o : Order) : Bool :=
  match permitted o.opcode with
  | none => true
  | some m => o.rsv || o.flags &&& (0xFFFF - m) != 0 || (o.count == 0 && (o.opcode == 0x10 || o.opcode == 0x11 || o.opcode == 0x13)) ||
    (o.opcode == 0x20 && o.data % 32 != 0) || (o.flags.testBit 5 && o.data % 16 != 0)

/-- The outcome of reading storage for an operation. -/
inductive Got (α : Type) where
  | ok (a : α)
  | addr
  | poison (real : Nat)
  | miss (xs : List (Nat × Nat))

/-- Read storage of a partition. -/
def readPart (who : Agent) (p a n : Nat) (s : State) : Got (List Byte) :=
  if !partMapped p a n s then .addr
  else
    let m := partMissing who p a n s
    if !m.isEmpty then .miss m
    else
      let r := partRead who p a n s
      if r.2 then .poison (a / 128 * 128) else .ok r.1

/-- Read an order. -/
def readOrder (who : Agent) (p a : Nat) (s : State) : Got Order :=
  match readPart who p a 32 s with
  | .ok b => .ok (orderOf a b)
  | .addr => .addr
  | .poison r => .poison r
  | .miss xs => .miss xs

/-- What taking an order into a data chain comes to: the chain is whole, or goes on; a check with its code and order address; lines to wait
for. -/
inductive Reach where
  | ok (c : Chain)
  | more (c : Chain)
  | check (code at_ : Nat) (poisoned : Option Nat)
  | miss (xs : List (Nat × Nat))

/-- The entries of a data-address list (R345). -/
def listElems (who : Agent) (p : Nat) (o : Order) : Nat → Nat → Nat → List Elem → State → Sum Reach (List Elem)
  | 0, _, _, acc, _ => .inr acc
  | fuel + 1, a, need, acc, s =>
    if need = 0 then .inr acc
    else match readPart who p a 16 s with
      | .addr => .inl (.check 2 o.addr none)
      | .poison r => .inl (.check 5 o.addr (some r))
      | .miss xs => .inl (.miss xs)
      | .ok b =>
        let n := natAt b 8 4
        if n = 0 ∨ mib16 < n ∨ natAt b 12 4 ≠ 0 then .inl (.check 1 o.addr none)
        else
          let k := min n need
          let e : Elem := { addr := natAt b 0 8, len := k, order := o.addr, first := acc.isEmpty, notify := o.flags.testBit 4,
                            discard := o.flags.testBit 3 }
          listElems who p o fuel ((a + 16) % 2 ^ 64) (need - k) (acc ++ [e]) s

/-- The pieces of storage that an order names (R345). -/
def elemsOf (who : Agent) (p : Nat) (o : Order) (s : State) : Sum Reach (List Elem) :=
  if o.count = 0 then .inr []
  else if o.flags.testBit 5 then listElems who p o (o.count + 1) o.data o.count [] s
  else .inr [{ addr := o.data, len := o.count, order := o.addr, first := true, notify := o.flags.testBit 4, discard := o.flags.testBit 3 }]

/-- Most orders or steps of one command's run. -/
def chFuel : Nat := 4096

/-- The key slot that an order uses (R339). -/
def orderSlot (blk : OpBlock) (o : Order) : Nat := if o.slot = 0xFFFF then blk.keySlot else o.slot

/-- The order encrypts or decrypts with a slot that its partition may not name (R347). -/
def slotDenied (p : Nat) (blk : OpBlock) (o : Order) (s : State) : Bool :=
  (o.flags.testBit 8 || o.flags.testBit 9) && (orderSlot blk o == 0xFFFF || !slotInRange p (orderSlot blk o) s)

/-- The data chain that a device order begins (R343). -/
def orderChain (blk : OpBlock) (o : Order) : Chain :=
  { d := { opcode := o.opcode, flags := 0, first := o.addr, next := 0, count := 0, elems := [], eng := bits o.flags 9 6, slot := orderSlot blk o,
           dev := o.dev, note := o.flags.testBit 4 }
    next := o.addr }

/-- The next order of a data chain (R343, R345, R347): a device order of the same kind and engines, or a JUMP, which is followed. -/
def chainTake (who : Agent) (p : Nat) (blk : OpBlock) (c : Chain) (o : Order) (s : State) : Reach :=
  if orderBad o then .check 1 o.addr none
  else if o.opcode = 0x20 then
    if 8 ≤ c.jumps then .check 1 o.addr none
    else .more { c with next := o.data, jumps := c.jumps + 1 }
  else if o.opcode ≠ c.d.opcode ∨ bits o.flags 9 6 ≠ c.d.eng then .check 1 o.addr none
  else match elemsOf who p o s with
    | .inl r => r
    | .inr es =>
      let next := (o.addr + 32) % 2 ^ 64
      let c : Chain :=
        { c with d := { c.d with flags := o.flags, next := next, count := c.d.count + o.count, elems := c.d.elems ++ es }
                 next := next, jumps := 0, badSlot := c.badSlot.orElse (fun _ => if slotDenied p blk o s then some o.addr else none) }
      if o.flags.testBit 1 then .more c else .ok c

/-- The check of a whole chain, with its code and order address (R346, R347). -/
def chainCheck (blk : OpBlock) (c : Chain) : Option (Nat × Nat) :=
  let rasp := c.d.eng.testBit 0 || c.d.eng.testBit 1
  if rasp && ((blk.raspCtx == 0 && bits blk.raspProfile 12 11 != 3) || (c.d.eng.testBit 0 && decide (mib16 < c.d.count))) then some (1, c.d.first)
  else c.badSlot.map (fun a => (3, a))

/-! ### Data of a device order -/

/-- The operation waits. -/
def opWait (i : Nat) (w : OpWait) (s : State) : State := modOp i (fun o => { o with wait := w }) s

/-- The order brings device data into storage. -/
def isIn (d : DevOrd) : Bool := d.opcode == 0x11 || d.opcode == 0x13

/-- Outcome of reading the data of a WRITE: the bytes; or a check at an order with the bytes before the line concerned. -/
inductive Coll where
  | ok (data : List Byte)
  | bad (code order : Nat) (real : Nat) (good : List Byte)
  | miss (xs : List (Nat × Nat))

/-- Read pieces of storage in order. -/
def collPieces (who : Agent) (p order : Nat) (s : State) : List (Nat × Nat) → List Byte → Coll
  | [], acc => .ok acc
  | (a, n) :: t, acc =>
    match readPart who p a n s with
    | .addr => .bad 2 order a acc
    | .poison r => .bad 5 order r acc
    | .miss xs => .miss xs
    | .ok b => collPieces who p order s t (acc ++ b)

/-- Read bytes `skip` to `skip + n` of the data of a device order (R342). -/
def collect (who : Agent) (p : Nat) (s : State) : List Elem → Nat → Nat → List Byte → Coll
  | [], _, _, acc => .ok acc
  | e :: t, skip, n, acc =>
    if n = 0 then .ok acc
    else if e.len ≤ skip then collect who p s t (skip - e.len) n acc
    else
      let k := min (e.len - skip) n
      match collPieces who p e.order s (pieces (e.addr + skip) k) acc with
      | .ok acc => collect who p s t 0 (n - k) acc
      | r => r

/-- What reading those bytes does beside answering (11 R244). -/
def elemsSeen (who : Agent) (p : Nat) : List Elem → Nat → Nat → State → State
  | [], _, _, s => s
  | e :: t, skip, n, s =>
    if n = 0 then s
    else if e.len ≤ skip then elemsSeen who p t (skip - e.len) n s
    else
      let k := min (e.len - skip) n
      elemsSeen who p t 0 (n - k) (partSeen who p (e.addr + skip) k s)

/-- How many of `n` bytes from an address lie in the partition's extents without a gap. -/
def mappedPrefix (p a n : Nat) (s : State) : Nat :=
  ((pieces a n).foldl (fun (r : Nat × Bool) q => if r.2 && (armOf p q.1 s).isSome then (r.1 + q.2, true) else (r.1, false)) (0, true)).1

/-- Store device data from byte `off` of an order's data on (R345), up to an address outside every extent: the order that names such an
address, if any, the bytes moved, and the state. -/
def storeElems (who : Agent) (p : Nat) : List Elem → Nat → List Byte → State → Option Nat × Nat × State
  | [], _, _, s => (none, 0, s)
  | e :: t, off, data, s =>
    if data.isEmpty then (none, 0, s)
    else if e.len ≤ off then storeElems who p t (off - e.len) data s
    else
      let k := min (e.len - off) data.length
      let g := if e.discard then k else mappedPrefix p (e.addr + off) k s
      let s := if e.discard then s else partWrite who p (e.addr + off) (data.take g) s
      if g < k then (some e.order, g, s)
      else
        let r := storeElems who p t 0 (data.drop k) s
        (r.1, k + r.2.1, r.2.2)

/-- Chained orders with `NOTIFY` whose first byte the transfer has reached begin (R352). -/
def chBegin (i upto : Nat) (s : State) : State :=
  match opOf i s with
  | none => s
  | some o => match o.cur with
    | none => s
    | some d =>
      let r := d.elems.foldl (fun (r : Nat × State) e =>
        (r.1 + e.len,
         if e.first && e.notify && e.order != d.first && decide (d.begun ≤ r.1) && decide (r.1 < upto) then chNotify i e.order r.2 else r.2)) (0, s)
      modOp i (fun o => { o with cur := o.cur.map (fun d => { d with begun := max d.begun upto }) }) r.2

/-- Change the device order in progress. -/
def modCur (i : Nat) (f : DevOrd → DevOrd) (s : State) : State := modOp i (fun o => { o with cur := o.cur.map f }) s

/-- The hub whose engines work for an operation (R346): that of its port. -/
def opHub (i : Nat) (o : ChOp) (s : State) : Nat :=
  match o.port with
  | some n => n / 6
  | none => chHub i s

/-- Ask the engines of the hub for work in line; an idle one begins it (17 R403, 19 R437). -/
def askEngine (i : Nat) (cipher back : Bool) (input : List Byte) (s : State) : State :=
  lineStart (modOp i (fun o => { o with wait := .line, line := some { cipher := cipher, back := back, input := input, hub := opHub i o s } }) s)

/-- The engines are done with the work in line of an operation. -/
def clearLine (i : Nat) (s : State) : State := modOp i (fun o => { o with line := none }) s

/-- The engine code of a status other than success (R348). -/
def engineCode (cipher : Bool) (status : Nat) : Nat := if cipher then 0x8000 + status else status

/-- The storage data of a WRITE or CONTROL is here: it passes the engines, compressed and then encrypted (R346). -/
def writeBegin (i : Nat) (d : DevOrd) (data : List Byte) (s : State) : State :=
  if d.eng.testBit 0 then askEngine i false false data s
  else if d.eng.testBit 2 then askEngine i true false data s
  else modCur i (fun d => { d with out := some data, early := [] }) s

/-- A number as a 4-byte field holds it: where it does not fit, the spec states no value, and the field is free. -/
def fit32 (n : Nat) (s : State) : Nat × State := if n < 2 ^ 32 then (n, s) else drawBelow (2 ^ 32) s

/-- The bytes of an order's output area that a failed engine leaves: zeros under 19 R438, any bytes under 17 R404 (R348). -/
def failedOutput (who : Agent) (p status : Nat) (d : DevOrd) (s : State) : State :=
  if 0x8000 ≤ status then
    if zeroesOut (status - 0x8000) then (storeElems who p d.elems 0 (List.replicate d.count 0) s).2.2 else s
  else
    let r := drawBelow (d.count + 1) s
    let b := drawBytes r.2 r.1
    (storeElems who p d.elems 0 b.1 b.2).2.2

/-- What the engines made of a READ's data goes to storage (R344 to R346). -/
def readStore (i : Nat) (d : DevOrd) (out : List Byte) (s : State) : State :=
  let x := storeElems (.subch i) (jent i s).part d.elems 0 (out.take d.count) s
  let s := modCur i (fun d => { d with pushed := true, moved := x.2.1, excess := decide (d.count < out.length) }) x.2.2
  let s := chBegin i x.2.1 s
  match x.1 with
  | some a => chCheck i 2 a 0 s
  | none => s

/-- An engine failed on a READ's data (R348): storage is left as its failure rule leaves it. -/
def readFailed (i : Nat) (d : DevOrd) (code : Nat) (s : State) : State :=
  let s := failedOutput (.subch i) (jent i s).part code d s
  modOp i (fun o => { o with check := some { code := 4, order := d.first, engine := code, moving := true },
                             cur := o.cur.map (fun d => { d with pushed := true }) }) s

/-- The engines work on what a READ has received: decrypted, then decompressed (R346, R348). -/
def finishRead (i : Nat) (s : State) : State :=
  match opOf i s with
  | none => s
  | some o => match o.cur with
    | none => s
    | some d =>
      if d.eng = 0 ∨ d.pushed ∨ !isIn d then s
      else match o.line with
        | none => askEngine i (d.eng.testBit 3) true d.got s
        | some r => match r.done with
          | none => opWait i .line s
          | some (0, out) =>
            let s := clearLine i s
            if r.cipher ∧ d.eng.testBit 1 then askEngine i false true out s else readStore i d out s
          | some (c, _) => readFailed i d (engineCode r.cipher c) (clearLine i s)

/-! ### The run of a program -/

/-- Residual storage bytes of a device order at its STATUS, and whether its length is incorrect (R344). For a compressed WRITE the
spec does not state how many storage bytes stand behind device bytes not moved: a free value. -/
def orderResid (d : DevOrd) (r : Nat) (s : State) : Nat × Bool × State :=
  if isIn d then
    let n := fit32 (d.count - d.moved) s
    (n.1, decide (d.moved < d.count) || d.excess, n.2)
  else if d.eng.testBit 0 ∧ r ≠ 0 then
    let x := drawBelow d.count s
    (x.1 + 1, true, x.2)
  else
    let n := fit32 (min r d.count) s
    (n.1, decide (0 < min r d.count), n.2)

/-- An adapter broke the frame protocol (R351; 21 R478). -/
def breach (i n : Nat) (s : State) : State := raise (srcPort (.ch n)) 0x0E (some (jent i s).part) i s

/-- A device order ends at its STATUS (R344, R358). -/
def orderEnd (i : Nat) (dev : Nat) (fin : Bool) (r : Nat) (s : State) : State :=
  match opOf i s with
  | none => s
  | some o => match o.cur, o.port with
    | some d, some n =>
      let ord := (jent i s).ordinal
      let x := orderResid d r s
      let s := x.2.2
      let goOn := d.flags.testBit 0 && dev == 1 && o.check.isNone && (!x.2.1 || d.flags.testBit 2)
      let code := match o.check with | some c => c.code | none => 0
      let eng := match o.check with | some c => c.engine | none => 0
      let at_ := match o.check with | some c => c.order | none => d.next
      if goOn && fin then
        chEnd i { dev := dev, code := 6, length := x.2.1, uncertain := true, halted := o.halted, addr := d.next, resid := x.1, ack := some ord } (breach i n s)
      else if goOn then
        let s := setOp i (some { o with cur := none, pc := d.next, line := none, wait := .none, lastDev := dev, lastRes := x.1, lastLen := x.2.1 }) s
        let s := opTrans i trOrderEnd (fun e => { e with ordinal := (ord + 1) % 2 ^ 32 }) s
        sendAck n o.origin i (jent i s).seq ord s
      else if fin then
        chEnd i { dev := dev, code := code, length := x.2.1, halted := o.halted, addr := at_, resid := x.1, engine := eng, ack := some ord } s
      else
        let s := setOp i (some { o with cur := none, pc := d.next, line := none, ended := some (dev, x.1, x.2.1) }) s
        let s := opTrans i trOrderEnd (fun e => { e with ordinal := (ord + 1) % 2 ^ 32 }) s
        beginHalt i (sendAck n o.origin i (jent i s).seq ord s)
    | _, _ => s

/-- Send OPEN on a path (R358, R361, R362): the first one is journaled as OPEN, a later one begins a re-drive. -/
def sendOpen (i n : Nat) (s : State) : State :=
  match opOf i s with
  | none => s
  | some o =>
    let e := jent i s
    let again := e.openSent
    let s := sendCtl n (openFrame o.origin i (subOf i s).dev e.seq o.blk.priority (again || o.redrive)) s
    let s := setOp i (some { o with port := some n, redriven := o.redriven || again }) s
    if !again then opTrans i trOpen (fun e => { e with openSent := true }) s
    else if o.halt.isSome then s
    else opTrans i trRedrive (fun e => { e with state := if e.state = 3 then 3 else 2, flags := e.flags ||| 8 }) s

/-- Send the ORDER frame of the device order in progress (R357); its first order begins (R352). -/
def sendOrder (i : Nat) (s : State) : State :=
  match opOf i s with
  | none => s
  | some o => match o.cur, o.port with
    | some d, some n =>
      let e := jent i s
      let c := if d.eng.testBit 0 || d.eng.testBit 1 then (0xFFFFFFFF, s) else fit32 d.count s
      let f := orderFrame o.origin i (subOf i s).dev e.seq e.ordinal 0 d.opcode d.flags c.1 d.dev
      let s := sendCtl n f (setOp i (some { o with ordered := true, cur := some { d with sent := true, pushed := d.pushed && isIn d } }) c.2)
      if d.note then chNotify i d.first (modCur i (fun d => { d with note := false }) s) else s
    | _, _ => s

/-- An operation whose path was lost is re-driven on the first path that is there (R355, R361): OPEN with REDRIVE, then a halt or
the order in progress. -/
def chReopen (i : Nat) (s : State) : State :=
  match opOf i s with
  | none => s
  | some o =>
    if !(jent i s).openSent || o.port.isSome || o.ending.isSome || (o.cp.isNone && o.halt.isNone) then s
    else match chPath i s with
      | none => s
      | some n =>
        let s := sendOpen i n s
        if o.halt.isSome then sendHalt i s
        else
          let s := if o.wait = .path then opWait i .none s else s
          if o.cur.isSome then sendOrder i s else s

/-- An operation settled from its entry ends by a halt (16 R379): its journaled state cannot carry it on. -/
def settleHalt (i : Nat) (s : State) : State :=
  let s := modOp i (fun o => { o with settling := true, halted := true, redriven := true, halt := some s.tor.tor, wait := .device }) s
  let s := opTrans i trHalt (fun e => { e with state := 4 }) s
  if (opOf i s).any (·.port.isSome) then sendHalt i s else chReopen i s

/-- The suspension of an operation begins: a SUSPEND transition, unless it is suspended already (R349). -/
def chSuspend (i : Nat) (s : State) : State :=
  if (jent i s).state = 3 then s else opTrans i trSuspend (fun e => { e with state := 3 }) s

/-- The release of a held operation at its first WRITE is journaled with its tag (R75, R349, R366). -/
def chRelease (i : Nat) (s : State) : State :=
  match opOf i s with
  | none => s
  | some o =>
    let s := setOp i (some { o with released := true, wait := .none }) s
    opTrans i trRelease (fun e => { e with state := 2, flags := e.flags ||| 16, release := o.blk.relTag }) s

/-- Hand device data to the port. -/
def pushData (i : Nat) (fin : Bool) (data : List Byte) (s : State) : State :=
  match opOf i s with
  | none => s
  | some o => match o.port with
    | none => s
    | some n =>
      let e := jent i s
      sendDataFrames n i o.blk.priority (dataFrames o.origin i (subOf i s).dev e.seq e.ordinal fin data) s

/-- The storage data of a WRITE or CONTROL is read, and whole it passes the engines (R342, R346). `upto` bounds what is read now. -/
def fillOut (i upto : Nat) (s : State) : State :=
  match opOf i s with
  | none => s
  | some o => match o.cur with
    | none => s
    | some d =>
      if d.out.isSome then s
      else
        let p := (jent i s).part
        let have_ := d.early.length
        let n := min upto d.count
        let got := collect (.subch i) p s d.elems have_ (n - have_) d.early
        let s := match got with | .miss _ => s | _ => elemsSeen (.subch i) p d.elems have_ (n - have_) s
        match got with
        | .miss xs => opWait i .line (askMissing (.subch i) p xs s)
        | .bad code order real good =>
          let s := if code = 5 then cpPoison i real s else s
          -- with engines nothing of the order is sent; else the bytes before the line concerned are, unless held
          let s := if d.eng = 0 ∧ (!o.blk.hold ∨ o.released ∨ d.opcode ≠ 0x10) then pushData i false good s else s
          chCheck i code order 0 s
        | .ok data =>
          let s := modCur i (fun d => { d with early := data }) s
          if n < d.count then s else writeBegin i d data s

/-- What the engines made of the data of a WRITE (R346, R348). -/
def writeStep (i : Nat) (d : DevOrd) (r : LineReq) (s : State) : State :=
  match r.done with
  | none => opWait i .line s
  | some (0, out) =>
    let s := clearLine i s
    if !r.cipher ∧ d.eng.testBit 2 then askEngine i true false out s else modCur i (fun d => { d with out := some out, early := [] }) s
  | some (c, _) => chCheck i 4 d.first (engineCode r.cipher c) (clearLine i s)

/-- One step of a device order in progress. -/
def devStep (i : Nat) (o : ChOp) (d : DevOrd) (s : State) : State :=
  if !d.sent then
    match o.port with
    | some _ => sendOrder i s
    | none => match chPath i s with
      | none => opWait i .path s
      | some n => sendOrder i (sendOpen i n s)
  else match d.status with
    | some x =>
      let s := finishRead i s
      match opOf i s with
      | some o => if o.wait = .line ∨ o.halt.isSome then s else orderEnd i x.1 x.2.1 x.2.2 s
      | none => s
    | none =>
      if isIn d then
        let s := if d.last then finishRead i s else s
        (match opOf i s with | some o => if o.wait = .none then opWait i .device s else s | none => s)
      else if d.pushed then opWait i .device s
      else match o.line with
      | some r => writeStep i d r s
      | none =>
      if d.opcode = 0x10 ∧ o.blk.hold ∧ !o.released then
        if d.out.isNone ∧ d.early.length < min 65536 d.count then fillOut i 65536 s
        else if o.blk.relTor ≤ s.tor.tor then chRelease i s
        else opWait i .held (chSuspend i s)
      else match d.out with
        | none => fillOut i d.count s
        | some out =>
          let s := modCur i (fun d => { d with pushed := true }) s
          let s := if d.count = 0 then s else pushData i true out s
          chBegin i d.count s

/-- The program ends at an order that the channel processor performed (R340). -/
def progEnd (i at_ : Nat) (s : State) : State :=
  match opOf i s with
  | none => s
  | some o => chEnd i { dev := o.lastDev, resid := o.lastRes, length := o.lastLen, addr := at_, halted := o.halted } s

/-- An order that the channel processor performs itself has ended (R340). -/
def orderNext (i : Nat) (r : Order) (s : State) : State :=
  let a := (r.addr + 32) % 2 ^ 64
  if r.flags.testBit 0 then modOp i (fun o => { o with pc := a, wait := .none }) s else progEnd i a s

/-- A whole data chain is reached: its device order begins, unless a check ends the program (R346, R347; 19 R455). -/
def chainReached (i : Nat) (c : Chain) (s : State) : State :=
  match opOf i s with
  | none => s
  | some o => match chainCheck o.blk c with
    | some x => chCheck i x.1 x.2 0 s
    | none =>
      let gcm := (c.d.eng.testBit 2 || c.d.eng.testBit 3) && bits o.blk.cipherProfile 15 12 == 3
      if gcm && decide (1 ≤ o.gcm) then chCheck i 4 c.d.first 0x8002 s
      else modOp i (fun o => { o with jumps := 0, gcm := o.gcm + b2n gcm, chain := none, cur := some c.d }) s

/-- The places of storage read for an order: the order, and of its data-address list as many entries as were used. -/
def orderSeen (i p : Nat) (r : Order) (entries : Nat) (s : State) : State :=
  let s := partSeen (.subch i) p r.addr 32 s
  if r.opcode < 0x20 ∧ r.flags.testBit 5 then partSeen (.subch i) p r.data (16 * entries) s else s

/-- An order is taken into a data chain. -/
def chainGo (i : Nat) (o : ChOp) (c : Chain) (r : Order) (s : State) : State :=
  let p := (jent i s).part
  match chainTake (.subch i) p o.blk c r s with
  | .miss xs => opWait i .line (askMissing (.subch i) p xs s)
  | .check code a q => chCheck i code a 0 (match q with | some x => cpPoison i x (orderSeen i p r 1 s) | none => orderSeen i p r 1 s)
  | .more d =>
    let s := modOp i (fun o => { o with chain := some d, wait := .none }) (orderSeen i p r (d.d.elems.length - c.d.elems.length) s)
    if r.opcode = 0x20 ∧ r.flags.testBit 4 then chNotify i r.addr s else s
  | .ok d => chainReached i d (orderSeen i p r (d.d.elems.length - c.d.elems.length) s)

/-- The order at an address is read and goes on with `f`, unless it cannot be read (R342, R351). -/
def withOrder (i a : Nat) (f : Order → State → State) (s : State) : State :=
  let p := (jent i s).part
  match readOrder (.subch i) p a s with
  | .addr => chCheck i 2 a 0 s
  | .poison r => chCheck i 5 a 0 (cpPoison i r (partSeen (.subch i) p a 32 s))
  | .miss xs => opWait i .line (askMissing (.subch i) p xs s)
  | .ok r => f r s

/-- One order is reached (R340, R341). -/
def reachOrder (i : Nat) (o : ChOp) (r : Order) (s : State) : State :=
  let p := (jent i s).part
  if orderBad r then chCheck i 1 o.pc 0 (partSeen (.subch i) p o.pc 32 s)
  else if r.opcode = 0x20 then
    let s := partSeen (.subch i) p o.pc 32 s
    if 8 ≤ o.jumps then chCheck i 1 o.pc 0 s
    else
      let s := if r.flags.testBit 4 then chNotify i r.addr s else s
      modOp i (fun o => { o with pc := r.data, jumps := o.jumps + 1 }) s
  else if r.opcode < 0x20 then
    -- the journal does not hold what the engines need (16 R379)
    if o.resumed ∧ bits r.flags 9 6 ≠ 0 then settleHalt i (partSeen (.subch i) p o.pc 32 s)
    else chainGo i o (orderChain o.blk r) r s
  else
    let s := modOp i (fun o => { o with jumps := 0 }) (partSeen (.subch i) p o.pc 32 s)
    let s := if r.flags.testBit 4 ∧ o.wait = .none ∧ (jent i s).state ≠ 3 then chNotify i r.addr s else s
    if r.opcode = 0x22 ∧ s.tor.tor < r.data then opWait i (.tor r.data) (chSuspend i s)
    else if r.opcode = 0x22 then
      orderNext i r (if (jent i s).state = 3 then opTrans i trRelease (fun e => { e with state := 2 }) s else s)
    else if r.opcode = 0x23 then orderNext i r (emit (.mark i r.dev s.tor.tor) (opTrans i trMark (fun e => { e with mark := s.tor.tor }) s))
    else orderNext i r s

/-- The next order of a program, or of the chain that is being gathered. -/
def reachStep (i : Nat) (o : ChOp) (s : State) : State :=
  match o.chain with
  | some c => withOrder i c.next (chainGo i o c) s
  | none => withOrder i o.pc (reachOrder i o) s

/-- Run the program of a subchannel until it waits or ends; at most `n` orders or steps of one command. -/
def chRunGo (i : Nat) : Nat → State → State
  | 0, s => opWait i .line s
  | n + 1, s =>
    match opOf i s with
    | none => s
    | some o =>
      if o.halt.isSome ∨ o.ending.isSome ∨ !o.reach ∨ o.cp.isNone then s
      else match o.wait with
        | .path => if (chPath i s).isSome then chRunGo i n (opWait i .none s) else s
        | .tor t => if t ≤ s.tor.tor then chRunGo i n (reachStep i { o with wait := .tor t } s) else s
        | .held => if o.blk.relTor ≤ s.tor.tor ∨ !o.blk.hold then chRunGo i n (chRelease i s) else s
        | .device => s
        | .line => s
        | .none => match o.cur with
          | some d => chRunGo i n (devStep i o d s)
          | none => chRunGo i n (reachStep i o s)

/-- Run the program of a subchannel. -/
def chRun (i : Nat) (s : State) : State := chRunGo i chFuel s

/-- Go on with an operation that waited for a line, an engine or a path. -/
def chResume (i : Nat) (s : State) : State :=
  let s := chReopen i (endDue i s)
  match opOf i s with
  | none => s
  | some o => if o.ending.isSome then s else if o.wait = .line then chRun i (opWait i .none s) else chRun i s

/-- Insertion in that order. -/
def chInsert (x : Nat × ChOp) : List (Nat × ChOp) → List (Nat × ChOp)
  | [] => [x]
  | y :: t => if chBefore x y then x :: y :: t else y :: chInsert x t

/-- The operations in the order in which those that wait for an engine take it (R354; 17 R403, 19 R437). -/
def chOrder (s : State) : List Nat := ((s.ch.ops.filterMap (fun e => e.2.map (fun o => (e.1, o)))).foldr chInsert []).map (·.1)

/-- Go on with every operation that may. -/
def chWakeAll (s : State) : State :=
  let s := engLoad s
  lineStart ((chOrder s).foldl (fun s i => chResume i s) s)

/-- A channel port's link has entered DOWN: the operations that had sent OPEN on it are re-driven (R361). -/
def chPathDown (n : Nat) (s : State) : State :=
  (s.ch.ops.map (·.1)).foldl (fun s i =>
    match opOf i s with
    | none => s
    | some o =>
      if o.port ≠ some n then s
      else
        let w := if o.wait = .device ∧ o.halt.isNone then OpWait.none else o.wait
        let s := setOp i (some { o with port := none, redrive := true, wait := w, cur := o.cur.map (fun d => { d with sent := false }) }) s
        chResume i s) s

end Sys2Proof.Machine
end

