-- ==== Sys2Proof/Machine/OpsIo.lean ====
section
/-! DEFINITION. The channel instructions, the status block, settlement of journal entries, and the move of a fenced channel
processor's operations (15_channel_programs R327 to R338, R350, R352, R359, R362; 16_channel_journal R378 to R381; 21 R487). -/

namespace Sys2Proof.Machine

/-! ### The operation block (R337, R338) -/

/-- The operation block that 64 bytes spell. -/
def opBlockOf (b : List Byte) : OpBlock :=
  let ctl := natAt b 0x37 1
  let rp := natAt b 0x32 2
  let cp := natAt b 0x34 2
  { first := natAt b 0 8, param := natAt b 8 8, relTor := natAt b 0x10 8, relTag := natAt b 0x18 8, raspCtx := natAt b 0x20 8,
    cipherCtx := natAt b 0x28 8, keySlot := natAt b 0x30 2, raspProfile := rp, cipherProfile := cp, priority := natAt b 0x36 1 % 8,
    hold := ctl.testBit 0, subclass := bits ctl 3 1, resubmit := ctl.testBit 4,
    bad := natAt b 0 8 % 32 != 0 || bits rp 15 14 == 3 || bits rp 10 0 != 0 || decide (4 < bits cp 15 12) || bits cp 11 0 != 0 ||
      decide (8 ≤ natAt b 0x36 1) || bits ctl 7 5 != 0 || natAt b 0x38 8 != 0 }

/-- A partition subchannel is operational (R328). -/
def operational (p n : Nat) (s : State) : Bool :=
  match partOf p s with
  | none => false
  | some d =>
    let i := d.subchBase + n
    decide (n < d.subchCount) && (subOf i s).en && (chPorts i s).any (fun q => chDriven q s)

/-! ### Durability of sync transitions (R334, R335, R338, R370) -/

/-- The START of an operation is durable: it may be taken, or ends at once where its block is refused (R338, R371). -/
def startDurable (i : Nat) (s : State) : State :=
  match opOf i s with
  | none => s
  | some o =>
    let s := setOp i (some { o with durable := true }) s
    if o.blk.bad ∧ (jent i s).state = 1 then chEnd i { code := 1, addr := 0 } s else s

/-- The values of an IOMODIFY take effect (R335). -/
def applyMod (i : Nat) (s : State) : State :=
  match opOf i s with
  | none =>
    let s := setLast i { lastOf i s with param := none } s
    { s with offers := s.offers.map (fun x => if x.subch = i then { x with param := (jent i s).param } else x) }
  | some o => match o.mod_ with
    | none => s
    | some m =>
      let reached := o.blk.hold && (o.released || decide (o.blk.relTor ≤ s.tor.tor))
      let b := { o.blk with param := m.param, priority := m.priority }
      let b := if reached then b else { b with relTor := m.relTor, relTag := m.relTag, hold := m.hold }
      let s := setOp i (some { o with blk := b, mod_ := none }) s
      let s := { s with offers := s.offers.map (fun x => if x.subch = i then { x with param := m.param } else x) }
      if o.wait = .held then chRun i s else s

/-- A core's channel instruction, which waited for the partner, completes with CC 0 (R370; 20 R464). -/
def ioComplete (core : Option Nat) (s : State) : State :=
  match core with
  | some l => modCore l (fun c => if c.ioHold = some none then { c with ioHold := some (some 0) } else c) s
  | none => s

/-! ### The instructions (R330 to R336) -/

/-- The instruction of core l waits for MIRROR_ACK. -/
def ioWait (l : Nat) (s : State) : OutRes := .wait (modCore l (fun c => { c with ioHold := some none }) s)

/-- The SEQ of a new operation (R359). -/
def nextSeq (prev : JEntry) (s : State) : Nat := max ((prev.seq + 1) % 2 ^ 64) s.tor.tor

/-- IOSTART on an IDLE subchannel (R330, R359, R362, R368). -/
def ioStart (l p i : Nat) (b : List Byte) (s : State) : OutRes :=
  let prev := jent i s
  let blk := opBlockOf b
  let again := blk.resubmit && prev.flags.testBit 6
  let blk := { blk with bad := blk.bad || (blk.resubmit && !again) }
  let o : ChOp := { blk := blk, origin := s.arm.node.getD 0, prev := prev, prevLast := lastOf i s, order := s.ch.nextOrder,
                    started := s.tor.tor, redrive := again, pc := blk.first }
  let e : JEntry := { state := 1, hold := blk.hold, subclass := blk.subclass, priority := blk.priority, part := p,
                      seq := if again then prev.seq else nextSeq prev s, orderAddr := blk.first, param := blk.param, release := blk.relTor }
  let s := setOp i (some o) s
  let s := { s with ch := { s.ch with nextOrder := s.ch.nextOrder + 1 } }
  let s := jnlTrans i trStart (some l) (fun _ => e) s
  if syncAtOnce i s then .done 0 (startDurable i s) else ioWait l s

/-- IOHALT on an operation that has not ended (R331). -/
def ioHalt (i : Nat) (s : State) : State :=
  match opOf i s with
  | none => s
  | some o =>
    let s := setOp i (some { o with func := o.func ||| 2, halted := true, ending := o.ending.map (fun v => { v with halted := true }) }) s
    let s := opTrans i trHalt (fun e => { e with state := 4 }) s
    if !(jent i s).openSent then chEnd i { halted := true, addr := opAddr o } s
    else if o.halt.isSome ∨ o.ending.isSome then s
    else beginHalt i s

/-- IOCANCEL of an operation that has sent nothing (R330, R368). -/
def ioCancel (l i : Nat) (s : State) : OutRes :=
  match opOf i s with
  | none => .done 2 s
  | some o =>
    let now := syncAtOnce i s
    let s := jnlTrans i trCancel (some l) (fun _ => { o.prev with state := 0 }) s
    let s := dropOffers i (setLast i o.prevLast (setOp i none s))
    if now then .done 0 s else ioWait l s

/-- The hold of an operation is unreleased (R335). -/
def holdOn (o : ChOp) (s : State) : Bool := o.blk.hold && !o.released && decide (s.tor.tor < o.blk.relTor)

/-- IOMODIFY of an operation whose release may still be replaced (R335). -/
def ioModify (l i : Nat) (b : List Byte) (s : State) : OutRes :=
  match opOf i s with
  | none => .done 2 s
  | some o =>
    if o.mod_.isSome then .wait s
    else
      let m : ModVals := { relTor := natAt b 0x10 8, relTag := natAt b 0x18 8, param := natAt b 8 8, priority := natAt b 0x36 1 % 8,
                           hold := (natAt b 0x37 1).testBit 0 }
      let now := syncAtOnce i s
      let s := setOp i (some { o with mod_ := some m }) s
      let s := jnlTrans i trModify (some l) (fun e => { e with orderAddr := opAddr o, param := m.param, priority := m.priority,
                                                               release := m.relTor, hold := m.hold }) s
      if now then .done 0 (applyMod i s) else ioWait l s

/-- The status block that IOSTORE stores (R336, R350); `n` is the partition subchannel. -/
def statusBlock (n i : Nat) (s : State) : List Byte :=
  let e := jent i s
  let mk (func param : Nat) (x : JEntry) (flags addr resid tor quality : Nat) : List Byte :=
    beBytes 2 n ++ beBytes 1 e.state ++ beBytes 1 func ++ beBytes 1 x.devStatus ++ beBytes 1 x.chCode ++ beBytes 2 flags ++ beBytes 8 addr ++
    beBytes 4 resid ++ beBytes 2 x.engine ++ beBytes 2 0 ++ beBytes 8 x.seq ++ beBytes 8 tor ++ beBytes 1 quality ++ beBytes 1 x.subclass ++
    beBytes 6 0 ++ beBytes 8 x.mark ++ beBytes 8 param
  let old (x : JEntry) (z : LastOp) : List Byte := mk z.func (z.param.getD x.param) x x.flags x.orderAddr x.ordinal z.tor z.quality
  match opOf i s with
  | some o =>
    (match o.inter with
     | some (t, q, a) =>
       if hasInter i s then mk o.func o.blk.param { e with devStatus := o.lastDev, chCode := 0, engine := 0 } (1 + 2 * b2n o.lastLen + e.flags) a o.lastRes t q
       else old o.prev o.prevLast
     | none => old o.prev o.prevLast)
  | none => old e (lastOf i s)

/-- IOACCEPT in STATUS_PENDING (R330, R352). -/
def ioAccept (i : Nat) (s : State) : State :=
  dropOffers i (jnlTrans i trAccept none (fun e => { e with state := 0 }) s)

/-- A channel instruction of core l on its partition's subchannel `a`, with the operand address `b` (R330, R332). -/
def ioOp (k : IoOp) (l : Nat) (a b : Long) (s : State) : OutRes :=
  match (coreOf l s).ioHold with
  | some (some cc) => .done cc s
  | some none => if k = .store ∧ agentPending (.core l) s = false then .done 0 s else .wait s
  | none =>
    match partOfCore l s with
    | none => .done 3 s
    | some p =>
      let needs := k = .start ∨ k = .store ∨ k = .modify
      let n := a.toNat
      let addr := b.toNat
      let i := subchBase p s + n
      let rd : Got (List Byte) := if k = .start ∨ k = .modify then readPart (.core l) p addr 64 s else .ok []
      if needs ∧ addr % 64 ≠ 0 then .pgm 0x0103 0
      else if needs ∧ !partMapped p addr 64 s then .pgm 0x0201 addr
      else match rd with
        | .addr => .pgm 0x0201 addr
        | .poison r => .poison r
        | .miss xs => .wait (askMissing (.core l) p xs s)
        | .ok blk =>
          let s := if k = .start ∨ k = .modify then partSeen (.core l) p addr 64 s else s
          if 0xFFFF < n ∨ !operational p n s then .done 3 s
          else
            let st := (jent i s).state
            let opn := (jent i s).openSent
            match k with
            | .start => if st = 0 then ioStart l p i blk s else .done (if st = 5 then 1 else 2) s
            | .halt => if st = 1 ∨ st = 2 ∨ st = 3 then .done 0 (ioHalt i s) else .done (if st = 5 then 1 else 2) s
            | .cancel => if st = 1 ∨ (st = 3 ∧ !opn) then ioCancel l i s else .done (if st = 5 then 1 else 2) s
            | .test => .done (if st = 0 then 0 else if st = 5 then 1 else 2) s
            | .store =>
              -- the block is performed before the instruction completes (10 R230)
              let s := partWrite (.core l) p addr (statusBlock n i s) s
              if agentPending (.core l) s then ioWait l s else .done 0 s
            | .modify =>
              if st = 1 ∨ ((st = 2 ∨ st = 3) ∧ (opOf i s).any (fun o => holdOn o s) = true) then ioModify l i blk s
              else .done (if st = 5 then 1 else 2) s
            | .accept => if st = 5 then .done 0 (ioAccept i s) else .done 2 s

/-- The status of a partition that is pending is offered anew at START (R352). -/
def reoffer (p : Nat) (s : State) : State :=
  let s := { s with offers := s.offers.filter (fun x => x.part != p) }
  (s.jnl.e.map (·.1)).foldl (fun s i => if (jent i s).state = 5 ∧ !(jent i s).mirror ∧ subchPart i s = some p then offerFinal i s else s) s

/-! ### Settlement (16 R378 to R381) -/

/-- A node has failed: the partner that is declared failed, or a node that is no member of the fabric (R378). -/
def nodeFailed (n : Nat) (s : State) : Bool :=
  (s.jnl.pair == 4 && n == partnerNode s) || (some n != s.arm.node && s.arm.node.isSome && (tget none n s.arm.db).isNone)

/-- Whether every module that homes storage of an entry's partition has kept it. Of its own the module knows it (`storageKept`); it is not
told of another's, so that is free (R378; DESIGN CHOICE, log entry 107). -/
def homesKept (i : Nat) (s : State) : Bool × State :=
  if (partOf (jent i s).part s).any (fun d => d.extents.any (fun x => !isLocal x.phys s)) then drawBit s else (true, s)

/-- The storage of an entry of this module can be read (R378), as far as the module knows. -/
def reachable (i : Nat) (s : State) : Bool :=
  let e := jent i s
  !e.mirror && s.jnl.storageKept && (match tget none e.part s.jnl.uuids with | some u => u == uuidOf e.part s | none => true) && subchPart i s == some e.part &&
  (match partOf e.part s with
   | some d => d.extents.all (fun x => !nodeFailed (nodeOfAddr x.phys) s)
   | none => false)

/-- The order at an address, JUMPs followed, carries an engine flag (R379). -/
def engineAt (who : Agent) (p : Nat) (s : State) : Nat → Nat → Bool
  | 0, _ => false
  | n + 1, a => match readOrder who p a s with
    | .ok r => if r.opcode = 0x20 then engineAt who p s n r.data else decide (r.opcode < 0x20) && bits r.flags 9 6 != 0
    | _ => false

/-- What the engines of a settled operation work with, which its entry does not hold: free values of the form that R338 requires (DESIGN
CHOICE, log entry 109). -/
def freeEngines (b : OpBlock) (s : State) : OpBlock × State :=
  let w := drawBelow 3 s
  let f := drawBelow 8 w.2
  let m := drawBelow 5 f.2
  let k := drawBelow 0x10000 m.2
  let r := drawLong k.2
  let c := drawLong r.2
  ({ b with raspProfile := w.1 * 2 ^ 14 + f.1 * 2 ^ 11, cipherProfile := m.1 * 2 ^ 12, keySlot := k.1,
            raspCtx := r.1.toNat, cipherCtx := c.1.toNat }, c.2)

/-- What remains of an operation for settlement: what its entry says (R366, R379). -/
def settleOp (i : Nat) (e : JEntry) (reach : Bool) (s : State) : ChOp :=
  { blk := { first := e.orderAddr, param := e.param, relTor := e.release, priority := e.priority, hold := e.hold, subclass := e.subclass }
    origin := if e.mirror then partnerNode s else s.arm.node.getD 0
    reach := reach, settled := true, resumed := e.openSent, prev := { seq := e.seq }, order := s.ch.nextOrder, started := s.tor.tor, durable := true, pc := e.orderAddr
    cp := if e.state = 1 then none else cpPick (chHub i s) s
    redrive := e.openSent, ordered := e.openSent, released := e.flags.testBit 4 }

/-- One entry that is not IDLE is settled (R379), counted and logged (R385). -/
def settleOne (i : Nat) (s : State) : State :=
  let e := jent i s
  -- a copy that is being settled already goes on (22 R510)
  if e.state = 0 ∨ (e.mirror ∧ (opOf i s).isSome) then s
  else
    let s := jnlLog i i s
    if e.state = 5 then s
    else
      let kept := homesKept i s
      let reach := reachable i s && kept.1
      let o := settleOp i e reach s
      let b := freeEngines o.blk kept.2
      let o := { o with blk := b.1 }
      let s := b.2
      let s := setOp i (some o) { s with ch := { s.ch with nextOrder := s.ch.nextOrder + 1 } }
      if !e.openSent then
        if e.state ≠ 4 ∧ reach then chRun i s
        else chEnd i { halted := true, addr := e.orderAddr } (setOp i (some { o with redriven := true }) s)
      else if (e.state = 2 ∨ e.state = 3) ∧ reach ∧ !engineAt (.subch i) e.part s 10 e.orderAddr then chResume i s
      else settleHalt i s

/-- `x` is settled before `y`: higher priority, then earlier last transition, then lower index (R379). -/
def settleBefore (s : State) (x y : Nat) : Bool :=
  let a := jent x s
  let b := jent y s
  decide (b.priority < a.priority) || (a.priority == b.priority && (decide (a.tor < b.tor) || (a.tor == b.tor && decide (x ≤ y))))

/-- Insertion in the order of settlement. -/
def settleInsert (s : State) (x : Nat) : List Nat → List Nat
  | [] => [x]
  | y :: t => if settleBefore s x y then x :: y :: t else y :: settleInsert s x t

/-- Settle entries in the order of R379. -/
def settleList (is : List Nat) (s : State) : State := (is.foldr (settleInsert s) []).foldl (fun s i => settleOne i s) s

/-- The entries that are not IDLE and satisfy a test. -/
def entriesOf (want : Nat → JEntry → Bool) (s : State) : List Nat := (s.jnl.e.filter (fun e => e.2.state != 0 && want e.1 e.2)).map (·.1)

/-- The module settles its own entries (R381), but for those that its partner still works on. -/
def settleOwn (s : State) : State :=
  let s := settleList (entriesOf (fun i e => !e.mirror && !s.jnl.theirs.contains i) s) s
  { s with jnl := { s.jnl with settleDue := false, storageKept := true, uuids := [] } }

/-! ### Fencing a channel processor (21 R487) -/

/-- A channel processor may be fenced: another of its hub is in RUN. -/
def cpFenceable (k : Nat) (s : State) : Bool := (hubCps (k / 16)).any (fun j => j != k && cpState j s == 0)

/-- A channel processor fails: its operations move to the least-loaded one in RUN of its hub and are re-driven (R487, 15 R361). -/
def cpFail (k : Nat) (s : State) : State :=
  let s := setCp k 2 s
  (s.ch.ops.map (·.1)).foldl (fun s i =>
    match opOf i s with
    | none => s
    | some o =>
      if o.cp ≠ some k then s
      else
        let j := leastCp s ((hubCps (k / 16)).filter (fun j => cpState j s == 0))
        if !(jent i s).openSent then setOp i (some { o with cp := j }) s
        else
          let s := match o.port with | some n => dropData n i s | none => s
          let w := if o.wait = .device ∧ o.halt.isNone then OpWait.none else o.wait
          let s := setOp i (some { o with cp := j, port := none, redrive := true, wait := w, cur := o.cur.map (fun d => { d with sent := false }) }) s
          chResume i s) s

end Sys2Proof.Machine
end

