-- ==== Sys2Proof/Machine/OpsDuplex.lean ====
section
/-! DEFINITION. The duplex pair: pairing, heartbeats, the declaration of a failed partner, takeover, resync and failback
(22_duplex R496 to R511, R601; 16_channel_journal R374 to R383). -/

namespace Sys2Proof.Machine

/-- The pair's state (R511), with `JNL_STATUS.PAIR` as R385 reads it: HOLDDOWN shows PAIRED there. -/
def setDxState (st : Nat) (s : State) : State :=
  let p := match st with | 1 => 1 | 2 => 2 | 3 => 4 | 4 => 3 | 5 => 2 | 6 => 5 | _ => 0
  { s with dx := { s.dx with state := st }, jnl := { s.jnl with pair := p } }

/-- `DX_STATUS.HOLDER`: this module drives taken ports. -/
def holder (s : State) : Bool := s.dx.taken.any (·.2)

/-- Role of a channel port from `CH_PORT_MODE`: 0 disabled, 1 active, 2 standby (02 R28). -/
def portRole (n : Nat) (s : State) : Nat := (s.pln.module_.map (fun m => m.chPortMode.getD n 0 % 4)).getD 0

/-- Set `DRIVING` on a port. -/
def setDriving (n : Nat) (v : Bool) (s : State) : State := { s with ch := { s.ch with driving := tset false n v s.ch.driving } }

/-- Set `DRIVING` on the active ports that satisfy a test (R601), and let operations that wait for a path go on. -/
def driveActive (want : Nat → Bool) (s : State) : State :=
  chWakeAll ((List.range 12).foldl (fun s n => if portRole n s = 1 ∧ want n then setDriving n true s else s) s)

/-- The ports that the partner drives for this module: active here and standby there (R497, R507). -/
def heldPort (n : Nat) (s : State) : Bool :=
  portRole n s == 1 && (match s.dx.roles with | some r => r.getD n 0 % 4 == 2 | none => true)

/-- This module decides which of its ports it drives (R601). -/
def decidePorts (s : State) : State :=
  if partnerOn s ∧ s.dx.heldByPartner then driveActive (fun n => !heldPort n s) s else driveActive (fun _ => true) s

/-! ### Heartbeats -/

/-- A heartbeat path. -/
def hbOf (p : HbPath) (s : State) : HbState := match p with | .armature => s.dx.arm | .dedicated => s.dx.ded

/-- Write a heartbeat path. -/
def setHb (p : HbPath) (h : HbState) (s : State) : State :=
  match p with
  | .armature => { s with dx := { s.dx with arm := h } }
  | .dedicated => { s with dx := { s.dx with ded := h } }

/-- The other path. -/
def otherPath : HbPath → HbPath
  | .armature => .dedicated
  | .dedicated => .armature

/-- Ticks between heartbeats, and from a due time to its check (R500, R502). -/
def hbPeriod : Nat := 40000
def hbLate : Nat := 20000

/-- Both paths expect heartbeats from the next due time on (R502). -/
def hbStart (s : State) : State :=
  let d := (s.tor.tor / hbPeriod + 1) * hbPeriod
  { s with dx := { s.dx with arm := { s.dx.arm with due := d, arrived := [], run := 0 }, ded := { s.dx.ded with due := d, arrived := [], run := 0 },
                             sentAt := s.tor.tor / hbPeriod * hbPeriod } }

/-- Due times whose heartbeats have arrived already are settled: none is missed. -/
def hbAdvance : Nat → HbState → HbState
  | 0, h => h
  | n + 1, h =>
    if h.arrived.contains h.due then
      hbAdvance n { h with due := h.due + hbPeriod, arrived := h.arrived.filter (fun d => decide (h.due < d)), run := 0, ok := true }
    else h

/-- The heartbeat body (R501). -/
def hbBody (due : Nat) (s : State) : List Byte :=
  beBytes 8 (pack [(63, 58, s.arm.node.getD 0), (57, 54, s.dx.state), (53, 53, b2n (s.arm.fstate == 5)), (52, 52, b2n s.dx.jnlFault),
                   (51, 51, b2n s.dx.released), (50, 50, b2n (holder s))]).toNat ++ beBytes 8 due

/-- A LINK_MGT message on one hop (14 R304). -/
def sendMgt (port : Nat) (body : List Byte) (s : State) : State :=
  linkSend (.arm port) 3 (msgBytes (mgtMsg body)) (emit (.msg port (mgtMsg body)) s)

/-- The port of the primary route to the partner. -/
def partnerPort (s : State) : Option Nat := pickPort (tget {} (partnerNode s) s.arm.routes) false s

/-- Send this module's part of the pairing exchange (16 R377). -/
def sendPairing (s : State) : State :=
  let ps := (partIds s).filterMap (fun p => (partOf p s).map (fun d =>
    ({ uuid := d.uuid, subchBase := d.subchBase, subchCount := d.subchCount } : PairPart)))
  emit (.pairing (partnerNode s) ps ((s.pln.module_.map (·.chPortMode)).getD []) (holder s)) s

/-! ### Sync transitions -/

/-- What a sync transition's completion lets go on (15 R338, R335, R358). -/
def syncEffect (m : MirrorOut) (s : State) : State :=
  if m.trans = 1 then startDurable m.index s
  else if m.trans = 3 then applyMod m.index s
  else if m.trans = 11 then
    let z := lastOf m.index s
    match z.ackDue, z.port with
    | some k, some n => sendAck n z.origin m.index m.entry.seq k (setLast m.index { z with ackDue := none } s)
    | some _, none => setLast m.index { z with ackDue := none } s
    | none, _ => s
  else s

/-- Mark the entry of a transition SIMPLEX, where no later transition has replaced it (16 R376). -/
def markSimplex (m : MirrorOut) (s : State) : State :=
  let e := jent m.index s
  if e.seq = m.entry.seq ∧ e.trans = m.trans ∧ e.tor = m.entry.tor then setJent m.index { e with simplex := true } s else s

/-- A waiting sync transition completes without the partner's copy (16 R376). -/
def syncSimplex (m : MirrorOut) (s : State) : State :=
  if m.sync then ioComplete m.core (syncEffect m (markSimplex m s)) else s

/-! ### Takeover and failback -/

/-- A governor notice of a kind to every core of every RUNNING partition (08 R186). -/
def noticeAll (kind : Nat) (s : State) : State := (runningParts s).foldl (fun s p => noticeOnPart kind p s) s

/-- The pair is in service: a failure of the partner is declared (R503, R510). -/
def pairUp (s : State) : Bool := s.dx.state == 2 || s.dx.state == 4 || s.dx.state == 5

/-- Ports driven on takeover: standby here, active at the partner in the last exchange (R497). -/
def takenPorts (s : State) : List Nat :=
  match s.dx.roles with
  | none => []
  | some r => (List.range 12).filter (fun n => portRole n s == 2 && r.getD n 0 % 4 == 1)

/-- The partner is declared failed (R503), and this module takes over (R504). -/
def declareFailed (s : State) : State :=
  if !pairUp s then s
  else
    let s := logGovernor 0x295 srcDuplex (partnerNode s) s
    let s := setDxState 3 { s with dx := { s.dx with failTor := s.tor.tor, holdEnd := 0, released := false } }
    let waiting := s.jnl.out
    let s := waiting.foldl (fun s m => syncSimplex m s) { s with jnl := { s.jnl with out := [] } }
    let s := (takenPorts s).foldl (fun s n => setDriving n true { s with dx := { s.dx with taken := tset false n true s.dx.taken } }) s
    let s := if s.dx.heldByPartner then driveActive (fun _ => true) { s with dx := { s.dx with heldByPartner := false } } else s
    let is := (s.jnl.e.filter (fun e => e.2.mirror && e.2.state != 0)).map (·.1)
    let s := is.foldl (fun s i => jnlTrans i trTakeover none (fun e => { e with takenOver := true }) s) s
    let s := settleList (entriesOf (fun i e => e.mirror || (!e.mirror && s.jnl.theirs.contains i)) s) s
    let s := { s with jnl := { s.jnl with theirs := [] } }
    let s := if s.jnl.settleDue then settleOwn s else s
    noticeAll 2 (chWakeAll s)

/-- Entries of the returned module that this module still works on (R508). -/
def holdsWork (s : State) : Bool := s.jnl.e.any (fun e => e.2.mirror && e.2.takenOver && e.2.state != 0 && e.2.state != 5)

/-- The hold-down starts once resync is complete and nothing of the returned module's is in progress (R508). -/
def dxHoldCheck (s : State) : State :=
  if s.dx.state = 5 ∧ holder s ∧ s.dx.holdEnd = 0 ∧ !s.dx.released ∧ !holdsWork s then
    let n := (s.dx.hist.filter (fun t => t != 0 && decide (s.tor.tor < t + 3600 * ticksS))).length
    let base := (s.pln.module_.map (·.failbackHold)).getD 0
    let h := min (base * 2 ^ n) 3600
    { s with dx := { s.dx with seconds := h, n := n, holdEnd := s.tor.tor + h * ticksS } }
  else s

/-- The survivor releases the taken ports, and sends `RELEASED` from its next heartbeat on (R509). -/
def releasePorts (s : State) : State :=
  let ns := (s.dx.taken.filter (·.2)).map (·.1)
  let s := ns.foldl (fun s n => setDriving n false s) s
  { s with dx := { s.dx with taken := [], released := true, holdEnd := 0 } }

/-- Both modules are PAIRED again after a failback (R509): counted, recorded, and the notice of kind 0x03. -/
def failedBack (asHolder : Bool) (s : State) : State :=
  let s := if asHolder then
      logGovernor 0x296 srcDuplex (partnerNode s) { s with dx := { s.dx with hist := (s.tor.tor :: s.dx.hist).take 12 } }
    else s
  let es := s.jnl.e.map (fun e => (e.1, if e.2.mirror then { e.2 with takenOver := false } else e.2))
  noticeAll 3 (setDxState 2 { s with dx := { s.dx with released := false, heldByPartner := false }, jnl := { s.jnl with e := es, theirs := [] } })

/-- A journal path fault (R505): the higher node of the pair checkstops, the lower tells its partner. -/
def journalPathFault (s : State) : State :=
  let s := raise srcDuplex 0x09 none 0 s
  if partnerNode s < s.arm.node.getD 0 then raise srcDuplex 0x10 none 0 s
  else { s with dx := { s.dx with jnlFault := true } }

/-! ### Pairing and resync -/

/-- Two ranges of subchannels share a number. -/
def rangesMeet (a n b m : Nat) : Bool := decide (0 < n) && decide (0 < m) && decide (a < b + m) && decide (b < a + n)

/-- A range of one module overlaps a range of the other (16 R377). -/
def pairOverlap (s : State) : Bool :=
  (partIds s).any (fun p => match partOf p s with
    | some d => s.dx.parts.any (fun q => rangesMeet d.subchBase d.subchCount q.subchBase q.subchCount)
    | none => false)

/-- Copy every entry that is not IDLE or is taken over to the partner (16 R383). -/
def resyncSend (s : State) : State :=
  (s.jnl.e.filter (fun e => e.2.state != 0 || e.2.takenOver)).foldl (fun s e => sendMirror e.1 e.2.trans false none e.2 s) s

/-- The subchannels of this module's partitions (R499). -/
def ownSubs (s : State) : List Nat :=
  ((partIds s).filterMap (fun p => partOf p s)).flatMap (fun d => (List.range d.subchCount).map (· + d.subchBase))

/-- The pair enters RESYNC (16 R383). -/
def enterResync (s : State) : State :=
  let s := setDxState 4 { s with dx := { s.dx with jnlFault := false, released := false, holdEnd := 0 } }
  resyncSend { s with dx := { s.dx with copies := ownSubs s }, jnl := { s.jnl with theirs := [] } }

/-- What the exchange decides (16 R377, 22 R496, R497). -/
def pairWith (info : PairInfo) (s : State) : State :=
  let s := { s with dx := { s.dx with roles := some info.roles, parts := info.parts, heldByPartner := s.dx.heldByPartner || info.holds } }
  let odd := (List.range 12).filter (fun n => portRole n s == 2 && info.roles.getD n 0 % 4 != 1)
  let s := odd.foldl (fun s n => logState srcDuplex n s) s
  if pairOverlap s then
    let s := setDxState 6 (jnlLog 0 1 s)
    if s.jnl.settleDue then settleOwn s else s
  else enterResync s

end Sys2Proof.Machine
end

