-- ==== Sys2Proof/Machine/OpsTor.lean ====
section
/-! DEFINITION. The discipline of TOR: states, the module's own reference, offsets, the start window (03_time_of_record R56 to R69). -/

namespace Sys2Proof.Machine

/-- The code of a state of TOR (R58). -/
def torCode : TorState → Nat
  | .unreferenced => 0
  | .locked => 1
  | .fabric => 2
  | .slewing => 3
  | .holdover => 4

/-- `TOR_STATUS.STATE` changes (R60): counted and logged; entry to TOR_HOLDOVER keeps its TOR (R68). -/
def torSet (st : TorState) (s : State) : State :=
  if s.tor.state = st then s
  else
    let s := { s with tor := { s.tor with state := st, holdStart := if st = .holdover then s.tor.tor else s.tor.holdStart } }
    logState srcTor (torCode st) (patina 0x297 s)

/-- The module follows a time master (R63, R65): another node is in office, and it takes time from the fabric. -/
def follows (s : State) : Bool :=
  !s.tor.fabricDisable && (match s.tor.master with | some m => s.arm.node != some m | none => false)

/-- This module is the time master. -/
def isMaster (s : State) : Bool := s.tor.master.isSome && s.tor.master == s.arm.node && !s.tor.fabricDisable

/-- 100 ns in ticks: the bound of LOCKED and FABRIC (R58). -/
def torNear : Int := 400

/-- TOR is disciplined by this source, or slews toward it, so that a measurement is no acquisition. -/
def disciplined (own : Bool) (s : State) : Bool :=
  match s.tor.state with
  | .locked => own
  | .fabric => !own
  | .slewing => s.tor.slewOwn == own
  | _ => false

/-- An offset to the own reference or to the master is measured (R63, R65, R67): within 100 ns it is steered away, and otherwise
TOR slews; in the start window TOR steps forward once to a source that it acquires and is behind (R69). -/
def measured (own : Bool) (offset : Int) (s : State) : State :=
  let near : TorState := if own then .locked else .fabric
  if s.tor.window ∧ offset < 0 ∧ !disciplined own s then
    let t := (s.tor.tor + offset.natAbs) % 2 ^ 64
    torSet near { s with tor := { s.tor with tor := t, offset := 0, window := false, slewOwn := own, step := some (s.tor.tor, t) } }
  else
    let s := { s with tor := { s.tor with offset := offset } }
    if offset.natAbs ≤ torNear.natAbs then torSet near s
    else torSet .slewing { s with tor := { s.tor with slewOwn := own } }

/-- TOR minus the time that an edge names, in ticks (R63). -/
def edgeOffset (seconds : Nat) (s : State) : Int := Int.ofNat s.tor.tor - Int.ofNat (seconds * ticksS)

/-- Ticks after the last accepted edge at which the reference is lost (R63): 1.000 020 s. -/
def refLimit : Nat := 4000080000

/-- The module loses its own reference (R63). -/
def loseRef (s : State) : State :=
  let s := { s with tor := { s.tor with refHeld := false, goodEdges := 0 } }
  if !follows s ∧ (s.tor.state = .locked ∨ (s.tor.state = .slewing ∧ s.tor.slewOwn)) then torSet .holdover s else s

/-- TOR is disciplined from the fabric, or slews toward its master. -/
def towardMaster (s : State) : Bool := s.tor.state == .fabric || (s.tor.state == .slewing && !s.tor.slewOwn)

/-- A module that followed a master in state `before` follows none now, or takes office itself (R63, R64): one that holds its own reference
measures its offset to it, as the last accepted edge gave it; one that was disciplined from the master enters holdover; any other
keeps its state. -/
def freed (before s : State) : State :=
  if (follows before ∧ !follows s) ∨ (isMaster s ∧ !isMaster before) then
    match (if s.tor.refHeld then s.tor.lastEdge else none) with
    | some (t, k) => measured true (Int.ofNat t - Int.ofNat (k * ticksS)) s
    | none => if towardMaster before then torSet .holdover s else s
  else s

/-- A module that followed no master follows one now (R58, R65): disciplined so far from its own reference, it slews toward the master from
here on, until its first time exchange says how far it is from it (log entry 71). -/
def bound (before s : State) : State :=
  if follows s ∧ !follows before ∧ (s.tor.state = .locked ∨ s.tor.state = .slewing) then
    torSet .slewing { s with tor := { s.tor with slewOwn := false } }
  else s

/-- A time master takes office (R63 to R65). -/
def takeOffice (m : Option Nat) (s : State) : State :=
  let t := { s with tor := { s.tor with master := m } }
  bound s (freed s t)

/-! ### Events against TOR (R70, R71) -/

/-- A periodic event is due: TOR stands at a multiple of its period, or the step of R69 has passed over one, and it has not been made since;
`last` is the TOR at which it was made last. -/
def periodDue (p last : Nat) (s : State) : Bool :=
  last / p != s.tor.tor / p &&
  (s.tor.tor % p == 0 || (match s.tor.step with | some (a, b) => a / p != b / p && b / p == s.tor.tor / p | none => false))

/-- The follower cannot reach its master any more (R64). -/
def masterLost (s : State) : State :=
  if follows s ∧ towardMaster s then torSet .holdover s else s

end Sys2Proof.Machine
end

