-- ==== Sys2Proof/Machine/OpsPort.lean ====
section
/-! DEFINITION. Ports as the blocks above them see them: width groups, entries to ACTIVE, RECOVERY and DOWN with what follows from
them, link-state advertisements, election, route epochs, departure (13_serial_links R292 to R297; 14_armature R306 to R325;
03 R64). -/

namespace Sys2Proof.Machine

/-! ### Width (R295, R296) -/

/-- The port is granted by the image (R294): its bit of `ARM_PORT_EN`, or a role other than disabled. -/
def portGranted (p : PortId) (s : State) : Bool :=
  match p, s.pln.module_ with
  | .arm k, some m => m.armPortEn.testBit k
  | .ch n, some _ => portRole n s != 0
  | _, none => false

/-- The port may leave DISABLED. -/
def portEnabled (p : PortId) (s : State) : Bool :=
  portGranted p s && !(linkOf p s).disable && (match p with | .arm _ => s.arm.fstate != 6 | .ch _ => true)

/-- Lanes good at this end: locked, not failed, and not held off (R295, R300). -/
def ownGood (p : PortId) (l : Link) : Nat :=
  ((List.range (portLanes p)).filter (fun i =>
    let x := tget {} i l.lane
    x.lock && !x.failed && !l.laneOff.testBit i)).foldl (fun m i => m ||| 2 ^ i) 0

/-- The intersection of both ends' masks (R296). -/
def goodMask (p : PortId) (l : Link) : Nat := ownGood p l &&& l.peerGood

/-- The widest width allowed, coded as `WIDTH` (R295, R300; 02 R28). -/
def widthLimit (p : PortId) (l : Link) (s : State) : Nat :=
  match p with
  | .arm _ => l.maxWidth
  | .ch n => min (if (s.pln.module_.map (fun m => (m.chPortMode.getD n 0).testBit 2)).getD false then 1 else 2) (min l.maxWidth 2)

/-- The lanes of group g at a width of code w: 2^w lanes. -/
def groupMask (w g : Nat) : Nat := (2 ^ 2 ^ w - 1) <<< (g * 2 ^ w)

/-- The width and group for a mask (R295): the widest allowed, and of equal widths the lowest group; width 0 where none is good. -/
def chooseWidth (p : PortId) (limit good : Nat) : Nat × Nat :=
  let at_ (w : Nat) : Option Nat :=
    if limit < w ∨ portLanes p < 2 ^ w then none
    else (List.range (portLanes p / 2 ^ w)).find? (fun g => good &&& groupMask w g == groupMask w g)
  match at_ 3 with
  | some g => (3, g)
  | none => match at_ 2 with
    | some g => (2, g)
    | none => match at_ 1 with
      | some g => (1, g)
      | none => (0, 0)

/-- The LINK flit of kind WIDTH, with a good-lane mask (R296; layout of the model's own, log entry 81). -/
def putWidth (p : PortId) (m : Nat) (s : State) : State :=
  linkFlit p [2, BitVec.ofNat 8 m] (modLink p (fun l => { l with widthAt := s.tor.tor }) s)

/-- Send a good-lane mask (R296) and wait for the other end's. -/
def sendWidth (p : PortId) (m : Nat) (s : State) : State :=
  putWidth p m (modLink p (fun l => { l with widthPending := true, widthAgreed := false, widthSent := m }) s)

/-- The LINK flit of LINK_INIT (R294): port kind, lane mask and buffer sizes. -/
def sendInit (p : PortId) (s : State) : State :=
  let m := ownGood p (linkOf p s)
  let kind : Byte := match p with | .arm _ => 0 | .ch _ => 1
  linkFlit p ([1, kind, BitVec.ofNat 8 m] ++ (rxBuffers p).flatMap (beBytes 2)) (modLink p (fun l => { l with widthSent := m }) s)

/-- A change of this end's lanes: where flits pass and its good-lane mask changes, the exchange of a change of width starts (R296). -/
def laneChange (p : PortId) (f : Link → Link) (s : State) : State :=
  let l := linkOf p s
  let l' := f l
  let s := setLink p l' s
  if (l.state = 5 ∨ l.state = 6) ∧ ownGood p l' ≠ ownGood p l then sendWidth p (ownGood p l') s else s

/-- Lane state of a port. -/
def laneOf (i : Nat) (l : Link) : Lane := tget {} i l.lane

/-- Write it. -/
def setLane (i : Nat) (x : Lane) (l : Link) : Link := { l with lane := tset {} i x l.lane }

/-- Lanes of a mask. -/
def maskLanes (p : PortId) (m : Nat) : List Nat := (List.range (portLanes p)).filter (fun i => m.testBit i)

/-- `LNK_CTL.LANE_OFF` (R300): the lanes leave the good-lane mask, and are marked failed at the change of width that follows. -/
def laneOffSet (p : PortId) (m : Nat) (s : State) : State := laneChange p (fun l => { l with laneOff := m % 256 }) s

/-- `LNK_CTL.MAX_WIDTH` (R295, R300): where it changes the width of a port in KEY or ACTIVE, the exchange of R296 is made with the mask as it
is (DESIGN CHOICE, log entry 83). -/
def maxWidthSet (p : PortId) (w : Nat) (s : State) : State :=
  let s := modLink p (fun l => { l with maxWidth := w }) s
  let l := linkOf p s
  if (l.state = 5 ∨ l.state = 6) ∧ chooseWidth p (widthLimit p l s) (goodMask p l) ≠ (l.width, l.group) then sendWidth p (ownGood p l) s else s

/-- The lanes held off are marked failed (R300). -/
def markOff (p : PortId) (l : Link) : Link :=
  (maskLanes p l.laneOff).foldl (fun l i => setLane i { (laneOf i l) with failed := true } l) l

/-- `LNK_CTL.LANE_RETRY` (R296, R300): failed lanes are re-equalised in the background. -/
def laneRetrySet (p : PortId) (m : Nat) (s : State) : State :=
  modLink p (fun l => (maskLanes p m).foldl (fun l i => if (laneOf i l).failed then setLane i { (laneOf i l) with retry := true } l else l) l) s

/-! ### The database and the advertisements (R312, R313) -/

/-- The database has changed: an epoch opens (R314). -/
def dbChanged (s : State) : State := { s with arm := { s.arm with change := true, dbChange := s.tor.tor } }

/-- Fabric state as an advertisement carries it: 0 JOINING, 1 MEMBER, 2 LEAVING. -/
def advState (f : Nat) : Nat := if f = 4 then 1 else if f = 5 then 2 else 0

/-- The node IDs that the extents of the applied partitions name (R313). -/
def extentNodes (s : State) : List Nat :=
  ((partIds s).flatMap (fun p => match partOf p s with | some d => d.extents.map (fun e => nodeOfAddr e.phys) | none => [])).eraseDups

/-- This module's advertisement (R313). -/
def ownAdv (node : Nat) (s : State) : Adv :=
  { node := node, serial := Config.serial, seq := s.arm.seq + 1, fstate := advState (s.arm.telling.getD s.arm.fstate), torState := torCode s.tor.state,
    refHeld := s.tor.refHeld, ineligible := s.tor.fabricDisable, extents := extentNodes s
    ports := (List.range 8).map (fun p =>
      { active := portActive (.arm p) s, node := (tget {} p s.arm.peers).node, port := (tget {} p s.arm.peers).port,
        width := (linkOf (.arm p) s).width }) }

/-- ACTIVE Armature ports. -/
def activeArm (s : State) : List Nat := (List.range 8).filter (fun p => portActive (.arm p) s)

/-- The body of an advertisement (R313), in the model's own order (log entry 81). -/
def advBody (a : Adv) : List Byte :=
  beBytes 1 a.node ++ beBytes 8 a.serial.toNat ++ beBytes 8 a.seq ++ beBytes 1 a.fstate ++ beBytes 1 a.torState ++ beBytes 1 (b2n a.refHeld) ++
  beBytes 1 (b2n a.ineligible) ++ beBytes 8 (a.extents.foldl (fun m n => m ||| 2 ^ n) 0) ++
  a.ports.flatMap (fun q => beBytes 1 (b2n q.active) ++ beBytes 1 q.node ++ beBytes 1 q.port ++ beBytes 1 q.width)

/-- An advertisement leaves on the ACTIVE ports that a test names. -/
def floodAdv (q : Nat → Bool) (a : Adv) (s : State) : State :=
  ((activeArm s).filter q).foldl (fun s p => mgtSend (.arm p) 6 (advBody a) (emit (.adv p a) s)) s

/-- Flood this module's advertisement on every ACTIVE port (R313). -/
def floodOwn (s : State) : State :=
  match s.arm.node with
  | none => s
  | some n =>
    let a := ownAdv n s
    let s := { s with arm := { s.arm with seq := a.seq, db := tset none n (some { adv := a, seen := s.tor.tor }) s.arm.db } }
    floodAdv (fun _ => true) a s

/-- A change that the advertisement reports (R313, R314); a module that is OFF or has LEFT reports none. -/
def announceChange (s : State) : State := if s.arm.node.isSome && s.arm.fstate != 0 && s.arm.fstate != 6 then floodOwn (dbChanged s) else s

/-- A change of this module's REF_HELD or TOR state reaches the election (03 R63, R64). -/
def torFlood (before s : State) : State :=
  if before.tor.refHeld ≠ s.tor.refHeld ∨ torCode before.tor.state ≠ torCode s.tor.state ∨ before.tor.fabricDisable ≠ s.tor.fabricDisable then
    announceChange s
  else s

/-- A node can be reached over the ACTIVE links that the database names. -/
def reachesNode (n : Nat) (s : State) : Bool :=
  (tget none (s.arm.node.getD 0) (distTo (hopsOf s.arm.db) 64 (tset none n (some 0) []))).isSome

/-- The master cannot be reached any more: no ACTIVE port leads to it, or it is cut off behind another node (03 R64). -/
def checkMaster (s : State) : State :=
  match s.tor.master with
  | some m => if follows s ∧ ((pickPort (tget {} m s.arm.routes) false s).isNone = true ∨ reachesNode m s = false) then masterLost s else s
  | none => s

/-! ### Entries to ACTIVE, RECOVERY and DOWN -/

/-- An Armature port has become ACTIVE, or a channel port: what follows above the link (R312, R313; 15 R355). -/
def portUp (p : PortId) (s : State) : State :=
  match p with
  | .arm _ =>
    let f := if s.arm.fstate ≤ 2 ∧ s.arm.node.isSome then 3 else if s.arm.fstate = 0 then 1 else s.arm.fstate
    announceChange { s with arm := { s.arm with fstate := f, dbChange := s.tor.tor } }
  | .ch _ => chWakeAll s

/-- The whole messages among flits of uncertain delivery (R317), each with the port by which it came. -/
def wholeMsgs : List TxFlit → Option (List Byte) → List (Option Nat × List Byte)
  | [], _ => []
  | f :: t, acc =>
    let b : Option (List Byte) := if f.som then some f.data else acc.map (· ++ f.data)
    if f.eom then (match b with | some b => (f.via, b) :: wholeMsgs t none | none => wholeMsgs t none) else wholeMsgs t b

/-- The message that header and body spell (R303). -/
def msgOfBytes (b : List Byte) : Msg :=
  let h := BitVec.ofNat 64 (natAt b 0 8)
  { via := 0, vc := (kindVc (fld h 51 48)).getD 3, dest := fld h 63 58, src := fld h 57 52, kind := fld h 51 48, tag := fld h 47 32, epoch := lbit h 31, resent := lbit h 30,
    addr := natAt b 8 8, body := bytesAt b 16 (fld h 29 16) }

/-- A message takes another route: uncertain ones with RESENT set, by the routes in force (R317). -/
def rerouteMsg (resent : Bool) (via : Option Nat) (b : List Byte) (s : State) : State :=
  let m := msgOfBytes b
  forwardMsg { m with resent := m.resent || resent, epoch := decide (s.arm.epoch % 2 = 1) } via s

/-- A port enters DOWN, with what follows above the link: on the Armature the uncertain messages are sent again (R317), the session
ends (R310) and the change is advertised; on a channel port the operations are re-driven (15 R361). -/
def linkDown (p : PortId) (s : State) : State :=
  let l := linkOf p s
  let was := l.state == 6 || l.state == 7
  let s := linkDownOnly p s
  let k := match p with | .arm k => k | .ch n => 8 + n
  let s := { s with arm := { s.arm with peers := tmod {} k (fun x => { x with step := 0, sentConfirm := false, transcript := [], nonce := [], secret := [] }) s.arm.peers } }
  match p with
  | .arm _ =>
    if was then
      let again := [0, 1, 2].flatMap (fun vc => (wholeMsgs (l.replay.filter (fun f => f.vc == vc)) none))
      let waiting := (l.txq.filter (fun m => m.first && decide (m.vc < 3))).map (fun m => (m.via, m.bytes))
      let s := again.foldl (fun s b => rerouteMsg true b.1 b.2 s) s
      let s := waiting.foldl (fun s b => rerouteMsg false b.1 b.2 s) s
      announceChange (checkMaster s)
    else s
  | .ch n => if was then chPathDown n s else s

/-- A port enters RECOVERY from ACTIVE (R294): what it holds is kept. -/
def enterRecovery (p : PortId) (s : State) : State :=
  let l := linkOf p s
  if l.state ≠ 6 then s
  else
    let s := setLink p { l with state := 7, since := s.tor.tor, uncorrRun := 0, recoveries := satAdd 16 l.recoveries 1, widthPending := false, widthAgreed := false } s
    let s := portEvent p 7 s
    match p with
    | .arm _ => announceChange (checkMaster s)
    | .ch _ => s

/-- A width and group are taken (R295, R296): a change is counted and logged. -/
def takeWidth (p : PortId) (w : Nat × Nat) (s : State) : State :=
  let l := linkOf p s
  if l.width = w.1 ∧ l.group = w.2 then s
  else
    let s := setLink p { l with width := w.1, group := w.2, widthChg := satAdd 16 l.widthChg 1 } s
    let s := portEvent p 0x10 s
    match p with
    | .arm _ => if l.state = 6 then announceChange s else s
    | .ch _ => s

/-- The interval of link-key rotation (R299). -/
def rotPeriod : Nat := 2400000000000

/-- A port enters ACTIVE: with the keys of its exchange at phase 0, or clear (R294, R297, R310). -/
def linkActive (p : PortId) (clear : Bool) (s : State) : State :=
  let s := modLink p (fun l => { l with state := 6, since := s.tor.tor, clear := clear, encOn := !clear, keyPhase := 0, rotation := 0,
                                        rotMark := s.tor.tor / rotPeriod }) s
  txDrain p 1024 (portUp p s)

/-- DISABLED: the receivers are off, and no lane is locked (R294, R300). -/
def linkIdle (p : PortId) (s : State) : State :=
  modLink p (fun l => (List.range (portLanes p)).foldl (fun l i => setLane i { (laneOf i l) with lock := false } l) { l with state := 0, since := s.tor.tor }) s

/-- A port goes to DETECT where it is enabled, else to DISABLED (R294). -/
def linkRestart (p : PortId) (s : State) : State :=
  if portEnabled p s then modLink p (fun l => { l with state := 1, since := s.tor.tor }) s else linkIdle p s

/-- A port is held in DISABLED (R300): its in-flight flits are handled as at DOWN (R292). -/
def linkOff (p : PortId) (s : State) : State :=
  let l := linkOf p s
  linkIdle p (if l.state = 0 ∨ l.state = 8 then s else linkDown p s)

/-! ### Routes and epochs (R306 to R308, R314, R315) -/

/-- The database without the nodes that are leaving: an epoch's routes exclude them (R325). -/
def routeDb (s : State) : Tab (Option Member) :=
  s.arm.db.filter (fun e => match e.2 with | some m => m.adv.fstate != 2 || s.arm.node == some e.1 | none => false)

/-- The image's override for a destination. -/
def routeSection (dest : Nat) (s : State) : Option PlnRoute := s.pln.routes.find? (fun r => r.dest == dest)

/-- The route entry for a destination at an epoch (R307, R308), with the ports of an override that were refused, and whether one has
lapsed. An override is installed by the ports that begin a legal route. With `PIN` it is tested again at each epoch; without, it holds
until the first epoch after its installation whose computed ports are others (DEDUCED, log entry 84). -/
def routeAt (db : Tab (Option Member)) (me dest : Nat) (old : Route) (s : State) : Route × Bool × Bool :=
  let c := routeFor db me dest
  match routeSection dest s with
  | none => (c, false, false)
  | some r =>
    if s.arm.lapsed.contains dest then (c, false, false)
    else if old.fixed && !r.pin then
      if c.primary = old.primary ∧ c.alt = old.alt then ({ c with fixed := true }, false, false) else (c, false, true)
    else
      let way := portHops db me dest r.primary
      let okP := way.isSome
      let okA := r.alt == 0xFF || (portHops db me dest r.alt).isSome
      ({ c with primary := if okP then some r.primary else c.primary
                alt := if r.alt = 0xFF then none else if okA then some r.alt else c.alt
                hops := way.getD c.hops, pinned := r.pin && (okP || (r.alt != 0xFF && okA)), fixed := true }, !(okP && okA), false)

/-- The routes of the next epoch; each refusal of an override is recorded (R308). -/
def computeRoutes (s : State) : Tab Route × State :=
  match s.arm.node with
  | none => ([], s)
  | some me =>
    let db := routeDb s
    ((db.map (·.1)).filter (fun d => d != me)).foldl (fun (r : Tab Route × State) d =>
      let x := routeAt db me d (tget {} d s.arm.routes) s
      let t := if x.2.1 then logState (srcPort (.arm 0)) d r.2 else r.2
      (tset {} d x.1 r.1, if x.2.2 then { t with arm := { t.arm with lapsed := t.arm.lapsed ++ [d] } } else t)) ([], s)

/-- A member may stand for time master (03 R64). -/
def eligible (m : Member) : Bool := !m.adv.ineligible && m.adv.fstate == 1

/-- The time master that the database elects (03 R64). -/
def elect (db : Tab (Option Member)) : Option Nat :=
  let ok (ref : Bool) (e : Nat × Option Member) : Bool := match e.2 with | some m => eligible m && (m.adv.refHeld || !ref) | none => false
  match db.find? (ok true) with
  | some e => some e.1
  | none => (db.find? (ok false)).map (·.1)

/-- The bytes of the database that its digest covers; the model's own layout (log entry 41). -/
def dbBytes (db : Tab (Option Member)) : List Byte :=
  db.flatMap (fun e => match e.2 with
    | none => []
    | some m => beBytes 1 e.1 ++ beBytes 8 m.adv.serial.toNat ++ beBytes 1 m.adv.fstate ++ beBytes 1 m.adv.torState ++ beBytes 1 (b2n m.adv.refHeld) ++
        m.adv.ports.flatMap (fun q => [BitVec.ofNat 8 (b2n q.active), BitVec.ofNat 8 q.node, BitVec.ofNat 8 q.port, BitVec.ofNat 8 q.width]))

/-- SHA-384 digest of the database (R314). -/
def dbDigest (s : State) : List Byte := sha384 (dbBytes s.arm.db)

/-- The lowest member node ID among those that can be reached, this module included. -/
def lowestNear (me : Nat) (s : State) : Nat := ((s.arm.db.map (·.1)).filter (fun n => reachesNode n s)).foldl min me

/-- This module announces epochs (R314): the time master in office, or the lowest member where the master cannot be reached. -/
def announcer (s : State) : Bool :=
  match s.arm.node with
  | none => false
  | some me =>
    match s.tor.master with
    | some m => if m = me then true
      else if (pickPort (tget {} m s.arm.routes) false s).isSome ∧ reachesNode m s then false else lowestNear me s == me
    | none => lowestNear me s == me

/-! ### Departure (R324, R325) -/

/-- Every partition with cores on this module is at rest, and no other member names this node (R324). -/
def mayLeave (s : State) : Bool :=
  (partIds s).all (fun p => (match partOf p s with | some d => d.coreMap == 0 | none => true) ||
    pstateOf p s == .undefined || pstateOf p s == .stopped || pstateOf p s == .checkstopped) &&
  s.arm.db.all (fun e => match e.2 with
    | some m => s.arm.node == some e.1 || !(m.adv.extents.any (fun n => s.arm.node == some n))
    | none => true)

/-- The departure goes on (R325, steps 1 and 2): LEAVING is advertised. -/
def leaveSteps (s : State) : State :=
  let s := { s with arm := { s.arm with telling := none } }
  let lines := s.arm.rlines.map (·.1)
  let s := lines.foldl (fun s ln =>
    let s := writeBackLine ln s
    let s := onCores (fun _ => true) (fun c => dropFromCore ln (loseResv ln c)) s
    releaseRemote ln (.core 0) none s) s
  let es := s.arm.dir.flatMap (·.2)
  let s := es.foldl (fun s e => if (txnOf e.line s).isNone then recallEntry e s else s) s
  announceChange s

/-- The departure begins (R324, R325). A duplex partner is told first, by the next heartbeat (22 R501). -/
def startLeave (s : State) : State :=
  let alone := s.arm.fstate == 2
  let t := { s with arm := { s.arm with fstate := 5, leaveAt := if alone then some (s.tor.tor + ticksMs) else none } }
  if partnerOn s then { t with arm := { t.arm with telling := some s.arm.fstate } } else leaveSteps t

/-- A heartbeat has told the partner (R324). -/
def partnerTold (s : State) : State := if s.arm.telling.isSome then leaveSteps s else s

/-- REMOVE_REQ_N is released before LEAVING has been advertised: the removal is cancelled (25 R566). -/
def cancelLeave (s : State) : State :=
  match s.arm.telling with
  | some f => { s with arm := { s.arm with fstate := f, telling := none, leaveAt := none } }
  | none => s

/-- A departure is asked for: accepted in MEMBER and ALONE where R324 lets it go on. -/
def tryLeave (s : State) : Option State :=
  if (s.arm.fstate = 4 ∨ s.arm.fstate = 2) ∧ mayLeave s then some (startLeave s) else none

end Sys2Proof.Machine
end

