-- ==== Sys2Proof/Machine/OpsRecast.lean ====
section
/-! DEFINITION. Recast: what triggers it, the move to the spare, the loss of a core, the slot check of bring-up, and how a core
comes back to its reset state (20_retry_recast R465 to R475; 08_program_state R189; 11_caches R253). -/

namespace Sys2Proof.Machine

/-- The slot of a cluster's spare (R3, R474). -/
def spareSlot (c : Nat) : Nat := 17 * c + 16

/-- `RECAST_SPAREc.STATE`: 0 AVAILABLE, 1 USED, 2 FAILED. -/
def spareState (c : Nat) (s : State) : Nat := tget 0 c s.cpu.spare

/-- Set it. -/
def setSpare (c v : Nat) (s : State) : State := { s with cpu := { s.cpu with spare := tset 0 c v s.cpu.spare } }

/-- `RECAST_MAPl.STATE`: 0 IN_SERVICE, 1 RECASTING, 2 LOST. -/
def recState (l : Nat) (s : State) : Nat := tget 0 l s.cpu.recState

/-- Set it. -/
def setRec (l v : Nat) (s : State) : State := { s with cpu := { s.cpu with recState := tset 0 l v s.cpu.recState } }

/-- The recast under way, or due at the next group boundary, in a cluster. -/
def recastIn (c : Nat) (s : State) : Option Recasting := tget none c s.cpu.inProgress

/-- Set it. -/
def setRecast (c : Nat) (v : Option Recasting) (s : State) : State :=
  { s with cpu := { s.cpu with inProgress := tset none c v s.cpu.inProgress } }

/-- The logical core that a slot serves, or served when the core was lost (R3, R466; 08 R190). -/
def logicalOf (slot : Nat) (s : State) : Option Nat :=
  ((List.range 17).map (fun k => 16 * (slot / 17) + k)).find? (fun l => decide (l < 16 * (slot / 17) + 16) && slotOf l s == slot)

/-- The trigger is hard (R465). -/
def hardKind : RecastTrigger → Bool
  | .predictive => false
  | .commanded => false
  | _ => true

/-- A trigger as the fault log records it (R468). -/
def triggerCode : RecastTrigger → Nat
  | .hard => 0
  | .checkpoint => 1
  | .supply => 2
  | .predictive => 3
  | .commanded => 4

/-- A core's state after a core reset that is not part of a recast (08 R189; 11 R253): stopped, with nothing pending. -/
def resetCore (l : Nat) (s : State) : State :=
  let s := wbInvCore l (drainSystem l s)
  if recState l s = 2 then s else setCore l { mqHalt := (coreOf l s).mqHalt } s

/-! ### Core lost (R469) -/

/-- The save area that the readable parts fill: bit 3 g, 2 f, 1 PC, TSW and FPC, 0 c. -/
def saveArea (l : Nat) (parts : BitVec 4) (s : State) : List (Nat × List Byte) :=
  let c := coreOf l s
  (if parts.getLsbD 3 then [(0x100, (List.range 64).flatMap (fun n => beBytes 8 (getG c n).toNat))] else []) ++
  (if parts.getLsbD 2 then [(0x300, (List.range 32).flatMap (fun n => beBytes 16 (getF c n).toNat))] else []) ++
  (if parts.getLsbD 1 then [(0x500, beBytes 8 c.pc.toNat ++ beBytes 8 c.tsw.toNat ++ beBytes 8 c.fpc.toNat)] else []) ++
  (if parts.getLsbD 0 then [(0x600, (List.range 64).flatMap (fun n => beBytes 8 (readCr l n s).toNat))] else []) ++
  [(0x518, List.replicate 232 0)]

/-- The private caches of a core that leaves service are written back where its arrays can be read, which the spec leaves open; else
every line that holds dirty data is marked poisoned (11 R253). -/
def disposeCaches (l : Nat) (s : State) : State :=
  let a := drawBit s
  if a.1 then wbInvCore l a.2
  else
    let s := a.2
    let c := coreOf l s
    let held (on : Bool) (t : Tab (Option HeldLine)) : List Nat := if on then (t.filter (fun e => e.2.any (·.dirty))).map (·.1) else []
    let lines := (s.cpu.dirty.filterMap (fun e => match e.2 with | some d => if d.core = l then some (lineOf e.1) else none | none => none) ++
      held (dataCached c) c.held1 ++ held (l2On c) c.held2).eraseDups
    let s := modCore l (fun c => { c with held1 := [], held2 := [] }) (discardIf (fun _ d => d.core == l) s)
    wbInvCore l (lines.foldl (fun s ln => poisonLine ln s) s)

/-- The stores of a core that is lost have been disposed of: its caches follow, the readable parts of its checkpoint are saved at its
`TCA_BASE`, and "Core lost" is taken (R469); `lost` says that stores were lost. The checks that were addressed to it as the lowest
running core pass on (08 R178, R188). -/
def loseRest (l : Nat) (parts : BitVec 4) (lost : Bool) (s : State) : State :=
  let src := srcSlot (slotOf l s)
  let part := partOfCore l s
  let s := disposeCaches l s
  let base := (coreOf l s).tcaBase.toNat
  let saved := parts.getLsbD 0 && (match part with | some p => partMapped p base 4096 s | none => false)
  let s := match part with
    | some p => if saved then (saveArea l parts s).foldl (fun s w => partWrite (.core l) p (base + w.1) w.2 s) s else s
    | none => s
  let valid := (if saved then 2 * parts.toNat else 0) + b2n lost
  let s := passChecks l (setRec l 2 (modCore l (fun c => { c with run := .lost, losing := none }) s))
  let s := modCore l (fun c => { c with
    g := [], f := [], resv := none, dtlb := [], itlb := [], tlb2 := [], walk := [], inRepn := false, rep := none, held := none,
    ioHold := none, ucBuf := [], atomBuf := [], part := none, code := none, attempts := 0, sysBuf := [], mcs := [], exig := [] }) s
  let s := raise src 0x06 part l s
  match part with
  | some p => exigOnPart p 0x20 l (sourceNo 0x06 src) valid s
  | none => s

/-- A core that is being lost drains its stores, for which it may have to wait (R469; 10 R238). -/
def lossDue (l : Nat) (s : State) : State :=
  match (coreOf l s).losing with
  | none => s
  | some parts =>
    let s := drainSystem l s
    if drained l s then loseRest l parts false s else s

/-- A logical core is lost (R469): its stores are drained where their path serves, and are lost else. -/
def loseCore (l : Nat) (parts : BitVec 4) (storePath : Bool) (s : State) : State :=
  if storePath then lossDue l (modCore l (fun c => { c with losing := some parts }) s)
  else loseRest l parts (!drained l s) (loseStoresLogged l s)

/-- A core is lost at once, because no spare can be asked: how much of its checkpoint can be read after a checkpoint error, and
whether its store path serves, the spec leaves open. -/
def loseAtOnce (l : Nat) (t : RecastTrigger) (s : State) : State :=
  let a := drawBelow 16 s
  let b := drawBit a.2
  loseCore l (if t = .checkpoint then BitVec.ofNat 4 a.1 else 15) b.1 b.2

/-! ### Triggers -/

/-- The cluster's spare can be asked: AVAILABLE, and no recast is running in the cluster (R465, R473, R475). -/
def spareFree (c : Nat) (s : State) : Bool := spareState c s == 0 && (recastIn c s).isNone

/-- A recast that was due and had not begun gives way to a hard trigger (R465). -/
def cancelDue (c : Nat) (s : State) : State :=
  match recastIn c s with
  | none => s
  | some r =>
    if recState r.logical s = 1 then s
    else
      let s := setRecast c none s
      if r.byCmd then { s with cpu := { s.cpu with recBusy := false, recResult := 0x0C } } else s

/-- Step 1 of a recast (R466): the core stalls. -/
def beginRecast (l : Nat) (t : RecastTrigger) (byCmd : Bool) (s : State) : State :=
  let s := setRecast (l / 16) (some { logical := l, trigger := t, byCmd := byCmd }) (setRec l 1 s)
  drainSystem l s

/-- A logical core is in service: neither recasting nor lost, nor being lost (R474). -/
def inService (l : Nat) (s : State) : Bool := recState l s == 0 && (coreOf l s).losing.isNone

/-- A hard trigger (R465, R469, R473). -/
def hardTrigger (l : Nat) (t : RecastTrigger) (s : State) : State :=
  if !inService l s then s
  else
    let s := cancelDue (l / 16) s
    if t = .checkpoint ∨ !spareFree (l / 16) s then loseAtOnce l t s else beginRecast l t false s

/-- A predictive or commanded trigger is due at the next group boundary (R465). -/
def dueRecast (l : Nat) (t : RecastTrigger) (byCmd : Bool) (s : State) : State :=
  setRecast (l / 16) (some { logical := l, trigger := t, byCmd := byCmd }) s

/-- A predictive trigger (R465; 25 R557): counted and logged whether it is performed or not. -/
def predictiveTrigger (slot : Nat) (s : State) : State :=
  let s := logGovernor 0x293 (srcSlot slot) slot s
  match logicalOf slot s with
  | none => s
  | some l => if inService l s ∧ spareFree (l / 16) s then dueRecast l .predictive false s else s

/-- `RECAST_CMD` RECAST (R475). -/
def recastCommand (l : Nat) (s : State) : State :=
  if s.cpu.recBusy then { s with cpu := { s.cpu with recResult := 0x0C } }
  else
    let s := { s with cpu := { s.cpu with recLogical := l % 256 } }
    if l < 192 ∧ inService l s ∧ spareFree (l / 16) s then dueRecast l .commanded true { s with cpu := { s.cpu with recBusy := true, recResult := 0 } }
    else { s with cpu := { s.cpu with recResult := 0x0C } }

/-- The end of a recast for `RECAST_STATUS`. -/
def recastOver (r : Recasting) (result : Nat) (s : State) : State :=
  let s := setRecast (r.logical / 16) none s
  if r.byCmd then { s with cpu := { s.cpu with recBusy := false, recResult := result } } else s

/-- The spare takes the logical core (R466 to R468); `quiet` at bring-up. -/
def moveToSpare (l : Nat) (t : RecastTrigger) (quiet : Bool) (s : State) : State :=
  let c := l / 16
  let old := slotOf l s
  let new := spareSlot c
  let s := wbInvCore l s
  let s := modCore l (fun k => { k with resv := none, dtlb := [], itlb := [], tlb2 := [], walk := [], sysBuf := [] }) s
  let s := { s with cpu := { s.cpu with slot := tset none l (some new) s.cpu.slot, recasts := tmod 0 l (fun n => min (n + 1) 0xFFFF) s.cpu.recasts } }
  let s := setSpare c 1 (setRec l 0 s)
  let s := raise (srcSlot old) 0x06 none (triggerCode t * 65536 + old * 256 + new) s
  match partOfCore l s with
  | some p =>
    if quiet ∨ pstateOf p s ≠ .running then s
    else mcOnCore l { code := 1, addr := new, source := sourceNo 0x06 (srcSlot old), tor := s.tor.tor, merged := false, valid := 0 } s
  | none => s

/-- A spare fails its self-check (R469, R470, R472): event 0x0F at its slot. -/
def failSpare (c : Nat) (s : State) : State := raise (srcSlot (spareSlot c)) 0x0F none 0 (setSpare c 2 s)

/-- The self-check of the spare has ended (R466, steps 3 to 6; R469, R470). The state moves when the core's stores are drained (10
R238). -/
def endRecast (l : Nat) (spareOk : Bool) (parts : BitVec 4) (storePath : Bool) (s : State) : State :=
  match recastIn (l / 16) s with
  | none => s
  | some r =>
    if r.logical ≠ l ∨ recState l s ≠ 1 then s
    else if spareOk then
      let s := drainSystem l s
      if drained l s then recastOver r 0 (moveToSpare l r.trigger false s) else s
    else
      -- step 2 has emptied the caches, whatever the spare's check finds (R470)
      let s := setRec l 0 (failSpare (l / 16) (if hardKind r.trigger then s else wbInvCore l s))
      -- a fenced slot must leave service (21 R487), so without a spare its core is lost
      if hardKind r.trigger || (r.trigger = .commanded && !r.byCmd) then recastOver r 0x10 (loseCore l parts storePath s)
      else recastOver r 0x10 s

/-- Fencing a core slot (21 R487): a recast as if commanded, or the loss of the core where no spare is AVAILABLE; a slot that
serves as spare is FAILED. -/
def fenceSlot (slot : Nat) (s : State) : State :=
  match logicalOf slot s with
  | some l =>
    if !inService l s then s
    else if spareFree (l / 16) s then dueRecast l .commanded false s
    else loseAtOnce l .commanded (cancelDue (l / 16) s)
  | none => if slot = spareSlot (slot / 17) ∧ spareState (slot / 17) s = 0 then setSpare (slot / 17) 2 s else s

/-- The slot self-check of cold bring-up in one cluster (R472). -/
def checkCluster (bad : List Nat) (c : Nat) (s : State) : State :=
  let s := if bad.contains (spareSlot c) then failSpare c s else s
  (List.range 16).foldl (fun s k =>
    let l := 16 * c + k
    if bad.contains (17 * c + k) ∧ recState l s = 0 then
      if spareState c s = 0 then moveToSpare l .hard true s
      else raise (srcSlot (slotOf l s)) 0x06 none l (setRec l 2 (modCore l (fun x => { x with run := .lost }) s))
    else s) s

/-- The slot self-check of all 204 slots (R472). -/
def slotCheck (bad : List Nat) (s : State) : State := (List.range 12).foldl (fun s c => checkCluster bad c s) s

end Sys2Proof.Machine
end

