-- ==== Sys2Proof/Machine/Settle.lean ====
section
/-! DEFINITION. The escalation steps that events make due within a command, and the end of every command: the steps taken, the
vectors of changed states signalled, changes of the time reference advertised (21_fault_collection R486 to R489; 24_host_port
R539; 03 R63). -/

namespace Sys2Proof.Machine

/-- The service core, or the host through PF0 BAR0 (01 R21), whose accesses are refused during a function reset (24 R543). -/
def admin (v : View) (s : State) : Bool :=
  match v with
  | .service => true
  | .pf0 => !s.pf0.flr
  | _ => false

/-! ### Partition checkstop (R488) -/

/-- Every publication of a partition is withdrawn (18 R425). -/
def withdrawPubs (p : Nat) (s : State) : State :=
  { s with tr := { s.tr with pubs := s.tr.pubs.filter (fun e => e.1 / 16 != p) } }

/-- A core stops without completing its group; its stores are lost, and its caches disposed of (10 R238; 11 R253). One that was being
lost is lost. -/
def killCore (l : Nat) (s : State) : State :=
  let s := disposeCaches l (loseStoresLogged l s)
  let s := if (coreOf l s).losing.isSome then setRec l 2 (modCore l (fun c => { c with run := .lost, losing := none }) s) else s
  modCore l (fun c =>
    let c := { c with resv := none, held := none, rep := none, ioHold := none, ucBuf := [], atomBuf := [], part := none, code := none, attempts := 0,
                      sysBuf := [] }
    match c.run with
    | .lost => c
    | .tcaFault => c
    | _ => { c with run := .stopped }) s

/-- A partition is checkstopped (R488). -/
def partCheckstop (p : Nat) (s : State) : State :=
  if pstateOf p s = .undefined then s
  else
    let s := (coresOf p s).foldl (fun s l => killCore l s) s
    let s := setPState p .checkstopped s
    let s := disableOwnQueues p false (withdrawPubs p s)
    { s with cpu := { s.cpu with heldMc := tdel p s.cpu.heldMc } }

/-! ### Module checkstop (R489) -/

/-- The private caches and store buffers of every core are lost. -/
def loseCaches (s : State) : State :=
  let s := onCores (fun _ => true) (fun c => { c with
    sb := [], wc := [], l1i := [], l1d := [], l2 := [], held1 := [], held2 := [], resv := none, held := none, rep := none,
    ioHold := none, ucBuf := [], atomBuf := [], part := none, code := none, attempts := 0, sysBuf := [], losing := none }) s
  { s with cpu := { s.cpu with dirty := [], old := [], inProgress := [], recBusy := false } }

/-- The refreshes owed are paid back to back and every bank is closed (12 R270). -/
def payDebt (d : Dram) : Dram := { d with debt := 0, paying := false, openRow := [] }

/-- A controller enters self-refresh, its debt paid (12 R270, R280). -/
def sleepDram (d : Dram) : Dram := if d.state = 2 then { payDebt d with state := 3, nrQueue := [], acts := [], ceRows := [] } else d

/-- A module checkstop (R489): the cores, channel processors, engines and ports stop, which `operating` says; store buffers and
caches are lost, and DRAM goes into self-refresh, not kept for 16 R378. -/
def moduleCheckstop (s : State) : State :=
  if s.flt.checkstop then s
  else
    let s := loseCaches ((s.cpu.core.map (·.1)).foldl (fun s l => loseStoresLogged l s) s)
    let s := onCores (fun _ => true) (fun c => match c.run with
      | .lost => c
      | .tcaFault => c
      | _ => { c with run := .stopped }) s
    let s := (List.range 32).foldl (fun s k => if cpState k s = 0 then setCp k 1 s else s) s
    let s := { s with dram := s.dram.map (fun (e : Nat × Dram) => (e.1, sleepDram e.2)) }
    { s with flt := { s.flt with checkstop := true }, jnl := { s.jnl with storageKept := false },
             cpu := { s.cpu with recState := s.cpu.recState.filter (fun e => e.2 == 2) } }

/-! ### Fencing (R487) -/

/-- The resource of a source can be fenced (R487). -/
def fenceable (i : Nat) (s : State) : Bool :=
  decide (i ≤ 0xCB) || decide (0x110 ≤ i ∧ i ≤ 0x117) || decide (0x118 ≤ i ∧ i ≤ 0x123) ||
  (decide (0x128 ≤ i ∧ i ≤ 0x147) && cpFenceable (i - 0x128) s) || decide (0x148 ≤ i ∧ i ≤ 0x157)

/-- A link port is held in DISABLED by its control register (13 R300; R487). -/
def disablePort (p : PortId) (s : State) : State :=
  let s := linkOff p s
  modLink p (fun l => { l with disable := true }) s

/-- A Rasp engine is out of service: its job ends with ENGINE_FAULT. -/
def fenceRasp (k : Nat) (s : State) : State :=
  let s := raspEnd k true s
  setRasp k { raspOf k s with failed := true } s

/-- An Intaglio engine is out of service: its requests, running and suspended, end with FAULT. -/
def fenceInt (k : Nat) (s : State) : State :=
  let s := intEnd k (some 7) s
  let e := intOf k s
  let s := match e.job.orElse (fun _ => e.susp) with
    | some j => intFinish k j (some 7) (setInt k { e with job := none, susp := none, posting := none } s)
    | none => s
  setInt k { intOf k s with failed := true } s

/-- The resource of a source leaves service, with the machine check 0x0003 (R487). -/
def fence (i : Nat) (s : State) : State :=
  let note (p : Nat) (s : State) : State := mcOnPart p 3 0 (sourceNo (fltStatus i s).event i) s
  if i ≤ 0xCB then
    let part := (logicalOf i s).bind (fun l => partOfCore l s)
    let s := fenceSlot i s
    match part with | some p => note p s | none => s
  else if 0x110 ≤ i ∧ i ≤ 0x117 then disablePort (.arm (i - 0x110)) s
  else if 0x118 ≤ i ∧ i ≤ 0x123 then
    let s := disablePort (.ch (i - 0x118)) s
    (partIds s).foldl (fun s p => match partOf p s with
      | some d => if d.chPorts.testBit (i - 0x118) then note p s else s
      | none => s) s
  else
    let s :=
      if 0x128 ≤ i ∧ i ≤ 0x147 then cpFail (i - 0x128) s
      else if 0x148 ≤ i ∧ i ≤ 0x14F then fenceRasp (i - 0x148) s
      else if 0x150 ≤ i ∧ i ≤ 0x157 then fenceInt (i - 0x150) s
      else s
    (runningParts s).foldl (fun s p => note p s) s

/-- A fenced resource returns (R487): a port leaves DISABLED, a processor runs, an engine is in service, a spare is AVAILABLE. -/
def unfence (i : Nat) (s : State) : State :=
  if i ≤ 0xCB then
    if i = spareSlot (i / 17) ∧ spareState (i / 17) s = 2 then setSpare (i / 17) 0 s else s
  else if 0x110 ≤ i ∧ i ≤ 0x117 then linkRestart (.arm (i - 0x110)) (modLink (.arm (i - 0x110)) (fun l => { l with disable := false }) s)
  else if 0x118 ≤ i ∧ i ≤ 0x123 then linkRestart (.ch (i - 0x118)) (modLink (.ch (i - 0x118)) (fun l => { l with disable := false }) s)
  else if 0x128 ≤ i ∧ i ≤ 0x147 then chWakeAll (setCp (i - 0x128) 0 s)
  else if 0x148 ≤ i ∧ i ≤ 0x14F then lineStart (setRasp (i - 0x148) { raspOf (i - 0x148) s with failed := false } s)
  else if 0x150 ≤ i ∧ i ≤ 0x157 then lineStart (setInt (i - 0x150) { intOf (i - 0x150) s with failed := false } s)
  else s

/-! ### Due steps (R486, R489) -/

/-- A step of a source's chain is taken, recorded and logged (R486). -/
def chainStep (i step part : Nat) (s : State) : State :=
  let st := fltStatus i s
  if !st.pending || step ≤ st.step then s
  else if step = 1 ∧ (!fenceable i s || st.fenced) then s
  else if step = 2 ∧ part = 0x3F then s
  else
    let s := setFlt i { st with step := step, fenced := st.fenced || step == 1 } s
    let s := logEntry 2 st.cls (sourceNo st.event i) part step 0 s
    match step with
    | 1 => fence i s
    | 2 => partCheckstop part s
    | _ => moduleCheckstop s

/-- One due step: of a source's chain, or outside any chain. -/
def dueStep (d : DueStep) (s : State) : State :=
  if s.flt.checkstop then s
  else if d.src < 2 ^ 24 then chainStep d.src d.step d.part s
  else if d.step = 3 then moduleCheckstop s
  else partCheckstop d.part s

/-- Take the due steps in order, with those that they make due: at most `n`. -/
def settleDue : Nat → State → State
  | 0, s => { s with flt := { s.flt with due := [] } }
  | n + 1, s => match s.flt.due with
    | [] => s
    | d :: t => settleDue n (dueStep d { s with flt := { s.flt with due := t } })

/-- Signal PF0's vectors for states that a command changed (24 R539). -/
def signalStates (before s : State) : State :=
  let s := if before.dx.state ≠ s.dx.state then pf0Vector 6 s else s
  let s := if before.tor.state ≠ s.tor.state then pf0Vector 7 s else s
  if before.arm.fstate ≠ s.arm.fstate then pf0Vector 8 s else s

/-- The end of every command: due steps, the vectors of changed states, advertised changes. The queue of commands is not the command's. -/
def settle (before s : State) : State :=
  { signalStates before (torFlood before (settleDue 4096 s)) with pending := before.pending }

/-- A command's outcome: the next state. -/
def done (before s : State) : Host.Outcome State Fault Refusal := .next (settle before s)

end Sys2Proof.Machine
end

