-- ==== Sys2Proof/Machine/ChannelCmd.lean ====
section
/-! DEFINITION. The commands of the channel subsystem: an operation taken, aged, released; frames of the adapters; the halt's time
limit; the configuration of subchannels (15_channel_programs R349 to R364; 03 R75). -/

namespace Sys2Proof.Machine

/-! ### Taking an operation (R354) -/

/-- Priority as the channel processors take it: 7 once the operation has aged. -/
def takePrio (o : ChOp) : Nat := if o.aged then 7 else o.blk.priority

/-- An operation waits for a channel processor of a hub: START_PENDING or settled, durable, assigned to none. -/
def waitsCp (hub i : Nat) (o : ChOp) (s : State) : Bool :=
  ((jent i s).state == 1 || (o.settled && o.reach && o.halt.isNone)) && o.durable && o.cp.isNone && o.ending.isNone && chHub i s == hub

/-- The next operation of a hub: highest priority, then first IOSTART. -/
def takeNext (hub : Nat) (s : State) : Option Nat :=
  (s.ch.ops.foldl (fun (r : Option (Nat × ChOp)) e => match e.2 with
    | none => r
    | some o =>
      if !waitsCp hub e.1 o s then r
      else match r with
        | none => some (e.1, o)
        | some (_, x) =>
          let a := takePrio o
          let b := takePrio x
          if b < a ∨ (a = b ∧ o.order < x.order) then some (e.1, o) else r) none).map (·.1)

/-- A channel processor takes an operation, and its program runs (R354, R368). -/
def cpTake (hub : Nat) (s : State) : State :=
  match takeNext hub s, cpPick hub s with
  | some i, some k =>
    let s := modOp i (fun o => { o with cp := some k }) s
    if (jent i s).state = 1 then chRun i (opTrans i trTake (fun e => { e with state := 2 }) s) else chResume i s
  | _, _ => s

/-- CP_TAKE. -/
def execCpTake (hub : Nat) (s : State) : Host.Outcome State Fault Refusal :=
  if operating s ∧ hub < 2 then done s (cpTake hub s) else .next s

/-- PRIORITY_AGING (R354): 10 ms in START_PENDING. -/
def execPriorityAging (i : Nat) (s : State) : Host.Outcome State Fault Refusal :=
  if operating s ∧ (jent i s).state = 1 ∧ (opOf i s).any (fun o => decide (o.started + 10 * ticksMs ≤ s.tor.tor)) = true then
    done s (modOp i (fun o => { o with aged := true }) s)
  else .next s

/-! ### Waits for TOR (R349, R75) -/

/-- The TOR of an operation's WAIT_TOR has come. -/
def waitTorDue (i : Nat) (s : State) : Bool :=
  (opOf i s).any (fun o => match o.wait with | .tor t => decide (t ≤ s.tor.tor) | _ => false)

/-- WAIT_TOR_EXPIRY. -/
def execWaitTorExpiry (i : Nat) (s : State) : Host.Outcome State Fault Refusal :=
  if operating s && waitTorDue i s then done s (chRun i s) else .next s

/-- The release time of an operation held at its first WRITE has come. -/
def releaseDue (i : Nat) (s : State) : Bool := (opOf i s).any (fun o => o.wait == .held && decide (o.blk.relTor ≤ s.tor.tor))

/-- HELD_WRITE_RELEASE. -/
def execHeldWriteRelease (i : Nat) (s : State) : Host.Outcome State Fault Refusal :=
  if operating s && releaseDue i s then done s (chRun i s) else .next s

/-! ### Frames of the adapters (R356 to R358) -/

/-- The operation that a frame on port n names. -/
def frameOp (n origin i dev seq : Nat) (s : State) : Option ChOp :=
  match opOf i s with
  | some o => if o.port = some n ∧ o.origin = origin ∧ (subOf i s).dev = dev ∧ (jent i s).seq = seq ∧ o.ending.isNone then some o else none
  | none => none

/-- An adapter broke the protocol: the operation ends with INTERFACE_CHECK (R351). -/
def breachEnd (i n : Nat) (o : ChOp) (ack : Option Nat) (s : State) : State :=
  chEnd i { code := 6, uncertain := o.ordered, halted := o.halted, addr := opAddr o, resid := o.lastRes, length := o.lastLen, ack := ack }
    (breach i n s)

/-- Bytes at an offset of a list, which grows to hold them. -/
def putBytes (old : List Byte) (off : Nat) (data : List Byte) : List Byte :=
  let old := old ++ List.replicate (off - old.length) 0
  old.take off ++ data ++ old.drop (off + data.length)

/-- Device data of the order in progress arrives (R344 to R346, R357). -/
def takeData (i : Nat) (d : DevOrd) (f : DataFrame) (s : State) : State :=
  let top := f.offset + f.data.length
  if d.eng ≠ 0 then
    let s := if d.pushed then s
             else modCur i (fun d => { d with got := putBytes d.got f.offset f.data, offset := max d.offset top, last := d.last || f.last }) s
    chRun i (if f.last then opWait i .none s else s)
  else
    let r := storeElems (.subch i) (jent i s).part d.elems f.offset (f.data.take (d.count - f.offset)) s
    let s := modCur i (fun d => { d with offset := max d.offset top, moved := max d.moved (f.offset + r.2.1),
                                         excess := d.excess || decide (d.count < top), last := d.last || f.last }) r.2.2
    let s := chBegin i (min top d.count) s
    match r.1 with
    | some a => chCheck i 2 a 0 s
    | none => s

/-- DATA on a port (R357, R358): for the READ or SENSE in progress; earlier orders' data is late, any other breaks the protocol. -/
def dataIn (n : Nat) (f : DataFrame) (s : State) : State :=
  match frameOp n f.origin f.subch f.dev f.seq s with
  | none => s
  | some o =>
    let ord := (jent f.subch s).ordinal
    if o.halt.isSome ∨ f.ordinal < ord then s
    else match o.cur with
      | some d => if f.ordinal = ord ∧ d.sent ∧ isIn d then takeData f.subch d f s else breachEnd f.subch n o none s
      | none => breachEnd f.subch n o none s

/-- DATA_FRAME. -/
def execDataFrame (n : Nat) (f : DataFrame) (s : State) : Host.Outcome State Fault Refusal :=
  if operating s ∧ n < 12 ∧ portActive (.ch n) s = true ∧ f.data.length ≤ dataMax then done s (dataIn n f s) else .next s

/-- The final STATUS that answers a halt ends the operation (R331, R351, R358, R379). -/
def haltAnswer (i : Nat) (o : ChOp) (f : StatusFrame) (s : State) : State :=
  match o.ended with
  | some (dev, resid, len) =>
    chEnd i { dev := dev, resid := resid, length := len, halted := o.halted, uncertain := o.settling, code := (o.check.map (·.code)).getD 0,
              engine := (o.check.map (·.engine)).getD 0, addr := (o.check.map (·.order)).getD (opAddr o), ack := some f.ordinal } s
  | none =>
    let x := match o.cur with | some d => orderResid d f.residual s | none => (o.lastRes, o.lastLen, s)
    let s := x.2.2
    match o.check with
    | some c =>
      chEnd i { dev := if c.moving then f.devStatus.toNat % 16 else 0, code := c.code, resid := x.1, length := x.2.1, halted := o.halted, uncertain := o.settling,
                addr := c.order, engine := c.engine, ack := some f.ordinal } s
    | none =>
      chEnd i { dev := f.devStatus.toNat % 16, resid := x.1, length := x.2.1, halted := true, uncertain := o.settling, addr := opAddr o,
                ack := some f.ordinal } s

/-- While a halt is on its way, a STATUS with FINAL 0 still ends the order in progress (R358): journaled and acknowledged. -/
def statusHalted (i n : Nat) (o : ChOp) (d : DevOrd) (f : StatusFrame) (s : State) : State :=
  let x := orderResid d f.residual s
  let s := setOp i (some { o with cur := none, pc := d.next, line := none, lastDev := f.devStatus.toNat % 16, lastRes := x.1, lastLen := x.2.1 }) x.2.2
  let s := opTrans i trOrderEnd (fun e => { e with ordinal := (e.ordinal + 1) % 2 ^ 32 }) s
  sendAck n o.origin i f.seq f.ordinal s

/-- STATUS of the order in progress, or of another (R358, R360). -/
def statusOf (n : Nat) (o : ChOp) (f : StatusFrame) (s : State) : State :=
  let i := f.subch
  let ord := (jent i s).ordinal
  let again := sendAck n o.origin i f.seq f.ordinal
  if f.stale then
    chEnd i { code := 6, uncertain := true, halted := o.halted, addr := opAddr o, resid := o.lastRes, length := o.lastLen, ack := some f.ordinal } s
  else if o.halt.isSome then
    if f.final then haltAnswer i o f s
    else match o.cur with
      | some d => if f.ordinal = ord ∧ d.sent then statusHalted i n o d f s else again s
      | none => again s
  else if f.ordinal < ord ∧ !f.final then again s
  else match o.cur with
    | some d =>
      if f.ordinal = ord ∧ d.sent then
        chRun i (modOp i (fun o => { o with wait := .none, cur := some { d with status := some (f.devStatus.toNat % 16, f.final, f.residual) } }) s)
      else breachEnd i n o (some f.ordinal) s
    | none => breachEnd i n o (some f.ordinal) s

/-- A final STATUS that an adapter repeats is acknowledged again, once its transition is durable (R358, R370). -/
def statusAgain (n : Nat) (f : StatusFrame) (s : State) : State :=
  let x := lastOf f.subch s
  let e := jent f.subch s
  if (opOf f.subch s).isNone ∧ f.final ∧ x.port = some n ∧ x.origin = f.origin ∧ (subOf f.subch s).dev = f.dev ∧ e.seq = f.seq ∧ x.ackDue.isNone then
    sendAck n f.origin f.subch f.seq f.ordinal s
  else s

/-- STATUS on a port. -/
def statusIn (n : Nat) (f : StatusFrame) (s : State) : State :=
  let s := match frameOp n f.origin f.subch f.dev f.seq s with
    | some o => statusOf n o f s
    | none => statusAgain n f s
  dxHoldCheck s

/-- STATUS_FRAME. -/
def execStatusFrame (n : Nat) (f : StatusFrame) (s : State) : Host.Outcome State Fault Refusal :=
  if operating s && decide (n < 12) && portActive (.ch n) s then done s (statusIn n f s) else .next s

/-- A halt is not answered within 1 s (R351, R355, R379). -/
def haltTimeout (i : Nat) (o : ChOp) (s : State) : State :=
  let s := match o.port with | some n => breach i n s | none => s
  dxHoldCheck (chEnd i { code := 6, uncertain := o.ordered, halted := o.halted, addr := opAddr o, resid := o.lastRes, length := o.lastLen } s)

/-- HALT_TIMEOUT. -/
def execHaltTimeout (i : Nat) (s : State) : Host.Outcome State Fault Refusal :=
  match opOf i s with
  | some o =>
    if operating s ∧ o.ending.isNone ∧ o.halt.any (fun t => decide (t + ticksS ≤ s.tor.tor)) = true then done s (haltTimeout i o s) else .next s
  | none => .next s

/-! ### Configuration of a subchannel (R363, R364; 22 R499) -/

/-- The configuration that a long of `CS_SUBCHi` spells. -/
def subCfgOf (v : Nat) : SubCfg := { en := v.testBit 63, port0 := bits v 62 59, port1 := bits v 58 55, dev := bits v 54 39 }

/-- An index lies in a range that the partner defines (16 R377). -/
def partnerSub (i : Nat) (s : State) : Bool := s.dx.parts.any (fun x => decide (x.subchBase ≤ i) && decide (i < x.subchBase + x.subchCount))

/-- A port may be named for an index (R364). -/
def portNameOk (owner : Option Nat) (n : Nat) (s : State) : Bool :=
  n == 15 || (portRole n s != 0 && (match owner with
    | some p => (partOf p s).any (fun d => d.chPorts.testBit n)
    | none => true))

/-- Who may write `CS_SUBCHi`: the service core, the host, and the partition whose range holds the index (R363). -/
def subWriter (v : View) (i : Nat) (s : State) : Bool :=
  match v with
  | .part p => subchPart i s == some p
  | .pf1 => false
  | _ => true

/-- A write of `CS_SUBCHi` (R364): ignored whole unless the subchannel is IDLE and its ports may be named. -/
def writeSubch (v : View) (i : Nat) (val : Long) (s : State) : State :=
  let owner := subchPart i s
  let c := subCfgOf val.toNat
  if 262144 ≤ i ∨ !subWriter v i s ∨ (jent i s).state ≠ 0 ∨ partnerSub i s then s
  else if !portNameOk owner c.port0 s ∨ !portNameOk owner c.port1 s then s
  else
    let s := { s with ch := { s.ch with sub := tset {} i c s.ch.sub } }
    if owner.isSome ∧ partnerOn s then { s with dx := { s.dx with copies := s.dx.copies.filter (· != i) ++ [i] } } else s

/-- CS_SUBCH_WRITE. -/
def execCsSubchWrite (v : View) (i : Nat) (val : Long) (s : State) : Host.Outcome State Fault Refusal :=
  if operating s then done s (writeSubch v i val s) else .next s

end Sys2Proof.Machine
end

