-- ==== Sys2Proof/Machine/PartCmd.lean ====
section
/-! DEFINITION. The commands that move partitions between their states (02_plinth_image R42, R43, R47; 25 R561 to R563). -/

namespace Sys2Proof.Machine

/-- Result of the last `PART_CMD` for a partition, with the vector of its completion (02 R49; 24 R539). -/
def partResult (p r : Nat) (s : State) : State :=
  pf0Vector 2 { s with pln := { s.pln with presult := tset 0 p r s.pln.presult } }

/-- An image is being verified or applied (02 R47). -/
def plnBusy (s : State) : Bool := s.pln.state == .verifying || s.pln.state == .applying

/-- `PWR_IPL` (25 R567). -/
def iplPart (s : State) : Nat := fld s.pwr.ipl 63 58
def iplValid (s : State) : Bool := lbit s.pwr.ipl 57
def iplLength (s : State) : Nat := fld s.pwr.ipl 56 32
def iplOffset (s : State) : Nat := fld s.pwr.ipl 31 0

/-- What an unwritten byte of the service store reads as: unrelated data once the module storage key has been replaced (18 R420). -/
def svcMask (i : Nat) (s : State) : Byte := match s.tr.svcKey with | some n => Config.freeByte n i | none => 0

/-- Bytes of the PF0 service store (24 R534), which lies in DRAM under the module storage key (18 R418). -/
def svcBytes (off n : Nat) (s : State) : List Byte := (List.range n).map (fun i => tget 0 (off + i) s.svc ^^^ svcMask (off + i) s)

/-- Write bytes of the service store. -/
def svcWrite (off : Nat) (data : List Byte) (s : State) : State :=
  { s with svc := ((List.range data.length).zip data).foldl (fun t e => tset 0 (off + e.1) (e.2 ^^^ svcMask (off + e.1) s) t) s.svc }

/-- The 64 MiB of the service window. -/
def svcSize : Nat := 0x4000000

/-- The first group of every core of a partition (25 R562): the lowest logical core in service runs from PC 0, the others wait. -/
def startCores (p : Nat) (s : State) : State :=
  let ls := (coresOf p s).filter (fun l => recState l s != 2)
  ls.foldl (fun s l =>
    let s := resetCore l s
    modCore l (fun c => { c with pc := 0, mqHalt := false, run := if ls.head? = some l then .running else .waiting none }) s) s

/-- "Core lost" for each lost core of a partition that starts (20 R472), taken by its first core at a boundary. -/
def startLost (p : Nat) (s : State) : State :=
  ((coresOf p s).filter (fun l => recState l s == 2)).foldl (fun s l => exigOnPart p 0x20 l (sourceNo 0x06 (srcSlot (slotOf l s))) 0 s) s

/-- A STOPPED partition starts (02 R43; 25 R562; 15 R352). -/
def startPart (p : Nat) (s : State) : State :=
  reoffer p (startLost p (setPState p .running (startCores p s)))

/-- A partition starts when the stores of its initial program, where their home is another module, have been performed (25 R563). -/
def startReady (p : Nat) (s : State) : State :=
  if agentPending .service s then { s with pln := { s.pln with starting := s.pln.starting ++ [p] } } else startPart p s

/-- The partitions whose initial program has been copied start (25 R563). -/
def startDue (s : State) : State :=
  if s.pln.starting.isEmpty || agentPending .service s then s
  else s.pln.starting.foldl (fun s p => if pstateOf p s = .stopped then startPart p s else s) { s with pln := { s.pln with starting := [] } }

/-- The next line of zeros goes to its home (02 R46), when the one before has been performed. -/
def zeroNext (s : State) : State :=
  if agentPending .service s then s
  else match s.pln.zero with
    | [] => s
    | (a, n) :: t =>
      if (tget none (nodeOfAddr a) s.arm.db).isNone then { s with pln := { s.pln with zero := t } }
      else
        let k := min n 128
        let s := { s with pln := { s.pln with zero := if n ≤ 128 then t else (a + 128, n - 128) :: t } }
        agentPut { who := .service, part := none, addr := a, data := List.replicate k 0 } s

/-- What waited for an answer of the Armature or of this home goes on: operations of the channels, completion records, cores that are
being lost, partitions that start, ranges that are zeroed. -/
def wakeAgents (s : State) : State :=
  zeroNext (startDue ((s.cpu.core.map (·.1)).foldl (fun s l => lossDue l s) (postDue (chWakeAll s))))

/-- A STOPPED partition starts, after the copy that `PWR_IPL` arms for it (25 R563); none where the copy does not fit. -/
def startInto (p : Nat) (s : State) : Option State :=
  if iplValid s && iplPart s == p then
    if iplLength s ≠ 0 ∧ !partMapped p 0 (iplLength s) s then none
    else
      let b := svcBytes (iplOffset s) (iplLength s) s
      let s := { s with pwr := { s.pwr with ipl := s.pwr.ipl &&& ~~~(maskBits 57 57) } }
      some (startReady p (partWrite .service p 0 b s))
  else some (startPart p s)

/-- `PART_CMD` START (02 R43, R47; 25 R563). One that waits for the remote stores of its initial program has completed with `OK` while the
partition reads STOPPED; until it runs another START gets `STATE`, and it may come to run during APPLYING (DESIGN CHOICE, log entry 101). -/
def startCmd (p : Nat) (s : State) : State :=
  if 48 ≤ p then s
  else if plnBusy s || pstateOf p s != .stopped || s.pln.starting.contains p then partResult p 0x0C s
  else match startInto p s with
    | none => partResult p 0x0A s
    | some t => partResult p 0 t

/-- START. -/
def execStart (v : View) (p : Nat) (s : State) : Host.Outcome State Fault Refusal :=
  if admin v s && operating s then done s (startCmd p s) else .next s

/-- A core that a STOP holds comes to rest where it stands at a boundary and its stores can be drained. -/
def restCore (l : Nat) (s : State) : State :=
  if midGroup (coreOf l s) ∨ !inService l s then s else stopCore l s

/-- A RUNNING partition stops (02 R43): each core at its next boundary, its publications withdrawn (18 R425). -/
def stopPart (p : Nat) (s : State) : State :=
  let s := setPState p .stopping s
  let s := (coresOf p s).foldl (fun s l => restCore l (modCore l (fun c => { c with mqHalt := false }) s)) s
  let s := withdrawPubs p s
  { s with cpu := { s.cpu with heldMc := tdel p s.cpu.heldMc } }

/-- `PART_CMD` STOP. -/
def stopCmd (p : Nat) (s : State) : State :=
  if 48 ≤ p then s
  else if plnBusy s || pstateOf p s != .running then partResult p 0x0C s
  else partResult p 0 (stopPart p s)

/-- STOP. -/
def execStop (v : View) (p : Nat) (s : State) : Host.Outcome State Fault Refusal :=
  if admin v s && operating s then done s (stopCmd p s) else .next s

/-- A core has come to rest for a STOP. -/
def atRest (l : Nat) (s : State) : Bool :=
  match (coreOf l s).run with
  | .running => false
  | .waiting _ => false
  | .gated _ => false
  | _ => recState l s != 1 && (coreOf l s).losing.isNone

/-- No subchannel of a partition is START_PENDING, ACTIVE, SUSPENDED or HALT_PENDING (02 R42). -/
def subsIdle (p : Nat) (s : State) : Bool :=
  s.jnl.e.all (fun e => e.2.mirror || e.2.state == 0 || e.2.state == 5 || subchPart e.1 s != some p)

/-- PARTITION_STOPPED (02 R43; 25 R561): a STOPPING partition has come to rest, every store of its cores drained; and every host write that
was translated through its publications has been performed, so that their withdrawal is complete (18 R425). -/
def execPartitionStopped (p : Nat) (s : State) : Host.Outcome State Fault Refusal :=
  if operating s ∧ pstateOf p s = .stopping then
    let t := (coresOf p s).foldl (fun s l => restCore l s) s
    done s (if (coresOf p t).all (fun l => atRest l t) = true ∧ subsIdle p t = true ∧ agentPending (.hostWrite 1) t = false then setPState p .stopped t else t)
  else .next s

/-- Result of the last `PWR_CMD`. -/
def pwrResult (r : Nat) (s : State) : State := { s with pwr := { s.pwr with lastResult := r } }

/-- `PWR_CMD` PART_RESET (25 R561). -/
def partReset (p : Nat) (s : State) : State :=
  if p < 48 ∧ (pstateOf p s = .stopped ∨ pstateOf p s = .checkstopped) then
    let s := (coresOf p s).foldl (fun s l => resetCore l (modCore l (fun c => { c with mqHalt := false }) s)) s
    let s := disableOwnQueues p false (withdrawPubs p s)
    let s := if pstateOf p s = .checkstopped then setPState p .stopping s else s
    pwrResult 0 s
  else pwrResult 0x0C s

/-- PART_RESET. -/
def execPartReset (v : View) (p : Nat) (s : State) : Host.Outcome State Fault Refusal :=
  if admin v s && operating s then done s (partReset p s) else .next s

end Sys2Proof.Machine
end

