-- ==== Sys2Proof/Machine/OpsConsole.lean ====
section
/-! DEFINITION. The console of the Maquette monitor: its text, the responses of its sessions, and the storage commands, which may wait for
another module (26_maquette R569, R570, R572, R578); then everything that goes on when an answer arrives. -/

namespace Sys2Proof.Machine

/-! ### Text (R569, R570) -/

/-- The characters of a text. -/
def asc (t : String) : List Byte := t.toList.map (fun c => BitVec.ofNat 8 c.toNat)

/-- A hexadecimal digit, upper case. -/
def hexDigit (n : Nat) : Byte := if n < 10 then BitVec.ofNat 8 (48 + n) else BitVec.ofNat 8 (55 + n)

/-- The `d` low hexadecimal digits of a number. -/
def hexDigits : Nat → Nat → List Byte
  | 0, _ => []
  | d + 1, w => hexDigit (w / 16 ^ d % 16) :: hexDigits d w

/-- A number in hexadecimal with `d` digits. -/
def hexNum (d w : Nat) : List Byte := asc "0x" ++ hexDigits d w

/-- A long as the manual writes it: four groups of four digits (00_scope, "Numbers and units"). -/
def hexLong (w : Long) : List Byte :=
  asc "0x" ++ hexDigits 4 (fld w 63 48) ++ asc "_" ++ hexDigits 4 (fld w 47 32) ++ asc "_" ++ hexDigits 4 (fld w 31 16) ++ asc "_" ++ hexDigits 4 (fld w 15 0)

/-- A decimal number. -/
def decNum (n : Nat) : List Byte := (Nat.toDigits 10 n).map (fun c => BitVec.ofNat 8 c.toNat)

/-- CR LF, and the prompt. -/
def crlf : List Byte := [13, 10]
def prompt : List Byte := asc "mq> "

/-- The name of an error code (R570). -/
def errName (c : Nat) : List Byte :=
  match c with
  | 1 => asc "unknown"
  | 2 => asc "too-long"
  | 3 => asc "bad-arg"
  | 4 => asc "no-grant"
  | 5 => asc "token"
  | 6 => asc "state"
  | 7 => asc "address"
  | _ => asc "busy"

/-- An error line. -/
def errLine (c : Nat) : List Byte := asc "err " ++ hexNum 2 c ++ asc " " ++ errName c

/-! ### Responses (R569, R578) -/

/-- A session of the monitor. -/
def sessionOf (ss : Session) (s : State) : MqSession := match ss with | .uart => s.mq.uart | .mailbox => s.mq.mbx

/-- Write it. -/
def setSession (ss : Session) (v : MqSession) (s : State) : State :=
  match ss with
  | .uart => { s with mq := { s.mq with uart := v } }
  | .mailbox => { s with mq := { s.mq with mbx := v } }

/-- Where the mailbox lies in the service window (R578). -/
def mbxInSeq : Nat := 0x03FF0000
def mbxInLen : Nat := 0x03FF0008
def mbxOutSeq : Nat := 0x03FF0010
def mbxOutLen : Nat := 0x03FF0018
def mbxInLine : Nat := 0x03FF0100
def mbxOutText : Nat := 0x03FF1000
def mbxOutMax : Nat := 61440

/-- The text of a mailbox response: one that is too long ends with the last line of R578. -/
def clipText (b : List Byte) : List Byte :=
  let last := errLine 3 ++ asc " truncated" ++ crlf
  if b.length ≤ mbxOutMax then b else b.take (mbxOutMax - last.length) ++ last

/-- A response of a session: its lines, each ended by CR LF, and on the UART the prompt; in the mailbox with its sequence and PF0
vector 5. -/
def respond (ss : Session) (lines : List (List Byte)) (s : State) : State :=
  let b := lines.flatMap (fun l => l ++ crlf)
  match ss with
  | .uart => emit (.text .uart (b ++ prompt)) s
  | .mailbox =>
    let t := clipText b
    let s := svcWrite mbxOutLen (beBytes 4 t.length) (svcWrite mbxOutText t s)
    pf0Vector 5 (svcWrite mbxOutSeq (beBytes 8 s.mq.inSeq) s)

/-- An error response. -/
def respondErr (ss : Session) (c : Nat) (s : State) : State := respond ss [errLine c] s

/-! ### Storage commands (R572) -/

/-- The Armature address of a long in a scope; none where it is misaligned or not mapped (R570, R572). -/
def mqPlace (sc : Scope) (addr : Nat) (s : State) : Option Nat :=
  if addr % 8 ≠ 0 then none
  else match sc with
    | .partition p => armOf p addr s
    | .module => if physKind addr s = .dram then some (ownAddr addr s) else none

/-- The partition of a scope. -/
def scopePart (sc : Scope) : Option Nat := match sc with | .partition p => some p | .module => none

/-- The session waits for a storage command. -/
def mqWait (ss : Session) (m : Option MqMem) (s : State) : State := setSession ss { sessionOf ss s with mem := m } s

/-- The storage attribute of a long: that of its extent, and UC outside every extent (R572). -/
def mqAttr (sc : Scope) (real arm : Nat) (s : State) : Nat :=
  match sc with
  | .partition p => attrAt 0 p real s
  | .module =>
    ((partIds s).findSome? (fun p => (partOf p s).bind (fun d =>
      (d.extents.find? (fun e => decide (e.phys ≤ arm) && decide (arm < e.phys + e.size))).map extAttr))).getD 3

/-- The longs of a `mem r` whose lines are here, or the first line that is not. -/
def memAnswer (ss : Session) (sc : Scope) (ps : List (Nat × Nat)) (s : State) : State :=
  match ps.find? (fun e => !agentHas .service (mqAttr sc e.1 e.2 s) e.2 s) with
  | some e => agentAsk .service (scopePart sc) (mqAttr sc e.1 e.2 s) e.2 s
  | none =>
    let lines := ps.map (fun e =>
      let r := agentRead .service (mqAttr sc e.1 e.2 s) e.2 8 s
      hexLong (BitVec.ofNat 64 e.1) ++ asc " " ++ (if r.2 then asc "poison" else hexLong (BitVec.ofNat 64 (beNat r.1))))
    respond ss lines (mqWait ss none (ps.foldl (fun s e => agentSeen .service (scopePart sc) (mqAttr sc e.1 e.2 s) e.2 8 s) s))

/-- `mem r` (R572): storage of a remote home that is not here is fetched first. -/
def memRead (ss : Session) (sc : Scope) (addr count : Nat) (s : State) : State :=
  let as := (List.range count).map (fun i => (addr + 8 * i, mqPlace sc (addr + 8 * i) s))
  if as.any (fun e => e.2.isNone) then respondErr ss 7 (mqWait ss none s)
  else memAnswer ss sc (as.filterMap (fun e => e.2.map (fun a => (e.1, a)))) (mqWait ss (some (.read sc addr count)) s)

/-- `mem w` (R572): the answer comes when the write is performed at SYSTEM scope. -/
def memWrite (ss : Session) (sc : Scope) (addr : Nat) (v : Long) (s : State) : State :=
  match mqPlace sc addr s with
  | none => respondErr ss 7 s
  | some a =>
    let b := beBytes 8 v.toNat
    let s := agentPut { who := .service, part := scopePart sc, addr := a, data := b } s
    if agentPending .service s then mqWait ss (some .write) s else respond ss [asc "ok"] s

/-- A storage command that waited goes on. -/
def memDue (ss : Session) (s : State) : State :=
  match (sessionOf ss s).mem with
  | none => s
  | some (.read sc a n) => memRead ss sc a n s
  | some .write => if agentPending .service s then s else respond ss [asc "ok"] (mqWait ss none s)

/-- Everything that waits for an answer goes on: writes that waited behind others, the agents of the partitions, and the monitor's
sessions. -/
def wakeAll (s : State) : State := memDue .mailbox (memDue .uart (wakeAgents (agentLater s)))

end Sys2Proof.Machine
end

