-- ==== Sys2Proof/Machine/OpsPlinth.lean ====
section
/-! DEFINITION. Plinth images: their layout, the checks in order, and what applying a section does (02_plinth_image R24 to R46;
12 R261; 18 R416, R419, R420; 19 R444; 24 R536). -/

namespace Sys2Proof.Machine

/-! ### Layout (R24 to R27) -/

/-- A section as found: type, body. -/
structure Sect where
  kind : Nat
  body : List Byte
  pad : Nat
  at_ : Nat
deriving DecidableEq, Repr

/-- Walk `n` sections from an offset: the sections and the offset after them, none where one overruns the image (R26). -/
def sectionsOf (b : List Byte) : Nat → Nat → Option (List Sect × Nat)
  | 0, o => some ([], o)
  | n + 1, o =>
    if b.length < o + 8 then none
    else
      let len := natAt b (o + 4) 4
      if b.length < o + 8 + len then none
      else match sectionsOf b n (o + 8 + len) with
        | none => none
        | some (t, e) => some ({ kind := natAt b o 2, body := bytesAt b (o + 8) len, pad := natAt b (o + 2) 2, at_ := o } :: t, e)

/-- The place of a section type in the table of R26. -/
def sectRank (k : Nat) : Nat := if k = 1 then 1 else if k = 2 then 2 else if k = 3 then 3 else if k = 0xFF then 4 else 0

/-- Types stand in the order of R26, PARTITION sections by rising ID. -/
def sectOrder : List Sect → Bool
  | a :: b :: t => (decide (sectRank a.kind < sectRank b.kind) || (a.kind == b.kind && (a.kind != 2 || decide (natAt a.body 0 1 < natAt b.body 0 1)))) &&
      sectOrder (b :: t)
  | _ => true

/-- Bytes `o` to `o + n` of a body are 0. -/
def zeroAt (b : List Byte) (o n : Nat) : Bool := allZero (bytesAt b o n)

/-- The layout of one section: its length and its reserved bytes (R26 to R33). -/
def sectOk (x : Sect) : Bool :=
  let b := x.body
  x.pad == 0 && b.length % 8 == 0 &&
  (match x.kind with
   | 1 => b.length == 48 && zeroAt b 0x0E 2 && zeroAt b 0x1C 4 && zeroAt b 0x28 8
   | 2 => b.length == 624 && zeroAt b 3 1 && zeroAt b 6 2 && zeroAt b 0x68 8 &&
       (List.range 16).all (fun k => if k < natAt b 2 1 then zeroAt b (0x70 + 32 * k + 0x19) 7 else zeroAt b (0x70 + 32 * k) 32)
   | 3 => b.length == 8 + 8 * natAt b 0 4 && zeroAt b 4 4 && (List.range (natAt b 0 4)).all (fun k => zeroAt b (8 + 8 * k + 4) 4)
   | 0xFF => b.length == 5456 && zeroAt b 5453 3
   | _ => false)

/-- A MODULE body (R28). -/
def moduleOf (b : List Byte) : PlnModule :=
  { nodeMode := natAt b 0 1, nodeId := natAt b 1 1, partnerMode := natAt b 2 1, partnerNode := natAt b 3 1, failbackHold := natAt b 4 4,
    armPortEn := natAt b 8 1, dramSpeed := natAt b 9 1, nrK := natAt b 0xA 1, nrFlags := natAt b 0xB 1, clearLink := natAt b 0xC 2,
    chPortMode := (List.range 12).map (fun n => natAt b (0x10 + n) 1), initTor := natAt b 0x20 8 }

/-- A PARTITION body (R30, R31). -/
def partitionOf (b : List Byte) : PlnPart :=
  { id := natAt b 0 1, pflags := natAt b 1 1, torCmp := natAt b 4 2, uuid := bytesAt b 8 16, name := bytesAt b 0x18 32,
    coreMap := natAt b 0x38 24, cacheWays := natAt b 0x50 2, chPorts := natAt b 0x52 2, subchBase := natAt b 0x54 4,
    subchCount := natAt b 0x58 4, keyBase := natAt b 0x5C 2, keyCount := natAt b 0x5E 2, hostPerm := natAt b 0x60 4,
    clkMin := natAt b 0x64 2, clkMax := natAt b 0x66 2,
    extents := (List.range (natAt b 2 1)).map (fun k =>
      { real := natAt b (0x70 + 32 * k) 8, size := natAt b (0x78 + 32 * k) 8,
        phys := natAt b (0x80 + 32 * k) 8, attr := natAt b (0x88 + 32 * k) 1 }) }

/-- A ROUTE body (R32): bit 0 of `RFLAGS` is `PIN`. R32 gives bits 7:1 no meaning and does not require them to be 0: they are ignored
(DESIGN CHOICE, log entry 74). -/
def routesOf (b : List Byte) : List PlnRoute :=
  (List.range (natAt b 0 4)).map (fun k =>
    { dest := natAt b (8 + 8 * k) 1, primary := natAt b (9 + 8 * k) 1, alt := natAt b (10 + 8 * k) 1, pin := (natAt b (11 + 8 * k) 1).testBit 0 })

/-- A SIGNATURE body (R33). -/
def sigOf (b : List Byte) : PlnSig := { keys := bytesAt b 0 2048, sigMl := bytesAt b 2048 3309, sigEc := bytesAt b 5357 96 }

/-- Read an image of which a full or a partial one is wanted: a result code of the checks up to the layout, or the image and its
sections (R36). The number of bytes staged must be the header's `LENGTH` too, or the result is `BAD_LENGTH` (DESIGN CHOICE, log entry
74). -/
def readImage (partialWanted : Bool) (b : List Byte) : Sum Nat (PlnImage × List Sect) :=
  let len := natAt b 8 4
  let flags := natAt b 6 2
  if natAt b 0 4 ≠ 0x504C4E54 then .inl 1
  else if natAt b 4 2 ≠ 1 then .inl 2
  else if len ≠ b.length then .inl 3
  else match sectionsOf b (natAt b 0xC 2) 64 with
    | none => .inl 3
    | some (xs, e) =>
      let n (k : Nat) : Nat := (xs.filter (fun x => x.kind == k)).length
      let part := flags.testBit 0
      let rot := flags.testBit 1
      if e ≠ len then .inl 3
      else if 3 < flags ∨ len % 8 ≠ 0 ∨ 0x100000 < len ∨ !zeroAt b 0xE 2 ∨ !zeroAt b 0x28 24 ∨ natAt b 0x18 8 = 0 ∨ part ≠ partialWanted ∨
          !xs.all sectOk ∨ !sectOrder xs ∨ 1 < n 1 ∨ (!part ∧ n 1 ≠ 1) ∨ 48 < n 2 ∨ (part ∧ n 2 = 0) ∨ 1 < n 3 ∨ n 0xFF ≠ (if rot then 2 else 1) then .inl 8
      else
        let bodies (k : Nat) : List (List Byte) := (xs.filter (fun x => x.kind == k)).map (·.body)
        let signedTo := ((xs.find? (fun x => x.kind == 0xFF)).map (·.at_)).getD 0
        .inr ({ isPartial := part, rotate := rot, serial := natAt b 0x10 8, generation := natAt b 0x18 8, buildTor := natAt b 0x20 8,
                mod_ := ((bodies 1).head?).map moduleOf, parts := (bodies 2).map partitionOf, routes := ((bodies 3).head?).map routesOf,
                sigs := (bodies 0xFF).map sigOf, signed := b.take signedTo }, xs)

/-! ### Signatures, generation (R33 to R37) -/

/-- Both signatures of a SIGNATURE section verify under its keys. -/
def sigOk (signed : List Byte) (x : PlnSig) : Bool :=
  Config.mldsaOk (x.keys.take 1952) signed x.sigMl && Config.ecdsaOk (x.keys.drop 1952) signed x.sigEc

/-- The owner key hash of a section (R34). -/
def sigOwner (x : PlnSig) : List Byte := sha384 x.keys

/-- Signatures and owner hash (R34, R35): a result code, 0 when they pass. Where several checks fail the first of this order is
reported: the first signature, its owner, the second signature, the slots (DESIGN CHOICE, log entry 74). -/
def sigCheck (i : PlnImage) (s : State) : Nat :=
  match i.sigs with
  | [] => 5
  | x :: t =>
    if !sigOk i.signed x then 5
    else if s.pln.owners ≠ [] ∧ sigOwner x ≠ ownerHash s then 6
    else if t.any (fun y => !sigOk i.signed y) then 5
    else if i.rotate ∧ 5 ≤ s.pln.owners.length then 0xD
    else 0

/-- The rollback floor of a full image (R37). -/
def rollbackFloor (s : State) : Nat := max s.pln.generation (s.pln.blown * 0x10000)

/-- Generation (R37). -/
def genCheck (i : PlnImage) (s : State) : Nat :=
  if i.isPartial then (if s.pln.generation < i.generation then 0 else 7)
  else if rollbackFloor s ≤ i.generation then 0 else 7

/-! ### Content (R29 to R32, R38; 12 R261) -/

/-- Cores of a map. -/
def mapCores (m : Nat) : Nat := ((List.range 192).filter (fun l => m.testBit l)).length

/-- An extent descriptor is permitted (R31). -/
def extentOk (e : Extent) : Bool :=
  e.real % 0x200000 == 0 && e.size % 0x200000 == 0 && e.size != 0 && decide (e.real + e.size ≤ 2 ^ 52) && e.phys % 0x200000 == 0 &&
  decide (e.phys < 2 ^ 58) && decide (physOfAddr e.phys + e.size ≤ 2 ^ 43) && decide (e.attr < 16)

/-- A MODULE section's values are in range (R28, R29). -/
def moduleOk (m : PlnModule) : Bool :=
  decide (m.nodeMode ≤ 1) && (m.nodeMode == 0 || decide (m.nodeId ≤ 63)) && decide (m.partnerMode ≤ 1) &&
  (m.partnerMode == 0 || (decide (m.partnerNode ≤ 63) && !(m.nodeMode == 1 && m.partnerNode == m.nodeId))) &&
  decide (1 ≤ m.failbackHold ∧ m.failbackHold ≤ 3600) && decide (m.dramSpeed ≤ 2) && decide (8 ≤ m.nrK ∧ m.nrK ≤ 16) && decide (m.nrFlags ≤ 1) &&
  decide (m.clearLink < 4096) && m.chPortMode.all (fun x => decide (x < 8) && x % 4 != 3)

/-- The section deletes its partition. -/
def isDelete (d : PlnPart) : Bool := d.pflags.testBit 0

/-- A name is ASCII, and 0x00 from its first 0x00 on (R30). -/
def nameOk : List Byte → Bool
  | [] => true
  | c :: t => if c = 0 then allZero t else decide (c.toNat < 128) && nameOk t

/-- A PARTITION section's values are in range (R29 to R31). -/
def partOk (d : PlnPart) : Bool :=
  nameOk d.name &&
  decide (d.id ≤ 47) && decide (d.pflags < 8) && decide (d.extents.length ≤ 16) && (d.extents.length != 0 || isDelete d) &&
  decide (d.torCmp ≤ 4 * mapCores d.coreMap) && !allZero d.uuid && d.cacheWays != 0 && decide (d.chPorts < 4096) && decide (d.subchBase ≤ 262143) &&
  decide (1 ≤ d.subchCount ∧ d.subchCount ≤ 65536) && decide (d.keyBase ≤ 4095) && decide (d.keyCount ≤ 4096) && decide (d.hostPerm < 8) &&
  decide (1000 ≤ d.clkMin ∧ d.clkMin ≤ 4400) && decide (d.clkMin ≤ d.clkMax ∧ d.clkMax ≤ 4400) && d.extents.all extentOk

/-- Two ranges share a number. -/
def meet (a n b m : Nat) : Bool := decide (0 < n) && decide (0 < m) && decide (a < b + m) && decide (b < a + n)

/-- Every pair of a list satisfies a test. -/
def pairsAll {α : Type} (p : α → α → Bool) : List α → Bool
  | [] => true
  | x :: t => t.all (p x) && pairsAll p t

/-- Extents of a partition that overlap in neither address. -/
def ownExtents (xs : List Extent) : Bool :=
  pairsAll (fun a b => !meet a.real a.size b.real b.size && !meet a.phys a.size b.phys b.size) xs

/-- Two partitions share nothing (R38). -/
def partsApart (a b : PlnPart) : Bool :=
  a.coreMap &&& b.coreMap == 0 && !meet a.subchBase a.subchCount b.subchBase b.subchCount && !meet a.keyBase a.keyCount b.keyBase b.keyCount &&
  a.extents.all (fun x => b.extents.all (fun y => !meet x.phys x.size y.phys y.size))

/-- The bands of a node that an extent touches, with its `ILV8` (12 R261). -/
def bandsOf (e : Extent) : List (Nat × Bool) :=
  let lo := e.phys / 2 ^ 34
  let hi := (e.phys + e.size - 1) / 2 ^ 34
  (List.range (hi + 1 - lo)).map (fun k => (lo + k, e.attr.testBit 2))

/-- The placement rules of interleaved extents (12 R261). -/
def bandsOk (xs : List Extent) : Bool :=
  pairsAll (fun a b => a.1 != b.1 || a.2 == b.2) (xs.flatMap bandsOf) &&
  xs.all (fun e => !e.attr.testBit 2 ||
    ((bandsOf e).all (fun b =>
      let half := b.1 * 2 ^ 34 + (if e.attr.testBit 3 then 2 ^ 33 else 0)
      let lo := max e.phys (b.1 * 2 ^ 34)
      let hi := min (e.phys + e.size) ((b.1 + 1) * 2 ^ 34)
      decide (half ≤ lo ∧ hi ≤ half + 2 ^ 33))))

/-- The clock bounds of a cluster (R39): the highest floor and the lowest ceiling of the partitions that own its cores. -/
def clkRange (ps : List PlnPart) (c : Nat) : Option (Nat × Nat) :=
  match ps.filter (fun d => (d.coreMap >>> (16 * c)) % 65536 != 0) with
  | [] => none
  | d :: t => some ((t.map (·.clkMin)).foldl max d.clkMin, (t.map (·.clkMax)).foldl min d.clkMax)

/-- The partitions that the image leaves, with those that it changes (R38). -/
def partsAfter (i : PlnImage) (s : State) : List PlnPart :=
  let kept := if i.isPartial then s.pln.parts.filterMap (fun e => e.2.filter (fun d => !i.parts.any (fun x => x.id == d.id))) else []
  kept ++ i.parts.filter (fun d => !isDelete d)

/-- The content checks (R36): 8, 9 or 0xA, 0 when they pass. A ROUTE entry whose destination is no node ID gives 8 (DESIGN CHOICE, log entry
100). -/
def contentCheck (i : PlnImage) (s : State) : Nat :=
  let m := i.mod_.orElse (fun _ => s.pln.module_)
  let en := (m.map (·.armPortEn)).getD 0
  let roles := (m.map (·.chPortMode)).getD []
  let ps := partsAfter i s
  if !(i.mod_.all moduleOk) || !i.parts.all partOk ||
      !(i.routes.all (fun rs => decide (1 ≤ rs.length ∧ rs.length ≤ 64) && rs.all (fun r =>
          decide (r.dest ≤ 63) && decide (r.primary ≤ 7) && en.testBit r.primary && (r.alt == 0xFF || (decide (r.alt ≤ 7) && en.testBit r.alt))))) then 8
  else if !pairsAll partsApart ps || ps.any (fun d => mapCores d.coreMap == 0 || !ownExtents d.extents ||
      decide (16 < ((d.extents.map (fun e => nodeOfAddr e.phys)).eraseDups).length) ||
      decide (262144 < d.subchBase + d.subchCount) || decide (4096 < d.keyBase + d.keyCount) ||
      (List.range 12).any (fun n => d.chPorts.testBit n && roles.getD n 0 % 4 == 0)) || !bandsOk (ps.flatMap (·.extents)) then 9
  else if (List.range 12).any (fun c => match clkRange ps c with | some r => decide (r.2 < r.1) | none => false) then 0xA
  else 0

/-- The checks of R36 in order: the first failure, or the image. -/
def checkImage (partialWanted : Bool) (b : List Byte) (s : State) : Sum Nat PlnImage :=
  match readImage partialWanted b with
  | .inl c => .inl c
  | .inr (i, _) =>
    if i.serial ≠ Config.serial.toNat then .inl 4
    else if sigCheck i s ≠ 0 then .inl (sigCheck i s)
    else if genCheck i s ≠ 0 then .inl 7
    else if contentCheck i s ≠ 0 then .inl (contentCheck i s)
    else .inr i

/-! ### What the entry to APPLYING checks (R44 to R46) -/

/-- A MODULE section of a partial image changes a field that is not live (R28, R45). -/
def notLive (m old : PlnModule) : Bool :=
  m.nodeMode != old.nodeMode || m.nodeId != old.nodeId || m.partnerMode != old.partnerMode || m.partnerNode != old.partnerNode ||
  m.armPortEn != old.armPortEn || m.dramSpeed != old.dramSpeed || m.chPortMode != old.chPortMode || m.initTor != old.initTor

/-- Some subchannel in a test's range is STATUS_PENDING. -/
def pendingSub (p : Nat → Bool) (s : State) : Bool := s.jnl.e.any (fun e => !e.2.mirror && e.2.state == 5 && p e.1)

/-- A range of module subchannels holds an index. -/
def inSubs (d : PlnPart) (i : Nat) : Bool := decide (d.subchBase ≤ i) && decide (i < d.subchBase + d.subchCount)

/-- A PARTITION section may be applied now (R44, R46). -/
def sectionReady (d : PlnPart) (s : State) : Bool :=
  let st := pstateOf d.id s
  (st == .undefined || st == .stopped || st == .checkstopped) &&
  (match partOf d.id s with
   | none => true
   | some o =>
     if isDelete d || d.uuid != o.uuid then !pendingSub (inSubs o) s
     else !pendingSub (fun i => inSubs o i && !inSubs d i) s)

/-- The checks at the first cycle of APPLYING of a partial image: 0 when they pass. Where both fail, `FIELD_NOT_LIVE` is reported
(DESIGN CHOICE, log entry 74). -/
def applyCheck (i : PlnImage) (s : State) : Nat :=
  if (match i.mod_, s.pln.module_ with | some m, some old => notLive m old | _, _ => false) then 0xB
  else if i.parts.any (fun d => !sectionReady d s) then 0xC else 0

/-! ### Applying (R43, R45, R46) -/

/-- What some extents leave of a range of physical addresses. -/
def cutRange (a n : Nat) : List Extent → List (Nat × Nat)
  | [] => if n = 0 then [] else [(a, n)]
  | e :: t =>
    let lo := max a (min (a + n) e.phys)
    let hi := min (a + n) (max lo (e.phys + e.size))
    if e.phys + e.size ≤ a ∨ a + n ≤ e.phys then cutRange a n t else cutRange a (lo - a) t ++ cutRange hi (a + n - hi) t

/-- What lies in some extents and not in others. -/
def cutExtents (xs ys : List Extent) : List (Nat × Nat) := xs.flatMap (fun e => cutRange e.phys e.size ys)

/-- Bytes of this module's storage return data unrelated to what they were, under a new key (18 R420): free values. -/
def scramble (rs : List (Nat × Nat)) (s : State) : State :=
  rs.foldl (fun s r => if isLocal r.1 s then rekeyRange { base := r.1, size := r.2, key := some s.free } { s with free := s.free + 1 } else s) s

/-- Every cached copy of the lines that satisfy a test is written back and dropped. -/
def flushLines (p : Nat → Bool) (s : State) : State :=
  let s := writeBackIf (fun a _ => p a) s
  onCores (fun _ => true) (fun c =>
    let gone := ((cacheLines c.l2 ++ cacheLines c.l1i ++ cacheLines c.l1d).filter (fun ln => p (ln * 128))).eraseDups
    gone.foldl (fun c ln => dropFromCore ln c) c) s

/-- An address lies in one of some extents. -/
def inExtents (xs : List Extent) (a : Nat) : Bool := xs.any (fun e => decide (e.phys ≤ a) && decide (a < e.phys + e.size))

/-- A partition has an extent on this module. -/
def homedHere (d : PlnPart) (s : State) : Bool := d.extents.any (fun e => isLocal e.phys s)

/-- A storage key is generated (18 R419): 64 bytes from the module's DRBG. -/
def genStorageKey (p : Nat) (s : State) : State :=
  let r := drawBytes (drbgCount 48 s) 64
  { r.2 with tr := { r.2.tr with storageKey := tset none p (some r.1) r.2.tr.storageKey,
                                 keyGen := if p < 48 then tmod 0 p (fun n => satAdd 32 n 1) r.2.tr.keyGen else r.2.tr.keyGen } }

/-- A storage key is replaced: what was written under the old one is unrelated data (18 R419, R420). -/
def replaceKey (p : Nat) (xs : List Extent) (s : State) : State :=
  genStorageKey p (scramble (cutExtents xs []) (flushLines (inExtents xs) s))

/-- The copies of remote lines that satisfy a test leave the module. -/
def releaseRange (p : Nat → Bool) (s : State) : State :=
  (s.arm.rlines.map (·.1)).foldl (fun s ln => if p (ln * 128) then releaseRemote ln .service none s else s) s

/-- A range of physical addresses holds an address. -/
def inRanges (rs : List (Nat × Nat)) (a : Nat) : Bool := rs.any (fun r => decide (r.1 ≤ a) && decide (a < r.1 + r.2))

/-- Physical ranges are zeroed (R46; 18 R420): what of them lies on this module. No copy of them stays in a cache, nor in this module of
lines whose home is another. -/
def zeroRanges (rs : List (Nat × Nat)) (s : State) : State :=
  let s := if rs.isEmpty then s else releaseRange (inRanges rs) (flushLines (inRanges rs) s)
  rs.foldl (fun s r => if isLocal r.1 s then rekeyRange { base := r.1, size := r.2, key := none } s else s) s

/-- The physical ranges that leave their partitions with some PARTITION sections (R46). -/
def rangesLeft (ds : List PlnPart) (s : State) : List (Nat × Nat) :=
  ds.flatMap (fun d => match partOf d.id s with
    | some o => cutExtents o.extents (if isDelete d then [] else d.extents)
    | none => [])

/-- The sections of a full image (R43): those of the partitions that it does not name delete them. -/
def fullSections (i : PlnImage) (s : State) : List PlnPart :=
  let gone := (partIds s).filter (fun p => !i.parts.any (fun d => d.id == p && !isDelete d))
  gone.filterMap (fun p => (partOf p s).map (fun o => { o with pflags := 1 })) ++ i.parts.filter (fun d => !isDelete d)

/-- The ranges that are zeroed where another module is their home (R46): it is sent zeros for them before APPLYING ends. One whose home is
no member of the fabric is out of reach (DEDUCED, log entry 76). -/
def awayRanges (rs : List (Nat × Nat)) (s : State) : List (Nat × Nat) := rs.filter (fun r => !isLocal r.1 s)

/-- Zeroing at other homes begins: the copies that are here go home first. -/
def zeroAway (rs : List (Nat × Nat)) (s : State) : State :=
  let rs := awayRanges rs s
  if rs.isEmpty then s
  else
    let s := releaseRange (inRanges rs) (flushLines (inRanges rs) s)
    { s with pln := { s.pln with zero := rs } }

/-- Other modules give up the lines of this home that leave a partition, before they are zeroed (R46; 14 R320). -/
def callBack (rs : List (Nat × Nat)) (s : State) : State :=
  (s.arm.dir.flatMap (fun e => e.2)).foldl (fun s e => if inRanges rs (e.line * 128) ∧ e.holders ≠ 0 then askHome (e.line * 128) true s else s) s

/-- Nothing that other modules hold keeps ranges from being zeroed. -/
def zeroReady (rs : List (Nat × Nat)) (s : State) : Bool :=
  s.pln.zero.isEmpty && !agentPending .service s &&
  !(s.arm.dir.flatMap (fun e => e.2)).any (fun e => inRanges rs (e.line * 128) && e.holders != 0) &&
  !s.arm.txn.any (fun e => e.2.isSome && inRanges rs (e.1 * 128))

/-- A queue pair is released by force (24 R536, R545): its queue is disabled, its held record discarded, and it is FREE; its
running job posts its record first. -/
def forceRelease (q : Nat) (s : State) : State :=
  match qpBlock q s with
  | none => s
  | some b =>
    let s := if (queueOf b q s).state = 0 then s else disableQueue b q s
    let s := if (queueOf b q s).busy then
        match b with
        | .rasp => (List.range 8).foldl (fun s k => if (raspOf k s).job.any (fun j => j.queue == q) then raspEnd k false s else s) s
        | .intaglio => (List.range 8).foldl (fun s k => if (intOf k s).job.any (fun j => j.queue == q) then intEnd k none s else s) s
        | .mailbox => s
      else s
    pf1Vector 128 (setQp q { (qpOf q s) with kind := 0, owner := none } s)

/-- The queue pairs of a partition that a test names are released by force. -/
def forceReleases (p : Nat) (want : Nat → Bool) (s : State) : State :=
  (List.range 64).foldl (fun s q => if (qpOf q s).owner = some p ∧ want (qpOf q s).kind then forceRelease q s else s) s

/-- A kind of queue pair needs this bit of `HOST_PERM` (24 R536). -/
def kindPerm (k : Nat) : Nat := if k = 3 then 1 else 2

/-- A grant of a partition ends (26 R576). -/
def endGrant (p : Nat) (s : State) : State :=
  let cut (x : MqSession) : MqSession := match x.grant with | some (.partition q, _) => if q = p then { x with grant := none } else x | _ => x
  { s with mq := { s.mq with uart := cut s.mq.uart, mbx := cut s.mq.mbx } }

/-- The occupant of an ID leaves (R46): its publications, queue pairs, key slots and grant go with it. -/
def occupantLeaves (p : Nat) (s : State) : State :=
  let u := uuidOf p s
  let s := disableOwnQueues p true (withdrawPubs p s)
  let s := forceReleases p (fun _ => true) s
  let s := destroySlots (fun i k => k.uuid == u && slotInRange p i s) (fun q _ => q == p) s
  endGrant p s

/-- Set the definition of a partition. -/
def setPart (p : Nat) (d : Option PlnPart) (s : State) : State := { s with pln := { s.pln with parts := tset none p d s.pln.parts } }

/-- Where an existing partition stands after its section (R42, R43). A CHECKSTOPPED one, for which R46 and 21 R488 name no state,
becomes STOPPED, by way of STOPPING while its subchannels are busy (DESIGN CHOICE, log entry 74). -/
def stateAfter (p : Nat) (s : State) : State :=
  setPState p (if pstateOf p s = .checkstopped ∧ !subsIdle p s then .stopping else .stopped) s

/-- A new DRBG instance for a defined partition (18 R421). -/
def seedDrbg (inst : Nat) (s : State) : State :=
  { s with tr := { s.tr with drbg := tset {} inst { requests := 0, seeded := s.tor.tor, reseeds := 0 } s.tr.drbg } }

/-- The refusal after a grant of control level lasts until another `UUID` is applied (18 R427). -/
def endDebug (p : Nat) (uuid : List Byte) (s : State) : State :=
  if tget [] p s.tr.debugUuid = uuid then s
  else { s with tr := { s.tr with debug := tset false p false s.tr.debug, debugUuid := tset [] p [] s.tr.debugUuid } }

/-- One PARTITION section takes effect (R43, R46; 17 R402; 18 R419, R420, R427; 19 R444). -/
def applySection (d : PlnPart) (s : State) : State :=
  let p := d.id
  match partOf p s with
  | none =>
    if isDelete d then s
    else
      let s := endDebug p d.uuid (disableOwnQueues p true s)
      let s := setPState p .stopped (seedDrbg p (setPart p (some d) s))
      if homedHere d s then replaceKey p d.extents s else s
  | some o =>
    if isDelete d then
      let s := occupantLeaves p s
      let s := setPState p .undefined (setPart p none s)
      { s with tr := { s.tr with storageKey := tdel p s.tr.storageKey, drbg := tdel p s.tr.drbg } }
    else if d.uuid ≠ o.uuid then
      let s := endDebug p d.uuid (occupantLeaves p s)
      let s := stateAfter p (seedDrbg p (setPart p (some d) s))
      if homedHere d s then replaceKey p d.extents s else { s with tr := { s.tr with storageKey := tdel p s.tr.storageKey } }
    else
      let s := forceReleases p (fun k => o.hostPerm.testBit (kindPerm k) && !d.hostPerm.testBit (kindPerm k)) s
      let cut (i : Nat) : Bool := decide (o.keyBase ≤ i ∧ i < o.keyBase + o.keyCount) && !decide (d.keyBase ≤ i ∧ i < d.keyBase + d.keyCount)
      let s := destroySlots (fun i k => k.uuid == o.uuid && cut i) (fun q i => q == p && cut i) s
      let first := homedHere d s && !homedHere o s
      let s := stateAfter p (setPart p (some d) s)
      -- a range that was under another key is no plaintext under this one
      if first then replaceKey p d.extents s else scramble (cutExtents d.extents o.extents) (flushLines (inRanges (cutExtents d.extents o.extents)) s)

/-- PARTITION sections take effect, and the ranges that leave a partition are zeroed, under the key of the one that they come to
(R46; 18 R420). -/
def applySections (ds : List PlnPart) (s : State) : State :=
  zeroRanges (rangesLeft ds s) (ds.foldl (fun s d => applySection d s) s)

/-- Where a list of extents maps a partition real address. -/
def mapsTo (xs : List Extent) (a : Nat) : Option Nat :=
  (xs.find? (fun e => decide (e.real ≤ a) && decide (a < e.real + e.size))).map (fun e => e.phys + (a - e.real))

/-- The queues that lose the extent of a ring are wiped (17 R402): one that is replaced at its address is lost too. -/
def ringLost (d : PlnPart) (s : State) : Bool :=
  let p := d.id
  let gone (a n : Nat) : Bool := (pieces a n).any (fun q => (armOf p q.1 s).isSome && mapsTo d.extents q.1 != armOf p q.1 s)
  (List.range 4).any (fun k => [QBlock.rasp, QBlock.intaglio].any (fun b =>
    let v := queueOf b (64 + 4 * p + k) s
    v.size != 0 && (gone v.sqBase (v.n * 64) || gone v.cqBase (v.n * 32))))

/-- The queues of the partitions that an image names are disabled at the start of APPLYING (17 R402). -/
def quiesceQueues (ds : List PlnPart) (s : State) : State :=
  ds.foldl (fun s d =>
    let wipe := match partOf d.id s with | some o => isDelete d || d.uuid != o.uuid || ringLost d s | none => true
    disableOwnQueues d.id wipe s) s

/-- The clock of each cluster whose range has changed: 2,000 MHz, or the bound nearer to it (25 R556). -/
def setClocks (before : List PlnPart) (s : State) : State :=
  let now := s.pln.parts.filterMap (·.2)
  (List.range 12).foldl (fun s c =>
    match clkRange now c with
    | none => s
    | some r => if clkRange before c = some r then s
      else { s with pwr := { s.pwr with clk := tset 2000 c (max r.1 (min r.2 2000)) s.pwr.clk } }) s

/-- The fuses, the owner hash and the measurement of an applied image (R34, R35, R37; 18 R416). -/
def recordImage (i : PlnImage) (b : List Byte) (s : State) : State :=
  let hs := i.sigs.map sigOwner
  let owners := if s.pln.owners = [] then hs.take 5 else (s.pln.owners ++ hs.drop 1).take 5
  let meas := if i.isPartial then sha384 (s.tr.meas ++ sha384 b) else sha384 b
  { s with pln := { s.pln with generation := i.generation, blown := max s.pln.blown (min 64 (i.generation / 0x10000)), owners := owners },
           tr := { s.tr with meas := meas } }

/-- `NR_K` and `NR_FLAGS` reach every controller, and `NR_K` sets `K_EFF` at every MODULE section, changed or not (R45; 12 R274;
DEDUCED, log entry 74). -/
def setNeighbour (m : PlnModule) (s : State) : State :=
  { s with dram := (List.range 16).foldl (fun t n => tmod {} n (fun d => { d with k := m.nrK, kEff := m.nrK, row2 := m.nrFlags.testBit 0 }) t) s.dram }

/-- The first partition has been applied: the start window of TOR closes (03 R69), and SPEED is over (12 R277). -/
def closeWindow (s : State) : State :=
  if s.pln.parts = [] then s else { s with tor := { s.tor with window := false }, pln := { s.pln with applied := true } }

/-- Every clear link on a channel port whose `CLEAR_LINK` bit is withdrawn goes DOWN (R45). -/
def dropClear (old new : Nat) (s : State) : State :=
  (List.range 12).foldl (fun s n => if old.testBit n && !new.testBit n && (linkOf (.ch n) s).clear then linkDown (.ch n) s else s) s

/-- A ROUTE section is in force: no override of it has lapsed or is installed yet (14 R308). -/
def newRoutes (r : List PlnRoute) (s : State) : State :=
  { s with pln := { s.pln with routes := r }
           arm := { s.arm with lapsed := [], routes := s.arm.routes.map (fun (e : Nat × Route) => (e.1, { e.2 with fixed := false })) } }

/-- A partial image takes effect (R45, R46, R48). -/
def applyPartial (i : PlnImage) (b : List Byte) (s : State) : State :=
  let before := s.pln.parts.filterMap (·.2)
  let s := applySections i.parts s
  let s := match i.mod_, s.pln.module_ with
    | some m, some old =>
      let s := { s with pln := { s.pln with module_ := some m } }
      let s := setNeighbour m s
      dropClear old.clearLink m.clearLink s
    | _, _ => s
  let s := match i.routes with | some r => newRoutes r { s with arm := { s.arm with change := true } } | none => s
  announceChange (closeWindow (setClocks before (recordImage i b s)))

/-- The partitions of a full image take their places (R43): those that it does not name leave. -/
def adoptParts (i : PlnImage) (s : State) : State := applySections (fullSections i s) s

/-- Every defined partition is STOPPED, and those with `AUTOSTART` start (R43). -/
def startAll (s : State) : State :=
  let s := (partIds s).foldl (fun s p => setPState p .stopped s) s
  (partIds s).foldl (fun s p => match partOf p s with
    | some d => if d.pflags.testBit 1 then (startInto p s).getD s else s
    | none => s) s

end Sys2Proof.Machine
end

