-- ==== Sys2Proof/Machine/OpsHost.lean ====
section
/-! DEFINITION. Resets of the host port and its functions, and Bus Master Enable (24_host_port R542 to R545). -/

namespace Sys2Proof.Machine

/-- The queue of a queue pair becomes DISABLED; a running job's record will be discarded (R543). -/
def resetPair (q : Nat) (s : State) : State :=
  match qpBlock q s with
  | none => s
  | some b => disableQueue b q (modQueue b q (fun v => { v with drop := v.drop || v.busy }) s)

/-- A function as its reset leaves it while the reset lasts: counters kept. -/
def resetFn (f : HostFn) : HostFn := { flr := true, late := f.late, ur := f.ur, dropped := f.dropped }

/-- A function reset begins (R543): PF0, or PF1 with its requests, queues and windows. -/
def fnReset (fn : Nat) (s : State) : State :=
  if fn = 0 then { s with pf0 := resetFn s.pf0 }
  else
    let s := (List.range 64).foldl (fun s q => resetPair q s) s
    { s with pf1 := resetFn s.pf1, hp := { s.hp with shadow := [], win := [], req := [] } }

/-- The host link goes down, and with it both functions are reset (R542): it stays down while PERST_N is asserted or HP_CLK is lost,
and is retrained otherwise. -/
def hostDown (s : State) : State :=
  let s := fnReset 1 (fnReset 0 s)
  { s with hp := { s.hp with state := if s.hp.perst || s.pin.hpLost then 0 else 1, rate := 0, width := 0, flit := false } }

/-- Bus Master Enable is cleared (R544): every ENABLED queue of PF1 enters PAUSED with `MASTER_DISABLED`. -/
def masterOff (s : State) : State :=
  (List.range 64).foldl (fun s q => match qpBlock q s with
    | some b => if (queueOf b q s).state = 1 then pauseQueue b q 3 s else s
    | none => s) s

end Sys2Proof.Machine
end

