-- ==== Sys2Proof/Machine/DuplexCmd.lean ====
section
/-! DEFINITION. The commands of the duplex pair: heartbeats sent, received and missed, the hold-down and failback
(22_duplex R500 to R511, R601). -/

namespace Sys2Proof.Machine

/-- This module exchanges heartbeats: it runs, and a partner is configured. -/
def hbRuns (s : State) : Bool := operating s && partnerOn s

/-- The last due time (R500). -/
def hbDue (s : State) : Nat := s.tor.tor / hbPeriod * hbPeriod

/-- The heartbeats of a due time leave on both paths (R500, R501). -/
def sendHeartbeats (s : State) : State :=
  let b := hbBody (hbDue s) s
  let s := { s with dx := { s.dx with sentAt := hbDue s } }
  let s := match partnerPort s with | some p => sendMgt p b s | none => s
  partnerTold (emit (.hbFrame (0xBC :: b ++ beBytes 2 (crc16 b))) s)

/-- HEARTBEAT_SEND: once for each due time. -/
def execHeartbeatSend (s : State) : Host.Outcome State Fault Refusal :=
  if hbRuns s && s.dx.sentAt != hbDue s then done s (sendHeartbeats s) else .next s

/-- A body is valid (R501): reserved bits 0, and the sender is the partner. -/
def hbValid (l0 : Long) (s : State) : Bool := fld l0 49 0 == 0 && fld l0 63 58 == partnerNode s

/-- The heartbeat due at `due` arrives on a path: it counts until 5 µs after that time (R502). -/
def hbArrive (p : HbPath) (due : Nat) (s : State) : State :=
  let h := { hbOf p s with seen := true }
  if due % hbPeriod = 0 ∧ h.due ≤ due ∧ s.tor.tor ≤ due + hbLate ∧ h.due ≠ 0 ∧ !h.arrived.contains due then
    setHb p (hbAdvance (h.arrived.length + 1) { h with arrived := due :: h.arrived }) s
  else setHb p h s

/-- `RELEASED` reaches the returned module in HOLDDOWN (R509): it drives its active ports; unless it is itself a holder, the failback
is over for it. -/
def hbReleased (s : State) : State :=
  if s.dx.state = 5 ∧ s.dx.heldByPartner then
    let s := driveActive (fun _ => true) { s with dx := { s.dx with heldByPartner := false } }
    if holder s ∨ s.dx.released then s else failedBack false s
  else s

/-- The survivor's ports are released, and its partner has taken them: the failback is complete (R509). -/
def hbTaken (dstate : Nat) (released : Bool) (s : State) : State :=
  if s.dx.released ∧ (dstate = 2 ∨ released) then failedBack true s else s

/-- `HOLDING` (R601): as the partner says it until this module has decided which ports it drives; later only a new hold counts. -/
def hbHolding (holding : Bool) (s : State) : State :=
  { s with dx := { s.dx with heldByPartner := holding || (s.pwr.phase == .ready && s.dx.heldByPartner) } }

/-- The partner runs and the pair is not in service: this module sends its part of the pairing exchange (16 R377; R506, R507). -/
def hbPairing (s : State) : State :=
  if (s.dx.state = 1 ∨ s.dx.state = 3) ∧ s.pln.state = .applied then sendPairing s else s

/-- What a heartbeat says (R501 to R509). -/
def heartbeat (p : HbPath) (l0 : Long) (due : Nat) (s : State) : State :=
  let s := hbArrive p due s
  if lbit l0 53 then declareFailed s
  else
    let s := if lbit l0 52 ∧ partnerNode s < s.arm.node.getD 0 then raise srcDuplex 0x10 none 0 s else s
    let s := hbHolding (lbit l0 50) s
    let s := if lbit l0 51 then hbReleased s else s
    hbPairing (hbTaken (fld l0 57 54) (lbit l0 51) s)

/-- HEARTBEAT. -/
def execHeartbeat (p : HbPath) (l0 l1 : Long) (s : State) : Host.Outcome State Fault Refusal :=
  if hbRuns s && hbValid l0 s then done s (heartbeat p l0 l1.toNat s) else .next s

/-- The heartbeat due on a path has not come 5 µs after its time (R502). -/
def hbMissed (p : HbPath) (s : State) : Bool :=
  (hbOf p s).due != 0 && decide ((hbOf p s).due + hbLate ≤ s.tor.tor)

/-- A path fault: three misses in a row here, while the other path delivers (R502). -/
def pathFault (p : HbPath) (s : State) : State :=
  let h := hbOf p s
  raise srcDuplex 0x08 none 0 (setHb p { h with faults := satAdd 16 h.faults 1 } s)

/-- A miss (R502, R503). -/
def heartbeatMiss (p : HbPath) (s : State) : State :=
  let h := hbOf p s
  let h := { h with due := h.due + hbPeriod, run := h.run + 1, ok := false, miss := satAdd 16 h.miss 1 }
  let s := setHb p (hbAdvance h.arrived.length h) s
  if 3 ≤ h.run ∧ 3 ≤ (hbOf (otherPath p) s).run then declareFailed s
  else if h.run % 3 = 0 ∧ (hbOf (otherPath p) s).ok then pathFault p s
  else s

/-- HEARTBEAT_MISS. -/
def execHeartbeatMiss (p : HbPath) (s : State) : Host.Outcome State Fault Refusal :=
  if hbRuns s && hbMissed p s then done s (heartbeatMiss p s) else .next s

/-- The hold-down has run out and nothing holds the failback back (R508, R509). -/
def holdOver (s : State) : Bool :=
  s.dx.state == 5 && holder s && s.dx.holdEnd != 0 && decide (s.dx.holdEnd ≤ s.tor.tor) && !s.dx.inhibit

/-- HOLDDOWN_EXPIRY. -/
def execHolddownExpiry (s : State) : Host.Outcome State Fault Refusal :=
  if operating s && holdOver s then done s (releasePorts s) else .next s

/-- `DX_CMD` (R511): FAILBACK_NOW, or another value. -/
def dxCommand (cmd : Nat) (s : State) : State :=
  if cmd = 1 ∧ s.dx.state = 5 ∧ holder s then releasePorts { s with dx := { s.dx with lastResult := 0 } }
  else { s with dx := { s.dx with lastResult := 0x0C } }

/-- FAILBACK_NOW. -/
def execFailbackNow (v : View) (s : State) : Host.Outcome State Fault Refusal :=
  if admin v s && operating s then done s (dxCommand 1 s) else .next s

/-- A write of `DX_CTL.INHIBIT_FB` (R509, R511): a failback that waited for it begins. -/
def setInhibit (on : Bool) (s : State) : State :=
  let s := { s with dx := { s.dx with inhibit := on } }
  if holdOver s then releasePorts s else s

end Sys2Proof.Machine
end

