-- ==== Sys2Proof/Machine/FaultCmd.lean ====
section
/-! DEFINITION. The commands of fault collection (21_fault_collection R476 to R495) and of recast (20_retry_recast R465 to R475). -/

namespace Sys2Proof.Machine

/-- A core has data of a line that its home has not: dirty in its caches, or in its store buffer (20 R460, R461). -/
def coreOwes (line l : Nat) (s : State) : Bool :=
  lineDirty line (fun d => d.core == l) s || (coreOf l s).sb.any (fun e => lineOf e.addr == line) ||
  [(coreOf l s).held1, (coreOf l s).held2].any (fun t => (tget none line t).any (·.dirty))

/-- Uncorrectable data in the arrays of a slot or of a shared-cache slice, of the line at `detail` (R478, R480): what is only there is
marked poisoned (11 R253), and a clean copy of a core is invalidated (20 R460). -/
def arrayPoison (src code detail : Nat) (s : State) : State :=
  let line := lineOf detail
  let ls := (s.cpu.core.map (·.1)).filter (fun l => slotOf l s == src && decide (src ≤ 0xCB))
  if code ≠ 3 then s
  else if (decide (0xE0 ≤ src ∧ src ≤ 0xFF) && isLocal detail s) || ls.any (fun l => coreOwes line l s) then poisonLine line s
  else ls.foldl (fun s l => modCore l (dropFromCore line) s) s

/-- FAULT_EVENT (R478, R483, R485): a source reports an event; without power nothing reports. -/
def execFaultEvent (src code : Nat) (part : Option Nat) (detail : Long) (holds : Bool) (s : State) : Host.Outcome State Fault Refusal :=
  if operating s ∧ isSource src = true ∧ 1 ≤ code ∧ code ≤ 0x10 then
    done s (raiseClass (eventClass code) src code (part.filter (fun p => decide (p < 48))) detail.toNat holds (arrayPoison src code detail.toNat s))
  else .next s

/-- REPORTING_PATH_FAULT (R481): event 0x0A at the die's collector, and the reporter is read as reporting its error. -/
def execReportingPathFault (die reporter code : Nat) (part : Option Nat) (s : State) : Host.Outcome State Fault Refusal :=
  if operating s ∧ die < 6 ∧ isSource reporter = true ∧ 1 ≤ code ∧ code ≤ 0x10 then
    done s (raise reporter code (part.filter (fun p => decide (p < 48))) 0 (raise (srcDie die) 0x0A none reporter s))
  else .next s

/-- The next step of a source's chain that is not skipped (R486). -/
def nextStep (i : Nat) (s : State) : Option Nat :=
  let st := fltStatus i s
  (stepsAfter (chainOf (reactOf i s) st.cls) st.step).find? (fun k =>
    (k != 1 || (fenceable i s && !st.fenced)) && (k != 2 || st.part != 0x3F))

/-- The end of a source's grace time, none where no timer runs for a pending event (R486). -/
def graceEnd (src : Nat) (s : State) : Option Nat :=
  let st := fltStatus src s
  if st.pending then st.timer.map (fun t => t + fld (reactOf src s) 55 32 * ticksUs) else none

/-- The grace time has run out (R486): the next step of the chain is taken, and the timer restarts until the last step. -/
def graceOver (src : Nat) (s : State) : State :=
  let st := fltStatus src s
  match nextStep src s with
  | none => setFlt src { st with timer := none } s
  | some k =>
    let last := decide ((chainOf (reactOf src s) st.cls).2 ≤ k)
    makeDue src st.part [k] (setFlt src { st with timer := if last then none else some s.tor.tor } s)

/-- GRACE_EXPIRY. -/
def execGraceExpiry (src : Nat) (s : State) : Host.Outcome State Fault Refusal :=
  if operating s ∧ (graceEnd src s).any (fun t => decide (t ≤ s.tor.tor)) = true then done s (graceOver src s) else .next s

/-- A view may clear a source: an administrator, or the partition that its status names (R495). -/
def mayClear (v : View) (src : Nat) (s : State) : Bool :=
  admin v s || (match v with | .part p => (fltStatus src s).part == p | _ => false)

/-- The condition that raised a source's event still holds (R484): as reported, or as this module's state shows it: an entropy source that
has failed, a module in thermal throttle (18 R421; 25 R552). -/
def condHolds (src : Nat) (s : State) : Bool :=
  let st := fltStatus src s
  st.holds || (src == srcEntropy false && st.event == 0x0F && s.tr.esN) || (src == srcEntropy true && st.event == 0x0F && s.tr.esS) ||
  (src == srcThermal && st.event == 0x0D && s.pwr.throttle)

/-- PENDING_CLEAR (R484): a clear that meets a setting, or a condition that still holds, fails and counts as a new event. -/
def pendingClear (src : Nat) (setNow : Bool) (s : State) : State :=
  let st := fltStatus src s
  if !isSource src || !st.pending then s
  else if setNow || condHolds src s then
    let part := if st.part = 0x3F then none else some st.part
    let s := raiseClass st.cls src st.event part 0 st.holds s
    logEntry 3 st.cls (sourceNo st.event src) st.part 0 0 s
  else setFlt src { st with pending := false, overflow := false, timer := none } s

/-- PENDING_CLEAR as a command. -/
def execPendingClear (v : View) (src : Nat) (setNow : Bool) (s : State) : Host.Outcome State Fault Refusal :=
  if mayClear v src s && powered s then done s (pendingClear src setNow s) else .next s

/-- `FLT_CMD` PATINA_CLEAR (R493, R495), through PF0 BAR0 only. -/
def patinaClear (v : View) (first last : Nat) (s : State) : State :=
  if v = .pf0 ∧ first ≤ last ∧ last ≤ 0x29E then
    let f := s.flt
    let keep (k : Nat) : Bool := decide (k < first) || decide (last < k)
    let s := { s with flt := { f with live := tkeep keep f.live, snap := tkeep keep f.snap, cmdResult := 0 } }
    logEntry 6 0 srcSc 0x3F 0 (first * 4096 + last) (patina 0x29F s)
  else { s with flt := { s.flt with cmdResult := 0x0C } }

/-- PATINA_CLEAR as a command. -/
def execPatinaClear (v : View) (first last : Nat) (s : State) : Host.Outcome State Fault Refusal :=
  if admin v s && powered s then done s (patinaClear v first last s) else .next s

/-- `FLT_CMD` UNFENCE (R487, R495). -/
def unfenceCmd (src : Nat) (s : State) : State :=
  let st := fltStatus src s
  if st.fenced && !st.pending then
    let s := unfence src (setFlt src { st with fenced := false } s)
    { s with flt := { s.flt with cmdResult := 0 } }
  else { s with flt := { s.flt with cmdResult := 0x0C } }

/-- UNFENCE as a command. -/
def execUnfence (v : View) (src : Nat) (s : State) : Host.Outcome State Fault Refusal :=
  if admin v s && operating s then done s (unfenceCmd src s) else .next s

/-- PATINA_SNAPSHOT (R492): at a multiple of 1 s of TOR every counter is copied. -/
def execPatinaSnapshot (s : State) : Host.Outcome State Fault Refusal :=
  if periodDue ticksS s.flt.snapTor s then
    .next { s with flt := { s.flt with snap := s.flt.live, snapTor := s.tor.tor } }
  else .next s

/-- ERR_N_PULSE_END (R490): the pulse ends 1 ms after the latest action. -/
def execErrNPulseEnd (s : State) : Host.Outcome State Fault Refusal :=
  match s.flt.pulseEnd with
  | some t => if t ≤ s.tor.tor then .next { s with flt := { s.flt with pulseEnd := none } } else .next s
  | none => .next s

/-- ERR_N is low (R489, R490). -/
def errNLow (s : State) : Bool := s.flt.checkstop || s.pwr.phase == .stopped || s.flt.hold || (match s.flt.pulseEnd with | some t => decide (s.tor.tor < t) | none => false)

end Sys2Proof.Machine
end

