-- ==== Sys2Proof/Machine/OpsCs.lean ====
section
/-! DEFINITION. Control stores and firmware: the images' checks, what loading does, and the correction and repair of a word
(23_control_store R512 to R525; 18_trust R413). -/

namespace Sys2Proof.Machine

/-- Words of the store of a target; target 0 is the firmware (R512, R522). -/
def targetWords : Nat → Nat
  | 0 => 523730
  | 1 => 16384
  | 2 => 98304
  | _ => 8192

/-- The target of a store (R512). -/
def storeTarget (n : Nat) : Nat := if n < 12 then 1 else if n < 14 then 2 else if n < 22 then 3 else 4

/-- The source at which a store's events are raised (R516). -/
def storeSource (n : Nat) : Nat :=
  if n < 12 then srcStore n else if n < 14 then srcCp (16 * (n - 12)) else if n < 22 then srcRasp (n - 14) else srcInt (n - 22)

/-- A control store. -/
def storeOf (n : Nat) (s : State) : CsStore := tget {} n s.cs.store

/-- Write a control store. -/
def setStore (n : Nat) (v : CsStore) (s : State) : State := { s with cs := { s.cs with store := tset {} n v s.cs.store } }

/-- Silicon revision B0 as `REV_MIN` codes it (R519). -/
def siliconRev : Nat := 0x20

/-- The security-version floor of a target, 0 the firmware (R520). -/
def svnFloor (t : Nat) (s : State) : Nat := tget 0 t s.cs.floor

/-- A pair of signatures, ML-DSA-65 and ECDSA P-384: both must verify (18 R413). -/
def pairOk (keyMl keyEc m sigMl sigEc : List Byte) : Bool := Config.mldsaOk keyMl m sigMl && Config.ecdsaOk keyEc m sigEc

/-- The root public keys of the identity image are those whose hashes the mask ROM holds (18 R413). The hash is SHA-384 (PRESUMED, log
entry 108). -/
def rootKeysOk : Bool := sha384 Config.rootMl == Config.romMl && sha384 Config.rootEc == Config.romEc

/-- The trailer of an image (R519): the code-signing keys under the root keys, and the image under the code-signing keys. -/
def trailerOk (t signed : List Byte) : Bool :=
  rootKeysOk && pairOk Config.rootMl Config.rootEc (bytesAt t 0 2048) (bytesAt t 2048 3309) (bytesAt t 5357 96) &&
  pairOk (bytesAt t 0 1952) (bytesAt t 1952 96) signed (bytesAt t 5453 3309) (bytesAt t 8762 96)

/-- The checks of an image in the order of R521: the code of the first that fails, or the image. `want` is the target that it must
name, where one is asked for. -/
def csCheck (want : Option Nat) (b : List Byte) (s : State) : Sum Nat CsImage :=
  let t := natAt b 6 1
  let w := natAt b 0xC 4
  let sec := natAt b 0x18 4
  if natAt b 0 4 ≠ 0x4353494D then .inl 1
  else if natAt b 4 2 ≠ 1 then .inl 2
  else if 4 < t ∨ want.any (· != t) then .inl 8
  else if natAt b 8 4 ≠ 64 + 16 * w + 8864 ∨ b.length ≠ natAt b 8 4 ∨ w = 0 ∨ targetWords t < w then .inl 3
  else if natAt b 7 1 ≠ 0 ∨ !zeroAt b 0x20 32 ∨ !zeroAt b (b.length - 6) 6 ∨ natAt b 0x1C 2 ≠ 0x7192 ∨ siliconRev < natAt b 0x1E 1 ∨
      natAt b 0x1F 1 < siliconRev ∨ 32 < sec then .inl 8
  else
    let signed := bytesAt b 0 (64 + 16 * w)
    if !trailerOk (bytesAt b (64 + 16 * w) 8864) signed then .inl 5
    else if sec < svnFloor t s then .inl 7
    else .inr { version := natAt b 0x10 8, svn := sec, words := bytesAt b 64 (16 * w), signed := signed, fromB := false }

/-- What a flash copy holds for a target: as delivered, or as last programmed (R521 to R523). -/
def flashImage (copy target : Nat) (s : State) : List Byte :=
  (tget none (copy * 8 + target) s.cs.flash).getD (Config.delivered (copy * 8 + target))

/-- The copy to use: the passing one with the higher version, or copy A where they are equal; or the code of copy A (R521, R522). -/
def chooseImage (t : Nat) (s : State) : Sum Nat CsImage :=
  match csCheck (some t) (flashImage 0 t s) s, csCheck (some t) (flashImage 1 t s) s with
  | .inr a, .inr b => .inr (if a.version < b.version then { b with fromB := true } else a)
  | .inr a, .inl _ => .inr a
  | .inl _, .inr b => .inr { b with fromB := true }
  | .inl c, .inl _ => .inl c

/-- An image comes into force, in every store of its target (R512, R521). -/
def loadImage (t : Nat) (i : CsImage) (s : State) : State :=
  let s := { s with cs := { s.cs with img := tset none t (some i) s.cs.img } }
  if t = 0 then s
  else (List.range 30).foldl (fun s n => if storeTarget n = t then setStore n { state := 1 } s else s) s

/-- The control-store images are checked and loaded (R521): where no copy of a target passes, bring-up stops there. -/
def loadStores : List Nat → State → Bool × State
  | [], s => (true, s)
  | t :: ts, s => match chooseImage t s with
    | .inl c => (false, { s with cs := { s.cs with result := c, failTarget := t } })
    | .inr i =>
      let s := loadImage t i s
      loadStores ts { s with cs := { s.cs with source := s.cs.source ||| (if i.fromB then 2 ^ (t - 1) else 0) } }

/-- The floors are raised to the images in force at the end of bring-up (R520). -/
def raiseFloors (s : State) : State :=
  (List.range 5).foldl (fun s t => match tget none t s.cs.img with
    | some i => { s with cs := { s.cs with floor := tset 0 t (max (svnFloor t s) i.svn) s.cs.floor } }
    | none => s) s

/-- CS_CMD STORE_A or STORE_B (R523): the staged image is checked and programmed; `copy` 0 A, 1 B. -/
def csStoreCmd (copy : Nat) (flashOk : Bool) (s : State) : State :=
  let r (c : Nat) (s : State) : State := pf0Vector 3 { s with cs := { s.cs with result := c } }
  if s.cs.busy then r 0x0C s
  else
    let b := if s.cs.stageOffset + s.cs.stageLength ≤ svcSize then svcBytes s.cs.stageOffset s.cs.stageLength s else []
    match csCheck none b s with
    | .inl c => r c s
    | .inr _ =>
      let k := copy * 8 + natAt b 6 1
      if flashOk then r 0 { s with cs := { s.cs with flash := tset none k (some b) s.cs.flash } }
      else r 0x0E { s with cs := { s.cs with flash := tset none k (some []) s.cs.flash } }

/-- The word of a store that its image holds: 16 bytes (R513, R521). -/
def csWord (n a : Nat) (s : State) : List Byte :=
  match tget none (storeTarget n) s.cs.img with
  | some i => if (storeOf n s).state = 1 then bytesAt i.words (16 * a) 16 else List.replicate 16 0
  | none => List.replicate 16 0

/-- A store word is read (R516 to R518): a flipped bit is corrected, two are under repair until the service core has rewritten the
word. -/
def readStoreWord (n a : Nat) (s : State) : State :=
  let v := storeOf n s
  let m := tget 0 a v.flips
  if m = 0 then s
  else if m = 3 then
    if v.repair.isSome then s else raise (storeSource n) 0x01 none a (setStore n { v with repair := some a } s)
  else raise (storeSource n) 0x01 none a (setStore n { v with flips := tdel a v.flips, ce := satAdd 16 v.ce 1 } s)

/-- The scrub of a store reads its next word (R518); it waits while a word is under repair. -/
def scrubStore (n : Nat) (s : State) : State :=
  let v := storeOf n s
  if 30 ≤ n ∨ v.state ≠ 1 ∨ v.repair.isSome then s
  else
    let last := v.pos + 1 = targetWords (storeTarget n)
    readStoreWord n v.pos (setStore n { v with pos := if last then 0 else v.pos + 1, passes := if last then satAdd 30 v.passes 1 else v.passes } s)

/-- The repair of a word ends (R517). -/
def repairDone (n : Nat) (dramOk flashOk : Bool) (s : State) : State :=
  let v := storeOf n s
  match v.repair with
  | none => s
  | some a =>
    if dramOk || flashOk then setStore n { v with repair := none, flips := tdel a v.flips, repairs := satAdd 16 v.repairs 1 } s
    else raise (storeSource n) 0x10 none a (setStore n { v with repair := none, state := 2 } s)

/-- No partition runs (R525). -/
def allAtRest (s : State) : Bool :=
  (partIds s).all (fun p => pstateOf p s == .stopped || pstateOf p s == .checkstopped || pstateOf p s == .undefined)

/-- A write of `CS_DIAG_SEL.INJECT` (R525): bits of the selected word are flipped. -/
def injectFlips (kind : Nat) (s : State) : State :=
  let n := s.cs.diagStore
  let v := storeOf n s
  let m := if kind = 1 then 1 else if kind = 2 then 3 else 0
  if m = 0 ∨ !allAtRest s ∨ 30 ≤ n ∨ v.state ≠ 1 ∨ targetWords (storeTarget n) ≤ s.cs.diagAddr then s
  else setStore n { v with flips := tset 0 s.cs.diagAddr (tget 0 s.cs.diagAddr v.flips ^^^ m) v.flips } s

/-! ### Sequencers (R513, R514) -/

/-- What follows a micro-word (R514): the next address with the return stack, the end of the sequence, or a sequencer fault. -/
inductive SeqNext where
  | at (addr : Nat) (stack : List Nat)
  | exit
  | fault
deriving DecidableEq, Repr

/-- The next address of a sequencer at `a` whose image has `words` words (R513, R514): `w` is the word's data, `cond` the unit's
condition, `key` the dispatch key. Which conditions and keys a unit offers is private to it (log entry 48). -/
def seqNext (words w a : Nat) (cond : Bool) (key : Nat) (stack : List Nat) : SeqNext :=
  let target := bits w 117 101
  let width := bits w 100 97
  let go (n : Nat) (st : List Nat) : SeqNext := if words ≤ n then .fault else .at n st
  match bits w 127 124 with
  | 0 => go (a + 1) stack
  | 1 => go target stack
  | 2 => go (if cond then target else a + 1) stack
  | 3 => go (if cond then a + 1 else target) stack
  | 4 => if target % 2 ^ width ≠ 0 then .fault else go (target + key % 2 ^ width) stack
  | 5 => if 8 ≤ stack.length then .fault else go target ((a + 1) :: stack)
  | 6 => (match stack with | [] => .fault | r :: rest => go r rest)
  | 7 => .exit
  | _ => .fault

end Sys2Proof.Machine
end

