-- ==== Sys2Proof/Machine/OpsDram.lean ====
section
/-! DEFINITION. The DRAM controllers: where a line lives, activates and neighbour refresh, refresh debt, ECC, scrub and training
(12_dram R257 to R283). -/

namespace Sys2Proof.Machine

/-- A controller. -/
def dramOf (n : Nat) (s : State) : Dram := tget {} n s.dram

/-- Write a controller. -/
def setDram (n : Nat) (d : Dram) (s : State) : State := { s with dram := tset {} n d s.dram }

/-- Change a controller. -/
def modDram (n : Nat) (f : Dram → Dram) (s : State) : State := setDram n (f (dramOf n s)) s

/-- Change every controller. -/
def allDram (f : Dram → Dram) (s : State) : State := (List.range 16).foldl (fun s n => modDram n f s) s

/-! ### Where a line lives (R260 to R262) -/

/-- A band is an 8-way band (R261). -/
def band8 (b : Nat) (s : State) : Bool :=
  (partIds s).any (fun p => match partOf p s with
    | some d => d.extents.any (fun e => e.attr.testBit 2 && isLocal e.phys s && decide (physOfAddr e.phys / 2 ^ 34 ≤ b) &&
        decide (b ≤ (physOfAddr e.phys + e.size - 1) / 2 ^ 34))
    | none => false)

/-- The XOR of the fields of `w` bits at `los`. -/
def xorFields (x w : Nat) (los : List Nat) : Nat := los.foldl (fun a lo => a ^^^ bits x (lo + w - 1) lo) 0

/-- The terms of R260 above the granule's own, and of R261. -/
def hash16 (pa : Nat) : Nat := xorFields pa 4 [13, 17, 21, 25, 29] ^^^ bits pa 33 33
def hash8 (pa : Nat) : Nat := xorFields pa 3 [12, 15, 18, 21, 24, 27, 30]

/-- The channel of a module physical address. -/
def channelOf (pa : Nat) (s : State) : Nat :=
  if band8 (pa / 2 ^ 34) s then 8 * bits pa 33 33 + (bits pa 11 9 ^^^ hash8 pa) else bits pa 12 9 ^^^ hash16 pa

/-- The channel-local address. -/
def localOf (pa : Nat) (s : State) : Nat :=
  let b := pa / 2 ^ 34
  if band8 b s then b * 2 ^ 30 + bits pa 32 12 * 512 + bits pa 8 0 else b * 2 ^ 30 + bits pa 33 13 * 512 + bits pa 8 0

/-- The module physical address of a channel-local address on a channel. -/
def physAt (n la : Nat) (s : State) : Nat :=
  let b := la / 2 ^ 30
  let g := bits la 29 9
  if band8 b s then
    let hi := b * 2 ^ 34 + (n / 8) * 2 ^ 33 + g * 4096
    hi + (n % 8 ^^^ hash8 hi) * 512 + bits la 8 0
  else
    let hi := b * 2 ^ 34 + g * 8192
    hi + (n ^^^ hash16 hi) * 512 + bits la 8 0

/-- A place in the devices of a channel (R262). -/
structure DPlace where
  bank : Nat
  lrank : Nat
  dimm : Nat
  row : Nat
deriving DecidableEq, Repr

/-- Address bits for so many ranks or DIMMs. -/
def log2Of (n : Nat) : Nat := if n ≤ 1 then 0 else if n = 2 then 1 else 2

/-- Where a channel-local address lies: ×4 devices have 8 bank groups of 4 banks. -/
def placeOf (d : Dram) (la : Nat) : DPlace :=
  let r := log2Of d.lranks
  let m := log2Of d.dimms
  let row := la >>> (19 + r + m)
  { bank := (bits la 11 9 ^^^ row % 8) * 4 + bits la 13 12, lrank := bits la (18 + r) 19 % 2 ^ r,
    dimm := (la >>> (19 + r)) % 2 ^ m, row := row }

/-- A bank as one number: DIMM, logical rank, bank. -/
def DPlace.key (p : DPlace) : Nat := (p.dimm * 4 + p.lrank) * 32 + p.bank

/-- Rows of a bank of the installed density (R257). -/
def rowsOf (d : Dram) : Nat := if d.density = 0 then 65536 else if d.density = 1 then 98304 else 131072

/-- Physical place of a row of a DIMM (R273). -/
def physRow (d : Dram) (dimm r : Nat) : Nat :=
  let w := tget 0 dimm d.rowMap
  if r.testBit (fld w 45 41) then r ^^^ fld w 63 46 else r

/-- The rows at distance `k` from a row (R273). -/
def neighbours (d : Dram) (dimm r k : Nat) : List Nat :=
  let p := physRow d dimm r
  ((if k ≤ p then [physRow d dimm (p - k)] else []) ++ [physRow d dimm (p + k)]).filter (fun x => decide (x < rowsOf d))

/-! ### Activates (R268, R270, R272, R274) -/

/-- A selected row is queued for neighbour refresh; a full queue drops it (R272). -/
def queueRow (n key row : Nat) (s : State) : State :=
  let d := dramOf n s
  let q := tget [] key d.nrQueue
  if 4 ≤ q.length then patina 0x29B s else setDram n { d with nrQueue := tset [] key (q ++ [row]) d.nrQueue } s

/-- The draw at an ACTIVATE (R272). -/
def neighbourDraw (n : Nat) (p : DPlace) (s : State) : State :=
  let r := drawBelow 65536 s
  let s := modDram n (fun d => { d with draws := (d.draws + 1) % 2 ^ 32 }) r.2
  let d := dramOf n s
  if r.1 % 2 ^ d.kEff ≠ 0 then s
  else (neighbours d p.dimm p.row 1 ++ (if d.row2 then neighbours d p.dimm p.row 2 else [])).foldl (fun s x => queueRow n p.key x s) s

/-- Activates of a row in the epoch, for up to 16 rows (R274). -/
def countAct (key row : Nat) (d : Dram) : Dram :=
  if d.acts.any (fun a => a.1 == key && a.2.1 == row) then
    { d with acts := d.acts.map (fun a => if a.1 = key ∧ a.2.1 = row then (a.1, a.2.1, a.2.2 + 1) else a) }
  else if d.acts.length < 16 then { d with acts := d.acts ++ [(key, row, 1)] } else d

/-- Corrected errors beside a heavily activated row set `NR_CLUSTER` (R274). -/
def clusterCheck (d : Dram) : Dram :=
  let near (a : Nat × Nat × Nat) (e : Nat × Nat) : Bool :=
    let dimm := a.1 / 128
    let x := physRow d dimm a.2.1
    let y := physRow d dimm e.2
    a.1 == e.1 && (x == y + 1 || x == y + 2 || y == x + 1 || y == x + 2)
  match d.acts.find? (fun a => decide (8192 ≤ a.2.2) && decide (2 ≤ (d.ceRows.filter (near a)).length)) with
  | some a => { d with nrCluster := true, hotRow := pack [(63, 59, a.1 % 32), (58, 56, a.1 / 32 % 4), (55, 38, a.2.1)] }
  | none => d

/-- The queued rows of a bank are refreshed, each by an ACTIVATE that is counted, before any other ACTIVATE to the bank (R272, R274). -/
def refreshRows (key : Nat) (d : Dram) : Dram :=
  (tget [] key d.nrQueue).foldl (fun d x => countAct key x d) { d with nrQueue := tset [] key [] d.nrQueue }

/-- A row is opened where another is open (R268): the debt of 2x entry is paid first (R270), then the bank's queued rows are
refreshed (R272). `draw` is false for scrub and training. -/
def activate (n : Nat) (p : DPlace) (draw : Bool) (s : State) : State :=
  if tget none p.key (dramOf n s).openRow = some p.row then s
  else
    let s := modDram n (fun d => if d.paying then payDebt d else d) s
    let s := modDram n (fun d => clusterCheck (countAct p.key p.row (refreshRows p.key d))) s
    let s := if draw then neighbourDraw n p s else s
    modDram n (fun d => { d with openRow := tset none p.key (some p.row) d.openRow }) s

/-! ### ECC (R265 to R267, R274) -/

/-- `DC_ERR_INFO` of an event (R282). -/
def errInfo (cls : Nat) (la : Nat) (p : DPlace) (device : Nat) (scrub : Bool) : Long :=
  pack [(63, 62, cls), (61, 61, bits la 6 6), (60, 58, p.lrank), (57, 53, p.bank), (52, 35, p.row), (34, 31, device), (30, 30, b2n scrub)]

/-- What the code of a burst finds (R265): nothing, an error of one device, which it corrects, or one that it cannot correct. Of an
error in three or more devices R265 states nothing: whether it is found is free (DESIGN CHOICE, log entry 80). -/
inductive EccFound where
  | good
  | corrected (device : Nat)
  | uncorrectable
deriving DecidableEq, Repr

/-- The verdict of the code on an error pattern (R265). -/
def eccCheck (e : EccErr) (s : State) : EccFound × State :=
  match (e.filter (· < 10)).eraseDups with
  | [] => (.good, s)
  | [d] => (.corrected d, s)
  | [_, _] => (.uncorrectable, s)
  | _ => let r := drawBit s; (if r.1 then .uncorrectable else .good, r.2)

/-- What the decoder finds on a read of a burst (R266, R267, R279). -/
def readBurst (n pa : Nat) (err : EccErr) (scrub : Bool) (part : Option Nat) (s : State) : State :=
  let la := localOf pa s
  let d := dramOf n s
  let p := placeOf d la
  let burst := ownAddr pa s / 64
  let note (cls device : Nat) (s : State) : State :=
    modDram n (fun d => { d with errAddr := BitVec.ofNat 64 (pa / 128 * 128), err := errInfo cls la p device scrub }) s
  let f := eccCheck err s
  let s := f.2
  if tget false burst s.sto.poison then (if scrub then s else note 3 0 s)
  else match f.1 with
    | .good => s
    | .corrected dev =>
      let s := note 1 dev (modDram n (fun d => clusterCheck { d with ceRows := d.ceRows ++ [(p.key, p.row)] }) s)
      raise (srcDram n) 0x01 part pa s
    | .uncorrectable =>
      let s := note 2 0 { s with sto := { s.sto with poison := tset false burst true s.sto.poison } }
      raise (srcDram n) 0x03 part pa s

/-- An access outside the used DRAM (R263, R264): event 0x0B. -/
def outside (pa : Nat) (part : Option Nat) (s : State) : State :=
  raisePart 0x0B part pa s

/-- The storage key of a line: that of the partition in whose extent it lies, else the module's (18 R418). -/
def lineKey (a : Nat) (s : State) : List Byte := (tget none ((partOfAddr a s).getD 48) s.tr.storageKey).getD []

/-- What DRAM holds of a line (18 R418): AES-256-XTS of its data, one data unit whose number is the physical address divided by 128. -/
def lineCipher (ln : Nat) (s : State) : List Byte :=
  xts false (lineKey (ln * 128) s) (physOfAddr (ln * 128) / 128) 0 ((List.range 128).map (fun i => storedByte (ln * 128 + i) s))

/-- A controller serves an access within one line (R263, R266 to R268). -/
def serveDram (r : DramReq) (s : State) : State :=
  let len := match r.write with | some d => d.length | none => r.len
  let n := channelOf r.pa s
  if len = 0 ∨ 128 < r.pa % 128 + len then s
  else if physKind r.pa s ≠ .dram then
    let s := outside r.pa r.part s
    if r.write.isSome then s else emit (.dramData n (List.replicate len 0) true) s
  else if (dramOf n s).state ≠ 2 then s
  else
    let a := ownAddr r.pa s
    -- a good command ends a run of parity alerts (R281)
    let s := modDram n (fun d => { d with replays := 0 }) s
    let s := activate n (placeOf (dramOf n s) (localOf r.pa s)) true s
    let bursts := if a / 64 = (a + len - 1) / 64 then [a / 64] else [a / 64, a / 64 + 1]
    let read (s : State) : State :=
      bursts.foldl (fun s b => readBurst n (physOfAddr (b * 64)) (if b % 2 = 0 then r.err else r.err1) false r.part s) s
    match r.write with
    | none =>
      let s := read s
      let data := (List.range len).map (fun i => storedByte (a + i) s)
      emit (.dramData n data (linePoisoned (a / 128) s)) s
    | some data =>
      -- a write of part of a line reads it first
      let s := if len = 128 then s else read s
      let s := storeAll a data s
      let s := emit (.dramLine n (r.pa / 128) (lineCipher (a / 128) s)) s
      let mark (v : Bool) (s : State) : State :=
        bursts.foldl (fun s b => { s with sto := { s.sto with poison := tset false b v s.sto.poison } }) s
      if r.poisoned then mark true s else if len = 128 then mark false s else s

/-! ### Refresh (R270) -/

/-- One REFab, a good command (R281). -/
def refab (d : Dram) : Dram :=
  { d with debt := d.debt - 1, openRow := [], replays := 0, paying := d.paying && decide (1 < d.debt) }

/-- A tREFI tick. While 2x entry's debt is being paid, a tick adds to it. -/
def refreshTick (n : Nat) (s : State) : State :=
  if 16 ≤ n ∨ (dramOf n s).state ≠ 2 then s
  else modDram n (fun d =>
    let d := { d with debt := d.debt + 1 }
    if !d.paying && decide (4 < d.debt) then refab d else d) s

/-- An idle channel, or one that pays the debt of 2x entry, refreshes. -/
def refreshIdle (n : Nat) (s : State) : State :=
  if 16 ≤ n ∨ (dramOf n s).state ≠ 2 ∨ (dramOf n s).debt = 0 then s else modDram n refab s

/-! ### Re-centring and scrub (R276, R279) -/

/-- Ticks between re-centrings. -/
def recentreTicks : Nat := 256000000

/-- Every controller in READY re-centres; those of `low` found a margin below its limit. -/
def recentreAll (low : List Nat) (s : State) : State :=
  (List.range 16).foldl (fun s n =>
    if (dramOf n s).state ≠ 2 then s
    else
      let s := modDram n (fun d => { d with lastRecentre := s.tor.tor }) s
      if low.contains n then logState (srcDram n) n (patina 0x29E s) else s) s

/-- Lines of the installed capacity of a channel, and the ticks between two reads of the scrub (R279). -/
def scrubLines (d : Dram) : Nat := d.capGiB * 2 ^ 23
def scrubTicks (d : Dram) : Nat := 345600000000000 / scrubLines d

/-- The scrub of a controller reads its next line (R279): once in each pacing interval of TOR. -/
def scrubDram (n : Nat) (err err1 : EccErr) (s : State) : State :=
  let d := dramOf n s
  if 16 ≤ n ∨ d.state ≠ 2 ∨ scrubLines d = 0 ∨ d.scrubbed / scrubTicks d = s.tor.tor / scrubTicks d then s
  else
    let la := d.pos * 128
    let pa := physAt n la s
    let s := activate n (placeOf d la) false (modDram n (fun d => { d with replays := 0, scrubbed := s.tor.tor }) s)
    let s := readBurst n (pa + 64) err1 true none (readBurst n pa err true none s)
    modDram n (fun d => if d.pos + 1 < scrubLines d then { d with pos := d.pos + 1 } else { d with pos := 0, passes := satAdd 32 d.passes 1 }) s

/-! ### Training (R259, R275, R277) -/

/-- Full training of all sixteen begins at a speed. -/
def startTraining (speed : Nat) (s : State) : State := allDram (fun d => { d with state := 1, speed := speed }) s

/-- DRAM contents are lost (R275, R280). -/
def loseDram (s : State) : State :=
  { s with sto := {}, jnl := { s.jnl with storageKept := false } }

/-- No partition has been applied since the last reset of the module, cold or not (R277; DESIGN CHOICE, log entry 79). -/
def noneApplied (s : State) : Bool := !s.pln.applied

/-- `DC_CMD` SPEED (R277, R283). -/
def speedCmd (n arg : Nat) (s : State) : State :=
  let r (c : Nat) (s : State) : State := modDram n (fun d => { d with lastResult := c }) s
  let st := (dramOf n s).state
  if 16 ≤ n then s
  else if 2 < arg then r 3 s
  else if st = 1 then r 1 s
  else if (st = 2 ∨ st = 4) ∧ noneApplied s then modDram n (fun d => { d with byCmd := true }) (startTraining arg s)
  else r 0x0C s

/-- GiB of one logical rank (R257): on each of two subchannels eight ×4 devices of data, of 16, 24 or 32 Gbit. -/
def rankGiB (density : Nat) : Nat := 32 + 16 * density

/-- A channel holds one or two supported DIMMs and they have trained (R257, R258): of 1 or 2 package ranks, planar or 2 high, and of no
other capacity than their devices give. -/
def trained (r : TrainResult) : Bool :=
  r.ok && decide (1 ≤ r.dimms ∧ r.dimms ≤ 2) && decide (r.density ≤ 2) && (r.lranks == 1 || r.lranks == 2 || r.lranks == 4) &&
  r.capGiB == r.dimms * r.lranks * rankGiB r.density

/-- Full training has ended with these results (R259, R275): one step down where a controller failed, and at 4800 MT/s the fault. The refresh
mode is the one that the last governor epoch gave (R269), and no refresh debt is left over contents that training has replaced (R270;
DESIGN CHOICE, log entry 103). -/
def trainingDone (rs : List TrainResult) (s : State) : State :=
  let res (n : Nat) : TrainResult := rs.getD n { dimms := 0, capGiB := 0, density := 0, lranks := 0, ok := false }
  let bad := (List.range 16).filter (fun n => !trained (res n))
  let speed := (dramOf 0 s).speed
  let after (d : Dram) (n : Nat) : Dram :=
    { d with dimms := (res n).dimms % 4, capGiB := (res n).capGiB, density := (res n).density, lranks := (res n).lranks, contentLost := true,
             debt := 0, paying := false, openRow := [], nrQueue := [], acts := [], ceRows := [], replays := 0, draws := 0 }
  let s := loseDram s
  match bad with
  | [] => (List.range 16).foldl (fun s n => modDram n (fun d => { after d n with state := 2, lastResult := if d.byCmd then 0 else d.lastResult, byCmd := false }) s) s
  | k :: _ =>
    let s := allDram (fun d => { d with contentLost := true, lastResult := if d.byCmd then 2 else d.lastResult, byCmd := false }) s
    if 0 < speed then startTraining (speed - 1) (logState (srcDram k) (speed - 1) (patina 0x29D s))
    else
      let s := (List.range 16).foldl (fun s n => modDram n (fun d => { after d n with state := if trained (res n) then 2 else 4 }) s) s
      bad.foldl (fun s n => raiseClass 3 (srcDram n) 0x10 none 0 false s) s

/-- Self-refresh ends: the trained settings stand, and the controller re-centres before the first access (R280). -/
def wakeDram (s : State) : State :=
  allDram (fun d => if d.state = 3 then { d with state := 2, lastRecentre := s.tor.tor } else d) s

/-- A command/address parity alert (R281): replayed up to 3 times; the fourth fails the channel. -/
def parityAlert (n : Nat) (s : State) : State :=
  let d := dramOf n s
  if 16 ≤ n ∨ d.state ≠ 2 then s
  else if d.replays < 3 then patina (srcDram n) (setDram n { d with replays := d.replays + 1 } s)
  else raiseClass 3 (srcDram n) 0x10 none 0 false (setDram n { d with state := 4 } s)

/-! ### The node ID in storage addresses -/

/-- The node ID changes (14 R301): storage, which the model keeps by Armature address, is the same storage under the new ID. -/
def setNode (node : Option Nat) (s : State) : State :=
  let from_ := s.arm.node.getD 0
  let node_ := node.getD 0
  let s := { s with arm := { s.arm with node := node } }
  if from_ = node_ then s
  else
    let mv (a : Nat) : Nat := if nodeOfAddr a = from_ then physOfAddr a + node_ * 2 ^ 52 else a
    { s with sto := { mem := s.sto.mem.foldl (fun m c => memSet (mv c.1) c.2 m) [], keyed := s.sto.keyed.map (fun k => { k with base := mv k.base }),
                      poison := s.sto.poison.foldl (fun m e => tset false (mv (e.1 * 64) / 64) e.2 m) [], slices := [] } }

end Sys2Proof.Machine
end

