-- ==== Sys2Proof/Machine/OpsPower.lean ====
section
/-! DEFINITION. Power, resets and bring-up (25_power_governor_reset R548 to R566; 02_plinth_image R40, R52; 03 R69; 16 R381, R385;
22 R601). -/

namespace Sys2Proof.Machine

/-! ### What the resets keep (R551, R560) -/

/-- What an entry in STATUS_PENDING says of its operation, which the keep-alive domain holds with it (15 R350). -/
def lastFrom (e : JEntry) : LastOp := { func := 1 + 2 * b2n (e.flags.testBit 2), tor := e.tor, quality := e.quality }

/-- A disciplined TOR goes into holdover where power leaves the module (03 R69). -/
def torAlone (s : State) : State :=
  match s.tor.state with
  | .unreferenced => s
  | .holdover => s
  | _ => torSet .holdover s

/-- The state outside the keep-alive domain is lost, with `on` the power that follows (R560, first columns). The kept STATE, QUALITY and
HOLD_START of TOR do not change (00_scope R10; DESIGN CHOICE, log entry 72). While power is off the keep-alive domain holds ERR_N and
CHECKSTOP_N at their levels (27 R583). -/
def wipe (on : Bool) (s : State) : State :=
  let s := if s.tor.keptValid then s else torSet .unreferenced s
  let tor : TorS := { tor := if s.tor.keptValid then s.tor.tor else 0, state := s.tor.state, keptValid := s.tor.keptValid,
                      holdStart := s.tor.holdStart, lastRef := s.tor.lastRef, masterQuality := s.tor.masterQuality, slewOwn := s.tor.slewOwn }
  let flt : Flt := { log := s.flt.log, live := s.flt.live, snap := s.flt.snap, snapTor := s.flt.snapTor, nextSeq := s.flt.nextSeq, lost := s.flt.lost,
                     checkstop := !on && s.flt.checkstop, hold := !on && s.flt.hold, pulseEnd := if on then none else s.flt.pulseEnd }
  let pln : Plinth := { generation := s.pln.generation, blown := s.pln.blown, owners := s.pln.owners, flashA := s.pln.flashA,
                        flashB := s.pln.flashB, badA := s.pln.badA, badB := s.pln.badB }
  let pwr : Power := { on := on, srcB := s.pwr.srcB, aOk := s.pwr.aOk, bOk := s.pwr.bOk, vkaOk := s.pwr.vkaOk, tripped := s.pwr.tripped, below20 := s.pwr.below20 }
  let jnl : Jnl := { e := s.jnl.e, keptValid := s.jnl.keptValid, found := s.jnl.keptValid, settleDue := s.jnl.keptValid }
  let last : Tab LastOp := s.jnl.e.filterMap (fun e => if e.2.state = 5 then some (e.1, lastFrom e.2) else none)
  { pending := s.pending, out := s.out, free := s.free, flt := flt, tor := tor, pln := pln, pwr := pwr, jnl := jnl, ch := { last := last },
    arm := { lastId := s.arm.lastId }, dx := { failTor := s.dx.failTor, hist := s.dx.hist }, hp := { perst := s.hp.perst, since := s.hp.since, state := b2n (on && !s.hp.perst && !s.pin.hpLost) },
    cs := { floor := s.cs.floor, flash := s.cs.flash }, pin := { s.pin with removeOk := false } }

/-- The keep-alive domain loses its contents (R551; 00_scope R10). -/
def loseKept (s : State) : State :=
  { s with flt := { s.flt with log := [], live := [], snap := [], snapTor := 0, nextSeq := 0, lost := 0, checkstop := false, hold := false, pulseEnd := none }, tor := {},
           pln := { s.pln with generation := 0 }, jnl := {}, ch := { s.ch with last := [] }, arm := { s.arm with lastId := 0 },
           dx := { s.dx with failTor := 0, hist := [] } }

/-- Power leaves everything outside the keep-alive domain (R550): the holdover of a disciplined TOR begins (03 R69). -/
def powerOff (s : State) : State :=
  let s := wipe false (if s.tor.keptValid then torAlone s else s)
  if s.pwr.vkaOk || s.pwr.aOk || s.pwr.bOk then s else loseKept s

/-- A cold reset begins (R559, R564). One that a feed starts is when the feed is good (27 R589), and the module draws from a feed that is,
from VIN_A where both are (R548, R549). -/
def coldBoot (s : State) : State :=
  let t := wipe true { s with pwr := { s.pwr with srcB := if s.pwr.on then s.pwr.srcB else !s.pwr.aOk } }
  { t with hp := { t.hp with since := if s.pwr.on && s.tor.keptValid then s.hp.since else t.tor.tor } }

/-- A cold reset that a good feed starts: the module is off, held by nothing, with a feed in range (R550, R554, R565, R589). -/
def feedBoot (s : State) : Bool :=
  !s.pwr.on && !s.pwr.tripped && s.pin.prsnt && !s.pin.sysLost && (s.pwr.aOk || s.pwr.bOk)

/-- A store that cannot wait any longer goes to its home as it stands: into this module's storage, or as a write that leaves with the
reset (log entry 70). -/
def sendStore (l a : Nat) (data : List Byte) (bad : Bool) (s : State) : State :=
  if isLocal a s then
    let s := homeWrite (.others none) (partOfCore l s) a data s
    if bad then setPoison (lineOf a) true s else s
  else sendReq 6 a ([if bad then 7 else 1, BitVec.ofNat 8 data.length] ++ data) (.coreUc l) (partOfCore l s) s

/-- Every core's stores are drained, with what its combining buffers hold, and its caches are written back (R560; 10 R238; 11 R253). -/
def flushCores (s : State) : State :=
  (s.cpu.core.map (·.1)).foldl (fun s l =>
    let s := drainSystem l s
    let wc := (coreOf l s).wc.filter (fun w => w.out.isEmpty)
    let sb := (coreOf l s).sb.filter (fun e => e.sent.isNone)
    let s := modCore l (fun c => { c with sb := [], wc := [] }) s
    let s := wc.foldl (fun s w => (wcRuns w.data).foldl (fun s x => sendStore l (w.line * 128 + x.1) x.2 w.bad s) s) s
    wbInvCore l (sb.foldl (fun s e => sendStore l e.addr e.data e.bad s) s)) s

/-- A module reset begins (R559, R560, third column). TOR goes on; a follower, whose master is out of reach now, enters holdover (03 R64, R69;
DESIGN CHOICE, log entry 102). -/
def moduleBoot (s : State) : State :=
  let s := if s.flt.checkstop then s else flushCores s
  let flt : Flt := { log := s.flt.log, live := s.flt.live, snap := s.flt.snap, snapTor := s.flt.snapTor, nextSeq := s.flt.nextSeq, lost := s.flt.lost,
                     status := s.flt.status.filterMap (fun e => if e.2.fenced then some (e.1, ({ fenced := true, step := e.2.step } : FltStatus)) else none) }
  let pln : Plinth := { generation := s.pln.generation, blown := s.pln.blown, owners := s.pln.owners, flashA := s.pln.flashA, flashB := s.pln.flashB,
                        badA := s.pln.badA, badB := s.pln.badB, stageOffset := s.pln.stageOffset, stageLength := s.pln.stageLength, parts := s.pln.parts }
  let pwr : Power := { s.pwr with phase := .firmware, warm := true, throttle := false, lastResult := 0, ipl := 0, clk := [] }
  let cpu : CoresS := { core := s.cpu.core.filterMap (fun e => match e.2.run with | .lost => some (e.1, ({ run := .lost } : Core)) | _ => none)
                        slot := s.cpu.slot, recState := s.cpu.recState.filter (fun e => e.2 == 2), recasts := s.cpu.recasts, spare := s.cpu.spare }
  let jnl : Jnl := { e := s.jnl.e, keptValid := s.jnl.keptValid, found := s.jnl.found, settleDue := true, storageKept := s.jnl.storageKept,
                     uuids := if s.pln.parts.isEmpty then s.jnl.uuids else s.pln.parts.map (fun (e : Nat × Option PlnPart) => (e.1, e.2.map (·.uuid))) }
  let last : Tab LastOp := s.jnl.e.filterMap (fun e => if e.2.state = 5 then some (e.1, lastFrom e.2) else none)
  let link (t : Tab Link) (f : Nat → Nat) : Tab Link :=
    t.filterMap (fun e => if (tget {} (f e.1) s.flt.status).fenced then some (e.1, ({ disable := true } : Link)) else none)
  let eng : Engines := { slots := s.eng.slots
                         rasp := s.eng.rasp.filterMap (fun e => if e.2.failed then some (e.1, ({ failed := true } : RaspEng)) else none)
                         inta := s.eng.inta.filterMap (fun e => if e.2.failed then some (e.1, ({ failed := true, dual := e.2.dual } : IntEng)) else if e.2.dual then some (e.1, ({ dual := true } : IntEng)) else none) }
  let tr : Trust := { esN := s.tr.esN, esS := s.tr.esS, moduleDebug := s.tr.moduleDebug, keyGen := s.tr.keyGen, debug := s.tr.debug, debugUuid := s.tr.debugUuid, idEc := s.tr.idEc, idMl := s.tr.idMl, storageKey := s.tr.storageKey, svcKey := s.tr.svcKey, drbg := s.tr.drbg }
  let hp : HostPort := { perst := s.hp.perst, since := s.hp.since, state := b2n (!s.hp.perst && !s.pin.hpLost),
                         qp := s.hp.qp.filterMap (fun e => if e.2.owner.isSome then some (e.1, ({ kind := e.2.kind, owner := e.2.owner } : HostQp)) else none) }
  let t : State := { pending := s.pending, out := s.out, free := s.free, flt := flt, tor := { s.tor with master := none }, pln := pln, pwr := pwr, cpu := cpu,
                     sto := { s.sto with slices := [] }, dram := s.dram.map (fun (e : Nat × Dram) => (e.1, sleepDram e.2)),
                     arm := { lastId := s.arm.lastId, node := s.arm.node }, ch := { sub := s.ch.sub, last := last, cp := s.ch.cp.filter (fun e => e.2 == 2) }, jnl := jnl,
                     dx := { failTor := s.dx.failTor, hist := s.dx.hist, roles := s.dx.roles, parts := s.dx.parts },
                     armLink := link s.armLink (fun k => 0x110 + k), chLink := link s.chLink (fun k => 0x118 + k), hp := hp, eng := eng, tr := tr,
                     cs := { floor := s.cs.floor, flash := s.cs.flash }, mq := { inSeq := s.mq.inSeq }, pin := { s.pin with removeOk := false }, svc := s.svc, svcPoison := s.svcPoison }
  let t := setNode none t
  if s.tor.master.isSome ∧ (t.tor.state = .fabric ∨ (t.tor.state = .slewing ∧ !t.tor.slewOwn)) then torSet .holdover t else t

/-! ### Bring-up (R564) -/

/-- The step in progress. -/
def setPhase (p : Phase) (s : State) : State := { s with pwr := { s.pwr with phase := p } }

/-- A Plinth flash copy that passes its checks (02 R36, R37, R40, R41). -/
def bootCopy (bad : Bool) (copy : Option (List Byte)) (s : State) : Option (PlnImage × List Byte) :=
  if bad then none
  else match copy with
    | none => none
    | some b => match checkImage false b s with
      | .inl _ => none
      | .inr i => some (i, b)

/-- The flash copy to apply: image, bytes, and the code of `SOURCE` (02 R40). -/
def bootImage (s : State) : Option (PlnImage × List Byte × Nat) :=
  match bootCopy s.pln.badA s.pln.flashA s, bootCopy s.pln.badB s.pln.flashB s with
  | some a, some b => some (if a.1.generation < b.1.generation then (b.1, b.2, 2) else (a.1, a.2, 1))
  | some a, none => some (a.1, a.2, 1)
  | none, some b => some (b.1, b.2, 2)
  | none, none => none

/-- The image that bring-up applies (02 R40, R51, R52): the one of a LOAD_FULL whose checks have passed, which then ends as R52 says,
else the flash copy, whose source stands in `stage`. STATE reads APPLYING from here on, and a host's command under check holds step 4
(DESIGN CHOICE, log entry 77). -/
def bootJob (s : State) : Option PlnJob :=
  if s.pln.state = .applying then s.pln.job.map (fun j => { j with stage := 3 })
  else (bootImage s).map (fun c => { cmd := 0, bytes := c.2.1, image := some c.1, back := .noImage, stage := c.2.2 })

/-- TOR as the MODULE section sets it where the kept count is not valid (03 R69). -/
def setTorFrom (m : PlnModule) (s : State) : State :=
  if s.tor.keptValid then s
  else { s with tor := { s.tor with tor := max s.tor.tor m.initTor, keptValid := true } }

/-- The MODULE section takes effect (02 R28, R40, R52). -/
def moduleEffect (i : PlnImage) (s : State) : State :=
  match i.mod_ with
  | none => s
  | some m =>
    let s := setNeighbour m (setTorFrom m (newRoutes (i.routes.getD []) { s with pln := { s.pln with module_ := some m } }))
    if m.nodeMode = 1 then setNode (some m.nodeId) s else s

/-- The ports that the image enables leave DISABLED, and discovery begins (02 R52, step 3; 14 R309). -/
def enablePorts (s : State) : State :=
  let s := (List.range 8).foldl (fun s p => if portGranted (.arm p) s then linkRestart (.arm p) s else s) s
  let s := (List.range 12).foldl (fun s n => if portGranted (.ch n) s then linkRestart (.ch n) s else s) s
  { s with arm := { s.arm with fstate := 1, discoStart := s.tor.tor, dbChange := s.tor.tor } }

/-- Discovery is over: ALONE, or an epoch switch has included this module (14 R312, R323). -/
def fabricReady (s : State) : Bool := s.arm.fstate == 2 || s.arm.fstate == 4 || (s.arm.fstate == 3 && !s.arm.routes.isEmpty)

/-- The partitions of the image are defined, and the journal is paired or settled (02 R52, step 4; 16 R377, R381, R385). -/
def startJournal (i : PlnImage) (s : State) : State :=
  let s := zeroNext (adoptParts i (zeroAway (rangesLeft (fullSections i s) s) s))
  let s := { s with pln := { s.pln with pstate := [] }, jnl := { s.jnl with keptValid := true } }
  if partnerOn s then
    let s := if s.jnl.settleDue then s else { s with jnl := { s.jnl with storageKept := true } }
    sendPairing (setDxState 1 (hbStart s))
  else
    let s := decidePorts s
    if s.jnl.settleDue then settleOwn s else { s with jnl := { s.jnl with storageKept := true } }

/-- The pair is in service, in conflict, declared failed, or shows no sign of a partner (16 R377, R383; 22 R601); and no range at another
home waits to be zeroed (02 R46). -/
def journalReady (s : State) : Bool :=
  s.pln.zero.isEmpty && (!partnerOn s || s.dx.state == 2 || s.dx.state == 3 || s.dx.state == 5 || s.dx.state == 6 ||
  (s.dx.state == 1 && !s.dx.arm.seen && !s.dx.ded.seen))

/-- Discovery is over, and a TOR that a cold reset kept disciplined has found no source again: it holds no reference and follows no master, and
enters holdover (03 R63, R64; DESIGN CHOICE, log entry 72). -/
def sourceLost (s : State) : State :=
  if !follows s ∧ (towardMaster s ∨ (disciplined true s ∧ !s.tor.refHeld)) then torSet .holdover s else s

/-- A joining module whose partitions are applied is a member (14 R323). -/
def becomeMember (s : State) : State :=
  announceChange (if s.arm.fstate = 3 ∧ !s.arm.routes.isEmpty then { s with arm := { s.arm with fstate := 4 } } else s)

/-- The partitions are applied and those with `AUTOSTART` start (02 R43, R52; 25 R556). -/
def finishImage (i : PlnImage) (b : List Byte) (source : Nat) (s : State) : State :=
  let s := if partnerOn s then decidePorts s else s
  let s := setClocks [] (recordImage i b s)
  let s := { s with pln := { s.pln with state := .applied, result := 0, source := source, job := none } }
  becomeMember (closeWindow (startAll s))

/-- The order of the P-384 group (FIPS 186). -/
def orderP384 : Nat := 2 ^ 384 - 1388124618062372383947042015309946732620727252194336364173

/-- The identity keys are derived (18 R412). -/
def deriveIdentity (s : State) : State :=
  let id := beBytes 8 Config.serial.toNat
  { s with tr := { s.tr with idEc := some (beNat (kdf Config.deviceSecret (ascBytes "ID-EC") id 448) % (orderP384 - 1) + 1)
                             idMl := some (kdf Config.deviceSecret (ascBytes "ID-MLDSA") id 256) } }

/-- The step of bring-up under way ends, and the next begins (R564). `bad` are the slots that failed the self-check of R472. The speed in force
at a module reset is the one at which the controllers run, after a step-down too (12 R275; DESIGN CHOICE, log entry 104). -/
def bringUp (bad : List Nat) (s : State) : State :=
  let cold := !s.pwr.warm
  match s.pwr.phase with
  | .firmware =>
    match chooseImage 0 s with
    | .inl _ => setPhase .stopped { s with tr := { s.tr with fwFail := true } }
    | .inr i =>
      let s := loadImage 0 i { s with tr := { s.tr with fwMeas := sha384 i.signed } }
      setPhase .controlStore (if cold then genStorageKey 48 (seedDrbg 48 (deriveIdentity s)) else s)
  | .controlStore =>
    let r := loadStores [1, 2, 3, 4] s
    if r.1 then setPhase .plinth ((List.range 32).foldl (fun s k => if cpState k s = 2 then s else setCp k 0 s) r.2)
    else setPhase .stopped r.2
  | .plinth =>
    if s.pln.state = .verifying then s
    else
      let s := if cold then slotCheck bad s else s
      let speed := (dramOf 0 s).speed
      let train (want : Nat) (s : State) : State := if cold ∨ speed ≠ want then startTraining want s else wakeDram s
      match bootJob s with
      | none => setPhase .dram (train 0 { s with pln := { s.pln with parts := [] } })
      | some j =>
        let s := { s with pln := { s.pln with state := .applying, job := some j } }
        setPhase .dram (train ((j.image.bind (·.mod_)).elim 0 (·.dramSpeed)) (j.image.elim s (fun i => moduleEffect i s)))
  | .dram =>
    if (List.range 16).any (fun n => (dramOf n s).state == 1) then s
    else setPhase .fabric (if s.pln.module_.isSome then enablePorts s else s)
  | .fabric =>
    match s.pln.job.bind (·.image) with
    | none => setPhase .journal (sourceLost { s with jnl := { s.jnl with keptValid := true } })
    | some i => if fabricReady s then setPhase .journal (startJournal i (sourceLost s)) else s
  | .journal =>
    match s.pln.job with
    | none => setPhase .ready (raiseFloors s)
    | some j => match j.image with
      | none => setPhase .ready (raiseFloors s)
      | some i =>
        if journalReady s then
          let s := finishImage i j.bytes j.stage s
          setPhase .ready (raiseFloors (if j.cmd = 1 then pf0Vector 1 s else s))
        else s
  | .ready => s
  | .stopped => s

/-- The stages of a LOAD_FULL after its checks (02 R52): 2 training, 3 discovery, 4 pairing and settlement, 5 the partitions. -/
def applyStage (s : State) : State :=
  match s.pln.job with
  | none => s
  | some j =>
    let stageTo (k : Nat) (s : State) : State := { s with pln := { s.pln with job := some { j with stage := k } } }
    match j.image with
    | none => s
    | some i =>
      if j.stage = 2 ∧ !(List.range 16).any (fun n => (dramOf n s).state == 1) then stageTo 3 (enablePorts s)
      else if j.stage = 3 ∧ fabricReady s then stageTo 4 (startJournal i s)
      else if j.stage = 4 ∧ journalReady s then stageTo 5 s
      else s

/-! ### Feeds (R548 to R551) -/

/-- A 48 V feed is good, in mV (R548). -/
def feedGood (mv : Nat) : Bool := decide (42000 ≤ mv ∧ mv ≤ 60000)

/-- The feeds as they read now. -/
def setFeeds (a b : Nat) (s : State) : State := { s with pwr := { s.pwr with aOk := feedGood a, bOk := feedGood b } }

/-- The module changes the feed from which it draws (R549): event 0x0C. -/
def switchFeed (toB : Bool) (s : State) : State :=
  raise srcSupply 0x0C none (b2n toB) { s with pwr := { s.pwr with srcB := toB } }

/-- One feed serves better than the other (R549, R550): it is good and the other not, or neither is and it is the higher at 40.0 V or
more. -/
def betterFeed (new old : Nat) : Bool :=
  !feedGood old && (feedGood new || (!feedGood new && decide (old < new) && decide (40000 ≤ new)))

/-- The loss of both 48 V feeds (R550): logged, and power leaves everything outside the keep-alive domain. -/
def loseFeeds (s : State) : State := powerOff (logEntry 1 3 (sourceNo 0x10 srcSupply) 0x3F 0 0 s)

/-- VKA is good, in mV (R551, R567). -/
def vkaGood (mv : Nat) : Bool := decide (3000 ≤ mv)

/-- Feeds and VKA as they read now, and the end of a thermal trip: both feeds below 20 V for 1 s (R551, R554). -/
def feedsChange (a b vka : Nat) (s : State) : State :=
  let low := decide (a < 20000) && decide (b < 20000)
  let cooled : Bool := match s.pwr.below20 with | some t => decide (t + ticksS ≤ s.tor.tor) | none => false
  let tripped := s.pwr.tripped && !cooled
  let s := setFeeds a b { s with pwr := { s.pwr with vkaOk := vkaGood vka, tripped := tripped,
                                                     below20 := if low then some (s.pwr.below20.getD s.tor.tor) else none } }
  if !s.pwr.on ∧ !s.pwr.aOk ∧ !s.pwr.bOk ∧ !s.pwr.vkaOk then loseKept s else s

/-! ### Clocks (27 R588) -/

/-- The ports of a hub: Armature ports 0 to 3 and channel ports 0 to 5 are north (13 R284). -/
def hubPorts (south : Bool) : List PortId :=
  if south then [.arm 4, .arm 5, .arm 6, .arm 7, .ch 6, .ch 7, .ch 8, .ch 9, .ch 10, .ch 11]
  else [.arm 0, .arm 1, .arm 2, .arm 3, .ch 0, .ch 1, .ch 2, .ch 3, .ch 4, .ch 5]

/-- A port's hub has lost its lane clock. -/
def clockOff (p : PortId) (s : State) : Bool :=
  match p with
  | .arm k => if k < 4 then s.pin.sdsNLost else s.pin.sdsSLost
  | .ch k => if k < 6 then s.pin.sdsNLost else s.pin.sdsSLost

/-- The ports of a hub go DOWN and stay in DETECT (27 R588). -/
def hubDown (south : Bool) (s : State) : State :=
  (hubPorts south).foldl (fun s p =>
    if (linkOf p s).state = 0 then s
    else linkRestart p (if (linkOf p s).state = 8 then s else linkDown p s)) s

end Sys2Proof.Machine
end

