-- ==== Sys2Proof/Machine/OpsTrust.lean ====
section
/-! DEFINITION. Identity and attestation reports (01_overview R23; 18_trust R415 to R417; 23_control_store R524). -/

namespace Sys2Proof.Machine

/-- `ID_PART` at silicon revision B0 (01 R23). -/
def idPart : Long := pack [(63, 48, 0x7E1A), (47, 32, 0x7192), (31, 24, 2), (23, 16, 0), (15, 8, 7)]

/-- `ID_ORDER`. -/
def idOrder : Long := 0x44373139322D4D41

/-- `ID_TOPOLOGY`. Until discovery has assigned a node ID, NODE_ID is the one of the MODULE section, though `NODE_MODE` 0 ignores it
(DESIGN CHOICE, log entry 99). -/
def idTopology (s : State) : Long :=
  pack [(63, 56, 204), (55, 48, 192), (47, 40, 12), (39, 32, 48), (31, 26, s.arm.node.getD ((s.pln.module_.map (·.nodeId)).getD 0)),
        (25, 25, b2n s.arm.node.isSome)]

/-- The 32 bytes of an extent descriptor (02 R31). -/
def extentBytes (e : Extent) : List Byte := beBytes 8 e.real ++ beBytes 8 e.size ++ beBytes 8 e.phys ++ beBytes 1 e.attr ++ List.replicate 7 0

/-- The 624 bytes of a PARTITION body (02 R30, R31). -/
def partBody (d : PlnPart) : List Byte :=
  beBytes 1 d.id ++ beBytes 1 d.pflags ++ beBytes 1 d.extents.length ++ [0] ++ beBytes 2 d.torCmp ++ [0, 0] ++ fixLen 0 16 d.uuid ++
  fixLen 0 32 d.name ++ beBytes 24 d.coreMap ++ beBytes 2 d.cacheWays ++ beBytes 2 d.chPorts ++ beBytes 4 d.subchBase ++ beBytes 4 d.subchCount ++
  beBytes 2 d.keyBase ++ beBytes 2 d.keyCount ++ beBytes 4 d.hostPerm ++ beBytes 2 d.clkMin ++ beBytes 2 d.clkMax ++ List.replicate 8 0 ++
  fixLen 0 512 (d.extents.flatMap extentBytes)

/-- `CS_MEAS` (23 R524). -/
def csMeas (s : State) : List Byte :=
  sha384 ([1, 2, 3, 4].flatMap (fun t => match tget none t s.cs.img with | some i => sha384 i.signed | none => []))

/-- The report's 48-byte fields are zeros while there is nothing to measure. -/
def meas48 (b : List Byte) : List Byte := fixLen 0 48 b

/-- A report (R415): scope 0 module, 1 partition, 2 link. -/
def report (scope : Nat) (part : Option Nat) (nonce : List Byte) (s : State) : List Byte :=
  let d := part.bind (fun p => partOf p s)
  let dbg := b2n s.tr.moduleDebug + 2 * b2n (part.any (fun p => tget false p s.tr.debug))
  let body := beBytes 4 0x41545354 ++ beBytes 2 1 ++ beBytes 1 scope ++ beBytes 1 (part.getD 0xFF) ++ beBytes 8 Config.serial.toNat ++
    beBytes 8 idPart.toNat ++ beBytes 1 (s.arm.node.getD 0xFF) ++ List.replicate 7 0 ++ beBytes 8 s.tor.tor ++ beBytes 1 (torQuality s) ++
    beBytes 1 s.pln.owners.length ++ beBytes 1 dbg ++ List.replicate 5 0 ++ beBytes 8 s.pln.generation ++ List.replicate 8 0 ++ fixLen 0 32 nonce ++
    fixLen 0 48 (ownerHash s) ++ meas48 s.tr.meas ++ meas48 (csMeas s) ++ meas48 s.tr.fwMeas ++ fixLen 0 16 ((d.map (·.uuid)).getD []) ++
    fixLen 0 48 ((d.map (fun x => sha384 (partBody x))).getD []) ++ List.replicate 32 0
  body ++ fixLen 0 96 (Config.signEc (s.tr.idEc.getD 0) body) ++ fixLen 0 3309 (Config.signMl (s.tr.idMl.getD []) body) ++ [0, 0, 0]

/-- The report that discovery sends over the peer's nonce (R417; 14 R309). -/
def linkReport (nonce : List Byte) (s : State) : List Byte := report 2 none nonce s

/-- Bytes of a report. -/
def reportLen : Nat := 3792

/-! ### Requests for reports (R417, R429) -/

/-- The area of a report through `TR_ATT_CMD` may be named: a multiple of 8, wholly in the service window. -/
def attAreaOk (off : Nat) : Bool := off % 8 == 0 && decide (off + reportLen ≤ svcSize)

/-- The result of the last `TR_ATT_CMD`. -/
def attResult (r : Nat) (s : State) : State := { s with tr := { s.tr with attResult := r } }

/-- `TR_ATT_CMD` (R429): a module report, or a report of a partition that is defined. -/
def attCommand (part : Option Nat) (off : Nat) (s : State) : State :=
  if s.tr.attBusy || part.any (fun p => pstateOf p s == .undefined) then attResult 0x0C s
  else if !attAreaOk off then attResult 3 s
  else { s with tr := { s.tr with attBusy := true, attResult := 0, attJob := some { part := part, off := off } } }

/-- The report through `TR_ATT_CMD` is formed and written to the service window (R417; 24 R539). -/
def attComplete (s : State) : State :=
  match s.tr.attJob with
  | none => s
  | some j =>
    let s := { s with tr := { s.tr with attBusy := false, attJob := none } }
    if j.part.any (fun p => pstateOf p s == .undefined) then pf0Vector 4 (attResult 0x0C s)
    else
      let r := report (if j.part.isSome then 1 else 0) j.part (svcBytes j.off 32 s) s
      pf0Vector 4 (attResult 0 (svcWrite j.off r s))

/-- `TR_PATTn` of a partition. -/
def pattOf (n : Nat) (s : State) : PAtt := tget {} n s.tr.patt

/-- Write it. -/
def setPatt (n : Nat) (v : PAtt) (s : State) : State := { s with tr := { s.tr with patt := tset {} n v s.tr.patt } }

/-- A write of `TR_PATTn` (R429). -/
def pattWrite (n : Nat) (val : Long) (s : State) : State :=
  let v := { pattOf n s with addr := fld val 51 6 * 64 }
  if 48 ≤ n then s
  else if v.busy || fld val 63 60 != 1 || pstateOf n s == .undefined then setPatt n { v with result := 0x0C } s
  else if !partMapped n v.addr reportLen s then setPatt n { v with result := 3 } s
  else setPatt n { v with busy := true, result := 0, area := v.addr } s

/-- The report through `TR_PATTn` is formed over the area in the partition's storage, performed before `BUSY` clears (R417). Where
lines of the area are at a remote home and not here, they are asked for first. -/
def pattComplete (n : Nat) (s : State) : State :=
  let v := pattOf n s
  if !v.busy then s
  else if v.wrote then (if agentPending .service s then s else setPatt n { v with busy := false, result := 0, area := 0, wrote := false } s)
  else if !partMapped n v.area reportLen s then setPatt n { v with busy := false, result := 3, area := 0 } s
  else if !(partMissing .service n v.area 32 s).isEmpty then askMissing .service n (partMissing .service n v.area 32 s) s
  else
    let r := report 1 (some n) (partRead .service n v.area 32 s).1 s
    let s := partWrite .service n v.area r (partSeen .service n v.area 32 s)
    if agentPending .service s then setPatt n { v with wrote := true } s else setPatt n { v with busy := false, result := 0, area := 0 } s

end Sys2Proof.Machine
end

