-- ==== Sys2Proof/Machine/OpsDisco.lean ====
section
/-! DEFINITION. Discovery on a port, node IDs, advertisements, route epochs, and what a message does on arrival (14_armature R309 to
R326). -/

namespace Sys2Proof.Machine

/-! ### Discovery (R309 to R311) -/

/-- A port by its number in discovery: Armature ports 0 to 7, channel port n as 8 + n. -/
def discoPort (p : Nat) : PortId := if p < 8 then .arm p else .ch (p - 8)

/-- What a port has learnt of its peer. -/
def peerOf (p : Nat) (s : State) : Peer := tget {} p s.arm.peers

/-- Write it. -/
def setPeer (p : Nat) (x : Peer) (s : State) : State := { s with arm := { s.arm with peers := tset {} p x s.arm.peers } }

/-- A message of discovery leaves on a port (R309). -/
def discoSend (p what : Nat) (body : List Byte) (s : State) : State := mgtSend (discoPort p) what body (emit (.discovery p what body) s)

/-- Body of a HELLO (R309): version, serial, node ID or 0xFF, `NODE_MODE`, port, nonce. -/
def helloBody (version : Nat) (serial : Long) (node nodeMode port : Nat) (nonce : List Byte) : List Byte :=
  beBytes 1 version ++ beBytes 8 serial.toNat ++ beBytes 1 node ++ beBytes 1 nodeMode ++ beBytes 1 port ++ nonce

/-- A port enters KEY: this end's HELLO goes out with a fresh nonce (R309). -/
def sendHello (p : Nat) (s : State) : State :=
  let r := drawBytes (drbgCount 48 s) 32
  let body := helloBody 1 Config.serial ((r.2.arm.node).getD 0xFF) ((r.2.pln.module_.map (·.nodeMode)).getD 0) (p % 8) r.1
  discoSend p 1 body (setPeer p { (peerOf p r.2) with step := 0, sentConfirm := false, nonce := r.1, transcript := body, secret := [] } r.2)

/-- A peer is refused (R311): recorded, logged, counted, and the port goes DOWN. -/
def refusePeer (p code : Nat) (s : State) : State :=
  let s := setPeer p { (peerOf p s) with result := code } s
  linkDown (discoPort p) (logState (srcPort (discoPort p)) code (patina (srcPort (discoPort p)) s))

/-- This end is the initiator (R309). -/
def isInitiator (x : Peer) : Bool := decide (Config.serial.toNat < x.serial.toNat)

/-- Two bodies of one step in the order of the transcript: the initiator's first. -/
def inOrder (init : Bool) (own peer : List Byte) : List Byte := if init then own ++ peer else peer ++ own

/-- The node ID that a peer names is held by another serial (R311). -/
def dupNode (node : Nat) (serial : Long) (s : State) : Bool :=
  node != 0xFF && ((s.arm.node == some node && serial != Config.serial) ||
    (match tget none node s.arm.db with | some m => m.adv.serial != serial | none => false))

/-- A HELLO arrives (R309, R311): this end's IDENTITY answers it, over the peer's nonce. -/
def onHello (p version : Nat) (serial : Long) (node nodeMode peerPort : Nat) (nonce : List Byte) (s : State) : State :=
  let x := peerOf p s
  if version ≠ 1 then refusePeer p 7 s
  else if dupNode node serial s then refusePeer p 5 s
  else
    let x := { x with serial := serial, node := node, port := peerPort % 8 }
    let init := isInitiator x
    let t := inOrder init x.transcript (helloBody version serial node nodeMode peerPort nonce)
    let report := linkReport nonce s
    let own := Config.certificates ++ ownerHash s ++ report
    discoSend p 2 own (setPeer p { x with step := 1, transcript := t, secret := own } s)

/-- An IDENTITY arrives (R309, R311): the initiator goes on with its KEM_OFFER. -/
def onIdentity (p : Nat) (certs hash report : List Byte) (s : State) : State :=
  let x := peerOf p s
  if !Config.chainOk certs x.serial then refusePeer p 1 s
  else if !Config.reportOk certs report || bytesAt report 0x40 32 != x.nonce then refusePeer p 2 s
  else if s.pln.owners = [] ∨ allZero hash = true then refusePeer p 3 s
  else if hash ≠ ownerHash s then refusePeer p 4 s
  else
    let init := isInitiator x
    let t := x.transcript ++ inOrder init x.secret (certs ++ hash ++ report)
    if init then
      let seed := s.free
      let s := (drawLong s).2
      let offer := Config.kemPublic seed
      discoSend p 3 offer (setPeer p { x with step := 3, transcript := t ++ offer, secret := beBytes 8 seed } s)
    else setPeer p { x with step := 2, transcript := t, secret := [] } s

/-- A CONFIRM (R309, R310): under the confirmation key of its direction, 1 from the initiator. -/
def confirmMac (secret transcript : List Byte) (dir : Byte) : List Byte :=
  hmac 1 (kdf secret [1, dir] (sha384 transcript) 384) transcript

/-- Both ephemeral keys are known: this end sends its CONFIRM (R309, R310). -/
def sendConfirm (p : Nat) (s : State) : State :=
  let x := peerOf p s
  discoSend p 5 (confirmMac x.secret x.transcript (if isInitiator x then 1 else 2)) (setPeer p { x with step := 4, sentConfirm := true } s)

/-- A KEM_OFFER arrives at the responder (R309, R310). -/
def onOffer (p : Nat) (offer : List Byte) (s : State) : State :=
  let x := peerOf p s
  let seed := s.free
  let s := (drawLong s).2
  let reply := Config.kemReply seed offer
  let s := setPeer p { x with transcript := x.transcript ++ offer ++ reply, secret := Config.kemSecret (beBytes 8 seed) offer } s
  sendConfirm p (discoSend p 4 reply s)

/-- A KEM_REPLY arrives at the initiator (R309, R310). -/
def onReply (p : Nat) (reply : List Byte) (s : State) : State :=
  let x := peerOf p s
  sendConfirm p (setPeer p { x with transcript := x.transcript ++ reply, secret := Config.kemSecret x.secret reply } s)

/-- The peer's CONFIRM arrives (R310, R311): the port enters ACTIVE with key phase 0, or the peer is refused. -/
def onConfirm (p : Nat) (mac : List Byte) (s : State) : State :=
  let x := peerOf p s
  let init := isInitiator x
  if mac ≠ confirmMac x.secret x.transcript (if init then 2 else 1) then refusePeer p 6 s
  else
    let s := setPeer p { x with step := 6, result := 0, secret := [], transcript := [] } s
    let s := modLink (discoPort p) (fun l => { l with secret := x.secret, context := sha384 x.transcript, initiator := init }) s
    linkActive (discoPort p) false s

/-! ### Node IDs and advertisements (R312, R313) -/

/-- The module takes a node ID (R312). -/
def takeNode (n : Nat) (s : State) : State := let s := setNode (some n) s; { s with arm := { s.arm with lastId := n } }

/-- The ID that a module claims: its last one where it is absent from the database, else the lowest absent one (R312). -/
def claimId (s : State) : Nat :=
  let free (n : Nat) : Bool := (tget none n s.arm.db).isNone
  if free s.arm.lastId then s.arm.lastId else ((List.range 64).find? free).getD 63

/-- Ticks without a change of the database before a claim (R312). -/
def claimTicks : Nat := 40000000

/-- The module may claim an ID now (R312). -/
def mayClaim (s : State) : Bool :=
  s.arm.node.isNone && !(activeArm s).isEmpty && (s.pln.module_.map (·.nodeMode)).getD 0 == 0 && decide (s.arm.dbChange + claimTicks ≤ s.tor.tor)

/-- A claim is made and flooded (R312, R323). -/
def makeClaim (s : State) : State :=
  let s := takeNode (claimId s) s
  announceChange { s with arm := { s.arm with claimed := some s.tor.tor, fstate := 3, routes := [] } }

/-- What an advertisement says beside its sequence number. -/
def advSame (a b : Adv) : Bool := { a with seq := 0 } == { b with seq := 0 }

/-- An advertisement of another module arrives on port p (R312, R313): kept and forwarded. Where it gives a neighbour another node ID, this
module's own advertisement has changed. -/
def onAdv (p : Nat) (a : Adv) (s : State) : State :=
  if s.arm.node = some a.node then
    -- another module claims this module's ID: the lower serial keeps it
    let young : Bool := match s.arm.claimed with | some t => decide (s.tor.tor < t + claimTicks) | none => false
    if young ∧ a.serial.toNat < Config.serial.toNat then
      let s := setNode none { s with arm := { s.arm with db := tdel a.node s.arm.db, claimed := none } }
      let s := { s with arm := { s.arm with fstate := 1, db := tset none a.node (some { adv := a, seen := s.tor.tor }) s.arm.db, dbChange := s.tor.tor } }
      floodAdv (fun q => q != p) a s
    else s
  else
    let old := tget none a.node s.arm.db
    let newer : Bool := match old with | some m => decide (m.adv.seq < a.seq) | none => true
    if !newer then s
    else
      let same : Bool := match old with | some m => advSame m.adv a | none => false
      let s := { s with arm := { s.arm with db := tset none a.node (some { adv := a, seen := s.tor.tor }) s.arm.db } }
      let new : Bool := (peerOf p s).serial == a.serial && (peerOf p s).node != a.node
      let s := if new then setPeer p { (peerOf p s) with node := a.node } s else s
      let s := if same then s else checkMaster (dbChanged s)
      let s := floodAdv (fun q => q != p) a s
      if new then floodOwn s else s

/-- Ticks between this module's own advertisements, and the age at which a member is removed (R313). -/
def advTicks : Nat := 400000000
def memberTicks : Nat := 4000000000

/-- A member that has not renewed its advertisement for 1 s is removed (R313). -/
def dropMember (n : Nat) (s : State) : State := checkMaster (dbChanged { s with arm := { s.arm with db := tset none n none s.arm.db } })

/-! ### Route epochs (R314 to R316, R323, R325) -/

/-- The switch TOR of an announcement made now (R314): the first multiple of 1 ms at least 1 ms ahead. -/
def switchTor (s : State) : Nat := cdiv (s.tor.tor + ticksMs) ticksMs * ticksMs

/-- An announcement, or a report of a difference, floods on the ACTIVE ports (R314, R315). -/
def floodEpoch (num tor : Nat) (digest : List Byte) (s : State) : State :=
  (activeArm s).foldl (fun s p => mgtSend (.arm p) 7 (beBytes 8 num ++ beBytes 8 tor ++ digest) s) (emit (.epoch num tor digest) s)

/-- The routes of the epoch that is announced, in the shadow table (R315). -/
def castShadow (s : State) : State :=
  { s with arm := { s.arm with shadow := (computeRoutes s).1, shadowLabels := levelsOf (hopsOf (routeDb s)) (rootOf (routeDb s)) } }

/-- This module announces an epoch (R314). -/
def announceEpoch (s : State) : State :=
  let n : EpochAnn := { num := s.arm.epoch + 1, tor := switchTor s, digest := dbDigest s }
  floodEpoch n.num n.tor n.digest (castShadow { s with arm := { s.arm with next := some n, change := false } })

/-- A report that a digest differs arrives (R315): the announcer opens another epoch, any other node passes it on, once. In the model's own
layout it is an announcement whose switch TOR is 0 (log entry 41). -/
def onReport (num : Nat) (digest : List Byte) (s : State) : State :=
  if s.arm.report = some (num, digest) then s
  else
    let t := { s with arm := { s.arm with report := some (num, digest) } }
    if announcer s then { t with arm := { t.arm with change := true } } else floodEpoch num 0 digest t

/-- An announcement arrives (R314): it is flooded on, and at most one epoch is pending. -/
def onEpoch (num tor : Nat) (digest : List Byte) (s : State) : State :=
  if tor = 0 then onReport num digest s
  else if num ≤ s.arm.epoch ∨ s.arm.next.isSome = true then s
  else floodEpoch num tor digest (castShadow { s with arm := { s.arm with next := some { num := num, tor := tor, digest := digest }, change := false } })

/-- The partitions of the image in force are applied. -/
def partsApplied (s : State) : Bool := s.pwr.phase == .ready && s.pln.job.isNone

/-- TOR reaches the switch (R315): the routes are swapped and the elected master takes office, or the old table stays where the
digest differs, which is reported (log entry 41). -/
def switchEpoch (n : EpochAnn) (s : State) : State :=
  if dbDigest s ≠ n.digest then
    let s := { s with arm := { s.arm with next := none, change := true, shadow := [], shadowLabels := [], report := some (n.num, dbDigest s) } }
    floodEpoch n.num 0 (dbDigest s) s
  else
    let r := computeRoutes s
    let s := r.2
    let s := { s with arm := { s.arm with epoch := n.num, epochTor := n.tor, next := none, prev := s.arm.routes, prevUntil := n.tor + ticksMs, routes := r.1,
                                          prevLabels := s.arm.labels, labels := levelsOf (hopsOf (routeDb s)) (rootOf (routeDb s)), root := rootOf (routeDb s), shadow := [], shadowLabels := []
                                          leaveAt := if s.arm.fstate = 5 ∧ s.arm.telling.isNone then some (n.tor + ticksMs) else s.arm.leaveAt } }
    let s := takeOffice (elect (routeDb s)) (logState (srcPort (.arm 0)) n.num s)
    if s.arm.fstate = 3 ∧ partsApplied s then becomeMember s else s

/-! ### Messages on arrival (R303 to R305, R316, R317) -/

/-- The tags that a destination keeps of a source. -/
def tagMax : Nat := 4096

/-- A message of a kind that does not belong to its VC or is not its command's, or whose body is too long, is malformed (R303, R304). -/
def malformed (kind : Nat) (m : Msg) : Bool := kindVc m.kind != some m.vc || m.kind != kind || decide (8192 < m.body.length) || decide (64 ≤ m.dest) || decide (64 ≤ m.src) || decide (65536 ≤ m.tag)

/-- A message arrives on an ACTIVE port (R304, R305, R307, R316, R317): malformed ones are counted, those for another node are
forwarded, a RESENT one whose tag is known is answered again, and what remains is served. `once` is false for responses, which a
tag that is no longer outstanding discards. -/
def receive (kind : Nat) (once : Bool) (serve : Msg → State → State) (m : Msg) (s : State) : State :=
  if malformed kind m then patina 0x299 s
  else if s.arm.node ≠ some m.dest then forwardMsg m (some m.via) s
  else if !once then serve m s
  else
    let known := tget [] m.src s.arm.recent
    if m.resent ∧ known.contains m.tag = true then
      match tget none (m.src * 65536 + m.tag) s.arm.answered with
      | some a => forwardMsg { a with epoch := decide (s.arm.epoch % 2 = 1) } none s
      | none => s
    else
      let gone := (m.tag :: known.filter (fun t => t != m.tag)).drop tagMax
      let s := { s with arm := { s.arm with recent := tset [] m.src ((m.tag :: known.filter (fun t => t != m.tag)).take tagMax) s.arm.recent,
                                            answered := (m.tag :: gone).foldl (fun t g => tset none (m.src * 65536 + g) none t) s.arm.answered } }
      serve m s

/-- A request reaches its home (R320); an address of another node is malformed. -/
def serveReq (m : Msg) (s : State) : State := if isLocal m.addr s then wakeAll (homeServe m s) else patina 0x299 s

/-- The request that a response answers: this module's own, by tag. -/
def reqOf (m : Msg) (s : State) : Option OutReq := s.arm.reqs.find? (fun r => r.msg.tag == m.tag && r.msg.addr / 128 == m.addr / 128)

/-- It is no longer outstanding. -/
def endReq (tag : Nat) (s : State) : State := { s with arm := { s.arm with reqs := s.arm.reqs.filter (fun r => r.msg.tag != tag) } }

/-- A line of a remote home arrives or its ownership does (R320). -/
def fillRemote (line : Nat) (data : List Byte) (owned poison : Bool) (s : State) : State :=
  { s with arm := { s.arm with rlines := tset none line (some { data := fixLen 0 128 data, owned := owned, poison := poison }) s.arm.rlines } }

/-- The value of an uncached access reaches the core that made it (20 R464). -/
def ucArrive (l tag : Nat) (data : List Byte) (poison : Bool) (s : State) : State :=
  let put (b : List UcVal) : List UcVal := b.map (fun u => if u.tag = tag ∧ u.data.isNone then { u with data := some (data.take u.n), poison := poison } else u)
  modCore l (fun c => { c with ucBuf := put c.ucBuf, atomBuf := put c.atomBuf, sysBuf := put c.sysBuf }) s

/-- What a request's data does for it (R304, R320): the line, which a core's request brings into its L2 (11 R240), or the value of an
uncached access for its core. -/
def completeReq (r : OutReq) (data : List Byte) (poison : Bool) (s : State) : State :=
  let s := endReq r.msg.tag s
  let line := r.msg.addr / 128
  if r.msg.kind = 6 then
    match r.who with
    | .core l => ucArrive l r.msg.tag data poison s
    | .coreUc l => ucArrive l r.msg.tag data poison s
    | _ => agentArrive r.msg.tag data poison s
  else
    let s := fillRemote line data (decide (r.msg.kind ≠ 2)) poison s
    match r.who with
    | .core l => if l2On (coreOf l s) then fillL2 l line r.part s else s
    | who => prefDone who line r.part s

/-- A store that a core made at a remote home is over: performed, or dropped because its home is unreachable (R318; 10 R217). -/
def storeOver (r : OutReq) (performed : Bool) (s : State) : State :=
  let go (l : Nat) (s : State) : State := if performed then storeDone l r.msg.tag s else storeDropped l r.msg.tag s
  match r.who with
  | .core l => go l s
  | .coreUc l => go l s
  | .coreWc l _ => go l s
  | _ => s

/-- A DATA message arrives: of a SNOOP of this home, or for a request of this module. -/
def serveData (m : Msg) (s : State) : State :=
  let d := dataOf m.body
  if isLocal m.addr s then wakeAll (snoopAnswered (m.addr / 128) m.src m.tag (some d) false s)
  else match reqOf m s with
    | some r => wakeAll (completeReq r d.1 d.2 s)
    | none => s

/-- A DONE message arrives. -/
def serveDone (m : Msg) (s : State) : State :=
  if isLocal m.addr s then wakeAll (snoopAnswered (m.addr / 128) m.src m.tag none (natAt m.body 0 1 == 1) s)
  else match reqOf m s with
    | none => s
    | some r =>
      let s := endReq r.msg.tag s
      if r.msg.kind = 4 then
        let line := m.addr / 128
        match tget none line s.arm.rlines with
        | some x => wakeAll { s with arm := { s.arm with rlines := tset none line (some { x with owned := true }) s.arm.rlines } }
        | none => s
      else wakeAll (if r.msg.kind = 6 then storeOver r true s else s)

/-- Most sendings of one message (R317). -/
def sendMax : Nat := 3

/-- A request of this module to itself, which its own home has queued: nothing of it is in transit. -/
def ownHome (r : OutReq) (s : State) : Bool := r.msg.dest == s.arm.node.getD 0

/-- A REQ or MIRROR that has no response after 1 ms is sent again (R317). -/
def resend (tag : Nat) (s : State) : State :=
  let due (last sends : Nat) : Bool := decide (last + ticksMs ≤ s.tor.tor) && decide (sends < sendMax)
  let again (m : Msg) (s : State) : State := forwardMsg { m with resent := true, epoch := decide (s.arm.epoch % 2 = 1) } none s
  match s.arm.reqs.find? (fun r => r.msg.tag == tag) with
  | some r =>
    if due r.last r.sends && !ownHome r s then
      let rs := s.arm.reqs.map (fun x => if x.msg.tag = tag then { x with last := s.tor.tor, sends := x.sends + 1 } else x)
      again r.msg { s with arm := { s.arm with reqs := rs } }
    else s
  | none => match s.jnl.out.find? (fun x => x.tag == tag) with
    | some x =>
      if due x.last x.sends then
        let os := s.jnl.out.map (fun y => if y.tag = tag then { y with last := s.tor.tor, sends := y.sends + 1 } else y)
        again (ownMsg (partnerNode s) 0 tag 0 (mirrorBody x.index x.trans x.sync x.entry) s) { s with jnl := { s.jnl with out := os } }
      else s
    | none => s

/-- A REQ without a response for 3 ms is unreachable (R318): event 0x07 of the partition that it served. -/
def unreachable (tag : Nat) (s : State) : State :=
  match s.arm.reqs.find? (fun r => r.msg.tag == tag) with
  | none => s
  | some r =>
    if s.tor.tor < r.first + 3 * ticksMs || ownHome r s then s
    else
      let s := raisePart 0x07 r.part r.msg.addr s
      let n := natAt r.msg.body 1 1
      if r.msg.kind = 5 then wakeAll (endReq tag s)
      else if r.msg.kind = 6 ∧ unDone (natAt r.msg.body 0 1) then wakeAll (storeOver r false (endReq tag s))
      else
        let d := drawBytes s (if r.msg.kind = 6 then n else 128)
        wakeAll (completeReq r d.1 true d.2)

/-- A SNOOP not completed in 3 ms (R318): the line is poisoned at the home, and its silent holders leave the directory. -/
def snoopLate (line : Nat) (s : State) : State :=
  match txnOf line s with
  | none => s
  | some t =>
    if s.tor.tor < t.since + 3 * ticksMs || t.room.isSome then s
    else
      let e := dirOf line s
      let holders := (e.map (·.holders)).getD 0
      let s := dirPut line ((e.map (·.owned)).getD false) (holders - (holders &&& t.waiting)) (setPoison line true s)
      let s := setTxn line (some { t with waiting := 0 }) s
      wakeAll (homeComplete line false s)

/-! ### Departure and return (R324 to R326) -/

/-- `ARM_CMD` LEAVE. -/
def leaveCmd (s : State) : State :=
  match tryLeave s with
  | some t => { t with arm := { t.arm with lastResult := 0 } }
  | none => { s with arm := { s.arm with lastResult := 0x0C } }

/-- `ARM_CMD` REJOIN, in LEFT. -/
def rejoinCmd (s : State) : State :=
  if s.arm.fstate ≠ 6 then { s with arm := { s.arm with lastResult := 0x0C } }
  else
    let s := { s with arm := { s.arm with fstate := 1, lastResult := 0, discoStart := s.tor.tor, dbChange := s.tor.tor, leaveAt := none }, pin := { s.pin with removeOk := false } }
    (List.range 8).foldl (fun s p => if portGranted (.arm p) s then linkRestart (.arm p) s else s) s

/-- LEFT (R325, step 4): every Armature port is held in DISABLED and REMOVE_OK is asserted. -/
def enterLeft (s : State) : State :=
  let s := { s with arm := { s.arm with fstate := 6, leaveAt := none, telling := none, shadow := [], shadowLabels := [], db := [], routes := [], prev := [], labels := [], prevLabels := [], next := none, change := false } }
  let s := (List.range 8).foldl (fun s p => linkOff (.arm p) s) s
  takeOffice none { s with pin := { s.pin with removeOk := true } }

end Sys2Proof.Machine
end

