-- ==== Sys2Proof/Machine/OneShots.lean ====
section
/-! DEFINITION. What the step of TOR at the start passes over: the one-shot deadlines, which fire at once in their order, and the heartbeats
(03_time_of_record R69 to R71). -/

namespace Sys2Proof.Machine

/-- A one-shot event that the module schedules against TOR (R70). -/
inductive OneShot where
  | cmp (l n : Nat)
  | op (i : Nat)
  | grace (src : Nat)
  | epoch
  | holddown
deriving DecidableEq, Repr

/-- Comparator n of core l is armed and its value is reached (R73). -/
def cmpDue (l n : Nat) (s : State) : Bool :=
  decide (n < 4) && (fld (coreOf l s).torctl 3 0).testBit n && decide ((cmpValue n (coreOf l s) s).toNat ≤ s.tor.tor)

/-- The one-shot deadlines up to the present TOR, each with its event. -/
def deadlines (s : State) : List (Nat × OneShot) :=
  let cmps := s.cpu.core.flatMap (fun e => (List.range 4).filterMap (fun n =>
    if cmpDue e.1 n s then some ((cmpValue n (coreOf e.1 s) s).toNat, OneShot.cmp e.1 n) else none))
  let ops := s.ch.ops.filterMap (fun e => match e.2 with
    | some o => (match o.wait with
      | .tor t => if t ≤ s.tor.tor then some (t, OneShot.op e.1) else none
      | .held => if o.blk.relTor ≤ s.tor.tor then some (o.blk.relTor, OneShot.op e.1) else none
      | _ => none)
    | none => none)
  let graces := s.flt.status.filterMap (fun e => (graceEnd e.1 s).bind (fun t => if t ≤ s.tor.tor then some (t, OneShot.grace e.1) else none))
  let epoch := match s.arm.next with | some n => if n.tor ≤ s.tor.tor then [(n.tor, OneShot.epoch)] else [] | none => []
  let hold := if holdOver s then [(s.dx.holdEnd, OneShot.holddown)] else []
  cmps ++ ops ++ graces ++ epoch ++ hold

/-- A place in the order of deadlines. -/
def insertDeadline (x : Nat × OneShot) : List (Nat × OneShot) → List (Nat × OneShot)
  | [] => [x]
  | y :: t => if x.1 ≤ y.1 then x :: y :: t else y :: insertDeadline x t

/-- A one-shot event fires. -/
def fireShot (x : OneShot) (s : State) : State :=
  match x with
  | .cmp l n => if cmpDue l n s then modCore l (fireCmp n) s else s
  | .op i => chRun i s
  | .grace src => if (graceEnd src s).any (fun t => decide (t ≤ s.tor.tor)) then graceOver src s else s
  | .epoch => (match s.arm.next with | some n => switchEpoch n s | none => s)
  | .holddown => if holdOver s then releasePorts s else s

/-- The heartbeats that a step of TOR passes over are one (R71). -/
def skipBeats (s : State) : State :=
  let go (h : HbState) : HbState := if h.due + hbPeriod ≤ s.tor.tor then { h with due := s.tor.tor / hbPeriod * hbPeriod, arrived := [] } else h
  { s with dx := { s.dx with arm := go s.dx.arm, ded := go s.dx.ded } }

/-- After a command from `before`: where it stepped TOR forward, every one-shot deadline that the step passed fires at once, in order of
deadline (R71). -/
def fireStep (before s : State) : State :=
  if s.tor.step = before.tor.step then s
  else ((deadlines s).foldr insertDeadline []).foldl (fun s x => fireShot x.2 s) (skipBeats s)

end Sys2Proof.Machine
end

