-- ==== Sys2Proof/Machine/FabricCmd.lean ====
section
/-! DEFINITION. The commands of the Armature: discovery, node IDs, link state, route epochs, messages, departure
(14_armature R301 to R326). -/

namespace Sys2Proof.Machine

/-- A port waits for a step of discovery (R294, R309): it is in KEY and the exchange has come this far. -/
def atStep (p k : Nat) (s : State) : Bool :=
  operating s && decide (p < 20) && (linkOf (discoPort p) s).state == 5 && (peerOf p s).step == k

/-- HELLO (R309, R311). -/
def execHello (p version : Nat) (serial : Long) (node nodeMode peerPort : Nat) (nonce : List Byte) (s : State) : Host.Outcome State Fault Refusal :=
  if atStep p 0 s then done s (onHello p version serial node nodeMode peerPort nonce s) else .next s

/-- IDENTITY (R309, R311). -/
def execIdentity (p : Nat) (certs ownerHash report : List Byte) (s : State) : Host.Outcome State Fault Refusal :=
  if atStep p 1 s then done s (onIdentity p certs ownerHash report s) else .next s

/-- KEM_OFFER (R309): at the responder. -/
def execKemOffer (p : Nat) (ek ecPub : List Byte) (s : State) : Host.Outcome State Fault Refusal :=
  if atStep p 2 s then done s (onOffer p (ek ++ ecPub) s) else .next s

/-- KEM_REPLY (R310): at the initiator. -/
def execKemReply (p : Nat) (ct ecPub : List Byte) (s : State) : Host.Outcome State Fault Refusal :=
  if atStep p 3 s then done s (onReply p (ct ++ ecPub) s) else .next s

/-- CONFIRM (R310, R311). -/
def execConfirm (p : Nat) (mac : List Byte) (s : State) : Host.Outcome State Fault Refusal :=
  if atStep p 4 s then done s (onConfirm p mac s) else .next s

/-- NODE_ID_CLAIM (R312). -/
def execNodeIdClaim (s : State) : Host.Outcome State Fault Refusal :=
  if operating s && mayClaim s then done s (makeClaim s) else .next s

/-- Ticks of discovery without an ACTIVE port before ALONE (R312). -/
def aloneTicks : Nat := 40000000000

/-- ALONE (R312). -/
def execAlone (s : State) : Host.Outcome State Fault Refusal :=
  if operating s ∧ s.arm.fstate = 1 ∧ (activeArm s).isEmpty = true ∧ s.arm.discoStart + aloneTicks ≤ s.tor.tor then
    let t := if s.arm.node.isSome then s else takeNode 0 s
    done s (floodOwn { t with arm := { t.arm with fstate := 2 } })
  else .next s

/-- LINK_STATE_ADVERTISEMENT (R313): another module's arrives on port p; or this module's own is due again after 100 ms. -/
def execLinkStateAdvertisement (p : Nat) (a : Adv) (s : State) : Host.Outcome State Fault Refusal :=
  if !operating s || s.arm.fstate = 0 || s.arm.fstate = 6 then .next s
  else if a.serial = Config.serial then
    match s.arm.node.bind (fun n => tget none n s.arm.db) with
    | some m => if m.seen + advTicks ≤ s.tor.tor then done s (floodOwn s) else .next s
    | none => done s (floodOwn s)
  else if p < 8 ∧ portActive (.arm p) s = true ∧ a.node < 64 then done s (onAdv p a s)
  else .next s

/-- MEMBER_TIMEOUT (R313). -/
def execMemberTimeout (node : Nat) (s : State) : Host.Outcome State Fault Refusal :=
  match tget none node s.arm.db with
  | some m => if operating s ∧ s.arm.node ≠ some node ∧ m.seen + memberTicks ≤ s.tor.tor then done s (dropMember node s) else .next s
  | none => .next s

/-- EPOCH_ANNOUNCE (R314): this module announces, or another's announcement arrives. -/
def execEpochAnnounce (rx : Option (Nat × Nat × List Byte)) (s : State) : Host.Outcome State Fault Refusal :=
  if !operating s then .next s
  else match rx with
    | none => if announcer s && s.arm.change && s.arm.next.isNone then done s (announceEpoch s) else .next s
    | some (num, tor, digest) => if (activeArm s).isEmpty then .next s else done s (onEpoch num tor digest s)

/-- ROUTE_EPOCH_SWITCH (R315). -/
def execRouteEpochSwitch (s : State) : Host.Outcome State Fault Refusal :=
  match s.arm.next with
  | some n => if operating s ∧ n.tor ≤ s.tor.tor then done s (fireStep s (switchEpoch n s)) else .next s
  | none => .next s

/-- ROUTE_TABLE_RETIRE (R316). -/
def execRouteTableRetire (s : State) : Host.Outcome State Fault Refusal :=
  if operating s ∧ s.arm.prevUntil ≤ s.tor.tor then done s { s with arm := { s.arm with prev := [] } } else .next s

/-- A message can arrive: on an Armature port that is ACTIVE. -/
def onPort (m : Msg) (s : State) : Bool := operating s && decide (m.via < 8) && portActive (.arm m.via) s

/-- MSG_READ (R320). -/
def execMsgRead (m : Msg) (s : State) : Host.Outcome State Fault Refusal :=
  if onPort m s then done s (receive 2 true serveReq m s) else .next s

/-- MSG_READ_OWN (R320). -/
def execMsgReadOwn (m : Msg) (s : State) : Host.Outcome State Fault Refusal :=
  if onPort m s then done s (receive 3 true serveReq m s) else .next s

/-- MSG_UPGRADE (R320). -/
def execMsgUpgrade (m : Msg) (s : State) : Host.Outcome State Fault Refusal :=
  if onPort m s then done s (receive 4 true serveReq m s) else .next s

/-- MSG_WRITEBACK (R320). -/
def execMsgWriteback (m : Msg) (s : State) : Host.Outcome State Fault Refusal :=
  if onPort m s then done s (receive 5 true serveReq m s) else .next s

/-- MSG_UNCACHED (R304; 10 R233). -/
def execMsgUncached (m : Msg) (s : State) : Host.Outcome State Fault Refusal :=
  if onPort m s then done s (receive 6 true serveReq m s) else .next s

/-- MSG_SNOOP (R320, R321): a home asks this module for what it holds. -/
def execMsgSnoop (m : Msg) (s : State) : Host.Outcome State Fault Refusal :=
  if onPort m s then done s (receive 7 true snoopServe m s) else .next s

/-- MSG_DATA (R304). -/
def execMsgData (m : Msg) (s : State) : Host.Outcome State Fault Refusal :=
  if onPort m s then done s (receive 8 false serveData m s) else .next s

/-- MSG_DONE (R304). -/
def execMsgDone (m : Msg) (s : State) : Host.Outcome State Fault Refusal :=
  if onPort m s then done s (receive 9 false serveDone m s) else .next s

/-- MESSAGE_RESEND (R317). -/
def execMessageResend (tag : Nat) (s : State) : Host.Outcome State Fault Refusal :=
  if operating s then done s (resend tag s) else .next s

/-- REQUEST_UNREACHABLE (R318). -/
def execRequestUnreachable (tag : Nat) (s : State) : Host.Outcome State Fault Refusal :=
  if operating s then done s (unreachable tag s) else .next s

/-- SNOOP_TIMEOUT (R318). -/
def execSnoopTimeout (line : Nat) (s : State) : Host.Outcome State Fault Refusal :=
  if operating s then done s (snoopLate line s) else .next s

/-- LEAVE (R324). -/
def execLeave (v : View) (s : State) : Host.Outcome State Fault Refusal :=
  if admin v s && operating s then done s (leaveCmd s) else .next s

/-- REJOIN (R326). -/
def execRejoin (v : View) (s : State) : Host.Outcome State Fault Refusal :=
  if admin v s && operating s then done s (rejoinCmd s) else .next s

/-- REMOVE_REQ_N (R324; 25 R566; 27 R590): asserted, the departure is tried now and at each governor epoch; released before LEAVING,
it is cancelled. -/
def execRemoveReqN (asserted : Bool) (s : State) : Host.Outcome State Fault Refusal :=
  if !operating s || !s.pin.prsnt then .next s
  else
    let t := { s with arm := { s.arm with removeReq := asserted } }
    done s (if asserted then (tryLeave t).getD t else cancelLeave t)

/-- ENTER_LEFT (R325, step 4). -/
def execEnterLeft (s : State) : Host.Outcome State Fault Refusal :=
  match s.arm.leaveAt with
  | some t => if operating s ∧ s.arm.fstate = 5 ∧ t ≤ s.tor.tor then done s (fireStep s (enterLeft s)) else .next s
  | none => .next s

end Sys2Proof.Machine
end

