-- ==== Sys2Proof/Machine/IntaglioCmd.lean ====
section
/-! DEFINITION. The commands of the Intaglio engines: a request taken, suspended for an urgent one, and its end
(19_intaglio R437, R438, R450 to R452). -/

namespace Sys2Proof.Machine

/-- An engine takes a request, and work in line that waited for it goes on. -/
def intTakes (k : Nat) (want : Nat → Bool) (s : State) : State := chWakeAll (intTake k want s)

/-- ENCRYPT; an undefined opcode, which ends with `PARAM_ERROR` (R432), is taken here too. -/
def execEncrypt (k : Nat) (s : State) : Host.Outcome State Fault Refusal :=
  done s (intTakes k (fun op => !(decide (2 ≤ op ∧ op ≤ 7) || decide (0x10 ≤ op ∧ op ≤ 0x13))) s)

/-- DECRYPT. -/
def execDecrypt (k : Nat) (s : State) : Host.Outcome State Fault Refusal := done s (intTakes k (fun op => op == 2) s)

/-- MAC_GEN. -/
def execMacGen (k : Nat) (s : State) : Host.Outcome State Fault Refusal := done s (intTakes k (fun op => op == 3) s)

/-- MAC_VERIFY. -/
def execMacVerify (k : Nat) (s : State) : Host.Outcome State Fault Refusal := done s (intTakes k (fun op => op == 4) s)

/-- HASH. -/
def execHash (k : Nat) (s : State) : Host.Outcome State Fault Refusal := done s (intTakes k (fun op => op == 5) s)

/-- KW_WRAP. -/
def execKwWrap (k : Nat) (s : State) : Host.Outcome State Fault Refusal := done s (intTakes k (fun op => op == 6) s)

/-- KW_UNWRAP. -/
def execKwUnwrap (k : Nat) (s : State) : Host.Outcome State Fault Refusal := done s (intTakes k (fun op => op == 7) s)

/-- GENKEY. -/
def execGenkey (k : Nat) (s : State) : Host.Outcome State Fault Refusal := done s (intTakes k (fun op => op == 0x10) s)

/-- UNWRAP. -/
def execUnwrap (k : Nat) (s : State) : Host.Outcome State Fault Refusal := done s (intTakes k (fun op => op == 0x11) s)

/-- WRAP. -/
def execWrap (k : Nat) (s : State) : Host.Outcome State Fault Refusal := done s (intTakes k (fun op => op == 0x12) s)

/-- CLEAR. -/
def execClear (k : Nat) (s : State) : Host.Outcome State Fault Refusal := done s (intTakes k (fun op => op == 0x13) s)

/-- The descriptor of a request is urgent (R450). -/
def isUrgent (d : List Byte) : Bool := (intDesc d).flags == 1

/-- An urgent request waits in a queue, and no engine is idle (R450). -/
def urgentWaits (s : State) : Bool := (List.range 8).all (fun k => !intIdle k s) && (urgentNext s).isSome

/-- An engine may suspend its request: not urgent, and no context is held (R450). -/
def maySuspend (k : Nat) (s : State) : Bool :=
  (intOf k s).susp.isNone && (match (intOf k s).job with | some j => !isUrgent j.desc | none => false)

/-- Input bytes of a request (R431, R455). -/
def intBytes (j : IntJob) : Nat := if j.line.isSome then j.input.length else inArea (intDesc j.desc)

/-- The boundary of a request's algorithm (R450): the block of its hash, or 16 bytes. -/
def suspendBlock (d : IntDesc) : Nat :=
  if d.op = 5 then hashBlock (d.mode - 0x20)
  else if (d.op = 3 ∨ d.op = 4) ∧ 0x11 ≤ d.mode then hashBlock (d.mode - 0x11)
  else 16

/-- A request has read on, up to a boundary: how far is free, since the model gives no times (DESIGN CHOICE, log entry 110). -/
def intProgress (k : Nat) (s : State) : State :=
  match (intOf k s).job with
  | none => s
  | some j =>
    let b := suspendBlock (intDesc j.desc)
    let r := drawBelow ((intBytes j - j.read) / b + 1) s
    setInt k { intOf k r.2 with job := some { j with read := j.read + b * r.1 } } r.2

/-- Input bytes that the request of an engine has still to read. -/
def intLeft (k : Nat) (s : State) : Nat := (intOf k s).job.elim 0 (fun j => intBytes j - j.read)

/-- The engine that an urgent request goes to where none is idle (R450): of those that qualify the one with the most input bytes still to read,
the lowest number among equals. -/
def urgentEngine (s : State) : Option Nat :=
  (List.range 8).foldl (fun r k =>
    if !maySuspend k s then r
    else match r with
      | some x => if intLeft x s < intLeft k s then some k else r
      | none => some k) none

/-- The running request goes to the context store and the urgent one runs (R450, R451). -/
def urgentSuspend (k : Nat) (s : State) : State :=
  match (intOf k s).job with
  | none => s
  | some j =>
    let t := intTake k (fun _ => true) (setInt k { intOf k s with job := none } s)
    if (intOf k t).job.isSome then setInt k { intOf k t with susp := some { j with suspended := true } } t
    else setInt k { intOf k t with job := some j } t

/-- An urgent request finds no engine idle: where engine k is the one that it goes to, that engine suspends its request. -/
def urgentStep (k : Nat) (s : State) : State :=
  let s := (List.range 8).foldl (fun s k => intProgress k s) s
  if urgentEngine s = some k then urgentSuspend k s else s

/-- URGENT_SUSPEND. -/
def execUrgentSuspend (k : Nat) (s : State) : Host.Outcome State Fault Refusal :=
  if operating s && decide (k < 8) && maySuspend k s && urgentWaits s then done s (urgentStep k s) else .next s

/-- The request of an engine ends; a fault is a CE of the engine (R452), where no status was decided before (R438). -/
def intComplete (k : Nat) (fault : Bool) (s : State) : State :=
  match (intOf k s).job with
  | none => s
  | some j =>
    let s := if fault ∧ j.early.isNone then raiseClass 0 (srcInt k) 0x05 (some j.part) 0 false s else s
    chWakeAll (intTryEnd k (if fault then some 7 else none) s)

/-- INTAGLIO_REQUEST_COMPLETE. -/
def execIntaglioRequestComplete (k : Nat) (fault : Bool) (s : State) : Host.Outcome State Fault Refusal :=
  if operating s ∧ k < 8 then done s (intComplete k fault s) else .next s

end Sys2Proof.Machine
end

