-- ==== Sys2Proof/Machine/JournalCmd.lean ====
section
/-! DEFINITION. The commands of the channel journal: MIRROR and its answers, pairing, resync (16_channel_journal R369 to R385;
22_duplex R496 to R508). -/

namespace Sys2Proof.Machine

/-! ### MIRROR (R374, R375, R383) -/

/-- The module subchannel is one of this module's (02 R30). -/
def ownSub (i : Nat) (s : State) : Bool := (subchPart i s).isSome

/-- An entry of this module is replaced by the partner's copy, and what this module held of its operation ends (R383). While the
partner still works on it, it is not settled here. -/
def entryReturned (i : Nat) (e : JEntry) (s : State) : State :=
  let s := dropOffers i (setLast i (lastFrom e) (setOp i none s))
  let s := setJent i { e with mirror := false, takenOver := false } s
  let rest := s.jnl.theirs.filter (· != i)
  let s := { s with jnl := { s.jnl with theirs := if e.state = 0 ∨ e.state = 5 then rest else i :: rest } }
  if e.state = 5 ∧ pstateOf e.part s = .running then offerFinal i s else s

/-- Resync of one entry (R383): the copy with the later TOR is kept, and of equal ones that of the module whose subchannel it is. -/
def resyncStore (i : Nat) (m : JEntry) (s : State) : State :=
  let e := jent i s
  if ownSub i s then if e.tor < m.tor then entryReturned i m s else s
  else if e.tor ≤ m.tor then setJent i { m with mirror := true, takenOver := false } (setOp i none s)
  else s

/-- A MIRROR's entry is stored, or not (R375): conflict or none, and the state. -/
def mirrorStore (i : Nat) (m : JEntry) (s : State) : Bool × State :=
  let e := jent i s
  if s.dx.state = 4 ∨ s.jnl.theirs.contains i = true then (false, resyncStore i m s)
  else if e.seq = m.seq ∧ m.tor < e.tor then (false, s)
  else if !e.mirror ∧ e.state ≠ 0 then (true, jnlLog i 2 s)
  else (false, setJent i { m with mirror := true, takenOver := false } s)

/-- A MIRROR of the partner is served and acknowledged (R369, R374). -/
def mirrorServe (m : Msg) (s : State) : State :=
  let i := natAt m.body 0 8 / 2 ^ 46
  let trans := bits (natAt m.body 0 8) 45 41
  let e := jentOf (m.body.drop 8)
  if m.body.length ≠ 72 then patina 0x299 s
  else if !mirrorOn s ∨ m.src ≠ partnerNode s then s
  else
    let r := mirrorStore i e s
    dxHoldCheck (answer m 1 (mirrorAckBody i trans r.1 e.seq e.tor) r.2)

/-- MIRROR. -/
def execMirror (m : Msg) (s : State) : Host.Outcome State Fault Refusal :=
  if onPort m s then done s (receive 0 true mirrorServe m s) else .next s

/-! ### MIRROR_ACK (R369, R370, R375) -/

/-- The time of a START exchange is recorded (R373, R385). -/
def recordLat (x : MirrorOut) (s : State) : State :=
  let ns := (s.tor.tor - x.first) / 4
  let v := min ns 0xFFFF
  let s := { s with jnl := { s.jnl with lat := v, latMax := max s.jnl.latMax v } }
  if 4000 < s.tor.tor - x.first then jnlLog x.index ns { s with jnl := { s.jnl with slow := satAdd 16 s.jnl.slow 1 } } else s

/-- A START that receives CONFLICT (R375): SIMPLEX, and the operation's later transitions are not mirrored; those that were sent already
complete without the partner. -/
def startConflict (x : MirrorOut) (s : State) : State :=
  let same (y : MirrorOut) : Bool := y.index == x.index && y.entry.seq == x.entry.seq
  let e := jent x.index s
  if e.seq ≠ x.entry.seq then s
  else
    let s := if (opOf x.index s).isSome then modOp x.index (fun o => { o with conflict := true }) s
             else setLast x.index { lastOf x.index s with conflict := true } s
    let sent := s.jnl.out.filter same
    let s := setJent x.index { e with simplex := true } { s with jnl := { s.jnl with out := s.jnl.out.filter (fun y => !same y) } }
    sent.foldl (fun s y => syncSimplex y s) s

/-- A transition is durable in both journals (R369). -/
def mirrorAnswered (x : MirrorOut) (conflict : Bool) (s : State) : State :=
  let s := { s with jnl := { s.jnl with out := s.jnl.out.filter (fun y => y.tag != x.tag) } }
  let s := if x.trans = 1 ∧ x.sync then recordLat x s else s
  let s := if conflict ∧ x.sync then (if x.trans = 1 then startConflict x s else markSimplex x s) else s
  if x.sync then ioComplete x.core (syncEffect x s) else s

/-- A MIRROR_ACK of the partner; one whose tag is no longer outstanding is ignored (14 R317). -/
def mirrorAckServe (m : Msg) (s : State) : State :=
  let w := natAt m.body 0 8
  if m.body.length ≠ 24 then patina 0x299 s
  else match s.jnl.out.find? (fun y => y.tag == m.tag) with
    | some x =>
      if m.src = partnerNode s ∧ w / 2 ^ 46 = x.index ∧ bits w 45 41 = x.trans ∧ natAt m.body 8 8 = x.entry.seq ∧ natAt m.body 16 8 = x.entry.tor then
        mirrorAnswered x (bits w 40 39 == 1) s
      else s
    | none => s

/-- MIRROR_ACK. -/
def execMirrorAck (m : Msg) (s : State) : Host.Outcome State Fault Refusal :=
  if onPort m s then done s (receive 1 false mirrorAckServe m s) else .next s

/-- A MIRROR of entry i is unanswered 3 ms after its first sending, and not yet reported (R376). -/
def mirrorLate (i : Nat) (s : State) : Bool :=
  s.jnl.out.any (fun x => x.index == i && !x.reported && decide (x.first + 3 * ticksMs ≤ s.tor.tor))

/-- It is reported once, as a fault of the journal path (R376; 22 R505). -/
def mirrorTimeout (i : Nat) (s : State) : State :=
  journalPathFault { s with jnl := { s.jnl with out := s.jnl.out.map (fun (x : MirrorOut) => if x.index = i then { x with reported := true } else x) } }

/-- MIRROR_TIMEOUT. -/
def execMirrorTimeout (i : Nat) (s : State) : Host.Outcome State Fault Refusal :=
  if operating s && mirrorOn s && mirrorLate i s then done s (mirrorTimeout i s) else .next s

/-! ### Pairing and resync (R377, R383; 22 R496, R507, R508) -/

/-- The exchange may decide: a partner is configured, and the pair is not in service. -/
def mayPair (s : State) : Bool := operating s && partnerOn s && (s.dx.state == 1 || s.dx.state == 3 || s.dx.state == 6)

/-- The mismatch is logged on a heartbeat path that is up, once (22 R496). -/
def logMismatch (p : HbPath) (s : State) : State :=
  let h := hbOf p s
  if h.ok && !h.logged then logState srcDuplex (match p with | .armature => 0 | .dedicated => 1) (setHb p { h with logged := true } s) else s

/-- What the exchange comes to (R377): with a partner that does not name this module, the pair stays PAIRING (22 R496). Out of CONFLICT this
module sends its own part again. -/
def pairExchange (info : PairInfo) (s : State) : State :=
  if info.namesUs then (let t := pairWith info s; if s.dx.state = 6 ∧ t.dx.state ≠ 6 then sendPairing t else t) else logMismatch .dedicated (logMismatch .armature s)

/-- PAIRING_EXCHANGE. -/
def execPairingExchange (info : PairInfo) (s : State) : Host.Outcome State Fault Refusal :=
  if mayPair s then done s (pairExchange info s) else .next s

/-- The copies of the returned module's entries on which this module does not work any more are the partner's again (R383). -/
def releaseCopies (s : State) : State :=
  let es := s.jnl.e.map (fun e => (e.1, if e.2.mirror ∧ (opOf e.1 s).isNone then { e.2 with takenOver := false } else e.2))
  { s with jnl := { s.jnl with e := es } }

/-- Resync ends (R383; 22 R507, R508): entries left with this module are settled (R381), and the hold-down may start. -/
def resyncEnd (s : State) : State :=
  let s := releaseCopies s
  let s := setDxState (if holder s ∨ s.dx.heldByPartner then 5 else 2) s
  let s := if s.jnl.settleDue then settleOwn s else s
  dxHoldCheck s

/-- RESYNC_COMPLETE: every copy that this module sent is acknowledged. -/
def execResyncComplete (s : State) : Host.Outcome State Fault Refusal :=
  if operating s ∧ s.dx.state = 4 ∧ s.jnl.out = [] then done s (resyncEnd s) else .next s

/-- `JNL_CTL.LAT_CLR` (R385). -/
def latClear (s : State) : State := { s with jnl := { s.jnl with latMax := 0, slow := 0 } }

/-- LAT_CLR. -/
def execLatClr (v : View) (s : State) : Host.Outcome State Fault Refusal :=
  if admin v s && operating s then done s (latClear s) else .next s

/-! ### Copies of subchannel configuration (22 R499) -/

/-- Body of a copy: index and configuration; the model's own layout (log entry 41). -/
def copyBody (i : Nat) (c : SubCfg) : List Byte :=
  beBytes 8 i ++ beBytes 8 (pack [(63, 63, b2n c.en), (62, 59, c.port0), (58, 55, c.port1), (54, 39, c.dev)]).toNat

/-- The oldest waiting copy is sent towards the partner. -/
def sendCopy (s : State) : State :=
  match s.dx.copies, partnerPort s with
  | i :: t, some p => sendMgt p (copyBody i (subOf i s)) { s with dx := { s.dx with copies := t } }
  | _, _ => s

/-- A copy of the partner is held at its index, which no partition here owns. -/
def takeCopy (i : Nat) (val : Long) (s : State) : State :=
  if 262144 ≤ i ∨ ownSub i s then s else { s with ch := { s.ch with sub := tset {} i (subCfgOf val.toNat) s.ch.sub } }

/-- SUBCH_COPY. -/
def execSubchCopy (rx : Option (Nat × Long)) (s : State) : Host.Outcome State Fault Refusal :=
  if operating s && partnerOn s then
    done s (match rx with | some (i, v) => takeCopy i v s | none => sendCopy s)
  else .next s

end Sys2Proof.Machine
end

