-- ==== Sys2Proof/Machine/OpsFlit.lean ====
section
/-! DEFINITION. What a received codeword does, replay, alignment slots, training and recovery of a port (13_serial_links R286 to
R300). -/

namespace Sys2Proof.Machine

/-- Symbol errors that the decoder corrects in a codeword (R288). -/
def rsMax : Nat := 8

/-- The symbols that a line changed, once each. -/
def symErrs (errs : List (Nat × Byte)) : List Nat := ((errs.filter (fun e => e.2 != 0 && decide (e.1 < 272))).map (·.1)).eraseDups

/-- A corrected symbol is counted against the lane that carried it (R288). -/
def countSym (l : Link) (k : Nat) : Link :=
  let w := 2 ^ l.width
  let i := l.group * w + k % w
  setLane i { (laneOf i l) with symCorr := satAdd 32 (laneOf i l).symCorr 1 } l

/-- A received flit's fields (R286). -/
structure FlitIn where
  ftype : Nat
  vc : Nat
  seq : Nat
  ack : Nat
  nak : Bool
  enc : Bool
  phase : Nat
  crVc : Nat
  crCount : Nat
  len : Nat
  som : Bool
  eom : Bool
  /-- Bits 11:0. -/
  zero : Nat
  head : List Byte
  payload : List Byte

/-- The flit that 256 bytes spell. -/
def flitOf (b : List Byte) : FlitIn :=
  let h := BitVec.ofNat 64 (natAt b 0 8)
  { ftype := fld h 63 60, vc := fld h 59 58, seq := fld h 57 46, ack := fld h 45 34, nak := lbit h 33, enc := lbit h 32, phase := fld h 31 30,
    crVc := fld h 29 28, crCount := fld h 27 22, len := fld h 21 14, som := lbit h 13, eom := lbit h 12, zero := fld h 11 0,
    head := bytesAt b 0 8, payload := bytesAt b 8 240 }

/-- The header holds no reserved value and no must-be-zero field that is not 0 (R286, R287). -/
def headerOk (p : PortId) (f : FlitIn) : Bool :=
  decide (f.ftype ≤ 2) && f.zero == 0 && (f.enc || f.phase == 0) &&
  (if f.ftype = 1 then decide (1 ≤ f.len) && decide (f.len ≤ (if f.enc then 224 else 240)) && (match p with | .arm _ => true | .ch _ => decide (f.vc < 2))
   else f.vc == 0 && f.seq == 0 && (f.ftype != 0 || f.len == 0))

/-- A lost or discarded flit (R291): NAK goes out on the first discard after an accepted flit. -/
def lostFlit (p : PortId) (s : State) : State :=
  if (linkOf p s).nakSince.isSome then s
  else sendIdle p true (modLink p (fun l => { l with nakSince := some s.tor.tor }) s)

/-- Replays after which a flit sends the port to RECOVERY (R294). -/
def replayMax : Nat := 8

/-- Ticks of a flit slot, rounded up (R285): 2,176 bits on lanes of 112 Gbit/s. -/
def slotTicks (l : Link) : Nat := cdiv (2176 * 4) (112 * 2 ^ l.width)

/-- Every unacknowledged flit is sent again, in order and unchanged (R291). -/
def replayAll (p : PortId) (s : State) : State :=
  let l := linkOf p s
  if l.replay.isEmpty then s
  else
    let again := l.replay.map (fun (f : TxFlit) => { f with replays := f.replays + 1 })
    let l := { l with replay := again, replays := satAdd 32 l.replays 1, ackTor := s.tor.tor,
                      replayUntil := s.tor.tor + slotTicks l * l.replay.length }
    let s := l.replay.foldl (fun s f => putFlit p f.bytes s) (setLink p l s)
    if l.replay.any (fun f => decide (replayMax ≤ f.replays)) then enterRecovery p s else s

/-- NAK arrives (R291): a replay, but not while the one that a NAK with this ACK started is in progress. -/
def takeNak (p : PortId) (a : Nat) (s : State) : State :=
  let l := linkOf p s
  if s.tor.tor < l.replayUntil ∧ l.replayAck = some a then s else replayAll p (setLink p { l with replayAck := some a } s)

/-- No ACK has advanced for 4 µs (R291): a replay that no NAK started. -/
def replayLate (p : PortId) (s : State) : State := replayAll p (modLink p (fun l => { l with replayAck := none }) s)

/-- An ACK acknowledges the flits whose SEQ it is at or beyond, modulo 4,096 (R290). -/
def takeAck (a : Nat) (now : Nat) (l : Link) : Link :=
  let rest := l.replay.dropWhile (fun f => decide ((a + 4096 - f.seq) % 4096 < 2048))
  if rest.length = l.replay.length then l else { l with replay := rest, ackTor := now }

/-- Credits that a flit returns (R293). -/
def takeCredit (f : FlitIn) (l : Link) : Link := { l with credits := tmod 0 f.crVc (· + f.crCount) l.credits }

/-- A clear DATA flit is forbidden on this port (R297); in KEY, only the clear VC of discovery is carried (R294). -/
def clearForbidden (p : PortId) (f : FlitIn) (l : Link) : Bool :=
  !f.enc && (if l.state = 5 then !vcOpen p f.vc l else vcEnc p f.vc l)

/-- Open an encrypted flit (R298, R299): its data, and the port with its counts and phases moved on. In KEY no tag is good. -/
def openFlit (f : FlitIn) (now : Nat) (l : Link) : Option (List Byte × Link) :=
  let tryKey (rotation iv : Nat) : Option (List Byte) :=
    gcmOpen (linkKey l false rotation) (linkSalt l false ++ beBytes 8 iv) f.head f.payload
  if l.state = 5 then none
  else if f.phase = l.rxPhase then (tryKey l.rxRotation l.ivRx).map (fun d => (d, { l with ivRx := l.ivRx + 1 }))
  else if f.phase = (l.rxPhase + 1) % 4 then
    (tryKey (l.rxRotation + 1) 0).map (fun d => (d, { l with rxPhase := f.phase, rxRotation := l.rxRotation + 1, ivOld := l.ivRx, ivRx := 1, oldPhaseUntil := some (now + ticksMs) }))
  else if l.oldPhaseUntil.isSome ∧ f.phase = (l.rxPhase + 3) % 4 then
    (tryKey (l.rxRotation - 1) l.ivOld).map (fun d => (d, { l with ivOld := l.ivOld + 1 }))
  else none

/-- A whole message goes up (R291); on the Armature one whose KIND does not belong to its VC is discarded and counted (14 R304). -/
def passUp (p : PortId) (vc : Nat) (body : List Byte) (s : State) : State :=
  match p with
  | .arm _ => if kindVc (msgOfBytes body).kind = some vc then emit (.delivered p vc body) s else patina 0x299 s
  | .ch _ => emit (.delivered p vc body) s

/-- An accepted DATA flit is passed upwards (R291, R293): its credit is returned, those that it brings are taken, which a flit that is
discarded and sent again does not bring twice, and a whole message is delivered. -/
def deliver (p : PortId) (f : FlitIn) (data : List Byte) (s : State) : State :=
  let l := linkOf p s
  let body := (if f.som then [] else tget [] f.vc l.rx) ++ data.take f.len
  let l := { l with expect := (l.expect + 1) % 4096, nakSince := none, tagRun := 0, returns := tmod 0 f.vc (· + 1) l.returns,
                    rx := tset [] f.vc (if f.eom then [] else body) l.rx }
  let s := setLink p (takeCredit f l) s
  sendIdle p false (if f.eom then passUp p f.vc body s else s)

/-- Tag failures on one SEQ that take the link DOWN (R298). -/
def tagMaxRun : Nat := 3

/-- A DATA flit whose header is sound (R291, R297, R298). -/
def dataFlit (p : PortId) (f : FlitIn) (s : State) : State :=
  let l := linkOf p s
  if clearForbidden p f l then setLink p { l with tagFail := satAdd 16 l.tagFail 1 } s
  else if f.seq ≠ l.expect then lostFlit p s
  else if !f.enc then deliver p f f.payload s
  else match openFlit f s.tor.tor l with
    | some (d, l') => deliver p f d (setLink p l' s)
    | none =>
      let s := setLink p { l with tagFail := satAdd 16 l.tagFail 1, tagRun := l.tagRun + 1 } s
      if tagMaxRun ≤ l.tagRun + 1 then linkDown p (portEvent p 0x20 s) else lostFlit p s

/-- Uncorrectable codewords in a row that send the port to RECOVERY (R294). -/
def uncorrMax : Nat := 16

/-- A codeword arrives on a port in KEY or ACTIVE (R287 to R291, R293, R294). -/
def recvFlit (p : PortId) (b : List Byte) (errs : List (Nat × Byte)) (s : State) : State :=
  let bad := symErrs errs
  let l := linkOf p s
  if rsMax < bad.length then
    let run := l.uncorrRun + 1
    let s := setLink p { l with cwUncorr := satAdd 32 l.cwUncorr 1, uncorrRun := run } s
    if uncorrMax ≤ run ∧ l.state = 6 then enterRecovery p s else lostFlit p s
  else
    let l := { l with cwCorr := satAdd 32 l.cwCorr (b2n (!bad.isEmpty)), uncorrRun := 0 }
    let l := bad.foldl countSym l
    let f := flitOf b
    if crc64 (b.take 248) ≠ BitVec.ofNat 64 (natAt b 248 8) ∨ headerOk p f = false then
      lostFlit p (setLink p { l with crcFail := satAdd 32 l.crcFail 1 } s)
    else
      let l := takeAck f.ack s.tor.tor l
      let s := setLink p (if f.ftype = 1 then l else takeCredit f l) s
      let s := if f.ftype = 1 then dataFlit p f s else s
      let s := if f.nak then takeNak p f.ack s else s
      txDrain p 1024 s

/-- Ticks between repeats of NAK, and without an advance of ACK before a replay (R291). -/
def nakTicks : Nat := 4000
def replayTicks : Nat := 16000

/-- An alignment slot (R289, R296): this end's leaves, an agreed change of width is taken, then the lanes that missed it are counted. -/
def alignSlot (p : PortId) (missed skewed : List Nat) (s : State) : State :=
  let s := sendAlign p s
  let l := linkOf p s
  let s :=
    if l.widthPending && l.widthAgreed then
      let l := { markOff p l with widthPending := false, widthAgreed := false }
      let w := chooseWidth p (widthLimit p l s) (goodMask p l)
      let s := setLink p l s
      if w.1 ≠ 0 then takeWidth p w s else if l.state = 5 then linkDown p s else enterRecovery p s
    else s
  laneChange p (fun l => (List.range (portLanes p)).foldl (fun l i =>
    let x := laneOf i l
    let m := if missed.contains i then x.missed + 1 else 0
    if 2 ≤ m ∨ skewed.contains i = true then setLane i { x with missed := 0, failed := true } l else setLane i { x with missed := m } l) { l with slots := satAdd 64 l.slots 1 }) s

/-- Lanes as an equalisation leaves them (R294, R296): in a RECOVERY or a retry a lane that locks is no longer failed. -/
def takeLanes (p : PortId) (heal : Bool) (xs : List LaneEq) (l : Link) : Link :=
  xs.foldl (fun l e =>
    if portLanes p ≤ e.lane then l
    else setLane e.lane { (laneOf e.lane l) with lock := e.locked, margin := min e.margin 255, failed := (laneOf e.lane l).failed && !(heal && e.locked), missed := 0, retry := false } l) l

/-- A port enters a training state. -/
def enterLink (p : PortId) (st : Nat) (s : State) : State := modLink p (fun l => { l with state := st, since := s.tor.tor }) s

/-- ALIGN ends with a width, or the port goes DOWN (R294, R295). -/
def alignDone (p : PortId) (peerGood : Nat) (s : State) : State :=
  let l := { linkOf p s with peerGood := peerGood % 2 ^ portLanes p }
  let w := chooseWidth p (widthLimit p l s) (goodMask p l)
  let s := setLink p { l with width := w.1, group := w.2, alignTor := s.tor.tor } s
  if w.1 = 0 then linkDown p s else sendInit p (enterLink p 4 s)

/-- LINK flits have been exchanged (R293, R294): port kind, lanes, buffers; then the key exchange begins (R294; 14 R309). A good-lane mask
that has changed since it was sent goes out in a WIDTH flit (R296). -/
def linkInit (p : PortId) (kindOk : Bool) (peerGood : Nat) (buffers : List Nat) (s : State) : State :=
  if !kindOk then linkDown p s
  else
    let l := { linkOf p s with peerGood := peerGood % 2 ^ portLanes p }
    let w := chooseWidth p (widthLimit p l s) (goodMask p l)
    let vcs := match p with | .arm _ => 4 | .ch _ => 2
    let credits := (List.range vcs).foldl (fun t vc => tset 0 vc (buffers.getD vc 0) t) []
    let s := setLink p { l with width := w.1, group := w.2, credits := credits } s
    if w.1 = 0 then linkDown p s
    else
      let s := enterLink p 5 s
      let s := if ownGood p (linkOf p s) = (linkOf p s).widthSent then s else sendWidth p (ownGood p (linkOf p s)) s
      sendHello (match p with | .arm k => k | .ch n => 8 + n) s

/-- The limit of a state in ticks, none where it has none (R294). Time spent waiting for the other end does not count: the command says
that the limit has passed, and cannot come before so much TOR has. -/
def linkLimit : Nat → Option Nat
  | 2 => some 160000000
  | 3 => some 8000000
  | 4 => some 4000000
  | 5 => some 20000000000
  | 7 => some 400000
  | _ => none

/-- A clear link is permitted on a channel port (02 R28). -/
def clearAllowed (p : PortId) (s : State) : Bool :=
  match p with
  | .arm _ => false
  | .ch n => (s.pln.module_.map (fun m => m.clearLink.testBit n)).getD false

/-- A port exceeds the limit of its state (R294, R297): DOWN, or a clear link where the adapter has not completed the exchange and
the image permits it. -/
def stateLate (p : PortId) (s : State) : State :=
  if (linkOf p s).state = 5 ∧ clearAllowed p s then linkActive p true s else linkDown p s

/-- RECOVERY ends (R294, R295): everything is kept, at the width that the lanes now give. -/
def recovered (p : PortId) (lanes : List LaneEq) (peerGood : Nat) (s : State) : State :=
  let l := takeLanes p true lanes (linkOf p s)
  let l := markOff p { l with peerGood := peerGood % 2 ^ portLanes p }
  let w := chooseWidth p (widthLimit p l s) (goodMask p l)
  let s := setLink p l s
  if w.1 = 0 then linkDown p s
  else
    let s := takeWidth p w s
    let s := modLink p (fun l => { l with state := 6, since := s.tor.tor, ackTor := s.tor.tor, uncorrRun := 0, widthSent := ownGood p l,
                                          replay := l.replay.map (fun f => { f with replays := 0 }) }) s
    txDrain p 1024 (portUp p s)

/-- A WIDTH flit arrives (R296): each end goes over to the intersection of both masks, and the change is agreed when both flits carry it
(DEDUCED, log entry 83). -/
def onWidth (p : PortId) (mask : Nat) (s : State) : State :=
  let l := { linkOf p s with peerGood := mask % 2 ^ portLanes p }
  let m := goodMask p l
  let s := setLink p l s
  let s := if m ≠ l.widthSent ∨ !l.widthPending then sendWidth p m s else s
  modLink p (fun l => { l with widthAgreed := l.widthPending && l.widthSent == mask % 2 ^ portLanes p }) s

/-- The transmitter begins the next key phase (R299). -/
def rotateKey (now : Nat) (l : Link) : Link :=
  { l with keyPhase := (l.keyPhase + 1) % 4, rotation := l.rotation + 1, ivTx := 0, rotMark := now / rotPeriod }

/-- Every counter of a port is 0 (R300). -/
def clearCounters (l : Link) : Link :=
  { l with cwCorr := 0, cwUncorr := 0, crcFail := 0, replays := 0, tagFail := 0, recoveries := 0, widthChg := 0, downs := 0,
           lane := (l.lane.map (fun (e : Nat × Lane) => (e.1, { e.2 with symCorr := 0 }))).filter (fun e => e.2 != {}) }

/-- `LNK_CTL.DISABLE` (R300). A fenced port stays disabled (21 R487). -/
def setDisable (p : PortId) (on : Bool) (s : State) : State :=
  if on then disablePort p s
  else if (fltStatus (srcPort p) s).fenced then s
  else
    let s := modLink p (fun l => { l with disable := false }) s
    if (linkOf p s).state = 0 then linkRestart p s else s

end Sys2Proof.Machine
end

