-- ==== Sys2Proof/Machine/LinkCmd.lean ====
section
/-! DEFINITION. The commands of the link layer (13_serial_links R284 to R300). -/

namespace Sys2Proof.Machine

/-- The port exists, runs, and is in this state. -/
def linkIn (p : PortId) (st : Nat) (s : State) : Bool := operating s && portExists p && (linkOf p s).state == st

/-- FLIT_RECEIVE (R287 to R293). -/
def execFlitReceive (p : PortId) (flit : List Byte) (errs : List (Nat × Byte)) (s : State) : Host.Outcome State Fault Refusal :=
  if (linkIn p 5 s || linkIn p 6 s) && flit.length == 256 then done s (recvFlit p flit errs s) else .next s

/-- NAK_REPEAT (R291). -/
def execNakRepeat (p : PortId) (s : State) : Host.Outcome State Fault Refusal :=
  match (linkOf p s).nakSince with
  | some t =>
    if (linkIn p 5 s || linkIn p 6 s) && decide (t + nakTicks ≤ s.tor.tor) then
      done s (sendIdle p true (modLink p (fun l => { l with nakSince := some s.tor.tor }) s))
    else .next s
  | none => .next s

/-- REPLAY_TIMEOUT (R291). -/
def execReplayTimeout (p : PortId) (s : State) : Host.Outcome State Fault Refusal :=
  let l := linkOf p s
  if (linkIn p 5 s || linkIn p 6 s) && !l.replay.isEmpty && decide (l.ackTor + replayTicks ≤ s.tor.tor) then done s (replayLate p s) else .next s

/-- ALIGNMENT_SLOT (R289, R296). -/
def execAlignmentSlot (p : PortId) (missed skewed : List Nat) (s : State) : Host.Outcome State Fault Refusal :=
  if linkIn p 5 s || linkIn p 6 s then done s (alignSlot p missed skewed s) else .next s

/-- LANE_SIGNAL_DETECT (R294): two or more lanes of a port in DETECT whose hub has its clock (27 R588). -/
def execLaneSignalDetect (p : PortId) (lanes : List Nat) (s : State) : Host.Outcome State Fault Refusal :=
  if linkIn p 1 s && !clockOff p s && decide (2 ≤ ((lanes.filter (fun i => decide (i < portLanes p))).eraseDups).length) then
    done s (enterLink p 2 s)
  else .next s

/-- EQUALISE_COMPLETE (R294). -/
def execEqualiseComplete (p : PortId) (lanes : List LaneEq) (s : State) : Host.Outcome State Fault Refusal :=
  if linkIn p 2 s then done s (enterLink p 3 (modLink p (takeLanes p false lanes) s)) else .next s

/-- ALIGN_COMPLETE (R294, R295). -/
def execAlignComplete (p : PortId) (peerGood : BitVec 8) (s : State) : Host.Outcome State Fault Refusal :=
  if linkIn p 3 s then done s (alignDone p peerGood.toNat s) else .next s

/-- LINK_INIT_FLIT (R294). -/
def execLinkInitFlit (p : PortId) (kindOk : Bool) (peerGood : BitVec 8) (buffers : List Nat) (s : State) : Host.Outcome State Fault Refusal :=
  if linkIn p 4 s then done s (linkInit p kindOk peerGood.toNat buffers s) else .next s

/-- LINK_STATE_TIMEOUT (R294). -/
def execLinkStateTimeout (p : PortId) (s : State) : Host.Outcome State Fault Refusal :=
  let l := linkOf p s
  match linkLimit l.state with
  | some n => if operating s ∧ portExists p = true ∧ l.since + n ≤ s.tor.tor then done s (stateLate p s) else .next s
  | none => .next s

/-- RECOVERY_COMPLETE (R294). -/
def execRecoveryComplete (p : PortId) (lanes : List LaneEq) (peerGood : BitVec 8) (s : State) : Host.Outcome State Fault Refusal :=
  if linkIn p 7 s then done s (recovered p lanes peerGood.toNat s) else .next s

/-- Ticks in DOWN before DETECT (R294). -/
def downTicks : Nat := 40000000

/-- DOWN_EXPIRY (R294). -/
def execDownExpiry (p : PortId) (s : State) : Host.Outcome State Fault Refusal :=
  if linkIn p 8 s && decide ((linkOf p s).since + downTicks ≤ s.tor.tor) then done s (linkRestart p s) else .next s

/-- WIDTH_FLIT (R296). -/
def execWidthFlit (p : PortId) (mask : BitVec 8) (s : State) : Host.Outcome State Fault Refusal :=
  if linkIn p 5 s || linkIn p 6 s then done s (onWidth p mask.toNat s) else .next s

/-- Ticks between repeats of a WIDTH flit (R296). -/
def widthTicks : Nat := 4000

/-- WIDTH_FLIT_REPEAT (R296): every 1 µs until the other end's flit with the same mask has come. -/
def execWidthFlitRepeat (p : PortId) (s : State) : Host.Outcome State Fault Refusal :=
  let l := linkOf p s
  if (linkIn p 5 s || linkIn p 6 s) && l.widthPending && !l.widthAgreed && decide (l.widthAt + widthTicks ≤ s.tor.tor) then
    done s (putWidth p l.widthSent s)
  else .next s

/-- LINK_KEY_ROTATION (R299): TOR has reached or passed a multiple of 600 s. -/
def execLinkKeyRotation (p : PortId) (s : State) : Host.Outcome State Fault Refusal :=
  let l := linkOf p s
  if linkIn p 6 s && l.encOn && decide (l.rotMark < s.tor.tor / rotPeriod) then done s (modLink p (rotateKey s.tor.tor) s) else .next s

/-- KEY_PHASE_ERASE (R299). -/
def execKeyPhaseErase (p : PortId) (s : State) : Host.Outcome State Fault Refusal :=
  match (linkOf p s).oldPhaseUntil with
  | some t =>
    if operating s ∧ portExists p = true ∧ t ≤ s.tor.tor then done s (modLink p (fun l => { l with oldPhaseUntil := none, ivOld := 0 }) s) else .next s
  | none => .next s

/-- A write of `LNK_CTL` reaches the port: from the service core or through PF0 (R300; 01 R21). -/
def linkCtl (v : View) (p : PortId) (s : State) : Bool := admin v s && operating s && portExists p

/-- LINK_DISABLE (R300). -/
def execLinkDisable (v : View) (p : PortId) (on : Bool) (s : State) : Host.Outcome State Fault Refusal :=
  if linkCtl v p s then done s (setDisable p on s) else .next s

/-- RETRAIN (R300): ignored unless the port is ACTIVE. -/
def execRetrain (v : View) (p : PortId) (s : State) : Host.Outcome State Fault Refusal :=
  if linkCtl v p s then done s (enterRecovery p s) else .next s

/-- CNT_CLR (R300). -/
def execCntClr (v : View) (p : PortId) (s : State) : Host.Outcome State Fault Refusal :=
  if linkCtl v p s then done s (modLink p clearCounters s) else .next s

/-- LANE_OFF (R300). -/
def execLaneOff (v : View) (p : PortId) (mask : BitVec 8) (s : State) : Host.Outcome State Fault Refusal :=
  if linkCtl v p s then done s (laneOffSet p mask.toNat s) else .next s

/-- LANE_RETRY (R300). -/
def execLaneRetry (v : View) (p : PortId) (mask : BitVec 8) (s : State) : Host.Outcome State Fault Refusal :=
  if linkCtl v p s then done s (laneRetrySet p mask.toNat s) else .next s

/-- LANE_RETRY_COMPLETE (R296): a lane that locks is no longer failed, and widens the port. -/
def execLaneRetryComplete (p : PortId) (l : LaneEq) (s : State) : Host.Outcome State Fault Refusal :=
  if operating s && portExists p && (laneOf l.lane (linkOf p s)).retry then
    done s (laneChange p (takeLanes p true [l]) s)
  else .next s

/-- LANE_LOCK_LOSS (R295, R296). -/
def execLaneLockLoss (p : PortId) (lane : Nat) (s : State) : Host.Outcome State Fault Refusal :=
  if operating s && portExists p && decide (lane < portLanes p) && (laneOf lane (linkOf p s)).lock then
    done s (laneChange p (fun l => setLane lane { (laneOf lane l) with lock := false } l) s)
  else .next s

end Sys2Proof.Machine
end

