-- ==== Sys2Proof/Machine/PlinthCmd.lean ====
section
/-! DEFINITION. The image commands (02_plinth_image R36, R41, R44 to R52). -/

namespace Sys2Proof.Machine

/-- The result of an image command, with the vector of its completion (R49; 24 R539). -/
def plnResult (r : Nat) (s : State) : State := pf0Vector 1 { s with pln := { s.pln with result := r } }

/-- The image is staged: its bytes as the service window holds them now (R41). A range that passes the end of the window is no image
and ends `BAD_MAGIC` (DESIGN CHOICE, log entry 74). -/
def stagedBytes (s : State) : List Byte :=
  if s.pln.stageOffset + s.pln.stageLength ≤ svcSize then svcBytes s.pln.stageOffset s.pln.stageLength s else []

/-- `PLN_CMD` (R47, R51): 1 LOAD_FULL, 2 LOAD_PARTIAL, 3 STORE_A, 4 STORE_B; other values complete with `STATE`. -/
def plnCmd (cmd : Nat) (s : State) : State :=
  let st := s.pln.state
  let ok := (cmd == 1 && st == .noImage) || (cmd == 2 && st == .applied) || ((cmd == 3 || cmd == 4) && (st == .noImage || st == .applied))
  if !ok || s.pln.job.isSome then plnResult 0x0C s
  else { s with pln := { s.pln with state := .verifying, job := some { cmd := cmd, bytes := stagedBytes s, image := none, back := st, stage := 0 } } }

/-- LOAD_FULL (R52). -/
def execLoadFull (v : View) (s : State) : Host.Outcome State Fault Refusal :=
  if admin v s && operating s then done s (plnCmd 1 s) else .next s

/-- LOAD_PARTIAL (R41). -/
def execLoadPartial (v : View) (s : State) : Host.Outcome State Fault Refusal :=
  if admin v s && operating s then done s (plnCmd 2 s) else .next s

/-- STORE_A (R41). -/
def execStoreA (v : View) (s : State) : Host.Outcome State Fault Refusal :=
  if admin v s && operating s then done s (plnCmd 3 s) else .next s

/-- STORE_B (R41). -/
def execStoreB (v : View) (s : State) : Host.Outcome State Fault Refusal :=
  if admin v s && operating s then done s (plnCmd 4 s) else .next s

/-- The command ends with a result, and the module returns to the state that it had (R36). -/
def jobOver (j : PlnJob) (r : Nat) (s : State) : State :=
  plnResult r { s with pln := { s.pln with state := j.back, job := none } }

/-- APPLYING of a full image begins (R52, steps 1 and 2). Before step 4 of bring-up has ended, that step takes the image. -/
def beginFull (j : PlnJob) (i : PlnImage) (s : State) : State :=
  let s := { s with pln := { s.pln with state := .applying, job := some { j with image := some i, stage := 2 } } }
  if s.pwr.phase ≠ .ready then s else
  let s := moduleEffect i (quiesceQueues i.parts s)
  let speed := (i.mod_.map (·.dramSpeed)).getD 0
  if 0 < speed then startTraining speed s else recentreAll [] s

/-- Verification ends (R36, R41, R44, R45). -/
def checksComplete (flashOk : Bool) (s : State) : State :=
  match s.pln.job with
  | none => s
  | some j => match checkImage (j.cmd == 2) j.bytes s with
    | .inl r => jobOver j r s
    | .inr i =>
      if j.cmd = 1 then beginFull j i s
      else if j.cmd = 2 then
        if applyCheck i s ≠ 0 then jobOver j (applyCheck i s) s
        else
          let s := { s with pln := { s.pln with state := .applying, job := some { j with image := some i, stage := 5 } } }
          quiesceQueues i.parts s
      else
        let copy := if flashOk then some j.bytes else none
        let s := if j.cmd = 3 then { s with pln := { s.pln with flashA := copy.orElse (fun _ => s.pln.flashA), badA := !flashOk } }
                 else { s with pln := { s.pln with flashB := copy.orElse (fun _ => s.pln.flashB), badB := !flashOk } }
        jobOver j (if flashOk then 0 else 0x0E) s

/-- The firmware checks an image in step 4 of bring-up and once the module is READY (DESIGN CHOICE, log entry 77). -/
def checksNow (s : State) : Bool := s.pwr.phase == .plinth || s.pwr.phase == .ready

/-- PLINTH_CHECKS_COMPLETE (R36). -/
def execPlinthChecksComplete (flashOk : Bool) (s : State) : Host.Outcome State Fault Refusal :=
  if operating s ∧ s.pln.state = .verifying ∧ checksNow s then done s (checksComplete flashOk s) else .next s

/-- Where the occupant of an ID leaves, the jobs of its queue pairs have what they read, so that they can end (24 R536); and no host write
that was translated through a publication is still on its way (18 R425). -/
def leaversReady (ds : List PlnPart) (s : State) : Bool :=
  let named (p : Nat) : Bool := ds.any (fun d => d.id == p)
  s.eng.rasp.all (fun e => e.2.job.all (fun j => j.loaded || !named j.part)) && (intJobs s).all (fun j => j.loaded || !named j.part) &&
  (!agentPending (.hostWrite 1) s || !ds.any (fun d => (partOf d.id s).any (fun o => isDelete d || d.uuid != o.uuid)))

/-- APPLYING ends (R43, R45, R46, R52): the queues of the partitions that the image names have drained (17 R402), and nothing at another
module keeps the ranges that leave a partition from being zeroed. Stage 6 has begun to zero those at other homes. -/
def applyingEnd (s : State) : State :=
  match s.pln.job with
  | none => s
  | some j => match j.image with
    | none => s
    | some i =>
      let rs := rangesLeft i.parts s
      if j.stage < 5 ∨ !i.parts.all (fun d => ownQueuesIdle d.id s) then s
      else if j.cmd = 1 then pf0Vector 1 (finishImage i j.bytes 3 s)
      else if j.stage = 5 ∧ awayRanges rs s ≠ [] then zeroNext (zeroAway rs { s with pln := { s.pln with job := some { j with stage := 6 } } })
      else if !zeroReady rs s || !leaversReady i.parts s then zeroNext (callBack rs s)
      else
        let s := applyPartial i j.bytes s
        let s := { s with pln := { s.pln with state := .applied, source := 3, job := none } }
        let s := plnResult 0 s
        -- a range that overlapped the partner's may be gone (16 R377)
        if s.dx.state = 6 ∧ partnerOn s then sendPairing (setDxState 1 s) else s

/-- APPLYING_END (R45). -/
def execApplyingEnd (s : State) : Host.Outcome State Fault Refusal :=
  if operating s ∧ s.pln.state = .applying then done s (applyingEnd s) else .next s

end Sys2Proof.Machine
end

