-- ==== Sys2Proof/Machine/OpsGov.lean ====
section
/-! DEFINITION. The governor's epoch: readings, thermal throttle, and its decisions (25_power_governor_reset R552 to R558; 12_dram
R269, R270, R274; 20_retry_recast R465). Temperatures are in units of 0.25 °C. -/

namespace Sys2Proof.Machine

/-- A reading as it counts (R552): 100.0 °C where the sensor cannot be read. -/
def reading (r : GovReadings) (n : Nat) : Int := ((r.sensors.getD n none)).getD 400

/-- The sensors' readings are taken (R555, R567): an unreadable one raises event 0x09. -/
def takeReadings (r : GovReadings) (s : State) : State :=
  let s := { s with pwr := { s.pwr with powerW := r.powerW } }
  (List.range 60).foldl (fun s n =>
    let x := r.sensors.getD n none
    let s := { s with pwr := { s.pwr with temp := tset none n x s.pwr.temp,
                                          lastTemp := match x with | some v => tset 0 n v s.pwr.lastTemp | none => s.pwr.lastTemp } }
    if x.isNone then raise srcThermal 0x09 none n s else s) s

/-- Thermal throttle (R552). -/
def throttleStep (r : GovReadings) (s : State) : State :=
  let hot := (List.range 60).any (fun n => decide (400 ≤ reading r n))
  let cool := (List.range 60).all (fun n => decide (reading r n ≤ 388))
  if !s.pwr.throttle && hot then
    let s := { s with pwr := { s.pwr with throttle := true } }
    let s := (runningParts s).foldl (fun s p => noticeOnPart 4 p s) s
    raise srcThermal 0x0D none 0 (patina 0x29C s)
  else if s.pwr.throttle && cool then { s with pwr := { s.pwr with throttle := false } }
  else s

/-- Ten epochs at 110.0 °C (R553). -/
def hotStep (r : GovReadings) (s : State) : State :=
  (List.range 60).foldl (fun s n =>
    let k := if 440 ≤ reading r n then tget 0 n s.pwr.hot + 1 else 0
    let s := { s with pwr := { s.pwr with hot := tset 0 n (min k 10) s.pwr.hot } }
    if 10 ≤ k then raise srcThermal 0x10 none n s else s) s

/-- A governor decision that is logged and not counted (R557). -/
def noteGovernor (src detail : Nat) (s : State) : State := logEntry 4 0 src 0x3F 0 detail s

/-- DRAM 2× refresh of one controller (R557; 12 R269, R270), whose sensors are read in every state with DIMMs behind it. -/
def refreshMode (r : GovReadings) (n : Nat) (s : State) : State :=
  let d := dramOf n s
  if d.state = 0 then s
  else
    let xs := (List.range d.dimms).map (fun k => r.dimms.getD (2 * n + k) none)
    let d := (List.range d.dimms).foldl (fun d k =>
      match r.dimms.getD (2 * n + k) none with
      | some v => { d with temp := tset none k (some v) d.temp, lastTemp := tset 0 k v d.lastTemp }
      | none => { d with temp := tset none k none d.temp, sensorFail := true }) d
    let above := xs.any (fun x => match x with | some v => decide (340 < v) | none => true)
    let below := xs.all (fun x => match x with | some v => decide (v ≤ 332) | none => false)
    if !d.mode2x && above then
      logGovernor 0x291 (srcDram n) 1 (setDram n { d with mode2x := true, debt := 2 * d.debt, paying := decide (0 < d.debt) } s)
    else if d.mode2x && below then logGovernor 0x291 (srcDram n) 0 (setDram n { d with mode2x := false, debt := cdiv d.debt 2, paying := false } s)
    else setDram n d s

/-- `K_EFF` of one controller, and the end of its epoch's counts (R557; 12 R274). -/
def kStep (n : Nat) (s : State) : State :=
  let d := dramOf n s
  let quiet := tget 0 n s.pwr.kQuiet + 1
  let setQuiet (k : Nat) (s : State) : State := { s with pwr := { s.pwr with kQuiet := tset 0 n k s.pwr.kQuiet } }
  let clear (d : Dram) : Dram := { d with acts := [], ceRows := [] }
  if d.nrCluster then
    let k := max 8 (d.kEff - 2)
    logGovernor 0x292 (srcDram n) k (setQuiet 0 (setDram n (clear { d with kEff := k, nrCluster := false }) s))
  else if 1000 ≤ quiet ∧ d.kEff < d.k then
    logGovernor 0x292 (srcDram n) (d.kEff + 1) (setQuiet 0 (setDram n (clear { d with kEff := d.kEff + 1 }) s))
  else setQuiet (min quiet 1000) (setDram n (clear d) s)

/-- A slot's counter in the snapshot that is new at this epoch (R557): one trigger for each crossing. -/
def predictSlot (slot : Nat) (first : Bool) (s : State) : State :=
  let v := (tget 0 (srcSlot slot) s.flt.snap).toNat
  let h := tget [] slot s.pwr.history
  if v = 0 ∧ h = [] then s
  else
    let prev := h.head?.getD 0
    let old := h.getLast?.getD 0
    let past := !first && (decide (prev + 8 ≤ v) || decide (old + 64 ≤ v) || v == 0xFFFF)
    let was := tget false slot s.pwr.crossed
    let h' := if h = [] ∧ !first then [v, 0] else (v :: h).take 60
    let s := { s with pwr := { s.pwr with history := tset [] slot h' s.pwr.history, crossed := tset false slot past s.pwr.crossed } }
    if past && !was then predictiveTrigger slot s else s

/-- Predictive recast, at the first epoch after a snapshot (R557). -/
def predictStep (s : State) : State :=
  if s.flt.snapTor = 0 ∨ s.flt.snapTor = s.pwr.lastSnap then s
  else
    let first := s.pwr.lastSnap == 0
    let s := (List.range 204).foldl (fun s k => predictSlot k first s) s
    { s with pwr := { s.pwr with lastSnap := s.flt.snapTor } }

/-- A port as one number: Armature ports 0 to 7, channel ports 8 to 19. -/
def portIndex : PortId → Nat
  | .arm p => p
  | .ch n => 8 + n

/-- Every port. -/
def allPorts : List PortId := (List.range 8).map PortId.arm ++ (List.range 12).map PortId.ch

/-- A mask without one bit. -/
def clearBit (m i : Nat) : Nat := if m.testBit i then m - 2 ^ i else m

/-- One lane of an ACTIVE port (R557): marked failed, or retried after 60 s, which writes `LNK_CTL` without the lane in `LANE_OFF`
(DESIGN CHOICE, log entry 83). -/
def laneStep (p : PortId) (i : Nat) (s : State) : State :=
  let l := linkOf p s
  let x := laneOf i l
  let key := portIndex p * 8 + i
  let prev := tget 0 key s.pwr.symPrev
  let s := { s with pwr := { s.pwr with symPrev := tset 0 key x.symCorr s.pwr.symPrev } }
  let bad := x.lock && !x.failed && !l.laneOff.testBit i && (decide (x.margin < 12) || decide (prev + 1000 < x.symCorr))
  if bad then
    let off := l.laneOff ||| 2 ^ i
    let rest := ownGood p { l with laneOff := off } &&& l.peerGood
    if (chooseWidth p (widthLimit p l s) rest).1 = 0 then noteGovernor (srcPort p) i s
    else
      let s := { s with pwr := { s.pwr with laneFail := tset none key (some s.tor.tor) s.pwr.laneFail } }
      logGovernor 0x294 (srcPort p) off (laneOffSet p off s)
  else match tget none key s.pwr.laneFail with
    | some t =>
      if t + 60 * ticksS ≤ s.tor.tor then
        let s := { s with pwr := { s.pwr with laneFail := tset none key none s.pwr.laneFail } }
        logGovernor 0x294 (srcPort p) (2 ^ i) (laneRetrySet p (2 ^ i) (laneOffSet p (clearBit l.laneOff i) s))
      else s
    | none => s

/-- The lanes of every ACTIVE port (R555, R557). -/
def lanesStep (s : State) : State :=
  allPorts.foldl (fun s p => if portActive p s then (List.range (portLanes p)).foldl (fun s i => laneStep p i s) s else s) s

/-- The notice of kind 0x01 on every running core of the partitions that own a cluster (R558). -/
def clockNotice (c : Nat) (s : State) : State :=
  (runningParts s).foldl (fun s p =>
    if (coresOf p s).any (fun l => l / 16 == c) then (coresOf p s).foldl (fun s l => if isRunningCore l s then noticeOnCore 1 l s else s) s else s) s

/-- The clock of one cluster (R556 to R558): the first of the three rows that applies. -/
def clockStep (r : GovReadings) (c : Nat) (s : State) : State :=
  match clkRange (s.pln.parts.filterMap (·.2)) c with
  | none => s
  | some (lo, hi) =>
    let f := tget 2000 c s.pwr.clk
    let set (v : Nat) (s : State) : State :=
      if v = f then s else logGovernor 0x290 (srcStore c) v { s with pwr := { s.pwr with clk := tset 2000 c v s.pwr.clk } }
    let lower (v : Nat) (s : State) : State := if v < f then clockNotice c (set v s) else s
    let hub := (List.range 48).any (fun k => decide (400 ≤ reading r (12 + k)))
    if s.pwr.throttle ∧ (400 ≤ reading r c ∨ hub = true) then lower (max lo (f - 200)) s
    else if 720 < r.powerW ∧ lo < f then lower (max lo (f - 100)) s
    else if s.pwr.throttle = false ∧ reading r c ≤ 380 ∧ r.powerW ≤ 700 ∧ f < hi then set (min hi (f + 100)) s
    else s

/-- The governor's epoch (R555 to R558; 14 R324). -/
def governor (r : GovReadings) (s : State) : State :=
  let s := hotStep r (throttleStep r (takeReadings r s))
  let s := (List.range 16).foldl (fun s n => kStep n (refreshMode r n s)) s
  let s := lanesStep (predictStep s)
  let s := if noneApplied s then s else (List.range 12).foldl (fun s c => clockStep r c s) s
  let s := if s.arm.removeReq then (tryLeave s).getD s else s
  { s with pwr := { s.pwr with govEpoch := s.tor.tor } }

/-- Ticks between governor epochs (R555). -/
def govTicks : Nat := 4000000

/-- The governor runs: its firmware is up, and this epoch is not yet done (R555, R564). -/
def governorDue (s : State) : Bool :=
  operating s && s.pwr.phase != .firmware && s.pwr.phase != .stopped && periodDue govTicks s.pwr.govEpoch s

end Sys2Proof.Machine
end

