-- ==== Sys2Proof/Machine/PowerCmd.lean ====
section
/-! DEFINITION. The commands of power, resets, bring-up and the governor (25_power_governor_reset; 27_electrical_package R584, R588 to
R590). -/

namespace Sys2Proof.Machine

/-- MODULE_RESET (R559): `PWR_CMD` of an administrator; not after a destructive boundary scan (18 R426). -/
def execModuleReset (v : View) (s : State) : Host.Outcome State Fault Refusal :=
  if admin v s && powered s && !s.tr.scanHeld then done s (moduleBoot s) else .next s

/-- COLD_RESET (R559): the command, or what a feed that is good again starts (R550, R554, R565). -/
def execColdReset (c : ColdCause) (s : State) : Host.Outcome State Fault Refusal :=
  match c with
  | .command v => if admin v s && powered s then done s (coldBoot s) else .next s
  | .feed => if feedBoot s then done s (coldBoot s) else .next s
  | .tripEnd => if feedBoot s then done s (coldBoot s) else .next s
  | .insertion => if feedBoot s then done s (coldBoot s) else .next s

/-- RESET_N (R559, R590): a pulse below 100 ns is ignored, and below 1 µs the reset may start or not. -/
def execResetN (ns : Nat) (s : State) : Host.Outcome State Fault Refusal :=
  if !s.pin.prsnt then .next s
  else if s.pin.resetLow then .next { s with pin := { s.pin with resetLow := false } }
  else if !powered s || s.tr.scanHeld || decide (ns < 100) then .next s
  else if 1000 ≤ ns then done s (moduleBoot s)
  else
    let r := drawBit s
    done s (if r.1 then moduleBoot r.2 else r.2)

/-- BRINGUP_STEP_COMPLETE (R564; 02 R52): not while RESET_N or a boundary scan holds the module, or SYS_CLK is lost. -/
def execBringupStepComplete (failSlots : List Nat) (s : State) : Host.Outcome State Fault Refusal :=
  if !operating s || s.pin.resetLow || s.tr.scanHeld || s.pin.sysLost then .next s
  else if s.pwr.phase = .ready then (if s.pln.state = .applying ∧ (s.pln.job.any (fun j => j.cmd == 1)) = true then done s (applyStage s) else .next s)
  else done s (bringUp failSlots s)

/-- GOVERNOR_EPOCH (R555). -/
def execGovernorEpoch (r : GovReadings) (s : State) : Host.Outcome State Fault Refusal :=
  if governorDue s then done s (governor r s) else .next s

/-- FEED_SWITCH (R549, R550). -/
def execFeedSwitch (a b : Nat) (s : State) : Host.Outcome State Fault Refusal :=
  if powered s && !s.pwr.srcB && betterFeed b a then done s (switchFeed true (setFeeds a b s)) else .next s

/-- FEED_RETURN (R549, R550): VIN_A is good again, or the better of two feeds of which neither is good. -/
def execFeedReturn (a b : Nat) (s : State) : Host.Outcome State Fault Refusal :=
  if powered s && s.pwr.srcB && (feedGood a || betterFeed a b) then done s (switchFeed false (setFeeds a b s)) else .next s

/-- FEED_LOSS (R550): both feeds below 40.0 V. -/
def execFeedLoss (a b : Nat) (s : State) : Host.Outcome State Fault Refusal :=
  if powered s ∧ a < 40000 ∧ b < 40000 then done s (loseFeeds (setFeeds a b s)) else .next s

/-- FEED_GOOD_CHANGE (R548, R551, R554). -/
def execFeedGoodChange (a b vka : Nat) (s : State) : Host.Outcome State Fault Refusal := done s (feedsChange a b vka s)

/-- VKA_LOSS (R551): VKA below 3.0 V with both 48 V feeds absent. -/
def execVkaLoss (s : State) : Host.Outcome State Fault Refusal :=
  let t := { s with pwr := { s.pwr with vkaOk := false } }
  if !s.pwr.on ∧ !s.pwr.aOk ∧ !s.pwr.bOk then done s (loseKept t) else done s t

/-- THERMTRIP (R554): logged, and power is removed; only a loss of both feeds ends the trip. -/
def execThermtrip (sensor : Nat) (s : State) : Host.Outcome State Fault Refusal :=
  if powered s ∧ sensor < 60 then
    let s' := powerOff (logEntry 1 3 (sourceNo 0x10 srcThermal) 0x3F 0 sensor s)
    done s { s' with pwr := { s'.pwr with tripped := true } }
  else .next s

/-- HOT_INSERTION (R565, R590): PRSNT_N has read low for 50 ms; a cold reset starts where a feed is good. -/
def execHotInsertion (resetLow : Bool) (s : State) : Host.Outcome State Fault Refusal :=
  if s.pin.prsnt then .next s
  else
    let t := { s with pin := { s.pin with prsnt := true, resetLow := resetLow } }
    done s (if feedBoot t then coldBoot t else t)

/-- PRSNT_DEASSERT (R565): the effect of a loss of both feeds. -/
def execPrsntDeassert (s : State) : Host.Outcome State Fault Refusal :=
  if !s.pin.prsnt then .next s
  else
    let t := if powered s then loseFeeds s else s
    done s { t with pin := { t.pin with prsnt := false, resetLow := false } }

/-- CLOCK_LOSS (27 R588). -/
def execClockLoss (c : ClockId) (s : State) : Host.Outcome State Fault Refusal :=
  match c with
  | .sys =>
    let t := { s with pin := { s.pin with sysLost := true } }
    done s (if powered s && !s.pin.sysLost then raise srcSupply 0x10 none 0 t else t)
  | .sdsNorth =>
    let t := { s with pin := { s.pin with sdsNLost := true } }
    done s (if operating s && !s.pin.sdsNLost then hubDown false t else t)
  | .sdsSouth =>
    let t := { s with pin := { s.pin with sdsSLost := true } }
    done s (if operating s && !s.pin.sdsSLost then hubDown true t else t)
  | .hp =>
    let t := { s with pin := { s.pin with hpLost := true } }
    done s (if operating s && !s.pin.hpLost then hostDown t else t)

/-- CLOCK_RETURN (27 R588, R589): the ports of a hub may leave DETECT again, the host link retrains, and with SYS_CLK the service
core leaves reset where a feed is good. -/
def execClockReturn (c : ClockId) (s : State) : Host.Outcome State Fault Refusal :=
  match c with
  | .sys =>
    let t := { s with pin := { s.pin with sysLost := false } }
    done s (if feedBoot t then coldBoot t else t)
  | .sdsNorth => done s { s with pin := { s.pin with sdsNLost := false } }
  | .sdsSouth => done s { s with pin := { s.pin with sdsSLost := false } }
  | .hp => done s { s with pin := { s.pin with hpLost := false }, hp := { s.hp with state := if s.hp.state = 0 && !s.hp.perst && s.pwr.on then 1 else s.hp.state } }

/-- Bits 63:48 of `TMP_SENSORn` (R567). -/
def sensorWord (n : Nat) (s : State) : Nat :=
  let t := tget 0 n s.pwr.lastTemp
  (BitVec.ofInt 12 t).toNat * 16 + 8 * b2n (tget none n s.pwr.temp).isSome

/-- `PWR_STATUS.PHASE` (R567). -/
def phaseCode : Phase → Nat
  | .firmware => 0
  | .controlStore => 1
  | .plinth => 2
  | .dram => 3
  | .fabric => 4
  | .journal => 5
  | .ready => 6
  | .stopped => 15

/-- `PWR_STATUS` (R567). -/
def pwrStatus (s : State) : Long :=
  let p := s.pwr
  pack [(63, 63, b2n p.srcB), (62, 62, b2n p.aOk), (61, 61, b2n p.bOk), (60, 60, b2n p.vkaOk), (59, 56, phaseCode p.phase),
        (55, 55, b2n p.throttle), (54, 45, p.powerW), (44, 37, p.lastResult)]

/-- SMB4_READ_WORD (27 R584). -/
def execSmb4ReadWord (code : Nat) (s : State) : Host.Outcome State Fault Refusal :=
  if !powered s then .next s
  else if code < 60 then .next (emit (.smbus (some (sensorWord code s))) s)
  else if code = 0x40 then .next (emit (.smbus (some (fld (pwrStatus s) 63 48))) s)
  else .next (emit (.smbus none) s)

end Sys2Proof.Machine
end

