-- ==== Sys2Proof/Machine/QueueCmd.lean ====
section
/-! DEFINITION. The commands of a work queue (17_rasp R398, R401, R409; 19_intaglio R436, R458; 24_host_port R537). -/

namespace Sys2Proof.Machine

/-- The host may reach the registers of a function: no function reset is in progress (24 R543). -/
def pf1Open (s : State) : Bool := !s.pf1.flr

/-- Who may write the registers of a queue: the service core and the host through PF0 the Rasp and Intaglio queues; a partition its own
(R409, 02 R53); the host through PF1 those of a queue pair, in the block of its kind (24 R529, R537). -/
def mayQueue (v : View) (b : QBlock) (q : Nat) (s : State) : Bool :=
  match v with
  | .part p => b != .mailbox && decide (64 + 4 * p ≤ q) && decide (q < 68 + 4 * p)
  | .pf1 => decide (q < 64) && qpBlock q s == some b && pf1Open s
  | _ => b != .mailbox && decide (q < 256) && admin v s

/-- ENABLE. -/
def execEnable (v : View) (b : QBlock) (q : Nat) (s : State) : Host.Outcome State Fault Refusal :=
  if operating s && mayQueue v b q s then done s (queueStep b q 1 s) else .next s

/-- DISABLE. Work in line that waited behind the queue begins (R403). -/
def execDisable (v : View) (b : QBlock) (q : Nat) (s : State) : Host.Outcome State Fault Refusal :=
  if operating s && mayQueue v b q s then done s (queueStep b q 2 s) else .next s

/-- RESUME. -/
def execResume (v : View) (b : QBlock) (q : Nat) (s : State) : Host.Outcome State Fault Refusal :=
  if operating s && mayQueue v b q s then done s (queueStep b q 3 s) else .next s

/-- QUEUE_DOORBELL: `TAIL` and `CQ_HEAD` of the long written (R398, R401). -/
def execQueueDoorbell (v : View) (b : QBlock) (q : Nat) (val : Long) (s : State) : Host.Outcome State Fault Refusal :=
  if operating s && mayQueue v b q s then done s (doorbell b q (fld val 63 48) (fld val 47 32) s) else .next s

end Sys2Proof.Machine
end

