-- ==== Sys2Proof/Machine/TorCmd.lean ====
section
/-! DEFINITION. The commands of the time of record: the reference inputs, the time exchange, `TOR_CTL` (03_time_of_record R61 to
R76). -/

namespace Sys2Proof.Machine

/-- The reference is lost by now: no edge accepted within the limit (R63). -/
def refDue (s : State) : Bool :=
  s.tor.refHeld && (match s.tor.lastEdge with | some (t, _) => decide (t + refLimit ≤ s.tor.tor) | none => true)

/-- Spacing of two consecutive edges of an acquisition, in ticks: 1 s within 20 µs (R63). -/
def spacingOk (d : Nat) : Bool := decide (ticksS - 80000 ≤ d) && decide (d ≤ ticksS + 80000)

/-- An accepted edge that names second `k` is counted toward acquisition (R63). -/
def countEdge (k : Nat) (s : State) : State :=
  let n := match s.tor.lastEdge with
    | some (t, j) => if spacingOk (s.tor.tor - t) ∧ k = j + 1 then s.tor.goodEdges + 1 else 1
    | none => 1
  { s with tor := { s.tor with goodEdges := n, refHeld := s.tor.refHeld || decide (3 ≤ n) } }

/-- A follower compares its own reference with the master's TOR (R65): logged and counted at three edges in a row over 1 µs. -/
def compareRef (k : Nat) (s : State) : State :=
  let d : Int := edgeOffset k s - s.tor.offset
  if s.tor.refHeld ∧ 4000 < d.natAbs then
    if 2 ≤ s.tor.disagree then
      logState srcTor (BitVec.ofInt 64 d).toNat (patina 0x298 { s with tor := { s.tor with disagree := 0 } })
    else { s with tor := { s.tor with disagree := s.tor.disagree + 1 } }
  else { s with tor := { s.tor with disagree := 0 } }

/-- An edge is accepted (R62, R63, R65, R67). -/
def acceptEdge (k : Nat) (s : State) : State :=
  let s := countEdge k s
  let s :=
    if follows s then compareRef k s
    else if s.tor.refHeld then measured true (edgeOffset k s) s
    else s
  { s with tor := { s.tor with lastEdge := some (s.tor.tor, k), edgeSeen := some s.tor.tor, lastRef := if follows s then s.tor.lastRef else s.tor.tor } }

/-- An edge now comes too late to hold the reference: one 1.000 020 s after the last accepted edge is still within that time (R63). -/
def refPast (s : State) : Bool :=
  s.tor.refHeld && (match s.tor.lastEdge with | some (t, _) => decide (t + refLimit < s.tor.tor) | none => true)

/-- A rising edge on PPS_IN (R62). -/
def ppsEdge (s : State) : State :=
  let s := if refPast s then loseRef s else s
  let k := s.tor.named
  let s := { s with tor := { s.tor with named := none } }
  match k with
  | some k => acceptEdge k s
  | none => { s with tor := { s.tor with edgeSeen := some s.tor.tor } }

/-- PPS_EDGE. -/
def execPpsEdge (s : State) : Host.Outcome State Fault Refusal :=
  if powered s && !s.tor.refDisable then done s (fireStep s (ppsEdge s)) else .next s

/-- The form of a timecode frame (R61): its `SECONDS` where the frame is sound. -/
def frameSeconds (b : List Byte) : Option Nat :=
  if b.length = 13 ∧ natAt b 0 2 = 0xA55A ∧ natAt b 2 1 = 1 ∧ natAt b 11 2 = crc16 (b.take 11) then some (natAt b 3 8) else none

/-- A frame is valid at this TOR (R62): received 10 ms to 900 ms after an edge, and consecutive after an edge accepted lately. -/
def frameValid (k : Nat) (s : State) : Bool :=
  (match s.tor.edgeSeen with
    | some e => decide (e + 10 * ticksMs ≤ s.tor.tor) && decide (s.tor.tor ≤ e + 900 * ticksMs)
    | none => false) &&
  (match s.tor.lastEdge with
    | some (t, j) => decide (t + refLimit < s.tor.tor) || k == j + 1
    | none => true)

/-- A frame on TOD_IN (R61, R62). -/
def todFrame (b : List Byte) (s : State) : State :=
  match frameSeconds b with
  | some k => if frameValid k s then { s with tor := { s.tor with named := some k, lastFrame := some s.tor.tor } } else s
  | none => s

/-- TOD_FRAME. -/
def execTodFrame (b : List Byte) (s : State) : Host.Outcome State Fault Refusal :=
  if powered s && !s.tor.refDisable then done s (todFrame b s) else .next s

/-- REF_LOSS (R63). -/
def execRefLoss (s : State) : Host.Outcome State Fault Refusal :=
  if powered s && refDue s then done s (loseRef s) else .next s

/-- Ticks between the time exchanges of a port (R65). -/
def exchTicks : Nat := 1000000

/-- The exchange of a port for the present 250 µs of TOR has not been made (R65, R70, R71). -/
def exchDue (p : Nat) (s : State) : Bool := tget none p s.tor.exch != some (s.tor.tor / exchTicks)

/-- A time exchange on an ACTIVE Armature port (R65, R67): sent, and on a follower the offset to the master is measured. -/
def timeExchange (p : Nat) (offset : Int) (quality : BitVec 2) (s : State) : State :=
  let s := { s with tor := { s.tor with exch := tset none p (some (s.tor.tor / exchTicks)) s.tor.exch } }
  let s := mgtSend (.arm p) 8 (beBytes 8 s.tor.tor ++ beBytes 1 (torQuality s)) (emit (.timeExchange p) s)
  if follows s then
    let s := measured false offset { s with tor := { s.tor with masterQuality := quality.toNat } }
    { s with tor := { s.tor with lastRef := s.tor.tor } }
  else s

/-- TIME_EXCHANGE: once for each 250 µs of TOR. -/
def execTimeExchange (p : Nat) (offset : Int) (quality : BitVec 2) (s : State) : Host.Outcome State Fault Refusal :=
  if operating s && decide (p < 8) && portActive (.arm p) s && exchDue p s then done s (fireStep s (timeExchange p offset quality s)) else .next s

/-- `TOR_CTL.REF_DISABLE` (R76): the inputs are treated as unconnected, and a reference held is lost at once. -/
def setRefDisable (on : Bool) (s : State) : State :=
  let s := { s with tor := { s.tor with refDisable := on } }
  if on then
    let s := { s with tor := { s.tor with named := none, edgeSeen := none } }
    if s.tor.refHeld then loseRef s else { s with tor := { s.tor with goodEdges := 0 } }
  else s

/-- REF_DISABLE. -/
def execRefDisable (v : View) (on : Bool) (s : State) : Host.Outcome State Fault Refusal :=
  if admin v s && powered s then done s (setRefDisable on s) else .next s

/-- `TOR_CTL.FABRIC_DISABLE` (R76): the module takes no time from the fabric and does not stand for election. -/
def setFabricDisable (on : Bool) (s : State) : State :=
  if s.tor.fabricDisable = on then s
  else
    let t := { s with tor := { s.tor with fabricDisable := on } }
    announceChange (bound s (freed s t))

/-- FABRIC_DISABLE. -/
def execFabricDisable (v : View) (on : Bool) (s : State) : Host.Outcome State Fault Refusal :=
  if admin v s && powered s then done s (fireStep s (setFabricDisable on s)) else .next s

end Sys2Proof.Machine
end

