-- ==== Sys2Proof/Machine/Regs.lean ====
section
/-! DEFINITION. Control space: the registers of every block by offset, what each reads, and to whom it is visible (01_overview R20 to
R23; the register rules R49, R53, R76, R190, R256, R282, R300, R326, R363, R385, R409, R429, R458, R474, R495, R511, R525,
R547, R567). -/

namespace Sys2Proof.Machine

/-- The registers of control space. -/
inductive Reg where
  | idPart
  | idOrder
  | idSerial
  | idTopology
  | recastMap (l : Nat)
  | recastSpare (c : Nat)
  | recastCmd
  | recastStatus
  | plnStatus
  | plnCmd
  | plnStage
  | plnGen
  | plnFuse
  | plnOwnerHash (k : Nat)
  | partCmd
  | partState (n : Nat)
  | torValue
  | torStatus
  | torOffset
  | torHoldStart
  | torLastRef
  | torCtl
  | fltPin
  | fltCmd
  | fltCmdStatus
  | fltLogStatus
  | fltLogSel
  | fltSnapTor
  | fltLogEntry (k : Nat)
  | fltStatus (i : Nat)
  | fltReact (i : Nat)
  | patinaLive (j : Nat)
  | patinaSnap (j : Nat)
  | pwrStatus
  | pwrCmd
  | pwrIpl
  | govEpoch
  | govClk (c : Nat)
  | tmpSensor (n : Nat)
  | dcStatus (n : Nat)
  | dcCmd (n : Nat)
  | dcGeom (n : Nat)
  | dcNr (n : Nat)
  | dcRowmap (n d : Nat)
  | dcTemp (n d : Nat)
  | dcErrAddr (n : Nat)
  | dcErrInfo (n : Nat)
  | dcHotRow (n : Nat)
  | dcScrub (n : Nat)
  | dcRecentre (n : Nat)
  | scWays (n : Nat)
  | scLines (n : Nat)
  | armStatus
  | armCmd
  | armEpoch
  | armEpochTor
  | armEpochNext
  | armLastId
  | armPeer (p : Nat)
  | armRoute (n : Nat)
  | lnkStatus (p : PortId)
  | lnkCtl (p : PortId)
  | lnkCnt (p : PortId) (k : Nat)
  | lnkLane (p : PortId) (l : Nat)
  | csPartSubch (n : Nat)
  | csCp (k : Nat)
  | csPortRole (n : Nat)
  | csSubch (i : Nat)
  | jnlStatus
  | jnlLat
  | jnlCtl
  | jnlSel
  | jnlEntry (k : Nat)
  | raspEng (k : Nat)
  | qSq (b : QBlock) (q : Nat)
  | qCq (b : QBlock) (q : Nat)
  | qDb (b : QBlock) (q : Nat)
  | qStat (b : QBlock) (q : Nat)
  | qCmd (b : QBlock) (q : Nat)
  | intEng (k : Nat)
  | intSlot (i : Nat)
  | hpLink
  | hpFnStat (f : Nat)
  | hpAper
  | hpWsh0 (n : Nat)
  | hpWsh1 (n : Nat)
  | hpWin0 (n : Nat)
  | hpWin1 (n : Nat)
  | hpWinCmd
  | hpWinStatus
  | hpQp (q : Nat)
  | hpQpr (q : Nat)
  | hpQpc (q : Nat)
  | mbxPart (q : Nat)
  | mbxPidx (q : Nat)
  | hpQpCmd
  | csStatus
  | csCmd
  | csStage
  | csVer (k : Nat)
  | csSvn (k : Nat)
  | csStoreStat (n : Nat)
  | csDiagSel
  | csDiagData (j : Nat)
  | csDiagChk
  | trStatus
  | trAttCmd
  | trAttStatus
  | trPkey (n : Nat)
  | trPatt (n : Nat)
  | dxStatus
  | dxCtl
  | dxCmd
  | dxHold
  | dxHoldEnd
  | dxFailTor
  | dxHbcnt
  | dxFbHist (k : Nat)
  | coreStatus (slot : Nat)
  | coreTsw (slot : Nat)
  | corePc (slot : Nat)
  | coreCr (slot n : Nat)
deriving DecidableEq, Repr

/-! ### Offsets (R20) -/

/-- The index of an offset in a row of `n` registers at `base`, `stride` apart. -/
def rowIx (base stride n off : Nat) : Option Nat :=
  if base ≤ off ∧ (off - base) % stride = 0 ∧ (off - base) / stride < n then some ((off - base) / stride) else none

/-- The first register that a list of choices names. -/
def firstReg : List (Option Reg) → Option Reg
  | [] => none
  | some r :: _ => some r
  | none :: t => firstReg t

/-- One register at an offset. -/
def oneReg (at_ : Nat) (r : Reg) (off : Nat) : Option Reg := if off = at_ then some r else none

/-- Identity and global block (R23, R474). -/
def idReg (o : Nat) : Option Reg :=
  firstReg [oneReg 0x0 .idPart o, oneReg 0x8 .idOrder o, oneReg 0x10 .idSerial o, oneReg 0x18 .idTopology o,
    (rowIx 0x1000 8 192 o).map .recastMap, (rowIx 0x1800 8 12 o).map .recastSpare, oneReg 0x2000 .recastCmd o, oneReg 0x2008 .recastStatus o]

/-- Plinth and partition status block (R49). -/
def plnReg (o : Nat) : Option Reg :=
  firstReg [oneReg 0x0 .plnStatus o, oneReg 0x8 .plnCmd o, oneReg 0x10 .plnStage o, oneReg 0x18 .plnGen o, oneReg 0x20 .plnFuse o,
    (rowIx 0x28 8 6 o).map .plnOwnerHash, oneReg 0x58 .partCmd o, (rowIx 0x1000 8 48 o).map .partState]

/-- TOR block (R76). -/
def torReg (o : Nat) : Option Reg :=
  firstReg [oneReg 0x0 .torValue o, oneReg 0x8 .torStatus o, oneReg 0x10 .torOffset o, oneReg 0x18 .torHoldStart o,
    oneReg 0x20 .torLastRef o, oneReg 0x28 .torCtl o]

/-- Fault collection and Patina block (R495). -/
def fltReg (o : Nat) : Option Reg :=
  firstReg [oneReg 0x0 .fltPin o, oneReg 0x8 .fltCmd o, oneReg 0x10 .fltCmdStatus o, oneReg 0x18 .fltLogStatus o, oneReg 0x20 .fltLogSel o,
    oneReg 0x28 .fltSnapTor o, (rowIx 0x40 8 4 o).map .fltLogEntry, (rowIx 0x10000 8 512 o).map .fltStatus,
    (rowIx 0x20000 8 512 o).map .fltReact, (rowIx 0x30000 8 168 o).map .patinaLive, (rowIx 0x40000 8 168 o).map .patinaSnap]

/-- Power, thermal and governor block (R567). -/
def pwrReg (o : Nat) : Option Reg :=
  firstReg [oneReg 0x0 .pwrStatus o, oneReg 0x8 .pwrCmd o, oneReg 0x10 .pwrIpl o, oneReg 0x18 .govEpoch o,
    (rowIx 0x100 8 12 o).map .govClk, (rowIx 0x1000 8 60 o).map .tmpSensor]

/-- The block of DRAM controller n (R282). -/
def dcReg (n o : Nat) : Option Reg :=
  firstReg [oneReg 0x0 (.dcStatus n) o, oneReg 0x8 (.dcCmd n) o, oneReg 0x10 (.dcGeom n) o, oneReg 0x18 (.dcNr n) o,
    (rowIx 0x20 8 2 o).map (.dcRowmap n), (rowIx 0x30 8 2 o).map (.dcTemp n), oneReg 0x40 (.dcErrAddr n) o, oneReg 0x48 (.dcErrInfo n) o,
    oneReg 0x50 (.dcHotRow n) o, oneReg 0x58 (.dcScrub n) o, oneReg 0x60 (.dcRecentre n) o]

/-- Shared-cache block (R256). -/
def scReg (o : Nat) : Option Reg := firstReg [(rowIx 0x1000 8 48 o).map .scWays, (rowIx 0x2000 8 48 o).map .scLines]

/-- The link registers of a port (R300). -/
def lnkReg (p : PortId) (o : Nat) : Option Reg :=
  firstReg [oneReg 0x0 (.lnkStatus p) o, oneReg 0x8 (.lnkCtl p) o, (rowIx 0x10 8 3 o).map (.lnkCnt p), (rowIx 0x40 8 (portLanes p) o).map (.lnkLane p)]

/-- Armature block (R300, R326). -/
def armReg (o : Nat) : Option Reg :=
  if 0x10000 ≤ o then (if o < 0x18000 then lnkReg (.arm ((o - 0x10000) / 0x1000)) (o % 0x1000) else none)
  else firstReg [oneReg 0x0 .armStatus o, oneReg 0x8 .armCmd o, oneReg 0x10 .armEpoch o, oneReg 0x18 .armEpochTor o, oneReg 0x20 .armEpochNext o,
    oneReg 0x28 .armLastId o, (rowIx 0x100 8 8 o).map .armPeer, (rowIx 0x200 8 64 o).map .armRoute]

/-- Channel subsystem block (R300, R363, R385). -/
def chReg (o : Nat) : Option Reg :=
  if 0x10000 ≤ o ∧ o < 0x1C000 then lnkReg (.ch ((o - 0x10000) / 0x1000)) (o % 0x1000)
  else firstReg [(rowIx 0x1000 8 48 o).map .csPartSubch, (rowIx 0x2000 8 32 o).map .csCp, (rowIx 0x3000 8 12 o).map .csPortRole,
    oneReg 0x40000 .jnlStatus o, oneReg 0x40008 .jnlLat o, oneReg 0x40010 .jnlCtl o, oneReg 0x40018 .jnlSel o, (rowIx 0x40040 8 8 o).map .jnlEntry,
    (rowIx 0x800000 8 262144 o).map .csSubch]

/-- The registers of a queue at its offsets (R409). -/
def queueReg (b : QBlock) (q o : Nat) : Option Reg :=
  firstReg [oneReg 0x0 (.qSq b q) o, oneReg 0x8 (.qCq b q) o, oneReg 0x10 (.qDb b q) o, oneReg 0x18 (.qStat b q) o, oneReg 0x20 (.qCmd b q) o]

/-- Rasp block (R409). -/
def raspReg (o : Nat) : Option Reg :=
  if 0x10000 ≤ o then (if o < 0x14000 then queueReg .rasp ((o - 0x10000) / 0x40) (o % 0x40) else none)
  else (rowIx 0x0 8 8 o).map .raspEng

/-- Intaglio block (R458). -/
def intReg (o : Nat) : Option Reg :=
  if 0x20000 ≤ o then (rowIx 0x20000 8 4096 o).map .intSlot
  else if 0x10000 ≤ o then (if o < 0x14000 then queueReg .intaglio ((o - 0x10000) / 0x40) (o % 0x40) else none)
  else (rowIx 0x0 8 8 o).map .intEng

/-- Host-port block (R547). -/
def hpReg (o : Nat) : Option Reg :=
  firstReg [oneReg 0x0 .hpLink o, (rowIx 0x8 8 2 o).map .hpFnStat, oneReg 0x18 .hpAper o, (rowIx 0x100 16 17 o).map .hpWsh0,
    (rowIx 0x108 16 17 o).map .hpWsh1, (rowIx 0x300 16 17 o).map .hpWin0, (rowIx 0x308 16 17 o).map .hpWin1, oneReg 0x500 .hpWinCmd o,
    oneReg 0x508 .hpWinStatus o, (rowIx 0x1000 0x40 64 o).map .hpQp, (rowIx 0x1008 0x40 64 o).map .hpQpr, (rowIx 0x1010 0x40 64 o).map .hpQpc,
    (rowIx 0x1018 0x40 64 o).map .mbxPart, (rowIx 0x1020 0x40 64 o).map .mbxPidx, oneReg 0x2000 .hpQpCmd o]

/-- Control-store block (R525). -/
def csReg (o : Nat) : Option Reg :=
  firstReg [oneReg 0x0 .csStatus o, oneReg 0x8 .csCmd o, oneReg 0x10 .csStage o, (rowIx 0x100 8 5 o).map .csVer, (rowIx 0x200 8 5 o).map .csSvn,
    (rowIx 0x300 8 30 o).map .csStoreStat, oneReg 0x400 .csDiagSel o, (rowIx 0x408 8 2 o).map .csDiagData, oneReg 0x418 .csDiagChk o]

/-- Trust block (R429). -/
def trReg (o : Nat) : Option Reg :=
  firstReg [oneReg 0x0 .trStatus o, oneReg 0x8 .trAttCmd o, oneReg 0x10 .trAttStatus o, (rowIx 0x1000 16 48 o).map .trPkey, (rowIx 0x1008 16 48 o).map .trPatt]

/-- Duplex block (R511). -/
def dxReg (o : Nat) : Option Reg :=
  firstReg [oneReg 0x0 .dxStatus o, oneReg 0x8 .dxCtl o, oneReg 0x10 .dxCmd o, oneReg 0x18 .dxHold o, oneReg 0x20 .dxHoldEnd o, oneReg 0x28 .dxFailTor o,
    oneReg 0x30 .dxHbcnt o, (rowIx 0x40 8 12 o).map .dxFbHist]

/-- The block of a slot (R190). -/
def coreReg (slot o : Nat) : Option Reg :=
  firstReg [oneReg 0x0 (.coreStatus slot) o, oneReg 0x8 (.coreTsw slot) o, oneReg 0x10 (.corePc slot) o, (rowIx 0x800 8 64 o).map (.coreCr slot)]

/-- The register at a control-space offset (R20, R21): none where nothing is defined, or the offset is no multiple of 8. -/
def decodeReg (off : Nat) : Option Reg :=
  let o := off % 0x1000000
  if off % 8 ≠ 0 then none
  else if off < 0x100000 then idReg off
  else if off < 0x200000 then plnReg (off - 0x100000)
  else if off < 0x300000 then torReg (off - 0x200000)
  else if off < 0x400000 then fltReg (off - 0x300000)
  else if off < 0x1000000 then pwrReg (off - 0x400000)
  else if 0x10000000 ≤ off then (if (off - 0x10000000) / 0x10000 < 204 then coreReg ((off - 0x10000000) / 0x10000) (off % 0x10000) else none)
  else match off / 0x1000000 with
    | 1 => if o < 0x100000 then dcReg (o / 0x10000) (o % 0x10000) else none
    | 2 => scReg o
    | 3 => armReg o
    | 4 => chReg o
    | 5 => raspReg o
    | 6 => intReg o
    | 7 => hpReg o
    | 8 => csReg o
    | 9 => trReg o
    | 10 => dxReg o
    | _ => none

/-! ### Reading -/

/-- A port as the route registers code it: 0xF for none (R326). -/
def portCode (p : Option Nat) : Nat := p.getD 0xF

/-- Members of a table that satisfy a test. -/
def countOf {α : Type} (p : Nat → α → Bool) (t : Tab α) : Nat := (t.filter (fun e => p e.1 e.2)).length

/-- `RECAST_MAPl` (R474). -/
def readRecastMap (l : Nat) (s : State) : Long :=
  pack [(63, 56, slotOf l s), (55, 54, recState l s), (53, 38, tget 0 l s.cpu.recasts)]

/-- The slot of a cluster's spare, which is also the slot that a used one serves from (R474). -/
def spareAt (c : Nat) : Nat := 17 * c + 16

/-- `PLN_STATUS` (R49). -/
def readPlnStatus (s : State) : Long :=
  let st := match s.pln.state with | .noImage => 0 | .verifying => 1 | .applying => 2 | .applied => 3
  pack [(63, 56, st), (55, 48, s.pln.result), (47, 45, s.pln.owners.length), (44, 43, s.pln.source)]

/-- The code of a partition state (R49). -/
def pstateCode : PState → Nat
  | .undefined => 0
  | .stopped => 1
  | .running => 2
  | .stopping => 3
  | .checkstopped => 4

/-- `PART_STATEn` (R49). -/
def readPartState (n : Nat) (s : State) : Long :=
  pack [(63, 60, pstateCode (pstateOf n s)), (59, 52, tget 0 n s.pln.presult), (51, 44, if imageInForce s then (coresOf n s).length else 0)]

/-- An event within the last 2 s (R76). -/
def seenLately (t : Option Nat) (s : State) : Bool := match t with | some x => decide (s.tor.tor ≤ x + 2 * ticksS) | none => false

/-- `TOR_STATUS` (R76). -/
def readTorStatus (s : State) : Long :=
  pack [(63, 60, torCode s.tor.state), (59, 58, torQuality s), (57, 57, b2n (isMaster s)), (56, 56, b2n s.tor.keptValid),
    (55, 55, b2n (seenLately (s.tor.lastEdge.map (·.1)) s)), (54, 54, b2n (seenLately s.tor.lastFrame s)), (53, 48, s.tor.master.getD 0),
    (47, 47, b2n s.tor.refHeld)]

/-- The bytes of a log entry (R494). -/
def logBytes (e : LogEntry) : List Byte :=
  beBytes 8 e.tor ++ beBytes 1 e.kind ++ beBytes 1 e.qc ++ beBytes 4 e.source ++ beBytes 1 e.part ++ beBytes 1 e.step ++ beBytes 8 e.detail ++ beBytes 8 e.seq

/-- `FLT_STATUSi` (R495). -/
def readFltStatus (i : Nat) (s : State) : Long :=
  let f := fltStatus i s
  pack [(63, 63, b2n f.pending), (62, 62, b2n f.overflow), (61, 60, f.cls), (59, 52, f.event), (51, 46, f.part), (45, 44, f.step), (43, 43, b2n f.fenced)]

/-- Four Patina counters of a table (R495). -/
def readPatina (j : Nat) (t : Tab Half) : Long :=
  let c (i : Nat) : Nat := (tget 0 (4 * j + i) t).toNat
  pack [(63, 48, c 0), (47, 32, c 1), (31, 16, c 2), (15, 0, c 3)]

/-- `FLT_PIN.PULSE` (R490, R495). -/
def errPulse (s : State) : Bool := match s.flt.pulseEnd with | some t => decide (s.tor.tor < t) | none => false

/-- `GOV_CLKc` (R567). -/
def readGovClk (c : Nat) (s : State) : Long :=
  let r := if imageInForce s then clkRange (s.pln.parts.filterMap (·.2)) c else none
  pack [(63, 51, tget 2000 c s.pwr.clk), (50, 38, (r.map (·.1)).getD 0), (37, 25, (r.map (·.2)).getD 0),
    (24, 24, b2n (imageInForce s && r.isNone)), (23, 12, (BitVec.ofInt 12 (tget 0 c s.pwr.lastTemp)).toNat)]

/-- `DC_STATUS` (R282). -/
def readDcStatus (d : Dram) : Long :=
  pack [(63, 60, d.state), (59, 58, d.speed), (57, 57, b2n d.mode2x), (56, 53, d.debt), (52, 52, b2n d.nrCluster), (51, 51, b2n d.contentLost),
    (50, 50, b2n d.sensorFail), (49, 42, d.lastResult), (41, 40, d.dimms)]

/-- `DC_TEMPd` (R282). -/
def readDcTemp (i : Nat) (d : Dram) : Long :=
  pack [(63, 52, (BitVec.ofInt 12 (tget 0 i d.lastTemp)).toNat), (51, 51, b2n (tget none i d.temp).isSome)]

/-- `ARM_STATUS` (R326). -/
def readArmStatus (s : State) : Long :=
  pack [(63, 60, s.arm.fstate), (59, 52, s.arm.db.length), (51, 46, s.arm.root), (45, 45, b2n s.arm.next.isSome), (44, 37, s.arm.lastResult)]

/-- `ARM_ROUTEn` (R326). -/
def readArmRoute (n : Nat) (s : State) : Long :=
  let r := tget {} n s.arm.routes
  let valid : Bool := (tget none n s.arm.db).isSome && (r.primary.isSome || s.arm.node == some n)
  let onAlt : Bool := match r.primary, r.alt with
    | some a, some b => !portActive (.arm a) s && portActive (.arm b) s
    | _, _ => false
  pack [(63, 63, b2n valid), (62, 59, portCode r.primary), (58, 55, portCode r.alt), (54, 51, portCode r.desc), (50, 47, portCode r.descAlt),
    (46, 40, r.hops), (39, 39, b2n r.pinned), (38, 38, b2n onAlt)]

/-- `LNK_STATUS` (R300). -/
def readLnkStatus (p : PortId) (s : State) : Long :=
  let l := linkOf p s
  pack [(63, 60, l.state), (59, 58, l.width), (57, 55, l.group), (54, 47, goodMask p l), (46, 46, b2n l.encOn), (45, 44, l.keyPhase)]

/-- The counters of a port (R300). -/
def readLnkCnt (p : PortId) (k : Nat) (s : State) : Long :=
  let l := linkOf p s
  match k with
  | 0 => pack [(63, 32, l.cwCorr), (31, 0, l.cwUncorr)]
  | 1 => pack [(63, 32, l.crcFail), (31, 0, l.replays)]
  | _ => pack [(63, 48, l.tagFail), (47, 32, l.recoveries), (31, 16, l.widthChg), (15, 0, l.downs)]

/-- `LNK_LANEl` (R300). -/
def readLnkLane (p : PortId) (i : Nat) (s : State) : Long :=
  let x := laneOf i (linkOf p s)
  pack [(63, 32, x.symCorr), (31, 24, x.margin), (23, 23, b2n x.lock), (22, 22, b2n x.failed)]

/-- `CS_PORT_ROLEn` (R363). -/
def readPortRole (n : Nat) (s : State) : Long :=
  match s.pln.module_ with
  | some m => pack [(63, 62, m.chPortMode.getD n 0), (61, 61, b2n (tget false n s.ch.driving)), (60, 60, b2n (m.clearLink.testBit n))]
  | none => pack [(61, 61, b2n (tget false n s.ch.driving))]

/-- `CS_SUBCHi` (R363). -/
def readSubch (i : Nat) (s : State) : Long :=
  let c := tget {} i s.ch.sub
  pack [(63, 63, b2n c.en), (62, 59, c.port0), (58, 55, c.port1), (54, 39, c.dev), (38, 36, (jent i s).state)]

/-- `JNL_STATUS` (R385). -/
def readJnlStatus (s : State) : Long :=
  pack [(63, 60, s.jnl.pair), (59, 54, partnerNode s), (53, 53, b2n s.jnl.keptValid), (52, 34, countOf (fun _ e => e.state != 0 && !e.mirror) s.jnl.e),
    (33, 15, countOf (fun _ e => e.takenOver) s.jnl.e)]

/-- The engine state that an engine register shows (R409, R458): 0 IDLE, 1 BUSY, 2 FAILED. -/
def engState (failed busy : Bool) : Nat := if failed then 2 else if busy then 1 else 0

/-- `INT_ENGk` (R458). -/
def readIntEng (k : Nat) (s : State) : Long :=
  let e := intOf k s
  pack [(63, 62, engState e.failed e.job.isSome), (61, 61, b2n e.dual), (60, 60, b2n e.susp.isSome), (59, 59, b2n (e.job.any (fun j => isUrgent j.desc))),
    (58, 27, e.jobs), (26, 11, e.faults)]

/-- The partition whose `UUID` owns a key; 0x3F where none does (R440, R458). -/
def ownerOf (uuid : List Byte) (s : State) : Nat := ((partIds s).find? (fun p => uuidOf p s == uuid)).getD 0x3F

/-- `INT_SLOTi` (R458). -/
def readIntSlot (i : Nat) (s : State) : Long :=
  match keySlotOf i s with
  | none => pack [(61, 56, 0x3F), (30, 26, slotUsers i s)]
  | some k => pack [(63, 62, 1), (61, 56, ownerOf k.uuid s), (55, 48, k.alg), (47, 32, k.usage), (31, 31, b2n k.never), (30, 26, slotUsers i s)]

/-- `*_QSTAT` (R409). -/
def readQStat (v : Queue) : Long :=
  pack [(63, 60, v.state), (59, 44, v.head), (43, 28, v.cqTail), (27, 20, v.lastResult), (19, 16, v.pause)]

/-- What a window entry reads before anything is written (R547). -/
def winReset (n : Nat) : WinEntry :=
  if n = 16 then { lo := pack [(63, 63, 1), (62, 61, 2), (60, 60, 1), (57, 52, 20)], off := 0x03000000 } else {}

/-- `HP_LINK` (R547). -/
def readHpLink (s : State) : Long :=
  pack [(63, 62, s.hp.state), (61, 59, s.hp.rate), (58, 57, s.hp.width), (56, 56, b2n s.hp.flit), (55, 55, b2n s.hp.perst)]

/-- `HP_FNf_STAT` (R547). -/
def readFnStat (f : HostFn) : Long :=
  pack [(63, 63, b2n f.flr), (62, 62, b2n f.bme), (61, 46, f.late), (45, 30, f.ur), (29, 14, f.dropped)]

/-- `HP_QPq` (R547). -/
def readQp (q : Nat) (s : State) : Long :=
  let v := qpOf q s
  pack [(63, 62, v.kind), (61, 56, v.owner.getD 0x3F), (55, 48, v.lastResult)]

/-- `CS_STATUS` (R525). -/
def readCsStatus (s : State) : Long :=
  let src := [1, 2, 3, 4].foldl (fun a t => a + (match tget none t s.cs.img with | some i => if i.fromB then 2 ^ (t - 1) else 0 | none => 0)) 0
  pack [(63, 63, b2n s.cs.busy), (62, 55, s.cs.result), (54, 51, src), (50, 48, s.cs.failTarget)]

/-- Bits of a stored word that differ from the loaded one (R517, R525). -/
def diagFlips (s : State) : Nat := tget 0 s.cs.diagAddr (storeOf s.cs.diagStore s).flips

/-- The word that `CS_DIAG_SEL` names, as stored (R525); outside a loaded store it reads 0. -/
def diagOk (s : State) : Bool :=
  decide (s.cs.diagStore < 30) && (storeOf s.cs.diagStore s).state == 1 && decide (s.cs.diagAddr < targetWords (storeTarget s.cs.diagStore))

/-- Its check bits are over the loaded word, and its syndrome over the bits that differ (R515, R525). -/
def readDiagChk (s : State) : Long :=
  if diagOk s then
    let w := csWord s.cs.diagStore s.cs.diagAddr s
    pack [(63, 48, Config.csCheck w), (47, 32, if diagFlips s = 0 then 0 else Config.csSyndrome w (diagFlips s))]
  else 0

/-- `TR_PKEYn` (R429). -/
def readPkey (n : Nat) (s : State) : Long :=
  let pubs := (List.range 16).foldl (fun a k => if (pubOf n k s).isSome then a + 2 ^ k else a) 0
  pack [(63, 32, tget 0 n s.tr.keyGen), (31, 31, b2n (tget false n s.tr.debug && (partOf n s).isSome)), (30, 15, pubs)]

/-- `DX_STATUS` (R511). -/
def readDxStatus (s : State) : Long :=
  pack [(63, 60, s.dx.state), (59, 54, partnerNode s), (53, 53, b2n s.dx.arm.ok), (52, 52, b2n s.dx.ded.ok), (51, 51, b2n (holder s)),
    (50, 43, s.dx.lastResult)]

/-- The state of a core as `CORE_STATUS` codes it (R190, R572). -/
def coreCode (l : Nat) (s : State) : Nat :=
  let c := coreOf l s
  if recState l s = 2 then 5
  else match c.run with
    | .running => 0
    | .waiting _ => 1
    | .stopped => 2
    | .gated _ => 3
    | .lost => 5
    | .tcaFault => 6

/-- `CORE_STATUS` (R190). A slot that serves no core is a spare, or gated once it has failed or its core has moved (log entry 60). `PART`
reads 0 until an image is applied (00_scope R10). -/
def readCoreStatus (slot : Nat) (s : State) : Long :=
  let part (p : Option Nat) : Nat := if imageInForce s then p.getD 0x3F else 0
  match logicalOf slot s with
  | some l => pack [(63, 60, coreCode l s), (59, 52, l), (51, 46, part (partOfCore l s))]
  | none => pack [(63, 60, if slot % 17 = 16 ∧ spareState (slot / 17) s ≠ 2 then 4 else 3), (59, 52, 0xFF), (51, 46, part none)]

/-- A value of the core in a slot, shown while it is STOPPED, LOST or TCA_FAULT (R190). -/
def coreShown (slot : Nat) (f : Nat → Long) (s : State) : Long :=
  match logicalOf slot s with
  | some l => if coreCode l s = 2 ∨ coreCode l s = 5 ∨ coreCode l s = 6 then f l else 0
  | none => 0

/-- What a register reads. -/
def readReg (r : Reg) (s : State) : Long :=
  match r with
  | .idPart => idPart
  | .idOrder => idOrder
  | .idSerial => Config.serial
  | .idTopology => idTopology s
  | .recastMap l => readRecastMap l s
  | .recastSpare c => pack [(63, 56, spareAt c), (55, 54, spareState c s)]
  | .recastCmd => 0
  | .recastStatus => pack [(63, 63, b2n s.cpu.recBusy), (62, 55, s.cpu.recResult), (54, 47, s.cpu.recLogical)]
  | .plnStatus => readPlnStatus s
  | .plnCmd => 0
  | .plnStage => pack [(63, 32, s.pln.stageOffset), (31, 0, s.pln.stageLength)]
  | .plnGen => BitVec.ofNat 64 s.pln.generation
  | .plnFuse => pack [(6, 0, s.pln.blown)]
  | .plnOwnerHash k => BitVec.ofNat 64 (natAt (ownerHash s) (8 * k) 8)
  | .partCmd => 0
  | .partState n => readPartState n s
  | .torValue => torLong s
  | .torStatus => readTorStatus s
  | .torOffset => BitVec.ofInt 64 s.tor.offset
  | .torHoldStart => BitVec.ofNat 64 s.tor.holdStart
  | .torLastRef => BitVec.ofNat 64 s.tor.lastRef
  | .torCtl => pack [(63, 63, b2n s.tor.refDisable), (62, 62, b2n s.tor.fabricDisable)]
  | .fltPin => pack [(63, 63, b2n s.flt.hold), (62, 62, b2n (errPulse s)), (61, 61, b2n s.flt.checkstop)]
  | .fltCmd => 0
  | .fltCmdStatus => pack [(63, 56, s.flt.cmdResult)]
  | .fltLogStatus => pack [(63, 16, s.flt.nextSeq), (15, 0, s.flt.lost)]
  | .fltLogSel => pack [(63, 51, s.flt.logSel)]
  | .fltSnapTor => BitVec.ofNat 64 s.flt.snapTor
  | .fltLogEntry k => match tget none s.flt.logSel s.flt.log with | some e => BitVec.ofNat 64 (natAt (logBytes e) (8 * k) 8) | none => 0
  | .fltStatus i => readFltStatus i s
  | .fltReact i => reactOf i s
  | .patinaLive j => readPatina j s.flt.live
  | .patinaSnap j => readPatina j s.flt.snap
  | .pwrStatus => pwrStatus s
  | .pwrCmd => 0
  | .pwrIpl => s.pwr.ipl
  | .govEpoch => BitVec.ofNat 64 s.pwr.govEpoch
  | .govClk c => readGovClk c s
  | .tmpSensor n => pack [(63, 48, sensorWord n s)]
  | .dcStatus n => readDcStatus (dramOf n s)
  | .dcCmd _ => 0
  | .dcGeom n => pack [(63, 54, usedDram s / 2 ^ 34), (53, 52, (dramOf n s).density), (51, 49, (dramOf n s).lranks)]
  | .dcNr n => pack [(63, 59, (dramOf n s).k), (58, 54, (dramOf n s).kEff), (53, 53, b2n (dramOf n s).row2)]
  | .dcRowmap n d => tget 0 d (dramOf n s).rowMap
  | .dcTemp n d => readDcTemp d (dramOf n s)
  | .dcErrAddr n => (dramOf n s).errAddr
  | .dcErrInfo n => (dramOf n s).err
  | .dcHotRow n => (dramOf n s).hotRow
  | .dcScrub n => pack [(63, 32, (dramOf n s).passes), (31, 0, (dramOf n s).pos)]
  | .dcRecentre n => BitVec.ofNat 64 (dramOf n s).lastRecentre
  | .scWays n => pack [(63, 48, ((shownPart n s).map (·.cacheWays)).getD 0)]
  | .scLines n => pack [(21, 0, slicePartLines n s)]
  | .armStatus => readArmStatus s
  | .armCmd => 0
  | .armEpoch => pack [(63, 32, s.arm.epoch)]
  | .armEpochTor => BitVec.ofNat 64 s.arm.epochTor
  | .armEpochNext => match s.arm.next with | some a => BitVec.ofNat 64 a.tor | none => 0
  | .armLastId => pack [(63, 58, s.arm.lastId)]
  | .armPeer p => pack [(63, 58, if (peerOf p s).node < 64 then (peerOf p s).node else 0), (57, 55, (peerOf p s).port), (54, 47, (peerOf p s).result)]
  | .armRoute n => readArmRoute n s
  | .lnkStatus p => readLnkStatus p s
  | .lnkCtl p => pack [(63, 63, b2n (linkOf p s).disable), (60, 59, (linkOf p s).maxWidth), (58, 51, (linkOf p s).laneOff)]
  | .lnkCnt p k => readLnkCnt p k s
  | .lnkLane p i => readLnkLane p i s
  | .csPartSubch n => match shownPart n s with | some d => pack [(63, 46, d.subchBase), (45, 29, d.subchCount)] | none => 0
  | .csCp k => pack [(63, 62, cpState k s), (61, 52, countOf (fun _ o => o.any (fun x => x.cp == some k)) s.ch.ops)]
  | .csPortRole n => readPortRole n s
  | .csSubch i => readSubch i s
  | .jnlStatus => readJnlStatus s
  | .jnlLat => pack [(63, 48, s.jnl.lat), (47, 32, s.jnl.latMax), (31, 16, s.jnl.slow)]
  | .jnlCtl => 0
  | .jnlSel => pack [(63, 46, s.jnl.sel)]
  | .jnlEntry k => BitVec.ofNat 64 (natAt (jent s.jnl.sel s).bytes (8 * k) 8)
  | .raspEng k => pack [(63, 62, engState (raspOf k s).failed (raspOf k s).job.isSome), (61, 30, (raspOf k s).jobs)]
  | .qSq b q => pack [(51, 12, if q < 64 then 0 else (queueOf b q s).sqBase / 4096), (3, 0, (queueOf b q s).size)]
  | .qCq b q => pack [(51, 12, if q < 64 then 0 else (queueOf b q s).cqBase / 4096)]
  | .qDb b q => pack [(63, 48, (queueOf b q s).tail), (47, 32, (queueOf b q s).cqHead)]
  | .qStat b q => readQStat (queueOf b q s)
  | .qCmd _ _ => 0
  | .intEng k => readIntEng k s
  | .intSlot i => readIntSlot i s
  | .hpLink => readHpLink s
  | .hpFnStat f => readFnStat (if f = 0 then s.pf0 else s.pf1)
  | .hpAper => pack [(63, 51, s.hp.aper)]
  | .hpWsh0 n => (tget (winReset n) n s.hp.shadow).lo
  | .hpWsh1 n => (tget (winReset n) n s.hp.shadow).off
  | .hpWin0 n => (tget (winReset n) n s.hp.win).lo
  | .hpWin1 n => (tget (winReset n) n s.hp.win).off
  | .hpWinCmd => 0
  | .hpWinStatus => pack [(63, 56, s.hp.winResult), (55, 51, s.hp.firstBad)]
  | .hpQp q => readQp q s
  | .hpQpr q => pack [(63, 12, (qpOf q s).prBase / 4096)]
  | .hpQpc q => pack [(63, 12, (qpOf q s).pcBase / 4096)]
  | .mbxPart q => pack [(63, 56, (qpOf q s).notify), (51, 12, (qpOf q s).inbox / 4096)]
  | .mbxPidx q => pack [(63, 48, (qpOf q s).inTail), (47, 32, (qpOf q s).inHead), (31, 16, (qpOf q s).outTail), (15, 0, (qpOf q s).outHead)]
  | .hpQpCmd => 0
  | .csStatus => readCsStatus s
  | .csCmd => 0
  | .csStage => pack [(63, 32, s.cs.stageOffset), (31, 0, s.cs.stageLength)]
  | .csVer k => match tget none k s.cs.img with | some i => BitVec.ofNat 64 i.version | none => 0
  | .csSvn k => pack [(63, 58, match tget none k s.cs.img with | some i => i.svn | none => 0), (57, 52, svnFloor k s)]
  | .csStoreStat n => pack [(63, 62, (storeOf n s).state), (61, 46, (storeOf n s).ce), (45, 30, (storeOf n s).repairs), (29, 0, (storeOf n s).passes)]
  | .csDiagSel => pack [(63, 59, s.cs.diagStore), (58, 42, s.cs.diagAddr)]
  | .csDiagData j =>
    if diagOk s then BitVec.ofNat 64 ((beNat (csWord s.cs.diagStore s.cs.diagAddr s) ^^^ (diagFlips s % 2 ^ 128)) >>> (64 * (1 - j))) else 0
  | .csDiagChk => readDiagChk s
  | .trStatus => pack [(63, 63, b2n s.tr.esN), (62, 62, b2n s.tr.esS), (61, 61, b2n s.tr.fwFail), (60, 60, b2n s.tr.moduleDebug)]
  | .trAttCmd => 0
  | .trAttStatus => pack [(63, 63, b2n s.tr.attBusy), (62, 55, s.tr.attResult)]
  | .trPkey n => readPkey n s
  | .trPatt n => pack [(59, 59, b2n (tget {} n s.tr.patt).busy), (58, 52, (tget {} n s.tr.patt).result), (51, 6, (tget {} n s.tr.patt).addr / 64)]
  | .dxStatus => readDxStatus s
  | .dxCtl => pack [(63, 63, b2n s.dx.inhibit)]
  | .dxCmd => 0
  | .dxHold => pack [(63, 52, s.dx.seconds), (51, 48, s.dx.n)]
  | .dxHoldEnd => if s.dx.state = 5 then BitVec.ofNat 64 s.dx.holdEnd else 0
  | .dxFailTor => BitVec.ofNat 64 s.dx.failTor
  | .dxHbcnt => pack [(63, 48, s.dx.arm.miss), (47, 32, s.dx.ded.miss), (31, 16, s.dx.arm.faults), (15, 0, s.dx.ded.faults)]
  | .dxFbHist k => BitVec.ofNat 64 (s.dx.hist.getD k 0)
  | .coreStatus n => readCoreStatus n s
  | .coreTsw n => coreShown n (fun l => (coreOf l s).tsw) s
  | .corePc n => coreShown n (fun l => (coreOf l s).pc) s
  | .coreCr n k => coreShown n (fun l => readCr l k s) s

/-! ### Visibility (R21, R53, R530) -/

/-- What partition p may read in its window: the registers that their chapters mark partition-visible. -/
def partVisible (p : Nat) (r : Reg) (s : State) : Bool :=
  match r with
  | .idPart => true
  | .idOrder => true
  | .idSerial => true
  | .idTopology => true
  | .recastMap l => partOfCore l s == some p
  | .plnStatus => true
  | .plnGen => true
  | .partState n => n == p
  | .torValue => true
  | .torStatus => true
  | .fltStatus i => (fltStatus i s).part == p
  | .govClk c => (coresOf p s).any (fun l => l / 16 == c)
  | .scWays n => n == p
  | .scLines n => n == p
  | .csPartSubch n => n == p
  | .csSubch i => subchPart i s == some p
  | .qSq b q => mayQueue (.part p) b q s
  | .qCq b q => mayQueue (.part p) b q s
  | .qDb b q => mayQueue (.part p) b q s
  | .qStat b q => mayQueue (.part p) b q s
  | .qCmd b q => mayQueue (.part p) b q s
  | .intSlot i => slotInRange p i s
  | .hpQp q => (qpOf q s).owner.isNone || (qpOf q s).owner == some p
  | .mbxPart q => (qpOf q s).kind == 3 && (qpOf q s).owner == some p
  | .mbxPidx q => (qpOf q s).kind == 3 && (qpOf q s).owner == some p
  | .hpQpCmd => false
  | .trStatus => true
  | .trPkey n => n == p
  | .trPatt n => n == p
  | .dxStatus => true
  | _ => false

/-- What partition p may write in its window. -/
def partWritable (p : Nat) (r : Reg) (s : State) : Bool :=
  match r with
  | .fltStatus i => (fltStatus i s).part == p
  | .csSubch i => subchPart i s == some p
  | .qSq b q => mayQueue (.part p) b q s
  | .qCq b q => mayQueue (.part p) b q s
  | .qDb b q => mayQueue (.part p) b q s
  | .qCmd b q => mayQueue (.part p) b q s
  | .mbxPart q => partVisible p (.mbxPart q) s
  | .mbxPidx q => partVisible p (.mbxPidx q) s
  | .hpQpCmd => true
  | .trPatt n => n == p
  | _ => false

/-- Registers with a field that is not read-only (R8). -/
def hasWrite : Reg → Bool
  | .recastCmd => true
  | .plnCmd => true
  | .plnStage => true
  | .partCmd => true
  | .torCtl => true
  | .fltPin => true
  | .fltCmd => true
  | .fltLogSel => true
  | .fltStatus _ => true
  | .fltReact _ => true
  | .pwrCmd => true
  | .pwrIpl => true
  | .dcStatus _ => true
  | .dcCmd _ => true
  | .dcNr _ => true
  | .dcRowmap _ _ => true
  | .armCmd => true
  | .lnkCtl _ => true
  | .csSubch _ => true
  | .jnlCtl => true
  | .jnlSel => true
  | .qSq _ _ => true
  | .qCq _ _ => true
  | .qDb _ _ => true
  | .qCmd _ _ => true
  | .intEng _ => true
  | .hpAper => true
  | .hpWsh0 _ => true
  | .hpWsh1 _ => true
  | .hpWinCmd => true
  | .hpQpr _ => true
  | .hpQpc _ => true
  | .mbxPart _ => true
  | .mbxPidx _ => true
  | .hpQpCmd => true
  | .csCmd => true
  | .csStage => true
  | .csDiagSel => true
  | .trAttCmd => true
  | .trPatt _ => true
  | .dxCtl => true
  | .dxCmd => true
  | _ => false

/-- Registers whose chapters reserve writes to the service core (R283, R474, R495, R525). -/
def serviceOnly : Reg → Bool
  | .recastCmd => true
  | .fltReact _ => true
  | .dcCmd _ => true
  | .csDiagSel => true
  | _ => false

end Sys2Proof.Machine
end

