-- ==== Sys2Proof/Machine/OpsWindow.lean ====
section
/-! DEFINITION. The host port's windows, its outstanding requests, the commands of queue pairs and the mailboxes (24_host_port R531 to
R541, R546, R547). -/

namespace Sys2Proof.Machine

/-! ### Boot flash (02 R40; 23 R521, R522; 24 R534; 27_electrical_package, "JTAG and flash") -/

/-- The part of the boot flash that the spec names: 64 MiB. -/
def flashSize : Nat := 0x4000000

/-- The byte of a piece of flash that begins at `base`, where it reaches the offset. -/
def pieceByte (base : Nat) (b : List Byte) (off : Nat) : Option Byte := if base ≤ off then b[off - base]? else none

/-- The images of a copy of the control stores, each at a multiple of 4 KiB, as (offset, bytes) (23 R521). -/
def csCopyPieces (copy : Nat) (s : State) : Nat → List Nat → List (Nat × List Byte)
  | _, [] => []
  | base, t :: ts =>
    let b := flashImage copy t s
    (base, b) :: csCopyPieces copy s (base + cdiv b.length 4096 * 4096) ts

/-- Everything in the boot flash whose bytes the state or `Config.delivered` gives. -/
def flashPieces (s : State) : List (Nat × List Byte) :=
  [(0x0, flashImage 0 0 s), (0x800000, flashImage 1 0 s), (0x2000000, s.pln.flashA.getD []), (0x2800000, s.pln.flashB.getD [])] ++
  csCopyPieces 0 s 0x1000000 [1, 2, 3, 4] ++ csCopyPieces 1 s 0x1800000 [1, 2, 3, 4]

/-- A byte of the boot flash; outside those pieces it is what the flash was delivered with. -/
def flashByte (off : Nat) (s : State) : Byte :=
  ((flashPieces s).findSome? (fun e => pieceByte e.1 e.2 off)).getD (Config.identityImage off)

/-- Bytes of the boot flash. -/
def flashRead (off n : Nat) (s : State) : List Byte := (List.range n).map (fun i => flashByte (off + i) s)

/-! ### The window table of PF1 (R531 to R534) -/

/-- An active entry. -/
def winOf (n : Nat) (s : State) : WinEntry := tget (winReset n) n s.hp.win

/-- A shadow entry. -/
def shadowOf (n : Nat) (s : State) : WinEntry := tget (winReset n) n s.hp.shadow

/-- Write a shadow entry. -/
def setShadow (n : Nat) (e : WinEntry) (s : State) : State := { s with hp := { s.hp with shadow := tset (winReset n) n e s.hp.shadow } }

/-- Fields of an entry (R547). -/
def WinEntry.valid (e : WinEntry) : Bool := lbit e.lo 63
def WinEntry.target (e : WinEntry) : Nat := fld e.lo 62 61
def WinEntry.permR (e : WinEntry) : Bool := lbit e.lo 60
def WinEntry.uc (e : WinEntry) : Bool := lbit e.lo 58
def WinEntry.permW (e : WinEntry) : Bool := lbit e.lo 59
def WinEntry.size (e : WinEntry) : Nat := 2 ^ fld e.lo 57 52
def WinEntry.part (e : WinEntry) : Nat := fld e.lo 51 46
def WinEntry.pub (e : WinEntry) : Nat := fld e.lo 45 42

/-- A shadow entry passes the checks of COMMIT (R533). -/
def winEntryOk (n : Nat) (e : WinEntry) : Bool :=
  let z := fld e.lo 57 52
  (if n = 16 then z == 20 else decide (12 ≤ z) && decide (z ≤ 36)) && e.off.toNat % 4096 == 0 &&
  (e.target == 0 || (e.target == 2 && !e.permW && decide (e.off.toNat + e.size ≤ flashSize)))

/-- `HP_WIN_CMD` COMMIT (R533, R546): every entry that `MASK` names in one instant, or none. -/
def commitWindows (mask : Nat) (s : State) : State :=
  if s.pf1.flr then { s with hp := { s.hp with winResult := 0x0C } }
  else
    let named := (List.range 17).filter (fun n => mask.testBit n)
    match named.find? (fun n => !winEntryOk n (shadowOf n s)) with
    | some n => { s with hp := { s.hp with winResult := 0x12, firstBad := n } }
    | none => { s with hp := { s.hp with winResult := 0, win := named.foldl (fun t n => tset (winReset n) n (shadowOf n s) t) s.hp.win } }

/-- Where a window request lands (R532). -/
inductive WinPlace where
  | storage (part real : Nat)
  | flash (off : Nat)
deriving DecidableEq, Repr

/-- The checks of R532, in order: where the request goes, or nowhere. -/
def winPlace (n x len : Nat) (write : Bool) (s : State) : Option WinPlace :=
  let e := winOf n s
  let o := e.off.toNat + x
  if !e.valid || decide (e.size < x + len) then none
  else if !(if write then e.permW else e.permR) then none
  else if e.target = 2 then (if write then none else some (.flash o))
  else if e.target = 0 then
    match partOf e.part s, pubOf e.part e.pub s with
    | some d, some u =>
      let need := if write then 2 else 1
      if d.hostPerm.testBit 0 && decide (o + len ≤ 2 ^ u.sizeLog2) && u.perm &&& need == need then some (.storage e.part (u.base + o)) else none
    | _, _ => none
  else none

/-- A function carries memory requests: the link is up, its memory space is enabled, and it is in D0. -/
def fnOpen (f : HostFn) : Bool := !f.flr && f.memEnable && !f.d3

/-- A request to a function is refused or dropped (R529, R532, R543). -/
def countUr (fn : Nat) (s : State) : State :=
  if fn = 0 then { s with pf0 := { s.pf0 with ur := satAdd 16 s.pf0.ur 1 } } else { s with pf1 := { s.pf1 with ur := satAdd 16 s.pf1.ur 1 } }

/-- A window request that fails a check (R532): a read receives UR; a posted write is dropped and is an error that AER logs (R541). -/
def refuseWindow (write : Bool) (addr : Nat) (s : State) : State :=
  let s := pf1Vector 129 (countUr 1 s)
  if write then raise srcHost 0x0E none addr s else emit .hostUr s

/-- A request to a function that takes none: a read receives UR, a write is dropped (R543). -/
def refuseFn (fn : Nat) (write : Bool) (s : State) : State :=
  let s := countUr fn s
  if write then s else emit .hostUr s

/-- The window slot and offset of a request: BAR2 of PF1 (R531), or the expansion ROM (R534). -/
def winSlot (w : WinSel) (addr : Nat) : Nat × Nat :=
  match w with
  | .rom => (16, addr)
  | _ => (addr / 2 ^ 36 % 16, addr % 2 ^ 36)

/-- Poison marks of service-window lines that a request touches. -/
def svcPoisoned (off n : Nat) (s : State) : Bool := (linesOf off n).any (fun ln => tget false ln s.svcPoison)

/-- A host read through a window is answered (R532, R534, R540): poisoned data carries EP, and the host port consumes it (21 R480).
Storage of a remote home that is not here is asked for, and the request is served when it comes again (log entry 61); so is one that
comes before the function's earlier posted writes are performed (R535). -/
def windowRead (w : WinSel) (addr len : Nat) (s : State) : State :=
  match w with
  | .pf0 =>
    if !fnOpen s.pf0 || decide (svcSize < addr + len) then refuseFn 0 false s
    else
      let bad := svcPoisoned addr len s
      let s := emit (.hostData (svcBytes addr len s) bad) s
      if bad then raise srcHost 0x04 none addr s else s
  | _ =>
    let r := winSlot w addr
    let least := if (winOf r.1 s).uc then 3 else 0
    if !fnOpen s.pf1 then refuseFn 1 false s
    else match winPlace r.1 r.2 len false s with
      | none => refuseWindow false addr s
      | some (.flash o) => if agentPending (.hostWrite 1) s then s else emit (.hostData (flashRead o len s) false) s
      | some (.storage p a) =>
        if agentPending (.hostWrite 1) s then s
        else if !(partMissingAs least .hostRead p a len s).isEmpty then askMissing .hostRead p (partMissingAs least .hostRead p a len s) s
        else
          let d := partReadAs least .hostRead p a len s
          let s := partSeenAs least .hostRead p a len s
          let s := emit (.hostData d.1 d.2) s
          if d.2 then raise srcHost 0x04 (some p) a s else s

/-- Poison of a write to the service store (R540; 21 R480): `ep` marks every line that it touches, and else a whole line written ends
its poison. -/
def svcMark (off n : Nat) (ep : Bool) (s : State) : State :=
  { s with svcPoison := (linesOf off n).foldl (fun t ln =>
      if ep then tset false ln true t
      else if off ≤ ln * 128 ∧ ln * 128 + 128 ≤ off + n then tset false ln false t
      else t) s.svcPoison }

/-- A host write through a window is performed (R532, R534, R535, R540). -/
def windowWrite (w : WinSel) (addr : Nat) (data : List Byte) (ep : Bool) (s : State) : State :=
  match w with
  | .pf0 =>
    if !fnOpen s.pf0 || decide (svcSize < addr + data.length) then refuseFn 0 true s
    else
      let s := svcMark addr data.length ep (svcWrite addr data s)
      if ep then raise srcHost 0x03 none addr s else s
  | _ =>
    let r := winSlot w addr
    if !fnOpen s.pf1 then refuseFn 1 true s
    else match winPlace r.1 r.2 data.length true s with
      | some (.storage p a) =>
        if ep then raise srcHost 0x03 (some p) ((armOf p a s).getD 0) (partPoisonMark (.hostWrite 1) p a data.length s)
        else partWrite (.hostWrite 1) p a data s
      | _ => refuseWindow true addr s

/-! ### Requests to host memory (R537, R540, R541, R543, R544) -/

/-- A request is no longer outstanding. -/
def dropReq (tag : Nat) (s : State) : State := { s with hp := { s.hp with req := tdel tag s.hp.req } }

/-- A completion arrives (R540, R543): for a request abandoned by a function reset it is discarded and counted; one with EP pauses the
queue; any other is the slot at `HEAD`, of a queue that still waits for it. -/
def hostCompletion (tag : Nat) (data : List Byte) (ep : Bool) (s : State) : State :=
  match tget none tag s.hp.req with
  | none => { s with pf1 := { s.pf1 with late := satAdd 16 s.pf1.late 1 } }
  | some x =>
    let s := dropReq tag s
    match qpBlock x.qp s with
    | none => s
    | some b =>
      let v := queueOf b x.qp s
      if v.fetch ≠ some tag then s
      else
        let s := setQueue b x.qp { v with fetch := none } s
        if ep then pauseQueue b x.qp 2 s else modQueue b x.qp (fun v => { v with slot := some (bytesAt data 0 64) }) s

/-- A request times out (R541): it is abandoned, an error that AER logs, and its queue enters PAUSED. -/
def completionTimeout (tag : Nat) (s : State) : State :=
  match tget none tag s.hp.req with
  | none => s
  | some x =>
    let s := raise srcHost 0x0E none tag (dropReq tag s)
    match qpBlock x.qp s with
    | none => s
    | some b =>
      if (queueOf b x.qp s).fetch = some tag then pauseQueue b x.qp 2 (modQueue b x.qp (fun v => { v with fetch := none }) s) else s

/-! ### Ownership of queue pairs (R536) -/

/-- The result of a command on a pair. -/
def qpResult (q r : Nat) (s : State) : State := setQp q { qpOf q s with lastResult := r } s

/-- CLAIM by a partition; kind 0 names no kind, and is not accepted. -/
def claimPair (p kind q : Nat) (s : State) : State :=
  if (qpOf q s).owner.isSome || kind == 0 then qpResult q 0x0C s
  else if !((partOf p s).any (fun d => d.hostPerm.testBit (kindPerm kind))) then qpResult q 0x11 s
  else pf1Vector 128 (setQp q { qpOf q s with kind := kind, owner := some p, lastResult := 0 } s)

/-- RELEASE by a partition. -/
def releasePair (p q : Nat) (s : State) : State :=
  let idle : Bool := match qpBlock q s with | some b => (queueOf b q s).state == 0 | none => true
  if (qpOf q s).owner = some p ∧ idle then pf1Vector 128 (setQp q { qpOf q s with kind := 0, owner := none, lastResult := 0 } s)
  else qpResult q 0x0C s

/-- `HP_QP_CMD` of a partition (R536, R547). -/
def qpCommand (p : Nat) (val : Long) (s : State) : State :=
  let q := fld val 57 52
  match fld val 63 60 with
  | 1 => claimPair p (fld val 59 58) q s
  | 2 => releasePair p q s
  | _ => qpResult q 0x0C s

/-! ### Mailboxes (R538) -/

/-- The owner of a mailbox, with its slots; none where the pair is no mailbox. -/
def mailboxOwner (q : Nat) (s : State) : Option Nat := if (qpOf q s).kind = 3 then (qpOf q s).owner else none

/-- Inbox and outbox lie in the partition's extents. -/
def boxesMapped (p q : Nat) (s : State) : Bool := partMapped p (qpOf q s).inbox (2 * (queueOf .mailbox q s).n * 64) s

/-- Room in the inbox. -/
def inboxRoom (q : Nat) (s : State) : Bool :=
  decide (((qpOf q s).inTail + 65536 - (qpOf q s).inHead) % 65536 < (queueOf .mailbox q s).n)

/-- A WAKE to a logical core of the partition (R538; 08 R184). -/
def wakeCore (p l : Nat) (s : State) : State :=
  if partOfCore l s = some p then modCore l (fun c => match c.run with
    | .waiting _ => { c with run := .running }
    | .gated _ => { c with run := .running }
    | _ => { c with wake := true }) s
  else s

/-- The message that has arrived from the host ring goes into the inbox; `HEAD` and `IN_TAIL` advance, and the WAKE is sent, when its
copy has been performed at SYSTEM scope (R538). -/
def mailboxIn (q : Nat) (s : State) : State :=
  let v := queueOf .mailbox q s
  match mailboxOwner q s, v.slot with
  | some p, some m =>
    if !(v.state == 1 || (v.state == 3 && v.pause == 3)) || !inboxRoom q s then s
    else if !boxesMapped p q s then pauseQueue .mailbox q 2 s
    else
      let x := qpOf q s
      let s := if v.post.isSome then s else partWrite (.hostWrite 1) p (x.inbox + x.inTail % v.n * 64) m s
      if agentPending (.hostWrite 1) s then setQueue .mailbox q { v with post := some ([], false) } s
      else
        let s := setQueue .mailbox q { v with head := (v.head + 1) % v.n, slot := none, post := none } s
        let s := setQp q { x with inTail := (x.inTail + 1) % 65536 } s
        hostFetch .mailbox q (wakeCore p x.notify s)
  | _, _ => s

/-- Bit 0 of byte 0x3F of a message carries `PHASE` (R538). -/
def withMsgPhase (v : Queue) (m : List Byte) : List Byte :=
  m.set 63 (((m.getD 63 0) &&& 0xFE) ||| BitVec.ofNat 8 (b2n v.phase))

/-- The reply at `OUT_HEAD` goes to the host (R538, R540). -/
def mailboxOut (q : Nat) (s : State) : State :=
  let v := queueOf .mailbox q s
  let x := qpOf q s
  match mailboxOwner q s with
  | none => s
  | some p =>
    let room := decide ((v.cqTail + v.n - v.cqHead) % v.n < v.n - 1)
    if v.state != 1 || x.outTail == x.outHead || !room || !fnMaster s.pf1 then s
    else if !boxesMapped p q s then pauseQueue .mailbox q 2 s
    else
      let a := x.inbox + v.n * 64 + x.outHead % v.n * 64
      if !(partMissing .hostRead p a 64 s).isEmpty then askMissing .hostRead p (partMissing .hostRead p a 64 s) s
      else
        let m := partRead .hostRead p a 64 s
        let s := partSeen .hostRead p a 64 s
        let s := if m.2 then raise srcHost 0x04 (some p) a s else s
        let s := emit (.hostWrite (x.pcBase + v.cqTail * 64) (withMsgPhase v m.1) m.2) s
        let s := setQueue .mailbox q (cqAdvance v) s
        pf1Vector (2 * q) (setQp q { x with outHead := (x.outHead + 1) % 65536 } s)

end Sys2Proof.Machine
end

