-- ==== Sys2Proof/Machine/RegWrite.lean ====
section
/-! DEFINITION. Writes of control-space registers (01_overview R8, R21; 24_host_port R529, R530, and the register rules of every block).
A field that is read-only, reserved or not named here is not written. -/

namespace Sys2Proof.Machine

/-- A field of a register takes bits of the long written (R8). -/
def putFld (old val : Long) (hi lo : Nat) : Long := setFld old hi lo (fld val hi lo)

/-- `RECAST_CMD` (20 R474). -/
def writeRecastCmd (val : Long) (s : State) : State :=
  if fld val 63 60 = 1 then recastCommand (fld val 59 52) s
  else { s with cpu := { s.cpu with recResult := 0x0C, recLogical := if s.cpu.recBusy then s.cpu.recLogical else fld val 59 52 } }

/-- `PART_CMD` (02 R49). With a `PART_ID` of 48 or above there is no partition to which a result belongs, and the write has no effect
(DESIGN CHOICE, log entry 75). -/
def writePartCmd (val : Long) (s : State) : State :=
  let p := fld val 55 48
  match fld val 63 60 with
  | 1 => startCmd p s
  | 2 => stopCmd p s
  | _ => if p < 48 then partResult p 0x0C s else s

/-- `FLT_CMD` (21 R495). -/
def writeFltCmd (v : View) (val : Long) (s : State) : State :=
  match fld val 63 60 with
  | 1 => patinaClear v (fld val 47 36) (fld val 35 24) s
  | 2 => if operating s then unfenceCmd (fld val 59 48) s else s
  | _ => { s with flt := { s.flt with cmdResult := 0x0C } }

/-- `FLT_REACTi` (21 R495): a grace above 16,000,000 µs is ignored with the whole write. -/
def writeReact (i : Nat) (val : Long) (s : State) : State :=
  if 16000000 < fld val 55 32 then s
  else { s with flt := { s.flt with react := tset reactReset i (val &&& maskBits 63 32) s.flt.react } }

/-- `PWR_CMD` (25 R567). -/
def writePwrCmd (val : Long) (s : State) : State :=
  match fld val 63 60 with
  | 1 => if s.tr.scanHeld then s else moduleBoot s
  | 2 => coldBoot s
  | 3 => if operating s then partReset (fld val 59 54) s else pwrResult 0x0C s
  | _ => pwrResult 0x0C s

/-- `PWR_IPL` (25 R567). `LENGTH` and `OFFSET` hold what is written, a multiple of 8 or not, and are used as they stand (DESIGN CHOICE,
log entry 73). -/
def writeIpl (val : Long) (s : State) : State := { s with pwr := { s.pwr with ipl := val } }

/-- `DC_STATUS` (12 R282): 1 clears `NR_CLUSTER` and `SENSOR_FAIL`. -/
def writeDcStatus (val : Long) (d : Dram) : Dram :=
  { d with nrCluster := d.nrCluster && !lbit val 52, sensorFail := d.sensorFail && !lbit val 50 }

/-- `DC_CMD` (12 R277, R282). -/
def writeDcCmd (n : Nat) (val : Long) (s : State) : State :=
  if fld val 63 60 = 1 then speedCmd n (fld val 59 58) s else modDram n (fun d => { d with lastResult := 0x0C }) s

/-- `DC_NR.K_EFF` (12 R282): from 8 to `K`. -/
def writeDcNr (val : Long) (d : Dram) : Dram :=
  let k := fld val 58 54
  if 8 ≤ k ∧ k ≤ d.k then { d with kEff := k } else d

/-- `DC_ROWMAPd` (12 R282). -/
def writeRowmap (i : Nat) (val : Long) (d : Dram) : Dram := { d with rowMap := tset 0 i (val &&& maskBits 63 41) d.rowMap }

/-- `LNK_CTL` (13 R300). -/
def writeLnkCtl (p : PortId) (val : Long) (s : State) : State :=
  let s := if fld val 60 59 = (linkOf p s).maxWidth then s else maxWidthSet p (fld val 60 59) s
  let s := if fld val 58 51 = (linkOf p s).laneOff then s else laneOffSet p (fld val 58 51) s
  let s := if fld val 50 43 = 0 then s else laneRetrySet p (fld val 50 43) s
  let s := if lbit val 61 then modLink p clearCounters s else s
  let s := if lbit val 63 = (linkOf p s).disable then s else setDisable p (lbit val 63) s
  if lbit val 62 then enterRecovery p s else s

/-- The ring registers of a queue (17 R401, R409; 24 R537): only in DISABLED, and without a `BASE` for queues 0 to 63. -/
def writeRing (b : QBlock) (q : Nat) (cq : Bool) (val : Long) (s : State) : State :=
  let base := fld val 51 12 * 4096
  modQueue b q (fun v =>
    if v.state ≠ 0 then v
    else if cq then (if q < 64 then v else { v with cqBase := base })
    else if q < 64 then { v with size := fld val 3 0 } else { v with sqBase := base, size := fld val 3 0 }) s

/-- `MBX_PARTq` (24 R538, R547): only while the mailbox queue is DISABLED. -/
def writeMbxPart (q : Nat) (val : Long) (s : State) : State :=
  if (queueOf .mailbox q s).state ≠ 0 then s
  else setQp q { qpOf q s with notify := fld val 63 56, inbox := fld val 51 12 * 4096 } s

/-- `MBX_PIDXq` (24 R538, R547): room in the inbox lets the next message be fetched. -/
def writeMbxPidx (q : Nat) (val : Long) (s : State) : State :=
  hostFetch .mailbox q (setQp q { qpOf q s with inHead := fld val 47 32, outTail := fld val 31 16 } s)

/-- `CS_CMD` (23 R523, R525): whether the flash takes the image is a free choice here. -/
def writeCsCmd (val : Long) (s : State) : State :=
  let r := drawBit s
  match fld val 63 60 with
  | 3 => csStoreCmd 0 r.1 r.2
  | 4 => csStoreCmd 1 r.1 r.2
  | _ => pf0Vector 3 { s with cs := { s.cs with result := 0x0C } }

/-- `CS_DIAG_SEL` (23 R525). -/
def writeDiagSel (val : Long) (s : State) : State :=
  injectFlips (fld val 41 40) { s with cs := { s.cs with diagStore := fld val 63 59, diagAddr := fld val 58 42 } }

/-- `TR_ATT_CMD` (18 R429). -/
def writeAttCmd (val : Long) (s : State) : State :=
  match fld val 63 60 with
  | 1 => attCommand none (fld val 31 0) s
  | 2 => attCommand (some (fld val 59 54)) (fld val 31 0) s
  | _ => attResult 0x0C s

/-- What is written while the module is checkstopped or a boundary scan holds it: selectors, staging, pins and resets (21 R489). -/
def writableHeld : Reg → Bool
  | .pwrCmd => true
  | .fltCmd => true
  | .fltPin => true
  | .fltLogSel => true
  | .jnlSel => true
  | .hpAper => true
  | _ => false

/-- A register takes a long from a view that may write it. -/
def writeReg (v : View) (r : Reg) (val : Long) (s : State) : State :=
  if !operating s && !writableHeld r then s
  else match r with
  | .recastCmd => writeRecastCmd val s
  | .plnCmd => plnCmd (fld val 63 60) s
  | .plnStage => { s with pln := { s.pln with stageOffset := fld val 63 32, stageLength := fld val 31 0 } }
  | .partCmd => writePartCmd val s
  | .torCtl =>
    let t := if lbit val 63 = s.tor.refDisable then s else setRefDisable (lbit val 63) s
    fireStep s (if lbit val 62 = t.tor.fabricDisable then t else setFabricDisable (lbit val 62) t)
  | .fltPin => { s with flt := { s.flt with hold := lbit val 63 } }
  | .fltCmd => writeFltCmd v val s
  | .fltLogSel => { s with flt := { s.flt with logSel := fld val 63 51 } }
  | .fltStatus i => if lbit val 63 then pendingClear i false s else s
  | .fltReact i => writeReact i val s
  | .pwrCmd => writePwrCmd val s
  | .pwrIpl => writeIpl val s
  | .dcStatus n => modDram n (writeDcStatus val) s
  | .dcCmd n => writeDcCmd n val s
  | .dcNr n => modDram n (writeDcNr val) s
  | .dcRowmap n d => modDram n (writeRowmap d val) s
  | .armCmd => (match fld val 63 60 with
    | 1 => leaveCmd s
    | 2 => rejoinCmd s
    | _ => { s with arm := { s.arm with lastResult := 0x0C } })
  | .lnkCtl p => writeLnkCtl p val s
  | .csSubch i => writeSubch v i val s
  | .jnlCtl => if lbit val 63 then latClear s else s
  | .jnlSel => { s with jnl := { s.jnl with sel := fld val 63 46 } }
  | .qSq b q => writeRing b q false val s
  | .qCq b q => writeRing b q true val s
  | .qDb b q => doorbell b q (fld val 63 48) (fld val 47 32) s
  | .qCmd b q => queueStep b q (fld val 63 60) s
  | .intEng k => setInt k { intOf k s with dual := lbit val 61 } s
  | .hpAper => { s with hp := { s.hp with aper := fld val 63 51 } }
  | .hpWsh0 n => setShadow n { shadowOf n s with lo := val &&& maskBits 63 42 } s
  | .hpWsh1 n => setShadow n { shadowOf n s with off := val } s
  | .hpWinCmd => if fld val 63 60 = 1 then commitWindows (fld val 59 43) s else { s with hp := { s.hp with winResult := 0x0C } }
  | .hpQpr q => setQp q { qpOf q s with prBase := fld val 63 12 * 4096 } s
  | .hpQpc q => setQp q { qpOf q s with pcBase := fld val 63 12 * 4096 } s
  | .mbxPart q => writeMbxPart q val s
  | .mbxPidx q => writeMbxPidx q val s
  | .hpQpCmd => (match v with | .part p => qpCommand p val s | _ => s)
  | .csCmd => writeCsCmd val s
  | .csStage => { s with cs := { s.cs with stageOffset := fld val 63 32, stageLength := fld val 31 0 } }
  | .csDiagSel => writeDiagSel val s
  | .trAttCmd => writeAttCmd val s
  | .trPatt n => pattWrite n val s
  | .dxCtl => setInhibit (lbit val 63) s
  | .dxCmd => dxCommand (fld val 63 60) s
  | _ => s

/-! ### The four ways in (R21, R22, R53, R529, R530) -/

/-- What the service core reads (R22): an offset without a register, and an access that is no aligned long, reads 0. -/
def ctlReadService (off len : Nat) (s : State) : Long :=
  if len ≠ 8 then 0 else (match decodeReg off with | some r => readReg r s | none => 0)

/-- What a partition reads in its control window; none raises Addressing. -/
def ctlReadPart (p off : Nat) (s : State) : Option (Long × State) :=
  match decodeReg off with
  | some r => if partVisible p r s then some (readReg r s, s) else none
  | none => none

/-- A partition may write an offset of its control window. -/
def ctlMayPart (p off : Nat) (s : State) : Bool := match decodeReg off with | some r => partWritable p r s | none => false

/-- A partition writes its control window. -/
def ctlWritePart (p off : Nat) (val : Long) (s : State) : State :=
  match decodeReg off with
  | some r => if partWritable p r s then writeReg (.part p) r val s else s
  | none => s

/-- The bytes of a long in the opposite order: the MSI-X structures are little-endian (R529). -/
def swapLong (w : Long) : Long := BitVec.ofNat 64 (beNat (beBytes 8 w.toNat).reverse)

/-- The vectors of a function (R528). -/
def vectorCount (fn : Nat) : Nat := if fn = 0 then 16 else 130

/-- A function of the host port. -/
def fnOf (fn : Nat) (s : State) : HostFn := if fn = 0 then s.pf0 else s.pf1

/-- Write its state. -/
def setFn (fn : Nat) (f : HostFn) (s : State) : State := if fn = 0 then { s with pf0 := f } else { s with pf1 := f }

/-- A vector whose pending bit is set is signalled once nothing holds it back. -/
def flushVector (fn v : Nat) (s : State) : State :=
  let f := fnOf fn s
  if tget false v f.pba && f.bme && f.msixEnable && !f.fnMask && tget false v f.vOpen then
    emit (.msix fn v) (setFn fn { f with pba := tset false v false f.pba } s)
  else s

/-- Every vector of a function. -/
def flushVectors (fn : Nat) (s : State) : State := (List.range (vectorCount fn)).foldl (fun s v => flushVector fn v s) s

/-- A vector is masked or unmasked. -/
def setMask (fn v : Nat) (masked : Bool) (s : State) : State :=
  if vectorCount fn ≤ v then s
  else
    let f := fnOf fn s
    flushVector fn v (setFn fn { f with vOpen := tset false v (!masked) f.vOpen } s)

/-- A long of an MSI-X table entry is written: the address, or the data with the vector control (R529; layout of the base
specification). -/
def writeMsix (fn o : Nat) (val : Long) (s : State) : State :=
  let v := o / 16
  let w := (swapLong val).toNat
  if vectorCount fn ≤ v then s
  else
    let f := fnOf fn s
    if o % 16 = 0 then setFn fn { f with vAddr := tset 0 v w f.vAddr } s
    else setMask fn v (w.testBit 32) (setFn fn { f with vData := tset 0 v (w % 2 ^ 32) f.vData } s)

/-- Registers of the host-port block that PF1 BAR0 does not let the host write (R529). -/
def pf1Denied : Reg → Bool
  | .hpAper => true
  | .hpQpCmd => true
  | .mbxPart _ => true
  | .mbxPidx _ => true
  | _ => false

/-- The register at an offset of the host-port block, where the host may write it through a BAR0. -/
def barReg (fn o : Nat) : Option Reg := (hpReg o).filter (fun r => hasWrite r && (fn == 0 || !pf1Denied r))

/-- A host write through PF0 BAR0 (R529, R530). -/
def writePf0 (off : Nat) (val : Long) (s : State) : State :=
  if s.pf0.flr || off % 8 != 0 then countUr 0 s
  else if off < 0x4000 then (match barReg 0 off with | some r => writeReg .pf0 r val s | none => s)
  else if 0x4000 ≤ off ∧ off < 0x4000 + 16 * 16 then writeMsix 0 (off - 0x4000) val s
  else if 0x80000 ≤ off ∧ off < 0x100000 then
    match decodeReg (s.hp.aper * 2 ^ 19 + (off - 0x80000)) with
    | some r => if hasWrite r && !serviceOnly r then writeReg .pf0 r val s else countUr 0 s
    | none => countUr 0 s
  else s

/-- A host write through PF1 BAR0 (R529, R537). -/
def writePf1 (off : Nat) (val : Long) (s : State) : State :=
  if s.pf1.flr || off % 8 != 0 then countUr 1 s
  else if off < 0x2000 then (match barReg 1 off with | some r => writeReg .pf1 r val s | none => s)
  else if 0x10000 ≤ off ∧ off < 0x11000 then
    let q := (off - 0x10000) / 0x40
    match qpBlock q s with
    | some b => (match queueReg b q (off % 0x40) with | some r => writeReg .pf1 r val s | none => s)
    | none => s
  else if 0x20000 ≤ off ∧ off < 0x20000 + 16 * 130 then writeMsix 1 (off - 0x20000) val s
  else s

/-- A long of the MSI-X table (R529; layout of the base specification). -/
def readMsix (fn o : Nat) (s : State) : Long :=
  let f := fnOf fn s
  let v := o / 16
  if vectorCount fn ≤ v then 0
  else if o % 16 = 0 then swapLong (BitVec.ofNat 64 (tget 0 v f.vAddr))
  else swapLong (pack [(32, 32, b2n (!tget false v f.vOpen)), (31, 0, tget 0 v f.vData)])

/-- A long of the pending-bit array (R529). -/
def readPba (fn o : Nat) (s : State) : Long :=
  swapLong (pack ((List.range 64).map (fun i => (i, i, b2n (tget false (o / 8 * 64 + i) (fnOf fn s).pba)))))

/-- Registers of the host-port block that read 0 through PF1 BAR0 (R529). -/
def pf1Zero : Reg → Bool
  | .hpFnStat f => f == 0
  | .hpAper => true
  | .hpQpCmd => true
  | _ => false

/-- A register, or 0 where there is none. -/
def regOr0 (r : Option Reg) (s : State) : Long := match r with | some r => readReg r s | none => 0

/-- A long that the host reads at an offset of PF0 BAR0 (R529). -/
def pf0Long (off : Nat) (s : State) : Long :=
  if off < 0x4000 then regOr0 (hpReg off) s
  else if off < 0x5000 then readMsix 0 (off - 0x4000) s
  else if off < 0x6000 then readPba 0 (off - 0x5000) s
  else if 0x80000 ≤ off ∧ off < 0x100000 then ctlReadService (s.hp.aper * 2 ^ 19 + (off - 0x80000)) 8 s
  else 0

/-- A long that the host reads at an offset of PF1 BAR0 (R529, R537). -/
def pf1Long (off : Nat) (s : State) : Long :=
  if off < 0x2000 then regOr0 ((hpReg off).filter (fun r => !pf1Zero r)) s
  else if 0x10000 ≤ off ∧ off < 0x11000 then
    regOr0 ((qpBlock ((off - 0x10000) / 0x40) s).bind (fun b => queueReg b ((off - 0x10000) / 0x40) (off % 0x40))) s
  else if 0x20000 ≤ off ∧ off < 0x30000 then readMsix 1 (off - 0x20000) s
  else if 0x30000 ≤ off ∧ off < 0x31000 then readPba 1 (off - 0x30000) s
  else 0

/-- The PF0 aperture shows no register at an offset: the access reads 0 and is counted (R530). -/
def apertureMiss (off : Nat) (s : State) : Bool :=
  decide (0x80000 ≤ off ∧ off < 0x100000) && (decodeReg (s.hp.aper * 2 ^ 19 + (off - 0x80000))).isNone

/-- A host read of BAR0 (R22, R529, R530, R543): exactly an aligned long, or Unsupported Request. -/
def barRead (fn off len : Nat) (s : State) : State :=
  if !fnOpen (fnOf fn s) || len != 8 || off % 8 != 0 then refuseFn fn false s
  else
    let v := if fn = 0 then pf0Long off s else pf1Long off s
    emit (.hostData (beBytes 8 v.toNat) false) (if fn = 0 ∧ apertureMiss off s then countUr 0 s else s)

/-- A host write of BAR0 (R529, R540): exactly an aligned long without EP, or dropped; one of another form is counted. -/
def barWrite (fn off : Nat) (data : List Byte) (ep : Bool) (s : State) : State :=
  if !fnOpen (fnOf fn s) || data.length != 8 || off % 8 != 0 then countUr fn s
  else if ep then s
  else if fn = 0 then writePf0 off (BitVec.ofNat 64 (beNat data)) s
  else writePf1 off (BitVec.ofNat 64 (beNat data)) s

/-- A checkstopped module goes on to serve PF0 reads of the fault block (21 R489). -/
def faultBlockRead (off : Nat) (s : State) : Bool :=
  decide (0x80000 ≤ off ∧ off < 0x100000) && decide (0x300000 ≤ s.hp.aper * 2 ^ 19 + (off - 0x80000) ∧ s.hp.aper * 2 ^ 19 + (off - 0x80000) < 0x400000)

/-- A register write of a view: the service core by control-space offset, a partition through its window, the host by BAR0 offset. -/
def regWrite (v : View) (off : Nat) (val : Long) (s : State) : State :=
  match v with
  | .service => (match decodeReg off with | some r => writeReg .service r val s | none => s)
  | .pf0 => writePf0 off val s
  | .pf1 => writePf1 off val s
  | .part p => ctlWritePart p off val s

end Sys2Proof.Machine
end

