-- ==== Sys2Proof/Machine/OpsCore.lean ====
section
/-! DEFINITION. What the operations of a core reach outside it: the partition control window, the channel instructions, HWINDOW and
GETRAND (02_plinth_image R53; 15_channel_programs R330; 18_trust R421 to R425). -/

namespace Sys2Proof.Machine

/-- GETRAND (R422): 64 bits of the partition's instance, or 0 with CC 3 while both sources have failed. -/
def getRandom (l : Nat) (s : State) : Long × BitVec 2 × State :=
  if s.tr.esN && s.tr.esS then (0, 3, s)
  else
    let r := drawLong (drbgCount ((partOfCore l s).getD 48) s)
    (r.1, 0, r.2)

/-- A publication block is well formed (R423). -/
def pubBlockOk (b : List Byte) : Bool :=
  let op := natAt b 0 1
  let z := natAt b 3 1
  decide (natAt b 1 1 < 16) && allZero (bytesAt b 4 4) && allZero (bytesAt b 16 16) &&
  ((op == 1 && decide (natAt b 2 1 < 4) && decide (12 ≤ z ∧ z ≤ 36) && decide (natAt b 8 8 % 2 ^ z = 0)) ||
   (op == 2 && natAt b 2 1 == 0 && z == 0 && natAt b 8 8 == 0))

/-- A range of real addresses lies wholly in a partition's extents, which it may cross: at most `k` of them. -/
def rangeMapped (xs : List Extent) : Nat → Nat → Nat → Bool
  | 0, _, _ => false
  | k + 1, a, n =>
    match xs.find? (fun e => decide (e.real ≤ a) && decide (a < e.real + e.size)) with
    | none => false
    | some e => if a + n ≤ e.real + e.size then true else rangeMapped xs k (e.real + e.size) (a + n - (e.real + e.size))

/-- What HWINDOW does with a well-formed block (R424, R425: a WITHDRAW completes once the host's
earlier writes are performed): CC 3 where the partition may not publish or the range is not its own, then CC 1
for an ID in use or not in use (log entry 62). -/
def hwindowDo (l p : Nat) (b : List Byte) (s : State) : OutRes :=
  let k := natAt b 1 1
  let z := natAt b 3 1
  let base := natAt b 8 8
  let may : Bool := (partOf p s).any (fun d => d.hostPerm.testBit 0)
  let bind (v : Option Pub) : State := { s with tr := { s.tr with pubs := tset none (p * 16 + k) v s.tr.pubs } }
  if natAt b 0 1 = 1 then
    if !may || !((partOf p s).any (fun d => rangeMapped d.extents 17 base (2 ^ z))) then .done 3 s
    else if (pubOf p k s).isSome then .done 1 s
    else .done 0 (bind (some { base := base, sizeLog2 := z, perm := natAt b 2 1 }))
  else if !may then .done 3 s
  else if (pubOf p k s).isNone then .done 1 s
  else if agentPending (.hostWrite 1) s then .wait (modCore l (fun c => { c with ioHold := some none }) (bind none))
  else .done 0 (bind none)

/-- HWINDOW of core l on the publication block at `a` (R423, R424; 21 R480). -/
def hwindowOp (l : Nat) (a : Long) (s : State) : OutRes :=
  let addr := a.toNat
  match (coreOf l s).ioHold with
  | some (some cc) => .done cc s
  | some none => if agentPending (.hostWrite 1) s then .wait s else .done 0 s
  | none => match partOfCore l s with
  | none => .pgm 0x0201 addr
  | some p =>
    if addr % 32 ≠ 0 then .pgm 0x0103 0
    else if !partMapped p addr 32 s then .pgm 0x0201 addr
    else match readPart (.core l) p addr 32 s with
      | .addr => .pgm 0x0201 addr
      | .poison r => .poison r
      | .miss xs => .wait (askMissing (.core l) p xs s)
      | .ok b =>
        let s := partSeen (.core l) p addr 32 s
        if pubBlockOk b then hwindowDo l p b s else .pgm 0x0103 0

/-- The operation block or publication block of an operation has still to be fetched from another module: the state in which its group
waits (15 R330; 18 R423). -/
def outNeed (sp : Special) (l : Nat) (s : State) : Option State :=
  let need (a : Long) (n m : Nat) : Option State :=
    match partOfCore l s with
    | none => none
    | some p =>
      let xs := partMissing (.core l) p a.toNat n s
      if a.toNat % m ≠ 0 ∨ !partMapped p a.toNat n s ∨ xs.isEmpty then none else some (askMissing (.core l) p xs s)
  match sp with
  | .io .start _ b => need b 64 64
  | .io .modify _ b => need b 64 64
  | .hwindow a => need a 32 32
  | _ => none

/-- The services that a group uses outside its core. -/
def coreEnv : CoreEnv :=
  { ctlRead := ctlReadPart, ctlMay := ctlMayPart, ctlWrite := ctlWritePart, io := ioOp, hwindow := hwindowOp, need := outNeed, getrand := getRandom }

end Sys2Proof.Machine
end

