-- ==== Sys2Proof/Machine/OpsMaquette.lean ====
section
/-! DEFINITION. The Maquette monitor: lines and responses, the observe and control levels, grants and what they destroy (26_maquette
R568 to R579; 18_trust R426, R427). How a response shows a register is the model's own rendering (log entry 63). -/

namespace Sys2Proof.Machine

/-! ### Words and numbers (R569) -/

/-- The words of a line (R569). -/
def wordsGo : List Byte → List Byte → List (List Byte)
  | [], w => if w.isEmpty then [] else [w.reverse]
  | c :: t, w => if c = 32 then (if w.isEmpty then wordsGo t [] else w.reverse :: wordsGo t []) else wordsGo t (c :: w)

/-- The words of a line. -/
def wordsOf (l : List Byte) : List (List Byte) := wordsGo l []

/-- The value of a digit in a base; none for another character. -/
def digitOf (base : Nat) (c : Byte) : Option Nat :=
  let n := c.toNat
  let d := if 48 ≤ n ∧ n ≤ 57 then n - 48 else if 65 ≤ n ∧ n ≤ 70 then n - 55 else if 97 ≤ n ∧ n ≤ 102 then n - 87 else 99
  if d < base then some d else none

/-- Digits with underscores between them (R569): `prev` says that the last character was a digit. -/
def digitsGo (base : Nat) : List Byte → Nat → Bool → Option Nat
  | [], a, prev => if prev then some a else none
  | c :: t, a, prev =>
    if c = 95 then (if prev then digitsGo base t a false else none)
    else match digitOf base c with
      | some d => digitsGo base t (a * base + d) true
      | none => none

/-- A number (R569). -/
def numOf : List Byte → Option Nat
  | 48 :: 120 :: t => digitsGo 16 t 0 false
  | w => digitsGo 10 w 0 false

/-! ### Commands (R571, R572, R574) -/

/-- A port written a0 to a7 or c0 to c11 (R571). -/
def portName : List Byte → Option PortId
  | 97 :: t => (match digitsGo 10 t 0 false with | some n => if n < 8 then some (.arm n) else none | none => none)
  | 99 :: t => (match digitsGo 10 t 0 false with | some n => if n < 12 then some (.ch n) else none | none => none)
  | _ => none

/-- A command of its numbers, or error 0x03 (R570). -/
def withNums (ws : List (List Byte)) (k : List Nat → Option MqCmd) : Sum Nat MqCmd :=
  if ws.all (fun w => (numOf w).isSome) then (match k (ws.filterMap numOf) with | some c => .inr c | none => .inl 3) else .inl 3

/-- The offset of a token in the service window: `@` and a multiple of 8 (R574). -/
def atOffset : List Byte → Option Nat
  | 64 :: t => (numOf t).filter (fun n => n % 8 == 0)
  | _ => none

/-- The scope and place of a `grant` (R574). -/
def grantOf (ws : List (List Byte)) : Sum Nat MqCmd :=
  let place (sc : Scope) (t : List (List Byte)) : Sum Nat MqCmd :=
    match t with
    | [] => .inr (.grant sc none)
    | [w] => (match atOffset w with | some o => .inr (.grant sc (some o)) | none => .inl 3)
    | _ => .inl 3
  match ws with
  | w :: t =>
    if w = asc "m" then place .module t
    else if w = asc "p" then
      match t with
      | n :: t' => (match numOf n with | some p => if p < 48 then place (.partition p) t' else .inl 3 | none => .inl 3)
      | [] => .inl 3
    else .inl 3
  | [] => .inl 3

/-- What follows `core`. -/
def coreCmdOf (ws : List (List Byte)) : Sum Nat MqCmd :=
  let one (k : Nat → MqCmd) (t : List (List Byte)) : Sum Nat MqCmd :=
    withNums t (fun ns => match ns with | [l] => if l < 192 then some (k l) else none | _ => none)
  match ws with
  | w :: t =>
    if w = asc "halt" then one .halt t
    else if w = asc "step" then one .step t
    else if w = asc "run" then one .run t
    else if w = asc "regs" then one .regs t
    else .inl 1
  | [] => .inl 1

/-- What follows `mem`. -/
def memCmdOf (ws : List (List Byte)) : Sum Nat MqCmd :=
  match ws with
  | w :: t =>
    if w = asc "r" then withNums t (fun ns => match ns with
      | [a] => some (.memR a 1)
      | [a, n] => if 1 ≤ n ∧ n ≤ 256 then some (.memR a n) else none
      | _ => none)
    else if w = asc "w" then withNums t (fun ns => match ns with
      | [a, v] => if v < 2 ^ 64 then some (.memW a (BitVec.ofNat 64 v)) else none
      | _ => none)
    else .inl 1
  | [] => .inl 1

/-- A command without arguments. -/
def bareCmd (c : MqCmd) (t : List (List Byte)) : Sum Nat MqCmd := if t.isEmpty then .inr c else .inl 3

/-- The command that a line spells, or the code of its error (R569 to R572). -/
def parseLine (line : List Byte) : Sum Nat MqCmd :=
  match wordsOf line with
  | [] => .inr .nothing
  | w :: t =>
    if w = asc "id" then bareCmd .id t
    else if w = asc "tor" then bareCmd .tor t
    else if w = asc "plinth" then bareCmd .plinth t
    else if w = asc "release" then bareCmd .release t
    else if w = asc "patina" then withNums t (fun ns => match ns with
      | [] => some (.patina 0 0x29F)
      | [a] => some (.patina a 0x29F)
      | [a, b] => some (.patina a b)
      | _ => none)
    else if w = asc "flt" then withNums t (fun ns => match ns with
      | [] => some (.flt 16)
      | [n] => some (.flt n)
      | _ => none)
    else if w = asc "jnl" then withNums t (fun ns => match ns with
      | [] => some (.jnl none)
      | [n] => some (.jnl (some n))
      | _ => none)
    else if w = asc "link" then
      match t with
      | [] => .inr (.link none)
      | [p] => (match portName p with | some q => .inr (.link (some q)) | none => .inl 3)
      | _ => .inl 3
    else if w = asc "baud" then withNums t (fun ns => match ns with | [r] => some (.baud r) | _ => none)
    else if w = asc "grant" then grantOf t
    else if w = asc "mem" then memCmdOf t
    else if w = asc "core" then coreCmdOf t
    else if w = asc "recast" then withNums t (fun ns => match ns with | [l] => if l < 192 then some (.recast l) else none | _ => none)
    else .inl 1

/-! ### What the observe level shows (R571) -/

/-- A register by name. -/
def regLine (name : String) (r : Reg) (s : State) : List Byte := asc name ++ asc " " ++ hexLong (readReg r s)

/-- A register of an index. -/
def regLineN (name : String) (n : Nat) (r : Reg) (s : State) : List Byte := asc name ++ decNum n ++ asc " " ++ hexLong (readReg r s)

/-- Names of the states and qualities of TOR (03 R58, R59). -/
def torName : TorState → List Byte
  | .unreferenced => asc "UNREFERENCED"
  | .locked => asc "LOCKED"
  | .fabric => asc "FABRIC"
  | .slewing => asc "SLEWING"
  | .holdover => asc "TOR_HOLDOVER"

/-- The quality names of R59. -/
def qualityName (q : Nat) : List Byte :=
  match q with
  | 3 => asc "REFERENCED"
  | 2 => asc "SLEWING"
  | 1 => asc "TOR_HOLDOVER"
  | _ => asc "UNREFERENCED"

/-- `tor`, as the session of the manual shows it, and the offset. -/
def showTor (s : State) : List (List Byte) :=
  [asc "tor " ++ hexLong (torLong s) ++ asc " state " ++ torName s.tor.state ++ asc " quality " ++ qualityName (torQuality s) ++ asc " master " ++
     decNum (s.tor.master.getD 0),
   regLine "TOR_OFFSET" .torOffset s]

/-- Counters `first` to `last`. -/
def showPatina (first last : Nat) (s : State) : List (List Byte) :=
  (List.range (last + 1 - first)).map (fun i => hexNum 3 (first + i) ++ asc " " ++ hexNum 4 (tget 0 (first + i) s.flt.live).toNat) ++
  [regLine "FLT_SNAP_TOR" .fltSnapTor s]

/-- The newest `n` entries of the log, newest first, then the pending sources. -/
def showFlt (n : Nat) (s : State) : List (List Byte) :=
  let slots := (List.range (min n (min s.flt.nextSeq 8192))).filterMap (fun i => tget none ((s.flt.nextSeq - 1 - i) % 8192) s.flt.log)
  slots.map (fun e => (List.range 4).foldl (fun t k => t ++ asc " " ++ hexLong (BitVec.ofNat 64 (natAt (logBytes e) (8 * k) 8))) (asc "entry")) ++
  (s.flt.status.filter (fun e => e.2.pending)).map (fun e => regLineN "FLT_STATUS" e.1 (.fltStatus e.1) s)

/-- A port's registers, or state and width of every port. -/
def showLink (p : Option PortId) (s : State) : List (List Byte) :=
  let name : PortId → List Byte
    | .arm n => asc "a" ++ decNum n
    | .ch n => asc "c" ++ decNum n
  match p with
  | some q => regLine "LNK_STATUS" (.lnkStatus q) s :: (List.range 3).map (fun k => regLineN "LNK_CNT" k (.lnkCnt q k) s) ++
      (List.range (portLanes q)).map (fun i => regLineN "LNK_LANE" i (.lnkLane q i) s)
  | none => allPorts.map (fun q => name q ++ asc " state " ++ hexNum 1 (linkOf q s).state ++ asc " width " ++ decNum (linkOf q s).width)

/-- A token refused (R570, R575): the second word names the check. -/
def respondToken (ss : Session) (check : String) (s : State) : State := respond ss [errLine 5 ++ asc " " ++ asc check] s

/-! ### Grants (R54, R426, R427, R574 to R576) -/

/-- A grant in force of a session (R576). -/
def grantIn (ss : Session) (s : State) : Option Scope :=
  match (sessionOf ss s).grant with
  | some (sc, t) => if s.tor.tor < t then some sc else none
  | none => none

/-- The other session. -/
def otherSession : Session → Session
  | .uart => .mailbox
  | .mailbox => .uart

/-- A token's checks up to the partition states (R575), in order: the first that fails. -/
def tokenFault (sc : Scope) (b : List Byte) (s : State) : Option String :=
  let nb := natAt b 0x10 8
  let ex := natAt b 0x18 8
  let sig := sigOf (b.drop 0x40)
  let uuid := bytesAt b 0x20 16
  let permit (p : Nat) : Bool := (partOf p s).any (fun d => d.pflags.testBit 2)
  let rest (p : Nat) : Bool := match pstateOf p s with | .stopped => true | .checkstopped => true | _ => false
  let scopeOk : Bool := match sc with
    | .module => natAt b 6 1 == 0 && natAt b 7 1 == 0xFF && allZero uuid
    | .partition p => natAt b 6 1 == 1 && natAt b 7 1 == p && (partOf p s).isSome && uuid == uuidOf p s
  if b.length ≠ 5520 ∨ natAt b 0 4 ≠ 0x4D51544B ∨ natAt b 4 2 ≠ 1 ∨ 1 < natAt b 6 1 ∨ !allZero (bytesAt b 0x30 16) then some "format"
  else if natAt b 8 8 ≠ Config.serial.toNat then some "serial"
  else if s.tor.tor < nb ∨ ex ≤ s.tor.tor ∨ 7 * 86400 * ticksS < ex - nb ∨ torQuality s = 0 then some "time"
  else if !sigOk (b.take 0x40) sig then some "signature"
  else if s.pln.owners.isEmpty ∨ sigOwner sig ≠ ownerHash s then some "owner"
  else if !scopeOk then some "scope"
  else match sc with
    | .partition p => if !permit p then some "permit" else if !rest p then some "state" else none
    | .module =>
      if !(partIds s).all permit then some "permit"
      else if !(partIds s).all (fun p => rest p || pstateOf p s == .undefined) then some "state" else none

/-- The partitions of a scope. -/
def scopeParts (sc : Scope) (s : State) : List Nat := match sc with | .module => partIds s | .partition p => [p]

/-- Requests of a partition that an Intaglio engine has suspended end, and their contexts with them (R426; 19 R449). -/
def dropContexts (p : Nat) (s : State) : State :=
  (List.range 8).foldl (fun s k =>
    match (intOf k s).susp with
    | some j => if j.part = p then intFinish k j (some 0x26) (setInt k { intOf k s with susp := none } s) else s
    | none => s) s

/-- A DRBG instance is reseeded (R421). -/
def reseed (inst : Nat) (s : State) : State :=
  { s with tr := { s.tr with drbg := tmod {} inst (fun d => { requests := 0, seeded := s.tor.tor, reseeds := d.reseeds + 1 }) s.tr.drbg } }

/-- What is destroyed on this module before control of partition p is granted (R426). -/
def destroyPart (p : Nat) (s : State) : State :=
  let u := uuidOf p s
  let s := dropContexts p (destroySlots (fun i k => k.uuid == u && slotInRange p i s) (fun q _ => q == p) s)
  let s := match partOf p s with | some d => if homedHere d s then replaceKey p d.extents s else s | none => s
  reseed p s

/-- The module storage key is replaced: what lies in no extent, the service store included, is unrelated data (R418 to R420). -/
def destroyModuleKey (s : State) : State :=
  let xs := (partIds s).flatMap (fun p => match partOf p s with | some d => d.extents | none => [])
  let s := genStorageKey 48 (scramble (cutRange (s.arm.node.getD 0 * 2 ^ 52) (2 ^ 52) xs) s)
  { s with svc := [], free := s.free + 1, tr := { s.tr with svcKey := some s.free } }

/-- The other modules that a partition spans. -/
def remoteNodes (p : Nat) (s : State) : List Nat :=
  match partOf p s with
  | some d => ((d.extents.filter (fun e => !isLocal e.phys s)).map (fun e => nodeOfAddr e.phys)).eraseDups
  | none => []

/-- A scope as a response names it. -/
def scopeName : Scope → List Byte
  | .module => asc "m"
  | .partition p => asc "p" ++ decNum p

/-- Control is granted (R426, R427, R575): recorded for good, and answered. -/
def grantDone (g : PendGrant) (s : State) : State :=
  let ps := scopeParts g.scope s
  let s := { s with tr := { s.tr with pend := none, moduleDebug := s.tr.moduleDebug || g.scope == .module,
                                      debug := ps.foldl (fun t p => tset false p true t) s.tr.debug,
                                      debugUuid := ps.foldl (fun t p => tset [] p (uuidOf p s) t) s.tr.debugUuid } }
  let s := setSession g.session { sessionOf g.session s with grant := some (g.scope, g.expiry) } s
  respond g.session [asc "ok control " ++ scopeName g.scope ++ asc " until " ++ hexLong (BitVec.ofNat 64 g.expiry)] s

/-- Requests that the destruction ended have still to post their completions (19 R449). -/
def lostPosts (s : State) : Bool := s.eng.iq.any (fun e => e.2.post.any (fun r => natAt r.1 8 1 == 0x26))

/-- A grant whose destruction goes on: refused after 100 ms, granted once all of it is done, else waiting (R427; 19 R449). -/
def grantSettle (g : PendGrant) (s : State) : State :=
  if g.since + 100 * ticksMs ≤ s.tor.tor then respondToken g.session "destroy" { s with tr := { s.tr with pend := none } }
  else if g.waiting.isEmpty && !lostPosts s then grantDone g s
  else { s with tr := { s.tr with pend := some g } }

/-- A grant that waits for nothing more is given. -/
def grantDue (s : State) : State :=
  match s.tr.pend with
  | some g => if g.waiting.isEmpty && !lostPosts s then grantSettle g s else s
  | none => s

/-- The destruction of R426, here and by request on every module that a partition spans (R427). -/
def beginGrant (ss : Session) (sc : Scope) (expiry : Nat) (s : State) : State :=
  let ps := scopeParts sc s
  let s := ps.foldl (fun s p => destroyPart p s) s
  let s := if sc = .module then destroyModuleKey s else s
  let away := ps.flatMap (fun p => (remoteNodes p s).map (fun n => (n, p)))
  let s := emits (away.map (fun e => .rekey e.1 (.partition e.2) false)) s
  let g : PendGrant := { session := ss, scope := sc, expiry := expiry, since := s.tor.tor, waiting := away.map (fun e => e.1 * 64 + e.2) }
  grantSettle g s

/-- A token is complete (R575, R577). -/
def tokenDone (ss : Session) (sc : Scope) (b : List Byte) (s : State) : State :=
  if grantIn (otherSession ss) s = some sc then respondErr ss 8 s
  else if s.tr.pend.isSome then respondErr ss 6 s
  else match tokenFault sc b s with
    | some c => respondToken ss c s
    | none => beginGrant ss sc (natAt b 0x18 8) s

/-- `grant` (R574). -/
def grantCmd (ss : Session) (sc : Scope) (offset : Option Nat) (s : State) : State :=
  if grantIn (otherSession ss) s = some sc then respondErr ss 8 s
  else match offset with
    | some o => if o % 8 ≠ 0 ∨ svcSize < o + 5520 then respondErr ss 3 s else tokenDone ss sc (svcBytes o 5520 s) s
    | none => respond ss [asc "send token"] (setSession ss { sessionOf ss s with await := some sc, token := [] } s)

/-- The bytes that a line of hexadecimal digits carries; none where it is no such line (R574). -/
def hexBytes : List Byte → Option (List Byte)
  | [] => some []
  | a :: b :: t =>
    match digitOf 16 a, digitOf 16 b, hexBytes t with
    | some x, some y, some r => some (BitVec.ofNat 8 (16 * x + y) :: r)
    | _, _, _ => none
  | _ => none

/-- A line of a token (R574): up to 64 digits; "." ends it; another line is a fault of its format. -/
def tokenLine (ss : Session) (line : List Byte) (s : State) : State :=
  let v := sessionOf ss s
  match v.await with
  | none => s
  | some sc =>
    let ended := setSession ss { v with await := none, token := [] } s
    if line = asc "." then tokenDone ss sc v.token ended
    else if 2 ≤ line.length ∧ line.length ≤ 64 ∧ v.token.length ≤ 5520 then
      match hexBytes line with
      | some b => setSession ss { v with token := v.token ++ b } s
      | none => respondToken ss "format" ended
    else respondToken ss "format" ended

/-! ### The control level (R572, R573, R577, R579) -/

/-- A grant covers a logical core. -/
def coversCore (l : Nat) (s : State) : Scope → Bool
  | .module => true
  | .partition p => partOfCore l s == some p

/-- Whether a control command is taken: the scope of the session's grant, or an error (R570, R577, R579). -/
def control (ss : Session) (cover : Scope → Bool) (s : State) : Sum Nat Scope :=
  if s.flt.checkstop then .inl 6
  else match grantIn ss s with
    | some sc => if cover sc then .inr sc else if (grantIn (otherSession ss) s).any cover then .inl 8 else .inl 4
    | none => if (grantIn (otherSession ss) s).any cover then .inl 8 else .inl 4

/-- The answers that wait for a core to stop (R572, R573): it has stopped, or it is lost. -/
def coreAnswer (l : Nat) (s : State) : State :=
  match (coreOf l s).mqWait with
  | none => s
  | some ss =>
    let k := coreCode l s
    if k = 5 then respondErr ss 6 (modCore l (fun c => { c with mqWait := none, mqStep := false }) s)
    else if k = 2 ∨ k = 6 then respond ss [asc "ok"] (modCore l (fun c => { c with mqWait := none, mqStep := false }) s)
    else s

/-- The answer that waits for a `recast` (R572). -/
def recastAnswer (s : State) : State :=
  match s.mq.recast with
  | some ss =>
    if s.cpu.recBusy then s
    else respond ss [asc "RESULT " ++ hexNum 2 s.cpu.recResult] { s with mq := { s.mq with recast := none } }
  | none => s

/-- `core halt` (R572): at the next boundary, as STOP stops a core. -/
def coreHalt (ss : Session) (l : Nat) (s : State) : State :=
  let k := coreCode l s
  if k ≠ 0 ∧ k ≠ 1 then respondErr ss 6 s
  else
    let s := modCore l (fun c => { c with mqHalt := true, mqWait := some ss }) s
    coreAnswer l (restCore l s)

/-- The groups of a step: one, or the iterations that a REPN repeat has left, until the core is stopped or waits (R573). -/
def stepGroups (l : Nat) : Nat → State → State
  | 0, s => s
  | n + 1, s => if (coreOf l s).run = .running then stepGroups l n (issueOne coreEnv l s).1 else s

/-- `core step` (R573). -/
def coreStep (ss : Session) (l : Nat) (s : State) : State :=
  if coreCode l s ≠ 2 ∨ recState l s ≠ 0 then respondErr ss 6 s
  else
    let s := modCore l (fun c => { c with mqHalt := true, mqStep := true, mqBound := false, mqWait := some ss, run := .running }) s
    coreAnswer l (stepGroups l 65 (deliverHeld l s))

/-- `core run` (R572). -/
def coreRun (ss : Session) (l : Nat) (s : State) : State :=
  let running : Bool := (partOfCore l s).any (fun p => pstateOf p s == .running)
  if coreCode l s ≠ 2 ∨ !(coreOf l s).mqHalt ∨ !running then respondErr ss 6 s
  else respond ss [asc "ok"] (deliverHeld l (modCore l (fun c => { c with mqHalt := false, mqStep := false, mqBound := false, run := .running }) s))

/-- `core regs` (R572). -/
def coreRegs (ss : Session) (l : Nat) (s : State) : State :=
  if coreCode l s ≠ 2 then respondErr ss 6 s
  else
    let c := coreOf l s
    let quad (q : Quad) : List Byte := hexLong (BitVec.ofNat 64 (q.toNat >>> 64)) ++ asc " " ++ hexLong (BitVec.ofNat 64 q.toNat)
    respond ss ((List.range 64).map (fun n => asc "g" ++ decNum n ++ asc " " ++ hexLong (getG c n)) ++
      (List.range 32).map (fun n => asc "f" ++ decNum n ++ asc " " ++ quad (getF c n)) ++
      [asc "PC " ++ hexLong c.pc, asc "TSW " ++ hexLong c.tsw, asc "FPC " ++ hexLong c.fpc] ++
      (List.range 64).map (fun n => asc "c" ++ decNum n ++ asc " " ++ hexLong (readCr l n s))) s

/-- `recast` (R572): the result of R475 at once where it is refused, and else once `BUSY` clears. -/
def recastCmd (ss : Session) (l : Nat) (s : State) : State :=
  let s := recastCommand l s
  if s.cpu.recResult = 0 ∧ s.cpu.recBusy then { s with mq := { s.mq with recast := some ss } }
  else respond ss [asc "RESULT " ++ hexNum 2 s.cpu.recResult] s

/-- The UART rates (R568). -/
def baudOk (r : Nat) : Bool := [115200, 230400, 460800, 921600, 1500000, 3000000].contains r

/-- `baud` (R568, R579). -/
def baudCmd (ss : Session) (r : Nat) (s : State) : State :=
  if baudOk r then
    let s := respond ss [asc "ok"] s
    { s with mq := { s.mq with baud := r, oldBaud := s.mq.baud, baudSince := some s.tor.tor } }
  else respondErr ss 3 s

/-- `release` (R576): the grant ends. -/
def releaseCmd (ss : Session) (s : State) : State :=
  if (grantIn ss s).isSome then respond ss [asc "ok"] (setSession ss { sessionOf ss s with grant := none } s) else respondErr ss 4 s

/-- A control command on a core. -/
def onCore (ss : Session) (l : Nat) (f : State → State) (s : State) : State :=
  match control ss (coversCore l s) s with
  | .inl c => respondErr ss c s
  | .inr _ => if l < 192 then f s else respondErr ss 3 s

/-- A command of a session is executed (R571, R572, R574). -/
def mqExec (ss : Session) (c : MqCmd) (s : State) : State :=
  match c with
  | .nothing => respond ss [] s
  | .id => respond ss [regLine "ID_PART" .idPart s, regLine "ID_ORDER" .idOrder s, regLine "ID_SERIAL" .idSerial s, regLine "ID_TOPOLOGY" .idTopology s] s
  | .tor => respond ss (showTor s) s
  | .patina a b => if a ≤ b ∧ b ≤ 0x29F then respond ss (showPatina a b s) s else respondErr ss 3 s
  | .flt n => if 1 ≤ n ∧ n ≤ 8192 then respond ss (showFlt n s) s else respondErr ss 3 s
  | .plinth => respond ss ([regLine "PLN_STATUS" .plnStatus s, regLine "PLN_GEN" .plnGen s, regLine "PLN_FUSE" .plnFuse s] ++
      (partIds s).map (fun p => regLineN "PART_STATE" p (.partState p) s)) s
  | .jnl none => respond ss [regLine "JNL_STATUS" .jnlStatus s, regLine "JNL_LAT" .jnlLat s] s
  | .jnl (some i) =>
    if 262144 ≤ i then respondErr ss 3 s
    else respond ss ([regLine "JNL_STATUS" .jnlStatus s, regLine "JNL_LAT" .jnlLat s] ++
      (List.range 8).map (fun k => asc "JNL_ENTRY" ++ decNum k ++ asc " " ++ hexLong (BitVec.ofNat 64 (natAt (jent i s).bytes (8 * k) 8)))) s
  | .link p => respond ss (showLink p s) s
  | .baud r => baudCmd ss r s
  | .grant sc o => grantCmd ss sc o s
  | .release => releaseCmd ss s
  | .memR a n => (match control ss (fun _ => true) s with | .inl e => respondErr ss e s | .inr sc => if 1 ≤ n ∧ n ≤ 256 then memRead ss sc a n s else respondErr ss 3 s)
  | .memW a v => (match control ss (fun _ => true) s with | .inl e => respondErr ss e s | .inr sc => memWrite ss sc a v s)
  | .halt l => onCore ss l (coreHalt ss l) s
  | .step l => onCore ss l (coreStep ss l) s
  | .run l => onCore ss l (coreRun ss l) s
  | .regs l => onCore ss l (coreRegs ss l) s
  | .recast l => onCore ss l (recastCmd ss l) s

/-! ### Lines (R568, R569, R577, R578) -/

/-- A complete line of a session: of a token that is being sent, or a command. -/
def mqLine (ss : Session) (line : List Byte) (s : State) : State :=
  if (sessionOf ss s).await.isSome then tokenLine ss line s
  else match parseLine line with
    | .inl c => respondErr ss c s
    | .inr c => mqExec ss c s

/-- A line is being executed: its answer waits for a core, a recast, another module or a destruction (R572, R573, R577; 18 R427). -/
def mqBusy (s : State) : Bool :=
  s.mq.uart.mem.isSome || s.mq.mbx.mem.isSome || s.mq.recast.isSome || s.tr.pend.isSome || s.cpu.core.any (fun e => e.2.mqWait.isSome)

/-- The mailbox line is taken where `IN_SEQ` has changed (R578). -/
def mailboxTake (s : State) : State :=
  let seq := natAt (svcBytes mbxInSeq 8 s) 0 8
  if seq = s.mq.inSeq then s
  else
    let n := natAt (svcBytes mbxInLen 4 s) 0 4
    let s := { s with mq := { s.mq with inSeq := seq } }
    if n < 1 ∨ 256 < n then respondErr .mailbox (if n = 0 then 3 else 2) s else mqLine .mailbox (svcBytes mbxInLine n s) s

/-- One item is executed. -/
def mqItem (x : MqItem) (s : State) : State :=
  match x with
  | .cmd ss c => mqExec ss c s
  | .line ss b => mqLine ss b s
  | .bad ss c => respondErr ss c s
  | .mailbox => mailboxTake s

/-- The items that wait are executed one at a time, in order, until one of them waits (R577); at most `n`. -/
def mqDrain : Nat → State → State
  | 0, s => s
  | n + 1, s =>
    if mqBusy s then s
    else match s.mq.queue with
      | [] => s
      | x :: t => mqDrain n (mqItem x { s with mq := { s.mq with queue := t } })

/-- Answers that have become due are given, and the lines that waited for them are executed. -/
def mqPoll (s : State) : State :=
  let cs := (s.cpu.core.filter (fun e => e.2.mqWait.isSome)).map (·.1)
  let s := grantDue (recastAnswer (cs.foldl (fun s l => coreAnswer l s) s))
  mqDrain s.mq.queue.length s

/-- A complete line: executed at once, or after those before it (R577). -/
def mqSubmit (x : MqItem) (s : State) : State :=
  let s := mqPoll s
  if mqBusy s then { s with mq := { s.mq with queue := s.mq.queue ++ [x] } } else mqItem x s

/-- The outcome of a command that may have ended a wait of the monitor. -/
def donePoll (before s : State) : Host.Outcome State Fault Refusal := done before (mqPoll s)

/-- A received character ends a line, deletes one, or joins it; every one is echoed (R569). An empty line is CR LF's second half, or is
passed over. -/
def rxChar (c : Byte) (s : State) : State :=
  let s := emit (.text .uart [c]) s
  let q := s.mq
  if c = 13 ∨ c = 10 then
    let s := { s with mq := { q with line := [], tooLong := false, baudSince := none } }
    if q.tooLong then mqSubmit (.bad .uart 2) s
    else if q.line.isEmpty then { s with mq := { s.mq with baudSince := q.baudSince } }
    else mqSubmit (.line .uart q.line) s
  else if c = 8 ∨ c = 0x7F then { s with mq := { q with line := q.line.dropLast } }
  else if 256 ≤ q.line.length then { s with mq := { q with tooLong := true } }
  else { s with mq := { q with line := q.line ++ [c] } }

end Sys2Proof.Machine
end

