-- ==== Sys2Proof/Machine/CoreCmd.lean ====
section
/-! DEFINITION. The commands of the cores: issue groups with their retries, the boundary conditions, waits, comparators, and the store
buffers (04_issue_groups R77; 03 R73; 08 R179, R183; 10 R237; 20 R461, R462). -/

namespace Sys2Proof.Machine

/-- A group of which `failed` further attempts fail a check (20 R460 to R464): with four in all, the core has a hard error, after what an
attempt performed outside it; else the group runs, and one that ends after failed attempts is counted and logged, once. -/
def issueGroup (l failed : Nat) (s : State) : State :=
  let part := partOfCore l s
  let tried := (coreOf l s).attempts + failed
  let s := if failed = 0 then s else dropBadTlb l s
  let tries (n : Nat) (s : State) : State := if (coreOf l s).attempts = n then s else modCore l (fun c => { c with attempts := n }) s
  if 4 ≤ tried then hardTrigger l .hard (tries 0 (reachOut coreEnv l s))
  else
    let r := issueOne coreEnv l s
    match r.2 with
    | .none => r.1
    | .waits => tries tried r.1
    | .ended => if tried = 0 then r.1 else raise (srcSlot (slotOf l s)) 0x02 part tried (tries 0 r.1)

/-- ISSUE_GROUP (R77). -/
def execIssueGroup (l failed : Nat) (s : State) : Host.Outcome State Fault Refusal :=
  if coreLive l s then donePoll s (issueGroup l failed s) else .next s

/-- The deadline of a waiting core has come (08 R183). -/
def waitOver (l : Nat) (s : State) : Bool :=
  match (coreOf l s).run with
  | .waiting (some t) => decide (t ≤ s.tor.tor)
  | .gated (some t) => decide (t ≤ s.tor.tor)
  | _ => false

/-- WAITEV_DEADLINE (08 R183). -/
def execWaitevDeadline (l : Nat) (s : State) : Host.Outcome State Fault Refusal :=
  if coreLive l s && !coreHeld l s && waitOver l s then done s (modCore l (fun c => { c with run := .running }) s) else .next s

/-- A piece of a store buffer's entry is performed by itself (R221, R222): at a multiple of its grain, at most its length; the rest stays
behind it in the buffer. The whole entry is one piece. -/
def splitEntry (l idx n : Nat) (s : State) : State :=
  modCore l (fun c => match c.sb[idx]? with
    | some e =>
      if n = 0 ∨ e.data.length ≤ n ∨ n % e.grain ≠ 0 then c
      else { c with sb := c.sb.take idx ++ [{ e with data := e.data.take n }, { e with addr := e.addr + n, data := e.data.drop n }] ++ c.sb.drop (idx + 1) }
    | none => c) s

/-- Where the spec does not ask for the whole entry at once, a piece of it is taken, the first or the last: a free choice (R221, R222). The
place of that piece in the buffer. -/
def splitFree (l idx : Nat) (system : Bool) (s : State) : Nat × State :=
  match (coreOf l s).sb[idx]? with
  | none => (idx, s)
  | some e =>
    if e.data.length ≤ e.grain ∨ e.sent.isSome ∨ e.cluster.isSome then (idx, s)
    else
      let r := drawBelow (e.data.length + 1) s
      let b := drawBit r.2
      let t := splitEntry l idx r.1 b.2
      (if b.1 ∧ (coreOf l t).sb.length ≠ (coreOf l s).sb.length ∧ mayPerform l (idx + 1) system t then idx + 1 else idx, t)

/-- An entry whose ECC is uncorrectable is performed with its line marked poisoned, and is a fault of the slot (20 R461). -/
def markBad (l idx : Nat) (e : SbEntry) (s : State) : State :=
  raise (srcSlot (slotOf l s)) 0x03 (partOfCore l s) e.addr
    (modCore l (fun c => { c with sb := c.sb.mapIdx (fun j x => if j = idx then { x with bad := true } else x) }) s)

/-- An entry of a store buffer is performed (R217, R237), or a piece of one that needs not be performed whole. An entry that waits behind
a combining buffer has that released first. -/
def performEntry (l idx : Nat) (system eccBad : Bool) (s : State) : State :=
  if !wcOrder l idx system s then wcRelease l s
  else
    let r := splitFree l idx system s
    let idx := r.1
    let s := r.2
    match (coreOf l s).sb[idx]? with
    | none => s
    | some e =>
      if !system then stageEntry l idx s
      else finishEntry l idx (if eccBad && !e.bad && e.sent.isNone then markBad l idx e s else s)

/-- STORE_BUFFER_PERFORM (R237). -/
def execStoreBufferPerform (l idx : Nat) (system eccBad : Bool) (s : State) : Host.Outcome State Fault Refusal :=
  if operating s && decide (l < 192) && sbOrder l idx system s then done s (performEntry l idx system eccBad s) else .next s

/-- The first condition of the boundary at which core l stands is taken, where it is of the kind asked for (08 R179). -/
def takeIf (l : Nat) (want : Cond → Bool) (s : State) : State :=
  let s := resumeIfDue l s
  match firstCond l s with
  | some c => if want c && (coreOf l s).run == .running then takeConds l 1 s else s
  | none => s

/-- A core stands at a boundary where it may take interruptions. -/
def atBoundary (l : Nat) (s : State) : Bool := coreLive l s && !coreHeld l s && !begun (coreOf l s)

/-- EXTERNAL_INTERRUPTION (08 R186). -/
def execExternalInterruption (l : Nat) (s : State) : Host.Outcome State Fault Refusal :=
  if atBoundary l s then done s (takeIf l (fun c => match c with | .ext _ => true | _ => false) s) else .next s

/-- IO_INTERRUPTION (08 R186; 15 R352). -/
def execIoInterruption (l : Nat) (s : State) : Host.Outcome State Fault Refusal :=
  if atBoundary l s then done s (takeIf l (fun c => match c with | .io _ => true | _ => false) s) else .next s

/-- MACHINE_CHECK (08 R187, R188). -/
def execMachineCheck (l : Nat) (s : State) : Host.Outcome State Fault Refusal :=
  if atBoundary l s then done s (takeIf l (fun c => match c with | .mc _ => true | .exigent _ => true | _ => false) s) else .next s

/-- TOR_COMPARATOR_FIRE (03 R73). -/
def execTorComparatorFire (l n : Nat) (s : State) : Host.Outcome State Fault Refusal :=
  if operating s && decide (l < 192) && cmpDue l n s then done s (modCore l (fireCmp n) s) else .next s

end Sys2Proof.Machine
end

