-- ==== Sys2Proof/Machine/CtlStoreCmd.lean ====
section
/-! DEFINITION. The commands of the control stores (23_control_store R512 to R525). -/

namespace Sys2Proof.Machine

/-- CS_STORE_A (R523). -/
def execCsStoreA (v : View) (flashOk : Bool) (s : State) : Host.Outcome State Fault Refusal :=
  if admin v s && operating s then done s (csStoreCmd 0 flashOk s) else .next s

/-- CS_STORE_B (R523). -/
def execCsStoreB (v : View) (flashOk : Bool) (s : State) : Host.Outcome State Fault Refusal :=
  if admin v s && operating s then done s (csStoreCmd 1 flashOk s) else .next s

/-- CS_SCRUB (R518): the background scrub of store n reads its next word. -/
def execCsScrub (n : Nat) (s : State) : Host.Outcome State Fault Refusal :=
  if operating s then done s (scrubStore n s) else .next s

/-- CS_REPAIR_DONE (R517). -/
def execCsRepairDone (n : Nat) (dramOk flashOk : Bool) (s : State) : Host.Outcome State Fault Refusal :=
  if operating s then done s (repairDone n dramOk flashOk s) else .next s

/-- INJECT (R525): `CS_DIAG_SEL` is writable by the service core only. -/
def execInject (v : View) (kind : BitVec 2) (s : State) : Host.Outcome State Fault Refusal :=
  if v = .service ∧ operating s then done s (injectFlips kind.toNat s) else .next s

end Sys2Proof.Machine
end

