-- ==== Sys2Proof/Machine/DramCmd.lean ====
section
/-! DEFINITION. The commands of the DRAM controllers (12_dram R257 to R283). -/

namespace Sys2Proof.Machine

/-- DRAM_REQUEST (R268): each request is served as it comes; which of several that wait at one controller goes first is timing, and
out of the model (log entry 78). -/
def execDramRequest (r : DramReq) (s : State) : Host.Outcome State Fault Refusal :=
  if operating s then done s (serveDram r s) else .next s

/-- REFRESH_TICK (R270): a tREFI tick of the controller's own clock (R271). -/
def execRefreshTick (n : Nat) (s : State) : Host.Outcome State Fault Refusal :=
  if operating s then done s (refreshTick n s) else .next s

/-- REFRESH_IDLE (R270). -/
def execRefreshIdle (n : Nat) (s : State) : Host.Outcome State Fault Refusal :=
  if operating s then done s (refreshIdle n s) else .next s

/-- RECENTRE (R276): every 64 ms of TOR. -/
def execRecentre (low : List Nat) (s : State) : Host.Outcome State Fault Refusal :=
  if operating s ∧ periodDue recentreTicks s.tor.centred s = true then
    done s (recentreAll low { s with tor := { s.tor with centred := s.tor.tor } })
  else .next s

/-- PATROL_SCRUB (R279). -/
def execPatrolScrub (n : Nat) (err : EccErr × EccErr) (s : State) : Host.Outcome State Fault Refusal :=
  if operating s then done s (scrubDram n err.1 err.2 s) else .next s

/-- SPEED (R277): `DC_CMD` takes it from the service core only. -/
def execSpeed (v : View) (n arg : Nat) (s : State) : Host.Outcome State Fault Refusal :=
  if v = .service ∧ operating s then done s (speedCmd n arg s) else .next s

/-- TRAINING_COMPLETE (R259, R275): full training under way ends. -/
def execTrainingComplete (rs : List TrainResult) (s : State) : Host.Outcome State Fault Refusal :=
  if operating s ∧ (List.range 16).any (fun n => (dramOf n s).state == 1) = true then done s (trainingDone rs s) else .next s

/-- CA_PARITY_ALERT (R281). -/
def execCaParityAlert (n : Nat) (s : State) : Host.Outcome State Fault Refusal :=
  if operating s then done s (parityAlert n s) else .next s

end Sys2Proof.Machine
end

