-- ==== Sys2Proof/Machine/HostCmd.lean ====
section
/-! DEFINITION. The commands of the host port (24_host_port R527 to R546; 27_electrical_package R589). -/

namespace Sys2Proof.Machine

/-- The host link carries TLPs (R527). -/
def hostUp (s : State) : Bool := operating s && s.hp.state == 2

/-- HOST_WINDOW_READ (R532), or a read of BAR0 (R529), of which a checkstopped module serves those of the fault block (21 R489). -/
def execHostWindowRead (w : WinSel) (addr len : Nat) (s : State) : Host.Outcome State Fault Refusal :=
  match w with
  | .bar0 fn =>
    if hostUp s && decide (fn < 2) || powered s && s.hp.state == 2 && fn == 0 && faultBlockRead addr s then done s (barRead fn addr len s) else .next s
  | _ => if hostUp s then done s (windowRead w addr len s) else .next s

/-- HOST_WINDOW_WRITE (R532), or a write of BAR0 (R529). -/
def execHostWindowWrite (w : WinSel) (addr : Nat) (data : List Byte) (ep : Bool) (s : State) : Host.Outcome State Fault Refusal :=
  match w with
  | .bar0 fn => if hostUp s ∧ fn < 2 then done s (barWrite fn addr data ep s) else .next s
  | _ => if hostUp s then done s (windowWrite w addr data ep s) else .next s

/-- HOST_COMPLETION (R540, R543, R544). -/
def execHostCompletion (tag : Nat) (data : List Byte) (ep : Bool) (s : State) : Host.Outcome State Fault Refusal :=
  if hostUp s then done s (hostCompletion tag data ep s) else .next s

/-- COMPLETION_TIMEOUT (R526, R541): the default of 50 ms. -/
def execCompletionTimeout (tag : Nat) (s : State) : Host.Outcome State Fault Refusal :=
  match tget none tag s.hp.req with
  | some x => if operating s && decide (x.since + 50 * ticksMs ≤ s.tor.tor) then done s (completionTimeout tag s) else .next s
  | none => .next s

/-- COMMIT (R533): the host through PF1 or PF0, or the service core. -/
def execCommit (v : View) (mask : BitVec 17) (s : State) : Host.Outcome State Fault Refusal :=
  if operating s && (admin v s || v == .pf1) then done s (commitWindows mask.toNat s) else .next s

/-- CLAIM (R536): a partition's. -/
def execClaim (v : View) (kind : Nat) (q : Nat) (s : State) : Host.Outcome State Fault Refusal :=
  match v with
  | .part p => if operating s ∧ q < 64 then done s (claimPair p (kind % 4) q s) else .next s
  | _ => .next s

/-- QP_RELEASE (R536): a partition's. -/
def execQpRelease (v : View) (q : Nat) (s : State) : Host.Outcome State Fault Refusal :=
  match v with
  | .part p => if operating s ∧ q < 64 then done s (releasePair p q s) else .next s
  | _ => .next s

/-- MAILBOX_INBOUND (R538). -/
def execMailboxInbound (q : Nat) (s : State) : Host.Outcome State Fault Refusal :=
  if operating s ∧ q < 64 then done s (mailboxIn q s) else .next s

/-- MAILBOX_OUTBOUND (R538). -/
def execMailboxOutbound (q : Nat) (s : State) : Host.Outcome State Fault Refusal :=
  if operating s ∧ q < 64 then done s (mailboxOut q s) else .next s

/-- FLR (R542, R543). -/
def execFlr (fn : Nat) (s : State) : Host.Outcome State Fault Refusal :=
  if hostUp s ∧ fn < 2 then done s (fnReset fn s) else .next s

/-- PERST_N (R542; 27 R589): asserted it takes the link down, released the link trains. -/
def execPerstN (asserted : Bool) (s : State) : Host.Outcome State Fault Refusal :=
  if asserted then
    let t := { s with hp := { s.hp with perst := true } }
    done s (if operating s && !s.hp.perst then hostDown t else t)
  else if s.hp.perst then
    done s { s with hp := { s.hp with perst := false, since := s.tor.tor, state := b2n (powered s && !s.pin.hpLost) } }
  else .next s

/-- HOT_RESET (R542): in band, or the link down. -/
def execHotReset (s : State) : Host.Outcome State Fault Refusal :=
  if hostUp s then done s (hostDown s) else .next s

/-- Bus Master Enable of a function as written (R544): clearing it pauses PF1's queues; setting it lets pending vectors go. -/
def setBme (fn : Nat) (on : Bool) (s : State) : State :=
  let t := setFn fn { fnOf fn s with bme := on } s
  if on then flushVectors fn t
  else if fn = 1 ∧ (fnOf fn s).bme then masterOff t
  else t

/-- BUS_MASTER_ENABLE (R544). -/
def execBusMasterEnable (fn : Nat) (on : Bool) (s : State) : Host.Outcome State Fault Refusal :=
  if hostUp s && decide (fn < 2) && !(fnOf fn s).flr then done s (setBme fn on s) else .next s

/-- HOST_LINK_TRAINED (R527): a link of 8.0 GT/s or more carries TLPs; `rate` and `width` as `HP_LINK` codes them. -/
def execHostLinkTrained (width rate : Nat) (flit : Bool) (s : State) : Host.Outcome State Fault Refusal :=
  if operating s && s.hp.state == 1 && !s.hp.perst && !s.pin.hpLost && decide (1 ≤ width ∧ width ≤ 3) && decide (1 ≤ rate ∧ rate ≤ 4) then
    done s { s with hp := { s.hp with state := 2, rate := rate, width := width, flit := flit || rate == 4 } }
  else .next s

/-- FUNCTION_RESET_COMPLETE (R543). -/
def execFunctionResetComplete (fn : Nat) (s : State) : Host.Outcome State Fault Refusal :=
  if operating s && decide (fn < 2) && (fnOf fn s).flr then done s (setFn fn { fnOf fn s with flr := false } s) else .next s

/-! ### Configuration requests (R526, R528, R543; 27 R589) -/

/-- What a configuration field reads (R526, R528); the places of bits in the standard fields are the base specification's. -/
def cfgRead (fn : Nat) (f : CfgField) (s : State) : Long :=
  let g := fnOf fn s
  match f with
  | .vendorDevice => pack [(31, 16, if fn = 0 then 0x7192 else 0x7193), (15, 0, 0x7E1A)]
  | .revisionClass => pack [(31, 8, if fn = 0 then 0x088000 else 0x120000), (7, 0, 0x20)]
  | .bar n => BitVec.ofNat 64 (tget 0 n g.bar)
  | .romBar => BitVec.ofNat 64 (tget 0 6 g.bar)
  | .command => pack [(2, 2, b2n g.bme), (1, 1, b2n g.memEnable)]
  | .powerState => pack [(1, 0, if g.d3 then 3 else 0)]
  | .msixControl => pack [(15, 15, b2n g.msixEnable), (14, 14, b2n g.fnMask), (10, 0, vectorCount fn - 1)]
  | .msixMask v => pack [(0, 0, b2n (!tget false v g.vOpen))]
  | .serial => Config.serial
  | .other _ => 0

/-- The size of a BAR (R528): the address bits below it read 0. -/
def barSize (fn n : Nat) : Nat :=
  match fn, n with
  | 0, 0 => 0x100000
  | 0, 2 => 0x4000000
  | 1, 0 => 0x40000
  | 1, 2 => 0x10000000000
  | 1, 6 => 0x100000
  | _, _ => 0

/-- A BAR takes an address, a multiple of its size; a BAR that the function does not have stays 0. -/
def setBar (fn n : Nat) (w : Nat) (s : State) : State :=
  let z := barSize fn n
  if z = 0 then s else setFn fn { fnOf fn s with bar := tset 0 n (w / z * z) (fnOf fn s).bar } s

/-- D3hot, or D0, which after D3hot resets the function (R542). -/
def setPower (fn v : Nat) (s : State) : State :=
  if v = 3 then setFn fn { fnOf fn s with d3 := true } s
  else if v = 0 ∧ (fnOf fn s).d3 then fnReset fn s
  else s

/-- A write of a configuration field. -/
def cfgWrite (fn : Nat) (f : CfgField) (v : Long) (s : State) : State :=
  let w := v.toNat
  match f with
  | .bar n => if n = 6 then s else setBar fn n w s
  | .romBar => setBar fn 6 w s
  | .command =>
    let s := setFn fn { fnOf fn s with memEnable := w.testBit 1 } s
    if w.testBit 2 = (fnOf fn s).bme then s else setBme fn (w.testBit 2) s
  | .powerState => setPower fn (w % 4) s
  | .msixControl => flushVectors fn (setFn fn { fnOf fn s with msixEnable := w.testBit 15, fnMask := w.testBit 14 } s)
  | .msixMask n => setMask fn n (w.testBit 0) s
  | _ => s

/-- The first 200 ms (27 R589). -/
def retryTicks : Nat := 200 * ticksMs

/-- HOST_CONFIG_REQUEST: answered with Request Retry Status for 200 ms after a good feed and the release of PERST_N, and otherwise with
the value, or as the write that it is. -/
def execHostConfigRequest (fn : Nat) (f : CfgField) (write : Option Long) (s : State) : Host.Outcome State Fault Refusal :=
  if !hostUp s || decide (2 ≤ fn) then .next s
  else if s.tor.tor < s.hp.since + retryTicks then .next (emit (.config fn none) s)
  else match write with
    | none => .next (emit (.config fn (some (cfgRead fn f s))) s)
    | some v => if (fnOf fn s).flr then .next (emit (.config fn none) s) else done s (emit (.config fn (some v)) (cfgWrite fn f v s))

end Sys2Proof.Machine
end

