-- ==== Sys2Proof/Machine/MaquetteCmd.lean ====
section
/-! DEFINITION. The commands of the Maquette monitor (26_maquette R568 to R579). The monitor answers while power is on, in bring-up and after
a module checkstop too, and not while a boundary scan holds the module (18 R426). -/

namespace Sys2Proof.Machine

/-- The monitor runs. -/
def mqUp (s : State) : Bool := powered s && !s.tr.scanHeld

/-- A command of a session. -/
def mqDo (ss : Session) (c : MqCmd) (s : State) : Host.Outcome State Fault Refusal :=
  if mqUp s then done s (mqSubmit (.cmd ss c) s) else .next s

/-- MQ_ID (R571). -/
def execMqId (ss : Session) (s : State) : Host.Outcome State Fault Refusal := mqDo ss .id s

/-- MQ_TOR (R571). -/
def execMqTor (ss : Session) (s : State) : Host.Outcome State Fault Refusal := mqDo ss .tor s

/-- MQ_PATINA (R571). -/
def execMqPatina (ss : Session) (first last : Nat) (s : State) : Host.Outcome State Fault Refusal := mqDo ss (.patina first last) s

/-- MQ_FLT (R571). -/
def execMqFlt (ss : Session) (n : Nat) (s : State) : Host.Outcome State Fault Refusal := mqDo ss (.flt n) s

/-- MQ_PLINTH (R571). -/
def execMqPlinth (ss : Session) (s : State) : Host.Outcome State Fault Refusal := mqDo ss .plinth s

/-- MQ_JNL (R571). -/
def execMqJnl (ss : Session) (index : Option Nat) (s : State) : Host.Outcome State Fault Refusal := mqDo ss (.jnl index) s

/-- MQ_LINK (R571). -/
def execMqLink (ss : Session) (p : Option PortId) (s : State) : Host.Outcome State Fault Refusal :=
  if p.all portExists then mqDo ss (.link p) s else if mqUp s then done s (mqSubmit (.bad ss 3) s) else .next s

/-- MQ_BAUD (R568). -/
def execMqBaud (ss : Session) (rate : Nat) (s : State) : Host.Outcome State Fault Refusal := mqDo ss (.baud rate) s

/-- BAUD_TIMEOUT (R568): no complete line within 10 s at the new rate. -/
def execBaudTimeout (s : State) : Host.Outcome State Fault Refusal :=
  match s.mq.baudSince with
  | some t =>
    if mqUp s && decide (t + 10 * ticksS ≤ s.tor.tor) then .next { s with mq := { s.mq with baud := s.mq.oldBaud, baudSince := none } } else .next s
  | none => .next s

/-- MQ_GRANT (R574). -/
def execMqGrant (ss : Session) (sc : Scope) (offset : Option Nat) (s : State) : Host.Outcome State Fault Refusal := mqDo ss (.grant sc offset) s

/-- TOKEN_LINE (R574). -/
def execTokenLine (ss : Session) (line : List Byte) (s : State) : Host.Outcome State Fault Refusal :=
  if mqUp s && ((sessionOf ss s).await.isSome || mqBusy s) then done s (mqSubmit (.line ss line) s) else .next s

/-- MQ_RELEASE (R576). -/
def execMqRelease (ss : Session) (s : State) : Host.Outcome State Fault Refusal := mqDo ss .release s

/-- GRANT_EXPIRY (R576). -/
def execGrantExpiry (ss : Session) (s : State) : Host.Outcome State Fault Refusal :=
  match (sessionOf ss s).grant with
  | some (_, t) => if mqUp s && decide (t ≤ s.tor.tor) then .next (setSession ss { sessionOf ss s with grant := none } s) else .next s
  | none => .next s

/-- MQ_MEM_R (R572). -/
def execMqMemR (ss : Session) (addr count : Nat) (s : State) : Host.Outcome State Fault Refusal := mqDo ss (.memR addr count) s

/-- MQ_MEM_W (R572). -/
def execMqMemW (ss : Session) (addr : Nat) (val : Long) (s : State) : Host.Outcome State Fault Refusal := mqDo ss (.memW addr val) s

/-- MQ_CORE_HALT (R572). -/
def execMqCoreHalt (ss : Session) (l : Nat) (s : State) : Host.Outcome State Fault Refusal := mqDo ss (.halt l) s

/-- MQ_CORE_STEP (R573). -/
def execMqCoreStep (ss : Session) (l : Nat) (s : State) : Host.Outcome State Fault Refusal := mqDo ss (.step l) s

/-- MQ_CORE_RUN (R572). -/
def execMqCoreRun (ss : Session) (l : Nat) (s : State) : Host.Outcome State Fault Refusal := mqDo ss (.run l) s

/-- MQ_CORE_REGS (R572). -/
def execMqCoreRegs (ss : Session) (l : Nat) (s : State) : Host.Outcome State Fault Refusal := mqDo ss (.regs l) s

/-- MQ_RECAST (R572). -/
def execMqRecast (ss : Session) (l : Nat) (s : State) : Host.Outcome State Fault Refusal := mqDo ss (.recast l) s

/-- MAILBOX_LINE (R578). -/
def execMailboxLine (s : State) : Host.Outcome State Fault Refusal := if mqUp s then done s (mqSubmit .mailbox s) else .next s

/-- MQ_RX_CHARACTER (R569). -/
def execMqRxCharacter (c : Byte) (s : State) : Host.Outcome State Fault Refusal := if mqUp s then done s (rxChar c s) else .next s

end Sys2Proof.Machine
end

