-- ==== Sys2Proof/Machine/RaspCmd.lean ====
section
/-! DEFINITION. The commands of the Rasp engines: a job taken, and its end (17_rasp R394, R403 to R406). -/

namespace Sys2Proof.Machine

/-- COMPRESS: engine k takes the next job, where that is no DECOMPRESS; an undefined opcode ends with `PARAM_ERROR` (R395). -/
def execCompress (k : Nat) (s : State) : Host.Outcome State Fault Refusal := done s (chWakeAll (raspTake k (fun op => op != 2) s))

/-- DECOMPRESS. -/
def execDecompress (k : Nat) (s : State) : Host.Outcome State Fault Refusal := done s (chWakeAll (raspTake k (fun op => op == 2) s))

/-- The job of an engine ends; a parity error of the engine is an event for the job's partition (R405; 21 R478). -/
def raspComplete (k : Nat) (parity : Bool) (s : State) : State :=
  match (raspOf k s).job with
  | none => s
  | some j => chWakeAll (raspTryEnd k parity (if parity then raise (srcRasp k) 0x05 (some j.part) 0 s else s))

/-- RASP_JOB_COMPLETE. -/
def execRaspJobComplete (k : Nat) (parity : Bool) (s : State) : Host.Outcome State Fault Refusal :=
  if operating s ∧ k < 8 then done s (raspComplete k parity s) else .next s

end Sys2Proof.Machine
end

