-- ==== Sys2Proof/Machine/RecastCmd.lean ====
section
/-! DEFINITION. The commands of recast (20_retry_recast R465 to R475). -/

namespace Sys2Proof.Machine

/-- `RECAST_CMD` RECAST (20 R474, R475), written by the service core only. -/
def execRecast (v : View) (l : Nat) (s : State) : Host.Outcome State Fault Refusal :=
  if v = .service ∧ operating s then done s (recastCommand l s) else .next s

/-- RECAST_SEQUENCE (R465, R466): a hard trigger at once; a predictive or commanded one that is due, at a group boundary. -/
def execRecastSequence (l : Nat) (t : RecastTrigger) (s : State) : Host.Outcome State Fault Refusal :=
  if !operating s || 192 ≤ l then .next s
  else if hardKind t then donePoll s (hardTrigger l t s)
  else match recastIn (l / 16) s with
    | none => .next s
    | some r =>
      if r.logical = l ∧ r.trigger = t ∧ inService l s ∧ !begun (coreOf l s) then donePoll s (beginRecast l t r.byCmd s) else .next s

/-- RECAST_COMPLETE (R466 to R470): the spare's self-check has ended. A STOP of the partition takes effect at the spare's first
group boundary (R473). -/
def execRecastComplete (l : Nat) (spareOk : Bool) (parts : BitVec 4) (storePath : Bool) (s : State) : Host.Outcome State Fault Refusal :=
  if !operating s || recState l s != 1 then .next s
  else
    let t := endRecast l spareOk parts storePath s
    let held : Bool := (coreOf l t).mqHalt || (match partOfCore l t with | some p => pstateOf p t == .stopping | none => false)
    let stop : Bool := held && !midGroup (coreOf l t) && (coreOf l t).run == .running
    donePoll s (if stop then stopCore l t else t)

end Sys2Proof.Machine
end

