-- ==== Sys2Proof/Machine/RegisterCmd.lean ====
section
/-! DEFINITION. The command of a register write (01_overview R8, R21, R22). -/

namespace Sys2Proof.Machine

/-- REGISTER_WRITE: a long written to control space by a view, at an offset of control space (service core, partition window) or of BAR0
(PF0, PF1). -/
def execRegisterWrite (v : View) (off : Nat) (val : Long) (s : State) : Host.Outcome State Fault Refusal :=
  if powered s then done s (regWrite v off val s) else .next s

end Sys2Proof.Machine
end

