-- ==== Sys2Proof/Machine/TrustCmd.lean ====
section
/-! DEFINITION. The commands of identity, attestation, entropy, re-keying and boundary scan (18_trust R415 to R429). -/

namespace Sys2Proof.Machine

/-- MODULE_REPORT (R417, R429). -/
def execModuleReport (v : View) (off : Nat) (s : State) : Host.Outcome State Fault Refusal :=
  if admin v s && operating s then done s (attCommand none off s) else .next s

/-- PARTITION_REPORT (R417, R429). -/
def execPartitionReport (v : View) (p off : Nat) (s : State) : Host.Outcome State Fault Refusal :=
  if admin v s && operating s then done s (attCommand (some p) off s) else .next s

/-- TR_PATT (R417, R429): of the partition itself, or by the service core or the host through PF0. -/
def execTrPatt (v : View) (n : Nat) (val : Long) (s : State) : Host.Outcome State Fault Refusal :=
  if operating s && (admin v s || v == .part n) then done s (pattWrite n val s) else .next s

/-- ATTESTATION_COMPLETE (R417). -/
def execAttestationComplete (which : Option Nat) (s : State) : Host.Outcome State Fault Refusal :=
  if !operating s then .next s
  else match which with
    | none => done s (attComplete s)
    | some n => done s (pattComplete n s)

/-- ENTROPY_TEST_FAIL (R421): the source stays failed until cold reset; the event code is log entry 64's. -/
def execEntropyTestFail (south : Bool) (s : State) : Host.Outcome State Fault Refusal :=
  if !operating s then .next s
  else if south then
    if s.tr.esS then .next s else done s (raise (srcEntropy true) 0x0F none 0 { s with tr := { s.tr with esS := true } })
  else if s.tr.esN then .next s
  else done s (raise (srcEntropy false) 0x0F none 0 { s with tr := { s.tr with esN := true } })

/-- A DRBG instance is due to reseed (R421): after 2^20 requests or 1 s of TOR, while a source works. -/
def reseedDue (inst : Nat) (s : State) : Bool :=
  let d := tget {} inst s.tr.drbg
  !(s.tr.esN && s.tr.esS) && (decide (2 ^ 20 ≤ d.requests) || decide (d.seeded + ticksS ≤ s.tor.tor)) && (inst == 48 || (partOf inst s).isSome)

/-- DRBG_RESEED (R421). -/
def execDrbgReseed (inst : Option Nat) (s : State) : Host.Outcome State Fault Refusal :=
  let n := inst.getD 48
  if operating s && reseedDue n s then done s (reseed n s) else .next s

/-- REKEY_REQUEST (R427): another module asks for the storage key of a partition that spans this one to be replaced, and is answered. -/
def execRekeyRequest (src : Nat) (sc : Scope) (uuid : List Byte) (s : State) : Host.Outcome State Fault Refusal :=
  if !operating s || (tget none src s.arm.db).isNone then .next s
  else
    let mine := (partIds s).find? (fun p => uuidOf p s == uuid)
    let t := match mine with
      | some p => (match partOf p s with | some d => if homedHere d s then replaceKey p d.extents s else s | none => s)
      | none => s
    done s (emit (.rekey src sc true) t)

/-- A module has acknowledged its part of a grant's destruction (R427). -/
def rekeyed (n : Nat) (g : PendGrant) (s : State) : State :=
  grantSettle { g with waiting := g.waiting.filter (fun k => k != n) } s

/-- REKEY_ACK (R427). -/
def execRekeyAck (src : Nat) (sc : Scope) (s : State) : Host.Outcome State Fault Refusal :=
  match s.tr.pend, sc with
  | some g, .partition p => if operating s && g.waiting.contains (src * 64 + p) then donePoll s (rekeyed (src * 64 + p) g s) else .next s
  | _, _ => .next s

/-- GRANT_DESTRUCTION_TIMEOUT (R427): a grant not complete within 100 ms is refused. -/
def execGrantDestructionTimeout (s : State) : Host.Outcome State Fault Refusal :=
  match s.tr.pend with
  | some g =>
    if operating s && decide (g.since + 100 * ticksMs ≤ s.tor.tor) then
      donePoll s (respondToken g.session "destroy" { s with tr := { s.tr with pend := none } })
    else .next s
  | none => .next s

/-- The board-test instructions that destroy keys (R426). -/
def scanDestroys : ScanInstr → Bool
  | .extest => true
  | .intest => true
  | .clamp => true
  | .bypass => false
  | .idcode => false
  | .samplePreload => false

/-- BOUNDARY_SCAN (R426): every key held outside fuses is destroyed, and the module is held in reset until a cold reset. -/
def execBoundaryScan (i : ScanInstr) (s : State) : Host.Outcome State Fault Refusal :=
  if powered s && scanDestroys i then
    let t := wipe true s
    done s { t with tr := { t.tr with scanHeld := true } }
  else .next s

end Sys2Proof.Machine
end

