-- ==== Sys2Proof/Machine/Dispatch.lean ====
section
/-! DEFINITION. Which meaning each command has: one arm per constructor of Instr, in the order of spec/opcode_table.json. -/

namespace Sys2Proof.Machine

def exec (i : Instr) (s : State) : Host.Outcome State Fault Refusal :=
  match i with
  | .issueGroup l failed => Sys2Proof.Machine.execIssueGroup l failed s
  | .waitevDeadline l => Sys2Proof.Machine.execWaitevDeadline l s
  | .storeBufferPerform l idx system eccBad => Sys2Proof.Machine.execStoreBufferPerform l idx system eccBad s
  | .externalInterruption l => Sys2Proof.Machine.execExternalInterruption l s
  | .ioInterruption l => Sys2Proof.Machine.execIoInterruption l s
  | .machineCheck l => Sys2Proof.Machine.execMachineCheck l s
  | .torComparatorFire l n => Sys2Proof.Machine.execTorComparatorFire l n s
  | .ppsEdge => Sys2Proof.Machine.execPpsEdge s
  | .todFrame bytes => Sys2Proof.Machine.execTodFrame bytes s
  | .refLoss => Sys2Proof.Machine.execRefLoss s
  | .timeExchange p offset quality => Sys2Proof.Machine.execTimeExchange p offset quality s
  | .refDisable v on => Sys2Proof.Machine.execRefDisable v on s
  | .fabricDisable v on => Sys2Proof.Machine.execFabricDisable v on s
  | .heldWriteRelease idx => Sys2Proof.Machine.execHeldWriteRelease idx s
  | .loadFull v => Sys2Proof.Machine.execLoadFull v s
  | .loadPartial v => Sys2Proof.Machine.execLoadPartial v s
  | .storeA v => Sys2Proof.Machine.execStoreA v s
  | .storeB v => Sys2Proof.Machine.execStoreB v s
  | .plinthChecksComplete flashOk => Sys2Proof.Machine.execPlinthChecksComplete flashOk s
  | .applyingEnd => Sys2Proof.Machine.execApplyingEnd s
  | .start v p => Sys2Proof.Machine.execStart v p s
  | .stop v p => Sys2Proof.Machine.execStop v p s
  | .partitionStopped p => Sys2Proof.Machine.execPartitionStopped p s
  | .partReset v p => Sys2Proof.Machine.execPartReset v p s
  | .moduleReset v => Sys2Proof.Machine.execModuleReset v s
  | .coldReset c => Sys2Proof.Machine.execColdReset c s
  | .resetN ns => Sys2Proof.Machine.execResetN ns s
  | .bringupStepComplete failSlots => Sys2Proof.Machine.execBringupStepComplete failSlots s
  | .governorEpoch r => Sys2Proof.Machine.execGovernorEpoch r s
  | .recast v l => Sys2Proof.Machine.execRecast v l s
  | .recastSequence l t => Sys2Proof.Machine.execRecastSequence l t s
  | .recastComplete l spareOk parts storePath => Sys2Proof.Machine.execRecastComplete l spareOk parts storePath s
  | .dramRequest r => Sys2Proof.Machine.execDramRequest r s
  | .refreshTick n => Sys2Proof.Machine.execRefreshTick n s
  | .refreshIdle n => Sys2Proof.Machine.execRefreshIdle n s
  | .recentre low => Sys2Proof.Machine.execRecentre low s
  | .patrolScrub n err => Sys2Proof.Machine.execPatrolScrub n err s
  | .speed v n arg => Sys2Proof.Machine.execSpeed v n arg s
  | .trainingComplete rs => Sys2Proof.Machine.execTrainingComplete rs s
  | .caParityAlert n => Sys2Proof.Machine.execCaParityAlert n s
  | .flitReceive p flit errs => Sys2Proof.Machine.execFlitReceive p flit errs s
  | .nakRepeat p => Sys2Proof.Machine.execNakRepeat p s
  | .replayTimeout p => Sys2Proof.Machine.execReplayTimeout p s
  | .alignmentSlot p missed skewed => Sys2Proof.Machine.execAlignmentSlot p missed skewed s
  | .laneSignalDetect p lanes => Sys2Proof.Machine.execLaneSignalDetect p lanes s
  | .equaliseComplete p lanes => Sys2Proof.Machine.execEqualiseComplete p lanes s
  | .alignComplete p peerGood => Sys2Proof.Machine.execAlignComplete p peerGood s
  | .linkInitFlit p kindOk peerGood buffers => Sys2Proof.Machine.execLinkInitFlit p kindOk peerGood buffers s
  | .linkStateTimeout p => Sys2Proof.Machine.execLinkStateTimeout p s
  | .recoveryComplete p lanes peerGood => Sys2Proof.Machine.execRecoveryComplete p lanes peerGood s
  | .downExpiry p => Sys2Proof.Machine.execDownExpiry p s
  | .widthFlit p mask => Sys2Proof.Machine.execWidthFlit p mask s
  | .widthFlitRepeat p => Sys2Proof.Machine.execWidthFlitRepeat p s
  | .linkKeyRotation p => Sys2Proof.Machine.execLinkKeyRotation p s
  | .keyPhaseErase p => Sys2Proof.Machine.execKeyPhaseErase p s
  | .linkDisable v p on => Sys2Proof.Machine.execLinkDisable v p on s
  | .retrain v p => Sys2Proof.Machine.execRetrain v p s
  | .cntClr v p => Sys2Proof.Machine.execCntClr v p s
  | .laneOff v p mask => Sys2Proof.Machine.execLaneOff v p mask s
  | .laneRetry v p mask => Sys2Proof.Machine.execLaneRetry v p mask s
  | .hello p version serial node nodeMode peerPort nonce => Sys2Proof.Machine.execHello p version serial node nodeMode peerPort nonce s
  | .identity p certs ownerHash report => Sys2Proof.Machine.execIdentity p certs ownerHash report s
  | .kemOffer p ek ecPub => Sys2Proof.Machine.execKemOffer p ek ecPub s
  | .kemReply p ct ecPub => Sys2Proof.Machine.execKemReply p ct ecPub s
  | .confirm p mac => Sys2Proof.Machine.execConfirm p mac s
  | .nodeIdClaim => Sys2Proof.Machine.execNodeIdClaim s
  | .alone => Sys2Proof.Machine.execAlone s
  | .linkStateAdvertisement p a => Sys2Proof.Machine.execLinkStateAdvertisement p a s
  | .memberTimeout node => Sys2Proof.Machine.execMemberTimeout node s
  | .epochAnnounce rx => Sys2Proof.Machine.execEpochAnnounce rx s
  | .routeEpochSwitch => Sys2Proof.Machine.execRouteEpochSwitch s
  | .routeTableRetire => Sys2Proof.Machine.execRouteTableRetire s
  | .msgRead m => Sys2Proof.Machine.execMsgRead m s
  | .msgReadOwn m => Sys2Proof.Machine.execMsgReadOwn m s
  | .msgUpgrade m => Sys2Proof.Machine.execMsgUpgrade m s
  | .msgWriteback m => Sys2Proof.Machine.execMsgWriteback m s
  | .msgUncached m => Sys2Proof.Machine.execMsgUncached m s
  | .msgSnoop m => Sys2Proof.Machine.execMsgSnoop m s
  | .msgData m => Sys2Proof.Machine.execMsgData m s
  | .msgDone m => Sys2Proof.Machine.execMsgDone m s
  | .messageResend tag => Sys2Proof.Machine.execMessageResend tag s
  | .requestUnreachable tag => Sys2Proof.Machine.execRequestUnreachable tag s
  | .snoopTimeout line => Sys2Proof.Machine.execSnoopTimeout line s
  | .leave v => Sys2Proof.Machine.execLeave v s
  | .rejoin v => Sys2Proof.Machine.execRejoin v s
  | .removeReqN asserted => Sys2Proof.Machine.execRemoveReqN asserted s
  | .enterLeft => Sys2Proof.Machine.execEnterLeft s
  | .cpTake hub => Sys2Proof.Machine.execCpTake hub s
  | .priorityAging idx => Sys2Proof.Machine.execPriorityAging idx s
  | .waitTorExpiry idx => Sys2Proof.Machine.execWaitTorExpiry idx s
  | .dataFrame n f => Sys2Proof.Machine.execDataFrame n f s
  | .statusFrame n f => Sys2Proof.Machine.execStatusFrame n f s
  | .haltTimeout idx => Sys2Proof.Machine.execHaltTimeout idx s
  | .csSubchWrite v idx val => Sys2Proof.Machine.execCsSubchWrite v idx val s
  | .mirror m => Sys2Proof.Machine.execMirror m s
  | .mirrorAck m => Sys2Proof.Machine.execMirrorAck m s
  | .mirrorTimeout idx => Sys2Proof.Machine.execMirrorTimeout idx s
  | .pairingExchange info => Sys2Proof.Machine.execPairingExchange info s
  | .resyncComplete => Sys2Proof.Machine.execResyncComplete s
  | .latClr v => Sys2Proof.Machine.execLatClr v s
  | .subchCopy rx => Sys2Proof.Machine.execSubchCopy rx s
  | .heartbeatSend => Sys2Proof.Machine.execHeartbeatSend s
  | .heartbeat path l0 l1 => Sys2Proof.Machine.execHeartbeat path l0 l1 s
  | .heartbeatMiss path => Sys2Proof.Machine.execHeartbeatMiss path s
  | .holddownExpiry => Sys2Proof.Machine.execHolddownExpiry s
  | .failbackNow v => Sys2Proof.Machine.execFailbackNow v s
  | .enable v b q => Sys2Proof.Machine.execEnable v b q s
  | .disable v b q => Sys2Proof.Machine.execDisable v b q s
  | .resume v b q => Sys2Proof.Machine.execResume v b q s
  | .queueDoorbell v b q val => Sys2Proof.Machine.execQueueDoorbell v b q val s
  | .compress k => Sys2Proof.Machine.execCompress k s
  | .decompress k => Sys2Proof.Machine.execDecompress k s
  | .raspJobComplete k parity => Sys2Proof.Machine.execRaspJobComplete k parity s
  | .encrypt k => Sys2Proof.Machine.execEncrypt k s
  | .decrypt k => Sys2Proof.Machine.execDecrypt k s
  | .macGen k => Sys2Proof.Machine.execMacGen k s
  | .macVerify k => Sys2Proof.Machine.execMacVerify k s
  | .hash k => Sys2Proof.Machine.execHash k s
  | .kwWrap k => Sys2Proof.Machine.execKwWrap k s
  | .kwUnwrap k => Sys2Proof.Machine.execKwUnwrap k s
  | .genkey k => Sys2Proof.Machine.execGenkey k s
  | .unwrap k => Sys2Proof.Machine.execUnwrap k s
  | .wrap k => Sys2Proof.Machine.execWrap k s
  | .clear k => Sys2Proof.Machine.execClear k s
  | .urgentSuspend k => Sys2Proof.Machine.execUrgentSuspend k s
  | .intaglioRequestComplete k fault => Sys2Proof.Machine.execIntaglioRequestComplete k fault s
  | .moduleReport v off => Sys2Proof.Machine.execModuleReport v off s
  | .partitionReport v p off => Sys2Proof.Machine.execPartitionReport v p off s
  | .trPatt v n val => Sys2Proof.Machine.execTrPatt v n val s
  | .attestationComplete which => Sys2Proof.Machine.execAttestationComplete which s
  | .entropyTestFail south => Sys2Proof.Machine.execEntropyTestFail south s
  | .drbgReseed inst => Sys2Proof.Machine.execDrbgReseed inst s
  | .rekeyRequest src sc uuid => Sys2Proof.Machine.execRekeyRequest src sc uuid s
  | .rekeyAck src sc => Sys2Proof.Machine.execRekeyAck src sc s
  | .boundaryScan idx => Sys2Proof.Machine.execBoundaryScan idx s
  | .hostWindowRead w addr len => Sys2Proof.Machine.execHostWindowRead w addr len s
  | .hostWindowWrite w addr data ep => Sys2Proof.Machine.execHostWindowWrite w addr data ep s
  | .hostCompletion tag data ep => Sys2Proof.Machine.execHostCompletion tag data ep s
  | .completionTimeout tag => Sys2Proof.Machine.execCompletionTimeout tag s
  | .commit v mask => Sys2Proof.Machine.execCommit v mask s
  | .claim v kind q => Sys2Proof.Machine.execClaim v kind q s
  | .qpRelease v q => Sys2Proof.Machine.execQpRelease v q s
  | .mailboxInbound q => Sys2Proof.Machine.execMailboxInbound q s
  | .mailboxOutbound q => Sys2Proof.Machine.execMailboxOutbound q s
  | .flr fn => Sys2Proof.Machine.execFlr fn s
  | .perstN asserted => Sys2Proof.Machine.execPerstN asserted s
  | .hotReset => Sys2Proof.Machine.execHotReset s
  | .busMasterEnable fn on => Sys2Proof.Machine.execBusMasterEnable fn on s
  | .faultEvent src code part detail holds => Sys2Proof.Machine.execFaultEvent src code part detail holds s
  | .reportingPathFault die reporter code part => Sys2Proof.Machine.execReportingPathFault die reporter code part s
  | .graceExpiry src => Sys2Proof.Machine.execGraceExpiry src s
  | .pendingClear v src setNow => Sys2Proof.Machine.execPendingClear v src setNow s
  | .patinaClear v first last => Sys2Proof.Machine.execPatinaClear v first last s
  | .unfence v src => Sys2Proof.Machine.execUnfence v src s
  | .patinaSnapshot => Sys2Proof.Machine.execPatinaSnapshot s
  | .errNPulseEnd => Sys2Proof.Machine.execErrNPulseEnd s
  | .csStoreA v flashOk => Sys2Proof.Machine.execCsStoreA v flashOk s
  | .csStoreB v flashOk => Sys2Proof.Machine.execCsStoreB v flashOk s
  | .csScrub n => Sys2Proof.Machine.execCsScrub n s
  | .csRepairDone n dramOk flashOk => Sys2Proof.Machine.execCsRepairDone n dramOk flashOk s
  | .inject v kind => Sys2Proof.Machine.execInject v kind s
  | .feedSwitch a b => Sys2Proof.Machine.execFeedSwitch a b s
  | .feedReturn a b => Sys2Proof.Machine.execFeedReturn a b s
  | .feedLoss a b => Sys2Proof.Machine.execFeedLoss a b s
  | .thermtrip sensor => Sys2Proof.Machine.execThermtrip sensor s
  | .hotInsertion resetLow => Sys2Proof.Machine.execHotInsertion resetLow s
  | .prsntDeassert => Sys2Proof.Machine.execPrsntDeassert s
  | .clockLoss c => Sys2Proof.Machine.execClockLoss c s
  | .smb4ReadWord code => Sys2Proof.Machine.execSmb4ReadWord code s
  | .mqId ss => Sys2Proof.Machine.execMqId ss s
  | .mqTor ss => Sys2Proof.Machine.execMqTor ss s
  | .mqPatina ss first last => Sys2Proof.Machine.execMqPatina ss first last s
  | .mqFlt ss n => Sys2Proof.Machine.execMqFlt ss n s
  | .mqPlinth ss => Sys2Proof.Machine.execMqPlinth ss s
  | .mqJnl ss index => Sys2Proof.Machine.execMqJnl ss index s
  | .mqLink ss p => Sys2Proof.Machine.execMqLink ss p s
  | .mqBaud ss rate => Sys2Proof.Machine.execMqBaud ss rate s
  | .baudTimeout => Sys2Proof.Machine.execBaudTimeout s
  | .mqGrant ss sc offset => Sys2Proof.Machine.execMqGrant ss sc offset s
  | .tokenLine ss line => Sys2Proof.Machine.execTokenLine ss line s
  | .mqRelease ss => Sys2Proof.Machine.execMqRelease ss s
  | .grantExpiry ss => Sys2Proof.Machine.execGrantExpiry ss s
  | .mqMemR ss addr count => Sys2Proof.Machine.execMqMemR ss addr count s
  | .mqMemW ss addr val => Sys2Proof.Machine.execMqMemW ss addr val s
  | .mqCoreHalt ss l => Sys2Proof.Machine.execMqCoreHalt ss l s
  | .mqCoreStep ss l => Sys2Proof.Machine.execMqCoreStep ss l s
  | .mqCoreRun ss l => Sys2Proof.Machine.execMqCoreRun ss l s
  | .mqCoreRegs ss l => Sys2Proof.Machine.execMqCoreRegs ss l s
  | .mqRecast ss l => Sys2Proof.Machine.execMqRecast ss l s
  | .mailboxLine => Sys2Proof.Machine.execMailboxLine s
  | .registerWrite v off val => Sys2Proof.Machine.execRegisterWrite v off val s
  | .laneRetryComplete p l => Sys2Proof.Machine.execLaneRetryComplete p l s
  | .laneLockLoss p lane => Sys2Proof.Machine.execLaneLockLoss p lane s
  | .grantDestructionTimeout => Sys2Proof.Machine.execGrantDestructionTimeout s
  | .hostLinkTrained width rate flit => Sys2Proof.Machine.execHostLinkTrained width rate flit s
  | .functionResetComplete fn => Sys2Proof.Machine.execFunctionResetComplete fn s
  | .vkaLoss => Sys2Proof.Machine.execVkaLoss s
  | .feedGoodChange a b vka => Sys2Proof.Machine.execFeedGoodChange a b vka s
  | .clockReturn c => Sys2Proof.Machine.execClockReturn c s
  | .mqRxCharacter c => Sys2Proof.Machine.execMqRxCharacter c s
  | .hostConfigRequest fn f write => Sys2Proof.Machine.execHostConfigRequest fn f write s

end Sys2Proof.Machine
end

