-- ==== Sys2Proof/Machine/Tick.lean ====
section
/-! DEFINITION. What passes with time when no command waits: one tick of TOR (03_time_of_record R55, R57). -/

namespace Sys2Proof.Machine

/-- The keep-alive domain is powered (25 R551). -/
def keepAlive (s : State) : Bool := s.pwr.on || s.pwr.aOk || s.pwr.bOk || s.pwr.vkaOk

/-- One tick: TOR advances by 1 while the keep-alive domain is powered, from VKA or a feed. It takes no time from the clocks of the carrier,
so that it counts whichever of them is lost (27 R587). -/
def tickTor (s : State) : State := if keepAlive s then { s with tor := { s.tor with tor := (s.tor.tor + 1) % 2 ^ 64 } } else s

/-- A tick; a wait of the monitor that is over by then ends (26 R577). -/
def idle (s : State) : Host.Outcome State Fault Refusal :=
  if mqBusy s && powered s && !s.tr.scanHeld then donePoll s (tickTor s) else .next (tickTor s)

end Sys2Proof.Machine
end

