-- ==== Sys2Proof/Machine/Package.lean ====
section
/-! DEFINITION. The package as the outside sees it: the levels of the output pins, the reference clocks, and what each of the 9,216 lands
carries (27_electrical_package R582 to R584, R587, R592 to R599). -/

namespace Sys2Proof.Machine

/-! ### Output pins (R582, R583) -/

/-- The low-speed pins whose level the state decides. -/
inductive OutPin where
  | pwrAOk
  | pwrBOk
  | pwrSrc
  | removeOk
  | errN
  | checkstopN
  | thermtripN
  | alertN
deriving DecidableEq, Repr

/-- The level of a pin; an open-drain pin is released where it is not driven low. -/
inductive PinLevel where
  | low
  | high
  | released
deriving DecidableEq, Repr

/-- A push-pull output (R582). -/
def pushPull (v : Bool) : PinLevel := if v then .high else .low

/-- An open-drain output that is driven low (R582). -/
def openDrain (v : Bool) : PinLevel := if v then .low else .released

/-- A 48 V feed or VKA is present (R583). -/
def anySupply (s : State) : Bool := s.pwr.on || s.pwr.aOk || s.pwr.bOk || s.pwr.vkaOk

/-- The level of an output pin: without any supply the power pins read low and the others are released (R583, R584; 25 R548, R554, R566;
21 R489, R490). -/
def pinLevel (p : OutPin) (s : State) : PinLevel :=
  match p with
  | .pwrAOk => pushPull (anySupply s && s.pwr.aOk)
  | .pwrBOk => pushPull (anySupply s && s.pwr.bOk)
  | .pwrSrc => pushPull (anySupply s && s.pwr.srcB)
  | .removeOk => pushPull (s.pwr.on && s.pin.removeOk)
  | .errN => openDrain (anySupply s && errNLow s)
  | .checkstopN => openDrain (anySupply s && s.flt.checkstop)
  | .thermtripN => openDrain (anySupply s && s.pwr.tripped)
  | .alertN => openDrain (s.pwr.on && s.pwr.throttle)

/-! ### Reference clocks (R587) -/

/-- A reference clock: its frequency in kHz, and its tolerance in ppm and jitter in fs where the manual gives them. -/
structure RefClock where
  kHz : Nat
  ppm : Option Nat
  jitterFs : Option Nat
deriving DecidableEq, Repr

/-- The clocks that the carrier provides (R587). TOR takes no time from any of them. -/
def refClock : ClockId → RefClock
  | .sys => { kHz := 100000, ppm := some 100, jitterFs := some 1000 }
  | .sdsNorth => { kHz := 156250, ppm := some 100, jitterFs := some 150 }
  | .sdsSouth => { kHz := 156250, ppm := some 100, jitterFs := some 150 }
  | .hp => { kHz := 100000, ppm := none, jitterFs := none }

/-! ### Lands (R592 to R598) -/

/-- What a land carries (R593): lanes by their port, `tx` and the polarity `neg`; the signal `k` of a DRAM channel (R596); a miscellaneous
signal by its position (R597). -/
inductive Land where
  | gnd
  | vinA
  | vinB
  | vka
  | test (n : Nat)
  | lane (p : PortId) (l : Nat) (tx neg : Bool)
  | host (l : Nat) (tx neg : Bool)
  | ddr (n k : Nat)
  | misc (k : Nat)
deriving DecidableEq, Repr

/-- The land at local column `u` and row `v` of a cell (R594). -/
def cellLand (f : Bool → Bool → Land) (u v : Nat) : Land :=
  if u = 0 ∨ v = 1 then .gnd else f (v == 0) (u == 2)

/-- A land of a lane field at offset (c, r): its cell, and the place in it (R594). -/
def fieldLand (f : Nat → Bool → Bool → Land) (c r : Nat) : Land := cellLand (f (8 * (r / 3) + c / 3)) (c % 3) (r % 3)

/-- The lanes of the cells of a hub's field (R594): four Armature ports from `arm`, then six channel ports from `ch`. -/
def hubLane (arm ch index : Nat) (tx neg : Bool) : Land :=
  if index < 32 then .lane (.arm (arm + index / 8)) (index % 8) tx neg else .lane (.ch (ch + (index - 32) / 4)) ((index - 32) % 4) tx neg

/-- A land of the DRAM blocks at column c, row j of the block counted from the edge; `first` is the block row's first channel (R595). -/
def ddrLand (first c j : Nat) : Land :=
  let i := (c - 5) % 11
  match [1, 2, 4, 5, 7, 8, 10].findIdx? (· == i) with
  | some p => .ddr (first + (c - 5) / 11) (7 * j + p)
  | none => .gnd

/-- A land lies in a rectangle of columns and rows. -/
def landIn (c r c0 c1 r0 r1 : Nat) : Bool := decide (c0 ≤ c) && decide (c ≤ c1) && decide (r0 ≤ r) && decide (r ≤ r1)

/-- The lands of R598, which precede every other rule. -/
def landException (c r : Nat) : Option Land :=
  if r ≠ 52 ∨ c % 2 = 1 then none
  else if 40 ≤ c ∧ c ≤ 46 then some .vka
  else if 50 ≤ c ∧ c ≤ 56 then some (.test ((c - 50) / 2))
  else none

/-- The miscellaneous position of a land, if it is one (R597). -/
def miscPosition (c r : Nat) : Option Nat :=
  if landIn c r 30 64 46 50 && c % 2 == 0 && r % 2 == 0 then some (18 * ((r - 46) / 2) + (c - 30) / 2) else none

/-- What land c.r carries: the rules of R593 in their order. -/
def landAt (c r : Nat) : Land :=
  match landException c r, miscPosition c r with
  | some x, _ => x
  | none, some k => if k ≤ 48 then .misc k else .gnd
  | none, none =>
    if landIn c r 2 9 45 52 then .vinA
    else if landIn c r 88 95 45 52 then .vinB
    else if landIn c r 2 25 24 44 then fieldLand (hubLane 0 0) (c - 2) (r - 24)
    else if landIn c r 72 95 53 73 then fieldLand (hubLane 4 6) (c - 72) (r - 53)
    else if landIn c r 72 95 24 29 then fieldLand .host (c - 72) (r - 24)
    else if landIn c r 5 92 2 23 then ddrLand 0 c (r - 2)
    else if landIn c r 5 92 74 95 then ddrLand 8 c (95 - r)
    else .gnd

/-- The lands that precharge VIN_A and VIN_B: row 45 of each field (R592; 25 R565). -/
def precharge (c r : Nat) : Bool := r == 45 && (landAt c r == .vinA || landAt c r == .vinB)

/-- The centre of land c.r from the package centre, x eastwards and y northwards, in hundredths of a millimetre (R592). -/
def landCentre (c r : Nat) : Int × Int := (94 * ((c : Int) - 1) - 4465, 4465 - 94 * ((r : Int) - 1))

/-! ### Signal names (R594, R596, R597) -/

/-- The signals of the miscellaneous positions (R597). -/
def miscNames : List String :=
  ["HP_CLK_P", "HP_CLK_N", "PERST_N", "SDS_CLKN_P", "SDS_CLKN_N", "SDS_CLKS_P", "SDS_CLKS_N", "SYS_CLK_P", "SYS_CLK_N", "QSPI_CLK", "QSPI_CS_N"] ++
  (List.range 4).map (fun n => "QSPI_IO" ++ toString n) ++
  (List.range 5).flatMap (fun n => ["SMB" ++ toString n ++ "_SCL", "SMB" ++ toString n ++ "_SDA"]) ++
  ["SMB4_ALERT_N", "PPS_IN", "TOD_IN", "HB_TX_P", "HB_TX_N", "HB_RX_P", "HB_RX_N", "MQ_TX", "MQ_RX", "TCK", "TMS", "TDI", "TDO", "TRST_N"] ++
  ["ERR_N", "CHECKSTOP_N", "THERMTRIP_N", "PRSNT_N", "REMOVE_REQ_N", "REMOVE_OK", "PWR_A_OK", "PWR_B_OK", "PWR_SRC", "RESET_N"]

/-- The signal of a subchannel at offset `t` (R596). -/
def subSignal (t : Nat) : String :=
  if t < 40 then "DQ" ++ toString t
  else if t < 60 then (if t % 2 = 0 then "DQS_T" else "DQS_C") ++ toString ((t - 40) / 2)
  else if t < 67 then "CA" ++ toString (t - 60)
  else if t < 71 then "CS_N" ++ toString (t - 67)
  else if t < 75 then (if t % 2 = 1 then "CK_T" else "CK_C") ++ toString ((t - 71) / 2)
  else "PAR"

/-- The signal `k` of DRAM channel n (R596). -/
def ddrSignal (n k : Nat) : String :=
  "DDR" ++ toString n ++ "_" ++
    (if k < 76 then "A_" ++ subSignal k else if k < 152 then "B_" ++ subSignal (k - 76) else if k = 152 then "ALERT_N" else "DRST_N")

/-- The name of a lane's land (R594). -/
def laneName (port : String) (l : Nat) (tx neg : Bool) : String :=
  port ++ (if tx then "_TX" else "_RX") ++ toString l ++ (if neg then "_N" else "_P")

/-- The name of what a land carries. -/
def Land.name : Land → String
  | .gnd => "GND"
  | .vinA => "VIN_A"
  | .vinB => "VIN_B"
  | .vka => "VKA"
  | .test n => "TEST" ++ toString n
  | .lane (.arm p) l tx neg => laneName ("ARM" ++ toString p) l tx neg
  | .lane (.ch n) l tx neg => laneName ("CH" ++ toString n) l tx neg
  | .host l tx neg => laneName "HP" l tx neg
  | .ddr n k => ddrSignal n k
  | .misc k => miscNames.getD k ""

end Sys2Proof.Machine
end

