-- ==== Sys2Proof/Safety.lean ====
section
/-! DEFINITION. What counts as a safe state of the module, in the terms that the statements use. -/

namespace Sys2Proof

open Sys2Proof.Machine

/-- No escalation step is left over: every step that an event made due has been taken (21_fault_collection R486, R489). -/
def Safety.settled (s : State) : Prop := s.flt.due = []

/-- Main storage is in its canonical form. -/
def Safety.memoryWf (s : State) : Prop := Memory.wf s.sto.mem = true

/-- A state between two commands. -/
def Safety.safe (s : State) : Prop := Safety.settled s ∧ Safety.memoryWf s

/-- Every source's `GRACE_US` leaves time, so that no event that the module itself finds escalates within the command (21 R486). -/
def Safety.graceful (s : State) : Prop := ∀ i, fld (reactOf i s) 55 32 ≠ 0

/-- No agent of the module waits for an answer of the Armature or of this home: a message that ends a wait wakes none of them. -/
def Safety.noneWaits (s : State) : Prop :=
  s.ch.ops = [] ∧ (∀ b q, (queueOf b q s).post = none) ∧ (∀ l, (coreOf l s).losing = none) ∧ s.pln.starting = [] ∧ s.pln.zero = [] ∧
  s.arm.later = [] ∧ s.mq.uart.mem = none ∧ s.mq.mbx.mem = none ∧
  (∀ k, (∀ j, (raspOf k s).job = some j → j.loaded = true) ∧ (∀ j, (intOf k s).job = some j → j.loaded = true) ∧ (intOf k s).posting = none)

/-- Nothing that the monitor waits for at a core or a recast is told of, and no line waits behind it (26 R572, R577). -/
def Safety.monitorStill (s : State) : Prop := (∀ e ∈ s.cpu.core, e.2.mqWait = none) ∧ s.mq.recast = none ∧ s.mq.queue = []

/-- The monitor executes no line, and none waits (26 R577). -/
def Safety.monitorIdle (s : State) : Prop := mqBusy s = false ∧ s.mq.queue = []

/-- The module's time, election and duplex fields that other modules and the host are told of at the end of a command are alike in two
states (03 R63; 24 R539). -/
def Safety.sameReport (s t : State) : Prop :=
  t.tor.refHeld = s.tor.refHeld ∧ t.tor.state = s.tor.state ∧ t.tor.fabricDisable = s.tor.fabricDisable ∧
  t.dx.state = s.dx.state ∧ t.arm.fstate = s.arm.fstate

/-- The commands of blocks that a module checkstop stops (21 R489): all but time, resets, power, clocks, pins, the control of fault
sources, the Maquette monitor, a register write and the board test. -/
def Safety.stopsWithModule : Instr → Bool
  | .ppsEdge => false
  | .todFrame _ => false
  | .refLoss => false
  | .refDisable _ _ => false
  | .fabricDisable _ _ => false
  | .moduleReset _ => false
  | .coldReset _ => false
  | .resetN _ => false
  | .boundaryScan _ => false
  | .perstN _ => false
  | .pendingClear _ _ _ => false
  | .patinaClear _ _ _ => false
  | .patinaSnapshot => false
  | .errNPulseEnd => false
  | .feedSwitch _ _ => false
  | .feedReturn _ _ => false
  | .feedLoss _ _ => false
  | .thermtrip _ => false
  | .hotInsertion _ => false
  | .prsntDeassert => false
  | .clockLoss _ => false
  | .smb4ReadWord _ => false
  | .mqId _ => false
  | .mqTor _ => false
  | .mqPatina _ _ _ => false
  | .mqFlt _ _ => false
  | .mqPlinth _ => false
  | .mqJnl _ _ => false
  | .mqLink _ _ => false
  | .mqBaud _ _ => false
  | .baudTimeout => false
  | .mqGrant _ _ _ => false
  | .tokenLine _ _ => false
  | .mqRelease _ => false
  | .grantExpiry _ => false
  | .mqMemR _ _ _ => false
  | .mqMemW _ _ _ => false
  | .mqCoreHalt _ _ => false
  | .mqCoreStep _ _ => false
  | .mqCoreRun _ _ => false
  | .mqCoreRegs _ _ => false
  | .mqRecast _ _ => false
  | .mailboxLine => false
  | .mqRxCharacter _ => false
  | .registerWrite _ _ _ => false
  | .vkaLoss => false
  | .feedGoodChange _ _ _ => false
  | .clockReturn _ => false
  | _ => true

/-- The command by which an Intaglio engine takes a request of an opcode; ENCRYPT takes an undefined one too (19 R432). -/
def Safety.intCommand (k op : Nat) : Instr :=
  match op with
  | 2 => .decrypt k
  | 3 => .macGen k
  | 4 => .macVerify k
  | 5 => .hash k
  | 6 => .kwWrap k
  | 7 => .kwUnwrap k
  | 0x10 => .genkey k
  | 0x11 => .unwrap k
  | 0x12 => .wrap k
  | 0x13 => .clear k
  | _ => .encrypt k

end Sys2Proof
end

