-- ==== Sys2Proof/Certificates/Slice0/Obligations.lean ====
section
/-! DEFINITION. The statements for the provers: what the commands of the block do, by the numbered rules of spec/. -/

open Sys2Proof Sys2Proof.Machine

/-! ### The queue, the step, the whole machine -/

/-- One step runs the command at the front of the queue on the state with the queue's rest. -/
def Obligations.StepRunsFrontCommand : Prop :=
  ∀ (c : Instr) (rest : List Instr) (s : State), s.pending = c :: rest → step s = exec c { s with pending := rest }

/-- On an empty queue a step is one tick: TOR advances by 1 while the keep-alive domain is powered (03 R55, R57; the tick on an empty queue is the
model's choice, log entry 2), and, while the monitor waits for nothing, nothing else changes. A wait of the monitor that is over by then ends in the
tick (26 R577; log entry 2), which leaves the queue empty. -/
def Obligations.EmptyQueueTicksTor : Prop :=
  ∀ s : State, s.pending = [] →
    (mqBusy s = false →
      (keepAlive s = true → step s = .next { s with tor := { s.tor with tor := (s.tor.tor + 1) % 2 ^ 64 } }) ∧
      (keepAlive s = false → step s = .next s)) ∧
    ∃ t, step s = .next t ∧ t.pending = []

/-- Reset leaves the time of record 0 and UNREFERENCED (03 R57, R58), the bring-up phase FIRMWARE (25 R564, R567), no image (02 R49), every partition
UNDEFINED, every core STOPPED, no fault source pending and every one with the reaction entry 0xE00F_4240_0000_0000
(21 R495), every event counter 0, every journal entry IDLE with SEQ 0 (16 R385), no command waiting and every byte of main storage
at the reset value of log entry 3 (the model's choice). -/
def Obligations.ResetState : Prop :=
  State.reset.tor.tor = 0 ∧ State.reset.tor.state = .unreferenced ∧ State.reset.pwr.phase = .firmware ∧
  State.reset.pln.state = .noImage ∧ State.reset.pending = [] ∧ State.reset.flt.checkstop = false ∧
  (∀ p, pstateOf p State.reset = .undefined) ∧ (∀ l, (coreOf l State.reset).run = .stopped) ∧
  (∀ i, (fltStatus i State.reset).pending = false ∧ reactOf i State.reset = 0xE00F424000000000) ∧
  (∀ i, tget 0 i State.reset.flt.live = 0) ∧ (∀ i, (jent i State.reset).state = 0 ∧ (jent i State.reset).seq = 0) ∧
  (∀ a, memGet a State.reset.sto.mem = memDefault)

/-- The reset state is between two commands: no escalation step is due, and memory has its canonical form. -/
def Obligations.ResetIsSafe : Prop := Safety.safe State.reset

/-- No escalation step outlasts the command that made it due: in every state without one, every step of every command, and the tick, ends in a state
without one (21 R486, R489). -/
def Obligations.EveryStepLeavesNoDueStep : Prop :=
  ∀ s t : State, Safety.settled s → step s = .next t → Safety.settled t

/-- Every command completes, and none touches the queue: a step takes exactly the front command from it. -/
def Obligations.StepTakesOneCommand : Prop :=
  ∀ (c : Instr) (rest : List Instr) (s : State), s.pending = c :: rest → ∃ t, step s = .next t ∧ t.pending = rest

/-- A module that a module checkstop stopped stays as it is: no command of a core, channel processor, engine, link port, controller, queue or fabric
has an effect (21 R489). -/
def Obligations.CheckstopStopsTheModule : Prop :=
  ∀ (c : Instr) (s : State), Safety.settled s → s.flt.checkstop = true → Safety.stopsWithModule c = true → exec c s = .next s
/-! ### Fault collection (21_fault_collection) -/

/-- The first event of a source whose reaction entry names no escalation step, of a class below UE-partition: it is counted, logged, and recorded in
the source's status; every other source, the bytes of storage, the time of record and the partitions are as before (21 R483, R485, R486), and where no
array held data that could not be corrected, which is then marked poisoned (R480), all of storage. A read error on the reporting path is an event 0x0A
of the die's collector, and the event that the reporter is read as reporting; both sources become pending (21 R481), where neither names an escalation
step. -/
def Obligations.FaultEventAndReportingPath : Prop :=
  (
    ∀ (src code : Nat) (part : Option Nat) (detail : Long) (holds : Bool) (s : State), Safety.settled s → operating s = true →
      isSource src = true → 1 ≤ code → code ≤ 0x10 → eventClass code ≤ 1 → (fltStatus src s).pending = false → fld (reactOf src s) 57 56 = 0 →
      ∃ t, exec (.faultEvent src code part detail holds) s = .next t ∧
        fltStatus src t = { fltStatus src s with
          pending := true, cls := eventClass code, event := code, part := (part.filter (fun p => decide (p < 48))).getD 0x3F,
          holds := holds, step := if (fltStatus src s).fenced then (fltStatus src s).step else 0 } ∧
        (∀ j, j ≠ src → fltStatus j t = fltStatus j s) ∧
        (∀ j, tget 0 j t.flt.live = if j = src then sat16 (tget 0 src s.flt.live) else tget 0 j s.flt.live) ∧
        (∃ e : LogEntry, tget none (s.flt.nextSeq % 8192) t.flt.log = some e ∧ e.kind = 1 ∧ e.source = sourceNo code src ∧
          e.tor = s.tor.tor ∧ e.detail = detail.toNat ∧ e.seq = s.flt.nextSeq) ∧
        (lbit (reactOf src s) 60 = true → t.flt.pulseEnd = some (s.tor.tor + ticksMs)) ∧
        t.flt.checkstop = false ∧ t.sto.mem = s.sto.mem ∧ (code ≠ 3 → t.sto = s.sto) ∧ t.tor = s.tor ∧ t.pln = s.pln ∧ t.dram = s.dram) ∧
  (
    ∀ (die reporter code : Nat) (part : Option Nat) (s : State), Safety.settled s → operating s = true → die < 6 → isSource reporter = true →
      1 ≤ code → code ≤ 0x10 → eventClass code ≤ 1 → reporter ≠ srcDie die → fld (reactOf reporter s) 57 56 = 0 →
      fld (reactOf (srcDie die) s) 57 56 = 0 →
      ∃ t, exec (.reportingPathFault die reporter code part) s = .next t ∧ (fltStatus (srcDie die) t).pending = true ∧
        (fltStatus reporter t).pending = true ∧
        tget 0 (srcDie die) t.flt.live = sat16 (tget 0 (srcDie die) s.flt.live) ∧ tget 0 reporter t.flt.live = sat16 (tget 0 reporter s.flt.live) ∧
        t.sto = s.sto ∧ t.tor = s.tor)

/-- A UE-module event checkstops the module, whatever the source's status: the source is pending, CHECKSTOP_N and ERR_N are low, no core runs, and
DRAM contents are kept no more for the journal (21 R478, R489). -/
def Obligations.ModuleEventCheckstops : Prop :=
  ∀ (src : Nat) (part : Option Nat) (detail : Long) (holds : Bool) (s : State), Safety.settled s → operating s = true →
    isSource src = true → fld (reactOf src s) 57 56 = 0 →
    ∃ t, exec (.faultEvent src 0x10 part detail holds) s = .next t ∧ t.flt.checkstop = true ∧ (fltStatus src t).pending = true ∧
      pinLevel .checkstopN t = .low ∧ pinLevel .errN t = .low ∧
      t.jnl.storageKept = false ∧ (∀ l, (coreOf l t).run ≠ .running)

/-- A source is cleared by a view that may clear it, once its condition is gone: exactly PENDING, OVERFLOW and the grace timer change. A clear that
meets a setting, or a condition that still holds, fails: the source stays pending, the setting is counted, and logged where the source's entry logs,
with an entry CLEAR_LOST after it, and the grace timer is not restarted (21 R484, R494). A view that may not clear it has no effect (21 R495). A
source of class UE-module has checkstopped the module. -/
def Obligations.PendingClearClears : Prop :=
  ∀ (v : View) (src : Nat) (setNow : Bool) (s : State), Safety.settled s → powered s = true → isSource src = true →
    ((fltStatus src s).cls = 3 → s.flt.checkstop = true) →
    (mayClear v src s = false → exec (.pendingClear v src setNow) s = .next s) ∧
    (mayClear v src s = true → (fltStatus src s).pending = true →
      ((setNow || condHolds src s) = false →
        exec (.pendingClear v src setNow) s =
          .next (setFlt src { fltStatus src s with pending := false, overflow := false, timer := none } s)) ∧
      ((setNow || condHolds src s) = true →
        ∃ t, exec (.pendingClear v src setNow) s = .next t ∧ fltStatus src t = { fltStatus src s with overflow := true } ∧
          (∀ j, j ≠ src → fltStatus j t = fltStatus j s) ∧
          (∀ j, tget 0 j t.flt.live = if j = src then sat16 (tget 0 src s.flt.live) else tget 0 j s.flt.live) ∧
          (lbit (reactOf src s) 63 = true → ∃ e : LogEntry, tget none (s.flt.nextSeq % 8192) t.flt.log = some e ∧ e.kind = 1 ∧
            e.source = sourceNo (fltStatus src s).event src ∧ e.tor = s.tor.tor) ∧
          (∃ e : LogEntry, tget none ((s.flt.nextSeq + if lbit (reactOf src s) 63 then 1 else 0) % 8192) t.flt.log = some e ∧ e.kind = 3 ∧
            e.source = sourceNo (fltStatus src s).event src ∧ e.tor = s.tor.tor)))

/-- The grace timer of a pending source runs out: the next step of its chain that is not skipped is taken, and with none left the timer stops (21
R486). Step 1 leaves the source's resource fenced, step 2 the partition that its status names CHECKSTOPPED (R487, R488), and step 3 the module
checkstopped (R489). -/
def Obligations.GraceExpiryTakesNextStep : Prop :=
  ∀ (src : Nat) (s : State) (t0 : Nat), Safety.settled s → operating s = true → src < 2 ^ 24 → (fltStatus src s).pending = true →
    (fltStatus src s).timer = some t0 → t0 + fld (reactOf src s) 55 32 * 4000 ≤ s.tor.tor →
    (nextStep src s = none → exec (.graceExpiry src) s = .next (setFlt src { fltStatus src s with timer := none } s)) ∧
    (nextStep src s = some 1 → ∃ t, exec (.graceExpiry src) s = .next t ∧ (fltStatus src t).fenced = true ∧ 1 ≤ (fltStatus src t).step) ∧
    (nextStep src s = some 2 → pstateOf (fltStatus src s).part s ≠ .undefined → ∃ t, exec (.graceExpiry src) s = .next t ∧
      pstateOf (fltStatus src s).part t = .checkstopped ∧ 2 ≤ (fltStatus src t).step) ∧
    (nextStep src s = some 3 → ∃ t, exec (.graceExpiry src) s = .next t ∧ t.flt.checkstop = true ∧ (fltStatus src t).step = 3)

/-- A partition checkstop leaves the partition CHECKSTOPPED, with every publication withdrawn and no check held for it (21 R488; 18 R425). UNFENCE
of a source that is fenced and not pending returns a Rasp or Intaglio engine to service, where no channel operation is in progress that could take
it at once; a source that is not fenced, or is pending, has result STATE and no other effect (21 R487, R495). -/
def Obligations.PartitionCheckstopAndUnfence : Prop :=
  (
    ∀ (p : Nat) (s : State), pstateOf p s ≠ .undefined →
      pstateOf p (partCheckstop p s) = .checkstopped ∧ (∀ e ∈ (partCheckstop p s).tr.pubs, e.1 / 16 ≠ p) ∧
      tget [] p (partCheckstop p s).cpu.heldMc = []) ∧
  (
    ∀ (v : View) (src : Nat) (s : State), Safety.settled s → admin v s = true → operating s = true →
      (((fltStatus src s).fenced = false ∨ (fltStatus src s).pending = true) →
        exec (.unfence v src) s = .next { s with flt := { s.flt with cmdResult := 0x0C } }) ∧
      (∀ k, k < 8 → s.ch.ops = [] → src = 0x148 + k → (fltStatus src s).fenced = true → (fltStatus src s).pending = false →
        ∃ t, exec (.unfence v src) s = .next t ∧ (raspOf k t).failed = false ∧ (fltStatus src t).fenced = false ∧ t.flt.cmdResult = 0 ∧
          t.sto = s.sto ∧ t.cpu = s.cpu) ∧
      (∀ k, k < 8 → s.ch.ops = [] → src = 0x150 + k → (fltStatus src s).fenced = true → (fltStatus src s).pending = false →
        ∃ t, exec (.unfence v src) s = .next t ∧ (intOf k t).failed = false ∧ (fltStatus src t).fenced = false ∧ t.flt.cmdResult = 0 ∧
          t.sto = s.sto ∧ t.cpu = s.cpu))

/-- PATINA_CLEAR, of the host through PF0 only: the counters of the range and their snapshots read 0, counter 0x29F counts the clear, every other
counter is as before; any other range or view has result STATE and clears nothing (21 R493, R495). At a multiple of 1 s of TOR every counter is copied
to its snapshot, with the TOR of the copy, and nothing else changes (21 R492); the ERR_N pulse ends 1 ms after its latest action (21 R490). -/
def Obligations.PatinaCountersClearAndCopy : Prop :=
  (
    ∀ (v : View) (first last : Nat) (s : State), Safety.settled s → admin v s = true → powered s = true →
      (v = .pf0 ∧ first ≤ last ∧ last ≤ 0x29E →
        ∃ t, exec (.patinaClear v first last) s = .next t ∧ t.flt.cmdResult = 0 ∧
          (∀ k, tget 0 k t.flt.live = if first ≤ k ∧ k ≤ last then 0 else if k = 0x29F then sat16 (tget 0 k s.flt.live) else tget 0 k s.flt.live) ∧
          (∀ k, tget 0 k t.flt.snap = if first ≤ k ∧ k ≤ last then 0 else tget 0 k s.flt.snap) ∧
          t.flt.status = s.flt.status ∧ t.sto = s.sto ∧ t.cpu = s.cpu) ∧
      (¬(v = .pf0 ∧ first ≤ last ∧ last ≤ 0x29E) →
        exec (.patinaClear v first last) s = .next { s with flt := { s.flt with cmdResult := 0x0C } })) ∧
  (
    ∀ s : State,
      (s.tor.tor % 4000000000 = 0 → s.flt.snapTor / 4000000000 ≠ s.tor.tor / 4000000000 →
        exec .patinaSnapshot s = .next { s with flt := { s.flt with snap := s.flt.live, snapTor := s.tor.tor } }) ∧
      (∀ t, s.flt.pulseEnd = some t → t ≤ s.tor.tor → exec .errNPulseEnd s = .next { s with flt := { s.flt with pulseEnd := none } }))

/-! ### The time of record (03_time_of_record) -/

/-- A sound timecode frame that comes 10 ms to 900 ms after a rising edge, and is consecutive where an edge was accepted within the last 1.000 020 s,
names the next edge; any other frame, and every frame while REF_DISABLE is set, has no effect (03 R61, R62, R76). A rising edge that a frame names is
accepted, and one that no frame names is detected only (R62). The third accepted edge in a row, 1 s within 20 µs and one second apart, acquires the
reference (R63): a module that follows no master and is past its start window then is LOCKED where its offset is at most 100 ns and SLEWING otherwise
(R58, R63), and a change of STATE is counted in 0x297 (R60). A follower changes no STATE (R63, R65). While REF_DISABLE is set an edge has
no effect. -/
def Obligations.ReferenceInputsAcquire : Prop :=
  (
    ∀ (b : List Byte) (s : State), Safety.settled s → powered s = true →
      (∀ e, s.tor.refDisable = false → b.length = 13 → natAt b 0 2 = 0xA55A → natAt b 2 1 = 1 → natAt b 11 2 = crc16 (b.take 11) →
        s.tor.edgeSeen = some e → e + 40000000 ≤ s.tor.tor → s.tor.tor ≤ e + 3600000000 →
        (∀ t0 k, s.tor.lastEdge = some (t0, k) → t0 + 4000080000 < s.tor.tor ∨ natAt b 3 8 = k + 1) →
        exec (.todFrame b) s = .next { s with tor := { s.tor with named := some (natAt b 3 8), lastFrame := some s.tor.tor } }) ∧
      ((s.tor.refDisable = true ∨ b.length ≠ 13 ∨ natAt b 0 2 ≠ 0xA55A ∨ natAt b 2 1 ≠ 1 ∨ natAt b 11 2 ≠ crc16 (b.take 11) ∨ s.tor.edgeSeen = none ∨
          (∃ e, s.tor.edgeSeen = some e ∧ (s.tor.tor < e + 40000000 ∨ e + 3600000000 < s.tor.tor)) ∨
          (∃ t0 k, s.tor.lastEdge = some (t0, k) ∧ s.tor.tor ≤ t0 + 4000080000 ∧ natAt b 3 8 ≠ k + 1)) →
        exec (.todFrame b) s = .next s)) ∧
  (
    ∀ s : State, Safety.settled s → powered s = true →
      (s.tor.refDisable = true → exec .ppsEdge s = .next s) ∧
      (s.tor.refDisable = false → s.tor.named = none → ∃ t, exec .ppsEdge s = .next t ∧ t.tor.edgeSeen = some s.tor.tor ∧ t.tor.lastEdge = s.tor.lastEdge ∧
        t.tor.named = none ∧ t.tor.tor = s.tor.tor ∧ t.sto = s.sto ∧ t.cpu = s.cpu ∧ t.pln = s.pln) ∧
      (∀ k, s.tor.refDisable = false → s.tor.named = some k → s.tor.window = false → ∃ t, exec .ppsEdge s = .next t ∧ t.tor.lastEdge = some (s.tor.tor, k) ∧
        t.tor.edgeSeen = some s.tor.tor ∧ t.tor.named = none ∧ t.tor.tor = s.tor.tor ∧ t.sto = s.sto ∧ t.cpu = s.cpu ∧ t.pln = s.pln ∧
        (∀ t0, s.tor.lastEdge = some (t0, k - 1) → 0 < k → t0 + 3999920000 ≤ s.tor.tor → s.tor.tor ≤ t0 + 4000080000 →
          t.tor.goodEdges = s.tor.goodEdges + 1 ∧ t.tor.refHeld = (s.tor.refHeld || decide (2 ≤ s.tor.goodEdges)) ∧
          (follows s = true → t.tor.state = s.tor.state) ∧
          (follows s = false → (s.tor.refHeld = true ∨ 2 ≤ s.tor.goodEdges) →
            ((k * 4000000000 ≤ s.tor.tor + 400 ∧ s.tor.tor ≤ k * 4000000000 + 400) → t.tor.state = .locked) ∧
            (¬(k * 4000000000 ≤ s.tor.tor + 400 ∧ s.tor.tor ≤ k * 4000000000 + 400) → t.tor.state = .slewing ∧ t.tor.slewOwn = true) ∧
            t.tor.offset = Int.ofNat s.tor.tor - Int.ofNat (k * 4000000000) ∧ t.tor.lastRef = s.tor.tor ∧
            (∀ j, tget 0 j t.flt.live = if j = 0x297 ∧ t.tor.state ≠ s.tor.state then sat16 (tget 0 j s.flt.live) else tget 0 j s.flt.live)))))

/-- A reference with no edge accepted for 1.000 020 s is lost (03 R63): REF_HELD is 0, and a module that follows no master and is LOCKED, or SLEWING
toward its own reference, enters TOR_HOLDOVER, whose start is recorded (R68) and counted (R60); every other STATE stays. Before that time
there is no loss. REF_DISABLE sets the control and treats the inputs as unconnected, so that a reference held is lost at once, and FABRIC_DISABLE sets
the control; a follower without a reference of its own that it so frees enters TOR_HOLDOVER where it was disciplined from its master (R63, R76). A
view that is no administrator changes nothing (01 R21). -/
def Obligations.ReferenceLossAndTorControl : Prop :=
  (
    ∀ (s : State), Safety.settled s → powered s = true →
      (s.tor.refHeld = false → exec .refLoss s = .next s) ∧
      (∀ t0 k, s.tor.lastEdge = some (t0, k) → s.tor.tor < t0 + 4000080000 → exec .refLoss s = .next s) ∧
      (∀ t0 k, s.tor.refHeld = true → s.tor.lastEdge = some (t0, k) → t0 + 4000080000 ≤ s.tor.tor →
        ∃ t, exec .refLoss s = .next t ∧ t.tor.refHeld = false ∧ t.tor.goodEdges = 0 ∧ t.tor.tor = s.tor.tor ∧ t.sto = s.sto ∧ t.cpu = s.cpu ∧ t.pln = s.pln ∧
          (follows s = false → (s.tor.state = .locked ∨ (s.tor.state = .slewing ∧ s.tor.slewOwn = true)) →
            t.tor.state = .holdover ∧ t.tor.holdStart = s.tor.tor ∧ tget 0 0x297 t.flt.live = sat16 (tget 0 0x297 s.flt.live)) ∧
          (¬(follows s = false ∧ (s.tor.state = .locked ∨ (s.tor.state = .slewing ∧ s.tor.slewOwn = true))) →
            t.tor.state = s.tor.state ∧ t.tor.holdStart = s.tor.holdStart ∧ t.flt = s.flt))) ∧
  (
    ∀ (v : View) (on : Bool) (s : State), Safety.settled s → powered s = true →
      (admin v s = false → exec (.refDisable v on) s = .next s ∧ exec (.fabricDisable v on) s = .next s) ∧
      (admin v s = true →
        exec (.refDisable v false) s = .next { s with tor := { s.tor with refDisable := false } } ∧
        (∃ t, exec (.refDisable v true) s = .next t ∧ t.tor.refDisable = true ∧ t.tor.refHeld = false ∧ t.tor.named = none ∧ t.tor.edgeSeen = none ∧
          t.tor.tor = s.tor.tor ∧ t.sto = s.sto ∧ t.cpu = s.cpu ∧
          (s.tor.refHeld = true → follows s = false → s.tor.state = .locked → t.tor.state = .holdover ∧ t.tor.holdStart = s.tor.tor) ∧
          (s.tor.refHeld = false → t.tor.state = s.tor.state ∧ t.flt = s.flt)) ∧
        (s.tor.fabricDisable = on → exec (.fabricDisable v on) s = .next s) ∧
        (s.tor.window = false → ∃ t, exec (.fabricDisable v on) s = .next t ∧ t.tor.fabricDisable = on ∧ t.tor.tor = s.tor.tor ∧ t.tor.refHeld = s.tor.refHeld ∧
          t.sto = s.sto ∧ t.cpu = s.cpu ∧ t.pln = s.pln ∧
          (on = true → follows s = true → towardMaster s = true → s.tor.refHeld = false → t.tor.state = .holdover ∧ t.tor.holdStart = s.tor.tor))))

/-- A time exchange on an ACTIVE port, once for each 250 µs of TOR: it leaves the port, and a follower takes the master's quality and its offset from
it (03 R59, R65): within 100 ns it is in FABRIC, and farther away it slews toward the master (R58, R63), and TOR itself is not stepped outside the
start window (R67, R69). A module that follows no master keeps its STATE. A second exchange in the same 250 µs has no effect. An armed comparator
whose value is reached fires: its PEND bit is set, its ARM bit cleared, every other bit of TORCTL and everything else of the module is as before; one
that is not armed, or not reached, has no effect (R73); a value written to an armed comparator is in force from the next tick on (R73). -/
def Obligations.TimeExchangeAndComparator : Prop :=
  (
    ∀ (p : Nat) (offset : Int) (q : BitVec 2) (s : State), Safety.settled s → operating s = true → p < 8 → portActive (.arm p) s = true →
      (exchDue p s = false → exec (.timeExchange p offset q) s = .next s) ∧
      (exchDue p s = true → s.tor.window = false →
        ∃ t, exec (.timeExchange p offset q) s = .next t ∧ Out.timeExchange p ∈ t.out ∧ exchDue p t = false ∧ t.tor.tor = s.tor.tor ∧
          t.sto = s.sto ∧ t.cpu = s.cpu ∧ t.pln = s.pln ∧
          (follows s = true → t.tor.offset = offset ∧ t.tor.masterQuality = q.toNat ∧ t.tor.lastRef = s.tor.tor ∧
            (offset.natAbs ≤ 400 → t.tor.state = .fabric) ∧ (400 < offset.natAbs → t.tor.state = .slewing ∧ t.tor.slewOwn = false)) ∧
          (follows s = false → t.tor.state = s.tor.state ∧ t.tor.offset = s.tor.offset ∧ t.flt = s.flt))) ∧
  (
    ∀ (l n : Nat) (s : State), Safety.settled s → operating s = true → l < 192 →
      (n < 4 → lbit (coreOf l s).torctl n = true → (cmpValue n (coreOf l s) s).toNat ≤ s.tor.tor →
        ∃ w : Long, exec (.torComparatorFire l n) s = .next (setCore l { coreOf l s with torctl := w } s) ∧ lbit w (4 + n) = true ∧
          lbit w n = false ∧ ∀ k, k ≠ n → k ≠ 4 + n → lbit w k = lbit (coreOf l s).torctl k) ∧
      ((4 ≤ n ∨ lbit (coreOf l s).torctl n = false ∨ s.tor.tor < (cmpValue n (coreOf l s) s).toNat) → exec (.torComparatorFire l n) s = .next s) ∧
      (∀ v : Long, n < 4 → lbit (coreOf l s).torctl n = true → cmpValue n (coreOf l (writeTorcmp l n v s)) (writeTorcmp l n v s) = cmpValue n (coreOf l s) s ∧
        ∀ t, t.tor.tor ≠ s.tor.tor → cmpValue n (coreOf l (writeTorcmp l n v s)) t = v))

/-! ### Images and partitions (02_plinth_image) -/

/-- An image command of an administrator in a state that allows it begins verification of the bytes as staged, and changes nothing else; in any other
state it completes with STATE, and what is in force stays (02 R36, R41, R47, R51). The end of verification: an image that fails a check ends with that
check's result, and the module is as it was (R36, R44); a sound image of LOAD_FULL begins APPLYING at its first step (R52), and before READY nothing
else changes yet; a sound partial image that every check of R45 allows begins APPLYING, and one that a check refuses ends with its result; a sound
image of STORE_A or STORE_B goes to its flash copy, unless programming fails, which leaves the copy to fail its checks, with result FLASH (R41). -/
def Obligations.ImageCommandsVerifyAndEnd : Prop :=
  (
    ∀ (v : View) (s : State), Safety.settled s → admin v s = true → operating s = true →
      (s.pln.job = none →
        (s.pln.state = .noImage → exec (.loadFull v) s = .next { s with pln := { s.pln with state := .verifying, job := some ⟨1, stagedBytes s, none, .noImage, 0⟩ } }) ∧
        (s.pln.state = .applied → exec (.loadPartial v) s = .next { s with pln := { s.pln with state := .verifying, job := some ⟨2, stagedBytes s, none, .applied, 0⟩ } }) ∧
        (s.pln.state = .noImage ∨ s.pln.state = .applied →
          exec (.storeA v) s = .next { s with pln := { s.pln with state := .verifying, job := some ⟨3, stagedBytes s, none, s.pln.state, 0⟩ } } ∧
          exec (.storeB v) s = .next { s with pln := { s.pln with state := .verifying, job := some ⟨4, stagedBytes s, none, s.pln.state, 0⟩ } })) ∧
      ((s.pln.state ≠ .noImage ∨ s.pln.job ≠ none) → ∃ t, exec (.loadFull v) s = .next t ∧ t.pln = { s.pln with result := 0x0C } ∧ t.sto = s.sto ∧ t.cpu = s.cpu) ∧
      ((s.pln.state ≠ .applied ∨ s.pln.job ≠ none) → ∃ t, exec (.loadPartial v) s = .next t ∧ t.pln = { s.pln with result := 0x0C } ∧ t.sto = s.sto ∧ t.cpu = s.cpu) ∧
      (((s.pln.state ≠ .noImage ∧ s.pln.state ≠ .applied) ∨ s.pln.job ≠ none) → ∀ c, c = Instr.storeA v ∨ c = Instr.storeB v →
        ∃ t, exec c s = .next t ∧ t.pln = { s.pln with result := 0x0C } ∧ t.sto = s.sto ∧ t.cpu = s.cpu)) ∧
  (
    ∀ (s : State) (j : PlnJob) (flashOk : Bool), Safety.settled s → operating s = true → s.pln.state = .verifying → s.pln.job = some j → checksNow s = true →
      (∀ r, checkImage (j.cmd == 2) j.bytes s = .inl r → ∃ t, exec (.plinthChecksComplete flashOk) s = .next t ∧
        t.pln = { s.pln with state := j.back, job := none, result := r } ∧ t.sto = s.sto ∧ t.cpu = s.cpu ∧ t.arm = s.arm ∧ t.tor = s.tor) ∧
      (∀ i, checkImage (j.cmd == 2) j.bytes s = .inr i →
        (j.cmd = 1 → (∃ t, exec (.plinthChecksComplete flashOk) s = .next t ∧ t.pln.state = .applying ∧ t.pln.job = some { j with image := some i, stage := 2 } ∧ t.cpu = s.cpu) ∧
          (s.pwr.phase ≠ .ready → exec (.plinthChecksComplete flashOk) s =
            .next { s with pln := { s.pln with state := .applying, job := some { j with image := some i, stage := 2 } } })) ∧
        (j.cmd = 2 →
          (applyCheck i s = 0 → ∃ t, exec (.plinthChecksComplete flashOk) s = .next t ∧
            t.pln = { s.pln with state := .applying, job := some { j with image := some i, stage := 5 } } ∧ t.sto = s.sto ∧ t.cpu = s.cpu) ∧
          (applyCheck i s ≠ 0 → ∃ t, exec (.plinthChecksComplete flashOk) s = .next t ∧
            t.pln = { s.pln with state := j.back, job := none, result := applyCheck i s } ∧ t.sto = s.sto ∧ t.cpu = s.cpu)) ∧
        (j.cmd = 3 → ∃ t, exec (.plinthChecksComplete flashOk) s = .next t ∧
          t.pln = { s.pln with state := j.back, job := none, result := if flashOk then 0 else 0x0E, badA := !flashOk,
                               flashA := if flashOk then some j.bytes else s.pln.flashA } ∧ t.sto = s.sto ∧ t.cpu = s.cpu) ∧
        (j.cmd = 4 → ∃ t, exec (.plinthChecksComplete flashOk) s = .next t ∧
          t.pln = { s.pln with state := j.back, job := none, result := if flashOk then 0 else 0x0E, badB := !flashOk,
                               flashB := if flashOk then some j.bytes else s.pln.flashB } ∧ t.sto = s.sto ∧ t.cpu = s.cpu)))

/-- The end of APPLYING. While a queue of a named partition still drains, APPLYING does not end (17 R402). A full image whose last step is reached
is then APPLIED, from the host, with result OK and its generation in force (02 R52); so is a partial image (R45), and one that names routes only
changes nothing else: the routes wait for the next route epoch, the measurement is extended, and partitions and storage are as before (R37, R45,
R48; 18 R416). A PARTITION section for an ID that no section defines makes a STOPPED partition, with a generator of its own and main storage as
before where it has no extent on this module; one for a defined ID replaces its definition and leaves it STOPPED, a CHECKSTOPPED one by way of
STOPPING where its channel work still ends (log entry 74); with DELETE it leaves the ID UNDEFINED without its storage key (02 R42, R43, R46; 18
R419, R421). A section for a new ID changes no other partition's state. -/
def Obligations.ApplyingTakesEffect : Prop :=
  (
    ∀ (s : State) (j : PlnJob) (i : PlnImage), Safety.settled s → operating s = true → s.pln.state = .applying →
      s.pln.job = some j → j.image = some i → j.stage = 5 →
      ((i.parts.all (fun d => ownQueuesIdle d.id s)) = false → exec .applyingEnd s = .next s) ∧
      ((i.parts.all (fun d => ownQueuesIdle d.id s)) = true →
        (j.cmd = 1 ∨ (awayRanges (rangesLeft i.parts s) s = [] ∧ zeroReady (rangesLeft i.parts s) s = true ∧ leaversReady i.parts s = true)) →
        ∃ t, exec .applyingEnd s = .next t ∧ t.pln.state = .applied ∧ t.pln.job = none ∧ t.pln.result = 0 ∧ t.pln.source = 3 ∧ t.pln.generation = i.generation ∧
          (∀ r, j.cmd = 2 → i.parts = [] → i.mod_ = none → i.routes = some r → i.isPartial = true → s.dx.state ≠ 6 →
            t.pln.routes = r ∧ t.pln.parts = s.pln.parts ∧ t.pln.pstate = s.pln.pstate ∧
            t.tr.meas = sha384 (s.tr.meas ++ sha384 j.bytes) ∧ t.arm.change = true ∧ t.sto = s.sto ∧ t.cpu = s.cpu))) ∧
  (
    ∀ (d : PlnPart) (s : State),
      (partOf d.id s = none → isDelete d = false →
        partOf d.id (applySection d s) = some d ∧ pstateOf d.id (applySection d s) = .stopped ∧ (∀ p, p ≠ d.id → pstateOf p (applySection d s) = pstateOf p s) ∧
        (homedHere d s = false → (tget {} d.id (applySection d s).tr.drbg).seeded = s.tor.tor ∧ (applySection d s).sto = s.sto)) ∧
      (∀ o, partOf d.id s = some o → isDelete d = false →
        partOf d.id (applySection d s) = some d ∧
        (pstateOf d.id (applySection d s) = .stopped ∨ (pstateOf d.id (applySection d s) = .stopping ∧ pstateOf d.id s = .checkstopped))) ∧
      (∀ o, partOf d.id s = some o → isDelete d = true →
        partOf d.id (applySection d s) = none ∧ pstateOf d.id (applySection d s) = .undefined ∧ tget none d.id (applySection d s).tr.storageKey = none))

/-- START of a STOPPED partition with no copy armed for it and no core lost: the partition is RUNNING, its lowest core in service runs from address
0 and its other cores wait (02 R43; 25 R562). In any other state of the partition, or while an image is verified or applied, the result is STATE and
nothing starts (02 R47). STOP of a RUNNING partition makes it STOPPING with its publications withdrawn, and a core at a boundary with nothing left
in its store buffer stops there, its reservation lost; the partition is STOPPED once each core has come to rest, no subchannel is busy and every
host write that was translated is performed, and not while a core is within a group (02 R42, R43; 18 R425). A STOP in another state has result
STATE. PART_RESET of a partition that is neither STOPPED nor CHECKSTOPPED has result STATE and no other effect; of a CHECKSTOPPED one it leaves the
partition STOPPING, and of a STOPPED one STOPPED. Its publications are withdrawn, and every core that is not lost is STOPPED with PC 0 and general
registers 0 (25 R561; 02 R42). Where no event that the drained stores raise escalates at once (21 R486). -/
def Obligations.PartitionsStartStopAndReset : Prop :=
  (
    ∀ (v : View) (p : Nat) (s : State), Safety.settled s → admin v s = true → operating s = true → p < 48 →
      (plnBusy s = false → pstateOf p s = .stopped → ¬(iplValid s = true ∧ iplPart s = p) → p ∉ s.pln.starting → (∀ l ∈ coresOf p s, recState l s ≠ 2) → Safety.graceful s →
        ∃ t, exec (.start v p) s = .next t ∧ pstateOf p t = .running ∧ tget 0 p t.pln.presult = 0 ∧
          ∀ l ∈ coresOf p s, (coreOf l t).pc = 0 ∧ (coreOf l t).run = if (coresOf p s).head? = some l then .running else .waiting none) ∧
      ((plnBusy s = true ∨ pstateOf p s ≠ .stopped) →
        ∃ t, exec (.start v p) s = .next t ∧ t.pln = { s.pln with presult := tset 0 p 0x0C s.pln.presult } ∧ t.cpu = s.cpu ∧ t.sto = s.sto)) ∧
  (
    (
      ∀ (v : View) (p : Nat) (s : State), Safety.settled s → operating s = true → p < 48 →
        (admin v s = true → plnBusy s = false → pstateOf p s = .running → Safety.graceful s →
          (∃ t, exec (.stop v p) s = .next t ∧ pstateOf p t = .stopping ∧ tget 0 p t.pln.presult = 0 ∧ (∀ e ∈ t.tr.pubs, e.1 / 16 ≠ p) ∧ t.jnl = s.jnl) ∧
          ((∀ l ∈ coresOf p s, (coreOf l s).sb = [] ∧ (coreOf l s).wc = [] ∧ midGroup (coreOf l s) = false ∧ inService l s = true ∧ (coreOf l s).run = .running) →
            ∃ t, exec (.stop v p) s = .next t ∧
              (∀ l ∈ coresOf p s, (coreOf l t).run = .stopped ∧ (coreOf l t).resv = none ∧ (coreOf l t).g = (coreOf l s).g ∧ (coreOf l t).pc = (coreOf l s).pc) ∧
              t.sto = s.sto ∧ t.jnl = s.jnl)) ∧
        (admin v s = true → (plnBusy s = true ∨ pstateOf p s ≠ .running) →
          ∃ t, exec (.stop v p) s = .next t ∧ t.pln = { s.pln with presult := tset 0 p 0x0C s.pln.presult } ∧ t.cpu = s.cpu) ∧
        (pstateOf p s = .stopping → (∀ l ∈ coresOf p s, atRest l s = true ∧ (coreOf l s).sb = [] ∧ (coreOf l s).wc = []) → subsIdle p s = true →
          agentPending (.hostWrite 1) s = false →
          ∃ t, exec (.partitionStopped p) s = .next t ∧ pstateOf p t = .stopped ∧ (∀ q, q ≠ p → pstateOf q t = pstateOf q s) ∧
            (∀ l, (coreOf l t).g = (coreOf l s).g ∧ (coreOf l t).pc = (coreOf l s).pc) ∧ t.sto = s.sto ∧ t.flt = s.flt) ∧
        (pstateOf p s = .stopping → (∃ l ∈ coresOf p s, (coreOf l s).run = .running ∧ midGroup (coreOf l s) = true) →
          ∃ t, exec (.partitionStopped p) s = .next t ∧ pstateOf p t ≠ .stopped)) ∧
    (
      ∀ (v : View) (p : Nat) (s : State), Safety.settled s → admin v s = true → operating s = true → p < 48 →
        (pstateOf p s ≠ .stopped → pstateOf p s ≠ .checkstopped →
          exec (.partReset v p) s = .next { s with pwr := { s.pwr with lastResult := 0x0C } }) ∧
        (∀ u, Safety.graceful s → (pstateOf p s = .checkstopped ∧ u = PState.stopping) ∨ (pstateOf p s = .stopped ∧ u = PState.stopped) →
          ∃ t, exec (.partReset v p) s = .next t ∧ pstateOf p t = u ∧ t.pwr.lastResult = 0 ∧ (∀ e ∈ t.tr.pubs, e.1 / 16 ≠ p) ∧
            ∀ l ∈ coresOf p s, recState l s ≠ 2 → (coreOf l t).pc = 0 ∧ (coreOf l t).run = .stopped ∧ (coreOf l t).g = [])))

/-! ### Power, resets, bring-up, the governor (25_power_governor_reset; 27_electrical_package) -/

/-- A module reset, by the command of an administrator or by RESET_N held low for 1 µs or more: bring-up begins at FIRMWARE, no image is in force,
every partition is UNDEFINED and no core runs; time, the journal entries, the key slots, the generation and the flash copies are as before, and no
source stays pending (25 R559, R560, R590). Of a checkstopped module, whose cores have nothing to drain, the Patina counters and the fault log are as
before too, where TOR follows no master. A pulse below 100 ns is ignored, one of 100 ns or more and below 1 µs may reset the module or not, and the
release of RESET_N only changes the pin (R590). -/
def Obligations.ModuleResetRestartsModule : Prop :=
  ∀ (c : Instr) (s : State), Safety.settled s →
    ((powered s = true ∧ s.tr.scanHeld = false ∧ ∃ v, admin v s = true ∧ c = .moduleReset v) ∨
      (powered s = true ∧ s.tr.scanHeld = false ∧ s.pin.prsnt = true ∧ s.pin.resetLow = false ∧ ∃ ns, 1000 ≤ ns ∧ c = .resetN ns) →
      ∃ t, exec c s = .next t ∧ t.flt.checkstop = false ∧ t.pwr.phase = .firmware ∧ t.pwr.warm = true ∧ t.pln.state = .noImage ∧
        (∀ p, pstateOf p t = .undefined) ∧ (∀ l, (coreOf l t).run ≠ .running) ∧ (∀ i, (fltStatus i t).pending = false) ∧
        t.tor.tor = s.tor.tor ∧ t.jnl.e = s.jnl.e ∧ t.eng.slots = s.eng.slots ∧
        t.pln.flashA = s.pln.flashA ∧ t.pln.flashB = s.pln.flashB ∧ t.pln.generation = s.pln.generation ∧
        (s.flt.checkstop = true → s.tor.master = none → t.flt.live = s.flt.live ∧ t.flt.log = s.flt.log)) ∧
    (∀ ns, c = .resetN ns → s.pin.prsnt = true →
      (s.pin.resetLow = true → exec c s = .next { s with pin := { s.pin with resetLow := false } }) ∧
      (s.pin.resetLow = false → ns < 100 → exec c s = .next s) ∧
      (s.pin.resetLow = false → 100 ≤ ns → ns < 1000 → powered s = true → s.tr.scanHeld = false → ∃ t, exec c s = .next t ∧
        (t = { s with free := s.free + 1 } ∨ (t.pwr.phase = .firmware ∧ t.pwr.warm = true ∧ t.pln.state = .noImage))))

/-- A cold reset loses everything outside the keep-alive domain: storage, cores, ports, queues, key slots and grants are at their reset values; the
event counters and their snapshot, the journal entries, the generation and the flash copies stay, HOLD_START and LAST_REF stay (00 R10), and TOR
where the kept count is valid; else TOR is 0 and UNREFERENCED (25 R551, R559, R560; 03 R57, R69). A change of STATE is counted in 0x297, and no
other event counter moves. -/
def Obligations.ColdResetKeepsKeepAlive : Prop :=
  ∀ (c : ColdCause) (s : State), Safety.settled s →
    ((∃ v, c = .command v ∧ admin v s = true ∧ powered s = true) ∨ (c = .feed ∧ feedBoot s = true) ∨ (c = .tripEnd ∧ feedBoot s = true) ∨
      (c = .insertion ∧ feedBoot s = true)) →
    ∃ t, exec (.coldReset c) s = .next t ∧ t.pwr.on = true ∧ t.pwr.phase = .firmware ∧ t.pwr.warm = false ∧ t.sto = {} ∧ t.cpu = {} ∧
      t.dram = [] ∧ t.eng = {} ∧ t.mq = {} ∧ t.armLink = [] ∧ t.chLink = [] ∧ t.pln.state = .noImage ∧ t.flt.checkstop = false ∧
      t.jnl.e = s.jnl.e ∧ t.flt.snap = s.flt.snap ∧ t.pln.generation = s.pln.generation ∧ t.pln.flashA = s.pln.flashA ∧ t.pln.flashB = s.pln.flashB ∧
      t.tor.lastRef = s.tor.lastRef ∧ t.tor.holdStart = s.tor.holdStart ∧ (∀ j, j ≠ 0x297 → tget 0 j t.flt.live = tget 0 j s.flt.live) ∧
      (s.tor.keptValid = true → t.tor.tor = s.tor.tor ∧ t.tor.keptValid = true) ∧
      (s.tor.keptValid = false → t.tor.tor = 0 ∧ t.tor.state = .unreferenced)

/-- Bring-up (25 R564; 02 R40, R52). FIRMWARE: with no firmware image that can be used it stops with the failure shown, and with one it is measured
and CONTROL_STORE follows, which ends in PLINTH, or stops where a store cannot be loaded. PLINTH waits for a host's command under check, and then
DRAM follows, with the image to apply in hand. Training under way holds it in DRAM, and after it FABRIC follows, whose ports an image enables.
FABRIC ends at once without an image, and else when discovery is over; JOURNAL ends in READY, with the image APPLIED where there is one. RESET_N low
or SYS_CLK lost holds bring-up where it is, and after READY a step goes on only with an image command of the host, or has no effect. -/
def Obligations.BringupStepsInOrder : Prop :=
  ∀ (bad : List Nat) (s : State), Safety.settled s → operating s = true →
    ((s.pin.resetLow = true ∨ s.pin.sysLost = true) → exec (.bringupStepComplete bad) s = .next s) ∧
    (s.pin.resetLow = false → s.pin.sysLost = false →
      (∀ r, s.pwr.phase = .firmware → chooseImage 0 s = .inl r →
        exec (.bringupStepComplete bad) s = .next { s with pwr := { s.pwr with phase := .stopped }, tr := { s.tr with fwFail := true } }) ∧
      (∀ i, s.pwr.phase = .firmware → chooseImage 0 s = .inr i →
        ∃ t, exec (.bringupStepComplete bad) s = .next t ∧ t.pwr.phase = .controlStore ∧ t.tr.fwMeas = sha384 i.signed ∧ t.pln = s.pln ∧ t.sto = s.sto) ∧
      (s.pwr.phase = .controlStore →
        ∃ t, exec (.bringupStepComplete bad) s = .next t ∧ t.pwr.phase = if (loadStores [1, 2, 3, 4] s).1 then .plinth else .stopped) ∧
      (s.pwr.phase = .plinth → s.pln.state = .verifying → exec (.bringupStepComplete bad) s = .next s) ∧
      (s.pwr.phase = .plinth → s.pln.state ≠ .verifying → ∃ t, exec (.bringupStepComplete bad) s = .next t ∧ t.pwr.phase = .dram ∧
        (s.pwr.warm = true → ∀ j, bootJob s = some j → t.pln.state = .applying ∧ t.pln.job = some j)) ∧
      (s.pwr.phase = .dram → (∃ n, n < 16 ∧ (dramOf n s).state = 1) → exec (.bringupStepComplete bad) s = .next s) ∧
      (s.pwr.phase = .dram → (∀ n, n < 16 → (dramOf n s).state ≠ 1) →
        (s.pln.module_ = none → exec (.bringupStepComplete bad) s = .next { s with pwr := { s.pwr with phase := .fabric } }) ∧
        (s.pln.module_ ≠ none → ∃ t, exec (.bringupStepComplete bad) s = .next t ∧ t.pwr.phase = .fabric ∧ t.arm.fstate = 1 ∧ t.arm.discoStart = s.tor.tor)) ∧
      (s.pwr.phase = .fabric → s.pln.job.bind (·.image) = none →
        ∃ t, exec (.bringupStepComplete bad) s = .next t ∧ t.pwr.phase = .journal ∧ t.jnl = { s.jnl with keptValid := true } ∧ t.sto = s.sto ∧ t.cpu = s.cpu) ∧
      (∀ i, s.pwr.phase = .fabric → s.pln.job.bind (·.image) = some i →
        (fabricReady s = false → exec (.bringupStepComplete bad) s = .next s) ∧
        (fabricReady s = true → ∃ t, exec (.bringupStepComplete bad) s = .next t ∧ t.pwr.phase = .journal ∧ t.jnl.keptValid = true)) ∧
      (s.pwr.phase = .journal → s.pln.job.bind (·.image) = none →
        ∃ t, exec (.bringupStepComplete bad) s = .next t ∧ t.pwr.phase = .ready ∧ t.pln = s.pln ∧ t.sto = s.sto ∧ t.cpu = s.cpu) ∧
      (∀ i, s.pwr.phase = .journal → s.pln.job.bind (·.image) = some i →
        (journalReady s = false → exec (.bringupStepComplete bad) s = .next s) ∧
        (journalReady s = true → ∃ t, exec (.bringupStepComplete bad) s = .next t ∧ t.pwr.phase = .ready ∧ t.pln.state = .applied ∧ t.pln.result = 0)) ∧
      (s.pwr.phase = .ready → s.pln.state ≠ .applying → exec (.bringupStepComplete bad) s = .next s) ∧
      (s.pwr.phase = .stopped → exec (.bringupStepComplete bad) s = .next s))

/-- A governor epoch takes the power and the reading of every sensor, once for each epoch of TOR (25 R555, R567). With every sensor read and cool, no
partition applied, no port ACTIVE and no controller in service it makes no decision (25 R552, R555); between epochs there is none. Thermal throttle
begins when a sensor reaches 100.0 °C, which an unreadable sensor counts as, and is counted in 0x29C; it ends when every sensor is at 97.0 °C or less,
and between them it stays as it is (25 R552). -/
def Obligations.GovernorEpochAndThrottle : Prop :=
  (
    ∀ (r : GovReadings) (s : State) (x : Int), Safety.settled s → operating s = true →
      (governorDue s = false → exec (.governorEpoch r) s = .next s) ∧
      (governorDue s = true → ∃ t, exec (.governorEpoch r) s = .next t ∧ t.pwr.govEpoch = s.tor.tor ∧ t.pwr.powerW = r.powerW ∧
        (∀ n, n < 60 → tget none n t.pwr.temp = r.sensors.getD n none ∧ ∀ y, r.sensors.getD n none = some y → tget 0 n t.pwr.lastTemp = y) ∧ t.tor.tor = s.tor.tor) ∧
      (governorDue s = true → r.sensors = List.replicate 60 (some x) → x ≤ 380 → s.pwr.throttle = false → noneApplied s = true → s.pwr.hot = [] →
        (∀ p ∈ allPorts, portActive p s = false) → (∀ n, n < 16 → (dramOf n s).state ≠ 2) → s.flt.snapTor = s.pwr.lastSnap → s.arm.removeReq = false →
        ∃ t, exec (.governorEpoch r) s = .next t ∧ t.pwr.govEpoch = s.tor.tor ∧ t.pwr.powerW = r.powerW ∧ t.pwr.throttle = false ∧
          (∀ n, n < 60 → tget none n t.pwr.temp = some x ∧ tget 0 n t.pwr.lastTemp = x) ∧ t.pwr.clk = s.pwr.clk ∧ t.sto = s.sto ∧ t.cpu = s.cpu ∧ t.pln = s.pln)) ∧
  (
    ∀ (r : GovReadings) (s : State),
      (s.pwr.throttle = false → (∃ n, n < 60 ∧ 400 ≤ reading r n) → (throttleStep r s).pwr.throttle = true ∧
        (tget 0 0x29C (throttleStep r s).flt.live) = sat16 (tget 0 0x29C s.flt.live)) ∧
      (s.pwr.throttle = true → (∀ n, n < 60 → reading r n ≤ 388) → throttleStep r s = { s with pwr := { s.pwr with throttle := false } }) ∧
      (s.pwr.throttle = true → (∃ n, n < 60 ∧ 388 < reading r n) → throttleStep r s = s) ∧
      (s.pwr.throttle = false → (∀ n, n < 60 → reading r n < 400) → throttleStep r s = s))

/-- The feeds. VIN_B takes over where it serves better, and VIN_A takes back once it is good or serves better: each change is an event of the
supply, and elsewhere there is none (25 R548, R549). The loss of both turns power off outside the keep-alive domain, whose contents stay while VKA
is good (25 R550, R551). A thermal trip drives THERMTRIP_N low, turns power off and holds it off until both feeds have been below 20 V for 1 s; VKA
that fails with both feeds absent loses the keep-alive domain (25 R551, R554). The feeds and VKA read as they are (R548, R567). PRSNT_N: its release
has the effect of a loss of both feeds; its insertion starts a cold reset where a feed is good, and otherwise only the pin changes (25 R565; 27
R590). -/
def Obligations.FeedsPowerAndInsertion : Prop :=
  (
    ∀ (a b : Nat) (s : State), Safety.settled s → powered s = true →
      (s.pwr.srcB = false → betterFeed b a = true → Safety.graceful s → ∃ t, exec (.feedSwitch a b) s = .next t ∧ t.pwr.srcB = true ∧ t.pwr.aOk = feedGood a ∧
        t.pwr.bOk = feedGood b ∧ (fltStatus srcSupply t).pending = true ∧ t.tor = s.tor ∧ t.sto = s.sto) ∧
      ((s.pwr.srcB = true ∨ betterFeed b a = false) → exec (.feedSwitch a b) s = .next s) ∧
      (s.pwr.srcB = true → (feedGood a = true ∨ betterFeed a b = true) → Safety.graceful s → ∃ t, exec (.feedReturn a b) s = .next t ∧ t.pwr.srcB = false ∧ t.pwr.aOk = feedGood a ∧
        t.pwr.bOk = feedGood b ∧ (fltStatus srcSupply t).pending = true ∧ t.tor = s.tor ∧ t.sto = s.sto) ∧
      ((s.pwr.srcB = false ∨ (feedGood a = false ∧ betterFeed a b = false)) → exec (.feedReturn a b) s = .next s) ∧
      (a < 40000 → b < 40000 → ∃ t, exec (.feedLoss a b) s = .next t ∧ t.pwr.on = false ∧ t.sto = {} ∧ t.cpu = {} ∧ t.eng = {} ∧
        (s.pwr.vkaOk = true → t.jnl.e = s.jnl.e ∧ (∀ j, j ≠ 0x297 → tget 0 j t.flt.live = tget 0 j s.flt.live)) ∧
        (s.pwr.vkaOk = false → t.jnl = {} ∧ t.flt.live = [] ∧ t.tor = {})) ∧
      (¬(a < 40000 ∧ b < 40000) → exec (.feedLoss a b) s = .next s)) ∧
  (
    (
      ∀ (s : State), Safety.settled s →
        (∀ sensor, powered s = true → sensor < 60 → ∃ t, exec (.thermtrip sensor) s = .next t ∧ t.pwr.on = false ∧ t.pwr.tripped = true ∧ t.sto = {} ∧ t.cpu = {} ∧
          (s.pwr.aOk = true ∨ s.pwr.bOk = true ∨ s.pwr.vkaOk = true → pinLevel .thermtripN t = .low)) ∧
        (∀ sensor, 60 ≤ sensor → exec (.thermtrip sensor) s = .next s) ∧
        (s.pwr.on = false → s.pwr.aOk = false → s.pwr.bOk = false → ∃ t, exec .vkaLoss s = .next t ∧ t.pwr.vkaOk = false ∧ t.jnl = {} ∧ t.tor = {} ∧
          t.flt.live = [] ∧ t.flt.log = [] ∧ t.pln.flashA = s.pln.flashA) ∧
        ((s.pwr.on = true ∨ s.pwr.aOk = true ∨ s.pwr.bOk = true) → exec .vkaLoss s = .next { s with pwr := { s.pwr with vkaOk := false } }) ∧
        (∀ a b vka, ∃ t, exec (.feedGoodChange a b vka) s = .next t ∧ t.pwr.aOk = feedGood a ∧ t.pwr.bOk = feedGood b ∧ t.pwr.vkaOk = decide (3000 ≤ vka) ∧
          t.pwr.on = s.pwr.on ∧ (¬(a < 20000 ∧ b < 20000) → t.pwr.below20 = none) ∧ (s.pwr.below20 = none → t.pwr.tripped = s.pwr.tripped)) ∧
        (∀ a b vka t0, s.pwr.on = false → s.pwr.tripped = true → a < 20000 → b < 20000 → 3000 ≤ vka → s.pwr.below20 = some t0 →
          exec (.feedGoodChange a b vka) s = .next { s with pwr := { s.pwr with
            aOk := false, bOk := false, vkaOk := true, tripped := decide (s.tor.tor < t0 + 4000000000), below20 := some t0 } })) ∧
    (
      ∀ (low : Bool) (s : State), Safety.settled s →
        (s.pin.prsnt = true → powered s = true → ∃ t, exec .prsntDeassert s = .next t ∧ t.pwr.on = false ∧ t.pin.prsnt = false ∧ t.sto = {} ∧ t.cpu = {}) ∧
        (s.pin.prsnt = true → powered s = false → exec .prsntDeassert s = .next { s with pin := { s.pin with prsnt := false, resetLow := false } }) ∧
        (s.pin.prsnt = false → powered s = false → s.pwr.tripped = false → s.pin.sysLost = false → (s.pwr.aOk = true ∨ s.pwr.bOk = true) →
          ∃ t, exec (.hotInsertion low) s = .next t ∧ t.pin.prsnt = true ∧ t.pin.resetLow = low ∧ t.pwr.on = true ∧ t.pwr.phase = .firmware) ∧
        (s.pin.prsnt = false → s.pwr.aOk = false → s.pwr.bOk = false →
          exec (.hotInsertion low) s = .next { s with pin := { s.pin with prsnt := true, resetLow := low } })))

/-- Clocks. The loss of SYS_CLK is a UE-module event of the supply and a module checkstop; with a hub's lane clock lost every port of the hub is in
DETECT or DISABLED, and with HP_CLK lost the host link is down (27 R588). A lane clock that returns changes its pin alone; the host link may train
again with HP_CLK, and SYS_CLK lets a module with a good feed start (27 R588, R589). SMBus reads a sensor's word or the status word, and NACKs any
other code (27 R584). -/
def Obligations.ClocksAndSmbus : Prop :=
  ∀ (s : State), Safety.settled s →
    (powered s = true → s.pin.sysLost = false → ∃ t, exec (.clockLoss .sys) s = .next t ∧ t.pin.sysLost = true ∧ t.flt.checkstop = true) ∧
    (operating s = true → s.pin.sdsNLost = false → ∃ t, exec (.clockLoss .sdsNorth) s = .next t ∧ t.pin.sdsNLost = true ∧
      ∀ p ∈ hubPorts false, (linkOf p t).state = 0 ∨ (linkOf p t).state = 1) ∧
    (operating s = true → s.pin.sdsSLost = false → ∃ t, exec (.clockLoss .sdsSouth) s = .next t ∧ t.pin.sdsSLost = true ∧
      ∀ p ∈ hubPorts true, (linkOf p t).state = 0 ∨ (linkOf p t).state = 1) ∧
    (operating s = true → s.pin.hpLost = false → ∃ t, exec (.clockLoss .hp) s = .next t ∧ t.pin.hpLost = true ∧ t.hp.state = 0) ∧
    (operating s = true → s.armLink = [] → s.chLink = [] → s.pin.sdsNLost = false →
      exec (.clockLoss .sdsNorth) s = .next { s with pin := { s.pin with sdsNLost := true } }) ∧
    (exec (.clockReturn .sdsNorth) s = .next { s with pin := { s.pin with sdsNLost := false } }) ∧
    (exec (.clockReturn .sdsSouth) s = .next { s with pin := { s.pin with sdsSLost := false } }) ∧
    (∃ t, exec (.clockReturn .hp) s = .next t ∧ t.pin.hpLost = false ∧ (s.hp.state = 0 → s.hp.perst = false → s.pwr.on = true → t.hp.state = 1)) ∧
    (∃ t, exec (.clockReturn .sys) s = .next t ∧ t.pin.sysLost = false ∧
      (s.pwr.on = false → s.pwr.tripped = false → s.pin.prsnt = true → (s.pwr.aOk = true ∨ s.pwr.bOk = true) →
        t.pwr.on = true ∧ t.pwr.phase = .firmware)) ∧
    (powered s = true →
      (∀ n, n < 60 → exec (.smb4ReadWord n) s = .next { s with out := s.out ++ [.smbus (some (sensorWord n s))] }) ∧
      (exec (.smb4ReadWord 0x40) s = .next { s with out := s.out ++ [.smbus (some (fld (pwrStatus s) 63 48))] }) ∧
      (∀ n, 60 ≤ n → n ≠ 0x40 → exec (.smb4ReadWord n) s = .next { s with out := s.out ++ [.smbus none] }))

/-! ### DRAM (12_dram) -/

/-- Where a line lives. In a 16-way band the channel and the channel-local address are those of R260, bit by bit; and the map loses nothing: the
channel and the channel-local address of a module physical address name one of sixteen channels and lead back to that address, in 16-way and in 8-way
bands alike, so that no two addresses share a place (12 R260, R261). -/
def Obligations.DramMapIsInvertible : Prop :=
  ∀ (pa : Nat) (s : State),
    (band8 (pa / 2 ^ 34) s = false →
      channelOf pa s = (pa >>> 9 % 16) ^^^ (pa >>> 13 % 16) ^^^ (pa >>> 17 % 16) ^^^ (pa >>> 21 % 16) ^^^ (pa >>> 25 % 16) ^^^ (pa >>> 29 % 16) ^^^ (pa >>> 33 % 2) ∧
      localOf pa s = pa >>> 34 * 2 ^ 30 + (pa >>> 13 % 2 ^ 21) <<< 9 + pa % 512) ∧
    channelOf pa s < 16 ∧ localOf pa s / 2 ^ 30 = pa / 2 ^ 34 ∧ physAt (channelOf pa s) (localOf pa s) s = pa

/-- A controller in READY serves an access within one line. A write changes the bytes that it names and no other, and DRAM holds the
line's ciphertext under its key (18 R418); a whole line's bursts are poisoned
exactly if its data arrived so, and a smaller write of good data leaves poison as it is (12 R266 to R268). A read returns the bytes of memory and
changes none of them; an error of one device of a burst is corrected and is event 0x01 of the controller, one of two devices poisons the burst,
returns poisoned data and is event 0x03 (12 R265 to R267). Outside the used DRAM a read returns poisoned data and a write is discarded (12 R263). -/
def Obligations.DramWritesAndReads : Prop :=
  ∀ (r : DramReq) (s : State), Safety.settled s → operating s = true →
    (∀ data : List Byte, r.write = some data → 0 < data.length → r.pa % 128 + data.length ≤ 128 → physKind r.pa s = .dram →
      (dramOf (channelOf r.pa s) s).state = 2 →
      (data.length = 128 → ∃ t, exec (.dramRequest r) s = .next t ∧
        (∀ b, storedByte b t = if ownAddr r.pa s ≤ b ∧ b < ownAddr r.pa s + 128 then data.getD (b - ownAddr r.pa s) 0 else storedByte b s) ∧
        (∀ b, tget false b t.sto.poison = if b = ownAddr r.pa s / 64 ∨ b = (ownAddr r.pa s + 127) / 64 then r.poisoned else tget false b s.sto.poison) ∧
        t.cpu = s.cpu ∧ t.tor = s.tor ∧ t.pln = s.pln ∧ t.flt.status = s.flt.status ∧
        t.out = s.out ++ [.dramLine (channelOf r.pa s) (r.pa / 128) (lineCipher (ownAddr r.pa s / 128) t)]) ∧
      (r.err = [] → r.err1 = [] → r.poisoned = false → data.length < 128 → ∃ t, exec (.dramRequest r) s = .next t ∧
        (∀ b, storedByte b t = if ownAddr r.pa s ≤ b ∧ b < ownAddr r.pa s + data.length then data.getD (b - ownAddr r.pa s) 0
          else storedByte b s) ∧
        t.sto.poison = s.sto.poison ∧ t.cpu = s.cpu ∧ t.tor = s.tor ∧ t.pln = s.pln ∧ t.flt.status = s.flt.status ∧
        t.out = s.out ++ [.dramLine (channelOf r.pa s) (r.pa / 128) (lineCipher (ownAddr r.pa s / 128) t)])) ∧
    (r.write = none → 0 < r.len → r.pa % 128 + r.len ≤ 128 → physKind r.pa s = .dram → (dramOf (channelOf r.pa s) s).state = 2 →
      linePoisoned (ownAddr r.pa s / 128) s = false →
      (r.err = [] → r.err1 = [] → ∃ t, exec (.dramRequest r) s = .next t ∧ t.sto = s.sto ∧ t.cpu = s.cpu ∧ t.flt.status = s.flt.status ∧
        t.out = s.out ++ [.dramData (channelOf r.pa s) ((List.range r.len).map (fun i => storedByte (ownAddr r.pa s + i) s)) false]) ∧
      (∀ d, d < 10 → r.err = [d] → r.err1 = [d] → r.pa % 64 + r.len ≤ 64 → Safety.graceful s → (fltStatus (srcDram (channelOf r.pa s)) s).pending = false →
        ∃ t, exec (.dramRequest r) s = .next t ∧ t.sto = s.sto ∧ (fltStatus (srcDram (channelOf r.pa s)) t).event = 1 ∧
          (fltStatus (srcDram (channelOf r.pa s)) t).pending = true ∧ fld (dramOf (channelOf r.pa s) t).err 63 62 = 1 ∧
          t.out.getLast? = some (.dramData (channelOf r.pa s) ((List.range r.len).map (fun i => storedByte (ownAddr r.pa s + i) s)) false)) ∧
      (∀ d e, d < 10 → e < 10 → d ≠ e → r.err = [d, e] → r.err1 = [d, e] → r.pa % 64 + r.len ≤ 64 → Safety.graceful s →
        (fltStatus (srcDram (channelOf r.pa s)) s).pending = false →
        ∃ t, exec (.dramRequest r) s = .next t ∧ t.sto.mem = s.sto.mem ∧ tget false (ownAddr r.pa s / 64) t.sto.poison = true ∧
          (fltStatus (srcDram (channelOf r.pa s)) t).event = 3 ∧ (fltStatus (srcDram (channelOf r.pa s)) t).pending = true ∧
          t.out.getLast? = some (.dramData (channelOf r.pa s) ((List.range r.len).map (fun i => storedByte (ownAddr r.pa s + i) s)) true))) ∧
    (physKind r.pa s ≠ .dram → Safety.graceful s →
      (r.write = none → 0 < r.len → r.pa % 128 + r.len ≤ 128 → ∃ t, exec (.dramRequest r) s = .next t ∧ t.sto = s.sto ∧
        t.out.getLast? = some (.dramData (channelOf r.pa s) (List.replicate r.len 0) true)) ∧
      (∀ data : List Byte, r.write = some data → ∃ t, exec (.dramRequest r) s = .next t ∧ t.sto = s.sto))

/-- Refresh, scrub, re-centring, speed and training of a controller. A tick adds to the debt, and above 4 a REFab pays one and closes every bank
(R270); a scrub, once in its interval, reads the next line (R279); re-centring notes its TOR (R276). SPEED is the service core's, and turns down a bad
argument, a controller in training, and one in use (R277, R283); a training that succeeds everywhere makes every controller READY with empty contents,
one that fails above the lowest speed starts the next lower, counted in 0x29D, and one that fails at the lowest fails the channel and checkstops the
module (R259, R275); a parity alert is replayed three times, and the fourth in a row fails the channel and checkstops the module (R281). -/
def Obligations.DramMaintenance : Prop :=
  ∀ (n : Nat) (s : State), Safety.settled s → operating s = true → n < 16 →
    ((dramOf n s).state = 2 →
      ((dramOf n s).debt < 4 ∨ (dramOf n s).paying = true → exec (.refreshTick n) s = .next (setDram n { dramOf n s with debt := (dramOf n s).debt + 1 } s)) ∧
      (4 ≤ (dramOf n s).debt → (dramOf n s).paying = false →
        exec (.refreshTick n) s = .next (setDram n { dramOf n s with openRow := [], replays := 0 } s)) ∧
      ((dramOf n s).debt = 0 → exec (.refreshIdle n) s = .next s) ∧
      (0 < (dramOf n s).debt → exec (.refreshIdle n) s = .next (setDram n { dramOf n s with
        debt := (dramOf n s).debt - 1, openRow := [], replays := 0, paying := (dramOf n s).paying && decide (1 < (dramOf n s).debt) } s))) ∧
    ((dramOf n s).state = 2 → 0 < (dramOf n s).capGiB →
      (dramOf n s).scrubbed / scrubTicks (dramOf n s) ≠ s.tor.tor / scrubTicks (dramOf n s) →
      (∀ err, Safety.graceful s → ∃ t, exec (.patrolScrub n err) s = .next t ∧ t.sto.mem = s.sto.mem ∧
        (dramOf n t).scrubbed = s.tor.tor ∧ (dramOf n t).pos = (if (dramOf n s).pos + 1 < (dramOf n s).capGiB * 2 ^ 23 then (dramOf n s).pos + 1 else 0)) ∧
      (∃ t, exec (.patrolScrub n ([], [])) s = .next t ∧ t.sto = s.sto ∧ t.cpu = s.cpu ∧ t.flt = s.flt)) ∧
    (periodDue recentreTicks s.tor.centred s = true → ∀ low, ∃ t, exec (.recentre low) s = .next t ∧ t.tor.centred = s.tor.tor ∧
      (dramOf n t).lastRecentre = (if (dramOf n s).state = 2 then s.tor.tor else (dramOf n s).lastRecentre) ∧ t.sto = s.sto ∧
      (low = [] → t.flt = s.flt) ∧ (low = [n] → (dramOf n s).state = 2 → tget 0 0x29E t.flt.live = sat16 (tget 0 0x29E s.flt.live))) ∧
    (∀ (v : View) (arg : Nat),
      (v ≠ .service → exec (.speed v n arg) s = .next s) ∧
      (2 < arg → exec (.speed .service n arg) s = .next (setDram n { dramOf n s with lastResult := 3 } s)) ∧
      (arg ≤ 2 → (dramOf n s).state = 1 → exec (.speed .service n arg) s = .next (setDram n { dramOf n s with lastResult := 1 } s)) ∧
      (arg ≤ 2 → (dramOf n s).state ≠ 1 → (((dramOf n s).state ≠ 2 ∧ (dramOf n s).state ≠ 4) ∨ noneApplied s = false) →
        exec (.speed .service n arg) s = .next (setDram n { dramOf n s with lastResult := 0x0C } s)) ∧
      (arg ≤ 2 → ((dramOf n s).state = 2 ∨ (dramOf n s).state = 4) → noneApplied s = true →
        ∃ t, exec (.speed .service n arg) s = .next t ∧ (∀ k, k < 16 → (dramOf k t).state = 1 ∧ (dramOf k t).speed = arg) ∧ t.sto = s.sto)) ∧
    (∀ rs : List TrainResult, (dramOf n s).state = 1 →
      ((∀ k, k < 16 → trained (rs.getD k ⟨0, 0, 0, 0, false⟩) = true) → ∃ t, exec (.trainingComplete rs) s = .next t ∧ t.sto.mem = [] ∧
        ∀ k, k < 16 → (dramOf k t).state = 2 ∧ (dramOf k t).contentLost = true ∧ (dramOf k t).capGiB = (rs.getD k ⟨0, 0, 0, 0, false⟩).capGiB) ∧
      (∀ j, j < 16 → trained (rs.getD j ⟨0, 0, 0, 0, false⟩) = false →
        (0 < (dramOf 0 s).speed → ∃ t, exec (.trainingComplete rs) s = .next t ∧ t.sto.mem = [] ∧
          tget 0 0x29D t.flt.live = sat16 (tget 0 0x29D s.flt.live) ∧
          ∀ k, k < 16 → (dramOf k t).state = 1 ∧ (dramOf k t).contentLost = true ∧ (dramOf k t).speed = (dramOf 0 s).speed - 1) ∧
        ((dramOf 0 s).speed = 0 → ∃ t, exec (.trainingComplete rs) s = .next t ∧ t.flt.checkstop = true ∧ (dramOf j t).state = 4))) ∧
    ((dramOf n s).state = 2 →
      ((dramOf n s).replays < 3 →
        exec (.caParityAlert n) s = .next (patina (srcDram n) (setDram n { dramOf n s with replays := (dramOf n s).replays + 1 } s))) ∧
      (3 ≤ (dramOf n s).replays → ∃ t, exec (.caParityAlert n) s = .next t ∧ t.flt.checkstop = true ∧ (dramOf n t).state = 4))

/-! ### Recast (20_retry_recast) and the control stores (23_control_store) -/

/-- Recast. The command is the service core's: accepted, it is due and BUSY, with no regard to partitions; while BUSY, for no logical core, for one
that is not in service, or with no spare or a recast running in its cluster it has result STATE and no other effect (R474, R475). A hard error with
the spare free stalls the core, and so does a due trigger at the core's next boundary (R465, R466); a checkpoint error, or any hard error without a
spare, takes the core out of service (R465, R469). The spare's self-check passing moves the core, whose stores are drained, to the spare slot with its
registers kept and its reservation lost (R466, R467); a spare that fails is FAILED, and a core with a hard error leaves service (R469, R470). -/
def Obligations.RecastMovesCoreToSpare : Prop :=
  ∀ (l : Nat) (s : State), Safety.settled s → operating s = true → l < 192 →
    (∀ v, v ≠ .service → exec (.recast v l) s = .next s) ∧
    (∀ k, s.cpu.recBusy = true → exec (.recast .service k) s = .next { s with cpu := { s.cpu with recResult := 0x0C } }) ∧
    (∀ k, s.cpu.recBusy = false → 192 ≤ k → exec (.recast .service k) s = .next { s with cpu := { s.cpu with recLogical := k % 256, recResult := 0x0C } }) ∧
    (s.cpu.recBusy = false → inService l s = true → spareFree (l / 16) s = true →
      ∃ t, exec (.recast .service l) s = .next t ∧ t.cpu.recBusy = true ∧ t.cpu.recLogical = l ∧ t.cpu.recResult = 0 ∧
        recastIn (l / 16) t = some ⟨l, .commanded, true⟩ ∧ t.sto = s.sto ∧ t.cpu.core = s.cpu.core) ∧
    (s.cpu.recBusy = false → (inService l s = false ∨ spareFree (l / 16) s = false) →
      exec (.recast .service l) s = .next { s with cpu := { s.cpu with recLogical := l, recResult := 0x0C } }) ∧
    (Safety.graceful s → s.mq.queue = [] →
      (∀ k, inService l s = true → hardKind k = true → k ≠ .checkpoint → spareFree (l / 16) s = true →
        ∃ t, exec (.recastSequence l k) s = .next t ∧ recState l t = 1 ∧ recastIn (l / 16) t = some ⟨l, k, false⟩) ∧
      (∀ k, inService l s = true → hardKind k = true → (k = .checkpoint ∨ spareFree (l / 16) s = false) →
        ∃ t, exec (.recastSequence l k) s = .next t ∧ inService l t = false) ∧
      (∀ k b, inService l s = true → hardKind k = false → recastIn (l / 16) s = some ⟨l, k, b⟩ → begun (coreOf l s) = false →
        ∃ t, exec (.recastSequence l k) s = .next t ∧ recState l t = 1 ∧ recastIn (l / 16) t = some ⟨l, k, b⟩) ∧
      (∀ r parts path, recState l s = 1 → recastIn (l / 16) s = some r → r.logical = l →
        (drained l s = true → ∃ t, exec (.recastComplete l true parts path) s = .next t ∧ slotOf l t = 17 * (l / 16) + 16 ∧ recState l t = 0 ∧
          spareState (l / 16) t = 1 ∧ recastIn (l / 16) t = none ∧ (coreOf l t).g = (coreOf l s).g ∧ (coreOf l t).f = (coreOf l s).f ∧
          (coreOf l t).pc = (coreOf l s).pc ∧ (coreOf l t).tsw = (coreOf l s).tsw ∧ (coreOf l t).resv = none ∧
          (fltStatus (srcSlot (slotOf l s)) t).pending = true) ∧
        (∃ t, exec (.recastComplete l false parts path) s = .next t ∧ spareState (l / 16) t = 2 ∧ recastIn (l / 16) t = none ∧
          (r.byCmd = true → t.cpu.recBusy = false ∧ t.cpu.recResult = 0x10) ∧
          (hardKind r.trigger = true → inService l t = false) ∧ (r.trigger = .predictive → recState l t = 0))))

/-! ### Cores (04_issue_groups, 05_binary_integer, 08_program_state, 10_storage_order) -/

/-- A group of one A operation, here ADD to ROTL in a register, immediate or .c form, which takes no overflow interruption, commits: after it the
destination register and, in the .c form, CC hold what the operation gives, a write to g0 is discarded, PC is the address after the group, and no
other register or control register of the core, no other core and no byte of storage has changed (04 R77, R86, R92; 05 R121, R122). `s1` is the state
after the fetch, which changes caches and translations alone; no line of the monitor waits. A group whose fourth attempt fails is a hard error of its
core, which stalls for its spare or leaves service (20 R462, R465). -/
def Obligations.GroupOfOneIntegerOperationCommits : Prop :=
  (
    ∀ (l : Nat) (s s1 : State) (f : Fetched) (op : AluOp) (cc : Bool) (rd ra : Nat) (b : Src), Safety.settled s → coreLive l s = true →
      coreHeld l s = false → (coreOf l s).run = .running → condPending l s = false → midGroup (coreOf l s) = false → (coreOf l s).rep = none → (coreOf l s).attempts = 0 →
      (coreOf l s).mqStep = false → mqBusy s1 = false → s.mq.queue = [] → sbCount (coreOf l s).sb ≤ 48 →
      fetchGroup l (coreOf l s).pc.toNat s = .ok f s1 → s1 = { s with cpu := s1.cpu, sto := s1.sto, free := s1.free } →
      coreOf l s1 = { coreOf l s with l1i := (coreOf l s1).l1i, l1d := (coreOf l s1).l1d, l2 := (coreOf l s1).l2, dtlb := (coreOf l s1).dtlb,
                                      itlb := (coreOf l s1).itlb, tlb2 := (coreOf l s1).tlb2, walk := (coreOf l s1).walk } →
      decodeGroup f.raw f.stop = .ops [.alu op cc rd ra b] →
      (cc && (aluResult op (getG (coreOf l s) ra) (srcVal (coreOf l s) b)).2 && tswFom (coreOf l s)) = false →
      ∃ t, exec (.issueGroup l 0) s = .next t ∧ (coreOf l t).pc = BitVec.ofNat 64 f.next ∧
        (∀ n, getG (coreOf l t) n = if n = rd ∧ n ≠ 0 then (aluResult op (getG (coreOf l s) ra) (srcVal (coreOf l s) b)).1 else getG (coreOf l s) n) ∧
        (coreOf l t).tsw = (if cc then setFld (coreOf l s).tsw 49 48 (aluCc op (getG (coreOf l s) ra) (srcVal (coreOf l s) b)).toNat else (coreOf l s).tsw) ∧
        (coreOf l t).f = (coreOf l s).f ∧ (coreOf l t).fpc = (coreOf l s).fpc ∧ (coreOf l t).sb = (coreOf l s).sb ∧
        (coreOf l t).run = .running ∧ (coreOf l t).resv = (coreOf l s).resv ∧ (coreOf l t).torctl = (coreOf l s).torctl ∧
        (∀ k, k ≠ l → coreOf k t = coreOf k s1) ∧ t.sto = s1.sto ∧ t.tor = s.tor ∧ t.flt = s.flt ∧ t.pln = s.pln) ∧
  (
    ∀ (l failed : Nat) (s : State), Safety.settled s → Safety.graceful s → coreLive l s = true → s.mq.queue = [] → 4 ≤ failed →
      (spareFree (l / 16) s = true → ∃ t, exec (.issueGroup l failed) s = .next t ∧ recState l t = 1 ∧ recastIn (l / 16) t = some ⟨l, .hard, false⟩) ∧
      (spareFree (l / 16) s = false → ∃ t, exec (.issueGroup l failed) s = .next t ∧ inService l t = false))

/-- The first enabled condition of a boundary is taken, by the command of its class: the old TSW and PC go to RTSW and RPC and into the TCA's slot of
the class, with the information fields, the new ones come from the slot, the reservation is lost, a machine check that was taken is no longer pending,
and general and floating-point registers are kept (08 R175, R177, R179, R186, R188). `s1` and `s2` are the states after the two reads of the slot,
which change caches alone. -/
def Obligations.InterruptionSavesAndLoadsState : Prop :=
  ∀ (c : Instr) (l : Nat) (s s1 s2 : State) (k : Cond) (a attr base : Nat) (newTsw newPc : List Byte), Safety.settled s → atBoundary l s = true →
    (coreOf l s).run = .running → firstCond l s = some k →
    (((∃ e, k = .ext e) ∧ c = .externalInterruption l) ∨ ((∃ o, k = .io o) ∧ c = .ioInterruption l) ∨
      (((∃ m, k = .mc m) ∨ (∃ m, k = .exigent m)) ∧ c = .machineCheck l)) →
    tcaPlace l s = some (a, attr) → base = a + 0x20 * (condInfo l (coreOf l s).pc k s).k →
    sysRead l attr (base + 0x10) 8 s = .val newTsw s1 → sysRead l attr (base + 0x18) 8 s1 = .val newPc s2 →
    s2 = { s with cpu := s2.cpu, sto := s2.sto } →
    coreOf l s2 = { coreOf l s with l1i := (coreOf l s2).l1i, l1d := (coreOf l s2).l1d, l2 := (coreOf l s2).l2 } →
    tswOk (BitVec.ofNat 64 (beNat newTsw)) = true → pcOk (BitVec.ofNat 64 (beNat newPc) : Long).toNat = true → (coreOf l s).wc = [] →
    sbCount (coreOf l s).sb + exchangeNeed a (condInfo l (coreOf l s).pc k s) ≤ 48 →
    ∃ t, exec c s = .next t ∧ (coreOf l t).rtsw = (coreOf l s).tsw ∧ (coreOf l t).rpc = (coreOf l s).pc ∧
      (coreOf l t).tsw = BitVec.ofNat 64 (beNat newTsw) ∧ (coreOf l t).pc = BitVec.ofNat 64 (beNat newPc) ∧
      (coreOf l t).resv = none ∧ (coreOf l t).run = .running ∧ (coreOf l t).g = (coreOf l s).g ∧ (coreOf l t).f = (coreOf l s).f ∧
      (∀ w ∈ (base, beBytes 8 (coreOf l s).tsw.toNat) :: (base + 8, beBytes 8 (coreOf l s).pc.toNat) ::
          (condInfo l (coreOf l s).pc k s).writes.map (fun w => (a + w.1, w.2)),
        ∀ j, j < w.2.length → ∃ x ∈ (coreOf l t).sb, x.attr = attr ∧ x.addr ≤ w.1 + j ∧ x.data[w.1 + j - x.addr]? = w.2[j]?) ∧
      (∀ m, k = .mc m → (coreOf l t).mcs = (coreOf l s).mcs.tail) ∧ (∀ m, k = .exigent m → (coreOf l t).exig = (coreOf l s).exig.tail) ∧
      t.sto = s2.sto ∧ t.tor = s.tor ∧ t.flt = s.flt

/-- A wait ends at its deadline: the core runs, and nothing else changes (08 R183). A store that is performed at once, at CLUSTER scope, stays in the
buffer with its place in the cluster's order; one performed at SYSTEM scope in local write-back storage leaves the buffer, every observer sees its
bytes, and every other byte is seen as before (10 R217, R237; 11 R243). -/
def Obligations.WaitsEndAndStoresArePerformed : Prop :=
  (
    ∀ (l t0 : Nat) (s : State), Safety.settled s → coreLive l s = true → coreHeld l s = false →
      ((coreOf l s).run = .waiting (some t0) ∨ (coreOf l s).run = .gated (some t0)) →
      (t0 ≤ s.tor.tor → exec (.waitevDeadline l) s = .next (setCore l { coreOf l s with run := .running } s)) ∧
      (s.tor.tor < t0 → exec (.waitevDeadline l) s = .next s)) ∧
  (
    ∀ (l i : Nat) (bad : Bool) (e : SbEntry) (s : State), Safety.settled s → operating s = true → l < 192 → (coreOf l s).sb[i]? = some e →
      e.data.length ≤ e.grain →
      (mayPerform l i false s = true → ∃ t, exec (.storeBufferPerform l i false bad) s = .next t ∧
        (coreOf l t).sb[i]? = some { e with cluster := some s.cpu.clusterSeq } ∧ t.cpu.clusterSeq = s.cpu.clusterSeq + 1 ∧ t.sto = s.sto ∧
        (coreOf l t).g = (coreOf l s).g ∧ (coreOf l t).pc = (coreOf l s).pc) ∧
      (mayPerform l i true s = true → e.attr = 0 → dataCached (coreOf l s) = true → isLocal e.addr s = true → physKind (physOfAddr e.addr) s = .dram →
        remoteReady e.addr true s = true → cacheHas geoL1D (lineOf e.addr) (coreOf l s).l1d = true → tget none (lineOf e.addr) (coreOf l s).held1 = none →
        tget none (lineOf e.addr) (coreOf l s).held2 = none → twf none s.cpu.dirty = true →
        ∃ t, exec (.storeBufferPerform l i true false) s = .next t ∧ (coreOf l t).sb = (coreOf l s).sb.eraseIdx i ∧
          (∀ j, j < e.data.length → cohByte (e.addr + j) t = e.data.getD j 0) ∧
          (∀ b, (b < e.addr ∨ e.addr + e.data.length ≤ b) → cohByte b t = cohByte b s) ∧
          (coreOf l t).g = (coreOf l s).g ∧ (coreOf l t).pc = (coreOf l s).pc ∧ t.flt = s.flt ∧ t.tor = s.tor))

/-! ### Control stores (23_control_store) -/

/-- The scrub of a store moves on over its words; a flipped bit is corrected, counted and raised as event 0x01, and a word with two is put under
repair with the event; a repair that a copy served is counted and leaves the word sound, and one that none served takes the store out of service and
checkstops the module; bits are flipped by the service core only, with every partition at rest (R516 to R518, R525). CS_CMD STORE_A and STORE_B, of an
administrator: while busy result STATE; a staged image that fails a check has that check's result and changes no flash copy; a sound one is programmed
into its copy with result OK; one whose programming fails has result FLASH (R521, R523). The images in force and the stores are as before. -/
def Obligations.ControlStoresScrubAndStore : Prop :=
  (
    ∀ (n : Nat) (s : State), Safety.settled s → operating s = true → n < 30 →
      ((storeOf n s).state = 1 → (storeOf n s).repair = none →
        (tget 0 (storeOf n s).pos (storeOf n s).flips = 0 → (storeOf n s).pos + 1 ≠ targetWords (storeTarget n) →
          exec (.csScrub n) s = .next (setStore n { storeOf n s with pos := (storeOf n s).pos + 1 } s)) ∧
        (tget 0 (storeOf n s).pos (storeOf n s).flips = 0 → (storeOf n s).pos + 1 = targetWords (storeTarget n) →
          exec (.csScrub n) s = .next (setStore n { storeOf n s with pos := 0, passes := satAdd 30 (storeOf n s).passes 1 } s)) ∧
        (tget 0 (storeOf n s).pos (storeOf n s).flips = 1 → Safety.graceful s → (fltStatus (storeSource n) s).pending = false →
          ∃ t, exec (.csScrub n) s = .next t ∧ tget 0 (storeOf n s).pos (storeOf n t).flips = 0 ∧ (storeOf n t).ce = satAdd 16 (storeOf n s).ce 1 ∧
            (fltStatus (storeSource n) t).event = 1 ∧ (fltStatus (storeSource n) t).pending = true ∧ t.sto = s.sto) ∧
        (tget 0 (storeOf n s).pos (storeOf n s).flips = 3 → Safety.graceful s → (fltStatus (storeSource n) s).pending = false →
          ∃ t, exec (.csScrub n) s = .next t ∧ (storeOf n t).repair = some (storeOf n s).pos ∧ (storeOf n t).flips = (storeOf n s).flips ∧
            (fltStatus (storeSource n) t).event = 1 ∧ (fltStatus (storeSource n) t).pending = true ∧ t.sto = s.sto)) ∧
      (∀ (a : Nat) (d f : Bool), (storeOf n s).repair = some a →
        ((d || f) = true → exec (.csRepairDone n d f) s = .next (setStore n { storeOf n s with
          repair := none, flips := tdel a (storeOf n s).flips, repairs := satAdd 16 (storeOf n s).repairs 1 } s)) ∧
        ((d || f) = false → ∃ t, exec (.csRepairDone n d f) s = .next t ∧ (storeOf n t).state = 2 ∧ t.flt.checkstop = true)) ∧
      (∀ v k, v ≠ .service → exec (.inject v k) s = .next s) ∧
      (s.cs.diagStore = n → s.cs.diagAddr < targetWords (storeTarget n) → (storeOf n s).state = 1 → allAtRest s = true →
        exec (.inject .service 1) s = .next (setStore n { storeOf n s with flips := tset 0 s.cs.diagAddr (tget 0 s.cs.diagAddr (storeOf n s).flips ^^^ 1) (storeOf n s).flips } s) ∧
        exec (.inject .service 2) s = .next (setStore n { storeOf n s with flips := tset 0 s.cs.diagAddr (tget 0 s.cs.diagAddr (storeOf n s).flips ^^^ 3) (storeOf n s).flips } s)) ∧
      (allAtRest s = false → ∀ k, exec (.inject .service k) s = .next s)) ∧
  (
    ∀ (v : View) (c : Bool → Instr) (copy : Nat) (s : State) (b : List Byte), Safety.settled s → admin v s = true → operating s = true →
      ((c = (fun ok => .csStoreA v ok) ∧ copy = 0) ∨ (c = (fun ok => .csStoreB v ok) ∧ copy = 1)) →
      (s.cs.busy = true → ∀ ok, ∃ t, exec (c ok) s = .next t ∧ t.cs = { s.cs with result := 0x0C } ∧ t.sto = s.sto ∧ t.cpu = s.cpu) ∧
      (s.cs.busy = false → b = (if s.cs.stageOffset + s.cs.stageLength ≤ svcSize then svcBytes s.cs.stageOffset s.cs.stageLength s else []) →
        (∀ r ok, csCheck none b s = .inl r → ∃ t, exec (c ok) s = .next t ∧ t.cs = { s.cs with result := r } ∧ t.sto = s.sto ∧ t.cpu = s.cpu) ∧
        (∀ i, csCheck none b s = .inr i →
          (∃ t, exec (c true) s = .next t ∧ t.cs = { s.cs with result := 0, flash := tset none (copy * 8 + natAt b 6 1) (some b) s.cs.flash } ∧ t.sto = s.sto ∧ t.cpu = s.cpu) ∧
          (∃ t, exec (c false) s = .next t ∧ t.cs.result = 0x0E ∧ t.cs.img = s.cs.img ∧ t.cs.store = s.cs.store ∧ t.sto = s.sto ∧ t.cpu = s.cpu))))

/-! ### The link layer (13_serial_links) -/

/-- Training: from DETECT through EQUALISE, ALIGN and LINK_INIT to KEY, with the lanes found, the width of R295 and the peer's buffers as credit; a
fault of the exchange, or the limit of a state, leads to DOWN, or in KEY to a clear link where the image permits it, and DOWN after 10 ms to DETECT or
DISABLED (R293 to R295, R297). -/
def Obligations.LinkTrainsToKey : Prop :=
  ∀ (p : PortId) (s : State), Safety.settled s → operating s = true → portExists p = true → Safety.graceful s →
    (∀ lanes : List Nat, (linkOf p s).state = 1 → clockOff p s = false → 2 ≤ ((lanes.filter (fun i => decide (i < portLanes p))).eraseDups).length →
      exec (.laneSignalDetect p lanes) s = .next (setLink p { linkOf p s with state := 2, since := s.tor.tor } s)) ∧
    (∀ lanes, (linkOf p s).state = 2 → ∃ t, exec (.equaliseComplete p lanes) s = .next t ∧
      linkOf p t = { takeLanes p false lanes (linkOf p s) with state := 3, since := s.tor.tor } ∧ (∀ q, q ≠ p → linkOf q t = linkOf q s) ∧ t.sto = s.sto ∧ t.flt = s.flt) ∧
    (∀ (m : BitVec 8) (l : Link) (w : Nat × Nat), l = { linkOf p s with peerGood := m.toNat % 2 ^ portLanes p } →
      w = chooseWidth p (widthLimit p l s) (goodMask p l) →
      ((linkOf p s).state = 3 → w.1 ≠ 0 → ∃ t, exec (.alignComplete p m) s = .next t ∧ (linkOf p t).state = 4 ∧ (linkOf p t).since = s.tor.tor ∧
        (linkOf p t).width = w.1 ∧ (linkOf p t).group = w.2 ∧ (linkOf p t).peerGood = m.toNat % 2 ^ portLanes p ∧
        Out.flit p (codeword (mkFlit (flitHeader 2 0 0 (linkAck (linkOf p s)) false false 0 0 0 0 false false)
          ([1, (match p with | .arm _ => 0 | .ch _ => 1), BitVec.ofNat 8 (ownGood p (linkOf p s))] ++ (rxBuffers p).flatMap (beBytes 2)))) ∈ t.out ∧
        t.sto = s.sto ∧ t.flt = s.flt) ∧
      ((linkOf p s).state = 3 → w.1 = 0 → ∃ t, exec (.alignComplete p m) s = .next t ∧ (linkOf p t).state = 8 ∧ (linkOf p t).since = s.tor.tor) ∧
      (∀ buffers, (linkOf p s).state = 4 → w.1 ≠ 0 → ∃ t, exec (.linkInitFlit p true m buffers) s = .next t ∧ (linkOf p t).state = 5 ∧
        (linkOf p t).since = s.tor.tor ∧ (linkOf p t).width = w.1 ∧ (linkOf p t).group = w.2 ∧
        (∀ vc, vc ≠ (match p with | .arm _ => 3 | .ch _ => 0) →
          tget 0 vc (linkOf p t).credits = if vc < (match p with | .arm _ => 4 | .ch _ => 2) then buffers.getD vc 0 else 0) ∧ t.sto = s.sto) ∧
      (∀ buffers, (linkOf p s).state = 4 → w.1 = 0 → ∃ t, exec (.linkInitFlit p true m buffers) s = .next t ∧ (linkOf p t).state = 8) ∧
      (∀ buffers, (linkOf p s).state = 4 → ∃ t, exec (.linkInitFlit p false m buffers) s = .next t ∧ (linkOf p t).state = 8)) ∧
    (∀ n, linkLimit (linkOf p s).state = some n →
      ((linkOf p s).since + n ≤ s.tor.tor → ((linkOf p s).state ≠ 5 ∨ clearAllowed p s = false) →
        ∃ t, exec (.linkStateTimeout p) s = .next t ∧ (linkOf p t).state = 8 ∧ (linkOf p t).since = s.tor.tor ∧ (linkOf p t).secret = [] ∧
          (linkOf p t).downs = satAdd 16 (linkOf p s).downs 1 ∧ (fltStatus (srcPort p) t).pending = true ∧
          ((linkOf p s).state ≠ 7 → (linkOf p t).replay = [] ∧ t.sto = s.sto ∧ t.cpu = s.cpu)) ∧
      ((linkOf p s).since + n ≤ s.tor.tor → (linkOf p s).state = 5 → clearAllowed p s = true →
        ∃ t, exec (.linkStateTimeout p) s = .next t ∧ (linkOf p t).state = 6 ∧ (linkOf p t).clear = true ∧ (linkOf p t).encOn = false) ∧
      (s.tor.tor < (linkOf p s).since + n → exec (.linkStateTimeout p) s = .next s)) ∧
    ((linkOf p s).state = 8 →
      ((linkOf p s).since + 40000000 ≤ s.tor.tor → portEnabled p s = true →
        exec (.downExpiry p) s = .next (setLink p { linkOf p s with state := 1, since := s.tor.tor } s)) ∧
      ((linkOf p s).since + 40000000 ≤ s.tor.tor → portEnabled p s = false →
        ∃ t, exec (.downExpiry p) s = .next t ∧ (linkOf p t).state = 0 ∧ (linkOf p t).since = s.tor.tor ∧
          ∀ i, i < portLanes p → (laneOf i (linkOf p t)).lock = false) ∧
      (s.tor.tor < (linkOf p s).since + 40000000 → exec (.downExpiry p) s = .next s))

/-- A port that carries flits: lanes, widths, keys and control. A lane that misses two alignment slots in a row, or is skewed, is failed, and an
agreed change of width is taken there; the WIDTH exchange goes over to the masks' intersection and ends when both agree, and until then its flit
repeats; keys rotate at each multiple of 600 s and the old phase is erased; CNT_CLR, LANE_OFF, LANE_RETRY and DISABLE act as LNK_CTL says, and
RETRAIN, which is ignored elsewhere, leads to RECOVERY and back with the replay buffer and keys kept, or to DOWN where no width is left (R289, R294
to R296, R299, R300). -/
def Obligations.ActiveLinkKeepsLanesWidthAndKeys : Prop :=
  ∀ (p : PortId) (v : View) (s : State), Safety.settled s → operating s = true → portExists p = true → admin v s = true → Safety.graceful s →
    (((linkOf p s).state = 5 ∨ (linkOf p s).state = 6) →
      ((linkOf p s).widthPending = false → ∀ missed skewed : List Nat, ∃ t, exec (.alignmentSlot p missed skewed) s = .next t ∧
        (linkOf p t).slots = satAdd 64 (linkOf p s).slots 1 ∧ (linkOf p t).state = (linkOf p s).state ∧ (linkOf p t).width = (linkOf p s).width ∧
        (∀ i, i < portLanes p →
          (laneOf i (linkOf p t)).failed = ((laneOf i (linkOf p s)).failed || (missed.contains i && decide (1 ≤ (laneOf i (linkOf p s)).missed)) || skewed.contains i) ∧
          (missed.contains i = false → (laneOf i (linkOf p t)).missed = 0)) ∧ t.sto = s.sto ∧ t.flt = s.flt) ∧
      (∀ (l : Link) (w : Nat × Nat), (linkOf p s).widthPending = true → (linkOf p s).widthAgreed = true →
        l = { markOff p (linkOf p s) with widthPending := false, widthAgreed := false } → w = chooseWidth p (widthLimit p l s) (goodMask p l) → w.1 ≠ 0 →
        ∃ t, exec (.alignmentSlot p [] []) s = .next t ∧ (linkOf p t).width = w.1 ∧ (linkOf p t).group = w.2 ∧ (linkOf p t).widthPending = false ∧
          (linkOf p t).state = (linkOf p s).state) ∧
      (∀ m : BitVec 8, ∃ t, exec (.widthFlit p m) s = .next t ∧ (linkOf p t).peerGood = m.toNat % 2 ^ portLanes p ∧ (linkOf p t).widthPending = true ∧
        (linkOf p t).widthSent = ownGood p (linkOf p s) &&& (m.toNat % 2 ^ portLanes p) ∧
        (linkOf p t).widthAgreed = ((linkOf p t).widthSent == m.toNat % 2 ^ portLanes p) ∧ (linkOf p t).width = (linkOf p s).width ∧ t.sto = s.sto ∧ t.flt = s.flt) ∧
      ((linkOf p s).widthPending = true → (linkOf p s).widthAgreed = false →
        ((linkOf p s).widthAt + 4000 ≤ s.tor.tor → ∃ t, exec (.widthFlitRepeat p) s = .next t ∧ (linkOf p t).widthAt = s.tor.tor ∧
          Out.flit p (codeword (mkFlit (flitHeader 2 0 0 (linkAck (linkOf p s)) false false 0 0 0 0 false false) [2, BitVec.ofNat 8 (linkOf p s).widthSent])) ∈ t.out ∧
          t.sto = s.sto ∧ t.flt = s.flt) ∧
        (s.tor.tor < (linkOf p s).widthAt + 4000 → exec (.widthFlitRepeat p) s = .next s))) ∧
    ((linkOf p s).state = 6 → (linkOf p s).encOn = true → (linkOf p s).rotMark < s.tor.tor / 2400000000000 →
      exec (.linkKeyRotation p) s = .next (setLink p { linkOf p s with
        keyPhase := ((linkOf p s).keyPhase + 1) % 4, rotation := (linkOf p s).rotation + 1, ivTx := 0, rotMark := s.tor.tor / 2400000000000 } s)) ∧
    (∀ t0, (linkOf p s).oldPhaseUntil = some t0 → t0 ≤ s.tor.tor →
      exec (.keyPhaseErase p) s = .next (setLink p { linkOf p s with oldPhaseUntil := none, ivOld := 0 } s)) ∧
    (∃ t, exec (.cntClr v p) s = .next t ∧ (linkOf p t).cwCorr = 0 ∧ (linkOf p t).cwUncorr = 0 ∧ (linkOf p t).crcFail = 0 ∧ (linkOf p t).replays = 0 ∧
      (linkOf p t).tagFail = 0 ∧ (linkOf p t).recoveries = 0 ∧ (linkOf p t).widthChg = 0 ∧ (linkOf p t).downs = 0 ∧ (linkOf p t).state = (linkOf p s).state ∧
      (linkOf p t).replay = (linkOf p s).replay ∧ t.sto = s.sto ∧ t.flt = s.flt) ∧
    (∀ m : BitVec 8, ∃ t, exec (.laneOff v p m) s = .next t ∧ (linkOf p t).laneOff = m.toNat ∧ (linkOf p t).state = (linkOf p s).state ∧
      (linkOf p t).width = (linkOf p s).width ∧ t.flt = s.flt) ∧
    (∀ m : BitVec 8, ∃ t, exec (.laneRetry v p m) s = .next t ∧ (linkOf p t).state = (linkOf p s).state ∧ (linkOf p t).laneOff = (linkOf p s).laneOff ∧
      ∀ i, i < portLanes p → (laneOf i (linkOf p t)).retry = ((laneOf i (linkOf p s)).retry || (m.getLsbD i && (laneOf i (linkOf p s)).failed))) ∧
    (∀ x : LaneEq, x.lane < portLanes p → (laneOf x.lane (linkOf p s)).retry = true →
      ∃ t, exec (.laneRetryComplete p x) s = .next t ∧ (laneOf x.lane (linkOf p t)).failed = ((laneOf x.lane (linkOf p s)).failed && !x.locked) ∧
        (laneOf x.lane (linkOf p t)).lock = x.locked ∧ (laneOf x.lane (linkOf p t)).retry = false ∧ t.flt = s.flt) ∧
    (∀ i, i < portLanes p → (laneOf i (linkOf p s)).lock = true →
      ∃ t, exec (.laneLockLoss p i) s = .next t ∧ (laneOf i (linkOf p t)).lock = false ∧ (∀ j, j ≠ i → laneOf j (linkOf p t) = laneOf j (linkOf p s)) ∧ t.flt = s.flt) ∧
    (∃ t, exec (.linkDisable v p true) s = .next t ∧ (linkOf p t).state = 0 ∧ (linkOf p t).disable = true) ∧
    ((fltStatus (srcPort p) s).fenced = true → exec (.linkDisable v p false) s = .next s) ∧
    ((fltStatus (srcPort p) s).fenced = false →
      ((linkOf p s).state ≠ 0 → exec (.linkDisable v p false) s = .next (setLink p { linkOf p s with disable := false } s)) ∧
      ((linkOf p s).state = 0 → portGranted p s = true → s.arm.fstate ≠ 6 →
        ∃ t, exec (.linkDisable v p false) s = .next t ∧ (linkOf p t).disable = false ∧ (linkOf p t).state = 1 ∧ (linkOf p t).since = s.tor.tor)) ∧
    ((linkOf p s).state ≠ 6 → exec (.retrain v p) s = .next s) ∧
    ((linkOf p s).state = 6 → ∃ t, exec (.retrain v p) s = .next t ∧ (linkOf p t).state = 7 ∧ (linkOf p t).since = s.tor.tor ∧
      (linkOf p t).recoveries = satAdd 16 (linkOf p s).recoveries 1 ∧ (linkOf p t).replay = (linkOf p s).replay ∧ (linkOf p t).secret = (linkOf p s).secret) ∧
    ((linkOf p s).state = 7 → ∀ (lanes : List LaneEq) (m : BitVec 8) (l : Link) (w : Nat × Nat),
      l = markOff p { takeLanes p true lanes (linkOf p s) with peerGood := m.toNat % 2 ^ portLanes p } → w = chooseWidth p (widthLimit p l s) (goodMask p l) →
      (w.1 ≠ 0 → ∃ t, exec (.recoveryComplete p lanes m) s = .next t ∧ (linkOf p t).state = 6 ∧ (linkOf p t).width = w.1 ∧ (linkOf p t).group = w.2 ∧
        (linkOf p s).replay.map (·.bytes) <+: (linkOf p t).replay.map (·.bytes) ∧ (linkOf p t).secret = (linkOf p s).secret) ∧
      (w.1 = 0 → ∃ t, exec (.recoveryComplete p lanes m) s = .next t ∧ (linkOf p t).state = 8))

/-- Flits on a port in KEY or ACTIVE. A codeword with more than eight symbol errors delivers nothing and is counted, and the sixteenth in a row on an
ACTIVE port leads to RECOVERY; a flit that fails its CRC delivers nothing and is counted; a DATA flit of one whole message with the SEQ expected, in
clear where that is allowed or opened by its key, delivers it, acknowledges the flits at or before its ACK and moves the expected SEQ on, and one with
another SEQ delivers nothing and is answered with NAK; NAK is repeated, and without an advance of ACK for 4 µs the replay buffer is sent again, in
order and unchanged; the eighth replay of a flit leads an ACTIVE port to RECOVERY (R287, R288, R290, R291, R294, R298). -/
def Obligations.FlitsAreDeliveredInOrderOrReplayed : Prop :=
  ∀ (p : PortId) (s : State) (b : List Byte) (errs : List (Nat × Byte)), Safety.settled s → operating s = true → portExists p = true →
    ((linkOf p s).state = 5 ∨ (linkOf p s).state = 6) → b.length = 256 →
    (8 < (symErrs errs).length → (linkOf p s).uncorrRun < 15 →
      ∃ t, exec (.flitReceive p b errs) s = .next t ∧ (linkOf p t).cwUncorr = satAdd 32 (linkOf p s).cwUncorr 1 ∧ (linkOf p t).expect = (linkOf p s).expect ∧
        (∀ vc d, Out.delivered p vc d ∈ t.out → Out.delivered p vc d ∈ s.out) ∧ t.sto = s.sto ∧ t.flt = s.flt) ∧
    (8 < (symErrs errs).length → 15 ≤ (linkOf p s).uncorrRun → (linkOf p s).state = 6 → Safety.graceful s →
      ∃ t, exec (.flitReceive p b errs) s = .next t ∧ (linkOf p t).state = 7) ∧
    ((symErrs errs).length ≤ 8 → (crc64 (b.take 248) ≠ BitVec.ofNat 64 (natAt b 248 8) ∨ headerOk p (flitOf b) = false) →
      ∃ t, exec (.flitReceive p b errs) s = .next t ∧ (linkOf p t).crcFail = satAdd 32 (linkOf p s).crcFail 1 ∧ (linkOf p t).expect = (linkOf p s).expect ∧
        (∀ vc d, Out.delivered p vc d ∈ t.out → Out.delivered p vc d ∈ s.out)) ∧
    (∀ f : FlitIn, f = flitOf b → (symErrs errs).length ≤ 8 → crc64 (b.take 248) = BitVec.ofNat 64 (natAt b 248 8) → headerOk p f = true → f.ftype = 1 →
      clearForbidden p f (linkOf p s) = false → f.nak = false →
      (∀ d : List Byte, f.seq = (linkOf p s).expect → f.som = true → f.eom = true →
        ((f.enc = false ∧ d = f.payload) ∨ (f.enc = true ∧ ∃ l', openFlit f s.tor.tor (linkOf p s) = some (d, l'))) →
        (∀ k, p = .arm k → kindVc (msgOfBytes (d.take f.len)).kind = some f.vc) →
        ∃ t, exec (.flitReceive p b errs) s = .next t ∧ (linkOf p t).expect = (f.seq + 1) % 4096 ∧ (linkOf p t).nakSince = none ∧
          Out.delivered p f.vc (d.take f.len) ∈ t.out ∧ t.sto = s.sto ∧ t.flt = s.flt ∧
          ((linkOf p s).txq = [] → (linkOf p t).replay = (linkOf p s).replay.dropWhile (fun x => decide ((f.ack + 4096 - x.seq) % 4096 < 2048)))) ∧
      (f.seq ≠ (linkOf p s).expect → (linkOf p s).nakSince = none →
        ∃ t, exec (.flitReceive p b errs) s = .next t ∧ (linkOf p t).expect = (linkOf p s).expect ∧ (linkOf p t).nakSince = some s.tor.tor ∧
          (∀ vc d, Out.delivered p vc d ∈ t.out → Out.delivered p vc d ∈ s.out) ∧
          ∃ cr : Nat × Nat, Out.flit p (codeword (mkFlit (flitHeader 0 0 0 (linkAck (linkOf p s)) true false 0 cr.1 cr.2 0 false false) [])) ∈ t.out)) ∧
    (∀ t0, (linkOf p s).nakSince = some t0 → t0 + 4000 ≤ s.tor.tor →
      ∃ t, exec (.nakRepeat p) s = .next t ∧ (linkOf p t).nakSince = some s.tor.tor ∧ (linkOf p t).expect = (linkOf p s).expect ∧
        ∃ cr : Nat × Nat, Out.flit p (codeword (mkFlit (flitHeader 0 0 0 (linkAck (linkOf p s)) true false 0 cr.1 cr.2 0 false false) [])) ∈ t.out) ∧
    ((linkOf p s).replay ≠ [] → (linkOf p s).ackTor + 16000 ≤ s.tor.tor →
      ((∀ f ∈ (linkOf p s).replay, f.replays < 7) →
        ∃ t, exec (.replayTimeout p) s = .next t ∧ (∀ f ∈ (linkOf p s).replay, Out.flit p (codeword f.bytes) ∈ t.out) ∧ (linkOf p t).state = (linkOf p s).state ∧
          (linkOf p t).replays = satAdd 32 (linkOf p s).replays 1 ∧ (linkOf p t).replay.map (·.bytes) = (linkOf p s).replay.map (·.bytes) ∧
          (linkOf p t).ackTor = s.tor.tor) ∧
      ((∃ f ∈ (linkOf p s).replay, 7 ≤ f.replays) → (linkOf p s).state = 6 → Safety.graceful s →
        ∃ t, exec (.replayTimeout p) s = .next t ∧ (linkOf p t).state = 7))
/-! ### The Armature (14_armature) -/

/-- Discovery on a port in KEY: HELLO, IDENTITY, KEM_OFFER, KEM_REPLY and CONFIRM, each in its turn, lead to an ACTIVE port with key phase 0; an
unknown version, a node ID in use, an IDENTITY whose chain, report or owner fails and a wrong CONFIRM refuse the peer with codes 7, 5, 1 to 4 and 6,
and the port goes DOWN (R309 to R311; 13 R294). The certificate chain, the report's signatures and the KEM are opaque. -/
def Obligations.DiscoveryAdmitsPeer : Prop :=
  ∀ (p : Nat) (s : State) (x : Peer), Safety.settled s → Safety.graceful s → operating s = true → p < 20 → (linkOf (discoPort p) s).state = 5 → peerOf p s = x →
    (∀ ver ser node mode pp nonce, x.step = 0 →
      (ver = 1 → dupNode node ser s = false → ∃ t, exec (.hello p ver ser node mode pp nonce) s = .next t ∧ (peerOf p t).step = 1 ∧ (peerOf p t).serial = ser ∧
        (peerOf p t).node = node ∧ (peerOf p t).port = pp % 8 ∧
        Out.discovery p 2 (Config.certificates ++ ownerHash s ++ linkReport nonce s) ∈ t.out ∧ (linkOf (discoPort p) t).state = 5 ∧ t.flt = s.flt ∧ t.sto = s.sto) ∧
      (ver = 1 → dupNode node ser s = true → ∃ t, exec (.hello p ver ser node mode pp nonce) s = .next t ∧ (peerOf p t).result = 5 ∧
        (linkOf (discoPort p) t).state = 8) ∧
      (ver ≠ 1 → ∃ t, exec (.hello p ver ser node mode pp nonce) s = .next t ∧ (peerOf p t).result = 7 ∧ (linkOf (discoPort p) t).state = 8)) ∧
    (∀ certs hash rep, x.step = 1 →
      (Config.chainOk certs x.serial = true → Config.reportOk certs rep = true → bytesAt rep 0x40 32 = x.nonce → s.pln.owners ≠ [] → allZero hash = false →
        hash = ownerHash s → ∃ t, exec (.identity p certs hash rep) s = .next t ∧ (peerOf p t).step = (if isInitiator x then 3 else 2) ∧
          (isInitiator x = true → ∃ body, Out.discovery p 3 body ∈ t.out) ∧ (linkOf (discoPort p) t).state = 5 ∧ t.flt = s.flt) ∧
      (∀ r, r = (if Config.chainOk certs x.serial = false then 1 else if Config.reportOk certs rep = false ∨ bytesAt rep 0x40 32 ≠ x.nonce then 2
            else if s.pln.owners = [] ∨ allZero hash = true then 3 else if hash ≠ ownerHash s then 4 else 0) → r ≠ 0 →
        ∃ t, exec (.identity p certs hash rep) s = .next t ∧ (peerOf p t).result = r ∧ (linkOf (discoPort p) t).state = 8)) ∧
    (∀ ek ec, x.step = 2 → ∃ t, exec (.kemOffer p ek ec) s = .next t ∧ (peerOf p t).step = 4 ∧ (peerOf p t).sentConfirm = true ∧
      Out.discovery p 4 (Config.kemReply s.free (ek ++ ec)) ∈ t.out ∧ (∃ b, Out.discovery p 5 b ∈ t.out) ∧ t.flt = s.flt) ∧
    (∀ ct ec, x.step = 3 → ∃ t, exec (.kemReply p ct ec) s = .next t ∧ (peerOf p t).step = 4 ∧ (peerOf p t).sentConfirm = true ∧
      (peerOf p t).secret = Config.kemSecret x.secret (ct ++ ec) ∧ (∃ b, Out.discovery p 5 b ∈ t.out) ∧ t.flt = s.flt) ∧
    (∀ mac, x.step = 4 →
      (mac = confirmMac x.secret x.transcript (if isInitiator x then 2 else 1) → ∃ t, exec (.confirm p mac) s = .next t ∧ (peerOf p t).step = 6 ∧
        (linkOf (discoPort p) t).state = 6 ∧ (linkOf (discoPort p) t).encOn = true ∧ (linkOf (discoPort p) t).keyPhase = 0 ∧
        (linkOf (discoPort p) t).secret = x.secret ∧ (linkOf (discoPort p) t).context = sha384 x.transcript) ∧
      (mac ≠ confirmMac x.secret x.transcript (if isInitiator x then 2 else 1) → ∃ t, exec (.confirm p mac) s = .next t ∧ (peerOf p t).result = 6 ∧
        (linkOf (discoPort p) t).state = 8))

/-- Node IDs and the database: a claim of the last or the lowest free ID makes the module JOINING, 10 s of discovery without an ACTIVE port make it
ALONE, with node 0 where it has no ID; its own advertisement goes out with the next sequence number, a newer one of another module enters the
database and an older one has no effect, and a younger claim of the same ID by a lower serial takes it away; a member silent for 1 s is removed
(R312, R313). Route epochs: the announcer names the first whole millisecond at least 1 ms ahead, and others take the announcement; at that TOR,
outside the start window of 03 R69, the tables are swapped where the digests agree, and they stay where they differ, which is reported, and the
announcer opens another epoch at such a report (in the model's layout an announcement with switch TOR 0, log entry 41); and the old table is retired
1 ms later (R314 to R316). -/
def Obligations.NodeIdsAdvertisementsAndEpochs : Prop :=
  ∀ s : State, Safety.settled s → operating s = true →
    (mayClaim s = true → ∃ t, exec .nodeIdClaim s = .next t ∧ t.arm.node = some (claimId s) ∧ t.arm.fstate = 3 ∧ t.arm.claimed = some s.tor.tor ∧ t.flt.status = s.flt.status) ∧
    (mayClaim s = false → exec .nodeIdClaim s = .next s) ∧
    (s.arm.fstate = 1 → activeArm s = [] → s.arm.discoStart + 40000000000 ≤ s.tor.tor →
      ∃ t, exec .alone s = .next t ∧ t.arm.fstate = 2 ∧ t.arm.node = some (s.arm.node.getD 0) ∧ t.sto = s.sto) ∧
    (∀ p a n, s.arm.fstate ≠ 0 → s.arm.fstate ≠ 6 → a.serial = Config.serial → s.arm.node = some n →
      (∀ m, tget none n s.arm.db = some m → m.seen + 400000000 ≤ s.tor.tor) →
      ∃ t, exec (.linkStateAdvertisement p a) s = .next t ∧ t.arm.seq = s.arm.seq + 1 ∧
        tget none n t.arm.db = some { adv := ownAdv n s, seen := s.tor.tor } ∧ t.sto = s.sto ∧ t.flt = s.flt) ∧
    (∀ p a, s.arm.fstate ≠ 0 → s.arm.fstate ≠ 6 → a.serial ≠ Config.serial → p < 8 → portActive (.arm p) s = true → a.node < 64 →
      (s.arm.node ≠ some a.node → (∀ m, tget none a.node s.arm.db = some m → m.adv.seq < a.seq) →
        ∃ t, exec (.linkStateAdvertisement p a) s = .next t ∧ tget none a.node t.arm.db = some { adv := a, seen := s.tor.tor } ∧
          (∀ n, n ≠ a.node → s.arm.node ≠ some n → tget none n t.arm.db = tget none n s.arm.db) ∧ t.sto = s.sto) ∧
      (∀ m, s.arm.node ≠ some a.node → tget none a.node s.arm.db = some m → a.seq ≤ m.adv.seq → exec (.linkStateAdvertisement p a) s = .next s) ∧
      (∀ t0, s.arm.node = some a.node → s.arm.claimed = some t0 → s.tor.tor < t0 + 40000000 → a.serial.toNat < Config.serial.toNat →
        ∃ t, exec (.linkStateAdvertisement p a) s = .next t ∧ t.arm.node = none ∧ t.arm.fstate = 1 ∧
          tget none a.node t.arm.db = some { adv := a, seen := s.tor.tor })) ∧
    (∀ n m, tget none n s.arm.db = some m → s.arm.node ≠ some n →
      (m.seen + 4000000000 ≤ s.tor.tor → ∃ t, exec (.memberTimeout n) s = .next t ∧ tget none n t.arm.db = none ∧ t.arm.change = true ∧
        (∀ k, k ≠ n → s.arm.node ≠ some k → tget none k t.arm.db = tget none k s.arm.db)) ∧
      (s.tor.tor < m.seen + 4000000000 → exec (.memberTimeout n) s = .next s)) ∧
    (announcer s = true → s.arm.change = true → s.arm.next = none →
      ∃ t e, exec (.epochAnnounce none) s = .next t ∧ t.arm.next = some e ∧ e.num = s.arm.epoch + 1 ∧ e.digest = dbDigest s ∧ e.tor % 4000000 = 0 ∧
        s.tor.tor + 4000000 ≤ e.tor ∧ e.tor < s.tor.tor + 8000000 ∧ t.arm.routes = s.arm.routes ∧ t.flt = s.flt) ∧
    (∀ num tor digest, activeArm s ≠ [] → tor ≠ 0 →
      (s.arm.epoch < num → s.arm.next = none → ∃ t, exec (.epochAnnounce (some (num, tor, digest))) s = .next t ∧
        t.arm.next = some { num := num, tor := tor, digest := digest } ∧ t.arm.change = false ∧ t.arm.routes = s.arm.routes ∧ t.flt = s.flt) ∧
      ((num ≤ s.arm.epoch ∨ s.arm.next.isSome = true) → exec (.epochAnnounce (some (num, tor, digest))) s = .next s)) ∧
    (∀ num digest, activeArm s ≠ [] → s.arm.report ≠ some (num, digest) → announcer s = true →
      exec (.epochAnnounce (some (num, 0, digest))) s = .next { s with arm := { s.arm with report := some (num, digest), change := true } }) ∧
    (∀ e, s.arm.next = some e →
      (s.tor.tor < e.tor → exec .routeEpochSwitch s = .next s) ∧
      (e.tor ≤ s.tor.tor → dbDigest s = e.digest → s.tor.window = false → ∃ t, exec .routeEpochSwitch s = .next t ∧ t.arm.epoch = e.num ∧ t.arm.epochTor = e.tor ∧ t.arm.next = none ∧
        t.arm.prev = s.arm.routes ∧ t.arm.prevUntil = e.tor + 4000000 ∧ t.arm.routes = (computeRoutes s).1) ∧
      (e.tor ≤ s.tor.tor → dbDigest s ≠ e.digest → ∃ t, exec .routeEpochSwitch s = .next t ∧ t.arm.epoch = s.arm.epoch ∧ t.arm.next = none ∧ t.arm.routes = s.arm.routes ∧
        t.arm.change = true ∧ t.flt = s.flt)) ∧
    (s.arm.prevUntil ≤ s.tor.tor → exec .routeTableRetire s = .next { s with arm := { s.arm with prev := [] } }) ∧
    (s.tor.tor < s.arm.prevUntil → exec .routeTableRetire s = .next s)

/-- Requests of remote nodes at their home, with no agent of the home waiting. A READ is answered with the line and leaves its node a holder; READ_OWN
and UPGRADE make it the owner where no other node holds the line; where another holds it, or owns it at a READ, its holders are sent SNOOPs, and the
request waits for their answers; a WRITEBACK of the owner stores the line and ends its
entry, one of a node that is no owner stores nothing; an uncached read is answered with its bytes, and an uncached write stores them (R304, R317,
R319, R320). A malformed message of any kind is counted in 0x299 and has no other effect (R303). The body layouts are the model's (log entry 41). -/
def Obligations.HomeServesRequests : Prop :=
  ∀ (m : Msg) (s : State) (line : Nat), Safety.settled s → operating s = true → m.via < 8 → portActive (.arm m.via) s = true →
    (∀ c k, (c, k) ∈ [(Instr.msgRead m, 2), (.msgReadOwn m, 3), (.msgUpgrade m, 4), (.msgWriteback m, 5), (.msgUncached m, 6), (.msgSnoop m, 7), (.msgData m, 8), (.msgDone m, 9)] →
      malformed k m = true → exec c s = .next (patina 0x299 s)) ∧
    (malformed m.kind m = false → s.arm.node = some m.dest → m.src ≠ m.dest → m.resent = false → isLocal m.addr s = true → physKind (physOfAddr m.addr) s = .dram →
      line = m.addr / 128 → txnOf line s = none → recallVictim line s = none → Safety.noneWaits s → s.cpu.dirty = [] →
      (∀ l, tget none line (coreOf l s).held1 = none ∧ tget none line (coreOf l s).held2 = none) →
      (m.kind = 2 → ((dirOf line s).map (·.owned)).getD false = false → ∃ t a, exec (.msgRead m) s = .next t ∧
        dirOf line t = some { line := line, owned := false, holders := ((dirOf line s).map (·.holders)).getD 0 ||| 2 ^ m.src } ∧
        tget none (m.src * 65536 + m.tag) t.arm.answered = some a ∧ a.kind = 8 ∧ a.dest = m.src ∧ a.tag = m.tag ∧
        a.body = dataBody ((List.range 128).map (fun i => storedByte (line * 128 + i) s)) (linePoisoned line s) ∧ t.sto.mem = s.sto.mem ∧ t.pln = s.pln) ∧
      (∀ h, m.kind = 2 → dirOf line s = some { line := line, owned := true, holders := h } → h.testBit m.src = false → ∃ t tags, exec (.msgRead m) s = .next t ∧
        txnOf line t = some { req := m, waiting := h, since := s.tor.tor, forRecall := false, tags := tags } ∧ t.sto = s.sto) ∧
      (m.kind = 3 → (dirOf line s = none ∨ dirOf line s = some { line := line, owned := false, holders := 2 ^ m.src }) →
        ∃ t a, exec (.msgReadOwn m) s = .next t ∧ dirOf line t = some { line := line, owned := true, holders := 2 ^ m.src } ∧
        tget none (m.src * 65536 + m.tag) t.arm.answered = some a ∧ a.kind = 8 ∧ a.dest = m.src ∧
        a.body = dataBody ((List.range 128).map (fun i => storedByte (line * 128 + i) s)) (linePoisoned line s) ∧ t.sto.mem = s.sto.mem) ∧
      (m.kind = 4 → dirOf line s = some { line := line, owned := false, holders := 2 ^ m.src } → ∃ t a, exec (.msgUpgrade m) s = .next t ∧
        dirOf line t = some { line := line, owned := true, holders := 2 ^ m.src } ∧ tget none (m.src * 65536 + m.tag) t.arm.answered = some a ∧ a.kind = 9 ∧
        a.dest = m.src ∧ t.sto.mem = s.sto.mem) ∧
      (∀ c h, ((c = Instr.msgReadOwn m ∧ m.kind = 3) ∨ (c = .msgUpgrade m ∧ m.kind = 4)) → dirOf line s = some { line := line, owned := false, holders := h } →
        h - (h &&& 2 ^ m.src) ≠ 0 → ∃ t tags, exec c s = .next t ∧
          txnOf line t = some { req := m, waiting := h - (h &&& 2 ^ m.src), since := s.tor.tor, forRecall := false, tags := tags } ∧ t.sto.mem = s.sto.mem) ∧
      (∀ data poison, m.kind = 5 → dirOf line s = some { line := line, owned := true, holders := 2 ^ m.src } → data.length = 128 → m.body = dataBody data poison →
        ∃ t, exec (.msgWriteback m) s = .next t ∧ dirOf line t = none ∧
          (∀ b, storedByte b t = if line * 128 ≤ b ∧ b < line * 128 + 128 then data.getD (b - line * 128) 0 else storedByte b s) ∧
          tget false (2 * line) t.sto.poison = poison ∧ tget false (2 * line + 1) t.sto.poison = poison) ∧
      (m.kind = 5 → dirOf line s = none → ∃ t a, exec (.msgWriteback m) s = .next t ∧ t.sto = s.sto ∧ dirOf line t = none ∧
        tget none (m.src * 65536 + m.tag) t.arm.answered = some a ∧ a.kind = 9) ∧
      (∀ n, m.kind = 6 → dirOf line s = none → n < 256 → m.addr % 128 + n ≤ 128 → m.body = [0, BitVec.ofNat 8 n] → ∃ t a, exec (.msgUncached m) s = .next t ∧
        tget none (m.src * 65536 + m.tag) t.arm.answered = some a ∧ a.kind = 8 ∧ a.dest = m.src ∧
        a.body = dataBody ((List.range n).map (fun i => storedByte (m.addr + i) s)) (linePoisoned line s) ∧ t.sto.mem = s.sto.mem) ∧
      (∀ data, m.kind = 6 → dirOf line s = none → 0 < data.length → m.addr % 128 + data.length ≤ 128 → m.body = [1, BitVec.ofNat 8 data.length] ++ data →
        ∃ t, exec (.msgUncached m) s = .next t ∧
          (∀ b, storedByte b t = if m.addr ≤ b ∧ b < m.addr + data.length then data.getD (b - m.addr) 0 else storedByte b s) ∧
          dirOf line t = none ∧ t.pln = s.pln))

/-- This module's side of the protocol, with no other agent of it waiting: DATA brings the line or the bytes that a request asked for, DONE ends an
UPGRADE with ownership and takes a store that a remote home has performed from the buffer, and an answer to a SNOOP of this home is stored and
counted off; a SNOOP for a request or a recall takes this module's copy or its ownership; a REQ without an answer for 1 ms is sent again, three
times at most, and after 3 ms its line arrives poisoned with event 0x07; a SNOOP that a holder leaves unanswered for 3 ms poisons the line at its
home, and its request is over, here a recall or a READ of a line behind which nothing waits (R304, R317, R318, R320). -/
def Obligations.RequestsCompleteOrTimeOut : Prop :=
  ∀ s : State, Safety.settled s → operating s = true → Safety.noneWaits s →
    (∀ (m : Msg) (line : Nat), m.via < 8 → portActive (.arm m.via) s = true → malformed m.kind m = false → s.arm.node = some m.dest → line = m.addr / 128 →
      (∀ r, m.kind = 8 → isLocal m.addr s = false → reqOf m s = some r → (r.msg.kind = 2 ∨ r.msg.kind = 3) → ∃ t, exec (.msgData m) s = .next t ∧
        tget none line t.arm.rlines = some { data := fixLen 0 128 (dataOf m.body).1, owned := decide (r.msg.kind ≠ 2), poison := (dataOf m.body).2 } ∧
        ((∀ l b, r.who ≠ .core l ∧ r.who ≠ .pref l b) → (∀ x ∈ t.arm.reqs, x.msg.tag ≠ m.tag) ∧ t.sto = s.sto ∧ t.flt = s.flt)) ∧
      (∀ r l, m.kind = 8 → isLocal m.addr s = false → reqOf m s = some r → r.msg.kind = 6 → r.who = .coreUc l → ∃ t, exec (.msgData m) s = .next t ∧
        (∀ x ∈ t.arm.reqs, x.msg.tag ≠ m.tag) ∧ (coreOf l t).ucBuf = (coreOf l s).ucBuf.map (fun u =>
          if u.tag = m.tag ∧ u.data.isNone then { u with data := some ((dataOf m.body).1.take u.n), poison := (dataOf m.body).2 } else u) ∧ t.sto = s.sto ∧ t.flt = s.flt) ∧
      (∀ r x, m.kind = 9 → isLocal m.addr s = false → reqOf m s = some r → r.msg.kind = 4 → tget none line s.arm.rlines = some x →
        ∃ t, exec (.msgDone m) s = .next t ∧ (∀ y ∈ t.arm.reqs, y.msg.tag ≠ m.tag) ∧ tget none line t.arm.rlines = some { x with owned := true } ∧
          t.sto = s.sto ∧ t.flt = s.flt) ∧
      (∀ r, m.kind = 9 → isLocal m.addr s = false → reqOf m s = some r → r.msg.kind = 5 → ∃ t, exec (.msgDone m) s = .next t ∧
        (∀ y ∈ t.arm.reqs, y.msg.tag ≠ m.tag) ∧ t.sto = s.sto ∧ t.flt = s.flt ∧ t.cpu = s.cpu) ∧
      (∀ r l i e, m.kind = 9 → isLocal m.addr s = false → reqOf m s = some r → r.msg.kind = 6 → (r.who = .core l ∨ r.who = .coreUc l) →
        (coreOf l s).sb.findIdx? (fun x => x.sent == some m.tag) = some i → (coreOf l s).sb[i]? = some e →
        ∃ t, exec (.msgDone m) s = .next t ∧ (coreOf l t).sb = (coreOf l s).sb.eraseIdx i ∧ (∀ y ∈ t.arm.reqs, y.msg.tag ≠ m.tag) ∧ t.sto = s.sto ∧ t.flt = s.flt) ∧
      (∀ (x : HomeTxn) data poison, m.kind = 8 → isLocal m.addr s = true → txnOf line s = some x → x.waiting.testBit m.src = true → x.tags.contains (m.src, m.tag) = true →
        x.waiting ≠ 2 ^ m.src → data.length = 128 → m.body = dataBody data poison → ∃ t, exec (.msgData m) s = .next t ∧ txnOf line t = some { x with waiting := x.waiting - 2 ^ m.src } ∧
          (∀ b, storedByte b t = if line * 128 ≤ b ∧ b < line * 128 + 128 then data.getD (b - line * 128) 0 else storedByte b s)) ∧
      (∀ x : HomeTxn, m.kind = 9 → isLocal m.addr s = true → txnOf line s = some x → x.waiting.testBit m.src = true → x.tags.contains (m.src, m.tag) = true →
        x.waiting ≠ 2 ^ m.src → ∃ t, exec (.msgDone m) s = .next t ∧ txnOf line t = some { x with waiting := x.waiting - 2 ^ m.src } ∧ t.sto = s.sto) ∧
      (∀ x, m.kind = 7 → m.resent = false → 1 ≤ natAt m.body 0 1 → natAt m.body 0 1 ≤ 3 → tget none line s.arm.rlines = some x →
        ∃ t, exec (.msgSnoop m) s = .next t ∧ tget none line t.arm.rlines = none ∧ t.sto = s.sto) ∧
      (∀ x, m.kind = 7 → m.resent = false → natAt m.body 0 1 = 0 → isLocal (line * 128) s = false → tget none line s.arm.rlines = some x →
        ∃ t y, exec (.msgSnoop m) s = .next t ∧ tget none line t.arm.rlines = some y ∧ y.owned = false ∧ y.poison = x.poison) ∧
      (m.kind = 7 → m.resent = false → natAt m.body 0 1 ≤ 3 → tget none line s.arm.rlines = none → wbBuffer line s = none →
        ∃ t, exec (.msgSnoop m) s = .next t ∧ t.cpu = s.cpu ∧ t.sto = s.sto ∧ t.arm.rlines = s.arm.rlines)) ∧
    (∀ (tag : Nat) (r : OutReq), s.arm.reqs.find? (fun x => x.msg.tag == tag) = some r →
      (r.last + 4000000 ≤ s.tor.tor → r.sends < 3 → ownHome r s = false → ∃ t, exec (.messageResend tag) s = .next t ∧
        t.arm.reqs = s.arm.reqs.map (fun x => if x.msg.tag = tag then { x with last := s.tor.tor, sends := x.sends + 1 } else x) ∧ t.sto = s.sto ∧ t.cpu = s.cpu) ∧
      ((s.tor.tor < r.last + 4000000 ∨ 3 ≤ r.sends) → exec (.messageResend tag) s = .next s) ∧
      (s.tor.tor < r.first + 12000000 → exec (.requestUnreachable tag) s = .next s) ∧
      (∀ src, src = (match r.part with | some p => srcPart p | none => srcSc) → r.first + 12000000 ≤ s.tor.tor → ownHome r s = false → Safety.graceful s →
        ((r.msg.kind = 2 ∨ r.msg.kind = 3) → ∃ t x, exec (.requestUnreachable tag) s = .next t ∧ (fltStatus src t).pending = true ∧
          ((fltStatus src s).pending = false → (fltStatus src t).event = 7) ∧ tget none (r.msg.addr / 128) t.arm.rlines = some x ∧ x.poison = true) ∧
        (r.msg.kind = 5 → ∃ t, exec (.requestUnreachable tag) s = .next t ∧ (fltStatus src t).pending = true ∧ (∀ y ∈ t.arm.reqs, y.msg.tag ≠ tag) ∧ t.sto = s.sto))) ∧
    (∀ (tag : Nat) (x : MirrorOut), s.arm.reqs.find? (fun y => y.msg.tag == tag) = none → s.jnl.out.find? (fun y => y.tag == tag) = some x →
      x.last + 4000000 ≤ s.tor.tor → x.sends < 3 → ∃ t, exec (.messageResend tag) s = .next t ∧
        t.jnl.out = s.jnl.out.map (fun y => if y.tag = tag then { y with last := s.tor.tor, sends := y.sends + 1 } else y) ∧ t.jnl.e = s.jnl.e ∧ t.sto = s.sto) ∧
    (∀ (line : Nat) (x : HomeTxn), txnOf line s = some x →
      (s.tor.tor < x.since + 12000000 → exec (.snoopTimeout line) s = .next s) ∧
      (x.since + 12000000 ≤ s.tor.tor → x.room = none → tget [] line s.arm.queue = [] → (∀ n y, txnOf n s = some y → y.room ≠ some line) →
        (x.forRecall = true → ∃ t, exec (.snoopTimeout line) s = .next t ∧ linePoisoned line t = true ∧ txnOf line t = none ∧ dirOf line t = none ∧
          t.sto.mem = s.sto.mem) ∧
        (x.forRecall = false → x.req.kind = 2 → s.arm.fstate ≠ 5 →
          ∃ t, exec (.snoopTimeout line) s = .next t ∧ linePoisoned line t = true ∧ txnOf line t = none)))

/-- Departure. LEAVE is accepted in MEMBER or ALONE where every partition with cores here is at rest and no other member names this node, and has
result STATE elsewhere; a duplex partner is told first, by the next heartbeat, and nothing of the fabric or of storage changes before; REMOVE_REQ_N
asks for it at once and, released, asks no more and cancels a departure of which the partner has not been told; at the time set for it, outside the
start window of 03 R69, the module is LEFT, with every Armature port DISABLED and REMOVE_OK asserted; REJOIN, in LEFT only, begins discovery again
(R324 to R326). -/
def Obligations.DepartureAndReturn : Prop :=
  ∀ (v : View) (s : State), Safety.settled s → operating s = true →
    (admin v s = true → (s.arm.fstate = 4 ∨ s.arm.fstate = 2) → mayLeave s = true → ∃ t, exec (.leave v) s = .next t ∧ t.arm.fstate = 5 ∧ t.arm.lastResult = 0 ∧
      t.arm.leaveAt = (if s.arm.fstate = 2 then some (s.tor.tor + 4000000) else none)) ∧
    (admin v s = true → ¬((s.arm.fstate = 4 ∨ s.arm.fstate = 2) ∧ mayLeave s = true) → exec (.leave v) s = .next { s with arm := { s.arm with lastResult := 0x0C } }) ∧
    (s.pin.prsnt = true → s.arm.telling = none → exec (.removeReqN false) s = .next { s with arm := { s.arm with removeReq := false } }) ∧
    (∀ f, s.pin.prsnt = true → s.arm.telling = some f →
      ∃ t, exec (.removeReqN false) s = .next t ∧ t.arm = { s.arm with removeReq := false, fstate := f, telling := none, leaveAt := none } ∧
        t.sto = s.sto ∧ t.cpu = s.cpu) ∧
    (admin v s = true → partnerOn s = true → (s.arm.fstate = 4 ∨ s.arm.fstate = 2) → mayLeave s = true → ∃ t, exec (.leave v) s = .next t ∧
      t.arm = { s.arm with fstate := 5, telling := some s.arm.fstate, lastResult := 0,
                           leaveAt := if s.arm.fstate = 2 then some (s.tor.tor + 4000000) else none } ∧ t.sto = s.sto ∧ t.cpu = s.cpu ∧
      t.armLink = s.armLink) ∧
    (s.pin.prsnt = true → (s.arm.fstate = 4 ∨ s.arm.fstate = 2) → mayLeave s = true → ∃ t, exec (.removeReqN true) s = .next t ∧ t.arm.fstate = 5 ∧
      t.arm.removeReq = true) ∧
    (s.pin.prsnt = true → ¬((s.arm.fstate = 4 ∨ s.arm.fstate = 2) ∧ mayLeave s = true) →
      exec (.removeReqN true) s = .next { s with arm := { s.arm with removeReq := true } }) ∧
    (∀ t0, s.arm.leaveAt = some t0 → s.arm.fstate = 5 →
      (t0 ≤ s.tor.tor → s.tor.window = false → Safety.graceful s → ∃ t, exec .enterLeft s = .next t ∧ t.arm.fstate = 6 ∧ t.pin.removeOk = true ∧ t.tor.master = none ∧
        (∀ p, p < 8 → (linkOf (.arm p) t).state = 0)) ∧
      (s.tor.tor < t0 → exec .enterLeft s = .next s)) ∧
    (admin v s = true → s.arm.fstate = 6 → ∃ t, exec (.rejoin v) s = .next t ∧ t.arm.fstate = 1 ∧ t.arm.lastResult = 0 ∧ t.arm.discoStart = s.tor.tor ∧ t.pin.removeOk = false ∧
      (∀ p, p < 8 → portGranted (.arm p) s = true → (linkOf (.arm p) s).disable = false → (linkOf (.arm p) t).state = 1)) ∧
    (admin v s = true → s.arm.fstate ≠ 6 → exec (.rejoin v) s = .next { s with arm := { s.arm with lastResult := 0x0C } })
/-! ### The channel subsystem (15_channel_programs; 03_time_of_record R75) -/

/-- CS_SUBCHi is written whole while the subchannel is IDLE, outside the partner's ranges, and its ports may be named, and a write is otherwise
ignored (R363, R364). A channel processor of a hub takes the hub's next operation: TAKE, and its program runs from there (15 R354). Where the first
order is a WAIT_TOR for a time to come, the operation is suspended until that time; at the time it goes on, and with no chain flag the program ends
with a FINAL transition and its status is offered (15 R349, R350, R352, R368). After 10 ms in START_PENDING an operation has aged (R354). The
entries are here not mirrored. -/
def Obligations.SubchannelConfigurationAndWaits : Prop :=
  (
    ∀ (v : View) (i : Nat) (val : Long) (s : State), Safety.settled s → operating s = true → i < 262144 →
      ((subWriter v i s = false ∨ (jent i s).state ≠ 0 ∨ partnerSub i s = true ∨ portNameOk (subchPart i s) (subCfgOf val.toNat).port0 s = false ∨
          portNameOk (subchPart i s) (subCfgOf val.toNat).port1 s = false) → exec (.csSubchWrite v i val) s = .next s) ∧
      (subWriter v i s = true → (jent i s).state = 0 → portNameOk (subchPart i s) (subCfgOf val.toNat).port0 s = true →
        portNameOk (subchPart i s) (subCfgOf val.toNat).port1 s = true → partnerSub i s = false →
        ∃ t, exec (.csSubchWrite v i val) s = .next t ∧ subOf i t = { en := lbit val 63, port0 := fld val 62 59, port1 := fld val 58 55, dev := fld val 54 39 } ∧
          (∀ j, j ≠ i → subOf j t = subOf j s) ∧ t.jnl = s.jnl ∧ t.sto = s.sto ∧ t.cpu = s.cpu ∧ t.flt = s.flt)) ∧
  (
    ∀ (s : State) (hub i k : Nat) (o : ChOp), Safety.settled s → operating s = true → hub < 2 → takeNext hub s = some i → cpPick hub s = some k →
      opOf i s = some o → (jent i s).state = 1 → mirrorOn s = false →
      ∃ t u, exec (.cpTake hub) s = .next t ∧ t = settle s (chRun i u) ∧ opOf i u = some { o with cp := some k } ∧ (jent i u).state = 2 ∧ (jent i u).trans = 4 ∧
        (jent i u).tor = s.tor.tor ∧ (jent i u).seq = (jent i s).seq ∧ (∀ j, j ≠ i → opOf j u = opOf j s ∧ jent j u = jent j s) ∧ u.sto = s.sto ∧ u.cpu = s.cpu ∧
        u.flt = s.flt ∧ u.out = s.out) ∧
  (
    ∀ (s : State) (hub : Nat), Safety.settled s → (takeNext hub s = none ∨ cpPick hub s = none) → exec (.cpTake hub) s = .next s) ∧
  (
    ∀ (s : State) (i : Nat) (o : ChOp) (r : Order), Safety.settled s → Safety.graceful s → operating s = true → opOf i s = some o → mirrorOn s = false →
      o.halt = none → o.ending = none → o.reach = true → o.port = none → o.cur = none → o.chain = none →
      readOrder (.subch i) (jent i s).part o.pc s = .ok r → orderBad r = false → r.opcode = 0x22 →
      (∀ hub k, hub < 2 → takeNext hub s = some i → cpPick hub s = some k → (jent i s).state = 1 → o.wait = .none → s.tor.tor < r.data → r.flags.testBit 4 = false →
        ∃ t o', exec (.cpTake hub) s = .next t ∧ opOf i t = some o' ∧ o'.cp = some k ∧ o'.wait = .tor r.data ∧ (jent i t).state = 3 ∧ (jent i t).trans = 6 ∧
          (jent i t).tor = s.tor.tor ∧ (jent i t).seq = (jent i s).seq ∧ (∀ j, j ≠ i → jent j t = jent j s)) ∧
      (∀ t0, o.wait = .tor t0 → (jent i s).state = 3 → (jent i s).mirror = false → o.cp.isSome = true → agentPending (.subch i) s = false → o.mod_ = none →
        (s.tor.tor < t0 → exec (.waitTorExpiry i) s = .next s) ∧
        (t0 ≤ s.tor.tor → r.data = t0 → r.flags.testBit 0 = true → (∃ u, exec (.waitTorExpiry i) s = .next (settle s (chRunGo i 4095 u)) ∧
          (jent i u).state = 2 ∧ (jent i u).trans = 7 ∧ (∃ o', opOf i u = some o' ∧ o'.pc = (r.addr + 32) % 2 ^ 64 ∧ o'.wait = .none))) ∧
        (t0 ≤ s.tor.tor → r.data = t0 → r.flags.testBit 0 = false → ∃ t, exec (.waitTorExpiry i) s = .next t ∧ opOf i t = none ∧ (jent i t).state = 5 ∧
          (jent i t).trans = 11 ∧ (jent i t).tor = s.tor.tor ∧ (jent i t).chCode = 0 ∧ (jent i t).orderAddr = (r.addr + 32) % 2 ^ 64 ∧
          (∃ x ∈ t.offers, x.subch = i ∧ x.inter = false ∧ x.part = (jent i s).part ∧ x.param = (jent i s).param) ∧ (∀ j, j ≠ i → jent j t = jent j s)))) ∧
  (
    ∀ (s : State) (i : Nat) (o : ChOp), Safety.settled s → operating s = true → opOf i s = some o → (jent i s).state = 1 →
      (o.started + 40000000 ≤ s.tor.tor → exec (.priorityAging i) s = .next (setOp i (some { o with aged := true }) s)) ∧
      (s.tor.tor < o.started + 40000000 → exec (.priorityAging i) s = .next s))

/-- A device order in progress. An operation held at its first WRITE is released at its release time, with its tag, and goes on; data read from
storage by then leaves. DATA of a READ is stored as it arrives, or gathered for the engines, a frame that names no operation, or an earlier order, has
no effect, and DATA for an order that takes none breaks the protocol. A final STATUS of the last order, or one that answers a halt, ends the operation
with that device status and residual, acknowledged; a halt unanswered for 1 s ends it with INTERFACE_CHECK (03 R75; 15 R344, R346, R349, R351, R356 to
R358). The entries are here not mirrored, and no store of the operation is under way. -/
def Obligations.DeviceOrdersTransferAndEnd : Prop :=
  ∀ (s : State) (i : Nat) (o : ChOp) (d : DevOrd), Safety.settled s → Safety.graceful s → operating s = true → opOf i s = some o → mirrorOn s = false →
    o.reach = true → o.cp.isSome = true → o.ending = none → o.mod_ = none → agentPending (.subch i) s = false → o.cur = some d → d.sent = true → d.status = none →
    (o.wait = .held → o.halt = none →
      (s.tor.tor < o.blk.relTor → exec (.heldWriteRelease i) s = .next s) ∧
      (o.blk.relTor ≤ s.tor.tor → ∃ u, exec (.heldWriteRelease i) s = .next (settle s (chRunGo i 4095 u)) ∧
        opOf i u = some { o with released := true, wait := .none } ∧ (jent i u).state = 2 ∧ (jent i u).trans = 7 ∧ (jent i u).flags = (jent i s).flags ||| 16 ∧
        (jent i u).release = o.blk.relTag ∧ (jent i u).tor = s.tor.tor ∧ u.sto = s.sto ∧ u.flt = s.flt) ∧
      (∀ n out, d.opcode = 0x10 → d.pushed = false → o.line = none → o.blk.relTor ≤ s.tor.tor → o.port = some n → d.out = some out →
        ∃ t o', exec (.heldWriteRelease i) s = .next t ∧ opOf i t = some o' ∧ o'.released = true ∧ o'.wait = .device ∧ (jent i t).state = 2 ∧ (jent i t).trans = 7 ∧
          (jent i t).flags = (jent i s).flags ||| 16 ∧ (jent i t).release = o.blk.relTag ∧ (jent i t).tor = s.tor.tor ∧ t.sto = s.sto ∧ t.flt = s.flt)) ∧
    (∀ n f, n < 12 → portActive (.ch n) s = true → f.data.length ≤ 65520 →
      (frameOp n f.origin f.subch f.dev f.seq s = none → exec (.dataFrame n f) s = .next s) ∧
      (frameOp n f.origin f.subch f.dev f.seq s = some o → f.subch = i → (o.halt.isSome = true ∨ f.ordinal < (jent i s).ordinal) → exec (.dataFrame n f) s = .next s) ∧
      (frameOp n f.origin f.subch f.dev f.seq s = some o → f.subch = i → o.halt = none → f.ordinal = (jent i s).ordinal → isIn d = true → d.eng = 0 →
        (storeElems (.subch i) (jent i s).part d.elems f.offset (f.data.take (d.count - f.offset)) s).1 = none →
        (storeElems (.subch i) (jent i s).part d.elems f.offset (f.data.take (d.count - f.offset)) s).2.2.ch = s.ch →
        ∃ t o' d', exec (.dataFrame n f) s = .next t ∧ opOf i t = some o' ∧ o'.cur = some d' ∧ d'.offset = max d.offset (f.offset + f.data.length) ∧
          d'.last = (d.last || f.last) ∧ t.sto = (storeElems (.subch i) (jent i s).part d.elems f.offset (f.data.take (d.count - f.offset)) s).2.2.sto) ∧
      (frameOp n f.origin f.subch f.dev f.seq s = some o → f.subch = i → o.halt = none → f.ordinal = (jent i s).ordinal → isIn d = true → d.eng ≠ 0 →
        d.pushed = false → o.wait = .device → f.last = false →
        ∃ t o' d', exec (.dataFrame n f) s = .next t ∧ opOf i t = some o' ∧ o'.cur = some d' ∧ d'.got = putBytes d.got f.offset f.data ∧
          d'.offset = max d.offset (f.offset + f.data.length) ∧ t.sto = s.sto) ∧
      (frameOp n f.origin f.subch f.dev f.seq s = some o → f.subch = i → o.halt = none → f.ordinal = (jent i s).ordinal → isIn d = false →
        ∃ t, exec (.dataFrame n f) s = .next t ∧ opOf i t = none ∧ (jent i t).state = 5 ∧ (jent i t).chCode = 6 ∧ (jent i t).trans = 11 ∧ t.sto = s.sto)) ∧
    (∀ n f, n < 12 → portActive (.ch n) s = true → frameOp n f.origin f.subch f.dev f.seq s = some o → f.subch = i → f.stale = false → f.final = true →
      (o.halt = none → o.wait = .device → f.ordinal = (jent i s).ordinal → d.opcode = 0x10 → d.eng = 0 → d.flags.testBit 0 = false → d.count < 2 ^ 32 → o.check = none →
        (jent i s).mirror = false →
        ∃ t, exec (.statusFrame n f) s = .next t ∧ opOf i t = none ∧ (jent i t).state = 5 ∧ (jent i t).trans = 11 ∧ (jent i t).devStatus = f.devStatus.toNat % 16 ∧
          (jent i t).chCode = 0 ∧ (jent i t).ordinal = min f.residual d.count ∧ (jent i t).seq = (jent i s).seq ∧
          Out.frame n (ackFrame o.origin i (subOf i s).dev (jent i s).seq f.ordinal) ∈ t.out ∧
          (∃ x ∈ t.offers, x.subch = i ∧ x.inter = false ∧ x.param = (jent i s).param) ∧ t.sto = s.sto ∧ t.flt = s.flt) ∧
      (o.halt.isSome = true → o.ended = none → o.check = none →
        ∃ t, exec (.statusFrame n f) s = .next t ∧ opOf i t = none ∧ (jent i t).state = 5 ∧ (jent i t).trans = 11 ∧ (jent i t).chCode = 0 ∧
          (jent i t).devStatus = f.devStatus.toNat % 16 ∧ (jent i t).flags.testBit 2 = true ∧ t.sto = s.sto ∧ t.flt = s.flt)) ∧
    (∀ t0, o.halt = some t0 →
      (s.tor.tor < t0 + 4000000000 → exec (.haltTimeout i) s = .next s) ∧
      (t0 + 4000000000 ≤ s.tor.tor → ∃ t, exec (.haltTimeout i) s = .next t ∧ opOf i t = none ∧ (jent i t).state = 5 ∧ (jent i t).chCode = 6 ∧
        (jent i t).trans = 11 ∧ t.sto = s.sto))

/-! ### The channel journal and the duplex pair (16_channel_journal, 22_duplex) -/

/-- An entry is 64 bytes, and what they spell is the entry: no field of R366 is dropped or moved. -/
def Obligations.JournalEntryBytesRoundTrip : Prop :=
  ∀ e : JEntry, e.state < 8 → e.trans < 32 → e.subclass < 8 → e.priority < 8 → e.quality < 4 → e.part < 256 → e.devStatus < 256 → e.chCode < 256 → e.flags < 65536 →
    e.seq < 2 ^ 64 → e.tor < 2 ^ 64 → e.orderAddr < 2 ^ 64 → e.ordinal < 2 ^ 32 → e.engine < 65536 → e.mark < 2 ^ 64 → e.param < 2 ^ 64 → e.release < 2 ^ 64 →
    (JEntry.bytes e).length = 64 ∧ jentOf (JEntry.bytes e) = e

/-- MIRROR. A partner's entry is stored as a copy where it conflicts with nothing, and where an own entry is not IDLE the entry stays and the conflict
is counted and logged; the answer is MIRROR_ACK either way; in resync the later of two entries is kept (16 R369, R374, R375, R383). MIRROR_ACK of an
outstanding asynchronous transition ends it, and of a START makes the operation durable and lets its core's IOSTART complete with CC 0 (15 R338; 16
R369, R370, R373). One unanswered for 3 ms is reported once as a fault of the journal path, at which the higher node of the pair checkstops (R376; 22
R505). -/
def Obligations.MirrorsAreStoredAndAcknowledged : Prop :=
  ∀ (m : Msg) (s : State), Safety.settled s → operating s = true → mirrorOn s = true →
    (∀ i, m.via < 8 → portActive (.arm m.via) s = true → malformed m.kind m = false → s.arm.node = some m.dest → m.src ≠ m.dest →
      (m.kind = 0 → m.resent = false → m.body.length = 72 → m.src = partnerNode s → i = natAt m.body 0 8 / 2 ^ 46 → s.jnl.theirs.contains i = false →
        (s.dx.state ≠ 4 → (jent i s).seq ≠ (jentOf (m.body.drop 8)).seq →
          ((jent i s).mirror = true ∨ (jent i s).state = 0 → ∃ t a, exec (.mirror m) s = .next t ∧ jent i t = { jentOf (m.body.drop 8) with mirror := true, takenOver := false } ∧
            (∀ j, j ≠ i → jent j t = jent j s) ∧ tget none (m.src * 65536 + m.tag) t.arm.answered = some a ∧ a.kind = 1 ∧ a.dest = m.src ∧ a.tag = m.tag ∧
            a.body = mirrorAckBody i (bits (natAt m.body 0 8) 45 41) false (jentOf (m.body.drop 8)).seq (jentOf (m.body.drop 8)).tor ∧ t.sto = s.sto ∧ t.cpu = s.cpu) ∧
          ((jent i s).mirror = false → (jent i s).state ≠ 0 → ∃ t a, exec (.mirror m) s = .next t ∧ t.jnl.e = s.jnl.e ∧
            tget none (m.src * 65536 + m.tag) t.arm.answered = some a ∧ a.kind = 1 ∧
            a.body = mirrorAckBody i (bits (natAt m.body 0 8) 45 41) true (jentOf (m.body.drop 8)).seq (jentOf (m.body.drop 8)).tor)) ∧
        (s.dx.state = 4 → ownSub i s = false → (jent i s).tor ≤ (jentOf (m.body.drop 8)).tor →
          ∃ t, exec (.mirror m) s = .next t ∧ jent i t = { jentOf (m.body.drop 8) with mirror := true, takenOver := false } ∧ opOf i t = none ∧ t.sto = s.sto) ∧
        (s.dx.state = 4 → ownSub i s = true → (jent i s).tor < (jentOf (m.body.drop 8)).tor →
          ∃ t, exec (.mirror m) s = .next t ∧ jent i t = { jentOf (m.body.drop 8) with mirror := false, takenOver := false } ∧ opOf i t = none ∧ t.sto = s.sto) ∧
        (s.dx.state = 4 → ownSub i s = true → (jentOf (m.body.drop 8)).tor ≤ (jent i s).tor → ∃ t, exec (.mirror m) s = .next t ∧ t.jnl.e = s.jnl.e ∧ t.ch = s.ch)) ∧
      (∀ x, m.kind = 1 → m.body.length = 24 → s.jnl.out.find? (fun y => y.tag == m.tag) = some x → m.src = partnerNode s → natAt m.body 0 8 / 2 ^ 46 = x.index →
        bits (natAt m.body 0 8) 45 41 = x.trans → natAt m.body 8 8 = x.entry.seq → natAt m.body 16 8 = x.entry.tor →
        (x.trans ≠ 1 → x.sync = false →
          exec (.mirrorAck m) s = .next { s with jnl := { s.jnl with out := s.jnl.out.filter (fun y => y.tag != x.tag) } }) ∧
        (∀ o l, x.trans = 1 → x.sync = true → x.core = some l → opOf x.index s = some o → o.blk.bad = false → bits (natAt m.body 0 8) 40 39 = 0 →
          (coreOf l s).ioHold = some none →
          ∃ t, exec (.mirrorAck m) s = .next t ∧ opOf x.index t = some { o with durable := true } ∧ (coreOf l t).ioHold = some (some 0) ∧
            t.jnl.out = s.jnl.out.filter (fun y => y.tag != x.tag) ∧ t.jnl.lat = min ((s.tor.tor - x.first) / 4) 0xFFFF ∧ t.jnl.e = s.jnl.e ∧ t.sto = s.sto))) ∧
    (∀ i, (mirrorLate i s = false → exec (.mirrorTimeout i) s = .next s) ∧
      (mirrorLate i s = true → Safety.graceful s → s.arm.node.getD 0 ≤ partnerNode s →
        ∃ t, exec (.mirrorTimeout i) s = .next t ∧ t.dx.jnlFault = true ∧ (∀ x ∈ t.jnl.out, x.index = i → x.reported = true) ∧
          (fltStatus srcDuplex t).pending = true ∧ t.jnl.e = s.jnl.e ∧ t.sto = s.sto) ∧
      (mirrorLate i s = true → Safety.graceful s → partnerNode s < s.arm.node.getD 0 → ∃ t, exec (.mirrorTimeout i) s = .next t ∧ t.flt.checkstop = true))

/-- The pair. An exchange without overlapping ranges begins RESYNC, one with an overlap leaves the pair UNPAIRABLE, and a partner that does not name
this module leaves it as it is, which is logged; RESYNC ends once every copy is acknowledged, in PAIRED or HOLDDOWN; LAT_CLR clears the maximum and
the slow count; a copy of a subchannel's configuration is held at its index, and those of this module leave one by one (16 R377, R383, R385; 22 R496,
R499, R507, R511). -/
def Obligations.PairsExchangeAndResync : Prop :=
  ∀ s : State, Safety.settled s → operating s = true → s.jnl.settleDue = false →
    (∀ info : PairInfo, mayPair s = true →
      (info.namesUs = true → pairOverlap { s with dx := { s.dx with parts := info.parts } } = false →
        ∃ t, exec (.pairingExchange info) s = .next t ∧ t.dx.state = 4 ∧ t.jnl.pair = 3 ∧ t.dx.roles = some info.roles ∧ t.dx.parts = info.parts ∧
          t.jnl.e = s.jnl.e ∧ t.sto = s.sto) ∧
      (info.namesUs = true → pairOverlap { s with dx := { s.dx with parts := info.parts } } = true →
        ∃ t, exec (.pairingExchange info) s = .next t ∧ t.dx.state = 6 ∧ t.jnl.pair = 5 ∧ t.jnl.e = s.jnl.e ∧ t.sto = s.sto) ∧
      (info.namesUs = false → ∃ t, exec (.pairingExchange info) s = .next t ∧ t.dx.state = s.dx.state ∧ t.dx.roles = s.dx.roles ∧ t.jnl = s.jnl ∧ t.sto = s.sto ∧
        ∀ p, (hbOf p t).logged = ((hbOf p s).logged || (hbOf p s).ok))) ∧
    (∀ info : PairInfo, mayPair s = false → exec (.pairingExchange info) s = .next s) ∧
    (s.dx.state = 4 → s.jnl.out = [] → ∃ t, exec .resyncComplete s = .next t ∧ t.dx.state = (if holder s ∨ s.dx.heldByPartner = true then 5 else 2) ∧
      t.jnl.pair = 2 ∧ t.sto = s.sto) ∧
    (s.jnl.out ≠ [] → exec .resyncComplete s = .next s) ∧
    (∀ v, admin v s = true → exec (.latClr v) s = .next { s with jnl := { s.jnl with latMax := 0, slow := 0 } }) ∧
    (partnerOn s = true →
      (∀ i val, i < 262144 → ownSub i s = false →
        exec (.subchCopy (some (i, val))) s = .next { s with ch := { s.ch with sub := tset {} i (subCfgOf val.toNat) s.ch.sub } }) ∧
      (∀ i l p, s.dx.copies = i :: l → partnerPort s = some p → ∃ t, exec (.subchCopy none) s = .next t ∧ t.dx.copies = l ∧
        Out.msg p (mgtMsg (copyBody i (subOf i s))) ∈ t.out ∧ t.ch = s.ch ∧ t.sto = s.sto) ∧
      (s.dx.copies = [] → exec (.subchCopy none) s = .next s))

/-- Heartbeats and failback. A heartbeat leaves once for each due time; one that comes within 5 µs after the time that is expected next is no miss,
and one that does not come counts, makes the path not OK and, with three in a row on both paths, declares the partner failed, as a partner that leaves
says itself, whose standby ports this module then drives. The hold-down's end, or FAILBACK_NOW in HOLDDOWN, releases the taken ports; in another state
FAILBACK_NOW has result STATE (22 R500 to R504, R508, R509, R511). -/
def Obligations.HeartbeatsDeclareAndFailBack : Prop :=
  ∀ (s : State) (p : HbPath), Safety.settled s → operating s = true → partnerOn s = true →
    (s.dx.sentAt ≠ s.tor.tor / 40000 * 40000 → ∃ t, exec .heartbeatSend s = .next t ∧ t.dx.sentAt = s.tor.tor / 40000 * 40000 ∧
      Out.hbFrame (0xBC :: hbBody (s.tor.tor / 40000 * 40000) s ++ beBytes 2 (crc16 (hbBody (s.tor.tor / 40000 * 40000) s))) ∈ t.out ∧
      (s.arm.telling = none → t.sto = s.sto ∧ t.flt = s.flt ∧ t.cpu = s.cpu ∧ t.jnl = s.jnl)) ∧
    (s.dx.sentAt = s.tor.tor / 40000 * 40000 → exec .heartbeatSend s = .next s) ∧
    (∀ l0 l1 : Long, hbValid l0 s = true → lbit l0 50 = false → lbit l0 51 = false → lbit l0 52 = false → lbit l0 53 = false → s.dx.state = 2 → s.dx.released = false →
      (hbOf p s).due ≠ 0 → l1.toNat = (hbOf p s).due → (hbOf p s).arrived = [] → (hbOf p s).due % 40000 = 0 → s.tor.tor ≤ (hbOf p s).due + 20000 →
      ∃ t, exec (.heartbeat p l0 l1) s = .next t ∧ hbOf p t = { hbOf p s with seen := true, arrived := [], due := (hbOf p s).due + 40000, run := 0, ok := true } ∧
        hbOf (otherPath p) t = hbOf (otherPath p) s ∧ t.dx.state = 2 ∧ t.jnl = s.jnl ∧ t.flt = s.flt) ∧
    (∀ l0 l1 : Long, hbValid l0 s = true → lbit l0 53 = true → pairUp s = true → s.jnl.out = [] → s.jnl.e = [] → s.ch.ops = [] → s.dx.heldByPartner = false →
      s.jnl.settleDue = false → ∃ t, exec (.heartbeat p l0 l1) s = .next t ∧ t.dx.state = 3 ∧ t.dx.failTor = s.tor.tor ∧ t.sto = s.sto) ∧
    (∀ l0 l1 : Long, hbValid l0 s = false → exec (.heartbeat p l0 l1) s = .next s) ∧
    ((hbOf p s).due ≠ 0 → (hbOf p s).arrived = [] →
      (s.tor.tor < (hbOf p s).due + 20000 → exec (.heartbeatMiss p) s = .next s) ∧
      ((hbOf p s).due + 20000 ≤ s.tor.tor → (hbOf p s).run < 2 →
        exec (.heartbeatMiss p) s = .next (setHb p { hbOf p s with due := (hbOf p s).due + 40000, run := (hbOf p s).run + 1, ok := false, miss := satAdd 16 (hbOf p s).miss 1 } s)) ∧
      ((hbOf p s).due + 20000 ≤ s.tor.tor → 2 ≤ (hbOf p s).run → 3 ≤ (hbOf (otherPath p) s).run → pairUp s = true → s.jnl.out = [] → s.jnl.e = [] → s.ch.ops = [] →
        s.dx.heldByPartner = false → s.jnl.settleDue = false →
        ∃ t, exec (.heartbeatMiss p) s = .next t ∧ t.dx.state = 3 ∧ t.dx.failTor = s.tor.tor ∧ (∀ n ∈ takenPorts s, tget false n t.ch.driving = true ∧ tget false n t.dx.taken = true) ∧
          tget 0 0x295 t.flt.live = sat16 (tget 0 0x295 s.flt.live) ∧ t.sto = s.sto)) ∧
    (holdOver s = true → ∃ t, exec .holddownExpiry s = .next t ∧ t.dx.taken = [] ∧ t.dx.released = true ∧ t.dx.holdEnd = 0 ∧ t.dx.state = 5 ∧ t.jnl = s.jnl ∧ t.flt = s.flt ∧
      (∀ e ∈ s.dx.taken, e.2 = true → tget false e.1 t.ch.driving = false)) ∧
    (holdOver s = false → exec .holddownExpiry s = .next s) ∧
    (∀ v, admin v s = true →
      (s.dx.state = 5 → holder s = true → ∃ t, exec (.failbackNow v) s = .next t ∧ t.dx.taken = [] ∧ t.dx.released = true ∧ t.dx.lastResult = 0 ∧ t.jnl = s.jnl) ∧
      ((s.dx.state ≠ 5 ∨ holder s = false) → exec (.failbackNow v) s = .next { s with dx := { s.dx with lastResult := 0x0C } }))

/-! ### Work queues and engines (17_rasp, 19_intaglio) -/

/-- The commands of a work queue. ENABLE of a DISABLED queue whose rings pass the checks starts it from index 0 with phase 1, and is otherwise
refused with its code; DISABLE of an ENABLED queue lets a running job drain and a PAUSED one is
DISABLED at once, and work in line that waited behind the queue may begin (`u` is the state before that); RESUME of a PAUSED queue enables
it; a doorbell sets TAIL and CQ_HEAD, and an index of N or above pauses an ENABLED queue. A view to which the queue is not open changes nothing, and
every other queue is as before. The doorbell of a queue pair with work asks the host for the slot at HEAD (17 R398, R401; 24 R537). -/
def Obligations.QueueCommandsMoveTheQueue : Prop :=
  ∀ (v : View) (b : QBlock) (q : Nat) (s : State), Safety.settled s → operating s = true →
    (mayQueue v b q s = false → exec (.enable v b q) s = .next s ∧ exec (.disable v b q) s = .next s ∧ exec (.resume v b q) s = .next s ∧
      ∀ val, exec (.queueDoorbell v b q val) s = .next s) ∧
    (mayQueue v b q s = true →
      ((64 ≤ q ∨ (queueOf b q s).state = 0) → exec (.enable v b q) s = .next (setQueue b q (
        if (queueOf b q s).state ≠ 0 then { queueOf b q s with lastResult := 0x0C }
        else if ringsOk b q s then { queueOf b q s with lastResult := 0, state := 1, head := 0, tail := 0, cqHead := 0, cqTail := 0, pause := 0, phase := true,
                                                        slot := none, fetch := none, held := none, behind := 0 }
        else { queueOf b q s with lastResult := 5 }) s)) ∧
      ((queueOf b q s).state = 0 ∨ (queueOf b q s).state = 2 →
        exec (.disable v b q) s = .next (settle s (lineStart (setQueue b q { queueOf b q s with lastResult := 0x0C } s))) ∧
        (s.ch.ops = [] → exec (.disable v b q) s = .next (setQueue b q { queueOf b q s with lastResult := 0x0C } s))) ∧
      ((queueOf b q s).state = 1 ∨ (queueOf b q s).state = 3 → (queueOf b q s).wipe = false →
        ∃ t u, exec (.disable v b q) s = .next t ∧ t = settle s (lineStart u) ∧ (s.ch.ops = [] → t = u) ∧
          (∀ c j, (c, j) ≠ (b, q) → queueOf c j u = queueOf c j s) ∧ u.sto = s.sto ∧ u.ch = s.ch ∧
          queueOf b q u = { queueOf b q s with state := if (queueOf b q s).busy && (queueOf b q s).state != 3 then 2 else 0, lastResult := 0, held := none, slot := none, fetch := none }) ∧
      ((queueOf b q s).state ≠ 3 → exec (.resume v b q) s = .next (setQueue b q { queueOf b q s with lastResult := 0x0C } s)) ∧
      ((queueOf b q s).state = 3 → (queueOf b q s).held = none → 64 ≤ q →
        exec (.resume v b q) s = .next (setQueue b q { queueOf b q s with lastResult := 0, state := 1, pause := 0, held := none } s)) ∧
      ((queueOf b q s).state = 3 → q < 64 → s.pf1.bme = false → exec (.resume v b q) s = .next (setQueue b q { queueOf b q s with lastResult := 0x0C } s)) ∧
      ((queueOf b q s).state = 3 → (queueOf b q s).held = none → q < 64 → s.pf1.bme = true → ∃ t, exec (.resume v b q) s = .next t ∧
        (queueOf b q t).state = 1 ∧ (queueOf b q t).lastResult = 0 ∧ (queueOf b q t).pause = 0 ∧ (∀ c j, (c, j) ≠ (b, q) → queueOf c j t = queueOf c j s) ∧ t.sto = s.sto) ∧
      ∀ val, 64 ≤ q ∨ (queueOf b q s).fetch.isSome = true → ∃ t, exec (.queueDoorbell v b q val) s = .next t ∧ (∀ c j, (c, j) ≠ (b, q) → queueOf c j t = queueOf c j s) ∧ t.sto = s.sto ∧
        queueOf b q t = if (queueOf b q s).state = 1 ∧ (2 ^ (queueOf b q s).size ≤ fld val 63 48 ∨ 2 ^ (queueOf b q s).size ≤ fld val 47 32)
          then { queueOf b q s with tail := fld val 63 48, cqHead := fld val 47 32, state := 3, pause := 1 }
          else { queueOf b q s with tail := fld val 63 48, cqHead := fld val 47 32 }) ∧
    (∀ val, mayQueue v b q s = true → q < 64 → b ≠ .mailbox → s.hp.req.length < 768 → fnMaster s.pf1 = true → (queueOf b q s).slot = none → (queueOf b q s).fetch = none →
      fld val 63 48 < 2 ^ (queueOf b q s).size → fld val 47 32 < 2 ^ (queueOf b q s).size →
      queueReady { queueOf b q s with tail := fld val 63 48, cqHead := fld val 47 32 } = true →
      ∃ t, exec (.queueDoorbell v b q val) s = .next t ∧ (queueOf b q t).fetch = some (s.hp.nextTag % 1024) ∧
        t.out = s.out ++ [.hostRead (s.hp.nextTag % 1024) ((qpOf q s).prBase + (queueOf b q s).head * 64) 64])

/-- An idle Rasp engine takes the pending job in line of its hub, and where none waits the job at HEAD of the next queue in turn: the command of that
job's opcode takes it, HEAD moves on, and the queue after it is served next; the command of the other opcode leaves it. A bad descriptor is
PARAM_ERROR, a byte outside the partition's extents is ADDRESS_ERROR, a poisoned context is DATA_POISON, and otherwise context and input are read
then, with the place of the first poisoned byte of the input. When the job ends the engine is idle again with one job more; the output that succeeds
and the context are stored before the record, after which the queue goes on, and a job in line answers its operation (17 R394 to R399, R403, R404,
R406, R407). A parity error in the engine ends the job and is an event of the engine. `u` is the state when the engine has done its part; operations
that waited for an engine then go on. -/
def Obligations.RaspEnginesTakeAndEndJobs : Prop :=
  ∀ (s : State) (k : Nat), Safety.settled s → operating s = true → k < 8 →
    (∀ i r o, (raspOf k s).failed = false → (raspOf k s).job = none → raspLineNext k s = some (i, r) → opOf i s = some o → o.line = some r →
      (exec (if r.back then .compress k else .decompress k) s = .next (settle s (chWakeAll s))) ∧
      ∃ t u j, exec (if r.back then .decompress k else .compress k) s = .next t ∧ t = settle s (chWakeAll u) ∧ (raspOf k u).job = some j ∧
        j.line = some i ∧ j.part = (jent i s).part ∧ j.input = r.input ∧ opOf i u = some { o with line := some { r with engine := some k, input := [] } } ∧
        (∀ m, m ≠ k → raspOf m u = raspOf m s) ∧ u.eng.inta = s.eng.inta ∧ u.jnl = s.jnl) ∧
    (∀ q p d w, (raspOf k s).failed = false → (raspOf k s).job = none → raspLineNext k s = none → askDescs .rasp s = s →
      nextQueue .rasp s.eng.rNext (fun q => descHere .rasp q s) s = some q → queuePart .rasp q s = some p → takeDesc .rasp q s = .desc d →
      w = { tookDesc .rasp q s with eng := { (tookDesc .rasp q s).eng with rNext := (q + 1) % 256 } } →
      (Safety.noneWaits s → exec (if natAt d 0 1 = 2 then .compress k else .decompress k) s = .next s) ∧
      (∀ early ctx input bad mapped ri rc, mapped = (jobMapped q p (natAt d 8 8) (natAt d 4 4) s && jobMapped q p (natAt d 0x10 8) (natAt d 0x18 4) s &&
          jobMapped q p (natAt d 0x20 8) (if natAt d 0x20 8 = 0 then 0 else ctxLen) s) →
        ri = partRead (.rasp q) p (natAt d 8 8) (natAt d 4 4) w → rc = partRead (.rasp q) p (natAt d 0x20 8) (if natAt d 0x20 8 = 0 then 0 else ctxLen) w →
        ((raspParamBad d = true ∧ early = some 2 ∧ ctx = [] ∧ input = [] ∧ bad = none) ∨
         (raspParamBad d = false ∧ mapped = false ∧ early = some 3 ∧ ctx = [] ∧ input = [] ∧ bad = none) ∨
         (raspParamBad d = false ∧ mapped = true ∧ partMissing (.rasp q) p (natAt d 8 8) (natAt d 4 4) w = [] ∧
          partMissing (.rasp q) p (natAt d 0x20 8) (if natAt d 0x20 8 = 0 then 0 else ctxLen) w = [] ∧
          early = (if rc.2 then some 4 else none) ∧ ctx = rc.1 ∧ input = ri.1 ∧ bad = partBad (.rasp q) p (natAt d 8 8) (natAt d 4 4) w)) →
        ∃ t u, exec (if natAt d 0 1 = 2 then .decompress k else .compress k) s = .next t ∧ t = settle s (chWakeAll u) ∧ u.ch = s.ch ∧
          raspOf k u = { raspOf k s with job := some { queue := q, part := p, desc := d, ctx := ctx, input := input, early := early,
                                                       bad := bad, space := some (natAt d 0x18 4), loaded := true } } ∧
          (∀ j, j ≠ k → raspOf j u = raspOf j s) ∧ u.eng.rNext = (q + 1) % 256 ∧
          queueOf .rasp q u = { queueOf .rasp q s with head := ((queueOf .rasp q s).head + 1) % 2 ^ (queueOf .rasp q s).size, busy := true, slot := none, behind := 0 } ∧
          (∀ j, j ≠ q → queueOf .rasp j u = queueOf .rasp j s) ∧ u.eng.iq = s.eng.iq ∧ u.eng.inta = s.eng.inta ∧
          (s.cpu.dirty = [] → (∀ l, (coreOf l s).held1 = [] ∧ (coreOf l s).held2 = []) → u.sto.mem = s.sto.mem ∧ u.sto.poison = s.sto.poison))) ∧
    ((raspOf k s).job = none → ∀ parity, exec (.raspJobComplete k parity) s = .next s) ∧
    (∀ j r s0 s1 s2 a, (raspOf k s).job = some j → j.early = none → j.line = none → j.loaded = true → 64 ≤ j.queue → (queueOf .rasp j.queue s).drop = false →
      (queueOf .rasp j.queue s).wipe = false → queuePart .rasp j.queue s = some j.part →
      s0 = setRasp k { raspOf k s with job := none, jobs := satAdd 32 (raspOf k s).jobs 1 } s →
      r = raspRun (raspParams j.desc) (if natAt j.desc 0x20 8 = 0 then none else some j.ctx) j.input j.bad j.space → r.status = 0 →
      (natAt j.desc 0x20 8 ≠ 0 → partUnowned j.part (natAt j.desc 0x20 8 + 0x18) 8 s = [] ∧
        (partRead (.rasp j.queue) j.part (natAt j.desc 0x20 8 + 0x18) 8 s0).1 = bytesAt j.ctx 0x18 8) →
      s1 = partWrite (.rasp j.queue) j.part (natAt j.desc 0x10 8) r.out s0 →
      s2 = (if natAt j.desc 0x20 8 = 0 then s1 else partWrite (.rasp j.queue) j.part (natAt j.desc 0x20 8) r.ctx s1) → agentPending (.rasp j.queue) s2 = false →
      a = (queueOf .rasp j.queue s).cqBase + (queueOf .rasp j.queue s).cqTail * 32 → partMapped j.part a 32 s2 = true →
      ∃ t u, exec (.raspJobComplete k false) s = .next t ∧ t = settle s (chWakeAll u) ∧ u.ch = s2.ch ∧
        u.sto = (partWrite (.rasp j.queue) j.part a
          (withTor .rasp s.tor.tor (withPhase (queueOf .rasp j.queue s) (raspRecord j.desc 0 r (queueOf .rasp j.queue s).head))) s2).sto ∧
        raspOf k u = { raspOf k s with job := none, jobs := satAdd 32 (raspOf k s).jobs 1 } ∧
        queueOf .rasp j.queue u = { cqAdvance (queueOf .rasp j.queue s) with
          busy := false, post := none, state := if (queueOf .rasp j.queue s).state = 2 then 0 else (queueOf .rasp j.queue s).state }) ∧
    (∀ j, (raspOf k s).job = some j → j.loaded = true → j.early = some 4 → ∃ t u, exec (.raspJobComplete k false) s = .next t ∧ t = settle s (chWakeAll u) ∧
      (fltStatus (srcRasp k) u).pending = true ∧ raspOf k u = { raspOf k s with job := none, jobs := satAdd 32 (raspOf k s).jobs 1 }) ∧
    (∀ j, (raspOf k s).job = some j → ∃ t u, exec (.raspJobComplete k true) s = .next t ∧ t = settle s (chWakeAll u) ∧
        (fltStatus (srcRasp k) u).pending = true ∧ raspOf k u = { raspOf k s with job := none, jobs := satAdd 32 (raspOf k s).jobs 1 } ∧
        (∀ i o r, j.line = some i → opOf i s = some o → o.line = some r → r.engine = some k →
          ∃ b, opOf i u = some { o with line := some { r with engine := none, done := some (7, b) } }) ∧
        (j.line = none → j.queue < 64 → natAt j.desc 0x18 4 = 0 → agentPending (.rasp j.queue) s = false → (queueOf .rasp j.queue s).drop = false → fnMaster s.pf1 = true →
          (queueOf .rasp j.queue s).state = 1 → (queueOf .rasp j.queue u).busy = false ∧ u.sto = s.sto ∧
          Out.hostWrite ((qpOf j.queue s).pcBase + (queueOf .rasp j.queue s).cqTail * 32)
            (withTor .rasp s.tor.tor (withPhase (queueOf .rasp j.queue s) (raspRecord j.desc 7 { status := 7 } (queueOf .rasp j.queue s).head))) false ∈ u.out))

/-- An idle Intaglio engine takes the urgent request of the next queue in turn that has one, else the pending request in line of its hub, else the
request at HEAD of the next queue in turn, by the command of its opcode (ENCRYPT, DECRYPT, MAC_GEN, MAC_VERIFY, HASH, KW_WRAP, KW_UNWRAP, GENKEY,
UNWRAP, WRAP, CLEAR), and reads what it needs, or first waits for its turn at the slot; a CLEAR empties the slot then. Where no engine is idle an
urgent request suspends one that is not urgent, on the engine that it goes to. While DECRYPT runs, part of the plaintext may already lie in its
output area. When a request ends, the engine counts it and goes on with the one it suspended once the record is posted; a CLEAR waits for the
requests that started with the key before it; a GENKEY leaves the slot LOADED with the requested algorithm, usage and length; a fault of the engine
is a CE of it, where no status was decided before (19 R437 to R439, R443, R446, R448, R450 to R452, R455). `w` is the state with the descriptor
taken and `x` with the request started, `u` the state when the engine has done its part; operations that waited for an engine then go on. How far a
request has read when an urgent one comes is the model's free choice (log entry 110). -/
def Obligations.IntaglioEnginesTakeAndEndRequests : Prop :=
  ∀ (s : State) (k : Nat), Safety.settled s → operating s = true → k < 8 →
    (∀ i r o, (intOf k s).failed = false → (intOf k s).job = none → (intOf k s).susp = none → askDescs .intaglio s = s → intLineNext k s = some (i, r) →
      opOf i s = some o → o.line = some r →
      ∃ t u j, exec (if r.back then .decrypt k else .encrypt k) s = .next t ∧ t = settle s (chWakeAll u) ∧ (intOf k u).job = some j ∧ j.line = some i ∧
        j.part = (jent i s).part ∧ j.input = r.input ∧ opOf i u = some { o with line := some { r with engine := some k, input := [] } } ∧
        (∀ m, m ≠ k → intOf m u = intOf m s) ∧ u.eng.rasp = s.eng.rasp ∧ u.eng.slots = s.eng.slots ∧ u.jnl = s.jnl) ∧
    (∀ q p d w j x, (intOf k s).failed = false → (intOf k s).job = none → (intOf k s).susp = none → askDescs .intaglio s = s →
      (urgentNext s = some q ∨
        urgentNext s = none ∧ intLineNext k s = none ∧ nextQueue .intaglio s.eng.iNext (fun q => descHere .intaglio q s) s = some q) →
      queuePart .intaglio q s = some p → takeDesc .intaglio q s = .desc d →
      w = { tookDesc .intaglio q s with eng := { (tookDesc .intaglio q s).eng with iNext := (q + 1) % 256, order := (tookDesc .intaglio q s).eng.order + 1 } } →
      j = { queue := q, part := p, desc := d, ctx := [], input := [], aad := [], key := (intEarly q p false (intDesc d) w).2,
            early := (intEarly q p false (intDesc d) w).1, suspended := false, dual := (intOf k s).dual, start := s.eng.order } →
      x = setInt k { intOf k s with job := some j } w →
      (Safety.noneWaits s → ∀ op, Safety.intCommand k op ≠ Safety.intCommand k (natAt d 0 1) → exec (Safety.intCommand k op) s = .next s) ∧
      (slotTurn j x = false → exec (Safety.intCommand k (natAt d 0 1)) s = .next (settle s (chWakeAll x))) ∧
      (∀ j1, slotTurn j x = true → intRead j x = .inr j1 →
        ∃ t u, exec (Safety.intCommand k (natAt d 0 1)) s = .next t ∧ t = settle s (chWakeAll u) ∧
          intOf k u = { intOf k s with job := some { j1 with loaded := true } } ∧
          (intParamBad (intDesc d) = true → j1.early = some 2) ∧ (∀ i, i ≠ k → intOf i u = intOf i s) ∧ u.eng.iNext = (q + 1) % 256 ∧
          queueOf .intaglio q u =
            { queueOf .intaglio q s with head := ((queueOf .intaglio q s).head + 1) % 2 ^ (queueOf .intaglio q s).size, busy := true, slot := none, behind := 0 } ∧
          (∀ i, i ≠ q → queueOf .intaglio i u = queueOf .intaglio i s) ∧ u.eng.rq = s.eng.rq ∧ u.eng.rasp = s.eng.rasp ∧
          (natAt d 0 1 ≠ 0x13 → u.eng.slots = s.eng.slots) ∧ (natAt d 0 1 = 0x13 → j1.early = none → keySlotOf (natAt d 4 2) u = none) ∧
          (j1.early = some 4 → (fltStatus (srcInt k) u).pending = true) ∧
          (s.cpu.dirty = [] → (∀ l, (coreOf l s).held1 = [] ∧ (coreOf l s).held2 = []) → natAt d 0 1 ≠ 2 → natAt d 0 1 ≠ 7 →
            u.sto.mem = s.sto.mem ∧ u.sto.poison = s.sto.poison) ∧
          (s.cpu.dirty = [] → (∀ l, (coreOf l s).held1 = [] ∧ (coreOf l s).held2 = []) → natAt d 0 1 = 2 → j1.early = none →
            ∃ n y, y.sto.mem = s.sto.mem ∧ u.sto = (partWrite (.intaglio q) p (intDesc d).outAddr
              ((plainText (intDesc d) (match j1.key with | some key => key.key | none => []) j1.ctx j1.input).take n) y).sto))) ∧
    (∀ s0, s0 = (List.range 8).foldl (fun s m => intProgress m s) s → maySuspend k s = true → urgentWaits s = true →
      (urgentEngine s0 ≠ some k → exec (.urgentSuspend k) s = .next s0) ∧
      (∀ j s1 q p d w j1 j2 x, urgentEngine s0 = some k → (intOf k s).failed = false → (intOf k s0).job = some j →
        s1 = setInt k { intOf k s0 with job := none } s0 → askDescs .intaglio s1 = s1 → urgentNext s1 = some q → queuePart .intaglio q s1 = some p →
        takeDesc .intaglio q s1 = .desc d →
        w = { tookDesc .intaglio q s1 with
              eng := { (tookDesc .intaglio q s1).eng with iNext := (q + 1) % 256, order := (tookDesc .intaglio q s1).eng.order + 1 } } →
        j1 = { queue := q, part := p, desc := d, ctx := [], input := [], aad := [], key := (intEarly q p false (intDesc d) w).2,
               early := (intEarly q p false (intDesc d) w).1, suspended := false, dual := (intOf k s).dual, start := s.eng.order } →
        x = setInt k { intOf k s1 with job := some j1 } w → slotTurn j1 x = true → intRead j1 x = .inr j2 → Safety.graceful s →
        ∃ t, exec (.urgentSuspend k) s = .next t ∧ (intOf k t).job = some { j2 with loaded := true } ∧ (intOf k t).susp = some { j with suspended := true } ∧
          (∀ i, i ≠ k → intOf i t = intOf i s0) ∧ t.eng.rasp = s.eng.rasp)) ∧
    ((intOf k s).job = none → exec (.urgentSuspend k) s = .next s ∧ ∀ fault, exec (.intaglioRequestComplete k fault) s = .next s) ∧
    (∀ j, (intOf k s).job = some j →
      (j.loaded = true → clearWaits j s = true → Safety.noneWaits s → exec (.intaglioRequestComplete k false) s = .next s) ∧
      (∀ fault, (fault = false → j.loaded = true) → clearWaits j s = false →
        (fault = false → j.early = none → (intDesc j.desc).ctxAddr ≠ 0 → partUnowned j.part ((intDesc j.desc).ctxAddr + 0x60) 8 s = []) →
        ∃ t u, exec (.intaglioRequestComplete k fault) s = .next t ∧ t = settle s (chWakeAll u) ∧
          (intOf k u).jobs = satAdd 32 (intOf k s).jobs 1 ∧
          (intOf k u).faults = (if fault && j.early.isNone then satAdd 16 (intOf k s).faults 1 else (intOf k s).faults) ∧
          ((intOf k s).susp = none → (intOf k u).job = none) ∧
          (∀ y, (intOf k s).susp = some y →
            (j.line ≠ none ∨ (queueOf .intaglio j.queue u).post = none → (intOf k u).job = some y ∧ (intOf k u).susp = none) ∧
            (j.line = none → (queueOf .intaglio j.queue u).post ≠ none → (intOf k u).job = none ∧ (intOf k u).susp = some y ∧ (intOf k u).posting = some j.queue)) ∧
          (j.line = none → agentPending (.intaglio j.queue) u = false → (queueOf .intaglio j.queue u).busy = false) ∧
          (fault = true → j.early = none → (fltStatus (srcInt k) u).pending = true) ∧
          (∀ i o r, fault = true → j.line = some i → opOf i s = some o → o.line = some r → r.engine = some k →
            opOf i u = some { o with line := some { r with engine := none, done := some (j.early.getD 7, []) } }) ∧
          (natAt j.desc 0 1 ≠ 0x10 → natAt j.desc 0 1 ≠ 0x11 → u.eng.slots = s.eng.slots) ∧
          (fault = false → j.early = none → natAt j.desc 0 1 = 0x10 → natAt j.desc 24 8 = 0 →
            ∃ key, keySlotOf (natAt j.desc 4 2) u = some key ∧ key.alg = natAt j.desc 1 1 ∧ key.usage = bits (natAt j.desc 48 8) 63 48 ∧
              key.never = (natAt j.desc 48 8).testBit 47 ∧ key.uuid = uuidOf j.part s ∧ key.key.length = genLen (intDesc j.desc))))

/-! ### Trust (18_trust) -/

/-- A report is asked for through TR_ATT_CMD or TR_PATT, which refuses while one is formed, for an UNDEFINED partition, or for an area that does not
lie whole in the window or the partition's storage, and is otherwise BUSY; it completes over the nonce in the area and leaves the report there, not
BUSY, with result OK. A view that may not ask changes nothing (18 R415, R417, R429). -/
def Obligations.ReportsAreFormedOverTheNonce : Prop :=
  ∀ (s : State), Safety.settled s → operating s = true →
    (∀ v off, exec (.moduleReport v off) s = .next (if admin v s = false then s
      else { s with tr := if s.tr.attBusy then { s.tr with attResult := 0x0C } else if attAreaOk off then { s.tr with attBusy := true, attResult := 0, attJob := some { part := none, off := off } } else { s.tr with attResult := 3 } })) ∧
    (∀ v p off, exec (.partitionReport v p off) s = .next (if admin v s = false then s
      else { s with tr := if s.tr.attBusy || pstateOf p s == .undefined then { s.tr with attResult := 0x0C } else if attAreaOk off then { s.tr with attBusy := true, attResult := 0, attJob := some { part := some p, off := off } } else { s.tr with attResult := 3 } })) ∧
    (∀ v n val, exec (.trPatt v n val) s = .next (if (admin v s || v == .part n) = false ∨ 48 ≤ n then s
      else setPatt n (
        if (pattOf n s).busy || fld val 63 60 != 1 || pstateOf n s == .undefined then { pattOf n s with addr := fld val 51 6 * 64, result := 0x0C }
        else if partMapped n (fld val 51 6 * 64) reportLen s then { pattOf n s with busy := true, result := 0, addr := fld val 51 6 * 64, area := fld val 51 6 * 64 }
        else { pattOf n s with addr := fld val 51 6 * 64, result := 3 }) s)) ∧
    (s.tr.attJob = none → exec (.attestationComplete none) s = .next s) ∧
    (∀ j, s.tr.attJob = some j → (∀ p, j.part = some p → pstateOf p s ≠ .undefined) → ∃ t, exec (.attestationComplete none) s = .next t ∧
      t.tr.attBusy = false ∧ t.tr.attResult = 0 ∧ t.tr.attJob = none ∧ svcBytes j.off reportLen t = report (if j.part.isSome then 1 else 0) j.part (svcBytes j.off 32 s) s ∧
      (∀ a, a < j.off ∨ j.off + reportLen ≤ a → tget 0 a t.svc = tget 0 a s.svc) ∧ t.sto = s.sto ∧ t.flt = s.flt) ∧
    (∀ n, (pattOf n s).busy = false → exec (.attestationComplete (some n)) s = .next s) ∧
    (∀ n, (pattOf n s).busy = true → (pattOf n s).wrote = false →
      (partMapped n (pattOf n s).area reportLen s = false →
        exec (.attestationComplete (some n)) s = .next (setPatt n { pattOf n s with busy := false, result := 3, area := 0 } s)) ∧
      (∀ u, partMapped n (pattOf n s).area reportLen s = true → partMissing .service n (pattOf n s).area 32 s = [] → Safety.graceful s →
        u = partWrite .service n (pattOf n s).area (report 1 (some n) (partRead .service n (pattOf n s).area 32 s).1 s) (partSeen .service n (pattOf n s).area 32 s) →
        ∃ t, exec (.attestationComplete (some n)) s = .next t ∧ t.sto = u.sto ∧
          pattOf n t = (if agentPending .service u then { pattOf n s with wrote := true } else { pattOf n s with busy := false, result := 0, area := 0 }))) ∧
    (∀ n, (pattOf n s).busy = true → (pattOf n s).wrote = true → agentPending .service s = false →
      exec (.attestationComplete (some n)) s = .next (setPatt n { pattOf n s with busy := false, result := 0, area := 0, wrote := false } s))

/-- An entropy source that fails its tests stays failed and is an event, once. A DRBG instance reseeds when due and not before, with its requests
counted from 0. A module asked to replace a partition's storage key does so and answers; the last answer that a grant waits for grants control and
marks the partition for good once the requests that it ended have posted their records, and a grant that still waits after 100 ms is refused, an
answer that comes later included. A board test that drives the pins destroys every key and holds the module (18 R421, R426, R427; the event code of
a source is log entry 64's). -/
def Obligations.EntropyAndKeyDestruction : Prop :=
  ∀ (s : State), Safety.settled s →
    (operating s = true →
      (∀ south, (if south then s.tr.esS else s.tr.esN) = true → exec (.entropyTestFail south) s = .next s) ∧
      (∀ south, (if south then s.tr.esS else s.tr.esN) = false → Safety.graceful s →
        ∃ t, exec (.entropyTestFail south) s = .next t ∧ (if south then t.tr.esS else t.tr.esN) = true ∧ (fltStatus (srcEntropy south) t).pending = true ∧
          t.tr.storageKey = s.tr.storageKey ∧ t.tr.drbg = s.tr.drbg ∧ t.sto = s.sto) ∧
      (∀ inst, (reseedDue (inst.getD 48) s = false → exec (.drbgReseed inst) s = .next s) ∧
        (reseedDue (inst.getD 48) s = true → ∃ t, exec (.drbgReseed inst) s = .next t ∧
          (∀ j, tget {} j t.tr.drbg = if j = inst.getD 48 then { requests := 0, seeded := s.tor.tor, reseeds := (tget {} j s.tr.drbg).reseeds + 1 } else tget {} j s.tr.drbg) ∧
          t.tr.storageKey = s.tr.storageKey ∧ t.sto = s.sto ∧ t.flt = s.flt)) ∧
      (∀ src sc uuid, (tget none src s.arm.db = none → exec (.rekeyRequest src sc uuid) s = .next s) ∧
        (tget none src s.arm.db ≠ none → (∀ p ∈ partIds s, uuidOf p s ≠ uuid) → exec (.rekeyRequest src sc uuid) s = .next (emit (.rekey src sc true) s)) ∧
        (∀ p d, tget none src s.arm.db ≠ none → (partIds s).find? (fun q => uuidOf q s == uuid) = some p → p < 48 → partOf p s = some d → homedHere d s = true →
          ∃ t key, exec (.rekeyRequest src sc uuid) s = .next t ∧ tget none p t.tr.storageKey = some key ∧ key.length = 64 ∧
            (∀ q, q ≠ p → tget none q t.tr.storageKey = tget none q s.tr.storageKey) ∧ tget 0 p t.tr.keyGen = satAdd 32 (tget 0 p s.tr.keyGen) 1 ∧
            Out.rekey src sc true ∈ t.out)) ∧
      (∀ g n p, Safety.monitorStill s → s.tr.pend = some g → g.scope = .partition p → g.waiting.contains (n * 64 + p) = true →
        (g.since + 400000000 ≤ s.tor.tor → ∃ t, exec (.rekeyAck n (.partition p)) s = .next t ∧ t.tr.pend = none ∧ t.tr.debug = s.tr.debug ∧ sessionOf g.session t = sessionOf g.session s) ∧
        (s.tor.tor < g.since + 400000000 → (g.waiting.filter (fun k => k != n * 64 + p) ≠ [] ∨ lostPosts s = true) →
          exec (.rekeyAck n (.partition p)) s = .next { s with tr := { s.tr with pend := some { g with waiting := g.waiting.filter (fun k => k != n * 64 + p) } } }) ∧
        (s.tor.tor < g.since + 400000000 → g.waiting.filter (fun k => k != n * 64 + p) = [] → lostPosts s = false → ∃ t, exec (.rekeyAck n (.partition p)) s = .next t ∧ t.tr.pend = none ∧
          tget false p t.tr.debug = true ∧ (sessionOf g.session t).grant = some (.partition p, g.expiry) ∧ t.tr.storageKey = s.tr.storageKey ∧ t.sto = s.sto ∧ t.flt = s.flt)) ∧
      (∀ g, Safety.monitorStill s → s.tr.pend = some g →
        (s.tor.tor < g.since + 400000000 → exec .grantDestructionTimeout s = .next s) ∧
        (g.since + 400000000 ≤ s.tor.tor → ∃ t, exec .grantDestructionTimeout s = .next t ∧ t.tr.pend = none ∧ sessionOf g.session t = sessionOf g.session s ∧
          t.tr.debug = s.tr.debug ∧ t.sto = s.sto ∧ (g.session = .uart → t.out = s.out ++ [.text .uart (errLine 5 ++ asc " destroy" ++ crlf ++ prompt)])))) ∧
    (powered s = true →
      (∀ i, i = .bypass ∨ i = .idcode ∨ i = .samplePreload → exec (.boundaryScan i) s = .next s) ∧
      (∀ i, i = .extest ∨ i = .intest ∨ i = .clamp → ∃ t, exec (.boundaryScan i) s = .next t ∧ t.tr.scanHeld = true ∧ operating t = false ∧
        t.tr.storageKey = [] ∧ t.eng.slots = [] ∧ t.eng.inta = [] ∧ t.cpu = ({} : State).cpu))

/-! ### Host port (24_host_port) -/

/-- Windows of the host. COMMIT makes active every shadow entry that MASK names, or none and names the lowest entry that fails. A read that passes
the checks is answered with the bytes of storage or of the flash, once the earlier posted writes are performed (R535), one that fails with UR,
counted; a write that passes is stored at its partition's address, with EP it poisons the lines and is an event, and one that fails is dropped,
counted and an event. A function that takes no requests refuses reads and drops writes. PF0's window holds bytes of its own, and a BAR0 carries
exactly aligned longs of registers (R22, R529). Configuration is answered with Retry for 200 ms, and then with the value or as the write that it is
(24 R528, R532 to R535, R540, R543; 27 R589). -/
def Obligations.HostWindowsCommitReadAndWrite : Prop :=
  ∀ (s : State), Safety.settled s → hostUp s = true →
    (∀ v mask, (admin v s || v == .pf1) = true →
      (s.pf1.flr = true → exec (.commit v mask) s = .next { s with hp := { s.hp with winResult := 0x0C } }) ∧
      (s.pf1.flr = false → (∀ n, n < 17 → mask.toNat.testBit n = true → winEntryOk n (shadowOf n s) = true) →
        ∃ t, exec (.commit v mask) s = .next t ∧ t.hp.winResult = 0 ∧ (∀ n, winOf n t = if n < 17 ∧ mask.toNat.testBit n = true then shadowOf n s else winOf n s) ∧
          t.hp.shadow = s.hp.shadow ∧ t.sto = s.sto ∧ t.flt = s.flt) ∧
      (∀ m, s.pf1.flr = false → m < 17 → mask.toNat.testBit m = true → winEntryOk m (shadowOf m s) = false →
        (∀ n, n < m → mask.toNat.testBit n = true → winEntryOk n (shadowOf n s) = true) →
        exec (.commit v mask) s = .next { s with hp := { s.hp with winResult := 0x12, firstBad := m } })) ∧
    (∀ w addr, w = .pf1 ∨ w = .rom → fnOpen s.pf1 = true →
      (∀ len p a d least, least = (if (winOf (winSlot w addr).1 s).uc then 3 else 0) → winPlace (winSlot w addr).1 (winSlot w addr).2 len false s = some (.storage p a) → agentPending (.hostWrite 1) s = false →
        partMissingAs least .hostRead p a len s = [] → partReadAs least .hostRead p a len s = (d, false) → Safety.graceful s →
        ∃ t, exec (.hostWindowRead w addr len) s = .next t ∧ Out.hostData d false ∈ t.out ∧ t.pf1.ur = s.pf1.ur ∧ (s.cpu.core = [] → t.cpu.core = []) ∧
          (s.cpu.dirty = [] → (∀ l, (coreOf l s).held1 = [] ∧ (coreOf l s).held2 = []) → t.sto.mem = s.sto.mem ∧ t.sto.poison = s.sto.poison)) ∧
      (∀ len o, winPlace (winSlot w addr).1 (winSlot w addr).2 len false s = some (.flash o) → agentPending (.hostWrite 1) s = false →
        exec (.hostWindowRead w addr len) s = .next (emit (.hostData (flashRead o len s) false) s)) ∧
      (∀ len x, winPlace (winSlot w addr).1 (winSlot w addr).2 len false s = some x → agentPending (.hostWrite 1) s = true →
        exec (.hostWindowRead w addr len) s = .next s) ∧
      (∀ len, winPlace (winSlot w addr).1 (winSlot w addr).2 len false s = none →
        ∃ t, exec (.hostWindowRead w addr len) s = .next t ∧ t.out.getLast? = some .hostUr ∧ t.pf1.ur = satAdd 16 s.pf1.ur 1 ∧ t.sto = s.sto ∧ t.flt = s.flt) ∧
      (∀ data p a, winPlace (winSlot w addr).1 (winSlot w addr).2 data.length true s = some (.storage p a) →
        Safety.graceful s →
        (∃ t, exec (.hostWindowWrite w addr data false) s = .next t ∧ t.sto = (partWrite (.hostWrite 1) p a data s).sto ∧ t.pf1.ur = s.pf1.ur) ∧
        (∃ t, exec (.hostWindowWrite w addr data true) s = .next t ∧ t.sto = (partPoisonMark (.hostWrite 1) p a data.length s).sto ∧
          (fltStatus srcHost t).pending = true)) ∧
      (∀ data ep, winPlace (winSlot w addr).1 (winSlot w addr).2 data.length true s = none → Safety.graceful s →
        ∃ t, exec (.hostWindowWrite w addr data ep) s = .next t ∧ t.pf1.ur = satAdd 16 s.pf1.ur 1 ∧ (fltStatus srcHost t).pending = true ∧ t.sto = s.sto)) ∧
    (∀ w addr, w = .pf1 ∨ w = .rom → fnOpen s.pf1 = false →
      (∀ len, exec (.hostWindowRead w addr len) s = .next (emit .hostUr { s with pf1 := { s.pf1 with ur := satAdd 16 s.pf1.ur 1 } })) ∧
      (∀ data ep, exec (.hostWindowWrite w addr data ep) s = .next { s with pf1 := { s.pf1 with ur := satAdd 16 s.pf1.ur 1 } })) ∧
    (∀ addr, fnOpen s.pf0 = true →
      (∀ len, addr + len ≤ svcSize → svcPoisoned addr len s = false → exec (.hostWindowRead .pf0 addr len) s = .next (emit (.hostData (svcBytes addr len s) false) s)) ∧
      (∀ data, addr + data.length ≤ svcSize → ∃ t, exec (.hostWindowWrite .pf0 addr data false) s = .next t ∧ svcBytes addr data.length t = data ∧
        (∀ a, a < addr ∨ addr + data.length ≤ a → tget 0 a t.svc = tget 0 a s.svc) ∧ t.sto = s.sto ∧ t.flt = s.flt)) ∧
    (∀ fn addr, fn < 2 →
      (fnOpen (fnOf fn s) = true → addr % 8 = 0 →
        (apertureMiss addr s = false ∨ fn = 1 → exec (.hostWindowRead (.bar0 fn) addr 8) s =
          .next (emit (.hostData (beBytes 8 (if fn = 0 then pf0Long addr s else pf1Long addr s).toNat) false) s)) ∧
        (∀ data : List Byte, data.length = 8 → exec (.hostWindowWrite (.bar0 fn) addr data false) s =
          exec (.registerWrite (if fn = 0 then .pf0 else .pf1) addr (BitVec.ofNat 64 (beNat data))) s)) ∧
      (∀ len, fnOpen (fnOf fn s) = false ∨ len ≠ 8 ∨ addr % 8 ≠ 0 → exec (.hostWindowRead (.bar0 fn) addr len) s = .next (emit .hostUr (countUr fn s))) ∧
      (∀ (data : List Byte) ep, fnOpen (fnOf fn s) = false ∨ data.length ≠ 8 ∨ addr % 8 ≠ 0 → exec (.hostWindowWrite (.bar0 fn) addr data ep) s = .next (countUr fn s))) ∧
    (∀ fn f, fn < 2 →
      (∀ w, s.tor.tor < s.hp.since + 800000000 → exec (.hostConfigRequest fn f w) s = .next (emit (.config fn none) s)) ∧
      (s.hp.since + 800000000 ≤ s.tor.tor → exec (.hostConfigRequest fn f none) s = .next (emit (.config fn (some (cfgRead fn f s))) s)) ∧
      (∀ w n, s.hp.since + 800000000 ≤ s.tor.tor → f = .bar n → n ≠ 6 → barSize fn n ≠ 0 → (fnOf fn s).flr = false →
        ∃ t, exec (.hostConfigRequest fn f (some w)) s = .next t ∧ tget 0 n (fnOf fn t).bar = w.toNat / barSize fn n * barSize fn n ∧
          (∀ k, k ≠ n → tget 0 k (fnOf fn t).bar = tget 0 k (fnOf fn s).bar) ∧ t.out = s.out ++ [.config fn (some w)] ∧ t.sto = s.sto ∧ t.flt = s.flt))

/-- What comes back for a request to host memory. The slot of a queue that waits for it arrives, and with EP pauses the queue; a completion whose
request is gone is counted and has no other effect. A request outstanding for 50 ms is abandoned, an event, and its queue pauses (24 R526, R540, R541,
R543). -/
def Obligations.HostCompletionsServeQueues : Prop :=
  ∀ (s : State) (tag : Nat), Safety.settled s →
    (hostUp s = true → ∀ data ep,
      (tget none tag s.hp.req = none → exec (.hostCompletion tag data ep) s = .next { s with pf1 := { s.pf1 with late := satAdd 16 s.pf1.late 1 } }) ∧
      (∀ x b, tget none tag s.hp.req = some x → qpBlock x.qp s = some b → (queueOf b x.qp s).fetch = some tag →
        ∃ t, exec (.hostCompletion tag data ep) s = .next t ∧ tget none tag t.hp.req = none ∧
          queueOf b x.qp t = (if ep then { queueOf b x.qp s with fetch := none, state := 3, pause := 2 } else { queueOf b x.qp s with fetch := none, slot := some (bytesAt data 0 64) }) ∧
          (∀ j, j ≠ tag → tget none j t.hp.req = tget none j s.hp.req) ∧ t.sto = s.sto ∧ t.flt = s.flt) ∧
      (∀ x, tget none tag s.hp.req = some x → (∀ b, qpBlock x.qp s = some b → (queueOf b x.qp s).fetch ≠ some tag) →
        exec (.hostCompletion tag data ep) s = .next { s with hp := { s.hp with req := tdel tag s.hp.req } })) ∧
    (operating s = true →
      (tget none tag s.hp.req = none → exec (.completionTimeout tag) s = .next s) ∧
      (∀ x, tget none tag s.hp.req = some x →
        (s.tor.tor < x.since + 200000000 → exec (.completionTimeout tag) s = .next s) ∧
        (x.since + 200000000 ≤ s.tor.tor → Safety.graceful s →
          ∃ t, exec (.completionTimeout tag) s = .next t ∧ tget none tag t.hp.req = none ∧ (fltStatus srcHost t).pending = true ∧ t.sto = s.sto ∧
            (∀ j, j ≠ tag → tget none j t.hp.req = tget none j s.hp.req) ∧
            (∀ b, qpBlock x.qp s = some b → (queueOf b x.qp s).fetch = some tag →
              queueOf b x.qp t = { queueOf b x.qp s with fetch := none, state := 3, pause := 2 }))))

/-- Queue pairs and mailboxes. A partition claims a FREE pair of a kind that it is permitted, and releases its own once its queue is DISABLED; else
the result says why not and nothing more changes. A message that has arrived goes into the inbox, its slot passes, and a waiting notify core wakes.
The reply at OUT_HEAD goes to the host's completion ring with its phase, and both indices move on (24 R536, R538). -/
def Obligations.QueuePairsAndMailboxes : Prop :=
  ∀ (s : State) (q : Nat), Safety.settled s → operating s = true → q < 64 →
    (∀ p kind,
      ((qpOf q s).owner ≠ none ∨ kind % 4 = 0 → exec (.claim (.part p) kind q) s = .next (setQp q { qpOf q s with lastResult := 0x0C } s)) ∧
      ((qpOf q s).owner = none → kind % 4 ≠ 0 → (partOf p s).any (fun d => d.hostPerm.testBit (kindPerm (kind % 4))) = false →
        exec (.claim (.part p) kind q) s = .next (setQp q { qpOf q s with lastResult := 0x11 } s)) ∧
      ((qpOf q s).owner = none → kind % 4 ≠ 0 → (partOf p s).any (fun d => d.hostPerm.testBit (kindPerm (kind % 4))) = true →
        ∃ t, exec (.claim (.part p) kind q) s = .next t ∧ qpOf q t = { qpOf q s with kind := kind % 4, owner := some p, lastResult := 0 } ∧
          (∀ j, j ≠ q → qpOf j t = qpOf j s) ∧ t.eng = s.eng ∧ t.sto = s.sto ∧ t.flt = s.flt)) ∧
    (∀ v kind, (∀ p, v ≠ .part p) → exec (.claim v kind q) s = .next s ∧ exec (.qpRelease v q) s = .next s) ∧
    (∀ p,
      ((qpOf q s).owner ≠ some p → exec (.qpRelease (.part p) q) s = .next (setQp q { qpOf q s with lastResult := 0x0C } s)) ∧
      (∀ b, qpBlock q s = some b → (queueOf b q s).state ≠ 0 → exec (.qpRelease (.part p) q) s = .next (setQp q { qpOf q s with lastResult := 0x0C } s)) ∧
      (∀ b, (qpOf q s).owner = some p → qpBlock q s = some b → (queueOf b q s).state = 0 →
        ∃ t, exec (.qpRelease (.part p) q) s = .next t ∧ qpOf q t = { qpOf q s with kind := 0, owner := none, lastResult := 0 } ∧
          (∀ j, j ≠ q → qpOf j t = qpOf j s) ∧ t.eng = s.eng ∧ t.sto = s.sto ∧ t.flt = s.flt)) ∧
    (mailboxOwner q s = none ∨ (queueOf .mailbox q s).slot = none ∨ inboxRoom q s = false → exec (.mailboxInbound q) s = .next s) ∧
    (∀ p m, mailboxOwner q s = some p → (queueOf .mailbox q s).slot = some m → (queueOf .mailbox q s).state = 1 → inboxRoom q s = true → boxesMapped p q s = false →
      ∃ t, exec (.mailboxInbound q) s = .next t ∧ queueOf .mailbox q t = { queueOf .mailbox q s with state := 3, pause := 2 } ∧ t.sto = s.sto) ∧
    (∀ p m u, Safety.graceful s → mailboxOwner q s = some p → (queueOf .mailbox q s).slot = some m →
      ((queueOf .mailbox q s).state = 1 ∨ (queueOf .mailbox q s).state = 3 ∧ (queueOf .mailbox q s).pause = 3) → (queueOf .mailbox q s).post = none →
      inboxRoom q s = true → boxesMapped p q s = true →
      u = partWrite (.hostWrite 1) p ((qpOf q s).inbox + (qpOf q s).inTail % 2 ^ (queueOf .mailbox q s).size * 64) m s → agentPending (.hostWrite 1) u = false →
      ∃ t, exec (.mailboxInbound q) s = .next t ∧ t.sto = u.sto ∧ qpOf q t = { qpOf q s with inTail := ((qpOf q s).inTail + 1) % 65536 } ∧
        (queueOf .mailbox q t).head = ((queueOf .mailbox q s).head + 1) % 2 ^ (queueOf .mailbox q s).size ∧ (queueOf .mailbox q t).slot = none ∧
        (∀ d, partOfCore (qpOf q s).notify s = some p → (coreOf (qpOf q s).notify s).run = .waiting d → (coreOf (qpOf q s).notify t).run = .running)) ∧
    (mailboxOwner q s = none ∨ (qpOf q s).outTail = (qpOf q s).outHead ∨ (queueOf .mailbox q s).state ≠ 1 ∨ fnMaster s.pf1 = false →
      exec (.mailboxOutbound q) s = .next s) ∧
    (∀ p a m, Safety.graceful s → mailboxOwner q s = some p → (queueOf .mailbox q s).state = 1 → (qpOf q s).outTail ≠ (qpOf q s).outHead → fnMaster s.pf1 = true →
      ((queueOf .mailbox q s).cqTail + 2 ^ (queueOf .mailbox q s).size - (queueOf .mailbox q s).cqHead) % 2 ^ (queueOf .mailbox q s).size < 2 ^ (queueOf .mailbox q s).size - 1 →
      boxesMapped p q s = true → a = (qpOf q s).inbox + 2 ^ (queueOf .mailbox q s).size * 64 + (qpOf q s).outHead % 2 ^ (queueOf .mailbox q s).size * 64 →
      partMissing .hostRead p a 64 s = [] → partRead .hostRead p a 64 s = (m, false) →
      ∃ t, exec (.mailboxOutbound q) s = .next t ∧
        Out.hostWrite ((qpOf q s).pcBase + (queueOf .mailbox q s).cqTail * 64) (withMsgPhase (queueOf .mailbox q s) m) false ∈ t.out ∧
        queueOf .mailbox q t = cqAdvance (queueOf .mailbox q s) ∧ qpOf q t = { qpOf q s with outHead := ((qpOf q s).outHead + 1) % 65536 } ∧
        (s.cpu.dirty = [] → (∀ l, (coreOf l s).held1 = [] ∧ (coreOf l s).held2 = []) → t.sto.mem = s.sto.mem ∧ t.sto.poison = s.sto.poison))

/-- Resets and Bus Master Enable of the host port. A reset of PF1 disables every queue pair's queue, returns every window to its reset value and
abandons every request; PF0 is not touched by it. PERST_N and a hot reset take the link down and reset both functions; the link trains again and
carries requests from 8.0 GT/s on. Clearing Bus Master Enable pauses PF1's ENABLED queues; setting it sends the pending vectors that nothing else
holds back (24 R527, R539, R542 to R544). -/
def Obligations.HostResetsAndBusMasterEnable : Prop :=
  ∀ (s : State), Safety.settled s →
    (hostUp s = true →
      exec (.flr 0) s = .next { s with pf0 := { flr := true, late := s.pf0.late, ur := s.pf0.ur, dropped := s.pf0.dropped } } ∧
      (∃ t, exec (.flr 1) s = .next t ∧ t.pf0 = s.pf0 ∧ t.pf1.flr = true ∧ t.pf1.bme = false ∧ t.pf1.ur = s.pf1.ur ∧ t.hp.req = [] ∧ (∀ n, winOf n t = winReset n) ∧
        (∀ q b, q < 64 → qpBlock q s = some b → (queueOf b q t).state = if (queueOf b q s).busy && (queueOf b q s).state != 3 then 2 else 0) ∧ (∀ q, qpOf q t = qpOf q s) ∧ t.sto = s.sto ∧ t.flt = s.flt) ∧
      (∃ t, exec .hotReset s = .next t ∧ t.pf0.flr = true ∧ t.pf1.flr = true ∧ t.hp.req = [] ∧ t.hp.state = (if s.hp.perst || s.pin.hpLost then 0 else 1) ∧ t.sto = s.sto) ∧
      (∀ fn, fn < 2 → (fnOf fn s).flr = true → ∀ on, exec (.busMasterEnable fn on) s = .next s) ∧
      (∀ on, s.pf0.flr = false → ∃ t, exec (.busMasterEnable 0 on) s = .next t ∧ t.pf0.bme = on ∧ t.pf1 = s.pf1 ∧ t.eng = s.eng ∧ t.sto = s.sto) ∧
      (s.pf1.flr = false →
        (∃ t, exec (.busMasterEnable 1 true) s = .next t ∧ t.pf1.bme = true ∧ t.sto = s.sto ∧
          ∀ v, v < 130 → tget false v s.pf1.pba = true → s.pf1.msixEnable = true → s.pf1.fnMask = false → tget false v s.pf1.vOpen = true →
            tget false v t.pf1.pba = false ∧ .msix 1 v ∈ t.out) ∧
        (s.pf1.bme = true → ∃ t, exec (.busMasterEnable 1 false) s = .next t ∧ t.pf1.bme = false ∧ t.sto = s.sto ∧
          ∀ q b, q < 64 → qpBlock q s = some b → queueOf b q t = if (queueOf b q s).state = 1 then { queueOf b q s with state := 3, pause := 3 } else queueOf b q s))) ∧
    (operating s = true →
      (∀ fn, fn < 2 → (fnOf fn s).flr = false → exec (.functionResetComplete fn) s = .next s) ∧
      (∀ fn, fn < 2 → (fnOf fn s).flr = true → exec (.functionResetComplete fn) s = .next (setFn fn { fnOf fn s with flr := false } s)) ∧
      (s.hp.perst = false → ∃ t, exec (.perstN true) s = .next t ∧ t.hp.perst = true ∧ t.hp.state = 0 ∧ t.pf0.flr = true ∧ t.pf1.flr = true ∧ t.hp.req = [] ∧ t.sto = s.sto) ∧
      (∀ width rate flit, s.hp.state = 1 → s.hp.perst = false → s.pin.hpLost = false → 1 ≤ width → width ≤ 3 → 1 ≤ rate → rate ≤ 4 →
        exec (.hostLinkTrained width rate flit) s = .next { s with hp := { s.hp with state := 2, rate := rate, width := width, flit := flit || rate == 4 } }) ∧
      (∀ width rate flit, rate = 0 ∨ s.hp.perst = true → exec (.hostLinkTrained width rate flit) s = .next s)) ∧
    (operating s = false ∨ s.hp.perst = true → exec (.perstN true) s = .next { s with hp := { s.hp with perst := true } }) ∧
    (s.hp.perst = false → exec (.perstN false) s = .next s) ∧
    (s.hp.perst = true → exec (.perstN false) s = .next { s with hp := { s.hp with perst := false, since := s.tor.tor, state := b2n (powered s && !s.pin.hpLost) } })

/-! ### The Maquette monitor (26_maquette) and register writes (01_overview) -/

/-- The observe level answers what it is asked at once, with what the registers hold, and a bad argument with code 0x03 (the form of a line is log
entry 63's). BAUD answers at the old rate and changes it, and without a complete line for 10 s the old rate returns. Every character received on the
UART is echoed; it joins the line, deletes its last character, or ends it; a line of more than 256 characters is too long. The mailbox takes its line
when IN_SEQ has changed, and the line `tor` is MQ_TOR of its session. A line that comes while another is being executed waits behind it (26 R568 to
R571, R577, R578). -/
def Obligations.MaquetteObservesAndTakesLines : Prop :=
  (∀ (s : State) (ss : Session), Safety.settled s → mqUp s = true → Safety.monitorIdle s →
    (exec (.mqId ss) s = .next (respond ss [regLine "ID_PART" .idPart s, regLine "ID_ORDER" .idOrder s, regLine "ID_SERIAL" .idSerial s, regLine "ID_TOPOLOGY" .idTopology s] s) ∧
     exec (.mqTor ss) s = .next (respond ss (showTor s) s) ∧
     (∀ a b, exec (.mqPatina ss a b) s = .next (if a ≤ b ∧ b ≤ 0x29F then respond ss (showPatina a b s) s else respond ss [errLine 3] s)) ∧
     (∀ n, exec (.mqFlt ss n) s = .next (if 1 ≤ n ∧ n ≤ 8192 then respond ss (showFlt n s) s else respond ss [errLine 3] s)) ∧
     exec (.mqPlinth ss) s = .next (respond ss ([regLine "PLN_STATUS" .plnStatus s, regLine "PLN_GEN" .plnGen s, regLine "PLN_FUSE" .plnFuse s] ++
       (partIds s).map (fun p => regLineN "PART_STATE" p (.partState p) s)) s) ∧
     (∀ i, exec (.mqJnl ss (some i)) s = .next (if i < 262144 then respond ss ([regLine "JNL_STATUS" .jnlStatus s, regLine "JNL_LAT" .jnlLat s] ++
       (List.range 8).map (fun k => asc "JNL_ENTRY" ++ decNum k ++ asc " " ++ hexLong (BitVec.ofNat 64 (natAt (jent i s).bytes (8 * k) 8)))) s else respond ss [errLine 3] s)) ∧
     exec (.mqJnl ss none) s = .next (respond ss [regLine "JNL_STATUS" .jnlStatus s, regLine "JNL_LAT" .jnlLat s] s) ∧
     (∀ p, exec (.mqLink ss p) s = .next (if p.all portExists then respond ss (showLink p s) s else respond ss [errLine 3] s))) ∧
    (∀ lines, respond .uart lines s = { s with out := s.out ++ [.text .uart (lines.flatMap (fun l => l ++ [13, 10]) ++ prompt)] } ∧
      ((lines.flatMap (fun l => l ++ [13, 10])).length ≤ 61440 → ∃ t, respond .mailbox lines s = t ∧ natAt (svcBytes 0x03FF0010 8 t) 0 8 = s.mq.inSeq % 2 ^ 64 ∧
        natAt (svcBytes 0x03FF0018 4 t) 0 4 = (lines.flatMap (fun l => l ++ [13, 10])).length ∧
        svcBytes 0x03FF1000 (lines.flatMap (fun l => l ++ [13, 10])).length t = lines.flatMap (fun l => l ++ [13, 10]) ∧ t.sto = s.sto ∧ t.flt = s.flt)) ∧
    (∀ r, r ∈ [115200, 230400, 460800, 921600, 1500000, 3000000] → ∃ t, exec (.mqBaud ss r) s = .next t ∧ t.mq.baud = r ∧ t.mq.oldBaud = s.mq.baud ∧
      t.mq.baudSince = some s.tor.tor ∧ t.out = (respond ss [asc "ok"] s).out) ∧
    (∀ r, r ∉ [115200, 230400, 460800, 921600, 1500000, 3000000] → exec (.mqBaud ss r) s = .next (respond ss [errLine 3] s)) ∧
    (s.mq.baudSince = none → exec .baudTimeout s = .next s) ∧
    (∀ t0, s.mq.baudSince = some t0 → (s.tor.tor < t0 + 40000000000 → exec .baudTimeout s = .next s) ∧
      (t0 + 40000000000 ≤ s.tor.tor → exec .baudTimeout s = .next { s with mq := { s.mq with baud := s.mq.oldBaud, baudSince := none } })) ∧
    (∀ c, c ≠ 13 → c ≠ 10 → exec (.mqRxCharacter c) s = .next { s with
      out := s.out ++ [.text .uart [c]],
      mq := if c = 8 ∨ c = 0x7F then { s.mq with line := s.mq.line.dropLast } else if 256 ≤ s.mq.line.length then { s.mq with tooLong := true } else { s.mq with line := s.mq.line ++ [c] } }) ∧
    (∀ c, c = 13 ∨ c = 10 →
      (s.mq.tooLong = true → ∃ t, exec (.mqRxCharacter c) s = .next t ∧ t.mq.line = [] ∧ t.mq.tooLong = false ∧
        t.out = s.out ++ [.text .uart [c], .text .uart (errLine 2 ++ crlf ++ prompt)]) ∧
      (∀ e, s.mq.tooLong = false → s.mq.line ≠ [] → s.mq.uart.await = none → parseLine s.mq.line = .inl e →
        ∃ t, exec (.mqRxCharacter c) s = .next t ∧ t.mq.line = [] ∧ t.mq.baudSince = none ∧ t.out = s.out ++ [.text .uart [c], .text .uart (errLine e ++ crlf ++ prompt)])) ∧
    (natAt (svcBytes 0x03FF0000 8 s) 0 8 = s.mq.inSeq → exec .mailboxLine s = .next s) ∧
    (∀ n, natAt (svcBytes 0x03FF0000 8 s) 0 8 ≠ s.mq.inSeq → natAt (svcBytes 0x03FF0008 4 s) 0 4 = n → 1 ≤ n → n ≤ 256 → s.mq.mbx.await = none →
      parseLine (svcBytes 0x03FF0100 n s) = .inr .tor →
      exec .mailboxLine s = exec (.mqTor .mailbox) { s with mq := { s.mq with inSeq := natAt (svcBytes 0x03FF0000 8 s) 0 8 } })) ∧
  (∀ (s : State) (ss : Session) (c : MqItem) (i : Instr), Safety.settled s → mqUp s = true → Safety.monitorStill s → grantDue s = s → mqBusy s = true →
    (i, c) ∈ [(.mqId ss, .cmd ss .id), (.mqTor ss, .cmd ss .tor), (.mqPlinth ss, .cmd ss .plinth), (.mqRelease ss, .cmd ss .release), (.mailboxLine, .mailbox)] →
    exec i s = .next { s with mq := { s.mq with queue := [c] } })

/-- Grants. `grant` asks for a token, unless the other session holds that scope; lines of digits are gathered, and a line that is none ends the
attempt; at "." a token that fails a check is refused with its name, and one that passes has the partition's slots emptied, its storage key replaced
and the partition marked before control is granted to its expiry, where no other module and no running request holds the partition's keys
and no request that a destruction ended has still to post its record. `release`
and the expiry end the grant (18 R426; 26 R574 to R577). -/
def Obligations.MaquetteGrantsDestroyKeysFirst : Prop :=
  ∀ (s : State) (ss : Session), Safety.settled s → mqUp s = true → Safety.monitorIdle s →
    (∀ sc off, grantIn (otherSession ss) s = some sc → exec (.mqGrant ss sc off) s = .next (respond ss [errLine 8] s)) ∧
    (∀ sc, grantIn (otherSession ss) s ≠ some sc →
      exec (.mqGrant ss sc none) s = .next (respond ss [asc "send token"] (setSession ss { sessionOf ss s with await := some sc, token := [] } s)) ∧
      (∀ o, o % 8 ≠ 0 ∨ svcSize < o + 5520 → exec (.mqGrant ss sc (some o)) s = .next (respond ss [errLine 3] s))) ∧
    ((sessionOf ss s).await = none → ∀ line, exec (.tokenLine ss line) s = .next s) ∧
    (∀ sc line, (sessionOf ss s).await = some sc → line ≠ asc "." → (sessionOf ss s).token.length ≤ 5520 →
      (∀ b, 2 ≤ line.length → line.length ≤ 64 → hexBytes line = some b →
        exec (.tokenLine ss line) s = .next (setSession ss { sessionOf ss s with token := (sessionOf ss s).token ++ b } s)) ∧
      (hexBytes line = none ∨ line.length < 2 ∨ 64 < line.length →
        exec (.tokenLine ss line) s = .next (respond ss [errLine 5 ++ asc " format"] (setSession ss { sessionOf ss s with await := none, token := [] } s)))) ∧
    (∀ p d u, (sessionOf ss s).await = some (.partition p) → u = setSession ss { sessionOf ss s with await := none, token := [] } s →
      grantIn (otherSession ss) s ≠ some (.partition p) → s.tr.pend = none → partOf p s = some d → p < 48 → remoteNodes p s = [] → homedHere d s = true → s.eng.inta = [] → lostPosts s = false →
      ∃ t, exec (.tokenLine ss (asc ".")) s = .next t ∧ t.pln = s.pln ∧
        (∀ c, tokenFault (.partition p) (sessionOf ss s).token u = some c → t = respond ss [errLine 5 ++ asc " " ++ asc c] u) ∧
        (tokenFault (.partition p) (sessionOf ss s).token u = none →
          (sessionOf ss t).grant = some (.partition p, natAt (sessionOf ss s).token 0x18 8) ∧ (sessionOf ss t).await = none ∧ tget false p t.tr.debug = true ∧
          (∀ i k, keySlotOf i s = some k → slotInRange p i s = true → k.uuid = uuidOf p s → keySlotOf i t = none) ∧
          (∃ key, tget none p t.tr.storageKey = some key ∧ key.length = 64) ∧ tget 0 p t.tr.keyGen = satAdd 32 (tget 0 p s.tr.keyGen) 1 ∧ (tget {} p t.tr.drbg).requests = 0)) ∧
    ((grantIn ss s).isSome = true → exec (.mqRelease ss) s = .next (respond ss [asc "ok"] (setSession ss { sessionOf ss s with grant := none } s))) ∧
    ((grantIn ss s).isSome = false → exec (.mqRelease ss) s = .next (respond ss [errLine 4] s)) ∧
    (∀ sc t0, (sessionOf ss s).grant = some (sc, t0) →
      (s.tor.tor < t0 → exec (.grantExpiry ss) s = .next s) ∧
      (t0 ≤ s.tor.tor → exec (.grantExpiry ss) s = .next (setSession ss { sessionOf ss s with grant := none } s) ∧ grantIn ss s = none))

/-- The control level. Without a grant that covers the address or core every command is refused with code 0x04, or 0x08 where the other session holds
it, and after a module checkstop with 0x06. With one, mem reads or writes a long of storage, halt stops a running core at its boundary, step runs one
group of a halted core, run lets it go on, regs shows its registers, and recast starts a recast whose result is told when it ends (26 R570, R572,
R573, R577, R579). -/
def Obligations.MaquetteControlsCores : Prop :=
  ∀ (s : State) (ss : Session), Safety.settled s → mqUp s = true → Safety.monitorIdle s → Safety.graceful s →
    (∀ e, control ss (fun _ => true) s = .inl e → ∀ a n v, exec (.mqMemR ss a n) s = .next (respond ss [errLine e] s) ∧ exec (.mqMemW ss a v) s = .next (respond ss [errLine e] s)) ∧
    (∀ l e, control ss (coversCore l s) s = .inl e → exec (.mqCoreHalt ss l) s = .next (respond ss [errLine e] s) ∧ exec (.mqCoreStep ss l) s = .next (respond ss [errLine e] s) ∧
      exec (.mqCoreRun ss l) s = .next (respond ss [errLine e] s) ∧ exec (.mqCoreRegs ss l) s = .next (respond ss [errLine e] s) ∧ exec (.mqRecast ss l) s = .next (respond ss [errLine e] s)) ∧
    (∀ cover, (s.flt.checkstop = true → control ss cover s = .inl 6) ∧
      (s.flt.checkstop = false → (∀ sc, grantIn ss s = some sc → cover sc = false) → (∀ sc, grantIn (otherSession ss) s = some sc → cover sc = false) → control ss cover s = .inl 4) ∧
      (∀ sc, s.flt.checkstop = false → grantIn ss s = none → grantIn (otherSession ss) s = some sc → cover sc = true → control ss cover s = .inl 8)) ∧
    (∀ p addr a, s.flt.checkstop = false → grantIn ss s = some (.partition p) → addr % 8 = 0 → armOf p addr s = some a → isLocal a s = true →
      (∀ b, agentHas .service (attrAt 0 p addr s) a s = true → agentRead .service (attrAt 0 p addr s) a 8 s = (b, false) →
        exec (.mqMemR ss addr 1) s =
          .next (respond ss [hexLong (BitVec.ofNat 64 addr) ++ asc " " ++ hexLong (BitVec.ofNat 64 (beNat b))] (agentSeen .service (some p) (attrAt 0 p addr s) a 8 s))) ∧
      (∀ v, a % 8 = 0 → physKind (physOfAddr a) s = .dram → homeReady (lineOf a) true s = true → agentPending .service s = false →
        exec (.mqMemW ss addr v) s = .next (respond ss [asc "ok"] (agentWrite .service (some p) a (beBytes 8 v.toNat) s)) ∧
        (Safety.memoryWf s → twf none s.cpu.dirty = true →
          (∀ l, tget none (lineOf a) (coreOf l s).held1 = none ∧ tget none (lineOf a) (coreOf l s).held2 = none) →
          ∀ b, cohByte b (agentWrite .service (some p) a (beBytes 8 v.toNat) s) =
            if a ≤ b ∧ b < a + 8 then (beBytes 8 v.toNat).getD (b - a) 0 else cohByte b s))) ∧
    (∀ p addr, s.flt.checkstop = false → grantIn ss s = some (.partition p) → addr % 8 ≠ 0 ∨ armOf p addr s = none →
      (∀ v, exec (.mqMemW ss addr v) s = .next (respond ss [errLine 7] s)) ∧ exec (.mqMemR ss addr 1) s = .next (respond ss [errLine 7] s)) ∧
    (∀ l sc, l < 192 → s.flt.checkstop = false → grantIn ss s = some sc → coversCore l s sc = true → recState l s = 0 → (coreOf l s).losing = none →
      ((coreOf l s).run = .running ∨ (∃ d, (coreOf l s).run = .waiting d) → ∃ t, exec (.mqCoreHalt ss l) s = .next t ∧ (coreOf l t).mqHalt = true) ∧
      ((coreOf l s).run = .running → midGroup (coreOf l s) = false → (coreOf l s).sb = [] → (coreOf l s).wc = [] →
        ∃ u, exec (.mqCoreHalt ss l) s = .next (respond ss [asc "ok"] u) ∧ (coreOf l u).run = .stopped ∧ (coreOf l u).mqHalt = true ∧ (coreOf l u).mqWait = none ∧ (coreOf l u).resv = none ∧
          (coreOf l u).pc = (coreOf l s).pc ∧ (coreOf l u).g = (coreOf l s).g ∧ (∀ k, k ≠ l → coreOf k u = coreOf k s) ∧ u.sto = s.sto) ∧
      ((coreOf l s).run = .stopped → exec (.mqCoreHalt ss l) s = .next (respond ss [errLine 6] s) ∧
        (∃ lines, exec (.mqCoreRegs ss l) s = .next (respond ss lines s) ∧ lines.length = 163 ∧
          (∀ n, n < 64 → lines[n]? = some (asc "g" ++ decNum n ++ asc " " ++ hexLong (getG (coreOf l s) n))) ∧
          lines[96]? = some (asc "PC " ++ hexLong (coreOf l s).pc) ∧ lines[97]? = some (asc "TSW " ++ hexLong (coreOf l s).tsw) ∧
          (∀ n, n < 64 → lines[99 + n]? = some (asc "c" ++ decNum n ++ asc " " ++ hexLong (readCr l n s)))) ∧
        (∀ p, (coreOf l s).mqHalt = true → partOfCore l s = some p → pstateOf p s = .running →
          exec (.mqCoreRun ss l) s =
            .next (respond ss [asc "ok"] (deliverHeld l (modCore l (fun c => { c with mqHalt := false, mqStep := false, mqBound := false, run := .running }) s)))) ∧
        ((coreOf l s).mqHalt = false → exec (.mqCoreRun ss l) s = .next (respond ss [errLine 6] s)) ∧
        (∀ s0 s1 f op rd ra b, s0 = deliverHeld l (modCore l (fun c => { c with mqHalt := true, mqStep := true, mqBound := false, mqWait := some ss, run := .running }) s) →
          firstCond l s0 = none → (coreOf l s).sb = [] → (coreOf l s).wc = [] → midGroup (coreOf l s) = false → (coreOf l s).rep = none →
          fetchGroup l (coreOf l s).pc.toNat s0 = .ok f s1 → s1 = { s0 with cpu := s1.cpu, sto := s1.sto, free := s1.free } →
          coreOf l s1 = { coreOf l s0 with l1i := (coreOf l s1).l1i, l1d := (coreOf l s1).l1d, l2 := (coreOf l s1).l2, dtlb := (coreOf l s1).dtlb,
                                           itlb := (coreOf l s1).itlb, tlb2 := (coreOf l s1).tlb2, walk := (coreOf l s1).walk } →
          decodeGroup f.raw f.stop = .ops [.alu op false rd ra b] →
          ∃ u, exec (.mqCoreStep ss l) s = .next (respond ss [asc "ok"] u) ∧ (coreOf l u).run = .stopped ∧ (coreOf l u).mqHalt = true ∧ (coreOf l u).mqStep = false ∧
            (coreOf l u).mqWait = none ∧ (coreOf l u).pc = BitVec.ofNat 64 f.next ∧ (coreOf l u).tsw = (coreOf l s).tsw ∧
            (∀ n, getG (coreOf l u) n = if n = rd ∧ n ≠ 0 then (aluResult op (getG (coreOf l s) ra) (srcVal (coreOf l s) b)).1 else getG (coreOf l s) n) ∧ u.sto = s1.sto)) ∧
      ((coreOf l s).run ≠ .stopped → exec (.mqCoreStep ss l) s = .next (respond ss [errLine 6] s) ∧ exec (.mqCoreRun ss l) s = .next (respond ss [errLine 6] s) ∧
        exec (.mqCoreRegs ss l) s = .next (respond ss [errLine 6] s)) ∧
      (s.cpu.recBusy = true → exec (.mqRecast ss l) s = .next (respond ss [asc "RESULT 0x0C"] { s with cpu := { s.cpu with recResult := 0x0C } })) ∧
      (s.cpu.recBusy = false → spareFree (l / 16) s = true →
        ∃ t, exec (.mqRecast ss l) s = .next t ∧ t.mq.recast = some ss ∧ t.cpu.recBusy = true ∧ t.cpu.recLogical = l ∧ t.cpu.recResult = 0 ∧ t.sto = s.sto ∧ t.out = s.out))

/-- A register write. A register takes the long only from a view that may write it and only if it has a field to write; what is read-only, reserved or
another's is not changed, and a function in reset counts what it refuses. A command register acts as the command that it names, and the registers of
plain fields take them at their offsets (01 R8, R20 to R22; 02 R49, R53; 16 R385; 17 R409; 18 R429; 23 R525; 24 R529, R543, R547). -/
def Obligations.RegisterWritesActAsTheirCommands : Prop :=
  ∀ (v : View) (off : Nat) (val : Long) (s : State), Safety.settled s →
    (powered s = false → exec (.registerWrite v off val) s = .next s) ∧
    (decodeReg off = none ∨ (∃ r, decodeReg off = some r ∧ hasWrite r = false) → exec (.registerWrite .service off val) s = .next s) ∧
    (∀ p r, decodeReg off = some r → partWritable p r s = false → exec (.registerWrite (.part p) off val) s = .next s) ∧
    (powered s = true → s.pf0.flr = true ∨ off % 8 ≠ 0 → exec (.registerWrite .pf0 off val) s = .next { s with pf0 := { s.pf0 with ur := satAdd 16 s.pf0.ur 1 } }) ∧
    (powered s = true → s.pf1.flr = true ∨ off % 8 ≠ 0 → exec (.registerWrite .pf1 off val) s = .next { s with pf1 := { s.pf1 with ur := satAdd 16 s.pf1.ur 1 } }) ∧
    (∀ b q, decodeReg off = some (.qDb b q) → exec (.registerWrite .service off val) s = exec (.queueDoorbell .service b q val) s) ∧
    (∀ b q, decodeReg off = some (.qCmd b q) →
      (fld val 63 60 = 1 → exec (.registerWrite .service off val) s = exec (.enable .service b q) s) ∧
      (fld val 63 60 = 2 → exec (.registerWrite .service off val) s = exec (.disable .service b q) s) ∧
      (fld val 63 60 = 3 → exec (.registerWrite .service off val) s = exec (.resume .service b q) s)) ∧
    (decodeReg off = some .trAttCmd →
      (fld val 63 60 = 1 → exec (.registerWrite .service off val) s = exec (.moduleReport .service (fld val 31 0)) s) ∧
      (fld val 63 60 = 2 → exec (.registerWrite .service off val) s = exec (.partitionReport .service (fld val 59 54) (fld val 31 0)) s)) ∧
    (∀ n, decodeReg off = some (.trPatt n) → exec (.registerWrite (.part n) off val) s = exec (.trPatt (.part n) n val) s) ∧
    (decodeReg off = some .hpWinCmd → fld val 63 60 = 1 → exec (.registerWrite .service off val) s = exec (.commit .service (BitVec.ofNat 17 (fld val 59 43))) s) ∧
    (∀ p, decodeReg off = some .hpQpCmd → fld val 63 60 = 1 → exec (.registerWrite (.part p) off val) s = exec (.claim (.part p) (fld val 59 58) (fld val 57 52)) s) ∧
    (operating s = true →
      exec (.registerWrite .service 0x100010 val) s = .next { s with pln := { s.pln with stageOffset := fld val 63 32, stageLength := fld val 31 0 } } ∧
      exec (.registerWrite .service 0x8000010 val) s = .next { s with cs := { s.cs with stageOffset := fld val 63 32, stageLength := fld val 31 0 } } ∧
      exec (.registerWrite .service 0x7000018 val) s = .next { s with hp := { s.hp with aper := fld val 63 51 } } ∧
      exec (.registerWrite .service 0x4040018 val) s = .next { s with jnl := { s.jnl with sel := fld val 63 46 } } ∧
      exec (.registerWrite .service 0x300020 val) s = .next { s with flt := { s.flt with logSel := fld val 63 51 } })
end

