-- ==== Sys2Proof/Laws/Tab.lean ====
section
/-! SUPPORT. The laws of sparse tables, and so of memory: a read after a write, and that every operation on a table keeps its
canonical form. -/

namespace Sys2Proof.Machine

/-! ### Reads after writes -/

theorem tget_tdel {α : Type} (d : α) (j k : Nat) (t : Tab α) :
    tget d j (tdel k t) = if j = k then d else tget d j t := by
  induction t with
  | nil => simp [tdel, tget]
  | cons e t ih =>
    obtain ⟨a, v⟩ := e
    by_cases ha : a = k
    · by_cases hj : j = k
      · simp [tdel, ha, hj] at ih ⊢; exact ih
      · have : a ≠ j := fun h => hj (h ▸ ha)
        simp [tdel, ha, tget, ih, hj, Ne.symm hj]
    · by_cases hj : j = k
      · subst hj; simp [tdel, ha, tget] at ih ⊢; exact ih
      · simp [tdel, ha, tget, ih, hj]

theorem tget_tins {α : Type} (d : α) (j k : Nat) (v : α) (t : Tab α) :
    tget d j (tins k v t) = if j = k then v else tget d j t := by
  induction t with
  | nil => by_cases hj : j = k <;> simp [tins, tget, hj]; intro h; exact absurd h.symm hj
  | cons e t ih =>
    obtain ⟨a, w⟩ := e
    unfold tins
    split
    · by_cases hj : j = k
      · simp [tget, hj]
      · simp [tget, hj, Ne.symm hj]
    · split
      · rename_i h
        by_cases hj : j = k
        · simp [tget, hj]
        · simp [tget, hj, Ne.symm hj, h]
      · rename_i h
        by_cases hj : j = k
        · subst hj; simp [tget, h, ih]
        · simp [tget, ih, hj]

/-- A read after a write: the value at the key written, and every other key as before. -/
theorem tget_tset {α : Type} [DecidableEq α] (d : α) (j k : Nat) (v : α) (t : Tab α) :
    tget d j (tset d k v t) = if j = k then v else tget d j t := by
  unfold tset
  by_cases hv : v = d
  · simp [hv, tget_tdel]
  · simp [hv, tget_tins]

@[simp] theorem tget_tset_same {α : Type} [DecidableEq α] (d : α) (k : Nat) (v : α) (t : Tab α) :
    tget d k (tset d k v t) = v := by simp [tget_tset]

theorem tget_tset_ne {α : Type} [DecidableEq α] (d : α) {j k : Nat} (v : α) (t : Tab α) (h : j ≠ k) :
    tget d j (tset d k v t) = tget d j t := by simp [tget_tset, h]

theorem tget_tmod {α : Type} [DecidableEq α] (d : α) (j k : Nat) (f : α → α) (t : Tab α) :
    tget d j (tmod d k f t) = if j = k then f (tget d k t) else tget d j t := by simp [tmod, tget_tset]

theorem tget_tkeep {α : Type} (d : α) (j : Nat) (p : Nat → Bool) (t : Tab α) :
    tget d j (tkeep p t) = if p j = true then tget d j t else d := by
  induction t with
  | nil => simp [tkeep, tget]
  | cons e t ih =>
    obtain ⟨a, v⟩ := e
    simp only [tkeep] at ih ⊢
    by_cases hp : p a = true
    · by_cases ha : a = j
      · subst ha; simp [List.filter, hp, tget]
      · simp [List.filter, hp, tget, ha, ih]
    · simp only [Bool.not_eq_true] at hp
      by_cases ha : a = j
      · subst ha; simp [List.filter, hp, ih]
      · simp [List.filter, hp, ih, tget, ha]

/-! ### The canonical form -/

theorem tsorted_weaken {α : Type} [DecidableEq α] (d : α) {lo lo' : Option Nat} {t : Tab α}
    (h : tsorted d lo t = true) (hl : ∀ b, lo' = some b → ∃ c, lo = some c ∧ b ≤ c) : tsorted d lo' t = true := by
  cases t with
  | nil => rfl
  | cons e t =>
    obtain ⟨k, v⟩ := e
    simp only [tsorted, Bool.and_eq_true] at h ⊢
    refine ⟨⟨?_, h.1.2⟩, h.2⟩
    cases lo' with
    | none => rfl
    | some b =>
      obtain ⟨c, hc, hbc⟩ := hl b rfl
      subst hc
      have := h.1.1
      simp only [decide_eq_true_eq] at this ⊢
      omega

theorem tsorted_none {α : Type} [DecidableEq α] (d : α) {lo : Option Nat} {t : Tab α} (h : tsorted d lo t = true) : tsorted d none t = true :=
  tsorted_weaken d h (by simp)

theorem tsorted_tdel {α : Type} [DecidableEq α] (d : α) (k : Nat) {lo : Option Nat} {t : Tab α}
    (h : tsorted d lo t = true) : tsorted d lo (tdel k t) = true := by
  induction t generalizing lo with
  | nil => rfl
  | cons e t ih =>
    obtain ⟨a, v⟩ := e
    simp only [tsorted, Bool.and_eq_true] at h
    unfold tdel
    split
    · refine tsorted_weaken d (ih h.2) ?_
      intro b hb
      subst hb
      have := h.1.1
      simp only [decide_eq_true_eq] at this
      exact ⟨a, rfl, by omega⟩
    · simp only [tsorted, Bool.and_eq_true]
      exact ⟨h.1, ih h.2⟩

theorem tsorted_tins {α : Type} [DecidableEq α] (d : α) (k : Nat) (v : α) (hv : v ≠ d) {lo : Option Nat} {t : Tab α}
    (h : tsorted d lo t = true) (hk : ∀ b, lo = some b → b < k) : tsorted d lo (tins k v t) = true := by
  have low : ∀ (u : Tab α), tsorted d (some k) u = true → tsorted d lo ((k, v) :: u) = true := by
    intro u hu
    simp only [tsorted, Bool.and_eq_true]
    refine ⟨⟨?_, by simp [hv]⟩, hu⟩
    cases lo with
    | none => rfl
    | some b => simpa using hk b rfl
  induction t generalizing lo with
  | nil => exact low [] rfl
  | cons e t ih =>
    obtain ⟨a, w⟩ := e
    have h' := h
    simp only [tsorted, Bool.and_eq_true] at h
    unfold tins
    split
    · rename_i hka
      refine low _ ?_
      simp only [tsorted, Bool.and_eq_true]
      exact ⟨⟨by simpa using hka, h.1.2⟩, h.2⟩
    · split
      · rename_i _ hka
        subst hka
        exact low _ h.2
      · simp only [tsorted, Bool.and_eq_true]
        refine ⟨h.1, ih h.2 (by rintro b ⟨⟩; omega) ?_⟩
        intro u hu
        simp only [tsorted, Bool.and_eq_true]
        exact ⟨⟨by simp; omega, by simp [hv]⟩, hu⟩

/-- A write keeps the canonical form. -/
theorem twf_tset {α : Type} [DecidableEq α] (d : α) (k : Nat) (v : α) {t : Tab α} (h : twf d t = true) : twf d (tset d k v t) = true := by
  unfold tset twf
  split
  · exact tsorted_tdel d k h
  · rename_i hv; exact tsorted_tins d k v hv h (by simp)

theorem tsorted_filter {α : Type} [DecidableEq α] (d : α) (p : Nat × α → Bool) {lo : Option Nat} {t : Tab α}
    (h : tsorted d lo t = true) : tsorted d lo (t.filter p) = true := by
  induction t generalizing lo with
  | nil => rfl
  | cons e t ih =>
    obtain ⟨a, v⟩ := e
    simp only [tsorted, Bool.and_eq_true] at h
    simp only [List.filter_cons]
    split
    · simp only [tsorted, Bool.and_eq_true]
      exact ⟨h.1, ih h.2⟩
    · refine tsorted_weaken d (ih h.2) ?_
      intro b hb
      subst hb
      have := h.1.1
      simp only [decide_eq_true_eq] at this
      exact ⟨a, rfl, by omega⟩

/-- Leaving entries out keeps the canonical form. -/
theorem twf_filter {α : Type} [DecidableEq α] (d : α) (p : Nat × α → Bool) {t : Tab α} (h : twf d t = true) : twf d (t.filter p) = true :=
  tsorted_filter d p h

/-! ### Memory -/

/-- A byte read after a byte written. -/
theorem memGet_memSet (a b : Nat) (v : Byte) (m : List Host.Cell) : memGet b (memSet a v m) = if b = a then v else memGet b m :=
  tget_tset memDefault b a v m

@[simp] theorem keyMask_storeByte (b a : Nat) (v : Byte) (s : State) : keyMask b (storeByte a v s) = keyMask b s := rfl

/-- A byte of storage read after a byte stored. -/
theorem storedByte_storeByte (b a : Nat) (v : Byte) (s : State) : storedByte b (storeByte a v s) = if b = a then v else storedByte b s := by
  unfold storedByte
  rw [keyMask_storeByte]
  show memGet b (memSet a _ s.sto.mem) ^^^ _ = _
  rw [memGet_memSet]
  by_cases h : b = a
  · subst h; rw [if_pos rfl, if_pos rfl, BitVec.xor_assoc, BitVec.xor_self, BitVec.xor_zero]
  · rw [if_neg h, if_neg h]

/-- Bytes stored from an address: each address of the range reads the byte stored to it, every other address reads as before. -/
theorem storedByte_storeAll (b : Nat) (data : List Byte) : ∀ (a : Nat) (s : State),
    storedByte b (storeAll a data s) = if h : a ≤ b ∧ b < a + data.length then data[b - a] else storedByte b s := by
  induction data with
  | nil => intro a s; simp [storeAll]
  | cons x t ih =>
    intro a s
    simp only [storeAll]
    rw [ih (a + 1), storedByte_storeByte]
    rcases Nat.lt_trichotomy b a with h | h | h
    · rw [dif_neg (by omega), dif_neg (by omega), if_neg (by omega)]
    · subst h; rw [dif_neg (by omega), dif_pos (by simp), if_pos rfl]; simp
    · by_cases e : b < a + 1 + t.length
      · rw [dif_pos ⟨h, e⟩, dif_pos ⟨by omega, by simpa using by omega⟩]
        simp only [List.getElem_cons, Nat.sub_ne_zero_of_lt h, ↓reduceDIte]
        congr 1
      · rw [dif_neg (by omega), dif_neg (by simp; omega), if_neg (by omega)]

theorem memory_wf_memSet (a : Nat) (v : Byte) {m : List Host.Cell} (h : Memory.wf m = true) : Memory.wf (memSet a v m) = true :=
  twf_tset memDefault a v h

theorem memory_wf_storeAll (data : List Byte) : ∀ (a : Nat) {s : State}, Memory.wf s.sto.mem = true → Memory.wf (storeAll a data s).sto.mem = true := by
  induction data with
  | nil => intro a s h; exact h
  | cons x t ih => intro a s h; exact ih (a + 1) (memory_wf_memSet a _ h)

theorem memory_wf_filter (p : Host.Cell → Bool) {m : List Host.Cell} (h : Memory.wf m = true) : Memory.wf (m.filter p) = true :=
  twf_filter memDefault p h

theorem memory_wf_rekeyRange (k : Rekeyed) {s : State} (h : Memory.wf s.sto.mem = true) : Memory.wf (rekeyRange k s).sto.mem = true :=
  memory_wf_filter _ h

/-- Memory written again from its cells under other addresses, as a change of node ID does it. -/
theorem memory_wf_rekey (f : Nat → Nat) (cells : List Host.Cell) : ∀ {m : List Host.Cell}, Memory.wf m = true →
    Memory.wf (cells.foldl (fun m c => memSet (f c.1) c.2 m) m) = true := by
  induction cells with
  | nil => intro m h; exact h
  | cons c t ih => intro m h; exact ih (memory_wf_memSet (f c.1) c.2 h)

/-- Memory at reset has the canonical form. -/
theorem memory_wf_reset : Memory.wf State.reset.sto.mem = true := rfl

end Sys2Proof.Machine
end

