-- ==== Sys2Proof/Laws/State.lean ====
section
/-! SUPPORT. What each update of the state leaves as it was, one lemma for each field of State, and what it writes. -/

namespace Sys2Proof.Machine

/-! ### emit -/

@[simp] theorem emit_pending (o : Out) (s : State) : (emit o s).pending = s.pending := rfl
@[simp] theorem emit_free (o : Out) (s : State) : (emit o s).free = s.free := rfl
@[simp] theorem emit_flt (o : Out) (s : State) : (emit o s).flt = s.flt := rfl
@[simp] theorem emit_tor (o : Out) (s : State) : (emit o s).tor = s.tor := rfl
@[simp] theorem emit_pln (o : Out) (s : State) : (emit o s).pln = s.pln := rfl
@[simp] theorem emit_pwr (o : Out) (s : State) : (emit o s).pwr = s.pwr := rfl
@[simp] theorem emit_cpu (o : Out) (s : State) : (emit o s).cpu = s.cpu := rfl
@[simp] theorem emit_sto (o : Out) (s : State) : (emit o s).sto = s.sto := rfl
@[simp] theorem emit_dram (o : Out) (s : State) : (emit o s).dram = s.dram := rfl
@[simp] theorem emit_arm (o : Out) (s : State) : (emit o s).arm = s.arm := rfl
@[simp] theorem emit_ch (o : Out) (s : State) : (emit o s).ch = s.ch := rfl
@[simp] theorem emit_jnl (o : Out) (s : State) : (emit o s).jnl = s.jnl := rfl
@[simp] theorem emit_dx (o : Out) (s : State) : (emit o s).dx = s.dx := rfl
@[simp] theorem emit_offers (o : Out) (s : State) : (emit o s).offers = s.offers := rfl
@[simp] theorem emit_armLink (o : Out) (s : State) : (emit o s).armLink = s.armLink := rfl
@[simp] theorem emit_chLink (o : Out) (s : State) : (emit o s).chLink = s.chLink := rfl
@[simp] theorem emit_pf0 (o : Out) (s : State) : (emit o s).pf0 = s.pf0 := rfl
@[simp] theorem emit_pf1 (o : Out) (s : State) : (emit o s).pf1 = s.pf1 := rfl
@[simp] theorem emit_hp (o : Out) (s : State) : (emit o s).hp = s.hp := rfl
@[simp] theorem emit_eng (o : Out) (s : State) : (emit o s).eng = s.eng := rfl
@[simp] theorem emit_tr (o : Out) (s : State) : (emit o s).tr = s.tr := rfl
@[simp] theorem emit_cs (o : Out) (s : State) : (emit o s).cs = s.cs := rfl
@[simp] theorem emit_mq (o : Out) (s : State) : (emit o s).mq = s.mq := rfl
@[simp] theorem emit_pin (o : Out) (s : State) : (emit o s).pin = s.pin := rfl
@[simp] theorem emit_svc (o : Out) (s : State) : (emit o s).svc = s.svc := rfl
@[simp] theorem emit_svcPoison (o : Out) (s : State) : (emit o s).svcPoison = s.svcPoison := rfl

/-! ### emits -/

@[simp] theorem emits_pending (os : List Out) (s : State) : (emits os s).pending = s.pending := rfl
@[simp] theorem emits_free (os : List Out) (s : State) : (emits os s).free = s.free := rfl
@[simp] theorem emits_flt (os : List Out) (s : State) : (emits os s).flt = s.flt := rfl
@[simp] theorem emits_tor (os : List Out) (s : State) : (emits os s).tor = s.tor := rfl
@[simp] theorem emits_pln (os : List Out) (s : State) : (emits os s).pln = s.pln := rfl
@[simp] theorem emits_pwr (os : List Out) (s : State) : (emits os s).pwr = s.pwr := rfl
@[simp] theorem emits_cpu (os : List Out) (s : State) : (emits os s).cpu = s.cpu := rfl
@[simp] theorem emits_sto (os : List Out) (s : State) : (emits os s).sto = s.sto := rfl
@[simp] theorem emits_dram (os : List Out) (s : State) : (emits os s).dram = s.dram := rfl
@[simp] theorem emits_arm (os : List Out) (s : State) : (emits os s).arm = s.arm := rfl
@[simp] theorem emits_ch (os : List Out) (s : State) : (emits os s).ch = s.ch := rfl
@[simp] theorem emits_jnl (os : List Out) (s : State) : (emits os s).jnl = s.jnl := rfl
@[simp] theorem emits_dx (os : List Out) (s : State) : (emits os s).dx = s.dx := rfl
@[simp] theorem emits_offers (os : List Out) (s : State) : (emits os s).offers = s.offers := rfl
@[simp] theorem emits_armLink (os : List Out) (s : State) : (emits os s).armLink = s.armLink := rfl
@[simp] theorem emits_chLink (os : List Out) (s : State) : (emits os s).chLink = s.chLink := rfl
@[simp] theorem emits_pf0 (os : List Out) (s : State) : (emits os s).pf0 = s.pf0 := rfl
@[simp] theorem emits_pf1 (os : List Out) (s : State) : (emits os s).pf1 = s.pf1 := rfl
@[simp] theorem emits_hp (os : List Out) (s : State) : (emits os s).hp = s.hp := rfl
@[simp] theorem emits_eng (os : List Out) (s : State) : (emits os s).eng = s.eng := rfl
@[simp] theorem emits_tr (os : List Out) (s : State) : (emits os s).tr = s.tr := rfl
@[simp] theorem emits_cs (os : List Out) (s : State) : (emits os s).cs = s.cs := rfl
@[simp] theorem emits_mq (os : List Out) (s : State) : (emits os s).mq = s.mq := rfl
@[simp] theorem emits_pin (os : List Out) (s : State) : (emits os s).pin = s.pin := rfl
@[simp] theorem emits_svc (os : List Out) (s : State) : (emits os s).svc = s.svc := rfl
@[simp] theorem emits_svcPoison (os : List Out) (s : State) : (emits os s).svcPoison = s.svcPoison := rfl

/-! ### patina -/

@[simp] theorem patina_pending (i : Nat) (s : State) : (patina i s).pending = s.pending := rfl
@[simp] theorem patina_out (i : Nat) (s : State) : (patina i s).out = s.out := rfl
@[simp] theorem patina_free (i : Nat) (s : State) : (patina i s).free = s.free := rfl
@[simp] theorem patina_tor (i : Nat) (s : State) : (patina i s).tor = s.tor := rfl
@[simp] theorem patina_pln (i : Nat) (s : State) : (patina i s).pln = s.pln := rfl
@[simp] theorem patina_pwr (i : Nat) (s : State) : (patina i s).pwr = s.pwr := rfl
@[simp] theorem patina_cpu (i : Nat) (s : State) : (patina i s).cpu = s.cpu := rfl
@[simp] theorem patina_sto (i : Nat) (s : State) : (patina i s).sto = s.sto := rfl
@[simp] theorem patina_dram (i : Nat) (s : State) : (patina i s).dram = s.dram := rfl
@[simp] theorem patina_arm (i : Nat) (s : State) : (patina i s).arm = s.arm := rfl
@[simp] theorem patina_ch (i : Nat) (s : State) : (patina i s).ch = s.ch := rfl
@[simp] theorem patina_jnl (i : Nat) (s : State) : (patina i s).jnl = s.jnl := rfl
@[simp] theorem patina_dx (i : Nat) (s : State) : (patina i s).dx = s.dx := rfl
@[simp] theorem patina_offers (i : Nat) (s : State) : (patina i s).offers = s.offers := rfl
@[simp] theorem patina_armLink (i : Nat) (s : State) : (patina i s).armLink = s.armLink := rfl
@[simp] theorem patina_chLink (i : Nat) (s : State) : (patina i s).chLink = s.chLink := rfl
@[simp] theorem patina_pf0 (i : Nat) (s : State) : (patina i s).pf0 = s.pf0 := rfl
@[simp] theorem patina_pf1 (i : Nat) (s : State) : (patina i s).pf1 = s.pf1 := rfl
@[simp] theorem patina_hp (i : Nat) (s : State) : (patina i s).hp = s.hp := rfl
@[simp] theorem patina_eng (i : Nat) (s : State) : (patina i s).eng = s.eng := rfl
@[simp] theorem patina_tr (i : Nat) (s : State) : (patina i s).tr = s.tr := rfl
@[simp] theorem patina_cs (i : Nat) (s : State) : (patina i s).cs = s.cs := rfl
@[simp] theorem patina_mq (i : Nat) (s : State) : (patina i s).mq = s.mq := rfl
@[simp] theorem patina_pin (i : Nat) (s : State) : (patina i s).pin = s.pin := rfl
@[simp] theorem patina_svc (i : Nat) (s : State) : (patina i s).svc = s.svc := rfl
@[simp] theorem patina_svcPoison (i : Nat) (s : State) : (patina i s).svcPoison = s.svcPoison := rfl

/-! ### logEntry -/

@[simp] theorem logEntry_pending (a b c d e f : Nat) (s : State) : (logEntry a b c d e f s).pending = s.pending := rfl
@[simp] theorem logEntry_out (a b c d e f : Nat) (s : State) : (logEntry a b c d e f s).out = s.out := rfl
@[simp] theorem logEntry_free (a b c d e f : Nat) (s : State) : (logEntry a b c d e f s).free = s.free := rfl
@[simp] theorem logEntry_tor (a b c d e f : Nat) (s : State) : (logEntry a b c d e f s).tor = s.tor := rfl
@[simp] theorem logEntry_pln (a b c d e f : Nat) (s : State) : (logEntry a b c d e f s).pln = s.pln := rfl
@[simp] theorem logEntry_pwr (a b c d e f : Nat) (s : State) : (logEntry a b c d e f s).pwr = s.pwr := rfl
@[simp] theorem logEntry_cpu (a b c d e f : Nat) (s : State) : (logEntry a b c d e f s).cpu = s.cpu := rfl
@[simp] theorem logEntry_sto (a b c d e f : Nat) (s : State) : (logEntry a b c d e f s).sto = s.sto := rfl
@[simp] theorem logEntry_dram (a b c d e f : Nat) (s : State) : (logEntry a b c d e f s).dram = s.dram := rfl
@[simp] theorem logEntry_arm (a b c d e f : Nat) (s : State) : (logEntry a b c d e f s).arm = s.arm := rfl
@[simp] theorem logEntry_ch (a b c d e f : Nat) (s : State) : (logEntry a b c d e f s).ch = s.ch := rfl
@[simp] theorem logEntry_jnl (a b c d e f : Nat) (s : State) : (logEntry a b c d e f s).jnl = s.jnl := rfl
@[simp] theorem logEntry_dx (a b c d e f : Nat) (s : State) : (logEntry a b c d e f s).dx = s.dx := rfl
@[simp] theorem logEntry_offers (a b c d e f : Nat) (s : State) : (logEntry a b c d e f s).offers = s.offers := rfl
@[simp] theorem logEntry_armLink (a b c d e f : Nat) (s : State) : (logEntry a b c d e f s).armLink = s.armLink := rfl
@[simp] theorem logEntry_chLink (a b c d e f : Nat) (s : State) : (logEntry a b c d e f s).chLink = s.chLink := rfl
@[simp] theorem logEntry_pf0 (a b c d e f : Nat) (s : State) : (logEntry a b c d e f s).pf0 = s.pf0 := rfl
@[simp] theorem logEntry_pf1 (a b c d e f : Nat) (s : State) : (logEntry a b c d e f s).pf1 = s.pf1 := rfl
@[simp] theorem logEntry_hp (a b c d e f : Nat) (s : State) : (logEntry a b c d e f s).hp = s.hp := rfl
@[simp] theorem logEntry_eng (a b c d e f : Nat) (s : State) : (logEntry a b c d e f s).eng = s.eng := rfl
@[simp] theorem logEntry_tr (a b c d e f : Nat) (s : State) : (logEntry a b c d e f s).tr = s.tr := rfl
@[simp] theorem logEntry_cs (a b c d e f : Nat) (s : State) : (logEntry a b c d e f s).cs = s.cs := rfl
@[simp] theorem logEntry_mq (a b c d e f : Nat) (s : State) : (logEntry a b c d e f s).mq = s.mq := rfl
@[simp] theorem logEntry_pin (a b c d e f : Nat) (s : State) : (logEntry a b c d e f s).pin = s.pin := rfl
@[simp] theorem logEntry_svc (a b c d e f : Nat) (s : State) : (logEntry a b c d e f s).svc = s.svc := rfl
@[simp] theorem logEntry_svcPoison (a b c d e f : Nat) (s : State) : (logEntry a b c d e f s).svcPoison = s.svcPoison := rfl

/-! ### setFlt -/

@[simp] theorem setFlt_pending (i : Nat) (v : FltStatus) (s : State) : (setFlt i v s).pending = s.pending := rfl
@[simp] theorem setFlt_out (i : Nat) (v : FltStatus) (s : State) : (setFlt i v s).out = s.out := rfl
@[simp] theorem setFlt_free (i : Nat) (v : FltStatus) (s : State) : (setFlt i v s).free = s.free := rfl
@[simp] theorem setFlt_tor (i : Nat) (v : FltStatus) (s : State) : (setFlt i v s).tor = s.tor := rfl
@[simp] theorem setFlt_pln (i : Nat) (v : FltStatus) (s : State) : (setFlt i v s).pln = s.pln := rfl
@[simp] theorem setFlt_pwr (i : Nat) (v : FltStatus) (s : State) : (setFlt i v s).pwr = s.pwr := rfl
@[simp] theorem setFlt_cpu (i : Nat) (v : FltStatus) (s : State) : (setFlt i v s).cpu = s.cpu := rfl
@[simp] theorem setFlt_sto (i : Nat) (v : FltStatus) (s : State) : (setFlt i v s).sto = s.sto := rfl
@[simp] theorem setFlt_dram (i : Nat) (v : FltStatus) (s : State) : (setFlt i v s).dram = s.dram := rfl
@[simp] theorem setFlt_arm (i : Nat) (v : FltStatus) (s : State) : (setFlt i v s).arm = s.arm := rfl
@[simp] theorem setFlt_ch (i : Nat) (v : FltStatus) (s : State) : (setFlt i v s).ch = s.ch := rfl
@[simp] theorem setFlt_jnl (i : Nat) (v : FltStatus) (s : State) : (setFlt i v s).jnl = s.jnl := rfl
@[simp] theorem setFlt_dx (i : Nat) (v : FltStatus) (s : State) : (setFlt i v s).dx = s.dx := rfl
@[simp] theorem setFlt_offers (i : Nat) (v : FltStatus) (s : State) : (setFlt i v s).offers = s.offers := rfl
@[simp] theorem setFlt_armLink (i : Nat) (v : FltStatus) (s : State) : (setFlt i v s).armLink = s.armLink := rfl
@[simp] theorem setFlt_chLink (i : Nat) (v : FltStatus) (s : State) : (setFlt i v s).chLink = s.chLink := rfl
@[simp] theorem setFlt_pf0 (i : Nat) (v : FltStatus) (s : State) : (setFlt i v s).pf0 = s.pf0 := rfl
@[simp] theorem setFlt_pf1 (i : Nat) (v : FltStatus) (s : State) : (setFlt i v s).pf1 = s.pf1 := rfl
@[simp] theorem setFlt_hp (i : Nat) (v : FltStatus) (s : State) : (setFlt i v s).hp = s.hp := rfl
@[simp] theorem setFlt_eng (i : Nat) (v : FltStatus) (s : State) : (setFlt i v s).eng = s.eng := rfl
@[simp] theorem setFlt_tr (i : Nat) (v : FltStatus) (s : State) : (setFlt i v s).tr = s.tr := rfl
@[simp] theorem setFlt_cs (i : Nat) (v : FltStatus) (s : State) : (setFlt i v s).cs = s.cs := rfl
@[simp] theorem setFlt_mq (i : Nat) (v : FltStatus) (s : State) : (setFlt i v s).mq = s.mq := rfl
@[simp] theorem setFlt_pin (i : Nat) (v : FltStatus) (s : State) : (setFlt i v s).pin = s.pin := rfl
@[simp] theorem setFlt_svc (i : Nat) (v : FltStatus) (s : State) : (setFlt i v s).svc = s.svc := rfl
@[simp] theorem setFlt_svcPoison (i : Nat) (v : FltStatus) (s : State) : (setFlt i v s).svcPoison = s.svcPoison := rfl

/-! ### makeDue -/

@[simp] theorem makeDue_pending (i p : Nat) (ks : List Nat) (s : State) : (makeDue i p ks s).pending = s.pending := rfl
@[simp] theorem makeDue_out (i p : Nat) (ks : List Nat) (s : State) : (makeDue i p ks s).out = s.out := rfl
@[simp] theorem makeDue_free (i p : Nat) (ks : List Nat) (s : State) : (makeDue i p ks s).free = s.free := rfl
@[simp] theorem makeDue_tor (i p : Nat) (ks : List Nat) (s : State) : (makeDue i p ks s).tor = s.tor := rfl
@[simp] theorem makeDue_pln (i p : Nat) (ks : List Nat) (s : State) : (makeDue i p ks s).pln = s.pln := rfl
@[simp] theorem makeDue_pwr (i p : Nat) (ks : List Nat) (s : State) : (makeDue i p ks s).pwr = s.pwr := rfl
@[simp] theorem makeDue_cpu (i p : Nat) (ks : List Nat) (s : State) : (makeDue i p ks s).cpu = s.cpu := rfl
@[simp] theorem makeDue_sto (i p : Nat) (ks : List Nat) (s : State) : (makeDue i p ks s).sto = s.sto := rfl
@[simp] theorem makeDue_dram (i p : Nat) (ks : List Nat) (s : State) : (makeDue i p ks s).dram = s.dram := rfl
@[simp] theorem makeDue_arm (i p : Nat) (ks : List Nat) (s : State) : (makeDue i p ks s).arm = s.arm := rfl
@[simp] theorem makeDue_ch (i p : Nat) (ks : List Nat) (s : State) : (makeDue i p ks s).ch = s.ch := rfl
@[simp] theorem makeDue_jnl (i p : Nat) (ks : List Nat) (s : State) : (makeDue i p ks s).jnl = s.jnl := rfl
@[simp] theorem makeDue_dx (i p : Nat) (ks : List Nat) (s : State) : (makeDue i p ks s).dx = s.dx := rfl
@[simp] theorem makeDue_offers (i p : Nat) (ks : List Nat) (s : State) : (makeDue i p ks s).offers = s.offers := rfl
@[simp] theorem makeDue_armLink (i p : Nat) (ks : List Nat) (s : State) : (makeDue i p ks s).armLink = s.armLink := rfl
@[simp] theorem makeDue_chLink (i p : Nat) (ks : List Nat) (s : State) : (makeDue i p ks s).chLink = s.chLink := rfl
@[simp] theorem makeDue_pf0 (i p : Nat) (ks : List Nat) (s : State) : (makeDue i p ks s).pf0 = s.pf0 := rfl
@[simp] theorem makeDue_pf1 (i p : Nat) (ks : List Nat) (s : State) : (makeDue i p ks s).pf1 = s.pf1 := rfl
@[simp] theorem makeDue_hp (i p : Nat) (ks : List Nat) (s : State) : (makeDue i p ks s).hp = s.hp := rfl
@[simp] theorem makeDue_eng (i p : Nat) (ks : List Nat) (s : State) : (makeDue i p ks s).eng = s.eng := rfl
@[simp] theorem makeDue_tr (i p : Nat) (ks : List Nat) (s : State) : (makeDue i p ks s).tr = s.tr := rfl
@[simp] theorem makeDue_cs (i p : Nat) (ks : List Nat) (s : State) : (makeDue i p ks s).cs = s.cs := rfl
@[simp] theorem makeDue_mq (i p : Nat) (ks : List Nat) (s : State) : (makeDue i p ks s).mq = s.mq := rfl
@[simp] theorem makeDue_pin (i p : Nat) (ks : List Nat) (s : State) : (makeDue i p ks s).pin = s.pin := rfl
@[simp] theorem makeDue_svc (i p : Nat) (ks : List Nat) (s : State) : (makeDue i p ks s).svc = s.svc := rfl
@[simp] theorem makeDue_svcPoison (i p : Nat) (ks : List Nat) (s : State) : (makeDue i p ks s).svcPoison = s.svcPoison := rfl

/-! ### pf0Vector -/

@[simp] theorem pf0Vector_pending (v : Nat) (s : State) : (pf0Vector v s).pending = s.pending := by unfold pf0Vector emit; dsimp only; split <;> rfl
@[simp] theorem pf0Vector_free (v : Nat) (s : State) : (pf0Vector v s).free = s.free := by unfold pf0Vector emit; dsimp only; split <;> rfl
@[simp] theorem pf0Vector_flt (v : Nat) (s : State) : (pf0Vector v s).flt = s.flt := by unfold pf0Vector emit; dsimp only; split <;> rfl
@[simp] theorem pf0Vector_tor (v : Nat) (s : State) : (pf0Vector v s).tor = s.tor := by unfold pf0Vector emit; dsimp only; split <;> rfl
@[simp] theorem pf0Vector_pln (v : Nat) (s : State) : (pf0Vector v s).pln = s.pln := by unfold pf0Vector emit; dsimp only; split <;> rfl
@[simp] theorem pf0Vector_pwr (v : Nat) (s : State) : (pf0Vector v s).pwr = s.pwr := by unfold pf0Vector emit; dsimp only; split <;> rfl
@[simp] theorem pf0Vector_cpu (v : Nat) (s : State) : (pf0Vector v s).cpu = s.cpu := by unfold pf0Vector emit; dsimp only; split <;> rfl
@[simp] theorem pf0Vector_sto (v : Nat) (s : State) : (pf0Vector v s).sto = s.sto := by unfold pf0Vector emit; dsimp only; split <;> rfl
@[simp] theorem pf0Vector_dram (v : Nat) (s : State) : (pf0Vector v s).dram = s.dram := by unfold pf0Vector emit; dsimp only; split <;> rfl
@[simp] theorem pf0Vector_arm (v : Nat) (s : State) : (pf0Vector v s).arm = s.arm := by unfold pf0Vector emit; dsimp only; split <;> rfl
@[simp] theorem pf0Vector_ch (v : Nat) (s : State) : (pf0Vector v s).ch = s.ch := by unfold pf0Vector emit; dsimp only; split <;> rfl
@[simp] theorem pf0Vector_jnl (v : Nat) (s : State) : (pf0Vector v s).jnl = s.jnl := by unfold pf0Vector emit; dsimp only; split <;> rfl
@[simp] theorem pf0Vector_dx (v : Nat) (s : State) : (pf0Vector v s).dx = s.dx := by unfold pf0Vector emit; dsimp only; split <;> rfl
@[simp] theorem pf0Vector_offers (v : Nat) (s : State) : (pf0Vector v s).offers = s.offers := by unfold pf0Vector emit; dsimp only; split <;> rfl
@[simp] theorem pf0Vector_armLink (v : Nat) (s : State) : (pf0Vector v s).armLink = s.armLink := by unfold pf0Vector emit; dsimp only; split <;> rfl
@[simp] theorem pf0Vector_chLink (v : Nat) (s : State) : (pf0Vector v s).chLink = s.chLink := by unfold pf0Vector emit; dsimp only; split <;> rfl
@[simp] theorem pf0Vector_pf1 (v : Nat) (s : State) : (pf0Vector v s).pf1 = s.pf1 := by unfold pf0Vector emit; dsimp only; split <;> rfl
@[simp] theorem pf0Vector_hp (v : Nat) (s : State) : (pf0Vector v s).hp = s.hp := by unfold pf0Vector emit; dsimp only; split <;> rfl
@[simp] theorem pf0Vector_eng (v : Nat) (s : State) : (pf0Vector v s).eng = s.eng := by unfold pf0Vector emit; dsimp only; split <;> rfl
@[simp] theorem pf0Vector_tr (v : Nat) (s : State) : (pf0Vector v s).tr = s.tr := by unfold pf0Vector emit; dsimp only; split <;> rfl
@[simp] theorem pf0Vector_cs (v : Nat) (s : State) : (pf0Vector v s).cs = s.cs := by unfold pf0Vector emit; dsimp only; split <;> rfl
@[simp] theorem pf0Vector_mq (v : Nat) (s : State) : (pf0Vector v s).mq = s.mq := by unfold pf0Vector emit; dsimp only; split <;> rfl
@[simp] theorem pf0Vector_pin (v : Nat) (s : State) : (pf0Vector v s).pin = s.pin := by unfold pf0Vector emit; dsimp only; split <;> rfl
@[simp] theorem pf0Vector_svc (v : Nat) (s : State) : (pf0Vector v s).svc = s.svc := by unfold pf0Vector emit; dsimp only; split <;> rfl
@[simp] theorem pf0Vector_svcPoison (v : Nat) (s : State) : (pf0Vector v s).svcPoison = s.svcPoison := by unfold pf0Vector emit; dsimp only; split <;> rfl

/-! ### pf1Vector -/

@[simp] theorem pf1Vector_pending (v : Nat) (s : State) : (pf1Vector v s).pending = s.pending := by unfold pf1Vector emit; dsimp only; split <;> rfl
@[simp] theorem pf1Vector_free (v : Nat) (s : State) : (pf1Vector v s).free = s.free := by unfold pf1Vector emit; dsimp only; split <;> rfl
@[simp] theorem pf1Vector_flt (v : Nat) (s : State) : (pf1Vector v s).flt = s.flt := by unfold pf1Vector emit; dsimp only; split <;> rfl
@[simp] theorem pf1Vector_tor (v : Nat) (s : State) : (pf1Vector v s).tor = s.tor := by unfold pf1Vector emit; dsimp only; split <;> rfl
@[simp] theorem pf1Vector_pln (v : Nat) (s : State) : (pf1Vector v s).pln = s.pln := by unfold pf1Vector emit; dsimp only; split <;> rfl
@[simp] theorem pf1Vector_pwr (v : Nat) (s : State) : (pf1Vector v s).pwr = s.pwr := by unfold pf1Vector emit; dsimp only; split <;> rfl
@[simp] theorem pf1Vector_cpu (v : Nat) (s : State) : (pf1Vector v s).cpu = s.cpu := by unfold pf1Vector emit; dsimp only; split <;> rfl
@[simp] theorem pf1Vector_sto (v : Nat) (s : State) : (pf1Vector v s).sto = s.sto := by unfold pf1Vector emit; dsimp only; split <;> rfl
@[simp] theorem pf1Vector_dram (v : Nat) (s : State) : (pf1Vector v s).dram = s.dram := by unfold pf1Vector emit; dsimp only; split <;> rfl
@[simp] theorem pf1Vector_arm (v : Nat) (s : State) : (pf1Vector v s).arm = s.arm := by unfold pf1Vector emit; dsimp only; split <;> rfl
@[simp] theorem pf1Vector_ch (v : Nat) (s : State) : (pf1Vector v s).ch = s.ch := by unfold pf1Vector emit; dsimp only; split <;> rfl
@[simp] theorem pf1Vector_jnl (v : Nat) (s : State) : (pf1Vector v s).jnl = s.jnl := by unfold pf1Vector emit; dsimp only; split <;> rfl
@[simp] theorem pf1Vector_dx (v : Nat) (s : State) : (pf1Vector v s).dx = s.dx := by unfold pf1Vector emit; dsimp only; split <;> rfl
@[simp] theorem pf1Vector_offers (v : Nat) (s : State) : (pf1Vector v s).offers = s.offers := by unfold pf1Vector emit; dsimp only; split <;> rfl
@[simp] theorem pf1Vector_armLink (v : Nat) (s : State) : (pf1Vector v s).armLink = s.armLink := by unfold pf1Vector emit; dsimp only; split <;> rfl
@[simp] theorem pf1Vector_chLink (v : Nat) (s : State) : (pf1Vector v s).chLink = s.chLink := by unfold pf1Vector emit; dsimp only; split <;> rfl
@[simp] theorem pf1Vector_pf0 (v : Nat) (s : State) : (pf1Vector v s).pf0 = s.pf0 := by unfold pf1Vector emit; dsimp only; split <;> rfl
@[simp] theorem pf1Vector_hp (v : Nat) (s : State) : (pf1Vector v s).hp = s.hp := by unfold pf1Vector emit; dsimp only; split <;> rfl
@[simp] theorem pf1Vector_eng (v : Nat) (s : State) : (pf1Vector v s).eng = s.eng := by unfold pf1Vector emit; dsimp only; split <;> rfl
@[simp] theorem pf1Vector_tr (v : Nat) (s : State) : (pf1Vector v s).tr = s.tr := by unfold pf1Vector emit; dsimp only; split <;> rfl
@[simp] theorem pf1Vector_cs (v : Nat) (s : State) : (pf1Vector v s).cs = s.cs := by unfold pf1Vector emit; dsimp only; split <;> rfl
@[simp] theorem pf1Vector_mq (v : Nat) (s : State) : (pf1Vector v s).mq = s.mq := by unfold pf1Vector emit; dsimp only; split <;> rfl
@[simp] theorem pf1Vector_pin (v : Nat) (s : State) : (pf1Vector v s).pin = s.pin := by unfold pf1Vector emit; dsimp only; split <;> rfl
@[simp] theorem pf1Vector_svc (v : Nat) (s : State) : (pf1Vector v s).svc = s.svc := by unfold pf1Vector emit; dsimp only; split <;> rfl
@[simp] theorem pf1Vector_svcPoison (v : Nat) (s : State) : (pf1Vector v s).svcPoison = s.svcPoison := by unfold pf1Vector emit; dsimp only; split <;> rfl

/-! ### setCore -/

@[simp] theorem setCore_pending (l : Nat) (c : Core) (s : State) : (setCore l c s).pending = s.pending := rfl
@[simp] theorem setCore_out (l : Nat) (c : Core) (s : State) : (setCore l c s).out = s.out := rfl
@[simp] theorem setCore_free (l : Nat) (c : Core) (s : State) : (setCore l c s).free = s.free := rfl
@[simp] theorem setCore_flt (l : Nat) (c : Core) (s : State) : (setCore l c s).flt = s.flt := rfl
@[simp] theorem setCore_tor (l : Nat) (c : Core) (s : State) : (setCore l c s).tor = s.tor := rfl
@[simp] theorem setCore_pln (l : Nat) (c : Core) (s : State) : (setCore l c s).pln = s.pln := rfl
@[simp] theorem setCore_pwr (l : Nat) (c : Core) (s : State) : (setCore l c s).pwr = s.pwr := rfl
@[simp] theorem setCore_sto (l : Nat) (c : Core) (s : State) : (setCore l c s).sto = s.sto := rfl
@[simp] theorem setCore_dram (l : Nat) (c : Core) (s : State) : (setCore l c s).dram = s.dram := rfl
@[simp] theorem setCore_arm (l : Nat) (c : Core) (s : State) : (setCore l c s).arm = s.arm := rfl
@[simp] theorem setCore_ch (l : Nat) (c : Core) (s : State) : (setCore l c s).ch = s.ch := rfl
@[simp] theorem setCore_jnl (l : Nat) (c : Core) (s : State) : (setCore l c s).jnl = s.jnl := rfl
@[simp] theorem setCore_dx (l : Nat) (c : Core) (s : State) : (setCore l c s).dx = s.dx := rfl
@[simp] theorem setCore_offers (l : Nat) (c : Core) (s : State) : (setCore l c s).offers = s.offers := rfl
@[simp] theorem setCore_armLink (l : Nat) (c : Core) (s : State) : (setCore l c s).armLink = s.armLink := rfl
@[simp] theorem setCore_chLink (l : Nat) (c : Core) (s : State) : (setCore l c s).chLink = s.chLink := rfl
@[simp] theorem setCore_pf0 (l : Nat) (c : Core) (s : State) : (setCore l c s).pf0 = s.pf0 := rfl
@[simp] theorem setCore_pf1 (l : Nat) (c : Core) (s : State) : (setCore l c s).pf1 = s.pf1 := rfl
@[simp] theorem setCore_hp (l : Nat) (c : Core) (s : State) : (setCore l c s).hp = s.hp := rfl
@[simp] theorem setCore_eng (l : Nat) (c : Core) (s : State) : (setCore l c s).eng = s.eng := rfl
@[simp] theorem setCore_tr (l : Nat) (c : Core) (s : State) : (setCore l c s).tr = s.tr := rfl
@[simp] theorem setCore_cs (l : Nat) (c : Core) (s : State) : (setCore l c s).cs = s.cs := rfl
@[simp] theorem setCore_mq (l : Nat) (c : Core) (s : State) : (setCore l c s).mq = s.mq := rfl
@[simp] theorem setCore_pin (l : Nat) (c : Core) (s : State) : (setCore l c s).pin = s.pin := rfl
@[simp] theorem setCore_svc (l : Nat) (c : Core) (s : State) : (setCore l c s).svc = s.svc := rfl
@[simp] theorem setCore_svcPoison (l : Nat) (c : Core) (s : State) : (setCore l c s).svcPoison = s.svcPoison := rfl

/-! ### setPState -/

@[simp] theorem setPState_pending (p : Nat) (v : PState) (s : State) : (setPState p v s).pending = s.pending := rfl
@[simp] theorem setPState_out (p : Nat) (v : PState) (s : State) : (setPState p v s).out = s.out := rfl
@[simp] theorem setPState_free (p : Nat) (v : PState) (s : State) : (setPState p v s).free = s.free := rfl
@[simp] theorem setPState_flt (p : Nat) (v : PState) (s : State) : (setPState p v s).flt = s.flt := rfl
@[simp] theorem setPState_tor (p : Nat) (v : PState) (s : State) : (setPState p v s).tor = s.tor := rfl
@[simp] theorem setPState_pwr (p : Nat) (v : PState) (s : State) : (setPState p v s).pwr = s.pwr := rfl
@[simp] theorem setPState_cpu (p : Nat) (v : PState) (s : State) : (setPState p v s).cpu = s.cpu := rfl
@[simp] theorem setPState_sto (p : Nat) (v : PState) (s : State) : (setPState p v s).sto = s.sto := rfl
@[simp] theorem setPState_dram (p : Nat) (v : PState) (s : State) : (setPState p v s).dram = s.dram := rfl
@[simp] theorem setPState_arm (p : Nat) (v : PState) (s : State) : (setPState p v s).arm = s.arm := rfl
@[simp] theorem setPState_ch (p : Nat) (v : PState) (s : State) : (setPState p v s).ch = s.ch := rfl
@[simp] theorem setPState_jnl (p : Nat) (v : PState) (s : State) : (setPState p v s).jnl = s.jnl := rfl
@[simp] theorem setPState_dx (p : Nat) (v : PState) (s : State) : (setPState p v s).dx = s.dx := rfl
@[simp] theorem setPState_offers (p : Nat) (v : PState) (s : State) : (setPState p v s).offers = s.offers := rfl
@[simp] theorem setPState_armLink (p : Nat) (v : PState) (s : State) : (setPState p v s).armLink = s.armLink := rfl
@[simp] theorem setPState_chLink (p : Nat) (v : PState) (s : State) : (setPState p v s).chLink = s.chLink := rfl
@[simp] theorem setPState_pf0 (p : Nat) (v : PState) (s : State) : (setPState p v s).pf0 = s.pf0 := rfl
@[simp] theorem setPState_pf1 (p : Nat) (v : PState) (s : State) : (setPState p v s).pf1 = s.pf1 := rfl
@[simp] theorem setPState_hp (p : Nat) (v : PState) (s : State) : (setPState p v s).hp = s.hp := rfl
@[simp] theorem setPState_eng (p : Nat) (v : PState) (s : State) : (setPState p v s).eng = s.eng := rfl
@[simp] theorem setPState_tr (p : Nat) (v : PState) (s : State) : (setPState p v s).tr = s.tr := rfl
@[simp] theorem setPState_cs (p : Nat) (v : PState) (s : State) : (setPState p v s).cs = s.cs := rfl
@[simp] theorem setPState_mq (p : Nat) (v : PState) (s : State) : (setPState p v s).mq = s.mq := rfl
@[simp] theorem setPState_pin (p : Nat) (v : PState) (s : State) : (setPState p v s).pin = s.pin := rfl
@[simp] theorem setPState_svc (p : Nat) (v : PState) (s : State) : (setPState p v s).svc = s.svc := rfl
@[simp] theorem setPState_svcPoison (p : Nat) (v : PState) (s : State) : (setPState p v s).svcPoison = s.svcPoison := rfl

/-! ### setLink -/

@[simp] theorem setLink_pending (p : PortId) (l : Link) (s : State) : (setLink p l s).pending = s.pending := by cases p <;> rfl
@[simp] theorem setLink_out (p : PortId) (l : Link) (s : State) : (setLink p l s).out = s.out := by cases p <;> rfl
@[simp] theorem setLink_free (p : PortId) (l : Link) (s : State) : (setLink p l s).free = s.free := by cases p <;> rfl
@[simp] theorem setLink_flt (p : PortId) (l : Link) (s : State) : (setLink p l s).flt = s.flt := by cases p <;> rfl
@[simp] theorem setLink_tor (p : PortId) (l : Link) (s : State) : (setLink p l s).tor = s.tor := by cases p <;> rfl
@[simp] theorem setLink_pln (p : PortId) (l : Link) (s : State) : (setLink p l s).pln = s.pln := by cases p <;> rfl
@[simp] theorem setLink_pwr (p : PortId) (l : Link) (s : State) : (setLink p l s).pwr = s.pwr := by cases p <;> rfl
@[simp] theorem setLink_cpu (p : PortId) (l : Link) (s : State) : (setLink p l s).cpu = s.cpu := by cases p <;> rfl
@[simp] theorem setLink_sto (p : PortId) (l : Link) (s : State) : (setLink p l s).sto = s.sto := by cases p <;> rfl
@[simp] theorem setLink_dram (p : PortId) (l : Link) (s : State) : (setLink p l s).dram = s.dram := by cases p <;> rfl
@[simp] theorem setLink_arm (p : PortId) (l : Link) (s : State) : (setLink p l s).arm = s.arm := by cases p <;> rfl
@[simp] theorem setLink_ch (p : PortId) (l : Link) (s : State) : (setLink p l s).ch = s.ch := by cases p <;> rfl
@[simp] theorem setLink_jnl (p : PortId) (l : Link) (s : State) : (setLink p l s).jnl = s.jnl := by cases p <;> rfl
@[simp] theorem setLink_dx (p : PortId) (l : Link) (s : State) : (setLink p l s).dx = s.dx := by cases p <;> rfl
@[simp] theorem setLink_offers (p : PortId) (l : Link) (s : State) : (setLink p l s).offers = s.offers := by cases p <;> rfl
@[simp] theorem setLink_pf0 (p : PortId) (l : Link) (s : State) : (setLink p l s).pf0 = s.pf0 := by cases p <;> rfl
@[simp] theorem setLink_pf1 (p : PortId) (l : Link) (s : State) : (setLink p l s).pf1 = s.pf1 := by cases p <;> rfl
@[simp] theorem setLink_hp (p : PortId) (l : Link) (s : State) : (setLink p l s).hp = s.hp := by cases p <;> rfl
@[simp] theorem setLink_eng (p : PortId) (l : Link) (s : State) : (setLink p l s).eng = s.eng := by cases p <;> rfl
@[simp] theorem setLink_tr (p : PortId) (l : Link) (s : State) : (setLink p l s).tr = s.tr := by cases p <;> rfl
@[simp] theorem setLink_cs (p : PortId) (l : Link) (s : State) : (setLink p l s).cs = s.cs := by cases p <;> rfl
@[simp] theorem setLink_mq (p : PortId) (l : Link) (s : State) : (setLink p l s).mq = s.mq := by cases p <;> rfl
@[simp] theorem setLink_pin (p : PortId) (l : Link) (s : State) : (setLink p l s).pin = s.pin := by cases p <;> rfl
@[simp] theorem setLink_svc (p : PortId) (l : Link) (s : State) : (setLink p l s).svc = s.svc := by cases p <;> rfl
@[simp] theorem setLink_svcPoison (p : PortId) (l : Link) (s : State) : (setLink p l s).svcPoison = s.svcPoison := by cases p <;> rfl

/-! ### setDram -/

@[simp] theorem setDram_pending (n : Nat) (d : Dram) (s : State) : (setDram n d s).pending = s.pending := rfl
@[simp] theorem setDram_out (n : Nat) (d : Dram) (s : State) : (setDram n d s).out = s.out := rfl
@[simp] theorem setDram_free (n : Nat) (d : Dram) (s : State) : (setDram n d s).free = s.free := rfl
@[simp] theorem setDram_flt (n : Nat) (d : Dram) (s : State) : (setDram n d s).flt = s.flt := rfl
@[simp] theorem setDram_tor (n : Nat) (d : Dram) (s : State) : (setDram n d s).tor = s.tor := rfl
@[simp] theorem setDram_pln (n : Nat) (d : Dram) (s : State) : (setDram n d s).pln = s.pln := rfl
@[simp] theorem setDram_pwr (n : Nat) (d : Dram) (s : State) : (setDram n d s).pwr = s.pwr := rfl
@[simp] theorem setDram_cpu (n : Nat) (d : Dram) (s : State) : (setDram n d s).cpu = s.cpu := rfl
@[simp] theorem setDram_sto (n : Nat) (d : Dram) (s : State) : (setDram n d s).sto = s.sto := rfl
@[simp] theorem setDram_arm (n : Nat) (d : Dram) (s : State) : (setDram n d s).arm = s.arm := rfl
@[simp] theorem setDram_ch (n : Nat) (d : Dram) (s : State) : (setDram n d s).ch = s.ch := rfl
@[simp] theorem setDram_jnl (n : Nat) (d : Dram) (s : State) : (setDram n d s).jnl = s.jnl := rfl
@[simp] theorem setDram_dx (n : Nat) (d : Dram) (s : State) : (setDram n d s).dx = s.dx := rfl
@[simp] theorem setDram_offers (n : Nat) (d : Dram) (s : State) : (setDram n d s).offers = s.offers := rfl
@[simp] theorem setDram_armLink (n : Nat) (d : Dram) (s : State) : (setDram n d s).armLink = s.armLink := rfl
@[simp] theorem setDram_chLink (n : Nat) (d : Dram) (s : State) : (setDram n d s).chLink = s.chLink := rfl
@[simp] theorem setDram_pf0 (n : Nat) (d : Dram) (s : State) : (setDram n d s).pf0 = s.pf0 := rfl
@[simp] theorem setDram_pf1 (n : Nat) (d : Dram) (s : State) : (setDram n d s).pf1 = s.pf1 := rfl
@[simp] theorem setDram_hp (n : Nat) (d : Dram) (s : State) : (setDram n d s).hp = s.hp := rfl
@[simp] theorem setDram_eng (n : Nat) (d : Dram) (s : State) : (setDram n d s).eng = s.eng := rfl
@[simp] theorem setDram_tr (n : Nat) (d : Dram) (s : State) : (setDram n d s).tr = s.tr := rfl
@[simp] theorem setDram_cs (n : Nat) (d : Dram) (s : State) : (setDram n d s).cs = s.cs := rfl
@[simp] theorem setDram_mq (n : Nat) (d : Dram) (s : State) : (setDram n d s).mq = s.mq := rfl
@[simp] theorem setDram_pin (n : Nat) (d : Dram) (s : State) : (setDram n d s).pin = s.pin := rfl
@[simp] theorem setDram_svc (n : Nat) (d : Dram) (s : State) : (setDram n d s).svc = s.svc := rfl
@[simp] theorem setDram_svcPoison (n : Nat) (d : Dram) (s : State) : (setDram n d s).svcPoison = s.svcPoison := rfl

/-! ### setPeer -/

@[simp] theorem setPeer_pending (p : Nat) (x : Peer) (s : State) : (setPeer p x s).pending = s.pending := rfl
@[simp] theorem setPeer_out (p : Nat) (x : Peer) (s : State) : (setPeer p x s).out = s.out := rfl
@[simp] theorem setPeer_free (p : Nat) (x : Peer) (s : State) : (setPeer p x s).free = s.free := rfl
@[simp] theorem setPeer_flt (p : Nat) (x : Peer) (s : State) : (setPeer p x s).flt = s.flt := rfl
@[simp] theorem setPeer_tor (p : Nat) (x : Peer) (s : State) : (setPeer p x s).tor = s.tor := rfl
@[simp] theorem setPeer_pln (p : Nat) (x : Peer) (s : State) : (setPeer p x s).pln = s.pln := rfl
@[simp] theorem setPeer_pwr (p : Nat) (x : Peer) (s : State) : (setPeer p x s).pwr = s.pwr := rfl
@[simp] theorem setPeer_cpu (p : Nat) (x : Peer) (s : State) : (setPeer p x s).cpu = s.cpu := rfl
@[simp] theorem setPeer_sto (p : Nat) (x : Peer) (s : State) : (setPeer p x s).sto = s.sto := rfl
@[simp] theorem setPeer_dram (p : Nat) (x : Peer) (s : State) : (setPeer p x s).dram = s.dram := rfl
@[simp] theorem setPeer_ch (p : Nat) (x : Peer) (s : State) : (setPeer p x s).ch = s.ch := rfl
@[simp] theorem setPeer_jnl (p : Nat) (x : Peer) (s : State) : (setPeer p x s).jnl = s.jnl := rfl
@[simp] theorem setPeer_dx (p : Nat) (x : Peer) (s : State) : (setPeer p x s).dx = s.dx := rfl
@[simp] theorem setPeer_offers (p : Nat) (x : Peer) (s : State) : (setPeer p x s).offers = s.offers := rfl
@[simp] theorem setPeer_armLink (p : Nat) (x : Peer) (s : State) : (setPeer p x s).armLink = s.armLink := rfl
@[simp] theorem setPeer_chLink (p : Nat) (x : Peer) (s : State) : (setPeer p x s).chLink = s.chLink := rfl
@[simp] theorem setPeer_pf0 (p : Nat) (x : Peer) (s : State) : (setPeer p x s).pf0 = s.pf0 := rfl
@[simp] theorem setPeer_pf1 (p : Nat) (x : Peer) (s : State) : (setPeer p x s).pf1 = s.pf1 := rfl
@[simp] theorem setPeer_hp (p : Nat) (x : Peer) (s : State) : (setPeer p x s).hp = s.hp := rfl
@[simp] theorem setPeer_eng (p : Nat) (x : Peer) (s : State) : (setPeer p x s).eng = s.eng := rfl
@[simp] theorem setPeer_tr (p : Nat) (x : Peer) (s : State) : (setPeer p x s).tr = s.tr := rfl
@[simp] theorem setPeer_cs (p : Nat) (x : Peer) (s : State) : (setPeer p x s).cs = s.cs := rfl
@[simp] theorem setPeer_mq (p : Nat) (x : Peer) (s : State) : (setPeer p x s).mq = s.mq := rfl
@[simp] theorem setPeer_pin (p : Nat) (x : Peer) (s : State) : (setPeer p x s).pin = s.pin := rfl
@[simp] theorem setPeer_svc (p : Nat) (x : Peer) (s : State) : (setPeer p x s).svc = s.svc := rfl
@[simp] theorem setPeer_svcPoison (p : Nat) (x : Peer) (s : State) : (setPeer p x s).svcPoison = s.svcPoison := rfl

/-! ### setCp -/

@[simp] theorem setCp_pending (k v : Nat) (s : State) : (setCp k v s).pending = s.pending := rfl
@[simp] theorem setCp_out (k v : Nat) (s : State) : (setCp k v s).out = s.out := rfl
@[simp] theorem setCp_free (k v : Nat) (s : State) : (setCp k v s).free = s.free := rfl
@[simp] theorem setCp_flt (k v : Nat) (s : State) : (setCp k v s).flt = s.flt := rfl
@[simp] theorem setCp_tor (k v : Nat) (s : State) : (setCp k v s).tor = s.tor := rfl
@[simp] theorem setCp_pln (k v : Nat) (s : State) : (setCp k v s).pln = s.pln := rfl
@[simp] theorem setCp_pwr (k v : Nat) (s : State) : (setCp k v s).pwr = s.pwr := rfl
@[simp] theorem setCp_cpu (k v : Nat) (s : State) : (setCp k v s).cpu = s.cpu := rfl
@[simp] theorem setCp_sto (k v : Nat) (s : State) : (setCp k v s).sto = s.sto := rfl
@[simp] theorem setCp_dram (k v : Nat) (s : State) : (setCp k v s).dram = s.dram := rfl
@[simp] theorem setCp_arm (k v : Nat) (s : State) : (setCp k v s).arm = s.arm := rfl
@[simp] theorem setCp_jnl (k v : Nat) (s : State) : (setCp k v s).jnl = s.jnl := rfl
@[simp] theorem setCp_dx (k v : Nat) (s : State) : (setCp k v s).dx = s.dx := rfl
@[simp] theorem setCp_offers (k v : Nat) (s : State) : (setCp k v s).offers = s.offers := rfl
@[simp] theorem setCp_armLink (k v : Nat) (s : State) : (setCp k v s).armLink = s.armLink := rfl
@[simp] theorem setCp_chLink (k v : Nat) (s : State) : (setCp k v s).chLink = s.chLink := rfl
@[simp] theorem setCp_pf0 (k v : Nat) (s : State) : (setCp k v s).pf0 = s.pf0 := rfl
@[simp] theorem setCp_pf1 (k v : Nat) (s : State) : (setCp k v s).pf1 = s.pf1 := rfl
@[simp] theorem setCp_hp (k v : Nat) (s : State) : (setCp k v s).hp = s.hp := rfl
@[simp] theorem setCp_eng (k v : Nat) (s : State) : (setCp k v s).eng = s.eng := rfl
@[simp] theorem setCp_tr (k v : Nat) (s : State) : (setCp k v s).tr = s.tr := rfl
@[simp] theorem setCp_cs (k v : Nat) (s : State) : (setCp k v s).cs = s.cs := rfl
@[simp] theorem setCp_mq (k v : Nat) (s : State) : (setCp k v s).mq = s.mq := rfl
@[simp] theorem setCp_pin (k v : Nat) (s : State) : (setCp k v s).pin = s.pin := rfl
@[simp] theorem setCp_svc (k v : Nat) (s : State) : (setCp k v s).svc = s.svc := rfl
@[simp] theorem setCp_svcPoison (k v : Nat) (s : State) : (setCp k v s).svcPoison = s.svcPoison := rfl

/-! ### setOp -/

@[simp] theorem setOp_pending (i : Nat) (o : Option ChOp) (s : State) : (setOp i o s).pending = s.pending := rfl
@[simp] theorem setOp_out (i : Nat) (o : Option ChOp) (s : State) : (setOp i o s).out = s.out := rfl
@[simp] theorem setOp_free (i : Nat) (o : Option ChOp) (s : State) : (setOp i o s).free = s.free := rfl
@[simp] theorem setOp_flt (i : Nat) (o : Option ChOp) (s : State) : (setOp i o s).flt = s.flt := rfl
@[simp] theorem setOp_tor (i : Nat) (o : Option ChOp) (s : State) : (setOp i o s).tor = s.tor := rfl
@[simp] theorem setOp_pln (i : Nat) (o : Option ChOp) (s : State) : (setOp i o s).pln = s.pln := rfl
@[simp] theorem setOp_pwr (i : Nat) (o : Option ChOp) (s : State) : (setOp i o s).pwr = s.pwr := rfl
@[simp] theorem setOp_cpu (i : Nat) (o : Option ChOp) (s : State) : (setOp i o s).cpu = s.cpu := rfl
@[simp] theorem setOp_sto (i : Nat) (o : Option ChOp) (s : State) : (setOp i o s).sto = s.sto := rfl
@[simp] theorem setOp_dram (i : Nat) (o : Option ChOp) (s : State) : (setOp i o s).dram = s.dram := rfl
@[simp] theorem setOp_arm (i : Nat) (o : Option ChOp) (s : State) : (setOp i o s).arm = s.arm := rfl
@[simp] theorem setOp_jnl (i : Nat) (o : Option ChOp) (s : State) : (setOp i o s).jnl = s.jnl := rfl
@[simp] theorem setOp_dx (i : Nat) (o : Option ChOp) (s : State) : (setOp i o s).dx = s.dx := rfl
@[simp] theorem setOp_offers (i : Nat) (o : Option ChOp) (s : State) : (setOp i o s).offers = s.offers := rfl
@[simp] theorem setOp_armLink (i : Nat) (o : Option ChOp) (s : State) : (setOp i o s).armLink = s.armLink := rfl
@[simp] theorem setOp_chLink (i : Nat) (o : Option ChOp) (s : State) : (setOp i o s).chLink = s.chLink := rfl
@[simp] theorem setOp_pf0 (i : Nat) (o : Option ChOp) (s : State) : (setOp i o s).pf0 = s.pf0 := rfl
@[simp] theorem setOp_pf1 (i : Nat) (o : Option ChOp) (s : State) : (setOp i o s).pf1 = s.pf1 := rfl
@[simp] theorem setOp_hp (i : Nat) (o : Option ChOp) (s : State) : (setOp i o s).hp = s.hp := rfl
@[simp] theorem setOp_eng (i : Nat) (o : Option ChOp) (s : State) : (setOp i o s).eng = s.eng := rfl
@[simp] theorem setOp_tr (i : Nat) (o : Option ChOp) (s : State) : (setOp i o s).tr = s.tr := rfl
@[simp] theorem setOp_cs (i : Nat) (o : Option ChOp) (s : State) : (setOp i o s).cs = s.cs := rfl
@[simp] theorem setOp_mq (i : Nat) (o : Option ChOp) (s : State) : (setOp i o s).mq = s.mq := rfl
@[simp] theorem setOp_pin (i : Nat) (o : Option ChOp) (s : State) : (setOp i o s).pin = s.pin := rfl
@[simp] theorem setOp_svc (i : Nat) (o : Option ChOp) (s : State) : (setOp i o s).svc = s.svc := rfl
@[simp] theorem setOp_svcPoison (i : Nat) (o : Option ChOp) (s : State) : (setOp i o s).svcPoison = s.svcPoison := rfl

/-! ### setLast -/

@[simp] theorem setLast_pending (i : Nat) (x : LastOp) (s : State) : (setLast i x s).pending = s.pending := rfl
@[simp] theorem setLast_out (i : Nat) (x : LastOp) (s : State) : (setLast i x s).out = s.out := rfl
@[simp] theorem setLast_free (i : Nat) (x : LastOp) (s : State) : (setLast i x s).free = s.free := rfl
@[simp] theorem setLast_flt (i : Nat) (x : LastOp) (s : State) : (setLast i x s).flt = s.flt := rfl
@[simp] theorem setLast_tor (i : Nat) (x : LastOp) (s : State) : (setLast i x s).tor = s.tor := rfl
@[simp] theorem setLast_pln (i : Nat) (x : LastOp) (s : State) : (setLast i x s).pln = s.pln := rfl
@[simp] theorem setLast_pwr (i : Nat) (x : LastOp) (s : State) : (setLast i x s).pwr = s.pwr := rfl
@[simp] theorem setLast_cpu (i : Nat) (x : LastOp) (s : State) : (setLast i x s).cpu = s.cpu := rfl
@[simp] theorem setLast_sto (i : Nat) (x : LastOp) (s : State) : (setLast i x s).sto = s.sto := rfl
@[simp] theorem setLast_dram (i : Nat) (x : LastOp) (s : State) : (setLast i x s).dram = s.dram := rfl
@[simp] theorem setLast_arm (i : Nat) (x : LastOp) (s : State) : (setLast i x s).arm = s.arm := rfl
@[simp] theorem setLast_jnl (i : Nat) (x : LastOp) (s : State) : (setLast i x s).jnl = s.jnl := rfl
@[simp] theorem setLast_dx (i : Nat) (x : LastOp) (s : State) : (setLast i x s).dx = s.dx := rfl
@[simp] theorem setLast_offers (i : Nat) (x : LastOp) (s : State) : (setLast i x s).offers = s.offers := rfl
@[simp] theorem setLast_armLink (i : Nat) (x : LastOp) (s : State) : (setLast i x s).armLink = s.armLink := rfl
@[simp] theorem setLast_chLink (i : Nat) (x : LastOp) (s : State) : (setLast i x s).chLink = s.chLink := rfl
@[simp] theorem setLast_pf0 (i : Nat) (x : LastOp) (s : State) : (setLast i x s).pf0 = s.pf0 := rfl
@[simp] theorem setLast_pf1 (i : Nat) (x : LastOp) (s : State) : (setLast i x s).pf1 = s.pf1 := rfl
@[simp] theorem setLast_hp (i : Nat) (x : LastOp) (s : State) : (setLast i x s).hp = s.hp := rfl
@[simp] theorem setLast_eng (i : Nat) (x : LastOp) (s : State) : (setLast i x s).eng = s.eng := rfl
@[simp] theorem setLast_tr (i : Nat) (x : LastOp) (s : State) : (setLast i x s).tr = s.tr := rfl
@[simp] theorem setLast_cs (i : Nat) (x : LastOp) (s : State) : (setLast i x s).cs = s.cs := rfl
@[simp] theorem setLast_mq (i : Nat) (x : LastOp) (s : State) : (setLast i x s).mq = s.mq := rfl
@[simp] theorem setLast_pin (i : Nat) (x : LastOp) (s : State) : (setLast i x s).pin = s.pin := rfl
@[simp] theorem setLast_svc (i : Nat) (x : LastOp) (s : State) : (setLast i x s).svc = s.svc := rfl
@[simp] theorem setLast_svcPoison (i : Nat) (x : LastOp) (s : State) : (setLast i x s).svcPoison = s.svcPoison := rfl

/-! ### setJent -/

@[simp] theorem setJent_pending (i : Nat) (e : JEntry) (s : State) : (setJent i e s).pending = s.pending := rfl
@[simp] theorem setJent_out (i : Nat) (e : JEntry) (s : State) : (setJent i e s).out = s.out := rfl
@[simp] theorem setJent_free (i : Nat) (e : JEntry) (s : State) : (setJent i e s).free = s.free := rfl
@[simp] theorem setJent_flt (i : Nat) (e : JEntry) (s : State) : (setJent i e s).flt = s.flt := rfl
@[simp] theorem setJent_tor (i : Nat) (e : JEntry) (s : State) : (setJent i e s).tor = s.tor := rfl
@[simp] theorem setJent_pln (i : Nat) (e : JEntry) (s : State) : (setJent i e s).pln = s.pln := rfl
@[simp] theorem setJent_pwr (i : Nat) (e : JEntry) (s : State) : (setJent i e s).pwr = s.pwr := rfl
@[simp] theorem setJent_cpu (i : Nat) (e : JEntry) (s : State) : (setJent i e s).cpu = s.cpu := rfl
@[simp] theorem setJent_sto (i : Nat) (e : JEntry) (s : State) : (setJent i e s).sto = s.sto := rfl
@[simp] theorem setJent_dram (i : Nat) (e : JEntry) (s : State) : (setJent i e s).dram = s.dram := rfl
@[simp] theorem setJent_arm (i : Nat) (e : JEntry) (s : State) : (setJent i e s).arm = s.arm := rfl
@[simp] theorem setJent_ch (i : Nat) (e : JEntry) (s : State) : (setJent i e s).ch = s.ch := rfl
@[simp] theorem setJent_dx (i : Nat) (e : JEntry) (s : State) : (setJent i e s).dx = s.dx := rfl
@[simp] theorem setJent_offers (i : Nat) (e : JEntry) (s : State) : (setJent i e s).offers = s.offers := rfl
@[simp] theorem setJent_armLink (i : Nat) (e : JEntry) (s : State) : (setJent i e s).armLink = s.armLink := rfl
@[simp] theorem setJent_chLink (i : Nat) (e : JEntry) (s : State) : (setJent i e s).chLink = s.chLink := rfl
@[simp] theorem setJent_pf0 (i : Nat) (e : JEntry) (s : State) : (setJent i e s).pf0 = s.pf0 := rfl
@[simp] theorem setJent_pf1 (i : Nat) (e : JEntry) (s : State) : (setJent i e s).pf1 = s.pf1 := rfl
@[simp] theorem setJent_hp (i : Nat) (e : JEntry) (s : State) : (setJent i e s).hp = s.hp := rfl
@[simp] theorem setJent_eng (i : Nat) (e : JEntry) (s : State) : (setJent i e s).eng = s.eng := rfl
@[simp] theorem setJent_tr (i : Nat) (e : JEntry) (s : State) : (setJent i e s).tr = s.tr := rfl
@[simp] theorem setJent_cs (i : Nat) (e : JEntry) (s : State) : (setJent i e s).cs = s.cs := rfl
@[simp] theorem setJent_mq (i : Nat) (e : JEntry) (s : State) : (setJent i e s).mq = s.mq := rfl
@[simp] theorem setJent_pin (i : Nat) (e : JEntry) (s : State) : (setJent i e s).pin = s.pin := rfl
@[simp] theorem setJent_svc (i : Nat) (e : JEntry) (s : State) : (setJent i e s).svc = s.svc := rfl
@[simp] theorem setJent_svcPoison (i : Nat) (e : JEntry) (s : State) : (setJent i e s).svcPoison = s.svcPoison := rfl

/-! ### setHb -/

@[simp] theorem setHb_pending (p : HbPath) (h : HbState) (s : State) : (setHb p h s).pending = s.pending := by cases p <;> rfl
@[simp] theorem setHb_out (p : HbPath) (h : HbState) (s : State) : (setHb p h s).out = s.out := by cases p <;> rfl
@[simp] theorem setHb_free (p : HbPath) (h : HbState) (s : State) : (setHb p h s).free = s.free := by cases p <;> rfl
@[simp] theorem setHb_flt (p : HbPath) (h : HbState) (s : State) : (setHb p h s).flt = s.flt := by cases p <;> rfl
@[simp] theorem setHb_tor (p : HbPath) (h : HbState) (s : State) : (setHb p h s).tor = s.tor := by cases p <;> rfl
@[simp] theorem setHb_pln (p : HbPath) (h : HbState) (s : State) : (setHb p h s).pln = s.pln := by cases p <;> rfl
@[simp] theorem setHb_pwr (p : HbPath) (h : HbState) (s : State) : (setHb p h s).pwr = s.pwr := by cases p <;> rfl
@[simp] theorem setHb_cpu (p : HbPath) (h : HbState) (s : State) : (setHb p h s).cpu = s.cpu := by cases p <;> rfl
@[simp] theorem setHb_sto (p : HbPath) (h : HbState) (s : State) : (setHb p h s).sto = s.sto := by cases p <;> rfl
@[simp] theorem setHb_dram (p : HbPath) (h : HbState) (s : State) : (setHb p h s).dram = s.dram := by cases p <;> rfl
@[simp] theorem setHb_arm (p : HbPath) (h : HbState) (s : State) : (setHb p h s).arm = s.arm := by cases p <;> rfl
@[simp] theorem setHb_ch (p : HbPath) (h : HbState) (s : State) : (setHb p h s).ch = s.ch := by cases p <;> rfl
@[simp] theorem setHb_jnl (p : HbPath) (h : HbState) (s : State) : (setHb p h s).jnl = s.jnl := by cases p <;> rfl
@[simp] theorem setHb_offers (p : HbPath) (h : HbState) (s : State) : (setHb p h s).offers = s.offers := by cases p <;> rfl
@[simp] theorem setHb_armLink (p : HbPath) (h : HbState) (s : State) : (setHb p h s).armLink = s.armLink := by cases p <;> rfl
@[simp] theorem setHb_chLink (p : HbPath) (h : HbState) (s : State) : (setHb p h s).chLink = s.chLink := by cases p <;> rfl
@[simp] theorem setHb_pf0 (p : HbPath) (h : HbState) (s : State) : (setHb p h s).pf0 = s.pf0 := by cases p <;> rfl
@[simp] theorem setHb_pf1 (p : HbPath) (h : HbState) (s : State) : (setHb p h s).pf1 = s.pf1 := by cases p <;> rfl
@[simp] theorem setHb_hp (p : HbPath) (h : HbState) (s : State) : (setHb p h s).hp = s.hp := by cases p <;> rfl
@[simp] theorem setHb_eng (p : HbPath) (h : HbState) (s : State) : (setHb p h s).eng = s.eng := by cases p <;> rfl
@[simp] theorem setHb_tr (p : HbPath) (h : HbState) (s : State) : (setHb p h s).tr = s.tr := by cases p <;> rfl
@[simp] theorem setHb_cs (p : HbPath) (h : HbState) (s : State) : (setHb p h s).cs = s.cs := by cases p <;> rfl
@[simp] theorem setHb_mq (p : HbPath) (h : HbState) (s : State) : (setHb p h s).mq = s.mq := by cases p <;> rfl
@[simp] theorem setHb_pin (p : HbPath) (h : HbState) (s : State) : (setHb p h s).pin = s.pin := by cases p <;> rfl
@[simp] theorem setHb_svc (p : HbPath) (h : HbState) (s : State) : (setHb p h s).svc = s.svc := by cases p <;> rfl
@[simp] theorem setHb_svcPoison (p : HbPath) (h : HbState) (s : State) : (setHb p h s).svcPoison = s.svcPoison := by cases p <;> rfl

/-! ### setQueue -/

@[simp] theorem setQueue_pending (b : QBlock) (q : Nat) (v : Queue) (s : State) : (setQueue b q v s).pending = s.pending := by cases b <;> rfl
@[simp] theorem setQueue_out (b : QBlock) (q : Nat) (v : Queue) (s : State) : (setQueue b q v s).out = s.out := by cases b <;> rfl
@[simp] theorem setQueue_free (b : QBlock) (q : Nat) (v : Queue) (s : State) : (setQueue b q v s).free = s.free := by cases b <;> rfl
@[simp] theorem setQueue_flt (b : QBlock) (q : Nat) (v : Queue) (s : State) : (setQueue b q v s).flt = s.flt := by cases b <;> rfl
@[simp] theorem setQueue_tor (b : QBlock) (q : Nat) (v : Queue) (s : State) : (setQueue b q v s).tor = s.tor := by cases b <;> rfl
@[simp] theorem setQueue_pln (b : QBlock) (q : Nat) (v : Queue) (s : State) : (setQueue b q v s).pln = s.pln := by cases b <;> rfl
@[simp] theorem setQueue_pwr (b : QBlock) (q : Nat) (v : Queue) (s : State) : (setQueue b q v s).pwr = s.pwr := by cases b <;> rfl
@[simp] theorem setQueue_cpu (b : QBlock) (q : Nat) (v : Queue) (s : State) : (setQueue b q v s).cpu = s.cpu := by cases b <;> rfl
@[simp] theorem setQueue_sto (b : QBlock) (q : Nat) (v : Queue) (s : State) : (setQueue b q v s).sto = s.sto := by cases b <;> rfl
@[simp] theorem setQueue_dram (b : QBlock) (q : Nat) (v : Queue) (s : State) : (setQueue b q v s).dram = s.dram := by cases b <;> rfl
@[simp] theorem setQueue_arm (b : QBlock) (q : Nat) (v : Queue) (s : State) : (setQueue b q v s).arm = s.arm := by cases b <;> rfl
@[simp] theorem setQueue_ch (b : QBlock) (q : Nat) (v : Queue) (s : State) : (setQueue b q v s).ch = s.ch := by cases b <;> rfl
@[simp] theorem setQueue_jnl (b : QBlock) (q : Nat) (v : Queue) (s : State) : (setQueue b q v s).jnl = s.jnl := by cases b <;> rfl
@[simp] theorem setQueue_dx (b : QBlock) (q : Nat) (v : Queue) (s : State) : (setQueue b q v s).dx = s.dx := by cases b <;> rfl
@[simp] theorem setQueue_offers (b : QBlock) (q : Nat) (v : Queue) (s : State) : (setQueue b q v s).offers = s.offers := by cases b <;> rfl
@[simp] theorem setQueue_armLink (b : QBlock) (q : Nat) (v : Queue) (s : State) : (setQueue b q v s).armLink = s.armLink := by cases b <;> rfl
@[simp] theorem setQueue_chLink (b : QBlock) (q : Nat) (v : Queue) (s : State) : (setQueue b q v s).chLink = s.chLink := by cases b <;> rfl
@[simp] theorem setQueue_pf0 (b : QBlock) (q : Nat) (v : Queue) (s : State) : (setQueue b q v s).pf0 = s.pf0 := by cases b <;> rfl
@[simp] theorem setQueue_pf1 (b : QBlock) (q : Nat) (v : Queue) (s : State) : (setQueue b q v s).pf1 = s.pf1 := by cases b <;> rfl
@[simp] theorem setQueue_tr (b : QBlock) (q : Nat) (v : Queue) (s : State) : (setQueue b q v s).tr = s.tr := by cases b <;> rfl
@[simp] theorem setQueue_cs (b : QBlock) (q : Nat) (v : Queue) (s : State) : (setQueue b q v s).cs = s.cs := by cases b <;> rfl
@[simp] theorem setQueue_mq (b : QBlock) (q : Nat) (v : Queue) (s : State) : (setQueue b q v s).mq = s.mq := by cases b <;> rfl
@[simp] theorem setQueue_pin (b : QBlock) (q : Nat) (v : Queue) (s : State) : (setQueue b q v s).pin = s.pin := by cases b <;> rfl
@[simp] theorem setQueue_svc (b : QBlock) (q : Nat) (v : Queue) (s : State) : (setQueue b q v s).svc = s.svc := by cases b <;> rfl
@[simp] theorem setQueue_svcPoison (b : QBlock) (q : Nat) (v : Queue) (s : State) : (setQueue b q v s).svcPoison = s.svcPoison := by cases b <;> rfl

/-! ### setQp -/

@[simp] theorem setQp_pending (q : Nat) (v : HostQp) (s : State) : (setQp q v s).pending = s.pending := rfl
@[simp] theorem setQp_out (q : Nat) (v : HostQp) (s : State) : (setQp q v s).out = s.out := rfl
@[simp] theorem setQp_free (q : Nat) (v : HostQp) (s : State) : (setQp q v s).free = s.free := rfl
@[simp] theorem setQp_flt (q : Nat) (v : HostQp) (s : State) : (setQp q v s).flt = s.flt := rfl
@[simp] theorem setQp_tor (q : Nat) (v : HostQp) (s : State) : (setQp q v s).tor = s.tor := rfl
@[simp] theorem setQp_pln (q : Nat) (v : HostQp) (s : State) : (setQp q v s).pln = s.pln := rfl
@[simp] theorem setQp_pwr (q : Nat) (v : HostQp) (s : State) : (setQp q v s).pwr = s.pwr := rfl
@[simp] theorem setQp_cpu (q : Nat) (v : HostQp) (s : State) : (setQp q v s).cpu = s.cpu := rfl
@[simp] theorem setQp_sto (q : Nat) (v : HostQp) (s : State) : (setQp q v s).sto = s.sto := rfl
@[simp] theorem setQp_dram (q : Nat) (v : HostQp) (s : State) : (setQp q v s).dram = s.dram := rfl
@[simp] theorem setQp_arm (q : Nat) (v : HostQp) (s : State) : (setQp q v s).arm = s.arm := rfl
@[simp] theorem setQp_ch (q : Nat) (v : HostQp) (s : State) : (setQp q v s).ch = s.ch := rfl
@[simp] theorem setQp_jnl (q : Nat) (v : HostQp) (s : State) : (setQp q v s).jnl = s.jnl := rfl
@[simp] theorem setQp_dx (q : Nat) (v : HostQp) (s : State) : (setQp q v s).dx = s.dx := rfl
@[simp] theorem setQp_offers (q : Nat) (v : HostQp) (s : State) : (setQp q v s).offers = s.offers := rfl
@[simp] theorem setQp_armLink (q : Nat) (v : HostQp) (s : State) : (setQp q v s).armLink = s.armLink := rfl
@[simp] theorem setQp_chLink (q : Nat) (v : HostQp) (s : State) : (setQp q v s).chLink = s.chLink := rfl
@[simp] theorem setQp_pf0 (q : Nat) (v : HostQp) (s : State) : (setQp q v s).pf0 = s.pf0 := rfl
@[simp] theorem setQp_pf1 (q : Nat) (v : HostQp) (s : State) : (setQp q v s).pf1 = s.pf1 := rfl
@[simp] theorem setQp_eng (q : Nat) (v : HostQp) (s : State) : (setQp q v s).eng = s.eng := rfl
@[simp] theorem setQp_tr (q : Nat) (v : HostQp) (s : State) : (setQp q v s).tr = s.tr := rfl
@[simp] theorem setQp_cs (q : Nat) (v : HostQp) (s : State) : (setQp q v s).cs = s.cs := rfl
@[simp] theorem setQp_mq (q : Nat) (v : HostQp) (s : State) : (setQp q v s).mq = s.mq := rfl
@[simp] theorem setQp_pin (q : Nat) (v : HostQp) (s : State) : (setQp q v s).pin = s.pin := rfl
@[simp] theorem setQp_svc (q : Nat) (v : HostQp) (s : State) : (setQp q v s).svc = s.svc := rfl
@[simp] theorem setQp_svcPoison (q : Nat) (v : HostQp) (s : State) : (setQp q v s).svcPoison = s.svcPoison := rfl

/-! ### setRasp -/

@[simp] theorem setRasp_pending (k : Nat) (v : RaspEng) (s : State) : (setRasp k v s).pending = s.pending := rfl
@[simp] theorem setRasp_out (k : Nat) (v : RaspEng) (s : State) : (setRasp k v s).out = s.out := rfl
@[simp] theorem setRasp_free (k : Nat) (v : RaspEng) (s : State) : (setRasp k v s).free = s.free := rfl
@[simp] theorem setRasp_flt (k : Nat) (v : RaspEng) (s : State) : (setRasp k v s).flt = s.flt := rfl
@[simp] theorem setRasp_tor (k : Nat) (v : RaspEng) (s : State) : (setRasp k v s).tor = s.tor := rfl
@[simp] theorem setRasp_pln (k : Nat) (v : RaspEng) (s : State) : (setRasp k v s).pln = s.pln := rfl
@[simp] theorem setRasp_pwr (k : Nat) (v : RaspEng) (s : State) : (setRasp k v s).pwr = s.pwr := rfl
@[simp] theorem setRasp_cpu (k : Nat) (v : RaspEng) (s : State) : (setRasp k v s).cpu = s.cpu := rfl
@[simp] theorem setRasp_sto (k : Nat) (v : RaspEng) (s : State) : (setRasp k v s).sto = s.sto := rfl
@[simp] theorem setRasp_dram (k : Nat) (v : RaspEng) (s : State) : (setRasp k v s).dram = s.dram := rfl
@[simp] theorem setRasp_arm (k : Nat) (v : RaspEng) (s : State) : (setRasp k v s).arm = s.arm := rfl
@[simp] theorem setRasp_ch (k : Nat) (v : RaspEng) (s : State) : (setRasp k v s).ch = s.ch := rfl
@[simp] theorem setRasp_jnl (k : Nat) (v : RaspEng) (s : State) : (setRasp k v s).jnl = s.jnl := rfl
@[simp] theorem setRasp_dx (k : Nat) (v : RaspEng) (s : State) : (setRasp k v s).dx = s.dx := rfl
@[simp] theorem setRasp_offers (k : Nat) (v : RaspEng) (s : State) : (setRasp k v s).offers = s.offers := rfl
@[simp] theorem setRasp_armLink (k : Nat) (v : RaspEng) (s : State) : (setRasp k v s).armLink = s.armLink := rfl
@[simp] theorem setRasp_chLink (k : Nat) (v : RaspEng) (s : State) : (setRasp k v s).chLink = s.chLink := rfl
@[simp] theorem setRasp_pf0 (k : Nat) (v : RaspEng) (s : State) : (setRasp k v s).pf0 = s.pf0 := rfl
@[simp] theorem setRasp_pf1 (k : Nat) (v : RaspEng) (s : State) : (setRasp k v s).pf1 = s.pf1 := rfl
@[simp] theorem setRasp_hp (k : Nat) (v : RaspEng) (s : State) : (setRasp k v s).hp = s.hp := rfl
@[simp] theorem setRasp_tr (k : Nat) (v : RaspEng) (s : State) : (setRasp k v s).tr = s.tr := rfl
@[simp] theorem setRasp_cs (k : Nat) (v : RaspEng) (s : State) : (setRasp k v s).cs = s.cs := rfl
@[simp] theorem setRasp_mq (k : Nat) (v : RaspEng) (s : State) : (setRasp k v s).mq = s.mq := rfl
@[simp] theorem setRasp_pin (k : Nat) (v : RaspEng) (s : State) : (setRasp k v s).pin = s.pin := rfl
@[simp] theorem setRasp_svc (k : Nat) (v : RaspEng) (s : State) : (setRasp k v s).svc = s.svc := rfl
@[simp] theorem setRasp_svcPoison (k : Nat) (v : RaspEng) (s : State) : (setRasp k v s).svcPoison = s.svcPoison := rfl

/-! ### setInt -/

@[simp] theorem setInt_pending (k : Nat) (v : IntEng) (s : State) : (setInt k v s).pending = s.pending := rfl
@[simp] theorem setInt_out (k : Nat) (v : IntEng) (s : State) : (setInt k v s).out = s.out := rfl
@[simp] theorem setInt_free (k : Nat) (v : IntEng) (s : State) : (setInt k v s).free = s.free := rfl
@[simp] theorem setInt_flt (k : Nat) (v : IntEng) (s : State) : (setInt k v s).flt = s.flt := rfl
@[simp] theorem setInt_tor (k : Nat) (v : IntEng) (s : State) : (setInt k v s).tor = s.tor := rfl
@[simp] theorem setInt_pln (k : Nat) (v : IntEng) (s : State) : (setInt k v s).pln = s.pln := rfl
@[simp] theorem setInt_pwr (k : Nat) (v : IntEng) (s : State) : (setInt k v s).pwr = s.pwr := rfl
@[simp] theorem setInt_cpu (k : Nat) (v : IntEng) (s : State) : (setInt k v s).cpu = s.cpu := rfl
@[simp] theorem setInt_sto (k : Nat) (v : IntEng) (s : State) : (setInt k v s).sto = s.sto := rfl
@[simp] theorem setInt_dram (k : Nat) (v : IntEng) (s : State) : (setInt k v s).dram = s.dram := rfl
@[simp] theorem setInt_arm (k : Nat) (v : IntEng) (s : State) : (setInt k v s).arm = s.arm := rfl
@[simp] theorem setInt_ch (k : Nat) (v : IntEng) (s : State) : (setInt k v s).ch = s.ch := rfl
@[simp] theorem setInt_jnl (k : Nat) (v : IntEng) (s : State) : (setInt k v s).jnl = s.jnl := rfl
@[simp] theorem setInt_dx (k : Nat) (v : IntEng) (s : State) : (setInt k v s).dx = s.dx := rfl
@[simp] theorem setInt_offers (k : Nat) (v : IntEng) (s : State) : (setInt k v s).offers = s.offers := rfl
@[simp] theorem setInt_armLink (k : Nat) (v : IntEng) (s : State) : (setInt k v s).armLink = s.armLink := rfl
@[simp] theorem setInt_chLink (k : Nat) (v : IntEng) (s : State) : (setInt k v s).chLink = s.chLink := rfl
@[simp] theorem setInt_pf0 (k : Nat) (v : IntEng) (s : State) : (setInt k v s).pf0 = s.pf0 := rfl
@[simp] theorem setInt_pf1 (k : Nat) (v : IntEng) (s : State) : (setInt k v s).pf1 = s.pf1 := rfl
@[simp] theorem setInt_hp (k : Nat) (v : IntEng) (s : State) : (setInt k v s).hp = s.hp := rfl
@[simp] theorem setInt_tr (k : Nat) (v : IntEng) (s : State) : (setInt k v s).tr = s.tr := rfl
@[simp] theorem setInt_cs (k : Nat) (v : IntEng) (s : State) : (setInt k v s).cs = s.cs := rfl
@[simp] theorem setInt_mq (k : Nat) (v : IntEng) (s : State) : (setInt k v s).mq = s.mq := rfl
@[simp] theorem setInt_pin (k : Nat) (v : IntEng) (s : State) : (setInt k v s).pin = s.pin := rfl
@[simp] theorem setInt_svc (k : Nat) (v : IntEng) (s : State) : (setInt k v s).svc = s.svc := rfl
@[simp] theorem setInt_svcPoison (k : Nat) (v : IntEng) (s : State) : (setInt k v s).svcPoison = s.svcPoison := rfl

/-! ### setKeySlot -/

@[simp] theorem setKeySlot_pending (i : Nat) (v : Option KeySlot) (s : State) : (setKeySlot i v s).pending = s.pending := rfl
@[simp] theorem setKeySlot_out (i : Nat) (v : Option KeySlot) (s : State) : (setKeySlot i v s).out = s.out := rfl
@[simp] theorem setKeySlot_free (i : Nat) (v : Option KeySlot) (s : State) : (setKeySlot i v s).free = s.free := rfl
@[simp] theorem setKeySlot_flt (i : Nat) (v : Option KeySlot) (s : State) : (setKeySlot i v s).flt = s.flt := rfl
@[simp] theorem setKeySlot_tor (i : Nat) (v : Option KeySlot) (s : State) : (setKeySlot i v s).tor = s.tor := rfl
@[simp] theorem setKeySlot_pln (i : Nat) (v : Option KeySlot) (s : State) : (setKeySlot i v s).pln = s.pln := rfl
@[simp] theorem setKeySlot_pwr (i : Nat) (v : Option KeySlot) (s : State) : (setKeySlot i v s).pwr = s.pwr := rfl
@[simp] theorem setKeySlot_cpu (i : Nat) (v : Option KeySlot) (s : State) : (setKeySlot i v s).cpu = s.cpu := rfl
@[simp] theorem setKeySlot_sto (i : Nat) (v : Option KeySlot) (s : State) : (setKeySlot i v s).sto = s.sto := rfl
@[simp] theorem setKeySlot_dram (i : Nat) (v : Option KeySlot) (s : State) : (setKeySlot i v s).dram = s.dram := rfl
@[simp] theorem setKeySlot_arm (i : Nat) (v : Option KeySlot) (s : State) : (setKeySlot i v s).arm = s.arm := rfl
@[simp] theorem setKeySlot_ch (i : Nat) (v : Option KeySlot) (s : State) : (setKeySlot i v s).ch = s.ch := rfl
@[simp] theorem setKeySlot_jnl (i : Nat) (v : Option KeySlot) (s : State) : (setKeySlot i v s).jnl = s.jnl := rfl
@[simp] theorem setKeySlot_dx (i : Nat) (v : Option KeySlot) (s : State) : (setKeySlot i v s).dx = s.dx := rfl
@[simp] theorem setKeySlot_offers (i : Nat) (v : Option KeySlot) (s : State) : (setKeySlot i v s).offers = s.offers := rfl
@[simp] theorem setKeySlot_armLink (i : Nat) (v : Option KeySlot) (s : State) : (setKeySlot i v s).armLink = s.armLink := rfl
@[simp] theorem setKeySlot_chLink (i : Nat) (v : Option KeySlot) (s : State) : (setKeySlot i v s).chLink = s.chLink := rfl
@[simp] theorem setKeySlot_pf0 (i : Nat) (v : Option KeySlot) (s : State) : (setKeySlot i v s).pf0 = s.pf0 := rfl
@[simp] theorem setKeySlot_pf1 (i : Nat) (v : Option KeySlot) (s : State) : (setKeySlot i v s).pf1 = s.pf1 := rfl
@[simp] theorem setKeySlot_hp (i : Nat) (v : Option KeySlot) (s : State) : (setKeySlot i v s).hp = s.hp := rfl
@[simp] theorem setKeySlot_tr (i : Nat) (v : Option KeySlot) (s : State) : (setKeySlot i v s).tr = s.tr := rfl
@[simp] theorem setKeySlot_cs (i : Nat) (v : Option KeySlot) (s : State) : (setKeySlot i v s).cs = s.cs := rfl
@[simp] theorem setKeySlot_mq (i : Nat) (v : Option KeySlot) (s : State) : (setKeySlot i v s).mq = s.mq := rfl
@[simp] theorem setKeySlot_pin (i : Nat) (v : Option KeySlot) (s : State) : (setKeySlot i v s).pin = s.pin := rfl
@[simp] theorem setKeySlot_svc (i : Nat) (v : Option KeySlot) (s : State) : (setKeySlot i v s).svc = s.svc := rfl
@[simp] theorem setKeySlot_svcPoison (i : Nat) (v : Option KeySlot) (s : State) : (setKeySlot i v s).svcPoison = s.svcPoison := rfl

/-! ### setStore -/

@[simp] theorem setStore_pending (n : Nat) (v : CsStore) (s : State) : (setStore n v s).pending = s.pending := rfl
@[simp] theorem setStore_out (n : Nat) (v : CsStore) (s : State) : (setStore n v s).out = s.out := rfl
@[simp] theorem setStore_free (n : Nat) (v : CsStore) (s : State) : (setStore n v s).free = s.free := rfl
@[simp] theorem setStore_flt (n : Nat) (v : CsStore) (s : State) : (setStore n v s).flt = s.flt := rfl
@[simp] theorem setStore_tor (n : Nat) (v : CsStore) (s : State) : (setStore n v s).tor = s.tor := rfl
@[simp] theorem setStore_pln (n : Nat) (v : CsStore) (s : State) : (setStore n v s).pln = s.pln := rfl
@[simp] theorem setStore_pwr (n : Nat) (v : CsStore) (s : State) : (setStore n v s).pwr = s.pwr := rfl
@[simp] theorem setStore_cpu (n : Nat) (v : CsStore) (s : State) : (setStore n v s).cpu = s.cpu := rfl
@[simp] theorem setStore_sto (n : Nat) (v : CsStore) (s : State) : (setStore n v s).sto = s.sto := rfl
@[simp] theorem setStore_dram (n : Nat) (v : CsStore) (s : State) : (setStore n v s).dram = s.dram := rfl
@[simp] theorem setStore_arm (n : Nat) (v : CsStore) (s : State) : (setStore n v s).arm = s.arm := rfl
@[simp] theorem setStore_ch (n : Nat) (v : CsStore) (s : State) : (setStore n v s).ch = s.ch := rfl
@[simp] theorem setStore_jnl (n : Nat) (v : CsStore) (s : State) : (setStore n v s).jnl = s.jnl := rfl
@[simp] theorem setStore_dx (n : Nat) (v : CsStore) (s : State) : (setStore n v s).dx = s.dx := rfl
@[simp] theorem setStore_offers (n : Nat) (v : CsStore) (s : State) : (setStore n v s).offers = s.offers := rfl
@[simp] theorem setStore_armLink (n : Nat) (v : CsStore) (s : State) : (setStore n v s).armLink = s.armLink := rfl
@[simp] theorem setStore_chLink (n : Nat) (v : CsStore) (s : State) : (setStore n v s).chLink = s.chLink := rfl
@[simp] theorem setStore_pf0 (n : Nat) (v : CsStore) (s : State) : (setStore n v s).pf0 = s.pf0 := rfl
@[simp] theorem setStore_pf1 (n : Nat) (v : CsStore) (s : State) : (setStore n v s).pf1 = s.pf1 := rfl
@[simp] theorem setStore_hp (n : Nat) (v : CsStore) (s : State) : (setStore n v s).hp = s.hp := rfl
@[simp] theorem setStore_eng (n : Nat) (v : CsStore) (s : State) : (setStore n v s).eng = s.eng := rfl
@[simp] theorem setStore_tr (n : Nat) (v : CsStore) (s : State) : (setStore n v s).tr = s.tr := rfl
@[simp] theorem setStore_mq (n : Nat) (v : CsStore) (s : State) : (setStore n v s).mq = s.mq := rfl
@[simp] theorem setStore_pin (n : Nat) (v : CsStore) (s : State) : (setStore n v s).pin = s.pin := rfl
@[simp] theorem setStore_svc (n : Nat) (v : CsStore) (s : State) : (setStore n v s).svc = s.svc := rfl
@[simp] theorem setStore_svcPoison (n : Nat) (v : CsStore) (s : State) : (setStore n v s).svcPoison = s.svcPoison := rfl

/-! ### setFn -/

@[simp] theorem setFn_pending (fn : Nat) (f : HostFn) (s : State) : (setFn fn f s).pending = s.pending := by unfold setFn; split <;> rfl
@[simp] theorem setFn_out (fn : Nat) (f : HostFn) (s : State) : (setFn fn f s).out = s.out := by unfold setFn; split <;> rfl
@[simp] theorem setFn_free (fn : Nat) (f : HostFn) (s : State) : (setFn fn f s).free = s.free := by unfold setFn; split <;> rfl
@[simp] theorem setFn_flt (fn : Nat) (f : HostFn) (s : State) : (setFn fn f s).flt = s.flt := by unfold setFn; split <;> rfl
@[simp] theorem setFn_tor (fn : Nat) (f : HostFn) (s : State) : (setFn fn f s).tor = s.tor := by unfold setFn; split <;> rfl
@[simp] theorem setFn_pln (fn : Nat) (f : HostFn) (s : State) : (setFn fn f s).pln = s.pln := by unfold setFn; split <;> rfl
@[simp] theorem setFn_pwr (fn : Nat) (f : HostFn) (s : State) : (setFn fn f s).pwr = s.pwr := by unfold setFn; split <;> rfl
@[simp] theorem setFn_cpu (fn : Nat) (f : HostFn) (s : State) : (setFn fn f s).cpu = s.cpu := by unfold setFn; split <;> rfl
@[simp] theorem setFn_sto (fn : Nat) (f : HostFn) (s : State) : (setFn fn f s).sto = s.sto := by unfold setFn; split <;> rfl
@[simp] theorem setFn_dram (fn : Nat) (f : HostFn) (s : State) : (setFn fn f s).dram = s.dram := by unfold setFn; split <;> rfl
@[simp] theorem setFn_arm (fn : Nat) (f : HostFn) (s : State) : (setFn fn f s).arm = s.arm := by unfold setFn; split <;> rfl
@[simp] theorem setFn_ch (fn : Nat) (f : HostFn) (s : State) : (setFn fn f s).ch = s.ch := by unfold setFn; split <;> rfl
@[simp] theorem setFn_jnl (fn : Nat) (f : HostFn) (s : State) : (setFn fn f s).jnl = s.jnl := by unfold setFn; split <;> rfl
@[simp] theorem setFn_dx (fn : Nat) (f : HostFn) (s : State) : (setFn fn f s).dx = s.dx := by unfold setFn; split <;> rfl
@[simp] theorem setFn_offers (fn : Nat) (f : HostFn) (s : State) : (setFn fn f s).offers = s.offers := by unfold setFn; split <;> rfl
@[simp] theorem setFn_armLink (fn : Nat) (f : HostFn) (s : State) : (setFn fn f s).armLink = s.armLink := by unfold setFn; split <;> rfl
@[simp] theorem setFn_chLink (fn : Nat) (f : HostFn) (s : State) : (setFn fn f s).chLink = s.chLink := by unfold setFn; split <;> rfl
@[simp] theorem setFn_hp (fn : Nat) (f : HostFn) (s : State) : (setFn fn f s).hp = s.hp := by unfold setFn; split <;> rfl
@[simp] theorem setFn_eng (fn : Nat) (f : HostFn) (s : State) : (setFn fn f s).eng = s.eng := by unfold setFn; split <;> rfl
@[simp] theorem setFn_tr (fn : Nat) (f : HostFn) (s : State) : (setFn fn f s).tr = s.tr := by unfold setFn; split <;> rfl
@[simp] theorem setFn_cs (fn : Nat) (f : HostFn) (s : State) : (setFn fn f s).cs = s.cs := by unfold setFn; split <;> rfl
@[simp] theorem setFn_mq (fn : Nat) (f : HostFn) (s : State) : (setFn fn f s).mq = s.mq := by unfold setFn; split <;> rfl
@[simp] theorem setFn_pin (fn : Nat) (f : HostFn) (s : State) : (setFn fn f s).pin = s.pin := by unfold setFn; split <;> rfl
@[simp] theorem setFn_svc (fn : Nat) (f : HostFn) (s : State) : (setFn fn f s).svc = s.svc := by unfold setFn; split <;> rfl
@[simp] theorem setFn_svcPoison (fn : Nat) (f : HostFn) (s : State) : (setFn fn f s).svcPoison = s.svcPoison := by unfold setFn; split <;> rfl

/-! ### setSession -/

@[simp] theorem setSession_pending (ss : Session) (v : MqSession) (s : State) : (setSession ss v s).pending = s.pending := by cases ss <;> rfl
@[simp] theorem setSession_out (ss : Session) (v : MqSession) (s : State) : (setSession ss v s).out = s.out := by cases ss <;> rfl
@[simp] theorem setSession_free (ss : Session) (v : MqSession) (s : State) : (setSession ss v s).free = s.free := by cases ss <;> rfl
@[simp] theorem setSession_flt (ss : Session) (v : MqSession) (s : State) : (setSession ss v s).flt = s.flt := by cases ss <;> rfl
@[simp] theorem setSession_tor (ss : Session) (v : MqSession) (s : State) : (setSession ss v s).tor = s.tor := by cases ss <;> rfl
@[simp] theorem setSession_pln (ss : Session) (v : MqSession) (s : State) : (setSession ss v s).pln = s.pln := by cases ss <;> rfl
@[simp] theorem setSession_pwr (ss : Session) (v : MqSession) (s : State) : (setSession ss v s).pwr = s.pwr := by cases ss <;> rfl
@[simp] theorem setSession_cpu (ss : Session) (v : MqSession) (s : State) : (setSession ss v s).cpu = s.cpu := by cases ss <;> rfl
@[simp] theorem setSession_sto (ss : Session) (v : MqSession) (s : State) : (setSession ss v s).sto = s.sto := by cases ss <;> rfl
@[simp] theorem setSession_dram (ss : Session) (v : MqSession) (s : State) : (setSession ss v s).dram = s.dram := by cases ss <;> rfl
@[simp] theorem setSession_arm (ss : Session) (v : MqSession) (s : State) : (setSession ss v s).arm = s.arm := by cases ss <;> rfl
@[simp] theorem setSession_ch (ss : Session) (v : MqSession) (s : State) : (setSession ss v s).ch = s.ch := by cases ss <;> rfl
@[simp] theorem setSession_jnl (ss : Session) (v : MqSession) (s : State) : (setSession ss v s).jnl = s.jnl := by cases ss <;> rfl
@[simp] theorem setSession_dx (ss : Session) (v : MqSession) (s : State) : (setSession ss v s).dx = s.dx := by cases ss <;> rfl
@[simp] theorem setSession_offers (ss : Session) (v : MqSession) (s : State) : (setSession ss v s).offers = s.offers := by cases ss <;> rfl
@[simp] theorem setSession_armLink (ss : Session) (v : MqSession) (s : State) : (setSession ss v s).armLink = s.armLink := by cases ss <;> rfl
@[simp] theorem setSession_chLink (ss : Session) (v : MqSession) (s : State) : (setSession ss v s).chLink = s.chLink := by cases ss <;> rfl
@[simp] theorem setSession_pf0 (ss : Session) (v : MqSession) (s : State) : (setSession ss v s).pf0 = s.pf0 := by cases ss <;> rfl
@[simp] theorem setSession_pf1 (ss : Session) (v : MqSession) (s : State) : (setSession ss v s).pf1 = s.pf1 := by cases ss <;> rfl
@[simp] theorem setSession_hp (ss : Session) (v : MqSession) (s : State) : (setSession ss v s).hp = s.hp := by cases ss <;> rfl
@[simp] theorem setSession_eng (ss : Session) (v : MqSession) (s : State) : (setSession ss v s).eng = s.eng := by cases ss <;> rfl
@[simp] theorem setSession_tr (ss : Session) (v : MqSession) (s : State) : (setSession ss v s).tr = s.tr := by cases ss <;> rfl
@[simp] theorem setSession_cs (ss : Session) (v : MqSession) (s : State) : (setSession ss v s).cs = s.cs := by cases ss <;> rfl
@[simp] theorem setSession_pin (ss : Session) (v : MqSession) (s : State) : (setSession ss v s).pin = s.pin := by cases ss <;> rfl
@[simp] theorem setSession_svc (ss : Session) (v : MqSession) (s : State) : (setSession ss v s).svc = s.svc := by cases ss <;> rfl
@[simp] theorem setSession_svcPoison (ss : Session) (v : MqSession) (s : State) : (setSession ss v s).svcPoison = s.svcPoison := by cases ss <;> rfl

/-! ### setSpare -/

@[simp] theorem setSpare_pending (c v : Nat) (s : State) : (setSpare c v s).pending = s.pending := rfl
@[simp] theorem setSpare_out (c v : Nat) (s : State) : (setSpare c v s).out = s.out := rfl
@[simp] theorem setSpare_free (c v : Nat) (s : State) : (setSpare c v s).free = s.free := rfl
@[simp] theorem setSpare_flt (c v : Nat) (s : State) : (setSpare c v s).flt = s.flt := rfl
@[simp] theorem setSpare_tor (c v : Nat) (s : State) : (setSpare c v s).tor = s.tor := rfl
@[simp] theorem setSpare_pln (c v : Nat) (s : State) : (setSpare c v s).pln = s.pln := rfl
@[simp] theorem setSpare_pwr (c v : Nat) (s : State) : (setSpare c v s).pwr = s.pwr := rfl
@[simp] theorem setSpare_sto (c v : Nat) (s : State) : (setSpare c v s).sto = s.sto := rfl
@[simp] theorem setSpare_dram (c v : Nat) (s : State) : (setSpare c v s).dram = s.dram := rfl
@[simp] theorem setSpare_arm (c v : Nat) (s : State) : (setSpare c v s).arm = s.arm := rfl
@[simp] theorem setSpare_ch (c v : Nat) (s : State) : (setSpare c v s).ch = s.ch := rfl
@[simp] theorem setSpare_jnl (c v : Nat) (s : State) : (setSpare c v s).jnl = s.jnl := rfl
@[simp] theorem setSpare_dx (c v : Nat) (s : State) : (setSpare c v s).dx = s.dx := rfl
@[simp] theorem setSpare_offers (c v : Nat) (s : State) : (setSpare c v s).offers = s.offers := rfl
@[simp] theorem setSpare_armLink (c v : Nat) (s : State) : (setSpare c v s).armLink = s.armLink := rfl
@[simp] theorem setSpare_chLink (c v : Nat) (s : State) : (setSpare c v s).chLink = s.chLink := rfl
@[simp] theorem setSpare_pf0 (c v : Nat) (s : State) : (setSpare c v s).pf0 = s.pf0 := rfl
@[simp] theorem setSpare_pf1 (c v : Nat) (s : State) : (setSpare c v s).pf1 = s.pf1 := rfl
@[simp] theorem setSpare_hp (c v : Nat) (s : State) : (setSpare c v s).hp = s.hp := rfl
@[simp] theorem setSpare_eng (c v : Nat) (s : State) : (setSpare c v s).eng = s.eng := rfl
@[simp] theorem setSpare_tr (c v : Nat) (s : State) : (setSpare c v s).tr = s.tr := rfl
@[simp] theorem setSpare_cs (c v : Nat) (s : State) : (setSpare c v s).cs = s.cs := rfl
@[simp] theorem setSpare_mq (c v : Nat) (s : State) : (setSpare c v s).mq = s.mq := rfl
@[simp] theorem setSpare_pin (c v : Nat) (s : State) : (setSpare c v s).pin = s.pin := rfl
@[simp] theorem setSpare_svc (c v : Nat) (s : State) : (setSpare c v s).svc = s.svc := rfl
@[simp] theorem setSpare_svcPoison (c v : Nat) (s : State) : (setSpare c v s).svcPoison = s.svcPoison := rfl

/-! ### setRec -/

@[simp] theorem setRec_pending (l v : Nat) (s : State) : (setRec l v s).pending = s.pending := rfl
@[simp] theorem setRec_out (l v : Nat) (s : State) : (setRec l v s).out = s.out := rfl
@[simp] theorem setRec_free (l v : Nat) (s : State) : (setRec l v s).free = s.free := rfl
@[simp] theorem setRec_flt (l v : Nat) (s : State) : (setRec l v s).flt = s.flt := rfl
@[simp] theorem setRec_tor (l v : Nat) (s : State) : (setRec l v s).tor = s.tor := rfl
@[simp] theorem setRec_pln (l v : Nat) (s : State) : (setRec l v s).pln = s.pln := rfl
@[simp] theorem setRec_pwr (l v : Nat) (s : State) : (setRec l v s).pwr = s.pwr := rfl
@[simp] theorem setRec_sto (l v : Nat) (s : State) : (setRec l v s).sto = s.sto := rfl
@[simp] theorem setRec_dram (l v : Nat) (s : State) : (setRec l v s).dram = s.dram := rfl
@[simp] theorem setRec_arm (l v : Nat) (s : State) : (setRec l v s).arm = s.arm := rfl
@[simp] theorem setRec_ch (l v : Nat) (s : State) : (setRec l v s).ch = s.ch := rfl
@[simp] theorem setRec_jnl (l v : Nat) (s : State) : (setRec l v s).jnl = s.jnl := rfl
@[simp] theorem setRec_dx (l v : Nat) (s : State) : (setRec l v s).dx = s.dx := rfl
@[simp] theorem setRec_offers (l v : Nat) (s : State) : (setRec l v s).offers = s.offers := rfl
@[simp] theorem setRec_armLink (l v : Nat) (s : State) : (setRec l v s).armLink = s.armLink := rfl
@[simp] theorem setRec_chLink (l v : Nat) (s : State) : (setRec l v s).chLink = s.chLink := rfl
@[simp] theorem setRec_pf0 (l v : Nat) (s : State) : (setRec l v s).pf0 = s.pf0 := rfl
@[simp] theorem setRec_pf1 (l v : Nat) (s : State) : (setRec l v s).pf1 = s.pf1 := rfl
@[simp] theorem setRec_hp (l v : Nat) (s : State) : (setRec l v s).hp = s.hp := rfl
@[simp] theorem setRec_eng (l v : Nat) (s : State) : (setRec l v s).eng = s.eng := rfl
@[simp] theorem setRec_tr (l v : Nat) (s : State) : (setRec l v s).tr = s.tr := rfl
@[simp] theorem setRec_cs (l v : Nat) (s : State) : (setRec l v s).cs = s.cs := rfl
@[simp] theorem setRec_mq (l v : Nat) (s : State) : (setRec l v s).mq = s.mq := rfl
@[simp] theorem setRec_pin (l v : Nat) (s : State) : (setRec l v s).pin = s.pin := rfl
@[simp] theorem setRec_svc (l v : Nat) (s : State) : (setRec l v s).svc = s.svc := rfl
@[simp] theorem setRec_svcPoison (l v : Nat) (s : State) : (setRec l v s).svcPoison = s.svcPoison := rfl

/-! ### setRecast -/

@[simp] theorem setRecast_pending (c : Nat) (v : Option Recasting) (s : State) : (setRecast c v s).pending = s.pending := rfl
@[simp] theorem setRecast_out (c : Nat) (v : Option Recasting) (s : State) : (setRecast c v s).out = s.out := rfl
@[simp] theorem setRecast_free (c : Nat) (v : Option Recasting) (s : State) : (setRecast c v s).free = s.free := rfl
@[simp] theorem setRecast_flt (c : Nat) (v : Option Recasting) (s : State) : (setRecast c v s).flt = s.flt := rfl
@[simp] theorem setRecast_tor (c : Nat) (v : Option Recasting) (s : State) : (setRecast c v s).tor = s.tor := rfl
@[simp] theorem setRecast_pln (c : Nat) (v : Option Recasting) (s : State) : (setRecast c v s).pln = s.pln := rfl
@[simp] theorem setRecast_pwr (c : Nat) (v : Option Recasting) (s : State) : (setRecast c v s).pwr = s.pwr := rfl
@[simp] theorem setRecast_sto (c : Nat) (v : Option Recasting) (s : State) : (setRecast c v s).sto = s.sto := rfl
@[simp] theorem setRecast_dram (c : Nat) (v : Option Recasting) (s : State) : (setRecast c v s).dram = s.dram := rfl
@[simp] theorem setRecast_arm (c : Nat) (v : Option Recasting) (s : State) : (setRecast c v s).arm = s.arm := rfl
@[simp] theorem setRecast_ch (c : Nat) (v : Option Recasting) (s : State) : (setRecast c v s).ch = s.ch := rfl
@[simp] theorem setRecast_jnl (c : Nat) (v : Option Recasting) (s : State) : (setRecast c v s).jnl = s.jnl := rfl
@[simp] theorem setRecast_dx (c : Nat) (v : Option Recasting) (s : State) : (setRecast c v s).dx = s.dx := rfl
@[simp] theorem setRecast_offers (c : Nat) (v : Option Recasting) (s : State) : (setRecast c v s).offers = s.offers := rfl
@[simp] theorem setRecast_armLink (c : Nat) (v : Option Recasting) (s : State) : (setRecast c v s).armLink = s.armLink := rfl
@[simp] theorem setRecast_chLink (c : Nat) (v : Option Recasting) (s : State) : (setRecast c v s).chLink = s.chLink := rfl
@[simp] theorem setRecast_pf0 (c : Nat) (v : Option Recasting) (s : State) : (setRecast c v s).pf0 = s.pf0 := rfl
@[simp] theorem setRecast_pf1 (c : Nat) (v : Option Recasting) (s : State) : (setRecast c v s).pf1 = s.pf1 := rfl
@[simp] theorem setRecast_hp (c : Nat) (v : Option Recasting) (s : State) : (setRecast c v s).hp = s.hp := rfl
@[simp] theorem setRecast_eng (c : Nat) (v : Option Recasting) (s : State) : (setRecast c v s).eng = s.eng := rfl
@[simp] theorem setRecast_tr (c : Nat) (v : Option Recasting) (s : State) : (setRecast c v s).tr = s.tr := rfl
@[simp] theorem setRecast_cs (c : Nat) (v : Option Recasting) (s : State) : (setRecast c v s).cs = s.cs := rfl
@[simp] theorem setRecast_mq (c : Nat) (v : Option Recasting) (s : State) : (setRecast c v s).mq = s.mq := rfl
@[simp] theorem setRecast_pin (c : Nat) (v : Option Recasting) (s : State) : (setRecast c v s).pin = s.pin := rfl
@[simp] theorem setRecast_svc (c : Nat) (v : Option Recasting) (s : State) : (setRecast c v s).svc = s.svc := rfl
@[simp] theorem setRecast_svcPoison (c : Nat) (v : Option Recasting) (s : State) : (setRecast c v s).svcPoison = s.svcPoison := rfl

/-! ### setPoison -/

@[simp] theorem setPoison_pending (line : Nat) (v : Bool) (s : State) : (setPoison line v s).pending = s.pending := rfl
@[simp] theorem setPoison_out (line : Nat) (v : Bool) (s : State) : (setPoison line v s).out = s.out := rfl
@[simp] theorem setPoison_free (line : Nat) (v : Bool) (s : State) : (setPoison line v s).free = s.free := rfl
@[simp] theorem setPoison_flt (line : Nat) (v : Bool) (s : State) : (setPoison line v s).flt = s.flt := rfl
@[simp] theorem setPoison_tor (line : Nat) (v : Bool) (s : State) : (setPoison line v s).tor = s.tor := rfl
@[simp] theorem setPoison_pln (line : Nat) (v : Bool) (s : State) : (setPoison line v s).pln = s.pln := rfl
@[simp] theorem setPoison_pwr (line : Nat) (v : Bool) (s : State) : (setPoison line v s).pwr = s.pwr := rfl
@[simp] theorem setPoison_cpu (line : Nat) (v : Bool) (s : State) : (setPoison line v s).cpu = s.cpu := rfl
@[simp] theorem setPoison_dram (line : Nat) (v : Bool) (s : State) : (setPoison line v s).dram = s.dram := rfl
@[simp] theorem setPoison_arm (line : Nat) (v : Bool) (s : State) : (setPoison line v s).arm = s.arm := rfl
@[simp] theorem setPoison_ch (line : Nat) (v : Bool) (s : State) : (setPoison line v s).ch = s.ch := rfl
@[simp] theorem setPoison_jnl (line : Nat) (v : Bool) (s : State) : (setPoison line v s).jnl = s.jnl := rfl
@[simp] theorem setPoison_dx (line : Nat) (v : Bool) (s : State) : (setPoison line v s).dx = s.dx := rfl
@[simp] theorem setPoison_offers (line : Nat) (v : Bool) (s : State) : (setPoison line v s).offers = s.offers := rfl
@[simp] theorem setPoison_armLink (line : Nat) (v : Bool) (s : State) : (setPoison line v s).armLink = s.armLink := rfl
@[simp] theorem setPoison_chLink (line : Nat) (v : Bool) (s : State) : (setPoison line v s).chLink = s.chLink := rfl
@[simp] theorem setPoison_pf0 (line : Nat) (v : Bool) (s : State) : (setPoison line v s).pf0 = s.pf0 := rfl
@[simp] theorem setPoison_pf1 (line : Nat) (v : Bool) (s : State) : (setPoison line v s).pf1 = s.pf1 := rfl
@[simp] theorem setPoison_hp (line : Nat) (v : Bool) (s : State) : (setPoison line v s).hp = s.hp := rfl
@[simp] theorem setPoison_eng (line : Nat) (v : Bool) (s : State) : (setPoison line v s).eng = s.eng := rfl
@[simp] theorem setPoison_tr (line : Nat) (v : Bool) (s : State) : (setPoison line v s).tr = s.tr := rfl
@[simp] theorem setPoison_cs (line : Nat) (v : Bool) (s : State) : (setPoison line v s).cs = s.cs := rfl
@[simp] theorem setPoison_mq (line : Nat) (v : Bool) (s : State) : (setPoison line v s).mq = s.mq := rfl
@[simp] theorem setPoison_pin (line : Nat) (v : Bool) (s : State) : (setPoison line v s).pin = s.pin := rfl
@[simp] theorem setPoison_svc (line : Nat) (v : Bool) (s : State) : (setPoison line v s).svc = s.svc := rfl
@[simp] theorem setPoison_svcPoison (line : Nat) (v : Bool) (s : State) : (setPoison line v s).svcPoison = s.svcPoison := rfl

/-! ### setTxn -/

@[simp] theorem setTxn_pending (line : Nat) (t : Option HomeTxn) (s : State) : (setTxn line t s).pending = s.pending := rfl
@[simp] theorem setTxn_out (line : Nat) (t : Option HomeTxn) (s : State) : (setTxn line t s).out = s.out := rfl
@[simp] theorem setTxn_free (line : Nat) (t : Option HomeTxn) (s : State) : (setTxn line t s).free = s.free := rfl
@[simp] theorem setTxn_flt (line : Nat) (t : Option HomeTxn) (s : State) : (setTxn line t s).flt = s.flt := rfl
@[simp] theorem setTxn_tor (line : Nat) (t : Option HomeTxn) (s : State) : (setTxn line t s).tor = s.tor := rfl
@[simp] theorem setTxn_pln (line : Nat) (t : Option HomeTxn) (s : State) : (setTxn line t s).pln = s.pln := rfl
@[simp] theorem setTxn_pwr (line : Nat) (t : Option HomeTxn) (s : State) : (setTxn line t s).pwr = s.pwr := rfl
@[simp] theorem setTxn_cpu (line : Nat) (t : Option HomeTxn) (s : State) : (setTxn line t s).cpu = s.cpu := rfl
@[simp] theorem setTxn_sto (line : Nat) (t : Option HomeTxn) (s : State) : (setTxn line t s).sto = s.sto := rfl
@[simp] theorem setTxn_dram (line : Nat) (t : Option HomeTxn) (s : State) : (setTxn line t s).dram = s.dram := rfl
@[simp] theorem setTxn_ch (line : Nat) (t : Option HomeTxn) (s : State) : (setTxn line t s).ch = s.ch := rfl
@[simp] theorem setTxn_jnl (line : Nat) (t : Option HomeTxn) (s : State) : (setTxn line t s).jnl = s.jnl := rfl
@[simp] theorem setTxn_dx (line : Nat) (t : Option HomeTxn) (s : State) : (setTxn line t s).dx = s.dx := rfl
@[simp] theorem setTxn_offers (line : Nat) (t : Option HomeTxn) (s : State) : (setTxn line t s).offers = s.offers := rfl
@[simp] theorem setTxn_armLink (line : Nat) (t : Option HomeTxn) (s : State) : (setTxn line t s).armLink = s.armLink := rfl
@[simp] theorem setTxn_chLink (line : Nat) (t : Option HomeTxn) (s : State) : (setTxn line t s).chLink = s.chLink := rfl
@[simp] theorem setTxn_pf0 (line : Nat) (t : Option HomeTxn) (s : State) : (setTxn line t s).pf0 = s.pf0 := rfl
@[simp] theorem setTxn_pf1 (line : Nat) (t : Option HomeTxn) (s : State) : (setTxn line t s).pf1 = s.pf1 := rfl
@[simp] theorem setTxn_hp (line : Nat) (t : Option HomeTxn) (s : State) : (setTxn line t s).hp = s.hp := rfl
@[simp] theorem setTxn_eng (line : Nat) (t : Option HomeTxn) (s : State) : (setTxn line t s).eng = s.eng := rfl
@[simp] theorem setTxn_tr (line : Nat) (t : Option HomeTxn) (s : State) : (setTxn line t s).tr = s.tr := rfl
@[simp] theorem setTxn_cs (line : Nat) (t : Option HomeTxn) (s : State) : (setTxn line t s).cs = s.cs := rfl
@[simp] theorem setTxn_mq (line : Nat) (t : Option HomeTxn) (s : State) : (setTxn line t s).mq = s.mq := rfl
@[simp] theorem setTxn_pin (line : Nat) (t : Option HomeTxn) (s : State) : (setTxn line t s).pin = s.pin := rfl
@[simp] theorem setTxn_svc (line : Nat) (t : Option HomeTxn) (s : State) : (setTxn line t s).svc = s.svc := rfl
@[simp] theorem setTxn_svcPoison (line : Nat) (t : Option HomeTxn) (s : State) : (setTxn line t s).svcPoison = s.svcPoison := rfl

/-! ### setDir -/

@[simp] theorem setDir_pending (line : Nat) (e : Option DirEntry) (s : State) : (setDir line e s).pending = s.pending := rfl
@[simp] theorem setDir_out (line : Nat) (e : Option DirEntry) (s : State) : (setDir line e s).out = s.out := rfl
@[simp] theorem setDir_free (line : Nat) (e : Option DirEntry) (s : State) : (setDir line e s).free = s.free := rfl
@[simp] theorem setDir_flt (line : Nat) (e : Option DirEntry) (s : State) : (setDir line e s).flt = s.flt := rfl
@[simp] theorem setDir_tor (line : Nat) (e : Option DirEntry) (s : State) : (setDir line e s).tor = s.tor := rfl
@[simp] theorem setDir_pln (line : Nat) (e : Option DirEntry) (s : State) : (setDir line e s).pln = s.pln := rfl
@[simp] theorem setDir_pwr (line : Nat) (e : Option DirEntry) (s : State) : (setDir line e s).pwr = s.pwr := rfl
@[simp] theorem setDir_cpu (line : Nat) (e : Option DirEntry) (s : State) : (setDir line e s).cpu = s.cpu := rfl
@[simp] theorem setDir_sto (line : Nat) (e : Option DirEntry) (s : State) : (setDir line e s).sto = s.sto := rfl
@[simp] theorem setDir_dram (line : Nat) (e : Option DirEntry) (s : State) : (setDir line e s).dram = s.dram := rfl
@[simp] theorem setDir_ch (line : Nat) (e : Option DirEntry) (s : State) : (setDir line e s).ch = s.ch := rfl
@[simp] theorem setDir_jnl (line : Nat) (e : Option DirEntry) (s : State) : (setDir line e s).jnl = s.jnl := rfl
@[simp] theorem setDir_dx (line : Nat) (e : Option DirEntry) (s : State) : (setDir line e s).dx = s.dx := rfl
@[simp] theorem setDir_offers (line : Nat) (e : Option DirEntry) (s : State) : (setDir line e s).offers = s.offers := rfl
@[simp] theorem setDir_armLink (line : Nat) (e : Option DirEntry) (s : State) : (setDir line e s).armLink = s.armLink := rfl
@[simp] theorem setDir_chLink (line : Nat) (e : Option DirEntry) (s : State) : (setDir line e s).chLink = s.chLink := rfl
@[simp] theorem setDir_pf0 (line : Nat) (e : Option DirEntry) (s : State) : (setDir line e s).pf0 = s.pf0 := rfl
@[simp] theorem setDir_pf1 (line : Nat) (e : Option DirEntry) (s : State) : (setDir line e s).pf1 = s.pf1 := rfl
@[simp] theorem setDir_hp (line : Nat) (e : Option DirEntry) (s : State) : (setDir line e s).hp = s.hp := rfl
@[simp] theorem setDir_eng (line : Nat) (e : Option DirEntry) (s : State) : (setDir line e s).eng = s.eng := rfl
@[simp] theorem setDir_tr (line : Nat) (e : Option DirEntry) (s : State) : (setDir line e s).tr = s.tr := rfl
@[simp] theorem setDir_cs (line : Nat) (e : Option DirEntry) (s : State) : (setDir line e s).cs = s.cs := rfl
@[simp] theorem setDir_mq (line : Nat) (e : Option DirEntry) (s : State) : (setDir line e s).mq = s.mq := rfl
@[simp] theorem setDir_pin (line : Nat) (e : Option DirEntry) (s : State) : (setDir line e s).pin = s.pin := rfl
@[simp] theorem setDir_svc (line : Nat) (e : Option DirEntry) (s : State) : (setDir line e s).svc = s.svc := rfl
@[simp] theorem setDir_svcPoison (line : Nat) (e : Option DirEntry) (s : State) : (setDir line e s).svcPoison = s.svcPoison := rfl

/-! ### setPhase -/

@[simp] theorem setPhase_pending (p : Phase) (s : State) : (setPhase p s).pending = s.pending := rfl
@[simp] theorem setPhase_out (p : Phase) (s : State) : (setPhase p s).out = s.out := rfl
@[simp] theorem setPhase_free (p : Phase) (s : State) : (setPhase p s).free = s.free := rfl
@[simp] theorem setPhase_flt (p : Phase) (s : State) : (setPhase p s).flt = s.flt := rfl
@[simp] theorem setPhase_tor (p : Phase) (s : State) : (setPhase p s).tor = s.tor := rfl
@[simp] theorem setPhase_pln (p : Phase) (s : State) : (setPhase p s).pln = s.pln := rfl
@[simp] theorem setPhase_cpu (p : Phase) (s : State) : (setPhase p s).cpu = s.cpu := rfl
@[simp] theorem setPhase_sto (p : Phase) (s : State) : (setPhase p s).sto = s.sto := rfl
@[simp] theorem setPhase_dram (p : Phase) (s : State) : (setPhase p s).dram = s.dram := rfl
@[simp] theorem setPhase_arm (p : Phase) (s : State) : (setPhase p s).arm = s.arm := rfl
@[simp] theorem setPhase_ch (p : Phase) (s : State) : (setPhase p s).ch = s.ch := rfl
@[simp] theorem setPhase_jnl (p : Phase) (s : State) : (setPhase p s).jnl = s.jnl := rfl
@[simp] theorem setPhase_dx (p : Phase) (s : State) : (setPhase p s).dx = s.dx := rfl
@[simp] theorem setPhase_offers (p : Phase) (s : State) : (setPhase p s).offers = s.offers := rfl
@[simp] theorem setPhase_armLink (p : Phase) (s : State) : (setPhase p s).armLink = s.armLink := rfl
@[simp] theorem setPhase_chLink (p : Phase) (s : State) : (setPhase p s).chLink = s.chLink := rfl
@[simp] theorem setPhase_pf0 (p : Phase) (s : State) : (setPhase p s).pf0 = s.pf0 := rfl
@[simp] theorem setPhase_pf1 (p : Phase) (s : State) : (setPhase p s).pf1 = s.pf1 := rfl
@[simp] theorem setPhase_hp (p : Phase) (s : State) : (setPhase p s).hp = s.hp := rfl
@[simp] theorem setPhase_eng (p : Phase) (s : State) : (setPhase p s).eng = s.eng := rfl
@[simp] theorem setPhase_tr (p : Phase) (s : State) : (setPhase p s).tr = s.tr := rfl
@[simp] theorem setPhase_cs (p : Phase) (s : State) : (setPhase p s).cs = s.cs := rfl
@[simp] theorem setPhase_mq (p : Phase) (s : State) : (setPhase p s).mq = s.mq := rfl
@[simp] theorem setPhase_pin (p : Phase) (s : State) : (setPhase p s).pin = s.pin := rfl
@[simp] theorem setPhase_svc (p : Phase) (s : State) : (setPhase p s).svc = s.svc := rfl
@[simp] theorem setPhase_svcPoison (p : Phase) (s : State) : (setPhase p s).svcPoison = s.svcPoison := rfl

/-! ### What an update writes -/

@[simp] theorem emit_out (o : Out) (s : State) : (emit o s).out = s.out ++ [o] := rfl
@[simp] theorem emits_out (os : List Out) (s : State) : (emits os s).out = s.out ++ os := rfl
@[simp] theorem patina_status (i : Nat) (s : State) : (patina i s).flt.status = s.flt.status := rfl
@[simp] theorem patina_react (i : Nat) (s : State) : (patina i s).flt.react = s.flt.react := rfl
@[simp] theorem patina_due (i : Nat) (s : State) : (patina i s).flt.due = s.flt.due := rfl
@[simp] theorem patina_checkstop (i : Nat) (s : State) : (patina i s).flt.checkstop = s.flt.checkstop := rfl
theorem patina_live (i j : Nat) (s : State) :
    tget 0 j (patina i s).flt.live = if j = i then sat16 (tget 0 i s.flt.live) else tget 0 j s.flt.live := tget_tmod 0 j i sat16 _
@[simp] theorem logEntry_status (a b c d e f : Nat) (s : State) : (logEntry a b c d e f s).flt.status = s.flt.status := rfl
@[simp] theorem logEntry_react (a b c d e f : Nat) (s : State) : (logEntry a b c d e f s).flt.react = s.flt.react := rfl
@[simp] theorem logEntry_live (a b c d e f : Nat) (s : State) : (logEntry a b c d e f s).flt.live = s.flt.live := rfl
@[simp] theorem logEntry_due (a b c d e f : Nat) (s : State) : (logEntry a b c d e f s).flt.due = s.flt.due := rfl
@[simp] theorem logEntry_checkstop (a b c d e f : Nat) (s : State) : (logEntry a b c d e f s).flt.checkstop = s.flt.checkstop := rfl
@[simp] theorem setFlt_react (i : Nat) (v : FltStatus) (s : State) : (setFlt i v s).flt.react = s.flt.react := rfl
@[simp] theorem setFlt_live (i : Nat) (v : FltStatus) (s : State) : (setFlt i v s).flt.live = s.flt.live := rfl
@[simp] theorem setFlt_due (i : Nat) (v : FltStatus) (s : State) : (setFlt i v s).flt.due = s.flt.due := rfl
@[simp] theorem setFlt_checkstop (i : Nat) (v : FltStatus) (s : State) : (setFlt i v s).flt.checkstop = s.flt.checkstop := rfl
theorem fltStatus_setFlt (i j : Nat) (v : FltStatus) (s : State) : fltStatus j (setFlt i v s) = if j = i then v else fltStatus j s :=
  tget_tset _ j i v _
theorem coreOf_setCore (l k : Nat) (c : Core) (s : State) : coreOf k (setCore l c s) = if k = l then c else coreOf k s := tget_tset _ k l c _
theorem pstateOf_setPState (p q : Nat) (v : PState) (s : State) : pstateOf q (setPState p v s) = if q = p then v else pstateOf q s :=
  tget_tset _ q p v _
theorem linkOf_setLink (p q : PortId) (l : Link) (s : State) : linkOf q (setLink p l s) = if q = p then l else linkOf q s := by
  cases p <;> cases q <;> simp [linkOf, setLink, tget_tset]
theorem dramOf_setDram (n m : Nat) (d : Dram) (s : State) : dramOf m (setDram n d s) = if m = n then d else dramOf m s := tget_tset _ m n d _
theorem jent_setJent (i j : Nat) (e : JEntry) (s : State) : jent j (setJent i e s) = if j = i then e else jent j s := tget_tset _ j i e _
theorem opOf_setOp (i j : Nat) (o : Option ChOp) (s : State) : opOf j (setOp i o s) = if j = i then o else opOf j s := tget_tset _ j i o _
theorem raspOf_setRasp (k j : Nat) (v : RaspEng) (s : State) : raspOf j (setRasp k v s) = if j = k then v else raspOf j s := tget_tset _ j k v _
theorem intOf_setInt (k j : Nat) (v : IntEng) (s : State) : intOf j (setInt k v s) = if j = k then v else intOf j s := tget_tset _ j k v _
theorem queueOf_setQueue (b c : QBlock) (q r : Nat) (v : Queue) (s : State) :
    queueOf c r (setQueue b q v s) = if c = b ∧ r = q then v else queueOf c r s := by
  cases b <;> cases c <;> simp [queueOf, setQueue, tget_tset]
theorem sessionOf_setSession (a b : Session) (v : MqSession) (s : State) :
    sessionOf b (setSession a v s) = if b = a then v else sessionOf b s := by
  cases a <;> cases b <;> simp [sessionOf, setSession]
theorem hbOf_setHb (a b : HbPath) (v : HbState) (s : State) : hbOf b (setHb a v s) = if b = a then v else hbOf b s := by
  cases a <;> cases b <;> simp [hbOf, setHb]
theorem memGet_setPoison (line : Nat) (v : Bool) (s : State) : (setPoison line v s).sto.mem = s.sto.mem := rfl

end Sys2Proof.Machine
end

