-- ==== Sys2Proof/Laws/Link.lean ====
section
/-! SUPPORT. What sending over the links can change: what leaves the module, and the ports themselves (13_serial_links R286 to R293; 14 R313). -/

namespace Sys2Proof.Machine

/-- `t` differs from `s` in what has left the module and in its ports only. -/
def Sent (s t : State) : Prop := ∃ o a c, t = { s with out := o, armLink := a, chLink := c }

theorem Sent.refl (s : State) : Sent s s := ⟨s.out, s.armLink, s.chLink, rfl⟩

theorem Sent.trans {s t u : State} (h : Sent s t) (k : Sent t u) : Sent s u := by
  obtain ⟨o, a, c, rfl⟩ := h
  obtain ⟨o', a', c', rfl⟩ := k
  exact ⟨o', a', c', rfl⟩

theorem sent_setLink (p : PortId) (l : Link) (s : State) : Sent s (setLink p l s) := by
  cases p
  · exact ⟨s.out, _, s.chLink, rfl⟩
  · exact ⟨s.out, s.armLink, _, rfl⟩

theorem sent_emit (o : Out) (s : State) : Sent s (emit o s) := ⟨_, s.armLink, s.chLink, rfl⟩

/-- A fold of sending steps sends. -/
theorem sent_foldl {α : Type} (f : State → α → State) (h : ∀ s x, Sent s (f s x)) (xs : List α) : ∀ s, Sent s (xs.foldl f s) := by
  induction xs with
  | nil => exact Sent.refl
  | cons x t ih => intro s; exact (h s x).trans (ih _)

theorem sent_sendAlign (p : PortId) (s : State) : Sent s (sendAlign p s) := by
  unfold sendAlign
  dsimp only
  split
  · exact Sent.refl s
  · exact (sent_setLink _ _ s).trans (sent_emit _ _)

theorem sent_putFlit (p : PortId) (f : List Byte) (s : State) : Sent s (putFlit p f s) :=
  (sent_sendAlign p s).trans (sent_emit _ _)

theorem sent_sendIdle (p : PortId) (nak : Bool) (s : State) : Sent s (sendIdle p nak s) := (sent_setLink _ _ s).trans (sent_putFlit _ _ _)

theorem sent_linkFlit (p : PortId) (b : List Byte) (s : State) : Sent s (linkFlit p b s) := sent_putFlit _ _ _

theorem sent_sendData (p : PortId) (vc : Nat) (b : List Byte) (x y z : Bool) (via : Option Nat) (s : State) :
    Sent s (sendData p vc b x y z via s) := (sent_setLink _ _ s).trans (sent_putFlit _ _ _)

theorem sent_txOne (p : PortId) (s : State) : Sent s (txOne p s) := by
  unfold txOne
  dsimp only
  split
  · exact Sent.refl s
  · split
    · exact Sent.refl s
    · exact (sent_setLink _ _ s).trans (sent_sendData _ _ _ _ _ _ _ _)

theorem sent_txDrain (p : PortId) (n : Nat) : ∀ s, Sent s (txDrain p n s) := by
  induction n with
  | zero => exact Sent.refl
  | succ n ih =>
    intro s
    unfold txDrain
    split
    · exact Sent.refl s
    · exact (sent_txOne p s).trans (ih _)

theorem sent_linkSendVia (p : PortId) (vc : Nat) (b : List Byte) (via : Option Nat) (s : State) : Sent s (linkSendVia p vc b via s) :=
  (sent_setLink _ _ s).trans (sent_txDrain _ _ _)

theorem sent_mgtSend (p : PortId) (what : Nat) (b : List Byte) (s : State) : Sent s (mgtSend p what b s) := sent_linkSendVia _ _ _ _ _

theorem sent_floodAdv (q : Nat → Bool) (a : Adv) (s : State) : Sent s (floodAdv q a s) :=
  sent_foldl _ (fun _ _ => (sent_emit _ _).trans (sent_mgtSend _ _ _ _)) _ _

/-- A flood of this module's advertisement touches nothing of fault collection. -/
@[simp] theorem announceChange_flt (s : State) : (announceChange s).flt = s.flt := by
  unfold announceChange floodOwn
  split
  · split
    · rfl
    · obtain ⟨o, a, c, h⟩ := sent_floodAdv (fun _ => true) _ { dbChanged s with arm := { (dbChanged s).arm with
        seq := (ownAdv _ (dbChanged s)).seq, db := tset none _ (some { adv := ownAdv _ (dbChanged s), seen := (dbChanged s).tor.tor }) (dbChanged s).arm.db } }
      rw [h]
      rfl
  · rfl

end Sys2Proof.Machine
end

