-- ==== Sys2Proof/Laws/Settle.lean ====
section
/-! SUPPORT. The end of every command: what it leaves, and when it does nothing. -/

namespace Sys2Proof.Machine

@[simp] theorem torFlood_flt (b s : State) : (torFlood b s).flt = s.flt := by
  unfold torFlood
  split
  · exact announceChange_flt s
  · rfl

@[simp] theorem signalStates_flt (b s : State) : (signalStates b s).flt = s.flt := by
  unfold signalStates
  dsimp only
  split <;> split <;> split <;> simp

/-- After at most `n` steps no step is due. -/
theorem settleDue_due (n : Nat) : ∀ s : State, (settleDue n s).flt.due = [] := by
  induction n with
  | zero => intro s; rfl
  | succ n ih =>
    intro s
    unfold settleDue
    split
    · assumption
    · exact ih _

/-- No escalation step outlasts its command. -/
@[simp] theorem settle_due (b s : State) : (settle b s).flt.due = [] := by
  simp [settle, settleDue_due]

/-- A command does not touch the queue of commands. -/
@[simp] theorem settle_pending (b s : State) : (settle b s).pending = b.pending := rfl

theorem settleDue_quiet (n : Nat) {s : State} (h : s.flt.due = []) : settleDue n s = s := by
  cases n with
  | zero =>
    show { s with flt := { s.flt with due := [] } } = s
    rw [← h]
  | succ n => unfold settleDue; simp [h]

theorem torFlood_same {b s : State} (h : Safety.sameReport b s) : torFlood b s = s := by
  obtain ⟨h1, h2, h3, _, _⟩ := h
  unfold torFlood
  simp [h1, h2, h3]

theorem signalStates_same {b s : State} (h : Safety.sameReport b s) : signalStates b s = s := by
  obtain ⟨_, h2, _, h4, h5⟩ := h
  unfold signalStates
  simp [h2, h4, h5]

/-- Where a command made no step due and changed nothing that is told outside, its end does nothing. -/
theorem settle_quiet {b s : State} (hd : s.flt.due = []) (hp : s.pending = b.pending) (hr : Safety.sameReport b s) : settle b s = s := by
  unfold settle
  rw [settleDue_quiet _ hd, torFlood_same hr, signalStates_same hr, ← hp]

/-- A quiet command ends with the state that its operation leaves. -/
theorem done_quiet {b s : State} (hd : s.flt.due = []) (hp : s.pending = b.pending) (hr : Safety.sameReport b s) : done b s = .next s := by
  unfold done
  rw [settle_quiet hd hp hr]

/-- A command whose operation is quiet answers the state that the operation leaves. -/
theorem exec_quiet {c : Instr} {s t : State} {P : State → Prop} (he : exec c s = done s t) (hd : t.flt.due = []) (hp : t.pending = s.pending)
    (hr : Safety.sameReport s t) (h : P t) : ∃ u, exec c s = .next u ∧ P u :=
  ⟨t, he.trans (done_quiet hd hp hr), h⟩

end Sys2Proof.Machine
end

