-- ==== Sys2Proof/Laws/Fault.lean ====
section
/-! SUPPORT. What an event does at the fault collector, and what a module checkstop leaves (21_fault_collection R483 to R489). -/

namespace Sys2Proof.Machine

theorem sameReport_refl (s : State) : Safety.sameReport s s := ⟨rfl, rfl, rfl, rfl, rfl⟩

/-- A check of a partition touches the cores' state only. -/
theorem mcOnPart_eq (p c a so : Nat) (s : State) : ∃ x, mcOnPart p c a so s = { s with cpu := x } := by
  unfold mcOnPart mcGive mcOnCore modCore
  dsimp only
  split
  · exact ⟨s.cpu, rfl⟩
  · split
    · exact ⟨_, rfl⟩
    · exact ⟨_, rfl⟩

/-- A vector of PF0 touches the function and what leaves the module. -/
theorem pf0Vector_eq (v : Nat) (s : State) : ∃ o f, pf0Vector v s = { s with out := o, pf0 := f } := by
  unfold pf0Vector emit
  dsimp only
  split
  · exact ⟨_, _, rfl⟩
  · exact ⟨s.out, _, rfl⟩

/-- The notices of an event touch the cores, PF0 and what leaves the module. -/
theorem reactNotify_eq (src code : Nat) (part : Option Nat) (detail : Nat) (s : State) :
    ∃ o f c, reactNotify src code part detail s = { s with out := o, pf0 := f, cpu := c } := by
  obtain ⟨o, f, hc⟩ : ∃ o f, (if lbit (reactOf src s) 62 then pf0Vector 0 (emit (.scNotice src) s) else s) = { s with out := o, pf0 := f } := by
    split
    · obtain ⟨o, f, h⟩ := pf0Vector_eq 0 (emit (.scNotice src) s)
      exact ⟨o, f, by rw [h]; rfl⟩
    · exact ⟨s.out, s.pf0, rfl⟩
  unfold reactNotify
  dsimp only
  rw [hc]
  split
  · cases part with
    | none => exact ⟨o, f, s.cpu, rfl⟩
    | some p =>
      obtain ⟨x, hx⟩ := mcOnPart_eq p 2 (noticeAddr src code p detail { s with out := o, pf0 := f }) (sourceNo code src) { s with out := o, pf0 := f }
      exact ⟨o, f, x, hx⟩
  · exact ⟨o, f, s.cpu, rfl⟩

/-- A chain whose last step is 0 for the class is empty. -/
theorem chainOf_empty (r : Long) (cls : Nat) (h : fld r 57 56 = 0) (hc : cls ≠ 2) : (chainOf r cls).2 = 0 := by simp [chainOf, h, hc]

theorem startGrace_empty (i : Nat) (s : State) (h : (chainOf (reactOf i s) (fltStatus i s).cls).2 = 0) : startGrace i s = s := by
  unfold startGrace
  simp [h]

/-- The status that a first event leaves (R483). -/
def firstStatus (cls code : Nat) (part : Option Nat) (holds : Bool) (st : FltStatus) : FltStatus :=
  { st with pending := true, cls := cls, event := code, part := part.getD 0x3F, holds := holds, step := if st.fenced then st.step else 0 }

/-- The first event of a source with an empty chain: its status and the notices. -/
theorem firstEvent_eq (cls src code : Nat) (part : Option Nat) (detail : Nat) (holds : Bool) (s : State)
    (h : (chainOf (reactOf src s) cls).2 = 0) : ∃ o f c, firstEvent cls src code part detail holds s =
      { setFlt src (firstStatus cls code part holds (fltStatus src s)) s with out := o, pf0 := f, cpu := c } := by
  have hst : firstStatus cls code part holds (fltStatus src s) = { fltStatus src s with
      pending := true, cls := cls, event := code, part := part.getD 0x3F, holds := holds,
      step := if (fltStatus src s).fenced then (fltStatus src s).step else 0 } := by simp [firstStatus]
  obtain ⟨o, f, c, hn⟩ := reactNotify_eq src code part detail (setFlt src (firstStatus cls code part holds (fltStatus src s)) s)
  refine ⟨o, f, c, ?_⟩
  unfold firstEvent
  dsimp only
  rw [← hst, hn]
  apply startGrace_empty
  have : fltStatus src { setFlt src (firstStatus cls code part holds (fltStatus src s)) s with out := o, pf0 := f, cpu := c } =
      firstStatus cls code part holds (fltStatus src s) := by simp [fltStatus, setFlt]
  rw [this]
  exact h

/-- The first event of a source whose reaction entry names no step, of a class other than UE-partition: what it changes, and what not. -/
theorem raiseClass_first (cls src code : Nat) (part : Option Nat) (detail : Nat) (holds : Bool) (s : State) (hc : cls ≠ 2)
    (hp : (fltStatus src s).pending = false) (hr : fld (reactOf src s) 57 56 = 0) :
    ∃ o f c pe, raiseClass cls src code part detail holds s =
      { s with out := o, pf0 := f, cpu := c,
               flt := { (setFlt src (firstStatus cls code part holds (fltStatus src s)) (logEntry 1 cls (sourceNo code src) (part.getD 0x3F) 0 detail (patina src s))).flt with
                 pulseEnd := pe, due := s.flt.due ++ if cls = 3 then [DueStep.mk (sourceNo code src) 3 (part.getD 0x3F)] else [] } } ∧
      (lbit (reactOf src s) 60 = true → pe = some (s.tor.tor + ticksMs)) ∧ (lbit (reactOf src s) 60 = false → pe = s.flt.pulseEnd) := by
  obtain ⟨o, f, c, hf⟩ := firstEvent_eq cls src code part detail holds (logEntry 1 cls (sourceNo code src) (part.getD 0x3F) 0 detail (patina src s))
    (chainOf_empty _ cls hr hc)
  have e : fltStatus src (logEntry 1 cls (sourceNo code src) (part.getD 0x3F) 0 detail (patina src s)) = fltStatus src s := rfl
  rw [e] at hf
  refine ⟨o, f, c, if lbit (reactOf src s) 60 then some (s.tor.tor + ticksMs) else s.flt.pulseEnd, ?_, by intro h; simp [h], by intro h; simp [h]⟩
  unfold raiseClass
  simp only [hp, Bool.not_false, Bool.or_true, if_true, Bool.false_eq_true, if_false]
  rw [hf]
  by_cases h3 : cls = 3 <;> cases h6 : lbit (reactOf src s) 60 <;>
    simp [h3, makeDue, pulseErrN, setFlt, logEntry, patina]

/-- The status that a later event leaves (R483). -/
def laterStatus (cls code : Nat) (part : Option Nat) (holds : Bool) (st : FltStatus) : FltStatus :=
  if st.cls < cls then { st with overflow := true, cls := cls, event := code, part := part.getD 0x3F, holds := holds }
  else { st with overflow := true, holds := if code = st.event then holds else st.holds }

/-- A later event of a source with an empty chain: the status alone. -/
theorem laterEvent_eq (cls src code : Nat) (part : Option Nat) (holds : Bool) (s : State) (h : (chainOf (reactOf src s) cls).2 = 0) :
    laterEvent cls src code part holds s = setFlt src (laterStatus cls code part holds (fltStatus src s)) s := by
  unfold laterEvent laterStatus
  dsimp only
  by_cases hw : (fltStatus src s).cls < cls
  · simp only [hw, decide_true, if_true, Bool.true_and]
    split
    · apply startGrace_empty
      rw [fltStatus_setFlt, if_pos rfl]
      exact h
    · rfl
  · simp [hw]

/-- An event of a pending source whose reaction entry names no step, of a class other than UE-partition. -/
theorem raiseClass_later (cls src code : Nat) (part : Option Nat) (detail : Nat) (holds : Bool) (s : State) (hc : cls ≠ 2)
    (hp : (fltStatus src s).pending = true) (hr : fld (reactOf src s) 57 56 = 0) :
    ∃ lg nx ls pe, raiseClass cls src code part detail holds s =
      { s with flt := { (setFlt src (laterStatus cls code part holds (fltStatus src s)) (patina src s)).flt with
                 log := lg, nextSeq := nx, lost := ls, pulseEnd := pe,
                 due := s.flt.due ++ if cls = 3 then [DueStep.mk (sourceNo code src) 3 (part.getD 0x3F)] else [] } } := by
  have hch : (chainOf (reactOf src s) cls).2 = 0 := chainOf_empty _ cls hr hc
  unfold raiseClass
  simp only [hp, if_true]
  by_cases hl : (lbit (reactOf src s) 63 || !true) = true
  · rw [if_pos hl, laterEvent_eq cls src code part holds (logEntry 1 cls (sourceNo code src) (part.getD 0x3F) 0 detail (patina src s)) hch]
    exact ⟨(logEntry 1 cls (sourceNo code src) (part.getD 0x3F) 0 detail (patina src s)).flt.log,
      (logEntry 1 cls (sourceNo code src) (part.getD 0x3F) 0 detail (patina src s)).flt.nextSeq,
      (logEntry 1 cls (sourceNo code src) (part.getD 0x3F) 0 detail (patina src s)).flt.lost,
      if lbit (reactOf src s) 60 then some (s.tor.tor + ticksMs) else s.flt.pulseEnd, by
        by_cases h3 : cls = 3 <;> cases h6 : lbit (reactOf src s) 60 <;> simp [h3, makeDue, pulseErrN, setFlt, logEntry, patina, fltStatus]⟩
  · rw [if_neg hl, laterEvent_eq cls src code part holds (patina src s) hch]
    exact ⟨s.flt.log, s.flt.nextSeq, s.flt.lost, if lbit (reactOf src s) 60 then some (s.tor.tor + ticksMs) else s.flt.pulseEnd, by
        by_cases h3 : cls = 3 <;> cases h6 : lbit (reactOf src s) 60 <;> simp [h3, makeDue, pulseErrN, setFlt, patina, fltStatus]⟩

/-! ### Module checkstop -/

theorem foldl_keeps {α β : Type} (f : State → α → State) (g : State → β) (h : ∀ s a, g (f s a) = g s) (l : List α) :
    ∀ s, g (l.foldl f s) = g s := by
  induction l with
  | nil => intro s; rfl
  | cons a t ih => intro s; exact (ih (f s a)).trans (h s a)

theorem foldl_holds {α : Type} (f : State → α → State) (P : State → Prop) (h : ∀ s a, P s → P (f s a)) (l : List α) :
    ∀ s, P s → P (l.foldl f s) := by
  induction l with
  | nil => intro s hs; exact hs
  | cons a t ih => intro s hs; exact ih _ (h s a hs)

/-- Core `k` after a change of the cores that the state lists. -/
theorem coreOf_foldl_modCore (p : Nat → Bool) (f : Core → Core) (Q : Core → Prop) (hf : ∀ c, Q (f c)) (k : Nat) (hp : p k = true) (ls : List Nat) :
    ∀ s, (k ∈ ls ∨ Q (coreOf k s)) → Q (coreOf k (ls.foldl (fun s l => if p l then modCore l f s else s) s)) := by
  induction ls with
  | nil => intro s h; simpa using h
  | cons a t ih =>
    intro s h
    simp only [List.foldl_cons]
    apply ih
    by_cases hk : k = a
    · subst hk; right; rw [if_pos hp]; unfold modCore; rw [coreOf_setCore, if_pos rfl]; exact hf _
    · rcases h with h | h
      · left; simpa [hk] using h
      · right
        by_cases ha : p a = true
        · rw [if_pos ha]; unfold modCore; rw [coreOf_setCore, if_neg hk]; exact h
        · rw [if_neg ha]; exact h

theorem tget_not_listed {α : Type} (d : α) (k : Nat) : ∀ t : Tab α, k ∉ t.map (·.1) → tget d k t = d
  | [], _ => rfl
  | (a, v) :: t, h => by
    simp only [List.map_cons, List.mem_cons, not_or] at h
    simp [tget, Ne.symm h.1, tget_not_listed d k t h.2]

/-- After a change of every listed core that establishes a property which a core at reset has, every core has it. -/
theorem onCores_all (f : Core → Core) (Q : Core → Prop) (hf : ∀ c, Q (f c)) (h0 : Q {}) (k : Nat) (s : State) :
    Q (coreOf k (onCores (fun _ => true) f s)) := by
  unfold onCores
  refine coreOf_foldl_modCore (fun _ => true) f Q hf k rfl _ s ?_
  by_cases h : k ∈ s.cpu.core.map (·.1)
  · exact .inl h
  · right; unfold coreOf; rw [tget_not_listed _ _ _ h]; exact h0

/-- A module checkstop: the flag is set, and nothing that a source or Patina counter holds changes. -/
theorem moduleCheckstop_flt (s : State) : (moduleCheckstop s).flt.checkstop = true ∧ (moduleCheckstop s).flt.status = s.flt.status ∧
    (moduleCheckstop s).flt.due = s.flt.due ∧ (moduleCheckstop s).flt.live = s.flt.live := by
  have hc : ∀ (p : Nat → Bool) (f : Core → Core) (x : State), (onCores p f x).flt = x.flt := by
    intro p f x; unfold onCores
    exact foldl_keeps (fun s l => if p l then modCore l f s else s) (fun s => s.flt) (by intro s a; split <;> rfl) _ x
  have hl : ∀ (l : List Nat) (x : State), (l.foldl (fun s l => loseStoresLogged l s) x).flt.status = x.flt.status ∧
      (l.foldl (fun s l => loseStoresLogged l s) x).flt.due = x.flt.due ∧ (l.foldl (fun s l => loseStoresLogged l s) x).flt.live = x.flt.live := by
    intro l x
    refine ⟨?_, ?_, ?_⟩
    · exact foldl_keeps (fun s l => loseStoresLogged l s) (fun s => s.flt.status) (by intro s a; unfold loseStoresLogged; dsimp only; split <;> rfl) l x
    · exact foldl_keeps (fun s l => loseStoresLogged l s) (fun s => s.flt.due) (by intro s a; unfold loseStoresLogged; dsimp only; split <;> rfl) l x
    · exact foldl_keeps (fun s l => loseStoresLogged l s) (fun s => s.flt.live) (by intro s a; unfold loseStoresLogged; dsimp only; split <;> rfl) l x
  have hcp : ∀ (l : List Nat) (x : State), (l.foldl (fun s k => if cpState k s = 0 then setCp k 1 s else s) x).flt = x.flt := by
    intro l x
    exact foldl_keeps (fun s k => if cpState k s = 0 then setCp k 1 s else s) (fun s => s.flt) (by intro s a; split <;> rfl) l x
  unfold moduleCheckstop
  split
  · rename_i h; exact ⟨h, rfl, rfl, rfl⟩
  · dsimp only
    rw [hcp, hc]
    unfold loseCaches
    dsimp only
    rw [hc]
    exact ⟨rfl, hl _ _⟩

/-- After a module checkstop no core runs. -/
theorem moduleCheckstop_stops (s : State) (h : s.flt.checkstop = false) (l : Nat) : (coreOf l (moduleCheckstop s)).run ≠ .running := by
  have hcp : ∀ (ls : List Nat) (x : State), (ls.foldl (fun s k => if cpState k s = 0 then setCp k 1 s else s) x).cpu = x.cpu := by
    intro ls x
    exact foldl_keeps (fun s k => if cpState k s = 0 then setCp k 1 s else s) (fun s => s.cpu) (by intro s a; split <;> rfl) ls x
  unfold moduleCheckstop
  rw [if_neg (by simp [h])]
  dsimp only
  unfold coreOf
  dsimp only
  rw [hcp]
  refine onCores_all _ (fun c => c.run ≠ .running) ?_ (by decide) l _
  intro c
  split
  · simp_all
  · simp_all
  · simp

/-- A module checkstop leaves the time of record, the fabric, the duplex pair, the image and the queue of commands as they were. -/
theorem moduleCheckstop_keeps (s : State) : (moduleCheckstop s).tor = s.tor ∧ (moduleCheckstop s).dx = s.dx ∧
    (moduleCheckstop s).arm = s.arm ∧ (moduleCheckstop s).pending = s.pending ∧ (moduleCheckstop s).pln = s.pln ∧
    (moduleCheckstop s).sto = s.sto := by
  have h : ∀ {β : Type} (g : State → β), (∀ s l c, g (setCore l c s) = g s) → (∀ s k v, g (setCp k v s) = g s) →
      (∀ s x, g { s with cpu := x } = g s) → (∀ s a b c d e f, g (logEntry a b c d e f s) = g s) →
      (∀ s x y z w, g { s with dram := w, flt := x, jnl := y, cpu := z } = g s) → g (moduleCheckstop s) = g s := by
    intro β g h1 h2 h3 h4 h5
    have hon : ∀ (p : Nat → Bool) (f : Core → Core) (x : State), g (onCores p f x) = g x := by
      intro p f x; unfold onCores
      exact foldl_keeps (fun s l => if p l then modCore l f s else s) g (by intro s a; split; exact h1 _ _ _; rfl) _ x
    have hls : ∀ (l : List Nat) (x : State), g (l.foldl (fun s l => loseStoresLogged l s) x) = g x := by
      intro l x
      refine foldl_keeps (fun s l => loseStoresLogged l s) g ?_ l x
      intro s a; unfold loseStoresLogged; dsimp only
      split
      · rfl
      · unfold logState loseStores modCore; rw [h4, h1]
    have hcp : ∀ (l : List Nat) (x : State), g (l.foldl (fun s k => if cpState k s = 0 then setCp k 1 s else s) x) = g x := by
      intro l x
      exact foldl_keeps (fun s k => if cpState k s = 0 then setCp k 1 s else s) g (by intro s a; split; exact h2 _ _ _; rfl) l x
    unfold moduleCheckstop
    split
    · rfl
    · dsimp only
      rw [h5, hcp, hon]
      unfold loseCaches
      dsimp only
      rw [h3, hon, hls]
  refine ⟨?_, ?_, ?_, ?_, ?_, ?_⟩ <;> (apply h <;> intros <;> rfl)

/-- A single due step of a UE-module event is a module checkstop, and nothing is due after it. -/
theorem settleDue_module (n : Nat) (s : State) (d : DueStep) (hd : s.flt.due = [d]) (hc : s.flt.checkstop = false) (h1 : ¬ d.src < 2 ^ 24)
    (h3 : d.step = 3) : settleDue (n + 1) s = moduleCheckstop { s with flt := { s.flt with due := [] } } := by
  unfold settleDue
  simp only [hd]
  unfold dueStep
  rw [if_neg (by simp [hc]), if_neg h1, if_pos h3]
  exact settleDue_quiet n (moduleCheckstop_flt _).2.2.1

end Sys2Proof.Machine
end

