-- ==== Sys2Proof/WellFormed.lean ====
section
/-! DEFINITION. Which commands are well formed: every operand lies in the range that the spec gives what it names. A command that is not
well formed names a core, port, subchannel or the like that the module does not have. -/

namespace Sys2Proof

/-- Ranges of what operands name (00_scope R2, R3; 01_overview R12 to R19; 13 R284; 16 R366). -/
def coreOk (l : Nat) : Bool := decide (l < 192)
def partIdOk (p : Nat) : Bool := decide (p < 48)
def armPortOk (p : Nat) : Bool := decide (p < 8)
def portOk : PortId → Bool
  | .arm p => decide (p < 8)
  | .ch n => decide (n < 12)
def discoPortOk (p : Nat) : Bool := decide (p < 20)
def nodeOk (n : Nat) : Bool := decide (n < 64)
def subchOk (i : Nat) : Bool := decide (i < 262144)
def dramOk (n : Nat) : Bool := decide (n < 16)
def eccOk (e : EccErr) : Bool := e.all (fun d => decide (d < 10))
def engineOk (k : Nat) : Bool := decide (k < 8)
def hubOk (h : Nat) : Bool := decide (h < 2)
def sourceOk (i : Nat) : Bool := decide (i < 512)
def storeOk (n : Nat) : Bool := decide (n < 30)
def slotOk (n : Nat) : Bool := decide (n < 204)
def flitLen (b : List Byte) : Bool := b.length == 256
def fnOk (fn : Nat) : Bool := decide (fn < 2)
def tagOk (t : Nat) : Bool := decide (t < 1024)

/-- The queue of a block (17 R400, 19 R436, 24 R536). -/
def queueOk : QBlock → Nat → Bool
  | .mailbox, q => decide (q < 64)
  | _, q => decide (q < 256)

/-- A view: the partition of a partition's. -/
def viewOk : View → Bool
  | .part p => partIdOk p
  | _ => true

/-- A scope of a grant. -/
def scopeOk : Scope → Bool
  | .module => true
  | .partition p => partIdOk p

/-- Lanes of a port. -/
def lanesOk (p : PortId) (ls : List Nat) : Bool :=
  match p with
  | .arm _ => ls.all (fun l => decide (l < 8))
  | .ch _ => ls.all (fun l => decide (l < 4))

/-- A message of the Armature (14 R303): nodes, tag and address. -/
def msgOk (m : Msg) : Bool := armPortOk m.via && nodeOk m.dest && nodeOk m.src && decide (m.kind < 256) && decide (m.tag < 65536) && decide (m.addr < 2 ^ 64)

/-- An advertisement (14 R313). -/
def advOk (a : Adv) : Bool := nodeOk a.node && decide (a.fstate < 3) && decide (a.torState < 5) && a.extents.all nodeOk && a.ports.length == 8

/-- A DATA frame (15 R356): a subchannel, a device and bytes of one frame. -/
def dataOk (f : DataFrame) : Bool := nodeOk f.origin && subchOk f.subch && decide (f.dev < 65536)

/-- A STATUS frame (15 R356). -/
def statusOk (f : StatusFrame) : Bool := nodeOk f.origin && subchOk f.subch && decide (f.dev < 65536)

/-- A DRAM access within one line (12 R263, R268). -/
def dramReqOk (r : DramReq) : Bool :=
  decide (0 < r.len) && decide (r.pa % 128 + r.len ≤ 128) && (match r.write with | some b => b.length == r.len | none => true) && r.part.all partIdOk && eccOk r.err && eccOk r.err1

/-- Well-formed commands. -/
def Instr.wf : Instr → Bool
  | .issueGroup l failed => coreOk l && decide (failed ≤ 4)
  | .waitevDeadline l => coreOk l
  | .storeBufferPerform l idx _ _ => coreOk l && decide (idx < 48)
  | .externalInterruption l => coreOk l
  | .ioInterruption l => coreOk l
  | .machineCheck l => coreOk l
  | .torComparatorFire l n => coreOk l && decide (n < 4)
  | .ppsEdge => true
  | .todFrame _ => true
  | .refLoss => true
  | .timeExchange p _ _ => armPortOk p
  | .refDisable v _ => viewOk v
  | .fabricDisable v _ => viewOk v
  | .heldWriteRelease i => subchOk i
  | .loadFull v => viewOk v
  | .loadPartial v => viewOk v
  | .storeA v => viewOk v
  | .storeB v => viewOk v
  | .plinthChecksComplete _ => true
  | .applyingEnd => true
  | .start v p => viewOk v && partIdOk p
  | .stop v p => viewOk v && partIdOk p
  | .partitionStopped p => partIdOk p
  | .partReset v p => viewOk v && partIdOk p
  | .moduleReset v => viewOk v
  | .coldReset c => (match c with | .command v => viewOk v | _ => true)
  | .resetN _ => true
  | .bringupStepComplete fs => fs.all slotOk
  | .governorEpoch r => r.sensors.length == 60 && r.dimms.length == 32
  | .recast v l => viewOk v && coreOk l
  | .recastSequence l _ => coreOk l
  | .recastComplete l _ _ _ => coreOk l
  | .dramRequest r => dramReqOk r
  | .refreshTick n => dramOk n
  | .refreshIdle n => dramOk n
  | .recentre low => low.all dramOk
  | .patrolScrub n err => dramOk n && eccOk err.1 && eccOk err.2
  | .speed v n arg => viewOk v && dramOk n && decide (arg < 4)
  | .trainingComplete rs => rs.length == 16
  | .caParityAlert n => dramOk n
  | .flitReceive p flit _ => portOk p && flitLen flit
  | .nakRepeat p => portOk p
  | .replayTimeout p => portOk p
  | .alignmentSlot p a b => portOk p && lanesOk p a && lanesOk p b
  | .laneSignalDetect p ls => portOk p && lanesOk p ls
  | .equaliseComplete p ls => portOk p && lanesOk p (ls.map (·.lane))
  | .alignComplete p _ => portOk p
  | .linkInitFlit p _ _ bs => portOk p && decide (bs.length ≤ 8)
  | .linkStateTimeout p => portOk p
  | .recoveryComplete p ls _ => portOk p && lanesOk p (ls.map (·.lane))
  | .downExpiry p => portOk p
  | .widthFlit p _ => portOk p
  | .widthFlitRepeat p => portOk p
  | .linkKeyRotation p => portOk p
  | .keyPhaseErase p => portOk p
  | .linkDisable v p _ => viewOk v && portOk p
  | .retrain v p => viewOk v && portOk p
  | .cntClr v p => viewOk v && portOk p
  | .laneOff v p _ => viewOk v && portOk p
  | .laneRetry v p _ => viewOk v && portOk p
  | .hello p version _ node mode peerPort nonce =>
      discoPortOk p && decide (version < 65536) && decide (node < 256) && decide (mode < 256) && decide (peerPort < 8) && nonce.length == 32
  | .identity p _ owner _ => discoPortOk p && owner.length == 48
  | .kemOffer p _ _ => discoPortOk p
  | .kemReply p _ _ => discoPortOk p
  | .confirm p mac => discoPortOk p && mac.length == 48
  | .nodeIdClaim => true
  | .alone => true
  | .linkStateAdvertisement p a => armPortOk p && advOk a
  | .memberTimeout node => nodeOk node
  | .epochAnnounce _ => true
  | .routeEpochSwitch => true
  | .routeTableRetire => true
  | .msgRead m => msgOk m
  | .msgReadOwn m => msgOk m
  | .msgUpgrade m => msgOk m
  | .msgWriteback m => msgOk m
  | .msgUncached m => msgOk m
  | .msgSnoop m => msgOk m
  | .msgData m => msgOk m
  | .msgDone m => msgOk m
  | .messageResend tag => decide (tag < 65536)
  | .requestUnreachable tag => decide (tag < 65536)
  | .snoopTimeout _ => true
  | .leave v => viewOk v
  | .rejoin v => viewOk v
  | .removeReqN _ => true
  | .enterLeft => true
  | .cpTake hub => hubOk hub
  | .priorityAging i => subchOk i
  | .waitTorExpiry i => subchOk i
  | .dataFrame n f => decide (n < 12) && dataOk f
  | .statusFrame n f => decide (n < 12) && statusOk f
  | .haltTimeout i => subchOk i
  | .csSubchWrite v i _ => viewOk v && subchOk i
  | .mirror m => msgOk m
  | .mirrorAck m => msgOk m
  | .mirrorTimeout i => subchOk i
  | .pairingExchange info => info.roles.length == 12
  | .resyncComplete => true
  | .latClr v => viewOk v
  | .subchCopy rx => rx.all (fun e => subchOk e.1)
  | .heartbeatSend => true
  | .heartbeat _ _ _ => true
  | .heartbeatMiss _ => true
  | .holddownExpiry => true
  | .failbackNow v => viewOk v
  | .enable v b q => viewOk v && queueOk b q
  | .disable v b q => viewOk v && queueOk b q
  | .resume v b q => viewOk v && queueOk b q
  | .queueDoorbell v b q _ => viewOk v && queueOk b q
  | .compress k => engineOk k
  | .decompress k => engineOk k
  | .raspJobComplete k _ => engineOk k
  | .encrypt k => engineOk k
  | .decrypt k => engineOk k
  | .macGen k => engineOk k
  | .macVerify k => engineOk k
  | .hash k => engineOk k
  | .kwWrap k => engineOk k
  | .kwUnwrap k => engineOk k
  | .genkey k => engineOk k
  | .unwrap k => engineOk k
  | .wrap k => engineOk k
  | .clear k => engineOk k
  | .urgentSuspend k => engineOk k
  | .intaglioRequestComplete k _ => engineOk k
  | .moduleReport v _ => viewOk v
  | .partitionReport v p _ => viewOk v && decide (p < 64)
  | .trPatt v n _ => viewOk v && partIdOk n
  | .attestationComplete which => which.all partIdOk
  | .entropyTestFail _ => true
  | .drbgReseed inst => inst.all partIdOk
  | .rekeyRequest src sc uuid => nodeOk src && scopeOk sc && uuid.length == 16
  | .rekeyAck src sc => nodeOk src && scopeOk sc
  | .boundaryScan _ => true
  | .hostWindowRead _ addr len => decide (addr < 2 ^ 40) && decide (0 < len) && decide (len ≤ 4096)
  | .hostWindowWrite _ addr data _ => decide (addr < 2 ^ 40) && decide (0 < data.length) && decide (data.length ≤ 512)
  | .hostCompletion tag _ _ => tagOk tag
  | .completionTimeout tag => tagOk tag
  | .commit v _ => viewOk v
  | .claim v kind q => viewOk v && decide (kind < 4) && decide (q < 64)
  | .qpRelease v q => viewOk v && decide (q < 64)
  | .mailboxInbound q => decide (q < 64)
  | .mailboxOutbound q => decide (q < 64)
  | .flr fn => fnOk fn
  | .perstN _ => true
  | .hotReset => true
  | .busMasterEnable fn _ => fnOk fn
  | .faultEvent src _ part _ _ => sourceOk src && part.all partIdOk
  | .reportingPathFault die _ _ part => decide (die < 6) && part.all partIdOk
  | .graceExpiry src => sourceOk src
  | .pendingClear v src _ => viewOk v && sourceOk src
  | .patinaClear v first last => viewOk v && decide (first < 4096) && decide (last < 4096)
  | .unfence v src => viewOk v && sourceOk src
  | .patinaSnapshot => true
  | .errNPulseEnd => true
  | .csStoreA v _ => viewOk v
  | .csStoreB v _ => viewOk v
  | .csScrub n => storeOk n
  | .csRepairDone n _ _ => storeOk n
  | .inject v _ => viewOk v
  | .feedSwitch _ _ => true
  | .feedReturn _ _ => true
  | .feedLoss _ _ => true
  | .thermtrip sensor => decide (sensor < 60)
  | .hotInsertion _ => true
  | .prsntDeassert => true
  | .clockLoss _ => true
  | .smb4ReadWord code => decide (code < 256)
  | .mqId _ => true
  | .mqTor _ => true
  | .mqPatina _ _ _ => true
  | .mqFlt _ _ => true
  | .mqPlinth _ => true
  | .mqJnl _ _ => true
  | .mqLink _ p => p.all portOk
  | .mqBaud _ _ => true
  | .baudTimeout => true
  | .mqGrant _ sc _ => scopeOk sc
  | .tokenLine _ line => decide (line.length ≤ 256)
  | .mqRelease _ => true
  | .grantExpiry _ => true
  | .mqMemR _ _ _ => true
  | .mqMemW _ _ _ => true
  | .mqCoreHalt _ l => coreOk l
  | .mqCoreStep _ l => coreOk l
  | .mqCoreRun _ l => coreOk l
  | .mqCoreRegs _ l => coreOk l
  | .mqRecast _ l => coreOk l
  | .mailboxLine => true
  | .registerWrite v off _ => viewOk v && decide (off < 2 ^ 32)
  | .laneRetryComplete p l => portOk p && lanesOk p [l.lane]
  | .laneLockLoss p lane => portOk p && lanesOk p [lane]
  | .grantDestructionTimeout => true
  | .hostLinkTrained width rate _ => decide (width < 4) && decide (rate < 8)
  | .functionResetComplete fn => fnOk fn
  | .vkaLoss => true
  | .feedGoodChange _ _ _ => true
  | .clockReturn _ => true
  | .mqRxCharacter _ => true
  | .hostConfigRequest fn _ _ => fnOk fn

end Sys2Proof
end

