-- ==== Sys2Proof/Tests/Slice0.lean ====
section
/-! SUPPORT. Tests: terms that are not well formed, examples of the manual, and for each statement states and operands that meet its hypotheses. -/

open Sys2Proof Sys2Proof.Machine

namespace Sys2Proof.Tests

set_option Elab.async false

/-- The manual's example of a dispatch, and the faults of a return stack (23 R514). -/
theorem test_sequencer : seqNext 16384 (4 * 2 ^ 124 + 0x1200 * 2 ^ 101 + 6 * 2 ^ 97) 7 false 0x13 [] = .at 0x1213 [] ∧
    seqNext 16384 (5 * 2 ^ 124 + 9 * 2 ^ 101) 7 false 0 (List.replicate 8 0) = .fault ∧ seqNext 16384 (5 * 2 ^ 124 + 9 * 2 ^ 101) 7 false 0 [3] = .at 9 [8, 3] ∧
    seqNext 16384 (6 * 2 ^ 124) 7 false 0 [] = .fault ∧ seqNext 16384 (8 * 2 ^ 124) 7 false 0 [] = .fault ∧ seqNext 16384 0 16383 false 0 [] = .fault := by decide

/-! ### Ill-formed terms, for each check -/

def msg0 : Msg := { via := 0, vc := 1, dest := 0, src := 0, kind := 2, tag := 0, epoch := false, resent := false, addr := 0, body := [] }
def adv0 : Adv := { node := 1, serial := 7, seq := 1, fstate := 1, torState := 0, refHeld := false, ineligible := false, extents := [1], ports := List.replicate 8 ⟨false, 0, 0, 0⟩ }
def frame0 : DataFrame := { origin := 0, subch := 0, dev := 0, seq := 0, ordinal := 0, offset := 0, last := false, data := [] }
def status0 : StatusFrame := { origin := 0, subch := 0, dev := 0, seq := 0, ordinal := 0, devStatus := 0, final := true, stale := false, residual := 0 }
def dram0 : DramReq := { pa := 0, len := 64, write := none, poisoned := false, err := [], err1 := [], part := none }

theorem test_wf_cores : (Instr.issueGroup 192 0).wf = false ∧ (Instr.issueGroup 0 5).wf = false ∧ (Instr.waitevDeadline 192).wf = false ∧
    (Instr.storeBufferPerform 0 48 true false).wf = false ∧ (Instr.torComparatorFire 0 4).wf = false ∧ (Instr.recast .service 192).wf = false ∧
    (Instr.mqCoreRegs .uart 192).wf = false ∧ (Instr.issueGroup 191 4).wf = true := by decide

theorem test_wf_views_and_partitions : (Instr.start (.part 48) 0).wf = false ∧ (Instr.start .service 48).wf = false ∧ (Instr.coldReset (.command (.part 48))).wf = false ∧
    (Instr.partitionReport .service 64 0).wf = false ∧ (Instr.trPatt .service 48 0).wf = false ∧ (Instr.attestationComplete (some 48)).wf = false ∧
    (Instr.faultEvent 512 3 none 0 false).wf = false ∧ (Instr.faultEvent 0 3 (some 48) 0 false).wf = false ∧ (Instr.reportingPathFault 6 0 3 none).wf = false ∧
    (Instr.start (.part 47) 47).wf = true := by decide

theorem test_wf_ports_and_lanes : (Instr.nakRepeat (.arm 8)).wf = false ∧ (Instr.nakRepeat (.ch 12)).wf = false ∧ (Instr.timeExchange 8 0 0).wf = false ∧
    (Instr.laneSignalDetect (.arm 0) [8]).wf = false ∧ (Instr.laneSignalDetect (.ch 0) [4]).wf = false ∧ (Instr.flitReceive (.arm 0) [] []).wf = false ∧
    (Instr.linkInitFlit (.arm 0) true 0 (List.replicate 9 0)).wf = false ∧ (Instr.kemOffer 20 [] []).wf = false ∧ (Instr.hello 0 65536 0 0 0 0 []).wf = false ∧
    (Instr.identity 0 [] [] []).wf = false ∧ (Instr.confirm 0 []).wf = false ∧ (Instr.mqLink .uart (some (.arm 8))).wf = false ∧ (Instr.laneSignalDetect (.ch 11) [3]).wf = true := by decide

theorem test_wf_messages : (Instr.msgRead { msg0 with via := 8 }).wf = false ∧ (Instr.msgRead { msg0 with dest := 64 }).wf = false ∧ (Instr.msgRead { msg0 with src := 64 }).wf = false ∧
    (Instr.msgRead { msg0 with kind := 256 }).wf = false ∧ (Instr.msgRead { msg0 with tag := 65536 }).wf = false ∧ (Instr.msgRead { msg0 with addr := 2 ^ 64 }).wf = false ∧
    (Instr.msgRead msg0).wf = true := by decide

theorem test_wf_fabric : (Instr.linkStateAdvertisement 0 { adv0 with node := 64 }).wf = false ∧ (Instr.linkStateAdvertisement 0 { adv0 with fstate := 3 }).wf = false ∧
    (Instr.linkStateAdvertisement 0 { adv0 with torState := 5 }).wf = false ∧ (Instr.linkStateAdvertisement 0 { adv0 with extents := [64] }).wf = false ∧
    (Instr.linkStateAdvertisement 0 { adv0 with ports := [] }).wf = false ∧ (Instr.memberTimeout 64).wf = false ∧ (Instr.messageResend 65536).wf = false ∧
    (Instr.rekeyRequest 64 .module []).wf = false ∧ (Instr.rekeyRequest 0 (.partition 48) (List.replicate 16 0)).wf = false ∧ (Instr.linkStateAdvertisement 0 adv0).wf = true := by decide

theorem test_wf_channels : (Instr.cpTake 2).wf = false ∧ (Instr.priorityAging 262144).wf = false ∧ (Instr.dataFrame 12 frame0).wf = false ∧
    (Instr.dataFrame 0 { frame0 with origin := 64 }).wf = false ∧ (Instr.dataFrame 0 { frame0 with subch := 262144 }).wf = false ∧
    (Instr.dataFrame 0 { frame0 with dev := 65536 }).wf = false ∧ (Instr.statusFrame 0 { status0 with origin := 64 }).wf = false ∧
    (Instr.statusFrame 0 { status0 with subch := 262144 }).wf = false ∧ (Instr.statusFrame 0 { status0 with dev := 65536 }).wf = false ∧
    (Instr.pairingExchange ⟨true, [], [], false⟩).wf = false ∧ (Instr.subchCopy (some (262144, 0))).wf = false ∧ (Instr.statusFrame 11 status0).wf = true := by decide

theorem test_wf_dram : (Instr.dramRequest { dram0 with len := 0 }).wf = false ∧ (Instr.dramRequest { dram0 with pa := 100 }).wf = false ∧
    (Instr.dramRequest { dram0 with write := some [] }).wf = false ∧ (Instr.dramRequest { dram0 with part := some 48 }).wf = false ∧ (Instr.refreshTick 16).wf = false ∧
    (Instr.recentre [16]).wf = false ∧ (Instr.speed .service 0 4).wf = false ∧ (Instr.trainingComplete []).wf = false ∧ (Instr.dramRequest dram0).wf = true := by decide

theorem test_wf_engines_and_queues : (Instr.compress 8).wf = false ∧ (Instr.enable .pf1 .mailbox 64).wf = false ∧ (Instr.enable .service .rasp 256).wf = false ∧
    (Instr.claim (.part 0) 4 0).wf = false ∧ (Instr.claim (.part 0) 1 64).wf = false ∧ (Instr.mailboxInbound 64).wf = false ∧ (Instr.enable .service .rasp 255).wf = true := by decide

theorem test_wf_host : (Instr.hostWindowRead .pf1 (2 ^ 40) 4).wf = false ∧ (Instr.hostWindowRead .pf1 0 0).wf = false ∧ (Instr.hostWindowRead .pf1 0 4097).wf = false ∧
    (Instr.hostWindowWrite .pf1 0 [] false).wf = false ∧ (Instr.hostCompletion 1024 [] false).wf = false ∧ (Instr.flr 2).wf = false ∧
    (Instr.hostWindowRead .pf1 0 4096).wf = true := by decide

theorem test_wf_service : (Instr.csScrub 30).wf = false ∧ (Instr.bringupStepComplete [204]).wf = false ∧ (Instr.governorEpoch ⟨[], [], 0⟩).wf = false ∧
    (Instr.thermtrip 60).wf = false ∧ (Instr.smb4ReadWord 256).wf = false ∧ (Instr.patinaClear .pf0 4096 0).wf = false ∧
    (Instr.tokenLine .uart (List.replicate 257 0)).wf = false ∧ (Instr.mqGrant .uart (.partition 48) none).wf = false ∧
    (Instr.registerWrite .service (2 ^ 32) 0).wf = false ∧ (Instr.csScrub 29).wf = true := by decide +kernel

/-! ### States that meet the hypotheses of the statements -/

def st : State := State.reset
def fltSt (i : Nat) (f : FltStatus) : State := setFlt i f st
def torSt (f : TorS → TorS) : State := { st with tor := f st.tor }

theorem test_front_command : ({ st with pending := [.ppsEdge, .refLoss] } : State).pending = .ppsEdge :: [.refLoss] := rfl

theorem test_empty_queue : st.pending = [] ∧ keepAlive st = true ∧ keepAlive { st with pwr := { st.pwr with on := false } } = false := by decide +kernel

theorem test_tick_counts : (match step st with | .next t => t.tor.tor | _ => 0) = 1 := by decide +kernel

theorem test_settled_step : Safety.settled st ∧ ∃ t, step st = .next t := ⟨rfl, _, rfl⟩

theorem test_checkstop_hypotheses : Safety.settled { st with flt := { st.flt with checkstop := true } } ∧ Safety.stopsWithModule (.cpTake 0) = true ∧
    Safety.stopsWithModule (.moduleReset .service) = false := by
  constructorm* _ ∧ _ <;> first | decide +kernel | rfl

theorem test_fault_event_hypotheses : Safety.settled st ∧ operating st = true ∧ isSource 0x14D = true ∧ eventClass 0x05 ≤ 1 ∧ (fltStatus 0x14D st).pending = false ∧
    fld (reactOf 0x14D st) 57 56 = 0 ∧ lbit (reactOf 0x14D st) 60 = false := by
  constructorm* _ ∧ _ <;> first | decide +kernel | rfl

theorem test_fault_event_pin : lbit (reactOf 0x14D { st with flt := { st.flt with react := [(0x14D, 0xF000000000000000)] } }) 60 = true ∧
    fld (reactOf 0x14D { st with flt := { st.flt with react := [(0x14D, 0xF000000000000000)] } }) 57 56 = 0 := by decide +kernel

theorem test_reporting_hypotheses : srcDie 5 = 0x166 ∧ isSource 0xCB = true ∧ 0xCB ≠ srcDie 5 ∧ fld (reactOf 0xCB st) 57 56 = 0 ∧ fld (reactOf (srcDie 5) st) 57 56 = 0 := by
  decide +kernel

theorem test_clear_hypotheses : powered (fltSt 0x14D { pending := true, cls := 1 }) = true ∧ mayClear .service 0x14D (fltSt 0x14D { pending := true, cls := 1 }) = true ∧
    (fltStatus 0x14D (fltSt 0x14D { pending := true, cls := 1 })).pending = true ∧ (fltStatus 0x14D (fltSt 0x14D { pending := true, holds := true })).holds = true ∧
    mayClear (.part 3) 0x14D (fltSt 0x14D { pending := true, part := 4 }) = false ∧ mayClear (.part 4) 0x14D (fltSt 0x14D { pending := true, part := 4 }) = true ∧
    (fltStatus 0x14D (fltSt 0x14D { pending := true, cls := 1 })).cls ≠ 3 := by decide +kernel

/-- A source with reaction entry 0xF500_0000_0000_0000: LOG, NOTE_SC, MC_PART, PIN, chain 1 to 1; and one with the chain 3 to 3. -/
def chainSt (r : Long) (f : FltStatus) : State := { fltSt 0x159 f with flt := { (fltSt 0x159 f).flt with react := [(0x159, r)] } }

theorem test_grace_hypotheses : Safety.settled (chainSt 0xFF00000000000000 { pending := true, timer := some 0 }) ∧
    operating (chainSt 0xFF00000000000000 { pending := true, timer := some 0 }) = true ∧
    0 + fld (reactOf 0x159 (chainSt 0xFF00000000000000 { pending := true, timer := some 0 })) 55 32 * 4000 ≤ (chainSt 0xFF00000000000000 { pending := true, timer := some 0 }).tor.tor ∧
    nextStep 0x159 (chainSt 0xFF00000000000000 { pending := true, timer := some 0 }) = some 3 ∧
    nextStep 0x159 (chainSt 0xFF00000000000000 { pending := true, timer := some 0, step := 3 }) = none := by
  constructorm* _ ∧ _ <;> first | decide +kernel | rfl

theorem test_partition_checkstop_hypotheses : pstateOf 0 (setPState 0 .running st) ≠ .undefined := by decide +kernel

theorem test_unfence_hypotheses : admin .service st = true ∧ (fltStatus 0x148 st).fenced = false ∧ (fltStatus 0x148 (fltSt 0x148 { fenced := true })).fenced = true ∧
    (fltStatus 0x148 (fltSt 0x148 { fenced := true })).pending = false ∧ 0x148 = 0x148 + 0 ∧ (fltStatus 0x157 (fltSt 0x157 { fenced := true })).fenced = true ∧
    (fltStatus 0x157 (fltSt 0x157 { fenced := true })).pending = false ∧ 0x157 = 0x150 + 7 ∧ (fltStatus 0x148 (fltSt 0x148 { pending := true })).pending = true := by decide +kernel

theorem test_patina_hypotheses : admin .pf0 st = true ∧ powered st = true ∧ 0 ≤ 0x29E ∧ ¬(View.service = .pf0 ∧ 0 ≤ 0 ∧ 0 ≤ 0x29E) ∧
    (torSt (fun t => { t with tor := 4000000000 })).tor.tor % 4000000000 = 0 ∧ (torSt (fun t => { t with tor := 4000000000 })).flt.snapTor ≠ 4000000000 ∧
    ({ st with flt := { st.flt with pulseEnd := some 0 } } : State).flt.pulseEnd = some 0 := by decide +kernel

/-- The timecode frame of 03, "Time code": SECONDS 946,771,200 (03 R61). -/
def frameOf (sec : Nat) : List Byte :=
  let b := beBytes 2 0xA55A ++ beBytes 1 1 ++ beBytes 8 sec
  b ++ beBytes 2 (crc16 b)

theorem test_reference_hypotheses : (frameOf 946771200).length = 13 ∧ natAt (frameOf 946771200) 0 2 = 0xA55A ∧ natAt (frameOf 946771200) 2 1 = 1 ∧
    natAt (frameOf 946771200) 11 2 = crc16 ((frameOf 946771200).take 11) ∧ natAt (frameOf 946771200) 3 8 = 946771200 ∧
    (torSt (fun t => { t with edgeSeen := some 0, tor := 40000000 })).tor.lastEdge = none ∧ (torSt (fun t => { t with edgeSeen := some 0, tor := 40000000 })).tor.edgeSeen = some 0 ∧
    0 + 40000000 ≤ (torSt (fun t => { t with edgeSeen := some 0, tor := 40000000 })).tor.tor ∧ ([] : List Byte).length ≠ 13 := by decide +kernel

/-- The third edge of an acquisition, at second 2 of TOR. -/
def edgeSt : State := torSt (fun t => { t with lastEdge := some (4000000000, 1), goodEdges := 2, named := some 2, tor := 8000000000, fabricDisable := true, window := false })

theorem test_third_edge_hypotheses : Safety.settled edgeSt ∧ powered edgeSt = true ∧ edgeSt.tor.refDisable = false ∧ edgeSt.tor.refHeld = false ∧ edgeSt.tor.goodEdges = 2 ∧
    edgeSt.tor.named = some (1 + 1) ∧ 4000000000 + 3999920000 ≤ edgeSt.tor.tor ∧ edgeSt.tor.tor ≤ 4000000000 + 4000080000 ∧ edgeSt.tor.state = .unreferenced ∧
    edgeSt.arm.node = none ∧ (1 + 1) * 4000000000 ≤ edgeSt.tor.tor + 400 ∧ edgeSt.tor.tor ≤ (1 + 1) * 4000000000 + 400 := by
  constructorm* _ ∧ _ <;> first | decide +kernel | rfl

theorem test_unnamed_edge_hypotheses : st.tor.refDisable = false ∧ st.tor.refHeld = false ∧ st.tor.named = none := by decide +kernel

/-- A module LOCKED to its reference, whose last edge was at TOR 0. -/
def lockedSt (now : Nat) : State := torSt (fun t => { t with refHeld := true, state := .locked, fabricDisable := true, lastEdge := some (0, 0), tor := now })

theorem test_reference_loss_hypotheses : (lockedSt 4000080000).tor.refHeld = true ∧ (lockedSt 4000080000).tor.state = .locked ∧ (lockedSt 4000080000).tor.fabricDisable = true ∧
    0 + 4000080000 ≤ (lockedSt 4000080000).tor.tor ∧ (lockedSt 0).tor.tor < 0 + 4000080000 ∧ admin .service st = true ∧ admin .pf1 st = false ∧ st.tor.master = none := by decide +kernel

/-- A follower on an ACTIVE Armature port. -/
def followSt : State :=
  { st with tor := { st.tor with master := some 2, window := false }, arm := { st.arm with node := some 1, fstate := 4 },
            armLink := [(0, { (linkOf (.arm 0) st) with state := 6 })] }

theorem test_time_exchange_hypotheses : Safety.settled followSt ∧ operating followSt = true ∧ portActive (.arm 0) followSt = true ∧ follows followSt = true ∧ followSt.tor.window = false := by
  constructorm* _ ∧ _ <;> first | decide +kernel | rfl

theorem test_comparator_hypotheses : lbit (coreOf 5 (setCore 5 { torctl := 1 } st)).torctl 0 = true ∧ (tget 0 0 (coreOf 5 (setCore 5 { torctl := 1 } st)).torcmp).toNat ≤ st.tor.tor ∧
    lbit (coreOf 5 st).torctl 0 = false := by decide +kernel


/-! Images, partitions, power (groups of 02 and 25). -/

def jobSt (state : PlnState) (j : PlnJob) : State := { st with pln := { st.pln with state := state, job := some j } }

theorem test_image_command_hypotheses : Safety.settled st ∧ admin .service st = true ∧ operating st = true ∧ st.pln.job = none ∧ st.pln.state = .noImage ∧
    ({ st with pln := { st.pln with state := .applied } } : State).pln.state ≠ .noImage := by
  constructorm* _ ∧ _ <;> first | decide +kernel | rfl

/-- An empty staging area fails the format check. -/
theorem test_bad_image_hypotheses : (jobSt .verifying ⟨3, [], none, .noImage, 0⟩).pln.state = .verifying ∧ checkImage false [] (jobSt .verifying ⟨3, [], none, .noImage, 0⟩) = .inl 1 := by decide +kernel

/-- A partial image of routes alone. -/
def routesImage : PlnImage := { isPartial := true, rotate := false, serial := 0, generation := 7, buildTor := 0, mod_ := none, parts := [], routes := some [], sigs := [], signed := [] }

/-- Partition 3 of cores 5 and 6. -/
def part3 : PlnPart := { id := 3, pflags := 0, torCmp := 0, uuid := [], name := [], coreMap := 0x60, cacheWays := 1, chPorts := 0, subchBase := 0, subchCount := 16, keyBase := 0, keyCount := 16, hostPerm := 0, clkMin := 1000, clkMax := 4400, extents := [] }

def partSt (p : PState) (f : State → State := id) : State := setPState 3 p (f { st with pln := { st.pln with parts := [(3, part3)], state := .applied } })

theorem test_applying_hypotheses : Safety.settled (jobSt .applying ⟨2, [], some routesImage, .applied, 5⟩) ∧ operating (jobSt .applying ⟨2, [], some routesImage, .applied, 5⟩) = true ∧
    (jobSt .applying ⟨2, [], some routesImage, .applied, 5⟩).dx.state ≠ 6 := by
  constructorm* _ ∧ _ <;> first | decide +kernel | rfl

theorem test_applying_waits_hypothesis : ([part3].all (fun d => ownQueuesIdle d.id { st with eng := { st.eng with rq := [(77, { state := 1 })] } })) = false := by decide +kernel

theorem test_section_hypotheses : partOf part3.id st = none ∧ isDelete part3 = false ∧ homedHere part3 st = false ∧ partOf 3 (partSt .stopped) = some part3 ∧
    isDelete { part3 with pflags := 1 } = true := by decide +kernel

theorem test_partition_hypotheses : coresOf 3 (partSt .stopped) = [5, 6] ∧ Safety.settled (partSt .running) ∧ operating (partSt .running) = true ∧ admin .service (partSt .running) = true ∧
    plnBusy (partSt .stopped) = false ∧ pstateOf 3 (partSt .stopped) = .stopped ∧ ¬(iplValid (partSt .stopped) = true ∧ iplPart (partSt .stopped) = 3) ∧
    (∀ l ∈ coresOf 3 (partSt .stopped), (coreOf l (partSt .stopped)).sb = [] ∧ (coreOf l (partSt .stopped)).wc = [] ∧ recState l (partSt .stopped) = 0) ∧
    plnBusy (jobSt .applying ⟨2, [], some routesImage, .applied, 5⟩) = true ∧ pstateOf 3 (partSt .checkstopped) = .checkstopped := by
  constructorm* _ ∧ _ <;> first | decide +kernel | rfl

/-- Partition 3 with its two cores running, and with both at rest. -/
def runSt (p : PState) (r : CoreRun) : State := partSt p (fun s => setCore 5 { run := r } (setCore 6 { run := r } s))

theorem test_stop_hypotheses : pstateOf 3 (runSt .running .running) = .running ∧ plnBusy (runSt .running .running) = false ∧
    (∀ l ∈ coresOf 3 (runSt .running .running), (coreOf l (runSt .running .running)).sb = [] ∧ (coreOf l (runSt .running .running)).wc = [] ∧
      midGroup (coreOf l (runSt .running .running)) = false ∧ recState l (runSt .running .running) = 0 ∧ (coreOf l (runSt .running .running)).run = .running) := by decide +kernel

theorem test_stopping_hypotheses : pstateOf 3 (runSt .stopping .stopped) = .stopping ∧ (∀ l ∈ coresOf 3 (runSt .stopping .stopped), atRest l (runSt .stopping .stopped) = true) ∧
    subsIdle 3 (runSt .stopping .stopped) = true ∧ (∃ l ∈ coresOf 3 (runSt .stopping .running), (coreOf l (runSt .stopping .running)).run = .running) := by decide +kernel

theorem test_module_reset_hypotheses : powered { st with flt := { st.flt with checkstop := true } } = true ∧ st.tr.scanHeld = false ∧ st.tor.master = none ∧
    admin .service { st with flt := { st.flt with checkstop := true } } = true ∧ st.pin.prsnt = true ∧ st.pin.resetLow = false := by decide +kernel

def offSt (f : Power → Power := id) : State := { st with pwr := f { st.pwr with on := false } }

theorem test_cold_reset_hypotheses : admin .pf0 st = true ∧ powered st = true ∧ feedBoot { offSt with pwr := { (offSt).pwr with aOk := true } } = true ∧
    ({ st with tor := { st.tor with keptValid := true } } : State).tor.keptValid = true := by decide +kernel

/-- A phase of bring-up, with both firmware copies of the flash empty. -/
def phaseSt (p : Phase) : State := { st with pwr := { st.pwr with phase := p }, cs := { st.cs with flash := [(0, some []), (8, some [])] } }

theorem test_bringup_hypotheses : st.pin.resetLow = false ∧ st.pin.sysLost = false ∧ chooseImage 0 (phaseSt .firmware) = .inl 1 ∧ operating (phaseSt .firmware) = true ∧
    (∀ n, n < 16 → (dramOf n (phaseSt .dram)).state ≠ 1) ∧ (dramOf 4 (setDram 4 { state := 1 } (phaseSt .dram))).state = 1 ∧ st.pln.module_ = none ∧ st.pln.job = none ∧
    (phaseSt .fabric).pwr.phase = .fabric ∧ (phaseSt .journal).pwr.phase = .journal := by decide +kernel

theorem test_governor_hypotheses : governorDue { torSt (fun t => { t with tor := 40000000 }) with pwr := { st.pwr with phase := .ready } } = true ∧ governorDue st = false ∧ (380 : Int) ≤ 380 ∧ st.pwr.throttle = false ∧
    noneApplied st = true ∧ st.pwr.hot = [] ∧ (∀ p ∈ allPorts, portActive p st = false) ∧ (∀ n, n < 16 → (dramOf n (setDram 0 {} st)).state ≠ 2) ∧
    st.flt.snapTor = st.pwr.lastSnap ∧ st.arm.removeReq = false := by decide +kernel

theorem test_throttle_hypotheses : 400 ≤ reading ⟨List.replicate 60 (some 400), [], 0⟩ 3 ∧ 400 ≤ reading ⟨List.replicate 60 none, [], 0⟩ 3 ∧
    (∀ n, n < 60 → reading ⟨List.replicate 60 (some 388), [], 0⟩ n ≤ 388) ∧ 388 < reading ⟨List.replicate 60 (some 389), [], 0⟩ 0 := by decide +kernel

theorem test_feed_hypotheses : feedGood 39999 = false ∧ feedGood 54000 = true ∧ st.pwr.srcB = false ∧ powered st = true ∧ fld (reactOf srcSupply st) 57 56 = 0 ∧
    (fltStatus srcSupply st).pending = false ∧ ({ st with pwr := { st.pwr with vkaOk := true } } : State).pwr.vkaOk = true ∧ (39999 : Nat) < 40000 := by decide +kernel

theorem test_power_off_hypotheses : Safety.settled (offSt (fun p => { p with aOk := false, bOk := false })) ∧
    (offSt (fun p => { p with aOk := false, bOk := false, tripped := true, below20 := some 0 })).pwr.below20 = some 0 ∧ powered offSt = false ∧
    ({ offSt with pin := { offSt.pin with prsnt := false }, pwr := { offSt.pwr with aOk := true, tripped := false } } : State).pwr.tripped = false := by
  constructorm* _ ∧ _ <;> first | decide +kernel | rfl

theorem test_clock_hypotheses : st.pin.sysLost = false ∧ st.armLink = [] ∧ st.chLink = [] ∧ st.pin.sdsNLost = false ∧ st.pin.sdsSLost = false := by decide +kernel

/-! DRAM, Recast, cores and control stores (groups of 04 to 12, 20, 23). -/

/-- The example of 12, "Address interleaving": physical address 0x12_3456_7880 is on channel 12 at channel-local address 0x1_2345_6680 (12 R261). -/
theorem test_dram_example : channelOf 0x1234567880 st = 12 ∧ localOf 0x1234567880 st = 0x123456680 ∧ physAt 12 0x123456680 st = 0x1234567880 := by decide +kernel

/-- Sixteen controllers in a state, each with 1 GiB. -/
def dramSt (n : Nat) (s : State) : State := { s with dram := (List.range 16).map (fun i => (i, { state := n, capGiB := 1 })) }

theorem test_dram_hypotheses : Safety.settled (dramSt 2 st) ∧ operating (dramSt 2 st) = true ∧ (List.replicate 128 (0 : Byte)).length = 128 ∧ 0x1234500 % 128 = 0 ∧
    physKind 0x1234500 (dramSt 2 st) = .dram ∧ (dramOf (channelOf 0x1234500 st) (dramSt 2 st)).state = 2 ∧ (dramOf (channelOf 0x1234500 st) (dramSt 2 st)).paying = false ∧
    linePoisoned (ownAddr 0x1234500 (dramSt 2 st) / 128) (dramSt 2 st) = false ∧ fld (reactOf (srcDram 10) (dramSt 2 st)) 57 56 = 0 ∧
    (fltStatus (srcDram 10) (dramSt 2 st)).pending = false ∧ 0x1234500 % 64 + 64 ≤ 64 := by
  constructorm* _ ∧ _ <;> first | decide +kernel | rfl

/-- One rank of 16 Gb devices in one DIMM on each channel (12 R257). -/
def dimm16 : TrainResult := ⟨1, 32, 0, 1, true⟩

theorem test_maintenance_hypotheses : (dramOf 3 (dramSt 2 st)).debt < 4 ∧ (dramOf 3 (setDram 3 { state := 2, debt := 4 } st)).debt = 4 ∧
    (dramOf 3 (setDram 3 { state := 2, debt := 4 } st)).paying = false ∧ (dramOf 3 (setDram 3 { state := 2, debt := 5, paying := true } st)).paying = true ∧
    (dramOf 3 (dramSt 2 st)).pos + 1 < (dramOf 3 (dramSt 2 st)).capGiB * 2 ^ 23 ∧ noneApplied (dramSt 2 st) = true ∧
    noneApplied (dramSt 2 { st with pln := { st.pln with applied := true } }) = false ∧ (dramOf 3 (dramSt 1 st)).state = 1 ∧
    (∀ k, k < 16 → trained ((List.replicate 16 dimm16).getD k ⟨0, 0, 0, 0, false⟩) = true) ∧
    trained (([] : List TrainResult).getD 3 ⟨0, 0, 0, 0, false⟩) = false ∧ (dramOf 0 (setDram 0 { state := 1, speed := 1 } st)).speed = 1 ∧
    (dramOf 3 (setDram 3 { state := 2, replays := 3 } st)).replays = 3 := by decide +kernel

/-- The time of the next scrub and of the next re-centring. -/
def dueSt (now : Nat) : State := { dramSt 2 st with tor := { st.tor with tor := now } }

theorem test_period_hypotheses : (let s := dueSt (scrubTicks (dramOf 3 (dramSt 2 st)))
    (dramOf 3 s).scrubbed / scrubTicks (dramOf 3 s) ≠ s.tor.tor / scrubTicks (dramOf 3 s)) ∧ 0 < (dramOf 3 (dueSt 0)).capGiB ∧
    periodDue recentreTicks (dueSt recentreTicks).tor.centred (dueSt recentreTicks) = true := by decide +kernel

theorem test_recast_hypotheses : st.cpu.recBusy = false ∧ recState 5 st = 0 ∧ spareFree (5 / 16) st = true ∧ (coreOf 5 st).mqWait = none ∧ st.mq.recast = none ∧
    spareFree (5 / 16) (setRecast 0 (some ⟨6, .hard, false⟩) st) = false ∧ ({ st with cpu := { st.cpu with recBusy := true } } : State).cpu.recBusy = true := by decide +kernel

def recastSt : State := setRecast 0 (some ⟨5, .hard, false⟩) (setRec 5 1 st)

theorem test_recast_complete_hypotheses : Safety.settled recastSt ∧ recState 5 recastSt = 1 ∧ recastIn (5 / 16) recastSt = some ⟨5, .hard, false⟩ ∧
    (coreOf 5 recastSt).mqWait = none ∧ (coreOf 5 recastSt).sb = [] ∧ (coreOf 5 recastSt).wc = [] ∧ (coreOf 5 recastSt).mqHalt = false ∧ partOfCore 5 recastSt = none ∧
    fld (reactOf (srcSlot (slotOf 5 recastSt)) recastSt) 57 56 = 0 ∧ (fltStatus (srcSlot (slotOf 5 recastSt)) recastSt).pending = false := by
  constructorm* _ ∧ _ <;> first | decide +kernel | rfl

/-- Core 5 of partition 3, running in the first 2 MiB of storage, with the given bytes at real address 0. -/
def coreSt (b : List Byte) (f : Core → Core := id) : State :=
  let s := dramSt 2 (partSt .running)
  { s with pln := { s.pln with parts := [(3, some { part3 with extents := [{ real := 0, size := 0x200000, phys := 0, attr := 0 }] })] },
           sto := { s.sto with mem := (storeAll 0 b s).sto.mem }, cpu := { s.cpu with core := [(5, f { run := .running, g := [(6, 1), (7, 2)] })] } }

/-- ADD g5, g6, g7 with the stop bit: bit 31; UNIT 0; operation 0; RD 5 in 21:16, RA 6 in 15:10, RB 7 in 9:4, MOD 0 (04 R82; 05 R121). -/
def addWord : List Byte := [0x80, 0x05, 0x18, 0x70]

theorem test_group_hypotheses : (match fetchGroup 5 (coreOf 5 (coreSt addWord)).pc.toNat (coreSt addWord) with
    | .ok f s1 => decide (s1 = { coreSt addWord with cpu := s1.cpu, sto := s1.sto, free := s1.free }) &&
        decide (coreOf 5 s1 = { coreOf 5 (coreSt addWord) with l1i := (coreOf 5 s1).l1i, l1d := (coreOf 5 s1).l1d, l2 := (coreOf 5 s1).l2, dtlb := (coreOf 5 s1).dtlb, itlb := (coreOf 5 s1).itlb, tlb2 := (coreOf 5 s1).tlb2, walk := (coreOf 5 s1).walk }) &&
        decide (decodeGroup f.raw f.stop = .ops [.alu .add false 5 6 (.reg 7)]) && decide (f.next = 4)
    | _ => false) = true := by decide +kernel

theorem test_group_core_hypotheses : Safety.settled (coreSt addWord) ∧ coreLive 5 (coreSt addWord) = true ∧ coreHeld 5 (coreSt addWord) = false ∧ (coreOf 5 (coreSt addWord)).run = .running ∧
    condPending 5 (coreSt addWord) = false ∧ midGroup (coreOf 5 (coreSt addWord)) = false ∧ (coreOf 5 (coreSt addWord)).mqStep = false ∧ (coreOf 5 (coreSt addWord)).mqWait = none ∧
    (coreOf 5 (coreSt addWord)).sb.length ≤ 48 := by
  constructorm* _ ∧ _ <;> first | decide +kernel | rfl

/-- ADD of 1 and 2 in a group of one. -/
theorem test_add_group : (match exec (.issueGroup 5 0) (coreSt addWord) with | .next t => getG (coreOf 5 t) 5 == 3 && (coreOf 5 t).pc == 4 | _ => false) = true := by decide +kernel

/-- A core with an exigent, a repressible and an external condition in turn; the TCA at 0x1000. -/
def tcaBytes : List Byte := List.replicate 0x1000 0
def mcSt (ex : Bool) : State := coreSt [] (fun c => { c with tcaBase := 0x1000, tsw := 0xFFFC000000000000, exig := if ex then [⟨1, 0, 0x14D, 0, false, 0xF⟩] else [], mcs := if ex then [] else [⟨1, 0, 0x14D, 0, false, 0xF⟩] })
def extSt : State := coreSt [] (fun c => { c with tcaBase := 0x1000, tsw := 0xFFF0000000000000, extCall := some (6, 9) })

theorem test_interruption_hypotheses : Safety.settled (mcSt true) ∧ atBoundary 5 (mcSt true) = true ∧ (coreOf 5 (mcSt true)).run = .running ∧
    firstCond 5 (mcSt true) = some (.exigent ⟨1, 0, 0x14D, 0, false, 0xF⟩) ∧ tcaPlace 5 (mcSt true) = some (0x1000, 0) ∧ isLocal 0x1000 (mcSt true) = true ∧
    physKind (physOfAddr 0x1000) (mcSt true) = .dram ∧ remoteReady (lineOf 0x1000 * 128) false (mcSt true) = true ∧ remoteReady ((lineOf 0x1000 + 1) * 128) false (mcSt true) = true ∧
    (∀ o ∈ [0x10, 0x18], linePoisoned (lineOf (0x1000 + 0x20 * (condInfo 5 0 (.exigent ⟨1, 0, 0x14D, 0, false, 0xF⟩) (mcSt true)).k + o)) (mcSt true) = false) ∧
    tswOk 0 = true ∧ pcOk 0 = true ∧ (coreOf 5 (mcSt true)).wc = [] := by
  constructorm* _ ∧ _ <;> first | decide +kernel | rfl

theorem test_interruption_classes : firstCond 5 (mcSt false) = some (.mc ⟨1, 0, 0x14D, 0, false, 0xF⟩) ∧
    (match firstCond 5 extSt with | some (.ext _) => true | _ => false) = true := by decide +kernel

/-- A core that waits until TOR 100, and one with a store of the byte 0xAB at real address 0x80 in its buffer and the line in its first-level cache.
-/
def waitSt (now : Nat) : State := { coreSt [] (fun c => { c with run := .waiting (some 100) }) with tor := { st.tor with tor := now } }
def sbe : SbEntry := { addr := 0x80, data := [0xAB], attr := 0, after := 0, epC := 0, epS := 0, strl := none, cluster := none, seq := 0, grain := 1, sent := none, place := 0, bad := false }
def storeSt : State := coreSt [] (fun c => { c with sb := [sbe], l1d := [(1, { ways := [(0, some ⟨1, 3⟩)], plru := 0 })] })

theorem test_wait_hypotheses : Safety.settled (waitSt 100) ∧ coreLive 5 (waitSt 100) = true ∧ 100 ≤ (waitSt 100).tor.tor ∧ (waitSt 99).tor.tor < 100 := by
  constructorm* _ ∧ _ <;> first | decide +kernel | rfl

theorem test_store_hypotheses : (coreOf 5 storeSt).sb[0]? = some sbe ∧ mayPerform 5 0 false storeSt = true ∧ mayPerform 5 0 true storeSt = true ∧
    dataCached (coreOf 5 storeSt) = true ∧ isLocal 0x80 storeSt = true ∧ physKind (physOfAddr 0x80) storeSt = .dram ∧ remoteReady 0x80 true storeSt = true ∧
    cacheHas geoL1D (lineOf 0x80) (coreOf 5 storeSt).l1d = true ∧ tget none (lineOf 0x80) (coreOf 5 storeSt).held1 = none ∧
    tget none (lineOf 0x80) (coreOf 5 storeSt).held2 = none ∧ twf none storeSt.cpu.dirty = true := by decide +kernel

def ctlSt (v : CsStore) : State := setStore 7 v st

theorem test_scrub_hypotheses : (storeOf 7 (ctlSt { state := 1 })).state = 1 ∧ (storeOf 7 (ctlSt { state := 1 })).repair = none ∧ (storeOf 7 (ctlSt { state := 1 })).pos + 1 ≠ targetWords (storeTarget 7) ∧
    tget 0 0 (storeOf 7 (ctlSt { state := 1, flips := [(0, 1)] })).flips = 1 ∧ (storeOf 7 (ctlSt { state := 1, repair := some 9 })).repair = some 9 ∧
    fld (reactOf (storeSource 7) st) 57 56 = 0 ∧ (fltStatus (storeSource 7) st).pending = false ∧ allAtRest st = true ∧ allAtRest (runSt .running .running) = false ∧
    st.cs.diagAddr < targetWords (storeTarget 0) ∧ st.cs.diagStore = 0 := by decide +kernel

theorem test_cs_store_hypotheses : st.cs.busy = false ∧ st.cs.stageOffset + st.cs.stageLength ≤ svcSize ∧ csCheck none (svcBytes st.cs.stageOffset st.cs.stageLength st) st = .inl 1 := by decide +kernel

/-! Links and the Armature (groups of 13 and 14). -/

def linkSt (p : PortId) (l : Link) : State := setLink p l st

/-- Lanes 0 to 7 locked. -/
def lanes8 : Tab Lane := (List.range 8).map (fun i => (i, { lock := true }))

theorem test_training_hypotheses : Safety.settled (linkSt (.arm 2) { state := 1 }) ∧ portExists (.arm 2) = true ∧ fld (reactOf (srcPort (.arm 2)) st) 57 56 = 0 ∧
    clockOff (.arm 2) st = false ∧ 2 ≤ ((([0, 1, 5] : List Nat).filter (fun i => decide (i < portLanes (.arm 2)))).eraseDups).length ∧
    (linkOf (.arm 2) (linkSt (.arm 2) { state := 1 })).state = 1 ∧
    (chooseWidth (.arm 2) (widthLimit (.arm 2) { state := 3, lane := lanes8, peerGood := 0xF } st) (goodMask (.arm 2) { state := 3, lane := lanes8, peerGood := 0xF })) = (2, 0) ∧
    (chooseWidth (.arm 2) (widthLimit (.arm 2) { state := 3, lane := lanes8, peerGood := 0x81 } st) (goodMask (.arm 2) { state := 3, lane := lanes8, peerGood := 0x81 })).1 = 0 := by
  constructorm* _ ∧ _ <;> first | decide +kernel | rfl

theorem test_limit_hypotheses : linkLimit 2 = some 160000000 ∧ linkLimit 3 = some 8000000 ∧ linkLimit 4 = some 4000000 ∧ linkLimit 5 = some 20000000000 ∧
    clearAllowed (.arm 2) st = false ∧ (0 : Nat) + 160000000 ≤ 160000000 ∧ st.tor.tor < 0 + 160000000 := by decide +kernel

/-- An ACTIVE port whose lane 3 has missed one slot, whose lane 4 is failed, and whose lane 5 is under LANE_RETRY. -/
def active : Link := { state := 6, width := 3, lane := (List.range 8).map (fun i => (i, { lock := true, missed := if i = 3 then 1 else 0, failed := i == 4, retry := i == 5 })) }

theorem test_active_hypotheses : Safety.settled (linkSt (.arm 2) active) ∧ admin .service (linkSt (.arm 2) active) = true ∧ (linkOf (.arm 2) (linkSt (.arm 2) active)).state = 6 ∧
    (linkSt (.arm 2) active).ch.ops = [] ∧ active.txq = [] ∧ active.widthPending = false ∧ (laneOf 3 active).missed = 1 ∧ (laneOf 4 active).failed = true ∧
    (laneOf 5 active).retry = true ∧ (laneOf 6 active).lock = true ∧ (0x10 : BitVec 8).getLsbD 4 = true ∧
    ownGood (.arm 2) active &&& (0x0F : BitVec 8).toNat = 15 ∧ (0x0F : BitVec 8).toNat < 2 ^ portLanes (.arm 2) ∧
    ({ active with encOn := true } : Link).rotMark < 2400000000000 / 2400000000000 ∧ ({ active with oldPhaseUntil := some 0 } : Link).oldPhaseUntil = some 0 := by
  constructorm* _ ∧ _ <;> first | decide +kernel | rfl

/-- A MODULE section that enables Armature ports 2 and 3. -/
def modSec : PlnModule := { nodeMode := 0, nodeId := 0, partnerMode := 0, partnerNode := 0, failbackHold := 0, armPortEn := 0xC, dramSpeed := 0, nrK := 0, nrFlags := 0, clearLink := 0, chPortMode := List.replicate 12 1, initTor := 0 }

theorem test_port_control_hypotheses : (linkOf (.arm 2) st).state = 0 ∧ portGranted (.arm 2) { st with pln := { st.pln with module_ := some modSec } } = true ∧ st.arm.fstate ≠ 6 ∧
    (linkOf (.arm 2) (linkSt (.arm 2) { active with state := 7 })).state = 7 ∧
    (let l := markOff (.arm 2) { active with state := 7, width := 1, group := 0, peerGood := (0x03 : BitVec 8).toNat % 2 ^ portLanes (.arm 2) }
     chooseWidth (.arm 2) (widthLimit (.arm 2) l st) (goodMask (.arm 2) l) = (1, 0)) := by decide +kernel

/-- A DATA flit of one whole message of four bytes on VC 1, SEQ 7, and the same with SEQ 9. -/
def dataFlit (seq : Nat) : List Byte := mkFlit (flitHeader 1 1 seq 4095 false false 0 0 0 4 true true) [1, 2, 3, 4]

theorem test_flit_hypotheses : (dataFlit 7).length = 256 ∧ symErrs [] = [] ∧
    headerOk (.ch 2) (flitOf (dataFlit 7)) = true ∧ (flitOf (dataFlit 7)).ftype = 1 ∧ (flitOf (dataFlit 7)).enc = false ∧ (flitOf (dataFlit 7)).nak = false ∧
    clearForbidden (.ch 2) (flitOf (dataFlit 7)) { active with clear := true } = false ∧ (flitOf (dataFlit 7)).seq = ({ active with expect := 7 } : Link).expect ∧ (flitOf (dataFlit 7)).som = true ∧
    (flitOf (dataFlit 7)).eom = true ∧ (flitOf (dataFlit 9)).seq ≠ ({ active with expect := 7 } : Link).expect := by decide +kernel

/-- The CRC field of a flit holds whatever is put there. -/
theorem crc_field (b : List Byte) (h : b.length = 248) (c : Long) : (b ++ beBytes 8 c.toNat).take 248 = b ∧ BitVec.ofNat 64 (natAt (b ++ beBytes 8 c.toNat) 248 8) = c := by
  refine ⟨by simp [← h], ?_⟩
  apply BitVec.eq_of_toNat_eq
  simp [natAt, bytesAt, ← h, beBytes, beNat, Nat.shiftRight_eq_div_pow]
  omega

theorem test_flit_crc_hypotheses (b : List Byte) (h : b.length = 248) :
    (crc64 ((b ++ beBytes 8 (crc64 b).toNat).take 248) = BitVec.ofNat 64 (natAt (b ++ beBytes 8 (crc64 b).toNat) 248 8)) ∧
    (crc64 ((b ++ beBytes 8 (crc64 b + 1).toNat).take 248) ≠ BitVec.ofNat 64 (natAt (b ++ beBytes 8 (crc64 b + 1).toNat) 248 8)) := by
  rw [(crc_field b h _).1, (crc_field b h _).1, (crc_field b h _).2, (crc_field b h _).2]
  simp

theorem test_bad_flit_hypotheses : 8 < (symErrs ((List.range 9).map (fun i => (i, 1)))).length ∧ active.uncorrRun < 15 := by decide +kernel

theorem test_replay_hypotheses : ({ active with nakSince := some 0 } : Link).nakSince = some 0 ∧ 0 + 4000 ≤ (torSt (fun t => { t with tor := 16000 })).tor.tor ∧
    active.ackTor + 16000 ≤ (torSt (fun t => { t with tor := 16000 })).tor.tor ∧ (∀ f ∈ [(⟨7, dataFlit 7, 1, 0, [1, 2, 3, 4], true, true, none⟩ : TxFlit)], f.replays < 7) := by decide +kernel

/-- Port 2 in KEY at a step of discovery. -/
def discoSt (x : Peer) : State := setPeer 2 x (linkSt (.arm 2) { state := 5 })

theorem test_discovery_hypotheses : Safety.settled (discoSt { step := 1 }) ∧ operating (discoSt {}) = true ∧ (linkOf (discoPort 2) (discoSt {})).state = 5 ∧
    (peerOf 2 (discoSt { step := 1 })).step = 1 ∧ fld (reactOf (srcPort (discoPort 2)) (discoSt {})) 57 56 = 0 ∧ (discoSt {}).ch.ops = [] ∧
    (linkOf (discoPort 2) (discoSt {})).txq = [] ∧ dupNode 0xFF 0 (discoSt {}) = false ∧ (2 : Nat) ≠ 1 := by
  constructorm* _ ∧ _ <;> first | decide +kernel | rfl

/-- Of the two clauses on an IDENTITY one holds of any chain; a MAC that is one byte longer than the right one is wrong. -/
theorem test_identity_and_confirm_hypotheses (x : Peer) (c : List Byte) : (Config.chainOk c x.serial = true ∨ Config.chainOk c x.serial = false) ∧
    confirmMac x.secret x.transcript 1 ++ [0] ≠ confirmMac x.secret x.transcript 1 := by
  constructor
  · cases Config.chainOk c x.serial <;> simp
  · simp

/-- An ACTIVE Armature port 2 and the given fabric state. -/
def armSt (f : Fabric → Fabric) (now : Nat := 0) : State := { linkSt (.arm 2) active with arm := f st.arm, tor := { st.tor with tor := now } }

def adv5 (seq : Nat) : Adv := { node := 5, serial := Config.serial + 1, seq := seq, fstate := 1, torState := 0, refHeld := false, ineligible := false, extents := [], ports := [] }

theorem test_claim_hypotheses : mayClaim (armSt (fun a => { a with fstate := 1 }) 40000000) = true ∧ mayClaim st = false ∧
    ({ st with arm := { st.arm with fstate := 1 } } : State).arm.fstate = 1 ∧ activeArm st = [] ∧ st.arm.node = none ∧ 0 + 40000000000 ≤ (torSt (fun t => { t with tor := 40000000000 })).tor.tor := by decide +kernel

theorem test_advertisement_hypotheses : (adv5 3).serial ≠ Config.serial ∧ portActive (.arm 2) (armSt (fun a => { a with fstate := 4, node := some 1 })) = true ∧ (adv5 3).node < 64 ∧
    tget none 5 (armSt (fun a => { a with fstate := 4, node := some 1 })).arm.db = none ∧
    tget none 5 (armSt (fun a => { a with fstate := 4, node := some 1, db := [(5, some ⟨adv5 3, 0⟩)] })).arm.db = some ⟨adv5 3, 0⟩ ∧ (adv5 2).seq ≤ (adv5 3).seq := by
  refine ⟨by simp [adv5], by decide +kernel, by decide +kernel, rfl, rfl, by decide +kernel⟩

theorem test_member_hypotheses : (armSt (fun a => { a with node := some 1, db := [(5, some ⟨adv5 3, 0⟩)] }) 4000000000).arm.node ≠ some 5 ∧ 0 + 4000000000 ≤ 4000000000 ∧ st.tor.master = none := by decide +kernel

theorem test_announce_hypotheses : announcer { torSt (fun t => { t with master := some 1 }) with arm := { st.arm with node := some 1, change := true } } = true ∧ st.arm.next = none := by decide +kernel

theorem test_epoch_hypotheses (s : State) : (∃ e : EpochAnn, e.tor ≤ s.tor.tor ∧ dbDigest s = e.digest) ∧ (∃ e : EpochAnn, e.tor ≤ s.tor.tor ∧ dbDigest s ≠ e.digest) ∧
    ∃ e : EpochAnn, s.tor.tor < e.tor := by
  refine ⟨⟨⟨1, 0, dbDigest s⟩, Nat.zero_le _, rfl⟩, ⟨⟨1, 0, dbDigest s ++ [0]⟩, Nat.zero_le _, by simp⟩, ⟨⟨1, s.tor.tor + 1, []⟩, Nat.lt_succ_self _⟩⟩

theorem test_retire_hypotheses : st.arm.prevUntil ≤ st.tor.tor ∧ st.tor.tor < ({ st with arm := { st.arm with prevUntil := 1 } } : State).arm.prevUntil := by decide +kernel

/-- A request of node 5 for line 0x80 of this node, node 1. -/
def homeAddr : Nat := 2 ^ 52 + 0x4000
def req (kind : Nat) (body : List Byte) : Msg := { via := 2, vc := (kindVc kind).getD 1, dest := 1, src := 5, kind := kind, tag := 9, epoch := false, resent := false, addr := homeAddr, body := body }
def homeSt (e : Option DirEntry) : State := setDir (homeAddr / 128) e { armSt (fun a => { a with node := some 1, fstate := 4 }) with dram := (dramSt 2 st).dram }

theorem test_home_hypotheses : Safety.settled (homeSt none) ∧ operating (homeSt none) = true ∧ portActive (.arm 2) (homeSt none) = true ∧ malformed 2 (req 2 []) = false ∧
    malformed 3 (req 2 []) = true ∧ (homeSt none).arm.node = some 1 ∧ isLocal homeAddr (homeSt none) = true ∧ physKind (physOfAddr homeAddr) (homeSt none) = .dram ∧
    txnOf (homeAddr / 128) (homeSt none) = none ∧ recallVictim (homeAddr / 128) (homeSt none) = none ∧ (homeSt none).cpu.dirty = [] ∧ (homeSt none).ch.ops = [] ∧
    dirOf (homeAddr / 128) (homeSt none) = none ∧
    dirOf (homeAddr / 128) (homeSt (some ⟨homeAddr / 128, true, 2 ^ 5⟩)) = some { line := homeAddr / 128, owned := true, holders := 2 ^ 5 } ∧
    dirOf (homeAddr / 128) (homeSt (some ⟨homeAddr / 128, false, 2 ^ 5⟩)) = some { line := homeAddr / 128, owned := false, holders := 2 ^ 5 } ∧
    malformed 5 (req 5 (dataBody (List.replicate 128 7) false)) = false ∧ malformed 6 (req 6 ([1, 4] ++ [1, 2, 3, 4])) = false := by
  constructorm* _ ∧ _ <;> first | decide +kernel | rfl

/-- A request of this node, node 1, to node 5, and what answers it. -/
def farAddr : Nat := 5 * 2 ^ 52 + 0x4000
def ask (kind first : Nat) : OutReq := { msg := { via := 0, vc := (kindVc kind).getD 1, dest := 5, src := 1, kind := kind, tag := 9, epoch := false, resent := false, addr := farAddr, body := [] }, first := first, last := first, sends := 1, who := .core 0, part := none }
def answer (kind : Nat) (body : List Byte) : Msg := { via := 2, vc := (kindVc kind).getD 1, dest := 1, src := 5, kind := kind, tag := 9, epoch := false, resent := false, addr := farAddr, body := body }
def askSt (kind now : Nat) : State := armSt (fun a => { a with node := some 1, fstate := 4, reqs := [ask kind 0], rlines := [(farAddr / 128, some ⟨List.replicate 128 0, false, false⟩)] }) now

theorem test_request_hypotheses : Safety.settled (askSt 2 0) ∧ operating (askSt 2 0) = true ∧ (askSt 2 0).ch.ops = [] ∧ portActive (.arm 2) (askSt 2 0) = true ∧
    malformed 8 (answer 8 (dataBody (List.replicate 128 7) false)) = false ∧ isLocal farAddr (askSt 2 0) = false ∧ reqOf (answer 8 []) (askSt 2 0) = some (ask 2 0) ∧
    reqOf (answer 9 []) (askSt 4 0) = some (ask 4 0) ∧ tget none (farAddr / 128) (askSt 4 0).arm.rlines = some ⟨List.replicate 128 0, false, false⟩ ∧
    natAt (answer 7 [1]).body 0 1 = 1 ∧ (askSt 2 4000000).arm.reqs.find? (fun x => x.msg.tag == 9) = some (ask 2 0) ∧ (ask 2 0).sends < 3 ∧
    (ask 2 0).first + 12000000 ≤ (askSt 2 12000000).tor.tor ∧ fld (reactOf srcSc { askSt 2 0 with flt := { st.flt with react := [(srcSc, 0xFF0000FF00000000)] } }) 55 32 ≠ 0 ∧
    (fltStatus srcSc (askSt 2 0)).pending = false := by
  constructorm* _ ∧ _ <;> first | decide +kernel | rfl

theorem test_snoop_hypotheses : txnOf 7 (setTxn 7 (some ⟨req 2 [], 0x20, 0, true, [], none⟩) st) = some ⟨req 2 [], 0x20, 0, true, [], none⟩ ∧ tget [] 7 st.arm.queue = [] ∧ st.tor.tor < 0 + 12000000 := by decide +kernel

theorem test_departure_hypotheses : mayLeave (armSt (fun a => { a with fstate := 4, node := some 1 })) = true ∧ (armSt (fun a => { a with fstate := 4 })).arm.fstate = 4 ∧ st.arm.fstate ≠ 4 ∧
    st.arm.fstate ≠ 2 ∧ st.pin.prsnt = true ∧ (armSt (fun a => { a with fstate := 5, leaveAt := some 0 })).arm.leaveAt = some 0 ∧ (∀ p, p < 8 → fld (reactOf (srcPort (.arm p)) st) 57 56 = 0) ∧
    (armSt (fun a => { a with fstate := 6 })).arm.fstate = 6 ∧ portGranted (.arm 2) { st with pln := { st.pln with module_ := some modSec } } = true := by decide +kernel

/-! Channels, the journal, the pair and the work queues (groups of 15 to 17, 19, 22). -/

/-- An order in the first 32 bytes of partition 3's storage: opcode, flags, count, data field. -/
def orderBytes (op flags count data : Nat) : List Byte := beBytes 1 op ++ [0] ++ beBytes 2 flags ++ beBytes 4 count ++ beBytes 8 data ++ List.replicate 16 0

/-- Partition 3 with subchannels 0 to 15 and an operation of subchannel 2 in the given states. -/
def chSt (e : JEntry) (o : ChOp) (b : List Byte) (now : Nat) : State :=
  let s := coreSt b
  { s with jnl := { s.jnl with e := [(2, { e with part := 3 })] }, ch := { s.ch with ops := [(2, some o)], cp := [(0, 0)], sub := [(2, { port0 := 4, port1 := 4 })] }, tor := { s.tor with tor := now } }

theorem test_subchannel_hypotheses : subWriter .pf1 2 st = false ∧ subWriter (.part 3) 2 (coreSt []) = true ∧ (jent 2 (coreSt [])).state = 0 ∧
    portNameOk (subchPart 2 (coreSt [])) (subCfgOf (0x7F80000000000000 : Long).toNat).port0 (coreSt []) = true ∧
    portNameOk (subchPart 2 (coreSt [])) (subCfgOf (0x7F80000000000000 : Long).toNat).port1 (coreSt []) = true ∧ partnerSub 2 (coreSt []) = false ∧
    portNameOk (subchPart 2 (coreSt [])) (subCfgOf (0 : Long).toNat).port0 (coreSt []) = false := by decide +kernel

def waitTor (now : Nat) (state : Nat) (o : ChOp) : State := chSt { state := state } o (orderBytes 0x22 0 0 1000) now
def pendOp : ChOp := { durable := true }
def torOp : ChOp := { cp := some 0, wait := .tor 1000 }

theorem test_take_hypotheses : Safety.settled (waitTor 0 1 pendOp) ∧ operating (waitTor 0 1 pendOp) = true ∧ opOf 2 (waitTor 0 1 pendOp) = some pendOp ∧ mirrorOn (waitTor 0 1 pendOp) = false ∧
    (match readOrder (.subch 2) (jent 2 (waitTor 0 1 pendOp)).part 0 (waitTor 0 1 pendOp) with | .ok r => !orderBad r && r.opcode == 0x22 && r.data == 1000 && !r.flags.testBit 4 && !r.flags.testBit 0 | _ => false) = true ∧
    (∃ hub k, hub < 2 ∧ takeNext hub (waitTor 0 1 pendOp) = some 2 ∧ cpPick hub (waitTor 0 1 pendOp) = some k) := by
  constructorm* _ ∧ _ <;> first | decide +kernel | rfl | exact ⟨0, 0, by decide, by decide +kernel, by decide +kernel⟩

theorem test_wait_tor_hypotheses : opOf 2 (waitTor 1000 3 torOp) = some torOp ∧ (jent 2 (waitTor 1000 3 torOp)).state = 3 ∧ (jent 2 (waitTor 1000 3 torOp)).mirror = false ∧
    torOp.cp.isSome = true ∧ 1000 ≤ (waitTor 1000 3 torOp).tor.tor ∧ (waitTor 999 3 torOp).tor.tor < 1000 ∧
    (jent 2 (waitTor 40000000 1 pendOp)).state = 1 ∧ pendOp.started + 40000000 ≤ (waitTor 40000000 1 pendOp).tor.tor := by decide +kernel

/-- A WRITE of 16 bytes and a READ of 16 bytes to real address 0x400, in progress on port 4. -/
def wr : DevOrd := { opcode := 0x10, flags := 0, first := 0, next := 32, count := 16, elems := [], eng := 0, slot := 0, dev := 0, sent := true, out := some (List.replicate 16 7) }
def rdo : DevOrd := { opcode := 0x11, flags := 0, first := 0, next := 32, count := 16, elems := [{ addr := 0x400, len := 16, order := 0, first := true, notify := false, discard := false }], eng := 0, slot := 0, dev := 0, sent := true }
def devSt (d : DevOrd) (w : OpWait) (h : Option Nat) (now : Nat) : State :=
  setLink (.ch 4) { active with clear := true } (chSt { state := 2, ordinal := 1, seq := 8 } { cp := some 0, port := some 4, origin := 0, ordered := true, cur := some d, wait := w, halt := h } [] now)

theorem test_device_hypotheses : Safety.settled (devSt wr .held none 0) ∧ operating (devSt wr .held none 0) = true ∧
    (match opOf 2 (devSt wr .held none 0) with | some o => o.reach && o.cp.isSome && o.cur == some wr && wr.sent && wr.eng == 0 && wr.status.isNone && o.wait == .held && o.halt.isNone && !wr.pushed && (o.blk.relTor == 0) && wr.out.isSome && o.check.isNone | none => false) = true ∧
    (⟨0, 2, 0, 8, 1, 0, true, List.replicate 16 9⟩ : DataFrame).data.length ≤ 65520 ∧ portActive (.ch 4) (devSt rdo .device none 0) = true ∧
    frameOp 4 0 3 0 8 (devSt rdo .device none 0) = none ∧ frameOp 4 0 2 0 8 (devSt rdo .device none 0) = opOf 2 (devSt rdo .device none 0) ∧
    (1 : Nat) = (jent 2 (devSt rdo .device none 0)).ordinal ∧ isIn rdo = true ∧
    (storeElems (.subch 2) 3 rdo.elems 0 ((List.replicate 16 (9 : Byte)).take (rdo.count - 0)) (devSt rdo .device none 0)).1 = none ∧
    (storeElems (.subch 2) 3 rdo.elems 0 ((List.replicate 16 (9 : Byte)).take (rdo.count - 0)) (devSt rdo .device none 0)).2.2.flt = (devSt rdo .device none 0).flt ∧
    (storeElems (.subch 2) 3 rdo.elems 0 ((List.replicate 16 (9 : Byte)).take (rdo.count - 0)) (devSt rdo .device none 0)).2.2.ch = (devSt rdo .device none 0).ch := by
  constructorm* _ ∧ _ <;> first | decide +kernel | rfl

theorem test_status_hypotheses : (⟨0, 2, 0, 8, 1, 0xC, true, false, 0⟩ : StatusFrame).final = true ∧ wr.flags.testBit 0 = false ∧ wr.count < 2 ^ 32 ∧ (jent 2 (devSt wr .device none 0)).mirror = false ∧
    frameOp 4 0 2 0 8 (devSt wr .device none 0) = opOf 2 (devSt wr .device none 0) ∧
    (match opOf 2 (devSt wr .device (some 0) 4000000000) with | some o => o.halt == some 0 | none => false) = true ∧ fld (reactOf (srcPort (.ch 4)) st) 57 56 = 0 := by decide +kernel

/-- A module with a partner, node 2, beside this one, node 1, and an ACTIVE port between them. -/
def pairSt (pair dxs : Nat) (f : State → State := id) : State :=
  f { armSt (fun a => { a with node := some 1, fstate := 4 }) with
        pln := { st.pln with module_ := some { modSec with partnerMode := 1, partnerNode := 2, chPortMode := List.replicate 6 1 ++ List.replicate 6 2 } },
        jnl := { st.jnl with pair := pair }, dx := { st.dx with state := dxs } }

def jnlMsg (kind : Nat) (body : List Byte) : Msg := { via := 2, vc := (kindVc kind).getD 0, dest := 1, src := 2, kind := kind, tag := 9, epoch := false, resent := false, addr := 0, body := body }
def copyOf : JEntry := { state := 2, trans := 7, seq := 5, part := 3 }

theorem test_mirror_hypotheses : Safety.settled (pairSt 2 2) ∧ operating (pairSt 2 2) = true ∧ mirrorOn (pairSt 2 2) = true ∧ portActive (.arm 2) (pairSt 2 2) = true ∧
    malformed 0 (jnlMsg 0 (mirrorBody 6 7 false copyOf)) = false ∧ (pairSt 2 2).arm.node = some 1 ∧ (jnlMsg 0 (mirrorBody 6 7 false copyOf)).body.length = 72 ∧ 2 = partnerNode (pairSt 2 2) ∧
    6 = natAt (mirrorBody 6 7 false copyOf) 0 8 / 2 ^ 46 ∧ (pairSt 2 2).dx.state = 2 ∧ (pairSt 2 2).jnl.theirs.contains 6 = false ∧
    (jent 6 (pairSt 2 2)).seq ≠ (jentOf ((mirrorBody 6 7 false copyOf).drop 8)).seq ∧ (jent 6 (pairSt 2 2)).state = 0 ∧
    (jent 6 (pairSt 2 2 (setJent 6 { state := 1, seq := 3 }))).state ≠ 0 ∧ (jent 6 (pairSt 2 2 (setJent 6 { state := 1, seq := 3 }))).mirror = false := by
  constructorm* _ ∧ _ <;> first | decide +kernel | rfl

def outMirror (first : Nat) : MirrorOut := { index := 6, trans := 7, sync := false, entry := copyOf, tag := 9, core := none, first := first, last := first, sends := 1, reported := false }
def lateSt (now : Nat) : State := pairSt 2 2 (fun s => { s with jnl := { s.jnl with out := [outMirror 0] }, tor := { s.tor with tor := now } })

theorem test_mirror_ack_hypotheses : malformed 1 (jnlMsg 1 (mirrorAckBody 6 7 false 5 0)) = false ∧ (mirrorAckBody 6 7 false 5 0).length = 24 ∧
    (lateSt 0).jnl.out.find? (fun y => y.tag == 9) = some (outMirror 0) ∧ natAt (mirrorAckBody 6 7 false 5 0) 0 8 / 2 ^ 46 = 6 ∧ bits (natAt (mirrorAckBody 6 7 false 5 0) 0 8) 45 41 = 7 ∧
    natAt (mirrorAckBody 6 7 false 5 0) 8 8 = 5 ∧ natAt (mirrorAckBody 6 7 false 5 0) 16 8 = 0 ∧ mirrorLate 6 (lateSt 0) = false ∧ mirrorLate 6 (lateSt 12000000) = true ∧
    (lateSt 0).arm.node.getD 0 ≤ partnerNode (lateSt 0) ∧ fld (reactOf srcDuplex (lateSt 0)) 57 56 = 0 := by decide +kernel

theorem test_entry_hypotheses : copyOf.state < 8 ∧ copyOf.trans < 32 ∧ copyOf.part < 256 ∧ copyOf.seq < 2 ^ 64 ∧ jentOf (JEntry.bytes copyOf) = copyOf := by decide +kernel

def info (names : Bool) (base : Nat) : PairInfo := { namesUs := names, parts := [{ uuid := [], subchBase := base, subchCount := 16 }], roles := List.replicate 12 1, holds := false }

theorem test_pair_hypotheses : mayPair (pairSt 1 1) = true ∧ (pairSt 1 1).jnl.settleDue = false ∧ pairOverlap { pairSt 1 1 with dx := { (pairSt 1 1).dx with parts := (info true 0).parts } } = false ∧
    pairOverlap { coreSt [] with dx := { (coreSt []).dx with parts := (info true 0).parts } } = true ∧ (pairSt 3 4).dx.state = 4 ∧ (pairSt 3 4).jnl.out = [] ∧ (lateSt 0).jnl.out ≠ [] ∧
    partnerOn (pairSt 2 2) = true ∧ ownSub 100 (pairSt 2 2) = false := by decide +kernel

/-- An overlap with a partner configured. -/
theorem test_unpairable_hypotheses : let s := pairSt 1 1 (fun s => { s with pln := { s.pln with parts := [(3, some part3)] } })
    mayPair s = true ∧ pairOverlap { s with dx := { s.dx with parts := (info true 0).parts } } = true := by decide +kernel

def hbSt (due run orun now : Nat) : State :=
  pairSt 2 2 (fun s => setHb .dedicated { (hbOf .dedicated s) with run := orun } (setHb .armature { (hbOf .armature s) with due := due, run := run } { s with tor := { s.tor with tor := now } }))

theorem test_heartbeat_hypotheses : Safety.settled (hbSt 80000 0 0 80000) ∧ partnerOn (hbSt 80000 0 0 80000) = true ∧ (hbSt 80000 0 0 80000).dx.sentAt ≠ 80000 / 40000 * 40000 ∧
    (hbSt 80000 0 0 0).dx.sentAt = 0 / 40000 * 40000 ∧ hbValid 0x0800000000000000 (hbSt 80000 0 0 80000) = true ∧ lbit 0x0800000000000000 50 = false ∧ (hbSt 80000 0 0 80000).dx.released = false ∧
    (hbOf .armature (hbSt 80000 0 0 80000)).due = (80000 : Long).toNat ∧ (hbOf .armature (hbSt 80000 0 0 80000)).arrived = [] ∧ 80000 % 40000 = 0 ∧
    80000 + 20000 ≤ (hbSt 80000 2 3 100000).tor.tor ∧ 2 ≤ (hbOf .armature (hbSt 80000 2 3 100000)).run ∧ 3 ≤ (hbOf (otherPath .armature) (hbSt 80000 2 3 100000)).run ∧
    pairUp (hbSt 80000 2 3 100000) = true ∧ (hbSt 80000 2 3 100000).jnl.out = [] ∧ (hbSt 80000 2 3 100000).jnl.e = [] ∧ (hbSt 80000 2 3 100000).ch.ops = [] ∧
    (hbSt 80000 2 3 100000).dx.heldByPartner = false ∧ (hbSt 80000 2 3 100000).jnl.settleDue = false := by
  constructorm* _ ∧ _ <;> first | decide +kernel | rfl

def holdSt : State := pairSt 2 5 (fun s => { s with dx := { s.dx with taken := [(7, true)], holdEnd := 100 }, tor := { s.tor with tor := 100 } })

theorem test_failback_hypotheses : holdOver holdSt = true ∧ holdOver (pairSt 2 5) = false ∧ holdSt.dx.state = 5 ∧ holder holdSt = true ∧ admin .service holdSt = true ∧ (pairSt 2 2).dx.state ≠ 5 := by decide +kernel

/-- Partition 3's queue 76 of a block, with eight slots at 0x1000 and 0x2000. -/
def qSt (b : QBlock) (f : Queue → Queue) (bytes : List Byte := []) : State := setQueue b 76 (f { sqBase := 0x1000, size := 4, cqBase := 0x2000 }) (coreSt bytes)

theorem test_queue_hypotheses : mayQueue (.part 3) .rasp 76 (qSt .rasp id) = true ∧ mayQueue (.part 2) .rasp 76 (qSt .rasp id) = false ∧ ringsOk .rasp 76 (qSt .rasp id) = true ∧
    ringsOk .rasp 76 (qSt .rasp (fun q => { q with sqBase := 8 })) = false ∧ (queueOf .rasp 76 (qSt .rasp (fun q => { q with state := 1 }))).wipe = false ∧
    (queueOf .rasp 76 (qSt .rasp (fun q => { q with state := 3 }))).held = none ∧ 2 ^ (queueOf .rasp 76 (qSt .rasp (fun q => { q with state := 1 }))).size ≤ fld 0xFFFF000000000000 63 48 := by decide +kernel

/-- Queue pair 3 of Rasp, owned by partition 3, with the given slot fetched; PF1 is a master. -/
def qpSt (b : QBlock) (kind : Nat) (slot : Option (List Byte)) (tail : Nat) : State :=
  let s := coreSt []
  setQueue b 3 { size := 4, tail := tail, state := 1, slot := slot } (setQp 3 { (qpOf 3 s) with kind := kind, owner := some 3 } { s with pf1 := { s.pf1 with bme := true } })

theorem test_doorbell_hypotheses : mayQueue .service .rasp 3 (qpSt .rasp 1 none 0) = true ∧ (qpSt .rasp 1 none 0).hp.req.length < 768 ∧ fnMaster (qpSt .rasp 1 none 0).pf1 = true ∧
    (queueOf .rasp 3 (qpSt .rasp 1 none 0)).slot = none ∧ (queueOf .rasp 3 (qpSt .rasp 1 none 0)).fetch = none ∧ fld 0x0001000000000000 63 48 < 2 ^ 4 ∧
    queueReady { (queueOf .rasp 3 (qpSt .rasp 1 none 0)) with tail := fld 0x0001000000000000 63 48, cqHead := fld 0x0001000000000000 47 32 } = true := by decide +kernel

/-- A COMPRESS descriptor without a context, one with a bad opcode, and one whose input lies outside the extents. -/
def raspDesc (op addr : Nat) : List Byte := [BitVec.ofNat 8 op, 0x18, 0, 0] ++ beBytes 4 4 ++ beBytes 8 addr ++ beBytes 8 0x600 ++ beBytes 4 64 ++ List.replicate 36 0
def raspQ (d : List Byte) : State :=
  let s := coreSt d
  setQueue .rasp 76 { sqBase := 0, size := 4, cqBase := 0x2000, tail := 1, state := 1 } s

theorem test_rasp_hypotheses : (∀ d ∈ [raspDesc 1 0x500, raspDesc 9 0x500, raspDesc 1 0x900000], (raspOf 2 (raspQ d)).failed = false ∧ (raspOf 2 (raspQ d)).job = none ∧
      nextQueue .rasp (raspQ d).eng.rNext (fun q => descHere .rasp q (raspQ d)) (raspQ d) = some 76 ∧ queuePart .rasp 76 (raspQ d) = some 3 ∧
      raspLineNext 2 (raspQ d) = none ∧ askDescs .rasp (raspQ d) = raspQ d ∧ (match takeDesc .rasp 76 (raspQ d) with | .desc x => x == d | _ => false) = true) ∧
    raspParamBad (raspDesc 9 0x500) = true ∧ raspParamBad (raspDesc 1 0x900000) = false ∧ jobMapped 76 3 0x900000 4 (raspQ (raspDesc 1 0x900000)) = false := by decide +kernel

/-- The state with the descriptor taken, by which the command reads the input. -/
def raspTook : State := let s := tookDesc .rasp 76 (raspQ (raspDesc 1 0x500)); { s with eng := { s.eng with rNext := 77 } }

theorem test_rasp_input_hypotheses : raspParamBad (raspDesc 1 0x500) = false ∧ jobMapped 76 3 0x500 4 (raspQ (raspDesc 1 0x500)) = true ∧
    jobMapped 76 3 0x600 64 (raspQ (raspDesc 1 0x500)) = true ∧ jobMapped 76 3 0 0 (raspQ (raspDesc 1 0x500)) = true ∧
    partMissing (.rasp 76) 3 0x500 4 raspTook = [] ∧ partMissing (.rasp 76) 3 0 0 raspTook = [] ∧
    partRead (.rasp 76) 3 0x500 4 raspTook = ([0, 0, 0, 0], false) ∧ partRead (.rasp 76) 3 0 0 raspTook = ([], false) ∧
    (raspQ (raspDesc 1 0x500)).cpu.dirty = [] ∧ (coreOf 5 (raspQ (raspDesc 1 0x500))).held1 = [] := by decide +kernel

/-- An operation of subchannel 2 whose work in line waits for an engine of hub 0: compression, or decryption. -/
def lineOp (cipher back : Bool) : ChOp := { cp := some 0, wait := .line, line := some { cipher := cipher, back := back, input := [1, 2], hub := 0 } }
def lineSt (cipher back : Bool) : State := chSt { state := 2 } (lineOp cipher back) [] 0

theorem test_rasp_line_hypotheses : Safety.settled (lineSt false false) ∧ (∀ back, raspLineNext 2 (lineSt false back) = some (2, { cipher := false, back := back, input := [1, 2], hub := 0 }) ∧
      opOf 2 (lineSt false back) = some (lineOp false back) ∧ (raspOf 2 (lineSt false back)).failed = false ∧ (raspOf 2 (lineSt false back)).job = none) ∧
    (∀ back, intLineNext 2 (lineSt true back) = some (2, { cipher := true, back := back, input := [1, 2], hub := 0 }) ∧ askDescs .intaglio (lineSt true back) = lineSt true back ∧
      (intOf 2 (lineSt true back)).susp = none ∧ (intOf 2 (lineSt true back)).job = none) := by
  refine ⟨rfl, by decide +kernel, by decide +kernel⟩

/-- Engine 2 compresses nothing for queue 76: the two bytes of an empty stream. -/
def raspJob (q : Nat) (d : List Byte) : RaspJob := { queue := q, part := 3, desc := d, ctx := [], input := [], early := none, space := some (natAt d 0x18 4), loaded := true }
def raspRunSt : State := setRasp 2 { job := some (raspJob 76 (raspDesc 1 0x500)) } (raspQ (raspDesc 1 0x500))

theorem test_rasp_end_hypotheses : raspRunSt.ch.ops = [] ∧ natAt (raspDesc 1 0x500) 0x20 8 = 0 ∧ (queueOf .rasp 76 raspRunSt).drop = false ∧ (queueOf .rasp 76 raspRunSt).wipe = false ∧
    queuePart .rasp 76 raspRunSt = some 3 ∧ (raspRun (raspParams (raspDesc 1 0x500)) none [] none (some (natAt (raspDesc 1 0x500) 0x18 4))).status = 0 ∧
    partMapped 3 ((queueOf .rasp 76 raspRunSt).cqBase + (queueOf .rasp 76 raspRunSt).cqTail * 32) 32 raspRunSt = true ∧
    (partWrite (.rasp 76) 3 0x600 [1, 2, 3] (setRasp 2 { } raspRunSt)).flt = raspRunSt.flt := by decide +kernel

theorem test_rasp_parity_hypotheses : natAt (raspDesc 1 0x500 |>.take 24 |> (· ++ List.replicate 40 0)) 0x18 4 = 0 ∧ (queueOf .rasp 3 (qpSt .rasp 1 none 0)).drop = false ∧
    fld (reactOf (srcRasp 2) st) 57 56 = 0 ∧ (queueOf .rasp 3 (qpSt .rasp 1 none 0)).state = 1 ∧
    (raspOf 2 (setRasp 2 { job := some { raspJob 76 [] with early := some 4 } } raspRunSt)).job = some { raspJob 76 [] with early := some 4 } ∧
    opOf 2 (setRasp 2 { job := some { raspJob 256 [] with line := some 2 } } (lineSt false true)) = some (lineOp false true) := by decide +kernel

/-- An Intaglio request without an effect on storage: CLEAR of slot 0x40, urgent or not; and one with a bad mode. -/
def intBytes (op mode flags slot : Nat) : List Byte := beBytes 1 op ++ beBytes 1 mode ++ beBytes 1 flags ++ [0] ++ beBytes 2 slot ++ List.replicate 58 0
def intQ (d : List Byte) : State := qpSt .intaglio 2 (some d) 1

/-- The state with the descriptor of queue pair 3 taken by engine 2, the request as it starts, and the state with the request. -/
def intTook (s : State) : State :=
  let t := tookDesc .intaglio 3 s
  { t with eng := { t.eng with iNext := 4, order := t.eng.order + 1 } }
def intFirst (d : List Byte) (s : State) : IntJob :=
  let r := intEarly 3 3 false (intDesc d) (intTook s)
  { queue := 3, part := 3, desc := d, ctx := [], input := [], aad := [], key := r.2, early := r.1, suspended := false, dual := (intOf 2 s).dual, start := s.eng.order }
def intStarted (d : List Byte) (s : State) : State := setInt 2 { (intOf 2 s) with job := some (intFirst d s) } (intTook s)

theorem test_intaglio_hypotheses : ∀ d ∈ [intBytes 0x13 0 0 0x40, intBytes 1 0xFF 0 0x40], (intOf 2 (intQ d)).failed = false ∧ (intOf 2 (intQ d)).susp = none ∧ (intOf 2 (intQ d)).job = none ∧
      askDescs .intaglio (intQ d) = intQ d ∧ urgentNext (intQ d) = none ∧ intLineNext 2 (intQ d) = none ∧
      nextQueue .intaglio (intQ d).eng.iNext (fun q => descHere .intaglio q (intQ d)) (intQ d) = some 3 ∧ queuePart .intaglio 3 (intQ d) = some 3 ∧
      (match takeDesc .intaglio 3 (intQ d) with | .desc x => x == d | _ => false) = true ∧ slotTurn (intFirst d (intQ d)) (intStarted d (intQ d)) = true ∧
      (match intRead (intFirst d (intQ d)) (intStarted d (intQ d)) with | .inr j => j.early != some 4 | .inl _ => false) = true := by decide +kernel

/-! Conditions that several statements share. -/

/-- A state without a reaction entry of its own is graceful: the reset value of `REACT` leaves 1 s (21 R495). -/
theorem graceful_of_react (s : State) (h : s.flt.react = []) : Safety.graceful s := by
  intro i; simp [reactOf, h, tget]; decide +kernel

/-- What holds of the default and of every listed value holds of every value read. -/
theorem tget_of {α : Type} {P : α → Prop} {d : α} {t : Tab α} (k : Nat) (hd : P d) (h : ∀ e ∈ t, P e.2) : P (tget d k t) := by
  induction t with
  | nil => exact hd
  | cons e t ih =>
    simp only [tget]
    split
    · exact h e (by simp)
    · exact ih fun x hx => h x (by simp [hx])

/-- No listed queue holds back a record, no listed core leaves service, and the listed engines' requests have their input. -/
abbrev waitsNothing (s : State) : Prop :=
  (s.ch.ops = [] ∧ s.pln.starting = [] ∧ s.pln.zero = [] ∧ s.arm.later = []) ∧ (s.mq.uart.mem = none ∧ s.mq.mbx.mem = none) ∧
  (∀ e ∈ s.eng.rq ++ s.eng.iq ++ s.hp.mq, e.2.post = none) ∧ (∀ e ∈ s.cpu.core, e.2.losing = none) ∧
  (∀ e ∈ s.eng.rasp, e.2.job.all (·.loaded) = true) ∧ (∀ e ∈ s.eng.inta, e.2.job.all (·.loaded) = true) ∧ ∀ e ∈ s.eng.inta, e.2.posting = none

/-- Then nobody waits. -/
theorem noneWaits_of (s : State) (h : waitsNothing s) : Safety.noneWaits s := by
  obtain ⟨⟨ops, starting, zero, later⟩, ⟨uart, mbx⟩, posts, cores, rasp, inta, posting⟩ := h
  have hq : ∀ b q, (queueOf b q s).post = none := by
    intro b q
    cases b <;> exact tget_of (P := fun x : Queue => x.post = none) q rfl fun e he => posts e (by simp [he])
  have hr (k : Nat) : (raspOf k s).job.all (·.loaded) = true := tget_of (P := fun x : RaspEng => x.job.all (·.loaded) = true) k (by decide) rasp
  have hi (k : Nat) : (intOf k s).job.all (·.loaded) = true := tget_of (P := fun x : IntEng => x.job.all (·.loaded) = true) k (by decide) inta
  refine ⟨ops, hq, fun l => tget_of (P := fun c : Core => c.losing = none) l rfl cores, starting, zero, later, uart, mbx, fun k => ⟨?_, ?_, ?_⟩⟩
  · intro j hj; simpa [hj] using hr k
  · intro j hj; simpa [hj] using hi k
  · exact tget_of (P := fun x : IntEng => x.posting = none) k rfl posting

/-- An earlier GENKEY of slot 0x40 on engine 5: a later request that acts on the slot waits for its turn. -/
def genkeySt : State :=
  let s := intQ (intBytes 0x13 0 0 0x40)
  let g : IntJob := { queue := 80, part := 3, desc := intBytes 0x10 0 0 0x40, ctx := [], input := [], aad := [], key := none, early := none, suspended := false, dual := false }
  setInt 5 { job := some g } { s with eng := { s.eng with order := 1 } }

theorem test_slot_turn_hypotheses : slotTurn (intFirst (intBytes 0x13 0 0 0x40) genkeySt) (intStarted (intBytes 0x13 0 0 0x40) genkeySt) = false ∧
    intParamBad (intDesc (intBytes 1 0xFF 0 0x40)) = true ∧
    Safety.noneWaits (intQ (intBytes 0x13 0 0 0x40)) ∧ Safety.intCommand 2 1 ≠ Safety.intCommand 2 0x13 := by
  exact ⟨by decide +kernel, by decide +kernel, noneWaits_of _ (by decide +kernel), by decide⟩

/-- Every engine runs a request that is not urgent, and an urgent one waits. -/
def intJob (q : Nat) (d : List Byte) : IntJob := { queue := q, part := 3, desc := d, ctx := [], input := [], aad := [], key := none, early := none, suspended := false, dual := false, loaded := true }
def busySt : State := (List.range 8).foldl (fun s k => setInt k { job := some (intJob 80 (intBytes 0x13 0 0 0x40)) } s) (intQ (intBytes 1 0 1 0x40))

theorem test_intaglio_end_hypotheses : busySt.ch.ops = [] ∧ fld (reactOf (srcInt 2) busySt) 57 56 = 0 ∧ (intEnd 2 none busySt).flt.due = [] ∧
    (intEnd 2 (some 7) (raiseClass 0 (srcInt 2) 0x05 (some 3) 0 false busySt)).flt.due = [] ∧ natAt (intBytes 0x10 0 0 0x40) 24 8 = 0 ∧
    keySlotOf 0x40 busySt = none ∧ (intOf 2 busySt).job = some (intJob 80 (intBytes 0x13 0 0 0x40)) ∧ clearWaits (intJob 80 (intBytes 0x13 0 0 0x40)) busySt = false ∧
    maySuspend 0 busySt = true ∧ urgentWaits busySt = true := by decide +kernel

/-! Trust, the host port, Maquette and register writes (groups of 18, 24, 26, 01). -/

theorem test_report_hypotheses : admin .service st = true ∧ admin .pf1 st = false ∧ st.tr.attJob = none ∧ attAreaOk 0x100 = true ∧ attAreaOk 0x104 = false ∧
    pstateOf 3 (partSt .stopped) ≠ .undefined ∧ pstateOf 3 st = .undefined ∧ (pattOf 3 st).busy = false := by decide +kernel

/-- Partition 3 asks for a report into its own storage. -/
def pattSt : State := setPatt 3 { busy := true, result := 0, addr := 0x1000, area := 0x1000 } (coreSt [])

theorem test_partition_report_hypotheses : Safety.settled pattSt ∧ (pattOf 3 pattSt).busy = true ∧ partMapped 3 (pattOf 3 pattSt).area reportLen pattSt = true ∧
    partMissing .service 3 (pattOf 3 pattSt).area 32 pattSt = [] ∧ (∃ u, partWrite .service 3 0x1000 [1, 2] pattSt = u ∧ u.flt = pattSt.flt) ∧
    (decide (pstateOf 3 pattSt = .undefined)) = false ∧ partMapped 3 (fld 0x1000000000001000 51 6 * 64) reportLen pattSt = true := by
  constructorm* _ ∧ _ <;> first | decide +kernel | rfl | exact ⟨_, rfl, by decide +kernel⟩

theorem test_entropy_hypotheses : st.tr.esS = false ∧ ({ st with tr := { st.tr with esN := true } } : State).tr.esN = true ∧ fld (reactOf (srcEntropy true) st) 57 56 = 0 ∧
    reseedDue 48 st = false ∧ reseedDue 48 (torSt (fun t => { t with tor := 4000000000 })) = true := by decide +kernel

/-- Partition 3 with UUID 01..10 and storage on this module; node 5 is a member. -/
def uuid3 : List Byte := (List.range 16).map (fun i => BitVec.ofNat 8 (i + 1))
def rekeySt : State :=
  let s := coreSt []
  { s with pln := { s.pln with parts := [(3, some { part3 with uuid := uuid3, extents := [{ real := 0, size := 0x200000, phys := 0, attr := 0 }] })] },
           arm := { s.arm with db := [(5, some ⟨adv5 3, 0⟩)] } }

theorem test_rekey_hypotheses : tget none 4 rekeySt.arm.db = none ∧ tget none 5 rekeySt.arm.db ≠ none ∧ (∀ p ∈ partIds rekeySt, uuidOf p rekeySt ≠ []) ∧
    (partIds rekeySt).find? (fun q => uuidOf q rekeySt == uuid3) = some 3 ∧ (match partOf 3 rekeySt with | some d => homedHere d rekeySt | none => false) = true := by
  refine ⟨rfl, by simp [rekeySt, tget, coreSt], by decide +kernel, by decide +kernel, by decide +kernel⟩

/-- A grant of partition 3 waits for nodes 5 and 6. -/
def pendGrant (w : List Nat) : PendGrant := { session := .uart, scope := .partition 3, expiry := 100, since := 0, waiting := w }

theorem test_pending_grant_hypotheses : (pendGrant [323, 387]).waiting.contains (5 * 64 + 3) = true ∧ (pendGrant [323, 387]).waiting.filter (fun k => k != 5 * 64 + 3) ≠ [] ∧
    (pendGrant [323]).waiting.filter (fun k => k != 5 * 64 + 3) = [] ∧ (pendGrant []).since + 400000000 ≤ (torSt (fun t => { t with tor := 400000000 })).tor.tor := by decide +kernel

/-- The host link is UP. -/
def hostSt (f : State → State := id) : State := let s := rekeySt; f { s with hp := { s.hp with state := 2 }, pf0 := { s.pf0 with memEnable := true }, pf1 := { s.pf1 with memEnable := true, bme := true } }

/-- The example of 24 after R535: entry 3 of the window table, with partition 9's publications 5 and 6. -/
def windowSt : State := hostSt (fun s => { s with
  pln := { s.pln with parts := [(9, some { part3 with id := 9, hostPerm := 1, extents := [{ real := 0x2000000, size := 0x1000000, phys := 0, attr := 0 }] })] },
  tr := { s.tr with pubs := [(9 * 16 + 5, some ⟨0x2300000, 20, 3⟩), (9 * 16 + 6, some ⟨0x2400000, 20, 3⟩)] },
  hp := { s.hp with win := [(3, ⟨0x9942540000000000, 0⟩)], shadow := [(3, ⟨0x9942580000000000, 0⟩)] } })

theorem test_window_example : winSlot .pf1 (3 * 2 ^ 36 + 0x40000) = (3, 0x40000) ∧ winPlace 3 0x40000 512 true windowSt = some (.storage 9 0x2340000) ∧
    winPlace 3 0x40200 512 true (commitWindows 8 windowSt) = some (.storage 9 0x2440200) ∧ winPlace 3 0x100000 8 false (commitWindows 8 windowSt) = none := by decide +kernel

theorem test_commit_hypotheses : Safety.settled windowSt ∧ hostUp windowSt = true ∧ windowSt.pf1.flr = false ∧
    (∀ n, n < 17 → (0x8 : BitVec 17).toNat.testBit n = true → winEntryOk n (shadowOf n windowSt) = true) ∧ winEntryOk 4 (shadowOf 4 (setShadow 4 ⟨0x9002540000000000, 1⟩ windowSt)) = false := by
  constructorm* _ ∧ _ <;> first | decide +kernel | rfl

theorem test_window_hypotheses : fnOpen windowSt.pf1 = true ∧ fnOpen windowSt.pf0 = true ∧ fnOpen rekeySt.pf1 = false ∧ partMissingAs 0 .hostRead 9 0x2340000 4 windowSt = [] ∧ partReadAs 0 .hostRead 9 0x2340000 4 windowSt = ([0, 0, 0, 0], false) ∧
    (partWrite (.hostWrite 1) 9 0x2340000 [1, 2, 3, 4] windowSt).flt = windowSt.flt ∧ fld (reactOf srcHost windowSt) 57 56 = 0 ∧ svcPoisoned 0x100 8 windowSt = false ∧ 0x100 + 8 ≤ svcSize := by decide +kernel

theorem test_flash_window_hypotheses : winPlace 16 0x100 4 false (hostSt (fun s => { s with hp := { s.hp with win := [(16, ⟨0xD140000000000000, 0⟩)] } })) = some (.flash 0x100) := by decide +kernel

theorem test_config_hypotheses : st.tor.tor < st.hp.since + 800000000 ∧ st.hp.since + 800000000 ≤ 800000000 ∧ barSize 1 2 ≠ 0 ∧ (fnOf 1 st).flr = false := by decide +kernel

/-- Queue pair 3 waits for the slot with tag 7. -/
def fetchSt (now : Nat) : State :=
  let s := qpSt .rasp 1 none 1
  setQueue .rasp 3 { (queueOf .rasp 3 s) with fetch := some 7 } { s with hp := { s.hp with state := 2, req := [(7, some ⟨3, 0⟩)] }, tor := { s.tor with tor := now } }

theorem test_completion_hypotheses : Safety.settled (fetchSt 0) ∧ hostUp (fetchSt 0) = true ∧ tget none 8 (fetchSt 0).hp.req = none ∧ tget none 7 (fetchSt 0).hp.req = some ⟨3, 0⟩ ∧ qpBlock 3 (fetchSt 0) = some .rasp ∧
    (queueOf .rasp 3 (fetchSt 0)).fetch = some 7 ∧ 0 + 200000000 ≤ (fetchSt 200000000).tor.tor := by
  constructorm* _ ∧ _ <;> first | decide +kernel | rfl

theorem test_claim_pair_hypotheses : (qpOf 3 st).owner = none ∧ (2 : Nat) % 4 ≠ 0 ∧ (partOf 3 (partSt .running)).any (fun d => d.hostPerm.testBit (kindPerm (1 % 4))) = false ∧
    (partOf 3 { partSt .running with pln := { st.pln with parts := [(3, some { part3 with hostPerm := 7 })] } }).any (fun d => d.hostPerm.testBit (kindPerm (1 % 4))) = true ∧
    (qpOf 3 (qpSt .rasp 1 none 0)).owner = some 3 ∧ qpBlock 3 (qpSt .rasp 1 none 0) = some .rasp ∧ (queueOf .rasp 3 (qpSt .rasp 1 none 0)).state ≠ 0 ∧
    (queueOf .rasp 3 (setQueue .rasp 3 {} (qpSt .rasp 1 none 0))).state = 0 := by decide +kernel

/-- Queue pair 3 as a mailbox of partition 3 whose core 5 waits, with a message in and a reply out. -/
def mailSt : State :=
  let s := coreSt [] (fun c => { c with run := .waiting none })
  setQueue .mailbox 3 { size := 4, state := 1, slot := some (List.replicate 64 7), head := 0, tail := 1 }
    (setQp 3 { (qpOf 3 s) with kind := 3, owner := some 3, inbox := 0x1000, notify := 5, outTail := 1 } { s with pf1 := { s.pf1 with bme := true } })

theorem test_mailbox_hypotheses : Safety.settled mailSt ∧ mailboxOwner 3 mailSt = some 3 ∧ mailboxOwner 4 mailSt = none ∧ (queueOf .mailbox 3 mailSt).slot = some (List.replicate 64 7) ∧ (queueOf .mailbox 3 mailSt).state = 1 ∧
    inboxRoom 3 mailSt = true ∧ boxesMapped 3 3 mailSt = true ∧ (partWrite (.hostWrite 1) 3 0x1000 (List.replicate 64 7) mailSt).flt = mailSt.flt ∧ partOfCore 5 mailSt = some 3 ∧
    (coreOf 5 mailSt).run = .waiting none ∧ (qpOf 3 mailSt).outTail ≠ (qpOf 3 mailSt).outHead ∧ fnMaster mailSt.pf1 = true ∧ partMissing .hostRead 3 (0x1000 + 2 ^ 4 * 64) 64 mailSt = [] ∧
    partRead .hostRead 3 (0x1000 + 2 ^ 4 * 64) 64 mailSt = (List.replicate 64 0, false) := by
  constructorm* _ ∧ _ <;> first | decide +kernel | rfl

theorem test_host_reset_hypotheses : (fnOf 1 (hostSt (fun s => { s with pf1 := { s.pf1 with flr := true } }))).flr = true ∧ windowSt.pf1.bme = true ∧
    tget false 4 ({ st.pf1 with pba := [(4, true)] } : HostFn).pba = true ∧ st.hp.perst = true ∧ ({ st with hp := { st.hp with perst := false } } : State).hp.perst = false ∧
    ({ st with hp := { st.hp with state := 1 } } : State).hp.state = 1 ∧ st.pin.hpLost = false := by decide +kernel

/-- Texts of the monitor. -/
def uartSt (line : List Byte) : State := { st with mq := { st.mq with line := line } }

theorem test_maquette_line_hypotheses : Safety.settled st ∧ mqUp st = true ∧ (13 : Byte) ≠ 10 ∧ (0x74 : Byte) ≠ 13 ∧ parseLine (asc "frob") = .inl 1 ∧ (uartSt (asc "frob")).mq.line ≠ [] ∧ (uartSt (asc "frob")).mq.uart.await = none ∧
    parseLine (asc "tor") = .inr .tor ∧ (asc "tor").length ≤ 256 ∧ natAt (svcBytes 0x03FF0000 8 st) 0 8 = st.mq.inSeq ∧ ([[1, 2]] : List (List Byte)).flatMap (fun l => l ++ [13, 10]) = [1, 2, 13, 10] := by
  constructorm* _ ∧ _ <;> first | decide +kernel | rfl

/-- The mailbox holds the line `tor` with IN_SEQ 1. -/
def mbxSt : State := svcWrite 0x03FF0100 (asc "tor") (svcWrite 0x03FF0008 (beBytes 4 3) (svcWrite 0x03FF0000 (beBytes 8 1) st))

theorem test_mailbox_line_hypotheses : natAt (svcBytes 0x03FF0000 8 mbxSt) 0 8 ≠ mbxSt.mq.inSeq ∧ natAt (svcBytes 0x03FF0008 4 mbxSt) 0 4 = 3 ∧ mbxSt.mq.mbx.await = none ∧
    parseLine (svcBytes 0x03FF0100 3 mbxSt) = .inr .tor := by decide +kernel

/-- A session that sends a token for partition 3, and one that holds a grant of it until TOR 100. -/
def sessSt (x : MqSession) : State := setSession .uart x rekeySt

theorem test_grant_hypotheses : Safety.settled (sessSt {}) ∧ mqUp (sessSt {}) = true ∧ grantIn (otherSession .mailbox) (sessSt { grant := some (.partition 3, 100) }) = some (.partition 3) ∧
    grantIn (otherSession .uart) (sessSt {}) ≠ some (.partition 3) ∧ (sessionOf .uart (sessSt {})).await = none ∧ (sessionOf .uart (sessSt { await := some (.partition 3) })).await = some (.partition 3) ∧
    asc "4D51" ≠ asc "." ∧ hexBytes (asc "4D51") = some [0x4D, 0x51] ∧ hexBytes (asc "xy") = none ∧ (sessSt {}).tr.pend = none ∧ (partOf 3 (sessSt {})).isSome = true ∧
    remoteNodes 3 (sessSt {}) = [] ∧ (sessSt {}).eng.inta = [] ∧ tokenFault (.partition 3) [] (sessSt {}) = some "format" ∧
    (grantIn .uart (sessSt { grant := some (.partition 3, 100) })).isSome = true ∧ (grantIn .uart (sessSt {})).isSome = false ∧
    (sessionOf .uart (sessSt { grant := some (.partition 3, 0) })).grant = some (.partition 3, 0) ∧ 0 ≤ (sessSt {}).tor.tor := by
  constructorm* _ ∧ _ <;> first | decide +kernel | rfl

def ctlGrant (s : State) : State := setSession .uart { grant := some (.partition 3, 100) } s

theorem test_control_hypotheses : control .uart (fun _ => true) (sessSt {}) = .inl 4 ∧ control .uart (coversCore 9 (ctlGrant (coreSt []))) (ctlGrant (coreSt [])) = .inl 4 ∧
    control .mailbox (coversCore 5 (ctlGrant (coreSt []))) (ctlGrant (coreSt [])) = .inl 8 ∧ control .uart (fun _ => true) { st with flt := { st.flt with checkstop := true } } = .inl 6 ∧
    grantIn .uart (ctlGrant (coreSt [])) = some (.partition 3) ∧ coversCore 5 (ctlGrant (coreSt [])) (.partition 3) = true ∧ recState 5 (ctlGrant (coreSt [])) = 0 ∧
    armOf 3 0x1000 (ctlGrant (coreSt [])) = some 0x1000 ∧ isLocal 0x1000 (ctlGrant (coreSt [])) = true ∧ remoteReady 0x1000 false (ctlGrant (coreSt [])) = true ∧
    attrAt 0 3 0x1000 (ctlGrant (coreSt [])) = 0 ∧ agentHas .service 0 0x1000 (ctlGrant (coreSt [])) = true ∧
    agentRead .service 0 0x1000 8 (ctlGrant (coreSt [])) = (List.replicate 8 0, false) ∧ (agentWrite .service (some 3) 0x1000 (beBytes 8 7) (ctlGrant (coreSt []))).flt = (ctlGrant (coreSt [])).flt ∧
    armOf 3 0x900000 (ctlGrant (coreSt [])) = none ∧ spareFree (5 / 16) (ctlGrant (coreSt [])) = true := by decide +kernel

/-- Core 5 halted with one ADD at its PC. -/
def haltSt : State := ctlGrant (coreSt addWord (fun c => { c with run := .stopped, mqHalt := true }))
def stepSt : State := modCore 5 (fun c => { c with mqHalt := true, mqStep := true, mqWait := some .uart, run := .running }) haltSt

theorem test_step_hypotheses : (coreOf 5 haltSt).run = .stopped ∧ (coreOf 5 haltSt).mqHalt = true ∧ partOfCore 5 haltSt = some 3 ∧ pstateOf 3 haltSt = .running ∧ firstCond 5 stepSt = none ∧ (coreOf 5 haltSt).sb = [] ∧
    (match fetchGroup 5 (coreOf 5 haltSt).pc.toNat stepSt with
     | .ok f s1 => decide (s1 = { stepSt with cpu := s1.cpu, sto := s1.sto, free := s1.free }) &&
        decide (coreOf 5 s1 = { coreOf 5 stepSt with l1i := (coreOf 5 s1).l1i, l1d := (coreOf 5 s1).l1d, l2 := (coreOf 5 s1).l2, dtlb := (coreOf 5 s1).dtlb, itlb := (coreOf 5 s1).itlb, tlb2 := (coreOf 5 s1).tlb2, walk := (coreOf 5 s1).walk }) &&
        decide (decodeGroup f.raw f.stop = .ops [.alu .add false 5 6 (.reg 7)])
     | _ => false) = true := by decide +kernel

theorem test_register_hypotheses : decodeReg 0x100010 = some .plnStage ∧ (∃ off, decodeReg off = none) ∧ (match decodeReg 0x100000 with | some r => hasWrite r | none => true) = false ∧ powered offSt = false ∧
    partWritable 3 .plnCmd st = false ∧ (7 : Nat) % 8 ≠ 0 := by
  constructorm* _ ∧ _ <;> first | decide +kernel | exact ⟨1, by decide +kernel⟩

theorem test_quiet_hypotheses : Safety.graceful st ∧ Safety.noneWaits (homeSt none) ∧ Safety.noneWaits (askSt 2 0) ∧ Safety.monitorIdle st ∧
    Safety.monitorIdle (sessSt {}) ∧ Safety.monitorIdle haltSt ∧ Safety.graceful haltSt ∧ mqBusy { st with tr := { st.tr with pend := some (pendGrant []) } } = true ∧
    Safety.monitorStill { st with tr := { st.tr with pend := some (pendGrant []) } } := by
  constructorm* _ ∧ _ <;> first | decide +kernel | rfl | exact graceful_of_react _ rfl | exact noneWaits_of _ (by decide +kernel) | exact ⟨by decide +kernel, rfl⟩ | exact ⟨by decide +kernel, rfl, rfl⟩

theorem test_grace_steps_hypotheses : (let s := { fltSt 0x148 { pending := true, timer := some 0 } with flt := { (fltSt 0x148 { pending := true, timer := some 0 }).flt with react := [(0x148, 0xF500000000000000)] } }
      nextStep 0x148 s = some 1) ∧
    nextStep 0x159 (chainSt 0xF600000000000000 { pending := true, timer := some 0, part := 3, step := 1 }) = some 2 ∧
    pstateOf 3 (setPState 3 .running (chainSt 0xF600000000000000 { pending := true, timer := some 0, part := 3, step := 1 })) ≠ .undefined := by decide +kernel

/-- The frame of a second that does not follow the last edge's, and a follower at its third edge. -/
theorem test_reference_bounds : natAt (frameOf 946771200) 3 8 ≠ 1 + 1 ∧ edgeSt.tor.tor ≤ 4000000000 + 4000080000 ∧ follows edgeSt = false ∧
    follows { edgeSt with tor := { edgeSt.tor with master := some 2, fabricDisable := false }, arm := { edgeSt.arm with node := some 1 } } = true ∧
    ¬((1 + 1) * 4000000000 ≤ 8000000401 + 400 ∧ 8000000401 ≤ (1 + 1) * 4000000000 + 400) := by decide +kernel

/-- A follower disciplined from its master, without a reference. -/
def fabricSt : State := { followSt with tor := { followSt.tor with state := .fabric } }

theorem test_control_of_time_hypotheses : follows fabricSt = true ∧ towardMaster fabricSt = true ∧ fabricSt.tor.refHeld = false ∧ fabricSt.tor.window = false ∧ admin .service fabricSt = true ∧
    powered fabricSt = true ∧ follows (lockedSt 0) = false ∧ (lockedSt 0).tor.window = true ∧ exchDue 0 fabricSt = true ∧
    exchDue 0 { fabricSt with tor := { fabricSt.tor with exch := [(0, some 0)] } } = false := by decide +kernel

theorem test_comparator_values : (cmpValue 0 (coreOf 5 (setCore 5 { torctl := 1 } st)) st).toNat ≤ st.tor.tor ∧
    st.tor.tor < (cmpValue 0 (coreOf 5 (setCore 5 { torctl := 1, torcmp := [(0, 1)] } st)) st).toNat := by decide +kernel

/-- The checks of a staged image end in PLINTH and in READY, with a fault or with the image. -/
theorem test_checks_hypotheses (b : List Byte) (s : State) : checksNow (phaseSt .plinth) = true ∧ checksNow (phaseSt .ready) = true ∧
    (let x : State := { phaseSt .plinth with pln := { st.pln with state := .verifying, job := some ⟨1, [], none, .noImage, 0⟩ } }
     x.pln.state = .verifying ∧ checksNow x = true ∧ operating x = true ∧ x.pwr.phase ≠ .ready ∧ checkImage (1 == 2) [] x = .inl 1) ∧
    ((∃ r, checkImage false b s = .inl r) ∨ ∃ i, checkImage false b s = .inr i) := by
  refine ⟨by decide +kernel, by decide +kernel, by decide +kernel, ?_⟩
  cases checkImage false b s <;> simp

theorem test_last_stage_hypotheses : (⟨2, [], some routesImage, .applied, 5⟩ : PlnJob).stage = 5 ∧ routesImage.parts.all (fun d => ownQueuesIdle d.id (jobSt .applying ⟨2, [], some routesImage, .applied, 5⟩)) = true ∧
    homedHere { part3 with extents := [{ real := 0, size := 0x200000, phys := 0, attr := 0 }] } st = true := by decide +kernel

/-- A core within a group, and cores at rest. -/
theorem test_partition_rest_hypotheses : (let s := partSt .stopping (fun s => setCore 5 { run := .running, ioHold := some none } s)
      (∃ l ∈ coresOf 3 s, (coreOf l s).run = .running ∧ midGroup (coreOf l s) = true)) ∧
    (∀ l ∈ coresOf 3 (runSt .stopping .stopped), (coreOf l (runSt .stopping .stopped)).sb = [] ∧ (coreOf l (runSt .stopping .stopped)).wc = []) ∧
    (∀ l ∈ coresOf 3 (runSt .running .running), inService l (runSt .running .running) = true) ∧ 3 ∉ (partSt .stopped).pln.starting ∧
    Safety.graceful (partSt .stopped) ∧ Safety.graceful (partSt .checkstopped) ∧ Safety.graceful (runSt .running .running) := by
  refine ⟨?_, by decide +kernel, by decide +kernel, by decide +kernel, graceful_of_react _ rfl, graceful_of_react _ rfl, graceful_of_react _ rfl⟩
  decide +kernel

theorem test_reset_pin_hypotheses : ({ st with pin := { st.pin with resetLow := true } } : State).pin.resetLow = true ∧ (99 : Nat) < 100 ∧ (100 : Nat) ≤ 100 ∧ (999 : Nat) < 1000 ∧
    powered st = true ∧ st.tor.keptValid = false := by decide +kernel

/-- Bring-up with an image to apply, without and with a fabric and a journal that are ready. -/
def bootSt (p : Phase) : State := { phaseSt p with pln := { st.pln with state := .applying, job := some ⟨1, [], some routesImage, .noImage, 3⟩ } }

theorem test_bringup_image_hypotheses : ((bootSt .fabric).pln.job.bind (·.image)) = some routesImage ∧ ((bootSt .journal).pln.job.bind (·.image)) = some routesImage := ⟨rfl, rfl⟩

theorem test_bringup_ready_hypotheses : fabricReady (bootSt .fabric) = false ∧
    fabricReady { bootSt .fabric with arm := { st.arm with fstate := 2 } } = true ∧ journalReady (bootSt .journal) = true ∧
    (let s : State := { bootSt .journal with pln := { (bootSt .journal).pln with module_ := some { modSec with partnerMode := 1, partnerNode := 2 } }, dx := { st.dx with state := 4 } }
     journalReady s = false) ∧
    (let s : State := { bootSt .plinth with pwr := { st.pwr with phase := .plinth, warm := true } }
     s.pln.state ≠ .verifying ∧ (bootJob s).isSome = true) ∧ (jobSt .verifying ⟨1, [], none, .noImage, 0⟩).pln.state = .verifying ∧
    (loadStores [1, 2, 3, 4] { phaseSt .controlStore with cs := { st.cs with flash := [(1, some []), (9, some [])] } }).1 = false ∧ (phaseSt .ready).pln.state ≠ .applying ∧
    ({ st with pin := { st.pin with sysLost := true } } : State).pin.sysLost = true := by decide +kernel

theorem test_feed_choice_hypotheses : betterFeed 54000 0 = true ∧ betterFeed 0 54000 = false ∧ betterFeed 39999 0 = false ∧
    (let s : State := { st with pwr := { st.pwr with srcB := true } }; s.pwr.srcB = true ∧ powered s = true) ∧ ({ st with pwr := { st.pwr with aOk := true } } : State).pwr.aOk = true ∧
    (let s : State := { offSt with pin := { st.pin with prsnt := false }, pwr := { offSt.pwr with aOk := false, bOk := false } }; s.pwr.aOk = false ∧ s.pwr.bOk = false ∧ powered s = false) ∧
    (19999 : Nat) < 20000 ∧ (3000 : Nat) ≤ 3000 := by decide +kernel

theorem test_dram_error_hypotheses : Safety.graceful (dramSt 2 st) ∧ physKind (2 ^ 40) (dramSt 2 st) ≠ .dram ∧ eccOk [9] = true ∧ eccOk [0, 9] = true ∧ (0 : Nat) ≠ 9 ∧
    ({ dram0 with pa := 0x1234500 } : DramReq).pa % 128 + 64 ≤ 128 ∧ ({ dram0 with write := some [7] } : DramReq).write = some [7] := by
  constructorm* _ ∧ _ <;> first | decide +kernel | rfl | exact graceful_of_react _ rfl

theorem test_recast_trigger_hypotheses : inService 5 st = true ∧ inService 5 recastSt = false ∧ hardKind .supply = true ∧ hardKind .predictive = false ∧ hardKind .commanded = false ∧
    recastIn (5 / 16) (setRecast 0 (some ⟨5, .commanded, true⟩) st) = some ⟨5, .commanded, true⟩ ∧ begun (coreOf 5 st) = false ∧ drained 5 recastSt = true ∧ recastSt.mq.queue = [] ∧
    inService 5 (setRecast 0 (some ⟨5, .commanded, true⟩) st) = true ∧ spareFree (5 / 16) (setRecast 0 (some ⟨6, .hard, false⟩) st) = false := by decide +kernel

theorem test_failed_group_hypotheses : coreLive 5 (coreSt addWord) = true ∧ spareFree (5 / 16) (coreSt addWord) = true ∧ (4 : Nat) ≤ 4 ∧
    coreLive 5 (setRecast 0 (some ⟨6, .hard, false⟩) (coreSt addWord)) = true ∧ spareFree (5 / 16) (setRecast 0 (some ⟨6, .hard, false⟩) (coreSt addWord)) = false ∧
    (coreOf 5 (coreSt addWord)).rep = none ∧ mqBusy (coreSt addWord) = false ∧ sbCount (coreOf 5 (coreSt addWord)).sb ≤ 48 ∧ (coreSt addWord).mq.queue = [] := by decide +kernel

/-- The two longs of the new state are read from the slot, and change caches alone. -/
theorem test_slot_hypotheses : (match sysRead 5 0 (0x1000 + 0x20 * (condInfo 5 (coreOf 5 (mcSt true)).pc (.exigent ⟨1, 0, 0x14D, 0, false, 0xF⟩) (mcSt true)).k + 0x10) 8 (mcSt true) with
    | .val a s1 => (match sysRead 5 0 (0x1000 + 0x20 * (condInfo 5 (coreOf 5 (mcSt true)).pc (.exigent ⟨1, 0, 0x14D, 0, false, 0xF⟩) (mcSt true)).k + 0x18) 8 s1 with
      | .val b s2 => decide (s2 = { mcSt true with cpu := s2.cpu, sto := s2.sto }) &&
          decide (coreOf 5 s2 = { coreOf 5 (mcSt true) with l1i := (coreOf 5 s2).l1i, l1d := (coreOf 5 s2).l1d, l2 := (coreOf 5 s2).l2 }) &&
          tswOk (BitVec.ofNat 64 (beNat a)) && pcOk (BitVec.ofNat 64 (beNat b) : Long).toNat
      | _ => false)
    | _ => false) = true ∧
    sbCount (coreOf 5 (mcSt true)).sb + exchangeNeed 0x1000 (condInfo 5 (coreOf 5 (mcSt true)).pc (.exigent ⟨1, 0, 0x14D, 0, false, 0xF⟩) (mcSt true)) ≤ 48 := by decide +kernel

theorem test_gated_and_grain_hypotheses : (coreOf 5 (coreSt [] (fun c => { c with run := .gated (some 100) }))).run = .gated (some 100) ∧
    coreLive 5 (coreSt [] (fun c => { c with run := .gated (some 100) })) = true ∧ coreHeld 5 (waitSt 100) = false ∧ sbe.data.length ≤ sbe.grain := by decide +kernel

theorem test_control_store_hypotheses : Safety.graceful (ctlSt { state := 1, flips := [(0, 3)] }) ∧ tget 0 0 (storeOf 7 (ctlSt { state := 1, flips := [(0, 3)] })).flips = 3 ∧
    (storeOf 0 (setStore 0 { state := 1 } st)).state = 1 ∧ (storeOf 7 (ctlSt { state := 1, pos := targetWords (storeTarget 7) - 1 })).pos + 1 = targetWords (storeTarget 7) ∧
    ({ st with cs := { st.cs with busy := true } } : State).cs.busy = true := by
  constructorm* _ ∧ _ <;> first | decide +kernel | rfl | exact graceful_of_react _ rfl

/-- A channel port whose image permits a clear link. -/
def clearSt (now : Nat) : State :=
  { linkSt (.ch 2) { state := 5 } with pln := { st.pln with module_ := some { modSec with clearLink := 4 } }, tor := { st.tor with tor := now } }

theorem test_limit_of_key_hypotheses : clearAllowed (.ch 2) (clearSt 20000000000) = true ∧ (linkOf (.ch 2) (clearSt 20000000000)).since + 20000000000 ≤ (clearSt 20000000000).tor.tor ∧
    Safety.graceful (clearSt 0) ∧ portEnabled (.ch 2) (clearSt 40000000) = true ∧ portEnabled (.arm 2) st = false ∧
    (linkOf (.arm 2) (linkSt (.arm 2) { state := 4 })).state = 4 ∧ (linkOf (.arm 2) (linkSt (.arm 2) { state := 2 })).state = 2 ∧ (linkOf (.arm 2) (linkSt (.arm 2) { state := 8 })).state = 8 := by
  constructorm* _ ∧ _ <;> first | decide +kernel | rfl | exact graceful_of_react _ rfl

/-- A change of width that both ends agree on. -/
def widthL : Link := { active with widthPending := true, widthAgreed := true, widthSent := 0x07, peerGood := 0x07 }

theorem test_width_hypotheses : (let l := { markOff (.arm 2) widthL with widthPending := false, widthAgreed := false }
      (chooseWidth (.arm 2) (widthLimit (.arm 2) l st) (goodMask (.arm 2) l)).1 ≠ 0) ∧
    ({ widthL with widthAgreed := false } : Link).widthAt + 4000 ≤ 4000 ∧ (fltStatus (srcPort (.arm 2)) st).fenced = false ∧
    (fltStatus (srcPort (.arm 2)) (fltSt (srcPort (.arm 2)) { fenced := true })).fenced = true ∧ Safety.graceful (linkSt (.arm 2) active) ∧
    (let l := markOff (.arm 2) { active with state := 7, width := 1, peerGood := 0 }
     (chooseWidth (.arm 2) (widthLimit (.arm 2) l st) (goodMask (.arm 2) l)).1 = 0) ∧
    (let s := linkSt (.arm 2) { active with encOn := true, rotMark := 0 }
     (linkOf (.arm 2) s).encOn = true ∧ (linkOf (.arm 2) s).rotMark < ({ s with tor := { s.tor with tor := 2400000000000 } } : State).tor.tor / 2400000000000) := by
  constructorm* _ ∧ _ <;> first | decide +kernel | rfl | exact graceful_of_react _ rfl

/-- A DATA flit of an Armature port with one whole LINK_MGT message, in clear as in KEY. -/
def armFlit : List Byte := mkFlit (flitHeader 1 3 7 4095 false false 0 0 0 (msgBytes (mgtMsg [1])).length true true) (msgBytes (mgtMsg [1]))

theorem test_armature_flit_hypotheses : armFlit.length = 256 ∧ headerOk (.arm 2) (flitOf armFlit) = true ∧ (flitOf armFlit).ftype = 1 ∧ (flitOf armFlit).enc = false ∧
    kindVc (msgOfBytes ((flitOf armFlit).payload.take (flitOf armFlit).len)).kind = some (flitOf armFlit).vc ∧
    clearForbidden (.arm 2) (flitOf armFlit) { active with state := 5 } = false ∧ ({ active with uncorrRun := 15 } : Link).uncorrRun = 15 ∧
    (8 ≤ (⟨7, dataFlit 7, 1, 8, [1, 2, 3, 4], true, true, none⟩ : TxFlit).replays) ∧ Safety.graceful (linkSt (.arm 2) active) := by
  constructorm* _ ∧ _ <;> first | decide +kernel | rfl | exact graceful_of_react _ rfl

/-- A node ID in use by another module, and a claim of this module that a lower serial meets. -/
theorem test_same_id_hypotheses : dupNode 5 (Config.serial + 2) (armSt (fun a => { a with db := [(5, some ⟨adv5 3, 0⟩)] })) = true ∧
    (∀ x : Long, x.toNat < Config.serial.toNat → ({ adv5 3 with serial := x } : Adv).serial.toNat < Config.serial.toNat) ∧
    (let s := armSt (fun a => { a with node := some 5, fstate := 3, claimed := some 0 }) 39999999
     s.arm.node = some (adv5 3).node ∧ s.arm.claimed = some 0 ∧ s.tor.tor < 0 + 40000000 ∧ s.arm.fstate ≠ 0 ∧ s.arm.fstate ≠ 6) ∧
    (let s := armSt (fun a => { a with node := some 1, fstate := 4, db := [(1, some ⟨adv5 3, 0⟩)] }) 400000000
     ∀ m, tget none 1 s.arm.db = some m → m.seen + 400000000 ≤ s.tor.tor) := by
  refine ⟨?_, fun _ h => h, by decide +kernel, ?_⟩
  · simp [dupNode, armSt, linkSt, setLink, adv5, tget]
  · intro s m h
    simp [s, armSt, linkSt, setLink, tget] at h
    simp [← h, s, armSt]

/-- Lines of this home that another node holds, with and without a transaction under way. -/
def upg (kind : Nat) : Msg := req kind []

theorem test_holders_hypotheses : malformed 3 (upg 3) = false ∧ malformed 4 (upg 4) = false ∧ malformed 9 { req 9 [] with src := 5 } = false ∧
    dirOf (homeAddr / 128) (homeSt (some ⟨homeAddr / 128, false, 2 ^ 5 + 2 ^ 6⟩)) = some { line := homeAddr / 128, owned := false, holders := 2 ^ 5 + 2 ^ 6 } ∧
    (2 ^ 5 + 2 ^ 6) - ((2 ^ 5 + 2 ^ 6) &&& 2 ^ 5) ≠ 0 ∧ (2 ^ 6).testBit 5 = false ∧ homeAddr % 128 + 4 ≤ 128 ∧
    ((2 ^ 5 + 2 ^ 6).testBit 5 = true ∧ 2 ^ 5 + 2 ^ 6 ≠ 2 ^ 5) ∧ (∀ l, tget none (homeAddr / 128) (coreOf l (homeSt none)).held1 = none) := by
  constructorm* _ ∧ _ <;> first | decide +kernel | rfl | exact fun _ => rfl

/-- Requests of other agents of this module that are not answered yet. -/
def askFrom (who : Agent) (kind : Nat) (now : Nat) : State :=
  { askSt kind now with arm := { (askSt kind now).arm with reqs := [{ ask kind 0 with who := who }] } }
def sentSt : State := { askFrom (.core 5) 6 0 with cpu := { st.cpu with core := [(5, { sb := [{ sbe with addr := farAddr, sent := some 9 }] })] } }

theorem test_answers_hypotheses : malformed 9 (answer 9 []) = false ∧ reqOf (answer 8 []) (askFrom (.coreUc 5) 6 0) = some { ask 6 0 with who := .coreUc 5 } ∧
    reqOf (answer 9 []) (askFrom .service 5 0) = some { ask 5 0 with who := .service } ∧ reqOf (answer 9 []) sentSt = some { ask 6 0 with who := .core 5 } ∧
    (coreOf 5 sentSt).sb.findIdx? (fun x => x.sent == some (answer 9 []).tag) = some 0 ∧ (coreOf 5 sentSt).sb[0]? = some { sbe with addr := farAddr, sent := some 9 } ∧
    malformed 7 (answer 7 [0]) = false ∧ isLocal (farAddr / 128 * 128) (askSt 2 0) = false ∧ wbBuffer (farAddr / 128) (askSt 2 0) = none ∧
    ownHome (ask 2 0) (askSt 2 0) = false ∧ (ask 2 0).sends < 3 ∧ (3 : Nat) ≤ ({ ask 2 0 with sends := 3 } : OutReq).sends ∧ Safety.graceful (askSt 2 12000000) := by
  constructorm* _ ∧ _ <;> first | decide +kernel | rfl | exact graceful_of_react _ rfl

theorem test_transactions_hypotheses : (let s := setTxn 7 (some ⟨req 2 [], 0x60, 0, false, [], none⟩) (homeSt none); txnOf 7 s = some ⟨req 2 [], 0x60, 0, false, [], none⟩ ∧ tget [] 7 s.arm.queue = [] ∧ s.arm.fstate ≠ 5) ∧
    (req 2 []).kind = 2 ∧ (0x60 : Nat).testBit 5 = true ∧ (0x60 : Nat) ≠ 2 ^ 5 := by
  constructorm* _ ∧ _ <;> decide +kernel

/-- A wait of a chain, and one whose operation ends. -/
theorem test_wait_order_hypotheses : (let s := waitTor 1000 3 torOp
     (match readOrder (.subch 2) (jent 2 s).part torOp.pc s with | .ok r => !orderBad r && r.opcode == 0x22 && r.data == 1000 && !r.flags.testBit 0 | _ => false) = true ∧
     agentPending (.subch 2) s = false ∧ torOp.mod_ = none ∧ torOp.halt = none ∧ torOp.ending = none ∧ torOp.reach = true ∧ torOp.port = none ∧ torOp.cur = none) ∧
    (let s := chSt { state := 3 } torOp (orderBytes 0x22 1 0 1000) 1000
     (match readOrder (.subch 2) (jent 2 s).part torOp.pc s with | .ok r => !orderBad r && r.flags.testBit 0 | _ => false) = true) ∧
    takeNext 1 (waitTor 0 1 pendOp) = none ∧ partnerSub 2 (coreSt []) = false ∧ pendOp.started + 40000000 ≤ 40000000 := by decide +kernel

/-- A READ through the engines, and an operation under a halt. -/
def rdEng : DevOrd := { rdo with eng := 1 }

theorem test_device_end_hypotheses : (let s := devSt rdEng .device none 0; opOf 2 s = some { cp := some 0, port := some 4, origin := 0, ordered := true, cur := some rdEng, wait := .device, halt := none }) ∧
    rdEng.eng ≠ 0 ∧ isIn rdEng = true ∧ rdEng.pushed = false ∧ isIn wr = false ∧ agentPending (.subch 2) (devSt wr .device none 0) = false ∧ mirrorOn (devSt wr .device none 0) = false ∧
    wr.opcode = 0x10 ∧ Safety.graceful (devSt wr .device none 0) ∧ portActive (.ch 4) (devSt wr .device (some 0) 0) = true ∧ (0 : Nat) < 1 ∧
    (⟨0, 2, 0, 8, 1, 0, false, [1]⟩ : DataFrame).data.length ≤ 65520 ∧ (jent 2 (devSt wr .device none 0)).ordinal = 1 := by
  constructorm* _ ∧ _ <;> first | decide +kernel | rfl | exact graceful_of_react _ rfl

/-- Copies in resync: the partner's later one, and an own entry that is older, and one that is newer. -/
def lateCopy : JEntry := { copyOf with tor := 9 }
def syncSt (e : JEntry) (own : Bool) : State :=
  setJent 6 e (pairSt 3 4 (fun s => if own then { s with pln := { s.pln with parts := [(3, some part3)] } } else s))

theorem test_resync_hypotheses : (syncSt { tor := 1 } false).dx.state = 4 ∧ ownSub 6 (syncSt { tor := 1 } false) = false ∧ ownSub 6 (syncSt { tor := 1 } true) = true ∧
    mirrorOn (syncSt { tor := 1 } true) = true ∧ (jnlMsg 0 (mirrorBody 6 7 false lateCopy)).body.length = 72 ∧
    (jentOf ((jnlMsg 0 (mirrorBody 6 7 false lateCopy)).body.drop 8)).tor = 9 ∧ (jent 6 (syncSt { tor := 1 } true)).tor < 9 ∧ 9 ≤ (jent 6 (syncSt { tor := 10 } true)).tor ∧
    (syncSt {} true).jnl.theirs.contains 6 = false := by decide +kernel

/-- The START of core 5 waits for its acknowledgement. -/
def startSt : State := pairSt 2 2 (fun s => setOp 6 (some {}) { s with
  jnl := { s.jnl with out := [{ outMirror 0 with trans := 1, sync := true, core := some 5 }] }, cpu := { s.cpu with core := [(5, { ioHold := some none })] } })

theorem test_start_ack_hypotheses : startSt.jnl.out.find? (fun y => y.tag == 9) = some { outMirror 0 with trans := 1, sync := true, core := some 5 } ∧ opOf 6 startSt = some {} ∧
    (coreOf 5 startSt).ioHold = some none ∧ bits (natAt (mirrorAckBody 6 1 false 5 0) 0 8) 40 39 = 0 ∧ bits (natAt (mirrorAckBody 6 1 false 5 0) 0 8) 45 41 = 1 ∧
    malformed 1 (jnlMsg 1 (mirrorAckBody 6 1 false 5 0)) = false ∧ ({} : ChOp).blk.bad = false ∧
    (let s : State := { lateSt 12000000 with arm := { (lateSt 0).arm with node := some 3 } }
     mirrorLate 6 s = true ∧ mirrorOn s = true ∧ partnerNode s < s.arm.node.getD 0) ∧ Safety.graceful (lateSt 12000000) := by
  constructorm* _ ∧ _ <;> first | decide +kernel | rfl | exact graceful_of_react _ rfl

/-- Copies of configurations that are still to leave, with a route to the partner. -/
def copySt : State := pairSt 2 2 (fun s => { s with dx := { s.dx with copies := [6] }, arm := { s.arm with routes := [(2, { primary := some 2 })] } })

theorem test_pair_end_hypotheses : copySt.dx.copies = [6] ∧ partnerPort copySt = some 2 ∧ partnerOn copySt = true ∧ (info false 0).namesUs = false ∧ mayPair (pairSt 2 2) = false ∧
    (pairSt 2 2).dx.copies = [] := by decide +kernel

/-- A partner that says that it leaves, and a path whose miss is the third. -/
theorem test_leaving_hypotheses : hbValid 0x0820000000000000 (hbSt 80000 0 0 80000) = true ∧ lbit 0x0820000000000000 53 = true ∧ hbValid 0 (hbSt 80000 0 0 80000) = false ∧
    (hbSt 80000 0 0 100000).dx.released = false ∧ (hbOf .armature (hbSt 80000 1 0 100000)).run < 2 ∧ (80000 : Nat) ≤ 80000 + 20000 ∧ holder (pairSt 2 5) = false := by decide +kernel

theorem test_resume_hypotheses : (queueOf .rasp 3 (setQueue .rasp 3 { size := 4, state := 3, pause := 2 } (qpSt .rasp 1 none 0))).state = 3 ∧
    (setQueue .rasp 3 { size := 4, state := 3, pause := 2 } (qpSt .rasp 1 none 0)).pf1.bme = true ∧ (coreSt []).pf1.bme = false ∧
    (queueOf .rasp 3 (setQueue .rasp 3 { size := 4, state := 1, fetch := some 7 } (qpSt .rasp 1 none 0))).fetch.isSome = true ∧
    (queueOf .rasp 76 (qSt .rasp (fun q => { q with state := 1, busy := true }))).busy = true ∧ mayQueue .service .intaglio 200 st = true := by decide +kernel

/-- A job whose input is poisoned, and one with a context. -/
def poisonQ : State := { raspQ (raspDesc 1 0x500) with sto := { (raspQ (raspDesc 1 0x500)).sto with poison := [(0x14, true)] } }
def ctxDesc : List Byte := (raspDesc 1 0x500).take 0x20 ++ beBytes 8 0x1000 ++ List.replicate 24 0

theorem test_rasp_context_hypotheses : (partRead (.rasp 76) 3 0x500 4 poisonQ).2 = true ∧ raspParamBad (raspDesc 1 0x500) = false ∧ partMissing (.rasp 76) 3 0x500 4 poisonQ = [] ∧ partBad (.rasp 76) 3 0x500 4 poisonQ = some 0 ∧
    natAt ctxDesc 0x20 8 = 0x1000 ∧ ctxDesc.length = 64 ∧ jobMapped 76 3 0x1000 ctxLen (raspQ ctxDesc) = true ∧ partUnowned 3 (0x1000 + 0x18) 8 (raspQ ctxDesc) = [] ∧
    (partRead (.rasp 76) 3 (0x1000 + 0x18) 8 (raspQ ctxDesc)).1 = bytesAt (List.replicate ctxLen (0 : Byte)) 0x18 8 ∧ agentPending (.rasp 76) raspRunSt = false ∧
    fnMaster (qpSt .rasp 1 none 0).pf1 = true ∧ (raspQ (raspDesc 1 0x500)).ch.ops = [] ∧ (raspOf 3 raspRunSt).job = none := by decide +kernel

/-- An engine uses the slot that a CLEAR names. -/
def usedSt : State := setInt 5 { job := some { intJob 80 (intBytes 1 0 0 0x40) with key := some { key := List.replicate 16 0, alg := 0, usage := 0, never := false, uuid := [] } } } (intQ (intBytes 0x13 0 0 0x40))

/-- A CLEAR that started after it. -/
def clearJob : IntJob := { intJob 81 (intBytes 0x13 0 0 0x40) with start := 1 }

theorem test_clear_waits_hypotheses : slotUsers 0x40 usedSt = 1 ∧ (intOf 2 usedSt).job = none ∧ clearWaits clearJob usedSt = true ∧ clearJob.loaded = true ∧
    agentPending (.intaglio 80) busySt = false ∧ Safety.graceful busySt ∧ urgentAt 3 (intQ (intBytes 1 0 1 0x40)) = true ∧
    (let s := setInt 2 { job := some (intJob 80 (intBytes 1 0 1 0x40)), susp := some (intJob 81 (intBytes 1 0 0 0x40)) } (intQ (intBytes 1 0 0 0x40))
     (intOf 2 s).susp = some (intJob 81 (intBytes 1 0 0 0x40)) ∧ clearWaits (intJob 80 (intBytes 1 0 1 0x40)) s = false) := by
  constructorm* _ ∧ _ <;> first | decide +kernel | rfl | exact graceful_of_react _ rfl

theorem test_report_end_hypotheses : (pattOf 3 (setPatt 3 { busy := true, result := 0, addr := 0x1000, area := 0x1000, wrote := true } (coreSt []))).wrote = true ∧
    (pattOf 3 pattSt).wrote = false ∧ agentPending .service pattSt = false ∧ Safety.graceful pattSt ∧ (pattOf 3 st).busy = false ∧
    partMapped 3 0x900000 reportLen pattSt = false ∧ ({ st with tr := { st.tr with attJob := some ⟨some 3, 0x100⟩ } } : State).tr.attJob = some ⟨some 3, 0x100⟩ := by
  constructorm* _ ∧ _ <;> first | decide +kernel | rfl | exact graceful_of_react _ rfl

theorem test_grant_destruction_hypotheses : (let s : State := { rekeySt with tr := { rekeySt.tr with pend := some (pendGrant [323]) } }
      Safety.monitorStill s ∧ s.tr.pend = some (pendGrant [323]) ∧ s.tor.tor < (pendGrant [323]).since + 400000000) ∧
    Safety.graceful st ∧ 3 < 48 ∧ (323 : Nat) = 5 * 64 + 3 := by
  constructorm* _ ∧ _ <;> first | decide +kernel | rfl | exact graceful_of_react _ rfl | exact ⟨by decide +kernel, rfl, rfl⟩

theorem test_bar_hypotheses : apertureMiss 0 windowSt = false ∧ apertureMiss 0x80000 { windowSt with hp := { windowSt.hp with aper := 0x1FFF } } = true ∧ fnOpen (fnOf 0 windowSt) = true ∧
    fnOpen (fnOf 1 rekeySt) = false ∧ (4 : Nat) ≠ 8 ∧ 4 % 8 ≠ 0 ∧ agentPending (.hostWrite 1) windowSt = false ∧ Safety.graceful windowSt ∧ hostUp rekeySt = false ∧
    winEntryOk 3 (shadowOf 3 windowSt) = true ∧ windowSt.hp.state = 2 := by
  constructorm* _ ∧ _ <;> first | decide +kernel | rfl | exact graceful_of_react _ rfl

theorem test_completion_without_queue_hypotheses : (let s : State := { fetchSt 0 with hp := { (fetchSt 0).hp with req := [(9, some ⟨3, 0⟩)] } }
      tget none 9 s.hp.req = some ⟨3, 0⟩ ∧ ∀ b, qpBlock 3 s = some b → (queueOf b 3 s).fetch ≠ some 9) ∧
    Safety.graceful (fetchSt 200000000) ∧ (fetchSt 199999999).tor.tor < 0 + 200000000 := by
  refine ⟨⟨rfl, fun b h => ?_⟩, graceful_of_react _ rfl, by decide⟩
  have : b = .rasp := by
    have e : qpBlock 3 { fetchSt 0 with hp := { (fetchSt 0).hp with req := [(9, some ⟨3, 0⟩)] } } = some .rasp := by decide +kernel
    exact Option.some.inj (h.symm.trans e)
  subst this
  decide +kernel

theorem test_mailbox_state_hypotheses : (queueOf .mailbox 3 mailSt).post = none ∧ (queueOf .mailbox 3 (setQueue .mailbox 3 { (queueOf .mailbox 3 mailSt) with state := 3, pause := 3 } mailSt)).pause = 3 ∧
    ((queueOf .mailbox 3 mailSt).cqTail + 2 ^ (queueOf .mailbox 3 mailSt).size - (queueOf .mailbox 3 mailSt).cqHead) % 2 ^ (queueOf .mailbox 3 mailSt).size < 2 ^ (queueOf .mailbox 3 mailSt).size - 1 ∧
    agentPending (.hostWrite 1) (partWrite (.hostWrite 1) 3 0x1000 (List.replicate 64 7) mailSt) = false ∧ Safety.graceful mailSt ∧
    boxesMapped 3 3 (setQp 3 { (qpOf 3 mailSt) with inbox := 0x900000 } mailSt) = false := by
  constructorm* _ ∧ _ <;> first | decide +kernel | rfl | exact graceful_of_react _ rfl

theorem test_link_of_host_hypotheses : windowSt.pf0.flr = false ∧ windowSt.pf1.flr = false ∧ operating { st with pwr := { st.pwr with on := false } } = false ∧ (fnOf 1 windowSt).flr = false ∧
    (let s : State := { windowSt with pf1 := { windowSt.pf1 with pba := [(4, true)], msixEnable := true, vOpen := [(4, true)] } }
     tget false 4 s.pf1.pba = true ∧ s.pf1.msixEnable = true ∧ s.pf1.fnMask = false ∧ tget false 4 s.pf1.vOpen = true) ∧
    (let s : State := { st with hp := { st.hp with state := 1, perst := false } }; s.hp.state = 1 ∧ s.hp.perst = false ∧ s.pin.hpLost = false) ∧ (4 : Nat) < 130 := by decide +kernel

/-- A line waits behind one that is executed; the monitor's line is too long; the baud rate has changed. -/
theorem test_monitor_hypotheses : (let s : State := { st with tr := { st.tr with pend := some (pendGrant [323]) } }; mqBusy s = true ∧ mqUp s = true ∧ Safety.monitorStill s) ∧
    ({ st with mq := { st.mq with tooLong := true } } : State).mq.tooLong = true ∧ ({ st with mq := { st.mq with baudSince := some 0 } } : State).mq.baudSince = some 0 ∧
    115200 ∈ [115200, 230400, 460800, 921600, 1500000, 3000000] ∧ 9600 ∉ [115200, 230400, 460800, 921600, 1500000, 3000000] ∧
    Safety.monitorIdle mbxSt ∧ Safety.monitorIdle (uartSt (asc "frob")) ∧ (0x41 : Byte) ≠ 10 := by
  constructorm* _ ∧ _ <;> first | decide +kernel | rfl | exact ⟨by decide +kernel, rfl⟩ | exact ⟨by decide +kernel, rfl, rfl⟩

theorem test_control_state_hypotheses : Safety.monitorIdle (ctlGrant (coreSt [])) ∧ Safety.graceful (ctlGrant (coreSt [])) ∧ homeReady (lineOf 0x1000) true (ctlGrant (coreSt [])) = true ∧
    agentPending .service (ctlGrant (coreSt [])) = false ∧ Safety.memoryWf (ctlGrant (coreSt [])) ∧ twf none (ctlGrant (coreSt [])).cpu.dirty = true ∧
    (coreOf 5 (ctlGrant (coreSt []))).losing = none ∧ (coreOf 5 (ctlGrant (coreSt []))).run = .running ∧ midGroup (coreOf 5 (ctlGrant (coreSt []))) = false ∧
    (coreOf 5 (ctlGrant (coreSt [] (fun c => { c with run := .waiting none })))).run = .waiting none ∧
    coversCore 5 (ctlGrant (coreSt [] (fun c => { c with run := .waiting none }))) (.partition 3) = true ∧ (coreOf 5 haltSt).mqHalt = true ∧ (coreOf 5 haltSt).wc = [] ∧
    (coreOf 5 haltSt).rep = none ∧ midGroup (coreOf 5 haltSt) = false ∧
    stepSt = deliverHeld 5 (modCore 5 (fun c => { c with mqHalt := true, mqStep := true, mqBound := false, mqWait := some .uart, run := .running }) haltSt) := by
  constructorm* _ ∧ _ <;> first | decide +kernel | rfl | exact graceful_of_react _ rfl | exact ⟨by decide +kernel, rfl⟩

theorem test_write_hypotheses : operating st = true ∧ powered st = true ∧ decodeReg 0x5010110 = some (.qDb .rasp 4) ∧ decodeReg 0x5010120 = some (.qCmd .rasp 4) ∧
    decodeReg 0x9000008 = some .trAttCmd ∧ decodeReg 0x9001038 = some (.trPatt 3) ∧ decodeReg 0x7000500 = some .hpWinCmd ∧ decodeReg 0x7002000 = some .hpQpCmd ∧
    fld 0x1000000000000000 63 60 = 1 ∧ ({ st with pf0 := { st.pf0 with flr := true } } : State).pf0.flr = true := by decide +kernel

/-! Conditions on which the later clauses rest. -/

/-- Every engine but engine 2 runs an urgent request: engine 2 is the one that suspends. -/
def oneSt : State := (List.range 8).foldl (fun s k => setInt k { job := some (intJob 80 (intBytes 0x13 0 (if k = 2 then 0 else 1) 0x40)) } s) (intQ (intBytes 1 0 1 0x40))
def progressSt : State := (List.range 8).foldl (fun s m => intProgress m s) oneSt
def freedSt : State := setInt 2 { (intOf 2 progressSt) with job := none } progressSt

set_option maxRecDepth 20000 in
theorem test_urgent_hypotheses : maySuspend 2 oneSt = true ∧ urgentWaits oneSt = true ∧ urgentEngine progressSt = some 2 ∧ urgentEngine progressSt ≠ some 3 ∧ (intOf 2 oneSt).failed = false ∧
    (∃ j, (intOf 2 progressSt).job = some j) ∧ askDescs .intaglio freedSt = freedSt ∧ urgentNext freedSt = some 3 ∧ queuePart .intaglio 3 freedSt = some 3 ∧
    (match takeDesc .intaglio 3 freedSt with | .desc x => x == intBytes 1 0 1 0x40 | _ => false) = true ∧
    slotTurn (intFirst (intBytes 1 0 1 0x40) freedSt) (intStarted (intBytes 1 0 1 0x40) freedSt) = true ∧
    (∃ j, intRead (intFirst (intBytes 1 0 1 0x40) freedSt) (intStarted (intBytes 1 0 1 0x40) freedSt) = .inr j) ∧ Safety.graceful oneSt := by
  constructorm* _ ∧ _ <;> first | decide +kernel | rfl | exact graceful_of_react _ rfl | exact ⟨_, rfl⟩

/-- A READ answered for no core, a line for which another waits, and an entry of the home table that nothing else waits for. -/
theorem test_home_wait_hypotheses : (∀ l b, (.service : Agent) ≠ .core l ∧ (.service : Agent) ≠ .pref l b) ∧
    (let x : HomeTxn := ⟨req 2 [], 0x60, 0, false, [(5, 9)], none⟩
     let s := setTxn 7 (some x) (homeSt none)
     x.tags.contains ((answer 8 []).src, (answer 8 []).tag) = true ∧ x.room = none ∧ ∀ n y, txnOf n s = some y → y.room ≠ some 7) ∧
    Safety.noneWaits (askFrom .service 2 0) ∧ Safety.noneWaits (askFrom (.coreUc 5) 6 0) ∧ Safety.noneWaits sentSt := by
  refine ⟨fun l b => by simp, ⟨by decide, rfl, fun n y h => ?_⟩, noneWaits_of _ (by decide +kernel), noneWaits_of _ (by decide +kernel), noneWaits_of _ (by decide +kernel)⟩
  have := tget_of (P := fun x : Option HomeTxn => ∀ y, x = some y → y.room ≠ some 7) (d := none) (t := (setTxn 7 (some ⟨req 2 [], 0x60, 0, false, [(5, 9)], none⟩) (homeSt none)).arm.txn) n
    (fun y h => by simp at h) (by intro e he y h; simp [setTxn, homeSt, setDir, armSt, linkSt, setLink, st, State.reset, tset, tins] at he; subst he; cases h; simp)
  exact this y h

/-- Nothing of a range that partition 3 loses is elsewhere, and nobody that leaves waits. -/
theorem test_leavers_hypotheses : awayRanges (rangesLeft [part3] (coreSt [])) (coreSt []) = [] ∧ zeroReady (rangesLeft [part3] (coreSt [])) (coreSt []) = true ∧
    leaversReady [part3] (coreSt []) = true ∧ (⟨1, [], some routesImage, .applied, 5⟩ : PlnJob).cmd = 1 := by decide +kernel

theorem test_rest_of_partition_hypotheses : (∀ l ∈ coresOf 3 (partSt .stopped), recState l (partSt .stopped) ≠ 2) ∧ agentPending (.hostWrite 1) (partSt .stopping) = false ∧
    (chainSt 0 { fenced := true }).ch.ops = [] ∧ (coreOf 5 (coreSt addWord)).attempts = 0 := by decide +kernel

/-- The replay buffer holds a flit that has been sent again seven times. -/
theorem test_replay_end_hypotheses : ∃ f ∈ [(⟨7, dataFlit 7, 1, 7, [1, 2, 3, 4], true, true, none⟩ : TxFlit)], 7 ≤ f.replays := by decide +kernel

/-- A duplex partner that has still to be told, and one that has been told. -/
theorem test_telling_hypotheses : partnerOn (pairSt 2 2) = true ∧ mayLeave (pairSt 2 2) = true ∧ (pairSt 2 2).arm.fstate = 4 ∧ (pairSt 2 2).arm.telling = none ∧
    (pairSt 2 2 (fun s => { s with arm := { s.arm with fstate := 5, telling := some 4 } })).arm.telling = some 4 ∧
    (pairSt 2 2 (fun s => { s with arm := { s.arm with fstate := 5, telling := some 4 } })).pin.prsnt = true ∧
    (let s := armSt (fun a => { a with fstate := 5, leaveAt := some 0 })
     s.arm.leaveAt = some 0 ∧ ({ s with tor := { s.tor with window := false } } : State).tor.window = false) := by decide +kernel

/-- A report of a member whose digest differs, at the announcer. -/
theorem test_epoch_report_hypotheses : (let s : State := { followSt with tor := { followSt.tor with master := some 1 } }
    announcer s = true ∧ activeArm s ≠ [] ∧ s.arm.report ≠ some (3, [1]) ∧ s.tor.window = false) ∧ (1 : Nat) ≠ 0 := by decide +kernel

/-- A subchannel in a range of the partner's. -/
theorem test_partner_range_hypotheses : partnerSub 2 { pairSt 2 2 with dx := { (pairSt 2 2).dx with parts := (info true 0).parts } } = true := by decide +kernel

theorem test_operation_hypotheses : torOp.chain = none ∧ pendOp.chain = none ∧ (∀ o, opOf 2 (devSt wr .held none 0) = some o → o.line = none) := by
  refine ⟨rfl, rfl, fun o h => ?_⟩
  cases Option.some.inj (h.symm.trans (rfl : opOf 2 (devSt wr .held none 0) = some _))
  rfl

/-- A record of a request that a destruction ended waits at its queue; an answer comes after 100 ms. -/
theorem test_lost_record_hypotheses : lostPosts rekeySt = false ∧ lostPosts (setQueue .intaglio 80 { post := some (beBytes 8 0 ++ [0x26], 3) } rekeySt) = true ∧
    grantDue st = st ∧ grantDue { st with tr := { st.tr with pend := some (pendGrant [323]) } } = { st with tr := { st.tr with pend := some (pendGrant [323]) } } ∧
    (pendGrant [323]).since + 400000000 ≤ ({ rekeySt with tor := { st.tor with tor := 400000000 }, tr := { rekeySt.tr with pend := some (pendGrant [323]) } } : State).tor.tor ∧
    (pendGrant [323]).waiting.contains (5 * 64 + 3) = true := by decide +kernel

/-- Caches that hold nothing of their own, where reads leave memory as it is. -/
theorem test_clean_hypotheses : windowSt.cpu.dirty = [] ∧ (∀ l, (coreOf l windowSt).held1 = [] ∧ (coreOf l windowSt).held2 = []) ∧ (hostSt (fun s => { s with cpu := { s.cpu with core := [] } })).cpu.core = [] ∧
    (if (winOf (winSlot .pf1 0).1 windowSt).uc then 3 else 0) = 0 ∧
    mailSt.cpu.dirty = [] ∧ (∀ l, (coreOf l mailSt).held1 = [] ∧ (coreOf l mailSt).held2 = []) ∧
    (raspQ (raspDesc 1 0x500)).cpu.dirty = [] ∧ (∀ l, (coreOf l (raspQ (raspDesc 1 0x500))).held1 = [] ∧ (coreOf l (raspQ (raspDesc 1 0x500))).held2 = []) ∧
    (intQ (intBytes 2 0 0 0x40)).cpu.dirty = [] ∧ ∀ l, (coreOf l (intQ (intBytes 2 0 0 0x40))).held1 = [] ∧ (coreOf l (intQ (intBytes 2 0 0 0x40))).held2 = [] :=
  ⟨rfl, fun l => tget_of (P := fun c : Core => c.held1 = [] ∧ c.held2 = []) l ⟨rfl, rfl⟩ (by decide +kernel), rfl, by decide +kernel,
    by decide +kernel, fun l => tget_of (P := fun c : Core => c.held1 = [] ∧ c.held2 = []) l ⟨rfl, rfl⟩ (by decide +kernel),
    by decide +kernel, fun l => tget_of (P := fun c : Core => c.held1 = [] ∧ c.held2 = []) l ⟨rfl, rfl⟩ (by decide +kernel),
    by decide +kernel, fun l => tget_of (P := fun c : Core => c.held1 = [] ∧ c.held2 = []) l ⟨rfl, rfl⟩ (by decide +kernel)⟩

/-! ### The package (27_electrical_package) -/

/-- The three examples after R599. -/
theorem test_land_examples : (landAt 19 32).name = "ARM2_RX5_N" ∧ (landAt 70 78).name = "DDR13_B_DQS_C4" ∧ (landAt 60 48).name = "MQ_RX" := by decide +kernel

/-- The lands that satisfy a test. -/
def landCount (f : Land → Bool) : Nat := ((List.range 96).map (fun c => (List.range 96).countP (fun r => f (landAt (c + 1) (r + 1))))).sum

/-- Counts of R599. -/
theorem test_land_counts : landCount (· == .gnd) = 6055 ∧ landCount (fun x => match x with | .ddr _ _ => true | _ => false) = 2464 ∧
    landCount (fun x => match x with | .lane _ _ _ _ => true | _ => false) = 448 ∧ landCount (· == .vinA) = 64 ∧ landCount (· == .vka) = 4 := by decide +kernel

/-- A posted write that waits holds back a read of the flash (24 R535). -/
theorem test_window_waits_hypotheses :
    let s := hostSt (fun s => { s with hp := { s.hp with win := [(16, ⟨0xD140000000000000, 0⟩)] },
                                       arm := { s.arm with later := [{ who := .hostWrite 1, part := some 9, addr := 0, data := [1] }] } })
    winPlace 16 0x100 4 false s = some (.flash 0x100) ∧ agentPending (.hostWrite 1) s = true := by decide +kernel

/-- Feeds are good in the state of the tests (25 R554). -/
theorem test_feed_good_hypotheses :
    (let s : State := { st with pwr := { st.pwr with aOk := true } }; s.pwr.aOk = true ∧ powered s = true) := by decide +kernel

end Sys2Proof.Tests
end

section
/-! PROOFS. The DRAM map of 12_dram R260 and R261: its fields, its hash, and that `physAt` undoes it. -/

namespace Sys2Proof.Machine

/-! ### Bit fields -/

theorem bits_eq_div_mod (x hi lo : Nat) : bits x hi lo = x / 2 ^ lo % 2 ^ (hi + 1 - lo) := by
  rw [bits, Nat.shiftRight_eq_div_pow]

theorem bits_lt (x hi lo : Nat) : bits x hi lo < 2 ^ (hi + 1 - lo) := Nat.mod_lt _ (Nat.two_pow_pos _)

/-- A field at or above bit `k` does not see the bits below `k`. -/
theorem bits_congr {x y k lo : Nat} (h : x / 2 ^ k = y / 2 ^ k) (hk : k ≤ lo) (hi : Nat) : bits x hi lo = bits y hi lo := by
  obtain ⟨d, rfl⟩ := Nat.exists_eq_add_of_le hk
  have hlo : x / 2 ^ (k + d) = y / 2 ^ (k + d) := by rw [Nat.pow_add, ← Nat.div_div_eq_div_mul, h, Nat.div_div_eq_div_mul]
  rw [bits_eq_div_mod, bits_eq_div_mod, hlo]

theorem xorFields_congr {x y k : Nat} (h : x / 2 ^ k = y / 2 ^ k) (w : Nat) {los : List Nat} (hk : ∀ lo ∈ los, k ≤ lo) :
    xorFields x w los = xorFields y w los :=
  List.foldl_ext _ _ _ fun _ lo hlo => by rw [bits_congr h (hk lo hlo)]

theorem xorFields_lt (x : Nat) {w : Nat} (hw : 0 < w) (los : List Nat) : xorFields x w los < 2 ^ w := by
  refine List.foldlRecOn (motive := (· < 2 ^ w)) los _ (Nat.two_pow_pos w) fun acc hacc lo _ => Nat.xor_lt_two_pow hacc ?_
  have hwidth : lo + w - 1 + 1 - lo = w := by omega
  exact (bits_lt x (lo + w - 1) lo).trans_eq (by rw [hwidth])

/-! ### The hash of the channel: its width, and that it reads no bit below those it hashes -/

theorem hash16_lt (pa : Nat) : hash16 pa < 2 ^ 4 :=
  Nat.xor_lt_two_pow (xorFields_lt pa (by decide) _) ((bits_lt pa 33 33).trans (by decide))

theorem hash8_lt (pa : Nat) : hash8 pa < 2 ^ 3 := xorFields_lt pa (by decide) _

theorem hash16_congr {x y : Nat} (h : x / 2 ^ 13 = y / 2 ^ 13) : hash16 x = hash16 y := by
  rw [hash16, hash16, xorFields_congr h 4 (by decide), bits_congr h (by decide)]

theorem hash8_congr {x y : Nat} (h : x / 2 ^ 12 = y / 2 ^ 12) : hash8 x = hash8 y := xorFields_congr h 3 (by decide)

/-- The bits of R260 above the granule's own, one term after the other. -/
theorem xor_hash16 (a pa : Nat) :
    a ^^^ hash16 pa = a ^^^ bits pa 16 13 ^^^ bits pa 20 17 ^^^ bits pa 24 21 ^^^ bits pa 28 25 ^^^ bits pa 32 29 ^^^ bits pa 33 33 := by
  simp only [hash16, xorFields, List.foldl, Nat.zero_xor, Nat.xor_assoc]

/-! ### The channel and the channel-local address -/

/-- The granule of an address among those of its band on its channel: the field of R261 in an 8-way band, of R260 in a 16-way one. -/
def granuleOf (pa : Nat) (s : State) : Nat := if band8 (pa / 2 ^ 34) s then bits pa 32 12 else bits pa 33 13

theorem granuleOf_of_band8 {pa : Nat} {s : State} (h : band8 (pa / 2 ^ 34) s = true) : granuleOf pa s = bits pa 32 12 := if_pos h

theorem granuleOf_of_band16 {pa : Nat} {s : State} (h : band8 (pa / 2 ^ 34) s = false) : granuleOf pa s = bits pa 33 13 :=
  if_neg (Bool.eq_false_iff.mp h)

theorem granuleOf_lt (pa : Nat) (s : State) : granuleOf pa s < 2 ^ 21 := by
  unfold granuleOf
  split
  · exact bits_lt pa 32 12
  · exact bits_lt pa 33 13

theorem channelOf_of_band8 {pa : Nat} {s : State} (h : band8 (pa / 2 ^ 34) s = true) :
    channelOf pa s = 8 * bits pa 33 33 + (bits pa 11 9 ^^^ hash8 pa) := if_pos h

theorem channelOf_of_band16 {pa : Nat} {s : State} (h : band8 (pa / 2 ^ 34) s = false) :
    channelOf pa s = bits pa 12 9 ^^^ hash16 pa := if_neg (Bool.eq_false_iff.mp h)

/-- The channel within its half is one of eight. -/
theorem channelInHalf_lt (pa : Nat) : bits pa 11 9 ^^^ hash8 pa < 8 := Nat.xor_lt_two_pow (bits_lt pa 11 9) (hash8_lt pa)

theorem channelOf_lt (pa : Nat) (s : State) : channelOf pa s < 16 := by
  cases h : band8 (pa / 2 ^ 34) s with
  | true =>
    have hhalf : bits pa 33 33 < 2 := bits_lt pa 33 33
    have hch := channelInHalf_lt pa
    rw [channelOf_of_band8 h]
    omega
  | false =>
    rw [channelOf_of_band16 h]
    exact Nat.xor_lt_two_pow (bits_lt pa 12 9) (hash16_lt pa)

theorem localOf_eq (pa : Nat) (s : State) :
    localOf pa s = pa / 2 ^ 34 * 2 ^ 30 + granuleOf pa s * 512 + bits pa 8 0 := by
  simp only [localOf, granuleOf]
  split <;> rfl

theorem localOf_band (pa : Nat) (s : State) : localOf pa s / 2 ^ 30 = pa / 2 ^ 34 := by
  have hg := granuleOf_lt pa s
  have ho := bits_lt pa 8 0
  rw [localOf_eq]
  omega

theorem localOf_granule (pa : Nat) (s : State) : bits (localOf pa s) 29 9 = granuleOf pa s := by
  have hg := granuleOf_lt pa s
  have ho := bits_lt pa 8 0
  rw [localOf_eq, bits_eq_div_mod]
  omega

theorem localOf_offset (pa : Nat) (s : State) : bits (localOf pa s) 8 0 = bits pa 8 0 := by
  have ho := bits_lt pa 8 0
  rw [localOf_eq, bits_eq_div_mod]
  omega

/-! ### The way back -/

/-! The band and the granule (in an 8-way band the half as well) tell all of an address above the bits that chose the channel. -/

theorem base16_eq (pa : Nat) : pa / 2 ^ 34 * 2 ^ 34 + bits pa 33 13 * 8192 = pa / 2 ^ 13 * 2 ^ 13 := by
  rw [bits_eq_div_mod]
  omega

theorem base8_eq (pa : Nat) : pa / 2 ^ 34 * 2 ^ 34 + bits pa 33 33 * 2 ^ 33 + bits pa 32 12 * 4096 = pa / 2 ^ 12 * 2 ^ 12 := by
  rw [bits_eq_div_mod, bits_eq_div_mod]
  omega

/-- In a 16-way band the hash of the base takes the channel back to the bits that chose it. -/
theorem physAt_of_band16 {pa : Nat} {s : State} (h : band8 (pa / 2 ^ 34) s = false) :
    physAt (channelOf pa s) (localOf pa s) s = pa := by
  have hhash : hash16 (pa / 2 ^ 13 * 2 ^ 13) = hash16 pa := hash16_congr (Nat.mul_div_cancel _ (Nat.two_pow_pos 13))
  calc physAt (channelOf pa s) (localOf pa s) s
      = pa / 2 ^ 13 * 2 ^ 13 + bits pa 12 9 * 512 + bits pa 8 0 := by
        simp only [physAt, localOf_band, localOf_granule, localOf_offset, h, Bool.false_eq_true, if_false, granuleOf_of_band16 h, base16_eq, hhash,
          channelOf_of_band16 h, Nat.xor_xor_cancel_right]
    _ = pa := by
        rw [bits_eq_div_mod, bits_eq_div_mod]
        omega

/-- In an 8-way band the channel gives its half, and the hash of the base takes the rest back to the bits that chose it. -/
theorem physAt_of_band8 {pa : Nat} {s : State} (h : band8 (pa / 2 ^ 34) s = true) :
    physAt (channelOf pa s) (localOf pa s) s = pa := by
  have hhash : hash8 (pa / 2 ^ 12 * 2 ^ 12) = hash8 pa := hash8_congr (Nat.mul_div_cancel _ (Nat.two_pow_pos 12))
  have hhalf : channelOf pa s / 8 = bits pa 33 33 := by
    rw [channelOf_of_band8 h, Nat.mul_add_div (by decide), Nat.div_eq_of_lt (channelInHalf_lt pa), Nat.add_zero]
  have hch : channelOf pa s % 8 = bits pa 11 9 ^^^ hash8 pa := by
    rw [channelOf_of_band8 h, Nat.mul_add_mod, Nat.mod_eq_of_lt (channelInHalf_lt pa)]
  calc physAt (channelOf pa s) (localOf pa s) s
      = pa / 2 ^ 12 * 2 ^ 12 + bits pa 11 9 * 512 + bits pa 8 0 := by
        simp only [physAt, localOf_band, localOf_granule, localOf_offset, h, if_true, granuleOf_of_band8 h, hhalf, base8_eq, hhash, hch,
          Nat.xor_xor_cancel_right]
    _ = pa := by
        rw [bits_eq_div_mod, bits_eq_div_mod]
        omega

theorem physAt_channelOf_localOf (pa : Nat) (s : State) : physAt (channelOf pa s) (localOf pa s) s = pa := by
  cases h : band8 (pa / 2 ^ 34) s with
  | true => exact physAt_of_band8 h
  | false => exact physAt_of_band16 h

/-! ### The formulas of R260 -/

theorem channelOf_formula {pa : Nat} {s : State} (h : band8 (pa / 2 ^ 34) s = false) :
    channelOf pa s = (pa >>> 9 % 16) ^^^ (pa >>> 13 % 16) ^^^ (pa >>> 17 % 16) ^^^ (pa >>> 21 % 16) ^^^ (pa >>> 25 % 16) ^^^
      (pa >>> 29 % 16) ^^^ (pa >>> 33 % 2) := by
  rw [channelOf_of_band16 h, xor_hash16]
  rfl

theorem localOf_formula {pa : Nat} {s : State} (h : band8 (pa / 2 ^ 34) s = false) :
    localOf pa s = pa >>> 34 * 2 ^ 30 + (pa >>> 13 % 2 ^ 21) <<< 9 + pa % 512 := by
  have hg : granuleOf pa s = pa >>> 13 % 2 ^ 21 := granuleOf_of_band16 h
  have ho : bits pa 8 0 = pa % 512 := rfl
  rw [localOf_eq, hg, ho, Nat.shiftRight_eq_div_pow pa 34, Nat.shiftLeft_eq]

/-- Settles O26: the formulas of R260 by unfolding their fields, the way back because the hash reads only bits that the channel-local address
and the half keep. -/
theorem dramMapIsInvertible : Obligations.DramMapIsInvertible := fun pa s =>
  ⟨fun h => ⟨channelOf_formula h, localOf_formula h⟩, channelOf_lt pa s, localOf_band pa s, physAt_channelOf_localOf pa s⟩

end Sys2Proof.Machine
end

section
/-! PROOFS. What storage traffic, events and the end of a command leave of the recast state: the drain of a core's stores, the write-back of its
caches, the monitor's answers (10 R238; 11 R253; 20 R465 to R475; 21 R485, R486; 26 R572). -/

namespace Sys2Proof.Machine

/-- What no storage traffic, event or answer writes: the registers of recast but for the states and slots of the cores, the reaction entries, and
the lines that wait at the monitor. -/
structure RecastRegs where
  spare : Tab Nat
  inProgress : Tab (Option Recasting)
  recBusy : Bool
  recResult : Nat
  react : Tab Long
  queue : List MqItem

/-- These, in a state. -/
def recastRegs (s : State) : RecastRegs where
  spare := s.cpu.spare
  inProgress := s.cpu.inProgress
  recBusy := s.cpu.recBusy
  recResult := s.cpu.recResult
  react := s.flt.react
  queue := s.mq.queue

/-- A core keeps its registers, is not given a reservation, and is being lost as it was. -/
structure CoreKeeps (c d : Core) : Prop where
  g : d.g = c.g
  f : d.f = c.f
  pc : d.pc = c.pc
  tsw : d.tsw = c.tsw
  losing : d.losing = c.losing
  resv : c.resv = none → d.resv = none

/-- From `s` to `t` no core enters or leaves service, moves or loses a register, no source's event is cleared, and, where every source's
`GRACE_US` leaves time, no escalation step falls due. -/
structure Keeps (s t : State) : Prop where
  regs : recastRegs t = recastRegs s
  recState : t.cpu.recState = s.cpu.recState
  slot : t.cpu.slot = s.cpu.slot
  core : ∀ k, CoreKeeps (coreOf k s) (coreOf k t)
  pending : ∀ i, (fltStatus i s).pending = true → (fltStatus i t).pending = true
  due : Safety.graceful s → t.flt.due = s.flt.due

theorem CoreKeeps.refl (c : Core) : CoreKeeps c c := ⟨rfl, rfl, rfl, rfl, rfl, id⟩

theorem CoreKeeps.trans {c d e : Core} (h : CoreKeeps c d) (k : CoreKeeps d e) : CoreKeeps c e :=
  ⟨k.g.trans h.g, k.f.trans h.f, k.pc.trans h.pc, k.tsw.trans h.tsw, k.losing.trans h.losing, k.resv ∘ h.resv⟩

theorem react_of_regs {s t : State} (h : recastRegs t = recastRegs s) : t.flt.react = s.flt.react := congrArg RecastRegs.react h

theorem queue_of_regs {s t : State} (h : recastRegs t = recastRegs s) : t.mq.queue = s.mq.queue := congrArg RecastRegs.queue h

theorem graceful_of_regs {s t : State} (h : recastRegs t = recastRegs s) (hg : Safety.graceful s) : Safety.graceful t := by
  intro i
  unfold reactOf
  rw [react_of_regs h]
  exact hg i

theorem Keeps.trans {s t u : State} (h : Keeps s t) (k : Keeps t u) : Keeps s u where
  regs := k.regs.trans h.regs
  recState := k.recState.trans h.recState
  slot := k.slot.trans h.slot
  core l := (h.core l).trans (k.core l)
  pending i := k.pending i ∘ h.pending i
  due hg := (k.due (graceful_of_regs h.regs hg)).trans (h.due hg)

theorem keeps_of_eq {s t : State} (hr : recastRegs t = recastRegs s) (hm : t.cpu.recState = s.cpu.recState) (hs : t.cpu.slot = s.cpu.slot)
    (hc : t.cpu.core = s.cpu.core) (hf : t.flt.status = s.flt.status) (hd : t.flt.due = s.flt.due) : Keeps s t where
  regs := hr
  recState := hm
  slot := hs
  core k := by unfold coreOf; rw [hc]; exact .refl _
  pending i h := by unfold fltStatus at *; rw [hf]; exact h
  due _ := hd

/-- What touches neither the cores' block, nor fault collection, nor the monitor. -/
theorem keeps_of_blocks {s t : State} (hc : t.cpu = s.cpu) (hf : t.flt = s.flt) (hm : t.mq = s.mq) : Keeps s t :=
  keeps_of_eq (by unfold recastRegs; rw [hc, hf, hm]) (by rw [hc]) (by rw [hc]) (by rw [hc]) (by rw [hf]) (by rw [hf])

theorem Keeps.refl (s : State) : Keeps s s := keeps_of_blocks rfl rfl rfl

theorem Sent.keeps {s t : State} (h : Sent s t) : Keeps s t := by
  obtain ⟨o, a, c, rfl⟩ := h
  exact keeps_of_blocks rfl rfl rfl

/-! From here on a lemma says that an operation keeps what was kept since a state `b`, so that a proof about a composed operation is composed as the
operation is. -/

section
variable {b s t : State}

theorem keeps_ite {c : Prop} [Decidable c] (h : Keeps b s) (k : Keeps b t) : Keeps b (if c then s else t) := by
  split
  · exact h
  · exact k

theorem keeps_when {c : Prop} [Decidable c] (ht : Keeps b s → Keeps b t) (h : Keeps b s) : Keeps b (if c then t else s) := keeps_ite (ht h) h

/-- A fold whose steps keep the state that they carry keeps it. -/
theorem keeps_foldl_on {α β : Type} (g : β → State) {f : β → α → β} (hf : ∀ r x, Keeps b (g r) → Keeps b (g (f r x))) {xs : List α} :
    ∀ {r}, Keeps b (g r) → Keeps b (g (xs.foldl f r)) := by
  induction xs with
  | nil => exact id
  | cons x t ih => exact fun h => ih (hf _ x h)

theorem keeps_foldl {α : Type} {f : State → α → State} {xs : List α} (hf : ∀ u x, Keeps b u → Keeps b (f u x)) (h : Keeps b s) :
    Keeps b (xs.foldl f s) := keeps_foldl_on id hf h

/-! ### Cores -/

theorem coreOf_modCore (l k : Nat) (f : Core → Core) (s : State) : coreOf k (modCore l f s) = if k = l then f (coreOf l s) else coreOf k s :=
  coreOf_setCore l k _ s

theorem keeps_modCore {f : Core → Core} {l : Nat} (hf : ∀ c, CoreKeeps c (f c)) (h : Keeps b s) : Keeps b (modCore l f s) := by
  refine h.trans ⟨rfl, rfl, rfl, fun k => ?_, fun _ => id, fun _ => rfl⟩
  rw [coreOf_modCore]
  split
  · subst k; exact hf _
  · exact .refl _

theorem keeps_onCores {f : Core → Core} {p : Nat → Bool} (hf : ∀ c, CoreKeeps c (f c)) (h : Keeps b s) : Keeps b (onCores p f s) :=
  keeps_foldl (fun _ _ => keeps_when (keeps_modCore hf)) h

theorem coreKeeps_loseResv (ln : Nat) (c : Core) : CoreKeeps c (loseResv ln c) := by
  unfold loseResv
  split
  · exact ⟨rfl, rfl, rfl, rfl, rfl, fun _ => rfl⟩
  · exact .refl c

theorem coreKeeps_dropFromCore (ln : Nat) (c : Core) : CoreKeeps c (dropFromCore ln c) := by
  unfold dropFromCore
  dsimp only
  split
  · exact (coreKeeps_loseResv ln c).trans ⟨rfl, rfl, rfl, rfl, rfl, id⟩
  · exact ⟨rfl, rfl, rfl, rfl, rfl, id⟩

theorem coreKeeps_snoopOff (ln : Nat) (c : Core) : CoreKeeps c (snoopOff ln c) := by
  unfold snoopOff
  split
  · exact .refl c
  · exact ⟨rfl, rfl, rfl, rfl, rfl, id⟩

theorem coreKeeps_foldl_loseResv (lines : List Nat) : ∀ c, CoreKeeps c (lines.foldl (fun c ln => loseResv ln c) c) := by
  induction lines with
  | nil => exact .refl
  | cons ln t ih => intro c; exact (coreKeeps_loseResv ln c).trans (ih _)

/-! ### Events -/

theorem keeps_setFlt {i : Nat} {v : FltStatus} (hv : (fltStatus i s).pending = true → v.pending = true) (h : Keeps b s) : Keeps b (setFlt i v s) := by
  refine h.trans ⟨rfl, rfl, rfl, fun _ => .refl _, fun j hj => ?_, fun _ => rfl⟩
  rw [fltStatus_setFlt]
  split
  · subst j; exact hv hj
  · exact hj

theorem keeps_logEntry {kind cls src part step detail : Nat} (h : Keeps b s) : Keeps b (logEntry kind cls src part step detail s) :=
  h.trans (keeps_of_eq rfl rfl rfl rfl rfl rfl)

theorem keeps_patina {i : Nat} (h : Keeps b s) : Keeps b (patina i s) := h.trans (keeps_of_eq rfl rfl rfl rfl rfl rfl)

theorem keeps_pulseErrN (h : Keeps b s) : Keeps b (pulseErrN s) := h.trans (keeps_of_eq rfl rfl rfl rfl rfl rfl)

theorem keeps_emit {o : Out} (h : Keeps b s) : Keeps b (emit o s) := h.trans (keeps_of_blocks rfl rfl rfl)

theorem keeps_pf0Vector {v : Nat} (h : Keeps b s) : Keeps b (pf0Vector v s) := h.trans (keeps_of_blocks (by simp) (by simp) (by simp))

theorem keeps_mcOnCore {l : Nat} {m : McPend} (h : Keeps b s) : Keeps b (mcOnCore l m s) :=
  keeps_modCore (fun _ => ⟨rfl, rfl, rfl, rfl, rfl, id⟩) h

theorem keeps_mcGive {p : Nat} {m : McPend} (h : Keeps b s) : Keeps b (mcGive p m s) := by
  unfold mcGive
  split
  · exact keeps_mcOnCore h
  · exact h.trans (keeps_of_eq rfl rfl rfl rfl rfl rfl)

theorem keeps_mcOnPart {p code addr source : Nat} (h : Keeps b s) : Keeps b (mcOnPart p code addr source s) := keeps_ite h (keeps_mcGive h)

theorem keeps_reactNotify {src code detail : Nat} {part : Option Nat} (h : Keeps b s) : Keeps b (reactNotify src code part detail s) := by
  have hn : Keeps b (if lbit (reactOf src s) 62 then pf0Vector 0 (emit (.scNotice src) s) else s) := keeps_ite (keeps_pf0Vector (keeps_emit h)) h
  refine keeps_ite ?_ hn
  cases part with
  | some p => exact keeps_mcOnPart hn
  | none => exact hn

/-- With a grace time the chain's first step falls due later, when the timer runs out (21 R486). -/
theorem keeps_startGrace {i : Nat} (h : Keeps b s) : Keeps b (startGrace i s) := by
  refine keeps_ite h ?_
  split
  · next hz => exact h.trans ⟨rfl, rfl, rfl, fun _ => .refl _, fun _ => id, fun hg => absurd hz (hg i)⟩
  · exact keeps_setFlt id h

theorem keeps_firstEvent {cls src code detail : Nat} {part : Option Nat} {holds : Bool} (h : Keeps b s) :
    Keeps b (firstEvent cls src code part detail holds s) := keeps_startGrace (keeps_reactNotify (keeps_setFlt (fun _ => rfl) h))

theorem keeps_laterEvent {cls src code : Nat} {part : Option Nat} {holds : Bool} (h : Keeps b s) :
    Keeps b (laterEvent cls src code part holds s) := by
  unfold laterEvent
  exact keeps_when keeps_startGrace (keeps_setFlt (fun hp => by split <;> exact hp) h)

/-- An event of a class other than UE-module. -/
theorem keeps_raiseClass {cls src code detail : Nat} {part : Option Nat} {holds : Bool} (hc : cls ≠ 3) (h : Keeps b s) :
    Keeps b (raiseClass cls src code part detail holds s) := by
  unfold raiseClass
  dsimp only
  rw [if_neg hc]
  have hlog := keeps_when (c := (lbit (reactOf src s) 63 || !(fltStatus src s).pending) = true)
    (keeps_logEntry (kind := 1) (cls := cls) (src := sourceNo code src) (part := part.getD 0x3F) (step := 0) (detail := detail))
    (keeps_patina (i := src) h)
  exact keeps_when keeps_pulseErrN (keeps_ite (keeps_laterEvent hlog) (keeps_firstEvent hlog))

theorem eventClass_ne_module {code : Nat} (h : code ≠ 0x10) : eventClass code ≠ 3 := by
  unfold eventClass
  split <;> simp_all

theorem keeps_raise {src code detail : Nat} {part : Option Nat} (hc : code ≠ 0x10) (h : Keeps b s) : Keeps b (raise src code part detail s) :=
  keeps_raiseClass (eventClass_ne_module hc) h

theorem keeps_raisePart {code detail : Nat} {part : Option Nat} (hc : code ≠ 0x10) (h : Keeps b s) : Keeps b (raisePart code part detail s) :=
  keeps_raise hc h

/-! ### Messages -/

theorem keeps_forwardMsg {m : Msg} {via : Option Nat} (h : Keeps b s) : Keeps b (forwardMsg m via s) := by
  unfold forwardMsg
  split
  · exact keeps_patina h
  · split
    · exact keeps_patina h
    · exact (keeps_emit h).trans (sent_linkSendVia ..).keeps

theorem keeps_sendReq {kind addr : Nat} {body : List Byte} {who : Agent} {part : Option Nat} (h : Keeps b s) :
    Keeps b (sendReq kind addr body who part s) := keeps_forwardMsg (h.trans (keeps_of_blocks rfl rfl rfl))

theorem keeps_setTxn {line : Nat} {x : Option HomeTxn} (h : Keeps b s) : Keeps b (setTxn line x s) := h.trans (keeps_of_blocks rfl rfl rfl)

theorem keeps_sendSnoop {holder line act : Nat} {req : Msg} (h : Keeps b s) : Keeps b (sendSnoop holder line act req s) :=
  keeps_forwardMsg (h.trans (keeps_of_blocks rfl rfl rfl))

theorem keeps_snoopHolders {line act holders : Nat} {req : Msg} {forRecall : Bool} (h : Keeps b s) :
    Keeps b (snoopHolders line act holders req forRecall s) :=
  keeps_setTxn (keeps_foldl_on (fun r : List (Nat × Nat) × State => r.2) (fun _ _ => keeps_sendSnoop) h)

theorem keeps_askHome {addr : Nat} {own : Bool} (h : Keeps b s) : Keeps b (askHome addr own s) := by
  refine keeps_ite h ?_
  split
  · exact h
  · exact keeps_snoopHolders h

theorem keeps_askRemote {addr : Nat} {own : Bool} {who : Agent} {part : Option Nat} (h : Keeps b s) :
    Keeps b (askRemote addr own who part s) :=
  keeps_ite h (keeps_ite (keeps_ite h (keeps_sendReq h)) (keeps_sendReq h))

theorem keeps_askLine {addr : Nat} {own : Bool} {who : Agent} {part : Option Nat} (h : Keeps b s) : Keeps b (askLine addr own who part s) :=
  keeps_ite (keeps_askHome h) (keeps_askRemote h)

/-! ### Storage and caches -/

theorem keeps_setPoison {line : Nat} {v : Bool} (h : Keeps b s) : Keeps b (setPoison line v s) := h.trans (keeps_of_blocks rfl rfl rfl)

theorem keeps_poisonLine {line : Nat} (h : Keeps b s) : Keeps b (poisonLine line s) := by
  refine keeps_ite (keeps_setPoison h) ?_
  split
  · exact h.trans (keeps_of_blocks rfl rfl rfl)
  · exact h

theorem keeps_sliceUse {line : Nat} {part : Option Nat} (h : Keeps b s) : Keeps b (sliceUse line part s) :=
  keeps_ite h (h.trans (keeps_of_blocks rfl rfl rfl))

theorem keeps_homeSet {a : Nat} {v : Byte} (h : Keeps b s) : Keeps b (homeSet a v s) := by
  refine keeps_ite (h.trans (keeps_of_blocks rfl rfl rfl)) ?_
  split
  · exact h.trans (keeps_of_blocks rfl rfl rfl)
  · exact h

theorem keeps_homeSetAll {data : List Byte} : ∀ {a : Nat} {s : State}, Keeps b s → Keeps b (homeSetAll a data s) := by
  induction data with
  | nil => exact id
  | cons x t ih => exact fun h => ih (keeps_homeSet h)

theorem keeps_writeBackIf {p : Nat → DByte → Bool} (h : Keeps b s) : Keeps b (writeBackIf p s) := by
  refine Keeps.trans (keeps_foldl (fun u e hu => ?_) h) (keeps_of_eq rfl rfl rfl rfl rfl rfl)
  split
  · exact keeps_homeSet hu
  · exact hu

theorem keeps_discardIf {p : Nat → DByte → Bool} (h : Keeps b s) : Keeps b (discardIf p s) := h.trans (keeps_of_eq rfl rfl rfl rfl rfl rfl)

theorem keeps_sliceBack {p : Nat → DByte → Bool} (h : Keeps b s) : Keeps b (sliceBack p s) := keeps_foldl (fun _ _ => keeps_sliceUse) h

theorem keeps_writeBackLine {line : Nat} (h : Keeps b s) : Keeps b (writeBackLine line s) := by
  unfold writeBackLine
  exact keeps_writeBackIf (keeps_when keeps_sliceUse h)

theorem keeps_snoopRead {l : Option Nat} {line : Nat} (h : Keeps b s) : Keeps b (snoopRead l line s) :=
  keeps_foldl (fun _ _ h => keeps_ite h (keeps_modCore (coreKeeps_snoopOff line) h)) h

theorem keeps_releaseRemote {line : Nat} {who : Agent} {part : Option Nat} (h : Keeps b s) : Keeps b (releaseRemote line who part s) := by
  unfold releaseRemote
  split
  · exact h
  · have hd := h.trans (keeps_of_blocks (t := { s with arm := { s.arm with rlines := tset none line none s.arm.rlines } }) rfl rfl rfl)
    exact keeps_ite h (keeps_ite (keeps_sendReq hd) hd)

theorem keeps_evictHeld {l line : Nat} (h : Keeps b s) : Keeps b (evictHeld l line s) := by
  have hput (x : Option HeldLine) {u : State} (hu : Keeps b u) : Keeps b
      (match x with | some x => if x.dirty then homeSetAll (line * 128) x.data (sliceUse line none u) else u | none => u) := by
    cases x with
    | none => exact hu
    | some x => exact keeps_ite (keeps_homeSetAll (keeps_sliceUse hu)) hu
  unfold evictHeld
  exact keeps_modCore (fun _ => ⟨rfl, rfl, rfl, rfl, rfl, id⟩) (keeps_when (hput _) (keeps_when (hput _) h))

theorem keeps_cleanLine {keep : Option Nat} {line : Nat} (h : Keeps b s) : Keeps b (cleanLine keep line s) :=
  keeps_onCores (coreKeeps_dropFromCore line) (keeps_foldl (fun _ _ h => keeps_ite h (keeps_evictHeld h)) (keeps_writeBackLine h))

theorem keeps_noteOld {who : Fetchers} {a : Nat} {old : List Byte} (h : Keeps b s) : Keeps b (noteOld who a old s) :=
  keeps_ite h (h.trans (keeps_of_eq rfl rfl rfl rfl rfl rfl))

theorem keeps_heldStore {l a : Nat} {data : List Byte} (h : Keeps b s) : Keeps b (heldStore l a data s) := by
  unfold heldStore
  exact keeps_modCore (fun _ => ⟨rfl, rfl, rfl, rfl, rfl, id⟩) h

theorem keeps_homeWriteKeep {keep : Option Nat} {who : Fetchers} {part : Option Nat} {a : Nat} {data : List Byte} (h : Keeps b s) :
    Keeps b (homeWriteKeep keep who part a data s) := by
  have hput {u : State} (hu : Keeps b u) : Keeps b (match keep with | some l => heldStore l a data u | none => u) := by
    cases keep with
    | none => exact hu
    | some l => exact keeps_heldStore hu
  unfold homeWriteKeep
  exact keeps_ite h (keeps_ite (keeps_raisePart (by decide) h) (keeps_homeSetAll (hput (keeps_foldl
    (fun _ ln hu => keeps_when keeps_setPoison (keeps_onCores (coreKeeps_loseResv ln) (keeps_cleanLine (keeps_sliceUse hu)))) (keeps_noteOld h)))))

theorem keeps_homeWrite {who : Fetchers} {part : Option Nat} {a : Nat} {data : List Byte} (h : Keeps b s) : Keeps b (homeWrite who part a data s) :=
  keeps_homeWriteKeep h

theorem keeps_evictL2 {l line : Nat} {part : Option Nat} (h : Keeps b s) : Keeps b (evictL2 l line part s) :=
  keeps_releaseRemote (keeps_modCore (fun c => (coreKeeps_loseResv line c).trans (coreKeeps_dropFromCore line _))
    (keeps_evictHeld (keeps_writeBackIf (keeps_sliceBack h))))

theorem keeps_fillL2 {l line : Nat} {part : Option Nat} (h : Keeps b s) : Keeps b (fillL2 l line part s) := by
  have hevict (w : Option CWay) {u : State} (hu : Keeps b u) : Keeps b (match w with | some w => evictL2 l w.line part u | none => u) := by
    cases w with
    | none => exact hu
    | some w => exact keeps_evictL2 hu
  unfold fillL2
  exact hevict _ (keeps_modCore (fun _ => ⟨rfl, rfl, rfl, rfl, rfl, id⟩) (keeps_ite h (keeps_snoopRead (keeps_sliceUse h))))

theorem keeps_cacheFill {l line : Nat} {instr : Bool} {part : Option Nat} (h : Keeps b s) : Keeps b (cacheFill l line instr part s) := by
  have hevict (w : Option CWay) (on : Bool) {u : State} (hu : Keeps b u) :
      Keeps b (match w with | some w => if on then u else evictL1I l w.line part u | none => u) := by
    cases w with
    | none => exact hu
    | some w => exact keeps_ite hu (keeps_releaseRemote hu)
  unfold cacheFill
  exact keeps_ite h (keeps_ite
    (hevict _ _ (keeps_modCore (fun _ => ⟨rfl, rfl, rfl, rfl, rfl, id⟩) (keeps_ite h (keeps_ite (keeps_fillL2 h)
      (keeps_snoopRead (keeps_sliceUse h))))))
    (keeps_when (keeps_modCore fun _ => ⟨rfl, rfl, rfl, rfl, rfl, id⟩) (keeps_ite h (keeps_fillL2 h))))

/-! ### Stores of a core -/

theorem keeps_setWc {l : Nat} {old : WcBuf} {new : Option WcBuf} (h : Keeps b s) : Keeps b (setWc l old new s) := by
  unfold setWc
  exact keeps_modCore (fun _ => ⟨rfl, rfl, rfl, rfl, rfl, id⟩) h

theorem keeps_wcReleaseOne {l : Nat} {w : WcBuf} (h : Keeps b s) : Keeps b (wcReleaseOne l w s) := by
  unfold wcReleaseOne
  exact keeps_ite h (keeps_ite (keeps_setWc h) (keeps_ite
    (keeps_ite (keeps_when keeps_setPoison (keeps_foldl (fun _ _ => keeps_homeWrite) (keeps_setWc h))) (keeps_askHome (keeps_setWc h)))
    (keeps_setWc (keeps_foldl_on (fun r : List Nat × State => r.2) (fun _ _ => keeps_sendReq) h))))

theorem keeps_wcRelease {l : Nat} (h : Keeps b s) : Keeps b (wcRelease l s) := keeps_foldl (fun _ _ => keeps_wcReleaseOne) h

theorem keeps_wcStore {l : Nat} {e : SbEntry} (h : Keeps b s) : Keeps b (wcStore l e s) := by
  have hroom (ws : List WcBuf) (n : Nat) : Keeps b (match ws with | w :: _ => if n < 4 then s else wcReleaseOne l w s | [] => s) := by
    cases ws with
    | nil => exact h
    | cons w t => exact keeps_ite h (keeps_wcReleaseOne h)
  have hfull (x : Option WcBuf) (p : WcBuf → Prop) [DecidablePred p] {u : State} (hu : Keeps b u) :
      Keeps b (match x with | some w => if p w then wcReleaseOne l w u else u | none => u) := by
    cases x with
    | none => exact hu
    | some w => exact keeps_when keeps_wcReleaseOne hu
  unfold wcStore
  exact hfull _ _ (keeps_modCore (fun _ => ⟨rfl, rfl, rfl, rfl, rfl, id⟩)
    (keeps_ite h (keeps_modCore (fun _ => ⟨rfl, rfl, rfl, rfl, rfl, id⟩) (hroom _ _))))

theorem keeps_wbStore {l a : Nat} {who : Fetchers} {data : List Byte} (h : Keeps b s) : Keeps b (wbStore l who a data s) := by
  unfold wbStore
  dsimp only
  split
  · refine keeps_modCore (fun c => ?_) h
    split <;> exact ⟨rfl, rfl, rfl, rfl, rfl, id⟩
  · refine keeps_foldl (fun u e hu => hu.trans (keeps_of_eq rfl rfl rfl rfl rfl rfl)) ?_
    exact keeps_cacheFill (keeps_modCore (coreKeeps_snoopOff _) (keeps_onCores (coreKeeps_loseResv _)
      (keeps_onCores (coreKeeps_dropFromCore _) (keeps_writeBackIf (keeps_noteOld h)))))

theorem keeps_wtRemote {l : Nat} {e : SbEntry} (h : Keeps b s) : Keeps b (wtRemote l e s) := by
  have hcopy (r : Option RLine) (c : Bool) (body : RLine → List Byte) {u : State} (hu : Keeps b u) : Keeps b (match r with
      | some r => if c then sendReq 6 (lineOf e.addr * 128) (body r) (.core l) (partOfCore l s) u
        else releaseRemote (lineOf e.addr) (.core l) (partOfCore l s) u
      | none => u) := by
    cases r with
    | none => exact hu
    | some r => exact keeps_ite (keeps_sendReq hu) (keeps_releaseRemote hu)
  unfold wtRemote
  exact hcopy _ _ (fun r => 4 :: dataBody r.data r.poison) (keeps_when keeps_poisonLine (keeps_homeSetAll (keeps_heldStore (keeps_onCores
    (fun c => (coreKeeps_loseResv _ c).trans (coreKeeps_dropFromCore _ _)) (keeps_noteOld (keeps_writeBackLine h))))))

theorem keeps_sysStore {l : Nat} {e : SbEntry} (h : Keeps b s) : Keeps b (sysStore l e s) := by
  unfold sysStore
  have hmark {u : State} : Keeps b u → Keeps b (if e.bad then poisonLine (lineOf e.addr) (writeBackLine (lineOf e.addr) u) else u) :=
    keeps_when fun hu => keeps_poisonLine (keeps_writeBackLine hu)
  exact keeps_ite (keeps_wcStore h) (keeps_ite (keeps_homeWriteKeep h) (keeps_ite (hmark (keeps_wbStore h))
    (keeps_ite (hmark (keeps_homeWriteKeep h)) (keeps_wtRemote h))))

theorem keeps_askStore {l i : Nat} {e : SbEntry} (h : Keeps b s) : Keeps b (askStore l i e s) := by
  have hroom (ws : List WcBuf) : Keeps b (match ws with | w :: _ => wcReleaseOne l w s | [] => s) := by
    cases ws with
    | nil => exact h
    | cons w t => exact keeps_wcReleaseOne h
  unfold askStore
  exact keeps_ite (hroom _) (keeps_ite (keeps_askLine h) (keeps_ite (keeps_askHome h) (keeps_ite h
    (keeps_modCore (fun _ => ⟨rfl, rfl, rfl, rfl, rfl, id⟩) (keeps_sendReq h)))))

theorem keeps_finishEntry {l i : Nat} (h : Keeps b s) : Keeps b (finishEntry l i s) := by
  unfold finishEntry
  split
  · exact h
  · exact keeps_ite (keeps_sysStore (keeps_modCore (fun _ => ⟨rfl, rfl, rfl, rfl, rfl, id⟩) h)) (keeps_askStore h)

theorem keeps_flushStaged {l : Nat} (h : Keeps b s) : Keeps b (flushStaged l s) := by
  refine keeps_foldl (fun u e hu => ?_) h
  split
  · exact keeps_when keeps_finishEntry hu
  · exact hu

theorem keeps_stageEntry {l i : Nat} (h : Keeps b s) : Keeps b (stageEntry l i s) := by
  unfold stageEntry
  split
  · exact h
  · exact keeps_ite h (keeps_modCore (fun _ => ⟨rfl, rfl, rfl, rfl, rfl, id⟩) (keeps_onCores (coreKeeps_loseResv _)
      (keeps_noteOld (h.trans (keeps_of_eq rfl rfl rfl rfl rfl rfl)))))

theorem keeps_drainCluster {l : Nat} (h : Keeps b s) : Keeps b (drainCluster l s) := keeps_foldl (fun _ _ => keeps_when keeps_stageEntry) h

theorem keeps_moveDirect {l : Nat} (n : Nat) : ∀ {i : Nat} {s : State}, Keeps b s → Keeps b (moveDirect l n i s) := by
  induction n with
  | zero => exact id
  | succ n ih =>
    intro i s h
    unfold moveDirect
    split
    · exact h
    · exact ih (keeps_when keeps_finishEntry h)

theorem keeps_drainRounds {l : Nat} (n : Nat) : ∀ {s : State}, Keeps b s → Keeps b (drainRounds l n s) := by
  induction n with
  | zero => exact id
  | succ n ih => exact fun h => keeps_ite h (ih (keeps_wcRelease (keeps_moveDirect _ (keeps_flushStaged (keeps_drainCluster h)))))

theorem keeps_drainSystem {l : Nat} (h : Keeps b s) : Keeps b (drainSystem l s) := keeps_drainRounds _ h

theorem drainSystem_of_drained {l : Nat} (h : drained l s = true) : drainSystem l s = s := if_pos h

/-! ### A core's caches leave -/

theorem coreKeeps_emptied (lines : List Nat) (c : Core) : CoreKeeps c
    { lines.foldl (fun c ln => loseResv ln c) c with l1i := [], l1d := [], l2 := [], held1 := [], held2 := [] } :=
  (coreKeeps_foldl_loseResv lines c).trans ⟨rfl, rfl, rfl, rfl, rfl, id⟩

theorem keeps_wbInvCore {l : Nat} (h : Keeps b s) : Keeps b (wbInvCore l s) := by
  unfold wbInvCore
  exact keeps_foldl (fun _ _ => keeps_releaseRemote) (keeps_modCore (coreKeeps_emptied _)
    (keeps_foldl (fun _ _ => keeps_evictHeld) (keeps_writeBackIf (keeps_sliceBack h))))

theorem keeps_disposeCaches {l : Nat} (h : Keeps b s) : Keeps b (disposeCaches l s) := by
  have hd : Keeps b (drawBit s).2 := h.trans (keeps_of_blocks rfl rfl rfl)
  unfold disposeCaches
  dsimp only
  exact keeps_ite (keeps_wbInvCore hd) (keeps_wbInvCore (keeps_foldl (fun _ _ => keeps_poisonLine)
    (keeps_modCore (fun _ => ⟨rfl, rfl, rfl, rfl, rfl, id⟩) (keeps_discardIf hd))))

/-! ### Writes of an agent -/

theorem keeps_queueReq {line : Nat} {m : Msg} (h : Keeps b s) : Keeps b (queueReq line m s) := h.trans (keeps_of_blocks rfl rfl rfl)

theorem keeps_homeDefer {who : Agent} {part : Option Nat} {a : Nat} {data : List Byte} (h : Keeps b s) : Keeps b (homeDefer who part a data s) :=
  keeps_foldl (fun _ _ hu => keeps_queueReq (keeps_askHome (hu.trans (keeps_of_blocks rfl rfl rfl)))) h

theorem keeps_agentWrite {who : Agent} {part : Option Nat} {a : Nat} {data : List Byte} (h : Keeps b s) : Keeps b (agentWrite who part a data s) :=
  keeps_ite (keeps_homeDefer h) (keeps_homeWrite h)

theorem keeps_poisonWrite {who : Agent} {part : Option Nat} {x : Nat} (h : Keeps b s) : Keeps b (poisonWrite who part x s) :=
  keeps_ite (keeps_sendReq h) (keeps_ite (keeps_raisePart (by decide) h) (keeps_setPoison (keeps_cleanLine h)))

theorem keeps_remoteWrite {who : Agent} {part : Option Nat} {x : Nat} {data : List Byte} (h : Keeps b s) : Keeps b (remoteWrite who part x data s) :=
  keeps_ite (keeps_releaseRemote (keeps_homeSetAll (keeps_onCores (coreKeeps_loseResv _) (keeps_noteOld (keeps_cleanLine h))))) (keeps_sendReq h)

theorem keeps_agentStore {w : LateWrite} (h : Keeps b s) : Keeps b (agentStore w s) :=
  keeps_ite (keeps_poisonWrite h) (keeps_ite (keeps_agentWrite h) (keeps_remoteWrite h))

theorem keeps_agentPut {w : LateWrite} (h : Keeps b s) : Keeps b (agentPut w s) :=
  keeps_ite (h.trans (keeps_of_blocks rfl rfl rfl)) (keeps_agentStore h)

theorem keeps_partWrite {who : Agent} {p a : Nat} {data : List Byte} (h : Keeps b s) : Keeps b (partWrite who p a data s) := by
  refine keeps_foldl (fun u q hu => ?_) h
  split
  · exact keeps_agentPut hu
  · exact hu

/-! ### The end of a command -/

theorem keeps_svcWrite {off : Nat} {data : List Byte} (h : Keeps b s) : Keeps b (svcWrite off data s) := h.trans (keeps_of_blocks rfl rfl rfl)

theorem keeps_respond {ss : Session} {lines : List (List Byte)} (h : Keeps b s) : Keeps b (respond ss lines s) := by
  cases ss with
  | uart => exact keeps_emit h
  | mailbox =>
    unfold respond
    exact keeps_pf0Vector (keeps_svcWrite (keeps_svcWrite (keeps_svcWrite h)))

theorem keeps_coreAnswer {l : Nat} (h : Keeps b s) : Keeps b (coreAnswer l s) := by
  have hm : Keeps b (modCore l (fun c => { c with mqWait := none, mqStep := false }) s) := keeps_modCore (fun _ => ⟨rfl, rfl, rfl, rfl, rfl, id⟩) h
  unfold coreAnswer
  split
  · exact h
  · exact keeps_ite (keeps_respond hm) (keeps_ite (keeps_respond hm) h)

theorem keeps_recastAnswer (h : Keeps b s) : Keeps b (recastAnswer s) := by
  unfold recastAnswer
  split
  · exact keeps_ite h (keeps_respond (h.trans (keeps_of_eq rfl rfl rfl rfl rfl rfl)))
  · exact h

theorem keeps_setSession {ss : Session} {v : MqSession} (h : Keeps b s) : Keeps b (setSession ss v s) := by
  cases ss <;> exact h.trans (keeps_of_eq rfl rfl rfl rfl rfl rfl)

theorem keeps_grantSettle {g : PendGrant} (h : Keeps b s) : Keeps b (grantSettle g s) := by
  have ht {x : _} : Keeps b { s with tr := x } := h.trans (keeps_of_blocks rfl rfl rfl)
  exact keeps_ite (keeps_respond ht) (keeps_ite (keeps_respond (keeps_setSession ht)) ht)

theorem keeps_grantDue (h : Keeps b s) : Keeps b (grantDue s) := by
  unfold grantDue
  split
  · exact keeps_when keeps_grantSettle h
  · exact h

theorem keeps_mqPoll (hq : s.mq.queue = []) (h : Keeps b s) : Keeps b (mqPoll s) := by
  unfold mqPoll
  dsimp only
  generalize hu : grantDue _ = u
  have hk : Keeps s u := hu ▸ keeps_grantDue (keeps_recastAnswer (keeps_foldl (fun _ _ => keeps_coreAnswer) (.refl s)))
  have hqu : u.mq.queue = [] := (queue_of_regs hk.regs).trans hq
  rw [hqu]
  exact h.trans hk

theorem keeps_announceChange (h : Keeps b s) : Keeps b (announceChange s) := by
  have hd : Keeps b (dbChanged s) := h.trans (keeps_of_blocks rfl rfl rfl)
  refine keeps_ite ?_ h
  unfold floodOwn
  split
  · exact hd
  · refine Keeps.trans ?_ (sent_floodAdv ..).keeps
    exact hd.trans (keeps_of_blocks rfl rfl rfl)

theorem keeps_torFlood {u : State} (h : Keeps b s) : Keeps b (torFlood u s) := keeps_when keeps_announceChange h

theorem keeps_signalStates {u : State} (h : Keeps b s) : Keeps b (signalStates u s) := by
  unfold signalStates
  exact keeps_when keeps_pf0Vector (keeps_when keeps_pf0Vector (keeps_when keeps_pf0Vector h))

theorem keeps_pendingQueue {q : List Instr} (h : Keeps b s) : Keeps b { s with pending := q } := h.trans (keeps_of_blocks rfl rfl rfl)

theorem keeps_stopCore {l : Nat} (h : Keeps b s) : Keeps b (stopCore l s) := by
  unfold stopCore
  refine keeps_when (keeps_modCore fun c => ?_) (keeps_drainSystem h)
  split
  · exact .refl c
  · exact .refl c
  · exact ⟨rfl, rfl, rfl, rfl, rfl, fun _ => rfl⟩

theorem keeps_loseStoresLogged {l : Nat} (h : Keeps b s) : Keeps b (loseStoresLogged l s) :=
  keeps_ite h (keeps_logEntry (keeps_modCore (fun _ => ⟨rfl, rfl, rfl, rfl, rfl, id⟩) h))

end

end Sys2Proof.Machine
end

section
/-! PROOFS. A core that leaves service does not come back within the command: the loss of a core, the partition checkstop that it may make due, and
the outcome of a command (20 R469; 21 R486, R488). -/

namespace Sys2Proof.Machine

/-! ### No core enters service -/

/-- Every step that is due checkstops a partition. -/
def PartStepsOnly (s : State) : Prop := ∀ d ∈ s.flt.due, d.step = 2

/-- From `s` to `t` no core comes back into service, and, where every source's `GRACE_US` leaves time, none but partition checkstops fall due. -/
structure KeepsOut (s t : State) : Prop where
  regs : recastRegs t = recastRegs s
  out : ∀ k, inService k s = false → inService k t = false
  due : Safety.graceful s → PartStepsOnly s → PartStepsOnly t

theorem KeepsOut.refl (s : State) : KeepsOut s s := ⟨rfl, fun _ => id, fun _ => id⟩

theorem KeepsOut.trans {s t u : State} (h : KeepsOut s t) (k : KeepsOut t u) : KeepsOut s u where
  regs := k.regs.trans h.regs
  out l := k.out l ∘ h.out l
  due hg hd := k.due (graceful_of_regs h.regs hg) (h.due hg hd)

theorem inService_eq {l : Nat} {s t : State} (hr : t.cpu.recState = s.cpu.recState) (hl : (coreOf l t).losing = (coreOf l s).losing) :
    inService l t = inService l s := by
  unfold inService recState
  rw [hr, hl]

theorem Keeps.inService {s t : State} (h : Keeps s t) (l : Nat) : inService l t = inService l s := inService_eq h.recState (h.core l).losing

theorem Keeps.out {s t : State} (h : Keeps s t) : KeepsOut s t where
  regs := h.regs
  out l hl := (h.inService l).trans hl
  due hg hd := by unfold PartStepsOnly; rw [h.due hg]; exact hd

theorem inService_of_recState {l : Nat} {s : State} (h : recState l s ≠ 0) : inService l s = false := by simp [inService, h]

theorem recState_setRec (l k v : Nat) (s : State) : recState k (setRec l v s) = if k = l then v else recState k s := tget_tset 0 k l v _

section
variable {b s t : State}

theorem keepsOut_ite {c : Prop} [Decidable c] (h : KeepsOut b s) (k : KeepsOut b t) : KeepsOut b (if c then s else t) := by
  split
  · exact h
  · exact k

theorem keepsOut_foldl {α : Type} {f : State → α → State} {xs : List α} (hf : ∀ u x, KeepsOut b u → KeepsOut b (f u x)) :
    ∀ {s}, KeepsOut b s → KeepsOut b (xs.foldl f s) := by
  induction xs with
  | nil => exact id
  | cons x t ih => exact fun h => ih (hf _ x h)

theorem keepsOut_modCore {l : Nat} {f : Core → Core} (hf : ∀ c, (f c).losing = c.losing) (h : KeepsOut b s) : KeepsOut b (modCore l f s) := by
  refine h.trans ⟨rfl, fun k hk => ?_, fun _ => id⟩
  refine (inService_eq (t := modCore l f s) (s := s) rfl ?_).trans hk
  rw [coreOf_modCore]
  split
  · subst k; exact hf _
  · rfl

/-- A core that is LOST is out of service, whatever its state holds. -/
theorem keepsOut_lost {l : Nat} {f : Core → Core} (h : KeepsOut b s) : KeepsOut b (setRec l 2 (modCore l f s)) := by
  refine h.trans ⟨rfl, fun k hk => ?_, fun _ => id⟩
  by_cases hkl : k = l
  · exact inService_of_recState (by rw [recState_setRec, if_pos hkl]; decide)
  · have hr : recState k (setRec l 2 (modCore l f s)) = recState k s := by rw [recState_setRec, if_neg hkl]; rfl
    have hc : coreOf k (setRec l 2 (modCore l f s)) = coreOf k s := (coreOf_modCore l k f s).trans (if_neg hkl)
    unfold inService at hk ⊢
    rw [hr, hc, hk]

theorem keepsOut_makeDue {src part : Nat} (h : KeepsOut b s) : KeepsOut b (makeDue src part [2] s) := by
  refine h.trans ⟨rfl, fun _ => id, fun _ hd d hm => ?_⟩
  rcases List.mem_append.mp hm with hm | hm
  · exact hd d hm
  · obtain rfl := List.mem_singleton.mp hm
    rfl

theorem keepsOut_exigGive {p : Nat} {m : McPend} (h : KeepsOut b s) : KeepsOut b (exigGive p m s) := by
  unfold exigGive
  split
  · exact keepsOut_modCore (fun _ => rfl) h
  · exact keepsOut_makeDue h

theorem keepsOut_exigOnPart {p code addr source valid : Nat} (h : KeepsOut b s) : KeepsOut b (exigOnPart p code addr source valid s) :=
  keepsOut_ite h (keepsOut_exigGive h)

theorem keepsOut_passChecks {l : Nat} (h : KeepsOut b s) : KeepsOut b (passChecks l s) := by
  unfold passChecks
  split
  · exact h
  · exact keepsOut_ite (keepsOut_modCore (fun _ => rfl) h) (keepsOut_foldl (fun _ _ => keepsOut_exigGive)
      (keepsOut_foldl (fun _ _ hu => hu.trans (keeps_mcGive (.refl _)).out) (keepsOut_modCore (fun _ => rfl) h)))

/-! ### Core lost (R469) -/

/-- A lost core, at the point at which it is LOST (R469): what was done before keeps everything, and no core enters service after. -/
theorem loseRest_lost (l : Nat) (parts : BitVec 4) (lost : Bool) (s : State) :
    ∃ u f, Keeps s u ∧ KeepsOut (setRec l 2 (modCore l f u)) (loseRest l parts lost s) := by
  have hd : Keeps s (disposeCaches l s) := keeps_disposeCaches (.refl s)
  have htail {src : Nat} {part : Option Nat} {f : Core → Core} (u : State) (hf : ∀ c, (f c).losing = c.losing) :
      KeepsOut u (raise src 0x06 part l (modCore l f (passChecks l u))) :=
    (keepsOut_modCore hf (keepsOut_passChecks (.refl u))).trans (keeps_raise (by decide) (.refl _)).out
  unfold loseRest
  dsimp only
  split
  · exact ⟨_, _, .symm ⟨keepsOut_exigOnPart (htail _ fun _ => rfl), keeps_when (keeps_foldl fun _ _ => keeps_partWrite) hd⟩⟩
  · exact ⟨_, _, .symm ⟨htail _ fun _ => rfl, hd⟩⟩

theorem keepsOut_loseRest {l : Nat} {parts : BitVec 4} {lost : Bool} (h : KeepsOut b s) : KeepsOut b (loseRest l parts lost s) := by
  obtain ⟨u, f, hu, ht⟩ := loseRest_lost l parts lost s
  exact (keepsOut_lost (h.trans hu.out)).trans ht

theorem inService_loseRest (l : Nat) (parts : BitVec 4) (lost : Bool) (s : State) : inService l (loseRest l parts lost s) = false := by
  obtain ⟨u, f, _, ht⟩ := loseRest_lost l parts lost s
  exact ht.out l (inService_of_recState (by rw [recState_setRec, if_pos rfl]; decide))

/-- A core that is being lost has left service while its stores drain (R469). -/
theorem inService_leaving (l : Nat) (parts : BitVec 4) (s : State) : inService l (modCore l (fun c => { c with losing := some parts }) s) = false := by
  simp [inService, coreOf_modCore]

theorem keepsOut_leaving {l : Nat} {parts : BitVec 4} (h : KeepsOut b s) : KeepsOut b (modCore l (fun c => { c with losing := some parts }) s) := by
  refine h.trans ⟨rfl, fun k hk => ?_, fun _ => id⟩
  by_cases hkl : k = l
  · subst k; exact inService_leaving l parts s
  · exact (inService_eq (s := s) (t := modCore l _ s) rfl (by rw [coreOf_modCore, if_neg hkl])).trans hk

theorem lossDue_keepsOut (l : Nat) (s : State) : KeepsOut s (lossDue l s) := by
  unfold lossDue
  split
  · exact .refl s
  · exact keepsOut_ite (keepsOut_loseRest (keeps_drainSystem (.refl s)).out) (keeps_drainSystem (.refl s)).out

theorem keepsOut_loseCore {l : Nat} {parts : BitVec 4} {storePath : Bool} (h : KeepsOut b s) : KeepsOut b (loseCore l parts storePath s) :=
  keepsOut_ite ((keepsOut_leaving h).trans (lossDue_keepsOut _ _)) (keepsOut_loseRest (h.trans (keeps_loseStoresLogged (.refl s)).out))

theorem inService_loseCore (l : Nat) (parts : BitVec 4) (storePath : Bool) (s : State) : inService l (loseCore l parts storePath s) = false := by
  unfold loseCore
  split
  · exact (lossDue_keepsOut l _).out l (inService_leaving l parts s)
  · exact inService_loseRest ..

theorem keepsOut_loseAtOnce {l : Nat} {k : RecastTrigger} (h : KeepsOut b s) : KeepsOut b (loseAtOnce l k s) :=
  keepsOut_loseCore (h.trans (Keeps.out (keeps_of_blocks rfl rfl rfl)))

theorem inService_loseAtOnce (l : Nat) (k : RecastTrigger) (s : State) : inService l (loseAtOnce l k s) = false := inService_loseCore ..

/-! ### Partition checkstop (21 R488) and the end of a command -/

theorem keepsOut_killCore {l : Nat} (h : KeepsOut b s) : KeepsOut b (killCore l s) := by
  unfold killCore
  refine keepsOut_modCore (fun c => ?_) ?_
  · dsimp only
    split <;> rfl
  · have hd := h.trans (keeps_disposeCaches (l := l) (keeps_loseStoresLogged (l := l) (.refl s))).out
    exact keepsOut_ite (keepsOut_lost hd) hd

theorem keeps_setQueue {k : QBlock} {q : Nat} {v : Queue} (h : Keeps b s) : Keeps b (setQueue k q v s) :=
  h.trans (keeps_of_blocks (by simp) (by simp) (by simp))

theorem keeps_dropGot {who : Agent} {p : Nat → Bool} (h : Keeps b s) : Keeps b (dropGot who p s) := h.trans (keeps_of_blocks rfl rfl rfl)

theorem keeps_pf1 {f : HostFn} (h : Keeps b s) : Keeps b { s with pf1 := f } := h.trans (keeps_of_blocks rfl rfl rfl)

theorem keeps_disableQueue {k : QBlock} {q : Nat} (h : Keeps b s) : Keeps b (disableQueue k q s) := by
  unfold disableQueue
  exact keeps_setQueue (keeps_ite (keeps_ite (keeps_pf1 h) h) (keeps_dropGot (keeps_ite (keeps_pf1 h) h)))

theorem keeps_disableOwnQueues {p : Nat} {wipe : Bool} (h : Keeps b s) : Keeps b (disableOwnQueues p wipe s) :=
  keeps_foldl (fun _ _ => keeps_foldl fun _ _ h => keeps_setQueue (keeps_ite (keeps_when keeps_setQueue h)
    (keeps_disableQueue (keeps_when keeps_setQueue h)))) h

theorem keeps_withdrawPubs {p : Nat} (h : Keeps b s) : Keeps b (withdrawPubs p s) := h.trans (keeps_of_blocks rfl rfl rfl)

theorem keeps_setPState {p : Nat} {v : PState} (h : Keeps b s) : Keeps b (setPState p v s) := h.trans (keeps_of_blocks rfl rfl rfl)

theorem keeps_heldMc {x : Tab (List McPend)} (h : Keeps b s) : Keeps b { s with cpu := { s.cpu with heldMc := x } } :=
  h.trans (keeps_of_eq rfl rfl rfl rfl rfl rfl)

theorem keepsOut_partCheckstop {p : Nat} (h : KeepsOut b s) : KeepsOut b (partCheckstop p s) := by
  unfold partCheckstop
  exact keepsOut_ite h (KeepsOut.trans (keepsOut_foldl (fun _ _ => keepsOut_killCore) h)
    (keeps_heldMc (keeps_disableOwnQueues (keeps_withdrawPubs (keeps_setPState (.refl _))))).out)

/-- A source whose step 2 is due: a partition checkstop. -/
theorem keepsOut_chainStep {i part : Nat} (h : KeepsOut b s) : KeepsOut b (chainStep i 2 part s) := by
  unfold chainStep
  exact keepsOut_ite h (keepsOut_ite h (keepsOut_ite h (keepsOut_partCheckstop (h.trans
    (keeps_logEntry (keeps_setFlt (by exact id) (.refl s))).out))))

theorem keepsOut_dueStep {d : DueStep} (hd : d.step = 2) (h : KeepsOut b s) : KeepsOut b (dueStep d s) := by
  obtain ⟨src, step, part⟩ := d
  obtain rfl : step = 2 := hd
  exact keepsOut_ite h (keepsOut_ite (keepsOut_chainStep h) (keepsOut_partCheckstop h))

/-- Taking the due steps, partition checkstops all, brings no core back into service. -/
theorem keepsOut_settleDue (n : Nat) : ∀ {s : State}, Safety.graceful s → PartStepsOnly s → KeepsOut s (settleDue n s) := by
  induction n with
  | zero => exact fun _ _ => ⟨rfl, fun _ => id, fun _ _ d hd => absurd hd List.not_mem_nil⟩
  | succ n ih =>
    intro s hg hd
    unfold settleDue
    split
    · exact .refl s
    · next d t hdt =>
      have hpop : KeepsOut s { s with flt := { s.flt with due := t } } :=
        ⟨rfl, fun _ => id, fun _ hs x hx => hs x (hdt ▸ List.mem_cons_of_mem d hx)⟩
      have hstep := keepsOut_dueStep (hd d (hdt ▸ List.mem_cons_self)) hpop
      exact hstep.trans (ih (graceful_of_regs hstep.regs hg) (hstep.due hg hd))

end

/-! ### The outcome of a command -/

/-- No step is due, every source leaves a grace time, and no line of the monitor waits. -/
structure Calm (s : State) : Prop where
  due : s.flt.due = []
  graceful : Safety.graceful s
  queue : s.mq.queue = []

theorem Calm.of_keeps {s t : State} (h : Calm s) (k : Keeps s t) : Calm t :=
  ⟨(k.due h.graceful).trans h.due, graceful_of_regs k.regs h.graceful, (queue_of_regs k.regs).trans h.queue⟩

theorem Calm.of_blocks {s t : State} (h : Calm s) (hf : t.flt = s.flt) (hm : t.mq = s.mq) : Calm t where
  due := by rw [hf]; exact h.due
  graceful i := by unfold reactOf; rw [hf]; exact h.graceful i
  queue := by rw [hm]; exact h.queue

/-- No step is due but partition checkstops, every source leaves a grace time, and no line of the monitor waits. -/
structure PartCalm (s : State) : Prop where
  due : PartStepsOnly s
  graceful : Safety.graceful s
  queue : s.mq.queue = []

theorem Calm.partCalm {s : State} (h : Calm s) : PartCalm s := ⟨by simp [PartStepsOnly, h.due], h.graceful, h.queue⟩

theorem PartCalm.of_keepsOut {s t : State} (h : PartCalm s) (k : KeepsOut s t) : PartCalm t :=
  ⟨k.due h.graceful h.due, graceful_of_regs k.regs h.graceful, (queue_of_regs k.regs).trans h.queue⟩

theorem PartCalm.of_blocks {s t : State} (h : PartCalm s) (hf : t.flt = s.flt) (hm : t.mq = s.mq) : PartCalm t where
  due := by unfold PartStepsOnly; rw [hf]; exact h.due
  graceful i := by unfold reactOf; rw [hf]; exact h.graceful i
  queue := by rw [hm]; exact h.queue

/-- A command whose operation makes no step due keeps what the operation left. -/
theorem donePoll_keeps (b : State) {s : State} (h : Calm s) : ∃ t, donePoll b s = .next t ∧ Keeps s t := by
  have hp : Keeps s (mqPoll s) := keeps_mqPoll h.queue (.refl s)
  refine ⟨_, rfl, ?_⟩
  unfold settle
  rw [settleDue_quiet _ (h.of_keeps hp).due]
  exact keeps_pendingQueue (keeps_signalStates (keeps_torFlood hp))

/-- A command whose operation makes no step due but partition checkstops brings no core back into service. -/
theorem donePoll_keepsOut (b : State) {s : State} (h : PartCalm s) : ∃ t, donePoll b s = .next t ∧ KeepsOut s t := by
  have hp : KeepsOut s (mqPoll s) := (keeps_mqPoll h.queue (.refl s)).out
  obtain ⟨hd, hg, -⟩ := h.of_keepsOut hp
  have hs : KeepsOut s (settleDue 4096 (mqPoll s)) := hp.trans (keepsOut_settleDue _ hg hd)
  exact ⟨_, rfl, hs.trans (keeps_pendingQueue (keeps_signalStates (keeps_torFlood (.refl _)))).out⟩

end Sys2Proof.Machine
end

section
/-! PROOFS. Recast (20_retry_recast R465 to R475): RECAST, RECAST_SEQUENCE and RECAST_COMPLETE. -/

namespace Sys2Proof.Machine

/-! ### The registers of recast -/

theorem recastIn_setRecast (c k : Nat) (v : Option Recasting) (s : State) : recastIn k (setRecast c v s) = if k = c then v else recastIn k s :=
  tget_tset none k c v _

theorem spareState_setSpare (c k v : Nat) (s : State) : spareState k (setSpare c v s) = if k = c then v else spareState k s := tget_tset 0 k c v _

theorem recastIn_of_regs {s t : State} (h : recastRegs t = recastRegs s) (c : Nat) : recastIn c t = recastIn c s :=
  congrArg (tget none c) (congrArg RecastRegs.inProgress h)

theorem spareState_of_regs {s t : State} (h : recastRegs t = recastRegs s) (c : Nat) : spareState c t = spareState c s :=
  congrArg (tget 0 c) (congrArg RecastRegs.spare h)

theorem recBusy_of_regs {s t : State} (h : recastRegs t = recastRegs s) : t.cpu.recBusy = s.cpu.recBusy := congrArg RecastRegs.recBusy h

theorem recResult_of_regs {s t : State} (h : recastRegs t = recastRegs s) : t.cpu.recResult = s.cpu.recResult := congrArg RecastRegs.recResult h

theorem recState_of_keeps {s t : State} (h : Keeps s t) (l : Nat) : recState l t = recState l s := congrArg (tget 0 l) h.recState

theorem slotOf_of_keeps {s t : State} (h : Keeps s t) (l : Nat) : slotOf l t = slotOf l s := by
  unfold slotOf
  rw [h.slot]

theorem spareFree_iff (c : Nat) (s : State) : spareFree c s = true ↔ spareState c s = 0 ∧ recastIn c s = none := by simp [spareFree]

/-! ### RECAST (R474, R475) -/

theorem exec_recast_service {s : State} (ho : operating s = true) (l : Nat) : exec (.recast .service l) s = done s (recastCommand l s) :=
  if_pos ⟨rfl, ho⟩

theorem exec_recast_other {v : View} (hv : v ≠ .service) (l : Nat) (s : State) : exec (.recast v l) s = .next s := if_neg fun h => hv h.1

theorem recastCommand_busy {s : State} (h : s.cpu.recBusy = true) (l : Nat) :
    recastCommand l s = { s with cpu := { s.cpu with recResult := 0x0C } } := if_pos h

theorem recastCommand_refused {l : Nat} {s : State} (h : s.cpu.recBusy = false) (hl : ¬ (l < 192 ∧ inService l s ∧ spareFree (l / 16) s)) :
    recastCommand l s = { s with cpu := { s.cpu with recLogical := l % 256, recResult := 0x0C } } := by
  unfold recastCommand
  rw [if_neg (by simp [h])]
  exact if_neg hl

theorem recastCommand_accepted {l : Nat} {s : State} (h : s.cpu.recBusy = false) (hl : l < 192) (hi : inService l s = true)
    (hf : spareFree (l / 16) s = true) : recastCommand l s = dueRecast l .commanded true
      { s with cpu := { s.cpu with recLogical := l % 256, recBusy := true, recResult := 0 } } := by
  unfold recastCommand
  rw [if_neg (by simp [h])]
  exact if_pos ⟨hl, hi, hf⟩

/-! ### RECAST_SEQUENCE (R465, R466, R469) -/

theorem exec_recastSequence_hard {l : Nat} {k : RecastTrigger} {s : State} (ho : operating s = true) (hl : l < 192) (hk : hardKind k = true) :
    exec (.recastSequence l k) s = donePoll s (hardTrigger l k s) := by
  show execRecastSequence l k s = _
  unfold execRecastSequence
  rw [if_neg (by simp [ho, hl]), if_pos hk]

theorem exec_recastSequence_due {l : Nat} {k : RecastTrigger} {byCmd : Bool} {s : State} (ho : operating s = true) (hl : l < 192)
    (hk : hardKind k = false) (hi : inService l s = true) (hr : recastIn (l / 16) s = some ⟨l, k, byCmd⟩) (hb : begun (coreOf l s) = false) :
    exec (.recastSequence l k) s = donePoll s (beginRecast l k byCmd s) := by
  show execRecastSequence l k s = _
  unfold execRecastSequence
  rw [if_neg (by simp [ho, hl]), if_neg (by simp [hk]), hr]
  exact if_pos ⟨rfl, rfl, hi, by simp [hb]⟩

/-- Step 1: the core stalls and its recast is under way at the end of the command. -/
theorem donePoll_beginRecast (b : State) {s : State} (h : Calm s) (l : Nat) (k : RecastTrigger) (byCmd : Bool) :
    ∃ t, donePoll b (beginRecast l k byCmd s) = .next t ∧ recState l t = 1 ∧ recastIn (l / 16) t = some ⟨l, k, byCmd⟩ := by
  have hu : Calm (setRecast (l / 16) (some ⟨l, k, byCmd⟩) (setRec l 1 s)) := h.of_blocks rfl rfl
  have hd := keeps_drainSystem (l := l) (.refl (setRecast (l / 16) (some ⟨l, k, byCmd⟩) (setRec l 1 s)))
  obtain ⟨t, ht, hk⟩ := donePoll_keeps b (hu.of_keeps hd)
  have hk' := hd.trans hk
  refine ⟨t, ht, ?_, ?_⟩
  · exact (recState_of_keeps hk' l).trans ((recState_setRec l l 1 s).trans (if_pos rfl))
  · exact (recastIn_of_regs hk'.regs _).trans ((recastIn_setRecast ..).trans (if_pos rfl))

theorem cancelDue_of_none {c : Nat} {s : State} (h : recastIn c s = none) : cancelDue c s = s := by
  unfold cancelDue
  rw [h]

/-- Nothing but the cluster's recast and `RECAST_STATUS` changes when a hard trigger overtakes a recast. -/
theorem cancelDue_eq (c : Nat) (s : State) :
    ∃ p x y, cancelDue c s = { s with cpu := { s.cpu with inProgress := p, recBusy := x, recResult := y } } := by
  unfold cancelDue
  split
  · exact ⟨s.cpu.inProgress, s.cpu.recBusy, s.cpu.recResult, rfl⟩
  · dsimp only
    split
    · exact ⟨s.cpu.inProgress, s.cpu.recBusy, s.cpu.recResult, rfl⟩
    · split
      · exact ⟨_, _, _, rfl⟩
      · exact ⟨_, s.cpu.recBusy, s.cpu.recResult, rfl⟩

theorem hardTrigger_of_spare {l : Nat} {k : RecastTrigger} {s : State} (hi : inService l s = true) (hk : k ≠ .checkpoint)
    (hf : spareFree (l / 16) s = true) : hardTrigger l k s = beginRecast l k false s := by
  unfold hardTrigger
  rw [if_neg (by simp [hi]), cancelDue_of_none ((spareFree_iff _ _).mp hf).2]
  exact if_neg (by simp [hk, hf])

/-- A hard trigger takes the core out of service at once: it is lost, or, where giving way frees the spare, it stalls. -/
theorem donePoll_hardTrigger (b : State) {s : State} (h : Calm s) {l : Nat} (hi : inService l s = true) (k : RecastTrigger) :
    ∃ t, donePoll b (hardTrigger l k s) = .next t ∧ inService l t = false := by
  unfold hardTrigger
  rw [if_neg (by simp [hi])]
  have hc : Calm (cancelDue (l / 16) s) := by
    obtain ⟨p, x, y, he⟩ := cancelDue_eq (l / 16) s
    rw [he]
    exact h.of_blocks rfl rfl
  dsimp only
  split
  · have ha := keepsOut_loseAtOnce (l := l) (k := k) (.refl (cancelDue (l / 16) s))
    obtain ⟨t, ht, hk⟩ := donePoll_keepsOut b (hc.partCalm.of_keepsOut ha)
    exact ⟨t, ht, hk.out l (inService_loseAtOnce ..)⟩
  · obtain ⟨t, ht, hr, _⟩ := donePoll_beginRecast b hc l k false
    exact ⟨t, ht, inService_of_recState (by rw [hr]; decide)⟩

/-! ### RECAST_COMPLETE (R466 to R470) -/

/-- The command's end: where the partition or the monitor holds the core, it stops, which keeps the recast state. -/
theorem exec_recastComplete {l : Nat} {spareOk : Bool} {parts : BitVec 4} {path : Bool} {s : State} (ho : operating s = true)
    (hr : recState l s = 1) : ∃ u, exec (.recastComplete l spareOk parts path) s = donePoll s u ∧ Keeps (endRecast l spareOk parts path s) u := by
  have he : exec (.recastComplete l spareOk parts path) s = execRecastComplete l spareOk parts path s := rfl
  rw [he]
  unfold execRecastComplete
  rw [if_neg (by simp [ho, hr])]
  exact ⟨_, rfl, keeps_ite (keeps_stopCore (.refl _)) (.refl _)⟩

theorem pending_raise {code : Nat} (hc : code ≠ 0x10) (src : Nat) (part : Option Nat) (detail : Nat) (s : State) :
    (fltStatus src (raise src code part detail s)).pending = true := by
  cases hp : (fltStatus src s).pending with
  | true => exact (keeps_raise hc (.refl s)).pending src hp
  | false =>
    have hfirst (u : State) (holds : Bool) : (fltStatus src (firstEvent (eventClass code) src code part detail holds u)).pending = true := by
      unfold firstEvent
      exact (keeps_startGrace (keeps_reactNotify (.refl _))).pending src (by rw [fltStatus_setFlt, if_pos rfl])
    unfold raise raiseClass
    dsimp only
    rw [if_neg (eventClass_ne_module hc), hp]
    exact (keeps_when keeps_pulseErrN (.refl _)).pending src (hfirst _ _)

/-- The registers when a core has moved to its cluster's spare (R466, R474). -/
def movedTo (l : Nat) (s : State) : State :=
  setSpare (l / 16) 1 (setRec l 0 { s with cpu := { s.cpu with
    slot := tset none l (some (spareSlot (l / 16))) s.cpu.slot, recasts := tmod 0 l (fun n => min (n + 1) 0xFFFF) s.cpu.recasts } })

theorem slotOf_movedTo (l : Nat) (s : State) : slotOf l (movedTo l s) = spareSlot (l / 16) := by
  simp [slotOf, movedTo, setSpare, setRec]

theorem recState_movedTo (l : Nat) (s : State) : recState l (movedTo l s) = 0 := by simp [recState, movedTo, setSpare, setRec]

theorem spareState_movedTo (l : Nat) (s : State) : spareState (l / 16) (movedTo l s) = 1 := by simp [spareState, movedTo, setSpare]

/-- The move to the spare (R466 to R468): the caches are written back and the reservation is lost; the registers change; the event of the old
slot and the notice to the core keep everything. -/
theorem moveToSpare_moved (l : Nat) (k : RecastTrigger) (quiet : Bool) (s : State) : ∃ u, Keeps s u ∧ (coreOf l u).resv = none ∧
    Keeps (movedTo l u) (moveToSpare l k quiet s) ∧ (fltStatus (srcSlot (slotOf l s)) (moveToSpare l k quiet s)).pending = true := by
  have hnote (m : McPend) (u : State) : Keeps u (match partOfCore l u with
      | some p => if quiet ∨ pstateOf p u ≠ .running then u else mcOnCore l m u
      | none => u) := by
    split
    · exact keeps_ite (.refl u) (keeps_mcOnCore (.refl u))
    · exact .refl u
  have hu : Keeps s (modCore l (fun k => { k with resv := none, dtlb := [], itlb := [], tlb2 := [], walk := [], sysBuf := [] }) (wbInvCore l s)) :=
    keeps_modCore (fun _ => ⟨rfl, rfl, rfl, rfl, rfl, fun _ => rfl⟩) (keeps_wbInvCore (.refl s))
  refine ⟨_, hu, by rw [coreOf_modCore, if_pos rfl], ?_, ?_⟩
  · exact (keeps_raise (by decide) (.refl _)).trans (hnote _ _)
  · exact (hnote _ _).pending _ (pending_raise (by decide) ..)

/-- What the end of a recast leaves as it was. -/
theorem recastOver_frame (r : Recasting) (result : Nat) (s : State) : (recastOver r result s).flt = s.flt ∧ (recastOver r result s).mq = s.mq ∧
    (recastOver r result s).cpu.core = s.cpu.core ∧ (recastOver r result s).cpu.slot = s.cpu.slot ∧
    (recastOver r result s).cpu.recState = s.cpu.recState ∧ (recastOver r result s).cpu.spare = s.cpu.spare := by
  unfold recastOver
  cases r.byCmd <;> exact ⟨rfl, rfl, rfl, rfl, rfl, rfl⟩

/-- `RECAST_STATUS` and the cluster at the end of a recast. -/
theorem recastOver_regs (r : Recasting) (result : Nat) (s : State) : recastIn (r.logical / 16) (recastOver r result s) = none ∧
    (r.byCmd = true → (recastOver r result s).cpu.recBusy = false ∧ (recastOver r result s).cpu.recResult = result) := by
  unfold recastOver
  cases r.byCmd <;> simp [recastIn, setRecast]

theorem coreOf_congr {l : Nat} {s t : State} (h : t.cpu.core = s.cpu.core) : coreOf l t = coreOf l s := by
  unfold coreOf
  rw [h]

theorem endRecast_moves {l : Nat} {r : Recasting} {s : State} (parts : BitVec 4) (path : Bool) (hr : recastIn (l / 16) s = some r)
    (hl : r.logical = l) (hs : recState l s = 1) (hd : drained l s = true) :
    endRecast l true parts path s = recastOver r 0 (moveToSpare l r.trigger false s) := by
  unfold endRecast
  rw [hr]
  dsimp only
  rw [if_neg (by simp [hl, hs]), if_pos rfl, drainSystem_of_drained hd, if_pos hd]

/-- The spare takes a core whose stores are drained (R466, R467). -/
theorem recastComplete_moves {l : Nat} {r : Recasting} {s : State} (hc : Calm s) (ho : operating s = true) (parts : BitVec 4) (path : Bool)
    (hr : recastIn (l / 16) s = some r) (hl : r.logical = l) (hs : recState l s = 1) (hd : drained l s = true) :
    ∃ t, exec (.recastComplete l true parts path) s = .next t ∧ slotOf l t = 17 * (l / 16) + 16 ∧ recState l t = 0 ∧
      spareState (l / 16) t = 1 ∧ recastIn (l / 16) t = none ∧ (coreOf l t).g = (coreOf l s).g ∧ (coreOf l t).f = (coreOf l s).f ∧
      (coreOf l t).pc = (coreOf l s).pc ∧ (coreOf l t).tsw = (coreOf l s).tsw ∧ (coreOf l t).resv = none ∧
      (fltStatus (srcSlot (slotOf l s)) t).pending = true := by
  obtain ⟨u, hsu, hresv, hmove, hpend⟩ := moveToSpare_moved l r.trigger false s
  obtain ⟨hf, hm, hcore, hslot, hrec, hspare⟩ := recastOver_frame r 0 (moveToSpare l r.trigger false s)
  obtain ⟨hnone, -⟩ := recastOver_regs r 0 (moveToSpare l r.trigger false s)
  obtain ⟨v, he, hv⟩ := exec_recastComplete (spareOk := true) (parts := parts) (path := path) ho hs
  rw [endRecast_moves parts path hr hl hs hd] at hv
  generalize moveToSpare l r.trigger false s = w at *
  have hw : Calm w := ((hc.of_keeps hsu).of_blocks (t := movedTo l u) rfl rfl).of_keeps hmove
  obtain ⟨t, ht, hk⟩ := donePoll_keeps s ((hw.of_blocks hf hm).of_keeps hv)
  have hvt := hv.trans hk
  have hlast := hvt.core l
  rw [coreOf_congr hcore] at hlast
  have hregs := ((hsu.core l).trans ((hmove.core l).trans hlast))
  refine ⟨t, he.trans ht, ?_, ?_, ?_, ?_, hregs.g, hregs.f, hregs.pc, hregs.tsw, ((hmove.core l).trans hlast).resv hresv, ?_⟩
  · calc slotOf l t = slotOf l (recastOver r 0 w) := slotOf_of_keeps hvt l
      _ = slotOf l w := by unfold slotOf; rw [hslot]
      _ = slotOf l (movedTo l u) := slotOf_of_keeps hmove l
      _ = 17 * (l / 16) + 16 := slotOf_movedTo l u
  · calc recState l t = recState l (recastOver r 0 w) := recState_of_keeps hvt l
      _ = recState l w := by unfold recState; rw [hrec]
      _ = recState l (movedTo l u) := recState_of_keeps hmove l
      _ = 0 := recState_movedTo l u
  · calc spareState (l / 16) t = spareState (l / 16) (recastOver r 0 w) := spareState_of_regs hvt.regs _
      _ = spareState (l / 16) w := by unfold spareState; rw [hspare]
      _ = spareState (l / 16) (movedTo l u) := spareState_of_regs hmove.regs _
      _ = 1 := spareState_movedTo l u
  · exact (recastIn_of_regs hvt.regs _).trans (hl ▸ hnone)
  · refine hvt.pending _ ?_
    unfold fltStatus
    rw [hf]
    exact hpend

/-- The state in which the spare has failed (R469, R470), before a core without a spare is lost. -/
def spareFailed (l : Nat) (r : Recasting) (s : State) : State :=
  setRec l 0 (failSpare (l / 16) (if hardKind r.trigger then s else wbInvCore l s))

theorem spareFailed_regs (l : Nat) (r : Recasting) (s : State) : spareState (l / 16) (spareFailed l r s) = 2 ∧ recState l (spareFailed l r s) = 0 := by
  have hk := keeps_raise (code := 0x0F) (src := srcSlot (spareSlot (l / 16))) (part := none) (detail := 0) (by decide)
    (.refl (setSpare (l / 16) 2 (if hardKind r.trigger then s else wbInvCore l s)))
  exact ⟨(spareState_of_regs hk.regs _).trans ((spareState_setSpare ..).trans (if_pos rfl)), (recState_setRec ..).trans (if_pos rfl)⟩

theorem calm_spareFailed {s : State} (h : Calm s) (l : Nat) (r : Recasting) : Calm (spareFailed l r s) := by
  have hi : Calm (if hardKind r.trigger then s else wbInvCore l s) := h.of_keeps (keeps_ite (.refl s) (keeps_wbInvCore (.refl s)))
  have hf : Calm (failSpare (l / 16) (if hardKind r.trigger then s else wbInvCore l s)) :=
    (hi.of_blocks (t := setSpare (l / 16) 2 _) rfl rfl).of_keeps (keeps_raise (by decide) (.refl _))
  exact hf.of_blocks rfl rfl

/-- What becomes of the core then: one with a hard error, or in a fenced slot, is lost (R469; 21 R487), and any other stays (R470). -/
def afterFailure (l : Nat) (r : Recasting) (parts : BitVec 4) (path : Bool) (s : State) : State :=
  if hardKind r.trigger || (r.trigger = .commanded && !r.byCmd) then loseCore l parts path (spareFailed l r s) else spareFailed l r s

theorem keepsOut_afterFailure (l : Nat) (r : Recasting) (parts : BitVec 4) (path : Bool) (s : State) :
    KeepsOut (spareFailed l r s) (afterFailure l r parts path s) := keepsOut_ite (keepsOut_loseCore (.refl _)) (.refl _)

theorem inService_afterFailure {r : Recasting} (hk : hardKind r.trigger = true) (l : Nat) (parts : BitVec 4) (path : Bool) (s : State) :
    inService l (afterFailure l r parts path s) = false := by
  unfold afterFailure
  rw [if_pos (by simp [hk])]
  exact inService_loseCore ..

theorem afterFailure_of_predictive {r : Recasting} (hp : r.trigger = .predictive) (l : Nat) (parts : BitVec 4) (path : Bool) (s : State) :
    afterFailure l r parts path s = spareFailed l r s := if_neg (by simp [hp, hardKind])

theorem endRecast_fails {l : Nat} {r : Recasting} {s : State} (parts : BitVec 4) (path : Bool) (hr : recastIn (l / 16) s = some r)
    (hl : r.logical = l) (hs : recState l s = 1) :
    endRecast l false parts path s = recastOver r 0x10 (afterFailure l r parts path s) := by
  unfold endRecast afterFailure
  rw [hr]
  dsimp only
  rw [if_neg (by simp [hl, hs]), if_neg Bool.false_ne_true, apply_ite (recastOver r 0x10)]
  rfl

/-- A spare that fails its self-check is FAILED, and a core that cannot stay in its slot leaves service (R469, R470). -/
theorem recastComplete_fails {l : Nat} {r : Recasting} {s : State} (hc : Calm s) (ho : operating s = true) (parts : BitVec 4) (path : Bool)
    (hr : recastIn (l / 16) s = some r) (hl : r.logical = l) (hs : recState l s = 1) :
    ∃ t, exec (.recastComplete l false parts path) s = .next t ∧ spareState (l / 16) t = 2 ∧ recastIn (l / 16) t = none ∧
      (r.byCmd = true → t.cpu.recBusy = false ∧ t.cpu.recResult = 0x10) ∧
      (hardKind r.trigger = true → inService l t = false) ∧ (r.trigger = .predictive → recState l t = 0) := by
  have hv : Calm (spareFailed l r s) := calm_spareFailed hc l r
  obtain ⟨hspare, hrec⟩ := spareFailed_regs l r s
  have hwo : KeepsOut (spareFailed l r s) (afterFailure l r parts path s) := keepsOut_afterFailure ..
  have hlost (hk : hardKind r.trigger = true) : inService l (afterFailure l r parts path s) = false := inService_afterFailure hk ..
  have hstays (hp : r.trigger = .predictive) : afterFailure l r parts path s = spareFailed l r s := afterFailure_of_predictive hp ..
  obtain ⟨u, he, hu⟩ := exec_recastComplete (spareOk := false) (parts := parts) (path := path) ho hs
  rw [endRecast_fails parts path hr hl hs] at hu
  generalize afterFailure l r parts path s = w at *
  obtain ⟨hf, hm, hcore, -, hrecOver, hspareOver⟩ := recastOver_frame r 0x10 w
  obtain ⟨hnone, hstatus⟩ := recastOver_regs r 0x10 w
  have hservice : inService l (recastOver r 0x10 w) = inService l w := inService_eq hrecOver (by rw [coreOf_congr hcore])
  have hw : PartCalm (recastOver r 0x10 w) := (hv.partCalm.of_keepsOut hwo).of_blocks hf hm
  obtain ⟨t, ht, hk⟩ := donePoll_keepsOut s (hw.of_keepsOut hu.out)
  have hxt : KeepsOut (recastOver r 0x10 w) t := hu.out.trans hk
  refine ⟨t, he.trans ht, ?_, ?_, fun hb => ?_, fun hh => ?_, fun hp => ?_⟩
  · calc spareState (l / 16) t = spareState (l / 16) (recastOver r 0x10 w) := spareState_of_regs hxt.regs _
      _ = spareState (l / 16) w := by unfold spareState; rw [hspareOver]
      _ = spareState (l / 16) (spareFailed l r s) := spareState_of_regs hwo.regs _
      _ = 2 := hspare
  · exact (recastIn_of_regs hxt.regs _).trans (hl ▸ hnone)
  · obtain ⟨hbusy, hresult⟩ := hstatus hb
    exact ⟨(recBusy_of_regs hxt.regs).trans hbusy, (recResult_of_regs hxt.regs).trans hresult⟩
  · exact hxt.out l (hservice.trans (hlost hh))
  · have hv' : Calm (recastOver r 0x10 w) := ((hstays hp).symm ▸ hv).of_blocks hf hm
    obtain ⟨t', ht', hk'⟩ := donePoll_keeps s (hv'.of_keeps hu)
    obtain rfl : t' = t := Host.Outcome.next.inj (ht'.symm.trans ht)
    calc recState l t' = recState l (recastOver r 0x10 w) := recState_of_keeps (hu.trans hk') l
      _ = recState l w := by unfold recState; rw [hrecOver]
      _ = 0 := by rw [hstays hp]; exact hrec

/-- Settles O29: each clause is one of the commands' lemmas above. -/
theorem recastMovesCoreToSpare : Obligations.RecastMovesCoreToSpare := by
  unfold Obligations.RecastMovesCoreToSpare
  intro l s hs ho hl
  have hmod : l % 256 = l := Nat.mod_eq_of_lt (by omega)
  refine ⟨fun v hv => exec_recast_other hv l s, fun k hb => ?_, fun k hb hk => ?_, fun hb hi hf => ?_, fun hb hn => ?_, fun hg hq => ?_⟩
  · rw [exec_recast_service ho, recastCommand_busy hb]
    exact done_quiet hs rfl (sameReport_refl s)
  · rw [exec_recast_service ho, recastCommand_refused hb (by omega)]
    exact done_quiet hs rfl (sameReport_refl s)
  · refine exec_quiet ((exec_recast_service ho l).trans (congrArg _ (recastCommand_accepted hb hl hi hf))) hs rfl (sameReport_refl s) ?_
    exact ⟨rfl, hmod, rfl, (recastIn_setRecast ..).trans (if_pos rfl), rfl, rfl⟩
  · have hnot : ¬ (l < 192 ∧ inService l s ∧ spareFree (l / 16) s) := by
      rintro ⟨-, hi, hf⟩
      rcases hn with hn | hn
      · exact absurd hi (by simp [hn])
      · exact absurd hf (by simp [hn])
    rw [exec_recast_service ho, recastCommand_refused hb hnot, hmod]
    exact done_quiet hs rfl (sameReport_refl s)
  · have hc : Calm s := ⟨hs, hg, hq⟩
    refine ⟨fun k hi hk hck hf => ?_, fun k hi hk _ => ?_, fun k byCmd hi hk hr hb => ?_, fun r parts path hrec hr hrl => ⟨fun hd => ?_, ?_⟩⟩
    · rw [exec_recastSequence_hard ho hl hk, hardTrigger_of_spare hi hck hf]
      exact donePoll_beginRecast s hc l k false
    · rw [exec_recastSequence_hard ho hl hk]
      exact donePoll_hardTrigger s hc hi k
    · rw [exec_recastSequence_due ho hl hk hi hr hb]
      exact donePoll_beginRecast s hc l k byCmd
    · exact recastComplete_moves hc ho parts path hr hrl hrec hd
    · exact recastComplete_fails hc ho parts path hr hrl hrec

end Sys2Proof.Machine
end

section
/-! PROOFS. A clear of a fault source (21_fault_collection R484, R494, R495): PENDING_CLEAR succeeds, or fails with the setting counted and logged. -/

namespace Sys2Proof.Machine

/-! ### The end of a command on a module that is stopped -/

/-- No step that is due acts on a checkstopped module (R489). -/
theorem settleDue_stopped (n : Nat) : ∀ {s : State}, s.flt.checkstop = true → settleDue n s = { s with flt := { s.flt with due := [] } } := by
  induction n with
  | zero => exact fun _ => rfl
  | succ n ih =>
    intro s hc
    unfold settleDue
    split
    · next hd => rw [← hd]
    · next d t _ =>
      have hstep : dueStep d { s with flt := { s.flt with due := t } } = { s with flt := { s.flt with due := t } } := if_pos hc
      rw [hstep]
      exact ih hc

/-- Where no step is due, or none can act, a command that changes nothing told outside ends with the list of due steps emptied. -/
theorem done_noStepActs {b s : State} (h : s.flt.due = [] ∨ s.flt.checkstop = true) (hp : s.pending = b.pending) (hr : Safety.sameReport b s) :
    done b s = .next { s with flt := { s.flt with due := [] } } := by
  rcases h with hd | hc
  · rw [done_quiet hd hp hr, ← hd]
  · have hr' : Safety.sameReport b { s with flt := { s.flt with due := [] } } := hr
    unfold done settle
    rw [settleDue_stopped _ hc, torFlood_same hr', signalStates_same hr', ← hp]

/-! ### The fault log (R494) -/

theorem logEntry_nextSeq (kind cls source part step detail : Nat) (s : State) :
    (logEntry kind cls source part step detail s).flt.nextSeq = (s.flt.nextSeq + 1) % 2 ^ 64 := rfl

/-- An entry takes its place in the log, and every other place is as before. -/
theorem log_logEntry (kind cls source part step detail j : Nat) (s : State) :
    tget none j (logEntry kind cls source part step detail s).flt.log =
      if j = s.flt.nextSeq % 8192 then some { tor := s.tor.tor, kind := kind, qc := torQuality s + 4 * cls, source := source, part := part,
                                              step := step, detail := detail, seq := s.flt.nextSeq }
      else tget none j s.flt.log := by
  unfold logEntry
  rw [tget_tset]

theorem log_logEntry_at (kind cls source part step detail : Nat) (s : State) : ∃ e : LogEntry,
    tget none (s.flt.nextSeq % 8192) (logEntry kind cls source part step detail s).flt.log = some e ∧ e.kind = kind ∧ e.source = source ∧
      e.tor = s.tor.tor :=
  ⟨_, (log_logEntry ..).trans (if_pos rfl), rfl, rfl, rfl⟩

/-! ### An event that a pending source reports again (R483) -/

theorem laterEvent_again (src : Nat) (part : Option Nat) (s : State) :
    laterEvent (fltStatus src s).cls src (fltStatus src s).event part (fltStatus src s).holds s =
      setFlt src { fltStatus src s with overflow := true } s := by
  simp [laterEvent]

/-- The pending event of a source counted, and logged where the source's entry says so. -/
def countAgain (src : Nat) (part : Option Nat) (detail : Nat) (s : State) : State :=
  if lbit (reactOf src s) 63 then
    logEntry 1 (fltStatus src s).cls (sourceNo (fltStatus src s).event src) (part.getD 0x3F) 0 detail (patina src s)
  else patina src s

section
variable (src : Nat) (part : Option Nat) (detail : Nat) (s : State)

theorem countAgain_logs (h : lbit (reactOf src s) 63 = true) : countAgain src part detail s =
    logEntry 1 (fltStatus src s).cls (sourceNo (fltStatus src s).event src) (part.getD 0x3F) 0 detail (patina src s) := if_pos h

theorem countAgain_counts (h : lbit (reactOf src s) 63 = false) : countAgain src part detail s = patina src s := if_neg (by simp [h])

/-- Counting and logging touch the counters and the log only. -/
theorem countAgain_eq : ∃ log seq lost, countAgain src part detail s =
    { s with flt := { (patina src s).flt with log := log, nextSeq := seq, lost := lost } } := by
  unfold countAgain
  split
  · exact ⟨_, _, _, rfl⟩
  · exact ⟨s.flt.log, s.flt.nextSeq, s.flt.lost, rfl⟩

/-- The event that a pending source holds, reported again: it is counted and logged, sets `OVERFLOW`, and changes nothing else but the ERR_N pulse
and, for class UE-module alone, what is due. The grace timer keeps its start. -/
theorem raiseClass_again (hp : (fltStatus src s).pending = true) :
    ∃ pulse due, raiseClass (fltStatus src s).cls src (fltStatus src s).event part detail (fltStatus src s).holds s =
        { countAgain src part detail s with flt := { (setFlt src { fltStatus src s with overflow := true } (countAgain src part detail s)).flt with
            pulseEnd := pulse, due := due } } ∧
      ((fltStatus src s).cls ≠ 3 → due = s.flt.due) := by
  obtain ⟨log, seq, lost, hc⟩ := countAgain_eq src part detail s
  have hst : fltStatus src (countAgain src part detail s) = fltStatus src s := by rw [hc]; rfl
  have hdue : (countAgain src part detail s).flt.due = s.flt.due := by rw [hc]; rfl
  have hlater := laterEvent_again src part (countAgain src part detail s)
  rw [hst] at hlater
  have hlog : (lbit (reactOf src s) 63 || !(fltStatus src s).pending) = lbit (reactOf src s) 63 := by simp [hp]
  unfold raiseClass
  dsimp only
  rw [hlog, if_pos hp]
  unfold countAgain at hlater hdue ⊢
  rw [hlater]
  by_cases h3 : (fltStatus src s).cls = 3
  · rw [if_pos h3]
    cases lbit (reactOf src s) 60 <;> exact ⟨_, _, rfl, absurd h3⟩
  · rw [if_neg h3]
    cases lbit (reactOf src s) 60 <;> exact ⟨_, _, rfl, fun _ => hdue⟩

end

/-! ### PENDING_CLEAR -/

theorem exec_pendingClear_allowed {v : View} {src : Nat} {s : State} (hv : mayClear v src s = true) (hp : powered s = true) (setNow : Bool) :
    exec (.pendingClear v src setNow) s = done s (pendingClear src setNow s) := if_pos (by simp [hv, hp])

theorem exec_pendingClear_barred {v : View} {src : Nat} {s : State} (hv : mayClear v src s = false) (setNow : Bool) :
    exec (.pendingClear v src setNow) s = .next s := if_neg (by simp [hv])

section
variable {src : Nat} {setNow : Bool} {s : State}

theorem pendingClear_succeeds (hi : isSource src = true) (hp : (fltStatus src s).pending = true) (hc : (setNow || condHolds src s) = false) :
    pendingClear src setNow s = setFlt src { fltStatus src s with pending := false, overflow := false, timer := none } s := by
  unfold pendingClear
  rw [if_neg (by simp [hi, hp]), if_neg (by simp [hc])]

/-- A clear that fails is the pending event once more, and then an entry CLEAR_LOST. -/
theorem pendingClear_fails (hi : isSource src = true) (hp : (fltStatus src s).pending = true) (hc : (setNow || condHolds src s) = true) :
    pendingClear src setNow s =
      logEntry 3 (fltStatus src s).cls (sourceNo (fltStatus src s).event src) (fltStatus src s).part 0 0
        (raiseClass (fltStatus src s).cls src (fltStatus src s).event
          (if (fltStatus src s).part = 0x3F then none else some (fltStatus src s).part) 0 (fltStatus src s).holds s) := by
  unfold pendingClear
  rw [if_neg (by simp [hi, hp]), if_pos hc]

/-- What a clear that fails leaves: the pending event counted again, then `OVERFLOW` and CLEAR_LOST; and no due step can act. -/
theorem pendingClear_fails_leaves (hs : Safety.settled s) (hi : isSource src = true)
    (hm : (fltStatus src s).cls = 3 → s.flt.checkstop = true) (hp : (fltStatus src s).pending = true) (hc : (setNow || condHolds src s) = true) :
    ∃ t, done s (pendingClear src setNow s) = .next t ∧
      (∀ j, fltStatus j t = if j = src then { fltStatus src s with overflow := true } else fltStatus j s) ∧ t.flt.live = (patina src s).flt.live ∧
      ∃ part, t.flt.log = (logEntry 3 (fltStatus src s).cls (sourceNo (fltStatus src s).event src) (fltStatus src s).part 0 0
        (countAgain src part 0 s)).flt.log := by
  generalize hpart : (if (fltStatus src s).part = 0x3F then none else some (fltStatus src s).part) = part
  obtain ⟨pulse, due, hr, hdue⟩ := raiseClass_again src part 0 s hp
  obtain ⟨log, seq, lost, hca⟩ := countAgain_eq src part 0 s
  rw [pendingClear_fails hi hp hc, hpart, hr, hca]
  refine ⟨_, done_noStepActs ?_ rfl (sameReport_refl s), fun j => fltStatus_setFlt src j _ s, rfl, part, by rw [hca]; rfl⟩
  by_cases h3 : (fltStatus src s).cls = 3
  · exact .inr (hm h3)
  · exact .inl ((hdue h3).trans hs)

end

/-- The entries of a clear that fails: one of kind EVENT where the source's entry logs, and one of kind CLEAR_LOST in the next place. -/
theorem log_clearLost (src part : Nat) (who : Option Nat) (s : State) {log : Tab (Option LogEntry)}
    (h : log = (logEntry 3 (fltStatus src s).cls (sourceNo (fltStatus src s).event src) part 0 0 (countAgain src who 0 s)).flt.log) :
    (lbit (reactOf src s) 63 = true → ∃ e : LogEntry, tget none (s.flt.nextSeq % 8192) log = some e ∧ e.kind = 1 ∧
      e.source = sourceNo (fltStatus src s).event src ∧ e.tor = s.tor.tor) ∧
    (∃ e : LogEntry, tget none ((s.flt.nextSeq + if lbit (reactOf src s) 63 then 1 else 0) % 8192) log = some e ∧ e.kind = 3 ∧
      e.source = sourceNo (fltStatus src s).event src ∧ e.tor = s.tor.tor) := by
  subst h
  cases hl : lbit (reactOf src s) 63 with
  | true =>
    rw [countAgain_logs src who 0 s hl]
    have hnext : (logEntry 1 (fltStatus src s).cls (sourceNo (fltStatus src s).event src) (who.getD 0x3F) 0 0 (patina src s)).flt.nextSeq % 8192 =
        (s.flt.nextSeq + 1) % 8192 := by rw [logEntry_nextSeq]; exact Nat.mod_mod_of_dvd _ (by decide)
    refine ⟨fun _ => ?_, ?_⟩
    · rw [log_logEntry, if_neg (by rw [hnext]; omega)]
      exact log_logEntry_at 1 _ _ _ _ _ (patina src s)
    · rw [if_pos rfl, ← hnext]
      exact log_logEntry_at 3 ..
  | false =>
    rw [countAgain_counts src who 0 s hl]
    exact ⟨nofun, log_logEntry_at 3 _ _ _ _ _ (patina src s)⟩

/-- Settles O10: a clear that fails is the pending event once more, and the steps that it could make due do not act on a module that is
checkstopped. -/
theorem pendingClearClears : Obligations.PendingClearClears := by
  intro v src setNow s hs hw hi hm
  refine ⟨fun hv => exec_pendingClear_barred hv setNow, fun hv hp => ⟨fun hc => ?_, fun hc => ?_⟩⟩
  · rw [exec_pendingClear_allowed hv hw, pendingClear_succeeds hi hp hc]
    exact done_quiet hs rfl (sameReport_refl s)
  · obtain ⟨t, ht, hstatus, hlive, who, hlog⟩ := pendingClear_fails_leaves hs hi hm hp hc
    obtain ⟨hevent, hlost⟩ := log_clearLost src _ who s hlog
    exact ⟨t, (exec_pendingClear_allowed hv hw setNow).trans ht, (hstatus src).trans (if_pos rfl), fun j hj => (hstatus j).trans (if_neg hj),
      fun j => (congrArg (tget 0 j) hlive).trans (patina_live src j s), hevent, hlost⟩

end Sys2Proof.Machine
end

section
set_option Elab.async false
/-! PROOFS. The step, the tick and the reset state: every command ends in a next state, with the queue as it was and no escalation step due (00_scope;
03 R55; 21 R486, R489). -/

namespace Sys2Proof.Machine

/-! ### The end of a command -/

/-- An outcome of a command on `s`: a next state, the queue left alone, and no escalation step due where none was. -/
def Ends (s : State) (o : Host.Outcome State Fault Refusal) : Prop :=
  ∃ t, o = .next t ∧ t.pending = s.pending ∧ (s.flt.due = [] → t.flt.due = [])

theorem ends_next {s t : State} (hp : t.pending = s.pending) (hd : t.flt.due = s.flt.due) : Ends s (.next t) := ⟨t, rfl, hp, hd.trans⟩

theorem ends_self (s : State) : Ends s (.next s) := ends_next rfl rfl

theorem ends_emit (o : Out) (s : State) : Ends s (.next (emit o s)) := ends_next rfl rfl

theorem ends_done (s t : State) : Ends s (done s t) := ⟨_, rfl, settle_pending s t, fun _ => settle_due s t⟩

theorem ends_donePoll (s t : State) : Ends s (donePoll s t) := ends_done s _

theorem ends_mqDo (ss : Session) (c : MqCmd) (s : State) : Ends s (mqDo ss c s) := by
  unfold mqDo
  split
  · exact ends_done ..
  · exact ends_self s

theorem ends_setSession (ss : Session) (v : MqSession) (s : State) : Ends s (.next (setSession ss v s)) := ends_next (by cases ss <;> rfl) (by cases ss <;> rfl)

/-- Each command refuses and leaves the state, ends by `done`, or writes a field of its own that is neither the queue nor fault collection's steps. -/
theorem ends_exec (c : Instr) (s : State) : Ends s (exec c s) := by
  cases c
  all_goals
    simp only [exec,
      execIssueGroup, execWaitevDeadline, execStoreBufferPerform, execExternalInterruption, execIoInterruption, execMachineCheck,
      execTorComparatorFire, execPpsEdge, execTodFrame, execRefLoss, execTimeExchange, execRefDisable, execFabricDisable,
      execHeldWriteRelease, execLoadFull, execLoadPartial, execStoreA, execStoreB, execPlinthChecksComplete, execApplyingEnd, execStart,
      execStop, execPartitionStopped, execPartReset, execModuleReset, execColdReset, execResetN, execBringupStepComplete, execGovernorEpoch,
      execRecast, execRecastSequence, execRecastComplete, execDramRequest, execRefreshTick, execRefreshIdle, execRecentre, execPatrolScrub,
      execSpeed, execTrainingComplete, execCaParityAlert, execFlitReceive, execNakRepeat, execReplayTimeout, execAlignmentSlot,
      execLaneSignalDetect, execEqualiseComplete, execAlignComplete, execLinkInitFlit, execLinkStateTimeout, execRecoveryComplete,
      execDownExpiry, execWidthFlit, execWidthFlitRepeat, execLinkKeyRotation, execKeyPhaseErase, execLinkDisable, execRetrain, execCntClr,
      execLaneOff, execLaneRetry, execHello, execIdentity, execKemOffer, execKemReply, execConfirm, execNodeIdClaim, execAlone,
      execLinkStateAdvertisement, execMemberTimeout, execEpochAnnounce, execRouteEpochSwitch, execRouteTableRetire, execMsgRead,
      execMsgReadOwn, execMsgUpgrade, execMsgWriteback, execMsgUncached, execMsgSnoop, execMsgData, execMsgDone, execMessageResend,
      execRequestUnreachable, execSnoopTimeout, execLeave, execRejoin, execRemoveReqN, execEnterLeft, execCpTake, execPriorityAging,
      execWaitTorExpiry, execDataFrame, execStatusFrame, execHaltTimeout, execCsSubchWrite, execMirror, execMirrorAck, execMirrorTimeout,
      execPairingExchange, execResyncComplete, execLatClr, execSubchCopy, execHeartbeatSend, execHeartbeat, execHeartbeatMiss,
      execHolddownExpiry, execFailbackNow, execEnable, execDisable, execResume, execQueueDoorbell, execCompress, execDecompress,
      execRaspJobComplete, execEncrypt, execDecrypt, execMacGen, execMacVerify, execHash, execKwWrap, execKwUnwrap, execGenkey, execUnwrap,
      execWrap, execClear, execUrgentSuspend, execIntaglioRequestComplete, execModuleReport, execPartitionReport, execTrPatt,
      execAttestationComplete, execEntropyTestFail, execDrbgReseed, execRekeyRequest, execRekeyAck, execBoundaryScan, execHostWindowRead,
      execHostWindowWrite, execHostCompletion, execCompletionTimeout, execCommit, execClaim, execQpRelease, execMailboxInbound,
      execMailboxOutbound, execFlr, execPerstN, execHotReset, execBusMasterEnable, execFaultEvent, execReportingPathFault, execGraceExpiry,
      execPendingClear, execPatinaClear, execUnfence, execPatinaSnapshot, execErrNPulseEnd, execCsStoreA, execCsStoreB, execCsScrub,
      execCsRepairDone, execInject, execFeedSwitch, execFeedReturn, execFeedLoss, execThermtrip, execHotInsertion, execPrsntDeassert,
      execClockLoss, execSmb4ReadWord, execMqId, execMqTor, execMqPatina, execMqFlt, execMqPlinth, execMqJnl, execMqLink, execMqBaud,
      execBaudTimeout, execMqGrant, execTokenLine, execMqRelease, execGrantExpiry, execMqMemR, execMqMemW, execMqCoreHalt, execMqCoreStep,
      execMqCoreRun, execMqCoreRegs, execMqRecast, execMailboxLine, execRegisterWrite, execLaneRetryComplete, execLaneLockLoss,
      execGrantDestructionTimeout, execHostLinkTrained, execFunctionResetComplete, execVkaLoss, execFeedGoodChange, execClockReturn,
      execMqRxCharacter, execHostConfigRequest]
    repeat' split
    all_goals simp only [ends_self, ends_done, ends_donePoll, ends_emit, ends_mqDo, ends_setSession, ends_next]

theorem ends_idle (s : State) : Ends s (idle s) := by
  have htick : (tickTor s).pending = s.pending ∧ (tickTor s).flt.due = s.flt.due := by
    unfold tickTor
    split <;> exact ⟨rfl, rfl⟩
  unfold idle
  split
  · exact ends_donePoll ..
  · exact ends_next htick.1 htick.2

theorem step_of_command {c : Instr} {rest : List Instr} {s : State} (h : s.pending = c :: rest) : step s = exec c { s with pending := rest } := by
  unfold step
  rw [h]

theorem step_of_empty {s : State} (h : s.pending = []) : step s = idle s := by
  unfold step
  rw [h]

/-- Settles O1. -/
theorem stepRunsFrontCommand : Obligations.StepRunsFrontCommand := fun _ _ _ => step_of_command

/-- Settles O2: a tick is TOR's own, and the end of a wait of the monitor ends like a command. -/
theorem emptyQueueTicksTor : Obligations.EmptyQueueTicksTor := by
  intro s h
  rw [step_of_empty h]
  refine ⟨fun hb => ⟨fun hk => ?_, fun hk => ?_⟩, ?_⟩
  · simp [idle, hb, tickTor, hk]
  · simp [idle, hb, tickTor, hk]
  · obtain ⟨t, ht, hp, -⟩ := ends_idle s
    exact ⟨t, ht, hp.trans h⟩

/-- Settles O3: the reset state's tables are empty, so that every entry reads its default. -/
theorem resetState : Obligations.ResetState :=
  ⟨rfl, rfl, rfl, rfl, rfl, rfl, fun _ => rfl, fun _ => rfl, fun _ => ⟨rfl, rfl⟩, fun _ => rfl, fun _ => ⟨rfl, rfl⟩, fun _ => rfl⟩

/-- Settles O4. -/
theorem resetIsSafe : Obligations.ResetIsSafe := ⟨rfl, memory_wf_reset⟩

/-- Settles O5: a step is a tick or a command, and either ends with no step due. -/
theorem everyStepLeavesNoDueStep : Obligations.EveryStepLeavesNoDueStep := by
  intro s t hs ht
  have hends : ∃ b, b.flt = s.flt ∧ Ends b (step s) := by
    cases hp : s.pending with
    | nil => exact ⟨s, rfl, step_of_empty hp ▸ ends_idle s⟩
    | cons c rest => exact ⟨{ s with pending := rest }, rfl, step_of_command hp ▸ ends_exec c _⟩
  obtain ⟨b, hb, u, hu, -, hdue⟩ := hends
  obtain rfl : u = t := by simpa [hu] using ht
  exact hdue (by rw [hb]; exact hs)

/-- Settles O6. -/
theorem stepTakesOneCommand : Obligations.StepTakesOneCommand := by
  intro c rest s h
  obtain ⟨t, ht, hp, -⟩ := ends_exec c { s with pending := rest }
  exact ⟨t, (step_of_command h).trans ht, hp⟩

end Sys2Proof.Machine
end

section
set_option Elab.async false
/-! PROOFS. Numbers as bytes and back, and the 64 bytes of a journal entry (00_scope R6; 16 R366). -/

namespace Sys2Proof.Machine

/-! ### Big-endian numbers -/

@[simp] theorem length_beBytes (n w : Nat) : (beBytes n w).length = n := by
  induction n with
  | zero => rfl
  | succ n ih => simp [beBytes, ih]

theorem foldl_beBytes (n w : Nat) : ∀ a, (beBytes n w).foldl (fun a b => a * 256 + b.toNat) a = a * 256 ^ n + w % 256 ^ n := by
  induction n with
  | zero => intro a; simp [beBytes, Nat.mod_one]
  | succ n ih =>
    intro a
    have hsplit : w % 256 ^ (n + 1) = w % 256 ^ n + 256 ^ n * (w >>> (8 * n) % 256) := by
      rw [Nat.pow_succ, Nat.mod_mul, Nat.shiftRight_eq_div_pow, Nat.pow_mul]
    rw [beBytes, List.foldl_cons, ih, hsplit, BitVec.toNat_ofNat]
    ring

/-- The number that its bytes spell. -/
theorem beNat_beBytes (n w : Nat) : beNat (beBytes n w) = w % 256 ^ n := by simp [beNat, foldl_beBytes]

theorem natAt_beBytes (n w : Nat) : natAt (beBytes n w) 0 n = w % 256 ^ n := by
  have hall : bytesAt (beBytes n w) 0 n = beBytes n w := by
    rw [bytesAt, List.drop_zero, List.take_of_length_le (by simp)]
    simp
  rw [natAt, hall, beNat_beBytes]

theorem natAt_beBytes_append (n w : Nat) (r : List Byte) : natAt (beBytes n w ++ r) 0 n = w % 256 ^ n := by
  have hfirst : bytesAt (beBytes n w ++ r) 0 n = beBytes n w := by simp [bytesAt]
  rw [natAt, hfirst, beNat_beBytes]

theorem natAt_append_skip (b r : List Byte) {o : Nat} (n : Nat) (h : b.length ≤ o) : natAt (b ++ r) o n = natAt r (o - b.length) n := by
  have hdrop : (b ++ r).drop o = r.drop (o - b.length) := by rw [List.drop_append, List.drop_of_length_le h, List.nil_append]
  rw [natAt, natAt, bytesAt, bytesAt, hdrop]

/-- A field past the first `k` bytes is a field of the rest. -/
theorem natAt_beBytes_skip {k o : Nat} (w n : Nat) (r : List Byte) (h : k ≤ o) : natAt (beBytes k w ++ r) o n = natAt r (o - k) n := by
  rw [natAt_append_skip _ _ _ (by simpa using h), length_beBytes]

/-! ### The journal entry -/

/-- The byte of the flags of R366 keeps each of them. -/
theorem flagByte_bits (a b c d e : Bool) : let f := (b2n a + 2 * b2n b + 4 * b2n c + 8 * b2n d + 16 * b2n e) % 256
    f.testBit 0 = a ∧ f.testBit 1 = b ∧ f.testBit 2 = c ∧ f.testBit 3 = d ∧ f.testBit 4 = e := by
  revert a b c d e
  decide

theorem entry_bytes_length (e : JEntry) : e.bytes.length = 64 := by simp [JEntry.bytes]

/-- The reserved bytes of an entry. -/
theorem reserved_bytes : ([0, 0] : List Byte) = beBytes 2 0 := by decide

/-- Settles O44: a field is read where it was put, the packed bytes taken apart by division and by their bits. -/
theorem journalEntryBytesRoundTrip : Obligations.JournalEntryBytesRoundTrip := by
  intro e hstate htrans hsub hprio hqual hpart hdev hch hflags hseq htor horder hord heng hmark hparam hrel
  refine ⟨entry_bytes_length e, ?_⟩
  obtain ⟨h0, h1, h2, h3, h4⟩ := flagByte_bits e.mirror e.takenOver e.simplex e.openSent e.hold
  unfold jentOf JEntry.bytes
  rw [reserved_bytes]
  simp only [List.append_assoc, natAt_beBytes_append, natAt_beBytes_skip, natAt_beBytes, Nat.reduceLeDiff, Nat.reduceSub, Nat.reducePow, h0, h1, h2, h3, h4]
  rw [JEntry.mk.injEq]
  simp only [true_and]
  omega

end Sys2Proof.Machine
end

section
set_option Elab.async false
/-! PROOFS. Frames: which registers of the state an operation writes. One lemma for each operation lists them; every other register is as before. -/

namespace Sys2Proof.Machine

/-- The fields of `State`. -/
inductive Block where
  | pending | out | free | flt | tor | pln | pwr | cpu | sto | dram | arm | ch | jnl | dx | offers | armLink | chLink | pf0 | pf1 | hp | eng | tr | cs | mq | pin
  | svc | svcPoison
deriving DecidableEq

/-- The registers that frames speak of: the fields of `State`, and those parts of them that statements name by themselves. -/
inductive FrameReg where
  | pending | out | free | flt | tor | pln | pwr | cpu | sto | dram | arm | ch | jnl | dx | offers | armLink | chLink | pf0 | pf1 | hp | eng | tr | cs | mq | pin
  | svc | svcPoison | said | status | due | react | checkstop | live | core | fstate | node | mem | keeps | fenced | pend | count | plan | pstate | checked | journal | links
  | own | still | dues | halted | idle | kept | sensed | failed | depart | routing
deriving DecidableEq

/-- The registers that are read from a field of `State`. -/
def Block.regs : Block → List FrameReg
  | .pending => [.pending]
  | .out => [.out, .said]
  | .free => [.free]
  | .flt => [.flt, .status, .due, .react, .checkstop, .live, .keeps, .still, .fenced, .pend, .dues, .halted]
  | .tor => [.tor, .count]
  | .pln => [.pln, .plan, .pstate, .checked]
  | .pwr => [.pwr, .sensed]
  | .cpu => [.cpu, .core, .keeps, .own, .still]
  | .sto => [.sto, .mem]
  | .dram => [.dram, .failed]
  | .arm => [.arm, .fstate, .node, .depart, .routing]
  | .ch => [.ch]
  | .jnl => [.jnl, .journal, .kept]
  | .dx => [.dx]
  | .offers => [.offers]
  | .armLink => [.armLink, .links, .idle]
  | .chLink => [.chLink, .links, .idle]
  | .pf0 => [.pf0]
  | .pf1 => [.pf1]
  | .hp => [.hp]
  | .eng => [.eng]
  | .tr => [.tr]
  | .cs => [.cs]
  | .mq => [.mq, .keeps, .still]
  | .pin => [.pin]
  | .svc => [.svc]
  | .svcPoison => [.svcPoison]

/-- What sending flits leaves of a link. -/
def unsent (l : Link) : Link :=
  { l with replay := [], txq := [], nextSeq := 0, ivTx := 0, credits := [], ackTor := 0, returns := [], alignTor := 0, nextVc := 0 }

/-- From one to the other, flits were sent at most, and none but in KEY and ACTIVE. -/
def SameLink (l m : Link) : Prop := unsent m = unsent l ∧ l.replay <+: m.replay ∧ (l.state = 5 ∨ l.state = 6 ∨ m.replay = l.replay)

theorem sameLink_of {l m : Link} (h : unsent m = unsent l) (hr : m.replay = l.replay) : SameLink l m := ⟨h, hr ▸ List.prefix_refl _, .inr (.inr hr)⟩

theorem SameLink.refl (l : Link) : SameLink l l := sameLink_of rfl rfl

theorem SameLink.trans {l m n : Link} (h : SameLink l m) (k : SameLink m n) : SameLink l n := by
  obtain ⟨hu, hp, hr⟩ := h
  obtain ⟨ku, kp, kr⟩ := k
  have hstate : m.state = l.state := (congrArg Link.state hu :)
  rw [hstate] at kr
  refine ⟨ku.trans hu, hp.trans kp, ?_⟩
  rcases hr with h5 | h6 | hr
  · exact .inl h5
  · exact .inr (.inl h6)
  · exact kr.imp_right fun kr => kr.imp_right fun kr => kr.trans hr

/-- The part of the image's block that the states of partitions, and what is under way for them, leave alone. -/
def planOf (s : State) : Plinth := { s.pln with pstate := [], presult := [], zero := [], starting := [] }

/-- What a governor epoch reads. -/
def sensedOf (s : State) : Nat × Tab Reading × Tab Int := (s.pwr.powerW, s.pwr.temp, s.pwr.lastTemp)

/-- What departs and returns at an administrator's or a hand's request (14 R324). -/
def departOf (a : Fabric) : Nat × Bool × Option Nat := (a.lastResult, a.removeReq, a.leaveAt)

/-- What the module knows of its peers, and its route tables with their epochs (14 R309, R314 to R316). -/
def routingOf (a : Fabric) : Tab Peer × Tab Route × Tab Route × Nat × Nat × Nat × Option EpochAnn :=
  (a.peers, a.routes, a.prev, a.prevUntil, a.epoch, a.epochTor, a.next)

/-- What storage traffic leaves of a core: all but its caches, its store buffer, its reservation and the machine checks that it is told of. -/
def ownOf (c : Core) : Core :=
  { c with resv := none, mcs := [], sb := [], wc := [], sysBuf := [], l1i := [], l1d := [], l2 := [], held1 := [], held2 := [] }

/-- From `s` to `t` recast is as before, no source's event is cleared, and, where every source's `GRACE_US` leaves time, no escalation step falls due. -/
structure Still (s t : State) : Prop where
  regs : recastRegs t = recastRegs s
  recState : t.cpu.recState = s.cpu.recState
  slot : t.cpu.slot = s.cpu.slot
  pending : ∀ i, (fltStatus i s).pending = true → (fltStatus i t).pending = true
  due : Safety.graceful s → t.flt.due = s.flt.due

theorem Still.trans {s t u : State} (h : Still s t) (k : Still t u) : Still s u where
  regs := k.regs.trans h.regs
  recState := k.recState.trans h.recState
  slot := k.slot.trans h.slot
  pending i := k.pending i ∘ h.pending i
  due hg := (k.due (graceful_of_regs h.regs hg)).trans (h.due hg)

theorem still_of_keeps {s t : State} (h : Keeps s t) : Still s t := ⟨h.regs, h.recState, h.slot, h.pending, h.due⟩

theorem coreKeeps_of_own {c d : Core} (h : ownOf d = ownOf c) (hr : c.resv = none → d.resv = none) : CoreKeeps c d where
  g := (congrArg Core.g h :)
  f := (congrArg Core.f h :)
  pc := (congrArg Core.pc h :)
  tsw := (congrArg Core.tsw h :)
  losing := (congrArg Core.losing h :)
  resv := hr

/-- A register reads the same in two states. Some stand for less: `said` is what has left the module, which nothing takes back; `keeps` is what
storage traffic keeps of the cores; a `fenced` source stays so, and so does a pending one, with the steps it has taken (`pend`); a partition keeps its state
or becomes CHECKSTOPPED (`checked`); `links` are links but for flits sent; `own` is what storage traffic leaves of each core, and `still` what it keeps beside
the cores; steps that are due stay so (`dues`), a checkstopped module stays so (`halted`), a link in DISABLED or
DETECT stays in them (`idle`), `kept` says whether the journal is valid, `sensed` is what a governor epoch reads, and a controller whose
channel has failed stays so (`failed`). -/
def sameReg (s t : State) : FrameReg → Prop
  | .pending => t.pending = s.pending
  | .out => t.out = s.out
  | .free => t.free = s.free
  | .flt => t.flt = s.flt
  | .tor => t.tor = s.tor
  | .pln => t.pln = s.pln
  | .pwr => t.pwr = s.pwr
  | .cpu => t.cpu = s.cpu
  | .sto => t.sto = s.sto
  | .dram => t.dram = s.dram
  | .arm => t.arm = s.arm
  | .ch => t.ch = s.ch
  | .jnl => t.jnl = s.jnl
  | .dx => t.dx = s.dx
  | .offers => t.offers = s.offers
  | .armLink => t.armLink = s.armLink
  | .chLink => t.chLink = s.chLink
  | .pf0 => t.pf0 = s.pf0
  | .pf1 => t.pf1 = s.pf1
  | .hp => t.hp = s.hp
  | .eng => t.eng = s.eng
  | .tr => t.tr = s.tr
  | .cs => t.cs = s.cs
  | .mq => t.mq = s.mq
  | .pin => t.pin = s.pin
  | .svc => t.svc = s.svc
  | .svcPoison => t.svcPoison = s.svcPoison
  | .said => s.out <+: t.out
  | .status => t.flt.status = s.flt.status
  | .due => t.flt.due = s.flt.due
  | .react => t.flt.react = s.flt.react
  | .checkstop => t.flt.checkstop = s.flt.checkstop
  | .live => t.flt.live = s.flt.live
  | .core => t.cpu.core = s.cpu.core
  | .fstate => t.arm.fstate = s.arm.fstate
  | .node => t.arm.node = s.arm.node
  | .mem => t.sto.mem = s.sto.mem
  | .keeps => Keeps s t
  | .fenced => ∀ i, (fltStatus i s).fenced = true → (fltStatus i t).fenced = true
  | .pend => ∀ i, (fltStatus i s).pending = true → (fltStatus i t).pending = true ∧ (fltStatus i s).step ≤ (fltStatus i t).step
  | .count => t.tor.tor = s.tor.tor
  | .plan => planOf t = planOf s
  | .pstate => t.pln.pstate = s.pln.pstate
  | .checked => ∀ p, pstateOf p t = pstateOf p s ∨ pstateOf p t = .checkstopped
  | .journal => t.jnl.e = s.jnl.e
  | .links => ∀ p, SameLink (linkOf p s) (linkOf p t)
  | .own => ∀ k, ownOf (coreOf k t) = ownOf (coreOf k s)
  | .still => Still s t
  | .dues => s.flt.due <+: t.flt.due
  | .halted => s.flt.checkstop = true → t.flt.checkstop = true
  | .idle => ∀ p, (linkOf p s).state ≤ 1 → (linkOf p t).state ≤ 1
  | .kept => t.jnl.keptValid = s.jnl.keptValid
  | .sensed => sensedOf t = sensedOf s
  | .failed => ∀ n, (dramOf n s).state = 4 → (dramOf n t).state = 4
  | .depart => departOf t.arm = departOf s.arm
  | .routing => routingOf t.arm = routingOf s.arm

/-- A field of `State` is the same in two states. -/
def sameBlock (s t : State) : Block → Prop
  | .pending => t.pending = s.pending
  | .out => t.out = s.out
  | .free => t.free = s.free
  | .flt => t.flt = s.flt
  | .tor => t.tor = s.tor
  | .pln => t.pln = s.pln
  | .pwr => t.pwr = s.pwr
  | .cpu => t.cpu = s.cpu
  | .sto => t.sto = s.sto
  | .dram => t.dram = s.dram
  | .arm => t.arm = s.arm
  | .ch => t.ch = s.ch
  | .jnl => t.jnl = s.jnl
  | .dx => t.dx = s.dx
  | .offers => t.offers = s.offers
  | .armLink => t.armLink = s.armLink
  | .chLink => t.chLink = s.chLink
  | .pf0 => t.pf0 = s.pf0
  | .pf1 => t.pf1 = s.pf1
  | .hp => t.hp = s.hp
  | .eng => t.eng = s.eng
  | .tr => t.tr = s.tr
  | .cs => t.cs = s.cs
  | .mq => t.mq = s.mq
  | .pin => t.pin = s.pin
  | .svc => t.svc = s.svc
  | .svcPoison => t.svcPoison = s.svcPoison

/-- A register reads the same where the fields do that it is read from. -/
theorem sameReg_of_blocks {s t : State} {r : FrameReg} (h : ∀ q, r ∈ q.regs → sameBlock s t q) : sameReg s t r := by
  have hflt : r ∈ Block.regs .flt → t.flt = s.flt := h .flt
  have hcpu : r ∈ Block.regs .cpu → t.cpu = s.cpu := h .cpu
  have hpln : r ∈ Block.regs .pln → t.pln = s.pln := h .pln
  cases r
  case said => 
    have hout : t.out = s.out := h .out (by decide)
    exact (congrArg (s.out <+: ·) hout).mpr (List.prefix_refl _)
  case keeps => exact keeps_of_blocks (hcpu (by decide)) (hflt (by decide)) (h .mq (by decide))
  case still => exact still_of_keeps (keeps_of_blocks (hcpu (by decide)) (hflt (by decide)) (h .mq (by decide)))
  case fenced => exact fun i hi => by simpa only [fltStatus, hflt (by decide)] using hi
  case pend => exact fun i hi => by simpa only [fltStatus, hflt (by decide), le_refl, and_true] using hi
  case checked => exact fun p => .inl (by simp only [pstateOf, hpln (by decide)])
  case links =>
    have harm : t.armLink = s.armLink := h .armLink (by decide)
    have hch : t.chLink = s.chLink := h .chLink (by decide)
    exact fun p => by cases p <;> simp only [linkOf, harm, hch] <;> exact .refl _
  case own => exact fun k => by simp only [coreOf, hcpu (by decide)]
  case dues => exact (congrArg (fun f : Flt => s.flt.due <+: f.due) (hflt (by decide))).mpr (List.prefix_refl _)
  case halted => exact fun h => (congrArg Flt.checkstop (hflt (by decide))).trans h
  case idle =>
    have harm : t.armLink = s.armLink := h .armLink (by decide)
    have hch : t.chLink = s.chLink := h .chLink (by decide)
    exact fun p => by cases p <;> simp only [linkOf, harm, hch] <;> exact id
  case status | due | react | checkstop | live => simp only [sameReg, hflt (by decide)]
  case plan | pstate => simp only [sameReg, planOf, hpln (by decide)]
  case core => simp only [sameReg, hcpu (by decide)]
  case count => exact congrArg TorS.tor (h .tor (by decide))
  case mem => exact congrArg Storage.mem (h .sto (by decide))
  case fstate => exact congrArg Fabric.fstate (h .arm (by decide))
  case node => exact congrArg Fabric.node (h .arm (by decide))
  case depart => exact congrArg departOf (h .arm (by decide))
  case routing => exact congrArg routingOf (h .arm (by decide))
  case journal => exact congrArg Jnl.e (h .jnl (by decide))
  case kept => exact congrArg Jnl.keptValid (h .jnl (by decide))
  case failed =>
    have hdram : t.dram = s.dram := h .dram (by decide)
    exact fun n hn => by simpa only [dramOf, hdram] using hn
  case sensed => exact congrArg (fun q : Power => (q.powerW, q.temp, q.lastTemp)) (h .pwr (by decide))
  case pending => exact h .pending (by decide)
  case out => exact h .out (by decide)
  case free => exact h .free (by decide)
  case flt => exact h .flt (by decide)
  case tor => exact h .tor (by decide)
  case pln => exact h .pln (by decide)
  case pwr => exact h .pwr (by decide)
  case cpu => exact h .cpu (by decide)
  case sto => exact h .sto (by decide)
  case dram => exact h .dram (by decide)
  case arm => exact h .arm (by decide)
  case ch => exact h .ch (by decide)
  case jnl => exact h .jnl (by decide)
  case dx => exact h .dx (by decide)
  case offers => exact h .offers (by decide)
  case armLink => exact h .armLink (by decide)
  case chLink => exact h .chLink (by decide)
  case pf0 => exact h .pf0 (by decide)
  case pf1 => exact h .pf1 (by decide)
  case hp => exact h .hp (by decide)
  case eng => exact h .eng (by decide)
  case tr => exact h .tr (by decide)
  case cs => exact h .cs (by decide)
  case mq => exact h .mq (by decide)
  case pin => exact h .pin (by decide)
  case svc => exact h .svc (by decide)
  case svcPoison => exact h .svcPoison (by decide)

/-- `t` differs from `s` in the registers of the list only. -/
def Touches (rs : List FrameReg) (s t : State) : Prop := ∀ r, r ∉ rs → sameReg s t r

/-! ### Frames compose -/

section
variable {rs qs : List FrameReg} {b s t : State}

/-- A state that is another but for one field. -/
theorem touches_of_block (b : Block) (h : ∀ q, q ≠ b → sameBlock s t q) (hb : b.regs ⊆ rs := by decide) : Touches rs s t :=
  fun _ hr => sameReg_of_blocks fun q hq => h q fun e => hr (hb (e ▸ hq))

theorem Touches.refl (rs : List FrameReg) (s : State) : Touches rs s s := fun _ _ => sameReg_of_blocks fun q _ => by cases q <;> rfl

theorem sameReg_trans {r : FrameReg} (h : sameReg b s r) (k : sameReg s t r) : sameReg b t r := by
  cases r
  case said => exact List.IsPrefix.trans h k
  case keeps => exact Keeps.trans h k
  case fenced => exact fun i => k i ∘ h i
  case pend => exact fun i hp => ⟨(k i (h i hp).1).1, (h i hp).2.trans (k i (h i hp).1).2⟩
  case checked => exact fun p => (k p).elim (fun e => e ▸ h p) .inr
  case links => exact fun p => (h p).trans (k p)
  case own => exact fun l => (k l).trans (h l)
  case still => exact Still.trans h k
  case dues => exact List.IsPrefix.trans h k
  case halted => exact k ∘ h
  case idle => exact fun p => k p ∘ h p
  case failed => exact fun n => k n ∘ h n
  all_goals exact Eq.trans k h

theorem Touches.trans (h : Touches rs b s) (k : Touches rs s t) : Touches rs b t := fun r hr => sameReg_trans (h r hr) (k r hr)

theorem Touches.mono (h : Touches qs s t) (hsub : qs ⊆ rs) : Touches rs s t := fun r hr => h r fun hq => hr (hsub hq)

/-- A register that was listed, and reads the same all the same. -/
theorem Touches.holding {q : FrameReg} (h : Touches (q :: rs) s t) (k : sameReg s t q) : Touches rs s t := fun r hr => by
  by_cases e : r = q
  · exact e ▸ k
  · exact h r (by simp [e, hr])

/-- An operation that writes registers of the list follows. -/
theorem Touches.andThen (h : Touches rs b s) (k : Touches qs s t) (hsub : qs ⊆ rs := by decide) : Touches rs b t := h.trans (k.mono hsub)

theorem touches_ite {c : Prop} [Decidable c] (h : c → Touches rs b s) (k : ¬ c → Touches rs b t) : Touches rs b (if c then s else t) := by
  split
  · exact h ‹_›
  · exact k ‹_›

theorem touches_foldl {α : Type} {f : State → α → State} (hf : ∀ u x, Touches rs u (f u x)) (xs : List α) : ∀ s, Touches rs s (xs.foldl f s) := by
  induction xs with
  | nil => exact Touches.refl rs
  | cons x xs ih => exact fun s => (hf s x).trans (ih _)

end

/-! ### Blocks of the state -/

section
variable (s : State)

theorem frame_queue (x : List Instr) : Touches [.pending] s { s with pending := x } :=
  touches_of_block .pending (by rintro (_ | _) h <;> first | rfl | exact absurd rfl h)

theorem frame_free (x : Nat) : Touches [.free] s { s with free := x } :=
  touches_of_block .free (by rintro (_ | _) h <;> first | rfl | exact absurd rfl h)

theorem frame_flt (x : Flt) : Touches [.flt, .status, .due, .react, .checkstop, .live, .keeps, .still, .fenced, .pend, .dues, .halted] s { s with flt := x } :=
  touches_of_block .flt (by rintro (_ | _) h <;> first | rfl | exact absurd rfl h)

theorem frame_tor (x : TorS) : Touches [.tor, .count] s { s with tor := x } :=
  touches_of_block .tor (by rintro (_ | _) h <;> first | rfl | exact absurd rfl h)

theorem frame_pln (x : Plinth) : Touches [.pln, .plan, .pstate, .checked] s { s with pln := x } :=
  touches_of_block .pln (by rintro (_ | _) h <;> first | rfl | exact absurd rfl h)

theorem frame_pwr (x : Power) : Touches [.pwr, .sensed] s { s with pwr := x } :=
  touches_of_block .pwr (by rintro (_ | _) h <;> first | rfl | exact absurd rfl h)

theorem frame_cpu (x : CoresS) : Touches [.cpu, .core, .keeps, .own, .still] s { s with cpu := x } :=
  touches_of_block .cpu (by rintro (_ | _) h <;> first | rfl | exact absurd rfl h)

theorem frame_sto (x : Storage) : Touches [.sto, .mem] s { s with sto := x } :=
  touches_of_block .sto (by rintro (_ | _) h <;> first | rfl | exact absurd rfl h)

theorem frame_dram (x : Tab Dram) : Touches [.dram, .failed] s { s with dram := x } :=
  touches_of_block .dram (by rintro (_ | _) h <;> first | rfl | exact absurd rfl h)

theorem frame_arm (x : Fabric) : Touches [.arm, .fstate, .node, .depart, .routing] s { s with arm := x } :=
  touches_of_block .arm (by rintro (_ | _) h <;> first | rfl | exact absurd rfl h)

theorem frame_ch (x : Chan) : Touches [.ch] s { s with ch := x } :=
  touches_of_block .ch (by rintro (_ | _) h <;> first | rfl | exact absurd rfl h)

theorem frame_jnl (x : Jnl) : Touches [.jnl, .journal, .kept] s { s with jnl := x } :=
  touches_of_block .jnl (by rintro (_ | _) h <;> first | rfl | exact absurd rfl h)

theorem frame_dx (x : Duplex) : Touches [.dx] s { s with dx := x } :=
  touches_of_block .dx (by rintro (_ | _) h <;> first | rfl | exact absurd rfl h)

theorem frame_offers (x : List Offer) : Touches [.offers] s { s with offers := x } :=
  touches_of_block .offers (by rintro (_ | _) h <;> first | rfl | exact absurd rfl h)

theorem frame_pf0 (x : HostFn) : Touches [.pf0] s { s with pf0 := x } :=
  touches_of_block .pf0 (by rintro (_ | _) h <;> first | rfl | exact absurd rfl h)

theorem frame_pf1 (x : HostFn) : Touches [.pf1] s { s with pf1 := x } :=
  touches_of_block .pf1 (by rintro (_ | _) h <;> first | rfl | exact absurd rfl h)

theorem frame_hp (x : HostPort) : Touches [.hp] s { s with hp := x } :=
  touches_of_block .hp (by rintro (_ | _) h <;> first | rfl | exact absurd rfl h)

theorem frame_eng (x : Engines) : Touches [.eng] s { s with eng := x } :=
  touches_of_block .eng (by rintro (_ | _) h <;> first | rfl | exact absurd rfl h)

theorem frame_tr (x : Trust) : Touches [.tr] s { s with tr := x } :=
  touches_of_block .tr (by rintro (_ | _) h <;> first | rfl | exact absurd rfl h)

theorem frame_cs (x : CtlStore) : Touches [.cs] s { s with cs := x } :=
  touches_of_block .cs (by rintro (_ | _) h <;> first | rfl | exact absurd rfl h)

theorem frame_mq (x : Maquette) : Touches [.mq, .keeps, .still] s { s with mq := x } :=
  touches_of_block .mq (by rintro (_ | _) h <;> first | rfl | exact absurd rfl h)

theorem frame_pin (x : Pins) : Touches [.pin] s { s with pin := x } :=
  touches_of_block .pin (by rintro (_ | _) h <;> first | rfl | exact absurd rfl h)

theorem frame_svc (x : Tab Byte) : Touches [.svc] s { s with svc := x } :=
  touches_of_block .svc (by rintro (_ | _) h <;> first | rfl | exact absurd rfl h)

theorem frame_svcPoison (x : Tab Bool) : Touches [.svcPoison] s { s with svcPoison := x } :=
  touches_of_block .svcPoison (by rintro (_ | _) h <;> first | rfl | exact absurd rfl h)

/-- Output alone is added to. -/
theorem frame_emits (os : List Out) : Touches [.out] s (emits os s) :=
  (touches_of_block (rs := [.said, .out]) .out (by rintro (_ | _) h <;> first | rfl | exact absurd rfl h)).holding
    (List.prefix_append _ _)

theorem frame_emit (o : Out) : Touches [.out] s (emit o s) := frame_emits s [o]

/-- Fields of the fabric's block that are not the state of the fabric or the node. -/
theorem frame_fabric (x : Fabric) (hf : x.fstate = s.arm.fstate) (hn : x.node = s.arm.node) (hd : departOf x = departOf s.arm := by exact rfl)
    (hr : routingOf x = routingOf s.arm := by exact rfl) : Touches [.arm] s { s with arm := x } :=
  ((frame_arm s x).mono (by decide) : Touches [.fstate, .node, .depart, .routing, .arm] s _).holding hf |>.holding hn |>.holding hd |>.holding hr

/-- Fields of the fabric's block among which may be peers and route tables. -/
theorem frame_routing (x : Fabric) (hf : x.fstate = s.arm.fstate) (hn : x.node = s.arm.node) (hd : departOf x = departOf s.arm := by exact rfl) :
    Touches [.arm, .routing] s { s with arm := x } :=
  ((frame_arm s x).mono (by decide) : Touches [.fstate, .node, .depart, .arm, .routing] s _).holding hf |>.holding hn |>.holding hd

/-- Fields of the timer's block that are not the count. -/
theorem frame_timer (x : TorS) (ht : x.tor = s.tor.tor) : Touches [.tor] s { s with tor := x } :=
  ((frame_tor s x).mono (by decide) : Touches [.count, .tor] s _).holding ht

/-- Fields of the image's block that are not the states of partitions. -/
theorem frame_plan (x : Plinth) (hp : x.pstate = s.pln.pstate) : Touches [.pln, .plan] s { s with pln := x } :=
  ((frame_pln s x).mono (by decide) : Touches [.checked, .pstate, .pln, .plan] s _).holding (fun p => .inl (by simp only [pstateOf, hp])) |>.holding hp

/-- Fields of the image's block that the states of partitions may go with. -/
theorem frame_pstates (ps : Tab PState) (pr : Tab Nat) (z : List (Nat × Nat)) (st : List Nat) :
    Touches [.pln, .pstate, .checked] s { s with pln := { s.pln with pstate := ps, presult := pr, zero := z, starting := st } } :=
  ((frame_pln s _).mono (by decide) : Touches [.plan, .pln, .pstate, .checked] s _).holding rfl

/-- Fields of the journal's block, but for its validity. -/
theorem frame_jnlFields (x : Jnl) (hk : x.keptValid = s.jnl.keptValid) : Touches [.jnl, .journal] s { s with jnl := x } :=
  ((frame_jnl s x).mono (by decide) : Touches [.kept, .jnl, .journal] s _).holding hk

/-- Fields of the journal's block that are neither its entries nor its validity. -/
theorem frame_jnlOut (x : Jnl) (he : x.e = s.jnl.e) (hk : x.keptValid = s.jnl.keptValid) : Touches [.jnl] s { s with jnl := x } :=
  ((frame_jnlFields s x hk).mono (by decide) : Touches [.journal, .jnl] s _).holding he

/-- Fields of the cores' block that storage traffic may write too. -/
theorem frame_cores (x : CoresS) (hk : Keeps s { s with cpu := x }) (ho : ∀ k, ownOf (coreOf k { s with cpu := x }) = ownOf (coreOf k s)) :
    Touches [.cpu, .core] s { s with cpu := x } :=
  ((frame_cpu s x).mono (by decide) : Touches [.keeps, .own, .still, .cpu, .core] s _).holding hk |>.holding ho |>.holding (still_of_keeps hk)

/-- Fields of fault collection whose steps due only grow, and that keep the reaction entries and the module checkstop. -/
theorem frame_fltFields (x : Flt) (hd : s.flt.due <+: x.due) (hr : x.react = s.flt.react) (hc : x.checkstop = s.flt.checkstop) :
    Touches [.flt, .status, .due, .live, .keeps, .still, .fenced, .pend] s { s with flt := x } :=
  (((((frame_flt s x).mono (by decide) : Touches [.react, .checkstop, .dues, .halted, .flt, .status, .due, .live, .keeps, .still, .fenced, .pend] s _).holding
    hr).holding hc).holding hd).holding fun h => hc.trans h

/-- Fields of fault collection other than the sources' status, the steps due, the reaction entries, the module checkstop and the counters. -/
theorem frame_faultLog (x : Flt) (hs : x.status = s.flt.status) (hd : x.due = s.flt.due) (hr : x.react = s.flt.react) (hc : x.checkstop = s.flt.checkstop) :
    Touches [.flt, .live] s { s with flt := x } := by
  have hst : ∀ i, fltStatus i { s with flt := x } = fltStatus i s := fun i => by simp only [fltStatus, hs]
  have hk : Keeps s { s with flt := x } := keeps_of_eq (by simp only [recastRegs, hr]) rfl rfl rfl hs hd
  exact ((((((frame_fltFields s x (hd ▸ List.prefix_refl _) hr hc).mono (by decide) :
    Touches [.status, .due, .keeps, .still, .fenced, .pend, .flt, .live] s _).holding hs).holding hd).holding hk).holding (still_of_keeps hk)).holding
      (fun i h => (hst i).symm ▸ h) |>.holding (fun i h => (hst i).symm ▸ ⟨h, Nat.le_refl _⟩)

/-! ### The shared operations -/

/-- A change of a core. -/
theorem frame_modCore (l : Nat) (f : Core → Core) : Touches [.cpu, .core, .keeps, .own] s (modCore l f s) :=
  ((frame_cpu s _).mono (by decide) : Touches [.still, .cpu, .core, .keeps, .own] s _).holding ⟨rfl, rfl, rfl, fun _ => id, fun _ => rfl⟩

/-- A change of a core that storage traffic makes. -/
theorem frame_modCore_keeps (l : Nat) {f : Core → Core} (ho : ∀ c, ownOf (f c) = ownOf c) (hr : ∀ c, c.resv = none → (f c).resv = none) :
    Touches [.cpu, .core] s (modCore l f s) :=
  frame_cores s _ (keeps_modCore (fun c => coreKeeps_of_own (ho c) (hr c)) (.refl s)) fun k => by
    have hk := coreOf_modCore l k f s
    split at hk
    next e => exact (congrArg ownOf hk).trans (e ▸ ho _)
    next => exact congrArg ownOf hk

theorem frame_onCores (p : Nat → Bool) (f : Core → Core) : Touches [.cpu, .core, .keeps, .own] s (onCores p f s) :=
  touches_foldl (fun u l => touches_ite (fun _ => frame_modCore u l f) fun _ => .refl _ u) _ s

theorem frame_onCores_keeps (p : Nat → Bool) {f : Core → Core} (ho : ∀ c, ownOf (f c) = ownOf c) (hr : ∀ c, c.resv = none → (f c).resv = none) :
    Touches [.cpu, .core] s (onCores p f s) :=
  touches_foldl (fun u l => touches_ite (fun _ => frame_modCore_keeps u l ho hr) fun _ => .refl _ u) _ s

theorem frame_setCp (k v : Nat) : Touches [.ch] s (setCp k v s) := frame_ch s _

theorem frame_pf0Vector (v : Nat) : Touches [.out, .pf0] s (pf0Vector v s) := by
  have hfn := frame_pf0 s (s.pf0.signal v).1
  unfold pf0Vector
  dsimp only
  split
  · exact (hfn.mono (by decide)).andThen (frame_emit _ _)
  · exact hfn.mono (by decide)

theorem frame_pf1Vector (v : Nat) : Touches [.out, .pf1] s (pf1Vector v s) := by
  have hfn := frame_pf1 s (s.pf1.signal v).1
  unfold pf1Vector
  dsimp only
  split
  · exact (hfn.mono (by decide)).andThen (frame_emit _ _)
  · exact hfn.mono (by decide)

theorem frame_logEntry (kind cls source part step detail : Nat) : Touches [.flt] s (logEntry kind cls source part step detail s) :=
  ((frame_faultLog s (logEntry kind cls source part step detail s).flt rfl rfl rfl rfl).mono (by decide) : Touches [.live, .flt] s _).holding rfl

theorem frame_patina (i : Nat) : Touches [.flt, .live] s (patina i s) := frame_faultLog s _ rfl rfl rfl rfl

theorem frame_pulseErrN : Touches [.flt] s (pulseErrN s) :=
  ((frame_faultLog s (pulseErrN s).flt rfl rfl rfl rfl).mono (by decide) : Touches [.live, .flt] s _).holding rfl

/-- The status of a source that stays fenced and pending where it was. -/
theorem frame_setFlt (i : Nat) (v : FltStatus) (hf : (fltStatus i s).fenced = true → v.fenced = true) 
    (hp : (fltStatus i s).pending = true → v.pending = true ∧ (fltStatus i s).step ≤ v.step) :
    Touches [.flt, .status] s (setFlt i v s) := by
  have hk : Keeps s (setFlt i v s) := keeps_setFlt (fun h => (hp h).1) (.refl s)
  have hpend : ∀ j, (fltStatus j s).pending = true → (fltStatus j (setFlt i v s)).pending = true ∧ (fltStatus j s).step ≤ (fltStatus j (setFlt i v s)).step :=
    fun j h => by
      rw [fltStatus_setFlt]
      split
      next e => exact e ▸ hp (e ▸ h)
      next => exact ⟨h, Nat.le_refl _⟩
  have hfenced : ∀ j, (fltStatus j s).fenced = true → (fltStatus j (setFlt i v s)).fenced = true := fun j h => by
    rw [fltStatus_setFlt]
    split
    next e => exact hf (e ▸ h)
    next => exact h
  exact (((((frame_fltFields s (setFlt i v s).flt (List.prefix_refl _) rfl rfl).mono (by decide) :
    Touches [.due, .live, .keeps, .still, .fenced, .pend, .flt, .status] s (setFlt i v s)).holding rfl).holding rfl).holding hk).holding
      (still_of_keeps hk) |>.holding hfenced |>.holding hpend

theorem frame_makeDue (src part : Nat) (ks : List Nat) : Touches [.flt, .due, .keeps, .still] s (makeDue src part ks s) :=
  ((((frame_fltFields s (makeDue src part ks s).flt (List.prefix_append _ _) rfl rfl).mono (by decide) :
    Touches [.status, .live, .fenced, .pend, .flt, .due, .keeps, .still] s (makeDue src part ks s)).holding rfl).holding rfl).holding (fun _ => id) |>.holding
      fun _ h => ⟨h, Nat.le_refl _⟩

/-! ### Sending over the links -/

/-- What sending writes. -/
def sendRegs : List FrameReg := [.out, .armLink, .chLink]

theorem frame_setLink (p : PortId) (l : Link) : Touches [.armLink, .chLink, .links, .idle] s (setLink p l s) := by
  cases p with
  | arm _ => exact touches_of_block .armLink (by rintro (_ | _) h <;> first | rfl | exact absurd rfl h)
  | ch _ => exact touches_of_block .chLink (by rintro (_ | _) h <;> first | rfl | exact absurd rfl h)

/-- A link is written that has sent flits at most. -/
theorem frame_setSent (p : PortId) {l : Link} (hl : SameLink (linkOf p s) l) : Touches [.armLink, .chLink] s (setLink p l s) := by
  have hlinks : ∀ q, SameLink (linkOf q s) (linkOf q (setLink p l s)) := fun q => by
    rw [linkOf_setLink]
    split
    next e => exact e ▸ hl
    next => exact .refl _
  exact (((frame_setLink s p l).mono (by decide) : Touches [.links, .idle, .armLink, .chLink] s _).holding hlinks).holding fun q h =>
    (congrArg Link.state (hlinks q).1 :) ▸ h

theorem frame_modLink (p : PortId) (f : Link → Link) : Touches [.armLink, .chLink, .links, .idle] s (modLink p f s) := frame_setLink s p _

theorem frame_sendAlign (p : PortId) : Touches sendRegs s (sendAlign p s) := by
  unfold sendAlign
  dsimp only
  split
  · exact .refl _ s
  · exact ((frame_setSent s p (by exact sameLink_of rfl rfl)).mono (by decide)).andThen (frame_emit _ _)

theorem frame_putFlit (p : PortId) (f : List Byte) : Touches sendRegs s (putFlit p f s) := (frame_sendAlign s p).andThen (frame_emit _ _)

theorem frame_sendIdle (p : PortId) (nak : Bool) : Touches sendRegs s (sendIdle p nak s) :=
  ((frame_setSent s p (by exact sameLink_of rfl rfl)).mono (by decide)).trans (frame_putFlit _ p _)

theorem frame_sendData (p : PortId) (h : (linkOf p s).state = 5 ∨ (linkOf p s).state = 6) (vc : Nat) (b : List Byte) (x y z : Bool) (via : Option Nat) :
    Touches sendRegs s (sendData p vc b x y z via s) :=
  ((frame_setSent s p (by exact ⟨rfl, List.prefix_append _ _, h.imp_right .inl⟩)).mono (by decide)).trans (frame_putFlit _ p _)

theorem txPick_open {p : PortId} {l : Link} {i : Nat} (h : txPick p l = some i) : ∃ m, l.txq[i]? = some m ∧ vcOpen p m.vc l = true := by
  unfold txPick at h
  obtain ⟨vc, -, hvc⟩ := List.exists_of_findSome?_eq_some h
  split at hvc
  · exact absurd hvc (by simp)
  next j hj =>
    split at hvc
    next hr =>
      obtain rfl := Option.some.inj hvc
      cases hm : l.txq[j]? with
      | none => simp [hm] at hr
      | some m =>
        simp only [hm, Option.map_some, Option.getD_some, txReady, Bool.and_eq_true] at hr
        exact ⟨m, rfl, hr.1.1⟩
    · exact absurd hvc (by simp)

theorem vcOpen_state {p : PortId} {l : Link} {vc : Nat} (h : vcOpen p vc l = true) : l.state = 5 ∨ l.state = 6 := by
  simp only [vcOpen, Bool.or_eq_true, Bool.and_eq_true, beq_iff_eq] at h
  exact h.elim .inr fun h => .inl h.1

theorem frame_txOne (p : PortId) : Touches sendRegs s (txOne p s) := by
  unfold txOne
  extract_lets l
  split
  · exact .refl _ s
  next i hp =>
    obtain ⟨m, -, hopen⟩ := txPick_open hp
    have hstate : l.state = 5 ∨ l.state = 6 := vcOpen_state hopen
    split
    · exact .refl _ s
    · extract_lets enc n eom rest x
      have hlink : (linkOf p (setLink p x s)).state = 5 ∨ (linkOf p (setLink p x s)).state = 6 := by
        rw [linkOf_setLink, if_pos rfl]
        exact hstate
      exact ((frame_setSent s p (by exact sameLink_of rfl rfl)).mono (by decide)).trans (frame_sendData _ p hlink _ _ _ _ _ _)

theorem frame_txDrain (p : PortId) (n : Nat) : ∀ s, Touches sendRegs s (txDrain p n s) := by
  induction n with
  | zero => exact Touches.refl _
  | succ n ih => exact fun s => touches_ite (fun _ => .refl _ s) fun _ => (frame_txOne s p).trans (ih _)

theorem frame_linkSendVia (p : PortId) (vc : Nat) (b : List Byte) (via : Option Nat) : Touches sendRegs s (linkSendVia p vc b via s) :=
  ((frame_setSent s p (by exact sameLink_of rfl rfl)).mono (by decide)).trans (frame_txDrain p _ _)

theorem frame_mgtSend (p : PortId) (what : Nat) (b : List Byte) : Touches sendRegs s (mgtSend p what b s) := frame_linkSendVia s p _ _ none

theorem frame_floodAdv (q : Nat → Bool) (a : Adv) : Touches sendRegs s (floodAdv q a s) :=
  touches_foldl (fun u p => ((frame_emit u (.adv p a)).mono (by decide)).trans (frame_mgtSend _ (.arm p) 6 _)) _ s

/-! ### Events -/

/-- The registers that an event writes where the class of its code is below UE-module; a first event of a source whose chain has a step makes it due. -/
def eventRegs : List FrameReg := [.out, .pf0, .cpu, .core, .flt, .status, .live, .due]

theorem frame_mcGive (p : Nat) (m : McPend) : Touches [.cpu, .core] s (mcGive p m s) := by
  unfold mcGive
  split
  · exact frame_modCore_keeps s _ (fun _ => rfl) fun _ => id
  · exact frame_cores s _ (keeps_heldMc (.refl s)) fun _ => rfl

theorem frame_mcOnPart (p c a so : Nat) : Touches [.cpu, .core] s (mcOnPart p c a so s) :=
  touches_ite (fun _ => .refl _ s) fun _ => frame_mcGive s p _

theorem frame_reactNotify (src code : Nat) (part : Option Nat) (detail : Nat) :
    Touches [.out, .pf0, .cpu, .core] s (reactNotify src code part detail s) := by
  have hsc : Touches [.out, .pf0, .cpu, .core] s (if lbit (reactOf src s) 62 then pf0Vector 0 (emit (.scNotice src) s) else s) :=
    touches_ite (fun _ => ((frame_emit s _).mono (by decide)).andThen (frame_pf0Vector _ 0)) fun _ => .refl _ s
  unfold reactNotify
  refine touches_ite (fun _ => ?_) fun _ => hsc
  cases part with
  | none => exact hsc
  | some p => exact hsc.andThen (frame_mcOnPart _ p _ _ _)

theorem frame_startGrace (i : Nat) : Touches [.flt, .status, .due] s (startGrace i s) := by
  have hall : Touches [.keeps, .still, .flt, .status, .due] s (startGrace i s) :=
    touches_ite (fun _ => .refl _ s) fun _ => touches_ite (fun _ => (frame_makeDue s i _ _).mono (by decide)) fun _ =>
      (frame_setFlt s i _ (by exact id) (by exact fun h => ⟨h, Nat.le_refl _⟩)).mono (by decide)
  exact (hall.holding (keeps_startGrace (.refl s))).holding (still_of_keeps (keeps_startGrace (.refl s)))

theorem frame_firstEvent (hn : (fltStatus src s).pending = false) (cls code : Nat) (part : Option Nat) (detail : Nat) (holds : Bool) :
    Touches eventRegs s (firstEvent cls src code part detail holds s) :=
  (((frame_setFlt s src _ (by exact id) (by exact fun h => absurd (hn.symm.trans h) (by decide))).mono (by decide)).andThen
    (frame_reactNotify _ src code part detail)).andThen (frame_startGrace _ src)

theorem frame_laterEvent (cls src code : Nat) (part : Option Nat) (holds : Bool) : Touches eventRegs s (laterEvent cls src code part holds s) := by
  have hput : ∀ v : FltStatus, v.fenced = (fltStatus src s).fenced → v.pending = (fltStatus src s).pending → v.step = (fltStatus src s).step →
      Touches eventRegs s (setFlt src v s) :=
    fun v hf hp hs => (frame_setFlt s src v (fun h => hf.trans h) fun h => ⟨hp.trans h, hs.ge⟩).mono (by decide)
  unfold laterEvent
  dsimp only
  exact touches_ite (fun _ => (hput _ (by split <;> rfl) (by split <;> rfl) (by split <;> rfl)).andThen (frame_startGrace _ src)) fun _ =>
    hput _ (by split <;> rfl) (by split <;> rfl) (by split <;> rfl)

theorem frame_raiseClass (cls src code : Nat) (part : Option Nat) (detail : Nat) (holds : Bool) :
    Touches (.keeps :: .still :: eventRegs) s (raiseClass cls src code part detail holds s) := by
  have hpulse : ∀ (c : Prop) [Decidable c] (u : State), Touches (.keeps :: .still :: eventRegs) u (if c then pulseErrN u else u) :=
    fun c _ u => touches_ite (fun _ => (frame_pulseErrN u).mono (by decide)) fun _ => .refl _ u
  have hdue : ∀ (c : Prop) [Decidable c] (u : State), Touches (.keeps :: .still :: eventRegs) u (if c then makeDue (sourceNo code src) (part.getD 0x3F) [3] u else u) :=
    fun c _ u => touches_ite (fun _ => (frame_makeDue u _ _ _).mono (by decide)) fun _ => .refl _ u
  unfold raiseClass
  extract_lets st r pt counted logged told
  have hcounted : Touches [.flt, .live] s logged := (frame_patina s src).trans
    (touches_ite (fun _ => (frame_logEntry counted _ _ _ _ _ _).mono (by decide)) fun _ => .refl _ counted)
  have hevent : Touches (.keeps :: .still :: eventRegs) logged told := by
    unfold told
    split
    · exact (frame_laterEvent logged _ _ _ _ _).mono (by decide)
    next hp =>
      have hst : fltStatus src logged = st := by
        have hstatus : logged.flt.status = s.flt.status := hcounted .status (by decide)
        simp only [fltStatus, hstatus, st]
      exact (frame_firstEvent logged (by rw [hst]; simpa using hp) _ _ _ _ _).mono (by decide)
  exact (((hcounted.mono (by decide)).trans hevent).trans (hpulse _ _)).trans (hdue _ _)

/-- An event of a class below UE-module takes no core out of service. -/
theorem frame_raiseBelow {cls : Nat} (hc : cls ≠ 3) (src code : Nat) (part : Option Nat) (detail : Nat) (holds : Bool) :
    Touches eventRegs s (raiseClass cls src code part detail holds s) :=
  ((frame_raiseClass s cls src code part detail holds).holding (keeps_raiseClass hc (.refl s))).holding (still_of_keeps (keeps_raiseClass hc (.refl s)))

theorem frame_raise {code : Nat} (hc : code ≠ 0x10) (src : Nat) (part : Option Nat) (detail : Nat) : Touches eventRegs s (raise src code part detail s) :=
  frame_raiseBelow s (eventClass_ne_module hc) _ _ _ _ _

theorem frame_raisePart {code : Nat} (hc : code ≠ 0x10) (part : Option Nat) (detail : Nat) : Touches eventRegs s (raisePart code part detail s) :=
  frame_raise s hc _ _ _

/-! ### The end of a command -/

theorem frame_floodOwn : Touches [.out, .arm, .armLink, .chLink] s (floodOwn s) := by
  have hdb : ∀ n x, Touches [.arm] s { s with arm := { s.arm with seq := n, db := x } } := fun n x => frame_fabric s _ rfl rfl
  unfold floodOwn
  split
  · exact .refl _ s
  · exact ((hdb _ _).mono (by decide)).andThen (frame_floodAdv _ _ _)

theorem frame_announceChange : Touches [.out, .arm, .armLink, .chLink] s (announceChange s) := by
  have hchange : Touches [.arm] s (dbChanged s) := frame_fabric s _ rfl rfl
  exact touches_ite (fun _ => (hchange.mono (by decide)).trans (frame_floodOwn _)) fun _ => .refl _ s

theorem frame_torFlood (b : State) : Touches [.out, .arm, .armLink, .chLink] s (torFlood b s) :=
  touches_ite (fun _ => frame_announceChange s) fun _ => .refl _ s

theorem frame_signalStates (b : State) : Touches [.out, .pf0] s (signalStates b s) := by
  have hwhen : ∀ (c : Prop) [Decidable c] (v : Nat) (u : State), Touches [.out, .pf0] u (if c then pf0Vector v u else u) :=
    fun c _ v u => touches_ite (fun _ => frame_pf0Vector u v) fun _ => .refl _ u
  exact ((hwhen _ _ _).trans (hwhen _ _ _)).trans (hwhen _ _ _)

/-- Where no step is due, the end of a command writes what is told outside, and what the fabric's database says of this module. -/
theorem frame_settle {b s : State} (hd : s.flt.due = []) (hp : s.pending = b.pending) :
    Touches [.out, .pf0, .arm, .armLink, .chLink] s (settle b s) := by
  have htold : Touches [.out, .pf0, .arm, .armLink, .chLink] s (signalStates b (torFlood b s)) :=
    ((frame_torFlood s b).mono (by decide)).andThen (frame_signalStates _ b)
  have hqueue : (signalStates b (torFlood b s)).pending = b.pending := (htold .pending (by decide)).trans hp
  unfold settle
  rw [settleDue_quiet _ hd, ← hqueue]
  exact htold

/-- A command whose operation makes no step due: its next state is the operation's but for what `settle` tells. -/
theorem done_told {b s : State} (hd : s.flt.due = []) (hp : s.pending = b.pending) :
    ∃ t, done b s = .next t ∧ Touches [.out, .pf0, .arm, .armLink, .chLink] s t := ⟨_, rfl, frame_settle hd hp⟩

theorem sameReport_of_frame {rs : List FrameReg} {s t : State} (h : Touches rs s t) (ht : .tor ∉ rs) (hx : .dx ∉ rs) (hf : .fstate ∉ rs) :
    Safety.sameReport s t := by
  have htor : t.tor = s.tor := h _ ht
  have hdx : t.dx = s.dx := h _ hx
  have hfab : t.arm.fstate = s.arm.fstate := h _ hf
  simp [Safety.sameReport, htor, hdx, hfab]

/-- A command whose operation writes none of what is told outside and makes no step due answers the state that the operation leaves. -/
theorem done_framed {rs : List FrameReg} {b s : State} (h : Touches rs b s) (hd : b.flt.due = [])
    (hr : ∀ r ∈ [FrameReg.pending, .due, .tor, .dx, .fstate], r ∉ rs := by decide) : done b s = .next s :=
  have hdue : s.flt.due = b.flt.due := h .due (hr _ (by decide))
  done_quiet (hdue.trans hd) (h .pending (hr _ (by decide)))
    (sameReport_of_frame h (hr _ (by decide)) (hr _ (by decide)) (hr _ (by decide)))

end

end Sys2Proof.Machine
end

section
set_option Elab.async false
/-! PROOFS. Events at the fault collector: one event of a source with an empty chain, and what a module checkstop leaves (21 R478 to R489). -/

namespace Sys2Proof.Machine

/-! ### An event of a source whose reaction entry names no step -/

/-- From `s` to `t` one event of class `cls` of source `src` has been counted and recorded, and a module checkstop is due for class UE-module. -/
structure Raised (cls src code : Nat) (part : Option Nat) (s t : State) : Prop where
  frame : Touches (.keeps :: .still :: eventRegs) s t
  pending : (fltStatus src t).pending = true
  other : ∀ j, j ≠ src → fltStatus j t = fltStatus j s
  live : ∀ j, tget 0 j t.flt.live = if j = src then sat16 (tget 0 src s.flt.live) else tget 0 j s.flt.live
  due : t.flt.due = s.flt.due ++ if cls = 3 then [DueStep.mk (sourceNo code src) 3 (part.getD 0x3F)] else []

theorem laterStatus_pending (cls code : Nat) (part : Option Nat) (holds : Bool) (st : FltStatus) :
    (laterStatus cls code part holds st).pending = st.pending := by
  unfold laterStatus
  split <;> rfl

theorem raiseClass_raised {cls src : Nat} (code : Nat) (part : Option Nat) (detail : Nat) (holds : Bool) {s : State} (hc : cls ≠ 2)
    (hr : fld (reactOf src s) 57 56 = 0) : Raised cls src code part s (raiseClass cls src code part detail holds s) := by
  by_cases hp : (fltStatus src s).pending = true
  · have hframe := frame_raiseClass s cls src code part detail holds
    obtain ⟨lg, nx, ls, pe, h⟩ := raiseClass_later cls src code part detail holds s hc hp hr
    rw [h] at hframe ⊢
    refine ⟨hframe, ?_, fun j hj => ?_, fun j => patina_live src j s, rfl⟩
    · exact (congrArg FltStatus.pending (tget_tset_same ..)).trans ((laterStatus_pending ..).trans hp)
    · exact tget_tset_ne _ _ _ hj
  · have hframe := frame_raiseClass s cls src code part detail holds
    obtain ⟨o, f, c, pe, h, -, -⟩ := raiseClass_first cls src code part detail holds s hc (by simpa using hp) hr
    rw [h] at hframe ⊢
    refine ⟨hframe, ?_, fun j hj => ?_, fun j => patina_live src j s, rfl⟩
    · exact congrArg FltStatus.pending (tget_tset_same {} src (firstStatus cls code part holds (fltStatus src s)) s.flt.status)
    · exact tget_tset_ne {} (firstStatus cls code part holds (fltStatus src s)) s.flt.status hj

/-! ### Data of an array that could not be corrected -/

theorem frame_setPoison (line : Nat) (v : Bool) (s : State) : Touches [.sto] s (setPoison line v s) :=
  ((frame_sto s (setPoison line v s).sto).mono (by decide) : Touches [.mem, .sto] s _).holding rfl

theorem frame_poisonLine (line : Nat) (s : State) : Touches [.sto, .arm] s (poisonLine line s) := by
  unfold poisonLine
  split
  · exact (frame_setPoison line true s).mono (by decide)
  · split
    · exact (frame_fabric s _ (by exact rfl) (by exact rfl)).mono (by decide)
    · exact .refl _ s

theorem frame_arrayPoison (src code detail : Nat) (s : State) : Touches [.sto, .arm, .cpu, .core, .keeps, .own, .still] s (arrayPoison src code detail s) := by
  unfold arrayPoison
  dsimp only
  split
  · exact .refl _ s
  · split
    · exact (frame_poisonLine _ s).mono (by decide)
    · exact (touches_foldl (fun u l => frame_modCore u l _) _ s).mono (by decide)

theorem arrayPoison_of_other {code : Nat} (h : code ≠ 3) (src detail : Nat) (s : State) : arrayPoison src code detail s = s := if_pos h

theorem exec_faultEvent {src code : Nat} {s : State} (ho : operating s = true) (hi : isSource src = true) (h1 : 1 ≤ code) (h2 : code ≤ 0x10)
    (part : Option Nat) (detail : Long) (holds : Bool) : exec (.faultEvent src code part detail holds) s =
      done s (raiseClass (eventClass code) src code (part.filter (fun p => decide (p < 48))) detail.toNat holds (arrayPoison src code detail.toNat s)) :=
  if_pos ⟨ho, hi, h1, h2⟩

theorem exec_reportingPathFault {die reporter code : Nat} {s : State} (ho : operating s = true) (hd : die < 6) (hi : isSource reporter = true)
    (h1 : 1 ≤ code) (h2 : code ≤ 0x10) (part : Option Nat) : exec (.reportingPathFault die reporter code part) s =
      done s (raise reporter code (part.filter (fun p => decide (p < 48))) 0 (raise (srcDie die) 0x0A none reporter s)) :=
  if_pos ⟨ho, hd, hi, h1, h2⟩

theorem not_checkstop_of_operating {s : State} (h : operating s = true) : s.flt.checkstop = false := by
  simp only [operating, Bool.and_eq_true, Bool.not_eq_true'] at h
  exact h.1.2

theorem powered_of_operating {s : State} (h : operating s = true) : s.pwr.on = true := by
  simp only [operating, Bool.and_eq_true] at h
  exact h.1.1

/-- What `done` does after events of classes below UE-module. -/
theorem done_events {b s : State} (h : Touches [.keeps, .own, .still, .out, .pf0, .cpu, .core, .flt, .status, .live, .due, .sto, .arm] b s) (hd : s.flt.due = []) :
    done b s = .next s :=
  done_quiet hd (h .pending (by decide)) (sameReport_of_frame h (by decide) (by decide) (by decide))

theorem logEntry_written (kind cls source part step detail : Nat) (s : State) : ∃ e : LogEntry,
    tget none (s.flt.nextSeq % 8192) (logEntry kind cls source part step detail s).flt.log = some e ∧ e.kind = kind ∧ e.source = source ∧
      e.tor = s.tor.tor ∧ e.detail = detail ∧ e.seq = s.flt.nextSeq := by
  refine ⟨_, tget_tset_same none _ (some _) s.flt.log, ?_⟩
  exact ⟨rfl, rfl, rfl, rfl, rfl⟩

/-- The state after the first event of a source with an empty chain, of a class below UE-partition (21 R483, R485). -/
theorem firstEvent_recorded {src code : Nat} (part : Option Nat) (detail : Nat) (holds : Bool) {s : State} (hc : eventClass code ≤ 1)
    (hp : (fltStatus src s).pending = false) (hr : fld (reactOf src s) 57 56 = 0) :
    let t := raiseClass (eventClass code) src code part detail holds s
    fltStatus src t = firstStatus (eventClass code) code part holds (fltStatus src s) ∧
    (∃ e : LogEntry, tget none (s.flt.nextSeq % 8192) t.flt.log = some e ∧ e.kind = 1 ∧ e.source = sourceNo code src ∧ e.tor = s.tor.tor ∧
      e.detail = detail ∧ e.seq = s.flt.nextSeq) ∧
    (lbit (reactOf src s) 60 = true → t.flt.pulseEnd = some (s.tor.tor + ticksMs)) := by
  obtain ⟨o, f, c, pe, h, hpulse, -⟩ := raiseClass_first (eventClass code) src code part detail holds s (by omega) hp hr
  dsimp only
  rw [h]
  exact ⟨tget_tset_same ({} : FltStatus) src (firstStatus (eventClass code) code part holds (fltStatus src s)) s.flt.status,
    logEntry_written 1 (eventClass code) (sourceNo code src) (part.getD 0x3F) 0 detail (patina src s), hpulse⟩

/-- Settles O8: the mark of lost data and the event write registers apart, and no step is due for `done` to take. -/
theorem faultEventAndReportingPath : Obligations.FaultEventAndReportingPath := by
  refine ⟨fun src code part detail holds s hs ho hi h1 h2 hc hp hr => ?_, fun die reporter code part s hs ho hd hi h1 h2 hc hne hr hrd => ?_⟩
  · have hpoison := frame_arrayPoison src code detail.toNat s
    have hflt : (arrayPoison src code detail.toNat s).flt = s.flt := hpoison .flt (by decide)
    have htor : (arrayPoison src code detail.toNat s).tor = s.tor := hpoison .tor (by decide)
    have hmem : (arrayPoison src code detail.toNat s).sto.mem = s.sto.mem := hpoison .mem (by decide)
    have hstatus : ∀ j, fltStatus j (arrayPoison src code detail.toNat s) = fltStatus j s := fun j => by rw [fltStatus, hflt]; rfl
    have hreact : reactOf src (arrayPoison src code detail.toNat s) = reactOf src s := by rw [reactOf, hflt]; rfl
    have hraised := raiseClass_raised code (part.filter (fun p => decide (p < 48))) detail.toNat holds (cls := eventClass code) (by omega) (hreact ▸ hr)
    obtain ⟨hfirst, hlog, hpulse⟩ := firstEvent_recorded (part.filter (fun p => decide (p < 48))) detail.toNat holds hc ((hstatus src).symm ▸ hp) (hreact ▸ hr)
    have hframe := (hpoison.mono (rs := [.keeps, .own, .still, .out, .pf0, .cpu, .core, .flt, .status, .live, .due, .sto, .arm]) (by decide)).andThen hraised.frame
    have hdue := hraised.due
    rw [hflt, hs, if_neg (by omega)] at hdue
    rw [hstatus] at hfirst
    rw [hflt, htor] at hlog
    rw [hreact, htor] at hpulse
    refine ⟨_, (exec_faultEvent ho hi h1 h2 part detail holds).trans (done_events hframe hdue), hfirst,
      fun j hj => (hraised.other j hj).trans (hstatus j), fun j => ?_, hlog, hpulse, (hframe .checkstop (by decide)).trans (not_checkstop_of_operating ho),
      (hraised.frame .mem (by decide)).trans hmem, fun h3 => ?_, hframe .tor (by decide), hframe .pln (by decide), hframe .dram (by decide)⟩
    · rw [hraised.live j, hflt]
    · rw [arrayPoison_of_other h3] at hraised ⊢
      exact hraised.frame .sto (by decide)
  · have hdie : Raised 0 (srcDie die) 0x0A none s (raise (srcDie die) 0x0A none reporter s) := raiseClass_raised _ _ _ _ (by decide) hrd
    have hreact : reactOf reporter (raise (srcDie die) 0x0A none reporter s) = reactOf reporter s := by
      unfold reactOf
      rw [hdie.frame .react (by decide)]
    have hrep : Raised (eventClass code) reporter code (part.filter (fun p => decide (p < 48))) (raise (srcDie die) 0x0A none reporter s)
        (raise reporter code (part.filter (fun p => decide (p < 48))) 0 (raise (srcDie die) 0x0A none reporter s)) :=
      raiseClass_raised _ _ _ _ (by omega) (hreact ▸ hr)
    have hframe := hdie.frame.trans hrep.frame
    have hdue := hrep.due
    rw [hdie.due, hs, if_neg (by omega), if_neg (by omega)] at hdue
    refine ⟨_, (exec_reportingPathFault ho hd hi h1 h2 part).trans (done_events (hframe.mono (by decide)) hdue),
      (congrArg FltStatus.pending (hrep.other _ hne.symm)).trans hdie.pending, hrep.pending, ?_, ?_, hframe .sto (by decide), hframe .tor (by decide)⟩
    · rw [hrep.live, if_neg hne.symm, hdie.live, if_pos rfl]
    · rw [hrep.live, if_pos rfl, hdie.live, if_neg hne]

end Sys2Proof.Machine
end

section
set_option Elab.async false
/-! PROOFS. A module checkstop, and the counters of Patina (21 R478, R489 to R495). -/

namespace Sys2Proof.Machine

/-! ### Module checkstop -/

theorem frame_loseStoresLogged (l : Nat) (s : State) : Touches [.cpu, .core, .flt] s (loseStoresLogged l s) := by
  unfold loseStoresLogged
  dsimp only
  split
  · exact .refl _ s
  · exact ((frame_modCore_keeps s l (by exact fun _ => rfl) (by exact fun _ => id)).mono (by decide)).andThen (frame_logEntry _ 5 0 _ 0x3F 0 _)

theorem tget_mapSame {α : Type} {f : α → α} {d : α} (hd : f d = d) (k : Nat) (t : Tab α) : tget d k (t.map fun e => (e.1, f e.2)) = f (tget d k t) := by
  induction t with
  | nil => exact hd.symm
  | cons e t ih =>
    simp only [List.map_cons, tget]
    split
    · rfl
    · exact ih

/-- A channel that has failed does not sleep. -/
theorem dramOf_slept {n : Nat} {t : Tab Dram} (h : (tget {} n t).state = 4) : (tget {} n (t.map fun (e : Nat × Dram) => (e.1, sleepDram e.2))).state = 4 := by
  rw [tget_mapSame (f := sleepDram) rfl, sleepDram, if_neg (by rw [h]; decide)]
  exact h

theorem frame_moduleCheckstop (s : State) : Touches [.cpu, .core, .keeps, .own, .still, .ch, .dram, .flt, .checkstop, .jnl] s (moduleCheckstop s) := by
  have hlose : ∀ u, Touches [.cpu, .core, .keeps, .own, .still] u (loseCaches u) := fun u => ((frame_onCores u _ _).mono (by decide)).andThen (frame_cpu _ _)
  have hlast : ∀ (u : State) (x y z), x.e = u.jnl.e → x.keptValid = u.jnl.keptValid → (∀ n, (dramOf n u).state = 4 → (tget {} n z).state = 4) → Touches [.cpu, .core, .keeps, .own, .still, .ch, .dram, .flt, .checkstop, .jnl] u
      { u with flt := { u.flt with checkstop := true }, jnl := x, cpu := y, dram := z } := by
    intro u x y z hx hk hz
    have hflt : Touches [.checkstop, .flt, .keeps, .still] u { u with flt := { u.flt with checkstop := true } } :=
      ((((((((frame_flt u { u.flt with checkstop := true }).mono (by decide) :
        Touches [.status, .due, .react, .live, .fenced, .pend, .dues, .halted, .checkstop, .flt, .keeps, .still] u _).holding (by exact rfl)).holding
          (by exact rfl)).holding (by exact rfl)).holding (by exact rfl)).holding (fun _ => id)).holding fun _ h => ⟨h, Nat.le_refl _⟩).holding
            (List.prefix_refl u.flt.due) |>.holding fun _ => rfl
    have hfields := ((hflt.mono (by decide) : Touches [.cpu, .core, .keeps, .own, .still, .flt, .checkstop, .jnl] u _).andThen (frame_jnlOut _ x hx hk)).andThen (frame_cpu _ y)
    exact Touches.holding (q := .failed) ((hfields.mono (by decide)).andThen (frame_dram _ z)) hz
  unfold moduleCheckstop
  split
  · exact .refl _ s
  · have hstores := (touches_foldl (fun u l => frame_loseStoresLogged l u) (s.cpu.core.map (·.1)) s).mono
      (rs := [.cpu, .core, .keeps, .own, .still, .ch, .dram, .flt, .checkstop, .jnl]) (by decide)
    have hcps : ∀ u, Touches [.ch] u ((List.range 32).foldl (fun s k => if cpState k s = 0 then setCp k 1 s else s) u) :=
      touches_foldl (fun u k => touches_ite (fun _ => frame_setCp u k 1) fun _ => .refl _ u) _
    have hslept := ((hstores.andThen (hlose _)).andThen (frame_onCores _ (fun _ => true) (fun c => match c.run with
      | .lost => c
      | .tcaFault => c
      | _ => { c with run := .stopped }))).andThen (hcps _)
    dsimp only
    generalize (List.range 32).foldl _ _ = u at hslept ⊢
    exact hslept.trans (hlast u _ _ _ rfl rfl fun _ => dramOf_slept)

theorem moduleCheckstop_storageKept {s : State} (h : s.flt.checkstop = false) : (moduleCheckstop s).jnl.storageKept = false := by
  unfold moduleCheckstop
  rw [if_neg (by simp [h])]

/-- A command that makes a module checkstop due ends with it. -/
theorem done_checkstops {b s : State} {d : DueStep} (hd : s.flt.due = [d]) (h1 : ¬ d.src < 2 ^ 24) (h3 : d.step = 3) (hc : s.flt.checkstop = false)
    (hp : s.pending = b.pending) (hr : Safety.sameReport b s) : done b s = .next (moduleCheckstop { s with flt := { s.flt with due := [] } }) := by
  have hframe := frame_moduleCheckstop { s with flt := { s.flt with due := [] } }
  have hreport : Safety.sameReport b (moduleCheckstop { s with flt := { s.flt with due := [] } }) := by
    obtain ⟨r1, r2, r3, r4, r5⟩ := hr
    have htor : (moduleCheckstop { s with flt := { s.flt with due := [] } }).tor = s.tor := hframe .tor (by decide)
    have hdx : (moduleCheckstop { s with flt := { s.flt with due := [] } }).dx = s.dx := hframe .dx (by decide)
    have hfab : (moduleCheckstop { s with flt := { s.flt with due := [] } }).arm = s.arm := hframe .arm (by decide)
    simp [Safety.sameReport, htor, hdx, hfab, r1, r2, r3, r4, r5]
  have hqueue : (moduleCheckstop { s with flt := { s.flt with due := [] } }).pending = b.pending := (hframe .pending (by decide)).trans hp
  unfold done settle
  rw [settleDue_module 4095 s d hd hc h1 h3, torFlood_same hreport, signalStates_same hreport, ← hqueue]

/-- A UE-module event of a source whose reaction entry names no step: the module checkstop that it makes due is taken. -/
theorem done_moduleEvent {b s t : State} {src code : Nat} {part : Option Nat} (h : Raised 3 src code part s t) (hcode : 1 ≤ code) (hd : s.flt.due = [])
    (hc : s.flt.checkstop = false) (hp : s.pending = b.pending) (hr : Safety.sameReport b t) :
    done b t = .next (moduleCheckstop { t with flt := { t.flt with due := [] } }) := by
  have hdue := h.due
  rw [hd, if_pos rfl, List.nil_append] at hdue
  exact done_checkstops hdue (by show ¬ sourceNo code src < 2 ^ 24; unfold sourceNo; omega) rfl ((h.frame .checkstop (by decide)).trans hc)
    ((h.frame .pending (by decide)).trans hp) hr

/-- Settles O9: the event is recorded, and the module checkstop that it makes due is taken at the command's end. -/
theorem moduleEventCheckstops : Obligations.ModuleEventCheckstops := by
  intro src part detail holds s hs ho hi hr
  have hraised := raiseClass_raised (cls := 3) 0x10 (part.filter (fun p => decide (p < 48))) detail.toNat holds (by decide) hr
  have hdone := done_moduleEvent (b := s) hraised (by decide) hs (not_checkstop_of_operating ho) rfl
    (sameReport_of_frame hraised.frame (by decide) (by decide) (by decide))
  have hexec := exec_faultEvent ho hi (code := 0x10) (by decide) (by decide) part detail holds
  rw [arrayPoison_of_other (by decide)] at hexec
  generalize ht : raiseClass 3 src 0x10 (part.filter (fun p => decide (p < 48))) detail.toNat holds s = t at hraised hdone
  have hcs : t.flt.checkstop = false := (hraised.frame .checkstop (by decide)).trans (not_checkstop_of_operating ho)
  obtain ⟨hstop, hstatus, -, -⟩ := moduleCheckstop_flt { t with flt := { t.flt with due := [] } }
  have hon : (moduleCheckstop { t with flt := { t.flt with due := [] } }).pwr.on = true := by
    rw [frame_moduleCheckstop _ .pwr (by decide)]
    exact (congrArg Power.on (hraised.frame .pwr (by decide))).trans (powered_of_operating ho)
  refine ⟨_, (hexec.trans (by rw [← ht]; rfl)).trans hdone, hstop, ?_, ?_, ?_, moduleCheckstop_storageKept hcs,
    moduleCheckstop_stops _ hcs⟩
  · rw [fltStatus, hstatus]
    exact hraised.pending
  · simp [pinLevel, openDrain, anySupply, hon, hstop]
  · simp [pinLevel, openDrain, anySupply, errNLow, hon, hstop]

/-! ### Patina counters -/

theorem tget_tkeep_outside {α : Type} (d : α) (first last j : Nat) (t : Tab α) :
    tget d j (tkeep (fun k => decide (k < first) || decide (last < k)) t) = if first ≤ j ∧ j ≤ last then d else tget d j t := by
  rw [tget_tkeep]
  by_cases h : first ≤ j ∧ j ≤ last
  · rw [if_neg (by simp; omega), if_pos h]
  · rw [if_pos (by simp; omega), if_neg h]

theorem exec_patinaClear {v : View} {s : State} (hv : admin v s = true) (hw : powered s = true) (first last : Nat) :
    exec (.patinaClear v first last) s = done s (patinaClear v first last s) := if_pos (by simp [hv, hw])

/-- Settles O13: the clear writes counters, log and result and nothing that is told; the copy and the pulse's end answer directly. -/
theorem patinaCountersClearAndCopy : Obligations.PatinaCountersClearAndCopy := by
  refine ⟨fun v first last s hs hv hw => ⟨fun hr => ?_, fun hr => ?_⟩, fun s => ⟨fun hz hd => ?_, fun t ht hle => ?_⟩⟩
  · rw [exec_patinaClear hv hw, patinaClear, if_pos hr]
    refine ⟨_, done_quiet (hs : s.flt.due = []) rfl (sameReport_refl s), rfl, fun k => ?_, fun k => tget_tkeep_outside .., rfl, rfl, rfl⟩
    refine (patina_live _ k _).trans ?_
    simp only [tget_tkeep_outside]
    have hout : ¬ (first ≤ 0x29F ∧ 0x29F ≤ last) := by omega
    by_cases hk : k = 0x29F
    · subst hk
      rw [if_pos rfl, if_neg hout, if_neg hout, if_pos rfl]
    · rw [if_neg hk, if_neg hk]
  · rw [exec_patinaClear hv hw, patinaClear, if_neg hr]
    exact done_quiet (hs : s.flt.due = []) rfl (sameReport_refl s)
  · refine if_pos ?_
    simp [periodDue, ticksS, hz, hd]
  · show execErrNPulseEnd s = _
    rw [execErrNPulseEnd, ht]
    exact if_pos hle

end Sys2Proof.Machine
end

section
set_option Elab.async false
/-! PROOFS. A partition checkstop, and UNFENCE (21 R487, R488, R495; 18 R425). -/

namespace Sys2Proof.Machine

/-! ### Queues -/

section
variable (s : State)

theorem frame_setQueue (b : QBlock) (q : Nat) (v : Queue) : Touches [.eng, .hp] s (setQueue b q v s) := by
  cases b
  · exact (frame_eng s _).mono (by decide)
  · exact (frame_eng s _).mono (by decide)
  · exact (frame_hp s _).mono (by decide)

theorem frame_dropGot (who : Agent) (p : Nat → Bool) : Touches [.arm] s (dropGot who p s) := frame_fabric s _ rfl rfl

theorem frame_disableQueue (b : QBlock) (q : Nat) : Touches [.eng, .hp, .pf1, .arm] s (disableQueue b q s) := by
  have hheld : Touches [.pf1] s (if (queueOf b q s).held.isSome then { s with pf1 := { s.pf1 with dropped := satAdd 16 s.pf1.dropped 1 } } else s) :=
    touches_ite (fun _ => frame_pf1 s _) fun _ => .refl _ s
  have hgot : ∀ u, Touches [.arm] u (if (queueOf b q s).busy then u else dropGot (queueAgent b q) (fun _ => true) u) :=
    fun u => touches_ite (fun _ => .refl _ u) fun _ => frame_dropGot u _ _
  exact ((hheld.mono (by decide)).andThen (hgot _)).andThen (frame_setQueue _ b q _)

theorem frame_disableOwnQueues (p : Nat) (wipe : Bool) : Touches [.eng, .hp, .pf1, .arm] s (disableOwnQueues p wipe s) := by
  refine touches_foldl (fun u k => touches_foldl (fun u b => ?_) _ u) _ s
  have hwipe : Touches [.eng, .hp, .pf1, .arm] u (if wipe then modQueue b (64 + 4 * p + k) (fun v => { v with wipe := true }) u else u) :=
    touches_ite (fun _ => (frame_setQueue u _ _ _).mono (by decide)) fun _ => .refl _ u
  exact (hwipe.trans (touches_ite (fun _ => .refl _ _) fun _ => frame_disableQueue _ b _)).andThen (frame_setQueue _ b _ _)

end

/-! ### Partition checkstop -/

theorem partCheckstop_leaves {p : Nat} {s : State} (h : pstateOf p s ≠ .undefined) : pstateOf p (partCheckstop p s) = .checkstopped ∧
    (∀ e ∈ (partCheckstop p s).tr.pubs, e.1 / 16 ≠ p) ∧ tget [] p (partCheckstop p s).cpu.heldMc = [] := by
  unfold partCheckstop
  rw [if_neg h]
  dsimp only
  generalize (coresOf p s).foldl (fun s l => killCore l s) s = u
  have hq := frame_disableOwnQueues (withdrawPubs p (setPState p .checkstopped u)) p false
  have hpln : (disableOwnQueues p false (withdrawPubs p (setPState p .checkstopped u))).pln = (setPState p .checkstopped u).pln := hq .pln (by decide)
  have htr : (disableOwnQueues p false (withdrawPubs p (setPState p .checkstopped u))).tr = (withdrawPubs p (setPState p .checkstopped u)).tr := hq .tr (by decide)
  refine ⟨?_, fun e he => ?_, ?_⟩
  · unfold pstateOf
    dsimp only
    rw [hpln]
    exact (pstateOf_setPState p p .checkstopped u).trans (if_pos rfl)
  · rw [htr] at he
    simpa using (List.mem_filter.mp he).2
  · exact (tget_tdel [] p p _).trans (if_pos rfl)

/-! ### UNFENCE -/

theorem lineNext_of_noOps {s : State} (h : s.ch.ops = []) (cipher : Bool) (hub : Nat) : lineNext cipher hub s = none := by
  simp [lineNext, h]

/-- Where no channel operation is in progress no engine takes work in line. -/
theorem lineStart_of_noOps {s : State} (h : s.ch.ops = []) : lineStart s = s := by
  have hr : ∀ k, raspLineNext k s = none := fun k => by simp [raspLineNext, lineNext_of_noOps h]
  have hi : ∀ k, intLineNext k s = none := fun k => by simp [intLineNext, lineNext_of_noOps h]
  refine List.foldl_fixed' (fun k => ?_) _
  simp only [hr, ite_self, hi]

theorem exec_unfence {v : View} {s : State} (hv : admin v s = true) (ho : operating s = true) (src : Nat) :
    exec (.unfence v src) s = done s (unfenceCmd src s) := if_pos (by simp [hv, ho])

theorem unfenceCmd_refused {src : Nat} {s : State} (h : (fltStatus src s).fenced = false ∨ (fltStatus src s).pending = true) :
    unfenceCmd src s = { s with flt := { s.flt with cmdResult := 0x0C } } := by
  refine if_neg ?_
  rcases h with h | h <;> simp [h]

theorem unfenceCmd_accepted {src : Nat} {s : State} (hf : (fltStatus src s).fenced = true) (hp : (fltStatus src s).pending = false) :
    unfenceCmd src s = { unfence src (setFlt src { fltStatus src s with fenced := false } s) with
      flt := { (unfence src (setFlt src { fltStatus src s with fenced := false } s)).flt with cmdResult := 0 } } := if_pos (by simp [hf, hp])

/-- UNFENCE of an engine, no channel operation being in progress: the engine alone returns. -/
theorem unfence_rasp {k : Nat} (hk : k < 8) {s : State} (h : s.ch.ops = []) : unfence (0x148 + k) s = setRasp k { raspOf k s with failed := false } s := by
  unfold unfence
  repeat rw [if_neg (by omega)]
  rw [if_pos (by omega), Nat.add_sub_cancel_left]
  exact lineStart_of_noOps h

theorem unfence_int {k : Nat} (hk : k < 8) {s : State} (h : s.ch.ops = []) : unfence (0x150 + k) s = setInt k { intOf k s with failed := false } s := by
  unfold unfence
  repeat rw [if_neg (by omega)]
  rw [if_pos (by omega), Nat.add_sub_cancel_left]
  exact lineStart_of_noOps h

/-- Settles O12. -/
theorem partitionCheckstopAndUnfence : Obligations.PartitionCheckstopAndUnfence := by
  refine ⟨fun p s h => partCheckstop_leaves h, fun v src s hs hv ho => ⟨fun h => ?_, fun k hk hops hsrc hf hp => ?_, fun k hk hops hsrc hf hp => ?_⟩⟩
  · rw [exec_unfence hv ho, unfenceCmd_refused h]
    exact done_quiet (hs : s.flt.due = []) rfl (sameReport_refl s)
  · subst hsrc
    rw [exec_unfence hv ho, unfenceCmd_accepted hf hp, unfence_rasp (s := setFlt _ _ s) hk hops]
    exact ⟨_, done_quiet (hs : s.flt.due = []) rfl (sameReport_refl s), congrArg RaspEng.failed (tget_tset_same _ k _ _),
      congrArg FltStatus.fenced (tget_tset_same _ _ _ _), rfl, rfl, rfl⟩
  · subst hsrc
    rw [exec_unfence hv ho, unfenceCmd_accepted hf hp, unfence_int (s := setFlt _ _ s) hk hops]
    exact ⟨_, done_quiet (hs : s.flt.due = []) rfl (sameReport_refl s), congrArg IntEng.failed (tget_tset_same _ k _ _),
      congrArg FltStatus.fenced (tget_tset_same _ _ _ _), rfl, rfl, rfl⟩

end Sys2Proof.Machine
end

section
set_option Elab.async false
/-! PROOFS. The discipline of TOR: a change of STATE, a measured offset, an accepted edge (03 R58 to R69). -/

namespace Sys2Proof.Machine

/-! ### A change of STATE (R60, R68) -/

section
variable (st : TorState) (s : State)

theorem frame_logState (src detail : Nat) : Touches [.flt] s (logState src detail s) := frame_logEntry s 5 0 src 0x3F 0 detail

theorem torSet_same {st : TorState} {s : State} (h : s.tor.state = st) : torSet st s = s := if_pos h

theorem frame_torSet : Touches [.tor, .flt, .live] s (torSet st s) :=
  touches_ite (fun _ => .refl _ s) fun _ => (((frame_timer s _ (by exact rfl)).mono (by decide)).andThen (frame_patina _ 0x297)).andThen (frame_logState _ srcTor _)

theorem torSet_tor : (torSet st s).tor =
    { s.tor with state := st, holdStart := if st = .holdover ∧ s.tor.state ≠ st then s.tor.tor else s.tor.holdStart } := by
  unfold torSet
  by_cases h : s.tor.state = st
  · rw [if_pos h]; simp [← h]
  · rw [if_neg h]; simp [h, logState]

theorem torSet_live (j : Nat) : tget 0 j (torSet st s).flt.live =
    if j = 0x297 ∧ st ≠ s.tor.state then sat16 (tget 0 j s.flt.live) else tget 0 j s.flt.live := by
  unfold torSet
  by_cases h : s.tor.state = st
  · rw [if_pos h, if_neg (by simp [h])]
  · rw [if_neg h]
    refine (patina_live 0x297 j _).trans ?_
    have hne : st ≠ s.tor.state := fun e => h e.symm
    simp only [hne, Ne, not_false_eq_true, and_true]
    split
    · subst j; rfl
    · rfl

end

/-! ### A measured offset (R58, R63, R65) -/

/-- The STATE that a measured offset leads to outside the start window. -/
def stateMeasured (own : Bool) (offset : Int) : TorState :=
  if offset.natAbs ≤ 400 then (if own then .locked else .fabric) else .slewing

theorem stateMeasured_ne_holdover (own : Bool) (offset : Int) : stateMeasured own offset ≠ .holdover := by
  unfold stateMeasured
  split
  · split <;> decide
  · decide

/-- Outside the start window an offset sets STATE and what TOR slews toward; TOR itself is not stepped. -/
theorem measured_eq (own : Bool) (offset : Int) {s : State} (hw : s.tor.window = false) : measured own offset s =
    torSet (stateMeasured own offset)
      { s with tor := { s.tor with offset := offset, slewOwn := if offset.natAbs ≤ 400 then s.tor.slewOwn else own } } := by
  unfold measured stateMeasured
  rw [if_neg (by simp [hw])]
  by_cases h : offset.natAbs ≤ 400
  · rw [if_pos h, if_pos h]; exact if_pos h
  · rw [if_neg h, if_neg h]; exact if_neg h

theorem frame_measured {own : Bool} {offset : Int} {s : State} (hw : s.tor.window = false) :
    Touches [.tor, .flt, .live] s (measured own offset s) := by
  rw [measured_eq own offset hw]
  exact ((frame_timer s _ (by exact rfl)).mono (by decide)).andThen (frame_torSet _ _)

theorem measured_tor (own : Bool) (offset : Int) {s : State} (hw : s.tor.window = false) : (measured own offset s).tor =
    { s.tor with offset := offset, slewOwn := if offset.natAbs ≤ 400 then s.tor.slewOwn else own, state := stateMeasured own offset } := by
  rw [measured_eq own offset hw, torSet_tor]
  simp [stateMeasured_ne_holdover]

theorem measured_live (own : Bool) (offset : Int) {s : State} (hw : s.tor.window = false) (j : Nat) : tget 0 j (measured own offset s).flt.live =
    if j = 0x297 ∧ stateMeasured own offset ≠ s.tor.state then sat16 (tget 0 j s.flt.live) else tget 0 j s.flt.live := by
  rw [measured_eq own offset hw]
  exact torSet_live _ _ j

/-- A command that steps TOR nowhere passes no deadline over. -/
theorem fireStep_of_unstepped {b s : State} (h : s.tor.step = b.tor.step) : fireStep b s = s := if_pos h

/-! ### Timecode frames (R61, R62, R76) -/

theorem todFrame_names {b : List Byte} {k : Nat} {s : State} (hf : frameSeconds b = some k) (hv : frameValid k s = true) :
    todFrame b s = { s with tor := { s.tor with named := some k, lastFrame := some s.tor.tor } } := by simp [todFrame, hf, hv]

theorem todFrame_ignored {b : List Byte} {s : State} (h : ∀ k, frameSeconds b = some k → frameValid k s = false) : todFrame b s = s := by
  unfold todFrame
  split
  · next k hk => rw [h k hk]; rfl
  · rfl

theorem exec_todFrame {s : State} (hw : powered s = true) (hr : s.tor.refDisable = false) (b : List Byte) : exec (.todFrame b) s = done s (todFrame b s) :=
  if_pos (by simp [hw, hr])

theorem exec_todFrame_disabled {s : State} (hr : s.tor.refDisable = true) (b : List Byte) : exec (.todFrame b) s = .next s := if_neg (by simp [hr])

theorem frameSeconds_sound {b : List Byte} (h1 : b.length = 13) (h2 : natAt b 0 2 = 0xA55A) (h3 : natAt b 2 1 = 1) (h4 : natAt b 11 2 = crc16 (b.take 11)) :
    frameSeconds b = some (natAt b 3 8) := if_pos ⟨h1, h2, h3, h4⟩

theorem frameSeconds_eq_some {b : List Byte} {k : Nat} (h : frameSeconds b = some k) :
    b.length = 13 ∧ natAt b 0 2 = 0xA55A ∧ natAt b 2 1 = 1 ∧ natAt b 11 2 = crc16 (b.take 11) ∧ k = natAt b 3 8 := by
  unfold frameSeconds at h
  split at h
  · next hs =>
    obtain ⟨h1, h2, h3, h4⟩ := hs
    exact ⟨h1, h2, h3, h4, by simpa using h.symm⟩
  · cases h

theorem frameValid_iff (k : Nat) (s : State) : frameValid k s = true ↔
    (∃ e, s.tor.edgeSeen = some e ∧ e + 40000000 ≤ s.tor.tor ∧ s.tor.tor ≤ e + 3600000000) ∧
    ∀ t0 j, s.tor.lastEdge = some (t0, j) → t0 + 4000080000 < s.tor.tor ∨ k = j + 1 := by
  unfold frameValid
  cases s.tor.edgeSeen <;> rcases s.tor.lastEdge with - | ⟨t, j⟩ <;> simp [-Bool.decide_and] <;> simp [ticksMs, refLimit]

theorem todFrame_command (b : List Byte) {s : State} (hs : Safety.settled s) (hw : powered s = true) :
    (∀ e, s.tor.refDisable = false → b.length = 13 → natAt b 0 2 = 0xA55A → natAt b 2 1 = 1 → natAt b 11 2 = crc16 (b.take 11) →
      s.tor.edgeSeen = some e → e + 40000000 ≤ s.tor.tor → s.tor.tor ≤ e + 3600000000 →
      (∀ t0 k, s.tor.lastEdge = some (t0, k) → t0 + 4000080000 < s.tor.tor ∨ natAt b 3 8 = k + 1) →
      exec (.todFrame b) s = .next { s with tor := { s.tor with named := some (natAt b 3 8), lastFrame := some s.tor.tor } }) ∧
    ((s.tor.refDisable = true ∨ b.length ≠ 13 ∨ natAt b 0 2 ≠ 0xA55A ∨ natAt b 2 1 ≠ 1 ∨ natAt b 11 2 ≠ crc16 (b.take 11) ∨ s.tor.edgeSeen = none ∨
        (∃ e, s.tor.edgeSeen = some e ∧ (s.tor.tor < e + 40000000 ∨ e + 3600000000 < s.tor.tor)) ∨
        (∃ t0 k, s.tor.lastEdge = some (t0, k) ∧ s.tor.tor ≤ t0 + 4000080000 ∧ natAt b 3 8 ≠ k + 1)) →
      exec (.todFrame b) s = .next s) := by
  refine ⟨fun e hr h1 h2 h3 h4 he hlo hhi hl => ?_, fun hbad => ?_⟩
  · rw [exec_todFrame hw hr, todFrame_names (frameSeconds_sound h1 h2 h3 h4) ((frameValid_iff _ s).mpr ⟨⟨e, he, hlo, hhi⟩, hl⟩)]
    exact done_quiet (hs : s.flt.due = []) rfl (sameReport_refl s)
  · cases hr : s.tor.refDisable with
    | true => exact exec_todFrame_disabled hr b
    | false =>
      have hignored : ∀ k, frameSeconds b = some k → frameValid k s = false := by
        intro k hk
        obtain ⟨h1, h2, h3, h4, rfl⟩ := frameSeconds_eq_some hk
        rw [Bool.eq_false_iff]
        intro hv
        obtain ⟨⟨e, he, hlo, hhi⟩, hl⟩ := (frameValid_iff _ s).mp hv
        rcases hbad with h | h | h | h | h | h | ⟨e', he', h⟩ | ⟨t0, j, ht0, h, hj⟩
        · simp [hr] at h
        · exact h h1
        · exact h h2
        · exact h h3
        · exact h h4
        · simp [he] at h
        · simp only [he, Option.some.injEq] at he'; omega
        · have := hl t0 j ht0; omega
      rw [exec_todFrame hw hr, todFrame_ignored hignored]
      exact done_quiet hs rfl (sameReport_refl s)

/-! ### Loss of the reference (R63) -/

theorem frame_loseRef (s : State) : Touches [.tor, .flt, .live] s (loseRef s) :=
  touches_ite (fun _ => ((frame_timer s _ (by exact rfl)).mono (by decide)).andThen (frame_torSet .holdover _)) fun _ => (frame_timer s _ (by exact rfl)).mono (by decide)

/-- The module was disciplined by the reference that it loses. -/
def ownDisciplined (s : State) : Prop := follows s = false ∧ (s.tor.state = .locked ∨ (s.tor.state = .slewing ∧ s.tor.slewOwn = true))

theorem loseRef_disciplined {s : State} (h : ownDisciplined s) :
    loseRef s = torSet .holdover { s with tor := { s.tor with refHeld := false, goodEdges := 0 } } := by
  obtain ⟨hf, hst⟩ := h
  have hfree : (!follows s) = true := by rw [hf]; rfl
  exact if_pos ⟨hfree, hst⟩

theorem loseRef_other {s : State} (h : ¬ ownDisciplined s) : loseRef s = { s with tor := { s.tor with refHeld := false, goodEdges := 0 } } :=
  if_neg fun ⟨hf, hst⟩ => h ⟨(Bool.not_eq_true' (follows s)).mp hf, hst⟩

/-- The loss writes nothing of TOR but the reference, STATE and its `HOLD_START`. -/
theorem loseRef_tor (s : State) : ∃ st hold, (loseRef s).tor = { s.tor with refHeld := false, goodEdges := 0, state := st, holdStart := hold } := by
  by_cases h : ownDisciplined s
  · rw [loseRef_disciplined h, torSet_tor]
    exact ⟨_, _, rfl⟩
  · rw [loseRef_other h]
    exact ⟨s.tor.state, s.tor.holdStart, rfl⟩

theorem loseRef_disciplined_leaves {s : State} (h : ownDisciplined s) : (loseRef s).tor.state = .holdover ∧ (loseRef s).tor.holdStart = s.tor.tor ∧
    tget 0 0x297 (loseRef s).flt.live = sat16 (tget 0 0x297 s.flt.live) := by
  have hne : s.tor.state ≠ .holdover := by rcases h.2 with e | ⟨e, -⟩ <;> simp [e]
  rw [loseRef_disciplined h, torSet_tor, torSet_live]
  exact ⟨rfl, if_pos ⟨rfl, hne⟩, if_pos ⟨rfl, hne.symm⟩⟩

/-! ### Rising edges (R62, R63, R65) -/

theorem frame_countEdge (k : Nat) (s : State) : Touches [.tor] s (countEdge k s) := frame_timer s _ (by exact rfl)

theorem spacingOk_of_near {d : Nat} (hlo : 3999920000 ≤ d) (hhi : d ≤ 4000080000) : spacingOk d = true := by
  have heq : spacingOk d = (decide (ticksS - 80000 ≤ d) && decide (d ≤ ticksS + 80000)) := rfl
  have hsecond : ticksS = 4000000000 := rfl
  rw [heq, Bool.and_eq_true, decide_eq_true_iff, decide_eq_true_iff, hsecond]
  omega

/-- The next edge in a row: one second further, 1 s within 20 µs later. -/
theorem countEdge_next {k t0 : Nat} {s : State} (h : s.tor.lastEdge = some (t0, k - 1)) (hk : 0 < k) (hlo : t0 + 3999920000 ≤ s.tor.tor)
    (hhi : s.tor.tor ≤ t0 + 4000080000) : countEdge k s =
      { s with tor := { s.tor with goodEdges := s.tor.goodEdges + 1, refHeld := s.tor.refHeld || decide (2 ≤ s.tor.goodEdges) } } := by
  have hcond : spacingOk (s.tor.tor - t0) = true ∧ k = k - 1 + 1 := ⟨spacingOk_of_near (by omega) (by omega), by omega⟩
  have hthird : decide (3 ≤ s.tor.goodEdges + 1) = decide (2 ≤ s.tor.goodEdges) := decide_eq_decide.mpr (by omega)
  simp only [countEdge, h]
  rw [if_pos hcond, hthird]

theorem frame_compareRef (k : Nat) (s : State) : Touches [.tor, .flt, .live] s (compareRef k s) := by
  have hput : ∀ n, Touches [.tor, .flt, .live] s { s with tor := { s.tor with disagree := n } } := fun n => (frame_timer s _ (by exact rfl)).mono (by decide)
  have hlog : ∀ (d : Nat) (u : State), Touches [.tor, .flt, .live] u (logState srcTor d (patina 0x298 u)) := fun d u =>
    ((frame_patina u 0x298).mono (by decide)).andThen (frame_logState _ srcTor d)
  unfold compareRef
  dsimp only
  split
  · split
    · exact (hput 0).trans (hlog _ _)
    · exact hput _
  · exact hput 0

/-- A comparison writes nothing of TOR but the edges in a row that disagreed. -/
theorem compareRef_tor (k : Nat) (s : State) : ∃ n, (compareRef k s).tor = { s.tor with disagree := n } := by
  unfold compareRef
  dsimp only
  split
  · split <;> exact ⟨_, rfl⟩
  · exact ⟨_, rfl⟩

/-- What an accepted edge does after it is counted. -/
def judgeEdge (k : Nat) (s : State) : State :=
  if follows s then compareRef k s else if s.tor.refHeld then measured true (edgeOffset k s) s else s

theorem acceptEdge_eq (k : Nat) (s : State) : acceptEdge k s = { judgeEdge k (countEdge k s) with
    tor := { (judgeEdge k (countEdge k s)).tor with
      lastEdge := some ((judgeEdge k (countEdge k s)).tor.tor, k), edgeSeen := some (judgeEdge k (countEdge k s)).tor.tor,
      lastRef := if follows (judgeEdge k (countEdge k s)) then (judgeEdge k (countEdge k s)).tor.lastRef else (judgeEdge k (countEdge k s)).tor.tor } } := rfl

theorem frame_judgeEdge (k : Nat) {s : State} (hw : s.tor.window = false) : Touches [.tor, .flt, .live] s (judgeEdge k s) :=
  touches_ite (fun _ => frame_compareRef k s) fun _ => touches_ite (fun _ => frame_measured hw) fun _ => .refl _ s

/-- Judging an edge leaves TOR, its step, the control and the election as they are. -/
theorem judgeEdge_tor (k : Nat) {s : State} (hw : s.tor.window = false) : ∃ n off own st, (judgeEdge k s).tor =
    { s.tor with disagree := n, offset := off, slewOwn := own, state := st } := by
  unfold judgeEdge
  split
  · obtain ⟨n, h⟩ := compareRef_tor k s
    exact ⟨n, s.tor.offset, s.tor.slewOwn, s.tor.state, h⟩
  · split
    · exact ⟨s.tor.disagree, _, _, _, measured_tor true _ hw⟩
    · exact ⟨s.tor.disagree, s.tor.offset, s.tor.slewOwn, s.tor.state, rfl⟩

theorem frame_acceptEdge (k : Nat) {s : State} (hw : s.tor.window = false) : Touches [.tor, .flt, .live] s (acceptEdge k s) := by
  rw [acceptEdge_eq]
  exact (((frame_countEdge k s).mono (by decide)).andThen (frame_judgeEdge k (s := countEdge k s) hw)).andThen (frame_timer _ _ (by exact rfl))

theorem follows_congr {s t : State} (hd : t.tor.fabricDisable = s.tor.fabricDisable) (hm : t.tor.master = s.tor.master) (hn : t.arm.node = s.arm.node) :
    follows t = follows s := by simp [follows, hd, hm, hn]

/-- An accepted edge: TOR is as it was, and what the edge left of it. -/
theorem acceptEdge_tor (k : Nat) {s : State} (hw : s.tor.window = false) : ∃ n off own st, (acceptEdge k s).tor =
    { (countEdge k s).tor with disagree := n, offset := off, slewOwn := own, state := st, lastEdge := some (s.tor.tor, k), edgeSeen := some s.tor.tor,
                               lastRef := if follows s then s.tor.lastRef else s.tor.tor } := by
  obtain ⟨n, off, own, st, h⟩ := judgeEdge_tor k (s := countEdge k s) hw
  have hnode : (judgeEdge k (countEdge k s)).arm.node = s.arm.node := frame_judgeEdge k (s := countEdge k s) hw .node (by decide)
  have hfollows : follows (judgeEdge k (countEdge k s)) = follows s := follows_congr (by rw [h]; rfl) (by rw [h]; rfl) hnode
  refine ⟨n, off, own, st, ?_⟩
  rw [acceptEdge_eq, hfollows]
  dsimp only
  rw [h]
  rfl

/-- A follower's edge leaves STATE as it is. -/
theorem acceptEdge_follower {k : Nat} {s : State} (hf : follows s = true) : (acceptEdge k s).tor.state = s.tor.state := by
  obtain ⟨n, h⟩ := compareRef_tor k (countEdge k s)
  have hjudge : judgeEdge k (countEdge k s) = compareRef k (countEdge k s) := if_pos hf
  rw [acceptEdge_eq, hjudge]
  dsimp only
  rw [h]
  rfl

/-- An edge of a module that follows no master and holds its reference measures its offset. -/
theorem acceptEdge_holder {k : Nat} {s : State} (hf : follows s = false) (hh : (countEdge k s).tor.refHeld = true) (hw : s.tor.window = false) :
    (acceptEdge k s).tor.state = stateMeasured true (edgeOffset k s) ∧ (acceptEdge k s).tor.offset = edgeOffset k s ∧
    (¬ (edgeOffset k s).natAbs ≤ 400 → (acceptEdge k s).tor.slewOwn = true) ∧
    ∀ j, tget 0 j (acceptEdge k s).flt.live =
      if j = 0x297 ∧ stateMeasured true (edgeOffset k s) ≠ s.tor.state then sat16 (tget 0 j s.flt.live) else tget 0 j s.flt.live := by
  have hjudge : judgeEdge k (countEdge k s) = measured true (edgeOffset k s) (countEdge k s) := by
    refine (if_neg ?_).trans (if_pos hh)
    rw [show follows (countEdge k s) = follows s from rfl, hf]
    decide
  have htor := measured_tor true (edgeOffset k s) (s := countEdge k s) hw
  rw [acceptEdge_eq, hjudge]
  dsimp only
  rw [htor]
  exact ⟨rfl, rfl, fun h => if_neg h, fun j => measured_live true (edgeOffset k s) (s := countEdge k s) hw j⟩

end Sys2Proof.Machine
end

section
set_option Elab.async false
/-! PROOFS. The commands of the time of record: edges, loss of the reference, `TOR_CTL`, time exchanges and comparators (03 R58 to R76). -/

namespace Sys2Proof.Machine

/-! ### The end of a command of TOR -/

/-- A command that writes TOR's block, the fault log and the counters: its next state keeps what it wrote, and storage, cores and partitions. -/
theorem done_tor {s x : State} (hs : Safety.settled s) (h : Touches [.tor, .flt, .live] s x) :
    ∃ t, done s x = .next t ∧ t.tor = x.tor ∧ t.flt = x.flt ∧ t.sto = s.sto ∧ t.cpu = s.cpu ∧ t.pln = s.pln := by
  obtain ⟨t, ht, htold⟩ := done_told (b := s) (s := x) ((h .due (by decide)).trans hs) (h .pending (by decide))
  exact ⟨t, ht, htold .tor (by decide), htold .flt (by decide), (htold .sto (by decide)).trans (h .sto (by decide)),
    (htold .cpu (by decide)).trans (h .cpu (by decide)), (htold .pln (by decide)).trans (h .pln (by decide))⟩

/-! ### Edges -/

/-- The state in which an edge finds its name: the reference is lost where the edge comes too late, and the name is used. -/
def edgeFound (s : State) : State :=
  { (if refPast s then loseRef s else s) with tor := { (if refPast s then loseRef s else s).tor with named := none } }

theorem frame_edgeFound (s : State) : Touches [.tor, .flt, .live] s (edgeFound s) :=
  (touches_ite (c := refPast s = true) (fun _ => frame_loseRef s) fun _ => .refl _ s).andThen (frame_timer _ _ (by exact rfl))

theorem edgeFound_tor (s : State) : ∃ held n st hold, (edgeFound s).tor =
    { s.tor with refHeld := held, goodEdges := n, state := st, holdStart := hold, named := none } := by
  unfold edgeFound
  split
  · obtain ⟨st, hold, h⟩ := loseRef_tor s
    exact ⟨false, 0, st, hold, by rw [h]⟩
  · exact ⟨_, _, _, _, rfl⟩

theorem edgeFound_inTime {t0 k : Nat} {s : State} (h : s.tor.lastEdge = some (t0, k)) (hhi : s.tor.tor ≤ t0 + 4000080000) :
    edgeFound s = { s with tor := { s.tor with named := none } } := by
  have hpast : refPast s = false := by
    have hlimit : refLimit = 4000080000 := rfl
    simp only [refPast, h, Bool.and_eq_false_iff, decide_eq_false_iff_not]
    omega
  simp [edgeFound, hpast]

theorem ppsEdge_named {k : Nat} {s : State} (h : s.tor.named = some k) : ppsEdge s = acceptEdge k (edgeFound s) := by
  have hnamed : (if refPast s then loseRef s else s).tor.named = some k := by
    split
    · obtain ⟨st, hold, e⟩ := loseRef_tor s
      rw [e]; exact h
    · exact h
  simp only [ppsEdge, hnamed]
  rfl

theorem ppsEdge_unnamed {s : State} (h : s.tor.named = none) :
    ppsEdge s = { edgeFound s with tor := { (edgeFound s).tor with edgeSeen := some (edgeFound s).tor.tor } } := by
  have hnamed : (if refPast s then loseRef s else s).tor.named = none := by
    split
    · obtain ⟨st, hold, e⟩ := loseRef_tor s
      rw [e]; exact h
    · exact h
  simp only [ppsEdge, hnamed]
  rfl

theorem exec_ppsEdge {s : State} (hw : powered s = true) (hr : s.tor.refDisable = false) (hstep : (ppsEdge s).tor.step = s.tor.step) :
    exec .ppsEdge s = done s (ppsEdge s) := by
  refine (if_pos (by simp [hw, hr])).trans ?_
  rw [fireStep_of_unstepped hstep]

/-- 100 ns on either side of the second that an edge names. -/
theorem edgeOffset_near (k : Nat) (s : State) :
    (edgeOffset k s).natAbs ≤ 400 ↔ k * 4000000000 ≤ s.tor.tor + 400 ∧ s.tor.tor ≤ k * 4000000000 + 400 := by
  have hsecond : ticksS = 4000000000 := rfl
  unfold edgeOffset
  rw [hsecond]
  simp only [Int.ofNat_eq_natCast]
  omega

/-- An edge that no frame names is detected. -/
theorem ppsEdge_detects {s : State} (hs : Safety.settled s) (hw : powered s = true) (hr : s.tor.refDisable = false) (hn : s.tor.named = none) :
    ∃ t, exec .ppsEdge s = .next t ∧ t.tor.edgeSeen = some s.tor.tor ∧ t.tor.lastEdge = s.tor.lastEdge ∧ t.tor.named = none ∧
      t.tor.tor = s.tor.tor ∧ t.sto = s.sto ∧ t.cpu = s.cpu ∧ t.pln = s.pln := by
  obtain ⟨held, n, st, hold, h⟩ := edgeFound_tor s
  have hframe : Touches [.tor, .flt, .live] s (ppsEdge s) := by
    rw [ppsEdge_unnamed hn]
    exact (frame_edgeFound s).andThen (frame_timer _ _ (by exact rfl))
  have htor : (ppsEdge s).tor = { s.tor with refHeld := held, goodEdges := n, state := st, holdStart := hold, named := none, edgeSeen := some s.tor.tor } := by
    rw [ppsEdge_unnamed hn]
    dsimp only
    rw [h]
  obtain ⟨t, ht, htt, -, hsto, hcpu, hpln⟩ := done_tor hs hframe
  rw [htor] at htt
  refine ⟨t, (exec_ppsEdge hw hr (by rw [htor])).trans ht, ?_, ?_, ?_, ?_, hsto, hcpu, hpln⟩ <;> rw [htt]

/-- An edge that a frame names is accepted; in time after the last one, and one second further, it counts toward acquisition and may acquire. -/
theorem ppsEdge_accepts {k : Nat} {s : State} (hs : Safety.settled s) (hw : powered s = true) (hr : s.tor.refDisable = false)
    (hn : s.tor.named = some k) (hwin : s.tor.window = false) : ∃ t, exec .ppsEdge s = .next t ∧ t.tor.lastEdge = some (s.tor.tor, k) ∧
      t.tor.edgeSeen = some s.tor.tor ∧ t.tor.named = none ∧ t.tor.tor = s.tor.tor ∧ t.sto = s.sto ∧ t.cpu = s.cpu ∧ t.pln = s.pln ∧
      (∀ t0, s.tor.lastEdge = some (t0, k - 1) → 0 < k → t0 + 3999920000 ≤ s.tor.tor → s.tor.tor ≤ t0 + 4000080000 →
        t.tor.goodEdges = s.tor.goodEdges + 1 ∧ t.tor.refHeld = (s.tor.refHeld || decide (2 ≤ s.tor.goodEdges)) ∧
        (follows s = true → t.tor.state = s.tor.state) ∧
        (follows s = false → (s.tor.refHeld = true ∨ 2 ≤ s.tor.goodEdges) →
          ((k * 4000000000 ≤ s.tor.tor + 400 ∧ s.tor.tor ≤ k * 4000000000 + 400) → t.tor.state = .locked) ∧
          (¬(k * 4000000000 ≤ s.tor.tor + 400 ∧ s.tor.tor ≤ k * 4000000000 + 400) → t.tor.state = .slewing ∧ t.tor.slewOwn = true) ∧
          t.tor.offset = Int.ofNat s.tor.tor - Int.ofNat (k * 4000000000) ∧ t.tor.lastRef = s.tor.tor ∧
          (∀ j, tget 0 j t.flt.live = if j = 0x297 ∧ t.tor.state ≠ s.tor.state then sat16 (tget 0 j s.flt.live) else tget 0 j s.flt.live))) := by
  obtain ⟨held, n, st, hold, hfound⟩ := edgeFound_tor s
  have hwin' : (edgeFound s).tor.window = false := by rw [hfound]; exact hwin
  obtain ⟨d, off, own, st', haccept⟩ := acceptEdge_tor k hwin'
  have hframe : Touches [.tor, .flt, .live] s (ppsEdge s) := by
    rw [ppsEdge_named hn]
    exact (frame_edgeFound s).trans (frame_acceptEdge k hwin')
  have htor := haccept
  rw [← ppsEdge_named hn] at htor
  have hnow : (edgeFound s).tor.tor = s.tor.tor := by rw [hfound]
  have hfoundName : (edgeFound s).tor.named = none := by rw [hfound]
  obtain ⟨t, ht, htt, hflt, hsto, hcpu, hpln⟩ := done_tor hs hframe
  have hstep : (ppsEdge s).tor.step = s.tor.step := by
    have hfoundStep : (edgeFound s).tor.step = s.tor.step := by rw [hfound]
    rw [htor]
    exact hfoundStep
  refine ⟨t, (exec_ppsEdge hw hr hstep).trans ht, ?_, ?_, ?_, ?_, hsto, hcpu, hpln, fun t0 hlast hk hlo hhi => ?_⟩
  · rw [htt, htor, ← hnow]
  · rw [htt, htor, ← hnow]
  · rw [htt, htor]; exact hfoundName
  · rw [htt, htor]; exact hnow
  have hintime := edgeFound_inTime hlast hhi
  rw [hintime] at htor
  have hcount := countEdge_next (s := { s with tor := { s.tor with named := none } }) hlast hk hlo hhi
  have htor' := htor
  rw [hcount] at htor'
  have hpps : ppsEdge s = acceptEdge k { s with tor := { s.tor with named := none } } := by rw [ppsEdge_named hn, hintime]
  refine ⟨by rw [htt, htor'], by rw [htt, htor'], fun hf => ?_, fun hf hheld => ?_⟩
  · rw [htt, hpps]
    exact acceptEdge_follower (s := { s with tor := { s.tor with named := none } }) hf
  · have hholds : (countEdge k { s with tor := { s.tor with named := none } }).tor.refHeld = true := by
      rw [hcount]
      simpa using hheld
    obtain ⟨hstate, hoff, hslew, hlive⟩ := acceptEdge_holder (s := { s with tor := { s.tor with named := none } }) hf hholds hwin
    rw [← hpps] at hstate hoff hslew hlive
    have hnear := edgeOffset_near k { s with tor := { s.tor with named := none } }
    refine ⟨fun h => ?_, fun h => ⟨?_, ?_⟩, ?_, ?_, fun j => ?_⟩
    · rw [htt, hstate, stateMeasured, if_pos (hnear.mpr h)]; rfl
    · rw [htt, hstate, stateMeasured, if_neg (fun e => h (hnear.mp e))]
    · rw [htt]; exact hslew fun e => h (hnear.mp e)
    · rw [htt, hoff]; rfl
    · rw [htt, htor']; exact if_neg (ne_true_of_eq_false hf)
    · rw [hflt, htt, hlive j, hstate]

/-- Settles O14. -/
theorem referenceInputsAcquire : Obligations.ReferenceInputsAcquire :=
  ⟨fun b _ hs hw => todFrame_command b hs hw, fun _ hs hw =>
    ⟨fun hr => if_neg (by simp [hr]), fun hr hn => ppsEdge_detects hs hw hr hn, fun _ hr hn hwin => ppsEdge_accepts hs hw hr hn hwin⟩⟩

/-! ### Loss of the reference -/

theorem refDue_of_unheld {s : State} (h : s.tor.refHeld = false) : refDue s = false := by simp [refDue, h]

theorem refDue_iff {t0 k : Nat} {s : State} (hh : s.tor.refHeld = true) (h : s.tor.lastEdge = some (t0, k)) :
    refDue s = true ↔ t0 + 4000080000 ≤ s.tor.tor := by
  have hlimit : refLimit = 4000080000 := rfl
  simp [refDue, hh, h, hlimit]

theorem exec_refLoss_due {s : State} (hw : powered s = true) (h : refDue s = true) : exec .refLoss s = done s (loseRef s) := if_pos (by simp [hw, h])

theorem exec_refLoss_early {s : State} (h : refDue s = false) : exec .refLoss s = .next s := if_neg (by simp [h])

/-- What a command that loses the reference leaves. -/
theorem done_loseRef {s : State} (hs : Safety.settled s) : ∃ t, done s (loseRef s) = .next t ∧ t.tor.refHeld = false ∧ t.tor.goodEdges = 0 ∧
    t.tor.tor = s.tor.tor ∧ t.sto = s.sto ∧ t.cpu = s.cpu ∧ t.pln = s.pln ∧
    (ownDisciplined s → t.tor.state = .holdover ∧ t.tor.holdStart = s.tor.tor ∧ tget 0 0x297 t.flt.live = sat16 (tget 0 0x297 s.flt.live)) ∧
    (¬ ownDisciplined s → t.tor.state = s.tor.state ∧ t.tor.holdStart = s.tor.holdStart ∧ t.flt = s.flt) := by
  obtain ⟨st, hold, h⟩ := loseRef_tor s
  obtain ⟨t, ht, htt, hflt, hsto, hcpu, hpln⟩ := done_tor hs (frame_loseRef s)
  refine ⟨t, ht, by rw [htt, h], by rw [htt, h], by rw [htt, h], hsto, hcpu, hpln, fun hd => ?_, fun hd => ?_⟩
  · rw [htt, hflt]
    exact loseRef_disciplined_leaves hd
  · rw [htt, hflt, loseRef_other hd]
    exact ⟨rfl, rfl, rfl⟩

/-! ### `TOR_CTL` (R76) -/

theorem exec_refDisable {v : View} {s : State} (hv : admin v s = true) (hw : powered s = true) (on : Bool) :
    exec (.refDisable v on) s = done s (setRefDisable on s) := if_pos (by simp [hv, hw])

/-- The inputs treated as unconnected. -/
def unconnected (s : State) : State := { s with tor := { s.tor with refDisable := true, named := none, edgeSeen := none } }

theorem setRefDisable_held {s : State} (h : s.tor.refHeld = true) : setRefDisable true s = loseRef (unconnected s) := if_pos h

theorem setRefDisable_unheld {s : State} (h : s.tor.refHeld = false) :
    setRefDisable true s = { unconnected s with tor := { (unconnected s).tor with goodEdges := 0 } } := if_neg (by simp [h])

/-- REF_DISABLE with a reference or without. -/
theorem refDisable_on {v : View} {s : State} (hs : Safety.settled s) (hv : admin v s = true) (hw : powered s = true) :
    ∃ t, exec (.refDisable v true) s = .next t ∧ t.tor.refDisable = true ∧ t.tor.refHeld = false ∧ t.tor.named = none ∧ t.tor.edgeSeen = none ∧
      t.tor.tor = s.tor.tor ∧ t.sto = s.sto ∧ t.cpu = s.cpu ∧
      (s.tor.refHeld = true → follows s = false → s.tor.state = .locked → t.tor.state = .holdover ∧ t.tor.holdStart = s.tor.tor) ∧
      (s.tor.refHeld = false → t.tor.state = s.tor.state ∧ t.flt = s.flt) := by
  have hput : Touches [.tor, .flt, .live] s (unconnected s) := (frame_timer s _ (by exact rfl)).mono (by decide)
  rw [exec_refDisable hv hw]
  cases hh : s.tor.refHeld with
  | true =>
    rw [setRefDisable_held hh]
    obtain ⟨st, hold, h⟩ := loseRef_tor (unconnected s)
    obtain ⟨t, ht, htt, hflt, hsto, hcpu, -⟩ := done_tor hs (hput.trans (frame_loseRef (unconnected s)))
    refine ⟨t, ht, by rw [htt, h]; rfl, by rw [htt, h], by rw [htt, h]; rfl, by rw [htt, h]; rfl, by rw [htt, h]; rfl, hsto, hcpu, fun _ hf hl => ?_, nofun⟩
    obtain ⟨hst, hstart, -⟩ := loseRef_disciplined_leaves (s := unconnected s) ⟨hf, .inl hl⟩
    rw [htt]
    exact ⟨hst, hstart⟩
  | false =>
    rw [setRefDisable_unheld hh]
    obtain ⟨t, ht, htt, hflt, hsto, hcpu, -⟩ := done_tor hs (hput.andThen (frame_timer (unconnected s) { (unconnected s).tor with goodEdges := 0 } rfl))
    exact ⟨t, ht, by rw [htt]; rfl, by rw [htt]; exact hh, by rw [htt]; rfl, by rw [htt]; rfl, by rw [htt]; rfl, hsto, hcpu, nofun,
      fun _ => ⟨by rw [htt]; rfl, hflt⟩⟩

/-! ### A master gone or gained, outside the start window -/

/-- TOR's block but for what is measured and for STATE. -/
def SameClock (s t : State) : Prop := ∃ off own st hold, t.tor = { s.tor with offset := off, slewOwn := own, state := st, holdStart := hold }

theorem SameClock.refl (s : State) : SameClock s s := ⟨_, _, _, _, rfl⟩

theorem SameClock.trans {s t u : State} (h : SameClock s t) (k : SameClock t u) : SameClock s u := by
  obtain ⟨_, _, _, _, h⟩ := h
  obtain ⟨off, own, st, hold, k⟩ := k
  exact ⟨off, own, st, hold, by rw [k, h]⟩

theorem sameClock_torSet (st : TorState) (s : State) : SameClock s (torSet st s) := ⟨s.tor.offset, s.tor.slewOwn, st, _, torSet_tor st s⟩

theorem sameClock_measured (own : Bool) (off : Int) {s : State} (hw : s.tor.window = false) : SameClock s (measured own off s) :=
  ⟨off, _, _, s.tor.holdStart, measured_tor own off hw⟩

theorem frame_freed (b : State) {s : State} (hw : s.tor.window = false) : Touches [.tor, .flt, .live] s (freed b s) ∧ SameClock s (freed b s) := by
  unfold freed
  split
  · split
    · exact ⟨frame_measured hw, sameClock_measured _ _ hw⟩
    · split
      · exact ⟨frame_torSet _ s, sameClock_torSet _ s⟩
      · exact ⟨.refl _ s, .refl s⟩
  · exact ⟨.refl _ s, .refl s⟩

theorem frame_bound (b s : State) : Touches [.tor, .flt, .live] s (bound b s) ∧ SameClock s (bound b s) := by
  unfold bound
  split
  · exact ⟨((frame_timer s _ (by exact rfl)).mono (by decide)).trans (frame_torSet _ _),
      SameClock.trans ⟨s.tor.offset, false, s.tor.state, s.tor.holdStart, rfl⟩ (sameClock_torSet .slewing _)⟩
  · exact ⟨.refl _ s, .refl s⟩

/-- FABRIC_DISABLE outside the start window: TOR and its reference are as they were. -/
theorem setFabricDisable_leaves (on : Bool) {s : State} (hw : s.tor.window = false) :
    Touches [.tor, .flt, .live, .out, .arm, .armLink, .chLink] s (setFabricDisable on s) ∧
    SameClock { s with tor := { s.tor with fabricDisable := on } } (setFabricDisable on s) := by
  unfold setFabricDisable
  split
  · next h => exact ⟨.refl _ s, ⟨s.tor.offset, s.tor.slewOwn, s.tor.state, s.tor.holdStart, by rw [← h]⟩⟩
  · dsimp only
    generalize ht : ({ s with tor := { s.tor with fabricDisable := on } } : State) = t
    have hput : Touches [.tor, .flt, .live] s t := ht ▸ (frame_timer s _ (by exact rfl)).mono (by decide)
    obtain ⟨hfreed, hfreedClock⟩ := frame_freed s (s := t) (ht ▸ hw)
    obtain ⟨hbound, hboundClock⟩ := frame_bound s (freed s t)
    have htold := frame_announceChange (bound s (freed s t))
    refine ⟨(((hput.trans hfreed).trans hbound).mono (by decide)).andThen htold, ?_⟩
    obtain ⟨off, own, st, hold, hclock⟩ := hfreedClock.trans hboundClock
    exact ⟨off, own, st, hold, (htold .tor (by decide)).trans hclock⟩

/-- A follower that FABRIC_DISABLE frees, without a reference of its own, enters TOR_HOLDOVER where the master disciplined it. -/
theorem setFabricDisable_frees {s : State} (hf : follows s = true) (hm : towardMaster s = true) (hr : s.tor.refHeld = false) :
    (setFabricDisable true s).tor.state = .holdover ∧ (setFabricDisable true s).tor.holdStart = s.tor.tor := by
  have hfab : s.tor.fabricDisable = false := by
    simp only [follows, Bool.and_eq_true, Bool.not_eq_true'] at hf
    exact hf.1
  have hne : s.tor.state ≠ .holdover := by
    rintro e
    simp [towardMaster, e] at hm
  generalize ht : ({ s with tor := { s.tor with fabricDisable := true } } : State) = t
  have hfree : follows t = false := by subst ht; simp [follows]
  have hfreed : freed s t = torSet .holdover t := by
    have hcond : follows s = true ∧ (!follows t) = true := ⟨hf, by rw [hfree]; rfl⟩
    have hunheld : t.tor.refHeld = false := ht ▸ hr
    rw [freed, if_pos (.inl hcond), hunheld]
    exact if_pos hm
  have hfollows : follows (torSet .holdover t) = false := by
    have hnode : (torSet .holdover t).arm.node = t.arm.node := frame_torSet .holdover t .node (by decide)
    rw [follows_congr (by rw [torSet_tor]) (by rw [torSet_tor]) hnode, hfree]
  have hbound : bound s (torSet .holdover t) = torSet .holdover t := if_neg (by simp [hfollows])
  have hset : setFabricDisable true s = announceChange (torSet .holdover t) := by
    rw [setFabricDisable, if_neg (by simp [hfab]), ← hbound, ← hfreed, ← ht]
  have htor : (setFabricDisable true s).tor = (torSet .holdover t).tor := by
    rw [hset]
    exact frame_announceChange _ .tor (by decide)
  have hstate : t.tor.state = s.tor.state := ht ▸ rfl
  rw [htor, torSet_tor, hstate]
  exact ⟨rfl, (if_pos ⟨rfl, hne⟩).trans (ht ▸ rfl)⟩

theorem exec_fabricDisable {v : View} {on : Bool} {s : State} (hv : admin v s = true) (hw : powered s = true)
    (hstep : (setFabricDisable on s).tor.step = s.tor.step) : exec (.fabricDisable v on) s = done s (setFabricDisable on s) := by
  refine (if_pos (by simp [hv, hw])).trans ?_
  rw [fireStep_of_unstepped hstep]

theorem fabricDisable_command {v : View} {on : Bool} {s : State} (hs : Safety.settled s) (hv : admin v s = true) (hw : powered s = true)
    (hwin : s.tor.window = false) : ∃ t, exec (.fabricDisable v on) s = .next t ∧ t.tor.fabricDisable = on ∧ t.tor.tor = s.tor.tor ∧
      t.tor.refHeld = s.tor.refHeld ∧ t.sto = s.sto ∧ t.cpu = s.cpu ∧ t.pln = s.pln ∧
      (on = true → follows s = true → towardMaster s = true → s.tor.refHeld = false → t.tor.state = .holdover ∧ t.tor.holdStart = s.tor.tor) := by
  obtain ⟨hframe, off, own, st, hold, hclock⟩ := setFabricDisable_leaves on hwin
  obtain ⟨t, ht, htold⟩ := done_told (b := s) ((hframe .due (by decide)).trans hs) (hframe .pending (by decide))
  have htor : t.tor = (setFabricDisable on s).tor := htold .tor (by decide)
  refine ⟨t, (exec_fabricDisable hv hw (by rw [hclock])).trans ht, by rw [htor, hclock], by rw [htor, hclock], by rw [htor, hclock],
    (htold .sto (by decide)).trans (hframe .sto (by decide)), (htold .cpu (by decide)).trans (hframe .cpu (by decide)),
    (htold .pln (by decide)).trans (hframe .pln (by decide)), fun hon hf hm hr => ?_⟩
  subst hon
  rw [htor]
  exact setFabricDisable_frees hf hm hr

/-- Settles O15. -/
theorem referenceLossAndTorControl : Obligations.ReferenceLossAndTorControl := by
  refine ⟨fun s hs hw => ⟨fun hh => exec_refLoss_early (refDue_of_unheld hh), fun t0 k hl hlt => ?_, fun t0 k hh hl hle => ?_⟩,
    fun v on s hs hw => ⟨fun hv => ⟨if_neg (by simp [hv]), if_neg (by simp [hv])⟩, fun hv => ⟨?_, refDisable_on hs hv hw, fun he => ?_,
      fun hwin => fabricDisable_command hs hv hw hwin⟩⟩⟩
  · refine exec_refLoss_early ?_
    cases hh : s.tor.refHeld with
    | false => exact refDue_of_unheld hh
    | true => rw [Bool.eq_false_iff, ne_eq, refDue_iff hh hl]; omega
  · obtain ⟨t, ht, h1, h2, h3, h4, h5, h6, hd, ho⟩ := done_loseRef hs
    exact ⟨t, (exec_refLoss_due hw ((refDue_iff hh hl).mpr hle)).trans ht, h1, h2, h3, h4, h5, h6, fun hf hst => hd ⟨hf, hst⟩, ho⟩
  · rw [exec_refDisable hv hw]
    exact done_quiet (hs : s.flt.due = []) rfl (sameReport_refl s)
  · have hset : setFabricDisable on s = s := if_pos he
    rw [exec_fabricDisable hv hw (by rw [hset]), hset]
    exact done_quiet hs rfl (sameReport_refl s)

end Sys2Proof.Machine
end

section
set_option Elab.async false
/-! PROOFS. Time exchanges and comparators (03 R65 to R73). -/

namespace Sys2Proof.Machine

/-! ### Time exchange -/

/-- The exchange as it leaves a port. -/
def exchanged (p : Nat) (s : State) : State :=
  mgtSend (.arm p) 8 (beBytes 8 s.tor.tor ++ beBytes 1 (torQuality { s with tor := { s.tor with exch := tset none p (some (s.tor.tor / exchTicks)) s.tor.exch } }))
    (emit (.timeExchange p) { s with tor := { s.tor with exch := tset none p (some (s.tor.tor / exchTicks)) s.tor.exch } })

theorem frame_exchanged (p : Nat) (s : State) : Touches [.tor, .out, .armLink, .chLink] s (exchanged p s) :=
  (((frame_timer s _ (by exact rfl)).mono (by decide)).andThen (frame_emit _ (.timeExchange p))).andThen (frame_mgtSend _ _ _ _)

theorem exchanged_tor (p : Nat) (s : State) : (exchanged p s).tor = { s.tor with exch := tset none p (some (s.tor.tor / exchTicks)) s.tor.exch } :=
  frame_mgtSend (emit (.timeExchange p) _) _ _ _ .tor (by decide)

theorem exchanged_out (p : Nat) (s : State) : Out.timeExchange p ∈ (exchanged p s).out :=
  (frame_mgtSend (emit (.timeExchange p) _) _ _ _ .said (by decide)).subset (by simp [emit])

/-- The present 250 µs has had its exchange. -/
theorem exchDue_of_exch {p : Nat} {s t : State} (he : t.tor.exch = tset none p (some (s.tor.tor / exchTicks)) s.tor.exch) (ht : t.tor.tor = s.tor.tor) :
    exchDue p t = false := by simp [exchDue, he, ht]

theorem exec_timeExchange {p : Nat} {s : State} (ho : operating s = true) (hp : p < 8) (ha : portActive (.arm p) s = true) (hd : exchDue p s = true)
    (offset : Int) (q : BitVec 2) (hstep : (timeExchange p offset q s).tor.step = s.tor.step) :
    exec (.timeExchange p offset q) s = done s (timeExchange p offset q s) := by
  refine (if_pos (by simp [ho, hp, ha, hd])).trans ?_
  rw [fireStep_of_unstepped hstep]

/-- What a follower takes from the master's exchange. -/
def takenFromMaster (p : Nat) (offset : Int) (q : BitVec 2) (s : State) : State :=
  measured false offset { exchanged p s with tor := { (exchanged p s).tor with masterQuality := q.toNat } }

theorem timeExchange_follower {p : Nat} {s : State} (h : follows (exchanged p s) = true) (offset : Int) (q : BitVec 2) : timeExchange p offset q s =
    { takenFromMaster p offset q s with tor := { (takenFromMaster p offset q s).tor with lastRef := (takenFromMaster p offset q s).tor.tor } } := if_pos h

theorem timeExchange_other {p : Nat} {s : State} (h : follows (exchanged p s) = false) (offset : Int) (q : BitVec 2) :
    timeExchange p offset q s = exchanged p s := if_neg (ne_true_of_eq_false h)

theorem follows_exchanged (p : Nat) (s : State) : follows (exchanged p s) = follows s :=
  follows_congr (by rw [exchanged_tor]) (by rw [exchanged_tor]) (frame_exchanged p s .node (by decide))

theorem timeExchange_command {p : Nat} {s : State} (hs : Safety.settled s) (ho : operating s = true) (hp : p < 8) (ha : portActive (.arm p) s = true)
    (hd : exchDue p s = true) (hwin : s.tor.window = false) (offset : Int) (q : BitVec 2) :
    ∃ t, exec (.timeExchange p offset q) s = .next t ∧ Out.timeExchange p ∈ t.out ∧ exchDue p t = false ∧ t.tor.tor = s.tor.tor ∧
      t.sto = s.sto ∧ t.cpu = s.cpu ∧ t.pln = s.pln ∧
      (follows s = true → t.tor.offset = offset ∧ t.tor.masterQuality = q.toNat ∧ t.tor.lastRef = s.tor.tor ∧
        (offset.natAbs ≤ 400 → t.tor.state = .fabric) ∧ (400 < offset.natAbs → t.tor.state = .slewing ∧ t.tor.slewOwn = false)) ∧
      (follows s = false → t.tor.state = s.tor.state ∧ t.tor.offset = s.tor.offset ∧ t.flt = s.flt) := by
  have hsent := (frame_exchanged p s).mono (rs := [.tor, .out, .armLink, .chLink, .flt, .live]) (by decide)
  cases hf : follows s with
  | true =>
    have hsend : (exchanged p s).tor.window = false := by rw [exchanged_tor]; exact hwin
    have hwin' : ({ exchanged p s with tor := { (exchanged p s).tor with masterQuality := q.toNat } } : State).tor.window = false := hsend
    have hmeasured := measured_tor false offset hwin'
    have hframe : Touches [.tor, .out, .armLink, .chLink, .flt, .live] s (timeExchange p offset q s) := by
      rw [timeExchange_follower ((follows_exchanged p s).trans hf)]
      exact ((hsent.andThen (frame_timer (exchanged p s) _ (by exact rfl))).andThen (frame_measured hwin')).andThen (frame_timer _ _ (by exact rfl))
    have htor : (timeExchange p offset q s).tor = { s.tor with
        exch := tset none p (some (s.tor.tor / exchTicks)) s.tor.exch, masterQuality := q.toNat, offset := offset,
        slewOwn := if offset.natAbs ≤ 400 then s.tor.slewOwn else false, state := stateMeasured false offset, lastRef := s.tor.tor } := by
      rw [timeExchange_follower ((follows_exchanged p s).trans hf)]
      unfold takenFromMaster
      rw [hmeasured]
      dsimp only
      rw [exchanged_tor]
    obtain ⟨t, ht, htold⟩ := done_told (b := s) ((hframe .due (by decide)).trans hs) (hframe .pending (by decide))
    have htt : t.tor = (timeExchange p offset q s).tor := htold .tor (by decide)
    rw [htor] at htt
    refine ⟨t, (exec_timeExchange ho hp ha hd offset q (by rw [htor])).trans ht, ?_, exchDue_of_exch (s := s) (by rw [htt]) (by rw [htt]), by rw [htt],
      (htold .sto (by decide)).trans (hframe .sto (by decide)), (htold .cpu (by decide)).trans (hframe .cpu (by decide)),
      (htold .pln (by decide)).trans (hframe .pln (by decide)), fun _ => ⟨by rw [htt], by rw [htt], by rw [htt], fun h => ?_, fun h => ⟨?_, ?_⟩⟩, nofun⟩
    · have hafter : Touches [.tor, .flt, .live] (exchanged p s) (timeExchange p offset q s) := by
        rw [timeExchange_follower ((follows_exchanged p s).trans hf)]
        exact (((frame_timer (exchanged p s) _ (by exact rfl)).mono (by decide)).andThen (frame_measured hwin')).andThen (frame_timer _ _ (by exact rfl))
      exact (htold .said (by decide)).subset ((hafter .said (by decide)).subset (exchanged_out p s))
    · rw [htt]; exact if_pos h
    · rw [htt]; exact if_neg (by omega)
    · rw [htt]; exact if_neg (by omega)
  | false =>
    have hsame : timeExchange p offset q s = exchanged p s := timeExchange_other ((follows_exchanged p s).trans hf) offset q
    have htor : (timeExchange p offset q s).tor = _ := (congrArg State.tor hsame).trans (exchanged_tor p s)
    have hframe : Touches [.tor, .out, .armLink, .chLink] s (timeExchange p offset q s) := hsame ▸ frame_exchanged p s
    obtain ⟨t, ht, htold⟩ := done_told (b := s) ((hframe .due (by decide)).trans hs) (hframe .pending (by decide))
    have htt : t.tor = (timeExchange p offset q s).tor := htold .tor (by decide)
    rw [htor] at htt
    refine ⟨t, (exec_timeExchange ho hp ha hd offset q (by rw [htor])).trans ht, ?_, exchDue_of_exch (s := s) (by rw [htt]) (by rw [htt]), by rw [htt],
      (htold .sto (by decide)).trans (hframe .sto (by decide)), (htold .cpu (by decide)).trans (hframe .cpu (by decide)),
      (htold .pln (by decide)).trans (hframe .pln (by decide)), nofun, fun _ => ⟨by rw [htt], by rw [htt],
      (htold .flt (by decide)).trans (hframe .flt (by decide))⟩⟩
    exact (htold .said (by decide)).subset (hsame ▸ exchanged_out p s)

/-! ### Comparators (R73) -/

theorem fld_low_testBit (w : Long) {n : Nat} (h : n < 4) : (fld w 3 0).testBit n = lbit w n := by
  simp only [fld, bits, Nat.shiftRight_zero, Nat.sub_zero, Nat.testBit_mod_two_pow, lbit]
  simp [h]
  rfl

theorem cmpDue_iff (l n : Nat) (s : State) :
    cmpDue l n s = true ↔ n < 4 ∧ lbit (coreOf l s).torctl n = true ∧ (cmpValue n (coreOf l s) s).toNat ≤ s.tor.tor := by
  simp only [cmpDue, Bool.and_eq_true, decide_eq_true_eq, and_assoc]
  exact and_congr_right fun h => by rw [fld_low_testBit _ h]

/-- PEND is set, ARM cleared, and every other bit as it was. -/
theorem fireCmp_bits {n : Nat} (hn : n < 4) (c : Core) : lbit (fireCmp n c).torctl (4 + n) = true ∧ lbit (fireCmp n c).torctl n = false ∧
    ∀ k, k ≠ n → k ≠ 4 + n → lbit (fireCmp n c).torctl k = lbit c.torctl k := by
  have hbit : ∀ m k, (BitVec.ofNat 64 (2 ^ m)).getLsbD k = (decide (k < 64) && decide (k = m)) := by
    intro m k
    rw [BitVec.getLsbD_ofNat, Nat.testBit_two_pow]
    simp [eq_comm]
  unfold fireCmp lbit
  simp only [BitVec.getLsbD_and, BitVec.getLsbD_or, BitVec.getLsbD_not, hbit]
  refine ⟨?_, ?_, fun k h1 h2 => ?_⟩
  · have : 4 + n < 64 := by omega
    simp [this]
  · simp
  · by_cases hk : k < 64
    · simp [h1, h2, hk]
    · simp [hk, BitVec.getLsbD_of_ge _ _ (Nat.le_of_not_lt hk)]

/-- A value written to an armed comparator is in force from the next tick. -/
theorem cmpValue_writeTorcmp {l n : Nat} {s : State} (hn : n < 4) (ha : lbit (coreOf l s).torctl n = true) (v : Long) (t : State) :
    cmpValue n (coreOf l (writeTorcmp l n v s)) t = if s.tor.tor = t.tor.tor then cmpValue n (coreOf l s) s else v := by
  have harmed : (fld (coreOf l s).torctl 3 0).testBit n = true := (fld_low_testBit _ hn).trans ha
  have hcore : coreOf l (writeTorcmp l n v s) = { coreOf l s with
      torPrev := tset none n (some (cmpValue n (coreOf l s) s, s.tor.tor)) (coreOf l s).torPrev, torcmp := tset 0 n v (coreOf l s).torcmp } := by
    rw [writeTorcmp, coreOf_modCore, if_pos rfl, harmed, if_pos rfl]
  rw [cmpValue, hcore]
  simp

/-- Settles O16. -/
theorem timeExchangeAndComparator : Obligations.TimeExchangeAndComparator := by
  refine ⟨fun p offset q s hs ho hp ha => ⟨fun hd => if_neg (by simp [hd]), fun hd hwin => timeExchange_command hs ho hp ha hd hwin offset q⟩,
    fun l n s hs ho hl => ⟨fun hn harm hreach => ?_, fun h => ?_, fun v hn harm => ⟨?_, fun t ht => ?_⟩⟩⟩
  · obtain ⟨hpend, harm', hrest⟩ := fireCmp_bits hn (coreOf l s)
    refine ⟨(fireCmp n (coreOf l s)).torctl, ?_, hpend, harm', hrest⟩
    refine (if_pos (by simp [ho, hl, (cmpDue_iff l n s).mpr ⟨hn, harm, hreach⟩])).trans ?_
    exact done_quiet (hs : s.flt.due = []) rfl (sameReport_refl s)
  · have hnot : cmpDue l n s = false := by
      rw [Bool.eq_false_iff]
      intro hdue
      obtain ⟨h1, h2, h3⟩ := (cmpDue_iff l n s).mp hdue
      rcases h with h | h | h
      · omega
      · simp [h] at h2
      · omega
    exact if_neg (by simp [hnot])
  · rw [cmpValue_writeTorcmp hn harm]
    exact if_pos rfl
  · rw [cmpValue_writeTorcmp hn harm]
    exact if_neg (fun e => ht e.symm)

end Sys2Proof.Machine
end

section
set_option Elab.async false
/-! PROOFS. The image commands and the end of verification (02 R36, R41, R44, R52). -/

namespace Sys2Proof.Machine

/-! ### Frames -/

theorem frame_plnResult (r : Nat) (s : State) : Touches [.pln, .plan, .out, .pf0] s (plnResult r s) :=
  ((frame_plan s _ (by exact rfl)).mono (by decide)).andThen (rs := [.pln, .plan, .out, .pf0]) (frame_pf0Vector _ 1)

theorem plnResult_pln (r : Nat) (s : State) : (plnResult r s).pln = { s.pln with result := r } := frame_pf0Vector _ 1 .pln (by decide)

theorem frame_modDram (n : Nat) (f : Dram → Dram) (s : State) : Touches [.dram, .failed] s (modDram n f s) := frame_dram s _

theorem frame_startTraining (speed : Nat) (s : State) : Touches [.dram, .failed] s (startTraining speed s) :=
  touches_foldl (fun u n => frame_modDram n _ u) _ s

theorem frame_recentreAll (low : List Nat) (s : State) : Touches [.dram, .failed, .flt, .live] s (recentreAll low s) := by
  refine touches_foldl (fun u n => touches_ite (fun _ => .refl _ u) fun _ => ?_) _ s
  have hmod : Touches [.dram, .failed, .flt, .live] u (modDram n (fun d => { d with lastRecentre := u.tor.tor }) u) := (frame_modDram n _ u).mono (by decide)
  exact hmod.trans (touches_ite (fun _ => ((frame_patina _ 0x29E).mono (by decide)).andThen (frame_logState _ _ _)) fun _ => .refl _ _)

theorem frame_quiesceQueues (ds : List PlnPart) (s : State) : Touches [.eng, .hp, .pf1, .arm] s (quiesceQueues ds s) :=
  touches_foldl (fun u _ => frame_disableOwnQueues u _ _) ds s

theorem frame_setTorFrom (m : PlnModule) (s : State) : Touches [.tor, .count] s (setTorFrom m s) :=
  touches_ite (fun _ => .refl _ s) fun _ => frame_tor s _

theorem frame_newRoutes (r : List PlnRoute) (s : State) : Touches [.pln, .plan, .arm, .routing] s (newRoutes r s) :=
  ((frame_plan s _ (by exact rfl)).mono (by decide)).andThen (rs := [.pln, .plan, .arm, .routing]) (frame_routing { s with pln := { s.pln with routes := r } } _ (by exact rfl) (by exact rfl))

theorem frame_setNeighbour (m : PlnModule) (s : State) : Touches [.dram, .failed] s (setNeighbour m s) := frame_dram s _

theorem frame_setNode (n : Option Nat) (s : State) : Touches [.arm, .node, .sto, .mem] s (setNode n s) := by
  have harm : ∀ x, Touches [.arm, .node, .sto, .mem] s { s with arm := { s.arm with node := n }, sto := x } := fun x =>
    (((frame_arm s { s.arm with node := n }).mono (by decide) : Touches [.fstate, .depart, .routing, .arm, .node, .sto, .mem] s _).holding rfl |>.holding rfl |>.holding rfl).andThen (frame_sto _ x)
  exact touches_ite (fun _ => by exact harm s.sto) fun _ => harm _

theorem frame_moduleEffect (i : PlnImage) (s : State) : Touches [.pln, .plan, .arm, .routing, .tor, .count, .dram, .failed, .node, .sto, .mem] s (moduleEffect i s) := by
  unfold moduleEffect
  split
  · exact .refl _ s
  · exact (((((frame_plan s _ (by exact rfl)).mono (by decide)).andThen (frame_newRoutes _ _)).andThen (frame_setTorFrom _ _)).andThen (frame_setNeighbour _ _)).trans
      (touches_ite (fun _ => (frame_setNode _ _).mono (by decide)) fun _ => .refl _ _)

/-- The MODULE section leaves the state of the image commands alone. -/
theorem moduleEffect_job (i : PlnImage) (s : State) : (moduleEffect i s).pln.state = s.pln.state ∧ (moduleEffect i s).pln.job = s.pln.job := by
  unfold moduleEffect
  split
  · exact ⟨rfl, rfl⟩
  next m _ =>
    have hset : (setNeighbour m (setTorFrom m (newRoutes (i.routes.getD []) { s with pln := { s.pln with module_ := some m } }))).pln =
        (newRoutes (i.routes.getD []) { s with pln := { s.pln with module_ := some m } }).pln :=
      (((frame_setTorFrom m _).mono (by decide)).andThen (rs := [.tor, .count, .dram, .failed]) (frame_setNeighbour m _)) .pln (by decide)
    have hnode : ∀ (c : Prop) [Decidable c] (u : State), (if c then setNode (some m.nodeId) u else u).pln = u.pln := fun c _ u =>
      (touches_ite (fun _ => frame_setNode _ u) fun _ => .refl _ u) .pln (by decide)
    rw [hnode, hset]
    exact ⟨rfl, rfl⟩

/-! ### Image commands -/

theorem exec_loadFull {v : View} {s : State} (ha : admin v s = true) (ho : operating s = true) : exec (.loadFull v) s = done s (plnCmd 1 s) := by
  show execLoadFull v s = _
  simp [execLoadFull, ha, ho]

theorem exec_loadPartial {v : View} {s : State} (ha : admin v s = true) (ho : operating s = true) : exec (.loadPartial v) s = done s (plnCmd 2 s) := by
  show execLoadPartial v s = _
  simp [execLoadPartial, ha, ho]

theorem exec_storeA {v : View} {s : State} (ha : admin v s = true) (ho : operating s = true) : exec (.storeA v) s = done s (plnCmd 3 s) := by
  show execStoreA v s = _
  simp [execStoreA, ha, ho]

theorem exec_storeB {v : View} {s : State} (ha : admin v s = true) (ho : operating s = true) : exec (.storeB v) s = done s (plnCmd 4 s) := by
  show execStoreB v s = _
  simp [execStoreB, ha, ho]

/-- The state with the staged bytes under check (02 R41). -/
def verifying (cmd : Nat) (s : State) : State :=
  { s with pln := { s.pln with state := .verifying, job := some { cmd := cmd, bytes := stagedBytes s, image := none, back := s.pln.state, stage := 0 } } }

/-- The state of the store allows an image command (02 R47, R51). -/
def cmdAllowed (cmd : Nat) (st : PlnState) : Bool :=
  (cmd == 1 && st == .noImage) || (cmd == 2 && st == .applied) || ((cmd == 3 || cmd == 4) && (st == .noImage || st == .applied))

theorem done_plnCmd_allowed {cmd : Nat} {s : State} (hs : Safety.settled s) (hj : s.pln.job = none) (hc : cmdAllowed cmd s.pln.state = true) :
    done s (plnCmd cmd s) = .next (verifying cmd s) := by
  have hcmd : plnCmd cmd s = verifying cmd s := by
    rw [cmdAllowed] at hc
    simp [plnCmd, hc, hj, verifying]
  rw [hcmd]
  exact done_framed (rs := [.pln, .plan]) (frame_plan s _ (by exact rfl)) hs

theorem done_plnResult {b s : State} {rs : List FrameReg} (h : Touches rs b s) (hs : Safety.settled b) (r : Nat)
    (hr : ∀ r ∈ [FrameReg.pending, .due, .tor, .dx, .fstate], r ∉ rs := by decide) : done b (plnResult r s) = .next (plnResult r s) := by
  have hres := frame_plnResult r s
  have hstep : Touches (rs ++ [.pln, .plan, .out, .pf0]) b (plnResult r s) :=
    (h.mono (List.subset_append_left _ _)).trans (hres.mono (List.subset_append_right _ _))
  refine done_framed hstep hs fun x hx hmem => ?_
  rcases List.mem_append.mp hmem with hmem | hmem
  · exact hr x hx hmem
  · exact absurd hmem ((by decide : ∀ y ∈ [FrameReg.pending, .due, .tor, .dx, .fstate], y ∉ [FrameReg.pln, .plan, .out, .pf0]) x hx)

theorem done_plnCmd_refused {cmd : Nat} {s : State} (hs : Safety.settled s) (hc : cmdAllowed cmd s.pln.state = false ∨ s.pln.job ≠ none) :
    ∃ t, done s (plnCmd cmd s) = .next t ∧ t.pln = { s.pln with result := 0x0C } ∧ t.sto = s.sto ∧ t.cpu = s.cpu := by
  have hcmd : plnCmd cmd s = plnResult 0x0C s := by
    rw [plnCmd]
    refine if_pos ?_
    rcases hc with hc | hc
    · rw [cmdAllowed] at hc
      simp [hc]
    · simp [Option.isSome_iff_ne_none.mpr hc]
  have hres := frame_plnResult 0x0C s
  rw [hcmd]
  exact ⟨_, done_plnResult (.refl [] s) hs _, plnResult_pln _ _, hres .sto (by decide), hres .cpu (by decide)⟩

theorem cmdAllowed_full {st : PlnState} : cmdAllowed 1 st = false ↔ st ≠ .noImage := by cases st <;> decide

theorem cmdAllowed_partial {st : PlnState} : cmdAllowed 2 st = false ↔ st ≠ .applied := by cases st <;> decide

theorem cmdAllowed_store {cmd : Nat} (h : cmd = 3 ∨ cmd = 4) {st : PlnState} : cmdAllowed cmd st = false ↔ st ≠ .noImage ∧ st ≠ .applied := by
  rcases h with rfl | rfl <;> cases st <;> decide

/-! ### The end of verification (R36, R41, R44, R45, R52) -/

theorem exec_plinthChecksComplete {flashOk : Bool} {s : State} (ho : operating s = true) (hv : s.pln.state = .verifying) (hn : checksNow s = true) :
    exec (.plinthChecksComplete flashOk) s = done s (checksComplete flashOk s) := by
  show execPlinthChecksComplete flashOk s = _
  simp [execPlinthChecksComplete, ho, hv, hn]

section
variable {s : State} {j : PlnJob} {flashOk : Bool}

theorem checksComplete_bad {r : Nat} (hj : s.pln.job = some j) (hc : checkImage (j.cmd == 2) j.bytes s = .inl r) :
    checksComplete flashOk s = jobOver j r s := by
  simp only [checksComplete, hj, hc]

theorem checksComplete_sound {i : PlnImage} (hj : s.pln.job = some j) (hc : checkImage (j.cmd == 2) j.bytes s = .inr i) :
    (j.cmd = 1 → checksComplete flashOk s = beginFull j i s) ∧
    (j.cmd = 2 → applyCheck i s ≠ 0 → checksComplete flashOk s = jobOver j (applyCheck i s) s) ∧
    (j.cmd = 2 → applyCheck i s = 0 → checksComplete flashOk s =
      quiesceQueues i.parts { s with pln := { s.pln with state := .applying, job := some { j with image := some i, stage := 5 } } }) ∧
    (j.cmd = 3 → checksComplete flashOk s = jobOver j (if flashOk then 0 else 0x0E)
      { s with pln := { s.pln with flashA := if flashOk then some j.bytes else s.pln.flashA, badA := !flashOk } }) ∧
    (j.cmd = 4 → checksComplete flashOk s = jobOver j (if flashOk then 0 else 0x0E)
      { s with pln := { s.pln with flashB := if flashOk then some j.bytes else s.pln.flashB, badB := !flashOk } }) := by
  simp only [checksComplete, hj, hc]
  refine ⟨fun h => if_pos h, fun h ha => ?_, fun h ha => ?_, fun h => ?_, fun h => ?_⟩
  · simp [h, ha]
  · simp [h, ha]
  · cases flashOk <;> simp [h]
  · cases flashOk <;> simp [h]

theorem jobOver_pln (j : PlnJob) (r : Nat) (s : State) : (jobOver j r s).pln = { s.pln with state := j.back, job := none, result := r } := plnResult_pln _ _

theorem frame_jobOver (j : PlnJob) (r : Nat) (s : State) : Touches [.pln, .plan, .out, .pf0] s (jobOver j r s) :=
  ((frame_plan s _ (by exact rfl)).mono (by decide)).trans (frame_plnResult r _)

theorem done_jobOver {b : State} (h : Touches [.pln, .plan] b s) (hs : Safety.settled b) (r : Nat) : ∃ t, done b (jobOver j r s) = .next t ∧
    t.pln = { s.pln with state := j.back, job := none, result := r } ∧ Touches [.pln, .plan, .out, .pf0] b t :=
  ⟨_, done_plnResult (h.trans (frame_plan s _ (by exact rfl))) hs r, jobOver_pln j r s, (h.mono (by decide)).trans (frame_jobOver j r s)⟩

/-- The first step of a full image: it takes no step of an event, no command and no core. -/
theorem frame_beginFull (j : PlnJob) (i : PlnImage) (s : State) :
    Touches [.pln, .plan, .arm, .routing, .tor, .count, .dram, .failed, .node, .sto, .mem, .eng, .hp, .pf1, .flt, .live] s (beginFull j i s) := by
  have hjob := (frame_plan s { s.pln with state := .applying, job := some { j with image := some i, stage := 2 } } rfl).mono
    (rs := [.pln, .plan, .arm, .routing, .tor, .count, .dram, .failed, .node, .sto, .mem, .eng, .hp, .pf1, .flt, .live]) (by decide)
  refine touches_ite (fun _ => hjob) fun _ => ?_
  have hmod := (hjob.andThen (frame_quiesceQueues i.parts _)).andThen (frame_moduleEffect i _)
  exact hmod.trans (touches_ite (fun _ => (frame_startTraining _ _).mono (by decide)) fun _ => (frame_recentreAll _ _).mono (by decide))

theorem beginFull_job (j : PlnJob) (i : PlnImage) (s : State) :
    (beginFull j i s).pln.state = .applying ∧ (beginFull j i s).pln.job = some { j with image := some i, stage := 2 } := by
  rw [beginFull]
  split
  · exact ⟨rfl, rfl⟩
  · dsimp only
    generalize hu : ({ s with pln := { s.pln with state := .applying, job := some { j with image := some i, stage := 2 } } } : State) = u
    have hpln : u.pln.state = .applying ∧ u.pln.job = some { j with image := some i, stage := 2 } := hu ▸ ⟨rfl, rfl⟩
    have hq : (quiesceQueues i.parts u).pln = u.pln := frame_quiesceQueues i.parts u .pln (by decide)
    have hlast : ∀ (c : Prop) [Decidable c] (n : Nat) (x : State), (if c then startTraining n x else recentreAll [] x).pln = x.pln := fun c _ n x =>
      (touches_ite (fun _ => (frame_startTraining n x).mono (by decide)) fun _ => frame_recentreAll [] x) .pln (by decide)
    rw [hlast, (moduleEffect_job i _).1, (moduleEffect_job i _).2, hq]
    exact hpln

end

/-- Settles O17: a command is one write of the image's block, or `plnResult`; the end of verification is `jobOver`, or the first step of APPLYING. -/
theorem imageCommandsVerifyAndEnd : Obligations.ImageCommandsVerifyAndEnd := by
  unfold Obligations.ImageCommandsVerifyAndEnd
  refine ⟨fun v s hs ha ho => ⟨fun hj => ⟨fun hst => ?_, fun hst => ?_, fun hst => ⟨?_, ?_⟩⟩, fun h => ?_, fun h => ?_, fun h c hc => ?_⟩, ?_⟩
  · rw [exec_loadFull ha ho, done_plnCmd_allowed hs hj (by rw [hst]; rfl), verifying, hst]
  · rw [exec_loadPartial ha ho, done_plnCmd_allowed hs hj (by rw [hst]; rfl), verifying, hst]
  · rw [exec_storeA ha ho, done_plnCmd_allowed hs hj (by rcases hst with h | h <;> rw [h] <;> rfl), verifying]
  · rw [exec_storeB ha ho, done_plnCmd_allowed hs hj (by rcases hst with h | h <;> rw [h] <;> rfl), verifying]
  · rw [exec_loadFull ha ho]
    exact done_plnCmd_refused hs (h.imp_left cmdAllowed_full.mpr)
  · rw [exec_loadPartial ha ho]
    exact done_plnCmd_refused hs (h.imp_left cmdAllowed_partial.mpr)
  · rcases hc with rfl | rfl
    · rw [exec_storeA ha ho]
      exact done_plnCmd_refused hs (h.imp_left (cmdAllowed_store (.inl rfl)).mpr)
    · rw [exec_storeB ha ho]
      exact done_plnCmd_refused hs (h.imp_left (cmdAllowed_store (.inr rfl)).mpr)
  · intro s j flashOk hs ho hv hj hn
    rw [exec_plinthChecksComplete ho hv hn]
    refine ⟨fun r hc => ?_, fun i hc => ?_⟩
    · rw [checksComplete_bad hj hc]
      obtain ⟨t, hdone, hpln, hrest⟩ := done_jobOver (j := j) (.refl _ s) hs r
      exact ⟨t, hdone, hpln, hrest .sto (by decide), hrest .cpu (by decide), hrest .arm (by decide), hrest .tor (by decide)⟩
    · obtain ⟨h1, h2bad, h2, h3, h4⟩ := checksComplete_sound (flashOk := flashOk) hj hc
      refine ⟨fun hcmd => ⟨?_, fun hphase => ?_⟩, fun hcmd => ⟨fun hok => ?_, fun hbad => ?_⟩, fun hcmd => ?_, fun hcmd => ?_⟩
      · rw [h1 hcmd]
        have hfull := frame_beginFull j i s
        have hdue : (beginFull j i s).flt.due = s.flt.due := hfull .due (by decide)
        obtain ⟨t, hdone, htold⟩ := done_told (hdue.trans hs) (hfull .pending (by decide))
        have hpln : t.pln = (beginFull j i s).pln := htold .pln (by decide)
        have hcpu : t.cpu = (beginFull j i s).cpu := htold .cpu (by decide)
        exact ⟨t, hdone, hpln ▸ (beginFull_job j i s).1, hpln ▸ (beginFull_job j i s).2, hcpu.trans (hfull .cpu (by decide))⟩
      · rw [h1 hcmd, beginFull, if_pos hphase]
        exact done_framed (frame_plan s _ (by exact rfl)) hs
      · rw [h2 hcmd hok]
        generalize hu : ({ s with pln := { s.pln with state := .applying, job := some { j with image := some i, stage := 5 } } } : State) = u
        have hframe : Touches [.pln, .plan] s u := hu ▸ frame_plan s _ rfl
        have hq := frame_quiesceQueues i.parts u
        have hall := (hframe.mono (by decide)).andThen (rs := [.pln, .plan, .eng, .hp, .pf1, .arm]) hq
        have hqdue : (quiesceQueues i.parts u).flt.due = s.flt.due := hall .due (by decide)
        obtain ⟨t, hdone, htold⟩ := done_told (hqdue.trans hs) (hall .pending (by decide))
        have hpln : t.pln = (quiesceQueues i.parts u).pln := htold .pln (by decide)
        have hqpln : (quiesceQueues i.parts u).pln = u.pln := hq .pln (by decide)
        have hsto : t.sto = (quiesceQueues i.parts u).sto := htold .sto (by decide)
        have hcpu : t.cpu = (quiesceQueues i.parts u).cpu := htold .cpu (by decide)
        exact ⟨t, hdone, hpln.trans (hqpln.trans (hu ▸ rfl)), hsto.trans (hall .sto (by decide)), hcpu.trans (hall .cpu (by decide))⟩
      · rw [h2bad hcmd hbad]
        obtain ⟨t, hdone, hpln, hrest⟩ := done_jobOver (j := j) (.refl _ s) hs (applyCheck i s)
        exact ⟨t, hdone, hpln, hrest .sto (by decide), hrest .cpu (by decide)⟩
      · rw [h3 hcmd]
        obtain ⟨t, hdone, hpln, hrest⟩ := done_jobOver (j := j)
          (frame_plan s { s.pln with flashA := if flashOk then some j.bytes else s.pln.flashA, badA := !flashOk } rfl) hs (if flashOk then 0 else 0x0E)
        exact ⟨t, hdone, hpln, hrest .sto (by decide), hrest .cpu (by decide)⟩
      · rw [h4 hcmd]
        obtain ⟨t, hdone, hpln, hrest⟩ := done_jobOver (j := j)
          (frame_plan s { s.pln with flashB := if flashOk then some j.bytes else s.pln.flashB, badB := !flashOk } rfl) hs (if flashOk then 0 else 0x0E)
        exact ⟨t, hdone, hpln, hrest .sto (by decide), hrest .cpu (by decide)⟩

end Sys2Proof.Machine
end

section
set_option Elab.async false
/-! PROOFS. Frames of storage traffic: caches, store buffers, the requests to other homes, and the loss of a core (10; 11; 14 R317 to R320; 20). -/

namespace Sys2Proof.Machine

/-- What sending a message of the fabric writes. -/
def msgRegs : List FrameReg := [.out, .armLink, .chLink, .flt, .live, .arm]

/-- What storage traffic writes. -/
def trafficRegs : List FrameReg := [.out, .pf0, .cpu, .core, .flt, .status, .live, .due, .sto, .mem, .arm, .armLink, .chLink, .free]

section
variable {s : State}

/-! ### Cores and caches -/

theorem frame_coreTraffic {l : Nat} {f : Core → Core} (ho : ∀ c, ownOf (f c) = ownOf c) (hr : ∀ c, c.resv = none → (f c).resv = none) :
    Touches trafficRegs s (modCore l f s) := (frame_modCore_keeps s l ho hr).mono (by decide)

/-- A change of fields of a core that storage traffic makes. -/
theorem frame_coreFields {l : Nat} {f : Core → Core} (ho : ∀ c, ownOf (f c) = ownOf c := by exact fun _ => rfl)
    (hr : ∀ c, (f c).resv = c.resv := by exact fun _ => rfl) : Touches trafficRegs s (modCore l f s) := frame_coreTraffic ho fun c h => (hr c).trans h

theorem frame_coresTraffic {p : Nat → Bool} {f : Core → Core} (ho : ∀ c, ownOf (f c) = ownOf c) (hr : ∀ c, c.resv = none → (f c).resv = none) :
    Touches trafficRegs s (onCores p f s) := (frame_onCores_keeps s p ho hr).mono (by decide)

theorem own_loseResv (ln : Nat) (c : Core) : ownOf (loseResv ln c) = ownOf c := by
  unfold loseResv
  split <;> rfl

theorem own_dropFromCore (ln : Nat) (c : Core) : ownOf (dropFromCore ln c) = ownOf c := by
  unfold dropFromCore
  split
  · exact own_loseResv ln c
  · rfl

theorem own_snoopOff (ln : Nat) (c : Core) : ownOf (snoopOff ln c) = ownOf c := by
  unfold snoopOff
  split <;> rfl

theorem own_foldl_loseResv (lines : List Nat) : ∀ c, ownOf (lines.foldl (fun c ln => loseResv ln c) c) = ownOf c := by
  induction lines with
  | nil => exact fun _ => rfl
  | cons ln lines ih => exact fun c => (ih _).trans (own_loseResv ln c)

theorem own_emptied (lines : List Nat) (c : Core) :
    ownOf { lines.foldl (fun c ln => loseResv ln c) c with l1i := [], l1d := [], l2 := [], held1 := [], held2 := [] } = ownOf c := by
  rw [← own_foldl_loseResv lines c]
  rfl

/-- A core whose line another takes. -/
theorem own_taken (ln : Nat) (c : Core) : ownOf (dropFromCore ln (loseResv ln c)) = ownOf c := (own_dropFromCore ln _).trans (own_loseResv ln c)

theorem frame_losingResv {p : Nat → Bool} (ln : Nat) : Touches trafficRegs s (onCores p (loseResv ln) s) :=
  frame_coresTraffic (own_loseResv ln) fun c => (coreKeeps_loseResv ln c).resv

theorem frame_dropping {p : Nat → Bool} (ln : Nat) : Touches trafficRegs s (onCores p (dropFromCore ln) s) :=
  frame_coresTraffic (own_dropFromCore ln) fun c => (coreKeeps_dropFromCore ln c).resv

theorem frame_freeTraffic {n : Nat} : Touches trafficRegs s { s with free := n } := (frame_free s n).mono (by decide)

/-- Fields of the cores' block that are neither a core nor of recast. -/
theorem frame_cpuFields (x : CoresS) (hc : x.core = s.cpu.core := by exact rfl) (hr : x.recState = s.cpu.recState := by exact rfl)
    (hs : x.slot = s.cpu.slot := by exact rfl) (hg : recastRegs { s with cpu := x } = recastRegs s := by exact rfl) : Touches trafficRegs s { s with cpu := x } :=
  (frame_cores s x (keeps_of_eq hg hr hs hc rfl rfl) fun k => by simp only [coreOf, hc]).mono (by decide)

theorem frame_armTraffic (x : Fabric) (hf : x.fstate = s.arm.fstate := by exact rfl) (hn : x.node = s.arm.node := by exact rfl)
    (hd : departOf x = departOf s.arm := by exact rfl) (hr : routingOf x = routingOf s.arm := by exact rfl) : Touches trafficRegs s { s with arm := x } :=
  (frame_fabric s x hf hn hd hr).mono (by decide)

theorem frame_stoTraffic (x : Storage) : Touches trafficRegs s { s with sto := x } := (frame_sto s x).mono (by decide)

theorem traffic_raisePart {code : Nat} (hc : code ≠ 0x10) {part : Option Nat} {detail : Nat} : Touches trafficRegs s (raisePart code part detail s) :=
  (frame_raisePart s hc part detail).mono (by decide)

theorem traffic_sliceUse {line : Nat} {part : Option Nat} : Touches trafficRegs s (sliceUse line part s) :=
  touches_ite (fun _ => .refl _ s) fun _ => frame_stoTraffic _

theorem traffic_setPoison {line : Nat} {v : Bool} : Touches trafficRegs s (setPoison line v s) := frame_stoTraffic _

theorem traffic_poisonLine {line : Nat} : Touches trafficRegs s (poisonLine line s) := (frame_poisonLine line s).mono (by decide)

theorem traffic_homeSet {a : Nat} {v : Byte} : Touches trafficRegs s (homeSet a v s) := by
  refine touches_ite (fun _ => frame_stoTraffic _) fun _ => ?_
  split
  · exact frame_armTraffic _
  · exact .refl _ s

theorem traffic_homeSetAll {data : List Byte} : ∀ {a : Nat} {s : State}, Touches trafficRegs s (homeSetAll a data s) := by
  induction data with
  | nil => exact .refl _ _
  | cons b t ih => exact traffic_homeSet.trans ih

theorem traffic_writeBackIf {p : Nat → DByte → Bool} : Touches trafficRegs s (writeBackIf p s) := by
  refine (touches_foldl (fun u e => ?_) _ s).trans (frame_cpuFields _)
  split
  · exact traffic_homeSet
  · exact .refl _ u

theorem traffic_discardIf {p : Nat → DByte → Bool} : Touches trafficRegs s (discardIf p s) := frame_cpuFields _

theorem traffic_writeBackLine {line : Nat} : Touches trafficRegs s (writeBackLine line s) :=
  (touches_ite (fun _ => traffic_sliceUse) fun _ => .refl _ s).trans traffic_writeBackIf

theorem traffic_sliceBack {p : Nat → DByte → Bool} : Touches trafficRegs s (sliceBack p s) := touches_foldl (fun _ _ => traffic_sliceUse) _ s

theorem traffic_snoopRead {l : Option Nat} {line : Nat} : Touches trafficRegs s (snoopRead l line s) :=
  touches_foldl (fun u _ => touches_ite (fun _ => .refl _ u) fun _ => frame_coreTraffic (own_snoopOff line) fun c => (coreKeeps_snoopOff line c).resv) _ s

theorem traffic_setWc {l : Nat} {x : WcBuf} {y : Option WcBuf} : Touches trafficRegs s (setWc l x y s) := frame_coreFields

theorem traffic_loseResvAll {l : Option Nat} {line : Nat} : Touches trafficRegs s (loseResvAll l line s) :=
  frame_losingResv line

theorem traffic_noteOld {who : Fetchers} {a : Nat} {old : List Byte} : Touches trafficRegs s (noteOld who a old s) :=
  touches_ite (fun _ => .refl _ s) fun _ => frame_cpuFields _

theorem traffic_evictHeld {l line : Nat} : Touches trafficRegs s (evictHeld l line s) := by
  have hput : ∀ (h : Option HeldLine) (u : State), Touches trafficRegs u
      (match h with | some x => if x.dirty then homeSetAll (line * 128) x.data (sliceUse line none u) else u | none => u) := by
    intro h u
    split
    · exact touches_ite (fun _ => traffic_sliceUse.trans traffic_homeSetAll) fun _ => .refl _ u
    · exact .refl _ u
  have hwhen : ∀ (c : Prop) [Decidable c] (h : Option HeldLine) (u : State), Touches trafficRegs u
      (if c then (match h with | some x => if x.dirty then homeSetAll (line * 128) x.data (sliceUse line none u) else u | none => u) else u) :=
    fun c _ h u => touches_ite (fun _ => hput h u) fun _ => .refl _ u
  exact ((hwhen _ _ s).trans (hwhen _ _ _)).trans frame_coreFields

theorem traffic_cleanLine {keep : Option Nat} {line : Nat} : Touches trafficRegs s (cleanLine keep line s) :=
  (traffic_writeBackLine.trans (touches_foldl (fun u _ => touches_ite (fun _ => .refl _ u) fun _ => traffic_evictHeld) _ _)).trans
    (frame_dropping line)

theorem traffic_heldStore {l a : Nat} {data : List Byte} : Touches trafficRegs s (heldStore l a data s) := frame_coreFields

theorem traffic_homeWriteKeep {keep : Option Nat} {who : Fetchers} {part : Option Nat} {a : Nat} {data : List Byte} :
    Touches trafficRegs s (homeWriteKeep keep who part a data s) := by
  have hlines : ∀ (xs : List Nat) (u : State), Touches trafficRegs u (xs.foldl (fun s ln =>
      let s := onCores (fun k => some k != keep) (loseResv ln) (cleanLine keep ln (sliceUse ln part s))
      if a ≤ ln * 128 ∧ ln * 128 + 128 ≤ a + data.length then setPoison ln false s else s) u) := fun xs u =>
    touches_foldl (fun u ln => ((traffic_sliceUse.trans traffic_cleanLine).trans (frame_losingResv ln)).trans
      (touches_ite (fun _ => traffic_setPoison) fun _ => .refl _ _)) xs u
  unfold homeWriteKeep
  dsimp only
  split
  · exact .refl _ s
  · split
    · exact traffic_raisePart (by decide)
    · have hstored := traffic_noteOld.trans (hlines (linesOf a data.length) (noteOld who a (cohBytes a data.length s) s))
      split
      · exact (hstored.trans traffic_heldStore).trans traffic_homeSetAll
      · exact hstored.trans traffic_homeSetAll

theorem traffic_homeWrite {who : Fetchers} {part : Option Nat} {a : Nat} {data : List Byte} : Touches trafficRegs s (homeWrite who part a data s) :=
  traffic_homeWriteKeep

/-! ### Messages and requests -/

theorem frame_forwardMsg {m : Msg} {via : Option Nat} : Touches msgRegs s (forwardMsg m via s) := by
  unfold forwardMsg
  split
  · exact (frame_patina s _).mono (by decide)
  · split
    · exact (frame_patina s _).mono (by decide)
    · exact ((frame_emit s _).mono (by decide)).andThen (frame_linkSendVia _ _ _ _ _)

theorem frame_armMsg (x : Fabric) (hf : x.fstate = s.arm.fstate := by exact rfl) (hn : x.node = s.arm.node := by exact rfl)
    (hd : departOf x = departOf s.arm := by exact rfl) (hr : routingOf x = routingOf s.arm := by exact rfl) : Touches msgRegs s { s with arm := x } :=
  (frame_fabric s x hf hn hd hr).mono (by decide)

theorem frame_sendMsg {dest kind tag addr : Nat} {body : List Byte} : Touches msgRegs s (sendMsg dest kind tag addr body s) := frame_forwardMsg

theorem frame_sendSnoop {holder line act : Nat} {req : Msg} : Touches msgRegs s (sendSnoop holder line act req s) := (frame_armMsg _).trans frame_sendMsg

theorem frame_setTxn {line : Nat} {t : Option HomeTxn} : Touches msgRegs s (setTxn line t s) := frame_armMsg _

/-- A fold that carries a state besides what it gathers. -/
theorem touches_foldl_on {rs : List FrameReg} {α β : Type} (g : β → State) {f : β → α → β} (hf : ∀ r x, Touches rs (g r) (g (f r x))) (xs : List α) :
    ∀ r, Touches rs (g r) (g (xs.foldl f r)) := by
  induction xs with
  | nil => exact fun r => .refl rs _
  | cons x xs ih => exact fun r => (hf r x).trans (ih _)

theorem frame_snoopHolders {line act holders : Nat} {req : Msg} {forRecall : Bool} : Touches msgRegs s (snoopHolders line act holders req forRecall s) :=
  (touches_foldl_on (fun r : List (Nat × Nat) × State => r.2) (fun _ _ => frame_sendSnoop) _ ([], s)).trans frame_setTxn

theorem frame_askHome {addr : Nat} {own : Bool} : Touches msgRegs s (askHome addr own s) := by
  unfold askHome
  dsimp only
  split
  · exact .refl _ s
  · split
    · exact .refl _ s
    · exact frame_snoopHolders

theorem frame_sendReq {kind addr : Nat} {body : List Byte} {who : Agent} {part : Option Nat} : Touches msgRegs s (sendReq kind addr body who part s) :=
  (frame_armMsg _).trans frame_forwardMsg

theorem frame_askRemote {addr : Nat} {own : Bool} {who : Agent} {part : Option Nat} : Touches msgRegs s (askRemote addr own who part s) :=
  touches_ite (fun _ => .refl _ s) fun _ => touches_ite (fun _ => touches_ite (fun _ => .refl _ s) fun _ => frame_sendReq) fun _ => frame_sendReq

theorem frame_askLine {addr : Nat} {own : Bool} {who : Agent} {part : Option Nat} : Touches msgRegs s (askLine addr own who part s) :=
  touches_ite (fun _ => frame_askHome) fun _ => frame_askRemote

theorem frame_releaseRemote {line : Nat} {who : Agent} {part : Option Nat} : Touches msgRegs s (releaseRemote line who part s) := by
  unfold releaseRemote
  split
  · exact .refl _ s
  · split
    · exact .refl _ s
    · exact (frame_armMsg { s.arm with rlines := tset none line none s.arm.rlines }).trans (touches_ite (fun _ => frame_sendReq) fun _ => .refl _ _)

theorem frame_queueReq {line : Nat} {m : Msg} : Touches msgRegs s (queueReq line m s) := frame_armMsg _

/-- What a message writes, storage traffic may write. -/
theorem traffic_of_msg {t : State} (h : Touches msgRegs s t) : Touches trafficRegs s t := h.mono (by decide)

/-! ### Fills and stores of a core -/

theorem traffic_evictL2 {l line : Nat} {part : Option Nat} : Touches trafficRegs s (evictL2 l line part s) :=
  (((traffic_sliceBack.trans traffic_writeBackIf).trans traffic_evictHeld).trans
    (frame_coreTraffic (own_taken line) fun c => ((coreKeeps_loseResv line c).trans (coreKeeps_dropFromCore line _)).resv)).trans (traffic_of_msg frame_releaseRemote)

theorem traffic_fillL2 {l line : Nat} {part : Option Nat} : Touches trafficRegs s (fillL2 l line part s) := by
  have hsnoop : Touches trafficRegs s (if cacheHas geoL2 line (coreOf l s).l2 then s else snoopRead (some l) line (sliceUse line part s)) :=
    touches_ite (fun _ => .refl _ s) fun _ => traffic_sliceUse.trans traffic_snoopRead
  unfold fillL2
  dsimp only
  split
  · exact (hsnoop.trans frame_coreFields).trans traffic_evictL2
  · exact hsnoop.trans frame_coreFields

theorem traffic_cacheFill {l line : Nat} {instr : Bool} {part : Option Nat} : Touches trafficRegs s (cacheFill l line instr part s) := by
  unfold cacheFill
  dsimp only
  refine touches_ite (fun _ => .refl _ s) fun _ => touches_ite (fun _ => ?_) fun _ => ?_
  · have hfill : Touches trafficRegs s (if cacheHas geoL1I line (coreOf l s).l1i then s
        else if l2On (coreOf l s) then fillL2 l line part s else snoopRead (some l) line (sliceUse line part s)) :=
      touches_ite (fun _ => .refl _ s) fun _ => touches_ite (fun _ => traffic_fillL2) fun _ => traffic_sliceUse.trans traffic_snoopRead
    split
    · exact (hfill.trans frame_coreFields).trans (touches_ite (fun _ => .refl _ _) fun _ => traffic_of_msg frame_releaseRemote)
    · exact hfill.trans frame_coreFields
  · exact (touches_ite (fun _ => .refl _ s) fun _ => traffic_fillL2).trans (touches_ite (fun _ => frame_coreFields) fun _ => .refl _ _)

theorem traffic_wcReleaseOne {l : Nat} {w : WcBuf} : Touches trafficRegs s (wcReleaseOne l w s) := by
  refine touches_ite (fun _ => .refl _ s) fun _ => touches_ite (fun _ => traffic_setWc) fun _ => touches_ite (fun _ => touches_ite (fun _ => ?_) fun _ => ?_) fun _ => ?_
  · exact (traffic_setWc.trans (touches_foldl (fun _ _ => traffic_homeWrite) _ _)).trans (touches_ite (fun _ => traffic_setPoison) fun _ => .refl _ _)
  · exact traffic_setWc.trans (traffic_of_msg frame_askHome)
  · exact (touches_foldl_on (fun r : List Nat × State => r.2) (fun _ _ => traffic_of_msg frame_sendReq) _ ([], s)).trans traffic_setWc

theorem traffic_wcStore {l : Nat} {e : SbEntry} : Touches trafficRegs s (wcStore l e s) := by
  unfold wcStore
  dsimp only
  have hroom : Touches trafficRegs s (match (coreOf l s).wc with
      | w :: _ => if (coreOf l s).wc.length < 4 then s else wcReleaseOne l w s
      | [] => s) := by
    split
    · exact touches_ite (fun _ => .refl _ s) fun _ => traffic_wcReleaseOne
    · exact .refl _ s
  split
  · exact ((touches_ite (fun _ => .refl _ s) fun _ => hroom.trans frame_coreFields).trans frame_coreFields).trans
      (touches_ite (fun _ => traffic_wcReleaseOne) fun _ => .refl _ _)
  · exact (touches_ite (fun _ => .refl _ s) fun _ => hroom.trans frame_coreFields).trans frame_coreFields

theorem traffic_wbStore {l a : Nat} {who : Fetchers} {data : List Byte} : Touches trafficRegs s (wbStore l who a data s) := by
  unfold wbStore
  dsimp only
  split
  · refine frame_coreTraffic (fun c => ?_) fun c => ?_
    · split <;> rfl
    · split <;> exact id
  · have hold := (traffic_noteOld (s := s) (who := who) (a := a) (old := cohBytes a data.length s)).trans
      (traffic_writeBackIf (p := fun b d => lineOf b == lineOf a && d.core != l))
    have hothers := (hold.trans (frame_dropping (p := fun k => k != l) (lineOf a))).trans
      (traffic_loseResvAll (l := some l) (line := lineOf a))
    exact ((hothers.trans (frame_coreTraffic (own_snoopOff (lineOf a)) fun c => (coreKeeps_snoopOff (lineOf a) c).resv)).trans traffic_cacheFill).trans
      (touches_foldl (fun _ _ => frame_cpuFields _) _ _)

theorem traffic_wtRemote {l : Nat} {e : SbEntry} : Touches trafficRegs s (wtRemote l e s) := by
  have hhome : ∀ u, Touches trafficRegs u (match tget none (lineOf e.addr) u.arm.rlines with
      | some r => if anyHolds (lineOf e.addr) u then sendReq 6 (lineOf e.addr * 128) (4 :: dataBody r.data r.poison) (.core l) (partOfCore l s) u
        else releaseRemote (lineOf e.addr) (.core l) (partOfCore l s) u
      | none => u) := by
    intro u
    split
    · exact touches_ite (fun _ => traffic_of_msg frame_sendReq) fun _ => traffic_of_msg frame_releaseRemote
    · exact .refl _ u
  have hold := (traffic_writeBackLine (s := s) (line := lineOf e.addr)).trans
    (traffic_noteOld (who := e.fetchers l) (a := e.addr) (old := cohBytes e.addr e.data.length s))
  have hothers := hold.trans (frame_coresTraffic (p := fun k => k != l) (own_taken (lineOf e.addr))
    fun c => ((coreKeeps_loseResv (lineOf e.addr) c).trans (coreKeeps_dropFromCore (lineOf e.addr) _)).resv)
  have hput := (hothers.trans (traffic_heldStore (l := l) (a := e.addr) (data := e.data))).trans (traffic_homeSetAll (a := e.addr) (data := e.data))
  exact (hput.trans (touches_ite (fun _ => traffic_poisonLine) fun _ => .refl _ _)).trans (hhome _)

theorem traffic_sysStore {l : Nat} {e : SbEntry} : Touches trafficRegs s (sysStore l e s) := by
  have hmark : ∀ u, Touches trafficRegs u (if e.bad then poisonLine (lineOf e.addr) (writeBackLine (lineOf e.addr) u) else u) := fun u =>
    touches_ite (fun _ => traffic_writeBackLine.trans traffic_poisonLine) fun _ => .refl _ u
  unfold sysStore
  dsimp only
  exact touches_ite (fun _ => traffic_wcStore) fun _ => touches_ite (fun _ => traffic_homeWriteKeep) fun _ =>
    touches_ite (fun _ => traffic_wbStore.trans (hmark _)) fun _ => touches_ite (fun _ => traffic_homeWriteKeep.trans (hmark _)) fun _ => traffic_wtRemote

theorem traffic_askStore {l i : Nat} {e : SbEntry} : Touches trafficRegs s (askStore l i e s) := by
  unfold askStore
  dsimp only
  refine touches_ite (fun _ => ?_) fun _ => touches_ite (fun _ => traffic_of_msg frame_askLine) fun _ => touches_ite (fun _ => traffic_of_msg frame_askHome) fun _ =>
    touches_ite (fun _ => .refl _ s) fun _ => (traffic_of_msg frame_sendReq).trans frame_coreFields
  split
  · exact traffic_wcReleaseOne
  · exact .refl _ s

theorem traffic_finishEntry {l i : Nat} : Touches trafficRegs s (finishEntry l i s) := by
  unfold finishEntry
  split
  · exact .refl _ s
  · exact touches_ite (fun _ => Touches.trans frame_coreFields traffic_sysStore) fun _ => traffic_askStore

theorem traffic_flushStaged {l : Nat} : Touches trafficRegs s (flushStaged l s) := by
  refine touches_foldl (fun u _ => ?_) _ s
  split
  · exact touches_ite (fun _ => traffic_finishEntry) fun _ => .refl _ u
  · exact .refl _ u

theorem traffic_stageEntry {l i : Nat} : Touches trafficRegs s (stageEntry l i s) := by
  unfold stageEntry
  split
  · exact .refl _ s
  · dsimp only
    exact touches_ite (fun _ => .refl _ s) fun _ => (((frame_cpuFields { s.cpu with clusterSeq := s.cpu.clusterSeq + 1 }).trans traffic_noteOld).trans
      (frame_losingResv _)).trans frame_coreFields

theorem traffic_drainCluster {l : Nat} : Touches trafficRegs s (drainCluster l s) :=
  touches_foldl (fun u _ => touches_ite (fun _ => traffic_stageEntry) fun _ => .refl _ u) _ s

theorem traffic_wcRelease {l : Nat} : Touches trafficRegs s (wcRelease l s) := touches_foldl (fun _ _ => traffic_wcReleaseOne) _ s

theorem traffic_moveDirect {l : Nat} (n : Nat) : ∀ {i : Nat} {s : State}, Touches trafficRegs s (moveDirect l n i s) := by
  induction n with
  | zero => exact .refl _ _
  | succ n ih =>
    intro i s
    unfold moveDirect
    split
    · exact .refl _ s
    · exact (touches_ite (fun _ => traffic_finishEntry) fun _ => .refl _ s).trans ih

theorem traffic_drainRounds {l : Nat} (n : Nat) : ∀ {s : State}, Touches trafficRegs s (drainRounds l n s) := by
  induction n with
  | zero => exact .refl _ _
  | succ n ih =>
    intro s
    exact touches_ite (fun _ => .refl _ s) fun _ =>
      (((traffic_drainCluster.trans traffic_flushStaged).trans (traffic_moveDirect _)).trans traffic_wcRelease).trans ih

theorem traffic_drainSystem {l : Nat} : Touches trafficRegs s (drainSystem l s) := traffic_drainRounds _

theorem traffic_wbInvCore {l : Nat} : Touches trafficRegs s (wbInvCore l s) :=
  ((((traffic_sliceBack.trans traffic_writeBackIf).trans (touches_foldl (fun _ _ => traffic_evictHeld) _ _)).trans
    (frame_coreTraffic (own_emptied _) fun c => (coreKeeps_emptied _ c).resv))).trans (touches_foldl (fun _ _ => traffic_of_msg frame_releaseRemote) _ _)

/-! ### Writes of agents -/

theorem traffic_poisonWrite {who : Agent} {part : Option Nat} {x : Nat} : Touches trafficRegs s (poisonWrite who part x s) :=
  touches_ite (fun _ => traffic_of_msg frame_sendReq) fun _ => touches_ite (fun _ => traffic_raisePart (by decide)) fun _ =>
    traffic_cleanLine.trans traffic_setPoison

theorem traffic_homeDefer {who : Agent} {part : Option Nat} {a : Nat} {data : List Byte} : Touches trafficRegs s (homeDefer who part a data s) :=
  touches_foldl (fun u _ => traffic_of_msg ((frame_armMsg (s := u) _).trans (frame_askHome.trans frame_queueReq))) _ s

theorem traffic_agentWrite {who : Agent} {part : Option Nat} {a : Nat} {data : List Byte} : Touches trafficRegs s (agentWrite who part a data s) :=
  touches_ite (fun _ => traffic_homeDefer) fun _ => traffic_homeWrite

theorem traffic_remoteWrite {who : Agent} {part : Option Nat} {x : Nat} {data : List Byte} : Touches trafficRegs s (remoteWrite who part x data s) :=
  touches_ite (fun _ => (((traffic_cleanLine.trans traffic_noteOld).trans (frame_losingResv _)).trans
    traffic_homeSetAll).trans (traffic_of_msg frame_releaseRemote)) fun _ => traffic_of_msg frame_sendReq

theorem traffic_agentStore {w : LateWrite} : Touches trafficRegs s (agentStore w s) :=
  touches_ite (fun _ => traffic_poisonWrite) fun _ => touches_ite (fun _ => traffic_agentWrite) fun _ => traffic_remoteWrite

theorem traffic_agentPut {w : LateWrite} : Touches trafficRegs s (agentPut w s) := touches_ite (fun _ => frame_armTraffic _) fun _ => traffic_agentStore

theorem traffic_partWrite {who : Agent} {p a : Nat} {data : List Byte} : Touches trafficRegs s (partWrite who p a data s) := by
  refine touches_foldl (fun u q => ?_) _ s
  split
  · exact traffic_agentPut
  · exact .refl _ u

/-! ### Reads of agents -/

theorem traffic_dropGot {who : Agent} {p : Nat → Bool} : Touches trafficRegs s (dropGot who p s) := frame_armTraffic _

theorem traffic_agentSeen {who : Agent} {part : Option Nat} {attr a n : Nat} : Touches trafficRegs s (agentSeen who part attr a n s) :=
  touches_ite (fun _ => .refl _ s) fun _ => touches_ite (fun _ => traffic_dropGot) fun _ => touches_ite (fun _ => traffic_raisePart (by decide)) fun _ =>
    touches_foldl (fun u _ => (touches_ite (fun _ => traffic_cleanLine) fun _ => .refl _ u).trans
      ((traffic_sliceUse.trans traffic_snoopRead).trans (traffic_of_msg frame_releaseRemote))) _ s

theorem traffic_partSeenAs {least : Nat} {who : Agent} {p a n : Nat} : Touches trafficRegs s (partSeenAs least who p a n s) := by
  refine touches_foldl (fun u q => ?_) _ s
  split
  · exact traffic_agentSeen
  · exact .refl _ u

theorem traffic_partSeen {who : Agent} {p a n : Nat} : Touches trafficRegs s (partSeen who p a n s) := traffic_partSeenAs

theorem frame_agentAsk {who : Agent} {part : Option Nat} {attr a : Nat} : Touches msgRegs s (agentAsk who part attr a s) :=
  touches_ite (fun _ => .refl _ s) fun _ => touches_ite (fun _ => frame_askLine) fun _ => touches_ite (fun _ => .refl _ s) fun _ =>
    (frame_armMsg _).trans frame_sendReq

theorem frame_askMissing {who : Agent} {p : Nat} {xs : List (Nat × Nat)} : Touches msgRegs s (askMissing who p xs s) :=
  touches_foldl (fun _ _ => frame_agentAsk) xs s

end

end Sys2Proof.Machine
end

section
set_option Elab.async false
/-! PROOFS. Frames of channel programs, engines and their queues (15; 16; 17; 19). -/

namespace Sys2Proof.Machine

/-- What a transition of an operation and its frames to the device write: no storage, no core, no source's status. -/
def opRegs : List FrameReg := [.out, .armLink, .chLink, .flt, .live, .arm, .ch, .jnl, .journal, .offers, .free]

/-- What the channel processors and engines write. -/
def runRegs : List FrameReg := [.out, .pf0, .cpu, .core, .flt, .status, .live, .due, .sto, .mem, .arm, .armLink, .chLink, .free, .ch, .jnl, .journal, .offers,
  .eng, .hp, .pf1, .tr]

section
variable {s : State} {i : Nat}

theorem run_of_traffic {t : State} (h : Touches trafficRegs s t) : Touches runRegs s t := h.mono (by decide)

theorem run_of_op {t : State} (h : Touches opRegs s t) : Touches runRegs s t := h.mono (by decide)

theorem run_of_msg {t : State} (h : Touches msgRegs s t) : Touches runRegs s t := h.mono (by decide)

theorem op_of_msg {t : State} (h : Touches msgRegs s t) : Touches opRegs s t := h.mono (by decide)

theorem op_of_send {t : State} (h : Touches sendRegs s t) : Touches opRegs s t := h.mono (by decide)

theorem run_raise {code : Nat} (hc : code ≠ 0x10) {src : Nat} {part : Option Nat} {detail : Nat} : Touches runRegs s (raise src code part detail s) :=
  (frame_raise s hc src part detail).mono (by decide)

/-! ### Operations and their transitions -/

theorem op_setOp {o : Option ChOp} : Touches opRegs s (setOp i o s) := (frame_ch s _).mono (by decide)

theorem op_modOp {f : ChOp → ChOp} : Touches opRegs s (modOp i f s) := by
  unfold modOp
  split
  · exact op_setOp
  · exact .refl _ s

theorem op_opWait {w : OpWait} : Touches opRegs s (opWait i w s) := op_modOp

theorem op_modCur {f : DevOrd → DevOrd} : Touches opRegs s (modCur i f s) := op_modOp

theorem op_setLast {x : LastOp} : Touches opRegs s (setLast i x s) := (frame_ch s _).mono (by decide)

theorem op_setJent {e : JEntry} : Touches opRegs s (setJent i e s) := (frame_jnlFields s (setJent i e s).jnl rfl).mono (by decide)

theorem op_offers {x : List Offer} : Touches opRegs s { s with offers := x } := (frame_offers s x).mono (by decide)

theorem op_free {n : Nat} : Touches opRegs s { s with free := n } := (frame_free s n).mono (by decide)

theorem op_sendCtl {n : Nat} {f : List Byte} : Touches opRegs s (sendCtl n f s) :=
  op_of_send (((frame_emit s _).mono (by decide)).trans (frame_linkSendVia _ _ _ _ _))

theorem op_sendMirror {t : Nat} {sync : Bool} {core : Option Nat} {e : JEntry} : Touches opRegs s (sendMirror i t sync core e s) :=
  (((frame_fabric s { s.arm with nextTag := (s.arm.nextTag + 1) % 65536 } rfl rfl).mono (by decide)).trans
    ((frame_jnlFields _ _ (by exact rfl)).mono (by decide))).trans (op_of_msg frame_sendMsg)

theorem op_jnlTrans {t : Nat} {core : Option Nat} {f : JEntry → JEntry} : Touches opRegs s (jnlTrans i t core f s) :=
  op_setJent.trans (touches_ite (fun _ => op_sendMirror) fun _ => .refl _ _)

theorem op_opTrans {t : Nat} {f : JEntry → JEntry} : Touches opRegs s (opTrans i t f s) := by
  unfold opTrans
  split
  · exact .refl _ s
  · exact op_jnlTrans

theorem op_sendOpen {n : Nat} : Touches opRegs s (sendOpen i n s) := by
  unfold sendOpen
  split
  · exact .refl _ s
  · exact (op_sendCtl.trans op_setOp).trans (touches_ite (fun _ => op_opTrans) fun _ => touches_ite (fun _ => .refl _ _) fun _ => op_opTrans)

theorem op_dropData {n flow : Nat} : Touches opRegs s (dropData n flow s) :=
  (frame_setSent s (.ch n) (by exact sameLink_of rfl rfl)).mono (by decide)

theorem op_sendHalt : Touches opRegs s (sendHalt i s) := by
  unfold sendHalt
  split
  · exact .refl _ s
  · split
    · exact .refl _ s
    · exact (op_dropData.trans op_setOp).trans op_sendCtl

theorem op_drawBelow {n : Nat} : Touches opRegs s (drawBelow n s).2 := op_free

theorem op_fit32 {n : Nat} : Touches opRegs s (fit32 n s).2 := by
  unfold fit32
  split
  · exact .refl _ s
  · exact op_free

theorem op_chNotify {a : Nat} : Touches opRegs s (chNotify i a s) :=
  touches_ite (fun _ => .refl _ s) fun _ => op_modOp.trans (touches_ite (fun _ => .refl _ _) fun _ => op_offers)

theorem op_sendOrder : Touches opRegs s (sendOrder i s) := by
  have hcount : ∀ (c : Prop) [Decidable c] (n : Nat), Touches opRegs s (if c then (0xFFFFFFFF, s) else fit32 n s).2 := by
    intro c _ n
    split
    · exact .refl _ s
    · exact op_fit32
  unfold sendOrder
  split
  · exact .refl _ s
  · split
    · exact (((hcount _ _).trans op_setOp).trans op_sendCtl).trans (touches_ite (fun _ => op_modCur.trans op_chNotify) fun _ => .refl _ _)
    · exact .refl _ s

theorem op_chReopen : Touches opRegs s (chReopen i s) := by
  unfold chReopen
  split
  · exact .refl _ s
  · refine touches_ite (fun _ => .refl _ s) fun _ => ?_
    split
    · exact .refl _ s
    · exact op_sendOpen.trans (touches_ite (fun _ => op_sendHalt) fun _ =>
        (touches_ite (fun _ => op_opWait) fun _ => .refl _ _).trans (touches_ite (fun _ => op_sendOrder) fun _ => .refl _ _))

theorem op_dropOffers : Touches opRegs s (dropOffers i s) := op_offers

theorem op_offerFinal : Touches opRegs s (offerFinal i s) := op_dropOffers.trans (touches_ite (fun _ => .refl _ _) fun _ => op_offers)

theorem op_sendAck {n origin seq ordinal : Nat} : Touches opRegs s (sendAck n origin i seq ordinal s) := op_sendCtl

theorem op_dropGot {who : Agent} {p : Nat → Bool} : Touches opRegs s (dropGot who p s) := (frame_dropGot s who p).mono (by decide)

theorem op_chFinal {v : EndVals} : Touches opRegs s (chFinal i v s) := by
  unfold chFinal
  split
  · exact .refl _ s
  next o _ =>
    have hdrop : Touches opRegs s (match o.port with | some n => dropData n i s | none => s) := by
      split
      · exact op_dropData
      · exact .refl _ s
    dsimp only
    have hend := fun (t : Nat) (f : JEntry → JEntry) (x : LastOp) =>
      (((((hdrop.trans (op_jnlTrans (i := i) (t := t) (core := none) (f := f))).trans (op_setLast (i := i) (x := x))).trans
        (op_setOp (i := i) (o := none))).trans (op_dropGot (who := .subch i) (p := fun _ => true))).trans (op_offerFinal (i := i)))
    split
    · exact (hend _ _ _).trans (touches_ite (fun _ => op_sendAck) fun _ => .refl _ _)
    · exact hend _ _ _

theorem op_endDue : Touches opRegs s (endDue i s) := by
  unfold endDue
  split
  · split
    · exact touches_ite (fun _ => .refl _ s) fun _ => op_chFinal
    · exact .refl _ s
  · exact .refl _ s

theorem op_beginHalt : Touches opRegs s (beginHalt i s) := op_modOp.trans op_sendHalt

theorem op_chEnd {v : EndVals} : Touches opRegs s (chEnd i v s) := touches_ite (fun _ => op_modOp) fun _ => op_chFinal

theorem op_chCheck {code a engine : Nat} : Touches opRegs s (chCheck i code a engine s) := by
  unfold chCheck
  split
  · exact .refl _ s
  · exact touches_ite (fun _ => op_setOp.trans op_beginHalt) fun _ => op_chEnd

theorem op_settleHalt : Touches opRegs s (settleHalt i s) :=
  (op_modOp.trans op_opTrans).trans (touches_ite (fun _ => op_sendHalt) fun _ => op_chReopen)

theorem op_chSuspend : Touches opRegs s (chSuspend i s) := touches_ite (fun _ => .refl _ s) fun _ => op_opTrans

theorem op_progEnd {a : Nat} : Touches opRegs s (progEnd i a s) := by
  unfold progEnd
  split
  · exact .refl _ s
  · exact op_chEnd

theorem op_orderNext {r : Order} : Touches opRegs s (orderNext i r s) := touches_ite (fun _ => op_modOp) fun _ => op_progEnd

theorem op_chRelease : Touches opRegs s (chRelease i s) := by
  unfold chRelease
  split
  · exact .refl _ s
  · exact op_setOp.trans op_opTrans

theorem op_lineTaken {k : Nat} : Touches opRegs s (lineTaken i k s) := op_modOp

theorem op_clearLine : Touches opRegs s (clearLine i s) := op_modOp

theorem op_lineDone {k status : Nat} {out : List Byte} : Touches opRegs s (lineDone i k status out s) := op_modOp

theorem op_emit {o : Out} : Touches opRegs s (emit o s) := (frame_emit s o).mono (by decide)

theorem op_emits {os : List Out} : Touches opRegs s (emits os s) := (frame_emits s os).mono (by decide)

theorem op_sendDataFrames {n flow prio : Nat} {fs : List (List Byte)} : Touches opRegs s (sendDataFrames n flow prio fs s) :=
  (op_emits.trans ((frame_setSent _ (.ch n) (by exact sameLink_of rfl rfl)).mono (by decide))).trans (op_of_send (frame_txDrain _ _ _))

theorem op_pushData {fin : Bool} {data : List Byte} : Touches opRegs s (pushData i fin data s) := by
  unfold pushData
  split
  · exact .refl _ s
  · split
    · exact .refl _ s
    · exact op_sendDataFrames

theorem op_chBegin {upto : Nat} : Touches opRegs s (chBegin i upto s) := by
  unfold chBegin
  split
  · exact .refl _ s
  · split
    · exact .refl _ s
    · exact (touches_foldl_on (fun r : Nat × State => r.2) (fun r _ => touches_ite (fun _ => op_chNotify) fun _ => .refl _ _) _ (0, s)).trans op_modOp

theorem op_orderResid {d : DevOrd} {r : Nat} : Touches opRegs s (orderResid d r s).2.2 := by
  unfold orderResid
  split
  · exact op_fit32
  · split
    · exact op_free
    · exact op_fit32

theorem op_drawBytes (n : Nat) : ∀ {s : State}, Touches opRegs s (drawBytes s n).2 := by
  induction n with
  | zero => exact .refl _ _
  | succ n ih => exact fun {s} => (op_free (s := s) (n := s.free + 1)).trans ih

/-! ### Queues and records -/

theorem run_setRasp {k : Nat} {v : RaspEng} : Touches runRegs s (setRasp k v s) := (frame_eng s _).mono (by decide)

theorem run_setInt {k : Nat} {v : IntEng} : Touches runRegs s (setInt k v s) := (frame_eng s _).mono (by decide)

theorem run_setKeySlot {v : Option KeySlot} : Touches runRegs s (setKeySlot i v s) := (frame_eng s _).mono (by decide)

theorem run_setQueue {b : QBlock} {q : Nat} {v : Queue} : Touches runRegs s (setQueue b q v s) := (frame_setQueue s b q v).mono (by decide)

theorem run_modQueue {b : QBlock} {q : Nat} {f : Queue → Queue} : Touches runRegs s (modQueue b q f s) := run_setQueue

theorem run_pf1 {f : HostFn} : Touches runRegs s { s with pf1 := f } := (frame_pf1 s f).mono (by decide)

theorem run_pf1Vector {v : Nat} : Touches runRegs s (pf1Vector v s) := (frame_pf1Vector s v).mono (by decide)

theorem run_pauseQueue {b : QBlock} {q cause : Nat} : Touches runRegs s (pauseQueue b q cause s) :=
  run_modQueue.trans (touches_ite (fun _ => run_pf1Vector) fun _ => .refl _ _)

theorem run_partSeen {who : Agent} {p a n : Nat} : Touches runRegs s (partSeen who p a n s) := run_of_traffic traffic_partSeen

theorem run_partWrite {who : Agent} {p a : Nat} {data : List Byte} : Touches runRegs s (partWrite who p a data s) := run_of_traffic traffic_partWrite

theorem run_descSeen {b : QBlock} {q : Nat} : Touches runRegs s (descSeen b q s) := by
  unfold descSeen
  dsimp only
  split
  · exact .refl _ s
  · split
    · exact run_partSeen
    · exact .refl _ s

theorem run_hostRecord {b : QBlock} {q : Nat} {rcd : List Byte} {bad : Bool} : Touches runRegs s (hostRecord b q rcd bad s) :=
  (((run_of_op op_emit).trans run_setQueue).trans run_pf1Vector).trans (touches_ite (fun _ => run_pf1Vector) fun _ => .refl _ _)

theorem run_hostFetch {b : QBlock} {q : Nat} : Touches runRegs s (hostFetch b q s) :=
  touches_ite (fun _ => .refl _ s) fun _ => (run_setQueue.trans ((frame_hp _ _).mono (by decide))).trans (run_of_op op_emit)

theorem run_postNow {b : QBlock} {q : Nat} {rcd : List Byte} {bad : Bool} : Touches runRegs s (postNow b q rcd bad s) := by
  have hlast : ∀ u (f : Queue → Queue), Touches runRegs u (hostFetch b q (modQueue b q f u)) := fun u f => run_modQueue.trans run_hostFetch
  unfold postNow
  dsimp only
  refine Touches.trans ?_ (hlast _ _)
  refine touches_ite (fun _ => run_pf1) fun _ => touches_ite (fun _ => touches_ite (fun _ => run_setQueue) fun _ => run_hostRecord) fun _ => ?_
  split
  · exact .refl _ s
  · exact touches_ite (fun _ => run_partWrite.trans run_setQueue) fun _ => run_pauseQueue

theorem run_postRecord {b : QBlock} {q : Nat} {rcd : List Byte} {bad : Bool} : Touches runRegs s (postRecord b q rcd bad s) :=
  touches_ite (fun _ => run_modQueue) fun _ => run_postNow

theorem run_junkOutput {who : Agent} {p a n : Nat} : Touches runRegs s (junkOutput who p a n s) :=
  ((run_of_op op_drawBelow).trans (run_of_op (op_drawBytes _))).trans run_partWrite

/-! ### Rasp engines -/

theorem run_raspLoad {k : Nat} : Touches runRegs s (raspLoad k s) := by
  unfold raspLoad
  dsimp only
  split
  · exact .refl _ s
  · split
    · exact .refl _ s
    · split
      · exact run_of_msg frame_askMissing
      · exact (run_partSeen.trans run_partSeen).trans run_setRasp

theorem run_raspBegin {k : Nat} {j : RaspJob} : Touches runRegs s (raspBegin k j s) := run_setRasp.trans run_raspLoad

theorem run_raspTakeLine {k : Nat} {r : LineReq} : Touches runRegs s (raspTakeLine k i r s) := by
  unfold raspTakeLine
  split
  · exact .refl _ s
  · exact (((frame_eng s { s.eng with rq := inlineCount s.eng.rq }).mono (by decide)).trans (run_of_op op_lineTaken)).trans run_raspBegin

theorem run_raspEnd {k : Nat} {parity : Bool} : Touches runRegs s (raspEnd k parity s) := by
  unfold raspEnd
  extract_lets e ended
  split
  · exact .refl _ s
  · extract_lets d who outA outN cA r busy status told
    have htold : Touches runRegs s told := run_setRasp.trans (touches_ite (fun _ => run_raise (by decide)) fun _ => .refl _ ended)
    split
    · exact (htold.trans (touches_ite (fun _ => run_partWrite) fun _ => .refl _ _)).trans (run_of_op op_lineDone)
    · exact touches_ite
        (fun _ => ((htold.trans run_partWrite).trans (touches_ite (fun _ => .refl _ _) fun _ => run_partWrite)).trans run_postRecord)
        fun _ => (htold.trans (touches_ite (fun _ => run_junkOutput) fun _ => .refl _ _)).trans run_postRecord

theorem run_fenceRasp {k : Nat} : Touches runRegs s (fenceRasp k s) := run_raspEnd.trans run_setRasp

/-! ### Intaglio engines -/

theorem run_intSeen {j : IntJob} : Touches runRegs s (intSeen j s) :=
  ((touches_ite (fun _ => .refl _ s) fun _ => run_partSeen).trans (touches_ite (fun _ => .refl _ _) fun _ => run_partSeen)).trans
    (touches_ite (fun _ => .refl _ _) fun _ => run_partSeen)

theorem run_intPlain {j : IntJob} : Touches runRegs s (intPlain j s) := by
  unfold intPlain
  dsimp only
  split
  · exact .refl _ s
  · refine ((?_ : Touches runRegs s _).trans (run_of_op op_drawBelow)).trans run_partWrite
    split
    · exact .refl _ s
    · split
      · exact .refl _ s
      · exact run_of_op (op_drawBytes _)

theorem run_intLoad {k : Nat} : Touches runRegs s (intLoad k s) := by
  unfold intLoad
  dsimp only
  split
  · exact .refl _ s
  · split
    · exact .refl _ s
    · split
      · exact run_of_msg frame_askMissing
      · exact (((run_setInt.trans run_intSeen).trans (touches_ite (fun _ => run_setKeySlot) fun _ => .refl _ _)).trans
          (touches_ite (fun _ => run_raise (by decide)) fun _ => .refl _ _)).trans run_intPlain

theorem run_intBegin {k : Nat} {j : IntJob} : Touches runRegs s (intBegin k j s) :=
  (((frame_eng s { s.eng with order := s.eng.order + 1 }).mono (by decide)).trans run_setInt).trans run_intLoad

theorem run_intStart {k q p : Nat} {line : Option Nat} {b input : List Byte} : Touches runRegs s (intStart k q p line b input s) := run_intBegin

theorem run_intTakeLine {k : Nat} {r : LineReq} : Touches runRegs s (intTakeLine k i r s) := by
  unfold intTakeLine
  split
  · exact .refl _ s
  · exact (((frame_eng s { s.eng with iq := inlineCount s.eng.iq }).mono (by decide)).trans (run_of_op op_lineTaken)).trans run_intStart

theorem run_drbgCount {inst : Nat} : Touches runRegs s (drbgCount inst s) := (frame_tr s _).mono (by decide)

theorem run_drawKey {inst : Nat} {xts : Bool} {n : Nat} (m : Nat) : ∀ {s : State}, Touches runRegs s (drawKey inst xts n m s).2 := by
  induction m with
  | zero => exact run_drbgCount.trans (run_of_op (op_drawBytes n))
  | succ m ih =>
    intro s
    have hdrawn : Touches runRegs s (drawBytes (drbgCount inst s) n).2 := run_drbgCount.trans (run_of_op (op_drawBytes n))
    unfold drawKey
    dsimp only
    split
    · exact hdrawn.trans ih
    · exact hdrawn

theorem run_intManage {p : Nat} {d : IntDesc} {j : IntJob} : Touches runRegs s (intManage p d j s).2.2 := by
  unfold intManage
  split
  · exact (run_drawKey _).trans run_setKeySlot
  · dsimp only
    split
    · exact .refl _ s
    · exact run_setKeySlot
  · split
    · exact .refl _ s
    · exact .refl _ s
  · exact .refl _ s

theorem run_intOutcome {j : IntJob} {forced : Option Nat} : Touches runRegs s (intOutcome j forced s).2.2.2 := by
  unfold intOutcome
  extract_lets d
  split
  · exact .refl _ s
  · split
    · exact run_intManage
    · split
      · exact .refl _ s
      · exact .refl _ s

theorem run_intFinish {k : Nat} {j : IntJob} {forced : Option Nat} : Touches runRegs s (intFinish k j forced s) := by
  unfold intFinish
  extract_lets d e counted who r put
  have hput : Touches runRegs s put := (run_setInt.trans (run_intOutcome (s := counted))).trans (touches_ite (fun _ => run_partWrite) fun _ => .refl _ r.2.2.2)
  split
  · exact hput.trans (run_of_op op_lineDone)
  · split
    · exact (hput.trans (touches_ite (fun _ => run_partWrite) fun _ => .refl _ _)).trans run_postRecord
    · exact (hput.trans run_partWrite).trans run_postRecord

theorem run_restoreInt {k : Nat} : Touches runRegs s (restoreInt k s) := run_setInt

theorem run_intEnd {k : Nat} {forced : Option Nat} : Touches runRegs s (intEnd k forced s) := by
  unfold intEnd
  dsimp only
  split
  · exact .refl _ s
  · exact (run_setInt.trans run_intFinish).trans (touches_ite (fun _ => .refl _ _) fun _ => touches_ite (fun _ => run_setInt) fun _ => run_restoreInt)

theorem run_fenceInt {k : Nat} : Touches runRegs s (fenceInt k s) := by
  unfold fenceInt
  dsimp only
  split
  · exact (run_intEnd.trans (run_setInt.trans run_intFinish)).trans run_setInt
  · exact run_intEnd.trans run_setInt

theorem run_lineStart : Touches runRegs s (lineStart s) := by
  have hrasp : ∀ k u, Touches runRegs u (if raspIdle k u then (match raspLineNext k u with | some (i, r) => raspTakeLine k i r u | none => u) else u) := by
    intro k u
    refine touches_ite (fun _ => ?_) fun _ => .refl _ u
    split
    · exact run_raspTakeLine
    · exact .refl _ u
  have hint : ∀ k u, Touches runRegs u (if intIdle k u then (match intLineNext k u with | some (i, r) => intTakeLine k i r u | none => u) else u) := by
    intro k u
    refine touches_ite (fun _ => ?_) fun _ => .refl _ u
    split
    · exact run_intTakeLine
    · exact .refl _ u
  exact touches_foldl (fun u k => (hrasp k u).trans (hint k _)) _ s

theorem run_engLoad : Touches runRegs s (engLoad s) := touches_foldl (fun _ _ => run_raspLoad.trans run_intLoad) _ s

/-! ### Channel programs -/

theorem run_cpPoison {a : Nat} : Touches runRegs s (cpPoison i a s) := by
  unfold cpPoison
  split
  · exact run_raise (by decide)
  · exact .refl _ s

theorem run_askMissing {who : Agent} {p : Nat} {xs : List (Nat × Nat)} : Touches runRegs s (askMissing who p xs s) := run_of_msg frame_askMissing

theorem run_withOrder {a : Nat} {f : Order → State → State} (hf : ∀ r u, Touches runRegs u (f r u)) : Touches runRegs s (withOrder i a f s) := by
  unfold withOrder
  dsimp only
  split
  · exact run_of_op op_chCheck
  · exact (run_partSeen.trans run_cpPoison).trans (run_of_op op_chCheck)
  · exact run_askMissing.trans (run_of_op op_opWait)
  · exact hf _ s

theorem run_orderSeen {p : Nat} {r : Order} {n : Nat} : Touches runRegs s (orderSeen i p r n s) :=
  run_partSeen.trans (touches_ite (fun _ => run_partSeen) fun _ => .refl _ _)

theorem op_chainReached {c : Chain} : Touches opRegs s (chainReached i c s) := by
  unfold chainReached
  split
  · exact .refl _ s
  · split
    · exact op_chCheck
    · exact touches_ite (fun _ => op_chCheck) fun _ => op_modOp

theorem run_chainGo {o : ChOp} {c : Chain} {r : Order} : Touches runRegs s (chainGo i o c r s) := by
  unfold chainGo
  dsimp only
  split
  · exact run_askMissing.trans (run_of_op op_opWait)
  · split
    · exact (run_orderSeen.trans run_cpPoison).trans (run_of_op op_chCheck)
    · exact run_orderSeen.trans (run_of_op op_chCheck)
  · exact (run_orderSeen.trans (run_of_op op_modOp)).trans (touches_ite (fun _ => run_of_op op_chNotify) fun _ => .refl _ _)
  · exact run_orderSeen.trans (run_of_op op_chainReached)

theorem run_reachOrder {o : ChOp} {r : Order} : Touches runRegs s (reachOrder i o r s) := by
  have hnote : ∀ (c : Prop) [Decidable c] (u : State), Touches runRegs u (if c then chNotify i r.addr u else u) := fun c _ u =>
    touches_ite (fun _ => run_of_op op_chNotify) fun _ => .refl _ u
  have hseen : Touches runRegs s (partSeen (.subch i) (jent i s).part o.pc 32 s) := run_partSeen
  have hgone : ∀ u, Touches runRegs u (if (jent i u).state = 3 then opTrans i trRelease (fun e => { e with state := 2 }) u else u) := fun u =>
    touches_ite (fun _ => run_of_op op_opTrans) fun _ => .refl _ u
  unfold reachOrder
  extract_lets p seen told begun began
  have hbegan : Touches runRegs s began := (hseen.trans (run_of_op op_modOp)).trans (hnote _ begun)
  refine touches_ite (fun _ => hseen.trans (run_of_op op_chCheck)) fun _ => touches_ite (fun _ => touches_ite (fun _ => hseen.trans (run_of_op op_chCheck))
    fun _ => (hseen.trans (hnote _ seen)).trans (run_of_op op_modOp)) fun _ => touches_ite (fun _ => touches_ite (fun _ =>
    hseen.trans (run_of_op op_settleHalt)) fun _ => run_chainGo) fun _ => touches_ite (fun _ => ?_) fun _ => touches_ite (fun _ => ?_) fun _ =>
    touches_ite (fun _ => ?_) fun _ => ?_
  · exact hbegan.trans (run_of_op (op_chSuspend.trans op_opWait))
  · exact (hbegan.trans (hgone _)).trans (run_of_op op_orderNext)
  · exact hbegan.trans (run_of_op ((op_opTrans.trans op_emit).trans op_orderNext))
  · exact hbegan.trans (run_of_op op_orderNext)

theorem run_reachStep {o : ChOp} : Touches runRegs s (reachStep i o s) := by
  unfold reachStep
  split
  · exact run_withOrder fun _ _ => run_chainGo
  · exact run_withOrder fun _ _ => run_reachOrder

theorem run_askEngine {cipher back : Bool} {input : List Byte} : Touches runRegs s (askEngine i cipher back input s) :=
  (run_of_op op_modOp).trans run_lineStart

theorem run_storeElems {who : Agent} {p : Nat} (es : List Elem) : ∀ {off : Nat} {data : List Byte} {s : State},
    Touches runRegs s (storeElems who p es off data s).2.2 := by
  induction es with
  | nil => exact .refl _ _
  | cons e t ih =>
    intro off data s
    have hput : ∀ g, Touches runRegs s (if e.discard then s else partWrite who p (e.addr + off) (data.take g) s) := fun g =>
      touches_ite (fun _ => .refl _ s) fun _ => run_partWrite
    unfold storeElems
    extract_lets k g put r
    split
    · exact .refl _ s
    · split
      · exact ih
      · split
        · exact hput _
        · exact (hput _).trans ih

theorem run_readStore {d : DevOrd} {out : List Byte} : Touches runRegs s (readStore i d out s) := by
  have hstored := fun (p : Nat) (f : DevOrd → DevOrd) (n : Nat) =>
    ((run_storeElems (s := s) (who := .subch i) (p := p) d.elems (off := 0) (data := out.take d.count)).trans (run_of_op (op_modCur (i := i) (f := f)))).trans
      (run_of_op (op_chBegin (i := i) (upto := n)))
  unfold readStore
  dsimp only
  split
  · exact (hstored _ _ _).trans (run_of_op op_chCheck)
  · exact hstored _ _ _

theorem run_failedOutput {who : Agent} {p status : Nat} {d : DevOrd} : Touches runRegs s (failedOutput who p status d s) := by
  unfold failedOutput
  dsimp only
  split
  · exact touches_ite (fun _ => run_storeElems _) fun _ => .refl _ s
  · exact ((run_of_op op_drawBelow).trans (run_of_op (op_drawBytes _))).trans (run_storeElems _)

theorem run_readFailed {d : DevOrd} {code : Nat} : Touches runRegs s (readFailed i d code s) := run_failedOutput.trans (run_of_op op_modOp)

theorem run_finishRead : Touches runRegs s (finishRead i s) := by
  unfold finishRead
  split
  · exact .refl _ s
  · split
    · exact .refl _ s
    · refine touches_ite (fun _ => .refl _ s) fun _ => ?_
      split
      · exact run_askEngine
      · split
        · exact run_of_op op_opWait
        · exact (run_of_op op_clearLine).trans (touches_ite (fun _ => run_askEngine) fun _ => run_readStore)
        · exact (run_of_op op_clearLine).trans run_readFailed

theorem run_breach {n : Nat} : Touches runRegs s (breach i n s) := run_raise (by decide)

theorem run_orderEnd {dev r : Nat} {fin : Bool} : Touches runRegs s (orderEnd i dev fin r s) := by
  unfold orderEnd
  split
  · exact .refl _ s
  · split
    · dsimp only
      refine (run_of_op op_orderResid).trans (touches_ite (fun _ => run_breach.trans (run_of_op op_chEnd)) fun _ => touches_ite (fun _ => ?_) fun _ =>
        touches_ite (fun _ => run_of_op op_chEnd) fun _ => ?_)
      · exact run_of_op ((op_setOp.trans op_opTrans).trans op_sendAck)
      · exact run_of_op (((op_setOp.trans op_opTrans).trans op_sendAck).trans op_beginHalt)
    · exact .refl _ s

theorem run_writeStep {d : DevOrd} {r : LineReq} : Touches runRegs s (writeStep i d r s) := by
  unfold writeStep
  split
  · exact run_of_op op_opWait
  · exact (run_of_op op_clearLine).trans (touches_ite (fun _ => run_askEngine) fun _ => run_of_op op_modCur)
  · exact run_of_op (op_clearLine.trans op_chCheck)

theorem run_elemsSeen {who : Agent} {p : Nat} (es : List Elem) : ∀ {skip n : Nat} {s : State}, Touches runRegs s (elemsSeen who p es skip n s) := by
  induction es with
  | nil => exact .refl _ _
  | cons e t ih => exact touches_ite (fun _ => .refl _ _) fun _ => touches_ite (fun _ => ih) fun _ => run_partSeen.trans ih

theorem run_writeBegin {d : DevOrd} {data : List Byte} : Touches runRegs s (writeBegin i d data s) :=
  touches_ite (fun _ => run_askEngine) fun _ => touches_ite (fun _ => run_askEngine) fun _ => run_of_op op_modCur

theorem run_fillOut {upto : Nat} : Touches runRegs s (fillOut i upto s) := by
  unfold fillOut
  split
  · exact .refl _ s
  · split
    · exact .refl _ s
    next d _ =>
      extract_lets p have_ n got seen
      have hcoll : ∀ c : Coll, Touches runRegs s (match c with | .miss _ => s | _ => elemsSeen (.subch i) p d.elems have_ (n - have_) s) := by
        intro c
        split
        · exact .refl _ s
        · exact run_elemsSeen _
      have hseen : Touches runRegs s seen := hcoll got
      refine touches_ite (fun _ => .refl _ s) fun _ => ?_
      clear_value got
      split
      · exact hseen.trans (run_askMissing.trans (run_of_op op_opWait))
      · extract_lets bad pushed
        have hbad : Touches runRegs s bad := hseen.trans (touches_ite (fun _ => run_cpPoison) fun _ => .refl _ seen)
        have hpushed : Touches runRegs s pushed := hbad.trans (touches_ite (fun _ => run_of_op op_pushData) fun _ => .refl _ bad)
        exact hpushed.trans (run_of_op op_chCheck)
      · exact (hseen.trans (run_of_op op_modCur)).trans (touches_ite (fun _ => .refl _ _) fun _ => run_writeBegin)

theorem run_devStep {o : ChOp} {d : DevOrd} : Touches runRegs s (devStep i o d s) := by
  unfold devStep
  split
  · split
    · exact run_of_op op_sendOrder
    · split
      · exact run_of_op op_opWait
      · exact run_of_op (op_sendOpen.trans op_sendOrder)
  · split
    · extract_lets read
      have hread : Touches runRegs s read := run_finishRead
      split
      · exact hread.trans (touches_ite (fun _ => .refl _ read) fun _ => run_orderEnd)
      · exact hread
    · split
      · extract_lets read
        have hread : Touches runRegs s read := touches_ite (fun _ => run_finishRead) fun _ => .refl _ s
        split
        · exact hread.trans (touches_ite (fun _ => run_of_op op_opWait) fun _ => .refl _ read)
        · exact hread
      · refine touches_ite (fun _ => run_of_op op_opWait) fun _ => ?_
        split
        · exact run_writeStep
        · refine touches_ite (fun _ => touches_ite (fun _ => run_fillOut) fun _ => touches_ite (fun _ => run_of_op op_chRelease) fun _ =>
            run_of_op (op_chSuspend.trans op_opWait)) fun _ => ?_
          split
          · exact run_fillOut
          · exact (run_of_op op_modCur).trans ((touches_ite (fun _ => .refl _ _) fun _ => run_of_op op_pushData).trans (run_of_op op_chBegin))

theorem run_chRunGo (n : Nat) : ∀ {s : State}, Touches runRegs s (chRunGo i n s) := by
  induction n with
  | zero => exact run_of_op op_opWait
  | succ n ih =>
    intro s
    unfold chRunGo
    split
    · exact .refl _ s
    · refine touches_ite (fun _ => .refl _ s) fun _ => ?_
      split
      · exact touches_ite (fun _ => (run_of_op op_opWait).trans ih) fun _ => .refl _ s
      · exact touches_ite (fun _ => run_reachStep.trans ih) fun _ => .refl _ s
      · exact touches_ite (fun _ => (run_of_op op_chRelease).trans ih) fun _ => .refl _ s
      · exact .refl _ s
      · exact .refl _ s
      · split
        · exact run_devStep.trans ih
        · exact run_reachStep.trans ih

theorem run_chRun : Touches runRegs s (chRun i s) := run_chRunGo _

theorem run_chResume : Touches runRegs s (chResume i s) := by
  have hopen : Touches runRegs s (chReopen i (endDue i s)) := run_of_op (op_endDue.trans op_chReopen)
  unfold chResume
  dsimp only
  split
  · exact hopen
  · exact hopen.trans (touches_ite (fun _ => .refl _ _) fun _ => touches_ite (fun _ => (run_of_op op_opWait).trans run_chRun) fun _ => run_chRun)

theorem run_chPathDown {n : Nat} : Touches runRegs s (chPathDown n s) := by
  refine touches_foldl (fun u j => ?_) _ s
  split
  · exact .refl _ u
  · exact touches_ite (fun _ => .refl _ u) fun _ => (run_of_op op_setOp).trans run_chResume

theorem run_cpFail {k : Nat} : Touches runRegs s (cpFail k s) := by
  refine ((frame_setCp s k 2).mono (by decide)).trans (touches_foldl (fun u j => ?_) _ _)
  split
  · exact .refl _ u
  next o _ =>
    have hdrop : Touches runRegs u (match o.port with | some n => dropData n j u | none => u) := by
      split
      · exact run_of_op op_dropData
      · exact .refl _ u
    exact touches_ite (fun _ => .refl _ u) fun _ => touches_ite (fun _ => run_of_op op_setOp) fun _ => (hdrop.trans (run_of_op op_setOp)).trans run_chResume

theorem run_chWakeAll : Touches runRegs s (chWakeAll s) := (run_engLoad.trans (touches_foldl (fun _ _ => run_chResume) _ _)).trans run_lineStart

theorem run_driveActive {want : Nat → Bool} : Touches runRegs s (driveActive want s) :=
  (touches_foldl (fun u _ => touches_ite (fun _ => (frame_ch u _).mono (by decide)) fun _ => .refl _ u) _ s).trans run_chWakeAll

theorem run_decidePorts : Touches runRegs s (decidePorts s) := touches_ite (fun _ => run_driveActive) fun _ => run_driveActive

end

end Sys2Proof.Machine
end

section
set_option Elab.async false
/-! PROOFS. Frames of links that go down, of cores and partitions that are lost, and of the end of a command, whatever steps it makes due (13; 20; 21). -/

namespace Sys2Proof.Machine

/-- What a link that goes down writes. -/
def linkRegs : List FrameReg := [.out, .pf0, .cpu, .core, .flt, .status, .live, .due, .sto, .mem, .arm, .armLink, .chLink, .links, .idle, .free, .ch, .jnl, .journal,
  .offers, .eng, .hp, .pf1, .tr, .tor, .routing]

/-- What the loss of a core writes. -/
def loseRegs : List FrameReg := [.out, .pf0, .cpu, .core, .keeps, .own, .still, .flt, .status, .live, .due, .sto, .mem, .arm, .armLink, .chLink, .free]

/-- What the steps of an escalation write, of which the end of a command runs those that are due. -/
def stepRegs : List FrameReg := [.out, .pf0, .cpu, .core, .keeps, .own, .still, .flt, .status, .live, .due, .checkstop, .sto, .mem, .arm, .armLink, .chLink, .links, .free,
  .ch, .jnl, .journal, .offers, .eng, .hp, .pf1, .tr, .tor, .pln, .pstate, .dram, .routing]

section
variable {s : State}

theorem link_of_run {t : State} (h : Touches runRegs s t) : Touches linkRegs s t := h.mono (by decide)

theorem lose_of_traffic {t : State} (h : Touches trafficRegs s t) : Touches loseRegs s t := h.mono (by decide)

theorem step_of_lose {t : State} (h : Touches loseRegs s t) : Touches stepRegs s t := h.mono (by decide)

theorem step_of_link {t : State} (h : Touches linkRegs s t) (hi : ∀ q, (linkOf q s).state ≤ 1 → (linkOf q t).state ≤ 1) : Touches stepRegs s t :=
  (h.mono (by decide) : Touches (.idle :: stepRegs) s t).holding hi

theorem step_of_run {t : State} (h : Touches runRegs s t) : Touches stepRegs s t := h.mono (by decide)

/-! ### Links -/

theorem frame_portEvent {p : PortId} {detail : Nat} : Touches eventRegs s (portEvent p detail s) := frame_raise s (by decide) _ _ _

theorem frame_linkIdle {p : PortId} : Touches [.armLink, .chLink, .links, .idle] s (linkIdle p s) := frame_modLink s p _

theorem frame_linkDownOnly {p : PortId} :
    Touches [.armLink, .chLink, .links, .idle, .out, .pf0, .cpu, .core, .flt, .status, .live, .due] s (linkDownOnly p s) :=
  (((frame_setLink s p _).mono (by decide)).andThen (frame_emit _ _)).andThen frame_portEvent

theorem frame_rerouteMsg {resent : Bool} {via : Option Nat} {b : List Byte} : Touches msgRegs s (rerouteMsg resent via b s) := frame_forwardMsg

theorem frame_masterLost (s : State) : Touches [.tor, .flt, .live] s (masterLost s) := touches_ite (fun _ => frame_torSet _ s) fun _ => .refl _ s

theorem frame_checkMaster (s : State) : Touches [.tor, .flt, .live] s (checkMaster s) := by
  unfold checkMaster
  split
  · exact touches_ite (fun _ => frame_masterLost s) fun _ => .refl _ s
  · exact .refl _ s

/-- What going DOWN writes beside the link itself. -/
def downRegs : List FrameReg := [.out, .pf0, .cpu, .core, .flt, .status, .live, .due, .sto, .mem, .arm, .armLink, .chLink, .free, .ch, .jnl, .journal, .offers,
  .eng, .hp, .pf1, .tr, .tor, .routing]

theorem down_linkDown {p : PortId} : Touches downRegs (linkDownOnly p s) (linkDown p s) := by
  unfold linkDown
  extract_lets l was down k src peers
  have hpeers : Touches downRegs down peers := (frame_routing down peers.arm rfl rfl).mono (by decide)
  change Touches downRegs down _
  clear_value peers
  split
  · refine touches_ite (fun _ => ?_) fun _ => hpeers
    have hagain : ∀ (r : Bool) (xs : List (Option Nat × List Byte)) (u : State), Touches downRegs u (xs.foldl (fun s b => rerouteMsg r b.1 b.2 s) u) :=
      fun r xs u => touches_foldl (fun _ _ => frame_rerouteMsg.mono (by decide)) xs u
    exact (((hpeers.trans (hagain true _ _)).trans (hagain false _ _)).trans ((frame_checkMaster _).mono (by decide))).trans
      ((frame_announceChange _).mono (by decide))
  · exact touches_ite (fun _ => hpeers.trans (run_chPathDown.mono (by decide))) fun _ => hpeers

theorem link_linkDown {p : PortId} : Touches linkRegs s (linkDown p s) := (frame_linkDownOnly.mono (by decide)).trans (down_linkDown.mono (by decide))

/-- Another link sends at most when one goes DOWN. -/
theorem linkDown_other {p q : PortId} (h : q ≠ p) : SameLink (linkOf q s) (linkOf q (linkDown p s)) := by
  have hset : ∀ (l : Link) (u : State), Touches eventRegs (emit (.uncertain p ((linkOf p s).replay.map (·.seq))) (setLink p l s)) u →
      SameLink (linkOf q s) (linkOf q u) := fun l u hu => by
    have hemit := frame_emit (setLink p l s) (.uncertain p ((linkOf p s).replay.map (·.seq))) .links (by decide) q
    have hsame : linkOf q (setLink p l s) = linkOf q s := (linkOf_setLink p q l s).trans (if_neg h)
    rw [hsame] at hemit
    exact hemit.trans (hu .links (by decide) q)
  exact (hset _ _ frame_portEvent).trans (down_linkDown .links (by decide) q)

theorem link_linkOff {p : PortId} : Touches linkRegs s (linkOff p s) :=
  (touches_ite (fun _ => .refl _ s) fun _ => link_linkDown).trans (frame_linkIdle.mono (by decide))

theorem state_foldl_setLane (f : Lane → Lane) (ls : List Nat) : ∀ l : Link, (ls.foldl (fun l i => setLane i (f (laneOf i l)) l) l).state = l.state := by
  induction ls with
  | nil => exact fun _ => rfl
  | cons i ls ih => exact fun l => ih _

/-- An idle link is DISABLED. -/
theorem linkIdle_state {p : PortId} : (linkOf p (linkIdle p s)).state = 0 := by
  rw [linkIdle, modLink, linkOf_setLink, if_pos rfl]
  exact state_foldl_setLane (fun l => { l with lock := false }) _ _

theorem linkIdle_other {p q : PortId} (h : q ≠ p) : linkOf q (linkIdle p s) = linkOf q s := by
  rw [linkIdle, modLink, linkOf_setLink, if_neg h]

/-- A link that is switched off leaves idle links idle. -/
theorem linkOff_idle {p : PortId} (q : PortId) (h : (linkOf q s).state ≤ 1) : (linkOf q (linkOff p s)).state ≤ 1 := by
  unfold linkOff
  by_cases e : q = p
  · rw [e, linkIdle_state]
    exact Nat.zero_le 1
  · rw [linkIdle_other e]
    split
    · exact h
    · have hsame : (linkOf q (linkDown p s)).state = (linkOf q s).state := (congrArg Link.state (linkDown_other e).1 :)
      exact hsame.trans_le h

theorem link_disablePort {p : PortId} : Touches linkRegs s (disablePort p s) := link_linkOff.trans ((frame_modLink _ p _).mono (by decide))

theorem disablePort_idle {p : PortId} (q : PortId) (h : (linkOf q s).state ≤ 1) : (linkOf q (disablePort p s)).state ≤ 1 := by
  have hoff := linkOff_idle (p := p) q h
  unfold disablePort modLink
  dsimp only
  rw [linkOf_setLink]
  split
  next e => exact e ▸ hoff
  next => exact hoff

/-! ### Cores that are lost -/

theorem lose_modCore {l : Nat} {f : Core → Core} : Touches loseRegs s (modCore l f s) := (frame_modCore s l f).mono (by decide)

theorem lose_cpu {x : CoresS} : Touches loseRegs s { s with cpu := x } := (frame_cpu s x).mono (by decide)

theorem lose_drawn {n : Nat} : Touches loseRegs s { s with free := n } := (frame_free s n).mono (by decide)

theorem lose_mcGive {p : Nat} {m : McPend} : Touches loseRegs s (mcGive p m s) := (frame_mcGive s p m).mono (by decide)

theorem lose_exigGive {p : Nat} {m : McPend} : Touches loseRegs s (exigGive p m s) := by
  unfold exigGive
  split
  · exact lose_modCore
  · exact (frame_makeDue s _ _ _).mono (by decide)

theorem lose_exigOnPart {p code a src valid : Nat} : Touches loseRegs s (exigOnPart p code a src valid s) := touches_ite (fun _ => .refl _ s) fun _ => lose_exigGive

theorem lose_passChecks {l : Nat} : Touches loseRegs s (passChecks l s) := by
  unfold passChecks
  split
  · exact .refl _ s
  · exact lose_modCore.trans (touches_ite (fun _ => .refl _ _) fun _ =>
      (touches_foldl (fun _ _ => lose_mcGive) _ _).trans (touches_foldl (fun _ _ => lose_exigGive) _ _))

theorem lose_disposeCaches {l : Nat} : Touches loseRegs s (disposeCaches l s) := by
  have hdrawn : Touches loseRegs s (drawBit s).2 := lose_drawn
  unfold disposeCaches
  extract_lets a u c held lines emptied
  refine touches_ite (fun _ => hdrawn.trans (lose_of_traffic traffic_wbInvCore)) fun _ => ?_
  have hempty : Touches loseRegs u emptied := (lose_of_traffic traffic_discardIf).trans lose_modCore
  exact ((hdrawn.trans hempty).trans (touches_foldl (fun _ _ => lose_of_traffic traffic_poisonLine) _ _)).trans (lose_of_traffic traffic_wbInvCore)

theorem lose_raise {code : Nat} (hc : code ≠ 0x10) {src : Nat} {part : Option Nat} {detail : Nat} : Touches loseRegs s (raise src code part detail s) :=
  (frame_raise s hc src part detail).mono (by decide)

theorem lose_loseRest {l : Nat} {parts : BitVec 4} {lost : Bool} : Touches loseRegs s (loseRest l parts lost s) := by
  have hsave : ∀ (xs : List (Nat × List Byte)) (who : Agent) (p base : Nat) (u : State),
      Touches loseRegs u (xs.foldl (fun s w => partWrite who p (base + w.1) w.2 s) u) := fun xs who p base u =>
    touches_foldl (fun _ _ => lose_of_traffic traffic_partWrite) xs u
  unfold loseRest
  extract_lets src part disposed base saved stored valid passed emptied
  have hstored : Touches loseRegs s stored := by
    unfold stored
    clear_value part
    split
    · exact lose_disposeCaches.trans (touches_ite (fun _ => hsave _ _ _ _ _) fun _ => .refl _ _)
    · exact lose_disposeCaches
  have hraised := ((hstored.trans (lose_modCore.trans (lose_cpu.trans lose_passChecks))).trans lose_modCore).trans
    (lose_raise (by decide : 0x06 ≠ 0x10) (src := src) (part := part) (detail := l) (s := emptied))
  have hexig : ∀ (q : Option Nat) (u : State), Touches loseRegs u (match q with | some p => exigOnPart p 0x20 l (sourceNo 0x06 src) valid u | none => u) := by
    intro q u
    split
    · exact lose_exigOnPart
    · exact .refl _ u
  exact hraised.trans (hexig part _)

theorem lose_lossDue {l : Nat} : Touches loseRegs s (lossDue l s) := by
  unfold lossDue
  split
  · exact .refl _ s
  · exact (lose_of_traffic traffic_drainSystem).trans (touches_ite (fun _ => lose_loseRest) fun _ => .refl _ _)

theorem lose_loseStoresLogged {l : Nat} : Touches loseRegs s (loseStoresLogged l s) := (frame_loseStoresLogged l s).mono (by decide)

theorem lose_loseCore {l : Nat} {parts : BitVec 4} {path : Bool} : Touches loseRegs s (loseCore l parts path s) :=
  touches_ite (fun _ => lose_modCore.trans lose_lossDue) fun _ => lose_loseStoresLogged.trans lose_loseRest

theorem lose_loseAtOnce {l : Nat} {k : RecastTrigger} : Touches loseRegs s (loseAtOnce l k s) := lose_drawn.trans (lose_drawn.trans lose_loseCore)

theorem lose_cancelDue {c : Nat} : Touches loseRegs s (cancelDue c s) := by
  unfold cancelDue
  split
  · exact .refl _ s
  · exact touches_ite (fun _ => .refl _ s) fun _ => lose_cpu.trans (touches_ite (fun _ => lose_cpu) fun _ => .refl _ _)

theorem lose_fenceSlot {slot : Nat} : Touches loseRegs s (fenceSlot slot s) := by
  unfold fenceSlot
  split
  · exact touches_ite (fun _ => .refl _ s) fun _ => touches_ite (fun _ => lose_cpu) fun _ => lose_cancelDue.trans lose_loseAtOnce
  · exact touches_ite (fun _ => lose_cpu) fun _ => .refl _ s

theorem lose_killCore {l : Nat} : Touches loseRegs s (killCore l s) :=
  ((lose_loseStoresLogged.trans lose_disposeCaches).trans (touches_ite (fun _ => lose_modCore.trans lose_cpu) fun _ => .refl _ _)).trans lose_modCore

/-! ### The steps of an escalation -/

theorem step_mcOnPart {p code a src : Nat} : Touches stepRegs s (mcOnPart p code a src s) := (frame_mcOnPart s p code a src).mono (by decide)

theorem step_fence {i : Nat} : Touches stepRegs s (fence i s) := by
  unfold fence
  extract_lets note part slot port unit
  have hnote : ∀ p u, Touches stepRegs u (note p u) := fun p u => step_mcOnPart
  split
  · have hslot : Touches stepRegs s slot := step_of_lose lose_fenceSlot
    clear_value part
    split
    · exact hslot.trans (hnote _ _)
    · exact hslot
  · split
    · exact step_of_link link_disablePort disablePort_idle
    · split
      · refine (step_of_link link_disablePort disablePort_idle).trans (touches_foldl (fun u p => ?_) _ port)
        split
        · exact touches_ite (fun _ => hnote _ u) fun _ => .refl _ u
        · exact .refl _ u
      · have hunit : Touches stepRegs s unit := touches_ite (fun _ => step_of_run run_cpFail) fun _ => touches_ite (fun _ => step_of_run run_fenceRasp) fun _ =>
          touches_ite (fun _ => step_of_run run_fenceInt) fun _ => .refl _ s
        exact hunit.trans (touches_foldl (fun u p => hnote p u) _ unit)

theorem frame_setPState {p : Nat} {v : PState} : Touches [.pln, .pstate, .checked] s (setPState p v s) :=
  ((frame_pln s _).mono (by decide) : Touches [.plan, .pln, .pstate, .checked] s (setPState p v s)).holding rfl

theorem step_setCheckstopped {p : Nat} : Touches stepRegs s (setPState p .checkstopped s) := by
  refine ((frame_setPState.mono (by decide) : Touches (.checked :: stepRegs) s (setPState p .checkstopped s))).holding fun q => ?_
  rw [pstateOf_setPState]
  split
  · exact .inr rfl
  · exact .inl rfl

theorem step_partCheckstop {p : Nat} : Touches stepRegs s (partCheckstop p s) :=
  touches_ite (fun _ => .refl _ s) fun _ => ((((touches_foldl (fun _ _ => step_of_lose lose_killCore) _ s).trans step_setCheckstopped).trans
    ((frame_tr _ _).mono (by decide))).trans ((frame_disableOwnQueues _ p false).mono (by decide))).trans ((frame_cpu _ _).mono (by decide))

theorem step_moduleCheckstop : Touches stepRegs s (moduleCheckstop s) := (frame_moduleCheckstop s).mono (by decide)

theorem step_chainStep {i step part : Nat} : Touches stepRegs s (chainStep i step part s) := by
  unfold chainStep
  extract_lets st marked logged
  refine touches_ite (fun _ => .refl _ s) fun hstep => touches_ite (fun _ => .refl _ s) fun _ => touches_ite (fun _ => .refl _ s) fun _ => ?_
  have hlater : st.step ≤ step := by
    simp only [Bool.or_eq_true, not_or, decide_eq_true_eq] at hstep
    omega
  have hfenced : st.fenced = true → (st.fenced || step == 1) = true := fun h => by simp [h]
  have hlogged : Touches stepRegs s logged :=
    ((frame_setFlt s i { st with step := step, fenced := st.fenced || step == 1 } hfenced fun h => ⟨h, hlater⟩).mono (by decide)).andThen (frame_logEntry marked _ _ _ _ _ _)
  split
  · exact hlogged.trans step_fence
  · exact hlogged.trans step_partCheckstop
  · exact hlogged.trans step_moduleCheckstop

theorem step_dueStep {d : DueStep} : Touches stepRegs s (dueStep d s) :=
  touches_ite (fun _ => .refl _ s) fun _ => touches_ite (fun _ => step_chainStep) fun _ => touches_ite (fun _ => step_moduleCheckstop) fun _ => step_partCheckstop

theorem frame_due (x : List DueStep) : Touches [.flt, .due, .keeps, .own, .still, .dues] s { s with flt := { s.flt with due := x } } :=
  (((((((frame_flt s { s.flt with due := x }).mono (by decide) :
    Touches [.status, .react, .checkstop, .halted, .live, .fenced, .pend, .flt, .due, .keeps, .own, .still, .dues] s _).holding rfl).holding rfl).holding rfl).holding
      id).holding rfl).holding (fun _ => id) |>.holding fun _ h => ⟨h, Nat.le_refl _⟩

/-- What the end of a command writes: what the steps do that are due, and these themselves. -/
def settleRegs : List FrameReg := .dues :: stepRegs

theorem step_settleDue (n : Nat) : ∀ {s : State}, Touches settleRegs s (settleDue n s) := by
  induction n with
  | zero => exact (frame_due []).mono (by decide)
  | succ n ih =>
    intro s
    unfold settleDue
    split
    · exact .refl _ s
    · exact (((frame_due _).mono (by decide)).trans (step_dueStep.mono (by decide))).trans ih

/-- The end of a command writes no more than the steps of an escalation do, but for the queue of commands. -/
theorem step_settle {b : State} (hp : s.pending = b.pending) : Touches settleRegs s (settle b s) := by
  have htold : Touches settleRegs s (signalStates b (torFlood b (settleDue 4096 s))) :=
    ((step_settleDue 4096).trans ((frame_torFlood _ b).mono (by decide))).trans ((frame_signalStates _ b).mono (by decide))
  have hqueue : (signalStates b (torFlood b (settleDue 4096 s))).pending = b.pending := (htold .pending (by decide)).trans hp
  unfold settle
  rw [← hqueue]
  exact htold

/-- A command's next state is the state that its operation leaves, but for what the steps that it made due write. -/
theorem done_settles {b : State} (hp : s.pending = b.pending) : ∃ t, done b s = .next t ∧ Touches settleRegs s t := ⟨_, rfl, step_settle hp⟩

end

end Sys2Proof.Machine
end

section
set_option Elab.async false
/-! PROOFS. The grace timer of a source runs out (21 R486 to R489). -/

namespace Sys2Proof.Machine

section
variable {b s : State} {src k : Nat}

/-- A step that `nextStep` names is later than the one taken, and is not skipped. -/
theorem nextStep_some (h : nextStep src s = some k) : (fltStatus src s).step < k ∧ (k = 1 ∨ k = 2 ∨ k = 3) ∧
    (k = 1 → fenceable src s = true ∧ (fltStatus src s).fenced = false) ∧ (k = 2 → (fltStatus src s).part ≠ 0x3F) := by
  have hmem := List.mem_of_find?_eq_some h
  have hgo := List.find?_some h
  simp only [stepsAfter, List.mem_filter, List.mem_cons, List.not_mem_nil, or_false, Bool.and_eq_true, decide_eq_true_eq] at hmem
  refine ⟨hmem.2.2, hmem.1, fun e => ?_, fun e => ?_⟩ <;> subst e <;> simpa using hgo

/-- The first step that a command made due is taken; the others follow it, unless it stops the module. -/
theorem done_firstDue {d : DueStep} {rest : List DueStep} (hd : s.flt.due = d :: rest) (hp : s.pending = b.pending) :
    ∃ t, done b s = .next t ∧ Touches settleRegs (dueStep d { s with flt := { s.flt with due := rest } }) t ∧
      ((dueStep d { s with flt := { s.flt with due := rest } }).flt.checkstop = true →
        t.flt.status = (dueStep d { s with flt := { s.flt with due := rest } }).flt.status ∧ t.flt.checkstop = true) := by
  have hfirst : settleDue 4096 s = settleDue 4095 (dueStep d { s with flt := { s.flt with due := rest } }) := by
    rw [settleDue, hd]
  have hdue : Touches settleRegs { s with flt := { s.flt with due := rest } } (dueStep d { s with flt := { s.flt with due := rest } }) := step_dueStep.mono (by decide)
  have htold : Touches settleRegs (dueStep d { s with flt := { s.flt with due := rest } }) (signalStates b (torFlood b (settleDue 4096 s))) := by
    rw [hfirst]
    exact ((step_settleDue 4095).trans ((frame_torFlood _ b).mono (by decide))).trans ((frame_signalStates _ b).mono (by decide))
  have hqueue : (signalStates b (torFlood b (settleDue 4096 s))).pending = b.pending :=
    (htold .pending (by decide)).trans ((hdue .pending (by decide)).trans hp)
  refine ⟨_, rfl, ?_, fun hc => ?_⟩
  · unfold settle
    rw [← hqueue]
    exact htold
  · have hflood : Touches [.out, .pf0, .arm, .armLink, .chLink] (settleDue 4096 s) (signalStates b (torFlood b (settleDue 4096 s))) :=
      ((frame_torFlood _ b).mono (by decide)).andThen (frame_signalStates _ b)
    have hstatus : (settle b s).flt.status = (settleDue 4096 s).flt.status := hflood .status (by decide)
    have hstop : (settle b s).flt.checkstop = (settleDue 4096 s).flt.checkstop := hflood .checkstop (by decide)
    rw [hstatus, hstop, hfirst, settleDue_stopped 4095 hc]
    exact ⟨rfl, hc⟩

/-- The status of a source whose chain takes a step. -/
def stepTaken (k : Nat) (st : FltStatus) : FltStatus := { st with step := k, fenced := st.fenced || k == 1 }

/-- What a step of a chain does. -/
def stepEffect (src part step : Nat) (s : State) : State :=
  match step with
  | 1 => fence src s
  | 2 => partCheckstop part s
  | _ => moduleCheckstop s

/-- A step of a pending source's chain that is later than the one taken, and not skipped. -/
theorem chainStep_taken {part : Nat} (hp : (fltStatus src s).pending = true) (hk : (fltStatus src s).step < k)
    (h1 : k = 1 → fenceable src s = true ∧ (fltStatus src s).fenced = false) (h2 : k = 2 → part ≠ 0x3F) :
    ∃ u, fltStatus src u = stepTaken k (fltStatus src s) ∧ u.flt.checkstop = s.flt.checkstop ∧ u.pln = s.pln ∧
      chainStep src k part s = stepEffect src part k u := by
  have hlog : Touches [.flt] (setFlt src (stepTaken k (fltStatus src s)) s)
      (logEntry 2 (fltStatus src s).cls (sourceNo (fltStatus src s).event src) part k 0 (setFlt src (stepTaken k (fltStatus src s)) s)) :=
    frame_logEntry _ _ _ _ _ _ _
  refine ⟨logEntry 2 (fltStatus src s).cls (sourceNo (fltStatus src s).event src) part k 0 (setFlt src (stepTaken k (fltStatus src s)) s), ?_, ?_, ?_, ?_⟩
  · have hstatus : (logEntry 2 (fltStatus src s).cls (sourceNo (fltStatus src s).event src) part k 0
        (setFlt src (stepTaken k (fltStatus src s)) s)).flt.status = (setFlt src (stepTaken k (fltStatus src s)) s).flt.status := hlog .status (by decide)
    rw [fltStatus, hstatus]
    exact (fltStatus_setFlt src src _ s).trans (if_pos rfl)
  · exact (hlog .checkstop (by decide)).trans rfl
  · exact (hlog .pln (by decide)).trans rfl
  · unfold chainStep
    dsimp only
    rw [if_neg (by simp [hp]; omega), if_neg (by rintro ⟨e, h⟩; obtain ⟨hf, hn⟩ := h1 e; simp [hf, hn] at h), if_neg (fun h => h2 h.1 h.2)]
    rfl

/-- The state in which the timer has run out and the step that follows is due. -/
def graceDue (src k : Nat) (last : Bool) (s : State) : State :=
  makeDue src (fltStatus src s).part [k] (setFlt src { fltStatus src s with timer := if last then none else some s.tor.tor } s)

theorem graceOver_none (h : nextStep src s = none) : graceOver src s = setFlt src { fltStatus src s with timer := none } s := by
  simp only [graceOver, h]

theorem graceOver_some (h : nextStep src s = some k) : ∃ last, graceOver src s = graceDue src k last s := by
  simp only [graceOver, h]
  exact ⟨_, rfl⟩

theorem exec_graceExpiry {t0 : Nat} (ho : operating s = true) (hp : (fltStatus src s).pending = true) (ht : (fltStatus src s).timer = some t0)
    (hover : t0 + fld (reactOf src s) 55 32 * 4000 ≤ s.tor.tor) : exec (.graceExpiry src) s = done s (graceOver src s) := by
  refine if_pos ⟨ho, ?_⟩
  simp only [graceEnd, hp, ht, if_true, Option.map_some, Option.any_some, decide_eq_true_eq]
  exact hover

theorem done_graceDue (hs : Safety.settled s) (hsrc : src < 2 ^ 24) (hc : s.flt.checkstop = false) (last : Bool) :
    ∃ u t, fltStatus src u = { fltStatus src s with timer := if last then none else some s.tor.tor } ∧ u.pln = s.pln ∧ u.ch = s.ch ∧
      u.flt.checkstop = false ∧ done s (graceDue src k last s) = .next t ∧ Touches settleRegs (chainStep src k (fltStatus src s).part u) t ∧
      ((chainStep src k (fltStatus src s).part u).flt.checkstop = true → t.flt.status = (chainStep src k (fltStatus src s).part u).flt.status ∧ t.flt.checkstop = true) := by
  have hdue : (graceDue src k last s).flt.due = [⟨src, k, (fltStatus src s).part⟩] := by
    show s.flt.due ++ [⟨src, k, (fltStatus src s).part⟩] = _
    rw [show s.flt.due = [] from hs]
    rfl
  obtain ⟨t, hdone, hthen⟩ := done_firstDue (b := s) hdue rfl
  refine ⟨{ graceDue src k last s with flt := { (graceDue src k last s).flt with due := [] } }, t, ?_, rfl, rfl, hc, hdone, ?_⟩
  · exact (fltStatus_setFlt src src _ s).trans (if_pos rfl)
  · rw [dueStep, if_neg (by simp [graceDue, makeDue, setFlt, hc]), if_pos hsrc] at hthen
    exact hthen

theorem fenceable_congr {u : State} (h : u.ch = s.ch) : fenceable src u = fenceable src s := by
  unfold fenceable cpFenceable
  simp only [cpState, h]

end

/-- Settles O11: the step that `nextStep` names is the only one due; the command's end takes it, and nothing that it raises then takes it back. -/
theorem graceExpiryTakesNextStep : Obligations.GraceExpiryTakesNextStep := by
  intro src s t0 hs ho hsrc hp ht hover
  have hc := not_checkstop_of_operating ho
  rw [exec_graceExpiry ho hp ht hover]
  have htaken : ∀ k, nextStep src s = some k → ∃ u t, ((fltStatus src u).step = k ∧ (k = 1 → (fltStatus src u).fenced = true) ∧
      (fltStatus src u).pending = true) ∧ u.flt.checkstop = false ∧ u.pln = s.pln ∧ done s (graceOver src s) = .next t ∧
      Touches settleRegs (stepEffect src (fltStatus src s).part k u) t ∧
      ((stepEffect src (fltStatus src s).part k u).flt.checkstop = true → t.flt.status = (stepEffect src (fltStatus src s).part k u).flt.status ∧ t.flt.checkstop = true) := by
    intro k hk
    obtain ⟨hlater, -, h1, h2⟩ := nextStep_some hk
    obtain ⟨last, hgrace⟩ := graceOver_some hk
    obtain ⟨u, t, hst, hpln, hch, huc, hdone, hthen⟩ := done_graceDue (k := k) hs hsrc hc last
    obtain ⟨v, hv, hvc, hvp, hstep⟩ := chainStep_taken (s := u) (src := src) (k := k) (part := (fltStatus src s).part) (by rw [hst]; exact hp)
      (by rw [hst]; exact hlater) (fun e => ⟨(fenceable_congr hch).trans (h1 e).1, by rw [hst]; exact (h1 e).2⟩) h2
    refine ⟨v, t, ⟨by rw [hv]; rfl, fun e => by rw [hv, e]; simp [stepTaken], by rw [hv, hst]; exact hp⟩, hvc.trans huc, hvp.trans hpln, hgrace ▸ hdone, ?_⟩
    rw [← hstep]
    exact hthen
  refine ⟨fun hn => ?_, fun h1 => ?_, fun h2 hdef => ?_, fun h3 => ?_⟩
  · rw [graceOver_none hn]
    exact done_framed (frame_setFlt s src { fltStatus src s with timer := none } id fun h => ⟨h, Nat.le_refl _⟩) hs
  · obtain ⟨u, t, ⟨hstep, hfenced, hup⟩, -, -, hdone, htouch, -⟩ := htaken 1 h1
    have hall := ((step_fence (s := u) (i := src)).mono (by decide)).trans htouch
    exact ⟨t, hdone, hall .fenced (by decide) src (hfenced rfl), hstep ▸ (hall .pend (by decide) src hup).2⟩
  · obtain ⟨u, t, ⟨hstep, -, hup⟩, -, hpln, hdone, htouch, -⟩ := htaken 2 h2
    have hall := ((step_partCheckstop (s := u) (p := (fltStatus src s).part)).mono (by decide)).trans htouch
    have hdef' : pstateOf (fltStatus src s).part u ≠ .undefined := by rw [pstateOf, hpln]; exact hdef
    exact ⟨t, hdone, (htouch .checked (by decide) _).elim (fun e => e.trans (partCheckstop_leaves hdef').1) id, hstep ▸ (hall .pend (by decide) src hup).2⟩
  · obtain ⟨u, t, ⟨hstep, -, -⟩, -, -, hdone, -, hstops⟩ := htaken 3 h3
    obtain ⟨hstopped, hstatus, -⟩ := moduleCheckstop_flt u
    obtain ⟨hlast, htstop⟩ := hstops hstopped
    refine ⟨t, hdone, htstop, ?_⟩
    rw [fltStatus, hlast.trans hstatus]
    exact hstep

end Sys2Proof.Machine
end

section
set_option Elab.async false
/-! PROOFS. PARTITION sections, and the end of APPLYING (02 R37, R42 to R46, R52). -/

namespace Sys2Proof.Machine

/-- What the leaving of a partition's occupant writes. -/
def leaveRegs : List FrameReg := [.out, .pf0, .cpu, .core, .keeps, .own, .still, .flt, .status, .live, .due, .sto, .mem, .arm, .armLink, .chLink, .free, .ch, .jnl, .journal,
  .offers, .eng, .hp, .pf1, .tr, .mq]

/-- What a start writes. -/
def startRegs : List FrameReg := [.out, .pf0, .cpu, .core, .keeps, .own, .still, .flt, .status, .live, .due, .sto, .mem, .arm, .armLink, .chLink, .free, .offers, .pwr, .sensed, .pln,
  .pstate, .checked]

/-- What image commands write when they take effect. -/
def applyRegs : List FrameReg := [.out, .pf0, .cpu, .core, .keeps, .own, .still, .flt, .status, .live, .due, .sto, .mem, .arm, .armLink, .chLink, .links, .idle, .free, .ch, .jnl,
  .journal, .offers, .eng, .hp, .pf1, .tr, .tor, .mq, .pln, .plan, .pstate, .checked, .dram, .failed, .pwr, .sensed, .routing]

section
variable {s : State} {p : Nat}

theorem leave_of_run {t : State} (h : Touches runRegs s t) : Touches leaveRegs s t := h.mono (by decide)

theorem apply_of_leave {t : State} (h : Touches leaveRegs s t) : Touches applyRegs s t := h.mono (by decide)

/-! ### An occupant leaves -/

theorem frame_endDebug (uuid : List Byte) (s : State) : Touches [.tr] s (endDebug p uuid s) := touches_ite (fun _ => .refl _ s) fun _ => frame_tr s _

theorem leave_forceRelease {q : Nat} : Touches leaveRegs s (forceRelease q s) := by
  have hqp : ∀ u v, Touches leaveRegs u (setQp q v u) := fun u v => (frame_hp u _).mono (by decide)
  unfold forceRelease
  split
  · exact .refl _ s
  next b _ =>
    extract_lets off ended
    have hoff : Touches leaveRegs s off := touches_ite (fun _ => .refl _ s) fun _ => (frame_disableQueue s b q).mono (by decide)
    have hended : Touches leaveRegs off ended := by
      unfold ended
      split
      · split
        · exact touches_foldl (fun u _ => touches_ite (fun _ => leave_of_run run_raspEnd) fun _ => .refl _ u) _ off
        · exact touches_foldl (fun u _ => touches_ite (fun _ => leave_of_run run_intEnd) fun _ => .refl _ u) _ off
        · exact .refl _ off
      · exact .refl _ off
    exact ((hoff.trans hended).trans (hqp _ _)).trans (leave_of_run run_pf1Vector)

theorem leave_forceReleases {want : Nat → Bool} : Touches leaveRegs s (forceReleases p want s) :=
  touches_foldl (fun u _ => touches_ite (fun _ => leave_forceRelease) fun _ => .refl _ u) _ s

theorem leave_destroySlots {gone : Nat → KeySlot → Bool} {loads : Nat → Nat → Bool} : Touches leaveRegs s (destroySlots gone loads s) := by
  unfold destroySlots
  extract_lets dead uses
  refine (touches_foldl (fun u k => ?_) _ s).trans (touches_foldl (fun _ _ => leave_of_run run_setKeySlot) _ _)
  have hsusp : ∀ x : Option IntJob, Touches leaveRegs u (match x with
      | some j => if uses j then intFinish k j (some 0x26) (setInt k { intOf k u with susp := none, posting := none } u) else u
      | none => u) := by
    intro x
    split
    · exact touches_ite (fun _ => leave_of_run (run_setInt.trans run_intFinish)) fun _ => .refl _ u
    · exact .refl _ u
  exact (hsusp _).trans (touches_ite (fun _ => leave_of_run run_intEnd) fun _ => .refl _ _)

theorem leave_endGrant : Touches leaveRegs s (endGrant p s) := (frame_mq s _).mono (by decide)

theorem leave_occupantLeaves : Touches leaveRegs s (occupantLeaves p s) := by
  unfold occupantLeaves
  extract_lets uuid off released destroyed
  have hoff : Touches leaveRegs s off :=
    ((frame_tr s _).mono (by decide)).trans ((frame_disableOwnQueues (withdrawPubs p s) p true).mono (by decide))
  have hreleased : Touches leaveRegs off released := leave_forceReleases
  have hdestroyed : Touches leaveRegs released destroyed := leave_destroySlots
  exact ((hoff.trans hreleased).trans hdestroyed).trans leave_endGrant

/-! ### Storage under another key -/

theorem leave_flushLines {f : Nat → Bool} : Touches leaveRegs s (flushLines f s) :=
  ((traffic_writeBackIf (s := s)).mono (by decide)).trans ((frame_onCores _ _ _).mono (by decide))

theorem leave_rekeyRange {k : Rekeyed} : Touches leaveRegs s (rekeyRange k s) := (frame_sto s _).mono (by decide)

theorem leave_scramble {rs : List (Nat × Nat)} : Touches leaveRegs s (scramble rs s) :=
  touches_foldl (fun u _ => touches_ite (fun _ => ((frame_free u _).mono (by decide)).trans leave_rekeyRange) fun _ => .refl _ u) rs s

theorem leave_genStorageKey : Touches leaveRegs s (genStorageKey p s) := by
  have hdrawn : ∀ n, Touches leaveRegs s (drawBytes (drbgCount 48 s) n).2 := fun n => leave_of_run (run_drbgCount.trans (run_of_op (op_drawBytes n)))
  unfold genStorageKey
  extract_lets r
  exact (hdrawn 64).trans ((frame_tr r.2 _).mono (by decide))

theorem leave_replaceKey {xs : List Extent} : Touches leaveRegs s (replaceKey p xs s) := (leave_flushLines.trans leave_scramble).trans leave_genStorageKey

theorem apply_zeroRanges {rs : List (Nat × Nat)} : Touches applyRegs s (zeroRanges rs s) := by
  have hrelease : ∀ f u, Touches applyRegs u (releaseRange f u) := fun f u =>
    touches_foldl (fun v _ => touches_ite (fun _ => frame_releaseRemote.mono (by decide)) fun _ => .refl _ v) _ u
  exact (touches_ite (fun _ => .refl _ s) fun _ => (apply_of_leave leave_flushLines).trans (hrelease _ _)).trans
    (touches_foldl (fun u _ => touches_ite (fun _ => apply_of_leave leave_rekeyRange) fun _ => .refl _ u) rs _)

/-! ### One section -/

theorem apply_setPart {d : Option PlnPart} : Touches applyRegs s (setPart p d s) := (frame_pln s _).mono (by decide)

theorem apply_setPState {v : PState} : Touches applyRegs s (setPState p v s) := frame_setPState.mono (by decide)

theorem partOf_setPart (p q : Nat) (d : Option PlnPart) (s : State) : partOf q (setPart p d s) = if q = p then d else partOf q s := tget_tset none q p d _

theorem partOf_of_pln {t : State} (h : t.pln = s.pln) (q : Nat) : partOf q t = partOf q s := by simp only [partOf, h]

theorem pstateOf_of_pln {t : State} (h : t.pln = s.pln) (q : Nat) : pstateOf q t = pstateOf q s := by simp only [pstateOf, h]

theorem homedHere_of_node {t : State} (h : t.arm.node = s.arm.node) (d : PlnPart) : homedHere d t = homedHere d s := by
  simp only [homedHere, isLocal, h]

/-- A key is replaced where the partition has an extent here. -/
theorem leave_replaceIf {c : Prop} [Decidable c] {xs : List Extent} : Touches leaveRegs s (if c then replaceKey p xs s else s) :=
  touches_ite (fun _ => leave_replaceKey) fun _ => .refl _ s

theorem frame_newOccupant (uuid : List Byte) (s : State) : Touches [.eng, .hp, .pf1, .arm, .tr] s (endDebug p uuid (disableOwnQueues p true s)) :=
  ((frame_disableOwnQueues s p true).mono (by decide)).andThen (frame_endDebug uuid _)

/-- The state with a new partition defined. -/
def defined (d : PlnPart) (s : State) : State :=
  setPState d.id .stopped (seedDrbg d.id (setPart d.id (some d) (endDebug d.id d.uuid (disableOwnQueues d.id true s))))

theorem applySection_new {d : PlnPart} (h : partOf d.id s = none) (hd : isDelete d = false) :
    applySection d s = if homedHere d (defined d s) then replaceKey d.id d.extents (defined d s) else defined d s := by
  simp only [applySection, h, hd]
  rfl

theorem applySection_defines {d : PlnPart} (h : partOf d.id s = none) (hd : isDelete d = false) :
    partOf d.id (applySection d s) = some d ∧ pstateOf d.id (applySection d s) = .stopped ∧ (∀ q, q ≠ d.id → pstateOf q (applySection d s) = pstateOf q s) ∧
      (homedHere d s = false → (tget {} d.id (applySection d s).tr.drbg).seeded = s.tor.tor ∧ (applySection d s).sto = s.sto) := by
  have hnew := frame_newOccupant (p := d.id) d.uuid s
  generalize hu : endDebug d.id d.uuid (disableOwnQueues d.id true s) = u at hnew
  have hdef : defined d s = setPState d.id .stopped (seedDrbg d.id (setPart d.id (some d) u)) := by rw [← hu]; rfl
  rw [applySection_new h hd, hdef]
  generalize hx : setPState d.id .stopped (seedDrbg d.id (setPart d.id (some d) u)) = x
  have hpln : ∀ c : Prop, [Decidable c] → (if c then replaceKey d.id d.extents x else x).pln = x.pln := fun c _ => leave_replaceIf .pln (by decide)
  have hxpart : partOf d.id x = some d := by rw [← hx]; exact (partOf_setPart d.id d.id (some d) u).trans (if_pos rfl)
  have hxst : ∀ q, pstateOf q x = if q = d.id then .stopped else pstateOf q s := fun q => by
    rw [← hx, pstateOf_setPState]
    have hold : pstateOf q u = pstateOf q s := pstateOf_of_pln (hnew .pln (by decide)) q
    rw [← hold]
    rfl
  refine ⟨(partOf_of_pln (hpln _) _).trans hxpart, ?_, fun q hq => ?_, fun hh => ?_⟩
  · rw [pstateOf_of_pln (hpln _), hxst, if_pos rfl]
  · rw [pstateOf_of_pln (hpln _), hxst, if_neg hq]
  · have hnode : x.arm.node = s.arm.node := by rw [← hx]; exact hnew .node (by decide)
    rw [homedHere_of_node hnode, hh, if_neg (by simp), ← hx]
    have htor : u.tor = s.tor := hnew .tor (by decide)
    refine ⟨?_, (hnew .sto (by decide) : u.sto = s.sto)⟩
    show (tget {} d.id (tset {} d.id { requests := 0, seeded := u.tor.tor, reseeds := 0 } u.tr.drbg)).seeded = s.tor.tor
    rw [tget_tset, if_pos rfl, htor]

/-- The state of a partition after the section that replaces its definition. -/
theorem pstateOf_stateAfter (p : Nat) (s : State) : pstateOf p (stateAfter p s) = .stopped ∨
    (pstateOf p (stateAfter p s) = .stopping ∧ pstateOf p s = .checkstopped) := by
  unfold stateAfter
  rw [pstateOf_setPState, if_pos rfl]
  split
  next h => exact .inr ⟨rfl, h.1⟩
  next => exact .inl rfl

/-- A definition that takes a partition's place, in a state with the image's block as in `s`. -/
theorem replaces_definition {d : PlnPart} {u t : State} (hu : u.pln = s.pln) (ht : Touches leaveRegs (stateAfter d.id (setPart d.id (some d) u)) t) :
    partOf d.id t = some d ∧ (pstateOf d.id t = .stopped ∨ (pstateOf d.id t = .stopping ∧ pstateOf d.id s = .checkstopped)) := by
  have hpln : t.pln = (stateAfter d.id (setPart d.id (some d) u)).pln := ht .pln (by decide)
  have hold : pstateOf d.id (setPart d.id (some d) u) = pstateOf d.id s := pstateOf_of_pln hu d.id
  refine ⟨?_, ?_⟩
  · rw [partOf_of_pln hpln]
    exact (partOf_setPart d.id d.id (some d) u).trans (if_pos rfl)
  · rw [pstateOf_of_pln hpln, ← hold]
    exact pstateOf_stateAfter d.id _

theorem applySection_replaces {d o : PlnPart} (h : partOf d.id s = some o) (hd : isDelete d = false) :
    partOf d.id (applySection d s) = some d ∧ (pstateOf d.id (applySection d s) = .stopped ∨
      (pstateOf d.id (applySection d s) = .stopping ∧ pstateOf d.id s = .checkstopped)) := by
  unfold applySection
  simp only [h, hd]
  rw [if_neg (by simp)]
  split
  · have hleave : Touches leaveRegs s (seedDrbg d.id (endDebug d.id d.uuid (occupantLeaves d.id s))) :=
      (leave_occupantLeaves.trans ((frame_endDebug (p := d.id) d.uuid _).mono (by decide))).trans ((frame_tr _ _).mono (by decide))
    generalize hu : endDebug d.id d.uuid (occupantLeaves d.id s) = u at hleave
    exact replaces_definition (u := seedDrbg d.id u) (hleave .pln (by decide)) (touches_ite (fun _ => leave_replaceKey) fun _ => (frame_tr _ _).mono (by decide))
  · generalize hf : forceReleases d.id _ s = u
    generalize hv : destroySlots _ _ u = v
    have hleave : Touches leaveRegs s v := by
      rw [← hv, ← hf]
      exact leave_forceReleases.trans leave_destroySlots
    exact replaces_definition (hleave .pln (by decide)) (touches_ite (fun _ => leave_replaceKey) fun _ => leave_flushLines.trans leave_scramble)

theorem applySection_deletes {d o : PlnPart} (h : partOf d.id s = some o) (hd : isDelete d = true) :
    partOf d.id (applySection d s) = none ∧ pstateOf d.id (applySection d s) = .undefined ∧ tget none d.id (applySection d s).tr.storageKey = none := by
  unfold applySection
  simp only [h, hd, if_true]
  generalize occupantLeaves d.id s = u
  refine ⟨?_, ?_, (tget_tdel none d.id d.id _).trans (if_pos rfl)⟩
  · exact (partOf_setPart d.id d.id none _).trans (if_pos rfl)
  · exact (pstateOf_setPState d.id d.id .undefined _).trans (if_pos rfl)

theorem apply_applySection (d : PlnPart) (s : State) : Touches applyRegs s (applySection d s) := by
  have hafter : ∀ u, Touches applyRegs u (stateAfter d.id u) := fun u => apply_setPState
  have htr : ∀ (u : State) (x : Trust), Touches applyRegs u { u with tr := x } := fun u x => (frame_tr u x).mono (by decide)
  unfold applySection
  extract_lets p fresh freshDef gone goneDef goneTr left leftDef leftTr
  have hfresh : Touches applyRegs s freshDef :=
    ((((frame_newOccupant (p := p) d.uuid s).mono (by decide)).trans apply_setPart).trans (htr _ _)).trans apply_setPState
  have hleaves : Touches applyRegs s gone := apply_of_leave leave_occupantLeaves
  have hgone : Touches applyRegs s goneDef := (hleaves.trans apply_setPart).trans apply_setPState
  have hleft : Touches applyRegs s leftDef :=
    (((hleaves.trans ((frame_endDebug d.uuid gone).mono (by decide))).trans apply_setPart).trans (htr _ _)).trans (hafter _)
  split
  · exact touches_ite (fun _ => .refl _ s) fun _ => hfresh.trans (touches_ite (fun _ => apply_of_leave leave_replaceKey) fun _ => .refl _ freshDef)
  · refine touches_ite (fun _ => hgone.trans (htr _ _)) fun _ => touches_ite (fun _ =>
      hleft.trans (touches_ite (fun _ => apply_of_leave leave_replaceKey) fun _ => htr _ _)) fun _ => ?_
    extract_lets released cut destroyed first kept
    have hdestroyed : Touches applyRegs s destroyed := apply_of_leave (leave_forceReleases.trans leave_destroySlots)
    have hkept : Touches applyRegs s kept := (hdestroyed.trans apply_setPart).trans (hafter _)
    exact hkept.trans (touches_ite (fun _ => apply_of_leave leave_replaceKey) fun _ => apply_of_leave (leave_flushLines.trans leave_scramble))

theorem apply_applySections (ds : List PlnPart) (s : State) : Touches applyRegs s (applySections ds s) :=
  (touches_foldl (fun u d => apply_applySection d u) ds s).trans apply_zeroRanges

/-! ### A partial image -/

theorem frame_setClocks (before : List PlnPart) (s : State) : Touches [.pwr, .sensed] s (setClocks before s) := by
  refine touches_foldl (fun u c => ?_) _ s
  split
  · exact .refl _ u
  · exact touches_ite (fun _ => .refl _ u) fun _ => frame_pwr u _

theorem frame_recordImage (i : PlnImage) (b : List Byte) (s : State) : Touches [.pln, .plan, .tr] s (recordImage i b s) :=
  ((frame_plan s (recordImage i b s).pln rfl).mono (by decide)).andThen (rs := [.pln, .plan, .tr])
    (frame_tr { s with pln := (recordImage i b s).pln } (recordImage i b s).tr)

theorem frame_closeWindow (s : State) : Touches [.tor, .pln, .plan] s (closeWindow s) :=
  touches_ite (fun _ => .refl _ s) fun _ => ((frame_timer s { s.tor with window := false } rfl).mono (by decide)).andThen (rs := [.tor, .pln, .plan])
    (frame_plan { s with tor := { s.tor with window := false } } { s.pln with applied := true } rfl)

theorem apply_dropClear (a b : Nat) (s : State) : Touches applyRegs s (dropClear a b s) :=
  touches_foldl (fun u _ => touches_ite (fun _ => link_linkDown.mono (by decide)) fun _ => .refl _ u) _ s

/-- The image's block as an image leaves it that has taken effect. -/
theorem closeWindow_pln (s : State) : ∃ a, (closeWindow s).pln = { s.pln with applied := a } := by
  unfold closeWindow
  split
  · exact ⟨_, rfl⟩
  · exact ⟨_, rfl⟩

/-- What a partial image changes before it is recorded. -/
def partialEffect (i : PlnImage) (s : State) : State :=
  let u := applySections i.parts s
  let v := match i.mod_, u.pln.module_ with
    | some m, some old => dropClear old.clearLink m.clearLink (setNeighbour m { u with pln := { u.pln with module_ := some m } })
    | _, _ => u
  match i.routes with
  | some r => newRoutes r { v with arm := { v.arm with change := true } }
  | none => v

theorem applyPartial_eq (i : PlnImage) (b : List Byte) (s : State) :
    applyPartial i b s = announceChange (closeWindow (setClocks (s.pln.parts.filterMap (·.2)) (recordImage i b (partialEffect i s)))) := by
  unfold applyPartial partialEffect
  rcases i.routes with - | r <;> rfl

theorem apply_partialEffect (i : PlnImage) (s : State) : Touches applyRegs s (partialEffect i s) := by
  have hmodule : ∀ u, Touches applyRegs u (match i.mod_, u.pln.module_ with
      | some m, some old => dropClear old.clearLink m.clearLink (setNeighbour m { u with pln := { u.pln with module_ := some m } })
      | _, _ => u) := by
    intro u
    split
    · exact (((frame_pln u _).mono (by decide)).trans ((frame_setNeighbour _ _).mono (by decide))).trans (apply_dropClear _ _ _)
    · exact .refl _ u
  have hsections := (apply_applySections i.parts s).trans (hmodule _)
  unfold partialEffect
  dsimp only
  split
  · exact hsections.trans (((frame_fabric _ _ (by exact rfl) (by exact rfl)).mono (by decide)).trans ((frame_newRoutes _ _).mono (by decide)))
  · exact hsections

/-- Recording an image, and the end of the start window, of the clocks and of the fabric's news that go with it. -/
theorem apply_recorded (i : PlnImage) (b : List Byte) (before : List PlnPart) (s : State) :
    Touches applyRegs s (announceChange (closeWindow (setClocks before (recordImage i b s)))) :=
  ((((frame_recordImage i b s).mono (by decide)).trans ((frame_setClocks before _).mono (by decide))).trans ((frame_closeWindow _).mono (by decide))).trans
    ((frame_announceChange _).mono (by decide))

theorem apply_applyPartial (i : PlnImage) (b : List Byte) (s : State) : Touches applyRegs s (applyPartial i b s) := by
  rw [applyPartial_eq]
  exact (apply_partialEffect i s).trans (apply_recorded i b _ _)

/-- The image's block after an image is recorded. -/
theorem recorded_pln (i : PlnImage) (b : List Byte) (before : List PlnPart) (s : State) :
    ∃ a, (announceChange (closeWindow (setClocks before (recordImage i b s)))).pln = { (recordImage i b s).pln with applied := a } := by
  obtain ⟨a, ha⟩ := closeWindow_pln (setClocks before (recordImage i b s))
  have hclocks : (setClocks before (recordImage i b s)).pln = (recordImage i b s).pln := frame_setClocks before _ .pln (by decide)
  exact ⟨a, (frame_announceChange _ .pln (by decide)).trans (ha.trans (by rw [hclocks]))⟩

theorem applyPartial_generation (i : PlnImage) (b : List Byte) (s : State) : (applyPartial i b s).pln.generation = i.generation := by
  obtain ⟨a, ha⟩ := recorded_pln i b (s.pln.parts.filterMap (·.2)) (partialEffect i s)
  rw [applyPartial_eq, ha]
  rfl

/-! ### Starts -/

theorem start_resetCore {l : Nat} : Touches startRegs s (resetCore l s) := by
  have hdrained : Touches startRegs s (wbInvCore l (drainSystem l s)) := (traffic_drainSystem.trans traffic_wbInvCore).mono (by decide)
  unfold resetCore
  dsimp only
  split
  · exact hdrained
  · exact hdrained.trans ((frame_cpu _ _).mono (by decide))

theorem start_startCores : Touches startRegs s (startCores p s) :=
  touches_foldl (fun _ _ => start_resetCore.trans ((frame_modCore _ _ _).mono (by decide))) _ s

theorem start_startLost : Touches startRegs s (startLost p s) := touches_foldl (fun _ _ => lose_exigOnPart.mono (by decide)) _ s

theorem start_reoffer : Touches startRegs s (reoffer p s) := by
  have hoffers : ∀ (u : State) (x : List Offer), Touches startRegs u { u with offers := x } := fun u x => (frame_offers u x).mono (by decide)
  have hfinal : ∀ u i, Touches startRegs u (offerFinal i u) := fun u i => (hoffers u _).trans (touches_ite (fun _ => .refl _ _) fun _ => hoffers _ _)
  exact (hoffers s _).trans (touches_foldl (fun u i => touches_ite (fun _ => hfinal u i) fun _ => .refl _ u) _ _)

theorem start_startPart : Touches startRegs s (startPart p s) :=
  ((start_startCores.trans (frame_setPState.mono (by decide))).trans start_startLost).trans start_reoffer

theorem start_startReady : Touches startRegs s (startReady p s) :=
  touches_ite (fun _ => (frame_pstates s s.pln.pstate s.pln.presult s.pln.zero (s.pln.starting ++ [p])).mono (by decide)) fun _ => start_startPart

theorem start_startInto {t : State} (h : startInto p s = some t) : Touches startRegs s t := by
  unfold startInto at h
  split at h
  · split at h
    · simp at h
    · obtain rfl := Option.some.inj h
      exact (((frame_pwr s _).mono (by decide)).trans (traffic_partWrite.mono (by decide))).trans start_startReady
  · obtain rfl := Option.some.inj h
    exact start_startPart

theorem start_startAll : Touches startRegs s (startAll s) := by
  refine (touches_foldl (fun u q => frame_setPState.mono (by decide)) _ s).trans (touches_foldl (fun u q => ?_) _ _)
  split
  · refine touches_ite (fun _ => ?_) fun _ => .refl _ u
    cases h : startInto q u with
    | none => exact .refl _ u
    | some t => exact start_startInto h
  · exact .refl _ u

end

end Sys2Proof.Machine
end

section
set_option Elab.async false
/-! PROOFS. APPLYING ends (02 R45, R52). -/

namespace Sys2Proof.Machine

/-- An image has taken effect, from a source. -/
structure Applied (i : PlnImage) (source : Nat) (t : State) : Prop where
  state : t.pln.state = .applied
  job : t.pln.job = none
  result : t.pln.result = 0
  from_ : t.pln.source = source
  generation : t.pln.generation = i.generation

section
variable {i : PlnImage} {source : Nat} {s t : State}

theorem Applied.of_plan (h : Applied i source s) (hp : planOf t = planOf s) : Applied i source t where
  state := (congrArg Plinth.state hp).trans h.state
  job := (congrArg Plinth.job hp).trans h.job
  result := (congrArg Plinth.result hp).trans h.result
  from_ := (congrArg Plinth.source hp).trans h.from_
  generation := (congrArg Plinth.generation hp).trans h.generation

theorem planOf_of_pln (h : t.pln = s.pln) : planOf t = planOf s := by simp only [planOf, h]

/-! ### A full image -/

theorem frame_becomeMember (s : State) : Touches [.fstate, .arm, .out, .armLink, .chLink] s (becomeMember s) :=
  ((touches_ite (fun _ => (frame_arm s _).mono (by decide)) fun _ => .refl _ s : Touches [.node, .depart, .routing, .fstate, .arm, .out, .armLink, .chLink] s _).holding
    (by split <;> rfl) |>.holding (by split <;> rfl) |>.holding (by split <;> rfl)).andThen (frame_announceChange _)

theorem finishImage_frame (i : PlnImage) (b : List Byte) (source : Nat) (s : State) :
    Touches (.fstate :: applyRegs) s (finishImage i b source s) ∧ Applied i source (finishImage i b source s) := by
  unfold finishImage
  extract_lets u v src w
  have hu : Touches (.fstate :: applyRegs) s u := touches_ite (fun _ => run_decidePorts.mono (by decide)) fun _ => .refl _ s
  have hclocks : v.pln = (recordImage i b u).pln := frame_setClocks [] _ .pln (by decide)
  have hv : Touches (.fstate :: applyRegs) u v := ((frame_recordImage i b u).mono (by decide)).trans ((frame_setClocks [] _).mono (by decide))
  have hw : Touches (.fstate :: applyRegs) v w := (frame_pln v w.pln).mono (by decide)
  have hstart : Touches startRegs w (startAll w) := start_startAll
  have happlied : Applied i source w := ⟨rfl, rfl, rfl, rfl, by show v.pln.generation = _; rw [hclocks]; rfl⟩
  have hstarted : Applied i source (startAll w) := happlied.of_plan (hstart .plan (by decide))
  obtain ⟨a, ha⟩ := closeWindow_pln (startAll w)
  have hclosed : Applied i source (closeWindow (startAll w)) :=
    ⟨by rw [ha]; exact hstarted.state, by rw [ha]; exact hstarted.job, by rw [ha]; exact hstarted.result, by rw [ha]; exact hstarted.from_,
      by rw [ha]; exact hstarted.generation⟩
  refine ⟨?_, hclosed.of_plan (frame_becomeMember _ .plan (by decide))⟩
  exact ((((hu.trans hv).trans hw).trans (hstart.mono (by decide))).trans ((frame_closeWindow _).mono (by decide))).trans ((frame_becomeMember _).mono (by decide))

/-! ### The end of APPLYING -/

theorem exec_applyingEnd (ho : operating s = true) (hst : s.pln.state = .applying) : exec .applyingEnd s = done s (applyingEnd s) := by
  show execApplyingEnd s = _
  simp [execApplyingEnd, ho, hst]

/-- The queues of every partition that an image names have drained. -/
def namedDrained (i : PlnImage) (s : State) : Bool := i.parts.all (fun d => ownQueuesIdle d.id s)

theorem applyingEnd_waits {j : PlnJob} (hj : s.pln.job = some j) (hi : j.image = some i) (hd : namedDrained i s = false) : applyingEnd s = s := by
  rw [namedDrained] at hd
  simp only [applyingEnd, hj, hi, hd]
  simp

theorem applyingEnd_full {j : PlnJob} (hj : s.pln.job = some j) (hi : j.image = some i) (hst : j.stage = 5) (hd : namedDrained i s = true) (hc : j.cmd = 1) :
    applyingEnd s = pf0Vector 1 (finishImage i j.bytes 3 s) := by
  rw [namedDrained] at hd
  simp only [applyingEnd, hj, hi, hd, hst, hc]
  simp

/-- A partial image that has taken effect. -/
def partialApplied (i : PlnImage) (b : List Byte) (s : State) : State :=
  let u := applyPartial i b s
  plnResult 0 { u with pln := { u.pln with state := .applied, source := 3, job := none } }

theorem applyingEnd_partial {j : PlnJob} (hj : s.pln.job = some j) (hi : j.image = some i) (hst : j.stage = 5) (hd : namedDrained i s = true) (hc : j.cmd ≠ 1)
    (ha : awayRanges (rangesLeft i.parts s) s = []) (hz : zeroReady (rangesLeft i.parts s) s = true) (hl : leaversReady i.parts s = true) :
    applyingEnd s = if (partialApplied i j.bytes s).dx.state = 6 ∧ partnerOn (partialApplied i j.bytes s) then
      sendPairing (setDxState 1 (partialApplied i j.bytes s)) else partialApplied i j.bytes s := by
  rw [namedDrained] at hd
  rw [applyingEnd]
  simp only [hj, hi]
  rw [if_neg (by simp [hst, hd]), if_neg hc, if_neg (by simp [ha]), if_neg (by simp [hz, hl])]
  rfl

theorem partialApplied_applied (i : PlnImage) (b : List Byte) (s : State) : Applied i 3 (partialApplied i b s) := by
  have hpln := plnResult_pln 0 { applyPartial i b s with pln := { (applyPartial i b s).pln with state := .applied, source := 3, job := none } }
  exact ⟨congrArg Plinth.state hpln, congrArg Plinth.job hpln, congrArg Plinth.result hpln, congrArg Plinth.source hpln,
    (congrArg Plinth.generation hpln).trans (applyPartial_generation i b s)⟩

theorem apply_partialApplied (i : PlnImage) (b : List Byte) (s : State) : Touches applyRegs s (partialApplied i b s) :=
  ((apply_applyPartial i b s).trans ((frame_pln _ _).mono (by decide))).trans ((frame_plnResult 0 _).mono (by decide))

theorem frame_pairing (s : State) : Touches [.dx, .jnl, .out] s (sendPairing (setDxState 1 s)) :=
  (((frame_dx s (setDxState 1 s).dx).mono (by decide)).andThen (frame_jnlOut { s with dx := (setDxState 1 s).dx } (setDxState 1 s).jnl rfl rfl)).andThen
    (rs := [.dx, .jnl, .out]) (frame_emit (setDxState 1 s) _)

/-- A command after whose operation an image has taken effect, whatever steps the command made due. -/
theorem done_applied {u : State} (h : Applied i source u) (hp : u.pending = s.pending) : ∃ t, done s u = .next t ∧ Applied i source t := by
  obtain ⟨t, hdone, htouch⟩ := done_settles hp
  exact ⟨t, hdone, h.of_plan (htouch .plan (by decide))⟩

/-! ### Routes only -/

theorem partialEffect_routes {r : List PlnRoute} (hp : i.parts = []) (hm : i.mod_ = none) (hr : i.routes = some r) :
    partialEffect i s = newRoutes r { s with arm := { s.arm with change := true } } := by
  have hsections : applySections [] s = s := rfl
  simp only [partialEffect, hp, hsections, hm, hr]

theorem announceChange_change (h : s.arm.change = true) : (announceChange s).arm.change = true := by
  have hown : (floodOwn (dbChanged s)).arm.change = true := by
    unfold floodOwn
    split
    · rfl
    · have hflood := fun u a => (frame_floodAdv u (fun _ => true) a) .arm (by decide)
      rw [hflood]
      rfl
  unfold announceChange
  split
  · exact hown
  · exact h

theorem closeWindow_tor (s : State) : ∃ w, (closeWindow s).tor = { s.tor with window := w } := by
  unfold closeWindow
  split
  · exact ⟨_, rfl⟩
  · exact ⟨_, rfl⟩

/-- The module once an image that names routes only is recorded. -/
def routesRecorded (r : List PlnRoute) (i : PlnImage) (b : List Byte) (s : State) : State :=
  closeWindow (setClocks (s.pln.parts.filterMap (·.2)) (recordImage i b (newRoutes r { s with arm := { s.arm with change := true } })))

theorem frame_routesRecorded (r : List PlnRoute) (i : PlnImage) (b : List Byte) (s : State) :
    Touches [.pln, .plan, .tr, .pwr, .sensed, .tor, .arm, .routing] s (routesRecorded r i b s) :=
  (((((frame_fabric s { s.arm with change := true } rfl rfl).mono (by decide)).andThen (frame_newRoutes r _)).andThen (frame_recordImage i b _)).andThen
    (frame_setClocks _ _)).andThen (frame_closeWindow _)

theorem routesRecorded_pln (r : List PlnRoute) (i : PlnImage) (b : List Byte) (s : State) :
    (routesRecorded r i b s).pln.routes = r ∧ (routesRecorded r i b s).pln.parts = s.pln.parts ∧ (routesRecorded r i b s).pln.pstate = s.pln.pstate := by
  obtain ⟨a, ha⟩ := closeWindow_pln (setClocks (s.pln.parts.filterMap (·.2)) (recordImage i b (newRoutes r { s with arm := { s.arm with change := true } })))
  rw [routesRecorded, ha, frame_setClocks _ _ .pln (by decide)]
  exact ⟨rfl, rfl, rfl⟩

theorem routesRecorded_meas (r : List PlnRoute) {i : PlnImage} (b : List Byte) (s : State) (hp : i.isPartial = true) :
    (routesRecorded r i b s).tr.meas = sha384 (s.tr.meas ++ sha384 b) := by
  rw [routesRecorded, frame_closeWindow _ .tr (by decide), frame_setClocks _ _ .tr (by decide)]
  exact if_pos hp

theorem routesRecorded_change (r : List PlnRoute) (i : PlnImage) (b : List Byte) (s : State) : (routesRecorded r i b s).arm.change = true := by
  rw [routesRecorded, frame_closeWindow _ .arm (by decide), frame_setClocks _ _ .arm (by decide)]
  rfl

theorem routesRecorded_tor (r : List PlnRoute) (i : PlnImage) (b : List Byte) (s : State) : ∃ w, (routesRecorded r i b s).tor = { s.tor with window := w } := by
  obtain ⟨w, hw⟩ := closeWindow_tor (setClocks (s.pln.parts.filterMap (·.2)) (recordImage i b (newRoutes r { s with arm := { s.arm with change := true } })))
  exact ⟨w, by rw [routesRecorded, hw, frame_setClocks _ _ .tor (by decide)]; rfl⟩

/-- An image that names routes only has nothing more to do than to be recorded and made known. -/
theorem partialApplied_routes {r : List PlnRoute} (b : List Byte) (hp : i.parts = []) (hm : i.mod_ = none) (hr : i.routes = some r) :
    partialApplied i b s = plnResult 0 { announceChange (routesRecorded r i b s) with
      pln := { (announceChange (routesRecorded r i b s)).pln with state := .applied, source := 3, job := none } } := by
  have hu : applyPartial i b s = announceChange (routesRecorded r i b s) := by rw [applyPartial_eq, partialEffect_routes hp hm hr, routesRecorded]
  simp only [partialApplied, hu]

/-- What an image that names routes only leaves, and that nothing of it is told at the end of the command but the change itself. -/
theorem partialApplied_routes_frame {r : List PlnRoute} (b : List Byte) (hp : i.parts = []) (hm : i.mod_ = none) (hr : i.routes = some r)
    (hpart : i.isPartial = true) :
    (partialApplied i b s).pln.routes = r ∧ (partialApplied i b s).pln.parts = s.pln.parts ∧ (partialApplied i b s).pln.pstate = s.pln.pstate ∧
      (partialApplied i b s).tr.meas = sha384 (s.tr.meas ++ sha384 b) ∧ (partialApplied i b s).arm.change = true ∧
      Touches [.pln, .plan, .tr, .pwr, .sensed, .tor, .out, .arm, .routing, .armLink, .chLink, .pf0] s (partialApplied i b s) ∧ Safety.sameReport s (partialApplied i b s) := by
  obtain ⟨hroutes, hparts, hstates⟩ := routesRecorded_pln r i b s
  obtain ⟨w, hw⟩ := routesRecorded_tor r i b s
  have hmeas := routesRecorded_meas r b s hpart
  have hchange := announceChange_change (routesRecorded_change r i b s)
  have hu : Touches [.out, .arm, .armLink, .chLink] (routesRecorded r i b s) (announceChange (routesRecorded r i b s)) := frame_announceChange _
  have hv : Touches [.pln, .plan, .out, .pf0] (announceChange (routesRecorded r i b s)) (partialApplied i b s) := by
    rw [partialApplied_routes b hp hm hr]
    exact ((frame_plan _ _ (by exact rfl)).mono (by decide)).andThen (frame_plnResult 0 _)
  have hpln : (partialApplied i b s).pln = { (announceChange (routesRecorded r i b s)).pln with state := .applied, source := 3, job := none, result := 0 } := by
    rw [partialApplied_routes b hp hm hr, plnResult_pln]
  rw [show (announceChange (routesRecorded r i b s)).pln = (routesRecorded r i b s).pln from hu .pln (by decide)] at hpln
  have hframe := ((frame_routesRecorded r i b s).mono (by decide)).andThen (rs := [.pln, .plan, .tr, .pwr, .sensed, .tor, .out, .arm, .routing, .armLink, .chLink, .pf0])
    hu |>.andThen hv
  have htor : (partialApplied i b s).tor = { s.tor with window := w } := (hv .tor (by decide)).trans ((hu .tor (by decide)).trans hw)
  have hdx : (partialApplied i b s).dx = s.dx := hframe .dx (by decide)
  have hfab : (partialApplied i b s).arm.fstate = s.arm.fstate := hframe .fstate (by decide)
  refine ⟨by rw [hpln]; exact hroutes, by rw [hpln]; exact hparts, by rw [hpln]; exact hstates,
    (congrArg Trust.meas (hv .tr (by decide))).trans ((congrArg Trust.meas (hu .tr (by decide))).trans hmeas),
    (congrArg (·.change) (hv .arm (by decide))).trans hchange, hframe, ?_⟩
  simp [Safety.sameReport, htor, hdx, hfab]

/-- An image that no check finds fault with has taken effect when APPLYING ends. -/
theorem applyingEnd_applied {j : PlnJob} (hs : Safety.settled s) (hj : s.pln.job = some j) (hi : j.image = some i) (hst : j.stage = 5)
    (hd : namedDrained i s = true)
    (hready : j.cmd = 1 ∨ (awayRanges (rangesLeft i.parts s) s = [] ∧ zeroReady (rangesLeft i.parts s) s = true ∧ leaversReady i.parts s = true)) :
    ∃ t, done s (applyingEnd s) = .next t ∧ Applied i 3 t ∧
      (∀ r, j.cmd = 2 → i.parts = [] → i.mod_ = none → i.routes = some r → i.isPartial = true → s.dx.state ≠ 6 →
        t.pln.routes = r ∧ t.pln.parts = s.pln.parts ∧ t.pln.pstate = s.pln.pstate ∧
        t.tr.meas = sha384 (s.tr.meas ++ sha384 j.bytes) ∧ t.arm.change = true ∧ t.sto = s.sto ∧ t.cpu = s.cpu) := by
  by_cases hc : j.cmd = 1
  · rw [applyingEnd_full hj hi hst hd hc]
    obtain ⟨htouch, happlied⟩ := finishImage_frame i j.bytes 3 s
    have hvector := frame_pf0Vector (finishImage i j.bytes 3 s) 1
    obtain ⟨t, hdone, h⟩ := done_applied (happlied.of_plan (hvector .plan (by decide))) ((hvector .pending (by decide)).trans (htouch .pending (by decide)))
    exact ⟨t, hdone, h, fun r h2 => by omega⟩
  · obtain ⟨ha, hz, hl⟩ := hready.resolve_left hc
    have hframe := apply_partialApplied i j.bytes s
    rw [applyingEnd_partial hj hi hst hd hc ha hz hl]
    split
    case isTrue hpair =>
      have hpairing := frame_pairing (partialApplied i j.bytes s)
      obtain ⟨t, hdone, h⟩ := done_applied (s := s) ((partialApplied_applied i j.bytes s).of_plan (hpairing .plan (by decide)))
        ((hpairing .pending (by decide)).trans (hframe .pending (by decide)))
      refine ⟨t, hdone, h, fun r _ hp hm hr hpart hx => absurd hpair.1 ?_⟩
      obtain ⟨-, -, -, -, -, hroutes, -⟩ := partialApplied_routes_frame (s := s) j.bytes hp hm hr hpart
      rwa [show (partialApplied i j.bytes s).dx = s.dx from hroutes .dx (by decide)]
    case isFalse =>
      obtain ⟨t, hdone, h⟩ := done_applied (s := s) (partialApplied_applied i j.bytes s) (hframe .pending (by decide))
      refine ⟨t, hdone, h, fun r _ hp hm hr hpart hx => ?_⟩
      obtain ⟨h1, h2, h3, h4, h5, hroutes, hreport⟩ := partialApplied_routes_frame (s := s) j.bytes hp hm hr hpart
      have hdue : (partialApplied i j.bytes s).flt.due = s.flt.due := hroutes .due (by decide)
      rw [done_quiet (hdue.trans hs) (hroutes .pending (by decide)) hreport] at hdone
      cases hdone
      exact ⟨h1, h2, h3, h4, h5, hroutes .sto (by decide), hroutes .cpu (by decide)⟩

end

/-- Settles O18, from what an image leaves that has taken effect, and what a section leaves of its partition. -/
theorem applyingTakesEffect : Obligations.ApplyingTakesEffect := by
  refine ⟨fun s j i hs ho hst hj hi h5 => ?_, fun d s => ⟨applySection_defines, fun o => applySection_replaces, fun o => applySection_deletes⟩⟩
  rw [exec_applyingEnd ho hst]
  refine ⟨fun hd => ?_, fun hd hready => ?_⟩
  · rw [applyingEnd_waits hj hi hd]
    exact done_framed (.refl [] s) hs
  · obtain ⟨t, hdone, h, hroutes⟩ := applyingEnd_applied hs hj hi h5 hd hready
    exact ⟨t, hdone, h.state, h.job, h.result, h.from_, h.generation, hroutes⟩

end Sys2Proof.Machine
end

section
set_option Elab.async false
set_option Elab.async false
/-! PROOFS. Partitions start, stop and are reset (02 R42, R43, R47; 25 R561, R562). -/

namespace Sys2Proof.Machine

/-- What the reset of a core writes. -/
def resetRegs : List FrameReg := [.out, .pf0, .cpu, .core, .keeps, .own, .flt, .status, .live, .due, .sto, .mem, .arm, .armLink, .chLink, .free]

section
variable {s t : State} {p l : Nat}

/-! ### One core -/

theorem frame_wbReset : Touches trafficRegs s (wbInvCore l (drainSystem l s)) := traffic_drainSystem.trans traffic_wbInvCore

theorem frame_setCore (c : Core) : Touches [.cpu, .core, .keeps, .own] s (setCore l c s) := frame_modCore s l fun _ => c

theorem recState_of_still (h : Still s t) (k : Nat) : recState k t = recState k s := by simp only [recState, h.recState]

/-- The reset of a core is storage traffic, and then a fresh core where it is not lost. -/
theorem resetCore_cases (l : Nat) (s : State) : ∃ u, Touches trafficRegs s u ∧
    resetCore l s = if recState l s = 2 then u else setCore l { mqHalt := (coreOf l s).mqHalt } u := by
  refine ⟨wbInvCore l (drainSystem l s), frame_wbReset, ?_⟩
  have htraffic : Touches trafficRegs s (wbInvCore l (drainSystem l s)) := frame_wbReset
  unfold resetCore
  generalize wbInvCore l (drainSystem l s) = u at htraffic ⊢
  have hhalt : (coreOf l u).mqHalt = (coreOf l s).mqHalt := (congrArg Core.mqHalt (htraffic .own (by decide) l) :)
  simp only [recState_of_still (htraffic .still (by decide)), hhalt]

theorem frame_resetCore : Touches resetRegs s (resetCore l s) := by
  obtain ⟨u, htraffic, heq⟩ := resetCore_cases l s
  rw [heq]
  split
  · exact htraffic.mono (by decide)
  · exact (htraffic.mono (by decide)).trans ((frame_setCore _).mono (by decide))

/-- A core that is not lost is reset; what storage traffic leaves of the others stays. -/
theorem own_resetCore (h : recState l s ≠ 2) (k : Nat) :
    ownOf (coreOf k (resetCore l s)) = if k = l then ownOf { mqHalt := (coreOf l s).mqHalt } else ownOf (coreOf k s) := by
  obtain ⟨u, htraffic, heq⟩ := resetCore_cases l s
  rw [heq, if_neg h, coreOf_setCore]
  split
  · rfl
  · exact htraffic .own (by decide) k

theorem own_resetCore_lost (h : recState l s = 2) (k : Nat) : ownOf (coreOf k (resetCore l s)) = ownOf (coreOf k s) := by
  obtain ⟨u, htraffic, heq⟩ := resetCore_cases l s
  rw [heq, if_pos h]
  exact htraffic .own (by decide) k

/-! ### One core after another -/

/-- Where each step of a run over cores leaves its own core a value that its number gives, and the others as they are, each core of the run has its value after it. -/
theorem own_foldl {f : State → Nat → State} {v : Nat → Core} (hf : ∀ u l, Still u (f u l)) (hl : ∀ u l, recState l u ≠ 2 → ownOf (coreOf l (f u l)) = ownOf (v l))
    (hk : ∀ u l k, k ≠ l → ownOf (coreOf k (f u l)) = ownOf (coreOf k u)) (k : Nat) (ls : List Nat) :
    ∀ s, recState k s ≠ 2 → (k ∈ ls ∨ ownOf (coreOf k s) = ownOf (v k)) → ownOf (coreOf k (ls.foldl f s)) = ownOf (v k) := by
  induction ls with
  | nil => exact fun s _ h => h.resolve_left (by simp)
  | cons l ls ih =>
    intro s hr h
    refine ih (f s l) (by rwa [recState_of_still (hf s l)]) ?_
    by_cases e : k = l
    · exact .inr (e ▸ hl s l (e ▸ hr))
    · exact h.elim (fun h => .inl ((List.mem_cons.mp h).resolve_left e)) fun h => .inr ((hk s l k e).trans h)

/-- What a start leaves of a core: PC 0, running or waiting. -/
def startedCore (r : CoreRun) : Core := { pc := 0, run := r }

/-- One core's part of a start. -/
def startCore (r : CoreRun) (l : Nat) (s : State) : State :=
  modCore l (fun c => { c with pc := 0, mqHalt := false, run := r }) (resetCore l s)

theorem frame_startCore (r : CoreRun) : Touches resetRegs s (startCore r l s) := frame_resetCore.trans ((frame_modCore _ _ _).mono (by decide))

theorem own_startCore (r : CoreRun) (h : recState l s ≠ 2) : ownOf (coreOf l (startCore r l s)) = ownOf (startedCore r) := by
  have hreset := own_resetCore h l
  rw [if_pos rfl] at hreset
  rw [startCore, coreOf_modCore, if_pos rfl]
  exact congrArg (fun c : Core => { c with pc := 0, mqHalt := false, run := r }) hreset

theorem own_startCore_other (r : CoreRun) {k : Nat} (h : k ≠ l) : ownOf (coreOf k (startCore r l s)) = ownOf (coreOf k s) := by
  rw [startCore, coreOf_modCore, if_neg h]
  by_cases hr : recState l s = 2
  · exact own_resetCore_lost hr k
  · exact (own_resetCore hr k).trans (if_neg h)

/-- The cores of a partition that are not lost. -/
def soundCores (p : Nat) (s : State) : List Nat := (coresOf p s).filter (fun l => recState l s != 2)

/-- The lowest of them runs from the start, and the others wait. -/
def startRun (p l : Nat) (s : State) : CoreRun := if (soundCores p s).head? = some l then .running else .waiting none

theorem startCores_eq (p : Nat) (s : State) :
    startCores p s = (soundCores p s).foldl (fun u l => startCore (startRun p l s) l u) s := rfl

theorem frame_startCores : Touches resetRegs s (startCores p s) := by
  rw [startCores_eq]
  exact touches_foldl (fun _ _ => frame_startCore _) _ s

theorem soundCores_all (hall : ∀ l ∈ coresOf p s, recState l s ≠ 2) : soundCores p s = coresOf p s :=
  List.filter_eq_self.mpr fun l h => by simpa using hall l h

theorem own_startCores (hall : ∀ l ∈ coresOf p s, recState l s ≠ 2) (hl : l ∈ coresOf p s) :
    ownOf (coreOf l (startCores p s)) = ownOf (startedCore (if (coresOf p s).head? = some l then .running else .waiting none)) := by
  have hrun := own_foldl (f := fun u l => startCore (startRun p l s) l u) (fun u l => frame_startCore _ .still (by decide))
    (fun u l h => own_startCore _ h) (fun u l k h => own_startCore_other _ h) l (coresOf p s) s (hall l hl) (.inl hl)
  rw [startCores_eq, soundCores_all hall, hrun, startRun, soundCores_all hall]

/-! ### START -/

theorem coresOf_of_pln (h : t.pln.parts = s.pln.parts) (p : Nat) : coresOf p t = coresOf p s := by simp only [coresOf, partOf, h]

theorem due_of_still (h : Still s t) (hs : Safety.settled s) (hg : Safety.graceful s) : t.flt.due = [] := (h.due hg).trans hs

theorem frame_partResult (r : Nat) : Touches [.pln, .out, .pf0] s (partResult p r s) :=
  (((frame_pstates s s.pln.pstate (tset 0 p r s.pln.presult) s.pln.zero s.pln.starting).mono (by decide) :
    Touches [.pstate, .checked, .pln, .out, .pf0] s _).andThen (frame_pf0Vector _ 2)).holding (frame_pf0Vector _ 2 .pstate (by decide)) |>.holding
      fun q => (frame_pf0Vector _ 2 .checked (by decide)) q

theorem partResult_pln (r : Nat) : (partResult p r s).pln = { s.pln with presult := tset 0 p r s.pln.presult } := frame_pf0Vector _ 2 .pln (by decide)

/-- No core of the partition is lost: none loses its place when the partition starts. -/
theorem startLost_none (h : ∀ l ∈ coresOf p s, recState l s ≠ 2) : startLost p s = s := by
  have hnone : (coresOf p s).filter (fun l => recState l s == 2) = [] := List.filter_eq_nil_iff.mpr fun l hl => by simpa using h l hl
  rw [startLost, hnone]
  rfl

theorem frame_reoffer : Touches [.offers] s (reoffer p s) := by
  have hfinal : ∀ u i, Touches [.offers] u (offerFinal i u) := fun u i =>
    (frame_offers u _).trans (touches_ite (fun _ => .refl _ _) fun _ => frame_offers _ _)
  exact (frame_offers s _).trans (touches_foldl (fun u i => touches_ite (fun _ => hfinal u i) fun _ => .refl _ u) _ _)

/-- A partition none of whose cores is lost has started. -/
theorem startPart_starts (hall : ∀ l ∈ coresOf p s, recState l s ≠ 2) :
    Touches (.pln :: .pstate :: .checked :: .offers :: resetRegs) s (startPart p s) ∧ pstateOf p (startPart p s) = .running ∧
      (startPart p s).cpu = (startCores p s).cpu := by
  have hcores : Touches resetRegs s (startCores p s) := frame_startCores
  have hlost : startLost p (setPState p .running (startCores p s)) = setPState p .running (startCores p s) := startLost_none fun l hl => by
    have hsame : coresOf p (setPState p .running (startCores p s)) = coresOf p s := coresOf_of_pln (congrArg Plinth.parts (hcores .pln (by decide))) p
    have hrec : recState l (startCores p s) = recState l s := recState_of_still (hcores .still (by decide)) l
    exact hrec.trans_ne (hall l (hsame ▸ hl))
  have hoffers : Touches [.offers] (setPState p .running (startCores p s)) (startPart p s) := by
    rw [startPart, hlost]
    exact frame_reoffer
  refine ⟨((hcores.mono (by decide)).trans (frame_setPState.mono (by decide))).trans (hoffers.mono (by decide)), ?_, hoffers .cpu (by decide)⟩
  rw [pstateOf_of_pln (hoffers .pln (by decide)), pstateOf_setPState, if_pos rfl]

theorem exec_start {v : View} (ha : admin v s = true) (ho : operating s = true) : exec (.start v p) s = done s (startCmd p s) := by
  show execStart v p s = _
  simp [execStart, ha, ho]

theorem startCmd_starts (hp : p < 48) (hb : plnBusy s = false) (hst : pstateOf p s = .stopped) (hipl : ¬(iplValid s = true ∧ iplPart s = p))
    (hn : p ∉ s.pln.starting) : startCmd p s = partResult p 0 (startPart p s) := by
  have hinto : startInto p s = some (startPart p s) := by
    unfold startInto
    rw [if_neg (by simpa using hipl)]
  rw [startCmd, if_neg (by omega), if_neg (by simp [hb, hst, hn]), hinto]

theorem startCmd_refused (hp : p < 48) (h : plnBusy s = true ∨ pstateOf p s ≠ .stopped) : startCmd p s = partResult p 0x0C s := by
  rw [startCmd, if_neg (by omega), if_pos (by rcases h with h | h <;> simp [h])]

theorem start_starts {v : View} (hs : Safety.settled s) (ha : admin v s = true) (ho : operating s = true) (hp : p < 48) (hb : plnBusy s = false)
    (hst : pstateOf p s = .stopped) (hipl : ¬(iplValid s = true ∧ iplPart s = p)) (hn : p ∉ s.pln.starting) (hall : ∀ l ∈ coresOf p s, recState l s ≠ 2)
    (hg : Safety.graceful s) :
    ∃ t, exec (.start v p) s = .next t ∧ pstateOf p t = .running ∧ tget 0 p t.pln.presult = 0 ∧
      ∀ l ∈ coresOf p s, (coreOf l t).pc = 0 ∧ (coreOf l t).run = if (coresOf p s).head? = some l then .running else .waiting none := by
  obtain ⟨htouch, hrun, hcpu⟩ := startPart_starts hall
  have hresult : Touches [.pln, .out, .pf0] (startPart p s) (partResult p 0 (startPart p s)) := frame_partResult 0
  obtain ⟨t, hdone, htold⟩ := done_told (b := s) ((hresult .due (by decide)).trans (due_of_still (htouch .still (by decide)) hs hg))
    ((hresult .pending (by decide)).trans (htouch .pending (by decide)))
  refine ⟨t, by rw [exec_start ha ho, startCmd_starts hp hb hst hipl hn, hdone], ?_, ?_, fun l hl => ?_⟩
  · rw [pstateOf, htold .pstate (by decide), hresult .pstate (by decide)]
    exact hrun
  · rw [show t.pln = _ from htold .pln (by decide), partResult_pln]
    exact (tget_tset 0 p p 0 _).trans (if_pos rfl)
  · have hcore : coreOf l t = coreOf l (startCores p s) := by
      rw [coreOf, show t.cpu = _ from htold .cpu (by decide), show (partResult p 0 (startPart p s)).cpu = _ from hresult .cpu (by decide), hcpu, coreOf]
    have hown := own_startCores hall hl
    rw [hcore]
    exact ⟨(congrArg Core.pc hown :), (congrArg Core.run hown :)⟩

/-- A command that a partition's state refuses. -/
theorem refused_result (hs : Safety.settled s) : ∃ t, done s (partResult p 0x0C s) = .next t ∧
    t.pln = { s.pln with presult := tset 0 p 0x0C s.pln.presult } ∧ t.cpu = s.cpu ∧ t.sto = s.sto := by
  have hresult : Touches [.pln, .out, .pf0] s (partResult p 0x0C s) := frame_partResult 0x0C
  exact ⟨_, done_framed hresult hs, partResult_pln _, hresult .cpu (by decide), hresult .sto (by decide)⟩

end

end Sys2Proof.Machine
end

section
set_option Elab.async false
/-! PROOFS. STOP, STOPPED and PART_RESET (02 R42, R43; 25 R561). -/

namespace Sys2Proof.Machine

section
variable {s t : State} {p l : Nat}

/-! ### A core that stops -/

/-- What a core that runs or waits becomes when its stores are drained and it stops. -/
def stopIn (c : Core) : Core :=
  match c.run with
  | .lost => c
  | .tcaFault => c
  | _ => { c with run := .stopped, resv := none, rep := none, sysBuf := [], mqStep := false }

theorem stopCore_eq (l : Nat) (s : State) : stopCore l s = if drained l (drainSystem l s) then modCore l stopIn (drainSystem l s) else drainSystem l s := rfl

theorem frame_restCore : Touches resetRegs s (restCore l s) := by
  have hdrain : Touches resetRegs s (drainSystem l s) := traffic_drainSystem.mono (by decide)
  unfold restCore
  rw [stopCore_eq]
  exact touches_ite (fun _ => .refl _ s) fun _ => touches_ite (fun _ => hdrain.trans ((frame_modCore _ _ _).mono (by decide))) fun _ => hdrain

/-- Nothing waits in the core's buffers. -/
theorem drainSystem_drained (h : drained l s = true) : drainSystem l s = s := by
  unfold drainSystem
  rw [drainRounds, if_pos h]

theorem restCore_drained (h : drained l s = true) :
    restCore l s = if midGroup (coreOf l s) = true ∨ (!inService l s) = true then s else modCore l stopIn s := by
  unfold restCore
  rw [stopCore_eq, drainSystem_drained h, if_pos h]

/-- A core within a group is left as it is. -/
theorem restCore_midGroup (h : midGroup (coreOf l s) = true) : restCore l s = s := by
  unfold restCore
  rw [if_pos (.inl h)]

theorem own_restCore_other {k : Nat} (h : k ≠ l) : ownOf (coreOf k (restCore l s)) = ownOf (coreOf k s) := by
  have hdrain : Touches trafficRegs s (drainSystem l s) := traffic_drainSystem
  unfold restCore
  rw [stopCore_eq]
  split
  · rfl
  · split
    · rw [coreOf_modCore, if_neg h]
      exact hdrain .own (by decide) k
    · exact hdrain .own (by decide) k

/-! ### The cores of a partition that stops -/

/-- A core at a boundary, with nothing left in its buffers, that runs or has stopped. -/
structure AtBoundary (c : Core) : Prop where
  sb : c.sb = []
  wc : c.wc = []
  mid : midGroup c = false
  losing : c.losing = none
  run : c.run = .running ∨ c.run = .stopped

/-- Such a core, stopped. -/
def haltedCore (c : Core) : Core := stopIn { c with mqHalt := false }

theorem haltedCore_eq {c : Core} (h : c.run = .running ∨ c.run = .stopped) :
    haltedCore c = { c with mqHalt := false, run := .stopped, resv := none, rep := none, sysBuf := [], mqStep := false } := by
  rcases h with h | h <;> simp [haltedCore, stopIn, h]

theorem AtBoundary.halted {c : Core} (h : AtBoundary c) : AtBoundary (haltedCore c) := by
  rw [haltedCore_eq h.run]
  exact ⟨h.sb, h.wc, h.mid, h.losing, .inr rfl⟩

/-- The step of a STOP for one core. -/
def stopOne (u : State) (l : Nat) : State := restCore l (modCore l (fun c => { c with mqHalt := false }) u)

theorem coreOf_stopOne (h : AtBoundary (coreOf l s)) (hr : recState l s = 0) (k : Nat) :
    coreOf k (stopOne s l) = if k = l then haltedCore (coreOf l s) else coreOf k s := by
  have hl := (coreOf_modCore l l (fun c => { c with mqHalt := false }) s).trans (if_pos rfl)
  have hin : inService l (modCore l (fun c => { c with mqHalt := false }) s) = true := by
    rw [inService, hl]
    simp [h.losing, show recState l (modCore l (fun c => { c with mqHalt := false }) s) = 0 from hr]
  have hmid : midGroup (coreOf l (modCore l (fun c => { c with mqHalt := false }) s)) = false := by rw [hl]; exact h.mid
  have hdrained : drained l (modCore l (fun c => { c with mqHalt := false }) s) = true := by rw [drained, hl]; simp [h.sb, h.wc]
  rw [stopOne, restCore_drained hdrained, if_neg (by simp [hin, hmid]), coreOf_modCore, hl, coreOf_modCore]
  split <;> rfl

theorem frame_stopOne : Touches resetRegs s (stopOne s l) := ((frame_modCore _ _ _).mono (by decide)).trans frame_restCore

/-- A core at a boundary stops with nothing else of the module changed. -/
theorem frame_stopOne_boundary (h : AtBoundary (coreOf l s)) : Touches [.cpu, .core, .keeps, .own] s (stopOne s l) := by
  have hl := (coreOf_modCore l l (fun c => { c with mqHalt := false }) s).trans (if_pos rfl)
  have hdrained : drained l (modCore l (fun c => { c with mqHalt := false }) s) = true := by rw [drained, hl]; simp [h.sb, h.wc]
  rw [stopOne, restCore_drained hdrained]
  exact (frame_modCore _ _ _).trans (touches_ite (fun _ => .refl _ _) fun _ => frame_modCore _ _ _)

theorem coreOf_stopAll (k : Nat) (ls : List Nat) : ∀ s, (∀ l ∈ ls, AtBoundary (coreOf l s) ∧ recState l s = 0) →
    coreOf k (ls.foldl stopOne s) = (if k ∈ ls then haltedCore (coreOf k s) else coreOf k s) ∧ Touches [.cpu, .core, .keeps, .own] s (ls.foldl stopOne s) := by
  have hidem : ∀ c, AtBoundary c → haltedCore (haltedCore c) = haltedCore c := fun c h => by
    rw [haltedCore_eq h.halted.run, haltedCore_eq h.run]
  induction ls with
  | nil => exact fun s _ => ⟨by simp, .refl _ s⟩
  | cons l ls ih =>
    intro s hall
    obtain ⟨hl, hr⟩ := hall l (by simp)
    have hstep := frame_stopOne_boundary hl
    have hcore := coreOf_stopOne hl hr
    have hafter : ∀ j ∈ ls, AtBoundary (coreOf j (stopOne s l)) ∧ recState j (stopOne s l) = 0 := fun j hj => by
      obtain ⟨hb, hz⟩ := hall j (by simp [hj])
      refine ⟨?_, (recState_of_still (hstep .still (by decide)) j).trans hz⟩
      rw [hcore]
      split
      · exact hl.halted
      · exact hb
    obtain ⟨hin, htouch⟩ := ih (stopOne s l) hafter
    refine ⟨?_, hstep.trans htouch⟩
    rw [List.foldl_cons, hin, hcore k]
    by_cases hkl : k = l
    · subst hkl
      simp [hidem _ hl]
    · simp [hkl]

/-! ### STOP -/

/-- The partition whose cores have been asked to stop. -/
def stoppedCores (p : Nat) (s : State) : State := (coresOf p (setPState p .stopping s)).foldl stopOne (setPState p .stopping s)

theorem stopPart_eq (p : Nat) (s : State) : stopPart p s =
    { withdrawPubs p (stoppedCores p s) with cpu := { (stoppedCores p s).cpu with heldMc := tdel p (stoppedCores p s).cpu.heldMc } } := rfl

theorem frame_stoppedCores : Touches (.pln :: .pstate :: .checked :: resetRegs) s (stoppedCores p s) :=
  (frame_setPState.mono (by decide)).trans (touches_foldl (fun _ _ => frame_stopOne.mono (by decide)) _ _)

theorem pstateOf_stoppedCores : pstateOf p (stoppedCores p s) = .stopping := by
  have hcores : Touches resetRegs (setPState p .stopping s) (stoppedCores p s) := touches_foldl (fun _ _ => frame_stopOne) _ _
  rw [pstateOf_of_pln (hcores .pln (by decide)), pstateOf_setPState, if_pos rfl]

theorem withdrawPubs_pubs (p : Nat) (s : State) : ∀ e ∈ (withdrawPubs p s).tr.pubs, e.1 / 16 ≠ p := fun e he => by
  simpa using (List.mem_filter.mp he).2

theorem exec_stop {v : View} (ha : admin v s = true) (ho : operating s = true) : exec (.stop v p) s = done s (stopCmd p s) := by
  show execStop v p s = _
  simp [execStop, ha, ho]

theorem stopCmd_stops (hp : p < 48) (hb : plnBusy s = false) (hst : pstateOf p s = .running) : stopCmd p s = partResult p 0 (stopPart p s) := by
  rw [stopCmd, if_neg (by omega), if_neg (by simp [hb, hst])]

theorem stopCmd_refused (hp : p < 48) (h : plnBusy s = true ∨ pstateOf p s ≠ .running) : stopCmd p s = partResult p 0x0C s := by
  rw [stopCmd, if_neg (by omega), if_pos (by rcases h with h | h <;> simp [h])]

/-- What a STOP leaves of the partition, and of the cores what `stoppedCores` does. -/
theorem stop_stops {v : View} (hs : Safety.settled s) (ha : admin v s = true) (ho : operating s = true) (hp : p < 48) (hb : plnBusy s = false)
    (hst : pstateOf p s = .running) (hg : Safety.graceful s) :
    ∃ t, exec (.stop v p) s = .next t ∧ pstateOf p t = .stopping ∧ tget 0 p t.pln.presult = 0 ∧ (∀ e ∈ t.tr.pubs, e.1 / 16 ≠ p) ∧ t.jnl = s.jnl ∧
      (∀ k, coreOf k t = coreOf k (stoppedCores p s)) ∧ t.sto = (stoppedCores p s).sto := by
  have hcores : Touches (.pln :: .pstate :: .checked :: resetRegs) s (stoppedCores p s) := frame_stoppedCores
  have hstopped : Touches [.cpu, .core, .keeps, .own, .still, .tr] (stoppedCores p s) (stopPart p s) := by
    rw [stopPart_eq]
    exact ((frame_tr _ _).mono (by decide)).andThen (frame_cpu _ _)
  have hresult : Touches [.pln, .out, .pf0] (stopPart p s) (partResult p 0 (stopPart p s)) := frame_partResult 0
  have hdue : (stoppedCores p s).flt.due = [] := due_of_still (hcores .still (by decide)) hs hg
  obtain ⟨t, hdone, htold⟩ := done_told (b := s) ((hresult .due (by decide)).trans ((hstopped .due (by decide)).trans hdue))
    ((hresult .pending (by decide)).trans ((hstopped .pending (by decide)).trans (hcores .pending (by decide))))
  have hstate : t.pln.pstate = (stoppedCores p s).pln.pstate :=
    (htold .pstate (by decide)).trans ((hresult .pstate (by decide)).trans (hstopped .pstate (by decide)))
  have htr : t.tr = (stopPart p s).tr := (htold .tr (by decide)).trans (hresult .tr (by decide))
  have hcpu : t.cpu = (stopPart p s).cpu := (htold .cpu (by decide)).trans (hresult .cpu (by decide))
  have hrest := (hcores.mono (by decide)).trans (hstopped.mono (rs := .tr :: .still :: .pln :: .pstate :: .checked :: resetRegs) (by decide))
    |>.trans ((hresult.mono (by decide)).trans (htold.mono (by decide)))
  refine ⟨t, by rw [exec_stop ha ho, stopCmd_stops hp hb hst, hdone], ?_, ?_, ?_, hrest .jnl (by decide), fun k => ?_, ?_⟩
  · rw [pstateOf, hstate]
    exact pstateOf_stoppedCores
  · rw [show t.pln = _ from htold .pln (by decide), partResult_pln]
    exact (tget_tset 0 p p 0 _).trans (if_pos rfl)
  · rw [htr]
    exact withdrawPubs_pubs p _
  · rw [coreOf, hcpu]
    rfl
  · exact (htold .sto (by decide)).trans ((hresult .sto (by decide)).trans (hstopped .sto (by decide)))

/-- The cores of a partition that are at a boundary with empty buffers stop at once. -/
theorem stoppedCores_boundary
    (hall : ∀ l ∈ coresOf p s, (coreOf l s).sb = [] ∧ (coreOf l s).wc = [] ∧ midGroup (coreOf l s) = false ∧ inService l s = true ∧ (coreOf l s).run = .running) :
    (∀ l ∈ coresOf p s, coreOf l (stoppedCores p s) = haltedCore (coreOf l s)) ∧ (∀ l ∈ coresOf p s, AtBoundary (coreOf l s)) ∧
      (stoppedCores p s).sto = s.sto := by
  have hready : ∀ l ∈ coresOf p s, AtBoundary (coreOf l s) ∧ recState l s = 0 := fun l hl => by
    obtain ⟨hsb, hwc, hmid, hin, hrun⟩ := hall l hl
    simp only [inService, Bool.and_eq_true, beq_iff_eq, Option.isNone_iff_eq_none] at hin
    exact ⟨⟨hsb, hwc, hmid, hin.2, .inl hrun⟩, hin.1⟩
  have hstop := fun k => coreOf_stopAll k (coresOf p s) (setPState p .stopping s) hready
  exact ⟨fun l hl => (hstop l).1.trans (if_pos hl), fun l hl => (hready l hl).1, (hstop 0).2 .sto (by decide)⟩

/-! ### STOPPED -/

/-- A core that stayed as it was or stopped. -/
structure Rested (c d : Core) : Prop where
  g : d.g = c.g
  pc : d.pc = c.pc
  sb : d.sb = c.sb
  wc : d.wc = c.wc
  losing : d.losing = c.losing
  run : d.run = c.run ∨ d.run = .stopped

theorem Rested.refl (c : Core) : Rested c c := ⟨rfl, rfl, rfl, rfl, rfl, .inl rfl⟩

theorem Rested.trans {c d e : Core} (h : Rested c d) (k : Rested d e) : Rested c e :=
  ⟨k.g.trans h.g, k.pc.trans h.pc, k.sb.trans h.sb, k.wc.trans h.wc, k.losing.trans h.losing, k.run.elim (fun r => h.run.imp r.trans r.trans) .inr⟩

theorem rested_stopIn (c : Core) : Rested c (stopIn c) := by
  unfold stopIn
  split
  · exact .refl c
  · exact .refl c
  · exact ⟨rfl, rfl, rfl, rfl, rfl, .inr rfl⟩

/-- The cores of a partition, each asked to come to rest. -/
def restAll (p : Nat) (s : State) : State := (coresOf p s).foldl (fun s l => restCore l s) s

theorem frame_restAll : Touches resetRegs s (restAll p s) := touches_foldl (fun _ _ => frame_restCore) _ s

theorem rested_restAll (ls : List Nat) : ∀ s, (∀ l ∈ ls, drained l s = true) →
    (∀ k, Rested (coreOf k s) (coreOf k (ls.foldl (fun s l => restCore l s) s))) ∧
      Touches [.cpu, .core, .keeps, .own] s (ls.foldl (fun s l => restCore l s) s) := by
  induction ls with
  | nil => exact fun s _ => ⟨fun _ => .refl _, .refl _ s⟩
  | cons l ls ih =>
    intro s hall
    have hstep : (∀ k, Rested (coreOf k s) (coreOf k (restCore l s))) ∧ Touches [.cpu, .core, .keeps, .own] s (restCore l s) := by
      rw [restCore_drained (hall l (by simp))]
      split
      · exact ⟨fun _ => .refl _, .refl _ s⟩
      · refine ⟨fun k => ?_, frame_modCore _ _ _⟩
        rw [coreOf_modCore]
        split
        next e => exact e ▸ rested_stopIn _
        next => exact .refl _
    obtain ⟨hcores, htouch⟩ := hstep
    obtain ⟨hrest, hmore⟩ := ih (restCore l s) fun j hj => by
      have hj' := hall j (by simp [hj])
      rwa [drained, (hcores j).sb, (hcores j).wc]
    exact ⟨fun k => (hcores k).trans (hrest k), htouch.trans hmore⟩

theorem atRest_of_rested (h : Rested (coreOf l s) (coreOf l t)) (hr : recState l t = recState l s) (ha : atRest l s = true) : atRest l t = true := by
  have hsafe : (recState l s != 1 && (coreOf l s).losing.isNone) = true := by
    unfold atRest at ha
    split at ha
    · simp at ha
    · simp at ha
    · simp at ha
    · exact ha
  unfold atRest at ha ⊢
  rw [hr, h.losing]
  rcases h.run with e | e
  · rwa [e]
  · rw [e]
    exact hsafe

theorem exec_partitionStopped (ho : operating s = true) (hst : pstateOf p s = .stopping) : exec (.partitionStopped p) s =
    done s (if (coresOf p (restAll p s)).all (fun l => atRest l (restAll p s)) = true ∧ subsIdle p (restAll p s) = true ∧
      agentPending (.hostWrite 1) (restAll p s) = false then setPState p .stopped (restAll p s) else restAll p s) := by
  show execPartitionStopped p s = _
  rw [execPartitionStopped, if_pos ⟨ho, hst⟩]
  rfl

theorem partitionStopped_stops (hs : Safety.settled s) (ho : operating s = true) (hst : pstateOf p s = .stopping)
    (hall : ∀ l ∈ coresOf p s, atRest l s = true ∧ (coreOf l s).sb = [] ∧ (coreOf l s).wc = []) (hsub : subsIdle p s = true)
    (hw : agentPending (.hostWrite 1) s = false) :
    ∃ t, exec (.partitionStopped p) s = .next t ∧ pstateOf p t = .stopped ∧ (∀ q, q ≠ p → pstateOf q t = pstateOf q s) ∧
      (∀ l, (coreOf l t).g = (coreOf l s).g ∧ (coreOf l t).pc = (coreOf l s).pc) ∧ t.sto = s.sto ∧ t.flt = s.flt := by
  obtain ⟨hrest, htouch⟩ := rested_restAll (coresOf p s) s fun l hl => by
    obtain ⟨-, hsb, hwc⟩ := hall l hl
    simp [drained, hsb, hwc]
  rw [exec_partitionStopped ho hst]
  change ∀ k, Rested (coreOf k s) (coreOf k (restAll p s)) at hrest
  change Touches _ s (restAll p s) at htouch
  generalize restAll p s = u at hrest htouch ⊢
  have hpln : u.pln = s.pln := htouch .pln (by decide)
  have hjnl : u.jnl = s.jnl := htouch .jnl (by decide)
  have harm : u.arm = s.arm := htouch .arm (by decide)
  have hcores : coresOf p u = coresOf p s := coresOf_of_pln (congrArg Plinth.parts hpln) p
  have hready : (coresOf p u).all (fun l => atRest l u) = true := List.all_eq_true.mpr fun l hl =>
    atRest_of_rested (hrest l) (recState_of_still (htouch .still (by decide)) l) (hall l (hcores ▸ hl)).1
  have hidle : subsIdle p u = true := by
    have hpart : ∀ i, subchPart i u = subchPart i s := fun i => by simp only [subchPart, partIds, partOf, hpln]
    simpa only [subsIdle, hjnl, hpart] using hsub
  have hpending : agentPending (.hostWrite 1) u = false := by simpa only [agentPending, agentSent, harm] using hw
  rw [if_pos ⟨hready, hidle, hpending⟩]
  have hframe : Touches [.cpu, .core, .keeps, .own, .pln, .pstate, .checked] s (setPState p .stopped u) := (htouch.mono (by decide)).andThen frame_setPState
  refine ⟨_, done_framed hframe hs, ?_, fun q hq => ?_, fun l => ⟨(hrest l).g, (hrest l).pc⟩, hframe .sto (by decide), hframe .flt (by decide)⟩
  · rw [pstateOf_setPState, if_pos rfl]
  · rw [pstateOf_setPState, if_neg hq]
    exact pstateOf_of_pln hpln q

theorem own_restAll_midGroup (ls : List Nat) : ∀ s, midGroup (coreOf l s) = true → ownOf (coreOf l (ls.foldl (fun s l => restCore l s) s)) = ownOf (coreOf l s) := by
  induction ls with
  | nil => exact fun _ _ => rfl
  | cons k ls ih =>
    intro s h
    have hstep : ownOf (coreOf l (restCore k s)) = ownOf (coreOf l s) := by
      by_cases e : l = k
      · rw [← e, restCore_midGroup h]
      · exact own_restCore_other e
    have hmid : midGroup (coreOf l (restCore k s)) = midGroup (coreOf l s) := (congrArg midGroup hstep :)
    exact (ih _ (hmid.trans h)).trans hstep

theorem partitionStopped_waits (ho : operating s = true) (hst : pstateOf p s = .stopping)
    (hl : ∃ l ∈ coresOf p s, (coreOf l s).run = .running ∧ midGroup (coreOf l s) = true) :
    ∃ t, exec (.partitionStopped p) s = .next t ∧ pstateOf p t ≠ .stopped := by
  obtain ⟨l, hl, hrun, hmid⟩ := hl
  have htouch : Touches resetRegs s (restAll p s) := frame_restAll
  have hown : ownOf (coreOf l (restAll p s)) = ownOf (coreOf l s) := own_restAll_midGroup (coresOf p s) s hmid
  rw [exec_partitionStopped ho hst]
  generalize restAll p s = u at htouch hown ⊢
  have hcores : coresOf p u = coresOf p s := coresOf_of_pln (congrArg Plinth.parts (htouch .pln (by decide))) p
  have hrunning : (coreOf l u).run = .running := (congrArg Core.run hown :).trans hrun
  have hbusy : ¬ (coresOf p u).all (fun l => atRest l u) = true := fun h => by
    have hrest := List.all_eq_true.mp h l (hcores ▸ hl)
    rw [atRest, hrunning] at hrest
    simp at hrest
  rw [if_neg fun h => hbusy h.1]
  obtain ⟨t, hdone, hsteps⟩ := done_settles (htouch .pending (by decide))
  have hstate : pstateOf p u = .stopping := (pstateOf_of_pln (htouch .pln (by decide)) p).trans hst
  exact ⟨t, hdone, (hsteps .checked (by decide) p).elim (fun e => by simp [e, hstate]) (fun e => by simp [e])⟩

/-! ### PART_RESET -/

/-- The step of a PART_RESET for one core. -/
def resetOne (u : State) (l : Nat) : State := resetCore l (modCore l (fun c => { c with mqHalt := false }) u)

theorem frame_resetOne : Touches resetRegs s (resetOne s l) := ((frame_modCore _ _ _).mono (by decide)).trans frame_resetCore

theorem own_resetOne (h : recState l s ≠ 2) : ownOf (coreOf l (resetOne s l)) = ownOf {} := by
  rw [resetOne, own_resetCore (s := modCore l (fun c => { c with mqHalt := false }) s) h, if_pos rfl, coreOf_modCore, if_pos rfl]

theorem own_resetOne_other {k : Nat} (h : k ≠ l) : ownOf (coreOf k (resetOne s l)) = ownOf (coreOf k s) := by
  have hmod : ownOf (coreOf k (modCore l (fun c => { c with mqHalt := false }) s)) = ownOf (coreOf k s) := by rw [coreOf_modCore, if_neg h]
  rw [← hmod, resetOne]
  by_cases hr : recState l (modCore l (fun c => { c with mqHalt := false }) s) = 2
  · exact own_resetCore_lost hr k
  · exact (own_resetCore hr k).trans (if_neg h)

/-- The cores of a partition that is reset. -/
def resetCores (p : Nat) (s : State) : State := (coresOf p s).foldl resetOne s

theorem frame_resetCores : Touches resetRegs s (resetCores p s) := touches_foldl (fun _ _ => frame_resetOne) _ s

theorem own_resetCores (hl : l ∈ coresOf p s) (h : recState l s ≠ 2) : ownOf (coreOf l (resetCores p s)) = ownOf {} :=
  own_foldl (f := resetOne) (v := fun _ => {}) (fun _ _ => frame_resetOne .still (by decide)) (fun _ _ => own_resetOne) (fun _ _ _ => own_resetOne_other) l
    (coresOf p s) s h (.inl hl)

/-- The partition with its publications withdrawn and its queues disabled. -/
def withdrawn (p : Nat) (s : State) : State := disableOwnQueues p false (withdrawPubs p s)

theorem frame_withdrawn : Touches [.tr, .eng, .hp, .pf1, .arm] s (withdrawn p s) :=
  ((frame_tr s (withdrawPubs p s).tr).mono (by decide)).andThen (frame_disableOwnQueues (withdrawPubs p s) p false)

theorem withdrawn_pubs : ∀ e ∈ (withdrawn p s).tr.pubs, e.1 / 16 ≠ p := by
  have htr : (withdrawn p s).tr = (withdrawPubs p s).tr := frame_disableOwnQueues (withdrawPubs p s) p false .tr (by decide)
  rw [htr]
  exact withdrawPubs_pubs p s

/-- The partition withdrawn, in the state in which a reset leaves it. -/
def resetLeft (p : Nat) (s : State) : State := if pstateOf p (withdrawn p s) = .checkstopped then setPState p .stopping (withdrawn p s) else withdrawn p s

theorem frame_resetLeft : Touches [.tr, .eng, .hp, .pf1, .arm, .pln, .pstate, .checked] s (resetLeft p s) :=
  have hwithdrawn : Touches [.tr, .eng, .hp, .pf1, .arm, .pln, .pstate, .checked] s (withdrawn p s) := frame_withdrawn.mono (by decide)
  touches_ite (fun _ => hwithdrawn.andThen frame_setPState) fun _ => hwithdrawn

theorem resetLeft_state {u : PState} (h : (pstateOf p s = .checkstopped ∧ u = PState.stopping) ∨ (pstateOf p s = .stopped ∧ u = PState.stopped)) :
    pstateOf p (resetLeft p s) = u ∧ ∀ e ∈ (resetLeft p s).tr.pubs, e.1 / 16 ≠ p := by
  have hstate : pstateOf p (withdrawn p s) = pstateOf p s := pstateOf_of_pln (frame_withdrawn .pln (by decide)) p
  unfold resetLeft
  rw [hstate]
  rcases h with ⟨h, rfl⟩ | ⟨h, rfl⟩
  · rw [if_pos h, pstateOf_setPState, if_pos rfl, setPState_tr]
    exact ⟨rfl, withdrawn_pubs⟩
  · rw [if_neg (by simp [h]), hstate]
    exact ⟨h, withdrawn_pubs⟩

theorem partReset_resets (hp : p < 48) (h : pstateOf p s = .stopped ∨ pstateOf p s = .checkstopped) :
    partReset p s = pwrResult 0 (resetLeft p (resetCores p s)) := by
  rw [partReset, if_pos ⟨hp, h⟩]
  rfl

theorem exec_partReset {v : View} (ha : admin v s = true) (ho : operating s = true) : exec (.partReset v p) s = done s (partReset p s) := by
  show execPartReset v p s = _
  simp [execPartReset, ha, ho]

theorem partReset_leaves {v : View} (hs : Safety.settled s) (ha : admin v s = true) (ho : operating s = true) (hp : p < 48) {u : PState}
    (hg : Safety.graceful s) (h : (pstateOf p s = .checkstopped ∧ u = PState.stopping) ∨ (pstateOf p s = .stopped ∧ u = PState.stopped)) :
    ∃ t, exec (.partReset v p) s = .next t ∧ pstateOf p t = u ∧ t.pwr.lastResult = 0 ∧ (∀ e ∈ t.tr.pubs, e.1 / 16 ≠ p) ∧
      ∀ l ∈ coresOf p s, recState l s ≠ 2 → (coreOf l t).pc = 0 ∧ (coreOf l t).run = .stopped ∧ (coreOf l t).g = [] := by
  have hcores : Touches resetRegs s (resetCores p s) := frame_resetCores
  have hstate : pstateOf p (resetCores p s) = pstateOf p s := pstateOf_of_pln (hcores .pln (by decide)) p
  obtain ⟨hleft, hpubs⟩ := resetLeft_state (s := resetCores p s) (by rwa [hstate])
  have hframe : Touches [.tr, .eng, .hp, .pf1, .arm, .pln, .pstate, .checked] (resetCores p s) (resetLeft p (resetCores p s)) := frame_resetLeft
  have hownall := fun l hl hr => own_resetCores (s := s) (p := p) (l := l) hl hr
  rw [exec_partReset ha ho, partReset_resets hp (h.elim (fun h => .inr h.1) fun h => .inl h.1)]
  generalize resetLeft p (resetCores p s) = v at hleft hpubs hframe ⊢
  generalize resetCores p s = w at hcores hstate hframe hownall
  have hrest : Touches [.tr, .eng, .hp, .pf1, .arm, .pln, .pstate, .checked, .pwr, .sensed] w (pwrResult 0 v) :=
    (hframe.mono (by decide)).andThen (frame_pwr _ _)
  have hdue : w.flt.due = [] := due_of_still (hcores .still (by decide)) hs hg
  obtain ⟨t, hdone, htold⟩ := done_told (b := s) ((hrest .due (by decide)).trans hdue) ((hrest .pending (by decide)).trans (hcores .pending (by decide)))
  have hpwr : t.pwr = (pwrResult 0 v).pwr := htold .pwr (by decide)
  have htr : t.tr = v.tr := htold .tr (by decide)
  have hcpu : t.cpu = w.cpu := (htold .cpu (by decide)).trans (hrest .cpu (by decide))
  refine ⟨t, hdone, ?_, by rw [hpwr]; rfl, by rw [htr]; exact hpubs, fun l hl hr => ?_⟩
  · exact (pstateOf_of_pln (s := pwrResult 0 v) (htold .pln (by decide)) p).trans hleft
  · have hown := hownall l hl hr
    rw [coreOf, hcpu]
    exact ⟨(congrArg Core.pc hown :), (congrArg Core.run hown :), (congrArg Core.g hown :)⟩

end

/-- Settles O19: START, STOP, STOPPED and PART_RESET, from what each leaves of the partition's cores. -/
theorem partitionsStartStopAndReset : Obligations.PartitionsStartStopAndReset := by
  refine ⟨fun v p s hs ha ho hp => ⟨fun hb hst hipl hn hall hg => start_starts hs ha ho hp hb hst hipl hn hall hg, fun h => ?_⟩,
    fun v p s hs ho hp => ⟨fun ha hb hst hg => ?_, fun ha h => ?_, fun hst hall hsub hw => partitionStopped_stops hs ho hst hall hsub hw,
      fun hst hl => partitionStopped_waits ho hst hl⟩,
    fun v p s hs ha ho hp => ⟨fun h1 h2 => ?_, fun u hg h => partReset_leaves hs ha ho hp hg h⟩⟩
  · rw [exec_start ha ho, startCmd_refused hp h]
    exact refused_result hs
  · obtain ⟨t, hexec, hstate, hresult, hpubs, hjnl, hcore, hsto⟩ := stop_stops hs ha ho hp hb hst hg
    refine ⟨⟨t, hexec, hstate, hresult, hpubs, hjnl⟩, fun hall => ⟨t, hexec, fun l hl => ?_, ?_, hjnl⟩⟩
    · obtain ⟨hhalt, hbound, -⟩ := stoppedCores_boundary hall
      rw [hcore, hhalt l hl, haltedCore_eq (hbound l hl).run]
      exact ⟨rfl, rfl, rfl, rfl⟩
    · obtain ⟨-, -, hkept⟩ := stoppedCores_boundary hall
      exact hsto.trans hkept
  · rw [exec_stop ha ho, stopCmd_refused hp h]
    obtain ⟨t, hdone, hpln, hcpu, -⟩ := refused_result hs
    exact ⟨t, hdone, hpln, hcpu⟩
  · rw [exec_partReset ha ho, partReset, if_neg (by simp [h1, h2])]
    exact done_framed (frame_pwr s _) hs

end Sys2Proof.Machine
end

section
set_option Elab.async false
/-! PROOFS. A module reset (25 R559, R560; 27 R590). -/

namespace Sys2Proof.Machine

section
variable {s t : State}

/-- What holds of the default and of every entry of a table holds of what is read from it. -/
theorem tget_holds {α : Type} {P : α → Prop} {d : α} (hd : P d) (k : Nat) : ∀ {t : Tab α}, (∀ e ∈ t, P e.2) → P (tget d k t)
  | [], _ => hd
  | e :: t, h => by
    simp only [tget]
    split
    · exact h e (by simp)
    · exact tget_holds hd k fun x hx => h x (by simp [hx])

theorem traffic_sendStore {l a : Nat} {data : List Byte} {bad : Bool} : Touches trafficRegs s (sendStore l a data bad s) :=
  touches_ite (fun _ => traffic_homeWriteKeep.trans (touches_ite (fun _ => traffic_setPoison) fun _ => .refl _ _)) fun _ => traffic_of_msg frame_sendReq

/-- The cores' stores leave before a module reset. -/
theorem traffic_flushCores : Touches trafficRegs s (flushCores s) := by
  refine touches_foldl (fun u l => ?_) _ s
  have hsend : ∀ (w : WcBuf) (v : State), Touches trafficRegs v ((wcRuns w.data).foldl (fun s x => sendStore l (w.line * 128 + x.1) x.2 w.bad s) v) :=
    fun w v => touches_foldl (fun _ _ => traffic_sendStore) _ v
  exact (((traffic_drainSystem.trans frame_coreFields).trans (touches_foldl (fun v w => hsend w v) _ _)).trans (touches_foldl (fun _ _ => traffic_sendStore) _ _)).trans
    traffic_wbInvCore

/-- What a module reset finds: a module whose stores have left, unless it is checkstopped. -/
def flushed (s : State) : State := if s.flt.checkstop then s else flushCores s

theorem traffic_flushed : Touches trafficRegs s (flushed s) := touches_ite (fun _ => .refl _ s) fun _ => traffic_flushCores

/-- Bring-up begins again, with what a module reset keeps. -/
structure Booted (s t : State) : Prop where
  pending : t.pending = s.pending
  due : t.flt.due = []
  checkstop : t.flt.checkstop = false
  phase : t.pwr.phase = .firmware
  warm : t.pwr.warm = true
  image : t.pln.state = .noImage
  parts : ∀ p, pstateOf p t = .undefined
  cores : ∀ l, (coreOf l t).run ≠ .running
  sources : ∀ i, (fltStatus i t).pending = false
  tor : t.tor.tor = s.tor.tor
  journal : t.jnl.e = s.jnl.e
  slots : t.eng.slots = s.eng.slots
  flashA : t.pln.flashA = s.pln.flashA
  flashB : t.pln.flashB = s.pln.flashB
  generation : t.pln.generation = s.pln.generation

theorem Booted.of_frame {u : State} (h : Booted s t) (k : Touches [.arm, .node, .sto, .mem, .tor, .flt, .live, .out, .pf0, .armLink, .chLink] t u) : Booted s u := by
  have hstatus : u.flt.status = t.flt.status := k .status (by decide)
  have hpln : u.pln = t.pln := k .pln (by decide)
  have hpwr : u.pwr = t.pwr := k .pwr (by decide)
  have hcpu : u.cpu = t.cpu := k .cpu (by decide)
  have heng : u.eng = t.eng := k .eng (by decide)
  exact ⟨(k .pending (by decide)).trans h.pending, (k .due (by decide)).trans h.due, (k .checkstop (by decide)).trans h.checkstop, hpwr ▸ h.phase, hpwr ▸ h.warm,
    hpln ▸ h.image, fun p => (pstateOf_of_pln hpln p).trans (h.parts p), fun l => by rw [coreOf, hcpu]; exact h.cores l,
    fun i => by rw [fltStatus, hstatus]; exact h.sources i, (k .count (by decide)).trans h.tor, (k .journal (by decide)).trans h.journal, heng ▸ h.slots,
    hpln ▸ h.flashA, hpln ▸ h.flashB, hpln ▸ h.generation⟩

/-- The module as a reset leaves it, before its node is gone and its time stands alone. -/
theorem moduleBoot_booted (s : State) : ∃ t, Booted s t ∧ t.tor.state = s.tor.state ∧ t.flt.live = (flushed s).flt.live ∧ t.flt.log = (flushed s).flt.log ∧
    moduleBoot s = if s.tor.master.isSome ∧ ((setNode none t).tor.state = .fabric ∨ ((setNode none t).tor.state = .slewing ∧ !(setNode none t).tor.slewOwn))
      then torSet .holdover (setNode none t) else setNode none t := by
  have htraffic : Touches trafficRegs s (flushed s) := traffic_flushed
  have htor : (flushed s).tor = s.tor := htraffic .tor (by decide)
  have hpln : (flushed s).pln = s.pln := htraffic .pln (by decide)
  unfold moduleBoot
  extract_lets u flt pln pw pwr cpu jnl last link eng tr hp tm sm pm t v
  change Touches trafficRegs s u at htraffic
  change u.tor = s.tor at htor
  change u.pln = s.pln at hpln
  have hcores : ∀ l, (coreOf l t).run ≠ .running := fun l => tget_holds (P := fun c : Core => c.run ≠ .running) (by decide) l fun e he => by
    obtain ⟨c, -, hc⟩ := List.mem_filterMap.mp he
    split at hc
    · obtain rfl := Option.some.inj hc
      simp
    · simp at hc
  have hsources : ∀ i, (fltStatus i t).pending = false := fun i => tget_holds (P := fun v : FltStatus => v.pending = false) (by decide) i fun e he => by
    obtain ⟨c, -, hc⟩ := List.mem_filterMap.mp he
    split at hc
    · obtain rfl := Option.some.inj hc
      rfl
    · simp at hc
  refine ⟨t, ⟨htraffic .pending (by decide), rfl, rfl, rfl, rfl, rfl, fun _ => rfl, hcores, hsources, (congrArg TorS.tor htor :), htraffic .journal (by decide),
    (congrArg Engines.slots (htraffic .eng (by decide)) :), (congrArg Plinth.flashA hpln :), (congrArg Plinth.flashB hpln :), (congrArg Plinth.generation hpln :)⟩,
    (congrArg TorS.state htor :), rfl, rfl, ?_⟩
  rw [← show u.tor.master = s.tor.master from congrArg TorS.master htor]

/-- A module reset restarts bring-up; of a checkstopped module that follows no master, counters and log stay. -/
theorem moduleBoot_leaves (s : State) : Booted s (moduleBoot s) ∧
    (s.flt.checkstop = true → s.tor.master = none → (moduleBoot s).flt.live = s.flt.live ∧ (moduleBoot s).flt.log = s.flt.log) := by
  obtain ⟨t, hboot, -, hlive, hlog, heq⟩ := moduleBoot_booted s
  have hnode := frame_setNode none t
  rw [heq]
  refine ⟨hboot.of_frame ?_, fun hc hm => ?_⟩
  · exact touches_ite (fun _ => (hnode.mono (by decide)).andThen (frame_torSet .holdover _)) fun _ => hnode.mono (by decide)
  · have hflt : (setNode none t).flt = t.flt := hnode .flt (by decide)
    rw [if_neg (by simp [hm]), hflt, hlive, hlog, flushed, if_pos hc]
    exact ⟨rfl, rfl⟩

/-- A command that resets the module. -/
theorem done_moduleBoot {b : State} (hp : s.pending = b.pending) : ∃ t, done b (moduleBoot s) = .next t ∧ Booted s t ∧
    (s.flt.checkstop = true → s.tor.master = none → t.flt.live = s.flt.live ∧ t.flt.log = s.flt.log) := by
  obtain ⟨hboot, hkept⟩ := moduleBoot_leaves s
  obtain ⟨t, hdone, htold⟩ := done_told hboot.due (hboot.pending.trans hp)
  have hflt : t.flt = (moduleBoot s).flt := htold .flt (by decide)
  exact ⟨t, hdone, hboot.of_frame (htold.mono (by decide)), fun hc hm => hflt ▸ hkept hc hm⟩

/-! ### The commands -/

theorem exec_moduleReset {v : View} (ha : admin v s = true) (hp : powered s = true) (hh : s.tr.scanHeld = false) :
    exec (.moduleReset v) s = done s (moduleBoot s) := by
  show execModuleReset v s = _
  simp [execModuleReset, ha, hp, hh]

theorem exec_resetN {ns : Nat} (hp : powered s = true) (hh : s.tr.scanHeld = false) (hpr : s.pin.prsnt = true) (hl : s.pin.resetLow = false) (h : 1000 ≤ ns) :
    exec (.resetN ns) s = done s (moduleBoot s) := by
  show execResetN ns s = _
  rw [execResetN, if_neg (by simp [hpr]), if_neg (by simp [hl]), if_neg (by simp [hp, hh]; omega), if_pos h]

/-- A low pulse of a length that may reset the module or not. -/
theorem exec_resetN_short {ns : Nat} (hp : powered s = true) (hh : s.tr.scanHeld = false) (hpr : s.pin.prsnt = true) (hl : s.pin.resetLow = false)
    (h1 : 100 ≤ ns) (h2 : ns < 1000) :
    exec (.resetN ns) s = done s (if Config.freeBit s.free then moduleBoot { s with free := s.free + 1 } else { s with free := s.free + 1 }) := by
  show execResetN ns s = _
  rw [execResetN, if_neg (by simp [hpr]), if_neg (by simp [hl]), if_neg (by simp [hp, hh]; omega), if_neg (by omega)]
  rfl

end

/-- Settles O20: each way to a module reset runs `moduleBoot`. -/
theorem moduleResetRestartsModule : Obligations.ModuleResetRestartsModule := by
  refine fun c s hs => ⟨fun h => ?_, fun ns hc hpr => ?_⟩
  · obtain ⟨t, hdone, hb, hkept⟩ := done_moduleBoot (s := s) (b := s) rfl
    have hexec : exec c s = .next t := by
      rcases h with ⟨hp, hh, v, ha, rfl⟩ | ⟨hp, hh, hpr, hl, ns, hns, rfl⟩
      · rw [exec_moduleReset ha hp hh, hdone]
      · rw [exec_resetN hp hh hpr hl hns, hdone]
    exact ⟨t, hexec, hb.checkstop, hb.phase, hb.warm, hb.image, hb.parts, hb.cores, hb.sources, hb.tor, hb.journal, hb.slots, hb.flashA, hb.flashB, hb.generation,
      hkept⟩
  · subst hc
    refine ⟨fun hl => ?_, fun hl hns => ?_, fun hl h1 h2 hp hh => ?_⟩
    · show execResetN ns s = _
      rw [execResetN, if_neg (by simp [hpr]), if_pos hl]
    · show execResetN ns s = _
      rw [execResetN, if_neg (by simp [hpr]), if_neg (by simp [hl]), if_pos (by simp [hns])]
    · rw [exec_resetN_short hp hh hpr hl h1 h2]
      split
      · obtain ⟨t, hdone, hb, -⟩ := done_moduleBoot (s := { s with free := s.free + 1 }) (b := s) rfl
        exact ⟨t, hdone, .inr ⟨hb.phase, hb.warm, hb.image⟩⟩
      · exact ⟨_, done_framed (frame_free s _) hs, .inl rfl⟩

end Sys2Proof.Machine
end

section
set_option Elab.async false
/-! PROOFS. A cold reset, and the loss of power (25 R550, R551, R559, R560). -/

namespace Sys2Proof.Machine

section
variable {on : Bool} {b s t u : State}

/-- A module without a node tells no other module of its time. -/
theorem torFlood_alone (h : s.arm.node = none) : torFlood b s = s := by
  unfold torFlood announceChange
  simp [h]

/-- Where no step is due and the module has no node, the end of a command writes what the host is told. -/
theorem done_alone (hd : u.flt.due = []) (hp : u.pending = b.pending) (hn : u.arm.node = none) : ∃ t, done b u = .next t ∧ Touches [.out, .pf0] u t := by
  refine ⟨_, rfl, ?_⟩
  rw [settle, settleDue_quiet _ hd, torFlood_alone hn]
  exact (((frame_signalStates u b).mono (by decide) : Touches [.pending, .out, .pf0] u _).trans ((frame_queue _ _).mono (by decide))).holding hp.symm

/-! ### Everything outside the keep-alive domain -/

/-- From `s` to `t` everything outside the keep-alive domain is lost. -/
structure Wiped (on : Bool) (s t : State) : Prop where
  pending : t.pending = s.pending
  due : t.flt.due = []
  node : t.arm.node = none
  power : t.pwr.on = on
  phase : t.pwr.phase = .firmware
  cold : t.pwr.warm = false
  supplies : t.pwr.vkaOk = s.pwr.vkaOk ∧ t.pwr.aOk = s.pwr.aOk ∧ t.pwr.bOk = s.pwr.bOk
  pin : t.pin = { s.pin with removeOk := false }
  sto : t.sto = {}
  cpu : t.cpu = {}
  dram : t.dram = []
  eng : t.eng = {}
  mq : t.mq = {}
  armLink : t.armLink = []
  chLink : t.chLink = []
  image : t.pln.state = .noImage
  checkstop : t.flt.checkstop = (!on && s.flt.checkstop)
  journal : t.jnl.e = s.jnl.e
  snap : t.flt.snap = s.flt.snap
  generation : t.pln.generation = s.pln.generation
  flashA : t.pln.flashA = s.pln.flashA
  flashB : t.pln.flashB = s.pln.flashB
  lastRef : t.tor.lastRef = s.tor.lastRef
  live : ∀ j, j ≠ 0x297 → tget 0 j t.flt.live = tget 0 j s.flt.live
  kept : s.tor.keptValid = true → t.tor.tor = s.tor.tor ∧ t.tor.keptValid = true ∧ t.tor.holdStart = s.tor.holdStart
  lost : s.tor.keptValid = false → t.tor.tor = 0 ∧ t.tor.state = .unreferenced ∧ t.tor.holdStart = s.tor.holdStart

/-- The time of record as a wipe finds it. -/
def keptTime (s : State) : State := if s.tor.keptValid then s else torSet .unreferenced s

theorem frame_keptTime : Touches [.tor, .flt, .live] s (keptTime s) := touches_ite (fun _ => .refl _ s) fun _ => frame_torSet _ s

theorem keptTime_valid (h : s.tor.keptValid = true) : keptTime s = s := if_pos h

theorem keptTime_invalid (h : s.tor.keptValid = false) : (keptTime s).tor = { s.tor with state := .unreferenced } := by
  rw [keptTime, if_neg (by simp [h]), torSet_tor]
  simp

theorem keptTime_tor : (keptTime s).tor.keptValid = s.tor.keptValid ∧ (keptTime s).tor.tor = s.tor.tor ∧ (keptTime s).tor.holdStart = s.tor.holdStart ∧
    (keptTime s).tor.lastRef = s.tor.lastRef := by
  cases h : s.tor.keptValid with
  | true => rw [keptTime_valid h, h]; exact ⟨rfl, rfl, rfl, rfl⟩
  | false => rw [keptTime_invalid h]; exact ⟨h, rfl, rfl, rfl⟩

theorem keptTime_live {j : Nat} (hj : j ≠ 0x297) : tget 0 j (keptTime s).flt.live = tget 0 j s.flt.live := by
  unfold keptTime
  split
  · rfl
  · rw [torSet_live, if_neg fun h => hj h.1]

theorem keptTime_snap : (keptTime s).flt.snap = s.flt.snap := by
  unfold keptTime
  split
  · rfl
  · unfold torSet
    split
    · rfl
    · rfl

theorem wipe_wiped (on : Bool) (s : State) : Wiped on s (wipe on s) := by
  have hframe : Touches [.tor, .flt, .live] s (keptTime s) := frame_keptTime
  obtain ⟨hvalid, htor, hhold, hlast⟩ := keptTime_tor (s := s)
  have hpln : (keptTime s).pln = s.pln := hframe .pln (by decide)
  have hpin : (keptTime s).pin = s.pin := hframe .pin (by decide)
  have hpwr : (keptTime s).pwr = s.pwr := hframe .pwr (by decide)
  unfold wipe
  extract_lets u tor flt pln pwr jnl last pm
  change Touches [.tor, .flt, .live] s u at hframe
  change u.tor.keptValid = _ at hvalid
  change u.tor.tor = _ at htor
  change u.tor.holdStart = _ at hhold
  change u.tor.lastRef = _ at hlast
  change u.pln = _ at hpln
  change u.pin = _ at hpin
  change u.pwr = _ at hpwr
  have hstop : u.flt.checkstop = s.flt.checkstop := hframe .checkstop (by decide)
  refine ⟨hframe .pending (by decide), rfl, rfl, rfl, rfl, rfl,
    ⟨(congrArg Power.vkaOk hpwr :), (congrArg Power.aOk hpwr :), (congrArg Power.bOk hpwr :)⟩, ?_, rfl, rfl, rfl, rfl, rfl, rfl, rfl, rfl, congrArg (!on && ·) hstop, hframe .journal (by decide),
    keptTime_snap, (congrArg Plinth.generation hpln :), (congrArg Plinth.flashA hpln :), (congrArg Plinth.flashB hpln :), hlast, fun j hj => keptTime_live hj,
    fun h => ⟨?_, hvalid.trans h, hhold⟩, fun h => ⟨?_, ?_, hhold⟩⟩
  · exact congrArg (fun p : Pins => { p with removeOk := false }) hpin
  · show (if u.tor.keptValid then u.tor.tor else 0) = s.tor.tor
    rw [hvalid, h, htor]
    rfl
  · show (if u.tor.keptValid then u.tor.tor else 0) = 0
    rw [hvalid, h]
    rfl
  · exact congrArg TorS.state (keptTime_invalid h)

theorem Wiped.of_frame (h : Wiped on s t) (k : Touches [.out, .pf0, .hp] t u) : Wiped on s u := by
  have hpwr : u.pwr = t.pwr := k .pwr (by decide)
  have hpln : u.pln = t.pln := k .pln (by decide)
  have hflt : u.flt = t.flt := k .flt (by decide)
  have htor : u.tor = t.tor := k .tor (by decide)
  have hnode : u.arm = t.arm := k .arm (by decide)
  exact ⟨(k .pending (by decide)).trans h.pending, hflt ▸ h.due, hnode ▸ h.node, hpwr ▸ h.power, hpwr ▸ h.phase, hpwr ▸ h.cold, hpwr ▸ h.supplies, (k .pin (by decide)).trans h.pin,
    (k .sto (by decide)).trans h.sto, (k .cpu (by decide)).trans h.cpu, (k .dram (by decide)).trans h.dram, (k .eng (by decide)).trans h.eng,
    (k .mq (by decide)).trans h.mq, (k .armLink (by decide)).trans h.armLink, (k .chLink (by decide)).trans h.chLink, hpln ▸ h.image, hflt ▸ h.checkstop,
    (k .journal (by decide)).trans h.journal, hflt ▸ h.snap, hpln ▸ h.generation, hpln ▸ h.flashA, hpln ▸ h.flashB, htor ▸ h.lastRef, hflt ▸ h.live, htor ▸ h.kept,
    htor ▸ h.lost⟩

/-! ### A cold reset -/

/-- The state that a cold reset wipes: the module draws on from the feed that it draws from, or on the feed that is good. -/
def bootFeed (s : State) : State := { s with pwr := { s.pwr with srcB := if s.pwr.on then s.pwr.srcB else !s.pwr.aOk } }

theorem coldBoot_wiped (s : State) : Wiped true (bootFeed s) (coldBoot s) := (wipe_wiped true (bootFeed s)).of_frame ((frame_hp (wipe true (bootFeed s)) _).mono (by decide))

theorem done_coldBoot (hp : s.pending = b.pending) : ∃ t, done b (coldBoot s) = .next t ∧ Wiped true (bootFeed s) t := by
  have hw := coldBoot_wiped s
  obtain ⟨t, hdone, htold⟩ := done_alone (b := b) hw.due (hw.pending.trans hp) hw.node
  exact ⟨t, hdone, hw.of_frame (htold.mono (by decide))⟩

theorem exec_coldReset {c : ColdCause}
    (h : (∃ v, c = .command v ∧ admin v s = true ∧ powered s = true) ∨ (c = .feed ∧ feedBoot s = true) ∨ (c = .tripEnd ∧ feedBoot s = true) ∨
      (c = .insertion ∧ feedBoot s = true)) : exec (.coldReset c) s = done s (coldBoot s) := by
  show execColdReset c s = _
  rcases h with ⟨v, rfl, ha, hp⟩ | ⟨rfl, hf⟩ | ⟨rfl, hf⟩ | ⟨rfl, hf⟩
  · simp [execColdReset, ha, hp]
  all_goals simp [execColdReset, hf]

end

/-- Settles O21, from what a wipe keeps. -/
theorem coldResetKeepsKeepAlive : Obligations.ColdResetKeepsKeepAlive := by
  intro c s _ h
  obtain ⟨t, hdone, hw⟩ := done_coldBoot (s := s) (b := s) rfl
  refine ⟨t, (exec_coldReset h).trans hdone, hw.power, hw.phase, hw.cold, hw.sto, hw.cpu, hw.dram, hw.eng, hw.mq, hw.armLink, hw.chLink, hw.image, hw.checkstop,
    hw.journal, hw.snap, hw.generation, hw.flashA, hw.flashB, hw.lastRef, ?_, hw.live, fun hk => ?_, fun hk => ?_⟩
  · cases hk : s.tor.keptValid with
    | true => exact (hw.kept hk).2.2
    | false => exact (hw.lost hk).2.2
  · obtain ⟨htor, hvalid, -⟩ := hw.kept hk
    exact ⟨htor, hvalid⟩
  · obtain ⟨htor, hstate, -⟩ := hw.lost hk
    exact ⟨htor, hstate⟩

end Sys2Proof.Machine
end

section
set_option Elab.async false
/-! PROOFS. The feeds, the loss of power, thermal trip, VKA and insertion (25 R548 to R551, R554, R565). -/

namespace Sys2Proof.Machine

section
variable {b s t u : State}

/-! ### An event leaves its source pending -/

theorem raiseClass_pending (cls src code : Nat) (part : Option Nat) (detail : Nat) (holds : Bool) (s : State) :
    (fltStatus src (raiseClass cls src code part detail holds s)).pending = true := by
  have hlast : ∀ (u : State), (fltStatus src u).pending = true → ∀ (c d : Prop) [Decidable c] [Decidable d],
      (fltStatus src (if d then makeDue (sourceNo code src) (part.getD 0x3F) [3] (if c then pulseErrN u else u) else if c then pulseErrN u else u)).pending = true := by
    intro u hu c d _ _
    split <;> split <;> exact hu
  unfold raiseClass
  extract_lets st r pt counted logged told
  refine hlast told ?_ _ _
  have hst : fltStatus src logged = st := by
    have hcounted : Touches [.flt, .live] s logged := (frame_patina s src).trans
      (touches_ite (fun _ => (frame_logEntry counted _ _ _ _ _ _).mono (by decide)) fun _ => .refl _ counted)
    have hstatus : logged.flt.status = s.flt.status := hcounted .status (by decide)
    simp only [fltStatus, hstatus, st]
  unfold told
  split
  case isTrue hp => exact (frame_laterEvent logged _ _ _ _ _ .pend (by decide) src (by rw [hst]; exact hp)).1
  case isFalse hp =>
    have hset : ∀ v : FltStatus, v.pending = true → (fltStatus src (setFlt src v logged)).pending = true := fun v hv => by
      rw [fltStatus_setFlt, if_pos rfl]
      exact hv
    have hrest : ∀ v : FltStatus, Touches eventRegs (setFlt src v logged) (startGrace src (reactNotify src code part detail (setFlt src v logged))) := fun v =>
      ((frame_reactNotify _ src code part detail).mono (by decide)).andThen (frame_startGrace _ src)
    exact (hrest _ .pend (by decide) src (hset _ rfl)).1

theorem raise_pending (src code : Nat) (part : Option Nat) (detail : Nat) (s : State) : (fltStatus src (raise src code part detail s)).pending = true :=
  raiseClass_pending _ _ _ _ _ _ _

/-! ### A change of feed -/

theorem done_switchFeed (toB : Bool) (a c : Nat) (hs : Safety.settled s) (hg : Safety.graceful s) :
    ∃ t, done s (switchFeed toB (setFeeds a c s)) = .next t ∧ t.pwr.srcB = toB ∧ t.pwr.aOk = feedGood a ∧ t.pwr.bOk = feedGood c ∧
      (fltStatus srcSupply t).pending = true ∧ t.tor = s.tor ∧ t.sto = s.sto := by
  have hset : Touches [.pwr, .sensed] s { setFeeds a c s with pwr := { (setFeeds a c s).pwr with srcB := toB } } := frame_pwr s _
  have hraise : Touches eventRegs _ (switchFeed toB (setFeeds a c s)) := frame_raise { setFeeds a c s with pwr := { (setFeeds a c s).pwr with srcB := toB } } (by decide) _ _ _
  have hall : Touches (.pwr :: .sensed :: eventRegs) s (switchFeed toB (setFeeds a c s)) := (hset.mono (by decide)).trans (hraise.mono (by decide))
  obtain ⟨t, hdone, htold⟩ := done_told (due_of_still (hall .still (by decide)) hs hg) (hall .pending (by decide))
  have hpwr : t.pwr = { (setFeeds a c s).pwr with srcB := toB } := (htold .pwr (by decide)).trans (hraise .pwr (by decide))
  refine ⟨t, hdone, by rw [hpwr], by rw [hpwr]; rfl, by rw [hpwr]; rfl, ?_, (htold .tor (by decide)).trans (hall .tor (by decide)),
    (htold .sto (by decide)).trans (hall .sto (by decide))⟩
  exact (htold .pend (by decide) srcSupply (raise_pending _ _ _ _ _)).1

theorem exec_feedSwitch {a c : Nat} (hp : powered s = true) (hb : s.pwr.srcB = false) (h : betterFeed c a = true) :
    exec (.feedSwitch a c) s = done s (switchFeed true (setFeeds a c s)) := by
  show execFeedSwitch a c s = _
  simp [execFeedSwitch, hp, hb, h]

theorem exec_feedSwitch_none {a c : Nat} (h : s.pwr.srcB = true ∨ betterFeed c a = false) : exec (.feedSwitch a c) s = .next s := by
  show execFeedSwitch a c s = _
  rcases h with h | h <;> simp [execFeedSwitch, h]

theorem exec_feedReturn {a c : Nat} (hp : powered s = true) (hb : s.pwr.srcB = true) (h : feedGood a = true ∨ betterFeed a c = true) :
    exec (.feedReturn a c) s = done s (switchFeed false (setFeeds a c s)) := by
  show execFeedReturn a c s = _
  rcases h with h | h <;> simp [execFeedReturn, hp, hb, h]

theorem exec_feedReturn_none {a c : Nat} (h : s.pwr.srcB = false ∨ (feedGood a = false ∧ betterFeed a c = false)) : exec (.feedReturn a c) s = .next s := by
  show execFeedReturn a c s = _
  rcases h with h | ⟨h, k⟩
  · simp [execFeedReturn, h]
  · simp [execFeedReturn, h, k]

/-! ### Power off -/

/-- Power is off outside the keep-alive domain, which is as before or lost. -/
structure Unpowered (s t : State) : Prop where
  pending : t.pending = s.pending
  due : t.flt.due = []
  node : t.arm.node = none
  power : t.pwr.on = false
  supplies : t.pwr.vkaOk = s.pwr.vkaOk ∧ t.pwr.aOk = s.pwr.aOk ∧ t.pwr.bOk = s.pwr.bOk
  sto : t.sto = {}
  cpu : t.cpu = {}
  eng : t.eng = {}
  kept : (s.pwr.vkaOk || s.pwr.aOk || s.pwr.bOk) = true → t.jnl.e = s.jnl.e ∧ ∀ j, j ≠ 0x297 → tget 0 j t.flt.live = tget 0 j s.flt.live
  lost : (s.pwr.vkaOk || s.pwr.aOk || s.pwr.bOk) = false → t.jnl = {} ∧ t.flt.live = [] ∧ t.tor = {}

/-- The time of record as power off finds it. -/
def offTime (s : State) : State := if s.tor.keptValid then torAlone s else s

theorem frame_offTime : Touches [.tor, .flt, .live] s (offTime s) := by
  unfold offTime torAlone
  refine touches_ite (fun _ => ?_) fun _ => .refl _ s
  split
  · exact .refl _ s
  · exact .refl _ s
  · exact frame_torSet _ s

theorem offTime_live {j : Nat} (hj : j ≠ 0x297) : tget 0 j (offTime s).flt.live = tget 0 j s.flt.live := by
  unfold offTime torAlone
  split
  · split
    · rfl
    · rfl
    · rw [torSet_live, if_neg fun h => hj h.1]
  · rfl

theorem powerOff_unpowered (s : State) : Unpowered s (powerOff s) := by
  have hframe : Touches [.tor, .flt, .live] s (offTime s) := frame_offTime
  have hw := wipe_wiped false (offTime s)
  have hpwr : (offTime s).pwr = s.pwr := hframe .pwr (by decide)
  have hsup := hw.supplies
  rw [hpwr] at hsup
  obtain ⟨hv, ha, hb⟩ := hsup
  have heq : powerOff s = if (s.pwr.vkaOk || s.pwr.aOk || s.pwr.bOk) = true then wipe false (offTime s) else loseKept (wipe false (offTime s)) := by
    rw [← hv, ← ha, ← hb]
    rfl
  rw [heq]
  generalize wipe false (offTime s) = w at hw hv ha hb
  split
  case isTrue h =>
    exact ⟨hw.pending.trans (hframe .pending (by decide)), hw.due, hw.node, hw.power, ⟨hv, ha, hb⟩, hw.sto, hw.cpu, hw.eng,
      fun _ => ⟨hw.journal.trans (hframe .journal (by decide)), fun j hj => (hw.live j hj).trans (offTime_live hj)⟩, fun hl => absurd (h.symm.trans hl) (by decide)⟩
  case isFalse h =>
    exact ⟨hw.pending.trans (hframe .pending (by decide)), hw.due, hw.node, hw.power, ⟨hv, ha, hb⟩, hw.sto, hw.cpu, hw.eng, fun hk => absurd hk h,
      fun _ => ⟨rfl, rfl, rfl⟩⟩

theorem Unpowered.of_frame (h : Unpowered s t) (k : Touches [.out, .pf0] t u) : Unpowered s u := by
  have hpwr : u.pwr = t.pwr := k .pwr (by decide)
  have hflt : u.flt = t.flt := k .flt (by decide)
  have harm : u.arm = t.arm := k .arm (by decide)
  have hjnl : u.jnl = t.jnl := k .jnl (by decide)
  have htor : u.tor = t.tor := k .tor (by decide)
  exact ⟨(k .pending (by decide)).trans h.pending, hflt ▸ h.due, harm ▸ h.node, hpwr ▸ h.power, hpwr ▸ h.supplies, (k .sto (by decide)).trans h.sto,
    (k .cpu (by decide)).trans h.cpu, (k .eng (by decide)).trans h.eng, hjnl ▸ hflt ▸ h.kept, hjnl ▸ hflt ▸ htor ▸ h.lost⟩

theorem done_unpowered (h : Unpowered s t) (hp : s.pending = b.pending) : ∃ u, done b t = .next u ∧ Unpowered s u ∧ Touches [.out, .pf0] t u := by
  obtain ⟨u, hdone, htold⟩ := done_alone (b := b) h.due (h.pending.trans hp) h.node
  exact ⟨u, hdone, h.of_frame htold, htold⟩

/-- The loss of both feeds is logged, and power goes off. -/
theorem loseFeeds_unpowered (s : State) : ∃ u, Touches [.flt] s u ∧ u.flt.live = s.flt.live ∧ Unpowered u (loseFeeds s) :=
  ⟨_, frame_logEntry s 1 3 (sourceNo 0x10 srcSupply) 0x3F 0 0, rfl, powerOff_unpowered _⟩

theorem exec_feedLoss {a c : Nat} (hp : powered s = true) (ha : a < 40000) (hc : c < 40000) :
    exec (.feedLoss a c) s = done s (loseFeeds (setFeeds a c s)) := by
  show execFeedLoss a c s = _
  rw [execFeedLoss, if_pos ⟨hp, ha, hc⟩]

theorem feedLoss_loses {a c : Nat} (hp : powered s = true) (ha : a < 40000) (hc : c < 40000) :
    ∃ t, exec (.feedLoss a c) s = .next t ∧ t.pwr.on = false ∧ t.sto = {} ∧ t.cpu = {} ∧ t.eng = {} ∧
      (s.pwr.vkaOk = true → t.jnl.e = s.jnl.e ∧ (∀ j, j ≠ 0x297 → tget 0 j t.flt.live = tget 0 j s.flt.live)) ∧
      (s.pwr.vkaOk = false → t.jnl = {} ∧ t.flt.live = [] ∧ t.tor = {}) := by
  obtain ⟨u, hlog, hlive, hoff⟩ := loseFeeds_unpowered (setFeeds a c s)
  have hset : Touches [.pwr, .sensed] s (setFeeds a c s) := frame_pwr s _
  have hjnl : u.jnl.e = s.jnl.e := (hlog .journal (by decide)).trans (hset .journal (by decide))
  have hsup : (u.pwr.vkaOk || u.pwr.aOk || u.pwr.bOk) = s.pwr.vkaOk := by
    rw [show u.pwr = (setFeeds a c s).pwr from hlog .pwr (by decide)]
    have hbad : ∀ x, x < 40000 → feedGood x = false := fun x hx => by simp [feedGood]; omega
    simp [setFeeds, hbad a ha, hbad c hc]
  obtain ⟨t, hdone, ht, -⟩ := done_unpowered (b := s) hoff (hlog .pending (by decide))
  rw [exec_feedLoss hp ha hc]
  refine ⟨t, hdone, ht.power, ht.sto, ht.cpu, ht.eng, fun hv => ?_, fun hv => ht.lost (hsup.trans hv)⟩
  obtain ⟨he, hl⟩ := ht.kept (hsup.trans hv)
  exact ⟨he.trans hjnl, fun j hj => (hl j hj).trans (by rw [hlive]; rfl)⟩

/-! ### Thermal trip -/

theorem exec_thermtrip {n : Nat} (hp : powered s = true) (hn : n < 60) : exec (.thermtrip n) s =
    done s { powerOff (logEntry 1 3 (sourceNo 0x10 srcThermal) 0x3F 0 n s) with
      pwr := { (powerOff (logEntry 1 3 (sourceNo 0x10 srcThermal) 0x3F 0 n s)).pwr with tripped := true } } := by
  show execThermtrip n s = _
  rw [execThermtrip, if_pos ⟨hp, hn⟩]

theorem thermtrip_trips {n : Nat} (hp : powered s = true) (hn : n < 60) :
    ∃ t, exec (.thermtrip n) s = .next t ∧ t.pwr.on = false ∧ t.pwr.tripped = true ∧ t.sto = {} ∧ t.cpu = {} ∧
      (s.pwr.aOk = true ∨ s.pwr.bOk = true ∨ s.pwr.vkaOk = true → pinLevel .thermtripN t = .low) := by
  rw [exec_thermtrip hp hn]
  have hlog := frame_logEntry s 1 3 (sourceNo 0x10 srcThermal) 0x3F 0 n
  have hoff := powerOff_unpowered (logEntry 1 3 (sourceNo 0x10 srcThermal) 0x3F 0 n s)
  generalize logEntry 1 3 (sourceNo 0x10 srcThermal) 0x3F 0 n s = u at hlog hoff ⊢
  generalize powerOff u = w at hoff ⊢
  obtain ⟨t, hdone, htold⟩ := done_alone (b := s) (u := { w with pwr := { w.pwr with tripped := true } }) hoff.due (hoff.pending.trans (hlog .pending (by decide))) hoff.node
  have hpwr : t.pwr = { w.pwr with tripped := true } := htold .pwr (by decide)
  refine ⟨t, hdone, by rw [hpwr]; exact hoff.power, by rw [hpwr], (htold .sto (by decide)).trans hoff.sto, (htold .cpu (by decide)).trans hoff.cpu, fun h => ?_⟩
  obtain ⟨hv, ha, hb⟩ := hoff.supplies
  rw [show u.pwr = s.pwr from hlog .pwr (by decide)] at hv ha hb
  have hany : anySupply t = true := by
    simp only [anySupply, hpwr, hv, ha, hb]
    rcases h with h | h | h <;> simp [h]
  simp [pinLevel, hany, hpwr, openDrain]

/-! ### VKA, and the feeds as they read -/

theorem vkaLoss_loses (hs : Safety.settled s) (hp : s.pwr.on = false) (ha : s.pwr.aOk = false) (hb : s.pwr.bOk = false) :
    ∃ t, exec .vkaLoss s = .next t ∧ t.pwr.vkaOk = false ∧ t.jnl = {} ∧ t.tor = {} ∧ t.flt.live = [] ∧ t.flt.log = [] ∧ t.pln.flashA = s.pln.flashA := by
  have hexec : exec .vkaLoss s = done s (loseKept { s with pwr := { s.pwr with vkaOk := false } }) := by
    show execVkaLoss s = _
    simp [execVkaLoss, hp, ha, hb]
  obtain ⟨t, hdone, htold⟩ := done_told (b := s) (s := loseKept { s with pwr := { s.pwr with vkaOk := false } }) hs rfl
  have hflt : t.flt = (loseKept { s with pwr := { s.pwr with vkaOk := false } }).flt := htold .flt (by decide)
  refine ⟨t, hexec.trans hdone, congrArg Power.vkaOk (htold .pwr (by decide)), htold .jnl (by decide), htold .tor (by decide), by rw [hflt]; rfl, by rw [hflt]; rfl, ?_⟩
  exact (congrArg Plinth.flashA (htold .pln (by decide)) :)

theorem vkaLoss_kept (hs : Safety.settled s) (h : s.pwr.on = true ∨ s.pwr.aOk = true ∨ s.pwr.bOk = true) :
    exec .vkaLoss s = .next { s with pwr := { s.pwr with vkaOk := false } } := by
  have hexec : exec .vkaLoss s = done s { s with pwr := { s.pwr with vkaOk := false } } := by
    show execVkaLoss s = _
    rcases h with h | h | h <;> simp [execVkaLoss, h]
  rw [hexec]
  exact done_framed (frame_pwr s _) hs

/-- The supplies as they read. -/
def feedsRead (a c v : Nat) (s : State) : Power :=
  { s.pwr with
    vkaOk := vkaGood v, aOk := feedGood a, bOk := feedGood c
    tripped := s.pwr.tripped && !(match s.pwr.below20 with | some t => decide (t + ticksS ≤ s.tor.tor) | none => false)
    below20 := if decide (a < 20000) && decide (c < 20000) then some (s.pwr.below20.getD s.tor.tor) else none }

theorem feedsChange_eq (a c v : Nat) (s : State) : feedsChange a c v s =
    if !s.pwr.on ∧ !feedGood a ∧ !feedGood c ∧ !vkaGood v then loseKept { s with pwr := feedsRead a c v s } else { s with pwr := feedsRead a c v s } := rfl

theorem feedGoodChange_reads (a c v : Nat) (hs : Safety.settled s) :
    ∃ t, exec (.feedGoodChange a c v) s = .next t ∧ t.pwr.aOk = feedGood a ∧ t.pwr.bOk = feedGood c ∧ t.pwr.vkaOk = decide (3000 ≤ v) ∧
      t.pwr.on = s.pwr.on ∧ (¬(a < 20000 ∧ c < 20000) → t.pwr.below20 = none) ∧ (s.pwr.below20 = none → t.pwr.tripped = s.pwr.tripped) := by
  have hexec : exec (.feedGoodChange a c v) s = done s (feedsChange a c v s) := rfl
  have hchange : (feedsChange a c v s).flt.due = [] ∧ (feedsChange a c v s).pending = s.pending ∧ (feedsChange a c v s).pwr = feedsRead a c v s := by
    rw [feedsChange_eq]
    split
    · exact ⟨hs, rfl, rfl⟩
    · exact ⟨hs, rfl, rfl⟩
  obtain ⟨hdue, hpending, hread⟩ := hchange
  obtain ⟨t, hdone, htold⟩ := done_told (b := s) hdue hpending
  have hpwr : t.pwr = feedsRead a c v s := (htold .pwr (by decide)).trans hread
  refine ⟨t, hexec.trans hdone, ?_⟩
  rw [hpwr]
  refine ⟨rfl, rfl, rfl, rfl, fun h => if_neg (by simpa using h), fun h => ?_⟩
  simp [feedsRead, h]

theorem feedGoodChange_cools {a c v t0 : Nat} (hs : Safety.settled s) (ht : s.pwr.tripped = true) (ha : a < 20000) (hc : c < 20000)
    (hv : 3000 ≤ v) (hb : s.pwr.below20 = some t0) :
    exec (.feedGoodChange a c v) s = .next { s with pwr := { s.pwr with
      aOk := false, bOk := false, vkaOk := true, tripped := decide (s.tor.tor < t0 + 4000000000), below20 := some t0 } } := by
  have hexec : exec (.feedGoodChange a c v) s = done s (feedsChange a c v s) := rfl
  have hgood : vkaGood v = true := by simpa [vkaGood] using hv
  have hbad : ∀ x, x < 20000 → feedGood x = false := fun x hx => by simp [feedGood]; omega
  have hcool : (!decide (t0 + ticksS ≤ s.tor.tor)) = decide (s.tor.tor < t0 + 4000000000) := by
    rw [← decide_not]
    exact decide_eq_decide.mpr Nat.not_le
  have hread : feedsRead a c v s = { s.pwr with
      aOk := false, bOk := false, vkaOk := true, tripped := decide (s.tor.tor < t0 + 4000000000), below20 := some t0 } := by
    simp [feedsRead, hgood, hbad a ha, hbad c hc, ht, hb, ha, hc, hcool]
  rw [hexec, feedsChange_eq, if_neg (by simp [hgood]), hread]
  exact done_framed (frame_pwr s _) hs

/-! ### Insertion -/

theorem exec_prsntDeassert (h : s.pin.prsnt = true) : exec .prsntDeassert s =
    done s { (if powered s then loseFeeds s else s) with pin := { (if powered s then loseFeeds s else s).pin with prsnt := false, resetLow := false } } := by
  show execPrsntDeassert s = _
  rw [execPrsntDeassert, if_neg (by simp [h])]

theorem prsntDeassert_powered (h : s.pin.prsnt = true) (hp : powered s = true) :
    ∃ t, exec .prsntDeassert s = .next t ∧ t.pwr.on = false ∧ t.pin.prsnt = false ∧ t.sto = {} ∧ t.cpu = {} := by
  obtain ⟨u, hlog, -, hoff⟩ := loseFeeds_unpowered s
  rw [exec_prsntDeassert h, if_pos hp]
  generalize loseFeeds s = w at hoff ⊢
  obtain ⟨t, hdone, htold⟩ := done_alone (b := s) (u := { w with pin := { w.pin with prsnt := false, resetLow := false } }) hoff.due
    (hoff.pending.trans (hlog .pending (by decide))) hoff.node
  exact ⟨t, hdone, (congrArg Power.on (htold .pwr (by decide))).trans hoff.power, congrArg Pins.prsnt (htold .pin (by decide)),
    (htold .sto (by decide)).trans hoff.sto, (htold .cpu (by decide)).trans hoff.cpu⟩

theorem prsntDeassert_unpowered (hs : Safety.settled s) (h : s.pin.prsnt = true) (hp : powered s = false) :
    exec .prsntDeassert s = .next { s with pin := { s.pin with prsnt := false, resetLow := false } } := by
  rw [exec_prsntDeassert h, if_neg (by simp [hp])]
  exact done_framed (frame_pin s _) hs

/-- A module that is inserted. -/
def inserted (low : Bool) (s : State) : State := { s with pin := { s.pin with prsnt := true, resetLow := low } }

theorem exec_hotInsertion {low : Bool} (h : s.pin.prsnt = false) :
    exec (.hotInsertion low) s = done s (if feedBoot (inserted low s) then coldBoot (inserted low s) else inserted low s) := by
  show execHotInsertion low s = _
  rw [execHotInsertion, if_neg (by simp [h])]
  rfl

theorem hotInsertion_boots {low : Bool} (h : s.pin.prsnt = false) (hp : powered s = false) (ht : s.pwr.tripped = false) (hl : s.pin.sysLost = false)
    (hf : s.pwr.aOk = true ∨ s.pwr.bOk = true) :
    ∃ t, exec (.hotInsertion low) s = .next t ∧ t.pin.prsnt = true ∧ t.pin.resetLow = low ∧ t.pwr.on = true ∧ t.pwr.phase = .firmware := by
  have hboot : feedBoot (inserted low s) = true := by
    have hon : s.pwr.on = false := hp
    simp only [feedBoot, inserted, hon, ht, hl, Bool.not_false, Bool.and_true, Bool.true_and, Bool.or_eq_true]
    exact hf
  obtain ⟨t, hdone, hw⟩ := done_coldBoot (s := inserted low s) (b := s) rfl
  rw [exec_hotInsertion h, if_pos hboot]
  exact ⟨t, hdone, by rw [hw.pin]; rfl, by rw [hw.pin]; rfl, hw.power, hw.phase⟩

theorem hotInsertion_waits {low : Bool} (hs : Safety.settled s) (h : s.pin.prsnt = false) (ha : s.pwr.aOk = false) (hb : s.pwr.bOk = false) :
    exec (.hotInsertion low) s = .next (inserted low s) := by
  rw [exec_hotInsertion h, if_neg (by simp [feedBoot, inserted, ha, hb])]
  exact done_framed (frame_pin s _) hs

end

/-- Settles O24: what each command of the feeds, of the thermal trip, of VKA and of PRSNT_N leaves. -/
theorem feedsPowerAndInsertion : Obligations.FeedsPowerAndInsertion := by
  refine ⟨fun a c s hs hp => ⟨fun hb h hg => ?_, exec_feedSwitch_none, fun hb h hg => ?_, exec_feedReturn_none, fun ha hc => feedLoss_loses hp ha hc, fun h => ?_⟩,
    fun s hs => ⟨fun n hp hn => thermtrip_trips hp hn, fun n hn => ?_, vkaLoss_loses hs, vkaLoss_kept hs, fun a c v => feedGoodChange_reads a c v hs,
      fun a c v t0 _ ht ha hc hv hb => feedGoodChange_cools hs ht ha hc hv hb⟩,
    fun low s hs => ⟨prsntDeassert_powered, prsntDeassert_unpowered hs, hotInsertion_boots, hotInsertion_waits hs⟩⟩
  · rw [exec_feedSwitch hp hb h]
    exact done_switchFeed true a c hs hg
  · rw [exec_feedReturn hp hb h]
    exact done_switchFeed false a c hs hg
  · show execFeedLoss a c s = _
    rw [execFeedLoss, if_neg fun k => h k.2]
  · show execThermtrip n s = _
    rw [execThermtrip, if_neg (by omega)]

end Sys2Proof.Machine
end

section
set_option Elab.async false
/-! PROOFS. Reference clocks lost and back, and SMBus (27 R584, R588, R589). -/

namespace Sys2Proof.Machine

section
variable {b s t u : State}

/-! ### A UE-module event stops the module, whatever chain its source has -/

theorem dueStep_stops {d : DueStep} (hsrc : ¬ d.src < 2 ^ 24) (hstep : d.step = 3) : (dueStep d s).flt.checkstop = true := by
  unfold dueStep
  by_cases h : s.flt.checkstop = true
  · rwa [if_pos h]
  · rw [if_neg h, if_neg hsrc, if_pos hstep]
    exact (moduleCheckstop_flt s).1

/-- A step that stops the module, however far back it stands among those that are due. -/
theorem settleDue_stops {d : DueStep} (hsrc : ¬ d.src < 2 ^ 24) (hstep : d.step = 3) (n : Nat) : ∀ {s : State} {pre suf : List DueStep},
    s.flt.due = pre ++ d :: suf → pre.length < n → (settleDue n s).flt.checkstop = true := by
  induction n with
  | zero => exact fun _ h => absurd h (by omega)
  | succ n ih =>
    intro s pre suf hdue hlen
    cases pre with
    | nil =>
      simp only [settleDue, hdue, List.nil_append]
      exact step_settleDue n .halted (by decide) (dueStep_stops hsrc hstep)
    | cons x pre =>
      simp only [settleDue, hdue, List.cons_append]
      obtain ⟨more, hmore⟩ := step_dueStep (s := { s with flt := { s.flt with due := pre ++ d :: suf } }) (d := x) .dues (by decide)
      exact ih (pre := pre) (suf := suf ++ more) (by rw [← hmore]; simp) (by simpa using hlen)

/-- The chain of a source makes three steps due at most. -/
theorem startGrace_due (i : Nat) (s : State) : ∃ l, l.length ≤ 3 ∧ (startGrace i s).flt.due = s.flt.due ++ l := by
  unfold startGrace
  dsimp only
  split
  · exact ⟨[], by simp, by simp⟩
  · split
    · refine ⟨_, ?_, rfl⟩
      rw [List.length_map, stepsAfter]
      exact List.length_filter_le _ _
    · exact ⟨[], by simp, (List.append_nil _).symm⟩

theorem told_due (cls src code : Nat) (part : Option Nat) (detail : Nat) (holds : Bool) (s : State) :
    ∃ l, l.length ≤ 3 ∧ (if (fltStatus src s).pending then laterEvent cls src code part holds s else firstEvent cls src code part detail holds s).flt.due = s.flt.due ++ l := by
  split
  · unfold laterEvent
    dsimp only
    split
    · exact startGrace_due src _
    · exact ⟨[], by simp, (List.append_nil _).symm⟩
  · have hnotify := fun v : FltStatus => (frame_reactNotify (setFlt src v s) src code part detail) .due (by decide)
    obtain ⟨l, hl, hgrace⟩ := startGrace_due src (reactNotify src code part detail (setFlt src _ s))
    exact ⟨l, hl, hgrace.trans (congrArg (· ++ l) (hnotify _))⟩

/-- An event of class UE-module makes the module checkstop due, after three steps of its source's chain at most. -/
theorem raiseModule_due (src code : Nat) (part : Option Nat) (detail : Nat) (holds : Bool) (s : State) :
    ∃ l, l.length ≤ 3 ∧ (raiseClass 3 src code part detail holds s).flt.due = s.flt.due ++ l ++ [DueStep.mk (sourceNo code src) 3 (part.getD 0x3F)] := by
  unfold raiseClass
  extract_lets st r pt counted logged told
  have hcounted : Touches [.flt, .live] s logged := (frame_patina s src).trans
    (touches_ite (fun _ => (frame_logEntry counted _ _ _ _ _ _).mono (by decide)) fun _ => .refl _ counted)
  have hst : fltStatus src logged = st := by
    have hstatus : logged.flt.status = s.flt.status := hcounted .status (by decide)
    simp only [fltStatus, hstatus, st]
  obtain ⟨l, hl, htold⟩ := told_due 3 src code part detail holds logged
  rw [hst] at htold
  have hlogged : logged.flt.due = s.flt.due := hcounted .due (by decide)
  have hpulse : (if lbit r 60 then pulseErrN told else told).flt.due = told.flt.due := by
    split
    · exact frame_pulseErrN told .due (by decide)
    · rfl
  refine ⟨l, hl, ?_⟩
  rw [if_pos rfl]
  show (if lbit r 60 then pulseErrN told else told).flt.due ++ _ = _
  rw [hpulse, ← hlogged, ← htold]
  rfl

theorem done_moduleCheckstop {src code : Nat} {part : Option Nat} {detail : Nat} (hc : eventClass code = 3) (hcode : 1 ≤ code) (hd : s.flt.due = [])
    (hp : s.pending = b.pending) :
    ∃ t, done b (raise src code part detail s) = .next t ∧ t.flt.checkstop = true ∧ t.pin = s.pin := by
  obtain ⟨l, hl, hdue⟩ := raiseModule_due src code part detail false s
  have hraise : Touches (.keeps :: .still :: eventRegs) s (raise src code part detail s) := frame_raiseClass s _ _ _ _ _ _
  have heq : raise src code part detail s = raiseClass 3 src code part detail false s := by rw [raise, hc]
  have hsettle : Touches settleRegs (raise src code part detail s) (settle b (raise src code part detail s)) := step_settle ((hraise .pending (by decide)).trans hp)
  have hstop : (settleDue 4096 (raise src code part detail s)).flt.checkstop = true := by
    rw [heq]
    exact settleDue_stops (d := ⟨sourceNo code src, 3, part.getD 0x3F⟩) (by show ¬ sourceNo code src < 2 ^ 24; unfold sourceNo; omega) rfl 4096 (pre := l) (suf := [])
      (by rw [hdue, hd]; rfl) (by omega)
  have htold : (settle b (raise src code part detail s)).flt = (settleDue 4096 (raise src code part detail s)).flt := by
    have hflood := frame_torFlood (settleDue 4096 (raise src code part detail s)) b .flt (by decide)
    exact (frame_signalStates _ b .flt (by decide)).trans hflood
  exact ⟨_, rfl, (congrArg Flt.checkstop htold).trans hstop, (hsettle .pin (by decide)).trans (hraise .pin (by decide))⟩

/-! ### A hub without its lane clock -/

/-- One port of a hub whose lane clock is lost. -/
def portDown (s : State) (p : PortId) : State :=
  if (linkOf p s).state = 0 then s else linkRestart p (if (linkOf p s).state = 8 then s else linkDown p s)

theorem hubDown_eq (south : Bool) (s : State) : hubDown south s = (hubPorts south).foldl portDown s := rfl

theorem linkRestart_state (p : PortId) (s : State) : (linkOf p (linkRestart p s)).state ≤ 1 := by
  unfold linkRestart
  split
  · rw [modLink, linkOf_setLink, if_pos rfl]
  · rw [linkIdle_state]
    exact Nat.zero_le 1

theorem linkRestart_other {p q : PortId} (h : q ≠ p) : linkOf q (linkRestart p s) = linkOf q s := by
  unfold linkRestart
  split
  · rw [modLink, linkOf_setLink, if_neg h]
  · exact linkIdle_other h

theorem link_linkRestart {p : PortId} : Touches linkRegs s (linkRestart p s) :=
  touches_ite (fun _ => (frame_modLink s p _).mono (by decide)) fun _ => frame_linkIdle.mono (by decide)

theorem link_portDown {p : PortId} : Touches linkRegs s (portDown s p) :=
  touches_ite (fun _ => .refl _ s) fun _ => (touches_ite (fun _ => .refl _ s) fun _ => link_linkDown).trans link_linkRestart

/-- The port is idle after it, and one that is idle stays so. -/
theorem portDown_idle (p q : PortId) (h : q = p ∨ (linkOf q s).state ≤ 1) : (linkOf q (portDown s p)).state ≤ 1 := by
  unfold portDown
  by_cases e : q = p
  · subst e
    split
    next h0 => exact h0.trans_le (Nat.zero_le 1)
    next => exact linkRestart_state q _
  · have hq := h.resolve_left e
    split
    · exact hq
    · rw [linkRestart_other e]
      split
      · exact hq
      · have hsame : (linkOf q (linkDown p s)).state = (linkOf q s).state := (congrArg Link.state (linkDown_other e).1 :)
        exact hsame.trans_le hq

theorem foldl_portDown_idle (q : PortId) (ps : List PortId) : ∀ s, (q ∈ ps ∨ (linkOf q s).state ≤ 1) → (linkOf q (ps.foldl portDown s)).state ≤ 1 := by
  induction ps with
  | nil => exact fun s h => h.resolve_left (by simp)
  | cons p ps ih =>
    intro s h
    refine ih _ ?_
    rcases h with h | h
    · exact (List.mem_cons.mp h).elim (fun e => .inr (portDown_idle p q (.inl e))) .inl
    · exact .inr (portDown_idle p q (.inr h))

/-- A hub whose lane clock is lost: its ports are idle at the end of the command, whatever escalates. -/
theorem done_hubDown (south : Bool) (hp : s.pending = b.pending) :
    ∃ t, done b (hubDown south s) = .next t ∧ t.pin = s.pin ∧ ∀ p ∈ hubPorts south, (linkOf p t).state = 0 ∨ (linkOf p t).state = 1 := by
  have hdown : Touches linkRegs s (hubDown south s) := touches_foldl (fun _ _ => link_portDown) _ s
  obtain ⟨t, hdone, hsteps⟩ := done_settles (b := b) ((hdown .pending (by decide)).trans hp)
  refine ⟨t, hdone, (hsteps .pin (by decide)).trans (hdown .pin (by decide)), fun p hmem => ?_⟩
  have hidle := hsteps .idle (by decide) p (foldl_portDown_idle p (hubPorts south) s (.inl hmem))
  omega

/-- A hub none of whose ports has a link. -/
theorem hubDown_unlinked (south : Bool) (ha : s.armLink = []) (hc : s.chLink = []) : hubDown south s = s := by
  have hport : ∀ p, portDown s p = s := fun p => if_pos (by cases p <;> simp [linkOf, ha, hc, tget])
  rw [hubDown_eq]
  induction hubPorts south with
  | nil => rfl
  | cons p ps ih => rw [List.foldl_cons, hport, ih]

/-! ### The host's clock -/

theorem frame_resetPair {q : Nat} : Touches [.eng, .hp, .pf1, .arm] s (resetPair q s) := by
  unfold resetPair
  split
  · exact .refl _ s
  · exact ((frame_setQueue s _ q _).mono (by decide)).trans ((frame_disableQueue _ _ q).mono (by decide))

theorem frame_fnReset {fn : Nat} : Touches [.eng, .hp, .pf0, .pf1, .arm] s (fnReset fn s) := by
  unfold fnReset
  dsimp only
  split
  · exact (frame_pf0 s _).mono (by decide)
  · have hpairs : Touches [.eng, .hp, .pf0, .pf1, .arm] s ((List.range 64).foldl (fun s q => resetPair q s) s) :=
      touches_foldl (fun _ _ => frame_resetPair.mono (by decide)) _ s
    generalize (List.range 64).foldl (fun s q => resetPair q s) s = u at hpairs ⊢
    have hfn := hpairs.andThen (frame_pf1 u (resetFn u.pf1))
    exact hfn.andThen (frame_hp { u with pf1 := resetFn u.pf1 } _)

theorem frame_hostDown : Touches [.eng, .hp, .pf0, .pf1, .arm] s (hostDown s) :=
  (frame_fnReset.trans frame_fnReset).trans ((frame_hp (fnReset 1 (fnReset 0 s)) _).mono (by decide))

/-- Without its clock the host link is down. -/
theorem hostDown_unclocked (h : s.pin.hpLost = true) : (hostDown s).hp.state = 0 := by
  have hreset : Touches [.eng, .hp, .pf0, .pf1, .arm] s (fnReset 1 (fnReset 0 s)) := frame_fnReset.trans frame_fnReset
  have hpin : (fnReset 1 (fnReset 0 s)).pin = s.pin := hreset .pin (by decide)
  unfold hostDown
  dsimp only
  rw [hpin, h, Bool.or_true, if_pos rfl]

/-! ### The commands -/

theorem clockLoss_sys (hs : Safety.settled s) (hp : powered s = true) (hl : s.pin.sysLost = false) :
    ∃ t, exec (.clockLoss .sys) s = .next t ∧ t.pin.sysLost = true ∧ t.flt.checkstop = true := by
  have hexec : exec (.clockLoss .sys) s = done s (raise srcSupply 0x10 none 0 { s with pin := { s.pin with sysLost := true } }) := by
    show execClockLoss .sys s = _
    simp only [execClockLoss, hp, hl]
    rfl
  obtain ⟨t, hdone, hstop, hpin⟩ := done_moduleCheckstop (b := s) (s := { s with pin := { s.pin with sysLost := true } }) (src := srcSupply) (code := 0x10)
    (part := none) (detail := 0) (by decide) (by decide) hs rfl
  exact ⟨t, hexec.trans hdone, by rw [hpin], hstop⟩

theorem exec_clockLoss_north (ho : operating s = true) (hl : s.pin.sdsNLost = false) :
    exec (.clockLoss .sdsNorth) s = done s (hubDown false { s with pin := { s.pin with sdsNLost := true } }) := by
  show execClockLoss .sdsNorth s = _
  simp [execClockLoss, ho, hl]

theorem exec_clockLoss_south (ho : operating s = true) (hl : s.pin.sdsSLost = false) :
    exec (.clockLoss .sdsSouth) s = done s (hubDown true { s with pin := { s.pin with sdsSLost := true } }) := by
  show execClockLoss .sdsSouth s = _
  simp [execClockLoss, ho, hl]

theorem clockLoss_hp (hs : Safety.settled s) (ho : operating s = true) (hl : s.pin.hpLost = false) :
    ∃ t, exec (.clockLoss .hp) s = .next t ∧ t.pin.hpLost = true ∧ t.hp.state = 0 := by
  have hexec : exec (.clockLoss .hp) s = done s (hostDown { s with pin := { s.pin with hpLost := true } }) := by
    show execClockLoss .hp s = _
    simp [execClockLoss, ho, hl]
  have hpin : Touches [.pin] s { s with pin := { s.pin with hpLost := true } } := frame_pin s _
  have hdown := frame_hostDown (s := { s with pin := { s.pin with hpLost := true } })
  have hstate := hostDown_unclocked (s := { s with pin := { s.pin with hpLost := true } }) rfl
  generalize hostDown { s with pin := { s.pin with hpLost := true } } = u at hexec hdown hstate
  obtain ⟨t, hdone, htold⟩ := done_told (b := s) ((hdown .due (by decide)).trans hs) (hdown .pending (by decide))
  exact ⟨t, hexec.trans hdone, congrArg Pins.hpLost ((htold .pin (by decide)).trans (hdown .pin (by decide))),
    (congrArg HostPort.state (htold .hp (by decide))).trans hstate⟩

theorem clockReturn_sys (hs : Safety.settled s) : ∃ t, exec (.clockReturn .sys) s = .next t ∧ t.pin.sysLost = false ∧
    (s.pwr.on = false → s.pwr.tripped = false → s.pin.prsnt = true → (s.pwr.aOk = true ∨ s.pwr.bOk = true) → t.pwr.on = true ∧ t.pwr.phase = .firmware) := by
  let u : State := { s with pin := { s.pin with sysLost := false } }
  have hexec : exec (.clockReturn .sys) s = done s (if feedBoot u then coldBoot u else u) := rfl
  by_cases hf : feedBoot u = true
  · rw [if_pos hf] at hexec
    obtain ⟨t, hdone, hw⟩ := done_coldBoot (s := u) (b := s) rfl
    exact ⟨t, hexec.trans hdone, by rw [hw.pin]; rfl, fun _ _ _ _ => ⟨hw.power, hw.phase⟩⟩
  · rw [if_neg hf] at hexec
    refine ⟨u, hexec.trans (done_framed (frame_pin s _) hs), rfl, fun hon ht hp h => absurd ?_ hf⟩
    rcases h with h | h <;> simp [feedBoot, u, hon, ht, hp, h]

theorem smbus_reads (hp : powered s = true) :
    (∀ n, n < 60 → exec (.smb4ReadWord n) s = .next { s with out := s.out ++ [.smbus (some (sensorWord n s))] }) ∧
      exec (.smb4ReadWord 0x40) s = .next { s with out := s.out ++ [.smbus (some (fld (pwrStatus s) 63 48))] } ∧
      (∀ n, 60 ≤ n → n ≠ 0x40 → exec (.smb4ReadWord n) s = .next { s with out := s.out ++ [.smbus none] }) := by
  have hword : ∀ n, exec (.smb4ReadWord n) s = execSmb4ReadWord n s := fun _ => rfl
  refine ⟨fun n hn => ?_, ?_, fun n hn hne => ?_⟩
  · rw [hword, execSmb4ReadWord, if_neg (by simp [hp]), if_pos hn]
    rfl
  · rw [hword, execSmb4ReadWord, if_neg (by simp [hp]), if_neg (by decide), if_pos rfl]
    rfl
  · rw [hword, execSmb4ReadWord, if_neg (by simp [hp]), if_neg (by omega), if_neg hne]
    rfl

end

/-- Settles O25: what each clock's loss and return leaves, and what SMBus answers. -/
theorem clocksAndSmbus : Obligations.ClocksAndSmbus := by
  intro s hs
  refine ⟨clockLoss_sys hs, fun ho hl => ?_, fun ho hl => ?_, clockLoss_hp hs, fun ho ha hc hl => ?_, ?_, ?_, ?_, clockReturn_sys hs, smbus_reads⟩
  · obtain ⟨t, hdone, hpin, hports⟩ := done_hubDown (s := { s with pin := { s.pin with sdsNLost := true } }) (b := s) false rfl
    exact ⟨t, (exec_clockLoss_north ho hl).trans hdone, by rw [hpin], hports⟩
  · obtain ⟨t, hdone, hpin, hports⟩ := done_hubDown (s := { s with pin := { s.pin with sdsSLost := true } }) (b := s) true rfl
    exact ⟨t, (exec_clockLoss_south ho hl).trans hdone, by rw [hpin], hports⟩
  · rw [exec_clockLoss_north ho hl, hubDown_unlinked false (s := { s with pin := { s.pin with sdsNLost := true } }) ha hc]
    exact done_framed (frame_pin s _) hs
  · exact done_framed (frame_pin s _) hs
  · exact done_framed (frame_pin s _) hs
  · refine ⟨_, done_framed (((frame_pin s { s.pin with hpLost := false }).mono (by decide)).andThen (rs := [.pin, .hp])
      (frame_hp { s with pin := { s.pin with hpLost := false } } _)) hs, rfl, fun h0 hp hon => ?_⟩
    simp [h0, hp, hon]

end Sys2Proof.Machine
end

section
set_option Elab.async false
/-! PROOFS. The steps of bring-up (25 R564; 02 R40, R52). -/

namespace Sys2Proof.Machine

section
variable {b s t : State} {i : Nat}

/-! ### What the steps write -/

/-- What bring-up writes beside what image commands do. -/
def bringRegs : List FrameReg := .dx :: applyRegs

theorem bring_of_apply (h : Touches applyRegs s t) : Touches bringRegs s t := h.mono (by decide)

theorem bring_of_run (h : Touches runRegs s t) : Touches bringRegs s t := h.mono (by decide)

theorem bring_of_traffic (h : Touches trafficRegs s t) : Touches bringRegs s t := h.mono (by decide)

theorem bring_zeroNext : Touches bringRegs s (zeroNext s) := by
  have hzero : ∀ z, Touches bringRegs s { s with pln := { s.pln with zero := z } } := fun z => (frame_pstates s s.pln.pstate s.pln.presult z s.pln.starting).mono (by decide)
  unfold zeroNext
  refine touches_ite (fun _ => .refl _ s) fun _ => ?_
  split
  · exact .refl _ s
  · exact touches_ite (fun _ => hzero _) fun _ => (hzero _).trans (bring_of_traffic traffic_agentPut)

theorem traffic_releaseRange {p : Nat → Bool} : Touches trafficRegs s (releaseRange p s) :=
  touches_foldl (fun u _ => touches_ite (fun _ => traffic_of_msg frame_releaseRemote) fun _ => .refl _ u) _ s

theorem bring_zeroAway {rs : List (Nat × Nat)} : Touches bringRegs s (zeroAway rs s) :=
  touches_ite (fun _ => .refl _ s) fun _ => ((leave_flushLines.mono (by decide)).trans (bring_of_traffic traffic_releaseRange)).trans
    ((frame_pstates _ _ _ _ _).mono (by decide))

theorem frame_homesKept : Touches [.free] s (homesKept i s).2 := by
  unfold homesKept
  split
  · exact frame_free s _
  · exact .refl _ s

theorem frame_freeEngines {o : OpBlock} : Touches [.free] s (freeEngines o s).2 := frame_free s _

theorem frame_jnlLog {d : Nat} : Touches [.flt, .live] s (jnlLog i d s) := (frame_patina s _).andThen (frame_logState _ _ _)

theorem run_settleOne : Touches runRegs s (settleOne i s) := by
  unfold settleOne
  extract_lets e logged kept reach o b o' freed src begun
  have hlogged : Touches runRegs s logged := frame_jnlLog.mono (by decide)
  have hfreed : Touches runRegs logged freed := (frame_homesKept.mono (by decide)).trans (frame_freeEngines.mono (by decide))
  have hbegun : Touches runRegs freed begun := ((frame_ch freed { freed.ch with nextOrder := freed.ch.nextOrder + 1 }).mono (by decide)).trans (run_of_op op_setOp)
  have hall := (hlogged.trans hfreed).trans hbegun
  exact touches_ite (fun _ => .refl _ s) fun _ => touches_ite (fun _ => hlogged) fun _ => touches_ite
    (fun _ => touches_ite (fun _ => hall.trans run_chRun) fun _ => (hall.trans (run_of_op op_setOp)).trans (run_of_op op_chEnd))
    fun _ => touches_ite (fun _ => hall.trans run_chResume) fun _ => hall.trans (run_of_op op_settleHalt)

theorem bring_settleOwn : Touches bringRegs s (settleOwn s) :=
  (touches_foldl (fun _ _ => bring_of_run run_settleOne) _ s).trans ((frame_jnlFields _ _ (by exact rfl)).mono (by decide))

theorem bring_decidePorts : Touches bringRegs s (decidePorts s) := bring_of_run run_decidePorts

theorem frame_hbStart : Touches [.dx] s (hbStart s) := frame_dx s _

/-! ### The journal of an image -/

/-- The journal as the image takes it over: valid from here on (log entry 43). -/
def journalAdopted (i : PlnImage) (s : State) : State :=
  let s := zeroNext (adoptParts i (zeroAway (rangesLeft (fullSections i s) s) s))
  { s with pln := { s.pln with pstate := [] }, jnl := { s.jnl with keptValid := true } }

theorem bring_journalAdopted {i : PlnImage} : Touches (.kept :: bringRegs) s (journalAdopted i s) := by
  have hadopted : Touches bringRegs s (zeroNext (adoptParts i (zeroAway (rangesLeft (fullSections i s) s) s))) :=
    (bring_zeroAway.trans (bring_of_apply (apply_applySections _ _))).trans bring_zeroNext
  unfold journalAdopted
  generalize zeroNext (adoptParts i (zeroAway (rangesLeft (fullSections i s) s) s)) = u at hadopted ⊢
  exact ((hadopted.mono (by decide)).andThen (frame_pln u { u.pln with pstate := [] })).andThen
    (frame_jnl { u with pln := { u.pln with pstate := [] } } { u.jnl with keptValid := true })

/-- What an image does with the journal that it has taken over. -/
def journalStarted (s : State) : State :=
  if partnerOn s then
    let s := if s.jnl.settleDue then s else { s with jnl := { s.jnl with storageKept := true } }
    sendPairing (setDxState 1 (hbStart s))
  else
    let s := decidePorts s
    if s.jnl.settleDue then settleOwn s else { s with jnl := { s.jnl with storageKept := true } }

theorem startJournal_eq (i : PlnImage) (s : State) : startJournal i s = journalStarted (journalAdopted i s) := by
  unfold startJournal journalAdopted
  generalize zeroNext (adoptParts i (zeroAway (rangesLeft (fullSections i s) s) s)) = u
  unfold journalStarted
  rfl

theorem bring_journalStarted : Touches bringRegs s (journalStarted s) := by
  have hstored : ∀ u : State, Touches bringRegs u { u with jnl := { u.jnl with storageKept := true } } := fun u => (frame_jnlFields u _ (by exact rfl)).mono (by decide)
  have hpair : Touches bringRegs s (if s.jnl.settleDue then s else { s with jnl := { s.jnl with storageKept := true } }) :=
    touches_ite (fun _ => .refl _ s) fun _ => hstored s
  unfold journalStarted
  dsimp only
  split
  · exact (hpair.trans (frame_hbStart.mono (by decide))).trans ((frame_pairing _).mono (by decide))
  · exact touches_ite (fun _ => bring_decidePorts.trans bring_settleOwn) fun _ => bring_decidePorts.trans (hstored _)

/-- The journal is valid once an image has taken it over. -/
theorem startJournal_kept (i : PlnImage) (s : State) : (startJournal i s).jnl.keptValid = true ∧ (startJournal i s).pending = s.pending := by
  have hadopted := bring_journalAdopted (i := i) (s := s)
  have hvalid : (journalAdopted i s).jnl.keptValid = true := rfl
  have hrest : Touches bringRegs (journalAdopted i s) (startJournal i s) := by
    rw [startJournal_eq]
    exact bring_journalStarted
  exact ⟨(hrest .kept (by decide)).trans hvalid, (hrest .pending (by decide)).trans (hadopted .pending (by decide))⟩

/-! ### The check of the slots -/

theorem lose_setSpare {c v : Nat} : Touches loseRegs s (setSpare c v s) := lose_cpu

theorem lose_setRec {l v : Nat} : Touches loseRegs s (setRec l v s) := lose_cpu

theorem lose_moveToSpare {l : Nat} {t : RecastTrigger} {quiet : Bool} : Touches loseRegs s (moveToSpare l t quiet s) := by
  unfold moveToSpare
  extract_lets c old new flushed clean src moved served told
  have htold : Touches loseRegs s told := ((((lose_of_traffic traffic_wbInvCore).trans lose_modCore).trans lose_cpu).trans (lose_setRec.trans lose_setSpare)).trans
    (lose_raise (by decide))
  split
  · exact touches_ite (fun _ => htold) fun _ => htold.trans lose_modCore
  · exact htold

theorem lose_checkCluster {bad : List Nat} {c : Nat} : Touches loseRegs s (checkCluster bad c s) :=
  (touches_ite (fun _ => lose_setSpare.trans (lose_raise (by decide))) fun _ => .refl _ s).trans (touches_foldl (fun u k => touches_ite
    (fun _ => touches_ite (fun _ => lose_moveToSpare) fun _ => (lose_modCore.trans lose_setRec).trans (lose_raise (by decide))) fun _ => .refl _ u) _ _)

theorem lose_slotCheck {bad : List Nat} : Touches loseRegs s (slotCheck bad s) := touches_foldl (fun _ _ => lose_checkCluster) _ s

/-! ### The stores -/

theorem frame_loadImage {k : Nat} {c : CsImage} : Touches [.cs] s (loadImage k c s) := by
  unfold loadImage
  dsimp only
  exact touches_ite (fun _ => frame_cs s _) fun _ => (frame_cs s _).trans (touches_foldl (fun u _ => touches_ite (fun _ => frame_cs u _) fun _ => .refl _ u) _ _)

theorem frame_loadStores (ts : List Nat) : ∀ s, Touches [.cs] s (loadStores ts s).2 := by
  induction ts with
  | nil => exact Touches.refl _
  | cons k ts ih =>
    intro s
    unfold loadStores
    split
    · exact frame_cs s _
    · exact (frame_loadImage.trans (frame_cs _ _)).trans (ih _)

theorem frame_raiseFloors : Touches [.cs] s (raiseFloors s) := by
  refine touches_foldl (fun u k => ?_) _ s
  split
  · exact frame_cs u _
  · exact .refl _ u

theorem frame_sourceLost : Touches [.tor, .flt, .live] s (sourceLost s) := touches_ite (fun _ => frame_torSet _ s) fun _ => .refl _ s

theorem frame_setPhase (p : Phase) : Touches [.pwr, .sensed] s (setPhase p s) := frame_pwr s _

end

end Sys2Proof.Machine
end

section
set_option Elab.async false
/-! PROOFS. Bring-up, phase by phase (25 R564). -/

namespace Sys2Proof.Machine

section
variable {bad : List Nat} {s : State}

theorem scanHeld_of_operating (ho : operating s = true) : s.tr.scanHeld = false := by
  unfold operating at ho
  simp only [Bool.and_eq_true, Bool.not_eq_true'] at ho
  exact ho.2

theorem exec_bringup_held (h : s.pin.resetLow = true ∨ s.pin.sysLost = true) : exec (.bringupStepComplete bad) s = .next s := by
  show execBringupStepComplete bad s = _
  exact if_pos (by rcases h with h | h <;> simp [h])

theorem exec_bringup (ho : operating s = true) (hl : s.pin.resetLow = false) (hc : s.pin.sysLost = false) (hp : s.pwr.phase ≠ .ready) :
    exec (.bringupStepComplete bad) s = done s (bringUp bad s) := by
  show execBringupStepComplete bad s = _
  rw [execBringupStepComplete, if_neg (by simp [ho, hl, hc, scanHeld_of_operating ho]), if_neg hp]

theorem exec_bringup_ready (ho : operating s = true) (hl : s.pin.resetLow = false) (hc : s.pin.sysLost = false) (hp : s.pwr.phase = .ready)
    (hst : s.pln.state ≠ .applying) : exec (.bringupStepComplete bad) s = .next s := by
  show execBringupStepComplete bad s = _
  rw [execBringupStepComplete, if_neg (by simp [ho, hl, hc, scanHeld_of_operating ho]), if_pos hp, if_neg (by simp [hst])]

/-! ### FIRMWARE and CONTROL_STORE -/

theorem bringUp_firmware {i : CsImage} (hp : s.pwr.phase = .firmware) (hc : chooseImage 0 s = .inr i) :
    bringUp bad s = setPhase .controlStore (if !s.pwr.warm then genStorageKey 48 (seedDrbg 48 (deriveIdentity (loadImage 0 i { s with tr := { s.tr with fwMeas := sha384 i.signed } })))
      else loadImage 0 i { s with tr := { s.tr with fwMeas := sha384 i.signed } }) := by
  simp only [bringUp, hp, hc]

theorem frame_drawBytes (n : Nat) : ∀ {s : State}, Touches [.free] s (drawBytes s n).2 := by
  induction n with
  | zero => exact .refl _ _
  | succ n ih => exact fun {s} => (frame_free s (s.free + 1)).trans ih

theorem frame_genStorageKey {p : Nat} : Touches [.tr, .free] s (genStorageKey p s) := by
  have hdrawn : Touches [.tr, .free] s (drawBytes (drbgCount 48 s) 64).2 := ((frame_tr s (drbgCount 48 s).tr).mono (by decide)).andThen (frame_drawBytes 64)
  unfold genStorageKey
  extract_lets r
  exact hdrawn.andThen (frame_tr r.2 _)

theorem genStorageKey_fwMeas {p : Nat} : (genStorageKey p s).tr.fwMeas = s.tr.fwMeas := by
  have hdrawn : (drawBytes (drbgCount 48 s) 64).2.tr = (drbgCount 48 s).tr := frame_drawBytes 64 .tr (by decide)
  unfold genStorageKey
  extract_lets r
  exact (congrArg Trust.fwMeas hdrawn :)

/-- Firmware is measured; a cold reset's makes the identity and the key of its own storage. -/
theorem bringUp_firmware_measures {i : CsImage} (hp : s.pwr.phase = .firmware) (hc : chooseImage 0 s = .inr i) :
    Touches [.cs, .tr, .free, .pwr, .sensed] s (bringUp bad s) ∧ (bringUp bad s).pwr.phase = .controlStore ∧ (bringUp bad s).tr.fwMeas = sha384 i.signed := by
  have hload : Touches [.cs] { s with tr := { s.tr with fwMeas := sha384 i.signed } } (loadImage 0 i { s with tr := { s.tr with fwMeas := sha384 i.signed } }) := frame_loadImage
  have hmeas : (loadImage 0 i { s with tr := { s.tr with fwMeas := sha384 i.signed } }).tr.fwMeas = sha384 i.signed := congrArg Trust.fwMeas (hload .tr (by decide))
  have hloaded : Touches [.cs, .tr, .free, .pwr, .sensed] s (loadImage 0 i { s with tr := { s.tr with fwMeas := sha384 i.signed } }) :=
    ((frame_tr s { s.tr with fwMeas := sha384 i.signed }).mono (by decide)).trans (hload.mono (by decide))
  rw [bringUp_firmware hp hc]
  generalize loadImage 0 i { s with tr := { s.tr with fwMeas := sha384 i.signed } } = u at hmeas hloaded ⊢
  have hkeys : Touches [.tr, .free] u (genStorageKey 48 (seedDrbg 48 (deriveIdentity u))) :=
    ((((frame_tr u (deriveIdentity u).tr).mono (by decide)).andThen (frame_tr (deriveIdentity u) _)).trans frame_genStorageKey)
  refine ⟨(touches_ite (fun _ => hloaded.andThen hkeys) fun _ => hloaded).andThen (frame_setPhase _), rfl, ?_⟩
  show (if (!s.pwr.warm) = true then genStorageKey 48 (seedDrbg 48 (deriveIdentity u)) else u).tr.fwMeas = _
  split
  · exact genStorageKey_fwMeas.trans hmeas
  · exact hmeas

theorem bringUp_stores (hp : s.pwr.phase = .controlStore) : Touches [.cs, .ch, .pwr, .sensed] s (bringUp bad s) ∧
    (bringUp bad s).pwr.phase = if (loadStores [1, 2, 3, 4] s).1 then .plinth else .stopped := by
  have hload : Touches [.cs, .ch, .pwr, .sensed] s (loadStores [1, 2, 3, 4] s).2 := (frame_loadStores _ s).mono (by decide)
  have hcps : ∀ u, Touches [.cs, .ch, .pwr, .sensed] u ((List.range 32).foldl (fun s k => if cpState k s = 2 then s else setCp k 0 s) u) := fun u =>
    touches_foldl (fun v k => touches_ite (fun _ => .refl _ v) fun _ => (frame_setCp v k 0).mono (by decide)) _ u
  simp only [bringUp, hp]
  split
  · exact ⟨(hload.trans (hcps _)).andThen (frame_setPhase _), rfl⟩
  · exact ⟨hload.andThen (frame_setPhase _), rfl⟩

/-! ### PLINTH and DRAM -/

/-- DRAM after PLINTH: trained where it is cold or another speed is wanted, and awake otherwise. -/
def dramReadied (cold : Bool) (speed want : Nat) (s : State) : State := if cold ∨ speed ≠ want then startTraining want s else wakeDram s

theorem frame_dramReadied {cold : Bool} {speed want : Nat} : Touches [.dram, .failed] s (dramReadied cold speed want s) :=
  touches_ite (fun _ => frame_startTraining want s) fun _ => touches_foldl (fun u n => frame_modDram n _ u) _ s

/-- The slots are checked after a cold reset. -/
def slotsChecked (bad : List Nat) (s : State) : State := if !s.pwr.warm then slotCheck bad s else s

/-- The module with the image to apply in hand. -/
def jobInHand (j : PlnJob) (s : State) : State :=
  j.image.elim { s with pln := { s.pln with state := .applying, job := some j } }
    (fun i => moduleEffect i { s with pln := { s.pln with state := .applying, job := some j } })

/-- PLINTH's end. -/
def plinthEnd (cold : Bool) (s : State) : State :=
  match bootJob s with
  | none => setPhase .dram (dramReadied cold (dramOf 0 s).speed 0 { s with pln := { s.pln with parts := [] } })
  | some j => setPhase .dram (dramReadied cold (dramOf 0 s).speed ((j.image.bind (·.mod_)).elim 0 (·.dramSpeed)) (jobInHand j s))

theorem bringUp_plinth (hp : s.pwr.phase = .plinth) (hv : s.pln.state ≠ .verifying) : bringUp bad s = plinthEnd (!s.pwr.warm) (slotsChecked bad s) := by
  unfold bringUp
  rw [hp]
  simp only [hv, if_false]
  rfl

theorem plinthEnd_phase (cold : Bool) (s : State) : (plinthEnd cold s).pwr.phase = .dram := by
  unfold plinthEnd
  split <;> rfl

theorem jobInHand_pln (j : PlnJob) (s : State) : (jobInHand j s).pln.state = .applying ∧ (jobInHand j s).pln.job = some j := by
  unfold jobInHand
  cases j.image with
  | none => exact ⟨rfl, rfl⟩
  | some i => exact moduleEffect_job i _

theorem plinthEnd_job {j : PlnJob} (cold : Bool) (h : bootJob s = some j) : (plinthEnd cold s).pln.state = .applying ∧ (plinthEnd cold s).pln.job = some j := by
  have hpln : (plinthEnd cold s).pln = (jobInHand j s).pln := by
    rw [plinthEnd, h]
    exact frame_dramReadied .pln (by decide)
  rw [hpln]
  exact jobInHand_pln j s

theorem plinthEnd_pending (cold : Bool) (s : State) : (plinthEnd cold s).pending = s.pending := by
  have hjob : ∀ j : PlnJob, (jobInHand j s).pending = s.pending := fun j => by
    unfold jobInHand
    cases j.image with
    | none => rfl
    | some i => exact frame_moduleEffect i _ .pending (by decide)
  have hend : ∀ (speed want : Nat) (u : State), (setPhase .dram (dramReadied cold speed want u)).pending = u.pending := fun speed want u =>
    frame_dramReadied .pending (by decide)
  unfold plinthEnd
  split
  · exact hend _ _ _
  · exact (hend _ _ _).trans (hjob _)

theorem slotsChecked_pending : (slotsChecked bad s).pending = s.pending := by
  unfold slotsChecked
  split
  · exact lose_slotCheck .pending (by decide)
  · rfl

theorem bringUp_plinth_ends (hp : s.pwr.phase = .plinth) (hv : s.pln.state ≠ .verifying) : ∃ t, done s (bringUp bad s) = .next t ∧ t.pwr.phase = .dram ∧
    (s.pwr.warm = true → ∀ j, bootJob s = some j → t.pln.state = .applying ∧ t.pln.job = some j) := by
  rw [bringUp_plinth hp hv]
  obtain ⟨t, hdone, hsteps⟩ := done_settles (b := s) ((plinthEnd_pending (!s.pwr.warm) (slotsChecked bad s)).trans slotsChecked_pending)
  refine ⟨t, hdone, (congrArg Power.phase (hsteps .pwr (by decide))).trans (plinthEnd_phase _ _), fun hw j hj => ?_⟩
  have hslots : slotsChecked bad s = s := if_neg (by simp [hw])
  have hplan := hsteps .plan (by decide)
  rw [hslots] at hplan
  obtain ⟨hstate, hjob⟩ := plinthEnd_job (!s.pwr.warm) hj
  exact ⟨(congrArg Plinth.state hplan :).trans hstate, (congrArg Plinth.job hplan :).trans hjob⟩

theorem frame_linkRestart {p : PortId} : Touches [.armLink, .chLink, .links, .idle] s (linkRestart p s) :=
  touches_ite (fun _ => frame_modLink s p _) fun _ => frame_linkIdle

/-- The ports that an image grants are enabled, and discovery begins. -/
theorem enablePorts_begins : Touches [.armLink, .chLink, .links, .idle, .arm, .fstate] s (enablePorts s) ∧ (enablePorts s).arm.fstate = 1 ∧
    (enablePorts s).arm.discoStart = s.tor.tor := by
  have hports : ∀ (f : Nat → PortId) (n : Nat) (u : State), Touches [.armLink, .chLink, .links, .idle] u
      ((List.range n).foldl (fun s p => if portGranted (f p) s then linkRestart (f p) s else s) u) := fun f n u =>
    touches_foldl (fun v p => touches_ite (fun _ => frame_linkRestart) fun _ => .refl _ v) _ u
  have hboth := (hports .arm 8 s).trans (hports .ch 12 _)
  unfold enablePorts
  extract_lets u v a
  change Touches [.armLink, .chLink, .links, .idle] s v at hboth
  have htor : v.tor = s.tor := hboth .tor (by decide)
  refine ⟨?_, rfl, congrArg TorS.tor htor⟩
  exact (hboth.mono (by decide)).trans ((((frame_arm v { v.arm with fstate := 1, discoStart := v.tor.tor, dbChange := v.tor.tor }).mono (by decide) :
    Touches [.node, .depart, .routing, .armLink, .chLink, .links, .idle, .arm, .fstate] v _)).holding rfl |>.holding rfl |>.holding rfl)

/-- A command that leaves time alone and makes no step due tells the host of states, and the fabric of nothing. -/
theorem done_sameTime {b u : State} (hd : u.flt.due = []) (hp : u.pending = b.pending) (ht : u.tor = b.tor) : ∃ t, done b u = .next t ∧ Touches [.out, .pf0] u t := by
  have hflood : torFlood b u = u := if_neg (by simp [ht])
  refine ⟨_, rfl, ?_⟩
  rw [settle, settleDue_quiet _ hd, hflood]
  exact (((frame_signalStates u b).mono (by decide) : Touches [.pending, .out, .pf0] u _).trans ((frame_queue _ _).mono (by decide))).holding hp.symm

theorem bringUp_dram (hp : s.pwr.phase = .dram) (ht : ∀ n, n < 16 → (dramOf n s).state ≠ 1) :
    bringUp bad s = setPhase .fabric (if s.pln.module_.isSome then enablePorts s else s) := by
  simp only [bringUp, hp]
  rw [if_neg]
  simpa using ht

theorem bringUp_training {n : Nat} (hp : s.pwr.phase = .dram) (hn : n < 16) (h1 : (dramOf n s).state = 1) : bringUp bad s = s := by
  simp only [bringUp, hp]
  exact if_pos (List.any_eq_true.mpr ⟨n, List.mem_range.mpr hn, by simp [h1]⟩)

/-! ### FABRIC and JOURNAL -/

theorem bringUp_fabric_none (hp : s.pwr.phase = .fabric) (hi : s.pln.job.bind (·.image) = none) :
    bringUp bad s = setPhase .journal (sourceLost { s with jnl := { s.jnl with keptValid := true } }) := by
  simp only [bringUp, hp, hi]

theorem bringUp_fabric_some {i : PlnImage} (hp : s.pwr.phase = .fabric) (hi : s.pln.job.bind (·.image) = some i) :
    bringUp bad s = if fabricReady s then setPhase .journal (startJournal i (sourceLost s)) else s := by
  simp only [bringUp, hp, hi]

theorem bringUp_journal_none (hp : s.pwr.phase = .journal) (hi : s.pln.job.bind (·.image) = none) : bringUp bad s = setPhase .ready (raiseFloors s) := by
  cases hj : s.pln.job with
  | none => simp only [bringUp, hp, hj]
  | some j =>
    have himg : j.image = none := by rwa [hj] at hi
    simp only [bringUp, hp, hj, himg]

theorem bringUp_journal_some {i : PlnImage} (hp : s.pwr.phase = .journal) (hi : s.pln.job.bind (·.image) = some i) :
    ∃ j : PlnJob, bringUp bad s = if journalReady s then setPhase .ready (raiseFloors (if j.cmd = 1 then pf0Vector 1 (finishImage i j.bytes j.stage s)
      else finishImage i j.bytes j.stage s)) else s := by
  cases hj : s.pln.job with
  | none => simp [hj] at hi
  | some j =>
    have himg : j.image = some i := by rwa [hj] at hi
    exact ⟨j, by simp only [bringUp, hp, hj, himg]⟩

theorem bringUp_fabric_none_ends (hs : Safety.settled s) (hp : s.pwr.phase = .fabric) (hi : s.pln.job.bind (·.image) = none) :
    ∃ t, done s (bringUp bad s) = .next t ∧ t.pwr.phase = .journal ∧ t.jnl = { s.jnl with keptValid := true } ∧ t.sto = s.sto ∧ t.cpu = s.cpu := by
  have hvalid : Touches [.jnl, .journal, .kept] s { s with jnl := { s.jnl with keptValid := true } } := frame_jnl s _
  have hlost : Touches [.tor, .flt, .live] { s with jnl := { s.jnl with keptValid := true } } (sourceLost { s with jnl := { s.jnl with keptValid := true } }) := frame_sourceLost
  rw [bringUp_fabric_none hp hi]
  generalize sourceLost { s with jnl := { s.jnl with keptValid := true } } = u at hlost ⊢
  obtain ⟨t, hdone, htold⟩ := done_told (b := s) (s := setPhase .journal u) ((hlost .due (by decide)).trans hs) (hlost .pending (by decide))
  exact ⟨t, hdone, congrArg Power.phase (htold .pwr (by decide)), (htold .jnl (by decide)).trans (hlost .jnl (by decide)),
    (htold .sto (by decide)).trans (hlost .sto (by decide)), (htold .cpu (by decide)).trans (hlost .cpu (by decide))⟩

theorem bringUp_fabric_ends {i : PlnImage} (hp : s.pwr.phase = .fabric) (hi : s.pln.job.bind (·.image) = some i) (hr : fabricReady s = true) :
    ∃ t, done s (bringUp bad s) = .next t ∧ t.pwr.phase = .journal ∧ t.jnl.keptValid = true := by
  rw [bringUp_fabric_some hp hi, if_pos hr]
  obtain ⟨hkept, hpending⟩ := startJournal_kept i (sourceLost s)
  have hlost : Touches [.tor, .flt, .live] s (sourceLost s) := frame_sourceLost
  generalize startJournal i (sourceLost s) = u at hkept hpending ⊢
  obtain ⟨t, hdone, hsteps⟩ := done_settles (b := s) (s := setPhase .journal u) (hpending.trans (hlost .pending (by decide)))
  exact ⟨t, hdone, congrArg Power.phase (hsteps .pwr (by decide)), (hsteps .kept (by decide)).trans hkept⟩

theorem bringUp_journal_none_ends (hs : Safety.settled s) (hp : s.pwr.phase = .journal) (hi : s.pln.job.bind (·.image) = none) :
    ∃ t, done s (bringUp bad s) = .next t ∧ t.pwr.phase = .ready ∧ t.pln = s.pln ∧ t.sto = s.sto ∧ t.cpu = s.cpu := by
  rw [bringUp_journal_none hp hi]
  have hframe : Touches [.cs, .pwr, .sensed] s (setPhase .ready (raiseFloors s)) := (frame_raiseFloors.mono (by decide)).andThen (frame_setPhase _)
  exact ⟨_, done_framed hframe hs, rfl, hframe .pln (by decide), hframe .sto (by decide), hframe .cpu (by decide)⟩

theorem bringUp_journal_ends {i : PlnImage} (hp : s.pwr.phase = .journal) (hi : s.pln.job.bind (·.image) = some i) (hr : journalReady s = true) :
    ∃ t, done s (bringUp bad s) = .next t ∧ t.pwr.phase = .ready ∧ t.pln.state = .applied ∧ t.pln.result = 0 := by
  obtain ⟨j, hend⟩ := bringUp_journal_some (bad := bad) hp hi
  rw [hend, if_pos hr]
  obtain ⟨hframe, happlied⟩ := finishImage_frame i j.bytes j.stage s
  generalize finishImage i j.bytes j.stage s = u at hframe happlied ⊢
  have hvector : Touches [.out, .pf0, .cs] u (raiseFloors (if j.cmd = 1 then pf0Vector 1 u else u)) :=
    (touches_ite (fun _ => (frame_pf0Vector u 1).mono (by decide)) fun _ => .refl _ u).trans (frame_raiseFloors.mono (by decide))
  generalize raiseFloors (if j.cmd = 1 then pf0Vector 1 u else u) = v at hvector ⊢
  obtain ⟨t, hdone, hsteps⟩ := done_settles (b := s) (s := setPhase .ready v) ((hvector .pending (by decide)).trans (hframe .pending (by decide)))
  have hfinal : Applied i j.stage t := (happlied.of_plan (hvector .plan (by decide))).of_plan (hsteps .plan (by decide))
  exact ⟨t, hdone, congrArg Power.phase (hsteps .pwr (by decide)), hfinal.state, hfinal.result⟩

end

/-- Settles O22: what each phase of bring-up leaves. -/
theorem bringupStepsInOrder : Obligations.BringupStepsInOrder := by
  intro bad s hs ho
  refine ⟨exec_bringup_held, fun hl hc => ?_⟩
  have hexec : s.pwr.phase ≠ .ready → exec (.bringupStepComplete bad) s = done s (bringUp bad s) := exec_bringup ho hl hc
  have hat : ∀ {p : Phase}, p ≠ .ready → s.pwr.phase = p → exec (.bringupStepComplete bad) s = done s (bringUp bad s) := fun hne h => hexec (h ▸ hne)
  have hstays : bringUp bad s = s → done s (bringUp bad s) = .next s := fun h => by rw [h]; exact done_framed (.refl [] s) hs
  refine ⟨fun r hp hi => ?_, fun i hp hi => ?_, fun hp => ?_, fun hp hv => ?_, fun hp hv => ?_, fun hp ⟨n, hn, h1⟩ => ?_, fun hp ht => ⟨fun hm => ?_, fun hm => ?_⟩,
    fun hp hi => ?_, fun i hp hi => ⟨fun hr => ?_, fun hr => ?_⟩, fun hp hi => ?_, fun i hp hi => ⟨fun hr => ?_, fun hr => ?_⟩,
    fun hp hst => exec_bringup_ready ho hl hc hp hst, fun hp => ?_⟩
  · have hstop : bringUp bad s = { s with pwr := { s.pwr with phase := .stopped }, tr := { s.tr with fwFail := true } } := by
      simp only [bringUp, hp, hi]
      rfl
    rw [hat (by decide) hp, hstop]
    exact done_framed (((frame_pwr s { s.pwr with phase := .stopped }).mono (by decide)).andThen (rs := [.pwr, .sensed, .tr])
      (frame_tr { s with pwr := { s.pwr with phase := .stopped } } { s.tr with fwFail := true })) hs
  · obtain ⟨hframe, hphase, hmeas⟩ := bringUp_firmware_measures (bad := bad) hp hi
    exact ⟨_, (hat (by decide) hp).trans (done_framed hframe hs), hphase, hmeas, hframe .pln (by decide), hframe .sto (by decide)⟩
  · obtain ⟨hframe, hphase⟩ := bringUp_stores (bad := bad) hp
    exact ⟨_, (hat (by decide) hp).trans (done_framed hframe hs), hphase⟩
  · exact (hat (by decide) hp).trans (hstays (by simp only [bringUp, hp, hv, if_true]))
  · rw [hat (by decide) hp]
    exact bringUp_plinth_ends hp hv
  · exact (hat (by decide) hp).trans (hstays (bringUp_training hp hn h1))
  · rw [hat (by decide) hp, bringUp_dram hp ht, hm]
    exact done_framed (frame_pwr s _) hs
  · have hsome : s.pln.module_.isSome = true := Option.isSome_iff_ne_none.mpr hm
    obtain ⟨hports, hfab, hdisco⟩ := enablePorts_begins (s := s)
    rw [hat (by decide) hp, bringUp_dram hp ht, if_pos hsome]
    generalize enablePorts s = u at hports hfab hdisco ⊢
    obtain ⟨t, hdone, htold⟩ := done_sameTime (b := s) (u := setPhase .fabric u) ((hports .due (by decide)).trans hs) (hports .pending (by decide)) (hports .tor (by decide))
    have harm : t.arm = u.arm := htold .arm (by decide)
    exact ⟨t, hdone, congrArg Power.phase (htold .pwr (by decide)), by rw [harm]; exact hfab, by rw [harm]; exact hdisco⟩
  · rw [hat (by decide) hp]
    exact bringUp_fabric_none_ends hs hp hi
  · exact (hat (by decide) hp).trans (hstays (by rw [bringUp_fabric_some hp hi, if_neg (by simp [hr])]))
  · rw [hat (by decide) hp]
    exact bringUp_fabric_ends hp hi hr
  · rw [hat (by decide) hp]
    exact bringUp_journal_none_ends hs hp hi
  · obtain ⟨j, hend⟩ := bringUp_journal_some (bad := bad) hp hi
    exact (hat (by decide) hp).trans (hstays (by rw [hend, if_neg (by simp [hr])]))
  · rw [hat (by decide) hp]
    exact bringUp_journal_ends hp hi hr
  · exact (hat (by decide) hp).trans (hstays (by simp only [bringUp, hp]))

end Sys2Proof.Machine
end


section
set_option Elab.async false
/-! PROOFS. O23: what a governor epoch reads and decides. -/

namespace Sys2Proof.Machine

/-- What the decisions of a governor epoch write. -/
def govRegs : List FrameReg := [.out, .pf0, .cpu, .core, .keeps, .own, .still, .flt, .status, .live, .due, .sto, .mem, .arm, .armLink, .chLink, .links, .idle, .free,
  .dram, .failed, .pwr, .fstate, .node, .depart, .routing]

section
variable {s t : State} {r : GovReadings}

/-! ### What its decisions write -/

theorem gov_power (s : State) (x : Power) (h : (x.powerW, x.temp, x.lastTemp) = sensedOf s) : Touches govRegs s { s with pwr := x } :=
  Touches.holding (q := .sensed) ((frame_pwr s x).mono (by decide)) h

theorem gov_logEntry {kind cls source part step detail : Nat} : Touches govRegs s (logEntry kind cls source part step detail s) := (frame_logEntry s _ _ _ _ _ _).mono (by decide)

theorem gov_logGovernor {counter src detail : Nat} : Touches govRegs s (logGovernor counter src detail s) :=
  ((frame_patina s _).mono (by decide)).trans gov_logEntry

theorem gov_raise {src code : Nat} {part : Option Nat} {detail : Nat} : Touches govRegs s (raise src code part detail s) := (frame_raiseClass s _ _ _ _ _ _).mono (by decide)

theorem gov_noticeOnCore {kind l : Nat} : Touches govRegs s (noticeOnCore kind l s) := (frame_modCore s _ _).mono (by decide)

theorem gov_noticeOnPart {kind p : Nat} : Touches govRegs s (noticeOnPart kind p s) :=
  touches_foldl (fun _ _ => gov_noticeOnCore) _ s

theorem gov_throttleStep : Touches govRegs s (throttleStep r s) := by
  unfold throttleStep
  extract_lets hot cool q u v
  have hset : Touches govRegs s u := gov_power s _ rfl
  have htell : Touches govRegs u v := touches_foldl (fun _ _ => gov_noticeOnPart) _ u
  have hcount : Touches govRegs v (patina 0x29C v) := (frame_patina v _).mono (by decide)
  exact touches_ite (fun _ => (hset.trans htell).trans (hcount.trans gov_raise)) fun _ => touches_ite (fun _ => gov_power s _ rfl) fun _ => .refl _ s

theorem gov_hotStep : Touches govRegs s (hotStep r s) :=
  touches_foldl (fun u n => by
    extract_lets k q v
    have hset : Touches govRegs u v := gov_power u _ rfl
    exact touches_ite (fun _ => hset.trans gov_raise) fun _ => hset) _ s

theorem gov_setDram {n : Nat} {d : Dram} : Touches govRegs s (setDram n d s) := (frame_dram s _).mono (by decide)

theorem gov_kStep {n : Nat} : Touches govRegs s (kStep n s) := by
  unfold kStep
  extract_lets d quiet setQuiet clear k
  have hset : ∀ q d, Touches govRegs s (setQuiet q (setDram n d s)) := fun q d => gov_setDram.trans (gov_power (setDram n d s) _ rfl)
  exact touches_ite (fun _ => (hset _ _).trans gov_logGovernor) fun _ => touches_ite (fun _ => (hset _ _).trans gov_logGovernor) fun _ => hset _ _

theorem gov_refreshMode {n : Nat} : Touches govRegs s (refreshMode r n s) := by
  unfold refreshMode
  exact touches_ite (fun _ => .refl _ s) fun _ => touches_ite (fun _ => gov_setDram.trans gov_logGovernor) fun _ =>
    touches_ite (fun _ => gov_setDram.trans gov_logGovernor) fun _ => gov_setDram

theorem gov_modLink {p : PortId} {f : Link → Link} : Touches govRegs s (modLink p f s) := (frame_modLink s p f).mono (by decide)

theorem gov_sendWidth {p : PortId} {m : Nat} : Touches govRegs s (sendWidth p m s) := by
  unfold sendWidth putWidth linkFlit
  exact ((gov_modLink (p := p)).trans (gov_modLink (p := p))).andThen (frame_putFlit _ p _)

theorem gov_laneOffSet {p : PortId} {m : Nat} : Touches govRegs s (laneOffSet p m s) := by
  unfold laneOffSet laneChange
  extract_lets l l' u
  have hset : Touches govRegs s u := (frame_setLink s p l').mono (by decide)
  exact touches_ite (fun _ => hset.trans gov_sendWidth) fun _ => hset

theorem gov_laneStep {p : PortId} {i : Nat} : Touches govRegs s (laneStep p i s) := by
  unfold laneStep
  extract_lets l x key prev q u bad off rest hold
  have hsyms : Touches govRegs s u := gov_power s _ rfl
  have hmark : ∀ t, Touches govRegs s { u with pwr := { u.pwr with laneFail := tset none key t u.pwr.laneFail } } := fun t => hsyms.trans (gov_power u _ rfl)
  refine touches_ite (fun _ => touches_ite (fun _ => hsyms.trans gov_logEntry) fun _ => ?_) fun _ => ?_
  · exact ((hmark _).trans gov_laneOffSet).trans gov_logGovernor
  · split
    · exact touches_ite (fun _ => (((hmark _).trans gov_laneOffSet).trans gov_modLink).trans gov_logGovernor) fun _ => hsyms
    · exact hsyms

theorem gov_lanesStep : Touches govRegs s (lanesStep s) :=
  touches_foldl (fun u _ => touches_ite (fun _ => touches_foldl (fun _ _ => gov_laneStep) _ u) fun _ => .refl _ u) _ s

theorem gov_dueRecast {l : Nat} {g : RecastTrigger} {byCmd : Bool} : Touches govRegs s (dueRecast l g byCmd s) := (frame_cpu s _).mono (by decide)

theorem gov_predictiveTrigger {slot : Nat} : Touches govRegs s (predictiveTrigger slot s) := by
  unfold predictiveTrigger
  extract_lets u
  have hlog : Touches govRegs s u := gov_logGovernor
  split
  · exact hlog
  · exact touches_ite (fun _ => hlog.trans gov_dueRecast) fun _ => hlog

theorem gov_predictSlot {slot : Nat} {first : Bool} : Touches govRegs s (predictSlot slot first s) := by
  unfold predictSlot
  extract_lets v h prev old past was h' q u
  have hset : Touches govRegs s u := gov_power s _ rfl
  exact touches_ite (fun _ => .refl _ s) fun _ => touches_ite (fun _ => hset.trans gov_predictiveTrigger) fun _ => hset

theorem gov_predictStep : Touches govRegs s (predictStep s) := by
  unfold predictStep
  extract_lets first u
  have hslots : Touches govRegs s u := touches_foldl (fun _ _ => gov_predictSlot) _ s
  clear_value u
  exact touches_ite (fun _ => .refl _ s) fun _ => hslots.trans (gov_power u _ rfl)

theorem gov_clockNotice {c : Nat} : Touches govRegs s (clockNotice c s) :=
  touches_foldl (fun u p => touches_ite (fun _ => touches_foldl (fun v _ => touches_ite (fun _ => gov_noticeOnCore) fun _ => .refl _ v) (coresOf p u) u)
    fun _ => .refl _ u) (runningParts s) s

theorem gov_clockStep {c : Nat} : Touches govRegs s (clockStep r c s) := by
  unfold clockStep
  split
  · exact .refl _ s
  · rename_i lo hi _
    extract_lets f set lower hub
    have hset : ∀ v, Touches govRegs s (set v s) := fun v => touches_ite (fun _ => .refl _ s) fun _ =>
      (gov_power s { s.pwr with clk := tset 2000 c v s.pwr.clk } rfl).trans gov_logGovernor
    have hlower : ∀ v, Touches govRegs s (lower v s) := fun v => touches_ite (fun _ => (hset v).trans gov_clockNotice) fun _ => .refl _ s
    exact touches_ite (fun _ => hlower _) fun _ => touches_ite (fun _ => hlower _) fun _ => touches_ite (fun _ => hset _) fun _ => .refl _ s

theorem lose_recallEntry {e : DirEntry} : Touches loseRegs s (recallEntry e s) := by
  unfold recallEntry
  extract_lets u v
  have hcount : Touches loseRegs s u := (frame_patina s _).mono (by decide)
  have hlose : Touches loseRegs u v := (frame_losingResv e.line).mono (by decide)
  exact (hcount.trans hlose).andThen frame_snoopHolders

theorem lose_leaveSteps : Touches loseRegs s (leaveSteps s) := by
  unfold leaveSteps
  extract_lets q u lines v es w
  have htell : Touches loseRegs s u := (frame_fabric s { s.arm with telling := none } rfl rfl).mono (by decide)
  have hlines : Touches loseRegs u v := touches_foldl (fun x ln => (((traffic_writeBackLine (s := x) (line := ln)).mono (by decide)).trans
    ((frame_onCores _ _ _).mono (by decide))).trans (frame_releaseRemote.mono (by decide))) _ u
  have hentries : Touches loseRegs v w := touches_foldl (fun x _ => touches_ite (fun _ => lose_recallEntry) fun _ => .refl _ x) _ v
  exact ((htell.trans hlines).trans hentries).trans ((frame_announceChange _).mono (by decide))

theorem gov_tryLeave : Touches govRegs s ((tryLeave s).getD s) := by
  unfold tryLeave startLeave
  extract_lets alone q u
  have hset : Touches govRegs s u := (frame_arm s _).mono (by decide)
  split
  · exact touches_ite (fun _ => hset.trans ((frame_arm u _).mono (by decide))) fun _ => hset.trans (lose_leaveSteps.mono (by decide))
  · exact .refl _ s

/-! ### Events count at their source -/

theorem firstEvent_live (cls src code : Nat) (part : Option Nat) (detail : Nat) (holds : Bool) (s : State) :
    (firstEvent cls src code part detail holds s).flt.live = s.flt.live :=
  ((frame_startGrace _ src) .live (by decide)).trans ((frame_reactNotify _ src code part detail) .live (by decide))

theorem laterEvent_live (cls src code : Nat) (part : Option Nat) (holds : Bool) (s : State) : (laterEvent cls src code part holds s).flt.live = s.flt.live := by
  unfold laterEvent
  extract_lets st worse st' u
  split
  · exact (frame_startGrace u src) .live (by decide)
  · rfl

theorem raiseClass_live (cls src code : Nat) (part : Option Nat) (detail : Nat) (holds : Bool) (s : State) :
    (raiseClass cls src code part detail holds s).flt.live = (patina src s).flt.live := by
  unfold raiseClass
  extract_lets st r pt counted logged told pulsed
  have hlogged : logged.flt.live = counted.flt.live := by
    unfold logged
    split <;> rfl
  have htold : told.flt.live = logged.flt.live := by
    unfold told
    split
    · exact laterEvent_live ..
    · exact firstEvent_live ..
  have hpulsed : pulsed.flt.live = told.flt.live := by
    unfold pulsed
    split
    · exact (frame_pulseErrN told) .live (by decide)
    · rfl
  exact (show _ = pulsed.flt.live by split <;> rfl).trans (hpulsed.trans (htold.trans hlogged))

/-! ### Readings -/

/-- A governor epoch reads sensor `n`. -/
def readSensor (r : GovReadings) (s : State) (n : Nat) : State :=
  let x := r.sensors.getD n none
  let s := { s with pwr := { s.pwr with temp := tset none n x s.pwr.temp,
                                        lastTemp := match x with | some v => tset 0 n v s.pwr.lastTemp | none => s.pwr.lastTemp } }
  if x.isNone then raise srcThermal 0x09 none n s else s

theorem takeReadings_eq : takeReadings r s = (List.range 60).foldl (readSensor r) { s with pwr := { s.pwr with powerW := r.powerW } } := rfl

theorem readSensor_pwr (n : Nat) : (readSensor r s n).pwr = { s.pwr with
    temp := tset none n (r.sensors.getD n none) s.pwr.temp,
    lastTemp := match r.sensors.getD n none with | some v => tset 0 n v s.pwr.lastTemp | none => s.pwr.lastTemp } := by
  unfold readSensor
  extract_lets x q u
  split
  · exact (frame_raise u (by decide) _ _ _) .pwr (by decide)
  · rfl

theorem frame_readSensor (n : Nat) : Touches (.sensed :: govRegs) s (readSensor r s n) := by
  unfold readSensor
  extract_lets x q u
  have hset : Touches (.sensed :: govRegs) s u := (frame_pwr s _).mono (by decide)
  exact touches_ite (fun _ => hset.trans (gov_raise.mono (by decide))) fun _ => hset

/-- Every sensor of the list has been read. -/
def Read (r : GovReadings) (ns : List Nat) (q : Power) : Prop :=
  q.powerW = r.powerW ∧ ∀ n ∈ ns, tget none n q.temp = r.sensors.getD n none ∧ ∀ y, r.sensors.getD n none = some y → tget 0 n q.lastTemp = y

theorem read_readSensor {ns : List Nat} {m : Nat} (h : Read r ns s.pwr) : Read r (ns ++ [m]) (readSensor r s m).pwr := by
  obtain ⟨hw, hns⟩ := h
  rw [readSensor_pwr]
  refine ⟨hw, fun n hn => ?_⟩
  by_cases e : n = m
  · subst e
    exact ⟨tget_tset_same .., fun y hy => by rw [hy]; exact tget_tset_same ..⟩
  · obtain ⟨ht, hl⟩ := hns n (by simpa [e] using hn)
    refine ⟨(tget_tset_ne _ _ _ e).trans ht, fun y hy => ?_⟩
    cases hm : r.sensors.getD m none with
    | none => exact hl y hy
    | some v => exact (tget_tset_ne _ _ _ e).trans (hl y hy)

theorem read_foldl (ms : List Nat) : ∀ (ns : List Nat) {s : State}, Read r ns s.pwr → Read r (ns ++ ms) (ms.foldl (readSensor r) s).pwr := by
  induction ms with
  | nil => exact fun ns s h => by simpa using h
  | cons m ms ih => exact fun ns s h => by simpa using ih (ns ++ [m]) (read_readSensor h)

theorem frame_takeReadings : Touches (.sensed :: govRegs) s (takeReadings r s) := by
  rw [takeReadings_eq]
  exact ((frame_pwr s _).mono (by decide)).trans (touches_foldl (fun _ n => frame_readSensor n) _ _)

theorem takeReadings_read : Read r (List.range 60) (takeReadings r s).pwr := by
  rw [takeReadings_eq]
  exact read_foldl (List.range 60) [] ⟨rfl, fun _ h => nomatch h⟩

theorem read_of_sensed {ns : List Nat} (h : Read r ns s.pwr) (hs : sensedOf t = sensedOf s) : Read r ns t.pwr := by
  obtain ⟨hw, ht, hl⟩ : t.pwr.powerW = s.pwr.powerW ∧ t.pwr.temp = s.pwr.temp ∧ t.pwr.lastTemp = s.pwr.lastTemp := by simpa [sensedOf] using hs
  rwa [Read, hw, ht, hl]

/-! ### The epoch -/

/-- The decisions of a governor epoch, its readings taken. -/
def govDecisions (r : GovReadings) (s : State) : State :=
  let s := hotStep r (throttleStep r s)
  let s := (List.range 16).foldl (fun s n => kStep n (refreshMode r n s)) s
  let s := lanesStep (predictStep s)
  let s := if noneApplied s then s else (List.range 12).foldl (fun s c => clockStep r c s) s
  if s.arm.removeReq then (tryLeave s).getD s else s

theorem governor_eq : governor r s = { govDecisions r (takeReadings r s) with
    pwr := { (govDecisions r (takeReadings r s)).pwr with govEpoch := (govDecisions r (takeReadings r s)).tor.tor } } := by
  simp only [governor, govDecisions]

theorem gov_decide : Touches govRegs s (govDecisions r s) := by
  unfold govDecisions
  extract_lets u v w x
  have hu : Touches govRegs s u := gov_throttleStep.trans gov_hotStep
  have hv : Touches govRegs u v := touches_foldl (fun _ _ => gov_refreshMode.trans gov_kStep) _ u
  have hw : Touches govRegs v w := gov_predictStep.trans gov_lanesStep
  have hx : Touches govRegs w x := touches_ite (fun _ => .refl _ w) fun _ => touches_foldl (fun _ _ => gov_clockStep) _ w
  have hall : Touches govRegs s x := ((hu.trans hv).trans hw).trans hx
  exact touches_ite (fun _ => hall.trans gov_tryLeave) fun _ => hall

theorem governor_readings (r : GovReadings) (s : State) : Touches (.sensed :: govRegs) s (governor r s) ∧ Read r (List.range 60) (governor r s).pwr ∧
    (governor r s).pwr.govEpoch = s.tor.tor := by
  have hread : Touches (.sensed :: govRegs) s (takeReadings r s) := frame_takeReadings
  have hdec : Touches govRegs (takeReadings r s) (govDecisions r (takeReadings r s)) := gov_decide
  have htaken : Read r (List.range 60) (takeReadings r s).pwr := takeReadings_read
  rw [governor_eq]
  generalize takeReadings r s = u at *
  generalize govDecisions r u = v at *
  refine ⟨(hread.trans (hdec.mono (by decide))).trans ((frame_pwr _ _).mono (by decide)), ?_, ?_⟩
  · exact read_of_sensed (s := v) (t := { v with pwr := { v.pwr with govEpoch := v.tor.tor } }) (read_of_sensed htaken (hdec .sensed (by decide))) rfl
  · exact (hdec .count (by decide)).trans (hread .count (by decide))

/-! ### A quiet epoch -/

/-- The fields of `Power` but what every epoch reads and counts. -/
def quietOf (q : Power) : Power := { q with powerW := 0, temp := [], lastTemp := [], hot := [], kQuiet := [] }

/-- What a quiet epoch leaves. -/
structure Quiet (s t : State) : Prop where
  frame : Touches [.pwr, .sensed, .flt, .live, .dram, .failed] s t
  power : quietOf t.pwr = quietOf s.pwr
  snap : t.flt.snapTor = s.flt.snapTor

theorem Quiet.refl (s : State) : Quiet s s := ⟨.refl _ s, rfl, rfl⟩

theorem Quiet.trans {u : State} (h : Quiet s t) (k : Quiet t u) : Quiet s u := ⟨h.frame.trans k.frame, k.power.trans h.power, k.snap.trans h.snap⟩

theorem quiet_foldl {f : State → Nat → State} {ns : List Nat} (hf : ∀ u, ∀ n ∈ ns, Quiet u (f u n)) : ∀ s, Quiet s (ns.foldl f s) := by
  induction ns with
  | nil => exact Quiet.refl
  | cons n ns ih => exact fun s => (hf s n (by simp)).trans (ih (fun u m hm => hf u m (by simp [hm])) _)

theorem quiet_power (s : State) (x : Power) (h : quietOf x = quietOf s.pwr) : Quiet s { s with pwr := x } := ⟨(frame_pwr s x).mono (by decide), h, rfl⟩

theorem quiet_setDram {n : Nat} {d : Dram} : Quiet s (setDram n d s) := ⟨(frame_dram s _).mono (by decide), rfl, rfl⟩

theorem quiet_logGovernor {counter src detail : Nat} : Quiet s (logGovernor counter src detail s) :=
  ⟨((frame_patina s _).mono (by decide)).andThen (frame_logEntry _ _ _ _ _ _ _), rfl, rfl⟩

theorem quiet_kStep {n : Nat} : Quiet s (kStep n s) := by
  unfold kStep
  extract_lets d quiet setQuiet clear k
  have hset : ∀ q d, Quiet s (setQuiet q (setDram n d s)) := fun q d => quiet_setDram.trans (quiet_power (setDram n d s) _ rfl)
  split
  · exact (hset _ _).trans quiet_logGovernor
  · split
    · exact (hset _ _).trans quiet_logGovernor
    · exact hset _ _

theorem quiet_refreshMode {n : Nat} : Quiet s (refreshMode r n s) := by
  unfold refreshMode
  extract_lets d xs d' above below
  split
  · exact .refl s
  · split
    · exact quiet_setDram.trans quiet_logGovernor
    · split
      · exact quiet_setDram.trans quiet_logGovernor
      · exact quiet_setDram

theorem quiet_hotStep (h : ∀ n, n < 60 → reading r n < 440) : Quiet s (hotStep r s) :=
  quiet_foldl (fun u n hn => by
    have hk : ¬ 440 ≤ reading r n := not_le.mpr (h n (List.mem_range.mp hn))
    simp only [hk, if_false]
    exact quiet_power u _ rfl) s

theorem quiet_takeReadings (h : ∀ n, n < 60 → (r.sensors.getD n none).isNone = false) : Quiet s (takeReadings r s) := by
  rw [takeReadings_eq]
  refine (quiet_power s { s.pwr with powerW := r.powerW } rfl).trans (quiet_foldl (fun u n hn => ?_) _)
  simp only [readSensor, h n (List.mem_range.mp hn)]
  exact quiet_power u _ rfl

/-- Thermal throttle stays as it is off, where no sensor has reached its limit. -/
theorem throttleStep_cool (ht : s.pwr.throttle = false) (h : ∀ n, n < 60 → reading r n < 400) : throttleStep r s = s := by
  have hhot : (List.range 60).any (fun n => decide (400 ≤ reading r n)) = false := by
    simpa only [List.any_eq_false, List.mem_range, decide_eq_true_eq, not_le] using h
  simp [throttleStep, ht, hhot]

theorem lanesStep_inactive (h : ∀ p ∈ allPorts, portActive p s = false) : lanesStep s = s := by
  have hall : ∀ (ps : List PortId), (∀ p ∈ ps, portActive p s = false) →
      ps.foldl (fun s p => if portActive p s then (List.range (portLanes p)).foldl (fun s i => laneStep p i s) s else s) s = s := fun ps => by
    induction ps with
    | nil => exact fun _ => rfl
    | cons p ps ih =>
      intro hp
      rw [List.foldl_cons, hp p (by simp)]
      exact ih fun q hq => hp q (by simp [hq])
  exact hall _ h

theorem quiet_governor {x : Int} (hr : r.sensors = List.replicate 60 (some x)) (hx : x ≤ 380) (ht : s.pwr.throttle = false) (hn : noneApplied s = true)
    (hp : ∀ p ∈ allPorts, portActive p s = false) (hsnap : s.flt.snapTor = s.pwr.lastSnap) (hleave : s.arm.removeReq = false) :
    Quiet s (govDecisions r (takeReadings r s)) := by
  have hget : ∀ n, n < 60 → r.sensors.getD n none = some x := fun n h => hr ▸ List.getD_replicate _ h
  have hreading : ∀ n, n < 60 → reading r n = x := fun n h => by simp only [reading, hget n h, Option.getD_some]
  have hread : Quiet s (takeReadings r s) := quiet_takeReadings fun n h => by rw [hget n h]; rfl
  generalize takeReadings r s = a at *
  have hthrottle : throttleStep r a = a :=
    throttleStep_cool ((congrArg Power.throttle hread.power :).trans ht) fun n h => by rw [hreading n h]; omega
  unfold govDecisions
  rw [hthrottle]
  extract_lets u v w y
  have hu : Quiet s u := hread.trans (quiet_hotStep fun n h => by rw [hreading n h]; omega)
  have hv : Quiet s v := hu.trans (quiet_foldl (fun _ _ _ => quiet_refreshMode.trans quiet_kStep) u)
  clear_value v
  have hpredict : predictStep v = v := if_pos (.inr (hv.snap.trans (hsnap.trans (congrArg Power.lastSnap hv.power :).symm)))
  have hlinks : v.armLink = s.armLink ∧ v.chLink = s.chLink := ⟨hv.frame .armLink (by decide), hv.frame .chLink (by decide)⟩
  have hlanes : lanesStep v = v := lanesStep_inactive fun p h => by
    rw [← hp p h]
    cases p <;> simp only [portActive, linkOf, hlinks]
  have hw : w = v := (congrArg lanesStep hpredict).trans hlanes
  have hpln : v.pln = s.pln := hv.frame .pln (by decide)
  have hy : y = v := (if_pos (by simpa only [hw, noneApplied, hpln] using hn)).trans hw
  have harm : v.arm = s.arm := hv.frame .arm (by decide)
  rw [hy, harm, hleave]
  exact hv

theorem exec_governorEpoch (r : GovReadings) (s : State) : exec (.governorEpoch r) s = if governorDue s then done s (governor r s) else .next s := rfl

theorem sensor_of_read (h : Read r (List.range 60) s.pwr) :
    ∀ n, n < 60 → tget none n s.pwr.temp = r.sensors.getD n none ∧ ∀ y, r.sensors.getD n none = some y → tget 0 n s.pwr.lastTemp = y :=
  fun n hn => h.2 n (List.mem_range.mpr hn)

theorem governorEpoch_reads (hdue : governorDue s = true) : ∃ t, exec (.governorEpoch r) s = .next t ∧ t.pwr.govEpoch = s.tor.tor ∧ t.pwr.powerW = r.powerW ∧
    (∀ n, n < 60 → tget none n t.pwr.temp = r.sensors.getD n none ∧ ∀ y, r.sensors.getD n none = some y → tget 0 n t.pwr.lastTemp = y) ∧ t.tor.tor = s.tor.tor := by
  obtain ⟨hframe, hread, hepoch⟩ := governor_readings r s
  obtain ⟨t, hdone, ht⟩ := done_settles (s := governor r s) (b := s) (hframe .pending (by decide))
  have hpwr : t.pwr = (governor r s).pwr := ht .pwr (by decide)
  refine ⟨t, (if_pos hdue).trans hdone, by rw [hpwr, hepoch], by rw [hpwr, hread.1], sensor_of_read (by rwa [hpwr]), ?_⟩
  exact (ht .count (by decide)).trans (hframe .count (by decide))

/-- A quiet epoch: no more than its readings. -/
theorem governorEpoch_quiet {x : Int} (hs : Safety.settled s) (hdue : governorDue s = true) (hr : r.sensors = List.replicate 60 (some x)) (hx : x ≤ 380)
    (ht : s.pwr.throttle = false) (hn : noneApplied s = true) (hp : ∀ p ∈ allPorts, portActive p s = false) (hsnap : s.flt.snapTor = s.pwr.lastSnap)
    (hleave : s.arm.removeReq = false) : ∃ t, exec (.governorEpoch r) s = .next t ∧ t.pwr.throttle = false ∧ t.pwr.clk = s.pwr.clk ∧ t.sto = s.sto ∧
      t.cpu = s.cpu ∧ t.pln = s.pln := by
  have hquiets := quiet_governor hr hx ht hn hp hsnap hleave
  rw [exec_governorEpoch, if_pos hdue, governor_eq]
  generalize govDecisions r (takeReadings r s) = u at *
  have hu : Touches [.pwr, .sensed, .flt, .live, .dram, .failed] s { u with pwr := { u.pwr with govEpoch := u.tor.tor } } := hquiets.frame.andThen (frame_pwr u _)
  obtain ⟨t, hdone, htold⟩ := done_sameTime (b := s) ((hu .due (by decide)).trans hs) (hu .pending (by decide)) (hu .tor (by decide))
  have hpwr : t.pwr = { u.pwr with govEpoch := u.tor.tor } := htold .pwr (by decide)
  refine ⟨t, hdone, ?_, ?_, (htold .sto (by decide)).trans (hu .sto (by decide)), (htold .cpu (by decide)).trans (hu .cpu (by decide)),
    (htold .pln (by decide)).trans (hu .pln (by decide))⟩
  · exact (congrArg Power.throttle hpwr).trans ((congrArg Power.throttle hquiets.power :).trans ht)
  · exact (congrArg Power.clk hpwr).trans (congrArg Power.clk hquiets.power :)

/-! ### Thermal throttle -/

theorem throttleStep_hot (ht : s.pwr.throttle = false) (h : ∃ n, n < 60 ∧ 400 ≤ reading r n) : (throttleStep r s).pwr.throttle = true ∧
    tget 0 0x29C (throttleStep r s).flt.live = sat16 (tget 0 0x29C s.flt.live) := by
  have hhot : (List.range 60).any (fun n => decide (400 ≤ reading r n)) = true := by
    simpa only [List.any_eq_true, List.mem_range, decide_eq_true_eq] using h
  unfold throttleStep
  extract_lets hot cool q u v
  have htell : Touches [.cpu, .core, .keeps, .own] u v :=
    touches_foldl (fun _ _ => touches_foldl (fun w _ => frame_modCore w _ _) _ _) _ u
  have hflt : v.flt = s.flt := htell .flt (by decide)
  rw [if_pos (by rw [ht]; exact hhot)]
  constructor
  · exact (congrArg Power.throttle ((frame_raise (patina 0x29C v) (by decide) srcThermal none 0) .pwr (by decide))).trans
      (congrArg Power.throttle (htell .pwr (by decide)))
  · rw [raise, raiseClass_live, patina_live, if_neg (by decide), patina_live, if_pos rfl, hflt]

theorem throttleStep_end (ht : s.pwr.throttle = true) (h : ∀ n, n < 60 → reading r n ≤ 388) :
    throttleStep r s = { s with pwr := { s.pwr with throttle := false } } := by
  have hcool : (List.range 60).all (fun n => decide (reading r n ≤ 388)) = true := by
    simpa only [List.all_eq_true, List.mem_range, decide_eq_true_eq] using h
  simp [throttleStep, ht, hcool]

theorem throttleStep_warm (ht : s.pwr.throttle = true) (h : ∃ n, n < 60 ∧ 388 < reading r n) : throttleStep r s = s := by
  have hcool : (List.range 60).all (fun n => decide (reading r n ≤ 388)) = false := by
    simpa only [List.all_eq_false, List.mem_range, decide_eq_true_eq, not_le] using h
  simp [throttleStep, ht, hcool]

/-- Settles O23. An epoch's readings pass through its decisions, none of which writes them; a quiet one writes the readings and what it counts. -/
theorem governorEpochAndThrottle : Obligations.GovernorEpochAndThrottle := by
  unfold Obligations.GovernorEpochAndThrottle
  refine ⟨fun r s x hs _ => ⟨fun hdue => ?_, governorEpoch_reads, fun hdue hr hx ht hn _ hp _ hsnap hleave => ?_⟩, fun r s => ⟨throttleStep_hot,
    throttleStep_end, throttleStep_warm, throttleStep_cool⟩⟩
  · rw [exec_governorEpoch, hdue]
    rfl
  · obtain ⟨t, hexec, hepoch, hpower, hread, -⟩ := governorEpoch_reads (r := r) hdue
    obtain ⟨u, hexec', hquiet, hclk, hsto, hcpu, hpln⟩ := governorEpoch_quiet hs hdue hr hx ht hn hp hsnap hleave
    obtain rfl : t = u := Host.Outcome.next.inj (hexec.symm.trans hexec')
    refine ⟨t, hexec, hepoch, hpower, hquiet, fun n h => ?_, hclk, hsto, hcpu, hpln⟩
    have hget : r.sensors.getD n none = some x := hr ▸ List.getD_replicate _ h
    exact ⟨(hread n h).1.trans hget, (hread n h).2 x hget⟩

end

end Sys2Proof.Machine
end


section
set_option Elab.async false
/-! PROOFS. O28: refresh, scrub, re-centring, speed and training of a DRAM controller. -/

namespace Sys2Proof.Machine

section
variable {s t u b : State} {n : Nat}

/-! ### Controllers -/

theorem dramOf_modDram (m n : Nat) (f : Dram → Dram) (s : State) : dramOf m (modDram n f s) = if m = n then f (dramOf n s) else dramOf m s :=
  dramOf_setDram n m _ s

theorem dramOf_modDram_same (n : Nat) (f : Dram → Dram) (s : State) : dramOf n (modDram n f s) = f (dramOf n s) := (dramOf_modDram ..).trans (if_pos rfl)

/-- Each controller of a list is set once. -/
theorem dramOf_foldl (f : Nat → Dram → Dram) {ns : List Nat} (hns : ns.Nodup) (k : Nat) :
    ∀ s : State, dramOf k (ns.foldl (fun s n => modDram n (f n) s) s) = if k ∈ ns then f k (dramOf k s) else dramOf k s := by
  induction ns with
  | nil => exact fun s => rfl
  | cons n ns ih =>
    obtain ⟨hn, hns⟩ := List.nodup_cons.mp hns
    intro s
    rw [List.foldl_cons, ih hns, dramOf_modDram]
    by_cases e : k = n
    · subst e
      simp [hn]
    · simp [e]

theorem dramOf_all (f : Nat → Dram → Dram) {k : Nat} (hk : k < 16) (s : State) :
    dramOf k ((List.range 16).foldl (fun s n => modDram n (f n) s) s) = f k (dramOf k s) :=
  (dramOf_foldl f List.nodup_range k s).trans (if_pos (List.mem_range.mpr hk))

theorem frame_allDram (f : Nat → Dram → Dram) (s : State) :
    Touches [.dram, .failed] s ((List.range 16).foldl (fun s n => modDram n (f n) s) s) :=
  touches_foldl (fun u n => frame_modDram n (f n) u) _ s

/-! ### Refresh -/

theorem refresh_next (hs : Safety.settled s) (f : Dram → Dram) : done s (modDram n f s) = .next (modDram n f s) :=
  done_framed (frame_modDram n f s) hs

theorem refreshTick_eq (hn : n < 16) (h2 : (dramOf n s).state = 2) : refreshTick n s = setDram n (if (dramOf n s).paying = false ∧ 4 ≤ (dramOf n s).debt then
    { dramOf n s with openRow := [], replays := 0 } else { dramOf n s with debt := (dramOf n s).debt + 1 }) s := by
  rw [refreshTick, if_neg (by simp [h2]; omega), modDram]
  congr 1
  generalize dramOf n s = d
  by_cases hp : d.paying = false
  · by_cases hd : 4 ≤ d.debt
    · simp only [hp, hd, refab, show 4 < d.debt + 1 by omega, Bool.not_false, decide_true, Bool.and_self, if_true, and_self, Bool.false_and, Nat.add_sub_cancel]
    · simp [hp, hd, show ¬ 4 < d.debt + 1 by omega]
  · simp [hp]

theorem refreshTick_spec (hs : Safety.settled s) (ho : operating s = true) (hn : n < 16) (h2 : (dramOf n s).state = 2) :
    ((dramOf n s).debt < 4 ∨ (dramOf n s).paying = true → exec (.refreshTick n) s = .next (setDram n { dramOf n s with debt := (dramOf n s).debt + 1 } s)) ∧
    (4 ≤ (dramOf n s).debt → (dramOf n s).paying = false →
      exec (.refreshTick n) s = .next (setDram n { dramOf n s with openRow := [], replays := 0 } s)) := by
  have hexec : exec (.refreshTick n) s = done s (refreshTick n s) := if_pos ho
  have hnext : ∀ d, done s (setDram n d s) = .next (setDram n d s) := fun d => refresh_next hs fun _ => d
  rw [hexec, refreshTick_eq hn h2]
  constructor
  · intro h
    rw [if_neg (by rintro ⟨hp, hd⟩; rcases h with h | h; exacts [absurd h (by omega), by simp [h] at hp])]
    exact hnext _
  · intro hd hp
    rw [if_pos ⟨hp, hd⟩]
    exact hnext _

theorem refreshIdle_spec (hs : Safety.settled s) (ho : operating s = true) (hn : n < 16) (h2 : (dramOf n s).state = 2) :
    ((dramOf n s).debt = 0 → exec (.refreshIdle n) s = .next s) ∧
    (0 < (dramOf n s).debt → exec (.refreshIdle n) s = .next (setDram n { dramOf n s with
      debt := (dramOf n s).debt - 1, openRow := [], replays := 0, paying := (dramOf n s).paying && decide (1 < (dramOf n s).debt) } s)) := by
  have hexec : exec (.refreshIdle n) s = done s (refreshIdle n s) := if_pos ho
  rw [hexec, refreshIdle]
  constructor
  · intro hd
    rw [if_pos (.inr (.inr hd))]
    exact done_framed (.refl [] s) hs
  · intro hd
    rw [if_neg (by simp [h2]; omega)]
    exact refresh_next hs _

/-! ### Scrub -/

/-- Where the scrub of a controller stands, and over what. -/
def walkOf (d : Dram) : Nat × Nat × Nat × Nat := (d.state, d.capGiB, d.pos, d.scrubbed)

/-- What a scrub writes. -/
def scrubRegs : List FrameReg := [.out, .pf0, .cpu, .core, .flt, .status, .live, .due, .sto, .free, .dram, .failed]

theorem walkOf_countAct (key row : Nat) (d : Dram) : walkOf (countAct key row d) = walkOf d := by
  unfold countAct
  split
  · rfl
  · split <;> rfl

theorem walkOf_refreshRows (key : Nat) (d : Dram) : walkOf (refreshRows key d) = walkOf d := by
  have hfold : ∀ (xs : List Nat) (d : Dram), walkOf (xs.foldl (fun d x => countAct key x d) d) = walkOf d := fun xs => by
    induction xs with
    | nil => exact fun _ => rfl
    | cons x xs ih => exact fun d => (ih _).trans (walkOf_countAct key x d)
  exact hfold _ _

theorem walkOf_clusterCheck (d : Dram) : walkOf (clusterCheck d) = walkOf d := by
  unfold clusterCheck
  dsimp only
  split <;> rfl

theorem walk_modDram {f : Dram → Dram} (h : ∀ d, walkOf (f d) = walkOf d) (s : State) : walkOf (dramOf n (modDram n f s)) = walkOf (dramOf n s) := by
  rw [dramOf_modDram_same]
  exact h _

theorem walk_activate (p : DPlace) (s : State) : Touches [.dram, .failed] s (activate n p false s) ∧ walkOf (dramOf n (activate n p false s)) = walkOf (dramOf n s) := by
  unfold activate
  extract_lets u v w
  have hu : walkOf (dramOf n u) = walkOf (dramOf n s) := walk_modDram (fun d => by split <;> rfl) s
  have hv : walkOf (dramOf n v) = walkOf (dramOf n u) :=
    walk_modDram (fun d => (walkOf_clusterCheck _).trans ((walkOf_countAct _ _ _).trans (walkOf_refreshRows _ d))) u
  have hframe : Touches [.dram, .failed] s v := (frame_modDram n _ s).trans (frame_modDram n _ u)
  have hw : w = v := rfl
  rw [hw]
  clear_value v
  split
  · exact ⟨.refl _ s, rfl⟩
  · exact ⟨hframe.trans (frame_modDram n _ v), (walk_modDram (fun _ => by rfl) v).trans (hv.trans hu)⟩

theorem frame_eccCheck (e : EccErr) : Touches [.free] s (eccCheck e s).2 := by
  unfold eccCheck
  split
  · exact .refl _ s
  · exact .refl _ s
  · exact .refl _ s
  · exact frame_free s _

theorem walk_readBurst (pa : Nat) (err : EccErr) (scrub : Bool) (part : Option Nat) (s : State) :
    Touches scrubRegs s (readBurst n pa err scrub part s) ∧ walkOf (dramOf n (readBurst n pa err scrub part s)) = walkOf (dramOf n s) := by
  unfold readBurst
  extract_lets la d p burst note f v
  have hv : Touches scrubRegs s v := (frame_eccCheck err).mono (by decide)
  have hvd : dramOf n v = dramOf n s := by
    have h : v.dram = s.dram := frame_eccCheck err .dram (by decide)
    rw [dramOf, h, dramOf]
  have hnote : ∀ cls device w, Touches scrubRegs w (note cls device w) := fun _ _ w => (frame_modDram n _ w).mono (by decide)
  have hnoted : ∀ cls device w, walkOf (dramOf n (note cls device w)) = walkOf (dramOf n w) := fun _ _ w => walk_modDram (fun _ => by rfl) w
  have hraise : ∀ {code : Nat}, code ≠ 0x10 → ∀ w, Touches scrubRegs w (raise (srcDram n) code part pa w) ∧
      dramOf n (raise (srcDram n) code part pa w) = dramOf n w := fun hc w => by
    have h := frame_raise w hc (srcDram n) part pa
    have hdram : (raise (srcDram n) _ part pa w).dram = w.dram := h .dram (by decide)
    exact ⟨h.mono (by decide), by rw [dramOf, hdram, dramOf]⟩
  split
  · split
    · exact ⟨hv, by rw [hvd]⟩
    · exact ⟨hv.trans (hnote 3 0 v), by rw [hnoted, hvd]⟩
  · split
    · exact ⟨hv, by rw [hvd]⟩
    · obtain ⟨hr, hd⟩ := hraise (code := 0x01) (by decide) (note 1 _ (modDram n (fun d => clusterCheck { d with ceRows := d.ceRows ++ [(p.key, p.row)] }) v))
      refine ⟨((hv.trans ((frame_modDram n _ v).mono (by decide))).trans (hnote _ _ _)).trans hr, ?_⟩
      rw [hd, hnoted, walk_modDram (fun d => ?_), hvd]
      exact (walkOf_clusterCheck _).trans rfl
    · obtain ⟨hr, hd⟩ := hraise (code := 0x03) (by decide) (note 2 0 { v with sto := { v.sto with poison := tset false burst true v.sto.poison } })
      have hpoison : Touches scrubRegs v { v with sto := { v.sto with poison := tset false burst true v.sto.poison } } :=
        Touches.holding (q := .mem) ((frame_sto v _).mono (by decide)) (by exact rfl)
      refine ⟨((hv.trans hpoison).trans (hnote _ _ _)).trans hr, ?_⟩
      rw [hd, hnoted]
      exact congrArg walkOf hvd

theorem readBurst_good (pa : Nat) (part : Option Nat) (s : State) : readBurst n pa [] true part s = s := by
  unfold readBurst
  dsimp only [eccCheck, List.filter_nil, List.eraseDups_nil]
  split <;> rfl

/-- The scrub of a controller moves on by one line. -/
def walkOn (d : Dram) : Dram := if d.pos + 1 < scrubLines d then { d with pos := d.pos + 1 } else { d with pos := 0, passes := satAdd 32 d.passes 1 }

theorem walkOn_of_walk {d e : Dram} (h : walkOf e = walkOf d) :
    (walkOn e).scrubbed = d.scrubbed ∧ (walkOn e).pos = if d.pos + 1 < d.capGiB * 2 ^ 23 then d.pos + 1 else 0 := by
  obtain ⟨-, hcap, hpos, hscrubbed⟩ : e.state = d.state ∧ e.capGiB = d.capGiB ∧ e.pos = d.pos ∧ e.scrubbed = d.scrubbed := by simpa [walkOf] using h
  rw [walkOn, scrubLines, hcap, hpos]
  split
  · exact ⟨hscrubbed, rfl⟩
  · exact ⟨hscrubbed, rfl⟩

/-- The scrub of controller `n` begins at its next line. -/
def scrubBegun (n : Nat) (s : State) : State :=
  activate n (placeOf (dramOf n s) ((dramOf n s).pos * 128)) false (modDram n (fun d => { d with replays := 0, scrubbed := s.tor.tor }) s)

theorem scrubDram_eq (hn : n < 16) (h2 : (dramOf n s).state = 2) (hc : 0 < (dramOf n s).capGiB)
    (hd : (dramOf n s).scrubbed / scrubTicks (dramOf n s) ≠ s.tor.tor / scrubTicks (dramOf n s)) (err err1 : EccErr) :
    scrubDram n err err1 s = modDram n walkOn (readBurst n (physAt n ((dramOf n s).pos * 128) s + 64) err1 true none
      (readBurst n (physAt n ((dramOf n s).pos * 128) s) err true none (scrubBegun n s))) := by
  have hlines : scrubLines (dramOf n s) ≠ 0 := Nat.mul_ne_zero hc.ne' (by decide)
  have hno : ¬ (16 ≤ n ∨ (dramOf n s).state ≠ 2 ∨ scrubLines (dramOf n s) = 0 ∨
      (dramOf n s).scrubbed / scrubTicks (dramOf n s) = s.tor.tor / scrubTicks (dramOf n s)) := by
    rintro (h | h | h | h)
    exacts [absurd h (by omega), h h2, hlines h, hd h]
  exact if_neg hno

theorem scrubBegun_walk : Touches [.dram, .failed] s (scrubBegun n s) ∧
    walkOf (dramOf n (scrubBegun n s)) = walkOf { dramOf n s with scrubbed := s.tor.tor } := by
  obtain ⟨hframe, hwalk⟩ := walk_activate (n := n) (placeOf (dramOf n s) ((dramOf n s).pos * 128)) (modDram n (fun d => { d with replays := 0, scrubbed := s.tor.tor }) s)
  exact ⟨(frame_modDram n _ s).trans hframe, hwalk.trans (by rw [dramOf_modDram_same]; rfl)⟩

theorem patrolScrub_spec (hs : Safety.settled s) (ho : operating s = true) (hn : n < 16) (h2 : (dramOf n s).state = 2) (hc : 0 < (dramOf n s).capGiB)
    (hd : (dramOf n s).scrubbed / scrubTicks (dramOf n s) ≠ s.tor.tor / scrubTicks (dramOf n s)) :
    (∀ err, Safety.graceful s → ∃ t, exec (.patrolScrub n err) s = .next t ∧ t.sto.mem = s.sto.mem ∧
      (dramOf n t).scrubbed = s.tor.tor ∧ (dramOf n t).pos = (if (dramOf n s).pos + 1 < (dramOf n s).capGiB * 2 ^ 23 then (dramOf n s).pos + 1 else 0)) ∧
    (∃ t, exec (.patrolScrub n ([], [])) s = .next t ∧ t.sto = s.sto ∧ t.cpu = s.cpu ∧ t.flt = s.flt) := by
  have hexec : ∀ err : EccErr × EccErr, exec (.patrolScrub n err) s = done s (scrubDram n err.1 err.2 s) := fun err => if_pos ho
  obtain ⟨hbegun, hwalk⟩ := scrubBegun_walk (s := s) (n := n)
  constructor
  · intro err hg
    rw [hexec, scrubDram_eq hn h2 hc hd]
    obtain ⟨hframe0, hwalk0⟩ := walk_readBurst (n := n) (physAt n ((dramOf n s).pos * 128) s) err.1 true none (scrubBegun n s)
    generalize readBurst n (physAt n ((dramOf n s).pos * 128) s) err.1 true none (scrubBegun n s) = u at *
    obtain ⟨hframe1, hwalk1⟩ := walk_readBurst (n := n) (physAt n ((dramOf n s).pos * 128) s + 64) err.2 true none u
    generalize readBurst n (physAt n ((dramOf n s).pos * 128) s + 64) err.2 true none u = v at *
    have hall : Touches scrubRegs s (modDram n walkOn v) :=
      (((hbegun.mono (by decide)).trans hframe0).trans hframe1).andThen (frame_modDram n walkOn v)
    obtain ⟨t, hdone, ht⟩ := done_told (b := s) (due_of_still (hall .still (by decide)) hs hg) (hall .pending (by decide))
    have hdram : t.dram = (modDram n walkOn v).dram := ht .dram (by decide)
    obtain ⟨hscrubbed, hpos⟩ := walkOn_of_walk (hwalk1.trans (hwalk0.trans hwalk))
    have hdt : dramOf n t = walkOn (dramOf n v) := by rw [dramOf, hdram, ← dramOf, dramOf_modDram_same]
    exact ⟨t, hdone, (ht .mem (by decide)).trans (hall .mem (by decide)), by rw [hdt, hscrubbed], by rw [hdt, hpos]⟩
  · rw [hexec, scrubDram_eq hn h2 hc hd]
    dsimp only
    rw [readBurst_good, readBurst_good]
    have hall : Touches [.dram, .failed] s (modDram n walkOn (scrubBegun n s)) := hbegun.trans (frame_modDram n walkOn _)
    exact ⟨_, done_framed hall hs, hall .sto (by decide), hall .cpu (by decide), hall .flt (by decide)⟩

/-! ### Re-centring -/

/-- Controller `n` is re-centred, and logged where its margin is low. -/
def recentreOne (low : List Nat) (s : State) (n : Nat) : State :=
  if (dramOf n s).state ≠ 2 then s
  else
    let s := modDram n (fun d => { d with lastRecentre := s.tor.tor }) s
    if low.contains n then logState (srcDram n) n (patina 0x29E s) else s

theorem recentreAll_eq (low : List Nat) (s : State) : recentreAll low s = (List.range 16).foldl (recentreOne low) s := rfl

theorem dramOf_recentreOne (low : List Nat) (m k : Nat) (s : State) : dramOf k (recentreOne low s m) =
    if k = m ∧ (dramOf k s).state = 2 then { dramOf k s with lastRecentre := s.tor.tor } else dramOf k s := by
  have hset : ∀ u : State, dramOf k (if low.contains m then logState (srcDram m) m (patina 0x29E u) else u) = dramOf k u := fun u => by split <;> rfl
  unfold recentreOne
  by_cases h2 : (dramOf m s).state = 2
  · rw [if_neg (by simp [h2]), hset, dramOf_modDram]
    by_cases e : k = m
    · rw [if_pos e, if_pos ⟨e, e ▸ h2⟩, e]
    · rw [if_neg e, if_neg fun h => e h.1]
  · rw [if_pos h2, if_neg (by rintro ⟨rfl, h⟩; exact h2 h)]

theorem recentreOne_flt (low : List Nat) (s : State) (m : Nat) : (recentreOne low s m).tor = s.tor ∧
    ((recentreOne low s m).flt = s.flt ∨ low.contains m = true ∧ (dramOf m s).state = 2) ∧
    tget 0 0x29E (recentreOne low s m).flt.live =
      if low.contains m = true ∧ (dramOf m s).state = 2 then sat16 (tget 0 0x29E s.flt.live) else tget 0 0x29E s.flt.live := by
  unfold recentreOne
  by_cases h2 : (dramOf m s).state = 2
  · rw [if_neg (by simp [h2])]
    by_cases hl : low.contains m = true
    · simp only [hl, if_true]
      exact ⟨rfl, .inr ⟨trivial, h2⟩, (patina_live 0x29E 0x29E _).trans (by rw [if_pos rfl, if_pos ⟨trivial, h2⟩]; rfl)⟩
    · rw [if_neg hl, if_neg fun h => hl h.1]
      exact ⟨rfl, .inl rfl, rfl⟩
  · rw [if_pos h2, if_neg fun h => h2 h.2]
    exact ⟨rfl, .inl rfl, rfl⟩

theorem dramOf_recentred (low : List Nat) (k : Nat) (ns : List Nat) : ∀ s, dramOf k (ns.foldl (recentreOne low) s) =
    if k ∈ ns ∧ (dramOf k s).state = 2 then { dramOf k s with lastRecentre := s.tor.tor } else dramOf k s := by
  induction ns with
  | nil => exact fun s => by simp
  | cons m ns ih =>
    intro s
    rw [List.foldl_cons, ih, dramOf_recentreOne, (recentreOne_flt low s m).1]
    by_cases h2 : (dramOf k s).state = 2
    · by_cases e : k = m
      · simp [e ▸ h2, e]
      · simp [h2, e]
    · simp [h2]

theorem recentred_flt {low : List Nat} (ns : List Nat) (h : ∀ m ∈ ns, low.contains m = false) : ∀ s, (ns.foldl (recentreOne low) s).flt = s.flt := by
  induction ns with
  | nil => exact fun _ => rfl
  | cons m ns ih =>
    intro s
    rw [List.foldl_cons, ih fun k hk => h k (by simp [hk])]
    exact (recentreOne_flt low s m).2.1.resolve_right fun hm => absurd (hm.1.symm.trans (h m (by simp))) (by decide)

theorem recentred_live {ns : List Nat} (hns : ns.Nodup) (n : Nat) : ∀ s, n ∈ ns → (dramOf n s).state = 2 →
    tget 0 0x29E (ns.foldl (recentreOne [n]) s).flt.live = sat16 (tget 0 0x29E s.flt.live) := by
  induction ns with
  | nil => exact fun _ h => nomatch h
  | cons m ns ih =>
    obtain ⟨hm, hns⟩ := List.nodup_cons.mp hns
    intro s hn h2
    rw [List.foldl_cons]
    by_cases e : n = m
    · subst e
      rw [recentred_flt ns (fun k hk => by simpa using fun e : k = n => hm (e ▸ hk)), (recentreOne_flt [n] s n).2.2, if_pos ⟨by simp, h2⟩]
    · rw [ih hns _ (by simpa [e] using hn) (by rw [dramOf_recentreOne, if_neg fun h => e h.1]; exact h2), (recentreOne_flt [n] s m).2.2,
        if_neg (by simp [Ne.symm e])]

theorem recentre_spec (hs : Safety.settled s) (ho : operating s = true) (hn : n < 16) (hp : periodDue recentreTicks s.tor.centred s = true) (low : List Nat) :
    ∃ t, exec (.recentre low) s = .next t ∧ t.tor.centred = s.tor.tor ∧
      (dramOf n t).lastRecentre = (if (dramOf n s).state = 2 then s.tor.tor else (dramOf n s).lastRecentre) ∧ t.sto = s.sto ∧
      (low = [] → t.flt = s.flt) ∧ (low = [n] → (dramOf n s).state = 2 → tget 0 0x29E t.flt.live = sat16 (tget 0 0x29E s.flt.live)) := by
  have hexec : exec (.recentre low) s = done s (recentreAll low { s with tor := { s.tor with centred := s.tor.tor } }) := if_pos ⟨ho, hp⟩
  have hdram := dramOf_recentred low n (List.range 16) { s with tor := { s.tor with centred := s.tor.tor } }
  have hflt := recentred_flt (low := low) (List.range 16)
  have hframe : Touches [.tor, .dram, .failed, .flt, .live] s (recentreAll low { s with tor := { s.tor with centred := s.tor.tor } }) :=
    ((frame_timer s { s.tor with centred := s.tor.tor } rfl).mono (by decide)).andThen (frame_recentreAll low _)
  have htor : (recentreAll low { s with tor := { s.tor with centred := s.tor.tor } }).tor = { s.tor with centred := s.tor.tor } :=
    frame_recentreAll low { s with tor := { s.tor with centred := s.tor.tor } } .tor (by decide)
  obtain ⟨t, hdone, ht⟩ := done_told (b := s) ((hframe .due (by decide)).trans hs) (hframe .pending (by decide))
  have htdram : t.dram = (recentreAll low { s with tor := { s.tor with centred := s.tor.tor } }).dram := ht .dram (by decide)
  have htflt : t.flt = (recentreAll low { s with tor := { s.tor with centred := s.tor.tor } }).flt := ht .flt (by decide)
  refine ⟨t, hexec.trans hdone, ?_, ?_, (ht .sto (by decide)).trans (hframe .sto (by decide)), ?_, ?_⟩
  · exact (congrArg TorS.centred (ht .tor (by decide))).trans (congrArg TorS.centred htor)
  · rw [dramOf, htdram, ← dramOf, recentreAll_eq, hdram]
    by_cases h2 : (dramOf n s).state = 2
    · rw [if_pos ⟨List.mem_range.mpr hn, h2⟩, if_pos h2]
    · rw [if_neg fun h => h2 h.2, if_neg h2]
      rfl
  · rintro rfl
    rw [htflt, recentreAll_eq, hflt fun _ _ => rfl]
  · rintro rfl h2
    rw [htflt, recentreAll_eq]
    exact recentred_live List.nodup_range n { s with tor := { s.tor with centred := s.tor.tor } } (List.mem_range.mpr hn) h2

/-! ### Speed -/

theorem speed_spec (hs : Safety.settled s) (ho : operating s = true) (hn : n < 16) (v : View) (arg : Nat) :
    (v ≠ .service → exec (.speed v n arg) s = .next s) ∧
    (2 < arg → exec (.speed .service n arg) s = .next (setDram n { dramOf n s with lastResult := 3 } s)) ∧
    (arg ≤ 2 → (dramOf n s).state = 1 → exec (.speed .service n arg) s = .next (setDram n { dramOf n s with lastResult := 1 } s)) ∧
    (arg ≤ 2 → (dramOf n s).state ≠ 1 → (((dramOf n s).state ≠ 2 ∧ (dramOf n s).state ≠ 4) ∨ noneApplied s = false) →
      exec (.speed .service n arg) s = .next (setDram n { dramOf n s with lastResult := 0x0C } s)) ∧
    (arg ≤ 2 → ((dramOf n s).state = 2 ∨ (dramOf n s).state = 4) → noneApplied s = true →
      ∃ t, exec (.speed .service n arg) s = .next t ∧ (∀ k, k < 16 → (dramOf k t).state = 1 ∧ (dramOf k t).speed = arg) ∧ t.sto = s.sto) := by
  have hn' : ¬ 16 ≤ n := by omega
  have hexec : exec (.speed .service n arg) s = done s (speedCmd n arg s) := if_pos ⟨rfl, ho⟩
  refine ⟨fun hv => if_neg fun h => hv h.1, fun ha => ?_, fun ha h1 => ?_, fun ha h1 hno => ?_, fun ha hst happ => ?_⟩
  · rw [hexec, speedCmd, if_neg hn', if_pos ha]
    exact refresh_next hs _
  · rw [hexec, speedCmd, if_neg hn', if_neg (by omega), if_pos h1]
    exact refresh_next hs _
  · rw [hexec, speedCmd, if_neg hn', if_neg (by omega), if_neg h1, if_neg]
    · exact refresh_next hs _
    · rintro ⟨h24, happ⟩
      rcases hno with ⟨h2, h4⟩ | hno
      · exact h24.elim h2 h4
      · exact absurd (happ.symm.trans hno) (by decide)
  · have h1 : (dramOf n s).state ≠ 1 := by omega
    have hframe : Touches [.dram, .failed] s (modDram n (fun d => { d with byCmd := true }) (startTraining arg s)) :=
      (frame_startTraining arg s).trans (frame_modDram n _ _)
    refine ⟨_, ?_, fun k hk => ?_, hframe .sto (by decide)⟩
    · rw [hexec, speedCmd, if_neg hn', if_neg (by omega), if_neg h1, if_pos ⟨hst, happ⟩]
      exact done_framed hframe hs
    · have hk' : dramOf k (startTraining arg s) = { dramOf k s with state := 1, speed := arg } := dramOf_all (fun _ d => { d with state := 1, speed := arg }) hk s
      rw [dramOf_modDram]
      by_cases e : k = n
      · subst e
        rw [if_pos rfl, hk']
        exact ⟨rfl, rfl⟩
      · rw [if_neg e, hk']
        exact ⟨rfl, rfl⟩

/-! ### Training -/

/-- What the training of controller `n` answered. -/
def resultOf (rs : List TrainResult) (n : Nat) : TrainResult := rs.getD n ⟨0, 0, 0, 0, false⟩

/-- A controller after training: the module it found, and empty contents. -/
def afterTraining (r : TrainResult) (d : Dram) : Dram :=
  { d with dimms := r.dimms % 4, capGiB := r.capGiB, density := r.density, lranks := r.lranks, contentLost := true,
           debt := 0, paying := false, openRow := [], nrQueue := [], acts := [], ceRows := [], replays := 0, draws := 0 }

def untrained (rs : List TrainResult) : List Nat := (List.range 16).filter (fun n => !trained (resultOf rs n))

theorem untrained_nil {rs : List TrainResult} (h : ∀ k, k < 16 → trained (resultOf rs k) = true) : untrained rs = [] :=
  List.filter_eq_nil_iff.mpr fun k hk => by simp [h k (List.mem_range.mp hk)]

theorem untrained_cons {rs : List TrainResult} {j : Nat} (hj : j < 16) (h : trained (resultOf rs j) = false) : ∃ k ks, untrained rs = k :: ks :=
  List.exists_cons_of_ne_nil (List.ne_nil_of_mem (List.mem_filter.mpr ⟨List.mem_range.mpr hj, by simp [h]⟩))

/-- A training that failed told its result, where a command had asked for it. -/
def trainingFailed (s : State) : State := allDram (fun d => { d with contentLost := true, lastResult := if d.byCmd then 2 else d.lastResult, byCmd := false }) (loseDram s)

theorem trainingDone_ready {rs : List TrainResult} (h : untrained rs = []) : trainingDone rs s = (List.range 16).foldl (fun s n => modDram n (fun d =>
    { afterTraining (resultOf rs n) d with state := 2, lastResult := if d.byCmd then 0 else d.lastResult, byCmd := false }) s) (loseDram s) := by
  unfold trainingDone
  extract_lets res bad speed after u
  have hbad : bad = [] := h
  rw [hbad]
  rfl

theorem trainingDone_lower {rs : List TrainResult} {k : Nat} {ks : List Nat} (h : untrained rs = k :: ks) (hv : 0 < (dramOf 0 s).speed) :
    trainingDone rs s = startTraining ((dramOf 0 s).speed - 1) (logState (srcDram k) ((dramOf 0 s).speed - 1) (patina 0x29D (trainingFailed s))) := by
  unfold trainingDone
  extract_lets res bad speed after u
  have hbad : bad = k :: ks := h
  rw [hbad]
  exact if_pos hv

theorem trainingDone_fails {rs : List TrainResult} {k : Nat} {ks : List Nat} (h : untrained rs = k :: ks) (hv : (dramOf 0 s).speed = 0) :
    trainingDone rs s = (k :: ks).foldl (fun s n => raiseClass 3 (srcDram n) 0x10 none 0 false s) ((List.range 16).foldl (fun s n => modDram n (fun d =>
      { afterTraining (resultOf rs n) d with state := if trained (resultOf rs n) then 2 else 4 }) s) (trainingFailed s)) := by
  unfold trainingDone
  extract_lets res bad speed after u
  have hbad : bad = k :: ks := h
  rw [hbad]
  exact if_neg (by rw [show speed = 0 from hv]; decide)

theorem frame_loseDram : Touches [.sto, .mem, .jnl] s (loseDram s) :=
  ((frame_sto s {}).mono (by decide)).andThen (frame_jnlOut { s with sto := {} } { s.jnl with storageKept := false } rfl rfl)

theorem frame_trainingFailed : Touches [.sto, .mem, .jnl, .dram, .failed] s (trainingFailed s) :=
  (frame_loseDram.mono (by decide)).andThen (frame_allDram (fun _ d => { d with contentLost := true, lastResult := if d.byCmd then 2 else d.lastResult, byCmd := false }) _)

theorem trainingFailed_mem : (trainingFailed s).sto.mem = [] :=
  frame_allDram (fun _ d => { d with contentLost := true, lastResult := if d.byCmd then 2 else d.lastResult, byCmd := false }) (loseDram s) .mem (by decide)

theorem dramOf_trainingFailed {k : Nat} (hk : k < 16) : (dramOf k (trainingFailed s)).contentLost = true :=
  congrArg Dram.contentLost (dramOf_all (fun _ d => { d with contentLost := true, lastResult := if d.byCmd then 2 else d.lastResult, byCmd := false }) hk (loseDram s))

/-! ### Failures of a channel -/

/-- A command whose events make a module checkstop due checkstops the module. -/
theorem done_stops {u b : State} {d : DueStep} {pre suf : List DueStep} (hsrc : ¬ d.src < 2 ^ 24) (hstep : d.step = 3) (hdue : u.flt.due = pre ++ d :: suf)
    (hlen : pre.length < 4096) (hp : u.pending = b.pending) : ∃ t, done b u = .next t ∧ t.flt.checkstop = true ∧ Touches settleRegs u t := by
  have hstop : (settleDue 4096 u).flt.checkstop = true := settleDue_stops hsrc hstep 4096 hdue hlen
  have htold : (settle b u).flt = (settleDue 4096 u).flt :=
    (frame_signalStates _ b .flt (by decide)).trans (frame_torFlood (settleDue 4096 u) b .flt (by decide))
  exact ⟨_, rfl, (congrArg Flt.checkstop htold).trans hstop, step_settle hp⟩

theorem moduleStep_part (src : Nat) : ¬ sourceNo 0x10 src < 2 ^ 24 := by
  unfold sourceNo
  omega

/-- The events of a list of failed channels: the module checkstops, and they stay failed. -/
theorem done_channelsFail {k : Nat} {ks : List Nat} (hd : u.flt.due = []) (hp : u.pending = b.pending) :
    ∃ t, done b ((k :: ks).foldl (fun s n => raiseClass 3 (srcDram n) 0x10 none 0 false s) u) = .next t ∧ t.flt.checkstop = true ∧
      ∀ j, (dramOf j u).state = 4 → (dramOf j t).state = 4 := by
  have hraise : ∀ n v, Touches (.keeps :: .still :: eventRegs) v (raiseClass 3 (srcDram n) 0x10 none 0 false v) := fun n v => frame_raiseClass v _ _ _ _ _ _
  have hrest : ∀ v, Touches (.keeps :: .still :: eventRegs) v (ks.foldl (fun s n => raiseClass 3 (srcDram n) 0x10 none 0 false s) v) :=
    touches_foldl (fun v n => hraise n v) ks
  rw [List.foldl_cons]
  obtain ⟨l, hl, hdue⟩ := raiseModule_due (srcDram k) 0x10 none 0 false u
  obtain ⟨more, hmore⟩ := hrest (raiseClass 3 (srcDram k) 0x10 none 0 false u) .dues (by decide)
  obtain ⟨t, hdone, hstop, ht⟩ := done_stops (b := b) (d := ⟨sourceNo 0x10 (srcDram k), 3, 0x3F⟩) (pre := l) (suf := more) (moduleStep_part _) rfl
    (by rw [← hmore, hdue, hd]; simp) (by omega)
    (((hrest _ .pending (by decide)).trans (hraise k u .pending (by decide))).trans hp)
  exact ⟨t, hdone, hstop, fun j hj => ht .failed (by decide) j (hrest _ .failed (by decide) j (hraise k u .failed (by decide) j hj))⟩

theorem trainingComplete_spec (hs : Safety.settled s) (ho : operating s = true) (hn : n < 16) (rs : List TrainResult) (h1 : (dramOf n s).state = 1) :
    ((∀ k, k < 16 → trained (resultOf rs k) = true) → ∃ t, exec (.trainingComplete rs) s = .next t ∧ t.sto.mem = [] ∧
      ∀ k, k < 16 → (dramOf k t).state = 2 ∧ (dramOf k t).contentLost = true ∧ (dramOf k t).capGiB = (resultOf rs k).capGiB) ∧
    (∀ j, j < 16 → trained (resultOf rs j) = false →
      (0 < (dramOf 0 s).speed → ∃ t, exec (.trainingComplete rs) s = .next t ∧ t.sto.mem = [] ∧
        tget 0 0x29D t.flt.live = sat16 (tget 0 0x29D s.flt.live) ∧
        ∀ k, k < 16 → (dramOf k t).state = 1 ∧ (dramOf k t).contentLost = true ∧ (dramOf k t).speed = (dramOf 0 s).speed - 1) ∧
      ((dramOf 0 s).speed = 0 → ∃ t, exec (.trainingComplete rs) s = .next t ∧ t.flt.checkstop = true ∧ (dramOf j t).state = 4)) := by
  have hexec : exec (.trainingComplete rs) s = done s (trainingDone rs s) :=
    if_pos ⟨ho, List.any_eq_true.mpr ⟨n, List.mem_range.mpr hn, by simp [h1]⟩⟩
  refine ⟨fun hall => ?_, fun j hj hbad => ⟨fun hv => ?_, fun hv => ?_⟩⟩
  · have hframe := frame_allDram (fun n d => { afterTraining (resultOf rs n) d with state := 2, lastResult := if d.byCmd then 0 else d.lastResult, byCmd := false }) (loseDram s)
    rw [hexec, trainingDone_ready (untrained_nil hall)]
    have hset := fun k hk => dramOf_all (fun n d => { afterTraining (resultOf rs n) d with state := 2, lastResult := if d.byCmd then 0 else d.lastResult, byCmd := false })
      (k := k) hk (loseDram s)
    have hlose : Touches [.sto, .mem, .jnl, .dram, .failed] s (loseDram s) := frame_loseDram.mono (by decide)
    generalize (List.range 16).foldl _ (loseDram s) = u at *
    refine ⟨u, done_framed (hlose.andThen hframe) hs, hframe .mem (by decide), fun k hk => ?_⟩
    rw [hset k hk]
    exact ⟨rfl, rfl, rfl⟩
  · obtain ⟨k, ks, hks⟩ := untrained_cons hj hbad
    rw [hexec, trainingDone_lower hks hv]
    have hfail : Touches [.sto, .mem, .jnl, .dram, .failed, .flt, .live] s (trainingFailed s) := frame_trainingFailed.mono (by decide)
    have hflt : (trainingFailed s).flt = s.flt := frame_trainingFailed .flt (by decide)
    have hmem := trainingFailed_mem (s := s)
    have hlost : ∀ m, m < 16 → (dramOf m (trainingFailed s)).contentLost = true := fun m => dramOf_trainingFailed
    generalize trainingFailed s = u at *
    have hlog : Touches [.flt, .live] u (logState (srcDram k) ((dramOf 0 s).speed - 1) (patina 0x29D u)) := (frame_patina u _).andThen (frame_logEntry _ _ _ _ _ _ _)
    have hlive : tget 0 0x29D (logState (srcDram k) ((dramOf 0 s).speed - 1) (patina 0x29D u)).flt.live = sat16 (tget 0 0x29D s.flt.live) := by
      rw [← hflt]
      exact (patina_live 0x29D 0x29D u).trans (if_pos rfl)
    generalize logState (srcDram k) ((dramOf 0 s).speed - 1) (patina 0x29D u) = v at *
    have hstart := frame_startTraining ((dramOf 0 s).speed - 1) v
    refine ⟨_, done_framed ((hfail.andThen hlog).andThen hstart) hs, ?_, ?_, fun m hm => ?_⟩
    · exact (hstart .mem (by decide)).trans ((hlog .mem (by decide)).trans hmem)
    · exact (congrArg (tget 0 0x29D) (hstart .live (by decide))).trans hlive
    · have hset : dramOf m (startTraining ((dramOf 0 s).speed - 1) v) = { dramOf m v with state := 1, speed := (dramOf 0 s).speed - 1 } :=
        dramOf_all (fun _ d => { d with state := 1, speed := (dramOf 0 s).speed - 1 }) hm v
      have hdram : v.dram = u.dram := hlog .dram (by decide)
      rw [hset]
      exact ⟨rfl, by rw [dramOf, hdram]; exact hlost m hm, rfl⟩
  · obtain ⟨k, ks, hks⟩ := untrained_cons hj hbad
    rw [hexec, trainingDone_fails hks hv]
    have hframe := frame_allDram (fun n d => { afterTraining (resultOf rs n) d with state := if trained (resultOf rs n) then 2 else 4 }) (trainingFailed s)
    have hstate := dramOf_all (fun n d => { afterTraining (resultOf rs n) d with state := if trained (resultOf rs n) then 2 else 4 }) hj (trainingFailed s)
    have hfail : Touches [.sto, .mem, .jnl, .dram, .failed] s (trainingFailed s) := frame_trainingFailed
    generalize (List.range 16).foldl _ (trainingFailed s) = u at *
    have hall := hfail.andThen hframe
    obtain ⟨t, hdone, hstop, hfailed⟩ := done_channelsFail (k := k) (ks := ks) (b := s) ((hall .due (by decide)).trans hs) (hall .pending (by decide))
    exact ⟨t, hdone, hstop, hfailed j (by rw [hstate]; exact if_neg (by simp [hbad]))⟩

/-! ### Parity alerts -/

theorem caParityAlert_spec (hs : Safety.settled s) (ho : operating s = true) (hn : n < 16) (h2 : (dramOf n s).state = 2) :
    ((dramOf n s).replays < 3 →
      exec (.caParityAlert n) s = .next (patina (srcDram n) (setDram n { dramOf n s with replays := (dramOf n s).replays + 1 } s))) ∧
    (3 ≤ (dramOf n s).replays → ∃ t, exec (.caParityAlert n) s = .next t ∧ t.flt.checkstop = true ∧ (dramOf n t).state = 4) := by
  have hexec : exec (.caParityAlert n) s = done s (parityAlert n s) := if_pos ho
  have hserves : ¬ (16 ≤ n ∨ (dramOf n s).state ≠ 2) := by simp [h2]; omega
  have hset : ∀ d, Touches [.dram, .failed] s (setDram n d s) := fun d => frame_dram s _
  constructor
  · intro hr
    rw [hexec, parityAlert, if_neg hserves, if_pos hr]
    exact done_framed (((hset _).mono (by decide) : Touches [.dram, .failed, .flt, .live] s _).andThen (frame_patina _ _)) hs
  · intro hr
    rw [hexec, parityAlert, if_neg hserves, if_neg (by omega)]
    obtain ⟨t, hdone, hstop, hfailed⟩ := done_channelsFail (k := n) (ks := []) (b := s) (((hset { dramOf n s with state := 4 }) .due (by decide)).trans hs)
      (hset { dramOf n s with state := 4 } .pending (by decide))
    exact ⟨t, hdone, hstop, hfailed n (by rw [dramOf_setDram, if_pos rfl])⟩

/-- Settles O28. One controller is written in each operation, but for training, which sets every one once. -/
theorem dramMaintenance : Obligations.DramMaintenance := by
  unfold Obligations.DramMaintenance
  intro n s hs ho hn
  refine ⟨fun h2 => ?_, patrolScrub_spec hs ho hn, recentre_spec hs ho hn, speed_spec hs ho hn, fun rs => trainingComplete_spec hs ho hn rs,
    caParityAlert_spec hs ho hn⟩
  obtain ⟨hbelow, habove⟩ := refreshTick_spec hs ho hn h2
  obtain ⟨hnone, hpays⟩ := refreshIdle_spec hs ho hn h2
  exact ⟨hbelow, habove, hnone, hpays⟩

end

end Sys2Proof.Machine
end


section
set_option Elab.async false
/-! PROOFS. O33: the control stores, their scrub and repair, and images programmed into flash. -/

namespace Sys2Proof.Machine

section
variable {s t b : State} {n : Nat}

/-! ### A first event of a source -/

theorem startGrace_event (i : Nat) (s : State) : (fltStatus i (startGrace i s)).event = (fltStatus i s).event := by
  unfold startGrace
  extract_lets st r ch
  split
  · rfl
  · split
    · rfl
    · rw [fltStatus_setFlt, if_pos rfl]

theorem raiseClass_event {src : Nat} (hp : (fltStatus src s).pending = false) (cls code : Nat) (part : Option Nat) (detail : Nat) (holds : Bool) :
    (fltStatus src (raiseClass cls src code part detail holds s)).event = code := by
  unfold raiseClass
  extract_lets st r pt counted logged told pulsed
  have htold : told = firstEvent cls src code part detail holds logged := if_neg (by rw [show st.pending = false from hp]; decide)
  have hevent : (fltStatus src told).event = code := by
    rw [htold, firstEvent, startGrace_event]
    have hreact : (reactNotify src code part detail (setFlt src (firstStatus cls code part holds (fltStatus src logged)) logged)).flt.status =
        (setFlt src (firstStatus cls code part holds (fltStatus src logged)) logged).flt.status := (frame_reactNotify _ src code part detail) .status (by decide)
    have hset : fltStatus src (setFlt src (firstStatus cls code part holds (fltStatus src logged)) logged) = firstStatus cls code part holds (fltStatus src logged) := by
      rw [fltStatus_setFlt, if_pos rfl]
    exact (congrArg (fun x : Tab FltStatus => (tget ({} : FltStatus) src x).event) hreact).trans (congrArg FltStatus.event hset)
  have hpulsed : (fltStatus src pulsed).event = code := by
    unfold pulsed
    split
    · exact (congrArg (fun x : Tab FltStatus => (tget ({} : FltStatus) src x).event) (frame_pulseErrN told .status (by decide))).trans hevent
    · exact hevent
  split <;> exact hpulsed

/-! ### The stores -/

theorem storeOf_setStore (n : Nat) (v : CsStore) (s : State) : storeOf n (setStore n v s) = v := tget_tset_same ..

theorem frame_setStore (n : Nat) (v : CsStore) (s : State) : Touches [.cs] s (setStore n v s) := frame_cs s _

theorem store_next (hs : Safety.settled s) (v : CsStore) : done s (setStore n v s) = .next (setStore n v s) := done_framed (frame_setStore n v s) hs

/-- The scrub of a store stands at its next word. -/
def storeScrubbed (n : Nat) (s : State) : State :=
  setStore n { storeOf n s with
    pos := if (storeOf n s).pos + 1 = targetWords (storeTarget n) then 0 else (storeOf n s).pos + 1,
    passes := if (storeOf n s).pos + 1 = targetWords (storeTarget n) then satAdd 30 (storeOf n s).passes 1 else (storeOf n s).passes } s

theorem exec_csScrub (ho : operating s = true) (hn : n < 30) (h1 : (storeOf n s).state = 1) (hr : (storeOf n s).repair = none) :
    exec (.csScrub n) s = done s (readStoreWord n (storeOf n s).pos (storeScrubbed n s)) := by
  have hexec : exec (.csScrub n) s = done s (scrubStore n s) := if_pos ho
  rw [hexec, scrubStore, if_neg (by simp [h1, hr]; omega)]
  rfl

theorem storeScrubbed_flips : (storeOf n (storeScrubbed n s)).flips = (storeOf n s).flips := by
  rw [storeScrubbed, storeOf_setStore]

theorem csScrub_sound (hs : Safety.settled s) (ho : operating s = true) (hn : n < 30) (h1 : (storeOf n s).state = 1) (hr : (storeOf n s).repair = none)
    (h0 : tget 0 (storeOf n s).pos (storeOf n s).flips = 0) : exec (.csScrub n) s = .next (storeScrubbed n s) := by
  rw [exec_csScrub ho hn h1 hr, readStoreWord, storeScrubbed_flips, if_pos h0]
  exact store_next hs _

theorem frame_storeScrubbed : Touches [.cs] s (storeScrubbed n s) := frame_setStore n _ s

/-- A word that is found flipped: an event of the store's source. -/
theorem done_storeEvent {u : State} {x : CsStore} {detail : Nat} (hs : Safety.settled s) (hg : Safety.graceful s)
    (hp : (fltStatus (storeSource n) s).pending = false) (hu : Touches [.cs] s u) :
    ∃ t, done s (raise (storeSource n) 0x01 none detail (setStore n x u)) = .next t ∧ storeOf n t = x ∧ (fltStatus (storeSource n) t).event = 1 ∧
      (fltStatus (storeSource n) t).pending = true ∧ t.sto = s.sto := by
  have hset : Touches [.cs] s (setStore n x u) := hu.trans (frame_setStore n x u)
  have hpend : (fltStatus (storeSource n) (setStore n x u)).pending = false := by
    have hstatus : (setStore n x u).flt.status = s.flt.status := hset .status (by decide)
    rwa [fltStatus, hstatus]
  have hevent := raiseClass_event hpend (eventClass 0x01) 0x01 none detail false
  have hpending := raise_pending (src := storeSource n) (code := 0x01) (s := setStore n x u) (part := none) (detail := detail)
  have hraise := frame_raise (setStore n x u) (code := 0x01) (by decide) (storeSource n) none detail
  rw [← raise] at hevent
  have hof : storeOf n (setStore n x u) = x := storeOf_setStore n x u
  generalize setStore n x u = w at *
  have hall : Touches (.cs :: eventRegs) s (raise (storeSource n) 0x01 none detail w) := (hset.mono (by decide)).trans (hraise.mono (by decide))
  obtain ⟨t, hdone, ht⟩ := done_told (b := s) (due_of_still (hall .still (by decide)) hs hg) (hall .pending (by decide))
  have hstatus : ∀ i, fltStatus i t = fltStatus i (raise (storeSource n) 0x01 none detail w) := fun i =>
    congrArg (fun x : Tab FltStatus => tget ({} : FltStatus) i x) (ht .status (by decide))
  have hcs : t.cs = w.cs := (ht .cs (by decide)).trans (hraise .cs (by decide))
  exact ⟨t, hdone, by rw [storeOf, hcs, ← storeOf, hof], by rw [hstatus, hevent], by rw [hstatus, hpending],
    (ht .sto (by decide)).trans (hall .sto (by decide))⟩

theorem csScrub_corrects (hs : Safety.settled s) (ho : operating s = true) (hn : n < 30) (h1 : (storeOf n s).state = 1) (hr : (storeOf n s).repair = none)
    (hm : tget 0 (storeOf n s).pos (storeOf n s).flips = 1) (hg : Safety.graceful s) (hp : (fltStatus (storeSource n) s).pending = false) :
    ∃ t, exec (.csScrub n) s = .next t ∧ tget 0 (storeOf n s).pos (storeOf n t).flips = 0 ∧ (storeOf n t).ce = satAdd 16 (storeOf n s).ce 1 ∧
      (fltStatus (storeSource n) t).event = 1 ∧ (fltStatus (storeSource n) t).pending = true ∧ t.sto = s.sto := by
  have hce : (storeOf n (storeScrubbed n s)).ce = (storeOf n s).ce := by
    rw [storeScrubbed, storeOf_setStore]
  rw [exec_csScrub ho hn h1 hr, readStoreWord, storeScrubbed_flips, hm, if_neg (by decide), if_neg (by decide)]
  obtain ⟨t, hdone, hof, hevent, hpend, hsto⟩ := done_storeEvent (n := n) (u := storeScrubbed n s) (x := { storeOf n (storeScrubbed n s) with
    flips := tdel (storeOf n s).pos (storeOf n s).flips, ce := satAdd 16 (storeOf n (storeScrubbed n s)).ce 1 }) (detail := (storeOf n s).pos) hs hg hp frame_storeScrubbed
  refine ⟨t, hdone, ?_, ?_, hevent, hpend, hsto⟩
  · rw [hof]
    exact (tget_tdel ..).trans (if_pos rfl)
  · rw [hof, hce]

theorem csScrub_repairs (hs : Safety.settled s) (ho : operating s = true) (hn : n < 30) (h1 : (storeOf n s).state = 1) (hr : (storeOf n s).repair = none)
    (hm : tget 0 (storeOf n s).pos (storeOf n s).flips = 3) (hg : Safety.graceful s) (hp : (fltStatus (storeSource n) s).pending = false) :
    ∃ t, exec (.csScrub n) s = .next t ∧ (storeOf n t).repair = some (storeOf n s).pos ∧ (storeOf n t).flips = (storeOf n s).flips ∧
      (fltStatus (storeSource n) t).event = 1 ∧ (fltStatus (storeSource n) t).pending = true ∧ t.sto = s.sto := by
  have hrepair : (storeOf n (storeScrubbed n s)).repair = none := by
    rw [storeScrubbed, storeOf_setStore]
    exact hr
  rw [exec_csScrub ho hn h1 hr, readStoreWord, storeScrubbed_flips, hm, if_neg (by decide), if_pos rfl, hrepair, if_neg (by decide)]
  obtain ⟨t, hdone, hof, hevent, hpend, hsto⟩ := done_storeEvent (n := n) (u := storeScrubbed n s) (x := { storeOf n (storeScrubbed n s) with flips := (storeOf n s).flips, repair := some (storeOf n s).pos })
    (detail := (storeOf n s).pos) hs hg hp frame_storeScrubbed
  exact ⟨t, hdone, by rw [hof], by rw [hof], hevent, hpend, hsto⟩

/-! ### Repair -/

theorem csRepairDone_spec (hs : Safety.settled s) (ho : operating s = true) {a : Nat} (hr : (storeOf n s).repair = some a) (d f : Bool) :
    ((d || f) = true → exec (.csRepairDone n d f) s = .next (setStore n { storeOf n s with
      repair := none, flips := tdel a (storeOf n s).flips, repairs := satAdd 16 (storeOf n s).repairs 1 } s)) ∧
    ((d || f) = false → ∃ t, exec (.csRepairDone n d f) s = .next t ∧ (storeOf n t).state = 2 ∧ t.flt.checkstop = true) := by
  have hexec : exec (.csRepairDone n d f) s = done s (repairDone n d f s) := if_pos ho
  rw [hexec, repairDone]
  simp only [hr]
  constructor
  · intro hserved
    rw [if_pos hserved]
    exact store_next hs _
  · intro hnone
    rw [if_neg (by simp [hnone])]
    have hset := frame_setStore n { storeOf n s with repair := none, state := 2 } s
    have hof := storeOf_setStore n { storeOf n s with repair := none, state := 2 } s
    generalize setStore n { storeOf n s with repair := none, state := 2 } s = w at *
    obtain ⟨l, hl, hdue⟩ := raiseModule_due (storeSource n) 0x10 none a false w
    have hwdue : w.flt.due = [] := (hset .due (by decide)).trans hs
    have hraise : Touches (.keeps :: .still :: eventRegs) w (raise (storeSource n) 0x10 none a w) := frame_raiseClass w _ _ _ _ _ _
    obtain ⟨t, hdone, hstop, ht⟩ := done_stops (b := s) (u := raise (storeSource n) 0x10 none a w) (d := ⟨sourceNo 0x10 (storeSource n), 3, 0x3F⟩) (pre := l) (suf := [])
      (moduleStep_part _) rfl (hdue.trans (by rw [hwdue]; rfl)) (by omega) ((hraise .pending (by decide)).trans (hset .pending (by decide)))
    have hcs : t.cs = w.cs := (ht .cs (by decide)).trans (hraise .cs (by decide))
    exact ⟨t, hdone, by rw [storeOf, hcs, ← storeOf, hof], hstop⟩

/-! ### Injection -/

theorem exec_inject_other {v : View} (hv : v ≠ .service) (k : BitVec 2) : exec (.inject v k) s = .next s := if_neg fun h => hv h.1

theorem exec_inject (ho : operating s = true) (k : BitVec 2) : exec (.inject .service k) s = done s (injectFlips k.toNat s) := if_pos ⟨rfl, ho⟩

theorem injectFlips_flips (hd : s.cs.diagStore = n) (hn : n < 30) (ha : s.cs.diagAddr < targetWords (storeTarget n)) (h1 : (storeOf n s).state = 1) (hrest : allAtRest s = true)
    {kind m : Nat} (hm : (if kind = 1 then 1 else if kind = 2 then 3 else 0) = m) (h0 : m ≠ 0) : injectFlips kind s =
      setStore n { storeOf n s with flips := tset 0 s.cs.diagAddr (tget 0 s.cs.diagAddr (storeOf n s).flips ^^^ m) (storeOf n s).flips } s := by
  subst hd
  unfold injectFlips
  dsimp only
  rw [hm, if_neg (by simp [h0, hrest, h1]; omega)]

/-! ### Images programmed into flash -/

/-- A command of the control stores ends with a result. -/
theorem done_csResult (hs : Safety.settled s) (c : Nat) (x : CtlStore) :
    ∃ t, done s (pf0Vector 3 { s with cs := { x with result := c } }) = .next t ∧ t.cs = { x with result := c } ∧ t.sto = s.sto ∧ t.cpu = s.cpu := by
  have hframe : Touches [.cs, .out, .pf0] s (pf0Vector 3 { s with cs := { x with result := c } }) := ((frame_cs s _).mono (by decide)).andThen (frame_pf0Vector _ 3)
  exact ⟨_, done_framed hframe hs, frame_pf0Vector { s with cs := { x with result := c } } 3 .cs (by decide), hframe .sto (by decide), hframe .cpu (by decide)⟩

theorem csStoreCmd_spec (hs : Safety.settled s) (copy : Nat) :
    (s.cs.busy = true → ∀ ok, ∃ t, done s (csStoreCmd copy ok s) = .next t ∧ t.cs = { s.cs with result := 0x0C } ∧ t.sto = s.sto ∧ t.cpu = s.cpu) ∧
    (∀ b : List Byte, s.cs.busy = false → b = (if s.cs.stageOffset + s.cs.stageLength ≤ svcSize then svcBytes s.cs.stageOffset s.cs.stageLength s else []) →
      (∀ r ok, csCheck none b s = .inl r → ∃ t, done s (csStoreCmd copy ok s) = .next t ∧ t.cs = { s.cs with result := r } ∧ t.sto = s.sto ∧ t.cpu = s.cpu) ∧
      (∀ i, csCheck none b s = .inr i →
        (∃ t, done s (csStoreCmd copy true s) = .next t ∧ t.cs = { s.cs with result := 0, flash := tset none (copy * 8 + natAt b 6 1) (some b) s.cs.flash } ∧
          t.sto = s.sto ∧ t.cpu = s.cpu) ∧
        (∃ t, done s (csStoreCmd copy false s) = .next t ∧ t.cs.result = 0x0E ∧ t.cs.img = s.cs.img ∧ t.cs.store = s.cs.store ∧ t.sto = s.sto ∧ t.cpu = s.cpu))) := by
  have hresult := fun c => done_csResult hs c s.cs
  refine ⟨fun hb ok => ?_, fun b hb hbytes => ⟨fun r ok hr => ?_, fun i hi => ⟨?_, ?_⟩⟩⟩
  · rw [csStoreCmd, if_pos hb]
    exact hresult 0x0C
  · rw [csStoreCmd, if_neg (by simp [hb])]
    dsimp only
    rw [← hbytes, hr]
    exact hresult r
  · rw [csStoreCmd, if_neg (by simp [hb])]
    dsimp only
    rw [← hbytes, hi]
    exact done_csResult hs 0 { s.cs with flash := tset none (copy * 8 + natAt b 6 1) (some b) s.cs.flash }
  · rw [csStoreCmd, if_neg (by simp [hb])]
    dsimp only
    rw [← hbytes, hi]
    obtain ⟨t, hdone, hcs, hsto, hcpu⟩ := done_csResult hs 0x0E { s.cs with flash := tset none (copy * 8 + natAt b 6 1) (some []) s.cs.flash }
    exact ⟨t, hdone, by rw [hcs], by rw [hcs], by rw [hcs], hsto, hcpu⟩

/-- Settles O33. A scrub reads one word; what it finds is the store's own source's event. -/
theorem controlStoresScrubAndStore : Obligations.ControlStoresScrubAndStore := by
  unfold Obligations.ControlStoresScrubAndStore
  refine ⟨fun n s hs ho hn => ⟨fun h1 hr => ⟨fun h0 hnext => ?_, fun h0 hlast => ?_, csScrub_corrects hs ho hn h1 hr, csScrub_repairs hs ho hn h1 hr⟩,
    fun a d f hr => csRepairDone_spec hs ho hr d f, fun v k hv => exec_inject_other hv k, fun hd ha h1 hrest => ⟨?_, ?_⟩, fun hrest k => ?_⟩,
    fun v c copy s b hs hadmin ho hc => ?_⟩
  · rw [csScrub_sound hs ho hn h1 hr h0, storeScrubbed, if_neg hnext, if_neg hnext]
  · rw [csScrub_sound hs ho hn h1 hr h0, storeScrubbed, if_pos hlast, if_pos hlast]
  · rw [exec_inject ho, injectFlips_flips hd hn ha h1 hrest rfl (by decide)]
    exact store_next hs _
  · rw [exec_inject ho, injectFlips_flips hd hn ha h1 hrest rfl (by decide)]
    exact store_next hs _
  · rw [exec_inject ho, injectFlips]
    rw [if_pos (.inr (.inl (by simp [hrest])))]
    exact done_framed (.refl [] s) hs
  · have hexec : ∀ ok, exec (c ok) s = done s (csStoreCmd copy ok s) := by
      rcases hc with ⟨rfl, rfl⟩ | ⟨rfl, rfl⟩ <;> exact fun ok => if_pos (by rw [hadmin, ho]; rfl)
    simp only [hexec]
    obtain ⟨hbusy, hfree⟩ := csStoreCmd_spec hs copy
    exact ⟨hbusy, hfree b⟩

end

end Sys2Proof.Machine
end


section
set_option Elab.async false
/-! PROOFS. O48: the commands of a work queue, and its doorbell. -/

namespace Sys2Proof.Machine

section
variable {s t u : State} {v : View} {b : QBlock} {q : Nat}

/-! ### Commands reach the queue where the view may name it -/

theorem exec_enable (ho : operating s = true) (h : mayQueue v b q s = true) : exec (.enable v b q) s = done s (hostFetch b q (enableQueue b q s)) :=
  if_pos (by rw [ho, h]; rfl)

theorem exec_disable (ho : operating s = true) (h : mayQueue v b q s = true) : exec (.disable v b q) s = done s (lineStart (queueCommand b q 2 s)) :=
  if_pos (by rw [ho, h]; rfl)

theorem exec_resume (ho : operating s = true) (h : mayQueue v b q s = true) : exec (.resume v b q) s = done s (resumeQueue b q s) := if_pos (by rw [ho, h]; rfl)

theorem exec_queueDoorbell (ho : operating s = true) (h : mayQueue v b q s = true) (val : Long) :
    exec (.queueDoorbell v b q val) s = done s (doorbell b q (fld val 63 48) (fld val 47 32) s) := if_pos (by rw [ho, h]; rfl)

theorem exec_queue_closed (h : mayQueue v b q s = false) : exec (.enable v b q) s = .next s ∧ exec (.disable v b q) s = .next s ∧
    exec (.resume v b q) s = .next s ∧ ∀ val, exec (.queueDoorbell v b q val) s = .next s := by
  have hno : ¬ (operating s && mayQueue v b q s) = true := by simp [h]
  exact ⟨if_neg hno, if_neg hno, if_neg hno, fun _ => if_neg hno⟩

/-! ### What they do to the queue -/

/-- What the commands of a queue write. -/
def queueRegs : List FrameReg := [.eng, .hp, .out, .pf1, .arm]

theorem queueOf_same (he : t.eng = s.eng) (hm : t.hp.mq = s.hp.mq) (c : QBlock) (r : Nat) : queueOf c r t = queueOf c r s := by
  cases c <;> simp only [queueOf, he, hm]

theorem queueOf_setQueue_same (b : QBlock) (q : Nat) (x : Queue) (s : State) : queueOf b q (setQueue b q x s) = x :=
  (queueOf_setQueue b b q q x s).trans (if_pos ⟨rfl, rfl⟩)

theorem queueOf_setQueue_other {c : QBlock} {r : Nat} (h : (c, r) ≠ (b, q)) (x : Queue) (s : State) : queueOf c r (setQueue b q x s) = queueOf c r s :=
  (queueOf_setQueue b c q r x s).trans (if_neg fun e => h (Prod.ext e.1 e.2))

theorem queue_next (hs : Safety.settled s) (x : Queue) : done s (setQueue b q x s) = .next (setQueue b q x s) := done_framed (frame_setQueue s b q x) hs

/-- Nothing is fetched for a partition's own queue, for a queue that is not ENABLED or empty, or twice. -/
theorem hostFetch_idle (h : 64 ≤ q ∨ (queueOf b q s).state ≠ 1 ∨ sqCount (queueOf b q s) = 0 ∨ (queueOf b q s).fetch.isSome = true) : hostFetch b q s = s := by
  unfold hostFetch
  extract_lets x y room ready
  have hready : (queueOf b q s).state ≠ 1 ∨ sqCount (queueOf b q s) = 0 → ready = false := by
    intro h
    unfold ready x
    by_cases hb : b = .mailbox
    · rw [if_pos hb]
      rcases h with h | h <;> simp [h]
    · rw [if_neg hb, queueReady]
      rcases h with h | h <;> simp [h]
  refine if_pos ?_
  rcases h with h | h | h | h
  · simp [h]
  · simp [hready (.inl h)]
  · simp [hready (.inr h)]
  · simp [show x.fetch.isSome = true from h]

theorem frame_hostFetch : Touches queueRegs s (hostFetch b q s) := by
  unfold hostFetch
  extract_lets x y room ready tag u w
  have hu : Touches queueRegs s u := (frame_setQueue s b q _).mono (by decide)
  exact touches_ite (fun _ => .refl _ s) fun _ => (hu.trans ((frame_hp u _).mono (by decide))).andThen (frame_emit _ _)

/-- A fetch leaves its tag in the queue. -/
theorem hostFetch_queue (c : QBlock) (r : Nat) : ∃ f, queueOf c r (hostFetch b q s) =
    if c = b ∧ r = q then { queueOf b q s with fetch := f } else queueOf c r s := by
  unfold hostFetch
  extract_lets x y room ready tag u w
  split
  · refine ⟨(queueOf b q s).fetch, ?_⟩
    split
    next e => rw [e.1, e.2]
    next => rfl
  · exact ⟨some tag, (queueOf_same (s := u) rfl rfl c r).trans (queueOf_setQueue b c q r _ s)⟩

/-! ### ENABLE -/

theorem sqCount_empty {x : Queue} (h4 : x.size ≤ 12) (ht : x.tail = 0) (hh : x.head = 0) : sqCount x = 0 := by
  unfold sqCount Queue.n
  rw [ht, hh]
  exact Nat.mod_eq_zero_of_dvd ((Nat.pow_dvd_pow 2 (show x.size ≤ 16 by omega)).trans (by decide))

theorem size_of_ringsOk (h : ringsOk b q s = true) : (queueOf b q s).size ≤ 12 := by
  unfold ringsOk at h
  simp only [Bool.and_eq_true, decide_eq_true_eq] at h
  exact h.1.2

theorem enable_spec (hs : Safety.settled s) (ho : operating s = true) (hm : mayQueue v b q s = true) (h : 64 ≤ q ∨ (queueOf b q s).state = 0) :
    exec (.enable v b q) s = .next (setQueue b q (
      if (queueOf b q s).state ≠ 0 then { queueOf b q s with lastResult := 0x0C }
      else if ringsOk b q s then { queueOf b q s with lastResult := 0, state := 1, head := 0, tail := 0, cqHead := 0, cqTail := 0, pause := 0, phase := true,
                                                      slot := none, fetch := none, held := none, behind := 0 }
      else { queueOf b q s with lastResult := 5 }) s) := by
  rw [exec_enable ho hm, enableQueue]
  by_cases h0 : (queueOf b q s).state = 0
  · by_cases hr : ringsOk b q s = true
    · rw [if_neg (not_not.mpr h0), if_neg (not_not.mpr h0), if_neg (by simp [hr]), if_pos hr,
        hostFetch_idle (.inr (.inr (.inl (by rw [queueOf_setQueue_same]; exact sqCount_empty (size_of_ringsOk hr) rfl rfl))))]
      exact queue_next hs _
    · rw [if_neg (not_not.mpr h0), if_neg (not_not.mpr h0), if_pos (by simp [hr]), if_neg hr,
        hostFetch_idle (.inr (.inl (by rw [queueOf_setQueue_same]; exact fun e => absurd (h0.symm.trans e) (by decide))))]
      exact queue_next hs _
  · rw [if_pos h0, if_pos h0, hostFetch_idle (.inl (h.resolve_right h0))]
    exact queue_next hs _

/-! ### DISABLE -/

theorem disable_refused (hs : Safety.settled s) (ho : operating s = true) (hm : mayQueue v b q s = true) (h : (queueOf b q s).state = 0 ∨ (queueOf b q s).state = 2) :
    exec (.disable v b q) s = .next (settle s (lineStart (setQueue b q { queueOf b q s with lastResult := 0x0C } s))) ∧
    (s.ch.ops = [] → exec (.disable v b q) s = .next (setQueue b q { queueOf b q s with lastResult := 0x0C } s)) := by
  have hcmd : queueCommand b q 2 s = setQueue b q { queueOf b q s with lastResult := 0x0C } s := if_neg (by omega)
  rw [exec_disable ho hm, hcmd]
  refine ⟨rfl, fun hops => ?_⟩
  have hset := frame_setQueue s b q { queueOf b q s with lastResult := 0x0C }
  have hch : (setQueue b q { queueOf b q s with lastResult := 0x0C } s).ch = s.ch := hset .ch (by decide)
  rw [lineStart_of_noOps (by rw [hch]; exact hops)]
  exact queue_next hs _

theorem disableQueue_queue (hw : (queueOf b q s).wipe = false) (c : QBlock) (r : Nat) : queueOf c r (disableQueue b q s) =
    if c = b ∧ r = q then { queueOf b q s with state := if (queueOf b q s).busy && (queueOf b q s).state != 3 then 2 else 0, held := none, slot := none, fetch := none }
    else queueOf c r s := by
  unfold disableQueue
  extract_lets x q1 u w
  have hu : u.eng = s.eng ∧ u.hp = s.hp := by
    unfold u
    split <;> exact ⟨rfl, rfl⟩
  have hw' : w.eng = s.eng ∧ w.hp = s.hp := by
    unfold w
    split
    · exact hu
    · exact hu
  rw [queueOf_setQueue, queueOf_same hw'.1 (congrArg HostPort.mq hw'.2)]
  split
  · unfold wipeIfDue
    rw [if_neg (by simp [x, hw])]
  · rfl

theorem disable_spec (hs : Safety.settled s) (ho : operating s = true) (hm : mayQueue v b q s = true) (h : (queueOf b q s).state = 1 ∨ (queueOf b q s).state = 3)
    (hw : (queueOf b q s).wipe = false) : ∃ t u, exec (.disable v b q) s = .next t ∧ t = settle s (lineStart u) ∧ (s.ch.ops = [] → t = u) ∧
      (∀ c j, (c, j) ≠ (b, q) → queueOf c j u = queueOf c j s) ∧ u.sto = s.sto ∧ u.ch = s.ch ∧
      queueOf b q u = { queueOf b q s with
        state := if (queueOf b q s).busy && (queueOf b q s).state != 3 then 2 else 0, lastResult := 0, held := none, slot := none, fetch := none } := by
  have hcmd : queueCommand b q 2 s = modQueue b q (fun v => { v with lastResult := 0 }) (disableQueue b q s) := if_pos h
  have hoff : Touches [.eng, .hp, .pf1, .arm] s (modQueue b q (fun v => { v with lastResult := 0 }) (disableQueue b q s)) :=
    (frame_disableQueue s b q).andThen (frame_setQueue _ b q _)
  have hqueue := disableQueue_queue hw
  refine ⟨_, modQueue b q (fun v => { v with lastResult := 0 }) (disableQueue b q s), by rw [exec_disable ho hm, hcmd]; rfl, rfl, fun hops => ?_, fun c j hj => ?_,
    hoff .sto (by decide), hoff .ch (by decide), ?_⟩
  · have hch : (modQueue b q (fun v => { v with lastResult := 0 }) (disableQueue b q s)).ch = s.ch := hoff .ch (by decide)
    rw [lineStart_of_noOps (by rw [hch]; exact hops)]
    exact Host.Outcome.next.inj (done_framed hoff hs)
  · rw [modQueue, queueOf_setQueue_other hj, hqueue, if_neg fun e => hj (Prod.ext e.1 e.2)]
  · rw [modQueue, queueOf_setQueue_same, hqueue, if_pos ⟨rfl, rfl⟩]

/-! ### RESUME -/

theorem resume_refused (hs : Safety.settled s) (ho : operating s = true) (hm : mayQueue v b q s = true) (h : (queueOf b q s).state ≠ 3 ∨ (q < 64 ∧ s.pf1.bme = false)) :
    exec (.resume v b q) s = .next (setQueue b q { queueOf b q s with lastResult := 0x0C } s) := by
  rw [exec_resume ho hm, resumeQueue, if_pos (h.imp_right fun h => ⟨h.1, by simp [h.2]⟩)]
  exact queue_next hs _

theorem resumeQueue_eq (h3 : (queueOf b q s).state = 3) (hh : (queueOf b q s).held = none) (hb : 64 ≤ q ∨ s.pf1.bme = true) :
    resumeQueue b q s = hostFetch b q (setQueue b q { queueOf b q s with lastResult := 0, state := 1, pause := 0, held := none } s) := by
  have hmay : ¬ ((queueOf b q s).state ≠ 3 ∨ (q < 64 ∧ (!s.pf1.bme) = true)) := by
    rcases hb with hb | hb
    · simp [h3]; omega
    · simp [h3, hb]
  rw [resumeQueue, if_neg hmay]
  simp only [hh]

theorem resume_own (hs : Safety.settled s) (ho : operating s = true) (hm : mayQueue v b q s = true) (h3 : (queueOf b q s).state = 3)
    (hh : (queueOf b q s).held = none) (hq : 64 ≤ q) :
    exec (.resume v b q) s = .next (setQueue b q { queueOf b q s with lastResult := 0, state := 1, pause := 0, held := none } s) := by
  rw [exec_resume ho hm, resumeQueue_eq h3 hh (.inl hq), hostFetch_idle (.inl hq)]
  exact queue_next hs _

theorem resume_host (hs : Safety.settled s) (ho : operating s = true) (hm : mayQueue v b q s = true) (h3 : (queueOf b q s).state = 3)
    (hh : (queueOf b q s).held = none) (hb : s.pf1.bme = true) : ∃ t, exec (.resume v b q) s = .next t ∧ (queueOf b q t).state = 1 ∧
      (queueOf b q t).lastResult = 0 ∧ (queueOf b q t).pause = 0 ∧ (∀ c j, (c, j) ≠ (b, q) → queueOf c j t = queueOf c j s) ∧ t.sto = s.sto := by
  rw [exec_resume ho hm, resumeQueue_eq h3 hh (.inr hb)]
  have hset := frame_setQueue s b q { queueOf b q s with lastResult := 0, state := 1, pause := 0, held := none }
  have hsame := queueOf_setQueue_same b q { queueOf b q s with lastResult := 0, state := 1, pause := 0, held := none } s
  have hother := fun c j (hj : (c, j) ≠ (b, q)) => queueOf_setQueue_other hj { queueOf b q s with lastResult := 0, state := 1, pause := 0, held := none } s
  generalize setQueue b q { queueOf b q s with lastResult := 0, state := 1, pause := 0, held := none } s = w at *
  have hall : Touches queueRegs s (hostFetch b q w) := (hset.mono (by decide)).trans frame_hostFetch
  obtain ⟨f, hf⟩ := hostFetch_queue (s := w) (b := b) (q := q) b q
  rw [if_pos ⟨rfl, rfl⟩, hsame] at hf
  refine ⟨_, done_framed hall hs, by rw [hf], by rw [hf], by rw [hf], fun c j hj => ?_, hall .sto (by decide)⟩
  obtain ⟨f, hf⟩ := hostFetch_queue (s := w) (b := b) (q := q) c j
  rw [hf, if_neg fun e => hj (Prod.ext e.1 e.2), hother c j hj]

/-! ### Doorbell -/

theorem pauseQueue_spec (cause : Nat) : Touches queueRegs s (pauseQueue b q cause s) ∧
    ∀ c r, queueOf c r (pauseQueue b q cause s) = if c = b ∧ r = q then { queueOf b q s with state := 3, pause := cause } else queueOf c r s := by
  unfold pauseQueue
  extract_lets w
  have hset : Touches queueRegs s w := (frame_setQueue s b q _).mono (by decide)
  have hqueue : ∀ c r, queueOf c r w = if c = b ∧ r = q then { queueOf b q s with state := 3, pause := cause } else queueOf c r s := fun c r => queueOf_setQueue b c q r _ s
  have hvec := frame_pf1Vector w (2 * q + 1)
  split
  · refine ⟨hset.andThen hvec, fun c r => (queueOf_same ?_ ?_ c r).trans (hqueue c r)⟩
    · exact hvec .eng (by decide)
    · exact congrArg HostPort.mq (hvec .hp (by decide))
  · exact ⟨hset, hqueue⟩

theorem doorbell_spec (hs : Safety.settled s) (ho : operating s = true) (hm : mayQueue v b q s = true) (val : Long)
    (h : 64 ≤ q ∨ (queueOf b q s).fetch.isSome = true) : ∃ t, exec (.queueDoorbell v b q val) s = .next t ∧
      (∀ c j, (c, j) ≠ (b, q) → queueOf c j t = queueOf c j s) ∧ t.sto = s.sto ∧
      queueOf b q t = if (queueOf b q s).state = 1 ∧ (2 ^ (queueOf b q s).size ≤ fld val 63 48 ∨ 2 ^ (queueOf b q s).size ≤ fld val 47 32)
        then { queueOf b q s with tail := fld val 63 48, cqHead := fld val 47 32, state := 3, pause := 1 }
        else { queueOf b q s with tail := fld val 63 48, cqHead := fld val 47 32 } := by
  rw [exec_queueDoorbell ho hm, doorbell]
  have hset := frame_setQueue s b q { queueOf b q s with tail := fld val 63 48, cqHead := fld val 47 32 }
  have hsame := queueOf_setQueue_same b q { queueOf b q s with tail := fld val 63 48, cqHead := fld val 47 32 } s
  have hother := fun c j (hj : (c, j) ≠ (b, q)) => queueOf_setQueue_other hj { queueOf b q s with tail := fld val 63 48, cqHead := fld val 47 32 } s
  generalize setQueue b q { queueOf b q s with tail := fld val 63 48, cqHead := fld val 47 32 } s = w at *
  dsimp only
  by_cases hbad : (queueOf b q s).state = 1 ∧ ((queueOf b q s).n ≤ fld val 63 48 ∨ (queueOf b q s).n ≤ fld val 47 32)
  · simp only [if_pos hbad]
    obtain ⟨hpause, hqueue⟩ := pauseQueue_spec (s := w) (b := b) (q := q) 1
    have hall : Touches queueRegs s (pauseQueue b q 1 w) := (hset.mono (by decide)).trans hpause
    refine ⟨_, done_framed hall hs, fun c j hj => ?_, hall .sto (by decide), ?_⟩
    · rw [hqueue, if_neg fun e => hj (Prod.ext e.1 e.2), hother c j hj]
    · rw [hqueue, if_pos ⟨rfl, rfl⟩, hsame]
      exact (if_pos hbad).symm
  · simp only [if_neg hbad]
    rw [hostFetch_idle (h.imp_right fun h => .inr (.inr (by rw [hsame]; exact h)))]
    exact ⟨w, done_framed hset hs, hother, hset .sto (by decide), hsame.trans (if_neg hbad).symm⟩

theorem hostFetch_asks (hq : q < 64) (hb : b ≠ .mailbox) (hroom : s.hp.req.length < 768) (hmaster : fnMaster s.pf1 = true) (hslot : (queueOf b q s).slot = none)
    (hfetch : (queueOf b q s).fetch = none) (hready : queueReady (queueOf b q s) = true) : (queueOf b q (hostFetch b q s)).fetch = some (s.hp.nextTag % 1024) ∧
      (hostFetch b q s).out = s.out ++ [.hostRead (s.hp.nextTag % 1024) ((qpOf q s).prBase + (queueOf b q s).head * 64) 64] := by
  unfold hostFetch
  extract_lets x y room ready tag u w
  have hroom' : room = true := by simp [room, hb]
  have hready' : ready = true := (if_neg hb).trans hready
  have hgo : ¬ (decide (64 ≤ q) || !ready || !room || x.fetch.isSome || x.slot.isSome || !fnMaster s.pf1 || decide (768 ≤ s.hp.req.length)) = true := by
    simp only [hready', hroom', hmaster, x, hfetch, hslot, not_le.mpr hq, not_le.mpr hroom, decide_false, Option.isSome_none, Bool.not_true, Bool.or_false]
    decide
  rw [if_neg hgo]
  have hu : (queueOf b q u).fetch = some tag := congrArg Queue.fetch (queueOf_setQueue_same b q { x with fetch := some tag } s)
  have huout : u.out = s.out := frame_setQueue s b q _ .out (by decide)
  refine ⟨(congrArg Queue.fetch (queueOf_same (s := u) rfl rfl b q)).trans hu, ?_⟩
  exact congrArg (· ++ [Out.hostRead tag (y.prBase + x.head * 64) 64]) huout

/-- The doorbell of a queue pair with work asks the host for the slot at HEAD. -/
theorem doorbell_fetches (hs : Safety.settled s) (ho : operating s = true) (hm : mayQueue v b q s = true) (val : Long) (hq : q < 64) (hb : b ≠ .mailbox)
    (hroom : s.hp.req.length < 768) (hmaster : fnMaster s.pf1 = true) (hslot : (queueOf b q s).slot = none) (hfetch : (queueOf b q s).fetch = none)
    (htail : fld val 63 48 < 2 ^ (queueOf b q s).size) (hhead : fld val 47 32 < 2 ^ (queueOf b q s).size)
    (hready : queueReady { queueOf b q s with tail := fld val 63 48, cqHead := fld val 47 32 } = true) :
    ∃ t, exec (.queueDoorbell v b q val) s = .next t ∧ (queueOf b q t).fetch = some (s.hp.nextTag % 1024) ∧
      t.out = s.out ++ [.hostRead (s.hp.nextTag % 1024) ((qpOf q s).prBase + (queueOf b q s).head * 64) 64] := by
  rw [exec_queueDoorbell ho hm, doorbell]
  have hgood : ¬ ((queueOf b q s).state = 1 ∧ ((queueOf b q s).n ≤ fld val 63 48 ∨ (queueOf b q s).n ≤ fld val 47 32)) := by
    unfold Queue.n
    omega
  simp only [if_neg hgood]
  have hset := frame_setQueue s b q { queueOf b q s with tail := fld val 63 48, cqHead := fld val 47 32 }
  have hsame := queueOf_setQueue_same b q { queueOf b q s with tail := fld val 63 48, cqHead := fld val 47 32 } s
  have hhp : (setQueue b q { queueOf b q s with tail := fld val 63 48, cqHead := fld val 47 32 } s).hp = s.hp := by
    cases b with
    | mailbox => exact absurd rfl hb
    | rasp => rfl
    | intaglio => rfl
  generalize setQueue b q { queueOf b q s with tail := fld val 63 48, cqHead := fld val 47 32 } s = w at *
  have hpf1 : w.pf1 = s.pf1 := hset .pf1 (by decide)
  have hout : w.out = s.out := hset .out (by decide)
  obtain ⟨htag, hask⟩ := hostFetch_asks (s := w) hq hb (by rw [hhp]; exact hroom) (by rw [hpf1]; exact hmaster) (by rw [hsame]; exact hslot) (by rw [hsame]; exact hfetch)
    (by rw [hsame]; exact hready)
  refine ⟨_, done_framed ((hset.mono (by decide)).trans frame_hostFetch) hs, by rw [htag, hhp], ?_⟩
  rw [hask, hout, hsame, qpOf, hhp]
  rfl

/-- Settles O48. Each command writes its own queue; what a queue pair fetches is the host's to answer. -/
theorem queueCommandsMoveTheQueue : Obligations.QueueCommandsMoveTheQueue := by
  unfold Obligations.QueueCommandsMoveTheQueue
  intro v b q s hs ho
  refine ⟨exec_queue_closed, fun hm => ⟨enable_spec hs ho hm, disable_refused hs ho hm, disable_spec hs ho hm, fun h => resume_refused hs ho hm (.inl h),
    resume_own hs ho hm, fun _ hq hb => resume_refused hs ho hm (.inr ⟨hq, hb⟩), fun h3 hh _ hb => resume_host hs ho hm h3 hh hb, doorbell_spec hs ho hm⟩,
    fun val hm hq hb hroom hmaster hslot hfetch htail hhead hready => doorbell_fetches hs ho hm val hq hb hroom hmaster hslot hfetch htail hhead hready⟩

end

end Sys2Proof.Machine
end


section
set_option Elab.async false
/-! PROOFS. O51: attestation reports. -/

namespace Sys2Proof.Machine

section
variable {s t u : State}

/-! ### The service processor's memory -/

theorem tget_storeList {α : Type} [DecidableEq α] (d : α) (f : Byte → Nat → α) (off : Nat) (data : List Byte) (k : Nat) : ∀ (m : Nat) (t : Tab α),
    tget d k (((List.range' m data.length).zip data).foldl (fun t e => tset d (off + e.1) (f e.2 e.1) t) t) =
      if off + m ≤ k ∧ k < off + m + data.length then f (data.getD (k - off - m) 0) (k - off) else tget d k t := by
  induction data with
  | nil => exact fun m t => (if_neg (by simp)).symm
  | cons x data ih =>
    intro m t
    rw [List.length_cons, List.range'_succ, List.zip_cons_cons, List.foldl_cons, ih]
    by_cases hin : off + (m + 1) ≤ k ∧ k < off + (m + 1) + data.length
    · rw [if_pos hin, if_pos (by omega), show k - off - m = (k - off - (m + 1)) + 1 by omega, List.getD_cons_succ]
    · rw [if_neg hin, tget_tset]
      by_cases e : k = off + m
      · subst e
        rw [if_pos rfl, if_pos (by omega), show off + m - off - m = 0 by omega, List.getD_cons_zero, Nat.add_sub_cancel_left]
      · rw [if_neg e, if_neg (by omega)]

theorem svcWrite_byte (off : Nat) (data : List Byte) (k : Nat) (s : State) : tget 0 k (svcWrite off data s).svc =
    if off ≤ k ∧ k < off + data.length then data.getD (k - off) 0 ^^^ svcMask k s else tget 0 k s.svc := by
  have h := tget_storeList 0 (fun x i => x ^^^ svcMask (off + i) s) off data k 0 s.svc
  rw [← List.range_eq_range'] at h
  refine h.trans ?_
  simp only [Nat.add_zero, Nat.sub_zero]
  split
  next hk => rw [show off + (k - off) = k by omega]
  next => rfl

/-- What is written into the service processor's memory is read there. -/
theorem svcBytes_svcWrite (off : Nat) (data : List Byte) {s t : State} (hsvc : t.svc = (svcWrite off data s).svc) (htr : t.tr.svcKey = s.tr.svcKey) :
    svcBytes off data.length t = data := by
  refine List.ext_getElem (by simp [svcBytes]) fun i h _ => ?_
  have hi : i < data.length := by simpa [svcBytes] using h
  have hmask : svcMask (off + i) t = svcMask (off + i) s := by simp only [svcMask, htr]
  simp only [svcBytes, List.getElem_map, List.getElem_range, hsvc, hmask, svcWrite_byte, Nat.le_add_right, Nat.add_lt_add_iff_left, hi, and_self, if_true,
    Nat.add_sub_cancel_left, List.getD_eq_getElem _ _ hi]
  rw [BitVec.xor_assoc, BitVec.xor_self, BitVec.xor_zero]

theorem length_fixLen (d : Byte) (n : Nat) (l : List Byte) : (fixLen d n l).length = n := by
  simp only [fixLen, List.length_append, List.length_take, List.length_replicate]
  omega

theorem length_report (scope : Nat) (part : Option Nat) (nonce : List Byte) (s : State) : (report scope part nonce s).length = reportLen := by
  unfold report
  extract_lets d dbg body
  have hbody : body.length = 384 := by
    simp only [body, List.length_append, length_beBytes, List.length_replicate, length_fixLen, meas48]
  clear_value body
  rw [List.length_append, List.length_append, List.length_append, hbody, length_fixLen, length_fixLen]
  rfl

/-! ### Reports are asked for -/

theorem trust_next (hs : Safety.settled s) (x : Trust) : done s { s with tr := x } = .next { s with tr := x } := done_framed (frame_tr s x) hs

theorem attCommand_eq (part : Option Nat) (off : Nat) (s : State) : attCommand part off s = { s with tr :=
    (if s.tr.attBusy || part.any (fun p => pstateOf p s == PState.undefined) then { s.tr with attResult := 0x0C }
    else if attAreaOk off then { s.tr with attBusy := true, attResult := 0, attJob := some { part := part, off := off } } else { s.tr with attResult := 3 }) } := by
  unfold attCommand
  split
  · rfl
  · cases attAreaOk off <;> rfl

theorem exec_report {c : Instr} {v : View} {part : Option Nat} {off : Nat} (hs : Safety.settled s) (ho : operating s = true)
    (hc : exec c s = if admin v s && operating s then done s (attCommand part off s) else .next s) : exec c s = .next (if admin v s = false then s
      else { s with tr := if s.tr.attBusy || part.any (fun p => pstateOf p s == .undefined) then { s.tr with attResult := 0x0C }
        else if attAreaOk off then { s.tr with attBusy := true, attResult := 0, attJob := some { part := part, off := off } } else { s.tr with attResult := 3 } }) := by
  rw [hc, ho, attCommand_eq]
  cases hv : admin v s with
  | false => rfl
  | true => exact trust_next hs _

theorem setPatt_next {n : Nat} (hs : Safety.settled s) (x : PAtt) : done s (setPatt n x s) = .next (setPatt n x s) := trust_next hs _

theorem exec_trPatt_spec (hs : Safety.settled s) (ho : operating s = true) (v : View) (n : Nat) (val : Long) :
    exec (.trPatt v n val) s = .next (if (admin v s || v == .part n) = false ∨ 48 ≤ n then s
      else setPatt n (
        if (pattOf n s).busy || fld val 63 60 != 1 || pstateOf n s == .undefined then { pattOf n s with addr := fld val 51 6 * 64, result := 0x0C }
        else if partMapped n (fld val 51 6 * 64) reportLen s then { pattOf n s with busy := true, result := 0, addr := fld val 51 6 * 64, area := fld val 51 6 * 64 }
        else { pattOf n s with addr := fld val 51 6 * 64, result := 3 }) s) := by
  have hexec : exec (.trPatt v n val) s = if operating s && (admin v s || v == .part n) then done s (pattWrite n val s) else .next s := rfl
  rw [hexec, ho, Bool.true_and]
  by_cases hv : (admin v s || v == .part n) = true
  · rw [if_pos hv]
    by_cases hn : 48 ≤ n
    · rw [if_pos (.inr hn), pattWrite, if_pos hn]
      exact done_framed (.refl [] s) hs
    · rw [if_neg (by simp [hv, hn]), pattWrite, if_neg hn]
      dsimp only
      split
      · exact setPatt_next hs _
      · cases hm : partMapped n (fld val 51 6 * 64) reportLen s with
        | false => exact setPatt_next hs _
        | true => exact setPatt_next hs _
  · rw [if_neg hv, if_pos (.inl (by simpa using hv))]

/-! ### They complete -/

theorem exec_attestation_module (ho : operating s = true) : exec (.attestationComplete none) s = done s (attComplete s) := if_neg (by simp [ho])

theorem exec_attestation_part (ho : operating s = true) (n : Nat) : exec (.attestationComplete (some n)) s = done s (pattComplete n s) := if_neg (by simp [ho])

theorem moduleReport_completes (hs : Safety.settled s) (ho : operating s = true) {j : AttJob} (hj : s.tr.attJob = some j)
    (hp : ∀ p, j.part = some p → pstateOf p s ≠ .undefined) : ∃ t, exec (.attestationComplete none) s = .next t ∧
      t.tr.attBusy = false ∧ t.tr.attResult = 0 ∧ t.tr.attJob = none ∧ svcBytes j.off reportLen t = report (if j.part.isSome then 1 else 0) j.part (svcBytes j.off 32 s) s ∧
      (∀ a, a < j.off ∨ j.off + reportLen ≤ a → tget 0 a t.svc = tget 0 a s.svc) ∧ t.sto = s.sto ∧ t.flt = s.flt := by
  have hdef : ¬ j.part.any (fun p => pstateOf p { s with tr := { s.tr with attBusy := false, attJob := none } } == .undefined) = true := by
    cases hpart : j.part with
    | none => exact Bool.false_ne_true
    | some p => exact fun e => hp p hpart (beq_iff_eq.mp e)
  have hcomplete : attComplete s = pf0Vector 4 (attResult 0 (svcWrite j.off (report (if j.part.isSome then 1 else 0) j.part (svcBytes j.off 32 s) s)
      { s with tr := { s.tr with attBusy := false, attJob := none } })) := by
    unfold attComplete
    rw [hj]
    exact if_neg hdef
  have hlen := length_report (if j.part.isSome then 1 else 0) j.part (svcBytes j.off 32 s) s
  rw [exec_attestation_module ho, hcomplete]
  generalize report (if j.part.isSome then 1 else 0) j.part (svcBytes j.off 32 s) s = r at *
  have hall : Touches [.tr, .svc, .out, .pf0] s (pf0Vector 4 (attResult 0 (svcWrite j.off r { s with tr := { s.tr with attBusy := false, attJob := none } }))) :=
    (((frame_tr s _).mono (by decide)).andThen (frame_svc _ _)).andThen (frame_tr _ _) |>.andThen (frame_pf0Vector _ 4)
  have hvec := frame_pf0Vector (attResult 0 (svcWrite j.off r { s with tr := { s.tr with attBusy := false, attJob := none } })) 4
  have htr : (pf0Vector 4 (attResult 0 (svcWrite j.off r { s with tr := { s.tr with attBusy := false, attJob := none } }))).tr =
      { s.tr with attBusy := false, attJob := none, attResult := 0 } := hvec .tr (by decide)
  have hsvc : (pf0Vector 4 (attResult 0 (svcWrite j.off r { s with tr := { s.tr with attBusy := false, attJob := none } }))).svc =
      (svcWrite j.off r { s with tr := { s.tr with attBusy := false, attJob := none } }).svc := hvec .svc (by decide)
  refine ⟨_, done_framed hall hs, by rw [htr], by rw [htr], by rw [htr], ?_, fun a ha => ?_, hall .sto (by decide), hall .flt (by decide)⟩
  · rw [← hlen]
    exact svcBytes_svcWrite j.off r hsvc (by rw [htr])
  · rw [hsvc, svcWrite_byte, if_neg (by omega)]

theorem pattComplete_refused {n : Nat} (hs : Safety.settled s) (ho : operating s = true) (hb : (pattOf n s).busy = true) (hw : (pattOf n s).wrote = false)
    (hm : partMapped n (pattOf n s).area reportLen s = false) :
    exec (.attestationComplete (some n)) s = .next (setPatt n { pattOf n s with busy := false, result := 3, area := 0 } s) := by
  rw [exec_attestation_part ho, pattComplete]
  simp only [hb, hw, hm, Bool.not_true, Bool.not_false, Bool.false_eq_true, if_false, if_true]
  exact setPatt_next hs _

theorem pattComplete_stores {n : Nat} (hs : Safety.settled s) (ho : operating s = true) (hb : (pattOf n s).busy = true) (hw : (pattOf n s).wrote = false)
    (hm : partMapped n (pattOf n s).area reportLen s = true) (hmiss : partMissing .service n (pattOf n s).area 32 s = []) (hg : Safety.graceful s)
    (hu : u = partWrite .service n (pattOf n s).area (report 1 (some n) (partRead .service n (pattOf n s).area 32 s).1 s) (partSeen .service n (pattOf n s).area 32 s)) :
    ∃ t, exec (.attestationComplete (some n)) s = .next t ∧ t.sto = u.sto ∧
      pattOf n t = (if agentPending .service u then { pattOf n s with wrote := true } else { pattOf n s with busy := false, result := 0, area := 0 }) := by
  have hframe : Touches trafficRegs s u := hu ▸ traffic_partSeen.trans traffic_partWrite
  have hcomplete : pattComplete n s = setPatt n (if agentPending .service u then { pattOf n s with wrote := true }
      else { pattOf n s with busy := false, result := 0, area := 0 }) u := by
    unfold pattComplete
    simp only [hb, hw, hm, hmiss, Bool.not_true, Bool.false_eq_true, if_false, List.isEmpty_nil, ← hu]
    split <;> rfl
  rw [exec_attestation_part ho, hcomplete]
  generalize (if agentPending .service u then { pattOf n s with wrote := true } else { pattOf n s with busy := false, result := 0, area := 0 }) = x
  have hall : Touches (.tr :: trafficRegs) s (setPatt n x u) := (hframe.mono (by decide)).trans ((frame_tr u _).mono (by decide))
  obtain ⟨t, hdone, ht⟩ := done_told (b := s) (due_of_still (hall .still (by decide)) hs hg) (hall .pending (by decide))
  have htr : t.tr = (setPatt n x u).tr := ht .tr (by decide)
  refine ⟨t, hdone, ht .sto (by decide), ?_⟩
  rw [pattOf, htr]
  exact tget_tset_same ..

theorem pattComplete_stored {n : Nat} (hs : Safety.settled s) (ho : operating s = true) (hb : (pattOf n s).busy = true) (hw : (pattOf n s).wrote = true)
    (hp : agentPending .service s = false) :
    exec (.attestationComplete (some n)) s = .next (setPatt n { pattOf n s with busy := false, result := 0, area := 0, wrote := false } s) := by
  rw [exec_attestation_part ho, pattComplete]
  simp only [hb, hw, hp, Bool.not_true, Bool.false_eq_true, if_false, if_true]
  exact setPatt_next hs _

/-- Settles O51. The report is written over the nonce, which has been read before it. -/
theorem reportsAreFormedOverTheNonce : Obligations.ReportsAreFormedOverTheNonce := by
  unfold Obligations.ReportsAreFormedOverTheNonce
  intro s hs ho
  refine ⟨fun v off => ?_, fun v p off => ?_, exec_trPatt_spec hs ho, fun hj => ?_, fun j hj hp => moduleReport_completes hs ho hj hp, fun n hb => ?_,
    fun n hb hw => ⟨pattComplete_refused hs ho hb hw, fun u hm hmiss hg hu => pattComplete_stores hs ho hb hw hm hmiss hg hu⟩,
    fun n hb hw hp => pattComplete_stored hs ho hb hw hp⟩
  · have h := exec_report (c := .moduleReport v off) (v := v) (part := none) (off := off) hs ho rfl
    simpa only [Option.any_none, Bool.or_false] using h
  · exact exec_report (c := .partitionReport v p off) (part := some p) hs ho rfl
  · rw [exec_attestation_module ho, attComplete, hj]
    exact done_framed (.refl [] s) hs
  · rw [exec_attestation_part ho, pattComplete]
    simp only [hb, Bool.not_false, if_true]
    exact done_framed (.refl [] s) hs

end

end Sys2Proof.Machine
end


section
set_option Elab.async false
/-! PROOFS. O54: what comes back for a request to host memory. -/

namespace Sys2Proof.Machine

section
variable {s t u : State} {b : QBlock} {q tag : Nat}

/-! ### Outstanding requests -/

theorem setQueue_req (b : QBlock) (q : Nat) (x : Queue) (s : State) : (setQueue b q x s).hp.req = s.hp.req := by cases b <;> rfl

theorem pauseQueue_req (b : QBlock) (q cause : Nat) (s : State) : (pauseQueue b q cause s).hp.req = s.hp.req := by
  unfold pauseQueue
  extract_lets w
  have hw : w.hp.req = s.hp.req := setQueue_req ..
  split
  · exact (congrArg HostPort.req (frame_pf1Vector w (2 * q + 1) .hp (by decide))).trans hw
  · exact hw

theorem frame_dropReq : Touches [.hp] s (dropReq tag s) := frame_hp s _

theorem req_dropReq (j : Nat) : tget none j (dropReq tag s).hp.req = if j = tag then none else tget none j s.hp.req := tget_tdel ..

theorem queueOf_dropReq (c : QBlock) (r : Nat) : queueOf c r (dropReq tag s) = queueOf c r s := queueOf_same rfl rfl c r

theorem qpBlock_dropReq (r : Nat) : qpBlock r (dropReq tag s) = qpBlock r s := rfl

/-! ### Completions -/

theorem exec_hostCompletion (h : hostUp s = true) (data : List Byte) (ep : Bool) : exec (.hostCompletion tag data ep) s = done s (hostCompletion tag data ep s) :=
  if_pos h

theorem hostCompletion_late (hs : Safety.settled s) (h : hostUp s = true) (data : List Byte) (ep : Bool) (hr : tget none tag s.hp.req = none) :
    exec (.hostCompletion tag data ep) s = .next { s with pf1 := { s.pf1 with late := satAdd 16 s.pf1.late 1 } } := by
  rw [exec_hostCompletion h, hostCompletion, hr]
  exact done_framed (frame_pf1 s _) hs

theorem hostCompletion_gone (hs : Safety.settled s) (h : hostUp s = true) (data : List Byte) (ep : Bool) {x : HostReq} (hr : tget none tag s.hp.req = some x)
    (hno : ∀ b, qpBlock x.qp s = some b → (queueOf b x.qp s).fetch ≠ some tag) :
    exec (.hostCompletion tag data ep) s = .next { s with hp := { s.hp with req := tdel tag s.hp.req } } := by
  have hdrop : done s (dropReq tag s) = .next (dropReq tag s) := done_framed frame_dropReq hs
  rw [exec_hostCompletion h, hostCompletion, hr]
  dsimp only
  rw [qpBlock_dropReq]
  cases hb : qpBlock x.qp s with
  | none => exact hdrop
  | some b =>
    dsimp only
    rw [queueOf_dropReq, if_pos (hno b hb)]
    exact hdrop

theorem hostCompletion_arrives (hs : Safety.settled s) (h : hostUp s = true) (data : List Byte) (ep : Bool) {x : HostReq} (hr : tget none tag s.hp.req = some x)
    (hb : qpBlock x.qp s = some b) (hf : (queueOf b x.qp s).fetch = some tag) :
    ∃ t, exec (.hostCompletion tag data ep) s = .next t ∧ tget none tag t.hp.req = none ∧
      queueOf b x.qp t = (if ep then { queueOf b x.qp s with fetch := none, state := 3, pause := 2 }
        else { queueOf b x.qp s with fetch := none, slot := some (bytesAt data 0 64) }) ∧
      (∀ j, j ≠ tag → tget none j t.hp.req = tget none j s.hp.req) ∧ t.sto = s.sto ∧ t.flt = s.flt := by
  rw [exec_hostCompletion h, hostCompletion, hr]
  dsimp only
  rw [qpBlock_dropReq, hb]
  dsimp only
  rw [queueOf_dropReq, if_neg (not_not.mpr hf)]
  have hset : Touches queueRegs s (setQueue b x.qp { queueOf b x.qp s with fetch := none } (dropReq tag s)) :=
    (frame_dropReq.mono (by decide)).andThen (frame_setQueue _ b x.qp _)
  have hsame := queueOf_setQueue_same b x.qp { queueOf b x.qp s with fetch := none } (dropReq tag s)
  have hreq := setQueue_req b x.qp { queueOf b x.qp s with fetch := none } (dropReq tag s)
  generalize setQueue b x.qp { queueOf b x.qp s with fetch := none } (dropReq tag s) = w at *
  have hgone : ∀ v : State, v.hp.req = w.hp.req → tget none tag v.hp.req = none ∧ ∀ j, j ≠ tag → tget none j v.hp.req = tget none j s.hp.req := fun v hv =>
    ⟨by rw [hv, hreq, req_dropReq, if_pos rfl], fun j hj => by rw [hv, hreq, req_dropReq, if_neg hj]⟩
  cases ep with
  | true =>
    obtain ⟨hpause, hqueue⟩ := pauseQueue_spec (s := w) (b := b) (q := x.qp) 2
    have hall := hset.trans hpause
    obtain ⟨hnone, hother⟩ := hgone _ (pauseQueue_req b x.qp 2 w)
    have hpaused : queueOf b x.qp (pauseQueue b x.qp 2 w) = { queueOf b x.qp s with fetch := none, state := 3, pause := 2 } := by
      rw [hqueue, if_pos ⟨rfl, rfl⟩, hsame]
    exact ⟨_, done_framed hall hs, hnone, hpaused, hother, hall .sto (by decide), hall .flt (by decide)⟩
  | false =>
    have hall : Touches queueRegs s (modQueue b x.qp (fun v => { v with slot := some (bytesAt data 0 64) }) w) := hset.andThen (frame_setQueue w b x.qp _)
    obtain ⟨hnone, hother⟩ := hgone _ (setQueue_req b x.qp { queueOf b x.qp w with slot := some (bytesAt data 0 64) } w)
    have hslot : queueOf b x.qp (modQueue b x.qp (fun v => { v with slot := some (bytesAt data 0 64) }) w) =
        { queueOf b x.qp s with fetch := none, slot := some (bytesAt data 0 64) } := by
      rw [modQueue, queueOf_setQueue_same, hsame]
    exact ⟨_, done_framed hall hs, hnone, hslot, hother, hall .sto (by decide), hall .flt (by decide)⟩

/-! ### Timeouts -/

theorem completionTimeout_none (hr : tget none tag s.hp.req = none) : exec (.completionTimeout tag) s = .next s := by
  show execCompletionTimeout tag s = _
  unfold execCompletionTimeout
  rw [hr]

theorem completionTimeout_early {x : HostReq} (hr : tget none tag s.hp.req = some x) (ht : s.tor.tor < x.since + 200000000) :
    exec (.completionTimeout tag) s = .next s := by
  have hno : ¬ (operating s && decide (x.since + 50 * ticksMs ≤ s.tor.tor)) = true := by
    simp only [Bool.and_eq_true, decide_eq_true_eq, not_and, not_le]
    exact fun _ => ht
  show execCompletionTimeout tag s = _
  unfold execCompletionTimeout
  rw [hr]
  exact if_neg hno

/-- Where the queue still waits for the request, it pauses. -/
def requestLost (tag q : Nat) (s : State) : State :=
  match qpBlock q s with
  | none => s
  | some b => if (queueOf b q s).fetch = some tag then pauseQueue b q 2 (modQueue b q (fun v => { v with fetch := none }) s) else s

theorem frame_requestLost : Touches queueRegs s (requestLost tag q s) := by
  unfold requestLost
  split
  · exact .refl _ s
  · rename_i b _
    exact touches_ite (fun _ => ((frame_setQueue s b q _).mono (by decide)).trans (pauseQueue_spec 2).1) fun _ => .refl _ s

theorem requestLost_req : (requestLost tag q s).hp.req = s.hp.req := by
  unfold requestLost
  split
  · rfl
  · split
    · exact (pauseQueue_req ..).trans (setQueue_req ..)
    · rfl

theorem requestLost_queue (hb : qpBlock q s = some b) (hf : (queueOf b q s).fetch = some tag) :
    queueOf b q (requestLost tag q s) = { queueOf b q s with fetch := none, state := 3, pause := 2 } := by
  unfold requestLost
  rw [hb]
  dsimp only
  rw [if_pos hf, (pauseQueue_spec 2).2, if_pos ⟨rfl, rfl⟩, modQueue, queueOf_setQueue_same]

theorem completionTimeout_spec (hs : Safety.settled s) (ho : operating s = true) {x : HostReq} (hr : tget none tag s.hp.req = some x)
    (ht : x.since + 200000000 ≤ s.tor.tor) (hg : Safety.graceful s) :
    ∃ t, exec (.completionTimeout tag) s = .next t ∧ tget none tag t.hp.req = none ∧ (fltStatus srcHost t).pending = true ∧ t.sto = s.sto ∧
      (∀ j, j ≠ tag → tget none j t.hp.req = tget none j s.hp.req) ∧
      (∀ b, qpBlock x.qp s = some b → (queueOf b x.qp s).fetch = some tag →
        queueOf b x.qp t = { queueOf b x.qp s with fetch := none, state := 3, pause := 2 }) := by
  have hexec : exec (.completionTimeout tag) s = done s (requestLost tag x.qp (raise srcHost 0x0E none tag (dropReq tag s))) := by
    have hgo : (operating s && decide (x.since + 50 * ticksMs ≤ s.tor.tor)) = true := by
      rw [ho, Bool.true_and, decide_eq_true_eq]
      exact ht
    show execCompletionTimeout tag s = _
    unfold execCompletionTimeout completionTimeout
    rw [hr]
    exact if_pos hgo
  have hraise := frame_raise (dropReq tag s) (code := 0x0E) (by decide) srcHost none tag
  have hpend := raise_pending srcHost 0x0E none tag (dropReq tag s)
  rw [hexec]
  generalize raise srcHost 0x0E none tag (dropReq tag s) = w at *
  have hw : Touches (.hp :: eventRegs) s w := (frame_dropReq.mono (by decide)).trans (hraise.mono (by decide))
  have hhp : w.hp = (dropReq tag s).hp := hraise .hp (by decide)
  have heng : w.eng = s.eng := hw .eng (by decide)
  have hlost := frame_requestLost (s := w) (tag := tag) (q := x.qp)
  have hall : Touches (.hp :: .eng :: .arm :: .pf1 :: eventRegs) s (requestLost tag x.qp w) := (hw.mono (by decide)).trans (hlost.mono (by decide))
  obtain ⟨t, hdone, htold⟩ := done_sameTime (b := s) (due_of_still (hall .still (by decide)) hs hg) (hall .pending (by decide)) (hall .tor (by decide))
  have hthp : t.hp = (requestLost tag x.qp w).hp := htold .hp (by decide)
  have hreq : t.hp.req = (dropReq tag s).hp.req := by rw [hthp, requestLost_req, hhp]
  refine ⟨t, hdone, by rw [hreq, req_dropReq, if_pos rfl], ?_, (htold .sto (by decide)).trans (hall .sto (by decide)),
    fun j hj => by rw [hreq, req_dropReq, if_neg hj], fun b hb hf => ?_⟩
  · have hstatus : t.flt = w.flt := (htold .flt (by decide)).trans (hlost .flt (by decide))
    rw [fltStatus, hstatus]
    exact hpend
  · have hqp : qpBlock x.qp w = some b := by rw [qpBlock, qpOf, hhp]; exact hb
    have hqueue : queueOf b x.qp w = queueOf b x.qp s := queueOf_same heng (congrArg HostPort.mq hhp :) b x.qp
    rw [queueOf_same (htold .eng (by decide)) (congrArg HostPort.mq hthp), requestLost_queue hqp (by rw [hqueue]; exact hf), hqueue]

/-- Settles O54. -/
theorem hostCompletionsServeQueues : Obligations.HostCompletionsServeQueues := by
  unfold Obligations.HostCompletionsServeQueues
  intro s tag hs
  exact ⟨fun h data ep => ⟨hostCompletion_late hs h data ep, fun x b hr hb hf => hostCompletion_arrives hs h data ep hr hb hf,
    fun x hr hno => hostCompletion_gone hs h data ep hr hno⟩, fun ho => ⟨completionTimeout_none, fun x hr => ⟨completionTimeout_early hr,
    completionTimeout_spec hs ho hr⟩⟩⟩

end

end Sys2Proof.Machine
end


section
set_option Elab.async false
/-! PROOFS. Reads of agents where no cache holds anything that storage does not: storage is not written. -/

namespace Sys2Proof.Machine

section
variable {s t u : State}

/-- No cache holds data that storage does not. -/
structure Clean (s : State) : Prop where
  dirty : s.cpu.dirty = []
  held : ∀ l, (coreOf l s).held1 = [] ∧ (coreOf l s).held2 = []

/-- From `s` to `t` storage was not written, and no cache holds data that storage does not. -/
structure Unwritten (s t : State) : Prop where
  clean : Clean t
  mem : t.sto.mem = s.sto.mem
  poison : t.sto.poison = s.sto.poison

theorem Unwritten.refl (h : Clean s) : Unwritten s s := ⟨h, rfl, rfl⟩

theorem Unwritten.trans (h : Unwritten s t) (k : Unwritten t u) : Unwritten s u := ⟨k.clean, k.mem.trans h.mem, k.poison.trans h.poison⟩

theorem unwritten_of_cpu (h : Clean s) (hm : t.sto.mem = s.sto.mem) (hp : t.sto.poison = s.sto.poison) (hc : t.cpu = s.cpu) : Unwritten s t :=
  ⟨⟨by rw [hc]; exact h.dirty, fun l => by rw [coreOf, hc]; exact h.held l⟩, hm, hp⟩

theorem unwritten_foldl {α : Type} {f : State → α → State} (hf : ∀ u x, Clean u → Unwritten u (f u x)) (xs : List α) : ∀ {s : State}, Clean s → Unwritten s (xs.foldl f s) := by
  induction xs with
  | nil => exact fun h => .refl h
  | cons x xs ih => exact fun h => (hf _ x h).trans (ih (hf _ x h).clean)

theorem unwritten_modCore {f : Core → Core} (h : Clean s) (l : Nat) (hf : ∀ c, (f c).held1 = c.held1 ∧ (f c).held2 = c.held2) : Unwritten s (modCore l f s) := by
  refine ⟨⟨h.dirty, fun k => ?_⟩, rfl, rfl⟩
  rw [coreOf_modCore]
  split
  · rw [(hf _).1, (hf _).2]
    exact h.held l
  · exact h.held k

theorem held_snoopOff (line : Nat) (c : Core) : (snoopOff line c).held1 = c.held1 ∧ (snoopOff line c).held2 = c.held2 := by
  unfold snoopOff
  split <;> exact ⟨rfl, rfl⟩

theorem held_dropFromCore (line : Nat) (c : Core) : (dropFromCore line c).held1 = c.held1 ∧ (dropFromCore line c).held2 = c.held2 := by
  have hlose : (loseResv line c).held1 = c.held1 ∧ (loseResv line c).held2 = c.held2 := by
    unfold loseResv
    split <;> exact ⟨rfl, rfl⟩
  unfold dropFromCore
  dsimp only
  split
  · exact hlose
  · exact ⟨rfl, rfl⟩

/-! ### Events -/

theorem unwritten_mcGive (h : Clean s) (p : Nat) (m : McPend) : Unwritten s (mcGive p m s) := by
  unfold mcGive
  split
  · exact unwritten_modCore h _ fun c => ⟨rfl, rfl⟩
  · exact ⟨⟨h.dirty, h.held⟩, rfl, rfl⟩

theorem unwritten_reactNotify (h : Clean s) (src code : Nat) (part : Option Nat) (detail : Nat) : Unwritten s (reactNotify src code part detail s) := by
  unfold reactNotify
  extract_lets u
  have hu : Unwritten s u := by
    unfold u
    split
    · exact unwritten_of_cpu h (frame_pf0Vector _ 0 .mem (by decide)) (congrArg Storage.poison (frame_pf0Vector _ 0 .sto (by decide))) (frame_pf0Vector _ 0 .cpu (by decide))
    · exact .refl h
  split
  · split
    · unfold mcOnPart
      split
      · exact hu
      · exact hu.trans (unwritten_mcGive hu.clean _ _)
    · exact hu
  · exact hu

theorem unwritten_fault (h : Clean s) (hk : Touches [.flt, .status, .live, .due, .fenced, .pend, .dues, .keeps, .still] s t) : Unwritten s t :=
  unwritten_of_cpu h (hk .mem (by decide)) (congrArg Storage.poison (hk .sto (by decide))) (hk .cpu (by decide))

theorem unwritten_setFlt (h : Clean s) (i : Nat) (v : FltStatus) : Unwritten s (setFlt i v s) := unwritten_of_cpu h rfl rfl rfl

theorem unwritten_startGrace (h : Clean s) (i : Nat) : Unwritten s (startGrace i s) := unwritten_fault h ((frame_startGrace s i).mono (by decide))

theorem unwritten_raise (h : Clean s) (src code : Nat) (part : Option Nat) (detail : Nat) : Unwritten s (raise src code part detail s) := by
  unfold raise raiseClass
  extract_lets st r pt counted logged told pulsed
  have hlogged : Unwritten s logged := by
    unfold logged
    split
    · exact unwritten_of_cpu h rfl rfl rfl
    · exact unwritten_of_cpu h rfl rfl rfl
  have htold : Unwritten logged told := by
    unfold told
    split
    · unfold laterEvent
      extract_lets st worse st' u
      have hset : Unwritten logged u := unwritten_setFlt hlogged.clean _ _
      split
      · exact hset.trans (unwritten_startGrace hset.clean _)
      · exact hset
    · have hset := unwritten_setFlt hlogged.clean src (firstStatus (eventClass code) code part false (fltStatus src logged))
      have hreact := unwritten_reactNotify hset.clean src code part detail
      exact (hset.trans hreact).trans (unwritten_startGrace hreact.clean src)
  have hpulsed : Unwritten told pulsed := by
    unfold pulsed
    split
    · exact unwritten_fault htold.clean ((frame_pulseErrN told).mono (by decide))
    · exact .refl htold.clean
  have hall := (hlogged.trans htold).trans hpulsed
  split
  · exact hall.trans (unwritten_of_cpu hall.clean rfl rfl rfl)
  · exact hall

/-! ### Lines -/

theorem unwritten_sliceUse (h : Clean s) (line : Nat) (part : Option Nat) : Unwritten s (sliceUse line part s) := by
  unfold sliceUse
  dsimp only
  split
  · exact .refl h
  · exact unwritten_of_cpu h rfl rfl rfl

theorem unwritten_snoopRead (h : Clean s) (l : Option Nat) (line : Nat) : Unwritten s (snoopRead l line s) :=
  unwritten_foldl (fun u e hu => by
    split
    · exact .refl hu
    · exact unwritten_modCore hu _ (held_snoopOff line)) _ h

theorem unwritten_of_msg (h : Clean s) (hk : Touches msgRegs s t) : Unwritten s t :=
  unwritten_of_cpu h (hk .mem (by decide)) (congrArg Storage.poison (hk .sto (by decide))) (hk .cpu (by decide))

theorem unwritten_writeBackLine (h : Clean s) (line : Nat) : Unwritten s (writeBackLine line s) := by
  unfold writeBackLine lineDirty
  rw [h.dirty]
  have hback : writeBackIf (fun a _ => lineOf a == line) s = { s with cpu := { s.cpu with dirty := [] } } := by
    simp only [writeBackIf, h.dirty, List.filter_nil, List.foldl_nil]
  simp only [List.any_nil, Bool.false_eq_true, if_false, hback]
  exact ⟨⟨rfl, h.held⟩, rfl, rfl⟩

theorem unwritten_cleanLine (h : Clean s) (keep : Option Nat) (line : Nat) : Unwritten s (cleanLine keep line s) := by
  have hback := unwritten_writeBackLine h line
  unfold cleanLine
  generalize writeBackLine line s = u at *
  have hevict : ∀ (ls : List Nat), ls.foldl (fun s l =>
      let c := coreOf l s
      if some l == keep || ((tget none line c.held1).isNone && (tget none line c.held2).isNone) then s else evictHeld l line s) u = u := fun ls =>
    List.foldl_fixed' (fun l => by
      obtain ⟨h1, h2⟩ := hback.clean.held l
      simp [h1, h2, tget]) ls
  dsimp only at hevict ⊢
  rw [hevict]
  refine hback.trans (unwritten_foldl (fun v l hv => ?_) _ hback.clean)
  split
  · exact unwritten_modCore hv l (held_dropFromCore line)
  · exact .refl hv

/-! ### Reads -/

theorem unwritten_agentSeen (h : Clean s) (who : Agent) (part : Option Nat) (attr a n : Nat) : Unwritten s (agentSeen who part attr a n s) := by
  unfold agentSeen
  split
  · exact .refl h
  · split
    · exact unwritten_of_msg h (frame_armMsg _)
    · split
      · exact unwritten_raise h _ _ _ _
      · refine unwritten_foldl (fun v ln hv => ?_) _ h
        have hclean : Unwritten v (if 2 ≤ attr then cleanLine none ln v else v) := by
          split
          · exact unwritten_cleanLine hv none ln
          · exact .refl hv
        have huse := unwritten_sliceUse hclean.clean ln (allocFor who part)
        have hsnoop := unwritten_snoopRead huse.clean none ln
        exact ((hclean.trans huse).trans hsnoop).trans (unwritten_of_msg hsnoop.clean frame_releaseRemote)

/-- What agents read is not written. -/
theorem unwritten_partSeen (h : Clean s) (who : Agent) (p a n : Nat) : Unwritten s (partSeen who p a n s) :=
  unwritten_foldl (fun u q hu => by
    split
    · exact unwritten_agentSeen hu _ _ _ _ _
    · exact .refl hu) _ h

end

end Sys2Proof.Machine
end


section
set_option Elab.async false
/-! PROOFS. O55: queue pairs, and the mailboxes of partitions. -/

namespace Sys2Proof.Machine

section
variable {s t u : State} {q p : Nat}

/-! ### Queue pairs -/

theorem qpOf_setQp (j q : Nat) (x : HostQp) (s : State) : qpOf j (setQp q x s) = if j = q then x else qpOf j s := tget_tset ..

theorem frame_setQp (q : Nat) (x : HostQp) (s : State) : Touches [.hp] s (setQp q x s) := frame_hp s _

theorem qp_next (hs : Safety.settled s) (q : Nat) (x : HostQp) : done s (setQp q x s) = .next (setQp q x s) := done_framed (frame_setQp q x s) hs

theorem mailbox_same (h : t.hp = s.hp) (j : Nat) : queueOf .mailbox j t = queueOf .mailbox j s := by simp only [queueOf, h]

theorem qpOf_same (h : t.hp = s.hp) (j : Nat) : qpOf j t = qpOf j s := by rw [qpOf, h, qpOf]

/-- A queue pair changes hands, which its partition's host function is told. -/
theorem done_qpTold (hs : Safety.settled s) (q : Nat) (x : HostQp) : ∃ t, done s (pf1Vector 128 (setQp q x s)) = .next t ∧ qpOf q t = x ∧
    (∀ j, j ≠ q → qpOf j t = qpOf j s) ∧ t.eng = s.eng ∧ t.sto = s.sto ∧ t.flt = s.flt := by
  have hvec := frame_pf1Vector (setQp q x s) 128
  have hall : Touches [.hp, .out, .pf1] s (pf1Vector 128 (setQp q x s)) := ((frame_setQp q x s).mono (by decide)).andThen hvec
  have hhp : (pf1Vector 128 (setQp q x s)).hp = (setQp q x s).hp := hvec .hp (by decide)
  refine ⟨_, done_framed hall hs, ?_, fun j hj => ?_, hall .eng (by decide), hall .sto (by decide), hall .flt (by decide)⟩
  · rw [qpOf_same hhp, qpOf_setQp, if_pos rfl]
  · rw [qpOf_same hhp, qpOf_setQp, if_neg hj]

theorem claim_spec (hs : Safety.settled s) (ho : operating s = true) (hq : q < 64) (p kind : Nat) :
    ((qpOf q s).owner ≠ none ∨ kind % 4 = 0 → exec (.claim (.part p) kind q) s = .next (setQp q { qpOf q s with lastResult := 0x0C } s)) ∧
    ((qpOf q s).owner = none → kind % 4 ≠ 0 → (partOf p s).any (fun d => d.hostPerm.testBit (kindPerm (kind % 4))) = false →
      exec (.claim (.part p) kind q) s = .next (setQp q { qpOf q s with lastResult := 0x11 } s)) ∧
    ((qpOf q s).owner = none → kind % 4 ≠ 0 → (partOf p s).any (fun d => d.hostPerm.testBit (kindPerm (kind % 4))) = true →
      ∃ t, exec (.claim (.part p) kind q) s = .next t ∧ qpOf q t = { qpOf q s with kind := kind % 4, owner := some p, lastResult := 0 } ∧
        (∀ j, j ≠ q → qpOf j t = qpOf j s) ∧ t.eng = s.eng ∧ t.sto = s.sto ∧ t.flt = s.flt) := by
  have hexec : exec (.claim (.part p) kind q) s = done s (claimPair p (kind % 4) q s) := if_pos ⟨ho, hq⟩
  rw [hexec, claimPair]
  refine ⟨fun h => ?_, fun howner hkind hperm => ?_, fun howner hkind hperm => ?_⟩
  · rw [if_pos (by rcases h with h | h <;> simp [h, Option.isSome_iff_ne_none])]
    exact qp_next hs q _
  · rw [if_neg (by simp [howner, hkind]), hperm]
    exact qp_next hs q _
  · rw [if_neg (by simp [howner, hkind]), hperm]
    exact done_qpTold hs q _

theorem release_refused (hs : Safety.settled s) (ho : operating s = true) (hq : q < 64) (p : Nat)
    (h : (qpOf q s).owner ≠ some p ∨ ∃ b, qpBlock q s = some b ∧ (queueOf b q s).state ≠ 0) :
    exec (.qpRelease (.part p) q) s = .next (setQp q { qpOf q s with lastResult := 0x0C } s) := by
  have hexec : exec (.qpRelease (.part p) q) s = done s (releasePair p q s) := if_pos ⟨ho, hq⟩
  rw [hexec, releasePair]
  dsimp only
  rw [if_neg]
  · exact qp_next hs q _
  · rintro ⟨howner, hidle⟩
    obtain h | ⟨b, hb, hstate⟩ := h
    · exact h howner
    · simp [hb, hstate] at hidle

theorem release_spec (hs : Safety.settled s) (ho : operating s = true) (hq : q < 64) {b : QBlock} (howner : (qpOf q s).owner = some p)
    (hb : qpBlock q s = some b) (h0 : (queueOf b q s).state = 0) :
    ∃ t, exec (.qpRelease (.part p) q) s = .next t ∧ qpOf q t = { qpOf q s with kind := 0, owner := none, lastResult := 0 } ∧
      (∀ j, j ≠ q → qpOf j t = qpOf j s) ∧ t.eng = s.eng ∧ t.sto = s.sto ∧ t.flt = s.flt := by
  have hexec : exec (.qpRelease (.part p) q) s = done s (releasePair p q s) := if_pos ⟨ho, hq⟩
  rw [hexec, releasePair]
  dsimp only
  rw [if_pos ⟨howner, by simp [hb, h0]⟩]
  exact done_qpTold hs q _

/-! ### Messages that have arrived -/

theorem exec_mailboxInbound (ho : operating s = true) (hq : q < 64) : exec (.mailboxInbound q) s = done s (mailboxIn q s) := if_pos ⟨ho, hq⟩

theorem mailboxIn_idle (h : mailboxOwner q s = none ∨ (queueOf .mailbox q s).slot = none ∨ inboxRoom q s = false) : mailboxIn q s = s := by
  unfold mailboxIn
  extract_lets v
  split
  next p m hp hm =>
    obtain h | h | h := h
    · exact absurd (hp.symm.trans h) nofun
    · exact absurd (hm.symm.trans h) nofun
    · exact if_pos (by simp [h])
  next => rfl

theorem mailboxIn_unmapped {m : List Byte} (hp : mailboxOwner q s = some p) (hm : (queueOf .mailbox q s).slot = some m)
    (h1 : (queueOf .mailbox q s).state = 1) (hroom : inboxRoom q s = true) (hmap : boxesMapped p q s = false) : mailboxIn q s = pauseQueue .mailbox q 2 s := by
  simp only [mailboxIn, hp, hm, h1, hroom, hmap, beq_self_eq_true, Bool.true_or, Bool.not_true, Bool.or_self, Bool.false_eq_true, if_false, Bool.not_false, if_true]

/-- The inbox takes the message, and its slot passes. -/
def mailTaken (p q : Nat) (s u : State) : State :=
  wakeCore p (qpOf q s).notify (setQp q { qpOf q s with inTail := ((qpOf q s).inTail + 1) % 65536 } (setQueue .mailbox q { queueOf .mailbox q s with
    head := ((queueOf .mailbox q s).head + 1) % (queueOf .mailbox q s).n, slot := none, post := none } u))

theorem mailboxIn_takes {m : List Byte} (hp : mailboxOwner q s = some p) (hm : (queueOf .mailbox q s).slot = some m)
    (h : (queueOf .mailbox q s).state = 1 ∨ (queueOf .mailbox q s).state = 3 ∧ (queueOf .mailbox q s).pause = 3) (hpost : (queueOf .mailbox q s).post = none)
    (hroom : inboxRoom q s = true) (hmap : boxesMapped p q s = true)
    (hu : u = partWrite (.hostWrite 1) p ((qpOf q s).inbox + (qpOf q s).inTail % 2 ^ (queueOf .mailbox q s).size * 64) m s) (hpend : agentPending (.hostWrite 1) u = false) :
    mailboxIn q s = hostFetch .mailbox q (mailTaken p q s u) := by
  have hstate : ((queueOf .mailbox q s).state == 1 || ((queueOf .mailbox q s).state == 3 && (queueOf .mailbox q s).pause == 3)) = true := by
    rcases h with h | ⟨h, h'⟩
    · simp [h]
    · simp [h, h']
  unfold mailboxIn
  simp only [hp, hm, hstate, hroom, hmap, hpost, Bool.not_true, Bool.or_self, Bool.false_eq_true, if_false, Option.isSome_none]
  rw [show partWrite (.hostWrite 1) p ((qpOf q s).inbox + (qpOf q s).inTail % (queueOf .mailbox q s).n * 64) m s = u from hu.symm, hpend]
  rfl

theorem partOfCore_of_pln (h : t.pln = s.pln) (l : Nat) : partOfCore l t = partOfCore l s := by
  simp only [partOfCore, partIds, partOf, h]

theorem frame_wakeCore (p l : Nat) (s : State) : Touches [.cpu, .core, .keeps, .own] s (wakeCore p l s) :=
  touches_ite (fun _ => frame_modCore s l _) fun _ => .refl _ s

theorem wakeCore_waiting {l : Nat} {d : Option Nat} (hp : partOfCore l s = some p) (hr : (coreOf l s).run = .waiting d) : (coreOf l (wakeCore p l s)).run = .running := by
  unfold wakeCore
  rw [if_pos hp, coreOf_modCore, if_pos rfl, hr]

theorem hostFetch_hp : ((hostFetch .mailbox q s).hp.qp = s.hp.qp) := by
  unfold hostFetch
  extract_lets x y room ready tag u w
  split <;> rfl

theorem mailboxInbound_takes {m : List Byte} (hs : Safety.settled s) (ho : operating s = true) (hq : q < 64) (hg : Safety.graceful s)
    (hp : mailboxOwner q s = some p) (hm : (queueOf .mailbox q s).slot = some m)
    (h : (queueOf .mailbox q s).state = 1 ∨ (queueOf .mailbox q s).state = 3 ∧ (queueOf .mailbox q s).pause = 3) (hpost : (queueOf .mailbox q s).post = none)
    (hroom : inboxRoom q s = true) (hmap : boxesMapped p q s = true)
    (hu : u = partWrite (.hostWrite 1) p ((qpOf q s).inbox + (qpOf q s).inTail % 2 ^ (queueOf .mailbox q s).size * 64) m s) (hpend : agentPending (.hostWrite 1) u = false) :
    ∃ t, exec (.mailboxInbound q) s = .next t ∧ t.sto = u.sto ∧ qpOf q t = { qpOf q s with inTail := ((qpOf q s).inTail + 1) % 65536 } ∧
      (queueOf .mailbox q t).head = ((queueOf .mailbox q s).head + 1) % 2 ^ (queueOf .mailbox q s).size ∧ (queueOf .mailbox q t).slot = none ∧
      (∀ d, partOfCore (qpOf q s).notify s = some p → (coreOf (qpOf q s).notify s).run = .waiting d → (coreOf (qpOf q s).notify t).run = .running) := by
  rw [exec_mailboxInbound ho hq, mailboxIn_takes hp hm h hpost hroom hmap hu hpend]
  have hwrite : Touches trafficRegs s u := hu ▸ traffic_partWrite
  obtain ⟨w, hw⟩ : ∃ w, w = setQp q { qpOf q s with inTail := ((qpOf q s).inTail + 1) % 65536 } (setQueue .mailbox q { queueOf .mailbox q s with
    head := ((queueOf .mailbox q s).head + 1) % (queueOf .mailbox q s).n, slot := none, post := none } u) := ⟨_, rfl⟩
  have hset : Touches (.hp :: trafficRegs) u w := hw ▸ (((frame_hp u _).mono (by decide)).trans ((frame_hp _ _).mono (by decide)))
  have htaken : mailTaken p q s u = wakeCore p (qpOf q s).notify w := hw ▸ rfl
  have hqp : qpOf q w = { qpOf q s with inTail := ((qpOf q s).inTail + 1) % 65536 } := by rw [hw, qpOf_setQp, if_pos rfl]
  have hqueue : queueOf .mailbox q w = { queueOf .mailbox q s with head := ((queueOf .mailbox q s).head + 1) % (queueOf .mailbox q s).n, slot := none, post := none } := by
    rw [hw]
    exact queueOf_setQueue_same .mailbox q _ u
  rw [htaken]
  have hcore : coreOf (qpOf q s).notify w = coreOf (qpOf q s).notify u := by rw [hw]; rfl
  have hsto : w.sto = u.sto := by rw [hw]; rfl
  clear hw htaken
  have hwake := frame_wakeCore p (qpOf q s).notify w
  have hwaking : ∀ d, partOfCore (qpOf q s).notify s = some p → (coreOf (qpOf q s).notify s).run = .waiting d →
      (coreOf (qpOf q s).notify (wakeCore p (qpOf q s).notify w)).run = .running := fun d hpart hrun => by
    have hsw := (hwrite.mono (rs := .hp :: trafficRegs) (by decide)).trans hset
    have hpln : w.pln = s.pln := hsw .pln (by decide)
    refine wakeCore_waiting (d := d) ?_ ?_
    · exact (partOfCore_of_pln hpln _).trans hpart
    · rw [hcore, ← hrun]
      exact (congrArg Core.run (hwrite .own (by decide) (qpOf q s).notify) :)
  generalize wakeCore p (qpOf q s).notify w = x at *
  have hfetch := frame_hostFetch (s := x) (b := .mailbox) (q := q)
  have hhp : x.hp = w.hp := hwake .hp (by decide)
  have hall : Touches (.hp :: .eng :: .pf1 :: .keeps :: .own :: trafficRegs) s (hostFetch .mailbox q x) :=
    (((hwrite.mono (by decide)).trans (hset.mono (by decide))).trans (hwake.mono (by decide))).trans (hfetch.mono (by decide))
  obtain ⟨f, hf⟩ := hostFetch_queue (s := x) (b := .mailbox) (q := q) .mailbox q
  rw [if_pos ⟨rfl, rfl⟩] at hf
  have hxq : queueOf .mailbox q x = queueOf .mailbox q w := mailbox_same hhp q
  rw [hxq, hqueue] at hf
  obtain ⟨t, hdone, ht⟩ := done_told (b := s) (due_of_still (hall .still (by decide)) hs hg) (hall .pending (by decide))
  have hthp : t.hp = (hostFetch .mailbox q x).hp := ht .hp (by decide)
  have htq : queueOf .mailbox q t = queueOf .mailbox q (hostFetch .mailbox q x) := mailbox_same hthp q
  refine ⟨t, hdone, ?_, ?_, by rw [htq, hf]; rfl, by rw [htq, hf], fun d hpart hrun => ?_⟩
  · exact (ht .sto (by decide)).trans ((hfetch .sto (by decide)).trans ((hwake .sto (by decide)).trans hsto))
  · rw [qpOf, hthp, hostFetch_hp, hhp, ← qpOf, hqp]
  · have hcpu : t.cpu = x.cpu := (ht .cpu (by decide)).trans (hfetch .cpu (by decide))
    rw [coreOf, hcpu]
    exact hwaking d hpart hrun

/-! ### Replies -/

theorem exec_mailboxOutbound (ho : operating s = true) (hq : q < 64) : exec (.mailboxOutbound q) s = done s (mailboxOut q s) := if_pos ⟨ho, hq⟩

theorem mailboxOut_idle (h : mailboxOwner q s = none ∨ (qpOf q s).outTail = (qpOf q s).outHead ∨ (queueOf .mailbox q s).state ≠ 1 ∨ fnMaster s.pf1 = false) :
    mailboxOut q s = s := by
  unfold mailboxOut
  extract_lets v x
  split
  next => rfl
  next p hp =>
    obtain h | h | h | h := h
    · exact absurd (hp.symm.trans h) nofun
    · exact if_pos (by simp [x, h])
    · exact if_pos (by simp [v, h])
    · exact if_pos (by simp [h])

/-- The reply at OUT_HEAD is posted, its bytes having been read. -/
def replyPosted (q : Nat) (m : List Byte) (s u : State) : State :=
  pf1Vector (2 * q) (setQp q { qpOf q s with outHead := ((qpOf q s).outHead + 1) % 65536 } (setQueue .mailbox q (cqAdvance (queueOf .mailbox q s))
    (emit (.hostWrite ((qpOf q s).pcBase + (queueOf .mailbox q s).cqTail * 64) (withMsgPhase (queueOf .mailbox q s) m) false) u)))

theorem mailboxOut_posts {a : Nat} {m : List Byte} (hp : mailboxOwner q s = some p) (h1 : (queueOf .mailbox q s).state = 1)
    (hout : (qpOf q s).outTail ≠ (qpOf q s).outHead) (hmaster : fnMaster s.pf1 = true)
    (hroom : ((queueOf .mailbox q s).cqTail + 2 ^ (queueOf .mailbox q s).size - (queueOf .mailbox q s).cqHead) % 2 ^ (queueOf .mailbox q s).size < 2 ^ (queueOf .mailbox q s).size - 1)
    (hmap : boxesMapped p q s = true) (ha : a = (qpOf q s).inbox + 2 ^ (queueOf .mailbox q s).size * 64 + (qpOf q s).outHead % 2 ^ (queueOf .mailbox q s).size * 64)
    (hmiss : partMissing .hostRead p a 64 s = []) (hread : partRead .hostRead p a 64 s = (m, false)) :
    mailboxOut q s = replyPosted q m s (partSeen .hostRead p a 64 s) := by
  have hgo : ¬ ((queueOf .mailbox q s).state != 1 || (qpOf q s).outTail == (qpOf q s).outHead ||
      !decide (((queueOf .mailbox q s).cqTail + (queueOf .mailbox q s).n - (queueOf .mailbox q s).cqHead) % (queueOf .mailbox q s).n < (queueOf .mailbox q s).n - 1) ||
      !fnMaster s.pf1) = true := by
    simp only [h1, hmaster, Queue.n, hroom, beq_eq_false_iff_ne.mpr hout, decide_true]
    decide
  have ha' : (qpOf q s).inbox + (queueOf .mailbox q s).n * 64 + (qpOf q s).outHead % (queueOf .mailbox q s).n * 64 = a := ha.symm
  unfold mailboxOut
  simp only [hp]
  rw [if_neg hgo, hmap, ha', hmiss, hread]
  rfl

theorem mailboxOutbound_posts {a : Nat} {m : List Byte} (hs : Safety.settled s) (ho : operating s = true) (hq : q < 64) (hg : Safety.graceful s)
    (hp : mailboxOwner q s = some p) (h1 : (queueOf .mailbox q s).state = 1) (hout : (qpOf q s).outTail ≠ (qpOf q s).outHead) (hmaster : fnMaster s.pf1 = true)
    (hroom : ((queueOf .mailbox q s).cqTail + 2 ^ (queueOf .mailbox q s).size - (queueOf .mailbox q s).cqHead) % 2 ^ (queueOf .mailbox q s).size < 2 ^ (queueOf .mailbox q s).size - 1)
    (hmap : boxesMapped p q s = true) (ha : a = (qpOf q s).inbox + 2 ^ (queueOf .mailbox q s).size * 64 + (qpOf q s).outHead % 2 ^ (queueOf .mailbox q s).size * 64)
    (hmiss : partMissing .hostRead p a 64 s = []) (hread : partRead .hostRead p a 64 s = (m, false)) :
    ∃ t, exec (.mailboxOutbound q) s = .next t ∧
      Out.hostWrite ((qpOf q s).pcBase + (queueOf .mailbox q s).cqTail * 64) (withMsgPhase (queueOf .mailbox q s) m) false ∈ t.out ∧
      queueOf .mailbox q t = cqAdvance (queueOf .mailbox q s) ∧ qpOf q t = { qpOf q s with outHead := ((qpOf q s).outHead + 1) % 65536 } ∧
      (s.cpu.dirty = [] → (∀ l, (coreOf l s).held1 = [] ∧ (coreOf l s).held2 = []) → t.sto.mem = s.sto.mem ∧ t.sto.poison = s.sto.poison) := by
  have hseen : Touches trafficRegs s (partSeen .hostRead p a 64 s) := traffic_partSeen
  have hclean : Clean s → Unwritten s (partSeen .hostRead p a 64 s) := fun h => unwritten_partSeen h .hostRead p a 64
  rw [exec_mailboxOutbound ho hq, mailboxOut_posts hp h1 hout hmaster hroom hmap ha hmiss hread, replyPosted]
  generalize partSeen .hostRead p a 64 s = u at *
  obtain ⟨w, hw⟩ : ∃ w, w = setQp q { qpOf q s with outHead := ((qpOf q s).outHead + 1) % 65536 } (setQueue .mailbox q (cqAdvance (queueOf .mailbox q s))
    (emit (.hostWrite ((qpOf q s).pcBase + (queueOf .mailbox q s).cqTail * 64) (withMsgPhase (queueOf .mailbox q s) m) false) u)) := ⟨_, rfl⟩
  have hset : Touches [.out, .hp] u w := hw ▸ (((frame_emit u _).mono (by decide)).andThen (frame_hp _ _)).andThen (frame_hp _ _)
  have hqp : qpOf q w = { qpOf q s with outHead := ((qpOf q s).outHead + 1) % 65536 } := by rw [hw, qpOf_setQp, if_pos rfl]
  have hqueue : queueOf .mailbox q w = cqAdvance (queueOf .mailbox q s) := by
    rw [hw]
    exact queueOf_setQueue_same .mailbox q _ _
  have hsent : Out.hostWrite ((qpOf q s).pcBase + (queueOf .mailbox q s).cqTail * 64) (withMsgPhase (queueOf .mailbox q s) m) false ∈ w.out := by
    rw [hw]
    exact List.mem_append_right _ (List.mem_singleton_self _)
  rw [← hw]
  clear hw
  have hvec := frame_pf1Vector w (2 * q)
  have hall : Touches (.hp :: .pf1 :: trafficRegs) s (pf1Vector (2 * q) w) := ((hseen.mono (by decide)).trans (hset.mono (by decide))).trans (hvec.mono (by decide))
  obtain ⟨t, hdone, ht⟩ := done_told (b := s) (due_of_still (hall .still (by decide)) hs hg) (hall .pending (by decide))
  have hthp : t.hp = w.hp := (ht .hp (by decide)).trans (hvec .hp (by decide))
  have hsaid : (pf1Vector (2 * q) w).out <+: t.out := ht .said (by decide)
  have hvsaid : w.out <+: (pf1Vector (2 * q) w).out := hvec .said (by decide)
  have hsto : t.sto = u.sto := (ht .sto (by decide)).trans ((hvec .sto (by decide)).trans (hset .sto (by decide)))
  refine ⟨t, hdone, hsaid.subset (hvsaid.subset hsent), ?_, by rw [qpOf_same hthp, hqp], fun hd hh => ?_⟩
  · exact (mailbox_same hthp q).trans hqueue
  · obtain ⟨-, hmem, hpoison⟩ := hclean ⟨hd, hh⟩
    rw [hsto]
    exact ⟨hmem, hpoison⟩

/-- Settles O55. -/
theorem queuePairsAndMailboxes : Obligations.QueuePairsAndMailboxes := by
  unfold Obligations.QueuePairsAndMailboxes
  intro s q hs ho hq
  refine ⟨fun p kind => claim_spec hs ho hq p kind, fun v kind hv => ?_, fun p => ⟨fun h => release_refused hs ho hq p (.inl h),
    fun b hb h => release_refused hs ho hq p (.inr ⟨b, hb, h⟩), fun b howner hb h0 => release_spec hs ho hq howner hb h0⟩, fun h => ?_,
    fun p m hp hm h1 hroom hmap => ?_, fun p m u hg hp hm h hpost hroom hmap hu hpend => mailboxInbound_takes hs ho hq hg hp hm h hpost hroom hmap hu hpend,
    fun h => ?_, fun p a m hg hp h1 hout hmaster hroom hmap ha hmiss hread => mailboxOutbound_posts hs ho hq hg hp h1 hout hmaster hroom hmap ha hmiss hread⟩
  · cases v with
    | part p => exact absurd rfl (hv p)
    | _ => exact ⟨rfl, rfl⟩
  · rw [exec_mailboxInbound ho hq, mailboxIn_idle h]
    exact done_framed (.refl [] s) hs
  · rw [exec_mailboxInbound ho hq, mailboxIn_unmapped hp hm h1 hroom hmap]
    obtain ⟨hpause, hqueue⟩ := pauseQueue_spec (s := s) (b := .mailbox) (q := q) 2
    exact ⟨_, done_framed hpause hs, (hqueue .mailbox q).trans (if_pos ⟨rfl, rfl⟩), hpause .sto (by decide)⟩
  · rw [exec_mailboxOutbound ho hq, mailboxOut_idle h]
    exact done_framed (.refl [] s) hs

end

end Sys2Proof.Machine
end


section
set_option Elab.async false
/-! PROOFS. O53: the windows of the host, BAR0, and configuration requests. -/

namespace Sys2Proof.Machine

section
variable {s t u : State}

/-! ### A module without cores has none after a read -/

/-- From `s` to `t` no core has come into being where there was none. -/
def Bare (s t : State) : Prop := s.cpu.core = [] → t.cpu.core = []

theorem bare_of_cpu (h : t.cpu = s.cpu) : Bare s t := fun hb => by rw [h]; exact hb

theorem bare_foldl {α : Type} {f : State → α → State} (hf : ∀ u x, Bare u (f u x)) (xs : List α) : ∀ {s : State}, Bare s (xs.foldl f s) := by
  induction xs with
  | nil => exact id
  | cons x xs ih => exact ih ∘ hf _ x

theorem bare_onCores (p : Nat → Bool) (f : Core → Core) : Bare s (onCores p f s) := fun h => by
  simp only [onCores, h, List.map_nil, List.foldl_nil]

theorem lowestRunning_bare (h : s.cpu.core = []) (p : Nat) : lowestRunning p s = none := by
  refine List.find?_eq_none.mpr fun l _ => ?_
  have hcore : coreOf l s = {} := by simp only [coreOf, h, tget]
  simp only [isRunningCore, hcore]
  simp

theorem bare_mcOnPart (p code addr source : Nat) : Bare s (mcOnPart p code addr source s) := fun h => by
  unfold mcOnPart mcGive
  rw [lowestRunning_bare h]
  split <;> exact h

theorem bare_reactNotify (src code : Nat) (part : Option Nat) (detail : Nat) : Bare s (reactNotify src code part detail s) := by
  unfold reactNotify
  extract_lets u
  have hu : Bare s u := by
    unfold u
    split
    · exact bare_of_cpu (frame_pf0Vector _ 0 .cpu (by decide))
    · exact id
  split
  · split
    · exact bare_mcOnPart _ _ _ _ ∘ hu
    · exact hu
  · exact hu

theorem bare_raise (src code : Nat) (part : Option Nat) (detail : Nat) : Bare s (raise src code part detail s) := by
  unfold raise raiseClass
  extract_lets st r pt counted logged told pulsed
  have hlogged : Bare s logged := by
    unfold logged
    split <;> exact id
  have htold : Bare logged told := by
    unfold told
    split
    · unfold laterEvent
      extract_lets st worse st' u
      split
      · exact bare_of_cpu (frame_startGrace u src .cpu (by decide))
      · exact id
    · have hreact := bare_reactNotify (s := setFlt src (firstStatus (eventClass code) code part false (fltStatus src logged)) logged) src code part detail
      exact bare_of_cpu (frame_startGrace _ src .cpu (by decide)) ∘ hreact
  have hpulsed : Bare told pulsed := by
    unfold pulsed
    split
    · exact bare_of_cpu (frame_pulseErrN told .cpu (by decide))
    · exact id
  split <;> exact hpulsed ∘ htold ∘ hlogged

theorem bare_homeSet (a : Nat) (v : Byte) : Bare s (homeSet a v s) := by
  unfold homeSet
  split
  · exact id
  · split <;> exact id

theorem bare_writeBackLine (line : Nat) : Bare s (writeBackLine line s) := by
  have huse : Bare s (if lineDirty line (fun _ => true) s then sliceUse line none s else s) := by
    split
    · unfold sliceUse
      dsimp only
      split <;> exact id
    · exact id
  unfold writeBackLine writeBackIf
  dsimp only
  refine fun h => bare_foldl (fun u e => ?_) _ (huse h)
  split
  · exact bare_homeSet _ _
  · exact id

theorem bare_cleanLine (keep : Option Nat) (line : Nat) : Bare s (cleanLine keep line s) := fun h => by
  unfold cleanLine
  have hback := bare_writeBackLine line h
  generalize writeBackLine line s = u at *
  dsimp only
  refine bare_onCores _ _ ?_
  rw [hback]
  exact hback

theorem bare_agentSeen (who : Agent) (part : Option Nat) (attr a n : Nat) : Bare s (agentSeen who part attr a n s) := by
  unfold agentSeen
  split
  · exact id
  · split
    · exact id
    · split
      · exact bare_raise _ _ _ _
      · refine bare_foldl (fun v ln => ?_) _
        have hclean : Bare v (if 2 ≤ attr then cleanLine none ln v else v) := by
          split
          · exact bare_cleanLine none ln
          · exact id
        have huse : ∀ w, Bare w (sliceUse ln (allocFor who part) w) := fun w => by
          unfold sliceUse
          dsimp only
          split <;> exact id
        have hsnoop : ∀ w, Bare w (snoopRead none ln w) := fun w h => by
          simp only [snoopRead, h, List.foldl_nil]
        exact bare_of_cpu (frame_releaseRemote .cpu (by decide)) ∘ hsnoop _ ∘ huse _ ∘ hclean

theorem bare_partSeenAs (least : Nat) (who : Agent) (p a n : Nat) : Bare s (partSeenAs least who p a n s) :=
  bare_foldl (fun u q => by
    split
    · exact bare_agentSeen _ _ _ _ _
    · exact id) _

theorem unwritten_partSeenAs (h : Clean s) (least : Nat) (who : Agent) (p a n : Nat) : Unwritten s (partSeenAs least who p a n s) :=
  unwritten_foldl (fun u q hu => by
    split
    · exact unwritten_agentSeen hu _ _ _ _ _
    · exact .refl hu) _ h

/-! ### COMMIT -/

theorem exec_commit (ho : operating s = true) {v : View} (hv : (admin v s || v == .pf1) = true) (mask : BitVec 17) :
    exec (.commit v mask) s = done s (commitWindows mask.toNat s) := if_pos (by rw [ho, hv]; rfl)

theorem tget_tset_else {α : Type} [DecidableEq α] (d e : α) {j k : Nat} (v : α) (t : Tab α) (h : j ≠ k) : tget d j (tset e k v t) = tget d j t := by
  unfold tset
  split
  · exact (tget_tdel ..).trans (if_neg h)
  · exact (tget_tins ..).trans (if_neg h)

theorem windows_committed (f : Nat → WinEntry) (n : Nat) (ns : List Nat) : ∀ t : Tab WinEntry,
    tget (winReset n) n (ns.foldl (fun t n => tset (winReset n) n (f n) t) t) = if n ∈ ns then f n else tget (winReset n) n t := by
  induction ns with
  | nil => exact fun t => rfl
  | cons m ns ih =>
    intro t
    rw [List.foldl_cons, ih]
    by_cases e : n = m
    · subst e
      simp
    · rw [tget_tset_else _ _ _ _ e]
      simp [e]

theorem firstBad_eq (s : State) (mask : Nat) : ((List.range 17).filter (fun n => mask.testBit n)).find? (fun n => !winEntryOk n (shadowOf n s)) =
    (List.range 17).find? (fun n => mask.testBit n && !winEntryOk n (shadowOf n s)) := by
  simp only [List.find?_filter, Bool.decide_and, Bool.decide_eq_true]

theorem commit_spec (hs : Safety.settled s) (ho : operating s = true) {v : View} (hv : (admin v s || v == .pf1) = true) (mask : BitVec 17) :
    (s.pf1.flr = true → exec (.commit v mask) s = .next { s with hp := { s.hp with winResult := 0x0C } }) ∧
    (s.pf1.flr = false → (∀ n, n < 17 → mask.toNat.testBit n = true → winEntryOk n (shadowOf n s) = true) →
      ∃ t, exec (.commit v mask) s = .next t ∧ t.hp.winResult = 0 ∧ (∀ n, winOf n t = if n < 17 ∧ mask.toNat.testBit n = true then shadowOf n s else winOf n s) ∧
        t.hp.shadow = s.hp.shadow ∧ t.sto = s.sto ∧ t.flt = s.flt) ∧
    (∀ m, s.pf1.flr = false → m < 17 → mask.toNat.testBit m = true → winEntryOk m (shadowOf m s) = false →
      (∀ n, n < m → mask.toNat.testBit n = true → winEntryOk n (shadowOf n s) = true) →
      exec (.commit v mask) s = .next { s with hp := { s.hp with winResult := 0x12, firstBad := m } }) := by
  have hnext : ∀ x, done s { s with hp := x } = .next { s with hp := x } := fun x => done_framed (frame_hp s x) hs
  rw [exec_commit ho hv, commitWindows]
  refine ⟨fun hr => ?_, fun hr hall => ?_, fun m hr hm hbit hbad hbelow => ?_⟩
  · rw [if_pos hr]
    exact hnext _
  · have hnone : (List.range 17).find? (fun n => mask.toNat.testBit n && !winEntryOk n (shadowOf n s)) = none :=
      List.find?_eq_none.mpr fun n hn => by
        cases hbit : mask.toNat.testBit n with
        | false => simp
        | true => simp [hall n (List.mem_range.mp hn) hbit]
    rw [if_neg (by simp [hr])]
    dsimp only
    rw [firstBad_eq, hnone]
    refine ⟨_, hnext _, rfl, fun n => ?_, rfl, rfl, rfl⟩
    refine (windows_committed (fun n => shadowOf n s) n _ s.hp.win).trans ?_
    simp only [List.mem_filter, List.mem_range]
    rfl
  · have hfirst : (List.range 17).find? (fun n => mask.toNat.testBit n && !winEntryOk n (shadowOf n s)) = some m :=
      List.find?_range_eq_some.mpr ⟨by simp [hbit, hbad], List.mem_range.mpr hm, fun n hn => by
        cases hbit : mask.toNat.testBit n with
        | false => simp
        | true => simp [hbelow n hn hbit]⟩
    rw [if_neg (by simp [hr])]
    dsimp only
    rw [firstBad_eq, hfirst]
    exact hnext _

/-! ### Reads through a window -/

/-- The windows of partitions. -/
def ofPart (w : WinSel) : Prop := w = .pf1 ∨ w = .rom

theorem exec_windowRead {w : WinSel} (hw : ofPart w) (h : hostUp s = true) (addr len : Nat) : exec (.hostWindowRead w addr len) s = done s (windowRead w addr len s) := by
  rcases hw with rfl | rfl <;> exact if_pos h

theorem exec_windowWrite {w : WinSel} (hw : ofPart w) (h : hostUp s = true) (addr : Nat) (data : List Byte) (ep : Bool) :
    exec (.hostWindowWrite w addr data ep) s = done s (windowWrite w addr data ep s) := by
  rcases hw with rfl | rfl <;> exact if_pos h

/-- A read through the window of a partition whose function takes requests. -/
def placeRead (w : WinSel) (addr len : Nat) (s : State) : Option WinPlace → State
  | none => refuseWindow false addr s
  | some (.flash o) => if agentPending (.hostWrite 1) s then s else emit (.hostData (flashRead o len s) false) s
  | some (.storage p a) =>
    let least := if (winOf (winSlot w addr).1 s).uc then 3 else 0
    if agentPending (.hostWrite 1) s then s
    else if !(partMissingAs least .hostRead p a len s).isEmpty then askMissing .hostRead p (partMissingAs least .hostRead p a len s) s
    else
      let d := partReadAs least .hostRead p a len s
      let s := partSeenAs least .hostRead p a len s
      let s := emit (.hostData d.1 d.2) s
      if d.2 then raise srcHost 0x04 (some p) a s else s

theorem windowRead_part {w : WinSel} (hw : ofPart w) (hf : fnOpen s.pf1 = true) (addr len : Nat) :
    windowRead w addr len s = placeRead w addr len s (winPlace (winSlot w addr).1 (winSlot w addr).2 len false s) := by
  rcases hw with rfl | rfl <;>
  · simp only [windowRead, hf, Bool.not_true, Bool.false_eq_true, if_false]
    split <;> rename_i h <;> rw [h] <;> rfl

theorem windowRead_closed {w : WinSel} (hw : ofPart w) (hf : fnOpen s.pf1 = false) (addr len : Nat) : windowRead w addr len s = refuseFn 1 false s := by
  rcases hw with rfl | rfl <;> simp only [windowRead, hf, Bool.not_false, if_true]

theorem windowRead_storage {w : WinSel} (hw : ofPart w) (hs : Safety.settled s) (h : hostUp s = true) (hf : fnOpen s.pf1 = true) (addr : Nat) {len p a least : Nat} {d : List Byte}
    (hl : least = (if (winOf (winSlot w addr).1 s).uc then 3 else 0)) (hp : winPlace (winSlot w addr).1 (winSlot w addr).2 len false s = some (.storage p a))
    (hpend : agentPending (.hostWrite 1) s = false) (hmiss : partMissingAs least .hostRead p a len s = []) (hread : partReadAs least .hostRead p a len s = (d, false))
    (hg : Safety.graceful s) : ∃ t, exec (.hostWindowRead w addr len) s = .next t ∧ Out.hostData d false ∈ t.out ∧ t.pf1.ur = s.pf1.ur ∧
      (s.cpu.core = [] → t.cpu.core = []) ∧
      (s.cpu.dirty = [] → (∀ l, (coreOf l s).held1 = [] ∧ (coreOf l s).held2 = []) → t.sto.mem = s.sto.mem ∧ t.sto.poison = s.sto.poison) := by
  have hplace : placeRead w addr len s (some (.storage p a)) = emit (.hostData d false) (partSeenAs least .hostRead p a len s) := by
    simp only [placeRead, ← hl, hpend, hmiss, hread, List.isEmpty_nil, Bool.not_true, Bool.false_eq_true, if_false]
  rw [exec_windowRead hw h, windowRead_part hw hf, hp, hplace]
  have hseen : Touches trafficRegs s (partSeenAs least .hostRead p a len s) := traffic_partSeenAs
  have hclean : Clean s → Unwritten s (partSeenAs least .hostRead p a len s) := fun h => unwritten_partSeenAs h least .hostRead p a len
  have hbare : Bare s (partSeenAs least .hostRead p a len s) := bare_partSeenAs least .hostRead p a len
  generalize partSeenAs least .hostRead p a len s = u at *
  have hall : Touches trafficRegs s (emit (.hostData d false) u) := hseen.andThen (frame_emit u _)
  obtain ⟨t, hdone, ht⟩ := done_told (b := s) (due_of_still (hall .still (by decide)) hs hg) (hall .pending (by decide))
  have hsaid : (emit (.hostData d false) u).out <+: t.out := ht .said (by decide)
  have hpf1 : t.pf1 = s.pf1 := (ht .pf1 (by decide)).trans (hall .pf1 (by decide))
  have hcpu : t.cpu = u.cpu := ht .cpu (by decide)
  have hsto : t.sto = u.sto := ht .sto (by decide)
  refine ⟨t, hdone, hsaid.subset (List.mem_append_right _ (List.mem_singleton_self _)), by rw [hpf1], fun hb => by rw [hcpu]; exact hbare hb, fun hd hh => ?_⟩
  rw [hsto]
  exact ⟨(hclean ⟨hd, hh⟩).mem, (hclean ⟨hd, hh⟩).poison⟩

theorem windowRead_flash {w : WinSel} (hw : ofPart w) (hs : Safety.settled s) (h : hostUp s = true) (hf : fnOpen s.pf1 = true) (addr : Nat) {len o : Nat}
    (hp : winPlace (winSlot w addr).1 (winSlot w addr).2 len false s = some (.flash o)) (hpend : agentPending (.hostWrite 1) s = false) :
    exec (.hostWindowRead w addr len) s = .next (emit (.hostData (flashRead o len s) false) s) := by
  rw [exec_windowRead hw h, windowRead_part hw hf, hp, placeRead, if_neg (by simp [hpend])]
  exact done_framed (frame_emit s _) hs

theorem windowRead_waits {w : WinSel} (hw : ofPart w) (hs : Safety.settled s) (h : hostUp s = true) (hf : fnOpen s.pf1 = true) (addr : Nat) {len : Nat} {x : WinPlace}
    (hp : winPlace (winSlot w addr).1 (winSlot w addr).2 len false s = some x) (hpend : agentPending (.hostWrite 1) s = true) :
    exec (.hostWindowRead w addr len) s = .next s := by
  rw [exec_windowRead hw h, windowRead_part hw hf, hp]
  cases x with
  | flash o =>
    rw [placeRead, if_pos hpend]
    exact done_framed (.refl [] s) hs
  | storage p a =>
    rw [placeRead, if_pos hpend]
    exact done_framed (.refl [] s) hs

theorem frame_countUr (fn : Nat) (s : State) : Touches [.pf0, .pf1] s (countUr fn s) := by
  unfold countUr
  exact touches_ite (fun _ => (frame_pf0 s _).mono (by decide)) fun _ => (frame_pf1 s _).mono (by decide)

/-- A request that a window refuses is counted and signalled. -/
theorem refused_counted (s : State) : Touches [.pf0, .pf1, .out] s (pf1Vector 129 (countUr 1 s)) ∧ (pf1Vector 129 (countUr 1 s)).pf1.ur = satAdd 16 s.pf1.ur 1 := by
  refine ⟨((frame_countUr 1 s).mono (by decide)).andThen (frame_pf1Vector _ 129), ?_⟩
  unfold pf1Vector HostFn.signal
  dsimp only
  split <;> rfl

theorem windowRead_refused {w : WinSel} (hw : ofPart w) (hs : Safety.settled s) (h : hostUp s = true) (hf : fnOpen s.pf1 = true) (addr : Nat) {len : Nat}
    (hp : winPlace (winSlot w addr).1 (winSlot w addr).2 len false s = none) :
    ∃ t, exec (.hostWindowRead w addr len) s = .next t ∧ t.out.getLast? = some .hostUr ∧ t.pf1.ur = satAdd 16 s.pf1.ur 1 ∧ t.sto = s.sto ∧ t.flt = s.flt := by
  obtain ⟨hframe, hur⟩ := refused_counted s
  rw [exec_windowRead hw h, windowRead_part hw hf, hp, placeRead, refuseWindow]
  rw [if_neg (by decide)]
  have hall : Touches [.pf0, .pf1, .out] s (emit .hostUr (pf1Vector 129 (countUr 1 s))) := hframe.andThen (frame_emit _ _)
  exact ⟨_, done_framed hall hs, List.getLast?_concat .., hur, hall .sto (by decide), hall .flt (by decide)⟩

/-! ### Writes through a window -/

theorem windowWrite_closed {w : WinSel} (hw : ofPart w) (hf : fnOpen s.pf1 = false) (addr : Nat) (data : List Byte) (ep : Bool) :
    windowWrite w addr data ep s = countUr 1 s := by
  rcases hw with rfl | rfl <;> simp only [windowWrite, hf, Bool.not_false, if_true, refuseFn]

theorem windowWrite_place {w : WinSel} (hw : ofPart w) (hf : fnOpen s.pf1 = true) (addr : Nat) (data : List Byte) (ep : Bool) {p a : Nat}
    (hp : winPlace (winSlot w addr).1 (winSlot w addr).2 data.length true s = some (.storage p a)) : windowWrite w addr data ep s =
      if ep then raise srcHost 0x03 (some p) ((armOf p a s).getD 0) (partPoisonMark (.hostWrite 1) p a data.length s) else partWrite (.hostWrite 1) p a data s := by
  rcases hw with rfl | rfl <;> simp only [windowWrite, hf, hp, Bool.not_true, Bool.false_eq_true, if_false]

theorem windowWrite_none {w : WinSel} (hw : ofPart w) (hf : fnOpen s.pf1 = true) (addr : Nat) (data : List Byte) (ep : Bool)
    (hp : winPlace (winSlot w addr).1 (winSlot w addr).2 data.length true s = none) : windowWrite w addr data ep s = refuseWindow true addr s := by
  rcases hw with rfl | rfl <;> simp only [windowWrite, hf, hp, Bool.not_true, Bool.false_eq_true, if_false]

theorem traffic_partPoisonMark (who : Agent) (p a n : Nat) : Touches trafficRegs s (partPoisonMark who p a n s) := by
  refine touches_foldl (fun u q => ?_) _ s
  split
  · exact traffic_agentPut
  · exact .refl _ u

theorem windowWrite_stores {w : WinSel} (hw : ofPart w) (hs : Safety.settled s) (h : hostUp s = true) (hf : fnOpen s.pf1 = true) (addr : Nat) {data : List Byte} {p a : Nat}
    (hp : winPlace (winSlot w addr).1 (winSlot w addr).2 data.length true s = some (.storage p a)) (hg : Safety.graceful s) :
    (∃ t, exec (.hostWindowWrite w addr data false) s = .next t ∧ t.sto = (partWrite (.hostWrite 1) p a data s).sto ∧ t.pf1.ur = s.pf1.ur) ∧
    (∃ t, exec (.hostWindowWrite w addr data true) s = .next t ∧ t.sto = (partPoisonMark (.hostWrite 1) p a data.length s).sto ∧
      (fltStatus srcHost t).pending = true) := by
  rw [exec_windowWrite hw h, exec_windowWrite hw h, windowWrite_place hw hf addr data _ hp, windowWrite_place hw hf addr data _ hp, if_neg (by decide), if_pos rfl]
  constructor
  · have hwrite : Touches trafficRegs s (partWrite (.hostWrite 1) p a data s) := traffic_partWrite
    obtain ⟨t, hdone, ht⟩ := done_told (b := s) (due_of_still (hwrite .still (by decide)) hs hg) (hwrite .pending (by decide))
    exact ⟨t, hdone, ht .sto (by decide), congrArg HostFn.ur ((ht .pf1 (by decide)).trans (hwrite .pf1 (by decide)))⟩
  · have hmark := traffic_partPoisonMark (s := s) (.hostWrite 1) p a data.length
    generalize partPoisonMark (.hostWrite 1) p a data.length s = u at *
    have hraise := frame_raise u (code := 0x03) (by decide) srcHost (some p) ((armOf p a s).getD 0)
    have hpend := raise_pending srcHost 0x03 (some p) ((armOf p a s).getD 0) u
    generalize raise srcHost 0x03 (some p) ((armOf p a s).getD 0) u = v at *
    have hall : Touches trafficRegs s v := hmark.trans (hraise.mono (by decide))
    obtain ⟨t, hdone, ht⟩ := done_told (b := s) (due_of_still (hall .still (by decide)) hs hg) (hall .pending (by decide))
    have hflt : t.flt = v.flt := ht .flt (by decide)
    exact ⟨t, hdone, (ht .sto (by decide)).trans (hraise .sto (by decide)), by rw [fltStatus, hflt]; exact hpend⟩

theorem windowWrite_refused {w : WinSel} (hw : ofPart w) (hs : Safety.settled s) (h : hostUp s = true) (hf : fnOpen s.pf1 = true) (addr : Nat) {data : List Byte} (ep : Bool)
    (hp : winPlace (winSlot w addr).1 (winSlot w addr).2 data.length true s = none) (hg : Safety.graceful s) :
    ∃ t, exec (.hostWindowWrite w addr data ep) s = .next t ∧ t.pf1.ur = satAdd 16 s.pf1.ur 1 ∧ (fltStatus srcHost t).pending = true ∧ t.sto = s.sto := by
  obtain ⟨hcount, hur⟩ := refused_counted s
  rw [exec_windowWrite hw h, windowWrite_none hw hf addr data ep hp, refuseWindow]
  rw [if_pos rfl]
  generalize pf1Vector 129 (countUr 1 s) = u at *
  have hraise := frame_raise u (code := 0x0E) (by decide) srcHost none addr
  have hpend := raise_pending srcHost 0x0E none addr u
  generalize raise srcHost 0x0E none addr u = v at *
  have hall : Touches (.pf1 :: eventRegs) s v := (hcount.mono (by decide)).trans (hraise.mono (by decide))
  obtain ⟨t, hdone, ht⟩ := done_told (b := s) (due_of_still (hall .still (by decide)) hs hg) (hall .pending (by decide))
  have hflt : t.flt = v.flt := ht .flt (by decide)
  refine ⟨t, hdone, ?_, by rw [fltStatus, hflt]; exact hpend, (ht .sto (by decide)).trans (hall .sto (by decide))⟩
  exact (congrArg HostFn.ur ((ht .pf1 (by decide)).trans (hraise .pf1 (by decide)))).trans hur

/-! ### The window of PF0 -/

theorem exec_pf0Read (h : hostUp s = true) (addr len : Nat) : exec (.hostWindowRead .pf0 addr len) s = done s (windowRead .pf0 addr len s) := if_pos h

theorem exec_pf0Write (h : hostUp s = true) (addr : Nat) (data : List Byte) (ep : Bool) :
    exec (.hostWindowWrite .pf0 addr data ep) s = done s (windowWrite .pf0 addr data ep s) := if_pos h

theorem pf0Read_spec (hs : Safety.settled s) (h : hostUp s = true) (hf : fnOpen s.pf0 = true) {addr len : Nat} (hlen : addr + len ≤ svcSize)
    (hp : svcPoisoned addr len s = false) : exec (.hostWindowRead .pf0 addr len) s = .next (emit (.hostData (svcBytes addr len s) false) s) := by
  rw [exec_pf0Read h, windowRead, if_neg (by simp [hf]; omega), hp]
  exact done_framed (frame_emit s _) hs

theorem pf0Write_spec (hs : Safety.settled s) (h : hostUp s = true) (hf : fnOpen s.pf0 = true) {addr : Nat} {data : List Byte} (hlen : addr + data.length ≤ svcSize) :
    ∃ t, exec (.hostWindowWrite .pf0 addr data false) s = .next t ∧ svcBytes addr data.length t = data ∧
      (∀ a, a < addr ∨ addr + data.length ≤ a → tget 0 a t.svc = tget 0 a s.svc) ∧ t.sto = s.sto ∧ t.flt = s.flt := by
  have hwrite : windowWrite .pf0 addr data false s = svcMark addr data.length false (svcWrite addr data s) := if_neg (by simp [hf]; omega)
  have hall : Touches [.svc, .svcPoison] s (svcMark addr data.length false (svcWrite addr data s)) := ((frame_svc s _).mono (by decide)).andThen (frame_svcPoison _ _)
  rw [exec_pf0Write h, hwrite]
  refine ⟨_, done_framed hall hs, svcBytes_svcWrite addr data rfl rfl, fun a ha => ?_, rfl, rfl⟩
  exact (svcWrite_byte addr data a s).trans (if_neg (by omega))

/-! ### BAR0 -/

theorem exec_barRead (h : hostUp s = true) {fn : Nat} (hfn : fn < 2) (addr len : Nat) : exec (.hostWindowRead (.bar0 fn) addr len) s = done s (barRead fn addr len s) :=
  if_pos (by simp [h, hfn])

theorem exec_barWrite (h : hostUp s = true) {fn : Nat} (hfn : fn < 2) (addr : Nat) (data : List Byte) (ep : Bool) :
    exec (.hostWindowWrite (.bar0 fn) addr data ep) s = done s (barWrite fn addr data ep s) := if_pos ⟨h, hfn⟩

theorem powered_of_hostUp (h : hostUp s = true) : powered s = true := by
  simp only [hostUp, Bool.and_eq_true] at h
  exact powered_of_operating h.1

theorem barRead_spec (hs : Safety.settled s) (h : hostUp s = true) {fn addr : Nat} (hfn : fn < 2) (hf : fnOpen (fnOf fn s) = true) (ha : addr % 8 = 0)
    (hmiss : apertureMiss addr s = false ∨ fn = 1) : exec (.hostWindowRead (.bar0 fn) addr 8) s =
      .next (emit (.hostData (beBytes 8 (if fn = 0 then pf0Long addr s else pf1Long addr s).toNat) false) s) := by
  have hno : ¬ (fn = 0 ∧ apertureMiss addr s = true) := by
    rcases hmiss with hmiss | rfl <;> simp [*]
  rw [exec_barRead h hfn, barRead, if_neg (by simp [hf, ha]), if_neg hno]
  exact done_framed (frame_emit s _) hs

theorem barWrite_spec (h : hostUp s = true) {fn addr : Nat} (hfn : fn < 2) (hf : fnOpen (fnOf fn s) = true) (ha : addr % 8 = 0) {data : List Byte} (hd : data.length = 8) :
    exec (.hostWindowWrite (.bar0 fn) addr data false) s = exec (.registerWrite (if fn = 0 then .pf0 else .pf1) addr (BitVec.ofNat 64 (beNat data))) s := by
  have hreg : ∀ v : View, exec (.registerWrite v addr (BitVec.ofNat 64 (beNat data))) s = done s (regWrite v addr (BitVec.ofNat 64 (beNat data)) s) :=
    fun v => if_pos (powered_of_hostUp h)
  rw [exec_barWrite h hfn, hreg, barWrite, if_neg (by simp [hf, ha, hd]), if_neg (by decide)]
  split <;> rfl

theorem barRead_refused (hs : Safety.settled s) (h : hostUp s = true) {fn addr len : Nat} (hfn : fn < 2) (hno : fnOpen (fnOf fn s) = false ∨ len ≠ 8 ∨ addr % 8 ≠ 0) :
    exec (.hostWindowRead (.bar0 fn) addr len) s = .next (emit .hostUr (countUr fn s)) := by
  rw [exec_barRead h hfn, barRead, if_pos (by rcases hno with h | h | h <;> simp [h]), refuseFn]
  exact done_framed (((frame_countUr fn s).mono (by decide) : Touches [.pf0, .pf1, .out] s _).andThen (frame_emit _ _)) hs

theorem barWrite_refused (hs : Safety.settled s) (h : hostUp s = true) {fn addr : Nat} (hfn : fn < 2) {data : List Byte} (ep : Bool)
    (hno : fnOpen (fnOf fn s) = false ∨ data.length ≠ 8 ∨ addr % 8 ≠ 0) : exec (.hostWindowWrite (.bar0 fn) addr data ep) s = .next (countUr fn s) := by
  rw [exec_barWrite h hfn, barWrite, if_pos (by rcases hno with h | h | h <;> simp [h])]
  exact done_framed (frame_countUr fn s) hs

/-! ### Configuration -/

theorem config_early (h : hostUp s = true) {fn : Nat} (hfn : fn < 2) (f : CfgField) (w : Option Long) (ht : s.tor.tor < s.hp.since + 800000000) :
    exec (.hostConfigRequest fn f w) s = .next (emit (.config fn none) s) := by
  show execHostConfigRequest fn f w s = _
  unfold execHostConfigRequest
  rw [if_neg (by simp [h]; omega)]
  exact if_pos ht

theorem config_read (h : hostUp s = true) {fn : Nat} (hfn : fn < 2) (f : CfgField) (ht : s.hp.since + 800000000 ≤ s.tor.tor) :
    exec (.hostConfigRequest fn f none) s = .next (emit (.config fn (some (cfgRead fn f s))) s) := by
  show execHostConfigRequest fn f none s = _
  unfold execHostConfigRequest
  rw [if_neg (by simp [h]; omega)]
  exact if_neg (not_lt.mpr ht)

theorem fnOf_setFn (fn : Nat) (f : HostFn) (s : State) : fnOf fn (setFn fn f s) = f := by
  unfold fnOf setFn
  split <;> rfl

theorem frame_setFn (fn : Nat) (f : HostFn) (s : State) : Touches [.pf0, .pf1] s (setFn fn f s) := by
  unfold setFn
  exact touches_ite (fun _ => (frame_pf0 s f).mono (by decide)) fun _ => (frame_pf1 s f).mono (by decide)

theorem config_bar (hs : Safety.settled s) (h : hostUp s = true) {fn n : Nat} (hfn : fn < 2) (w : Long) (ht : s.hp.since + 800000000 ≤ s.tor.tor) (hn : n ≠ 6)
    (hz : barSize fn n ≠ 0) (hr : (fnOf fn s).flr = false) : ∃ t, exec (.hostConfigRequest fn (.bar n) (some w)) s = .next t ∧
      tget 0 n (fnOf fn t).bar = w.toNat / barSize fn n * barSize fn n ∧ (∀ k, k ≠ n → tget 0 k (fnOf fn t).bar = tget 0 k (fnOf fn s).bar) ∧
      t.out = s.out ++ [.config fn (some w)] ∧ t.sto = s.sto ∧ t.flt = s.flt := by
  have hwrite : cfgWrite fn (.bar n) w s = setFn fn { fnOf fn s with bar := tset 0 n (w.toNat / barSize fn n * barSize fn n) (fnOf fn s).bar } s :=
    (if_neg hn).trans (if_neg hz)
  have hexec : exec (.hostConfigRequest fn (.bar n) (some w)) s = done s (emit (.config fn (some w)) (cfgWrite fn (.bar n) w s)) := by
    show execHostConfigRequest fn (.bar n) (some w) s = _
    unfold execHostConfigRequest
    rw [if_neg (by simp [h]; omega)]
    exact (if_neg (not_lt.mpr ht)).trans (if_neg (by simp [hr]))
  have hset := frame_setFn fn { fnOf fn s with bar := tset 0 n (w.toNat / barSize fn n * barSize fn n) (fnOf fn s).bar } s
  have hof := fnOf_setFn fn { fnOf fn s with bar := tset 0 n (w.toNat / barSize fn n * barSize fn n) (fnOf fn s).bar } s
  rw [hexec, hwrite]
  generalize setFn fn { fnOf fn s with bar := tset 0 n (w.toNat / barSize fn n * barSize fn n) (fnOf fn s).bar } s = u at *
  have hall : Touches [.pf0, .pf1, .out] s (emit (.config fn (some w)) u) := (hset.mono (by decide)).andThen (frame_emit u _)
  have hbar : fnOf fn (emit (.config fn (some w)) u) = fnOf fn u := rfl
  have hout : u.out = s.out := hset .out (by decide)
  refine ⟨_, done_framed hall hs, ?_, fun k hk => ?_, congrArg (· ++ [Out.config fn (some w)]) hout, hall .sto (by decide), hall .flt (by decide)⟩
  · rw [hbar, hof]
    exact tget_tset_same ..
  · rw [hbar, hof]
    exact tget_tset_ne _ _ _ hk

/-- Settles O53. -/
theorem hostWindowsCommitReadAndWrite : Obligations.HostWindowsCommitReadAndWrite := by
  unfold Obligations.HostWindowsCommitReadAndWrite
  intro s hs h
  have ho : operating s = true := by
    simp only [hostUp, Bool.and_eq_true] at h
    exact h.1
  refine ⟨fun v mask hv => commit_spec hs ho hv mask, fun w addr hw hf => ⟨fun len p a d least hl hp hpend hmiss hread hg =>
      windowRead_storage hw hs h hf addr hl hp hpend hmiss hread hg, fun len o => windowRead_flash hw hs h hf addr, fun len x => windowRead_waits hw hs h hf addr,
      fun len => windowRead_refused hw hs h hf addr, fun data p a => windowWrite_stores hw hs h hf addr, fun data ep => windowWrite_refused hw hs h hf addr ep⟩,
    fun w addr hw hf => ⟨fun len => ?_, fun data ep => ?_⟩, fun addr hf => ⟨fun len => pf0Read_spec hs h hf, fun data => pf0Write_spec hs h hf⟩,
    fun fn addr hfn => ⟨fun hf ha => ⟨barRead_spec hs h hfn hf ha, fun data => barWrite_spec h hfn hf ha⟩, fun len => barRead_refused hs h hfn,
      fun data ep => barWrite_refused hs h hfn ep⟩,
    fun fn f hfn => ⟨fun w => config_early h hfn f w, config_read h hfn f, fun w n ht hf hn hz hr => hf ▸ config_bar hs h hfn w ht hn hz hr⟩⟩
  · rw [exec_windowRead hw h, windowRead_closed hw hf]
    exact done_framed (((frame_countUr 1 s).mono (by decide) : Touches [.pf0, .pf1, .out] s _).andThen (frame_emit _ _)) hs
  · rw [exec_windowWrite hw h, windowWrite_closed hw hf]
    exact done_framed (frame_countUr 1 s) hs

end

end Sys2Proof.Machine
end


section
set_option Elab.async false
/-! PROOFS. O57: the Maquette monitor's lines and its observe level. -/

namespace Sys2Proof.Machine

section
variable {s t u : State} {ss : Session}

/-! ### The monitor with nothing to tell -/

/-- With nothing to tell of a core, a recast or a grant, and no line waiting, the monitor's turn changes nothing. -/
theorem mqPoll_still (hm : Safety.monitorStill s) (hg : grantDue s = s) : mqPoll s = s := by
  obtain ⟨hcore, hrec, hqueue⟩ := hm
  have hnone : s.cpu.core.filter (fun e => e.2.mqWait.isSome) = [] := List.filter_eq_nil_iff.2 fun e he => by simp [hcore e he]
  have hrecast : recastAnswer s = s := by simp only [recastAnswer, hrec]
  simp only [mqPoll, hnone, List.map_nil, List.foldl_nil, hrecast, hg, hqueue, List.length_nil, mqDrain]

theorem monitorStill_of_idle (hm : Safety.monitorIdle s) : Safety.monitorStill s ∧ grantDue s = s := by
  obtain ⟨hbusy, hqueue⟩ := hm
  simp only [mqBusy, Bool.or_eq_false_iff, Option.isSome_eq_false_iff, Option.isNone_iff_eq_none, List.any_eq_false, Bool.not_eq_true] at hbusy
  obtain ⟨⟨⟨-, hrec⟩, hpend⟩, hcore⟩ := hbusy
  exact ⟨⟨hcore, hrec, hqueue⟩, by simp only [grantDue, hpend]⟩

theorem mqPoll_idle (hm : Safety.monitorIdle s) : mqPoll s = s := mqPoll_still (monitorStill_of_idle hm).1 (monitorStill_of_idle hm).2

theorem mqSubmit_idle (hm : Safety.monitorIdle s) (x : MqItem) : mqSubmit x s = mqItem x s := by
  simp only [mqSubmit, mqPoll_idle hm, hm.1, Bool.false_eq_true, if_false]

theorem mqDo_idle (hm : Safety.monitorIdle s) (hu : mqUp s = true) (c : MqCmd) : mqDo ss c s = done s (mqExec ss c s) := by
  rw [mqDo, if_pos hu, mqSubmit_idle hm]
  rfl

/-- A line that comes while another is being executed waits behind it. -/
theorem mqSubmit_busy (hm : Safety.monitorStill s) (hg : grantDue s = s) (hb : mqBusy s = true) (x : MqItem) :
    mqSubmit x s = { s with mq := { s.mq with queue := [x] } } := by
  simp only [mqSubmit, mqPoll_still hm hg, hb, if_true, hm.2.2, List.nil_append]

/-! ### What the monitor answers -/

theorem frame_respond (ss : Session) (lines : List (List Byte)) (s : State) : Touches [.out, .svc, .pf0] s (respond ss lines s) := by
  cases ss with
  | uart => exact (frame_emit s _).mono (by decide)
  | mailbox => exact ((((frame_svc s _).mono (by decide)).andThen (frame_svc _ _)).andThen (frame_svc _ _)).andThen (frame_pf0Vector _ 5)

/-- A command that only answers goes on with what it answered. -/
theorem done_respond (hs : Safety.settled s) (ss : Session) (lines : List (List Byte)) : done s (respond ss lines s) = .next (respond ss lines s) :=
  done_framed (frame_respond ss lines s) hs

theorem svcBytes_untouched {off n o : Nat} {d : List Byte} (h : o + d.length ≤ off ∨ off + n ≤ o) (s : State) :
    svcBytes off n (svcWrite o d s) = svcBytes off n s := by
  refine List.map_congr_left fun i hi => ?_
  have hi : i < n := List.mem_range.1 hi
  simp only [svcWrite_byte]
  rw [if_neg (by omega)]
  rfl

theorem svcBytes_same {off n : Nat} (hsvc : t.svc = u.svc) (htr : t.tr = u.tr) : svcBytes off n t = svcBytes off n u := by
  simp only [svcBytes, svcMask, hsvc, htr]

theorem svcBytes_written (off : Nat) (d : List Byte) (s : State) : svcBytes off d.length (svcWrite off d s) = d := svcBytes_svcWrite off d rfl rfl

theorem respond_mailbox {lines : List (List Byte)} {b : List Byte} (hb : lines.flatMap (fun l => l ++ [13, 10]) = b) (hlen : b.length ≤ 61440) :
    ∃ t, respond .mailbox lines s = t ∧ natAt (svcBytes 0x03FF0010 8 t) 0 8 = s.mq.inSeq % 2 ^ 64 ∧ natAt (svcBytes 0x03FF0018 4 t) 0 4 = b.length ∧
      svcBytes 0x03FF1000 b.length t = b ∧ t.sto = s.sto ∧ t.flt = s.flt := by
  have hclip : clipText (lines.flatMap (fun l => l ++ crlf)) = b := by
    rw [clipText, show lines.flatMap (fun l => l ++ crlf) = b from hb]
    exact if_pos hlen
  have heq : respond .mailbox lines s =
      pf0Vector 5 (svcWrite mbxOutSeq (beBytes 8 s.mq.inSeq) (svcWrite mbxOutLen (beBytes 4 b.length) (svcWrite mbxOutText b s))) := by
    rw [respond, hclip]
    rfl
  have hseq : (beBytes 8 s.mq.inSeq).length = 8 := length_beBytes 8 _
  have hlen4 : (beBytes 4 b.length).length = 4 := length_beBytes 4 _
  have h := frame_respond .mailbox lines s
  rw [heq] at h
  have hvec := frame_pf0Vector (svcWrite mbxOutSeq (beBytes 8 s.mq.inSeq) (svcWrite mbxOutLen (beBytes 4 b.length) (svcWrite mbxOutText b s))) 5
  have hread : ∀ off n, svcBytes off n (respond .mailbox lines s) =
      svcBytes off n (svcWrite mbxOutSeq (beBytes 8 s.mq.inSeq) (svcWrite mbxOutLen (beBytes 4 b.length) (svcWrite mbxOutText b s))) := fun off n => by
    rw [heq]
    exact svcBytes_same (hvec .svc (by decide)) (hvec .tr (by decide))
  refine ⟨_, rfl, ?_, ?_, ?_, ?_, ?_⟩
  · rw [hread, show svcBytes 0x03FF0010 8 _ = beBytes 8 s.mq.inSeq from hseq ▸ svcBytes_written mbxOutSeq (beBytes 8 s.mq.inSeq) _, natAt_beBytes]
    rfl
  · rw [hread, svcBytes_untouched (by simp only [hseq, mbxOutSeq]; omega),
      show svcBytes 0x03FF0018 4 _ = beBytes 4 b.length from hlen4 ▸ svcBytes_written mbxOutLen (beBytes 4 b.length) _, natAt_beBytes]
    exact Nat.mod_eq_of_lt (by omega)
  · rw [hread, svcBytes_untouched (by simp only [hseq, mbxOutSeq]; omega), svcBytes_untouched (by simp only [hlen4, mbxOutLen]; omega)]
    exact svcBytes_written mbxOutText b s
  · exact heq ▸ h .sto (by decide)
  · exact heq ▸ h .flt (by decide)

/-! ### The commands of the observe level, BAUD, characters and the mailbox -/

theorem exec_observe (hs : Safety.settled s) (hu : mqUp s = true) (hm : Safety.monitorIdle s) {c : MqCmd} {lines : List (List Byte)}
    (hc : mqExec ss c s = respond ss lines s) : mqDo ss c s = .next (respond ss lines s) := by
  rw [mqDo_idle hm hu, hc, done_respond hs]

theorem exec_link_spec (hs : Safety.settled s) (hu : mqUp s = true) (hm : Safety.monitorIdle s) (p : Option PortId) :
    exec (.mqLink ss p) s = .next (if p.all portExists then respond ss (showLink p s) s else respond ss [errLine 3] s) := by
  change (if p.all portExists then mqDo ss (.link p) s else if mqUp s then done s (mqSubmit (.bad ss 3) s) else .next s) = _
  simp only [hu, if_true, mqSubmit_idle hm]
  split
  · exact exec_observe hs hu hm rfl
  · exact done_respond hs ss [errLine 3]

theorem exec_observe_spec (hs : Safety.settled s) (hu : mqUp s = true) (hm : Safety.monitorIdle s) (ss : Session) :
    exec (.mqId ss) s = .next (respond ss [regLine "ID_PART" .idPart s, regLine "ID_ORDER" .idOrder s, regLine "ID_SERIAL" .idSerial s, regLine "ID_TOPOLOGY" .idTopology s] s) ∧
     exec (.mqTor ss) s = .next (respond ss (showTor s) s) ∧
     (∀ a b, exec (.mqPatina ss a b) s = .next (if a ≤ b ∧ b ≤ 0x29F then respond ss (showPatina a b s) s else respond ss [errLine 3] s)) ∧
     (∀ n, exec (.mqFlt ss n) s = .next (if 1 ≤ n ∧ n ≤ 8192 then respond ss (showFlt n s) s else respond ss [errLine 3] s)) ∧
     exec (.mqPlinth ss) s = .next (respond ss ([regLine "PLN_STATUS" .plnStatus s, regLine "PLN_GEN" .plnGen s, regLine "PLN_FUSE" .plnFuse s] ++
       (partIds s).map (fun p => regLineN "PART_STATE" p (.partState p) s)) s) ∧
     (∀ i, exec (.mqJnl ss (some i)) s = .next (if i < 262144 then respond ss ([regLine "JNL_STATUS" .jnlStatus s, regLine "JNL_LAT" .jnlLat s] ++
       (List.range 8).map (fun k => asc "JNL_ENTRY" ++ decNum k ++ asc " " ++ hexLong (BitVec.ofNat 64 (natAt (jent i s).bytes (8 * k) 8)))) s else respond ss [errLine 3] s)) ∧
     exec (.mqJnl ss none) s = .next (respond ss [regLine "JNL_STATUS" .jnlStatus s, regLine "JNL_LAT" .jnlLat s] s) ∧
     (∀ p, exec (.mqLink ss p) s = .next (if p.all portExists then respond ss (showLink p s) s else respond ss [errLine 3] s)) := by
  refine ⟨exec_observe hs hu hm rfl, exec_observe hs hu hm rfl, fun a b => ?_, fun n => ?_, exec_observe hs hu hm rfl, fun i => ?_, exec_observe hs hu hm rfl,
    exec_link_spec hs hu hm⟩
  · split
    next h => exact exec_observe hs hu hm (if_pos h)
    next h => exact exec_observe hs hu hm (if_neg h)
  · split
    next h => exact exec_observe hs hu hm (if_pos h)
    next h => exact exec_observe hs hu hm (if_neg h)
  · split
    next h => exact exec_observe hs hu hm (if_neg (Nat.not_le.2 h))
    next h => exact exec_observe hs hu hm (if_pos (Nat.not_lt.1 h))

theorem baudOk_iff (r : Nat) : baudOk r = true ↔ r ∈ [115200, 230400, 460800, 921600, 1500000, 3000000] := List.contains_iff_mem

theorem exec_baud_taken (hs : Safety.settled s) (hu : mqUp s = true) (hm : Safety.monitorIdle s) {r : Nat} (hr : baudOk r = true) :
    ∃ t, exec (.mqBaud ss r) s = .next t ∧ t.mq.baud = r ∧ t.mq.oldBaud = s.mq.baud ∧ t.mq.baudSince = some s.tor.tor ∧ t.out = (respond ss [asc "ok"] s).out := by
  have h := frame_respond ss [asc "ok"] s
  have hbaud : mqExec ss (.baud r) s = { respond ss [asc "ok"] s with mq := { (respond ss [asc "ok"] s).mq with
      baud := r, oldBaud := (respond ss [asc "ok"] s).mq.baud, baudSince := some (respond ss [asc "ok"] s).tor.tor } } := if_pos hr
  have hmq : (respond ss [asc "ok"] s).mq = s.mq := h .mq (by decide)
  have htor : (respond ss [asc "ok"] s).tor = s.tor := h .tor (by decide)
  have hframe : Touches [.out, .svc, .pf0, .mq, .keeps, .still] s (mqExec ss (.baud r) s) := by
    rw [hbaud]
    exact (h.mono (by decide)).andThen (frame_mq _ _)
  refine ⟨_, ((mqDo_idle hm hu _).trans (done_framed hframe hs)).trans (congrArg _ hbaud), rfl, ?_, ?_, rfl⟩
  · exact congrArg Maquette.baud hmq
  · exact by rw [← htor]

theorem exec_baudTimeout_spec (hu : mqUp s = true) : (s.mq.baudSince = none → exec .baudTimeout s = .next s) ∧
    (∀ t0, s.mq.baudSince = some t0 → (s.tor.tor < t0 + 40000000000 → exec .baudTimeout s = .next s) ∧
      (t0 + 40000000000 ≤ s.tor.tor → exec .baudTimeout s = .next { s with mq := { s.mq with baud := s.mq.oldBaud, baudSince := none } })) := by
  have hexec : exec .baudTimeout s = execBaudTimeout s := rfl
  rw [hexec, execBaudTimeout]
  refine ⟨fun h => by simp only [h], fun t0 h => ?_⟩
  have hdue : t0 + 10 * ticksS = t0 + 40000000000 := rfl
  simp only [h, hu, hdue, Bool.true_and, decide_eq_true_eq]
  exact ⟨fun hlt => if_neg (by omega), fun hle => if_pos hle⟩

theorem exec_rx (hu : mqUp s = true) (c : Byte) : exec (.mqRxCharacter c) s = done s (rxChar c s) := if_pos hu

/-- A character is echoed, and the line is the monitor's own. -/
theorem frame_echo (o : Out) (x : Maquette) (s : State) : Touches [.out, .mq, .keeps, .still] s { emit o s with mq := x } :=
  ((frame_emit s o).mono (by decide)).andThen (frame_mq _ x)

/-- What the monitor answers once its line is complete. -/
theorem done_echoed (hs : Safety.settled s) (o : Out) (x : Maquette) (ss : Session) (lines : List (List Byte)) :
    done s (respond ss lines { emit o s with mq := x }) = .next (respond ss lines { emit o s with mq := x }) :=
  done_framed (rs := [.out, .svc, .pf0, .mq, .keeps, .still]) (((frame_echo o x s).mono (by decide)).andThen (frame_respond _ _ _)) hs

theorem monitorIdle_echo (hm : Safety.monitorIdle s) (o : Out) {x : Maquette} (hx : x.uart = s.mq.uart ∧ x.mbx = s.mq.mbx ∧ x.recast = s.mq.recast ∧ x.queue = s.mq.queue) :
    Safety.monitorIdle { emit o s with mq := x } := by
  obtain ⟨huart, hmbx, hrecast, hqueue⟩ := hx
  refine ⟨?_, hqueue.trans hm.2⟩
  have hbusy : mqBusy { emit o s with mq := x } = mqBusy s := by simp only [mqBusy, huart, hmbx, hrecast, emit]
  exact hbusy.trans hm.1

theorem rx_joins (hs : Safety.settled s) (hu : mqUp s = true) {c : Byte} (h13 : c ≠ 13) (h10 : c ≠ 10) : exec (.mqRxCharacter c) s = .next { s with
      out := s.out ++ [.text .uart [c]],
      mq := if c = 8 ∨ c = 0x7F then { s.mq with line := s.mq.line.dropLast } else if 256 ≤ s.mq.line.length then { s.mq with tooLong := true } else { s.mq with line := s.mq.line ++ [c] } } := by
  have hrx : rxChar c s = { emit (.text .uart [c]) s with
      mq := if c = 8 ∨ c = 0x7F then { s.mq with line := s.mq.line.dropLast } else if 256 ≤ s.mq.line.length then { s.mq with tooLong := true } else { s.mq with line := s.mq.line ++ [c] } } := by
    rw [rxChar]
    simp only [h13, h10, or_self, if_false]
    by_cases hdel : c = 8 ∨ c = 0x7F
    · simp only [if_pos hdel]
      rfl
    · by_cases hfull : 256 ≤ s.mq.line.length
      · simp only [if_neg hdel, if_pos hfull]
        exact if_pos hfull
      · simp only [if_neg hdel, if_neg hfull]
        exact if_neg hfull
  rw [exec_rx hu, hrx]
  exact done_framed (frame_echo _ _ s) hs

/-- The state in which a complete line is executed. -/
def lineBegun (c : Byte) (s : State) : State :=
  { emit (.text .uart [c]) s with mq := { s.mq with line := [], tooLong := false, baudSince := none } }

theorem rxChar_end {c : Byte} (hc : c = 13 ∨ c = 10) : rxChar c s = if s.mq.tooLong then mqSubmit (.bad .uart 2) (lineBegun c s)
    else if s.mq.line.isEmpty then { lineBegun c s with mq := { (lineBegun c s).mq with baudSince := s.mq.baudSince } }
    else mqSubmit (.line .uart s.mq.line) (lineBegun c s) := if_pos hc

theorem monitorIdle_lineBegun (hm : Safety.monitorIdle s) (c : Byte) : Safety.monitorIdle (lineBegun c s) := monitorIdle_echo hm _ ⟨rfl, rfl, rfl, rfl⟩

theorem lineBegun_uart (c : Byte) (s : State) : sessionOf .uart (lineBegun c s) = s.mq.uart := rfl

/-- A complete line that is answered at once. -/
theorem line_answered (hs : Safety.settled s) (hu : mqUp s = true) {c : Byte} {lines : List (List Byte)} (hrx : rxChar c s = respond .uart lines (lineBegun c s)) :
    ∃ t, exec (.mqRxCharacter c) s = .next t ∧ t.mq.line = [] ∧ t.mq.tooLong = false ∧ t.mq.baudSince = none ∧
      t.out = s.out ++ [.text .uart [c], .text .uart (lines.flatMap (fun l => l ++ crlf) ++ prompt)] := by
  rw [exec_rx hu, hrx]
  exact ⟨_, done_echoed hs _ _ _ _, rfl, rfl, rfl, List.append_assoc _ _ _⟩

theorem rx_tooLong (hs : Safety.settled s) (hu : mqUp s = true) (hm : Safety.monitorIdle s) {c : Byte} (hc : c = 13 ∨ c = 10) (hl : s.mq.tooLong = true) :
    ∃ t, exec (.mqRxCharacter c) s = .next t ∧ t.mq.line = [] ∧ t.mq.tooLong = false ∧
      t.out = s.out ++ [.text .uart [c], .text .uart (errLine 2 ++ crlf ++ prompt)] := by
  have hrx : rxChar c s = respond .uart [errLine 2] (lineBegun c s) := by
    rw [rxChar_end hc, if_pos hl, mqSubmit_idle (monitorIdle_lineBegun hm c)]
    rfl
  obtain ⟨t, ht, hline, hlong, -, hout⟩ := line_answered hs hu hrx
  exact ⟨t, ht, hline, hlong, by simpa using hout⟩

theorem rx_malformed (hs : Safety.settled s) (hu : mqUp s = true) (hm : Safety.monitorIdle s) {c : Byte} {e : Nat} (hc : c = 13 ∨ c = 10) (hl : s.mq.tooLong = false)
    (hline : s.mq.line ≠ []) (hw : s.mq.uart.await = none) (hp : parseLine s.mq.line = .inl e) :
    ∃ t, exec (.mqRxCharacter c) s = .next t ∧ t.mq.line = [] ∧ t.mq.baudSince = none ∧ t.out = s.out ++ [.text .uart [c], .text .uart (errLine e ++ crlf ++ prompt)] := by
  have hrx : rxChar c s = respond .uart [errLine e] (lineBegun c s) := by
    rw [rxChar_end hc, if_neg (by simp [hl]), if_neg (by simpa using hline), mqSubmit_idle (monitorIdle_lineBegun hm c)]
    change mqLine .uart s.mq.line (lineBegun c s) = _
    rw [mqLine, if_neg (by simp [lineBegun_uart, hw]), hp]
    rfl
  obtain ⟨t, ht, hempty, -, hsince, hout⟩ := line_answered hs hu hrx
  exact ⟨t, ht, hempty, hsince, by simpa using hout⟩

theorem mailbox_unchanged (hs : Safety.settled s) (hu : mqUp s = true) (hm : Safety.monitorIdle s) (h : natAt (svcBytes 0x03FF0000 8 s) 0 8 = s.mq.inSeq) :
    exec .mailboxLine s = .next s := by
  have hexec : exec .mailboxLine s = done s (mailboxTake s) := (if_pos hu).trans (congrArg _ (mqSubmit_idle hm _))
  rw [hexec, mailboxTake]
  exact (congrArg (done s) (if_pos h)).trans (done_framed (.refl [] s) hs)

theorem mailbox_tor (hs : Safety.settled s) (hu : mqUp s = true) (hm : Safety.monitorIdle s) {n : Nat} (h : natAt (svcBytes 0x03FF0000 8 s) 0 8 ≠ s.mq.inSeq)
    (hn : natAt (svcBytes 0x03FF0008 4 s) 0 4 = n) (h1 : 1 ≤ n) (h2 : n ≤ 256) (hw : s.mq.mbx.await = none) (hp : parseLine (svcBytes 0x03FF0100 n s) = .inr .tor) :
    exec .mailboxLine s = exec (.mqTor .mailbox) { s with mq := { s.mq with inSeq := natAt (svcBytes 0x03FF0000 8 s) 0 8 } } := by
  have hexec : exec .mailboxLine s = done s (mailboxTake s) := (if_pos hu).trans (congrArg _ (mqSubmit_idle hm _))
  have hframe := frame_mq s { s.mq with inSeq := natAt (svcBytes 0x03FF0000 8 s) 0 8 }
  have htake : mailboxTake s = mqLine .mailbox (svcBytes 0x03FF0100 n s) { s with mq := { s.mq with inSeq := natAt (svcBytes 0x03FF0000 8 s) 0 8 } } := by
    rw [mailboxTake]
    refine (if_neg h).trans ?_
    rw [show natAt (svcBytes mbxInLen 4 s) 0 4 = n from hn]
    exact if_neg (by omega)
  generalize hx : ({ s.mq with inSeq := natAt (svcBytes 0x03FF0000 8 s) 0 8 } : Maquette) = x at *
  have hmbx : x.mbx = s.mq.mbx := hx ▸ rfl
  have hidle : Safety.monitorIdle { s with mq := x } := ⟨(by subst hx; exact hm.1), (by subst hx; exact hm.2)⟩
  have hline : mqLine .mailbox (svcBytes 0x03FF0100 n s) { s with mq := x } = respond .mailbox (showTor { s with mq := x }) { s with mq := x } := by
    refine (if_neg (by simp [sessionOf, hmbx, hw])).trans ?_
    simp only [hp]
    rfl
  rw [hexec, htake, hline]
  refine (done_framed (rs := [.mq, .keeps, .still, .out, .svc, .pf0]) ((hframe.mono (by decide)).andThen (frame_respond _ _ _)) hs).trans (Eq.symm ?_)
  exact exec_observe (show Safety.settled { s with mq := x } from hs) hu hidle rfl

theorem submit_busy (hs : Safety.settled s) (hm : Safety.monitorStill s) (hg : grantDue s = s) (hb : mqBusy s = true) (x : MqItem) :
    done s (mqSubmit x s) = .next { s with mq := { s.mq with queue := [x] } } := by
  rw [mqSubmit_busy hm hg hb]
  exact done_framed (frame_mq s _) hs

/-- Settles O57: an idle monitor's poll changes nothing, what it answers is put out as it is, and a line that comes meanwhile waits. -/
theorem maquetteObservesAndTakesLines : Obligations.MaquetteObservesAndTakesLines := by
  refine ⟨fun s ss hs hu hm => ⟨exec_observe_spec hs hu hm ss, fun lines => ⟨rfl, fun h => respond_mailbox rfl h⟩, fun r hr => ?_, fun r hr => ?_, ?_, ?_,
    fun c h13 h10 => rx_joins hs hu h13 h10, fun c hc => ⟨fun h => rx_tooLong hs hu hm hc h, fun e hl hline hw hp => rx_malformed hs hu hm hc hl hline hw hp⟩,
    mailbox_unchanged hs hu hm, fun n h hn h1 h2 hw hp => mailbox_tor hs hu hm h hn h1 h2 hw hp⟩, fun s ss c i hs hu hm hg hb hi => ?_⟩
  · exact exec_baud_taken hs hu hm ((baudOk_iff r).2 hr)
  · exact exec_observe hs hu hm (if_neg fun h => hr ((baudOk_iff r).1 h))
  · exact (exec_baudTimeout_spec hu).1
  · exact (exec_baudTimeout_spec hu).2
  · have hsubmit : exec i s = done s (mqSubmit c s) := by
      simp only [List.mem_cons, Prod.mk.injEq, List.not_mem_nil, or_false] at hi
      rcases hi with ⟨rfl, rfl⟩ | ⟨rfl, rfl⟩ | ⟨rfl, rfl⟩ | ⟨rfl, rfl⟩ | ⟨rfl, rfl⟩ <;> exact if_pos hu
    rw [hsubmit, submit_busy hs hm hg hb]

end

end Sys2Proof.Machine
end


section
set_option Elab.async false
/-! PROOFS. Storage under another key, key slots emptied, and a partition's keys destroyed (18 R421, R426; 19 R451). -/

namespace Sys2Proof.Machine

section
variable {s t u : State} {p : Nat}

/-! ### Another storage key -/

/-- What storage under another key writes, but for the key. -/
def rekeyRegs : List FrameReg := [.sto, .mem, .arm, .cpu, .core, .keeps, .own, .still, .tr, .free]

theorem frame_homeSet {a : Nat} {v : Byte} : Touches [.sto, .mem, .arm] s (homeSet a v s) := by
  refine touches_ite (fun _ => (frame_sto s _).mono (by decide)) fun _ => ?_
  split
  next r _ => exact (frame_fabric s { s.arm with rlines := tset none (lineOf a) (some { r with data := r.data.set (a % 128) v }) s.arm.rlines } rfl rfl).mono (by decide)
  · exact .refl _ s

theorem rekey_flushLines {f : Nat → Bool} : Touches rekeyRegs s (flushLines f s) := by
  have hback : Touches rekeyRegs s (writeBackIf (fun a _ => f a) s) := by
    refine (touches_foldl (fun u e => ?_) _ s).trans ((frame_cpu _ _).mono (by decide))
    split
    · exact frame_homeSet.mono (by decide)
    · exact .refl _ u
  exact hback.trans ((frame_onCores _ _ _).mono (by decide))

theorem rekey_scramble {rs : List (Nat × Nat)} : Touches [.sto, .mem, .free] s (scramble rs s) :=
  touches_foldl (fun u _ => touches_ite (fun _ => ((frame_free u _).mono (by decide)).andThen (frame_sto _ _)) fun _ => .refl _ u) rs s

theorem frame_replaceKey {xs : List Extent} : Touches rekeyRegs s (replaceKey p xs s) :=
  (rekey_flushLines.trans (rekey_scramble.mono (by decide))).trans (frame_genStorageKey.mono (by decide))

theorem length_drawBytes (n : Nat) : ∀ s, (drawBytes s n).1.length = n := by
  induction n with
  | zero => exact fun _ => rfl
  | succ n ih => exact fun s => congrArg (· + 1) (ih _)

/-- The module's trusted state with a partition's storage key replaced by one that the generator gave. -/
def keyReplaced (p : Nat) (key : List Byte) (x : Trust) : Trust :=
  { x with drbg := tmod {} 48 (fun d => { d with requests := d.requests + 1 }) x.drbg, storageKey := tset none p (some key) x.storageKey,
           keyGen := if p < 48 then tmod 0 p (fun n => satAdd 32 n 1) x.keyGen else x.keyGen }

theorem genStorageKey_tr (p : Nat) (s : State) : ∃ key, key.length = 64 ∧ (genStorageKey p s).tr = keyReplaced p key s.tr := by
  have hdrawn : (drawBytes (drbgCount 48 s) 64).2.tr = (drbgCount 48 s).tr := frame_drawBytes 64 .tr (by decide)
  refine ⟨(drawBytes (drbgCount 48 s) 64).1, length_drawBytes 64 _, ?_⟩
  have hgen : (genStorageKey p s).tr = { (drawBytes (drbgCount 48 s) 64).2.tr with
      storageKey := tset none p (some (drawBytes (drbgCount 48 s) 64).1) (drawBytes (drbgCount 48 s) 64).2.tr.storageKey,
      keyGen := if p < 48 then tmod 0 p (fun n => satAdd 32 n 1) (drawBytes (drbgCount 48 s) 64).2.tr.keyGen else (drawBytes (drbgCount 48 s) 64).2.tr.keyGen } := rfl
  rw [hgen, hdrawn]
  rfl

theorem replaceKey_tr (p : Nat) (xs : List Extent) (s : State) : ∃ key, key.length = 64 ∧ (replaceKey p xs s).tr = keyReplaced p key s.tr := by
  have hback : (writeBackIf (fun a _ => inExtents xs a) s).tr = s.tr := traffic_writeBackIf .tr (by decide)
  have hflush : (flushLines (inExtents xs) s).tr = s.tr := (frame_onCores _ _ _ .tr (by decide)).trans hback
  have hscramble : (scramble (cutExtents xs []) (flushLines (inExtents xs) s)).tr = s.tr := (rekey_scramble .tr (by decide)).trans hflush
  obtain ⟨key, hlen, hkey⟩ := genStorageKey_tr p (scramble (cutExtents xs []) (flushLines (inExtents xs) s))
  exact ⟨key, hlen, by rw [← hscramble]; exact hkey⟩

/-! ### Key slots emptied, with no engine at work -/

theorem intOf_idle (h : s.eng.inta = []) (k : Nat) : intOf k s = {} := by
  rw [intOf, h]
  rfl

/-- The slots that are to be emptied. -/
def deadSlots (gone : Nat → KeySlot → Bool) (s : State) : List Nat :=
  s.eng.slots.filterMap (fun e => match e.2 with | some k => if gone e.1 k then some e.1 else none | none => none)

theorem destroySlots_idle (h : s.eng.inta = []) (gone : Nat → KeySlot → Bool) (loads : Nat → Nat → Bool) :
    destroySlots gone loads s = (deadSlots gone s).foldl (fun s i => setKeySlot i none s) s := by
  unfold destroySlots
  extract_lets dead uses started
  have hstep : ∀ k u, u = s → (if (intOf k u).job.any uses then intEnd k (some 0x26) u else u) = s := fun k u hu => by
    subst hu
    exact if_neg (by rw [intOf_idle h]; exact Bool.false_ne_true)
  have hfold : started = s := by
    refine List.foldl_fixed' (fun k => hstep k _ ?_) _
    simp only [intOf_idle h]
  rw [hfold]
  rfl

theorem setKeySlots_eng (is : List Nat) : ∀ s, (is.foldl (fun s i => setKeySlot i none s) s) = { s with eng := { s.eng with
    slots := is.foldl (fun t i => tset none i none t) s.eng.slots } } := by
  induction is with
  | nil => exact fun _ => rfl
  | cons i is ih => exact fun s => ih _

theorem tget_emptied (i : Nat) (is : List Nat) : ∀ t : Tab (Option KeySlot), i ∈ is ∨ tget none i t = none → tget none i (is.foldl (fun t i => tset none i none t) t) = none := by
  induction is with
  | nil => exact fun t h => h.elim (fun h => absurd h List.not_mem_nil) id
  | cons j is ih =>
    intro t h
    refine ih _ ?_
    rw [tget_tset]
    by_cases e : i = j
    · exact .inr (if_pos e)
    · rw [if_neg e]
      exact h.imp_left fun h => (List.mem_cons.1 h).resolve_left e

theorem mem_of_tget {α : Type} {d v : α} {k : Nat} : ∀ {t : Tab α}, tget d k t = v → v ≠ d → (k, v) ∈ t
  | [], h, hv => absurd h.symm hv
  | (j, x) :: t, h, hv => by
    rw [tget] at h
    split at h
    next e => exact List.mem_cons.2 (.inl (by rw [e, h]))
    next => exact List.mem_cons_of_mem _ (mem_of_tget h hv)

theorem mem_deadSlots {gone : Nat → KeySlot → Bool} {i : Nat} {k : KeySlot} (h : keySlotOf i s = some k) (hg : gone i k = true) : i ∈ deadSlots gone s :=
  List.mem_filterMap.2 ⟨(i, some k), mem_of_tget h (by simp), by simp [hg]⟩

theorem dropContexts_idle (h : s.eng.inta = []) (p : Nat) : dropContexts p s = s :=
  List.foldl_fixed' (fun k => by simp only [intOf_idle h]) _

/-! ### A partition's keys destroyed -/

/-- The module's trusted state with a generator started anew. -/
def reseeded (inst now : Nat) (x : Trust) : Trust :=
  { x with drbg := tmod {} inst (fun d => { requests := 0, seeded := now, reseeds := d.reseeds + 1 }) x.drbg }

theorem reseed_eq (inst : Nat) (s : State) : reseed inst s = { s with tr := reseeded inst s.tor.tor s.tr } := rfl

/-- What a partition whose storage is here and that no engine works for loses: its slots' keys, and the key of its storage. -/
theorem destroyPart_spec {d : PlnPart} (hi : s.eng.inta = []) (hd : partOf p s = some d) (hh : homedHere d s = true) :
    Touches (.eng :: rekeyRegs) s (destroyPart p s) ∧ (destroyPart p s).eng.iq = s.eng.iq ∧
    (∀ i k, keySlotOf i s = some k → slotInRange p i s = true → k.uuid = uuidOf p s → keySlotOf i (destroyPart p s) = none) ∧
    ∃ key, key.length = 64 ∧ (destroyPart p s).tr = reseeded p s.tor.tor (keyReplaced p key s.tr) := by
  have hslots := setKeySlots_eng (deadSlots (fun i k => k.uuid == uuidOf p s && slotInRange p i s) s) s
  have hdrop : dropContexts p (destroySlots (fun i k => k.uuid == uuidOf p s && slotInRange p i s) (fun q _ => q == p) s) =
      (deadSlots (fun i k => k.uuid == uuidOf p s && slotInRange p i s) s).foldl (fun s i => setKeySlot i none s) s := by
    rw [destroySlots_idle hi]
    refine dropContexts_idle ?_ p
    rw [hslots]
    exact hi
  generalize hv : (deadSlots (fun i k => k.uuid == uuidOf p s && slotInRange p i s) s).foldl (fun s i => setKeySlot i none s) s = v at *
  have hframe : Touches [.eng] s v := by
    rw [hslots]
    exact frame_eng s _
  have hpart : partOf p v = some d := (partOf_of_pln (hframe .pln (by decide)) p).trans hd
  have hhome : homedHere d v = true := by
    rw [← hh]
    simp only [homedHere, isLocal, show v.arm = s.arm from hframe .arm (by decide)]
  have heq : destroyPart p s = reseed p (replaceKey p d.extents v) := by
    unfold destroyPart
    extract_lets u s1 s2
    have h1 : s1 = v := hdrop
    have h2 : s2 = replaceKey p d.extents v := by
      simp only [s2, h1, hpart, hhome, if_true]
    rw [h2]
  obtain ⟨key, hlen, hkey⟩ := replaceKey_tr p d.extents v
  have hrepl : Touches rekeyRegs v (replaceKey p d.extents v) := frame_replaceKey
  have hv_tr : v.tr = s.tr := hframe .tr (by decide)
  have htor : (replaceKey p d.extents v).tor = s.tor := (hrepl .tor (by decide)).trans (hframe .tor (by decide))
  have heng : (destroyPart p s).eng = v.eng := by
    rw [heq]
    exact hrepl .eng (by decide)
  refine ⟨?_, ?_, fun i k hk hr huu => ?_, key, hlen, ?_⟩
  · rw [heq]
    exact ((hframe.mono (by decide)).trans (hrepl.mono (by decide))).trans ((frame_tr _ _).mono (by decide))
  · rw [heng, hslots]
  · rw [keySlotOf, heng, hslots]
    exact tget_emptied i _ _ (.inl (mem_deadSlots hk (by simp [hr, huu])))
  · rw [heq, ← hv_tr, ← hkey, ← htor]
    rfl

end

end Sys2Proof.Machine
end


section
set_option Elab.async false
/-! PROOFS. O58: tokens and grants of the monitor. -/

namespace Sys2Proof.Machine

section
variable {s t u : State} {ss : Session} {p : Nat}

/-! ### Sessions -/

theorem frame_setSession (ss : Session) (v : MqSession) (s : State) : Touches [.mq, .keeps, .still] s (setSession ss v s) := by
  cases ss <;> exact frame_mq s _

theorem sessionOf_other (ss : Session) (v : MqSession) (s : State) : sessionOf (otherSession ss) (setSession ss v s) = sessionOf (otherSession ss) s := by
  cases ss <;> rfl

theorem sessionOf_of_mq (h : t.mq = s.mq) (ss : Session) : sessionOf ss t = sessionOf ss s := by cases ss <;> simp only [sessionOf, h]

theorem grantIn_eq (h : sessionOf ss t = sessionOf ss u) (ht : t.tor = u.tor) : grantIn ss t = grantIn ss u := by simp only [grantIn, h, ht]

theorem done_session (hs : Safety.settled s) (ss : Session) (v : MqSession) : done s (setSession ss v s) = .next (setSession ss v s) :=
  done_framed (frame_setSession ss v s) hs

theorem done_session_respond (hs : Safety.settled s) (ss : Session) (v : MqSession) (lines : List (List Byte)) :
    done s (respond ss lines (setSession ss v s)) = .next (respond ss lines (setSession ss v s)) :=
  done_framed (rs := [.mq, .keeps, .still, .out, .svc, .pf0]) (((frame_setSession ss v s).mono (by decide)).andThen (frame_respond _ _ _)) hs

/-! ### `grant`, `release`, expiry -/

theorem exec_grant_spec (hs : Safety.settled s) (hu : mqUp s = true) (hm : Safety.monitorIdle s) (sc : Scope) (h : grantIn (otherSession ss) s ≠ some sc) :
    exec (.mqGrant ss sc none) s = .next (respond ss [asc "send token"] (setSession ss { sessionOf ss s with await := some sc, token := [] } s)) ∧
      (∀ o, o % 8 ≠ 0 ∨ svcSize < o + 5520 → exec (.mqGrant ss sc (some o)) s = .next (respond ss [errLine 3] s)) := by
  have hexec : ∀ off, exec (.mqGrant ss sc off) s = done s (grantCmd ss sc off s) := fun off => mqDo_idle hm hu _
  refine ⟨?_, fun o ho => ?_⟩
  · rw [hexec, grantCmd, if_neg h]
    exact done_session_respond hs _ _ _
  · rw [hexec, grantCmd, if_neg h]
    exact (congrArg (done s) (if_pos ho)).trans (done_respond hs ss _)

theorem exec_release_spec (hs : Safety.settled s) (hu : mqUp s = true) (hm : Safety.monitorIdle s) :
    ((grantIn ss s).isSome = true → exec (.mqRelease ss) s = .next (respond ss [asc "ok"] (setSession ss { sessionOf ss s with grant := none } s))) ∧
    ((grantIn ss s).isSome = false → exec (.mqRelease ss) s = .next (respond ss [errLine 4] s)) := by
  have hexec : exec (.mqRelease ss) s = done s (releaseCmd ss s) := mqDo_idle hm hu _
  refine ⟨fun h => ?_, fun h => ?_⟩
  · rw [hexec, releaseCmd, if_pos h, done_session_respond hs]
  · rw [hexec, releaseCmd, if_neg (by simp [h])]
    exact done_respond hs ss _

theorem exec_expiry_spec (hu : mqUp s = true) {sc : Scope} {t0 : Nat} (h : (sessionOf ss s).grant = some (sc, t0)) :
    (s.tor.tor < t0 → exec (.grantExpiry ss) s = .next s) ∧
    (t0 ≤ s.tor.tor → exec (.grantExpiry ss) s = .next (setSession ss { sessionOf ss s with grant := none } s) ∧ grantIn ss s = none) := by
  have hexec : exec (.grantExpiry ss) s = execGrantExpiry ss s := rfl
  rw [hexec, execGrantExpiry]
  simp only [h, hu, Bool.true_and, decide_eq_true_eq]
  exact ⟨fun hlt => if_neg (by omega), fun hle => ⟨if_pos hle, by simp only [grantIn, h]; exact if_neg (by omega)⟩⟩

/-! ### Lines of a token -/

theorem exec_tokenLine (hu : mqUp s = true) (hm : Safety.monitorIdle s) {sc : Scope} (hw : (sessionOf ss s).await = some sc) (line : List Byte) :
    exec (.tokenLine ss line) s = done s (tokenLine ss line s) := by
  have hexec : exec (.tokenLine ss line) s = done s (mqSubmit (.line ss line) s) := if_pos (by simp [hu, hw])
  have hline : mqItem (.line ss line) s = tokenLine ss line s := if_pos (by simp [hw])
  rw [hexec, mqSubmit_idle hm, hline]

theorem exec_tokenLine_none (hm : Safety.monitorIdle s) (hw : (sessionOf ss s).await = none) (line : List Byte) : exec (.tokenLine ss line) s = .next s :=
  if_neg (by simp [hw, hm.1])

theorem tokenLine_spec (hs : Safety.settled s) (hu : mqUp s = true) (hm : Safety.monitorIdle s) {sc : Scope} {line : List Byte} (hw : (sessionOf ss s).await = some sc)
    (hdot : line ≠ asc ".") (hlen : (sessionOf ss s).token.length ≤ 5520) :
    (∀ b, 2 ≤ line.length → line.length ≤ 64 → hexBytes line = some b →
      exec (.tokenLine ss line) s = .next (setSession ss { sessionOf ss s with token := (sessionOf ss s).token ++ b } s)) ∧
    (hexBytes line = none ∨ line.length < 2 ∨ 64 < line.length →
      exec (.tokenLine ss line) s = .next (respond ss [errLine 5 ++ asc " format"] (setSession ss { sessionOf ss s with await := none, token := [] } s))) := by
  rw [exec_tokenLine hu hm hw]
  simp only [tokenLine, hw, if_neg hdot, hlen, and_true]
  refine ⟨fun b h2 h64 hb => ?_, fun hbad => ?_⟩
  · rw [if_pos ⟨h2, h64⟩]
    simp only [hb]
    exact done_session hs _ _
  · split
    next h =>
      have hnone : hexBytes line = none := hbad.resolve_right (by omega)
      simp only [hnone]
      exact done_session_respond hs _ _ _
    next => exact done_session_respond hs _ _ _

/-! ### A grant -/

/-- The last line of a grant: the partition is marked for good, and control is granted. -/
theorem grantDone_spec (g : PendGrant) (hp : g.scope = .partition p) (s : State) : Touches [.tr, .mq, .keeps, .still, .out, .svc, .pf0] s (grantDone g s) ∧
    (grantDone g s).tr.pend = none ∧ tget false p (grantDone g s).tr.debug = true ∧ (grantDone g s).tr.storageKey = s.tr.storageKey ∧
    (grantDone g s).tr.keyGen = s.tr.keyGen ∧ (grantDone g s).tr.drbg = s.tr.drbg ∧
    sessionOf g.session (grantDone g s) = { sessionOf g.session s with grant := some (g.scope, g.expiry) } := by
  unfold grantDone
  extract_lets ps tr marked v granted
  have hmarked : Touches [.tr] s marked := frame_tr s _
  have hgranted : Touches [.tr, .mq, .keeps, .still] s granted := (hmarked.mono (by decide)).andThen (frame_setSession _ _ _)
  have hsaid := frame_respond g.session
    [asc "ok control " ++ scopeName g.scope ++ asc " until " ++ hexLong (BitVec.ofNat 64 g.expiry)] granted
  have htr : (respond g.session [asc "ok control " ++ scopeName g.scope ++ asc " until " ++ hexLong (BitVec.ofNat 64 g.expiry)] granted).tr = marked.tr :=
    (hsaid .tr (by decide)).trans (frame_setSession _ _ _ .tr (by decide))
  have hdebug : tget false p marked.tr.debug = true := by
    have hps : ps = [p] := by simp only [ps, hp, scopeParts]
    simp only [marked, hps, List.foldl_cons, List.foldl_nil]
    exact (tget_tset ..).trans (if_pos rfl)
  refine ⟨(hgranted.mono (by decide)).andThen hsaid, ?_, ?_, ?_, ?_, ?_, ?_⟩
  · rw [htr]
  · rw [htr, hdebug]
  · rw [htr]
  · rw [htr]
  · rw [htr]
  · rw [sessionOf_of_mq (hsaid .mq (by decide))]
    exact (sessionOf_setSession _ _ _ _).trans (if_pos rfl)

theorem grantDone_mq (g : PendGrant) (s : State) : (grantDone g s).mq.recast = s.mq.recast ∧ (grantDone g s).mq.queue = s.mq.queue := by
  unfold grantDone
  extract_lets ps tr marked v granted
  have hgranted : granted.mq.recast = s.mq.recast ∧ granted.mq.queue = s.mq.queue := by
    unfold granted
    cases g.session <;> exact ⟨rfl, rfl⟩
  rw [frame_respond g.session _ granted .mq (by decide)]
  exact hgranted

/-- With no other module and no engine holding the partition's keys, a token that passes destroys them and grants control. -/
theorem beginGrant_spec {d : PlnPart} (expiry : Nat) (hp : p < 48) (hi : u.eng.inta = []) (hl : lostPosts u = false) (hd : partOf p u = some d) (hh : homedHere d u = true)
    (hr : remoteNodes p u = []) :
    Touches (rekeyRegs ++ [.eng, .mq, .out, .svc, .pf0]) u (beginGrant ss (.partition p) expiry u) ∧
    sessionOf ss (beginGrant ss (.partition p) expiry u) = { sessionOf ss u with grant := some (.partition p, expiry) } ∧
    tget false p (beginGrant ss (.partition p) expiry u).tr.debug = true ∧
    (∀ i k, keySlotOf i u = some k → slotInRange p i u = true → k.uuid = uuidOf p u → keySlotOf i (beginGrant ss (.partition p) expiry u) = none) ∧
    (∃ key, tget none p (beginGrant ss (.partition p) expiry u).tr.storageKey = some key ∧ key.length = 64) ∧
    tget 0 p (beginGrant ss (.partition p) expiry u).tr.keyGen = satAdd 32 (tget 0 p u.tr.keyGen) 1 ∧
    (tget {} p (beginGrant ss (.partition p) expiry u).tr.drbg).requests = 0 := by
  obtain ⟨hframe, hiq, hslots, key, hlen, hkey⟩ := destroyPart_spec hi hd hh
  have hbegin : beginGrant ss (.partition p) expiry u =
      grantDone { session := ss, scope := .partition p, expiry := expiry, since := (destroyPart p u).tor.tor, waiting := [] } (destroyPart p u) := by
    unfold beginGrant
    extract_lets ps destroyed same away sent g
    have hsame : same = destroyPart p u := rfl
    have haway : away = [] := by
      have hremote : remoteNodes p (destroyPart p u) = [] := by
        rw [← hr]
        simp only [remoteNodes, partOf_of_pln (hframe .pln (by decide)), isLocal, show (destroyPart p u).arm.node = u.arm.node from hframe .node (by decide)]
      simp only [away, hsame, ps, scopeParts, List.flatMap_cons, List.flatMap_nil, hremote, List.map_nil, List.append_nil]
    have hsent : sent = destroyPart p u := by
      simp only [sent, haway, List.map_nil, hsame, emits, List.append_nil]
    have hg : g = { session := ss, scope := .partition p, expiry := expiry, since := (destroyPart p u).tor.tor, waiting := [] } := by
      simp only [g, haway, hsent, List.map_nil]
    have hposts : lostPosts (destroyPart p u) = false := by
      rw [← hl]
      simp only [lostPosts, hiq]
    rw [hg, hsent, grantSettle, if_neg (by simp [ticksMs]), if_pos (by simp [hposts])]
  rw [hbegin]
  obtain ⟨hdone, -, hdebug, hsk, hkg, hdr, hses⟩ := grantDone_spec
    { session := ss, scope := .partition p, expiry := expiry, since := (destroyPart p u).tor.tor, waiting := [] } (p := p) rfl (destroyPart p u)
  generalize hv : destroyPart p u = v at *
  have hmq : v.mq = u.mq := hframe .mq (by decide)
  refine ⟨(hframe.mono (by decide)).trans (hdone.mono (by decide)), ?_, hdebug, fun i k hk hin huu => ?_, ⟨key, ?_, hlen⟩, ?_, ?_⟩
  · rw [hses, sessionOf_of_mq hmq]
  · rw [keySlotOf, hdone .eng (by decide)]
    exact hslots i k hk hin huu
  · rw [hsk, hkey]
    exact (tget_tset none p p (some key) u.tr.storageKey).trans (if_pos rfl)
  · rw [hkg, hkey]
    simp only [reseeded, keyReplaced, if_pos hp]
    exact (tget_tmod ..).trans (if_pos rfl)
  · rw [hdr, hkey]
    simp only [reseeded, tget_tmod, if_pos]

theorem exec_token_end (hs : Safety.settled s) (hu : mqUp s = true) (hm : Safety.monitorIdle s) {d : PlnPart} (hw : (sessionOf ss s).await = some (.partition p))
    (hus : u = setSession ss { sessionOf ss s with await := none, token := [] } s) (ho : grantIn (otherSession ss) s ≠ some (.partition p)) (hpend : s.tr.pend = none)
    (hd : partOf p s = some d) (hp : p < 48) (hr : remoteNodes p s = []) (hh : homedHere d s = true) (hi : s.eng.inta = []) (hl : lostPosts s = false) :
    ∃ t, exec (.tokenLine ss (asc ".")) s = .next t ∧ t.pln = s.pln ∧
      (∀ c, tokenFault (.partition p) (sessionOf ss s).token u = some c → t = respond ss [errLine 5 ++ asc " " ++ asc c] u) ∧
      (tokenFault (.partition p) (sessionOf ss s).token u = none →
        (sessionOf ss t).grant = some (.partition p, natAt (sessionOf ss s).token 0x18 8) ∧ (sessionOf ss t).await = none ∧ tget false p t.tr.debug = true ∧
        (∀ i k, keySlotOf i s = some k → slotInRange p i s = true → k.uuid = uuidOf p s → keySlotOf i t = none) ∧
        (∃ key, tget none p t.tr.storageKey = some key ∧ key.length = 64) ∧ tget 0 p t.tr.keyGen = satAdd 32 (tget 0 p s.tr.keyGen) 1 ∧ (tget {} p t.tr.drbg).requests = 0) := by
  have hended : Touches [.mq, .keeps, .still] s u := hus ▸ frame_setSession _ _ s
  have hother : grantIn (otherSession ss) u ≠ some (.partition p) := by
    rwa [grantIn_eq (by rw [hus]; exact sessionOf_other ss _ s) (hended .tor (by decide))]
  have hline : tokenLine ss (asc ".") s = tokenDone ss (.partition p) (sessionOf ss s).token u := by
    simp only [tokenLine, hw, if_true]
    rw [hus]
  have hpend' : u.tr.pend = none := (congrArg Trust.pend (hended .tr (by decide))).trans hpend
  rw [exec_tokenLine hu hm hw, hline, tokenDone, if_neg hother, if_neg (by simp [hpend'])]
  cases hf : tokenFault (.partition p) (sessionOf ss s).token u with
  | some c =>
    have hsaid := frame_respond ss [errLine 5 ++ asc " " ++ asc c] u
    refine ⟨_, done_framed (rs := [.mq, .keeps, .still, .out, .svc, .pf0]) ((hended.mono (by decide)).andThen hsaid) hs,
      (hsaid .pln (by decide)).trans (hended .pln (by decide)), fun c' hc => ?_, fun h => absurd h (by simp)⟩
    obtain rfl := Option.some.inj hc
    rfl
  | none =>
    have hpln : u.pln = s.pln := hended .pln (by decide)
    have heng : u.eng = s.eng := hended .eng (by decide)
    have htr : u.tr = s.tr := hended .tr (by decide)
    have harm : u.arm = s.arm := hended .arm (by decide)
    obtain ⟨hframe, hses, hdebug, hslots, hkey, hgen, hreq⟩ := beginGrant_spec (ss := ss) (natAt (sessionOf ss s).token 0x18 8) hp (heng ▸ hi)
      (by rw [← hl]; simp only [lostPosts, heng]) ((partOf_of_pln hpln p).trans hd) (by rw [← hh]; simp only [homedHere, isLocal, harm])
      (by rw [← hr]; simp only [remoteNodes, partOf_of_pln hpln, isLocal, harm])
    have hsu : sessionOf ss u = { sessionOf ss s with await := none, token := [] } := by
      rw [hus]
      exact (sessionOf_setSession _ _ _ _).trans (if_pos rfl)
    generalize beginGrant ss (.partition p) (natAt (sessionOf ss s).token 0x18 8) u = t at *
    have hall : Touches (rekeyRegs ++ [.eng, .mq, .out, .svc, .pf0]) s t := (hended.mono (by decide)).trans hframe
    refine ⟨t, done_framed hall hs, (hframe .pln (by decide)).trans hpln, fun c hc => absurd hc (by simp), fun _ =>
      ⟨by rw [hses], by rw [hses, hsu], hdebug, fun i k hk hin huu => hslots i k (by rw [keySlotOf, heng]; exact hk) ?_ ?_, hkey, by rw [hgen, htr], hreq⟩⟩
    · simpa only [slotInRange, partOf_of_pln hpln] using hin
    · simpa only [uuidOf, partOf_of_pln hpln] using huu

/-- Settles O58: a token that passes its checks has the keys destroyed before control is granted. -/
theorem maquetteGrantsDestroyKeysFirst : Obligations.MaquetteGrantsDestroyKeysFirst := by
  intro s ss hs hu hm
  refine ⟨fun sc off h => ?_, exec_grant_spec hs hu hm, exec_tokenLine_none hm, fun sc line hw hdot hlen => tokenLine_spec hs hu hm hw hdot hlen,
    fun p d u hw hus ho hpend hd hp hr hh hi hl => exec_token_end hs hu hm hw hus ho hpend hd hp hr hh hi hl,
    (exec_release_spec hs hu hm).1, (exec_release_spec hs hu hm).2, fun sc t0 h => exec_expiry_spec hu h⟩
  have hexec : exec (.mqGrant ss sc off) s = done s (grantCmd ss sc off s) := mqDo_idle hm hu _
  rw [hexec]
  exact (congrArg (done s) (if_pos h)).trans (done_respond hs ss _)

end

end Sys2Proof.Machine
end


section
set_option Elab.async false
/-! PROOFS. O52: entropy, generators, keys replaced on request, grants that wait, and the board test. -/

namespace Sys2Proof.Machine

section
variable {s t u : State} {p : Nat}

/-! ### Entropy and generators -/

theorem exec_entropyFailed {south : Bool} (ho : operating s = true) (h : (if south then s.tr.esS else s.tr.esN) = true) : exec (.entropyTestFail south) s = .next s := by
  refine (if_neg (by simp [ho])).trans ?_
  cases south with
  | false => exact (if_neg Bool.false_ne_true).trans (if_pos h)
  | true => exact (if_pos rfl).trans (if_pos h)

/-- The state in which an entropy source has just failed. -/
def entropyFailed (south : Bool) (s : State) : State :=
  if south then { s with tr := { s.tr with esS := true } } else { s with tr := { s.tr with esN := true } }

theorem frame_entropyFailed (south : Bool) (s : State) : Touches [.tr] s (entropyFailed south s) := touches_ite (fun _ => frame_tr s _) fun _ => frame_tr s _

theorem exec_entropyFails {south : Bool} (hs : Safety.settled s) (ho : operating s = true) (h : (if south then s.tr.esS else s.tr.esN) = false) (hg : Safety.graceful s) :
    ∃ t, exec (.entropyTestFail south) s = .next t ∧ (if south then t.tr.esS else t.tr.esN) = true ∧ (fltStatus (srcEntropy south) t).pending = true ∧
      t.tr.storageKey = s.tr.storageKey ∧ t.tr.drbg = s.tr.drbg ∧ t.sto = s.sto := by
  have hexec : exec (.entropyTestFail south) s = done s (raise (srcEntropy south) 0x0F none 0 (entropyFailed south s)) := by
    refine (if_neg (by simp [ho])).trans ?_
    cases south with
    | false => exact (if_neg Bool.false_ne_true).trans (if_neg (by simpa using h))
    | true => exact (if_pos rfl).trans (if_neg (by simpa using h))
  have hfail := frame_entropyFailed south s
  have hraise : Touches eventRegs (entropyFailed south s) (raise (srcEntropy south) 0x0F none 0 (entropyFailed south s)) := frame_raise _ (by decide) _ _ _
  have hpend := raise_pending (srcEntropy south) 0x0F none 0 (entropyFailed south s)
  have hboth : Touches (.tr :: eventRegs) s (raise (srcEntropy south) 0x0F none 0 (entropyFailed south s)) := (hfail.mono (by decide)).trans (hraise.mono (by decide))
  have htr : (raise (srcEntropy south) 0x0F none 0 (entropyFailed south s)).tr = (entropyFailed south s).tr := hraise .tr (by decide)
  generalize raise (srcEntropy south) 0x0F none 0 (entropyFailed south s) = v at *
  have hdue : v.flt.due = [] := due_of_still (hboth .still (by decide)) hs hg
  obtain ⟨t, hdone, htold⟩ := done_told hdue (hboth .pending (by decide))
  have htr : t.tr = (entropyFailed south s).tr := (htold .tr (by decide)).trans htr
  have hflt : t.flt = v.flt := htold .flt (by decide)
  refine ⟨t, hexec.trans hdone, ?_, by rw [fltStatus, hflt]; exact hpend, ?_, ?_, (htold .sto (by decide)).trans (hboth .sto (by decide))⟩
  all_goals
    rw [htr]
    cases south <;> rfl

theorem exec_reseed_spec (hs : Safety.settled s) (ho : operating s = true) (inst : Option Nat) :
    (reseedDue (inst.getD 48) s = false → exec (.drbgReseed inst) s = .next s) ∧
    (reseedDue (inst.getD 48) s = true → ∃ t, exec (.drbgReseed inst) s = .next t ∧
      (∀ j, tget {} j t.tr.drbg = if j = inst.getD 48 then { requests := 0, seeded := s.tor.tor, reseeds := (tget {} j s.tr.drbg).reseeds + 1 } else tget {} j s.tr.drbg) ∧
      t.tr.storageKey = s.tr.storageKey ∧ t.sto = s.sto ∧ t.flt = s.flt) := by
  refine ⟨fun h => if_neg (by simp [h]), fun h => ?_⟩
  have hexec : exec (.drbgReseed inst) s = done s (reseed (inst.getD 48) s) := if_pos (by simp [ho, h])
  refine ⟨_, hexec.trans (trust_next hs _), fun j => ?_, rfl, rfl, rfl⟩
  simp only [tget_tmod]
  by_cases hj : j = inst.getD 48
  · rw [if_pos hj, if_pos hj, hj]
  · rw [if_neg hj, if_neg hj]

/-! ### A storage key replaced on request -/

theorem exec_rekeyRequest_elsewhere (hs : Safety.settled s) (ho : operating s = true) {src : Nat} {sc : Scope} {uuid : List Byte} (hk : tget none src s.arm.db ≠ none)
    (hp : ∀ p ∈ partIds s, uuidOf p s ≠ uuid) : exec (.rekeyRequest src sc uuid) s = .next (emit (.rekey src sc true) s) := by
  have hfind : (partIds s).find? (fun p => uuidOf p s == uuid) = none := List.find?_eq_none.2 fun q hq => by simpa using hp q hq
  refine (if_neg (by simp [ho, hk])).trans ?_
  simp only [hfind]
  exact done_framed (frame_emit s _) hs

theorem exec_rekeyRequest_here (hs : Safety.settled s) (ho : operating s = true) {src : Nat} {sc : Scope} {uuid : List Byte} {d : PlnPart} (hk : tget none src s.arm.db ≠ none)
    (hf : (partIds s).find? (fun q => uuidOf q s == uuid) = some p) (hp : p < 48) (hd : partOf p s = some d) (hh : homedHere d s = true) :
    ∃ t key, exec (.rekeyRequest src sc uuid) s = .next t ∧ tget none p t.tr.storageKey = some key ∧ key.length = 64 ∧
      (∀ q, q ≠ p → tget none q t.tr.storageKey = tget none q s.tr.storageKey) ∧ tget 0 p t.tr.keyGen = satAdd 32 (tget 0 p s.tr.keyGen) 1 ∧
      Out.rekey src sc true ∈ t.out := by
  have hexec : exec (.rekeyRequest src sc uuid) s = done s (emit (.rekey src sc true) (replaceKey p d.extents s)) := by
    refine (if_neg (by simp [ho, hk])).trans ?_
    simp only [hf, hd, hh, if_true]
  obtain ⟨key, hlen, hkey⟩ := replaceKey_tr p d.extents s
  have hframe : Touches rekeyRegs s (replaceKey p d.extents s) := frame_replaceKey
  generalize replaceKey p d.extents s = v at *
  have hsent : Touches (.out :: rekeyRegs) s (emit (.rekey src sc true) v) := (hframe.mono (by decide)).trans ((frame_emit v _).mono (by decide))
  refine ⟨emit (.rekey src sc true) v, key, hexec.trans (done_framed hsent hs), ?_, hlen, fun q hq => ?_, ?_, List.mem_append_right _ (List.mem_singleton.2 rfl)⟩
  · show tget none p v.tr.storageKey = _
    rw [hkey]
    exact (tget_tset none p p (some key) s.tr.storageKey).trans (if_pos rfl)
  · show tget none q v.tr.storageKey = _
    rw [hkey]
    exact (tget_tset none q p (some key) s.tr.storageKey).trans (if_neg hq)
  · show tget 0 p v.tr.keyGen = _
    rw [hkey]
    simp only [keyReplaced, if_pos hp]
    exact (tget_tmod 0 p p (fun n => satAdd 32 n 1) s.tr.keyGen).trans (if_pos rfl)

/-! ### A grant that waits -/

/-- What the end of a grant's wait writes: the monitor's turn after it then changes nothing. -/
theorem donePoll_granted (hs : Safety.settled s) (hm : Safety.monitorStill s) (h : Touches [.tr, .mq, .keeps, .still, .out, .svc, .pf0] s t)
    (hr : t.mq.recast = s.mq.recast) (hq : t.mq.queue = s.mq.queue) (hg : grantDue t = t) : donePoll s t = .next t := by
  have hcpu : t.cpu = s.cpu := h .cpu (by decide)
  obtain ⟨hcore, hrec, hqueue⟩ := hm
  have hstill : Safety.monitorStill t := ⟨by rw [hcpu]; exact hcore, hr.trans hrec, hq.trans hqueue⟩
  rw [donePoll, mqPoll_still hstill hg]
  exact done_framed h hs

theorem grantDue_none (h : t.tr.pend = none) : grantDue t = t := by simp only [grantDue, h]

/-- A grant that waited too long is refused. -/
theorem grant_refused (hs : Safety.settled s) (hm : Safety.monitorStill s) (ss : Session) :
    donePoll s (respondToken ss "destroy" { s with tr := { s.tr with pend := none } }) = .next (respondToken ss "destroy" { s with tr := { s.tr with pend := none } }) ∧
    (respondToken ss "destroy" { s with tr := { s.tr with pend := none } }).tr = { s.tr with pend := none } ∧
    Touches [.tr, .out, .svc, .pf0] s (respondToken ss "destroy" { s with tr := { s.tr with pend := none } }) := by
  have htr := frame_tr s { s.tr with pend := none }
  have hsaid := frame_respond ss [errLine 5 ++ asc " " ++ asc "destroy"] { s with tr := { s.tr with pend := none } }
  have hall : Touches [.tr, .out, .svc, .pf0] s (respondToken ss "destroy" { s with tr := { s.tr with pend := none } }) := (htr.mono (by decide)).andThen hsaid
  have hpend : (respondToken ss "destroy" { s with tr := { s.tr with pend := none } }).tr = { s.tr with pend := none } := hsaid .tr (by decide)
  generalize respondToken ss "destroy" { s with tr := { s.tr with pend := none } } = v at *
  have hmq : v.mq = s.mq := hall .mq (by decide)
  exact ⟨donePoll_granted hs hm (hall.mono (by decide)) (congrArg Maquette.recast hmq) (congrArg Maquette.queue hmq) (grantDue_none (by rw [hpend])), hpend, hall⟩

theorem exec_rekeyAck_spec (hs : Safety.settled s) (ho : operating s = true) {g : PendGrant} {n : Nat} (hm : Safety.monitorStill s) (hg : s.tr.pend = some g)
    (hsc : g.scope = .partition p) (hw : g.waiting.contains (n * 64 + p) = true) :
    (g.since + 400000000 ≤ s.tor.tor → ∃ t, exec (.rekeyAck n (.partition p)) s = .next t ∧ t.tr.pend = none ∧ t.tr.debug = s.tr.debug ∧ sessionOf g.session t = sessionOf g.session s) ∧
    (s.tor.tor < g.since + 400000000 → (g.waiting.filter (fun k => k != n * 64 + p) ≠ [] ∨ lostPosts s = true) →
      exec (.rekeyAck n (.partition p)) s = .next { s with tr := { s.tr with pend := some { g with waiting := g.waiting.filter (fun k => k != n * 64 + p) } } }) ∧
    (s.tor.tor < g.since + 400000000 → g.waiting.filter (fun k => k != n * 64 + p) = [] → lostPosts s = false → ∃ t, exec (.rekeyAck n (.partition p)) s = .next t ∧ t.tr.pend = none ∧
      tget false p t.tr.debug = true ∧ (sessionOf g.session t).grant = some (.partition p, g.expiry) ∧ t.tr.storageKey = s.tr.storageKey ∧ t.sto = s.sto ∧ t.flt = s.flt) := by
  have hexec : exec (.rekeyAck n (.partition p)) s = donePoll s (rekeyed (n * 64 + p) g s) := by
    change execRekeyAck n (.partition p) s = _
    simp only [execRekeyAck, hg, ho, hw, Bool.and_true, if_true]
  have hms : g.since + 100 * ticksMs = g.since + 400000000 := rfl
  rw [hexec, rekeyed, grantSettle]
  simp only [hms]
  refine ⟨fun hlate => ?_, fun hearly hwait => ?_, fun hearly hnone hposts => ?_⟩
  · rw [if_pos hlate]
    obtain ⟨hdone, htr, hframe⟩ := grant_refused hs hm g.session
    exact ⟨_, hdone, by rw [htr], by rw [htr], sessionOf_of_mq (hframe .mq (by decide)) _⟩
  · have hstay : ((g.waiting.filter (fun k => k != n * 64 + p)).isEmpty && !lostPosts s) = false := by
      rcases hwait with h | h
      · rw [List.isEmpty_eq_false_iff.2 h, Bool.false_and]
      · rw [h, Bool.not_true, Bool.and_false]
    rw [if_neg (by omega), if_neg (by simp only [hstay]; exact Bool.false_ne_true)]
    exact donePoll_granted hs hm ((frame_tr s _).mono (by decide)) rfl rfl (if_neg fun h => absurd (hstay.symm.trans h) Bool.false_ne_true)
  · rw [if_neg (by omega), if_pos (by simp [hnone, hposts])]
    obtain ⟨hframe, hpend, hdebug, hkey, -, -, hses⟩ := grantDone_spec { g with waiting := g.waiting.filter (fun k => k != n * 64 + p) } (p := p) hsc s
    have hmq := grantDone_mq { g with waiting := g.waiting.filter (fun k => k != n * 64 + p) } s
    generalize grantDone { g with waiting := g.waiting.filter (fun k => k != n * 64 + p) } s = v at *
    exact ⟨v, donePoll_granted hs hm hframe hmq.1 hmq.2 (grantDue_none hpend), hpend, hdebug, by rw [hses, hsc], hkey, hframe .sto (by decide), hframe .flt (by decide)⟩

theorem exec_grantTimeout_spec (hs : Safety.settled s) (ho : operating s = true) {g : PendGrant} (hm : Safety.monitorStill s) (hg : s.tr.pend = some g) :
    (s.tor.tor < g.since + 400000000 → exec .grantDestructionTimeout s = .next s) ∧
    (g.since + 400000000 ≤ s.tor.tor → ∃ t, exec .grantDestructionTimeout s = .next t ∧ t.tr.pend = none ∧ sessionOf g.session t = sessionOf g.session s ∧
      t.tr.debug = s.tr.debug ∧ t.sto = s.sto ∧ (g.session = .uart → t.out = s.out ++ [.text .uart (errLine 5 ++ asc " destroy" ++ crlf ++ prompt)])) := by
  have hms : g.since + 100 * ticksMs = g.since + 400000000 := rfl
  change (_ → execGrantDestructionTimeout s = _) ∧ (_ → ∃ t, execGrantDestructionTimeout s = _ ∧ _)
  simp only [execGrantDestructionTimeout, hg, ho, hms, Bool.true_and, decide_eq_true_eq]
  refine ⟨fun h => if_neg (by omega), fun h => ?_⟩
  rw [if_pos h]
  obtain ⟨hdone, htr, hframe⟩ := grant_refused hs hm g.session
  refine ⟨_, hdone, by rw [htr], sessionOf_of_mq (hframe .mq (by decide)) _, by rw [htr], hframe .sto (by decide), fun hu => ?_⟩
  rw [hu]
  exact congrArg (fun b => s.out ++ [.text .uart (b ++ prompt)]) (List.append_nil _)

/-! ### The board test -/

theorem wipe_tr (on : Bool) (s : State) : (wipe on s).tr = {} := rfl

theorem exec_scan_drives (hp : powered s = true) {i : ScanInstr} (hi : scanDestroys i = true) :
    ∃ t, exec (.boundaryScan i) s = .next t ∧ t.tr.scanHeld = true ∧ operating t = false ∧
      t.tr.storageKey = [] ∧ t.eng.slots = [] ∧ t.eng.inta = [] ∧ t.cpu = ({} : State).cpu := by
  have hexec : exec (.boundaryScan i) s = done s { wipe true s with tr := { (wipe true s).tr with scanHeld := true } } := if_pos (by simp [hp, hi])
  have hw := wipe_wiped true s
  have htr := wipe_tr true s
  generalize wipe true s = v at *
  have hframe := frame_tr v { v.tr with scanHeld := true }
  obtain ⟨t, hdone, htold⟩ := done_alone (b := s) (u := { v with tr := { v.tr with scanHeld := true } }) hw.due hw.pending hw.node
  have htr' : t.tr = { v.tr with scanHeld := true } := htold .tr (by decide)
  have heng : t.eng = {} := (htold .eng (by decide)).trans hw.eng
  exact ⟨t, hexec.trans hdone, by rw [htr'], by simp only [operating, htr', Bool.not_true, Bool.and_false], by rw [htr', htr], by rw [heng], by rw [heng],
    (htold .cpu (by decide)).trans hw.cpu⟩

end

/-- Settles O52: what a failed source, a due generator, another module's request, a grant that waits and a board test do to the keys. -/
theorem entropyAndKeyDestruction : Obligations.EntropyAndKeyDestruction := by
  intro s hs
  refine ⟨fun ho => ⟨fun south => exec_entropyFailed ho, fun south h hg => exec_entropyFails hs ho h hg, exec_reseed_spec hs ho, fun src sc uuid => ⟨fun h => ?_,
    fun hk hp => exec_rekeyRequest_elsewhere hs ho hk hp, fun p d hk hf hp hd hh => exec_rekeyRequest_here hs ho hk hf hp hd hh⟩,
    fun g n p hm hg hsc hw => exec_rekeyAck_spec hs ho hm hg hsc hw, fun g hm hg => exec_grantTimeout_spec hs ho hm hg⟩,
    fun hp => ⟨fun i hi => ?_, fun i hi => exec_scan_drives hp ?_⟩⟩
  · exact if_pos (by simp [h])
  · rcases hi with rfl | rfl | rfl <;> exact if_neg (by simp [scanDestroys])
  · rcases hi with rfl | rfl | rfl <;> rfl

end Sys2Proof.Machine
end


section
set_option Elab.async false
/-! PROOFS. O41: departure and return. -/

namespace Sys2Proof.Machine

section
variable {s t u : State} {v : View}

/-! ### LEAVE and REMOVE_REQ_N -/

theorem frame_departure (s : State) (x : Fabric) (hf : x.fstate = s.arm.fstate) : Touches [.arm, .node, .depart, .routing] s { s with arm := x } :=
  ((frame_arm s x).mono (by decide) : Touches [.fstate, .arm, .node, .depart, .routing] s _).holding hf

theorem done_departure (hs : Safety.settled s) {x : Fabric} (hf : x.fstate = s.arm.fstate) : done s { s with arm := x } = .next { s with arm := x } :=
  done_framed (frame_departure s x hf) hs

/-- A departure under way, with the partner told or not. -/
theorem startLeave_told (hp : partnerOn s = true) : startLeave s = { s with arm := { s.arm with
    fstate := 5, leaveAt := if s.arm.fstate = 2 then some (s.tor.tor + ticksMs) else none, telling := some s.arm.fstate } } := by
  refine (if_pos hp).trans ?_
  by_cases h : s.arm.fstate = 2 <;> simp [h]

theorem startLeave_lose (hp : partnerOn s = false) : Touches loseRegs { s with arm := { s.arm with
    fstate := 5, leaveAt := if s.arm.fstate = 2 then some (s.tor.tor + ticksMs) else none } } (startLeave s) := by
  have heq : startLeave s = leaveSteps { s with arm := { s.arm with fstate := 5, leaveAt := if s.arm.fstate = 2 then some (s.tor.tor + ticksMs) else none } } := by
    refine (if_neg (by simp [hp])).trans ?_
    by_cases h : s.arm.fstate = 2 <;> simp [h]
  rw [heq]
  exact lose_leaveSteps

/-- A departure begins: the state, and the time set for its end. -/
theorem startLeave_spec (s : State) : (startLeave s).pending = s.pending ∧ (startLeave s).arm.fstate = 5 ∧ (startLeave s).arm.removeReq = s.arm.removeReq ∧
    (startLeave s).arm.leaveAt = (if s.arm.fstate = 2 then some (s.tor.tor + 4000000) else none) := by
  cases hp : partnerOn s with
  | true =>
    rw [startLeave_told hp]
    exact ⟨rfl, rfl, rfl, rfl⟩
  | false =>
    have h := startLeave_lose hp
    have hdep := h .depart (by decide)
    simp only [sameReg, departOf, Prod.mk.injEq] at hdep
    obtain ⟨-, hreq, hat⟩ := hdep
    exact ⟨h .pending (by decide), h .fstate (by decide), hreq, hat⟩

/-- What the end of a command leaves of a departure. -/
theorem done_departs {b : State} (hp : u.pending = b.pending) : ∃ t, done b u = .next t ∧ t.arm.fstate = u.arm.fstate ∧ departOf t.arm = departOf u.arm := by
  obtain ⟨t, hdone, hsteps⟩ := done_settles hp
  exact ⟨t, hdone, hsteps .fstate (by decide), hsteps .depart (by decide)⟩

theorem exec_leave (ha : admin v s = true) (ho : operating s = true) : exec (.leave v) s = done s (leaveCmd s) := if_pos (by simp [ha, ho])

theorem leaveCmd_accepted (h : (s.arm.fstate = 4 ∨ s.arm.fstate = 2) ∧ mayLeave s = true) :
    leaveCmd s = { startLeave s with arm := { (startLeave s).arm with lastResult := 0 } } := by
  simp only [leaveCmd, tryLeave, if_pos h]

theorem exec_leave_accepted (ha : admin v s = true) (ho : operating s = true) (h : (s.arm.fstate = 4 ∨ s.arm.fstate = 2) ∧ mayLeave s = true) :
    ∃ t, exec (.leave v) s = .next t ∧ t.arm.fstate = 5 ∧ t.arm.lastResult = 0 ∧ t.arm.leaveAt = (if s.arm.fstate = 2 then some (s.tor.tor + 4000000) else none) := by
  obtain ⟨hpend, hfs, -, hat⟩ := startLeave_spec s
  rw [exec_leave ha ho, leaveCmd_accepted h]
  generalize startLeave s = w at *
  obtain ⟨t, hdone, hf, hd⟩ := done_departs (b := s) (u := { w with arm := { w.arm with lastResult := 0 } }) hpend
  simp only [departOf, Prod.mk.injEq] at hd
  obtain ⟨hres, -, hleave⟩ := hd
  exact ⟨t, hdone, hf.trans hfs, hres, hleave.trans hat⟩

theorem exec_leave_refused (hs : Safety.settled s) (ha : admin v s = true) (ho : operating s = true) (h : ¬((s.arm.fstate = 4 ∨ s.arm.fstate = 2) ∧ mayLeave s = true)) :
    exec (.leave v) s = .next { s with arm := { s.arm with lastResult := 0x0C } } := by
  rw [exec_leave ha ho]
  simp only [leaveCmd, tryLeave, if_neg h]
  exact done_departure hs rfl

theorem exec_leave_told (hs : Safety.settled s) (ha : admin v s = true) (ho : operating s = true) (hp : partnerOn s = true)
    (h : (s.arm.fstate = 4 ∨ s.arm.fstate = 2) ∧ mayLeave s = true) :
    ∃ t, exec (.leave v) s = .next t ∧ t.arm = { s.arm with
        fstate := 5, telling := some s.arm.fstate, lastResult := 0, leaveAt := if s.arm.fstate = 2 then some (s.tor.tor + 4000000) else none } ∧
      t.sto = s.sto ∧ t.cpu = s.cpu ∧ t.armLink = s.armLink := by
  rw [exec_leave ha ho, leaveCmd_accepted h, startLeave_told hp]
  obtain ⟨t, hdone, htold⟩ := done_sameTime (b := s) (u := { s with arm := { s.arm with
    fstate := 5, leaveAt := if s.arm.fstate = 2 then some (s.tor.tor + ticksMs) else none, telling := some s.arm.fstate, lastResult := 0 } }) hs rfl rfl
  exact ⟨t, hdone, htold .arm (by decide), htold .sto (by decide), htold .cpu (by decide), htold .armLink (by decide)⟩

theorem exec_removeReq (ho : operating s = true) (hp : s.pin.prsnt = true) (on : Bool) : exec (.removeReqN on) s =
    done s (if on then (tryLeave { s with arm := { s.arm with removeReq := on } }).getD { s with arm := { s.arm with removeReq := on } }
      else cancelLeave { s with arm := { s.arm with removeReq := on } }) := if_neg (by simp [ho, hp])

theorem exec_removeReq_released (hs : Safety.settled s) (ho : operating s = true) (hp : s.pin.prsnt = true) (ht : s.arm.telling = none) :
    exec (.removeReqN false) s = .next { s with arm := { s.arm with removeReq := false } } := by
  rw [exec_removeReq ho hp]
  simp only [cancelLeave, ht]
  exact done_departure hs rfl

theorem exec_removeReq_cancels (hs : Safety.settled s) (ho : operating s = true) {f : Nat} (hp : s.pin.prsnt = true) (ht : s.arm.telling = some f) :
    ∃ t, exec (.removeReqN false) s = .next t ∧ t.arm = { s.arm with removeReq := false, fstate := f, telling := none, leaveAt := none } ∧ t.sto = s.sto ∧ t.cpu = s.cpu := by
  rw [exec_removeReq ho hp]
  simp only [cancelLeave, ht]
  obtain ⟨t, hdone, htold⟩ := done_sameTime (b := s) (u := { s with arm := { s.arm with removeReq := false, fstate := f, telling := none, leaveAt := none } }) hs rfl rfl
  exact ⟨t, hdone, htold .arm (by decide), htold .sto (by decide), htold .cpu (by decide)⟩

theorem exec_removeReq_asked (ho : operating s = true) (hp : s.pin.prsnt = true) (h : (s.arm.fstate = 4 ∨ s.arm.fstate = 2) ∧ mayLeave s = true) :
    ∃ t, exec (.removeReqN true) s = .next t ∧ t.arm.fstate = 5 ∧ t.arm.removeReq = true := by
  have hleave : tryLeave { s with arm := { s.arm with removeReq := true } } = some (startLeave { s with arm := { s.arm with removeReq := true } }) := if_pos h
  obtain ⟨hpend, hfs, hreq, -⟩ := startLeave_spec { s with arm := { s.arm with removeReq := true } }
  rw [exec_removeReq ho hp, if_pos rfl, hleave, Option.getD_some]
  generalize startLeave { s with arm := { s.arm with removeReq := true } } = w at *
  obtain ⟨t, hdone, hf, hd⟩ := done_departs (b := s) hpend
  simp only [departOf, Prod.mk.injEq] at hd
  obtain ⟨-, hr, -⟩ := hd
  exact ⟨t, hdone, hf.trans hfs, hr.trans hreq⟩

theorem exec_removeReq_waits (hs : Safety.settled s) (ho : operating s = true) (hp : s.pin.prsnt = true) (h : ¬((s.arm.fstate = 4 ∨ s.arm.fstate = 2) ∧ mayLeave s = true)) :
    exec (.removeReqN true) s = .next { s with arm := { s.arm with removeReq := true } } := by
  have hstay : tryLeave { s with arm := { s.arm with removeReq := true } } = none := if_neg h
  rw [exec_removeReq ho hp, if_pos rfl, hstay, Option.getD_none]
  exact done_departure hs rfl

/-! ### LEFT -/

theorem sameClock_checkMaster (s : State) : SameClock s (checkMaster s) := by
  unfold checkMaster
  split
  · split
    · unfold masterLost
      split
      · exact sameClock_torSet _ s
      · exact .refl s
    · exact .refl s
  · exact .refl s

theorem sameClock_of_tor (h : t.tor = s.tor) : SameClock s t := ⟨s.tor.offset, s.tor.slewOwn, s.tor.state, s.tor.holdStart, h⟩

/-- A link that goes DOWN may cost the master of time, and changes nothing else of time. -/
theorem sameClock_linkDown (p : PortId) (s : State) : SameClock s (linkDown p s) := by
  have hdown : Touches [.armLink, .chLink, .links, .idle, .out, .pf0, .cpu, .core, .flt, .status, .live, .due] s (linkDownOnly p s) := frame_linkDownOnly
  unfold linkDown
  extract_lets l was down k src peers
  have hpeers : peers.tor = s.tor := hdown .tor (by decide)
  clear_value peers
  split
  · split
    · have hagain : ∀ (r : Bool) (xs : List (Option Nat × List Byte)) (u : State), Touches msgRegs u (xs.foldl (fun s b => rerouteMsg r b.1 b.2 s) u) :=
        fun r xs u => touches_foldl (fun _ _ => frame_rerouteMsg) xs u
      refine ((sameClock_of_tor ?_).trans (sameClock_checkMaster _)).trans (sameClock_of_tor (frame_announceChange _ .tor (by decide)))
      exact ((hagain _ _ _ .tor (by decide)).trans (hagain _ _ _ .tor (by decide))).trans hpeers
    · exact sameClock_of_tor hpeers
  · split
    · exact sameClock_of_tor ((run_chPathDown .tor (by decide)).trans hpeers)
    · exact sameClock_of_tor hpeers

theorem sameClock_linkOff (p : PortId) (s : State) : SameClock s (linkOff p s) := by
  have hdown : SameClock s (if (linkOf p s).state = 0 ∨ (linkOf p s).state = 8 then s else linkDown p s) := by
    split
    · exact .refl s
    · exact sameClock_linkDown p s
  exact hdown.trans (sameClock_of_tor (frame_linkIdle .tor (by decide)))

theorem linkOff_off (p : PortId) (s : State) : (linkOf p (linkOff p s)).state = 0 := linkIdle_state

theorem linkOff_other {p q : PortId} (h : q ≠ p) (s : State) : (linkOf q (linkOff p s)).state = (linkOf q s).state := by
  unfold linkOff
  rw [linkIdle_other h]
  split
  · rfl
  · exact (congrArg Link.state (linkDown_other h).1 :)

/-- The Armature ports are switched off one by one. -/
theorem linkOffs_spec (ps : List Nat) : ∀ s, Touches linkRegs s (ps.foldl (fun s p => linkOff (.arm p) s) s) ∧ SameClock s (ps.foldl (fun s p => linkOff (.arm p) s) s) ∧
    ∀ q, q ∈ ps ∨ (linkOf (.arm q) s).state = 0 → (linkOf (.arm q) (ps.foldl (fun s p => linkOff (.arm p) s) s)).state = 0 := by
  induction ps with
  | nil => exact fun s => ⟨.refl _ s, .refl s, fun q h => h.resolve_left List.not_mem_nil⟩
  | cons p ps ih =>
    intro s
    obtain ⟨hframe, hclock, hoff⟩ := ih (linkOff (.arm p) s)
    refine ⟨link_linkOff.trans hframe, (sameClock_linkOff _ s).trans hclock, fun q h => hoff q ?_⟩
    by_cases e : q = p
    · exact .inr (e ▸ linkOff_off (.arm q) s)
    · exact h.imp (fun h => (List.mem_cons.1 h).resolve_left e) fun h => (linkOff_other (fun h => e (PortId.arm.inj h)) s).trans h

theorem takeOffice_spec (m : Option Nat) (hw : s.tor.window = false) : Touches [.tor, .flt, .live] s (takeOffice m s) ∧ (takeOffice m s).tor.master = m ∧
    (takeOffice m s).tor.step = s.tor.step := by
  unfold takeOffice
  extract_lets tor t
  have hset : Touches [.tor, .flt, .live] s t := (frame_timer s _ (by exact rfl)).mono (by decide)
  have hwt : t.tor.window = false := hw
  have hmaster : t.tor.master = m := rfl
  have hstep : t.tor.step = s.tor.step := rfl
  clear_value t
  obtain ⟨hfreed, hfc⟩ := frame_freed s hwt
  obtain ⟨hbound, hbc⟩ := frame_bound s (freed s t)
  obtain ⟨off, own, st, hold, hclock⟩ := hfc.trans hbc
  exact ⟨(hset.trans hfreed).trans hbound, by rw [hclock]; exact hmaster, by rw [hclock]; exact hstep⟩

/-- What entering LEFT does: the ports are off, REMOVE_OK is asserted, and no master of time is followed. -/
theorem enterLeft_spec (hw : s.tor.window = false) : Still s (enterLeft s) ∧ (enterLeft s).pending = s.pending ∧ (enterLeft s).arm.fstate = 6 ∧
    (enterLeft s).pin.removeOk = true ∧ (enterLeft s).tor.master = none ∧ (enterLeft s).tor.step = s.tor.step ∧
    ∀ p, p < 8 → (linkOf (.arm p) (enterLeft s)).state = 0 := by
  unfold enterLeft
  extract_lets q left off pin
  have hleft : Touches [.arm, .fstate, .node, .depart, .routing] s left := frame_arm s _
  obtain ⟨hoff, hclock, hports⟩ := linkOffs_spec (List.range 8) left
  change Touches linkRegs left off at hoff
  change SameClock left off at hclock
  change ∀ q, _ → (linkOf (.arm q) off).state = 0 at hports
  have hf : left.arm.fstate = 6 := rfl
  have htor : left.tor = s.tor := hleft .tor (by decide)
  clear_value off
  obtain ⟨x, own, st, hold, htime⟩ := hclock
  have hpin := frame_pin off { off.pin with removeOk := true }
  obtain ⟨htake, hmaster, hstep⟩ := takeOffice_spec (s := { off with pin := { off.pin with removeOk := true } }) none (by rw [htime, htor]; exact hw)
  have hstill : Touches [.tor, .flt, .live, .pin] off (takeOffice none { off with pin := { off.pin with removeOk := true } }) := (hpin.mono (by decide)).trans (htake.mono (by decide))
  refine ⟨?_, ?_, ?_, congrArg Pins.removeOk (htake .pin (by decide)), hmaster, ?_, fun p hp => ?_⟩
  · exact ((hleft .still (by decide)).trans (hoff .still (by decide))).trans (hstill .still (by decide))
  · exact ((hstill .pending (by decide)).trans (hoff .pending (by decide))).trans (hleft .pending (by decide))
  · exact ((hstill .fstate (by decide)).trans (hoff .fstate (by decide))).trans hf
  · refine hstep.trans ?_
    rw [htime, htor]
  · have hsame : SameLink (linkOf (.arm p) off) _ := hstill .links (by decide) (.arm p)
    exact (congrArg Link.state hsame.1 :).trans (hports p (.inl (List.mem_range.2 hp)))

theorem exec_enterLeft_due (hs : Safety.settled s) (ho : operating s = true) {t0 : Nat} (hl : s.arm.leaveAt = some t0) (hf : s.arm.fstate = 5) (ht : t0 ≤ s.tor.tor)
    (hw : s.tor.window = false) (hg : Safety.graceful s) :
    ∃ t, exec .enterLeft s = .next t ∧ t.arm.fstate = 6 ∧ t.pin.removeOk = true ∧ t.tor.master = none ∧ ∀ p, p < 8 → (linkOf (.arm p) t).state = 0 := by
  obtain ⟨hstill, hpend, hfs, hok, hmaster, hstep, hports⟩ := enterLeft_spec hw
  have hexec : exec .enterLeft s = done s (enterLeft s) := by
    change execEnterLeft s = _
    simp only [execEnterLeft, hl]
    rw [if_pos ⟨ho, hf, ht⟩, fireStep_of_unstepped hstep]
  rw [hexec]
  generalize enterLeft s = u at *
  obtain ⟨t, hdone, htold⟩ := done_told (b := s) (due_of_still hstill hs hg) hpend
  refine ⟨t, hdone, (htold .fstate (by decide)).trans hfs, ?_, ?_, fun p hp => ?_⟩
  · rw [htold .pin (by decide)]
    exact hok
  · rw [htold .tor (by decide)]
    exact hmaster
  · exact (congrArg Link.state (htold .links (by decide) (.arm p)).1 :).trans (hports p hp)

/-! ### REJOIN -/

theorem portGranted_of_pln (h : t.pln = s.pln) (p : Nat) : portGranted (.arm p) t = portGranted (.arm p) s := by
  cases hm : s.pln.module_ with
  | none => simp [portGranted, h, hm]
  | some m => simp [portGranted, h, hm]

/-- Granted ports begin to train. -/
theorem restarts_spec {q : Nat} (hd : u.arm.fstate = 1) (hg : portGranted (.arm q) u = true) (ps : List Nat) : ∀ s, Touches [.armLink, .chLink, .links, .idle] u s →
    (linkOf (.arm q) s).disable = false → (q ∈ ps ∨ (linkOf (.arm q) s).state = 1) →
    (linkOf (.arm q) (ps.foldl (fun s p => if portGranted (.arm p) s then linkRestart (.arm p) s else s) s)).state = 1 := by
  induction ps with
  | nil => exact fun s _ _ h => h.resolve_left List.not_mem_nil
  | cons p ps ih =>
    intro s hframe hdis h
    have hnext : Touches [.armLink, .chLink, .links, .idle] s (if portGranted (.arm p) s then linkRestart (.arm p) s else s) :=
      touches_ite (fun _ => touches_ite (fun _ => frame_modLink s _ _) fun _ => frame_linkIdle) fun _ => .refl _ s
    by_cases e : p = q
    · subst e
      have hpln : s.pln = u.pln := hframe .pln (by decide)
      have hfs : s.arm.fstate = 1 := (hframe .fstate (by decide)).trans hd
      have hgrant : portGranted (.arm p) s = true := (portGranted_of_pln hpln p).trans hg
      have henabled : portEnabled (.arm p) s = true := by simp [portEnabled, hgrant, hdis, hfs]
      have hrestart : (if portGranted (.arm p) s then linkRestart (.arm p) s else s) = modLink (.arm p) (fun l => { l with state := 1, since := s.tor.tor }) s := by
        rw [if_pos hgrant, linkRestart, if_pos henabled]
      have hlink : linkOf (.arm p) (modLink (.arm p) (fun l => { l with state := 1, since := s.tor.tor }) s) = { linkOf (.arm p) s with state := 1, since := s.tor.tor } := by
        rw [modLink, linkOf_setLink, if_pos rfl]
      rw [List.foldl_cons]
      rw [hrestart] at hnext ⊢
      exact ih _ (hframe.trans hnext) (by rw [hlink]; exact hdis) (.inr (by rw [hlink]))
    · have hsame : linkOf (.arm q) (if portGranted (.arm p) s then linkRestart (.arm p) s else s) = linkOf (.arm q) s := by
        split
        · exact linkRestart_other fun h => e (PortId.arm.inj h).symm
        · rfl
      exact ih _ (hframe.trans hnext) (by rw [hsame]; exact hdis) (by rw [hsame]; exact h.imp_left fun h => (List.mem_cons.1 h).resolve_left fun h => e h.symm)

theorem exec_rejoin (ha : admin v s = true) (ho : operating s = true) : exec (.rejoin v) s = done s (rejoinCmd s) := if_pos (by simp [ha, ho])

theorem exec_rejoin_left (hs : Safety.settled s) (ha : admin v s = true) (ho : operating s = true) (hf : s.arm.fstate = 6) :
    ∃ t, exec (.rejoin v) s = .next t ∧ t.arm.fstate = 1 ∧ t.arm.lastResult = 0 ∧ t.arm.discoStart = s.tor.tor ∧ t.pin.removeOk = false ∧
      ∀ p, p < 8 → portGranted (.arm p) s = true → (linkOf (.arm p) s).disable = false → (linkOf (.arm p) t).state = 1 := by
  rw [exec_rejoin ha ho]
  unfold rejoinCmd
  rw [if_neg (by simp [hf])]
  extract_lets q q' u
  have hu : u.arm.fstate = 1 ∧ u.arm.lastResult = 0 ∧ u.arm.discoStart = s.tor.tor ∧ u.pin.removeOk = false ∧ u.pending = s.pending ∧ u.tor = s.tor ∧ u.flt = s.flt ∧ u.pln = s.pln ∧
    u.armLink = s.armLink := ⟨rfl, rfl, rfl, rfl, rfl, rfl, rfl, rfl, rfl⟩
  clear_value u
  obtain ⟨hfs, hres, hdisco, hok, hpend, htor, hflt, hpln, hlinks⟩ := hu
  have hfold : Touches [.armLink, .chLink, .links, .idle] u ((List.range 8).foldl (fun s p => if portGranted (.arm p) s then linkRestart (.arm p) s else s) u) :=
    touches_foldl (fun w p => touches_ite (fun _ => touches_ite (fun _ => frame_modLink w _ _) fun _ => frame_linkIdle) fun _ => .refl _ w) _ u
  have hports : ∀ p, p < 8 → portGranted (.arm p) u = true → (linkOf (.arm p) u).disable = false →
      (linkOf (.arm p) ((List.range 8).foldl (fun s p => if portGranted (.arm p) s then linkRestart (.arm p) s else s) u)).state = 1 := fun p hp hg hd =>
    restarts_spec hfs hg _ u (.refl _ u) hd (.inl (List.mem_range.2 hp))
  generalize (List.range 8).foldl (fun s p => if portGranted (.arm p) s then linkRestart (.arm p) s else s) u = w at *
  have hwflt : w.flt = s.flt := (hfold .flt (by decide)).trans hflt
  obtain ⟨t, hdone, htold⟩ := done_sameTime (b := s) (u := w) ((congrArg Flt.due hwflt).trans hs) ((hfold .pending (by decide)).trans hpend) ((hfold .tor (by decide)).trans htor)
  have harm : t.arm = u.arm := (htold .arm (by decide)).trans (hfold .arm (by decide))
  have hpin : t.pin = u.pin := (htold .pin (by decide)).trans (hfold .pin (by decide))
  refine ⟨t, hdone, by rw [harm, hfs], by rw [harm, hres], by rw [harm, hdisco], by rw [hpin, hok], fun p hp hg hd => ?_⟩
  have hgu : portGranted (.arm p) u = true := (portGranted_of_pln hpln p).trans hg
  have hdu : (linkOf (.arm p) u).disable = false := by
    rw [← hd]
    simp only [linkOf, hlinks]
  have hlink : t.armLink = w.armLink := htold .armLink (by decide)
  rw [← hports p hp hgu hdu]
  simp only [linkOf, hlink]

theorem exec_rejoin_refused (hs : Safety.settled s) (ha : admin v s = true) (ho : operating s = true) (hf : s.arm.fstate ≠ 6) :
    exec (.rejoin v) s = .next { s with arm := { s.arm with lastResult := 0x0C } } := by
  rw [exec_rejoin ha ho]
  refine (congrArg (done s) (if_pos hf)).trans ?_
  exact done_departure hs rfl

end

/-- Settles O41: a departure begins by its state and time, and its end switches the ports off. -/
theorem departureAndReturn : Obligations.DepartureAndReturn := by
  intro v s hs ho
  refine ⟨fun ha hf hm => exec_leave_accepted ha ho ⟨hf, hm⟩, fun ha => exec_leave_refused hs ha ho, fun hp => exec_removeReq_released hs ho hp, fun f hp => exec_removeReq_cancels hs ho hp,
    fun ha hp hf hm => exec_leave_told hs ha ho hp ⟨hf, hm⟩, fun hp hf hm => exec_removeReq_asked ho hp ⟨hf, hm⟩, fun hp => exec_removeReq_waits hs ho hp,
    fun t0 hl hf => ⟨fun ht hw hg => exec_enterLeft_due hs ho hl hf ht hw hg, fun ht => ?_⟩, fun ha => exec_rejoin_left hs ha ho, fun ha => exec_rejoin_refused hs ha ho⟩
  change execEnterLeft s = _
  simp only [execEnterLeft, hl]
  exact if_neg fun h => absurd h.2.2 (by omega)

end Sys2Proof.Machine
end


section
set_option Elab.async false
/-! PROOFS. O32: waits that end, and stores performed at CLUSTER and SYSTEM scope. -/

namespace Sys2Proof.Machine

section
variable {s t u : State} {l i b : Nat} {e : SbEntry}

/-! ### Cores beside the one that stores -/

theorem coreOf_onCores_skipped {p : Nat → Bool} (h : p l = false) (f : Core → Core) (s : State) : coreOf l (onCores p f s) = coreOf l s := by
  suffices ∀ (ks : List Nat) (s : State), coreOf l (ks.foldl (fun s k => if p k then modCore k f s else s) s) = coreOf l s from this _ s
  intro ks
  induction ks with
  | nil => exact fun _ => rfl
  | cons k ks ih =>
    intro s
    refine (ih _).trans ?_
    dsimp only
    split
    next hk => exact (coreOf_modCore k l f s).trans (if_neg fun e => by simp [← e, h] at hk)
    next => rfl

/-- From `s` to `t` cores alone are written, in what they hold. -/
def OnlyCores (s t : State) : Prop := ∃ x, t = { s with cpu := { s.cpu with core := x } }

theorem OnlyCores.trans (h : OnlyCores s t) (k : OnlyCores t u) : OnlyCores s u := by
  obtain ⟨x, rfl⟩ := h
  obtain ⟨y, rfl⟩ := k
  exact ⟨y, rfl⟩

theorem onlyCores_modCore (l : Nat) (f : Core → Core) (s : State) : OnlyCores s (modCore l f s) := ⟨_, rfl⟩

theorem onlyCores_onCores (p : Nat → Bool) (f : Core → Core) (s : State) : OnlyCores s (onCores p f s) := by
  suffices ∀ (ks : List Nat) (s : State), OnlyCores s (ks.foldl (fun s k => if p k then modCore k f s else s) s) from this _ s
  intro ks
  induction ks with
  | nil => exact fun s => ⟨_, rfl⟩
  | cons k ks ih =>
    intro s
    refine OnlyCores.trans ?_ (ih _)
    dsimp only
    split
    · exact onlyCores_modCore k f s
    · exact ⟨_, rfl⟩

/-! ### A wait, and a store at CLUSTER scope -/

theorem exec_waitevDeadline_spec (hs : Safety.settled s) (hl : coreLive l s = true) (hh : coreHeld l s = false) {t0 : Nat}
    (hw : (coreOf l s).run = .waiting (some t0) ∨ (coreOf l s).run = .gated (some t0)) :
    (t0 ≤ s.tor.tor → exec (.waitevDeadline l) s = .next (setCore l { coreOf l s with run := .running } s)) ∧
    (s.tor.tor < t0 → exec (.waitevDeadline l) s = .next s) := by
  have hover : waitOver l s = decide (t0 ≤ s.tor.tor) := by rcases hw with hw | hw <;> simp only [waitOver, hw]
  refine ⟨fun h => ?_, fun h => if_neg (by simp [hover]; omega)⟩
  refine (if_pos (by simp [hl, hh, hover, h])).trans ?_
  exact done_framed (frame_modCore s l _) hs

theorem exec_perform (ho : operating s = true) (hl : l < 192) {system bad : Bool} (he : (coreOf l s).sb[i]? = some e) (hg : e.data.length ≤ e.grain)
    (hm : mayPerform l i system s = true) : exec (.storeBufferPerform l i system bad) s =
      done s (if !system then stageEntry l i s else finishEntry l i (if bad && !e.bad && e.sent.isNone then markBad l i e s else s)) := by
  rw [mayPerform, Bool.and_eq_true] at hm
  obtain ⟨hsb, hwc⟩ := hm
  have hsplit : splitFree l i system s = (i, s) := by
    simp only [splitFree, he]
    exact if_pos (.inl hg)
  refine (if_pos (by simp [ho, hl, hsb])).trans ?_
  simp only [performEntry, hwc, hsplit, he, Bool.not_true, Bool.false_eq_true, if_false]

/-- An entry performed at CLUSTER scope stays in the buffer, with its place in the cluster's order. -/
theorem stageEntry_spec (he : (coreOf l s).sb[i]? = some e) (ho : sbOrder l i false s = true) : ∃ x, stageEntry l i s = { s with cpu := x } ∧
    x.clusterSeq = s.cpu.clusterSeq + 1 ∧ coreOf l (stageEntry l i s) = { coreOf l s with
      sb := (coreOf l s).sb.mapIdx (fun j e => if j = i then { e with cluster := some s.cpu.clusterSeq } else e) } := by
  have hgo : (e.cluster.isSome || !ownedStore l e.attr e.addr s) = false := by
    simp only [sbOrder, he, Bool.and_eq_true, Bool.false_eq_true, if_false] at ho
    obtain ⟨-, hnone, howned⟩ := ho
    simp [howned, Option.isNone_iff_eq_none.1 hnone]
  unfold stageEntry
  split
  next h => exact absurd (h.symm.trans he) (by simp)
  next e' h =>
  obtain rfl := Option.some.inj (he.symm.trans h)
  rw [if_neg (by simp [hgo])]
  extract_lets q p old w noted lost
  have hnoted : ∃ x, noted = { s with cpu := x } ∧ x.clusterSeq = s.cpu.clusterSeq + 1 ∧ x.core = s.cpu.core := by
    unfold noted noteOld
    split
    · exact ⟨_, rfl, rfl, rfl⟩
    · exact ⟨_, rfl, rfl, rfl⟩
  obtain ⟨x, hx, hseq, hcore⟩ := hnoted
  have hlost : OnlyCores noted lost := onlyCores_onCores _ _ _
  have hsame : coreOf l lost = coreOf l s := by
    refine (coreOf_onCores_skipped (by simp) _ _).trans ?_
    simp only [coreOf, hx, hcore]
  have hall : ∃ z : CoresS, lost = { s with cpu := z } ∧ z.clusterSeq = s.cpu.clusterSeq + 1 := by
    clear_value lost
    obtain ⟨y, hy⟩ := hlost
    exact ⟨{ x with core := y }, by rw [hy, hx], hseq⟩
  clear_value lost
  obtain ⟨z, rfl, hz⟩ := hall
  exact ⟨_, rfl, hz, by rw [coreOf_modCore, if_pos rfl, hsame]⟩

theorem exec_performCluster (hs : Safety.settled s) (ho : operating s = true) (hl : l < 192) (bad : Bool) (he : (coreOf l s).sb[i]? = some e)
    (hg : e.data.length ≤ e.grain) (hm : mayPerform l i false s = true) : ∃ t, exec (.storeBufferPerform l i false bad) s = .next t ∧
      (coreOf l t).sb[i]? = some { e with cluster := some s.cpu.clusterSeq } ∧ t.cpu.clusterSeq = s.cpu.clusterSeq + 1 ∧ t.sto = s.sto ∧
      (coreOf l t).g = (coreOf l s).g ∧ (coreOf l t).pc = (coreOf l s).pc := by
  obtain ⟨x, hstage, hseq, hcore⟩ := stageEntry_spec he (Bool.and_eq_true_iff.1 hm).1
  have hexec : exec (.storeBufferPerform l i false bad) s = done s (stageEntry l i s) := exec_perform ho hl he hg hm
  have hframe : Touches [.cpu, .core, .keeps, .own, .still] s (stageEntry l i s) := hstage ▸ frame_cpu s x
  refine ⟨_, hexec.trans (done_framed hframe hs), ?_, by rw [hstage]; exact hseq, by rw [hstage], by rw [hcore], by rw [hcore]⟩
  rw [hcore]
  simp only [List.getElem?_mapIdx, he, Option.map_some, if_true]

/-! ### What every observer sees -/

theorem tget_of_mem {α : Type} [DecidableEq α] {d v : α} {k : Nat} : ∀ {t : Tab α} {lo : Option Nat}, tsorted d lo t = true → (k, v) ∈ t → tget d k t = v
  | (j, x) :: t, lo, h, hm => by
    simp only [tsorted, Bool.and_eq_true, decide_eq_true_eq] at h
    obtain ⟨-, ht⟩ := h
    rcases List.mem_cons.1 hm with e | hm
    · rw [Prod.mk.injEq] at e
      rw [tget, if_pos e.1.symm, e.2]
    · rw [tget, if_neg ?_]
      · exact tget_of_mem ht hm
      · exact fun e => absurd (tsorted_above ht hm) (by omega)
where
  tsorted_above {j : Nat} : ∀ {t : Tab α} {lo : Nat}, tsorted d (some lo) t = true → (j, v) ∈ t → lo < j
    | (i, x) :: t, lo, h, hm => by
      simp only [tsorted, Bool.and_eq_true, decide_eq_true_eq] at h
      obtain ⟨⟨hlo, -⟩, ht⟩ := h
      rcases List.mem_cons.1 hm with e | hm
      · rw [Prod.mk.injEq] at e
        omega
      · exact hlo.trans (tsorted_above ht hm)

/-- Where a table is filtered by its entries, what is left of a key is what was there, or nothing. -/
theorem tget_filter {α : Type} [DecidableEq α] {d : α} {t : Tab α} (h : twf d t = true) (q : Nat × α → Bool) (k : Nat) :
    tget d k (t.filter q) = if q (k, tget d k t) = true then tget d k t else d := by
  by_cases hd : tget d k t = d
  · rw [hd, ite_self]
    by_contra hne
    have hmem : (k, tget d k (t.filter q)) ∈ t := (List.mem_filter.1 (mem_of_tget rfl hne)).1
    exact hne ((tget_of_mem h hmem).symm.trans hd)
  · have hmem : (k, tget d k t) ∈ t := mem_of_tget rfl hd
    split
    next hq => exact tget_of_mem (twf_filter d q h) (List.mem_filter.2 ⟨hmem, hq⟩)
    next hq =>
      by_contra hne
      obtain ⟨hin, hqx⟩ := List.mem_filter.1 (mem_of_tget (t := t.filter q) rfl hne)
      rw [tget_of_mem h hin] at hq
      exact hq hqx

theorem homeByte_local (h : isLocal b s = true) : homeByte b s = storedByte b s := if_pos h

/-- What a byte of remote storage reads depends on this module's copies of remote lines alone. -/
theorem homeByte_remote (ha : t.arm = s.arm) (h : isLocal b s = false) : homeByte b t = homeByte b s := by
  have ht : isLocal b t = false := by rw [← h]; simp only [isLocal, ha]
  have hbuf : wbBuffer (lineOf b) t = wbBuffer (lineOf b) s := by simp only [wbBuffer, ha]
  unfold homeByte
  rw [if_neg (ne_true_of_eq_false ht), if_neg (ne_true_of_eq_false h), ha, hbuf]

theorem homeByte_congr (hm : ∀ a, storedByte a t = storedByte a s) (ha : t.arm = s.arm) (b : Nat) : homeByte b t = homeByte b s := by
  cases h : isLocal b s with
  | true => rw [homeByte_local h, homeByte_local (by rw [← h]; simp only [isLocal, ha]), hm]
  | false => exact homeByte_remote ha h

theorem cohByte_congr (hd : t.cpu.dirty = s.cpu.dirty) (hm : ∀ a, storedByte a t = storedByte a s) (ha : t.arm = s.arm) (b : Nat) : cohByte b t = cohByte b s := by
  simp only [cohByte, hd, homeByte_congr hm ha]

/-- Bytes of local storage put in place, one after another. -/
theorem homeSets_local (b : Nat) (es : List (Nat × Option DByte)) (hl : ∀ e ∈ es, isLocal e.1 s = true) : ∀ u, u.arm = s.arm →
    let v := es.foldl (fun s e => match e.2 with | some d => homeSet e.1 d.val s | none => s) u
    v.arm = s.arm ∧ v.cpu = u.cpu ∧ v.sto.keyed = u.sto.keyed ∧ Touches [.sto, .mem] u v ∧
      ∀ x, (∀ d, (b, some d) ∈ es → d.val = x) → ((∃ d, (b, some d) ∈ es) ∨ storedByte b u = x) → storedByte b v = x := by
  induction es with
  | nil => exact fun u hu => ⟨hu, rfl, rfl, .refl _ u, fun x _ h => h.resolve_left fun ⟨_, h⟩ => absurd h List.not_mem_nil⟩
  | cons e es ih =>
    intro u hu
    have hes : ∀ e ∈ es, isLocal e.1 s = true := fun x hx => hl x (List.mem_cons_of_mem _ hx)
    obtain ⟨a, w⟩ := e
    cases w with
    | none =>
      obtain ⟨harm, hcpu, hkey, hframe, hbyte⟩ := ih hes u hu
      refine ⟨harm, hcpu, hkey, hframe, fun x hx h => hbyte x (fun d hd => hx d (List.mem_cons_of_mem _ hd)) (h.imp_left fun ⟨d, hd⟩ => ⟨d, ?_⟩)⟩
      exact (List.mem_cons.1 hd).resolve_left (by simp)
    | some d =>
      have hloc : isLocal a u = true := by
        rw [← hl _ (List.mem_cons_self ..)]
        simp only [isLocal, hu]
      have hset : homeSet a d.val u = storeByte a d.val u := if_pos hloc
      obtain ⟨harm, hcpu, hkey, hframe, hbyte⟩ := ih hes (storeByte a d.val u) hu
      simp only [List.foldl_cons, hset]
      refine ⟨harm, hcpu, hkey, (frame_sto u _).trans hframe, fun x hx h => hbyte x (fun d hd => hx d (List.mem_cons_of_mem _ hd)) ?_⟩
      rw [storedByte_storeByte]
      by_cases e : b = a
      · subst e
        rw [if_pos rfl]
        exact .inr (hx d (List.mem_cons_self ..))
      · rw [if_neg e]
        exact h.imp_left fun ⟨d', hd⟩ => ⟨d', (List.mem_cons.1 hd).resolve_left fun h => e (congrArg Prod.fst h)⟩

theorem frame_dirty (s : State) (d : Tab (Option DByte)) : Touches [.sto, .mem, .cpu, .core] s { s with cpu := { s.cpu with dirty := d } } :=
  (frame_cores s { s.cpu with dirty := d } (keeps_of_eq rfl rfl rfl rfl rfl rfl) fun _ => rfl).mono (by decide)

theorem writeBackIf_core (p : Nat → DByte → Bool) (s : State) : (writeBackIf p s).cpu.core = s.cpu.core := by
  unfold writeBackIf
  extract_lets go put q
  have hput : Touches [.sto, .mem, .arm] s put := touches_foldl (fun u e => by split; exacts [frame_homeSet, .refl _ u]) _ s
  exact hput .core (by decide)

/-- Dirty bytes of local storage that are written back: every observer sees what it saw. -/
theorem writeBackIf_spec {p : Nat → DByte → Bool} (hw : twf none s.cpu.dirty = true) (hp : ∀ a d, p a d = true → isLocal a s = true) :
    Touches [.sto, .mem, .cpu, .core] s (writeBackIf p s) ∧ (∃ d, (writeBackIf p s).cpu = { s.cpu with dirty := d } ∧ twf none d = true) ∧
      ∀ b, cohByte b (writeBackIf p s) = cohByte b s := by
  unfold writeBackIf
  extract_lets go put q q'
  have hgo : ∀ b d, (b, some d) ∈ go ↔ tget none b s.cpu.dirty = some d ∧ p b d = true := fun b d => by
    unfold go
    rw [List.mem_filter]
    exact ⟨fun ⟨h, hq⟩ => ⟨tget_of_mem hw h, hq⟩, fun ⟨h, hq⟩ => ⟨mem_of_tget h (by simp), hq⟩⟩
  have hlocal : ∀ e ∈ go, isLocal e.1 s = true := fun e he => by
    obtain ⟨a, w⟩ := e
    cases w with
    | none => exact absurd (List.mem_filter.1 he).2 (by simp)
    | some d => exact hp a d ((hgo a d).1 he).2
  have hput := fun b => homeSets_local b go hlocal s rfl
  change ∀ b, put.arm = s.arm ∧ put.cpu = s.cpu ∧ put.sto.keyed = s.sto.keyed ∧ Touches [.sto, .mem] s put ∧
      ∀ x, (∀ d, (b, some d) ∈ go → d.val = x) → ((∃ d, (b, some d) ∈ go) ∨ storedByte b s = x) → storedByte b put = x at hput
  clear_value put
  have hcpu : put.cpu = s.cpu := (hput 0).2.1
  have harm : put.arm = s.arm := (hput 0).1
  have hframe : Touches [.sto, .mem] s put := (hput 0).2.2.2.1
  refine ⟨(hframe.mono (by decide)).trans (frame_dirty put _), ⟨put.cpu.dirty.filter (fun e => match e.2 with | some d => !p e.1 d | none => false), ?_,
    twf_filter _ _ (by rw [hcpu]; exact hw)⟩, fun b => ?_⟩
  · exact congrArg (fun x : CoresS => { x with dirty := put.cpu.dirty.filter (fun e => match e.2 with | some d => !p e.1 d | none => false) }) hcpu
  · obtain ⟨-, -, -, -, hbyte⟩ := hput b
    have hhome : ∀ x, (∀ d, (b, some d) ∈ go → d.val = x) → ((∃ d, (b, some d) ∈ go) ∨ homeByte b s = x) → homeByte b put = x := fun x hx h => by
      cases hl : isLocal b s with
      | true =>
        rw [homeByte_local (by rw [← hl]; simp only [isLocal, harm])]
        exact hbyte x hx (by rwa [homeByte_local hl] at h)
      | false =>
        have hno : ¬ ∃ d, (b, some d) ∈ go := fun ⟨d, hd⟩ => absurd (hlocal _ hd) (by simp [hl])
        rw [homeByte_remote harm hl]
        exact h.resolve_left hno
    unfold cohByte
    dsimp only
    rw [hcpu, tget_filter hw]
    cases hd : tget none b s.cpu.dirty with
    | none =>
      simp only [ite_self]
      refine hhome _ (fun d h => ?_) (.inr rfl)
      rw [((hgo b d).1 h).1] at hd
      exact absurd hd (by simp)
    | some d =>
      cases hpd : p b d with
      | false => simp only [hpd, Bool.not_false, if_true]
      | true =>
        simp only [hpd, Bool.not_true, Bool.false_eq_true, if_false]
        exact hhome d.val (fun d' h => by rw [Option.some.inj (hd.symm.trans ((hgo b d').1 h).1)]) (.inl ⟨d, (hgo b d).2 ⟨hd, hpd⟩⟩)

/-! ### A store at SYSTEM scope -/

theorem isLocal_same_line {a b : Nat} (h : lineOf b = lineOf a) (s : State) : isLocal b s = isLocal a s := by
  have hnode : nodeOfAddr b = nodeOfAddr a := by
    simp only [nodeOfAddr, bits, Nat.shiftRight_eq_div_pow]
    have hb : ∀ x : Nat, x / 2 ^ 52 = x / 128 / 2 ^ 45 := fun x => by rw [Nat.div_div_eq_div_mul]; rfl
    rw [hb b, hb a, show b / 128 = a / 128 from h]
  simp only [isLocal, hnode]

/-- From `s` to `t` every observer sees the same bytes, by storage and by cores alone, and the table of dirty bytes keeps its form. -/
def SeesSame (s t : State) : Prop :=
  twf none s.cpu.dirty = true → Touches [.sto, .mem, .cpu, .core, .keeps, .own, .still] s t ∧ twf none t.cpu.dirty = true ∧ ∀ b, cohByte b t = cohByte b s

theorem SeesSame.trans (h : SeesSame s t) (k : SeesSame t u) : SeesSame s u := fun hw => by
  obtain ⟨hframe, hdirty, hbytes⟩ := h hw
  obtain ⟨kframe, kdirty, kbytes⟩ := k hdirty
  exact ⟨hframe.trans kframe, kdirty, fun b => (kbytes b).trans (hbytes b)⟩

theorem SeesSame.refl (s : State) : SeesSame s s := fun hw => ⟨.refl _ s, hw, fun _ => rfl⟩

theorem seesSame_cpu (x : CoresS) (h : x.dirty = s.cpu.dirty) : SeesSame s { s with cpu := x } := fun hw =>
  ⟨(frame_cpu s x).mono (by decide), by rw [← hw, ← h], cohByte_congr (t := { s with cpu := x }) h (fun _ => rfl) rfl⟩

theorem seesSame_onlyCores (h : OnlyCores s t) : SeesSame s t := by
  obtain ⟨x, rfl⟩ := h
  exact seesSame_cpu _ rfl

theorem seesSame_sto (x : Storage) (hm : x.mem = s.sto.mem) (hk : x.keyed = s.sto.keyed) : SeesSame s { s with sto := x } := fun hw =>
  ⟨(frame_sto s x).mono (by decide), hw, cohByte_congr (t := { s with sto := x }) rfl (fun a => by simp only [storedByte, keyMask, hm, hk]) rfl⟩

theorem seesSame_writeBackIf {p : Nat → DByte → Bool} (hp : ∀ a d, p a d = true → isLocal a s = true) : SeesSame s (writeBackIf p s) := fun hw => by
  obtain ⟨hframe, ⟨d, hd, hwf⟩, hbytes⟩ := writeBackIf_spec hw hp
  exact ⟨hframe.mono (by decide), by rw [hd]; exact hwf, hbytes⟩

theorem seesSame_sliceUse (line : Nat) (part : Option Nat) : SeesSame s (sliceUse line part s) := by
  unfold sliceUse
  extract_lets a p ways k set_ q
  split
  · exact .refl s
  · exact seesSame_sto _ rfl rfl

theorem frame_sliceUse (line : Nat) (part : Option Nat) : Touches [.sto, .mem] s (sliceUse line part s) :=
  touches_ite (fun _ => .refl _ s) fun _ => frame_sto s _

theorem seesSame_writeBackLine {line : Nat} (hl : isLocal (line * 128) s = true) : SeesSame s (writeBackLine line s) := by
  unfold writeBackLine
  extract_lets used
  have hused : SeesSame s used := by
    unfold used
    split
    · exact seesSame_sliceUse _ _
    · exact .refl s
  have harm : used.arm = s.arm := (touches_ite (fun _ => frame_sliceUse _ _) fun _ => .refl _ s : Touches [.sto, .mem] s used) .arm (by decide)
  refine hused.trans (seesSame_writeBackIf fun a d ha => ?_)
  have hline : lineOf a = line := by simpa using ha
  rw [← hl, isLocal_same_line (a := line * 128) (by rw [hline, lineOf, Nat.mul_div_cancel _ (by decide)])]
  simp only [isLocal, harm]

theorem coreOf_of_cores (h : t.cpu.core = s.cpu.core) (k : Nat) : coreOf k t = coreOf k s := by simp only [coreOf, h]

theorem sees_noteOld (who : Fetchers) (a : Nat) (old : List Byte) : SeesSame s (noteOld who a old s) ∧ coreOf l (noteOld who a old s) = coreOf l s := by
  unfold noteOld
  split
  · exact ⟨.refl s, rfl⟩
  · exact ⟨seesSame_cpu _ rfl, rfl⟩

/-- A line that the data cache holds is only used. -/
theorem sees_cacheFill {line : Nat} {part : Option Nat} (hl : isLocal (line * 128) s = true) (hd : dataCached (coreOf l s) = true)
    (hh : cacheHas geoL1D line (coreOf l s).l1d = true) : OnlyCores s (cacheFill l line false part s) ∧
    ∃ x, coreOf l (cacheFill l line false part s) = { coreOf l s with l1d := x } := by
  have hfill : cacheFill l line false part s = modCore l (fun c => { c with l1d := (cacheUse geoL1D line 0 allWays c.l1d).1 }) s := by
    unfold cacheFill
    extract_lets c filled r used kept
    have hkept : kept = s := if_pos (by simp [c, hd, hh])
    rw [if_neg (by simp [hl]), if_neg Bool.false_ne_true, if_pos hd, hkept]
  rw [hfill]
  exact ⟨onlyCores_modCore _ _ _, _, (coreOf_modCore ..).trans (if_pos rfl)⟩

/-- The state whose dirty bytes are those of a store. -/
def stored (l a : Nat) (data : List Byte) (s : State) : State :=
  ((List.range data.length).zip data).foldl (fun s e => { s with cpu := { s.cpu with dirty := tset none (a + e.1) (some { core := l, val := e.2 }) s.cpu.dirty } }) s

theorem stored_eq (l a : Nat) (es : List (Nat × Byte)) : ∀ s : State,
    es.foldl (fun s e => { s with cpu := { s.cpu with dirty := tset none (a + e.1) (some { core := l, val := e.2 }) s.cpu.dirty } }) s =
      { s with cpu := { s.cpu with dirty := es.foldl (fun t e => tset none (a + e.1) (some { core := l, val := e.2 }) t) s.cpu.dirty } } := by
  induction es with
  | nil => exact fun _ => rfl
  | cons e es ih => exact fun s => ih _

theorem stored_spec (l a : Nat) (data : List Byte) (s : State) : Touches [.cpu, .core, .keeps, .own, .still] s (stored l a data s) ∧ coreOf l (stored l a data s) = coreOf l s ∧
    (twf none s.cpu.dirty = true → twf none (stored l a data s).cpu.dirty = true) ∧
    ∀ b, cohByte b (stored l a data s) = if a ≤ b ∧ b < a + data.length then data.getD (b - a) 0 else cohByte b s := by
  have heq : stored l a data s = _ := stored_eq l a _ s
  rw [heq]
  refine ⟨frame_cpu s _, rfl, fun hw => ?_, fun b => ?_⟩
  · suffices ∀ (es : List (Nat × Byte)) (t : Tab (Option DByte)), twf none t = true →
        twf none (es.foldl (fun t e => tset none (a + e.1) (some { core := l, val := e.2 }) t) t) = true from this _ _ hw
    intro es
    induction es with
    | nil => exact fun _ h => h
    | cons e es ih => exact fun t h => ih _ (twf_tset none _ _ h)
  · have hget := tget_storeList none (fun x _ => some ({ core := l, val := x } : DByte)) a data b 0 s.cpu.dirty
    rw [← List.range_eq_range'] at hget
    unfold cohByte
    dsimp only
    rw [hget]
    simp only [Nat.add_zero, Nat.sub_zero]
    by_cases h : a ≤ b ∧ b < a + data.length
    · simp only [if_pos h]
    · simp only [if_neg h]
      rfl

/-- A store of a core to a line that its data cache holds: every observer sees its bytes. -/
theorem wbStore_spec {who : Fetchers} {a : Nat} {data : List Byte} (hl : isLocal a s = true) (hd : dataCached (coreOf l s) = true)
    (hh : cacheHas geoL1D (lineOf a) (coreOf l s).l1d = true) (h1 : tget none (lineOf a) (coreOf l s).held1 = none) (h2 : tget none (lineOf a) (coreOf l s).held2 = none)
    (hw : twf none s.cpu.dirty = true) :
    Touches [.sto, .mem, .cpu, .core, .keeps, .own, .still] s (wbStore l who a data s) ∧ twf none (wbStore l who a data s).cpu.dirty = true ∧
    (∀ b, cohByte b (wbStore l who a data s) = if a ≤ b ∧ b < a + data.length then data.getD (b - a) 0 else cohByte b s) ∧
    (coreOf l (wbStore l who a data s)).sb = (coreOf l s).sb := by
  have hline : isLocal (lineOf a * 128) s = true := by rw [← hl, isLocal_same_line (a := a) (by rw [lineOf, Nat.mul_div_cancel _ (by decide)])]
  unfold wbStore
  extract_lets ln part c held noted back dropped lost filled
  split
  next h heq => exact absurd heq (by simp [held, c, ln, h1, h2])
  next =>
    have hnoted : SeesSame s noted ∧ coreOf l noted = coreOf l s := sees_noteOld _ _ _
    have hnotedArm : noted.arm = s.arm := (hnoted.1 hw).1 .arm (by decide)
    have hback : SeesSame noted back ∧ coreOf l back = coreOf l noted := by
      have hp : ∀ x (d : DByte), (lineOf x == ln && d.core != l) = true → isLocal x noted = true := fun x d hx => by
        have hx : lineOf x = lineOf a := by simpa using (Bool.and_eq_true_iff.1 hx).1
        rw [← hl, ← isLocal_same_line hx s]
        simp only [isLocal, hnotedArm]
      exact ⟨seesSame_writeBackIf hp, coreOf_of_cores (writeBackIf_core _ noted) l⟩
    have hdropped : SeesSame back dropped ∧ coreOf l dropped = coreOf l back := ⟨seesSame_onlyCores (onlyCores_onCores _ _ _), coreOf_onCores_skipped (by simp) _ _⟩
    have hlost : SeesSame dropped lost ∧ coreOf l lost = coreOf l dropped := ⟨seesSame_onlyCores (onlyCores_onCores _ _ _), coreOf_onCores_skipped (by simp) _ _⟩
    have hcore : coreOf l lost = coreOf l s := hlost.2.trans (hdropped.2.trans (hback.2.trans hnoted.2))
    have hlostSees : SeesSame s lost := ((hnoted.1.trans hback.1).trans hdropped.1).trans hlost.1
    have hlostArm : lost.arm = s.arm := (hlostSees hw).1 .arm (by decide)
    have hsnoop : OnlyCores lost (modCore l (snoopOff ln) lost) ∧ coreOf l (modCore l (snoopOff ln) lost) = coreOf l s := by
      refine ⟨onlyCores_modCore _ _ _, ?_⟩
      rw [coreOf_modCore, if_pos rfl, hcore]
      exact if_pos hd
    have hfilled : OnlyCores (modCore l (snoopOff ln) lost) filled ∧ ∃ x, coreOf l filled = { coreOf l s with l1d := x } := by
      obtain ⟨honly, x, hx⟩ := sees_cacheFill (l := l) (s := modCore l (snoopOff ln) lost) (line := ln) (part := part)
        (by rw [← hline]; simp only [isLocal, modCore, setCore_arm, hlostArm]; rfl) (by rw [hsnoop.2]; exact hd) (by rw [hsnoop.2]; exact hh)
      exact ⟨honly, x, by rw [hx, hsnoop.2]⟩
    have hall : SeesSame s filled := hlostSees.trans (seesSame_onlyCores (hsnoop.1.trans hfilled.1))
    obtain ⟨-, x, hfc⟩ := hfilled
    clear_value filled
    obtain ⟨hframe, hwf, hbytes⟩ := hall hw
    obtain ⟨hput, hcoreput, hwput, hbytesput⟩ := stored_spec l a data filled
    exact ⟨hframe.trans (hput.mono (by decide)), hwput hwf, fun b => by rw [← hbytes b]; exact hbytesput b,
      (congrArg Core.sb hcoreput :).trans (congrArg Core.sb hfc :)⟩

/-- A store's line, marked where its data are poisoned. -/
theorem marked_sees (bad : Bool) {a : Nat} (hl : isLocal a s = true) :
    SeesSame s (if bad then poisonLine (lineOf a) (writeBackLine (lineOf a) s) else s) ∧
    (twf none s.cpu.dirty = true → coreOf l (if bad then poisonLine (lineOf a) (writeBackLine (lineOf a) s) else s) = coreOf l s) := by
  have hline : isLocal (lineOf a * 128) s = true := by rw [← hl, isLocal_same_line (a := a) (by rw [lineOf, Nat.mul_div_cancel _ (by decide)])]
  cases bad with
  | false => exact ⟨.refl s, fun _ => rfl⟩
  | true =>
    have hback : SeesSame s (writeBackLine (lineOf a) s) := seesSame_writeBackLine hline
    have hpoison : twf none s.cpu.dirty = true → poisonLine (lineOf a) (writeBackLine (lineOf a) s) = setPoison (lineOf a) true (writeBackLine (lineOf a) s) := fun hw => by
      have harm : (writeBackLine (lineOf a) s).arm = s.arm := (hback hw).1 .arm (by decide)
      exact if_pos (by rw [← hline]; simp only [isLocal, harm])
    refine ⟨fun hw => ?_, fun hw => ?_⟩
    · rw [if_pos rfl, hpoison hw]
      exact hback.trans (seesSame_sto _ rfl rfl) hw
    · rw [if_pos rfl, hpoison hw]
      have hcore : (writeBackLine (lineOf a) s).cpu.core = s.cpu.core := (writeBackIf_core _ _).trans
        ((touches_ite (fun _ => frame_sliceUse _ _) fun _ => .refl _ s : Touches [.sto, .mem] s _) .core (by decide))
      exact coreOf_of_cores (t := setPoison (lineOf a) true (writeBackLine (lineOf a) s)) hcore l

/-- An entry performed at SYSTEM scope in local write-back storage that its core's data cache holds. -/
theorem finishEntry_spec (he : (coreOf l s).sb[i]? = some e) (ha : e.attr = 0) (hd : dataCached (coreOf l s) = true) (hl : isLocal e.addr s = true)
    (hk : physKind (physOfAddr e.addr) s = .dram) (hr : remoteReady e.addr true s = true) (hh : cacheHas geoL1D (lineOf e.addr) (coreOf l s).l1d = true)
    (h1 : tget none (lineOf e.addr) (coreOf l s).held1 = none) (h2 : tget none (lineOf e.addr) (coreOf l s).held2 = none) (hw : twf none s.cpu.dirty = true) :
    Touches [.sto, .mem, .cpu, .core, .keeps, .own, .still] s (finishEntry l i s) ∧ (coreOf l (finishEntry l i s)).sb = (coreOf l s).sb.eraseIdx i ∧
    ∀ b, cohByte b (finishEntry l i s) = if e.addr ≤ b ∧ b < e.addr + e.data.length then e.data.getD (b - e.addr) 0 else cohByte b s := by
  have hcached : ∀ u : State, coreOf l u = { coreOf l s with sb := (coreOf l s).sb.eraseIdx i } → cachedStore l e.attr e.addr u = true := fun u hu => by
    have hon : l2On (coreOf l s) = true := (Bool.and_eq_true_iff.1 hd).2
    have hon' : l2On { coreOf l s with sb := (coreOf l s).sb.eraseIdx i } = true := hon
    have hd' : dataCached { coreOf l s with sb := (coreOf l s).sb.eraseIdx i } = true := hd
    simp [cachedStore, madeAtHome, hu, hon', hd', ha]
  have howned : ownedStore l e.attr e.addr s = true := by
    have hon : l2On (coreOf l s) = true := (Bool.and_eq_true_iff.1 hd).2
    simp [ownedStore, madeAtHome, hon, hd, ha]
  have hready : storeReady l e s = true := by
    rw [storeReady, if_neg (by simp [ha]), if_neg (by simp [hk]), if_pos howned, hr]
  have herase := onlyCores_modCore l (fun c => { c with sb := c.sb.eraseIdx i }) s
  have hcore : coreOf l (modCore l (fun c => { c with sb := c.sb.eraseIdx i }) s) = { coreOf l s with sb := (coreOf l s).sb.eraseIdx i } :=
    (coreOf_modCore ..).trans (if_pos rfl)
  have hfinish : finishEntry l i s = sysStore l e (modCore l (fun c => { c with sb := c.sb.eraseIdx i }) s) := by
    simp only [finishEntry, he]
    exact if_pos hready
  rw [hfinish]
  obtain ⟨y, hy⟩ := herase
  rw [hy] at hcore ⊢
  have hsees : SeesSame s { s with cpu := { s.cpu with core := y } } := seesSame_cpu _ rfl
  generalize hu : ({ s with cpu := { s.cpu with core := y } } : State) = u at *
  have hlu : isLocal e.addr u = true := by rw [← hl, ← hu]; rfl
  have hku : physKind (physOfAddr e.addr) u = .dram := by rw [← hk, ← hu]; rfl
  obtain ⟨hframe, hwu, hbytes⟩ := hsees hw
  have hsys : sysStore l e u = if e.bad then poisonLine (lineOf e.addr) (writeBackLine (lineOf e.addr) (wbStore l (e.fetchers l) e.addr e.data u))
      else wbStore l (e.fetchers l) e.addr e.data u := by
    unfold sysStore
    extract_lets part here mark
    rw [if_neg (by simp [ha]), if_neg (by simp [hku]), if_pos (hcached u hcore)]
  obtain ⟨hput, hwp, hbytesp, hsb⟩ := wbStore_spec (who := e.fetchers l) (data := e.data) hlu (by rw [hcore]; exact hd) (by rw [hcore]; exact hh) (by rw [hcore]; exact h1)
    (by rw [hcore]; exact h2) hwu
  rw [hsys]
  generalize wbStore l (e.fetchers l) e.addr e.data u = v at *
  have hlv : isLocal e.addr v = true := by
    rw [← hlu]
    simp only [isLocal, show v.arm = u.arm from hput .arm (by decide)]
  obtain ⟨hmark, hsame⟩ := marked_sees e.bad hlv
  obtain ⟨hmf, -, hmb⟩ := hmark hwp
  exact ⟨(hframe.trans hput).trans hmf, by rw [hsame hwp, hsb, hcore], fun b => by rw [hmb, hbytesp, hbytes]⟩

theorem exec_performSystem (hs : Safety.settled s) (ho : operating s = true) (hlt : l < 192) (he : (coreOf l s).sb[i]? = some e) (hg : e.data.length ≤ e.grain)
    (hm : mayPerform l i true s = true) (ha : e.attr = 0) (hd : dataCached (coreOf l s) = true) (hl : isLocal e.addr s = true)
    (hk : physKind (physOfAddr e.addr) s = .dram) (hr : remoteReady e.addr true s = true) (hh : cacheHas geoL1D (lineOf e.addr) (coreOf l s).l1d = true)
    (h1 : tget none (lineOf e.addr) (coreOf l s).held1 = none) (h2 : tget none (lineOf e.addr) (coreOf l s).held2 = none) (hw : twf none s.cpu.dirty = true) :
    ∃ t, exec (.storeBufferPerform l i true false) s = .next t ∧ (coreOf l t).sb = (coreOf l s).sb.eraseIdx i ∧
      (∀ j, j < e.data.length → cohByte (e.addr + j) t = e.data.getD j 0) ∧ (∀ b, (b < e.addr ∨ e.addr + e.data.length ≤ b) → cohByte b t = cohByte b s) ∧
      (coreOf l t).g = (coreOf l s).g ∧ (coreOf l t).pc = (coreOf l s).pc ∧ t.flt = s.flt ∧ t.tor = s.tor := by
  obtain ⟨hframe, hsb, hbytes⟩ := finishEntry_spec he ha hd hl hk hr hh h1 h2 hw
  have hexec : exec (.storeBufferPerform l i true false) s = done s (finishEntry l i s) := exec_perform ho hlt he hg hm
  have hown : ownOf (coreOf l (finishEntry l i s)) = ownOf (coreOf l s) := traffic_finishEntry .own (by decide) l
  refine ⟨_, hexec.trans (done_framed hframe hs), hsb, fun j hj => ?_, fun b hb => ?_, (congrArg Core.g hown :), (congrArg Core.pc hown :), hframe .flt (by decide),
    hframe .tor (by decide)⟩
  · rw [hbytes, if_pos (by omega), Nat.add_sub_cancel_left]
  · rw [hbytes, if_neg (by omega)]

end

/-- Settles O32: a wait ends at its deadline; a store performed at CLUSTER scope takes its place, and one at SYSTEM scope is seen by every observer. -/
theorem waitsEndAndStoresArePerformed : Obligations.WaitsEndAndStoresArePerformed := by
  refine ⟨fun l t0 s hs hl hh hw => exec_waitevDeadline_spec hs hl hh hw, fun l i bad e s hs ho hl he hg => ⟨fun hm => exec_performCluster hs ho hl bad he hg hm,
    fun hm ha hd hloc hk hr hh h1 h2 hw => exec_performSystem hs ho hl he hg hm ha hd hloc hk hr hh h1 h2 hw⟩⟩

end Sys2Proof.Machine
end


section
set_option Elab.async false
/-! PROOFS. O31: an interruption exchanges the program state by the TCA. -/

namespace Sys2Proof.Machine

section
variable {s s1 s2 t u : State} {l : Nat}

/-! ### Stores into the buffer -/

/-- Entries of the store buffer hold the bytes of a store. -/
def HoldsStore (attr : Nat) (es : List SbEntry) (w : Nat × List Byte) : Prop :=
  ∀ j, j < w.2.length → ∃ x ∈ es, x.attr = attr ∧ x.addr ≤ w.1 + j ∧ x.data[w.1 + j - x.addr]? = w.2[j]?

theorem HoldsStore.mono {attr : Nat} {es fs : List SbEntry} {w : Nat × List Byte} (h : HoldsStore attr es w) (hsub : ∀ x ∈ es, x ∈ fs) : HoldsStore attr fs w :=
  fun j hj => by
    obtain ⟨x, hx, hrest⟩ := h j hj
    exact ⟨x, hsub x hx, hrest⟩

/-- Every byte of a store is in one of the entries that its store takes (10 R221). -/
theorem splitStore_covers (a : Nat) (data : List Byte) {j : Nat} (hj : j < data.length) :
    ∃ e ∈ splitStore a data, e.1 ≤ a + j ∧ a + j - e.1 < e.2.length ∧ e.2[a + j - e.1]? = data[j]? := by
  unfold splitStore
  split
  · exact ⟨_, List.mem_singleton.2 rfl, by simp, by simpa using hj, by simp⟩
  · refine ⟨_, List.mem_map.2 ⟨(a + j) / 8 - a / 8, List.mem_range.2 ?_, rfl⟩, ?_, ?_, ?_⟩
    · have h1 : a / 8 ≤ (a + j) / 8 := Nat.div_le_div_right (by omega)
      have h2 : (a + j) / 8 ≤ (a + data.length - 1) / 8 := Nat.div_le_div_right (by omega)
      omega
    all_goals
      have hk : a / 8 + ((a + j) / 8 - a / 8) = (a + j) / 8 := by
        have h1 : a / 8 ≤ (a + j) / 8 := Nat.div_le_div_right (by omega)
        omega
      dsimp only
      rw [hk]
    · omega
    · rw [List.length_take, List.length_drop]
      omega
    · rw [List.getElem?_take, if_pos (by omega), List.getElem?_drop]
      exact congrArg (data[·]?) (by omega)

/-- From `s` to `t` what is written is the cores' block. -/
def OnlyCpu (s t : State) : Prop := ∃ x, t = { s with cpu := x }

theorem OnlyCpu.trans (h : OnlyCpu s t) (k : OnlyCpu t u) : OnlyCpu s u := by
  obtain ⟨x, rfl⟩ := h
  obtain ⟨y, rfl⟩ := k
  exact ⟨y, rfl⟩

theorem OnlyCpu.of_cores (h : OnlyCores s t) : OnlyCpu s t := by
  obtain ⟨x, rfl⟩ := h
  exact ⟨_, rfl⟩

theorem onlyCpu_noteOld (who : Fetchers) (a : Nat) (old : List Byte) (s : State) : OnlyCpu s (noteOld who a old s) ∧ coreOf l (noteOld who a old s) = coreOf l s := by
  unfold noteOld
  split
  · exact ⟨⟨s.cpu, rfl⟩, rfl⟩
  · exact ⟨⟨_, rfl⟩, rfl⟩

/-- A core with more stores in its buffer. -/
def buffering (c : Core) (es : List SbEntry) : Core := { c with sb := c.sb ++ es }

theorem bufferStore_spec (l attr grain after : Nat) (strl : Option Nat) (a : Nat) (data : List Byte) (s : State) :
    OnlyCpu s (bufferStore l attr grain after strl a data s) ∧
    ∃ es, coreOf l (bufferStore l attr grain after strl a data s) = buffering (coreOf l s) es ∧ HoldsStore attr es (a, data) := by
  unfold bufferStore
  extract_lets q noted alone pieces entries
  have hnoted : OnlyCpu s noted ∧ coreOf l noted = coreOf l s := onlyCpu_noteOld _ _ _ s
  have hcore := (coreOf_modCore l l (fun c => { c with sb := c.sb ++ (((List.range entries.length).zip entries).flatMap pieces).map (fun e =>
    { addr := e.2.1, data := e.2.2, attr := attr, after := after, epC := c.epC, epS := c.epS, strl := strl, cluster := none, seq := q,
      grain := grain, sent := none, place := e.1, bad := false }) }) noted).trans (if_pos rfl)
  rw [hnoted.2] at hcore
  refine ⟨hnoted.1.trans (.of_cores (onlyCores_modCore _ _ _)), _, hcore, fun j hj => ?_⟩
  · obtain ⟨e, he, hle, hlt, hbyte⟩ := splitStore_covers a data hj
    obtain ⟨n, hn, hget⟩ := List.mem_iff_getElem.1 he
    have hzip : (n, e) ∈ (List.range entries.length).zip entries := List.mem_iff_getElem.2 ⟨n, by simpa using hn, by simp [entries, hget]⟩
    cases halone : alone with
    | false =>
      refine ⟨_, List.mem_map.2 ⟨(n, e), List.mem_flatMap.2 ⟨(n, e), hzip, by simp [pieces, halone]⟩, rfl⟩, rfl, hle, hbyte⟩
    | true =>
      have hi : (a + j - e.1, e.2[a + j - e.1]) ∈ (List.range e.2.length).zip e.2 := List.mem_iff_getElem.2 ⟨a + j - e.1, by simpa using hlt, by simp⟩
      refine ⟨_, List.mem_map.2 ⟨(n, e.1 + (a + j - e.1), [e.2[a + j - e.1]]), List.mem_flatMap.2 ⟨(n, e), hzip, ?_⟩, rfl⟩, rfl, ?_, ?_⟩
      · simp only [pieces, halone, if_true]
        exact List.mem_map.2 ⟨_, hi, rfl⟩
      · show e.1 + (a + j - e.1) ≤ a + j
        omega
      · show [e.2[a + j - e.1]][a + j - (e.1 + (a + j - e.1))]? = data[j]?
        rw [show a + j - (e.1 + (a + j - e.1)) = 0 by omega, ← hbyte, List.getElem?_eq_getElem hlt]
        rfl

/-- The stores of an exchange, one after another. -/
theorem bufferStores_spec (l attr : Nat) (grain : Nat × List Byte → Nat) (ws : List (Nat × List Byte)) : ∀ s : State,
    OnlyCpu s (ws.foldl (fun s w => bufferStore l attr (grain w) 0 none w.1 w.2 s) s) ∧
    ∃ es, coreOf l (ws.foldl (fun s w => bufferStore l attr (grain w) 0 none w.1 w.2 s) s) = buffering (coreOf l s) es ∧
      ∀ w ∈ ws, HoldsStore attr es w := by
  induction ws with
  | nil => exact fun s => ⟨⟨s.cpu, rfl⟩, [], by simp [buffering], fun _ h => absurd h List.not_mem_nil⟩
  | cons w ws ih =>
    intro s
    obtain ⟨hone, es, hcore, hhold⟩ := bufferStore_spec l attr (grain w) 0 none w.1 w.2 s
    obtain ⟨hrest, fs, hcore', hhold'⟩ := ih (bufferStore l attr (grain w) 0 none w.1 w.2 s)
    refine ⟨hone.trans hrest, es ++ fs, ?_, fun x hx => ?_⟩
    · rw [List.foldl_cons, hcore', hcore]
      simp only [buffering, List.append_assoc]
    · rcases List.mem_cons.1 hx with rfl | hx
      · exact hhold.mono fun y hy => List.mem_append_left _ hy
      · exact (hhold' x hx).mono fun y hy => List.mem_append_right _ hy

/-! ### The exchange -/

/-- A core after the exchange of its program state (08 R175, R177). -/
def exchangedCore (c : Core) (ret newTsw newPc : Long) (es : List SbEntry) : Core :=
  { c with epC := c.epC + 1, epS := c.epS + 1, resv := none, sb := c.sb ++ es, rtsw := c.tsw, rpc := ret, tsw := newTsw, pc := newPc, run := .running, inRepn := false,
           rep := none, ucBuf := [], atomBuf := [], part := none, code := none, attempts := 0, sysBuf := [] }

/-- An exchange starts as a fence of stores does; the core's reservation and what it has asked for are lost. -/
def exchangeStart (l : Nat) (s : State) : State :=
  dropGot (.core l) (fun _ => true) (modCore l (fun c => { c with resv := none }) (markStores l s))

theorem exchangeStart_eq (hwc : (coreOf l s).wc = []) :
    dropGot (.core l) (fun _ => true) (modCore l (fun c => { c with resv := none }) (markStores l (wcRelease l s))) = exchangeStart l s := by
  rw [wcRelease, hwc]
  rfl

theorem exchangeStart_spec (l : Nat) (s : State) : Touches [.cpu, .core, .keeps, .own, .still, .arm] s (exchangeStart l s) ∧
    coreOf l (exchangeStart l s) = { coreOf l s with epC := (coreOf l s).epC + 1, epS := (coreOf l s).epS + 1, resv := none } := by
  refine ⟨?_, ?_⟩
  · exact (((frame_modCore s l _).mono (by decide)).trans ((frame_modCore _ l _).mono (by decide))).trans ((frame_dropGot _ (Agent.core l) (fun _ => true)).mono (by decide))
  · have hdrop : ∀ u, coreOf l (dropGot (Agent.core l) (fun _ => true) u) = coreOf l u := fun _ => rfl
    rw [exchangeStart, hdrop, coreOf_modCore, if_pos rfl, markStores, coreOf_modCore, if_pos rfl]

theorem exchange_spec (a attr : Nat) (i : IntrInfo) (newTsw newPc : Long) (hwc : (coreOf l s).wc = []) :
    Touches [.cpu, .core, .keeps, .own, .still, .arm] s (exchange l a attr i newTsw newPc s) ∧
    ∃ es, coreOf l (exchange l a attr i newTsw newPc s) = exchangedCore (coreOf l s) i.ret newTsw newPc es ∧
      ∀ w ∈ (a + 0x20 * i.k, beBytes 8 (coreOf l s).tsw.toNat) :: (a + 0x20 * i.k + 8, beBytes 8 i.ret.toNat) :: i.writes.map (fun w => (a + w.1, w.2)), HoldsStore attr es w := by
  have hrel : wcRelease l s = s := by rw [wcRelease, hwc]; rfl
  generalize hws : (a + 0x20 * i.k, beBytes 8 (coreOf l s).tsw.toNat) :: (a + 0x20 * i.k + 8, beBytes 8 i.ret.toNat) :: i.writes.map (fun w => (a + w.1, w.2)) = ws
  have heq : exchange l a attr i newTsw newPc s = modCore l (fun d => { d with
      rtsw := (coreOf l s).tsw, rpc := i.ret, tsw := newTsw, pc := newPc, run := .running, inRepn := false, rep := none, ucBuf := [], atomBuf := [], part := none,
      code := none, attempts := 0, sysBuf := [] })
      (ws.foldl (fun s w => bufferStore l attr (storeGrain w.1 w.2.length false) 0 none w.1 w.2 s) (exchangeStart l s)) := by
    rw [← hws, List.foldl_cons, List.foldl_cons, List.foldl_map, ← exchangeStart_eq hwc]
    rfl
  obtain ⟨hframe, hcore⟩ := exchangeStart_spec l s
  obtain ⟨⟨x, hx⟩, es, hes, hhold⟩ := bufferStores_spec l attr (fun w => storeGrain w.1 w.2.length false) ws (exchangeStart l s)
  rw [heq]
  refine ⟨(hframe.trans ?_).andThen (frame_modCore _ _ _), es, ?_, hhold⟩
  · rw [hx]
    exact (frame_cpu _ _).mono (by decide)
  · rw [coreOf_modCore, if_pos rfl, hes, hcore]
    rfl

/-! ### Which condition is taken -/

/-- What taking a condition clears. -/
def consumedCore (k : Cond) (c : Core) : Core :=
  match k with
  | .exigent _ => { c with exig := c.exig.tail }
  | .mc _ => { c with mcs := c.mcs.tail }
  | .svc _ => { c with svc := none }
  | .pgm _ => { c with pgm := none }
  | .ext (.cmp _) => c
  | .ext (.call _ _) => { c with extCall := none }
  | .ext (.notice k) => { c with notices := c.notices - 2 ^ (k - 1) }
  | .io _ => c

theorem consumeCond_spec (k : Cond) (s : State) : Touches [.cpu, .core, .keeps, .own, .still, .offers] s (consumeCond l k s) ∧
    coreOf l (consumeCond l k s) = consumedCore k (coreOf l s) := by
  have hmod : ∀ f, Touches [.cpu, .core, .keeps, .own, .still, .offers] s (modCore l f s) ∧ coreOf l (modCore l f s) = f (coreOf l s) := fun f =>
    ⟨(frame_modCore s l f).mono (by decide), (coreOf_modCore ..).trans (if_pos rfl)⟩
  match k with
  | .exigent _ | .mc _ | .svc _ | .pgm _ | .ext (.call _ _) | .ext (.notice _) => exact hmod _
  | .ext (.cmp _) => exact ⟨.refl _ s, rfl⟩
  | .io o =>
    unfold consumeCond
    dsimp only
    split
    · exact ⟨(frame_offers s _).mono (by decide), rfl⟩
    · exact ⟨(frame_offers s _).mono (by decide), rfl⟩

theorem takeIf_taken {want : Cond → Bool} {k : Cond} (hrun : (coreOf l s).run = .running) (hf : firstCond l s = some k) (hw : want k = true)
    (ht : takeInterruption l (condInfo l (coreOf l s).pc k s) s = .taken t) : takeIf l want s = consumeCond l k t := by
  have hresume : resumeIfDue l s = s := by simp only [resumeIfDue, hrun]
  simp only [takeIf, hresume, hf, hw, hrun, takeConds, ht]
  rfl

theorem takeInterruption_taken {i : IntrInfo} {a attr : Nat} {newTsw newPc : List Byte} (hp : tcaPlace l s = some (a, attr))
    (h1 : sysRead l attr (a + 0x20 * i.k + 0x10) 8 s = .val newTsw s1) (h2 : sysRead l attr (a + 0x20 * i.k + 0x18) 8 s1 = .val newPc s2)
    (ht : tswOk (BitVec.ofNat 64 (beNat newTsw)) = true) (hc : pcOk (BitVec.ofNat 64 (beNat newPc) : Long).toNat = true)
    (hsb : sbCount (coreOf l s2).sb + exchangeNeed a i ≤ 48) :
    takeInterruption l i s = .taken (exchange l a attr i (BitVec.ofNat 64 (beNat newTsw)) (BitVec.ofNat 64 (beNat newPc)) s2) := by
  simp only [takeInterruption, hp, h1, h2]
  rw [if_neg (by simp only [ht, hc]; decide), if_neg (by omega)]

end

/-- Settles O31: the exchange stores the old state and what names the condition, and loads the new one. -/
theorem interruptionSavesAndLoadsState : Obligations.InterruptionSavesAndLoadsState := by
  intro c l s s1 s2 k a attr base newTsw newPc hs hb hrun hf hc hplace hbase h1 h2 hs2 hcore ht hpc hwc hsb
  subst hbase
  generalize hi : condInfo l (coreOf l s).pc k s = i at *
  have hret : i.ret = (coreOf l s).pc := by
    rw [← hi]
    unfold condInfo
    split <;> rfl
  have hsame : (coreOf l s2).wc = (coreOf l s).wc ∧ (coreOf l s2).sb = (coreOf l s).sb ∧ (coreOf l s2).tsw = (coreOf l s).tsw ∧ (coreOf l s2).g = (coreOf l s).g ∧
      (coreOf l s2).f = (coreOf l s).f ∧ (coreOf l s2).mcs = (coreOf l s).mcs ∧ (coreOf l s2).exig = (coreOf l s).exig := by
    rw [hcore]
    exact ⟨rfl, rfl, rfl, rfl, rfl, rfl, rfl⟩
  obtain ⟨hwc2, hsb2, htsw2, hg2, hf2, hmcs2, hexig2⟩ := hsame
  have htaken := takeInterruption_taken hplace h1 h2 ht hpc (by rw [hsb2]; exact hsb)
  obtain ⟨hframe, es, hex, hhold⟩ := exchange_spec a attr i (BitVec.ofNat 64 (beNat newTsw)) (BitVec.ofNat 64 (beNat newPc)) (hwc2.trans hwc)
  rw [htsw2, hret] at hhold
  rw [hret] at hex
  generalize exchange l a attr i (BitVec.ofNat 64 (beNat newTsw)) (BitVec.ofNat 64 (beNat newPc)) s2 = v at *
  obtain ⟨hcons, hcc⟩ := consumeCond_spec (l := l) k v
  have hexec : exec c s = done s (consumeCond l k v) := by
    have htake : ∀ want : Cond → Bool, want k = true → takeIf l want s = consumeCond l k v := fun want hw => takeIf_taken hrun hf hw (by rw [hi]; exact htaken)
    rcases hc with ⟨⟨e, rfl⟩, rfl⟩ | ⟨⟨o, rfl⟩, rfl⟩ | ⟨⟨m, rfl⟩ | ⟨m, rfl⟩, rfl⟩
    all_goals exact (if_pos hb).trans (congrArg (done s) (htake _ rfl))
  have hread : Touches [.cpu, .core, .keeps, .own, .still, .sto, .mem] s s2 := hs2 ▸ ((frame_cpu s s2.cpu).mono (by decide)).andThen (frame_sto _ s2.sto)
  have hall : Touches [.cpu, .core, .keeps, .own, .still, .sto, .mem, .arm, .offers] s (consumeCond l k v) :=
    ((hread.mono (by decide)).trans (hframe.mono (by decide))).trans (hcons.mono (by decide))
  have hown : ∀ x : Core, (consumedCore k x).rtsw = x.rtsw ∧ (consumedCore k x).rpc = x.rpc ∧ (consumedCore k x).tsw = x.tsw ∧ (consumedCore k x).pc = x.pc ∧
      (consumedCore k x).resv = x.resv ∧ (consumedCore k x).run = x.run ∧ (consumedCore k x).g = x.g ∧ (consumedCore k x).f = x.f ∧ (consumedCore k x).sb = x.sb := fun x => by
    match k with
    | .exigent _ | .mc _ | .svc _ | .pgm _ | .ext (.call _ _) | .ext (.notice _) | .ext (.cmp _) | .io _ => exact ⟨rfl, rfl, rfl, rfl, rfl, rfl, rfl, rfl, rfl⟩
  obtain ⟨hrtsw, hrpc, htsw, hpc', hresv, hrun', hg, hfr, hsb'⟩ := hown (coreOf l v)
  refine ⟨consumeCond l k v, hexec.trans (done_framed hall hs), ?_, ?_, ?_, ?_, ?_, ?_, ?_, ?_, fun w hw j hj => ?_, ?_, ?_, ?_, hall .tor (by decide), hall .flt (by decide)⟩
  · rw [hcc, hrtsw, hex]; exact htsw2
  · rw [hcc, hrpc, hex]; rfl
  · rw [hcc, htsw, hex]; rfl
  · rw [hcc, hpc', hex]; rfl
  · rw [hcc, hresv, hex]; rfl
  · rw [hcc, hrun', hex]; rfl
  · rw [hcc, hg, hex]; exact hg2
  · rw [hcc, hfr, hex]; exact hf2
  · rw [hcc, hsb', hex]
    obtain ⟨x, hx, hrest⟩ := hhold w hw j hj
    exact ⟨x, List.mem_append_right _ hx, hrest⟩
  · intro m hm
    subst hm
    rw [hcc]
    show (coreOf l v).mcs.tail = _
    rw [hex]
    exact congrArg List.tail hmcs2
  · intro m hm
    subst hm
    rw [hcc]
    show (coreOf l v).exig.tail = _
    rw [hex]
    exact congrArg List.tail hexig2
  · exact (hcons .sto (by decide)).trans (hframe .sto (by decide))

end Sys2Proof.Machine
end


section
set_option Elab.async false
/-! PROOFS. O34: a link trains from DETECT to KEY, and goes DOWN. -/

namespace Sys2Proof.Machine

section
variable {s t u : State} {p : PortId}

/-! ### A link read and written -/

theorem linkOf_same (h : t.armLink = s.armLink) (k : t.chLink = s.chLink) (p : PortId) : linkOf p t = linkOf p s := by
  cases p <;> simp only [linkOf, h, k]

theorem linkOf_set (p : PortId) (l : Link) (s : State) : linkOf p (setLink p l s) = l := (linkOf_setLink ..).trans (if_pos rfl)

theorem linkOf_mod (p : PortId) (f : Link → Link) (s : State) : linkOf p (modLink p f s) = f (linkOf p s) := linkOf_set ..

theorem linkOf_set_other {q : PortId} (h : q ≠ p) (l : Link) (s : State) : linkOf q (setLink p l s) = linkOf q s := (linkOf_setLink ..).trans (if_neg h)

theorem enterLink_eq (st : Nat) : enterLink p st s = setLink p { linkOf p s with state := st, since := s.tor.tor } s := rfl

theorem frame_enterLink (p : PortId) (st : Nat) (s : State) : Touches [.armLink, .chLink, .links, .idle] s (enterLink p st s) := frame_modLink s p _

/-- What `SameLink` says of the fields that no message of the link changes. -/
theorem SameLink.fields {l m : Link} (h : SameLink l m) : m.state = l.state ∧ m.since = l.since ∧ m.width = l.width ∧ m.group = l.group ∧ m.peerGood = l.peerGood ∧
    m.secret = l.secret ∧ m.downs = l.downs ∧ m.clear = l.clear ∧ m.encOn = l.encOn :=
  ⟨(congrArg Link.state h.1 :), (congrArg Link.since h.1 :), (congrArg Link.width h.1 :), (congrArg Link.group h.1 :), (congrArg Link.peerGood h.1 :),
    (congrArg Link.secret h.1 :), (congrArg Link.downs h.1 :), (congrArg Link.clear h.1 :), (congrArg Link.encOn h.1 :)⟩

theorem linkIn_of (ho : operating s = true) (he : portExists p = true) {n : Nat} (h : (linkOf p s).state = n) : linkIn p n s = true := by
  simp [linkIn, ho, he, h]

theorem linkIn_not {n : Nat} (h : (linkOf p s).state ≠ n) : linkIn p n s = false := by simp [linkIn, h]

/-- A command that writes one link alone. -/
theorem done_setLink (hs : Safety.settled s) (l : Link) : done s (setLink p l s) = .next (setLink p l s) := done_framed (frame_setLink s p l) hs

/-! ### DETECT and EQUALISE -/

theorem exec_laneSignalDetect (hs : Safety.settled s) (ho : operating s = true) (he : portExists p = true) {lanes : List Nat} (h1 : (linkOf p s).state = 1)
    (hc : clockOff p s = false) (hn : 2 ≤ ((lanes.filter (fun i => decide (i < portLanes p))).eraseDups).length) :
    exec (.laneSignalDetect p lanes) s = .next (setLink p { linkOf p s with state := 2, since := s.tor.tor } s) := by
  refine (if_pos (by simp [linkIn_of ho he h1, hc, hn])).trans ?_
  exact done_setLink hs _

theorem exec_equaliseComplete (hs : Safety.settled s) (ho : operating s = true) (he : portExists p = true) (lanes : List LaneEq) (h2 : (linkOf p s).state = 2) :
    ∃ t, exec (.equaliseComplete p lanes) s = .next t ∧ linkOf p t = { takeLanes p false lanes (linkOf p s) with state := 3, since := s.tor.tor } ∧
      (∀ q, q ≠ p → linkOf q t = linkOf q s) ∧ t.sto = s.sto ∧ t.flt = s.flt := by
  have hexec : exec (.equaliseComplete p lanes) s = done s (enterLink p 3 (modLink p (takeLanes p false lanes) s)) := if_pos (linkIn_of ho he h2)
  have hmod := frame_modLink s p (takeLanes p false lanes)
  have htor : (modLink p (takeLanes p false lanes) s).tor = s.tor := hmod .tor (by decide)
  have hframe : Touches [.armLink, .chLink, .links, .idle] s (enterLink p 3 (modLink p (takeLanes p false lanes) s)) := hmod.trans (frame_modLink _ p _)
  refine ⟨_, hexec.trans (done_framed hframe hs), ?_, fun q hq => ?_, hframe .sto (by decide), hframe .flt (by decide)⟩
  · rw [enterLink_eq, linkOf_set, linkOf_mod, htor]
  · rw [enterLink_eq, linkOf_set_other hq]
    exact linkOf_set_other hq _ s

/-! ### DOWN -/

/-- A link that goes DOWN loses its width, its keys and its buffers. -/
def downLink (now : Nat) (l : Link) : Link :=
  { l with
    state := 8, since := now, width := 0, group := 0, encOn := false, keyPhase := 0, replay := [], txq := [], secret := [], context := [], replayUntil := 0,
    rotation := 0, rotMark := 0, rxPhase := 0, rxRotation := 0, oldPhaseUntil := none, ivTx := 0, ivRx := 0, ivOld := 0, nakSince := none, uncorrRun := 0,
    widthPending := false, widthAgreed := false, nextSeq := 0, expect := 0, credits := [], returns := [], rx := [], tagRun := 0,
    clear := false, initiator := false, peerGood := 0, downs := satAdd 16 l.downs 1 }

theorem linkDownOnly_spec : linkOf p (linkDownOnly p s) = downLink s.tor.tor (linkOf p s) ∧ (fltStatus (srcPort p) (linkDownOnly p s)).pending = true := by
  refine ⟨?_, raise_pending _ _ _ _ _⟩
  have hevent : Touches eventRegs (emit (.uncertain p ((linkOf p s).replay.map (·.seq))) (setLink p (downLink s.tor.tor (linkOf p s)) s)) (linkDownOnly p s) := frame_portEvent
  rw [linkOf_same (hevent .armLink (by decide)) (hevent .chLink (by decide))]
  exact linkOf_set p _ s

/-- The link after it has gone DOWN: what follows may only send over it. -/
theorem linkDown_spec : SameLink (downLink s.tor.tor (linkOf p s)) (linkOf p (linkDown p s)) ∧ (fltStatus (srcPort p) (linkDown p s)).pending = true := by
  obtain ⟨hlink, hpend⟩ := linkDownOnly_spec (p := p) (s := s)
  have hdown : Touches downRegs (linkDownOnly p s) (linkDown p s) := down_linkDown
  exact ⟨hlink ▸ hdown .links (by decide) p, (hdown .pend (by decide) _ hpend).1⟩

/-- A command at whose end a link goes DOWN. -/
theorem done_linkDown {b : State} (hs : Safety.settled b) (hg : Safety.graceful b) (h : Touches [.armLink, .chLink, .links, .idle] b s) :
    ∃ t, done b (linkDown p s) = .next t ∧ SameLink (downLink s.tor.tor (linkOf p s)) (linkOf p t) ∧ (fltStatus (srcPort p) t).pending = true := by
  obtain ⟨hlink, hpend⟩ := linkDown_spec (p := p) (s := s)
  have hall : Touches linkRegs b (linkDown p s) := (h.mono (by decide)).trans link_linkDown
  obtain ⟨t, hdone, htold⟩ := done_told (b := b) (due_of_still (hall .still (by decide)) hs hg) (hall .pending (by decide))
  exact ⟨t, hdone, hlink.trans (htold .links (by decide) p), (htold .pend (by decide) _ hpend).1⟩

/-! ### ALIGN -/

theorem ownGood_congr {l m : Link} (h1 : m.lane = l.lane) (h2 : m.laneOff = l.laneOff) : ownGood p m = ownGood p l := by simp only [ownGood, h1, h2]

theorem putFlit_out (f : List Byte) (s : State) : Out.flit p (codeword f) ∈ (putFlit p f s).out := List.mem_append_right _ (List.mem_singleton.2 rfl)

/-- The LINK_INIT flit of R294. -/
def initFlit (p : PortId) (l : Link) : List Byte :=
  mkFlit (flitHeader 2 0 0 (linkAck l) false false 0 0 0 0 false false)
    ([1, (match p with | .arm _ => 0 | .ch _ => 1), BitVec.ofNat 8 (ownGood p l)] ++ (rxBuffers p).flatMap (beBytes 2))

theorem exec_alignComplete_width (hs : Safety.settled s) (ho : operating s = true) (he : portExists p = true) {m : BitVec 8} {l : Link} {w : Nat × Nat}
    (hl : l = { linkOf p s with peerGood := m.toNat % 2 ^ portLanes p }) (hw : w = chooseWidth p (widthLimit p l s) (goodMask p l)) (h3 : (linkOf p s).state = 3)
    (hne : w.1 ≠ 0) : ∃ t, exec (.alignComplete p m) s = .next t ∧ (linkOf p t).state = 4 ∧ (linkOf p t).since = s.tor.tor ∧
      (linkOf p t).width = w.1 ∧ (linkOf p t).group = w.2 ∧ (linkOf p t).peerGood = m.toNat % 2 ^ portLanes p ∧
      Out.flit p (codeword (initFlit p (linkOf p s))) ∈ t.out ∧
      t.sto = s.sto ∧ t.flt = s.flt := by
  have hexec : exec (.alignComplete p m) s = done s (alignDone p m.toNat s) := if_pos (linkIn_of ho he h3)
  have halign : alignDone p m.toNat s = sendInit p (enterLink p 4 (setLink p { l with width := w.1, group := w.2, alignTor := s.tor.tor } s)) := by
    subst hl hw
    exact if_neg hne
  have hset := frame_setLink s p { l with width := w.1, group := w.2, alignTor := s.tor.tor }
  have htor : (setLink p { l with width := w.1, group := w.2, alignTor := s.tor.tor } s).tor = s.tor := hset .tor (by decide)
  have hlink : linkOf p (enterLink p 4 (setLink p { l with width := w.1, group := w.2, alignTor := s.tor.tor } s)) =
      { l with width := w.1, group := w.2, alignTor := s.tor.tor, state := 4, since := s.tor.tor } := by
    rw [enterLink_eq, linkOf_set, linkOf_set, htor]
  have henter := hset.trans (frame_enterLink p 4 (setLink p { l with width := w.1, group := w.2, alignTor := s.tor.tor } s))
  generalize enterLink p 4 (setLink p { l with width := w.1, group := w.2, alignTor := s.tor.tor } s) = v at *
  have hgood : ownGood p (linkOf p v) = ownGood p (linkOf p s) := by
    rw [hlink, hl]
    exact ownGood_congr rfl rfl
  have hmod := frame_modLink v p (fun l => { l with widthSent := ownGood p (linkOf p s) })
  have hsent : sendInit p v = putFlit p (initFlit p (linkOf p s))
      (modLink p (fun l => { l with widthSent := ownGood p (linkOf p s) }) v) := by
    unfold sendInit linkFlit
    dsimp only
    rw [hgood, linkOf_mod, hlink, hl]
    rfl
  have hput := frame_putFlit (modLink p (fun l => { l with widthSent := ownGood p (linkOf p s) }) v) p (initFlit p (linkOf p s))
  have hflit := putFlit_out (p := p) (initFlit p (linkOf p s))
      (modLink p (fun l => { l with widthSent := ownGood p (linkOf p s) }) v)
  rw [hexec, halign, hsent]
  have hall : Touches [.armLink, .chLink, .links, .idle, .out] s _ := ((henter.trans hmod).mono (by decide)).trans (hput.mono (by decide))
  have hsame := hput .links (by decide) p
  rw [linkOf_mod, hlink, hl] at hsame
  obtain ⟨hst, hsince, hwidth, hgroup, hpeer, -⟩ := hsame.fields
  exact ⟨_, done_framed hall hs, hst, hsince, hwidth, hgroup, hpeer, hflit, hall .sto (by decide), hall .flt (by decide)⟩

/-- An exchange of masks that leaves no width leads to DOWN. -/
theorem exec_alignComplete_none (hs : Safety.settled s) (ho : operating s = true) (he : portExists p = true) (hg : Safety.graceful s) {m : BitVec 8} {l : Link} {w : Nat × Nat}
    (hl : l = { linkOf p s with peerGood := m.toNat % 2 ^ portLanes p }) (hw : w = chooseWidth p (widthLimit p l s) (goodMask p l)) (h3 : (linkOf p s).state = 3)
    (hz : w.1 = 0) : ∃ t, exec (.alignComplete p m) s = .next t ∧ (linkOf p t).state = 8 ∧ (linkOf p t).since = s.tor.tor := by
  have hexec : exec (.alignComplete p m) s = done s (alignDone p m.toNat s) := if_pos (linkIn_of ho he h3)
  have halign : alignDone p m.toNat s = linkDown p (setLink p { l with width := w.1, group := w.2, alignTor := s.tor.tor } s) := by
    subst hl hw
    exact if_pos hz
  have hset := frame_setLink s p { l with width := w.1, group := w.2, alignTor := s.tor.tor }
  obtain ⟨t, hdone, hlink, -⟩ := done_linkDown hs hg hset
  obtain ⟨hst, hsince, -⟩ := hlink.fields
  exact ⟨t, (hexec.trans (congrArg _ halign)).trans hdone, hst, hsince.trans (congrArg TorS.tor (hset .tor (by decide)))⟩

/-! ### LINK_INIT -/

theorem exec_linkInit (ho : operating s = true) (he : portExists p = true) (ok : Bool) (m : BitVec 8) (buffers : List Nat) (h4 : (linkOf p s).state = 4) :
    exec (.linkInitFlit p ok m buffers) s = done s (linkInit p ok m.toNat buffers s) := if_pos (linkIn_of ho he h4)

theorem exec_linkInit_refused (hs : Safety.settled s) (ho : operating s = true) (he : portExists p = true) (hg : Safety.graceful s) (m : BitVec 8) (buffers : List Nat)
    (h4 : (linkOf p s).state = 4) : ∃ t, exec (.linkInitFlit p false m buffers) s = .next t ∧ (linkOf p t).state = 8 := by
  rw [exec_linkInit ho he false m buffers h4]
  obtain ⟨t, hdone, hlink, -⟩ := done_linkDown (p := p) hs hg (.refl _ s)
  exact ⟨t, hdone, hlink.fields.1⟩

/-- The peer's buffers, as credit. -/
def peerCredits (vcs : Nat) (buffers : List Nat) : Tab Nat := (List.range vcs).foldl (fun t vc => tset 0 vc (buffers.getD vc 0) t) []

theorem tget_peerCredits (vcs vc : Nat) (buffers : List Nat) : tget 0 vc (peerCredits vcs buffers) = if vc < vcs then buffers.getD vc 0 else 0 := by
  unfold peerCredits
  induction vcs with
  | zero => rfl
  | succ n ih =>
    rw [List.range_succ, List.foldl_append, List.foldl_cons, List.foldl_nil, tget_tset, ih]
    by_cases e : vc = n
    · rw [if_pos e, if_pos (by omega), e]
    · rw [if_neg e]
      by_cases h : vc < n
      · rw [if_pos h, if_pos (by omega)]
      · rw [if_neg h, if_neg (by omega)]

/-- The virtual channel of the messages of discovery. -/
def mgtVc : PortId → Nat
  | .arm _ => 3
  | .ch _ => 0

/-- The virtual channels of a port. -/
def vcCount : PortId → Nat
  | .arm _ => 4
  | .ch _ => 2

/-- A link's state and width. -/
def shapeOf (l : Link) : Nat × Nat × Nat × Nat := (l.state, l.since, l.width, l.group)

theorem SameLink.shape {l m : Link} (h : SameLink l m) : shapeOf m = shapeOf l := by
  obtain ⟨hst, hsince, hwidth, hgroup, -⟩ := h.fields
  simp only [shapeOf, hst, hsince, hwidth, hgroup]

/-- From `s` to `t`, a link in KEY used the credit of its management channel at most. -/
def KeyCredits (p : PortId) (s t : State) : Prop :=
  (linkOf p s).state = 5 → shapeOf (linkOf p t) = shapeOf (linkOf p s) ∧ ∀ vc, vc ≠ mgtVc p → tget 0 vc (linkOf p t).credits = tget 0 vc (linkOf p s).credits

theorem KeyCredits.trans (h : KeyCredits p s t) (k : KeyCredits p t u) : KeyCredits p s u := fun hs => by
  obtain ⟨ht, hst⟩ := h hs
  obtain ⟨hu, htu⟩ := k ((congrArg Prod.fst ht :).trans hs)
  exact ⟨hu.trans ht, fun vc hv => (htu vc hv).trans (hst vc hv)⟩

theorem keyCredits_of_link (h : shapeOf (linkOf p t) = shapeOf (linkOf p s)) (hc : (linkOf p t).credits = (linkOf p s).credits) : KeyCredits p s t :=
  fun _ => ⟨h, fun _ _ => by rw [hc]⟩

theorem putFlit_credits (f : List Byte) (s : State) : (linkOf p (putFlit p f s)).credits = (linkOf p s).credits := by
  have hput : linkOf p (putFlit p f s) = linkOf p (sendAlign p s) := linkOf_same rfl rfl p
  rw [hput]
  unfold sendAlign
  dsimp only
  split
  · rfl
  · have hset : ∀ o l, linkOf p (emit o (setLink p l s)) = l := fun o l => (linkOf_same rfl rfl p).trans (linkOf_set p l s)
    rw [hset]

theorem sendData_credits (vc : Nat) (data : List Byte) (x y z : Bool) (via : Option Nat) (s : State) :
    (linkOf p (sendData p vc data x y z via s)).credits = tmod 0 vc (· - 1) (linkOf p s).credits := by
  unfold sendData
  extract_lets l cr h payload f m
  rw [putFlit_credits, linkOf_set]

theorem keyCredits_putFlit (f : List Byte) : KeyCredits p s (putFlit p f s) := keyCredits_of_link (frame_putFlit s p f .links (by decide) p).shape (putFlit_credits f s)

theorem vcOpen_key {l : Link} {vc : Nat} (h5 : l.state = 5) (h : vcOpen p vc l = true) : vc = mgtVc p := by
  unfold vcOpen at h
  rw [h5] at h
  cases p with
  | arm _ => simpa [mgtVc] using h
  | ch _ => simpa [mgtVc] using h

theorem keyCredits_txOne : KeyCredits p s (txOne p s) := by
  intro h5
  refine ⟨(frame_txOne s p .links (by decide) p).shape, fun vc hne => ?_⟩
  unfold txOne
  extract_lets l
  split
  · rfl
  next i hp =>
    obtain ⟨m, hm, hopen⟩ := txPick_open hp
    have hvc : m.vc = mgtVc p := vcOpen_key h5 hopen
    split
    · rfl
    next m' hm' =>
      obtain rfl := Option.some.inj (hm.symm.trans hm')
      extract_lets enc n eom rest x
      rw [sendData_credits, linkOf_set, tget_tmod, if_neg (by rw [hvc]; exact hne)]

theorem keyCredits_txDrain (n : Nat) : ∀ s, KeyCredits p s (txDrain p n s) := by
  induction n with
  | zero => exact fun s => keyCredits_of_link rfl rfl
  | succ n ih =>
    intro s
    unfold txDrain
    split
    · exact keyCredits_of_link rfl rfl
    · exact keyCredits_txOne.trans (ih _)

theorem keyCredits_modLink {f : Link → Link} (hf : ∀ l, shapeOf (f l) = shapeOf l ∧ (f l).credits = l.credits) : KeyCredits p s (modLink p f s) :=
  keyCredits_of_link (by rw [linkOf_mod]; exact (hf _).1) (by rw [linkOf_mod]; exact (hf _).2)

theorem keyCredits_linkSendVia (vc : Nat) (b : List Byte) (via : Option Nat) : KeyCredits p s (linkSendVia p vc b via s) :=
  (keyCredits_modLink (f := fun l => { l with txq := l.txq ++ [{ vc := vc, bytes := b, first := true, via := via }] }) fun _ => ⟨rfl, rfl⟩).trans (keyCredits_txDrain _ _)

theorem keyCredits_mgtSend (what : Nat) (b : List Byte) : KeyCredits p s (mgtSend p what b s) := keyCredits_linkSendVia _ _ _

theorem keyCredits_putWidth (m : Nat) (s : State) : KeyCredits p s (putWidth p m s) :=
  (keyCredits_modLink (f := fun l => { l with widthAt := s.tor.tor }) fun _ => ⟨rfl, rfl⟩).trans (keyCredits_putFlit _)

theorem keyCredits_sendWidth (m : Nat) : KeyCredits p s (sendWidth p m s) :=
  (keyCredits_modLink (f := fun l => { l with widthPending := true, widthAgreed := false, widthSent := m }) fun _ => ⟨rfl, rfl⟩).trans (keyCredits_putWidth m _)

theorem frame_generated (n : Nat) (s : State) : Touches [.tr, .free] s (drawBytes (drbgCount 48 s) n).2 :=
  ((frame_tr s (drbgCount 48 s).tr).mono (by decide)).andThen (frame_drawBytes n)

theorem frame_setPeer (n : Nat) (x : Peer) (s : State) : Touches [.arm, .routing] s (setPeer n x s) := frame_routing s _ rfl rfl

theorem frame_discoSend (n what : Nat) (b : List Byte) (s : State) : Touches sendRegs s (discoSend n what b s) :=
  ((frame_emit s _).mono (by decide)).trans (frame_mgtSend _ _ _ _)

/-- What the message HELLO writes. -/
theorem frame_sendHello (n : Nat) (s : State) : Touches [.tr, .free, .arm, .routing, .out, .armLink, .chLink] s (sendHello n s) := by
  unfold sendHello
  extract_lets r body
  have hdrawn : Touches [.tr, .free] s r.2 := frame_generated 32 s
  clear_value r
  exact ((hdrawn.mono (by decide) : Touches [.tr, .free, .arm, .routing, .out, .armLink, .chLink] s r.2).andThen (frame_setPeer n _ r.2)).andThen (frame_discoSend n 1 body _)

theorem keyCredits_sendHello {n : Nat} (hn : discoPort n = p) : KeyCredits p s (sendHello n s) := by
  unfold sendHello
  extract_lets r body
  have hdrawn : Touches [.tr, .free] s r.2 := frame_generated 32 s
  clear_value r
  have hsame : ∀ o x, linkOf p (emit o (setPeer n x r.2)) = linkOf p s := fun o x => linkOf_same (hdrawn .armLink (by decide)) (hdrawn .chLink (by decide)) p
  unfold discoSend
  rw [hn]
  exact (keyCredits_of_link (congrArg shapeOf (hsame _ _)) (congrArg Link.credits (hsame _ _))).trans (keyCredits_mgtSend _ _)

/-- The number of a port in discovery. -/
def discoNo : PortId → Nat
  | .arm k => k
  | .ch n => 8 + n

theorem discoPort_discoNo (he : portExists p = true) : discoPort (discoNo p) = p := by
  cases p with
  | arm k =>
    have hk : k < 8 := by simpa [portExists] using he
    exact if_pos hk
  | ch n => exact (if_neg (by simp [discoNo])).trans (by simp [discoNo])

theorem exec_linkInit_width (hs : Safety.settled s) (ho : operating s = true) (he : portExists p = true) {m : BitVec 8} {l : Link} {w : Nat × Nat} (buffers : List Nat)
    (hl : l = { linkOf p s with peerGood := m.toNat % 2 ^ portLanes p }) (hw : w = chooseWidth p (widthLimit p l s) (goodMask p l)) (h4 : (linkOf p s).state = 4)
    (hne : w.1 ≠ 0) : ∃ t, exec (.linkInitFlit p true m buffers) s = .next t ∧ (linkOf p t).state = 5 ∧
      (linkOf p t).since = s.tor.tor ∧ (linkOf p t).width = w.1 ∧ (linkOf p t).group = w.2 ∧
      (∀ vc, vc ≠ mgtVc p → tget 0 vc (linkOf p t).credits = tget 0 vc (peerCredits (vcCount p) buffers)) ∧ t.sto = s.sto := by
  rw [exec_linkInit ho he true m buffers h4]
  generalize hcr : peerCredits (vcCount p) buffers = cr
  have hset := frame_setLink s p { l with width := w.1, group := w.2, credits := cr }
  have htor : (setLink p { l with width := w.1, group := w.2, credits := cr } s).tor = s.tor := hset .tor (by decide)
  have henter := hset.trans (frame_enterLink p 5 (setLink p { l with width := w.1, group := w.2, credits := cr } s))
  have hlink : linkOf p (enterLink p 5 (setLink p { l with width := w.1, group := w.2, credits := cr } s)) =
      { l with width := w.1, group := w.2, credits := cr, state := 5, since := s.tor.tor } := by
    rw [enterLink_eq, linkOf_set, linkOf_set, htor]
  have hinit : linkInit p true m.toNat buffers s = (fun v => sendHello (discoNo p)
      (if ownGood p (linkOf p v) = (linkOf p v).widthSent then v else sendWidth p (ownGood p (linkOf p v)) v))
      (enterLink p 5 (setLink p { l with width := w.1, group := w.2, credits := cr } s)) := by
    subst hl hw hcr
    refine (if_neg (by simp)).trans ((if_neg hne).trans ?_)
    cases p <;> rfl
  rw [hinit]
  generalize enterLink p 5 (setLink p { l with width := w.1, group := w.2, credits := cr } s) = v at *
  dsimp only
  have hwidth : KeyCredits p v (if ownGood p (linkOf p v) = (linkOf p v).widthSent then v else sendWidth p (ownGood p (linkOf p v)) v) ∧
      Touches [.armLink, .chLink, .links, .idle, .out] v (if ownGood p (linkOf p v) = (linkOf p v).widthSent then v else sendWidth p (ownGood p (linkOf p v)) v) := by
    split
    · exact ⟨keyCredits_of_link rfl rfl, .refl _ v⟩
    · exact ⟨keyCredits_sendWidth _, (((frame_modLink v p _).trans (frame_modLink _ p _)).mono (by decide)).trans ((frame_putFlit _ p _).mono (by decide))⟩
  generalize (if ownGood p (linkOf p v) = (linkOf p v).widthSent then v else sendWidth p (ownGood p (linkOf p v)) v) = x at *
  have hkey := hwidth.1.trans (keyCredits_sendHello (s := x) (discoPort_discoNo he))
  have hall : Touches [.armLink, .chLink, .links, .idle, .out, .tr, .free, .arm, .routing] s (sendHello (discoNo p) x) :=
    ((henter.mono (by decide)).trans (hwidth.2.mono (by decide))).trans ((frame_sendHello _ x).mono (by decide))
  obtain ⟨hshape, hcredits⟩ := hkey (by rw [hlink])
  rw [hlink] at hshape hcredits
  simp only [shapeOf, Prod.mk.injEq] at hshape
  obtain ⟨hst, hsince, hwd, hgr⟩ := hshape
  exact ⟨_, done_framed hall hs, hst, hsince, hwd, hgr, hcredits, hall .sto (by decide)⟩

theorem exec_linkInit_none (hs : Safety.settled s) (ho : operating s = true) (he : portExists p = true) (hg : Safety.graceful s) {m : BitVec 8} {l : Link} {w : Nat × Nat}
    (buffers : List Nat) (hl : l = { linkOf p s with peerGood := m.toNat % 2 ^ portLanes p }) (hw : w = chooseWidth p (widthLimit p l s) (goodMask p l))
    (h4 : (linkOf p s).state = 4) (hz : w.1 = 0) : ∃ t, exec (.linkInitFlit p true m buffers) s = .next t ∧ (linkOf p t).state = 8 := by
  rw [exec_linkInit ho he true m buffers h4]
  generalize hcr : peerCredits (vcCount p) buffers = cr
  have hinit : linkInit p true m.toNat buffers s = linkDown p (setLink p { l with width := w.1, group := w.2, credits := cr } s) := by
    subst hl hw hcr
    refine (if_neg (by simp)).trans ((if_pos hz).trans ?_)
    cases p <;> rfl
  rw [hinit]
  obtain ⟨t, hdone, hlink, -⟩ := done_linkDown (p := p) hs hg (frame_setLink s p { l with width := w.1, group := w.2, credits := cr })
  exact ⟨t, hdone, hlink.fields.1⟩

/-! ### The limit of a state -/

/-- A link that was not ACTIVE goes DOWN without more: nothing else of the module is written than what the event of the port writes. -/
theorem linkDown_unlinked (h6 : (linkOf p s).state ≠ 6) (h7 : (linkOf p s).state ≠ 7) : ∃ x, linkDown p s = { linkDownOnly p s with arm := x } ∧
    x.fstate = (linkDownOnly p s).arm.fstate ∧ x.node = (linkDownOnly p s).arm.node ∧ departOf x = departOf (linkDownOnly p s).arm := by
  have hwas : ((linkOf p s).state == 6 || (linkOf p s).state == 7) = false := by simp [h6, h7]
  unfold linkDown
  simp only [hwas, Bool.false_eq_true, if_false]
  cases p <;> exact ⟨_, rfl, rfl, rfl, rfl⟩

/-- An event that names no partition is told to no core. -/
theorem raise_none_cpu (src code detail : Nat) (s : State) : (raise src code none detail s).cpu = s.cpu := by
  have hnotify : ∀ u, (reactNotify src code none detail u).cpu = u.cpu := fun u => by
    have hsc : Touches [.out, .pf0] u (if lbit (reactOf src u) 62 then pf0Vector 0 (emit (.scNotice src) u) else u) :=
      touches_ite (fun _ => ((frame_emit u _).mono (by decide)).andThen (frame_pf0Vector _ 0)) fun _ => .refl _ u
    unfold reactNotify
    extract_lets v
    exact (show _ = v.cpu by split <;> rfl).trans (hsc .cpu (by decide))
  unfold raise raiseClass
  extract_lets st r pt counted logged told pulsed
  have hlogged : logged.cpu = s.cpu := by
    unfold logged
    split <;> rfl
  have htold : told.cpu = logged.cpu := by
    unfold told
    split
    · unfold laterEvent
      extract_lets st worse st' u
      split
      · exact frame_startGrace u src .cpu (by decide)
      · rfl
    · unfold firstEvent
      exact (frame_startGrace _ src .cpu (by decide)).trans (hnotify _)
  have hpulsed : pulsed.cpu = told.cpu := by
    unfold pulsed
    split
    · exact frame_pulseErrN told .cpu (by decide)
    · rfl
  exact (show _ = pulsed.cpu by split <;> rfl).trans (hpulsed.trans (htold.trans hlogged))

theorem exec_linkStateTimeout (ho : operating s = true) (he : portExists p = true) {n : Nat} (hn : linkLimit (linkOf p s).state = some n) :
    exec (.linkStateTimeout p) s = if (linkOf p s).since + n ≤ s.tor.tor then done s (stateLate p s) else .next s := by
  change execLinkStateTimeout p s = _
  simp only [execLinkStateTimeout, hn, ho, he, true_and]

theorem exec_linkStateTimeout_down (hs : Safety.settled s) (ho : operating s = true) (he : portExists p = true) (hg : Safety.graceful s) {n : Nat}
    (hn : linkLimit (linkOf p s).state = some n) (ht : (linkOf p s).since + n ≤ s.tor.tor) (hc : (linkOf p s).state ≠ 5 ∨ clearAllowed p s = false) :
    ∃ t, exec (.linkStateTimeout p) s = .next t ∧ (linkOf p t).state = 8 ∧ (linkOf p t).since = s.tor.tor ∧ (linkOf p t).secret = [] ∧
      (linkOf p t).downs = satAdd 16 (linkOf p s).downs 1 ∧ (fltStatus (srcPort p) t).pending = true ∧
      ((linkOf p s).state ≠ 7 → (linkOf p t).replay = [] ∧ t.sto = s.sto ∧ t.cpu = s.cpu) := by
  have hlate : stateLate p s = linkDown p s := if_neg fun h => by
    rcases hc with h5 | hb
    · exact h5 h.1
    · simp [hb] at h
  rw [exec_linkStateTimeout ho he hn, if_pos ht, hlate]
  have h6 : (linkOf p s).state ≠ 6 := fun h => by simp [h, linkLimit] at hn
  by_cases h7 : (linkOf p s).state = 7
  · obtain ⟨t, hdone, hlink, hpend⟩ := done_linkDown (p := p) hs hg (.refl _ s)
    obtain ⟨hst, hsince, -, -, -, hsecret, hdowns, -⟩ := hlink.fields
    exact ⟨t, hdone, hst, hsince, hsecret, hdowns, hpend, fun h => absurd h7 h⟩
  · obtain ⟨hlink, hpend⟩ := linkDownOnly_spec (p := p) (s := s)
    obtain ⟨x, hx, hf, hn, hd⟩ := linkDown_unlinked h6 h7
    have hcpu : (linkDownOnly p s).cpu = s.cpu := (raise_none_cpu _ _ _ _).trans (frame_setLink s p _ .cpu (by decide))
    have honly : Touches [.armLink, .chLink, .links, .idle, .out, .pf0, .cpu, .core, .flt, .status, .live, .due] s (linkDownOnly p s) := frame_linkDownOnly
    have harm := frame_routing (linkDownOnly p s) x hf hn hd
    rw [hx]
    have hall : Touches [.armLink, .chLink, .links, .idle, .out, .pf0, .cpu, .core, .flt, .status, .live, .due, .arm, .routing] s { linkDownOnly p s with arm := x } :=
      (honly.mono (by decide)).trans (harm.mono (by decide))
    obtain ⟨t, hdone, htold⟩ := done_sameTime (b := s) (due_of_still (hall .still (by decide)) hs hg) (hall .pending (by decide)) (hall .tor (by decide))
    have hsame : linkOf p t = downLink s.tor.tor (linkOf p s) :=
      ((linkOf_same (htold .armLink (by decide)) (htold .chLink (by decide)) p).trans (linkOf_same rfl rfl p)).trans hlink
    exact ⟨t, hdone, by rw [hsame]; rfl, by rw [hsame]; rfl, by rw [hsame]; rfl, by rw [hsame]; rfl, (htold .pend (by decide) _ (harm .pend (by decide) _ hpend).1).1, fun _ =>
      ⟨by rw [hsame]; rfl, (htold .sto (by decide)).trans (hall .sto (by decide)), (htold .cpu (by decide)).trans hcpu⟩⟩

/-- In KEY the limit leads to a clear link where the image permits it. -/
theorem exec_linkStateTimeout_clear (hs : Safety.settled s) (ho : operating s = true) (he : portExists p = true) (hg : Safety.graceful s) {n : Nat}
    (hn : linkLimit (linkOf p s).state = some n) (ht : (linkOf p s).since + n ≤ s.tor.tor) (h5 : (linkOf p s).state = 5) (hc : clearAllowed p s = true) :
    ∃ t, exec (.linkStateTimeout p) s = .next t ∧ (linkOf p t).state = 6 ∧ (linkOf p t).clear = true ∧ (linkOf p t).encOn = false := by
  have hlate : stateLate p s = linkActive p true s := if_pos ⟨h5, hc⟩
  rw [exec_linkStateTimeout ho he hn, if_pos ht, hlate]
  cases p with
  | arm k => exact absurd hc (by simp [clearAllowed])
  | ch k =>
    unfold linkActive
    extract_lets u
    have hu : linkOf (.ch k) u = { linkOf (.ch k) s with state := 6, since := s.tor.tor, clear := true, encOn := !true, keyPhase := 0, rotation := 0, rotMark := s.tor.tor / rotPeriod } :=
      linkOf_mod _ _ _
    have hmod : Touches [.armLink, .chLink, .links, .idle] s u := frame_modLink _ _ _
    clear_value u
    have hup : Touches runRegs u (txDrain (.ch k) 1024 (portUp (.ch k) u)) := (run_chWakeAll : Touches runRegs u (portUp (.ch k) u)).trans ((frame_txDrain _ _ _).mono (by decide))
    generalize txDrain (.ch k) 1024 (portUp (.ch k) u) = v at *
    have hall : Touches (.links :: .idle :: runRegs) s v := (hmod.mono (by decide)).trans (hup.mono (by decide))
    obtain ⟨t, hdone, htold⟩ := done_told (b := s) (due_of_still (hall .still (by decide)) hs hg) (hall .pending (by decide))
    have hsame : SameLink (linkOf (.ch k) u) (linkOf (.ch k) t) := SameLink.trans (hup .links (by decide) _) (htold .links (by decide) _)
    rw [hu] at hsame
    obtain ⟨hst, -, -, -, -, -, -, hclear, henc⟩ := hsame.fields
    exact ⟨t, hdone, hst, hclear, henc⟩

/-! ### From DOWN on -/

theorem lock_foldl_setLane (i : Nat) (ls : List Nat) : ∀ l : Link, (i ∈ ls ∨ (laneOf i l).lock = false) →
    (laneOf i (ls.foldl (fun l i => setLane i { (laneOf i l) with lock := false } l) l)).lock = false := by
  induction ls with
  | nil => exact fun l h => h.resolve_left List.not_mem_nil
  | cons j ls ih =>
    intro l h
    refine ih _ ?_
    by_cases e : i = j
    · subst e
      exact .inr (congrArg Lane.lock (tget_tset_same ..) :)
    · refine h.imp (fun h => (List.mem_cons.1 h).resolve_left e) fun h => ?_
      exact (congrArg Lane.lock (tget_tset_ne _ _ _ e) :).trans h

theorem since_foldl_setLane (f : Lane → Lane) (ls : List Nat) : ∀ l : Link, (ls.foldl (fun l i => setLane i (f (laneOf i l)) l) l).since = l.since := by
  induction ls with
  | nil => exact fun _ => rfl
  | cons i ls ih => exact fun l => ih _

theorem exec_downExpiry_spec (hs : Safety.settled s) (ho : operating s = true) (he : portExists p = true) (h8 : (linkOf p s).state = 8) :
    ((linkOf p s).since + 40000000 ≤ s.tor.tor → portEnabled p s = true →
      exec (.downExpiry p) s = .next (setLink p { linkOf p s with state := 1, since := s.tor.tor } s)) ∧
    ((linkOf p s).since + 40000000 ≤ s.tor.tor → portEnabled p s = false →
      ∃ t, exec (.downExpiry p) s = .next t ∧ (linkOf p t).state = 0 ∧ (linkOf p t).since = s.tor.tor ∧ ∀ i, i < portLanes p → (laneOf i (linkOf p t)).lock = false) ∧
    (s.tor.tor < (linkOf p s).since + 40000000 → exec (.downExpiry p) s = .next s) := by
  have hticks : downTicks = 40000000 := rfl
  have hexec : exec (.downExpiry p) s = if (linkOf p s).since + 40000000 ≤ s.tor.tor then done s (linkRestart p s) else .next s := by
    change execDownExpiry p s = _
    simp only [execDownExpiry, linkIn_of ho he h8, Bool.true_and, decide_eq_true_eq, hticks]
  rw [hexec]
  refine ⟨fun h hen => ?_, fun h hdis => ?_, fun h => if_neg (by omega)⟩
  · rw [if_pos h, linkRestart, if_pos hen]
    exact done_setLink hs _
  · rw [if_pos h, linkRestart, if_neg (by simp [hdis])]
    refine ⟨_, done_framed frame_linkIdle hs, linkIdle_state, ?_, fun i hi => ?_⟩
    · rw [linkIdle, linkOf_mod]
      exact since_foldl_setLane (fun x => { x with lock := false }) _ _
    · rw [linkIdle, linkOf_mod]
      exact lock_foldl_setLane i _ _ (.inl (List.mem_range.2 hi))

end

/-- Settles O34: each state of training leads on, or to DOWN. -/
theorem linkTrainsToKey : Obligations.LinkTrainsToKey := by
  intro p s hs ho he hg
  refine ⟨fun lanes h1 hc hn => exec_laneSignalDetect hs ho he h1 hc hn, fun lanes h2 => exec_equaliseComplete hs ho he lanes h2, fun m l w hl hw =>
    ⟨fun h3 hne => exec_alignComplete_width hs ho he hl hw h3 hne, fun h3 hz => exec_alignComplete_none hs ho he hg hl hw h3 hz, fun buffers h4 hne => ?_,
      fun buffers h4 hz => exec_linkInit_none hs ho he hg buffers hl hw h4 hz, fun buffers h4 => exec_linkInit_refused hs ho he hg m buffers h4⟩,
    fun n hn => ⟨exec_linkStateTimeout_down hs ho he hg hn, exec_linkStateTimeout_clear hs ho he hg hn, fun ht => ?_⟩, exec_downExpiry_spec hs ho he⟩
  · obtain ⟨t, hexec, hst, hsince, hwidth, hgroup, hcredits, hsto⟩ := exec_linkInit_width hs ho he buffers hl hw h4 hne
    refine ⟨t, hexec, hst, hsince, hwidth, hgroup, fun vc hvc => ?_, hsto⟩
    cases p with
    | arm k => exact (hcredits vc hvc).trans (tget_peerCredits 4 vc buffers)
    | ch k => exact (hcredits vc hvc).trans (tget_peerCredits 2 vc buffers)
  · rw [exec_linkStateTimeout ho he hn]
    exact if_neg (by omega)

end Sys2Proof.Machine
end


section
set_option Elab.async false
/-! PROOFS. O47 fails: the declaration of a failed partner lets work that waits for storage go on, and an engine that reads its input then is seen by the cache
slice of the line, which is part of the storage that the statement says is as before. -/

namespace Sys2Proof.Machine

/-- Partition 1 holds 4 KiB of this module's storage, at real address 0, and may use way 0 of a slice. -/
def waitingPart : PlnPart where
  id := 1; pflags := 0; torCmp := 0; uuid := []; name := []; coreMap := 0; cacheWays := 1; chPorts := 0; subchBase := 0; subchCount := 0; keyBase := 0
  keyCount := 0; hostPerm := 0; clkMin := 0; clkMax := 0
  extents := [{ real := 0, size := 0x1000, phys := 0, attr := 0 }]

/-- The module is configured with a partner. -/
def waitingModule : PlnModule where
  nodeMode := 0; nodeId := 0; partnerMode := 1; partnerNode := 0; failbackHold := 0; armPortEn := 0; dramSpeed := 0; nrK := 0; nrFlags := 0; clearLink := 0
  chPortMode := []; initTor := 0

/-- A job of partition 1 whose input is the byte at address 0. -/
def waitingJob : RaspJob := { queue := 64, part := 1, desc := [0, 0, 0, 0, 0, 0, 0, 1] }

/-- A PAIRED module, one engine of which has still to read its input. -/
def waitingPair : State where
  pwr := { on := true }
  pln := { module_ := some waitingModule, parts := [(1, some waitingPart)] }
  dx := { state := 2 }
  dram := (List.range 16).map fun n => (n, { capGiB := 16 })
  eng := { rasp := [(0, { job := some waitingJob })] }

/-- A heartbeat of node 0 that says LEAVING. -/
def leavingBeat : Long := 0x0020000000000000

/-- The cache slices that hold a line after a command. -/
def slicesAfter : Host.Outcome State Fault Refusal → Nat
  | .next t => t.sto.slices.length
  | _ => 0

/-- The heartbeat of a partner that leaves brings a line into a slice. -/
theorem leavingBeat_usesSlice : slicesAfter (exec (.heartbeat .armature leavingBeat 0) waitingPair) = 1 := by decide +kernel

/-- Refutes O47: a heartbeat says that the partner leaves while an engine's job waits for its input; the job is loaded, and a slice holds the input's line. -/
theorem not_heartbeatsDeclareAndFailBack : ¬ Obligations.HeartbeatsDeclareAndFailBack := by
  unfold Obligations.HeartbeatsDeclareAndFailBack
  intro h
  obtain ⟨-, -, -, hleaving, -⟩ := h waitingPair .armature rfl rfl rfl
  obtain ⟨t, hexec, -, -, hsto⟩ := hleaving leavingBeat 0 rfl rfl rfl rfl rfl rfl rfl rfl
  have hused := leavingBeat_usesSlice
  rw [hexec] at hused
  exact absurd ((congrArg (fun x => x.slices.length) hsto).symm.trans hused) (by decide)

end Sys2Proof.Machine
end


section
set_option Elab.async false
/-! PROOFS. O46: the pairing exchange, RESYNC, LAT_CLR, and copies of subchannel configurations. -/

namespace Sys2Proof.Machine

section
variable {s t : State} {info : PairInfo}

/-! ### The pair's state, and what is sent -/

theorem frame_setDxState (s : State) (st : Nat) : Touches [.dx, .jnl] s (setDxState st s) :=
  ((frame_dx s (setDxState st s).dx).mono (by decide)).andThen (frame_jnlOut { s with dx := (setDxState st s).dx } (setDxState st s).jnl rfl rfl)

/-- What the transitions that wait for the partner, and messages towards it, write. -/
def mirrorRegs : List FrameReg := .jnl :: msgRegs

/-- A transition waits for the partner's answer, and its tag is taken. -/
def mirrorQueued (i trans : Nat) (sync : Bool) (core : Option Nat) (e : JEntry) (s : State) : State :=
  let m : MirrorOut := { index := i, trans := trans, sync := sync, entry := { e with mirror := false }, tag := freshTag s, core := core,
                         first := s.tor.tor, last := s.tor.tor, sends := 1, reported := false }
  { s with arm := { s.arm with nextTag := (s.arm.nextTag + 1) % 65536 }, jnl := { s.jnl with out := s.jnl.out ++ [m] } }

theorem sendMirror_eq (i trans : Nat) (sync : Bool) (core : Option Nat) (e : JEntry) (s : State) :
    sendMirror i trans sync core e s = sendMsg (partnerNode s) 0 (freshTag s) 0 (mirrorBody i trans sync e) (mirrorQueued i trans sync core e s) := rfl

theorem frame_mirrorQueued (i trans : Nat) (sync : Bool) (core : Option Nat) (e : JEntry) (s : State) : Touches [.arm, .jnl] s (mirrorQueued i trans sync core e s) :=
  ((frame_fabric s { s.arm with nextTag := (s.arm.nextTag + 1) % 65536 } rfl rfl).mono (by decide)).andThen
    (frame_jnlOut { s with arm := { s.arm with nextTag := (s.arm.nextTag + 1) % 65536 } } (mirrorQueued i trans sync core e s).jnl rfl rfl)

theorem sendMirror_jnl (i trans : Nat) (sync : Bool) (core : Option Nat) (e : JEntry) (s : State) :
    (sendMirror i trans sync core e s).jnl = (mirrorQueued i trans sync core e s).jnl := by
  rw [sendMirror_eq]
  generalize mirrorQueued i trans sync core e s = u
  exact frame_sendMsg (s := u) .jnl (by decide)

theorem frame_sendMirror (i trans : Nat) (sync : Bool) (core : Option Nat) (e : JEntry) (s : State) : Touches mirrorRegs s (sendMirror i trans sync core e s) := by
  rw [sendMirror_eq]
  have hq := frame_mirrorQueued i trans sync core e s
  generalize mirrorQueued i trans sync core e s = u at hq ⊢
  exact (hq.mono (by decide)).andThen (frame_sendMsg (s := u))

theorem sendMirror_pair (i trans : Nat) (sync : Bool) (core : Option Nat) (e : JEntry) (s : State) : (sendMirror i trans sync core e s).jnl.pair = s.jnl.pair :=
  (congrArg Jnl.pair (sendMirror_jnl i trans sync core e s) :)

theorem frame_resyncSend (s : State) : Touches mirrorRegs s (resyncSend s) :=
  touches_foldl (f := fun u (e : Nat × JEntry) => sendMirror e.1 e.2.trans false none e.2 u) (fun u e => frame_sendMirror e.1 e.2.trans false none e.2 u) _ s

theorem resyncSend_pair (s : State) : (resyncSend s).jnl.pair = s.jnl.pair := by
  unfold resyncSend
  exact List.foldlRecOn (motive := fun u : State => u.jnl.pair = s.jnl.pair) _ _ rfl fun u hu e _ => (sendMirror_pair e.1 e.2.trans false none e.2 u).trans hu

/-! ### The exchange -/

theorem exec_pairingExchange (h : mayPair s = true) (info : PairInfo) : exec (.pairingExchange info) s = done s (pairExchange info s) := if_pos h

theorem pairOverlap_congr (hp : t.pln = s.pln) (hd : t.dx.parts = s.dx.parts) : pairOverlap t = pairOverlap s := by
  simp only [pairOverlap, partIds, partOf, hp, hd]

/-- What the exchange has said of the partner, before it is decided on. -/
def pairTold (info : PairInfo) (s : State) : State :=
  let u := { s with dx := { s.dx with roles := some info.roles, parts := info.parts, heldByPartner := s.dx.heldByPartner || info.holds } }
  ((List.range 12).filter (fun n => portRole n u == 2 && info.roles.getD n 0 % 4 != 1)).foldl (fun s n => logState srcDuplex n s) u

theorem pairTold_dx (info : PairInfo) (s : State) : (pairTold info s).dx = { s.dx with roles := some info.roles, parts := info.parts, heldByPartner := s.dx.heldByPartner || info.holds } :=
  touches_foldl (rs := [.flt]) (fun u n => frame_logState u srcDuplex n) _ _ .dx (by decide)

theorem frame_pairTold (info : PairInfo) (s : State) : Touches [.dx, .flt] s (pairTold info s) :=
  ((frame_dx s _).mono (by decide)).trans (touches_foldl (fun u n => (frame_logState u srcDuplex n).mono (by decide)) _ _)

theorem pairTold_overlap (info : PairInfo) (s : State) : pairOverlap (pairTold info s) = pairOverlap { s with dx := { s.dx with parts := info.parts } } :=
  pairOverlap_congr (s := { s with dx := { s.dx with parts := info.parts } }) (frame_pairTold info s .pln (by decide)) (congrArg Duplex.parts (pairTold_dx info s) :)

theorem pairWith_overlap (hd : s.jnl.settleDue = false) (h : pairOverlap { s with dx := { s.dx with parts := info.parts } } = true) :
    pairWith info s = setDxState 6 (jnlLog 0 1 (pairTold info s)) := by
  have hjnl : (jnlLog 0 1 (pairTold info s)).jnl = s.jnl := (frame_jnlLog (s := pairTold info s) .jnl (by decide)).trans (frame_pairTold info s .jnl (by decide))
  refine (if_pos ((pairTold_overlap info s).trans h)).trans (if_neg ?_)
  exact fun e => absurd ((congrArg Jnl.settleDue hjnl).symm.trans e) (by simp [hd])

theorem pairWith_disjoint (h : pairOverlap { s with dx := { s.dx with parts := info.parts } } = false) : pairWith info s = enterResync (pairTold info s) :=
  if_neg (ne_true_of_eq_false ((pairTold_overlap info s).trans h))

/-- The pair in RESYNC, before a copy is sent. -/
def resyncBegun (s : State) : State :=
  let u := setDxState 4 { s with dx := { s.dx with jnlFault := false, released := false, holdEnd := 0 } }
  { u with dx := { u.dx with copies := ownSubs u }, jnl := { u.jnl with theirs := [] } }

theorem frame_resyncBegun (s : State) : Touches [.dx, .jnl] s (resyncBegun s) := by
  unfold resyncBegun
  extract_lets x u
  have hstate : Touches [.dx, .jnl] s u := ((frame_dx s { x with jnlFault := false, released := false, holdEnd := 0 }).mono (by decide)).trans (frame_setDxState _ 4)
  clear_value u
  exact (hstate.andThen (frame_dx u { u.dx with copies := ownSubs u })).andThen (frame_jnlOut { u with dx := { u.dx with copies := ownSubs u } } { u.jnl with theirs := [] } rfl rfl)

/-- The pair has entered RESYNC: the state, the journal's, and what is as before. -/
theorem enterResync_spec (s : State) : Touches (.dx :: mirrorRegs) s (enterResync s) ∧ (enterResync s).dx.state = 4 ∧ (enterResync s).jnl.pair = 3 ∧
    (enterResync s).dx.roles = s.dx.roles ∧ (enterResync s).dx.parts = s.dx.parts := by
  have hsend := frame_resyncSend (resyncBegun s)
  have hdx : (enterResync s).dx = (resyncBegun s).dx := hsend .dx (by decide)
  have hpair : (enterResync s).jnl.pair = (resyncBegun s).jnl.pair := resyncSend_pair (resyncBegun s)
  exact ⟨((frame_resyncBegun s).mono (by decide)).andThen hsend, (congrArg Duplex.state hdx :), hpair, (congrArg Duplex.roles hdx :), (congrArg Duplex.parts hdx :)⟩

theorem done_resync (hs : Safety.settled s) (hm : mayPair s = true) (hn : info.namesUs = true)
    (h : pairOverlap { s with dx := { s.dx with parts := info.parts } } = false) :
    ∃ t, exec (.pairingExchange info) s = .next t ∧ t.dx.state = 4 ∧ t.jnl.pair = 3 ∧ t.dx.roles = some info.roles ∧ t.dx.parts = info.parts ∧ t.jnl.e = s.jnl.e ∧ t.sto = s.sto := by
  have hdue : s.flt.due = [] := hs
  have hdx := pairTold_dx info s
  obtain ⟨hframe, hstate, hpair, hroles, hparts⟩ := enterResync_spec (pairTold info s)
  have hsay : ∃ u, pairExchange info s = u ∧ Touches [.out] (enterResync (pairTold info s)) u := by
    refine ⟨_, (if_pos hn).trans rfl, ?_⟩
    rw [pairWith_disjoint h]
    exact touches_ite (fun _ => frame_emit _ _) fun _ => .refl _ _
  obtain ⟨u, hu, hemit⟩ := hsay
  have hall : Touches (.dx :: mirrorRegs) s u := (((frame_pairTold info s).mono (by decide)).trans hframe).andThen hemit
  obtain ⟨t, hdone, htold⟩ := done_told (b := s) ((hall .due (by decide)).trans hdue) (hall .pending (by decide))
  have hudx : t.dx = (enterResync (pairTold info s)).dx := (htold .dx (by decide)).trans (hemit .dx (by decide))
  have hujnl : t.jnl = (enterResync (pairTold info s)).jnl := (htold .jnl (by decide)).trans (hemit .jnl (by decide))
  refine ⟨t, (exec_pairingExchange hm info).trans ((congrArg (done s) hu).trans hdone), (congrArg Duplex.state hudx).trans hstate, (congrArg Jnl.pair hujnl).trans hpair,
    (congrArg Duplex.roles hudx).trans (hroles.trans (congrArg Duplex.roles hdx)), (congrArg Duplex.parts hudx).trans (hparts.trans (congrArg Duplex.parts hdx)),
    (htold .journal (by decide)).trans (hall .journal (by decide)), (htold .sto (by decide)).trans (hall .sto (by decide))⟩

theorem done_unpairable (hs : Safety.settled s) (hm : mayPair s = true) (hd : s.jnl.settleDue = false) (hn : info.namesUs = true)
    (h : pairOverlap { s with dx := { s.dx with parts := info.parts } } = true) :
    ∃ t, exec (.pairingExchange info) s = .next t ∧ t.dx.state = 6 ∧ t.jnl.pair = 5 ∧ t.jnl.e = s.jnl.e ∧ t.sto = s.sto := by
  have hdue : s.flt.due = [] := hs
  have hu : pairExchange info s = setDxState 6 (jnlLog 0 1 (pairTold info s)) := by
    refine (if_pos hn).trans ?_
    rw [pairWith_overlap hd h]
    exact if_neg fun e => e.2 rfl
  have hall : Touches [.dx, .jnl, .flt, .live] s (setDxState 6 (jnlLog 0 1 (pairTold info s))) :=
    (((frame_pairTold info s).mono (by decide)).andThen frame_jnlLog).andThen (frame_setDxState _ 6)
  obtain ⟨t, hdone, htold⟩ := done_told (b := s) ((hall .due (by decide)).trans hdue) (hall .pending (by decide))
  have htdx : t.dx = _ := htold .dx (by decide)
  have htjnl : t.jnl = _ := htold .jnl (by decide)
  exact ⟨t, (exec_pairingExchange hm info).trans ((congrArg (done s) hu).trans hdone), congrArg Duplex.state htdx, congrArg Jnl.pair htjnl,
    (htold .journal (by decide)).trans (hall .journal (by decide)), (htold .sto (by decide)).trans (hall .sto (by decide))⟩

/-! ### A partner that does not name this module -/

theorem logMismatch_spec (p : HbPath) (s : State) : Touches [.dx, .flt] s (logMismatch p s) ∧ (logMismatch p s).dx.state = s.dx.state ∧ (logMismatch p s).dx.roles = s.dx.roles ∧
    hbOf p (logMismatch p s) = { hbOf p s with logged := (hbOf p s).logged || (hbOf p s).ok } ∧ hbOf (otherPath p) (logMismatch p s) = hbOf (otherPath p) s := by
  unfold logMismatch
  extract_lets h
  split
  next hc =>
    obtain ⟨hok, -⟩ : (hbOf p s).ok = true ∧ _ := by simpa [h] using hc
    have hframe : Touches [.dx, .flt] s (setHb p { h with logged := true } s) := by
      cases p <;> exact (frame_dx s _).mono (by decide)
    refine ⟨hframe.andThen (frame_logState _ _ _), ?_, ?_, ?_, ?_⟩
    · cases p <;> rfl
    · cases p <;> rfl
    · rw [hok, Bool.or_true]
      cases p <;> rfl
    · cases p <;> rfl
  next hc =>
    have hlogged : ((hbOf p s).logged || (hbOf p s).ok) = (hbOf p s).logged := by
      cases hl : (hbOf p s).logged <;> simp_all [h]
    exact ⟨.refl _ s, rfl, rfl, by rw [hlogged], rfl⟩

theorem done_mismatch (hs : Safety.settled s) (hm : mayPair s = true) (hn : info.namesUs = false) :
    ∃ t, exec (.pairingExchange info) s = .next t ∧ t.dx.state = s.dx.state ∧ t.dx.roles = s.dx.roles ∧ t.jnl = s.jnl ∧ t.sto = s.sto ∧
      ∀ p, (hbOf p t).logged = ((hbOf p s).logged || (hbOf p s).ok) := by
  have hdue : s.flt.due = [] := hs
  obtain ⟨hframe1, hstate1, hroles1, harm1, hded1⟩ := logMismatch_spec .armature s
  obtain ⟨hframe2, hstate2, hroles2, hded2, harm2⟩ := logMismatch_spec .dedicated (logMismatch .armature s)
  have hall := hframe1.trans hframe2
  have hu : pairExchange info s = logMismatch .dedicated (logMismatch .armature s) := if_neg (by simp [hn])
  obtain ⟨t, hdone, htold⟩ := done_told (b := s) ((hall .due (by decide)).trans hdue) (hall .pending (by decide))
  have htdx : t.dx = _ := htold .dx (by decide)
  refine ⟨t, (exec_pairingExchange hm info).trans ((congrArg (done s) hu).trans hdone), (congrArg Duplex.state htdx).trans (hstate2.trans hstate1),
    (congrArg Duplex.roles htdx).trans (hroles2.trans hroles1), (htold .jnl (by decide)).trans (hall .jnl (by decide)), (htold .sto (by decide)).trans (hall .sto (by decide)), fun p => ?_⟩
  have hhb : hbOf p t = hbOf p (logMismatch .dedicated (logMismatch .armature s)) := by simp only [hbOf, htdx]
  rw [hhb]
  cases p with
  | armature => exact congrArg HbState.logged (harm2.trans harm1)
  | dedicated =>
    rw [hded2]
    exact congrArg (fun h : HbState => h.logged || h.ok) hded1

/-! ### The end of RESYNC -/

theorem frame_dxHoldCheck (s : State) : Touches [.dx] s (dxHoldCheck s) := touches_ite (fun _ => frame_dx s _) fun _ => .refl _ s

theorem dxHoldCheck_state (s : State) : (dxHoldCheck s).dx.state = s.dx.state := by
  unfold dxHoldCheck
  split <;> rfl

/-- RESYNC has ended where no entry has to be settled: the pair's state is decided. -/
theorem resyncEnd_spec (hd : s.jnl.settleDue = false) : Touches [.dx, .jnl, .journal, .kept] s (resyncEnd s) ∧ (resyncEnd s).dx.state = (if holder s ∨ s.dx.heldByPartner = true then 5 else 2) ∧
    (resyncEnd s).jnl.pair = 2 := by
  unfold resyncEnd
  extract_lets u v w
  have hcopies : Touches [.dx, .jnl, .journal, .kept] s u := (frame_jnl s _).mono (by decide)
  have hset : Touches [.dx, .jnl, .journal, .kept] u v := (frame_setDxState u _).mono (by decide)
  have hw : w = v := if_neg (by simp [v, u, setDxState, releaseCopies, hd])
  rw [hw]
  refine ⟨(hcopies.trans hset).andThen (frame_dxHoldCheck v), dxHoldCheck_state v, ?_⟩
  have hjnl : (dxHoldCheck v).jnl = v.jnl := frame_dxHoldCheck v .jnl (by decide)
  rw [hjnl]
  unfold v
  split <;> rfl

theorem done_resyncComplete (hs : Safety.settled s) (ho : operating s = true) (hd : s.jnl.settleDue = false) (h4 : s.dx.state = 4) (hout : s.jnl.out = []) :
    ∃ t, exec .resyncComplete s = .next t ∧ t.dx.state = (if holder s ∨ s.dx.heldByPartner = true then 5 else 2) ∧ t.jnl.pair = 2 ∧ t.sto = s.sto := by
  obtain ⟨hframe, hstate, hpair⟩ := resyncEnd_spec hd
  have hdue : (resyncEnd s).flt.due = [] := (hframe .due (by decide)).trans hs
  obtain ⟨t, hdone, htold⟩ := done_told (b := s) hdue (hframe .pending (by decide))
  exact ⟨t, (if_pos ⟨ho, h4, hout⟩ : exec .resyncComplete s = _).trans hdone, (congrArg Duplex.state (htold .dx (by decide))).trans hstate,
    (congrArg Jnl.pair (htold .jnl (by decide))).trans hpair, (htold .sto (by decide)).trans (hframe .sto (by decide))⟩

/-! ### Copies of subchannel configurations -/

theorem exec_subchCopy (ho : operating s = true) (hp : partnerOn s = true) (i : Nat) (v : Long) : exec (.subchCopy (some (i, v))) s = done s (takeCopy i v s) := if_pos (by simp [ho, hp])

theorem exec_subchCopy_none (ho : operating s = true) (hp : partnerOn s = true) : exec (.subchCopy none) s = done s (sendCopy s) := if_pos (by simp [ho, hp])

/-- The oldest copy leaves towards the partner. -/
theorem done_sendCopy {i p : Nat} {l : List Nat} (hs : Safety.settled s) (ho : operating s = true) (hp : partnerOn s = true) (hc : s.dx.copies = i :: l) (hport : partnerPort s = some p) :
    ∃ t, exec (.subchCopy none) s = .next t ∧ t.dx.copies = l ∧ Out.msg p (mgtMsg (copyBody i (subOf i s))) ∈ t.out ∧ t.ch = s.ch ∧ t.sto = s.sto := by
  have hu : sendCopy s = sendMgt p (copyBody i (subOf i s)) { s with dx := { s.dx with copies := l } } := by simp only [sendCopy, hc, hport]
  generalize hv : ({ s with dx := { s.dx with copies := l } } : State) = v at hu
  have hdx : Touches [.dx] s v := hv ▸ frame_dx s _
  have hemit := frame_emit v (.msg p (mgtMsg (copyBody i (subOf i s))))
  have hsend : Touches sendRegs (emit (.msg p (mgtMsg (copyBody i (subOf i s)))) v) (sendCopy s) := hu ▸ frame_linkSendVia _ (.arm p) 3 _ none
  have hall : Touches (.dx :: sendRegs) s (sendCopy s) := ((hdx.mono (by decide)).andThen hemit).andThen hsend
  obtain ⟨t, hdone, htold⟩ := done_told (b := s) ((hall .due (by decide)).trans hs) (hall .pending (by decide))
  have hcopies : (sendCopy s).dx.copies = l := (congrArg Duplex.copies ((hsend .dx (by decide)).trans (hemit .dx (by decide)))).trans (hv ▸ rfl)
  refine ⟨t, (exec_subchCopy_none ho hp).trans hdone, (congrArg Duplex.copies (htold .dx (by decide))).trans hcopies, ?_, (htold .ch (by decide)).trans (hall .ch (by decide)),
    (htold .sto (by decide)).trans (hall .sto (by decide))⟩
  have hsaid : Out.msg p (mgtMsg (copyBody i (subOf i s))) ∈ (emit (.msg p (mgtMsg (copyBody i (subOf i s)))) v).out := by simp [emit]
  exact (htold .said (by decide)).subset ((hsend .said (by decide)).subset hsaid)

/-- Settles O46, by what the exchange comes to, and for each of the other commands by what it writes. -/
theorem pairsExchangeAndResync : Obligations.PairsExchangeAndResync := by
  unfold Obligations.PairsExchangeAndResync
  intro s hs ho hd
  refine ⟨fun info hm => ⟨fun hn => done_resync hs hm hn, fun hn => done_unpairable hs hm hd hn, done_mismatch hs hm⟩, fun info hm => if_neg (by simp [hm]),
    done_resyncComplete hs ho hd, fun hout => if_neg fun h => hout h.2.2, fun v hv => ?_, fun hp => ⟨fun i val hi hown => ?_, fun i l p => done_sendCopy hs ho hp, fun hc => ?_⟩⟩
  · exact (if_pos (by simp [hv, ho]) : exec (.latClr v) s = done s (latClear s)).trans
      (done_framed (rs := [.jnl]) (frame_jnlOut s { s.jnl with latMax := 0, slow := 0 } rfl rfl) hs)
  · have htake : takeCopy i val s = { s with ch := { s.ch with sub := tset {} i (subCfgOf val.toNat) s.ch.sub } } := if_neg (by simp [hown, hi])
    rw [exec_subchCopy ho hp, htake]
    exact done_framed (frame_ch s _) hs
  · have hnone : sendCopy s = s := by simp only [sendCopy, hc]
    rw [exec_subchCopy_none ho hp, hnone]
    exact done_framed (.refl [] s) hs

end

end Sys2Proof.Machine
end


section
set_option Elab.async false
/-! PROOFS. A message that a port hands on, and the answer to it; then O45: mirrored transitions. -/

namespace Sys2Proof.Machine

section
variable {s t : State} {m : Msg}

/-! ### A message arrives -/

/-- A message for this module is served as it comes. -/
theorem receive_each {kind : Nat} {serve : Msg → State → State} (hm : malformed kind m = false) (hn : s.arm.node = some m.dest) : receive kind false serve m s = serve m s := by
  unfold receive
  rw [if_neg (by simp [hm]), if_neg (by simp [hn])]
  rfl

/-- The tag of a message that is served once is taken. -/
def tagTaken (m : Msg) (s : State) : State :=
  let known := tget [] m.src s.arm.recent
  let gone := (m.tag :: known.filter (fun t => t != m.tag)).drop tagMax
  { s with arm := { s.arm with recent := tset [] m.src ((m.tag :: known.filter (fun t => t != m.tag)).take tagMax) s.arm.recent,
                               answered := (m.tag :: gone).foldl (fun t g => tset none (m.src * 65536 + g) none t) s.arm.answered } }

/-- A message for this module that is not sent again is served, its tag taken. -/
theorem receive_once {kind : Nat} {serve : Msg → State → State} (hm : malformed kind m = false) (hn : s.arm.node = some m.dest) (hr : m.resent = false) :
    receive kind true serve m s = serve m (tagTaken m s) := by
  unfold receive
  rw [if_neg (by simp [hm]), if_neg (by simp [hn])]
  simp only [hr, Bool.false_eq_true, false_and, if_false]
  rfl

theorem frame_tagTaken (m : Msg) (s : State) : Touches [.arm] s (tagTaken m s) := frame_fabric s _ rfl rfl

/-- What a message on its way writes: what leaves the module, and the count of those that no route takes. -/
def wayRegs : List FrameReg := [.out, .armLink, .chLink, .flt, .live]

theorem way_forwardMsg (m : Msg) (via : Option Nat) (s : State) : Touches wayRegs s (forwardMsg m via s) := by
  unfold forwardMsg
  split
  · exact (frame_patina s _).mono (by decide)
  · split
    · exact (frame_patina s _).mono (by decide)
    · exact ((frame_emit s _).mono (by decide)).andThen (frame_linkSendVia _ _ _ _ _)

/-- The answer to another node is kept with its tag, and leaves. -/
theorem answer_other {kind : Nat} {body : List Byte} (h : m.src ≠ s.arm.node.getD 0) :
    Touches (.arm :: wayRegs) s (answer m kind body s) ∧
    (answer m kind body s).arm = { s.arm with answered := tset none (m.src * 65536 + m.tag) (some (ownMsg m.src kind m.tag m.addr body s)) s.arm.answered } := by
  have heq : answer m kind body s = forwardMsg (ownMsg m.src kind m.tag m.addr body s) none
    { s with arm := { s.arm with answered := tset none (m.src * 65536 + m.tag) (some (ownMsg m.src kind m.tag m.addr body s)) s.arm.answered } } := if_neg h
  rw [heq]
  generalize hv : ({ s with arm := { s.arm with answered := tset none (m.src * 65536 + m.tag) (some (ownMsg m.src kind m.tag m.addr body s)) s.arm.answered } } : State) = v
  have harm : Touches [.arm] s v := hv ▸ frame_fabric s _ rfl rfl
  have hway := way_forwardMsg (ownMsg m.src kind m.tag m.addr body s) none v
  exact ⟨(harm.mono (by decide)).andThen hway, (hway .arm (by decide)).trans (hv ▸ rfl)⟩

theorem exec_mirror (ho : operating s = true) (hv : m.via < 8) (hp : portActive (.arm m.via) s = true) : exec (.mirror m) s = done s (receive 0 true mirrorServe m s) :=
  if_pos (by simp [onPort, ho, hv, hp])

theorem exec_mirrorAck (ho : operating s = true) (hv : m.via < 8) (hp : portActive (.arm m.via) s = true) : exec (.mirrorAck m) s = done s (receive 1 false mirrorAckServe m s) :=
  if_pos (by simp [onPort, ho, hv, hp])

/-! ### MIRROR -/

/-- The subchannel that a MIRROR names. -/
def mirrorIndex (m : Msg) : Nat := natAt m.body 0 8 / 2 ^ 46

/-- The entry that a MIRROR carries. -/
def mirrorEntry (m : Msg) : JEntry := jentOf (m.body.drop 8)

/-- The answer to a MIRROR. -/
def mirrorReply (m : Msg) (conflict : Bool) : List Byte :=
  mirrorAckBody (mirrorIndex m) (bits (natAt m.body 0 8) 45 41) conflict (mirrorEntry m).seq (mirrorEntry m).tor

/-- A MIRROR of the partner, told once, has its entry stored or not, and is answered. -/
theorem done_mirror {v : State} {conflict : Bool} (hs : Safety.settled s) (ho : operating s = true) (hon : mirrorOn s = true) (hv : m.via < 8)
    (hp : portActive (.arm m.via) s = true) (hm : malformed m.kind m = false) (hn : s.arm.node = some m.dest) (hsrc : m.src ≠ m.dest) (hk : m.kind = 0) (hr : m.resent = false)
    (hl : m.body.length = 72) (hpart : m.src = partnerNode s) (hstore : mirrorStore (mirrorIndex m) (mirrorEntry m) (tagTaken m s) = (conflict, v))
    (hframe : Touches [.jnl, .journal, .ch, .offers, .flt, .live] (tagTaken m s) v) :
    ∃ t a, exec (.mirror m) s = .next t ∧ t.jnl = v.jnl ∧ t.ch = v.ch ∧ tget none (m.src * 65536 + m.tag) t.arm.answered = some a ∧ a.kind = 1 ∧ a.dest = m.src ∧ a.tag = m.tag ∧
      a.body = mirrorReply m conflict ∧ t.sto = s.sto ∧ t.cpu = s.cpu := by
  have htag := frame_tagTaken m s
  have hmirrorOn : mirrorOn (tagTaken m s) = true := hon
  have hpartner : m.src = partnerNode (tagTaken m s) := hpart
  have hserve : mirrorServe m (tagTaken m s) = dxHoldCheck (answer m 1 (mirrorReply m conflict) v) := by
    unfold mirrorServe
    extract_lets i trans e r
    have hstore' : r = (conflict, v) := hstore
    rw [if_neg (by simp [hl]), if_neg (by simp [hmirrorOn, ← hpartner]), hstore']
    rfl
  have hall := (htag.mono (by decide)).trans (hframe.mono (rs := .arm :: [.jnl, .journal, .ch, .offers, .flt, .live]) (by decide))
  have hnode : v.arm.node = some m.dest := (hall .node (by decide)).trans hn
  obtain ⟨hanswer, harm⟩ := answer_other (s := v) (m := m) (kind := 1) (body := mirrorReply m conflict) (by simp [hnode, hsrc])
  generalize answer m 1 (mirrorReply m conflict) v = w at *
  have hhold := frame_dxHoldCheck w
  have hw : Touches [.arm, .out, .armLink, .chLink, .flt, .live, .jnl, .journal, .ch, .offers] s w := (hall.mono (by decide)).andThen hanswer
  have hwhole : Touches [.dx, .arm, .out, .armLink, .chLink, .flt, .live, .jnl, .journal, .ch, .offers] s (dxHoldCheck w) := (hw.mono (by decide)).andThen hhold
  have hreport : Safety.sameReport s (dxHoldCheck w) := by
    have htor : (dxHoldCheck w).tor = s.tor := hwhole .tor (by decide)
    have hdx : (dxHoldCheck w).dx.state = s.dx.state := (dxHoldCheck_state w).trans (congrArg Duplex.state (hw .dx (by decide)))
    have hfab : (dxHoldCheck w).arm.fstate = s.arm.fstate := hwhole .fstate (by decide)
    simp [Safety.sameReport, htor, hdx, hfab]
  have hdone : done s (dxHoldCheck w) = .next (dxHoldCheck w) := done_quiet ((hwhole .due (by decide)).trans hs) (hwhole .pending (by decide)) hreport
  have hexec : exec (.mirror m) s = .next (dxHoldCheck w) := by
    rw [exec_mirror ho hv hp, receive_once (hk ▸ hm) hn hr, hserve, hdone]
  have harm' : (dxHoldCheck w).arm = w.arm := hhold .arm (by decide)
  have hans : tget none (m.src * 65536 + m.tag) (dxHoldCheck w).arm.answered = some (ownMsg m.src 1 m.tag m.addr (mirrorReply m conflict) v) := by
    rw [harm', harm]
    exact (tget_tset_same none (m.src * 65536 + m.tag) (some (ownMsg m.src 1 m.tag m.addr (mirrorReply m conflict) v)) v.arm.answered :)
  refine ⟨_, ownMsg m.src 1 m.tag m.addr (mirrorReply m conflict) v, hexec, (hhold .jnl (by decide)).trans (hanswer .jnl (by decide)), (hhold .ch (by decide)).trans (hanswer .ch (by decide)),
    hans, rfl, rfl, rfl, rfl, hwhole .sto (by decide), hwhole .cpu (by decide)⟩

theorem jent_of_jnl (h : t.jnl = s.jnl) (i : Nat) : jent i t = jent i s := by simp only [jent, h]

theorem opOf_of_ch (h : t.ch = s.ch) (i : Nat) : opOf i t = opOf i s := by simp only [opOf, h]

theorem frame_setJent (i : Nat) (e : JEntry) (s : State) : Touches [.jnl, .journal] s (setJent i e s) := frame_jnlFields s _ (by exact rfl)

/-- Outside RESYNC an entry of the partner is stored as a copy unless it conflicts with one of this module's that is not IDLE. -/
theorem mirrorStore_copies {i : Nat} {e : JEntry} (h4 : s.dx.state ≠ 4) (ht : s.jnl.theirs.contains i = false) (hseq : (jent i s).seq ≠ e.seq)
    (hc : (jent i s).mirror = true ∨ (jent i s).state = 0) : mirrorStore i e s = (false, setJent i { e with mirror := true, takenOver := false } s) := by
  unfold mirrorStore
  extract_lets old
  have hconflict : ¬ ((!old.mirror) = true ∧ old.state ≠ 0) := by
    rcases hc with hc | hc <;> simp [old, hc]
  rw [if_neg fun e => e.elim h4 (ne_true_of_eq_false ht), if_neg fun e => hseq e.1, if_neg hconflict]

theorem mirrorStore_conflicts {i : Nat} {e : JEntry} (h4 : s.dx.state ≠ 4) (ht : s.jnl.theirs.contains i = false) (hseq : (jent i s).seq ≠ e.seq)
    (hm : (jent i s).mirror = false) (h0 : (jent i s).state ≠ 0) : mirrorStore i e s = (true, jnlLog i 2 s) := by
  unfold mirrorStore
  extract_lets old
  rw [if_neg fun e => e.elim h4 (ne_true_of_eq_false ht), if_neg fun e => hseq e.1, if_pos (by simp [old, hm, h0])]

theorem mirrorStore_resync {i : Nat} {e : JEntry} (h4 : s.dx.state = 4) : mirrorStore i e s = (false, resyncStore i e s) := if_pos (.inl h4)

/-- What the return of an entry leaves: the partner's copy as this module's own, and no operation of it. -/
theorem entryReturned_spec (i : Nat) (e : JEntry) (s : State) : Touches [.jnl, .journal, .ch, .offers] s (entryReturned i e s) ∧
    jent i (entryReturned i e s) = { e with mirror := false, takenOver := false } ∧ opOf i (entryReturned i e s) = none := by
  unfold entryReturned
  extract_lets u v rest x w
  have hu : Touches [.ch, .offers] s u := ((frame_ch s { s.ch with ops := tset none i none s.ch.ops, last := tset {} i (lastFrom e) s.ch.last }).mono (by decide)).andThen (frame_offers _ _)
  have hv : Touches [.jnl, .journal] u v := frame_setJent i _ u
  have hw : Touches [.jnl] v w := frame_jnlOut v _ rfl rfl
  have huw : Touches [.jnl, .journal, .ch, .offers] s w := ((hu.mono (by decide)).andThen hv).andThen hw
  have hoffer : Touches [.offers] w (offerFinal i w) := by
    unfold offerFinal
    extract_lets e' x
    exact touches_ite (fun _ => frame_offers _ _) fun _ => (frame_offers w _).trans (frame_offers x _)
  have hend : Touches [.offers] w (if e.state = 5 ∧ pstateOf e.part w = .running then offerFinal i w else w) := touches_ite (fun _ => hoffer) fun _ => .refl _ w
  refine ⟨huw.andThen hend, ?_, ?_⟩
  · rw [jent_of_jnl (hend .jnl (by decide))]
    exact (jent_setJent i i _ u).trans (if_pos rfl)
  · rw [opOf_of_ch (hend .ch (by decide))]
    exact tget_tset_same (none : Option ChOp) i none s.ch.ops

/-! ### MIRROR_ACK -/

/-- The end of a sync START, with the status of its mirror: durable, and its core goes on. -/
def startMirrored (x : MirrorOut) (o : ChOp) (l : Nat) (s : State) : State :=
  ioComplete (some l) (setOp x.index (some { o with durable := true }) (recordLat x s))

theorem recordLat_spec (x : MirrorOut) (s : State) : Touches [.jnl, .flt, .live] s (recordLat x s) ∧ (recordLat x s).jnl.lat = min ((s.tor.tor - x.first) / 4) 0xFFFF ∧
    (recordLat x s).jnl.out = s.jnl.out := by
  unfold recordLat
  extract_lets ns v _ u
  have hu : Touches [.jnl] s u := frame_jnlOut s _ rfl rfl
  split
  · have hlog := frame_jnlLog (i := x.index) (d := ns) (s := { u with jnl := { u.jnl with slow := satAdd 16 u.jnl.slow 1 } })
    have hjnl := hlog .jnl (by decide)
    exact ⟨((hu.mono (by decide)).andThen (frame_jnlOut u { u.jnl with slow := satAdd 16 u.jnl.slow 1 } rfl rfl)).andThen hlog, (congrArg Jnl.lat hjnl :), (congrArg Jnl.out hjnl :)⟩
  · exact ⟨hu.mono (by decide), rfl, rfl⟩

/-- What a MIRROR_ACK that names an outstanding transition asks for. -/
theorem mirrorAckServe_eq {x : MirrorOut} (hl : m.body.length = 24) (hx : s.jnl.out.find? (fun y => y.tag == m.tag) = some x) (hpart : m.src = partnerNode s)
    (hi : natAt m.body 0 8 / 2 ^ 46 = x.index) (ht : bits (natAt m.body 0 8) 45 41 = x.trans) (hseq : natAt m.body 8 8 = x.entry.seq) (htor : natAt m.body 16 8 = x.entry.tor) :
    mirrorAckServe m s = mirrorAnswered x (bits (natAt m.body 0 8) 40 39 == 1) s := by
  unfold mirrorAckServe
  extract_lets w
  rw [if_neg (by simp [hl])]
  simp only [hx]
  exact if_pos ⟨hpart, hi, ht, hseq, htor⟩

theorem mirrorAnswered_async {x : MirrorOut} (h : x.sync = false) (conflict : Bool) :
    mirrorAnswered x conflict s = { s with jnl := { s.jnl with out := s.jnl.out.filter (fun y => y.tag != x.tag) } } := by
  simp [mirrorAnswered, h]

theorem mirrorAnswered_start {x : MirrorOut} {o : ChOp} {l : Nat} (ht : x.trans = 1) (h : x.sync = true) (hc : x.core = some l) (hop : opOf x.index s = some o) (hb : o.blk.bad = false) :
    mirrorAnswered x false s = startMirrored x o l { s with jnl := { s.jnl with out := s.jnl.out.filter (fun y => y.tag != x.tag) } } := by
  unfold mirrorAnswered
  generalize hu : ({ s with jnl := { s.jnl with out := s.jnl.out.filter (fun y => y.tag != x.tag) } } : State) = u
  have hopu : opOf x.index (recordLat x u) = some o := by
    rw [opOf_of_ch ((recordLat_spec x u).1 .ch (by decide)), ← hu]
    exact hop
  simp only [ht, h, hc, syncEffect, startDurable, hopu, hb, and_true, if_true, Bool.false_eq_true, false_and, if_false, startMirrored]

theorem startMirrored_spec (x : MirrorOut) (o : ChOp) (l : Nat) (s : State) (h : (coreOf l s).ioHold = some none) :
    Touches [.jnl, .flt, .live, .ch, .cpu, .core, .keeps, .own] s (startMirrored x o l s) ∧ opOf x.index (startMirrored x o l s) = some { o with durable := true } ∧
    (coreOf l (startMirrored x o l s)).ioHold = some (some 0) ∧ (startMirrored x o l s).jnl = (recordLat x s).jnl := by
  obtain ⟨hlat, -, -⟩ := recordLat_spec x s
  unfold startMirrored
  generalize recordLat x s = u at *
  have hset : Touches [.ch] u (setOp x.index (some { o with durable := true }) u) := frame_ch u _
  have hcore : (coreOf l (setOp x.index (some { o with durable := true }) u)).ioHold = some none := by
    rw [coreOf_of_cores (hset .core (by decide)), coreOf_of_cores (hlat .core (by decide))]
    exact h
  have hop : opOf x.index (setOp x.index (some { o with durable := true }) u) = some { o with durable := true } := (opOf_setOp _ _ _ u).trans (if_pos rfl)
  generalize setOp x.index (some { o with durable := true }) u = w at *
  have hmod : Touches [.cpu, .core, .keeps, .own] w (ioComplete (some l) w) := frame_modCore w l _
  refine ⟨((hlat.mono (by decide)).andThen hset).andThen hmod, (opOf_of_ch (hmod .ch (by decide)) _).trans hop, ?_, (hmod .jnl (by decide)).trans (hset .jnl (by decide))⟩
  unfold ioComplete
  rw [coreOf_modCore]
  simp [hcore]

/-! ### MIRROR_TIMEOUT -/

/-- The transitions of an entry are reported. -/
def mirrorsReported (i : Nat) (s : State) : State :=
  { s with jnl := { s.jnl with out := s.jnl.out.map (fun (x : MirrorOut) => if x.index = i then { x with reported := true } else x) } }

theorem mirrorsReported_out {i : Nat} {x : MirrorOut} (hx : x ∈ (mirrorsReported i s).jnl.out) (hi : x.index = i) : x.reported = true := by
  obtain ⟨y, -, rfl⟩ := List.mem_map.mp hx
  split at hi <;> simp_all

theorem exec_mirrorTimeout (ho : operating s = true) (hon : mirrorOn s = true) {i : Nat} (h : mirrorLate i s = true) :
    exec (.mirrorTimeout i) s = done s (journalPathFault (mirrorsReported i s)) := if_pos (by simp [ho, hon, h])

/-- The fault of the journal path is raised as an event of the pair. -/
theorem pathFault_raised (i : Nat) (hs : Safety.settled s) (hg : Safety.graceful s) : Touches (.jnl :: eventRegs) s (raise srcDuplex 0x09 none 0 (mirrorsReported i s)) ∧
    (raise srcDuplex 0x09 none 0 (mirrorsReported i s)).jnl = (mirrorsReported i s).jnl ∧ (raise srcDuplex 0x09 none 0 (mirrorsReported i s)).jnl.e = s.jnl.e ∧
    (raise srcDuplex 0x09 none 0 (mirrorsReported i s)).flt.due = [] := by
  have hjnl : Touches [.jnl] s (mirrorsReported i s) := frame_jnlOut s _ rfl rfl
  have he : (mirrorsReported i s).jnl.e = s.jnl.e := rfl
  generalize mirrorsReported i s = u at *
  have hraise := frame_raise u (code := 0x09) (by decide) srcDuplex none 0
  have hall : Touches (.jnl :: eventRegs) s (raise srcDuplex 0x09 none 0 u) := (hjnl.mono (by decide)).andThen hraise
  have hrjnl : (raise srcDuplex 0x09 none 0 u).jnl = u.jnl := hraise .jnl (by decide)
  exact ⟨hall, hrjnl, (congrArg Jnl.e hrjnl).trans he, due_of_still (hall .still (by decide)) hs hg⟩

/-- The lower node of the pair tells its partner. -/
theorem done_reported (hs : Safety.settled s) (ho : operating s = true) (hon : mirrorOn s = true) {i : Nat} (h : mirrorLate i s = true) (hg : Safety.graceful s)
    (hn : s.arm.node.getD 0 ≤ partnerNode s) : ∃ t, exec (.mirrorTimeout i) s = .next t ∧ t.dx.jnlFault = true ∧ (∀ x ∈ t.jnl.out, x.index = i → x.reported = true) ∧
      (fltStatus srcDuplex t).pending = true ∧ t.jnl.e = s.jnl.e ∧ t.sto = s.sto := by
  obtain ⟨hall, hjnl, he, hdue⟩ := pathFault_raised i hs hg
  have hpend := raise_pending srcDuplex 0x09 none 0 (mirrorsReported i s)
  have hout : ∀ x ∈ (raise srcDuplex 0x09 none 0 (mirrorsReported i s)).jnl.out, x.index = i → x.reported = true := fun x hx => mirrorsReported_out (hjnl ▸ hx)
  have hlow : journalPathFault (mirrorsReported i s) = _ := if_neg (c := partnerNode (raise srcDuplex 0x09 none 0 (mirrorsReported i s)) <
      (raise srcDuplex 0x09 none 0 (mirrorsReported i s)).arm.node.getD 0) (by
    have harm : (raise srcDuplex 0x09 none 0 (mirrorsReported i s)).arm = s.arm := hall .arm (by decide)
    have hpln : (raise srcDuplex 0x09 none 0 (mirrorsReported i s)).pln = s.pln := hall .pln (by decide)
    simpa only [partnerNode, harm, hpln, not_lt] using hn)
  rw [exec_mirrorTimeout ho hon h, hlow]
  generalize raise srcDuplex 0x09 none 0 (mirrorsReported i s) = u at *
  obtain ⟨t, hdone, htold⟩ := done_told (b := s) (s := { u with dx := { u.dx with jnlFault := true } }) hdue (hall .pending (by decide))
  have htdx : t.dx = { u.dx with jnlFault := true } := htold .dx (by decide)
  have htjnl : t.jnl = u.jnl := htold .jnl (by decide)
  have htflt : t.flt = u.flt := htold .flt (by decide)
  refine ⟨t, hdone, congrArg Duplex.jnlFault htdx, fun x hx => hout x (htjnl ▸ hx), ?_, (congrArg Jnl.e htjnl).trans he, (htold .sto (by decide)).trans (hall .sto (by decide))⟩
  simpa only [fltStatus, htflt] using hpend

/-- The higher node of the pair checkstops. -/
theorem done_pathCheckstop (hs : Safety.settled s) (ho : operating s = true) (hon : mirrorOn s = true) {i : Nat} (h : mirrorLate i s = true) (hg : Safety.graceful s)
    (hn : partnerNode s < s.arm.node.getD 0) : ∃ t, exec (.mirrorTimeout i) s = .next t ∧ t.flt.checkstop = true := by
  obtain ⟨hall, hjnl, he, hdue⟩ := pathFault_raised i hs hg
  have hhigh : journalPathFault (mirrorsReported i s) = _ := if_pos (c := partnerNode (raise srcDuplex 0x09 none 0 (mirrorsReported i s)) <
      (raise srcDuplex 0x09 none 0 (mirrorsReported i s)).arm.node.getD 0) (by
    have harm : (raise srcDuplex 0x09 none 0 (mirrorsReported i s)).arm = s.arm := hall .arm (by decide)
    have hpln : (raise srcDuplex 0x09 none 0 (mirrorsReported i s)).pln = s.pln := hall .pln (by decide)
    simpa only [partnerNode, harm, hpln] using hn)
  rw [exec_mirrorTimeout ho hon h, hhigh]
  generalize raise srcDuplex 0x09 none 0 (mirrorsReported i s) = u at *
  obtain ⟨l, hl, hdueStop⟩ := raiseModule_due srcDuplex 0x10 none 0 false u
  have hraise : Touches (.keeps :: .still :: eventRegs) u (raise srcDuplex 0x10 none 0 u) := frame_raiseClass u _ _ _ _ _ _
  obtain ⟨t, hdone, hstop, -⟩ := done_stops (b := s) (u := raise srcDuplex 0x10 none 0 u) (d := ⟨sourceNo 0x10 srcDuplex, 3, 0x3F⟩) (pre := l) (suf := [])
    (moduleStep_part _) rfl (hdueStop.trans (by rw [hdue]; rfl)) (by omega) ((hraise .pending (by decide)).trans (hall .pending (by decide)))
  exact ⟨t, hdone, hstop⟩

end

/-- Settles O45, by what storing a MIRROR, its acknowledgement and its loss write. -/
theorem mirrorsAreStoredAndAcknowledged : Obligations.MirrorsAreStoredAndAcknowledged := by
  unfold Obligations.MirrorsAreStoredAndAcknowledged
  intro m s hs ho hon
  refine ⟨fun i hv hp hm hn hsrc => ⟨fun hk hr hl hpart hi ht => ?_, fun x hk hl hx hpart hindex htrans hseq htor => ?_⟩, fun i =>
    ⟨fun h => if_neg (by simp [h]), fun h => done_reported hs ho hon h, fun h => done_pathCheckstop hs ho hon h⟩⟩
  · subst hi
    have hmirror := fun v conflict => done_mirror (s := s) (m := m) (v := v) (conflict := conflict) hs ho hon hv hp hm hn hsrc hk hr hl hpart
    refine ⟨fun h4 hseq => ⟨fun hc => ?_, fun hc h0 => ?_⟩, fun h4 hown htor => ?_, fun h4 hown htor => ?_, fun h4 hown htor => ?_⟩
    · have hstore := mirrorStore_copies (s := tagTaken m s) (i := mirrorIndex m) (e := mirrorEntry m) h4 ht hseq hc
      obtain ⟨t, a, hexec, hjnl, -, hans, h1, hdest, htag, hbody, hsto, hcpu⟩ := hmirror _ _ hstore ((frame_setJent _ _ _).mono (by decide))
      refine ⟨t, a, hexec, ?_, fun j hj => ?_, hans, h1, hdest, htag, hbody, hsto, hcpu⟩
      · exact (jent_of_jnl hjnl _).trans ((jent_setJent ..).trans (if_pos rfl))
      · exact (jent_of_jnl hjnl _).trans ((jent_setJent ..).trans (if_neg hj))
    · have hstore := mirrorStore_conflicts (s := tagTaken m s) (i := mirrorIndex m) (e := mirrorEntry m) h4 ht hseq hc h0
      have hlog := frame_jnlLog (s := tagTaken m s) (i := mirrorIndex m) (d := 2)
      obtain ⟨t, a, hexec, hjnl, -, hans, h1, -, -, hbody, -⟩ := hmirror _ _ hstore (hlog.mono (by decide))
      exact ⟨t, a, hexec, congrArg Jnl.e (hjnl.trans (hlog .jnl (by decide))), hans, h1, hbody⟩
    · have hstore := mirrorStore_resync (s := tagTaken m s) (i := mirrorIndex m) (e := mirrorEntry m) h4
      have hkeep : resyncStore (mirrorIndex m) (mirrorEntry m) (tagTaken m s) =
          setJent (mirrorIndex m) { mirrorEntry m with mirror := true, takenOver := false } (setOp (mirrorIndex m) none (tagTaken m s)) :=
        (if_neg (ne_true_of_eq_false hown)).trans (if_pos htor)
      rw [hkeep] at hstore
      obtain ⟨t, a, hexec, hjnl, hch, -, -, -, -, -, hsto, -⟩ := hmirror _ _ hstore
        (((frame_ch (tagTaken m s) _).mono (by decide)).andThen (frame_setJent _ _ _))
      refine ⟨t, hexec, (jent_of_jnl hjnl _).trans ((jent_setJent ..).trans (if_pos rfl)), (opOf_of_ch hch _).trans ?_, hsto⟩
      exact tget_tset_same (none : Option ChOp) _ none _
    · have hstore := mirrorStore_resync (s := tagTaken m s) (i := mirrorIndex m) (e := mirrorEntry m) h4
      have hreturn : resyncStore (mirrorIndex m) (mirrorEntry m) (tagTaken m s) = entryReturned (mirrorIndex m) (mirrorEntry m) (tagTaken m s) :=
        (if_pos hown).trans (if_pos htor)
      obtain ⟨hframe, hent, hop⟩ := entryReturned_spec (mirrorIndex m) (mirrorEntry m) (tagTaken m s)
      rw [hreturn] at hstore
      obtain ⟨t, a, hexec, hjnl, hch, -, -, -, -, -, hsto, -⟩ := hmirror _ _ hstore (hframe.mono (by decide))
      exact ⟨t, hexec, (jent_of_jnl hjnl _).trans hent, (opOf_of_ch hch _).trans hop, hsto⟩
    · have hstore := mirrorStore_resync (s := tagTaken m s) (i := mirrorIndex m) (e := mirrorEntry m) h4
      have hstay : resyncStore (mirrorIndex m) (mirrorEntry m) (tagTaken m s) = tagTaken m s := (if_pos hown).trans (if_neg (Nat.not_lt.mpr htor))
      rw [hstay] at hstore
      obtain ⟨t, a, hexec, hjnl, hch, -⟩ := hmirror _ _ hstore (.refl _ _)
      exact ⟨t, hexec, congrArg Jnl.e hjnl, hch⟩
  · have hserve := mirrorAckServe_eq hl hx hpart hindex htrans hseq htor
    have hexec : exec (.mirrorAck m) s = done s (mirrorAnswered x (bits (natAt m.body 0 8) 40 39 == 1) s) := by
      rw [exec_mirrorAck ho hv hp, receive_each (hk ▸ hm) hn, hserve]
    refine ⟨fun _ hsync => ?_, fun o l h1 hsync hcore hop hbad hbits hhold => ?_⟩
    · rw [hexec, mirrorAnswered_async hsync]
      exact done_framed (frame_jnlOut s _ rfl rfl) hs
    · have hclear : (bits (natAt m.body 0 8) 40 39 == 1) = false := by simp [hbits]
      rw [hexec, hclear, mirrorAnswered_start h1 hsync hcore hop hbad]
      have hjnl : Touches [.jnl] s { s with jnl := { s.jnl with out := s.jnl.out.filter (fun y => y.tag != x.tag) } } := frame_jnlOut s _ rfl rfl
      generalize hu : ({ s with jnl := { s.jnl with out := s.jnl.out.filter (fun y => y.tag != x.tag) } } : State) = u at *
      obtain ⟨-, hlat, hout⟩ := recordLat_spec x u
      obtain ⟨hframe, hdurable, hgo, hlast⟩ := startMirrored_spec x o l u (by rwa [coreOf_of_cores (hjnl .core (by decide))])
      have hall := (hjnl.mono (by decide)).trans hframe
      have hdone : done s (startMirrored x o l u) = .next (startMirrored x o l u) := done_framed hall hs
      refine ⟨_, hdone, hdurable, hgo, ?_, ?_, ?_, hall .sto (by decide)⟩
      · rw [hlast, hout, ← hu]
      · rw [hlast, hlat, ← hu]
      · exact hall .journal (by decide)

end Sys2Proof.Machine
end


section
set_option Elab.async false
/-! PROOFS. O37: discovery on a port. -/

namespace Sys2Proof.Machine

section
variable {s t : State} {p : Nat} {x : Peer}

/-! ### What a port knows of its peer -/

theorem peerOf_of_routing (h : routingOf t.arm = routingOf s.arm) (p : Nat) : peerOf p t = peerOf p s :=
  have hpeers : t.arm.peers = s.arm.peers := congrArg Prod.fst h
  congrArg (tget ({} : Peer) p) hpeers

theorem peerOf_setPeer (p : Nat) (x : Peer) (s : State) : peerOf p (setPeer p x s) = x := tget_tset_same ..

theorem discoNo_discoPort : discoNo (discoPort p) = p := by
  unfold discoPort
  split
  · rfl
  · simp only [discoNo]
    omega

/-- What a step of discovery that refuses nothing writes. -/
def discoRegs : List FrameReg := [.arm, .routing, .free, .out, .armLink, .chLink]

theorem disco_setPeer (p : Nat) (x : Peer) (s : State) : Touches discoRegs s (setPeer p x s) := (frame_setPeer p x s).mono (by decide)

theorem disco_send (p what : Nat) (b : List Byte) (s : State) : Touches discoRegs s (discoSend p what b s) := (frame_discoSend p what b s).mono (by decide)

theorem peerOf_discoSend (p what : Nat) (b : List Byte) (s : State) : peerOf p (discoSend p what b s) = peerOf p s :=
  peerOf_of_routing (frame_discoSend p what b s .routing (by decide)) p

theorem discoSend_says (p what : Nat) (b : List Byte) (s : State) : Out.discovery p what b ∈ (discoSend p what b s).out :=
  (frame_mgtSend (emit (.discovery p what b) s) _ _ _ .said (by decide)).subset (by simp [emit])

/-- The end of a step of discovery that refuses nothing. -/
theorem done_disco {u : State} (hs : Safety.settled s) (h : Touches discoRegs s u) : done s u = .next u := done_framed h hs

theorem disco_state {u : State} (h : Touches discoRegs s u) (q : PortId) : (linkOf q u).state = (linkOf q s).state := (h .links (by decide) q).fields.1

/-! ### A peer is refused -/

theorem linkDown_key_peers {q : PortId} (h5 : (linkOf q s).state = 5) : (linkDown q s).arm.peers =
    tmod {} (discoNo q) (fun x => { x with step := 0, sentConfirm := false, transcript := [], nonce := [], secret := [] }) (linkDownOnly q s).arm.peers := by
  have hwas : ((linkOf q s).state == 6 || (linkOf q s).state == 7) = false := by simp [h5]
  unfold linkDown
  simp only [hwas, Bool.false_eq_true, if_false]
  cases q <;> rfl

theorem done_refused (hs : Safety.settled s) (hg : Safety.graceful s) (h5 : (linkOf (discoPort p) s).state = 5) (code : Nat) :
    ∃ t, done s (refusePeer p code s) = .next t ∧ (peerOf p t).result = code ∧ (linkOf (discoPort p) t).state = 8 := by
  obtain ⟨u, hu, hframe, hpeer⟩ : ∃ u, refusePeer p code s = linkDown (discoPort p) u ∧ Touches [.arm, .routing, .flt, .live] s u ∧ (peerOf p u).result = code := by
    have hset := frame_setPeer p { peerOf p s with result := code } s
    have hlog : Touches [.flt, .live] (setPeer p { peerOf p s with result := code } s) _ := (frame_patina _ (srcPort (discoPort p))).andThen (frame_logState _ (srcPort (discoPort p)) code)
    exact ⟨_, rfl, (hset.mono (by decide)).andThen hlog, congrArg Peer.result ((peerOf_of_routing (hlog .routing (by decide)) p).trans (peerOf_setPeer ..))⟩
  have hlink : (linkOf (discoPort p) u).state = 5 := (congrArg Link.state (linkOf_same (hframe .armLink (by decide)) (hframe .chLink (by decide)) _)).trans h5
  obtain ⟨hdown, -⟩ := linkDown_spec (p := discoPort p) (s := u)
  have hall : Touches (.flt :: .live :: linkRegs) s (linkDown (discoPort p) u) := (hframe.mono (by decide)).trans (link_linkDown.mono (by decide))
  have hpeers : (peerOf p (linkDown (discoPort p) u)).result = code := by
    have honly : (linkDownOnly (discoPort p) u).arm = u.arm := frame_linkDownOnly .arm (by decide)
    unfold peerOf
    rw [linkDown_key_peers hlink, honly, discoNo_discoPort, tget_tmod, if_pos rfl]
    exact hpeer
  obtain ⟨t, hdone, htold⟩ := done_told (b := s) (due_of_still (hall .still (by decide)) hs hg) (hall .pending (by decide))
  exact ⟨t, hu ▸ hdone, (congrArg Peer.result (peerOf_of_routing (htold .routing (by decide)) p)).trans hpeers, (hdown.trans (htold .links (by decide) _)).fields.1⟩

/-! ### HELLO -/

theorem atStep_iff (ho : operating s = true) (hp : p < 20) (h5 : (linkOf (discoPort p) s).state = 5) {k : Nat} (hk : (peerOf p s).step = k) : atStep p k s = true := by
  simp [atStep, ho, hp, h5, hk]

theorem done_hello (hs : Safety.settled s) (h5 : (linkOf (discoPort p) s).state = 5) (ser : Long) (node mode pp : Nat) (nonce : List Byte) (hd : dupNode node ser s = false) :
    ∃ t, done s (onHello p 1 ser node mode pp nonce s) = .next t ∧ (peerOf p t).step = 1 ∧ (peerOf p t).serial = ser ∧ (peerOf p t).node = node ∧ (peerOf p t).port = pp % 8 ∧
      Out.discovery p 2 (Config.certificates ++ ownerHash s ++ linkReport nonce s) ∈ t.out ∧ (linkOf (discoPort p) t).state = 5 ∧ t.flt = s.flt ∧ t.sto = s.sto := by
  unfold onHello
  extract_lets x x' init tr report own
  rw [if_neg (by simp), if_neg (by simp [hd])]
  have hall := (disco_setPeer p { x' with step := 1, transcript := tr, secret := own } s).trans (disco_send p 2 own _)
  have hpeer := (peerOf_discoSend p 2 own _).trans (peerOf_setPeer p { x' with step := 1, transcript := tr, secret := own } s)
  refine ⟨_, done_disco hs hall, ?_, ?_, ?_, ?_, discoSend_says p 2 own _, (disco_state hall _).trans h5, hall .flt (by decide), hall .sto (by decide)⟩
  · exact congrArg Peer.step hpeer
  · exact congrArg Peer.serial hpeer
  · exact congrArg Peer.node hpeer
  · exact congrArg Peer.port hpeer

/-! ### IDENTITY -/

theorem onIdentity_refuses {certs hash rep : List Byte} {r : Nat} (hr : r = (if Config.chainOk certs (peerOf p s).serial = false then 1
      else if Config.reportOk certs rep = false ∨ bytesAt rep 0x40 32 ≠ (peerOf p s).nonce then 2
      else if s.pln.owners = [] ∨ allZero hash = true then 3 else if hash ≠ ownerHash s then 4 else 0)) (h0 : r ≠ 0) :
    onIdentity p certs hash rep s = refusePeer p r s := by
  unfold onIdentity
  extract_lets x
  by_cases hc : Config.chainOk certs x.serial = false
  · rw [if_pos hc] at hr
    rw [if_pos (by simp [hc]), hr]
  by_cases hrep : Config.reportOk certs rep = false ∨ bytesAt rep 0x40 32 ≠ x.nonce
  · rw [if_neg hc, if_pos hrep] at hr
    rw [if_neg (by simpa using hc), if_pos (by simpa using hrep), hr]
  by_cases ho : s.pln.owners = [] ∨ allZero hash = true
  · rw [if_neg hc, if_neg hrep, if_pos ho] at hr
    rw [if_neg (by simpa using hc), if_neg (by simpa using hrep), if_pos ho, hr]
  by_cases hh : hash ≠ ownerHash s
  · rw [if_neg hc, if_neg hrep, if_neg ho, if_pos hh] at hr
    rw [if_neg (by simpa using hc), if_neg (by simpa using hrep), if_neg ho, if_pos hh, hr]
  · rw [if_neg hc, if_neg hrep, if_neg ho, if_neg hh] at hr
    exact absurd hr h0

theorem done_identity (hs : Safety.settled s) (h5 : (linkOf (discoPort p) s).state = 5) {certs hash rep : List Byte} (hx : peerOf p s = x)
    (hc : Config.chainOk certs x.serial = true) (hr : Config.reportOk certs rep = true) (hn : bytesAt rep 0x40 32 = x.nonce) (ho : s.pln.owners ≠ []) (hz : allZero hash = false)
    (hh : hash = ownerHash s) : ∃ t, done s (onIdentity p certs hash rep s) = .next t ∧ (peerOf p t).step = (if isInitiator x then 3 else 2) ∧
      (isInitiator x = true → ∃ body, Out.discovery p 3 body ∈ t.out) ∧ (linkOf (discoPort p) t).state = 5 ∧ t.flt = s.flt := by
  unfold onIdentity
  rw [hx]
  extract_lets x' init tr seed u offer
  rw [if_neg (by simp [x', hc]), if_neg (by simp [x', hr, hn]), if_neg (by simp [ho, hz]), if_neg (by simp [hh])]
  have hinit : init = isInitiator x := rfl
  rw [hinit]
  cases isInitiator x with
  | true =>
    have hfree : Touches discoRegs s u := (frame_free s (s.free + 1)).mono (by decide)
    have hall := (hfree.trans (disco_setPeer p { x with step := 3, transcript := tr ++ offer, secret := beBytes 8 seed } u)).trans (disco_send p 3 offer _)
    have hpeer := (peerOf_discoSend p 3 offer _).trans (peerOf_setPeer p { x with step := 3, transcript := tr ++ offer, secret := beBytes 8 seed } u)
    exact ⟨_, done_disco hs hall, congrArg Peer.step hpeer, fun _ => ⟨_, discoSend_says p 3 offer _⟩, (disco_state hall _).trans h5, hall .flt (by decide)⟩
  | false =>
    have hall := disco_setPeer p { x with step := 2, transcript := tr, secret := [] } s
    exact ⟨_, done_disco hs hall, congrArg Peer.step (peerOf_setPeer p { x with step := 2, transcript := tr, secret := [] } s), fun h => absurd h (by decide),
      (disco_state hall _).trans h5, hall .flt (by decide)⟩

/-! ### KEM_OFFER, KEM_REPLY -/

theorem sendConfirm_spec (p : Nat) (s : State) : Touches discoRegs s (sendConfirm p s) ∧ peerOf p (sendConfirm p s) = { peerOf p s with step := 4, sentConfirm := true } ∧
    ∃ b, Out.discovery p 5 b ∈ (sendConfirm p s).out := by
  unfold sendConfirm
  extract_lets x
  exact ⟨(disco_setPeer p { x with step := 4, sentConfirm := true } s).trans (disco_send p 5 _ _),
    (peerOf_discoSend p 5 _ _).trans (peerOf_setPeer p { x with step := 4, sentConfirm := true } s), _, discoSend_says p 5 _ _⟩

theorem done_offer (hs : Safety.settled s) (offer : List Byte) : ∃ t, done s (onOffer p offer s) = .next t ∧ (peerOf p t).step = 4 ∧ (peerOf p t).sentConfirm = true ∧
    Out.discovery p 4 (Config.kemReply s.free offer) ∈ t.out ∧ (∃ b, Out.discovery p 5 b ∈ t.out) ∧ t.flt = s.flt := by
  unfold onOffer
  extract_lets x seed u reply v
  have hfree : Touches discoRegs s u := (frame_free s (s.free + 1)).mono (by decide)
  have hset : Touches discoRegs u v := disco_setPeer p _ u
  have hsent := disco_send p 4 reply v
  have hsays := discoSend_says p 4 reply v
  generalize discoSend p 4 reply v = w at *
  obtain ⟨hconfirm, hpeer, hcsays⟩ := sendConfirm_spec p w
  have hall := ((hfree.trans hset).trans hsent).trans hconfirm
  exact ⟨_, done_disco hs hall, congrArg Peer.step hpeer, congrArg Peer.sentConfirm hpeer, (hconfirm .said (by decide)).subset hsays, hcsays, hall .flt (by decide)⟩

theorem done_reply (hs : Safety.settled s) (hx : peerOf p s = x) (reply : List Byte) : ∃ t, done s (onReply p reply s) = .next t ∧ (peerOf p t).step = 4 ∧ (peerOf p t).sentConfirm = true ∧
    (peerOf p t).secret = Config.kemSecret x.secret reply ∧ (∃ b, Out.discovery p 5 b ∈ t.out) ∧ t.flt = s.flt := by
  unfold onReply
  rw [hx]
  dsimp only
  have hset := disco_setPeer p { x with transcript := x.transcript ++ reply, secret := Config.kemSecret x.secret reply } s
  have hpeer := peerOf_setPeer p { x with transcript := x.transcript ++ reply, secret := Config.kemSecret x.secret reply } s
  generalize setPeer p { x with transcript := x.transcript ++ reply, secret := Config.kemSecret x.secret reply } s = w at *
  obtain ⟨hconfirm, hcpeer, hcsays⟩ := sendConfirm_spec p w
  have hall := hset.trans hconfirm
  exact ⟨_, done_disco hs hall, congrArg Peer.step hcpeer, congrArg Peer.sentConfirm hcpeer,
    (congrArg Peer.secret hcpeer).trans (congrArg Peer.secret hpeer), hcsays, hall .flt (by decide)⟩

/-! ### CONFIRM -/

/-- What a port that comes up writes beside its link. -/
theorem frame_portUp {q : PortId} : Touches (.fstate :: runRegs) s (portUp q s) := by
  cases q with
  | ch n => exact run_chWakeAll.mono (by decide)
  | arm k =>
    unfold portUp
    extract_lets f
    have hset : Touches [.arm, .fstate] s { s with arm := { s.arm with fstate := f, dbChange := s.tor.tor } } :=
      ((frame_arm s { s.arm with fstate := f, dbChange := s.tor.tor }).mono (by decide) : Touches [.node, .depart, .routing, .arm, .fstate] s _).holding rfl |>.holding rfl |>.holding rfl
    exact (hset.mono (by decide)).andThen (frame_announceChange _)

/-- A port that becomes ACTIVE: its link, but for flits sent. -/
theorem linkActive_spec (q : PortId) (clear : Bool) (s : State) : Touches (.fstate :: .links :: .idle :: runRegs) s (linkActive q clear s) ∧
    SameLink { linkOf q s with state := 6, since := s.tor.tor, clear := clear, encOn := !clear, keyPhase := 0, rotation := 0, rotMark := s.tor.tor / rotPeriod }
      (linkOf q (linkActive q clear s)) := by
  unfold linkActive
  extract_lets u
  have hu : linkOf q u = { linkOf q s with state := 6, since := s.tor.tor, clear := clear, encOn := !clear, keyPhase := 0, rotation := 0, rotMark := s.tor.tor / rotPeriod } :=
    linkOf_mod _ _ _
  have hmod : Touches [.armLink, .chLink, .links, .idle] s u := frame_modLink _ _ _
  clear_value u
  have hup : Touches (.fstate :: runRegs) u (txDrain q 1024 (portUp q u)) := frame_portUp.andThen (frame_txDrain _ _ _)
  exact ⟨(hmod.mono (by decide)).trans (hup.mono (by decide)), hu ▸ hup .links (by decide) q⟩

theorem done_confirm (hs : Safety.settled s) (hg : Safety.graceful s) (hx : peerOf p s = x) : ∃ t, done s (onConfirm p (confirmMac x.secret x.transcript (if isInitiator x then 2 else 1)) s) = .next t ∧
    (peerOf p t).step = 6 ∧ (linkOf (discoPort p) t).state = 6 ∧ (linkOf (discoPort p) t).encOn = true ∧ (linkOf (discoPort p) t).keyPhase = 0 ∧
    (linkOf (discoPort p) t).secret = x.secret ∧ (linkOf (discoPort p) t).context = sha384 x.transcript := by
  unfold onConfirm
  rw [hx]
  extract_lets x' init u v
  rw [if_neg (by simp [init, x'])]
  have hset : Touches [.arm, .routing] s u := frame_setPeer p _ s
  have hpeer : peerOf p u = { x with step := 6, result := 0, secret := [], transcript := [] } := peerOf_setPeer p _ s
  have hmod : Touches [.armLink, .chLink, .links, .idle] u v := frame_modLink _ _ _
  have hlink : linkOf (discoPort p) v = { linkOf (discoPort p) u with secret := x.secret, context := sha384 x.transcript, initiator := init } := linkOf_mod _ _ _
  clear_value u v
  obtain ⟨hactive, hsame⟩ := linkActive_spec (discoPort p) false v
  rw [hlink] at hsame
  generalize linkActive (discoPort p) false v = w at *
  have hall : Touches (.routing :: .fstate :: .links :: .idle :: runRegs) s w := ((hset.mono (by decide)).trans (hmod.mono (by decide))).trans (hactive.mono (by decide))
  obtain ⟨t, hdone, htold⟩ := done_told (b := s) (due_of_still (hall .still (by decide)) hs hg) (hall .pending (by decide))
  have hroute : routingOf t.arm = routingOf u.arm := ((htold .routing (by decide)).trans (hactive .routing (by decide))).trans (hmod .routing (by decide))
  have hend := hsame.trans (htold .links (by decide) (discoPort p))
  have hkey : ∀ {l m : Link}, SameLink l m → m.encOn = l.encOn ∧ m.keyPhase = l.keyPhase ∧ m.secret = l.secret ∧ m.context = l.context := fun h =>
    ⟨(congrArg Link.encOn h.1 :), (congrArg Link.keyPhase h.1 :), (congrArg Link.secret h.1 :), (congrArg Link.context h.1 :)⟩
  obtain ⟨henc, hphase, hsecret, hcontext⟩ := hkey hend
  exact ⟨t, hdone, congrArg Peer.step ((peerOf_of_routing hroute p).trans hpeer), hend.fields.1, henc, hphase, hsecret, hcontext⟩

end

/-- Settles O37: each message in its turn, and each fault. -/
theorem discoveryAdmitsPeer : Obligations.DiscoveryAdmitsPeer := by
  unfold Obligations.DiscoveryAdmitsPeer
  intro p s x hs hg ho hp h5 hx
  have hstep : ∀ {k}, x.step = k → atStep p k s = true := fun hk => atStep_iff ho hp h5 (hx ▸ hk)
  refine ⟨fun ver ser node mode pp nonce h0 => ?_, fun certs hash rep h1 => ?_, fun ek ec h2 => ?_, fun ct ec h3 => ?_, fun mac h4 => ?_⟩
  · have hexec : exec (.hello p ver ser node mode pp nonce) s = done s (onHello p ver ser node mode pp nonce s) := if_pos (hstep h0)
    rw [hexec]
    refine ⟨fun hv hd => ?_, fun hv hd => ?_, fun hv => ?_⟩
    · subst hv
      exact done_hello hs h5 ser node mode pp nonce hd
    · have hdup : onHello p ver ser node mode pp nonce s = refusePeer p 5 s := (if_neg (by simp [hv])).trans (if_pos hd)
      rw [hdup]
      exact done_refused hs hg h5 5
    · have hver : onHello p ver ser node mode pp nonce s = refusePeer p 7 s := if_pos hv
      rw [hver]
      exact done_refused hs hg h5 7
  · have hexec : exec (.identity p certs hash rep) s = done s (onIdentity p certs hash rep s) := if_pos (hstep h1)
    rw [hexec]
    refine ⟨fun hc hr hn how hz hh => done_identity hs h5 hx hc hr hn how hz hh, fun r hr h0 => ?_⟩
    rw [onIdentity_refuses (hx ▸ hr) h0]
    exact done_refused hs hg h5 r
  · have hexec : exec (.kemOffer p ek ec) s = done s (onOffer p (ek ++ ec) s) := if_pos (hstep h2)
    rw [hexec]
    exact done_offer hs (ek ++ ec)
  · have hexec : exec (.kemReply p ct ec) s = done s (onReply p (ct ++ ec) s) := if_pos (hstep h3)
    rw [hexec]
    exact done_reply hs hx (ct ++ ec)
  · have hexec : exec (.confirm p mac) s = done s (onConfirm p mac s) := if_pos (hstep h4)
    rw [hexec]
    refine ⟨fun hm => hm ▸ done_confirm hs hg hx, fun hm => ?_⟩
    have hwrong : onConfirm p mac s = refusePeer p 6 s := by
      unfold onConfirm
      rw [hx]
      exact if_pos hm
    rw [hwrong]
    exact done_refused hs hg h5 6

end Sys2Proof.Machine
end


section
set_option Elab.async false
/-! PROOFS. What a transition of an operation leaves where no entry is mirrored, its end, and what reading storage leaves of requests under way (15; 16). -/

namespace Sys2Proof.Machine

section
variable {s t : State} {i : Nat} {o : ChOp}

/-! ### Transitions -/

/-- What a transition writes of its entry beside its own fields, unmirrored. -/
def transEntry (k : Nat) (e : JEntry) (s : State) : JEntry := { e with trans := k, tor := s.tor.tor, quality := torQuality s, simplex := true }

theorem jnlTrans_eq (hm : mirrorOn s = false) (k : Nat) (core : Option Nat) (f : JEntry → JEntry) :
    jnlTrans i k core f s = setJent i (transEntry k (f (jent i s)) s) s := by
  simp [jnlTrans, hm, transEntry]

theorem opTrans_eq (hm : mirrorOn s = false) (hop : opOf i s = some o) (k : Nat) (f : JEntry → JEntry) :
    opTrans i k f s = setJent i (transEntry k (f { jent i s with orderAddr := opAddr o }) s) s := by
  simp only [opTrans, hop]
  exact jnlTrans_eq hm k none _

theorem mirrorOn_of_pair (h : t.jnl.pair = s.jnl.pair) : mirrorOn t = mirrorOn s := by simp only [mirrorOn, h]

theorem modOp_eq (hop : opOf i s = some o) (f : ChOp → ChOp) : modOp i f s = setOp i (some (f o)) s := by simp only [modOp, hop]

theorem opWait_eq (hop : opOf i s = some o) (w : OpWait) : opWait i w s = setOp i (some { o with wait := w }) s := modOp_eq hop _

theorem opOf_setOp_same (i : Nat) (o : Option ChOp) (s : State) : opOf i (setOp i o s) = o := (opOf_setOp i i o s).trans (if_pos rfl)

theorem opOf_setOp_other {j : Nat} (h : j ≠ i) (o : Option ChOp) (s : State) : opOf j (setOp i o s) = opOf j s := (opOf_setOp i j o s).trans (if_neg h)

theorem jent_setJent_same (i : Nat) (e : JEntry) (s : State) : jent i (setJent i e s) = e := (jent_setJent i i e s).trans (if_pos rfl)

theorem jent_setJent_other {j : Nat} (h : j ≠ i) (e : JEntry) (s : State) : jent j (setJent i e s) = jent j s := (jent_setJent i j e s).trans (if_neg h)

theorem frame_setOp (i : Nat) (o : Option ChOp) (s : State) : Touches [.ch] s (setOp i o s) := frame_ch s _

/-! ### The end of an operation -/

/-- What the end of an operation writes where its entry is not mirrored. -/
def finalRegs : List FrameReg := [.out, .armLink, .chLink, .arm, .ch, .jnl, .journal, .offers]

/-- The entry of an operation that has ended. -/
def finalEntry (o : ChOp) (v : EndVals) (e : JEntry) (s : State) : JEntry :=
  transEntry trFinal { e with state := 5, devStatus := v.dev, chCode := v.code, flags := endFlags o v, orderAddr := v.addr, ordinal := v.resid, engine := v.engine } s

/-- The parameter that an operation's status is offered with. -/
def finalParam (o : ChOp) (e : JEntry) : Nat := if o.mod_.isSome then o.blk.param else e.param

/-- What is remembered of an operation that has ended. -/
def finalLast (o : ChOp) (v : EndVals) (s : State) : LastOp :=
  { func := o.func, tor := s.tor.tor, quality := torQuality s, port := o.port, origin := o.origin, ackDue := none, ordinal := v.ack.getD 0,
    param := if o.mod_.isSome then some o.blk.param else none, conflict := o.conflict }

theorem frame_offerFinal (i : Nat) (s : State) : Touches [.offers] s (offerFinal i s) := by
  unfold offerFinal
  extract_lets e c
  exact touches_ite (fun _ => frame_offers _ _) fun _ => (frame_offers s _).trans (frame_offers c _)

theorem offerFinal_offers (hm : (jent i s).mirror = false) : ∃ x ∈ (offerFinal i s).offers, x.subch = i ∧ x.inter = false ∧ x.part = (jent i s).part ∧
    x.param = (lastOf i s).param.getD (jent i s).param := by
  have heq : (offerFinal i s).offers = (dropOffers i s).offers ++
      [{ subch := i, part := (jent i s).part, cls := (jent i s).subclass, param := (lastOf i s).param.getD (jent i s).param, inter := false, taken := false }] := by
    unfold offerFinal
    extract_lets e c
    rw [if_neg (by simp [e, hm])]
    rfl
  rw [heq]
  exact ⟨_, List.mem_append_right _ (List.mem_singleton.mpr rfl), rfl, rfl, rfl, rfl⟩

/-- The channel subsystem without an operation that has ended. -/
def opCleared (i : Nat) (x : LastOp) (s : State) : State := dropGot (.subch i) (fun _ => true) (setOp i none (setLast i x s))

theorem frame_opCleared (i : Nat) (x : LastOp) (s : State) : Touches [.ch, .arm] s (opCleared i x s) :=
  ((frame_ch s { s.ch with ops := tset none i none s.ch.ops, last := tset {} i x s.ch.last }).mono (by decide)).andThen (frame_dropGot _ _ _)

theorem opOf_opCleared (i : Nat) (x : LastOp) (s : State) : opOf i (opCleared i x s) = none := opOf_setOp_same i none (setLast i x s)

theorem lastOf_opCleared (i : Nat) (x : LastOp) (s : State) : lastOf i (opCleared i x s) = x := tget_tset_same ({} : LastOp) i x s.ch.last

theorem jent_opCleared (i j : Nat) (x : LastOp) (s : State) : jent j (opCleared i x s) = jent j s := rfl

theorem subOf_opCleared (i j : Nat) (x : LastOp) (s : State) : subOf j (opCleared i x s) = subOf j s := rfl

theorem subOf_of_ch (h : t.ch = s.ch) (j : Nat) : subOf j t = subOf j s := by simp only [subOf, h]

/-- An operation that has ended, its status not yet acknowledged. -/
def opOver (i : Nat) (o : ChOp) (v : EndVals) (s : State) : State :=
  offerFinal i (opCleared i (finalLast o v s) (setJent i (finalEntry o v (jent i s) s) s))

theorem frame_opOver (i : Nat) (o : ChOp) (v : EndVals) (s : State) : Touches finalRegs s (opOver i o v s) :=
  (((frame_setJent i _ s).mono (by decide)).andThen (frame_opCleared i _ _)).andThen (frame_offerFinal i _)

theorem jent_opOver (i j : Nat) (o : ChOp) (v : EndVals) (s : State) : jent j (opOver i o v s) = if j = i then finalEntry o v (jent i s) s else jent j s :=
  (jent_of_jnl (frame_offerFinal i _ .jnl (by decide)) j).trans ((jent_opCleared i j _ _).trans (jent_setJent i j _ s))

theorem opOf_opOver (i : Nat) (o : ChOp) (v : EndVals) (s : State) : opOf i (opOver i o v s) = none :=
  (opOf_of_ch (frame_offerFinal i _ .ch (by decide)) i).trans (opOf_opCleared i _ _)

theorem subOf_opOver (i j : Nat) (o : ChOp) (v : EndVals) (s : State) : subOf j (opOver i o v s) = subOf j s :=
  (subOf_of_ch (frame_offerFinal i _ .ch (by decide)) j).trans (subOf_opCleared i j _ _)

theorem offers_opOver (i : Nat) (o : ChOp) (v : EndVals) (hm : (jent i s).mirror = false) :
    ∃ x ∈ (opOver i o v s).offers, x.subch = i ∧ x.inter = false ∧ x.part = (jent i s).part ∧ x.param = finalParam o (jent i s) := by
  have hent : jent i (opCleared i (finalLast o v s) (setJent i (finalEntry o v (jent i s) s) s)) = finalEntry o v (jent i s) s := jent_setJent_same i _ s
  have hlast := lastOf_opCleared i (finalLast o v s) (setJent i (finalEntry o v (jent i s) s) s)
  obtain ⟨x, hx, hi, hint, hpart, hparam⟩ := offerFinal_offers (s := opCleared i (finalLast o v s) (setJent i (finalEntry o v (jent i s) s) s)) (i := i) (by rw [hent]; exact hm)
  refine ⟨x, hx, hi, hint, hpart.trans (congrArg JEntry.part hent :), hparam.trans ?_⟩
  rw [hlast, hent]
  unfold finalLast finalParam
  cases o.mod_.isSome <;> rfl

/-- The data of an operation that still waits to leave does so no more. -/
def dataDropped (i : Nat) (o : ChOp) (s : State) : State := o.port.elim s fun n => dropData n i s

theorem frame_dataDropped (i : Nat) (o : ChOp) (s : State) : Touches [.armLink, .chLink] s (dataDropped i o s) := by
  unfold dataDropped
  cases o.port with
  | none => exact .refl _ s
  | some n => exact frame_setSent s (.ch n) (by exact sameLink_of rfl rfl)

/-- The STATUS of an operation that has ended is acknowledged. -/
def acked (i : Nat) (o : ChOp) (v : EndVals) (s : State) : State :=
  match v.ack, o.port with
  | some k, some n => sendAck n o.origin i (jent i s).seq k s
  | _, _ => s

theorem frame_acked (i : Nat) (o : ChOp) (v : EndVals) (s : State) : Touches sendRegs s (acked i o v s) := by
  unfold acked
  split
  · exact ((frame_emit s _).mono (by decide)).trans (frame_linkSendVia _ _ _ _ _)
  · exact .refl _ s

theorem acked_says {n k : Nat} {v : EndVals} (hp : o.port = some n) (hk : v.ack = some k) :
    Out.frame n (ackFrame o.origin i (subOf i s).dev (jent i s).seq k) ∈ (acked i o v s).out := by
  simp only [acked, hp, hk]
  exact (frame_linkSendVia (emit (.frame n (ackFrame o.origin i (subOf i s).dev (jent i s).seq k)) s) _ _ _ _ .said (by decide)).subset (by simp [emit])

/-- The end of an operation whose entry is not mirrored, at once. -/
theorem chFinal_eq (hm : mirrorOn s = false) (hop : opOf i s = some o) (v : EndVals) : chFinal i v s = acked i o v (opOver i o v (dataDropped i o s)) := by
  have hnow : ∀ u : State, u.jnl.pair = s.jnl.pair → syncAtOnce i u = true := fun u h => by
    simp [syncAtOnce, mirrorOn_of_pair h, hm]
  unfold chFinal
  split
  next h => exact absurd (hop.symm.trans h) (by simp)
  next o' h =>
    obtain rfl : o' = o := Option.some.inj (h.symm.trans hop)
    extract_lets fl a b now c d
    have ha : a = dataDropped i o' s := by
      unfold a dataDropped
      cases o'.port <;> rfl
    have hapair : a.jnl.pair = s.jnl.pair := ha ▸ congrArg Jnl.pair (frame_dataDropped i o' s .jnl (by decide))
    have hb : b = setJent i (finalEntry o' v (jent i a) a) a := jnlTrans_eq ((mirrorOn_of_pair hapair).trans hm) _ _ _
    have hnow' : now = true := hnow b ((congrArg (fun x : State => x.jnl.pair) hb).trans hapair)
    have hd : d = opOver i o' v (dataDropped i o' s) := by
      unfold d c
      rw [hnow', hb, ha]
      rfl
    rw [hnow', hd]
    unfold acked
    cases v.ack <;> cases o'.port <;> rfl

/-- What the end of an operation leaves. -/
theorem chEnd_spec (hm : mirrorOn s = false) (hop : opOf i s = some o) (ha : agentPending (.subch i) s = false) (v : EndVals) :
    Touches finalRegs s (chEnd i v s) ∧ opOf i (chEnd i v s) = none ∧ (∀ j, jent j (chEnd i v s) = if j = i then finalEntry o v (jent i s) s else jent j s) ∧
    (∀ n k, o.port = some n → v.ack = some k → Out.frame n (ackFrame o.origin i (subOf i s).dev (jent i s).seq k) ∈ (chEnd i v s).out) ∧
    ((jent i s).mirror = false → ∃ x ∈ (chEnd i v s).offers, x.subch = i ∧ x.inter = false ∧ x.part = (jent i s).part ∧ x.param = finalParam o (jent i s)) := by
  have heq : chEnd i v s = acked i o v (opOver i o v (dataDropped i o s)) := (if_neg (by simp [ha])).trans (chFinal_eq hm hop v)
  rw [heq]
  have hdrop := frame_dataDropped i o s
  have hdent : ∀ j, jent j (dataDropped i o s) = jent j s := jent_of_jnl (hdrop .jnl (by decide))
  have hdsub : ∀ j, subOf j (dataDropped i o s) = subOf j s := subOf_of_ch (hdrop .ch (by decide))
  have hfinal : finalEntry o v (jent i (dataDropped i o s)) (dataDropped i o s) = finalEntry o v (jent i s) s := by
    have htor : (dataDropped i o s).tor = s.tor := hdrop .tor (by decide)
    rw [hdent]
    unfold finalEntry transEntry torQuality
    rw [htor]
  generalize dataDropped i o s = d at *
  have hover := frame_opOver i o v d
  have hack := frame_acked i o v (opOver i o v d)
  refine ⟨((hdrop.mono (by decide)).trans hover).andThen hack, (opOf_of_ch (hack .ch (by decide)) i).trans (opOf_opOver i o v d), fun j => ?_, fun n k hp hk => ?_, fun hmir => ?_⟩
  · rw [jent_of_jnl (hack .jnl (by decide)), jent_opOver, hfinal, hdent]
  · have hsay := acked_says (s := opOver i o v d) (i := i) hp hk
    have hseq : (jent i (opOver i o v d)).seq = (jent i s).seq := by
      rw [jent_opOver, if_pos rfl, hfinal]
      rfl
    rwa [subOf_opOver, hdsub, hseq] at hsay
  · obtain ⟨x, hx, hrest⟩ := offers_opOver (s := d) i o v (by rw [hdent]; exact hmir)
    rw [hdent] at hrest
    exact ⟨x, (hack .offers (by decide) : _ = _) ▸ hx, hrest⟩

/-! ### Reading storage makes no request that an agent waits for -/

/-- From one state to the other no agent has come to wait for a store or an uncached access. -/
structure NoAsk (s t : State) : Prop where
  later : t.arm.later = s.arm.later
  reqs : ∀ r ∈ t.arm.reqs, r.msg.kind = 6 → r ∈ s.arm.reqs

theorem NoAsk.trans {u : State} (h : NoAsk s t) (k : NoAsk t u) : NoAsk s u := ⟨k.later.trans h.later, fun r hr h6 => h.reqs r (k.reqs r hr h6) h6⟩

theorem noAsk_of_arm (h : t.arm = s.arm) : NoAsk s t := ⟨by rw [h], fun r hr _ => h ▸ hr⟩

theorem NoAsk.refl (s : State) : NoAsk s s := noAsk_of_arm rfl

theorem noAsk_foldl {α : Type} {f : State → α → State} (hf : ∀ u x, NoAsk u (f u x)) (xs : List α) : ∀ s, NoAsk s (xs.foldl f s) := by
  induction xs with
  | nil => exact NoAsk.refl
  | cons x xs ih => exact fun s => (hf s x).trans (ih _)

theorem noAsk_ite {c : Prop} [Decidable c] {u : State} (h : c → NoAsk s t) (k : ¬ c → NoAsk s u) : NoAsk s (if c then t else u) := by
  split
  · exact h ‹_›
  · exact k ‹_›

theorem agentPending_of_noAsk (h : NoAsk s t) {who : Agent} (ha : agentPending who s = false) : agentPending who t = false := by
  simp only [agentPending, agentSent, Bool.or_eq_false_iff, List.any_eq_false, Bool.and_eq_true, beq_iff_eq, not_and] at ha ⊢
  exact ⟨fun r hr hw h6 => ha.1 r (h.reqs r hr h6) hw h6, fun w hw => ha.2 w (h.later ▸ hw)⟩

theorem noAsk_homeSet (a : Nat) (v : Byte) (s : State) : NoAsk s (homeSet a v s) := by
  unfold homeSet
  refine noAsk_ite (fun _ => noAsk_of_arm rfl) fun _ => ?_
  split
  · exact ⟨rfl, fun r hr _ => hr⟩
  · exact .refl s

theorem noAsk_homeSetAll (data : List Byte) : ∀ (a : Nat) (s : State), NoAsk s (homeSetAll a data s) := by
  induction data with
  | nil => exact fun _ => .refl
  | cons b t ih => exact fun a s => (noAsk_homeSet a b s).trans (ih _ _)

theorem noAsk_sliceUse (line : Nat) (part : Option Nat) (s : State) : NoAsk s (sliceUse line part s) := noAsk_of_arm (frame_sliceUse line part .arm (by decide))

theorem noAsk_writeBackIf (p : Nat → DByte → Bool) (s : State) : NoAsk s (writeBackIf p s) := by
  unfold writeBackIf
  extract_lets go u
  have hgo : NoAsk s u := noAsk_foldl (fun v e => by
    split
    · exact noAsk_homeSet _ _ v
    · exact .refl v) go s
  exact hgo.trans (noAsk_of_arm rfl)

theorem noAsk_evictHeld (l line : Nat) (s : State) : NoAsk s (evictHeld l line s) := by
  unfold evictHeld
  extract_lets c put u v
  have hput : ∀ h w, NoAsk w (put h w) := fun h w => by
    unfold put
    split
    · exact noAsk_ite (fun _ => (noAsk_sliceUse _ _ w).trans (noAsk_homeSetAll _ _ _)) fun _ => .refl w
    · exact .refl w
  exact ((noAsk_ite (fun _ => hput _ s) fun _ => .refl s).trans (noAsk_ite (fun _ => hput _ u) fun _ => .refl u)).trans (noAsk_of_arm (frame_modCore v l _ .arm (by decide)))

theorem noAsk_cleanLine (keep : Option Nat) (line : Nat) (s : State) : NoAsk s (cleanLine keep line s) := by
  unfold cleanLine writeBackLine
  extract_lets u v w
  have hused : NoAsk s u := noAsk_ite (fun _ => noAsk_sliceUse _ _ s) fun _ => .refl s
  have hheld : NoAsk v w := noAsk_foldl (fun x l => noAsk_ite (fun _ => .refl x) fun _ => noAsk_evictHeld l line x) _ v
  exact ((hused.trans (noAsk_writeBackIf _ u)).trans hheld).trans (noAsk_of_arm (frame_onCores w _ _ .arm (by decide)))

/-- A request joins those that are outstanding, under a new tag, and leaves. -/
theorem sendReq_arm (kind addr : Nat) (body : List Byte) (who : Agent) (part : Option Nat) (s : State) : ∃ r : OutReq, r.msg.kind = kind ∧
    (sendReq kind addr body who part s).arm = { s.arm with nextTag := (freshTag s + 1) % 65536, reqs := s.arm.reqs ++ [r] } :=
  ⟨_, rfl, way_forwardMsg _ none { s with arm := { s.arm with nextTag := (freshTag s + 1) % 65536, reqs := s.arm.reqs ++ [_] } } .arm (by decide)⟩

theorem noAsk_sendReq {kind : Nat} (hk : kind ≠ 6) (addr : Nat) (body : List Byte) (who : Agent) (part : Option Nat) (s : State) :
    NoAsk s (sendReq kind addr body who part s) := by
  obtain ⟨r, hr, harm⟩ := sendReq_arm kind addr body who part s
  refine ⟨by rw [harm], fun q hq h6 => ?_⟩
  rw [harm] at hq
  rcases List.mem_append.mp hq with hq | hq
  · exact hq
  · rw [List.mem_singleton.mp hq, hr] at h6
    exact absurd h6 hk

theorem noAsk_releaseRemote (line : Nat) (who : Agent) (part : Option Nat) (s : State) : NoAsk s (releaseRemote line who part s) := by
  unfold releaseRemote
  split
  · exact .refl s
  · refine noAsk_ite (fun _ => .refl s) fun _ => ?_
    extract_lets x u
    have hu : NoAsk s u := ⟨rfl, fun r hr _ => hr⟩
    exact noAsk_ite (fun _ => hu.trans (noAsk_sendReq (by decide) _ _ _ _ u)) fun _ => hu

theorem noAsk_snoopRead (l : Option Nat) (line : Nat) (s : State) : NoAsk s (snoopRead l line s) :=
  noAsk_foldl (f := fun u (e : Nat × Core) => if some e.1 == l || dataCached e.2 then u else modCore e.1 (snoopOff line) u)
    (fun u e => noAsk_ite (fun _ => .refl u) fun _ => noAsk_of_arm (frame_modCore u e.1 _ .arm (by decide))) _ s

theorem noAsk_agentSeen (who : Agent) (part : Option Nat) (attr a n : Nat) (s : State) : NoAsk s (agentSeen who part attr a n s) := by
  unfold agentSeen
  refine noAsk_ite (fun _ => .refl s) fun _ => noAsk_ite (fun _ => ⟨rfl, fun r hr _ => hr⟩) fun _ =>
    noAsk_ite (fun _ => noAsk_of_arm (frame_raisePart s (by decide) _ _ .arm (by decide))) fun _ => noAsk_foldl (fun u ln => ?_) _ s
  have hclean : NoAsk u (if 2 ≤ attr then cleanLine none ln u else u) := noAsk_ite (fun _ => noAsk_cleanLine _ _ u) fun _ => .refl u
  generalize (if 2 ≤ attr then cleanLine none ln u else u) = v at *
  exact ((hclean.trans (noAsk_sliceUse _ _ v)).trans (noAsk_snoopRead _ _ _)).trans (noAsk_releaseRemote _ _ _ _)

theorem noAsk_partSeen (who : Agent) (p a n : Nat) (s : State) : NoAsk s (partSeen who p a n s) := by
  unfold partSeen partSeenAs
  refine noAsk_foldl (fun u q => ?_) _ s
  split
  · exact noAsk_agentSeen _ _ _ _ _ u
  · exact .refl u

end

end Sys2Proof.Machine
end


section
set_option Elab.async false
/-! PROOFS. O42: subchannel configuration, an operation that is taken, and waits for TOR. -/

namespace Sys2Proof.Machine

section
variable {s t u : State} {i : Nat} {o : ChOp} {d : DevOrd}

/-! ### The run of a program, step by step -/

/-- An operation that a channel processor has in hand, and nothing holds back. -/
structure Runs (o : ChOp) : Prop where
  halt : o.halt = none
  ending : o.ending = none
  reach : o.reach = true
  cp : o.cp.isSome = true

theorem Runs.goes (h : Runs o) : ¬ (o.halt.isSome ∨ o.ending.isSome ∨ !o.reach ∨ o.cp.isNone) := by
  obtain ⟨hh, he, hr, hc⟩ := h
  simp [hh, he, hr, Option.isSome_iff_ne_none.mp hc]

theorem chRunGo_over (n : Nat) (h : opOf i s = none) : chRunGo i (n + 1) s = s := by
  unfold chRunGo
  simp only [h]

theorem chRunGo_order (n : Nat) (hop : opOf i s = some o) (h : Runs o) (hw : o.wait = .none) (hc : o.cur = none) : chRunGo i (n + 1) s = chRunGo i n (reachStep i o s) := by
  rw [chRunGo]
  simp only [hop, if_neg h.goes, hw, hc]

theorem chRunGo_device (n : Nat) (hop : opOf i s = some o) (h : Runs o) (hw : o.wait = .none) (hc : o.cur = some d) : chRunGo i (n + 1) s = chRunGo i n (devStep i o d s) := by
  rw [chRunGo]
  simp only [hop, if_neg h.goes, hw, hc]

theorem chRunGo_waitsDevice (n : Nat) (hop : opOf i s = some o) (hw : o.wait = .device) : chRunGo i (n + 1) s = s := by
  rw [chRunGo]
  simp only [hop, hw, ite_self]

theorem chRunGo_tor (n : Nat) {t0 : Nat} (hop : opOf i s = some o) (h : Runs o) (hw : o.wait = .tor t0) (ht : t0 ≤ s.tor.tor) :
    chRunGo i (n + 1) s = chRunGo i n (reachStep i o s) := by
  have heta : ({ o with wait := .tor t0 } : ChOp) = o := by rw [← hw]
  rw [chRunGo]
  simp only [hop, if_neg h.goes, hw, if_pos ht, heta]

theorem chRunGo_waitsTor (n : Nat) {t0 : Nat} (hop : opOf i s = some o) (hw : o.wait = .tor t0) (ht : s.tor.tor < t0) : chRunGo i (n + 1) s = s := by
  rw [chRunGo]
  simp only [hop, hw, if_neg (Nat.not_le.mpr ht), ite_self]

theorem chRunGo_held (n : Nat) (hop : opOf i s = some o) (h : Runs o) (hw : o.wait = .held) (ht : o.blk.relTor ≤ s.tor.tor) : chRunGo i (n + 1) s = chRunGo i n (chRelease i s) := by
  rw [chRunGo]
  simp only [hop, if_neg h.goes, hw, if_pos (Or.inl ht)]

/-! ### An operation is taken -/

/-- The operation in the hands of a channel processor. -/
def opTaken (i k : Nat) (o : ChOp) (s : State) : State :=
  setJent i (transEntry trTake { jent i s with orderAddr := opAddr o, state := 2 } s) (setOp i (some { o with cp := some k }) s)

theorem cpTake_eq {hub k : Nat} (hn : takeNext hub s = some i) (hk : cpPick hub s = some k) (hop : opOf i s = some o) (h1 : (jent i s).state = 1) (hm : mirrorOn s = false) :
    cpTake hub s = chRun i (opTaken i k o s) := by
  unfold cpTake
  simp only [hn, hk, modOp_eq hop]
  have hstate : (jent i (setOp i (some { o with cp := some k }) s)).state = 1 := h1
  rw [if_pos hstate, opTrans_eq (s := setOp i (some { o with cp := some k }) s) hm (opOf_setOp_same i _ s)]
  rfl

theorem opOf_opTaken (i k : Nat) (o : ChOp) (s : State) : opOf i (opTaken i k o s) = some { o with cp := some k } := opOf_setOp_same i _ s

theorem jent_opTaken (i k : Nat) (o : ChOp) (s : State) : jent i (opTaken i k o s) = transEntry trTake { jent i s with orderAddr := opAddr o, state := 2 } s := jent_setJent_same ..

theorem opTaken_others (i k : Nat) (o : ChOp) (s : State) {j : Nat} (h : j ≠ i) : opOf j (opTaken i k o s) = opOf j s ∧ jent j (opTaken i k o s) = jent j s :=
  ⟨opOf_setOp_other h _ s, jent_setJent_other h _ (setOp i (some { o with cp := some k }) s)⟩

theorem frame_opTaken (i k : Nat) (o : ChOp) (s : State) : Touches [.ch, .jnl, .journal] s (opTaken i k o s) :=
  ((frame_setOp i _ s).mono (by decide)).andThen (frame_setJent i _ _)

theorem cpTake_none {hub : Nat} (h : takeNext hub s = none ∨ cpPick hub s = none) : cpTake hub s = s := by
  unfold cpTake
  rcases h with h | h
  · simp only [h]
  · cases hn : takeNext hub s <;> simp only [h]

/-! ### WAIT_TOR -/

/-- An operation whose order has been read. -/
def orderTaken (i : Nat) (o : ChOp) (s : State) : State := modOp i (fun o => { o with jumps := 0 }) (partSeen (.subch i) (jent i s).part o.pc 32 s)

/-- What reading an order and its transitions write. -/
def orderRegs : List FrameReg := .ch :: .jnl :: .journal :: trafficRegs

theorem orderTaken_spec {q : ChOp} (i : Nat) (o : ChOp) (hop : opOf i s = some q) : Touches (.ch :: trafficRegs) s (orderTaken i o s) ∧
    opOf i (orderTaken i o s) = some { q with jumps := 0 } ∧ (∀ j, jent j (orderTaken i o s) = jent j s) ∧ NoAsk s (orderTaken i o s) := by
  unfold orderTaken
  have hseen : Touches trafficRegs s (partSeen (.subch i) (jent i s).part o.pc 32 s) := traffic_partSeen
  have hask := noAsk_partSeen (.subch i) (jent i s).part o.pc 32 s
  generalize partSeen (.subch i) (jent i s).part o.pc 32 s = v at *
  have hopv : opOf i v = some q := (opOf_of_ch (hseen .ch (by decide)) i).trans hop
  rw [modOp_eq hopv]
  exact ⟨(hseen.mono (by decide)).andThen (frame_setOp i _ v), opOf_setOp_same i _ v, fun j => (jent_of_jnl (t := setOp i _ v) rfl j).trans (jent_of_jnl (hseen .jnl (by decide)) j),
    hask.trans (noAsk_of_arm rfl)⟩

/-- A WAIT_TOR order is reached. -/
theorem reachStep_waitTor {r : Order} (hc : o.chain = none) (hr : readOrder (.subch i) (jent i s).part o.pc s = .ok r) (hb : orderBad r = false) (h22 : r.opcode = 0x22)
    (hn : r.flags.testBit 4 = false ∨ o.wait ≠ .none) : reachStep i o s = if s.tor.tor < r.data then opWait i (.tor r.data) (chSuspend i (orderTaken i o s))
      else orderNext i r (if (jent i (orderTaken i o s)).state = 3 then opTrans i trRelease (fun e => { e with state := 2 }) (orderTaken i o s) else orderTaken i o s) := by
  have htor : (orderTaken i o s).tor = s.tor := by
    have hseen : Touches trafficRegs s (partSeen (.subch i) (jent i s).part o.pc 32 s) := traffic_partSeen
    have hmod : Touches opRegs (partSeen (.subch i) (jent i s).part o.pc 32 s) (orderTaken i o s) := op_modOp
    exact (hmod .tor (by decide)).trans (hseen .tor (by decide))
  unfold reachStep withOrder
  simp only [hc, hr]
  unfold reachOrder
  rw [if_neg (by simp [hb]), if_neg (by simp [h22]), if_neg (by simp [h22])]
  extract_lets v w
  have hw : w = orderTaken i o s := if_neg fun h => hn.elim (fun e => absurd (e.symm.trans h.1) (by decide)) fun e => e h.2.1
  rw [hw, htor]
  by_cases ht : s.tor.tor < r.data
  · rw [if_pos ⟨h22, ht⟩, if_pos ht]
  · rw [if_neg fun h => ht h.2, if_pos h22, if_neg ht]

/-- A WAIT_TOR for a time to come suspends the operation until then. -/
theorem waitTor_suspends {r : Order} (hop : opOf i s = some o) (hm : mirrorOn s = false) (h2 : (jent i s).state = 2) (n : Nat) (hrun : Runs o) (hw : o.wait = .none) (hcur : o.cur = none)
    (hc : o.chain = none) (hr : readOrder (.subch i) (jent i s).part o.pc s = .ok r) (hb : orderBad r = false) (h22 : r.opcode = 0x22) (ht : s.tor.tor < r.data)
    (h4 : r.flags.testBit 4 = false) : Touches orderRegs s (chRunGo i (n + 2) s) ∧ opOf i (chRunGo i (n + 2) s) = some { o with jumps := 0, wait := .tor r.data } ∧
      jent i (chRunGo i (n + 2) s) = transEntry trSuspend { jent i s with orderAddr := o.pc, state := 3 } s ∧ ∀ j, j ≠ i → jent j (chRunGo i (n + 2) s) = jent j s := by
  obtain ⟨htaken, hopt, hent, -⟩ := orderTaken_spec i o hop
  rw [chRunGo_order (n + 1) hop hrun hw hcur, reachStep_waitTor hc hr hb h22 (.inl h4), if_pos ht]
  have htor : (orderTaken i o s).tor = s.tor := htaken .tor (by decide)
  have hmt : mirrorOn (orderTaken i o s) = false := (mirrorOn_of_pair (congrArg Jnl.pair (htaken .jnl (by decide)))).trans hm
  generalize orderTaken i o s = v at *
  have haddr : opAddr { o with jumps := 0 } = o.pc := by simp only [opAddr, hcur]
  have hsusp : chSuspend i v = setJent i (transEntry trSuspend { jent i s with orderAddr := o.pc, state := 3 } s) v := by
    unfold chSuspend
    rw [if_neg (by rw [hent, h2]; decide), opTrans_eq hmt hopt, hent, haddr]
    simp only [transEntry, torQuality, htor]
  rw [hsusp]
  generalize hx : transEntry trSuspend { jent i s with orderAddr := o.pc, state := 3 } s = x
  have hset := frame_setJent i x v
  have hops : opOf i (setJent i x v) = some { o with jumps := 0 } := hopt
  rw [opWait_eq hops]
  have hw' : opOf i (setOp i (some { ({ o with jumps := 0 } : ChOp) with wait := .tor r.data }) (setJent i x v)) = some { ({ o with jumps := 0 } : ChOp) with wait := .tor r.data } :=
    opOf_setOp_same i _ _
  have htor' : (setOp i (some { ({ o with jumps := 0 } : ChOp) with wait := .tor r.data }) (setJent i x v)).tor = s.tor := htor
  rw [chRunGo_waitsTor n hw' rfl (by rw [htor']; exact ht)]
  exact ⟨((htaken.mono (by decide)).andThen hset).andThen (frame_setOp i _ _), hw', jent_setJent_same i x v, fun j hj => (jent_setJent_other hj x v).trans (hent j)⟩

/-- What a WAIT_TOR leaves whose time has come, before the program goes on. -/
def waitEnded (i : Nat) (o : ChOp) (s : State) : State :=
  setJent i (transEntry trRelease { jent i s with orderAddr := o.pc, state := 2 } s) (orderTaken i o s)

theorem waitEnded_spec (hop : opOf i s = some o) : Touches orderRegs s (waitEnded i o s) ∧ opOf i (waitEnded i o s) = some { o with jumps := 0 } ∧
    jent i (waitEnded i o s) = transEntry trRelease { jent i s with orderAddr := o.pc, state := 2 } s ∧ (∀ j, j ≠ i → jent j (waitEnded i o s) = jent j s) ∧ NoAsk s (waitEnded i o s) := by
  obtain ⟨htaken, hopt, hent, hask⟩ := orderTaken_spec i o hop
  unfold waitEnded
  generalize orderTaken i o s = v at *
  generalize transEntry trRelease { jent i s with orderAddr := o.pc, state := 2 } s = x
  exact ⟨(htaken.mono (by decide)).andThen (frame_setJent i x v), hopt, jent_setJent_same i x v, fun j hj => (jent_setJent_other hj x v).trans (hent j), hask.trans (noAsk_of_arm rfl)⟩

theorem pair_waitEnded (hop : opOf i s = some o) : (waitEnded i o s).jnl.pair = s.jnl.pair :=
  (congrArg Jnl.pair ((orderTaken_spec i o hop).1 .jnl (by decide) :) : (orderTaken i o s).jnl.pair = s.jnl.pair)

theorem reachStep_waitEnded {r : Order} (hop : opOf i s = some o) (hm : mirrorOn s = false) (h3 : (jent i s).state = 3) {t0 : Nat} (hw : o.wait = .tor t0) (hcur : o.cur = none)
    (hc : o.chain = none) (hr : readOrder (.subch i) (jent i s).part o.pc s = .ok r) (hb : orderBad r = false) (h22 : r.opcode = 0x22) (ht : ¬ s.tor.tor < r.data) :
    reachStep i o s = orderNext i r (waitEnded i o s) := by
  obtain ⟨htaken, hopt, hent, -⟩ := orderTaken_spec i o hop
  rw [reachStep_waitTor hc hr hb h22 (.inr (by simp [hw])), if_neg ht, if_pos (by rw [hent, h3])]
  have htor : (orderTaken i o s).tor = s.tor := htaken .tor (by decide)
  have hmt : mirrorOn (orderTaken i o s) = false := (mirrorOn_of_pair (congrArg Jnl.pair (htaken .jnl (by decide)))).trans hm
  unfold waitEnded
  generalize orderTaken i o s = v at *
  have haddr : opAddr { o with jumps := 0 } = o.pc := by simp only [opAddr, hcur]
  rw [opTrans_eq hmt hopt, hent, haddr]
  simp only [transEntry, torQuality, htor]

/-- A run of a program in storage, whatever it read, leaves no step due. -/
theorem done_ordered {w : State} (hs : Safety.settled s) (hg : Safety.graceful s) (h : Touches (.offers :: orderRegs) s w) : ∃ t, done s w = .next t ∧ t.ch = w.ch ∧ t.jnl = w.jnl ∧ t.offers = w.offers := by
  obtain ⟨t, hdone, htold⟩ := done_told (b := s) (due_of_still (h .still (by decide)) hs hg) (h .pending (by decide))
  exact ⟨t, hdone, htold .ch (by decide), htold .jnl (by decide), htold .offers (by decide)⟩

/-! ### Configuration -/

theorem exec_csSubchWrite (ho : operating s = true) (v : View) (val : Long) : exec (.csSubchWrite v i val) s = done s (writeSubch v i val s) := if_pos ho

theorem writeSubch_ignored {v : View} {val : Long} (h : subWriter v i s = false ∨ (jent i s).state ≠ 0 ∨ partnerSub i s = true ∨
    portNameOk (subchPart i s) (subCfgOf val.toNat).port0 s = false ∨ portNameOk (subchPart i s) (subCfgOf val.toNat).port1 s = false) : writeSubch v i val s = s := by
  unfold writeSubch
  extract_lets owner c
  refine (Decidable.em (262144 ≤ i ∨ !subWriter v i s ∨ (jent i s).state ≠ 0 ∨ partnerSub i s)).elim (fun hd => if_pos hd) fun hd => ?_
  refine (if_neg hd).trans (if_pos ?_)
  rcases h with h | h | h | h | h
  · exact absurd (.inr (.inl (by simp [h]))) hd
  · exact absurd (.inr (.inr (.inl h))) hd
  · exact absurd (.inr (.inr (.inr h))) hd
  · exact .inl (by simp [owner, c, h])
  · exact .inr (by simp [owner, c, h])

theorem writeSubch_spec {v : View} {val : Long} (hi : i < 262144) (hw : subWriter v i s = true) (h0 : (jent i s).state = 0) (hp : partnerSub i s = false)
    (hp0 : portNameOk (subchPart i s) (subCfgOf val.toNat).port0 s = true) (hp1 : portNameOk (subchPart i s) (subCfgOf val.toNat).port1 s = true) :
    Touches [.ch, .dx] s (writeSubch v i val s) ∧ (∀ j, subOf j (writeSubch v i val s) = if j = i then subCfgOf val.toNat else subOf j s) := by
  unfold writeSubch
  extract_lets owner c x w
  rw [if_neg (by simp [hw, h0, hp, hi]), if_neg (by simp [owner, c, hp0, hp1])]
  have hset : Touches [.ch] s w := frame_ch s _
  have hsub : ∀ j, subOf j w = if j = i then subCfgOf val.toNat else subOf j s := fun j => tget_tset ..
  split
  · exact ⟨(hset.mono (by decide)).andThen (frame_dx w _), hsub⟩
  · exact ⟨hset.mono (by decide), hsub⟩

/-! ### PRIORITY_AGING -/

theorem aged_iff {x : Option ChOp} (hop : x = some o) (n : Nat) : x.any (fun o => decide (o.started + 10 * ticksMs ≤ n)) = decide (o.started + 40000000 ≤ n) := by
  have hticks : 10 * ticksMs = 40000000 := rfl
  rw [hticks, hop, Option.any_some]

theorem exec_priorityAging (ho : operating s = true) (hop : opOf i s = some o) (h1 : (jent i s).state = 1) :
    exec (.priorityAging i) s = if o.started + 40000000 ≤ s.tor.tor then done s (setOp i (some { o with aged := true }) s) else .next s := by
  change execPriorityAging i s = _
  unfold execPriorityAging
  rw [aged_iff hop, modOp_eq hop]
  by_cases ht : o.started + 40000000 ≤ s.tor.tor
  · rw [if_pos ⟨ho, h1, decide_eq_true ht⟩, if_pos ht]
  · rw [if_neg fun h => ht (of_decide_eq_true h.2.2), if_neg ht]

end

/-- Settles O42, by what each step of a program leaves. -/
theorem subchannelConfigurationAndWaits : Obligations.SubchannelConfigurationAndWaits := by
  unfold Obligations.SubchannelConfigurationAndWaits
  refine ⟨fun v i val s hs ho hi => ⟨fun h => ?_, fun hw h0 hp0 hp1 hp => ?_⟩, fun s hub i k o hs ho hh hn hk hop h1 hm => ?_, fun s hub hs h => ?_,
    fun s i o r hs hg ho hop hm hhalt hend hreach hport hcur hchain hr hb h22 => ⟨fun hub k hh hn hk h1 hw ht h4 => ?_, fun t0 hw h3 hmir hcp hpend hmod => ⟨fun ht => ?_, fun ht hdata h0 => ?_,
      fun ht hdata h0 => ?_⟩⟩, fun s i o hs ho hop h1 => ⟨fun ht => ?_, fun ht => ?_⟩⟩
  · rw [exec_csSubchWrite ho, writeSubch_ignored h]
    exact done_framed (.refl [] s) hs
  · obtain ⟨hframe, hsub⟩ := writeSubch_spec hi hw h0 hp hp0 hp1
    obtain ⟨t, hdone, htold⟩ := done_told (b := s) ((hframe .due (by decide)).trans hs) (hframe .pending (by decide))
    have hof : ∀ j, subOf j t = subOf j (writeSubch v i val s) := subOf_of_ch (htold .ch (by decide))
    exact ⟨t, (exec_csSubchWrite ho v val).trans hdone, ((hof i).trans (hsub i)).trans (if_pos rfl), fun j hj => ((hof j).trans (hsub j)).trans (if_neg hj),
      (htold .jnl (by decide)).trans (hframe .jnl (by decide)), (htold .sto (by decide)).trans (hframe .sto (by decide)), (htold .cpu (by decide)).trans (hframe .cpu (by decide)),
      (htold .flt (by decide)).trans (hframe .flt (by decide))⟩
  · have hframe := frame_opTaken i k o s
    have hent := jent_opTaken i k o s
    refine ⟨_, opTaken i k o s, (if_pos ⟨ho, hh⟩ : exec (.cpTake hub) s = _), by rw [cpTake_eq hn hk hop h1 hm], opOf_opTaken i k o s, ?_, ?_, ?_, ?_, fun j hj => opTaken_others i k o s hj,
      hframe .sto (by decide), hframe .cpu (by decide), hframe .flt (by decide), hframe .out (by decide)⟩ <;> rw [hent] <;> rfl
  · by_cases hc : operating s = true ∧ hub < 2
    · exact (if_pos hc : exec (.cpTake hub) s = _).trans (by rw [cpTake_none h]; exact done_framed (.refl [] s) hs)
    · exact if_neg hc
  · have hframe := frame_opTaken i k o s
    have hr' : readOrder (.subch i) (jent i (opTaken i k o s)).part o.pc (opTaken i k o s) = .ok r := by
      rw [jent_opTaken]
      exact hr
    obtain ⟨hrest, hopw, hentw, hothers⟩ := waitTor_suspends (s := opTaken i k o s) (n := 4094) (opOf_opTaken i k o s)
      ((mirrorOn_of_pair (by rfl)).trans hm) (by rw [jent_opTaken]; rfl) ⟨hhalt, hend, hreach, rfl⟩ hw hcur hchain hr' hb h22 ht h4
    have hexec : exec (.cpTake hub) s = done s (chRunGo i (4094 + 2) (opTaken i k o s)) := (if_pos ⟨ho, hh⟩ : exec (.cpTake hub) s = _).trans (by rw [cpTake_eq hn hk hop h1 hm]; rfl)
    generalize chRunGo i (4094 + 2) (opTaken i k o s) = w at *
    obtain ⟨t, hdone, hch, hjnl, -⟩ := done_ordered (w := w) hs hg ((hframe.mono (by decide)).trans (hrest.mono (by decide)))
    have hent : jent i t = transEntry trSuspend { jent i (opTaken i k o s) with orderAddr := o.pc, state := 3 } (opTaken i k o s) := (jent_of_jnl hjnl i).trans hentw
    refine ⟨t, _, hexec.trans hdone, (opOf_of_ch hch i).trans hopw, rfl, rfl, ?_, ?_, ?_, ?_, fun j hj => ((jent_of_jnl hjnl j).trans (hothers j hj)).trans (opTaken_others i k o s hj).2⟩
    · rw [hent]; rfl
    · rw [hent]; rfl
    · rw [hent]; rfl
    · rw [hent, jent_opTaken]; rfl
  · exact if_neg (by simp [waitTorDue, hop, hw, Nat.not_le.mpr ht])
  · have hrun : Runs o := ⟨hhalt, hend, hreach, hcp⟩
    have hexec : exec (.waitTorExpiry i) s = done s (chRunGo i (4095 + 1) s) := if_pos (by simp [ho, waitTorDue, hop, hw, ht])
    rw [hexec, chRunGo_tor 4095 hop hrun hw ht, reachStep_waitEnded hop hm h3 hw hcur hchain hr hb h22 (by omega)]
    obtain ⟨-, hopu, hentu, -, -⟩ := waitEnded_spec (i := i) hop
    refine ⟨_, rfl, ?_⟩
    generalize waitEnded i o s = v at *
    have hnext : orderNext i r v = setOp i (some { ({ o with jumps := 0 } : ChOp) with pc := (r.addr + 32) % 2 ^ 64, wait := .none }) v := (if_pos h0).trans (modOp_eq hopu _)
    rw [hnext]
    refine ⟨?_, ?_, _, opOf_setOp_same i _ v, rfl, rfl⟩
    · exact (congrArg JEntry.state hentu).trans rfl
    · exact (congrArg JEntry.trans hentu).trans rfl
  · have hrun : Runs o := ⟨hhalt, hend, hreach, hcp⟩
    have hexec : exec (.waitTorExpiry i) s = done s (chRunGo i (4094 + 2) s) := if_pos (by simp [ho, waitTorDue, hop, hw, ht])
    rw [hexec, chRunGo_tor (4094 + 1) hop hrun hw ht, reachStep_waitEnded hop hm h3 hw hcur hchain hr hb h22 (by omega)]
    obtain ⟨hframe, hopu, hentu, hothers, hask⟩ := waitEnded_spec (i := i) hop
    have hmu : mirrorOn (waitEnded i o s) = false := (mirrorOn_of_pair (pair_waitEnded hop)).trans hm
    have htoru : (waitEnded i o s).tor = s.tor := hframe .tor (by decide)
    have hau := agentPending_of_noAsk hask hpend
    generalize waitEnded i o s = v at *
    have hnext : orderNext i r v = chEnd i { dev := o.lastDev, resid := o.lastRes, length := o.lastLen, addr := (r.addr + 32) % 2 ^ 64, halted := o.halted } v := by
      refine (if_neg (by simp [h0])).trans ?_
      simp only [progEnd, hopu]
    obtain ⟨hfinal, hgone, hents, -, hoffer⟩ := chEnd_spec hmu hopu hau { dev := o.lastDev, resid := o.lastRes, length := o.lastLen, addr := (r.addr + 32) % 2 ^ 64, halted := o.halted }
    rw [hnext, chRunGo_over 4094 hgone]
    obtain ⟨t, hdone, hch, hjnl, hoffers⟩ := done_ordered hs hg ((hframe.mono (by decide)).andThen hfinal)
    have hmirv : (jent i v).mirror = false := by rw [hentu]; exact hmir
    obtain ⟨x, hx, hxi, hxint, hxpart, hxparam⟩ := hoffer hmirv
    have hparam : finalParam o (jent i v) = (jent i s).param := by
      unfold finalParam
      rw [hmod, hentu]
      rfl
    have hent := (jent_of_jnl hjnl i).trans ((hents i).trans (if_pos rfl))
    have htor : (jent i t).tor = v.tor.tor := by rw [hent]; rfl
    refine ⟨t, hdone, (opOf_of_ch hch i).trans hgone, ?_, ?_, htor.trans (congrArg (fun x => x.tor) htoru), ?_, ?_, ⟨x, hoffers ▸ hx, hxi, hxint, ?_, hxparam.trans hparam⟩,
      fun j hj => ((jent_of_jnl hjnl j).trans ((hents j).trans (if_neg hj))).trans (hothers j hj)⟩
    · rw [hent]; rfl
    · rw [hent]; rfl
    · rw [hent]; rfl
    · rw [hent]; rfl
    · rw [hxpart, hentu]; rfl
  · rw [exec_priorityAging ho hop h1, if_pos ht]
    exact done_framed (frame_setOp i _ s) hs
  · rw [exec_priorityAging ho hop h1, if_neg (by omega)]

end Sys2Proof.Machine
end


section
set_option Elab.async false
/-! PROOFS. O60: register writes. -/

namespace Sys2Proof.Machine

section
variable {s : State} {off : Nat} {val : Long} {r : Reg}

/-! ### What an offset names -/

/-- A queue's register is that of one of the 256 queues of the Rasp or the Intaglio: what the service core has a view of. -/
def OpenToService : Reg → Prop
  | .qDb b q => b ≠ .mailbox ∧ q < 256
  | .qCmd b q => b ≠ .mailbox ∧ q < 256
  | _ => True

/-- An offset that names a register names one of those. -/
def NamesOpen (x : Option Reg) : Prop := ∀ r, x = some r → OpenToService r

theorem namesOpen_none : NamesOpen none := fun _ h => absurd h (by simp)

theorem namesOpen_ite {c : Prop} [Decidable c] {x y : Option Reg} (h : c → NamesOpen x) (k : ¬ c → NamesOpen y) : NamesOpen (if c then x else y) := by
  split
  · exact h ‹_›
  · exact k ‹_›

theorem namesOpen_oneReg (k : Nat) (r : Reg) (off : Nat) : NamesOpen (oneReg k r off) ↔ (off = k → OpenToService r) := by
  simp [NamesOpen, oneReg]

theorem namesOpen_map (f : Nat → Reg) (x : Option Nat) : NamesOpen (x.map f) ↔ ∀ n, x = some n → OpenToService (f n) := by
  simp [NamesOpen]

theorem namesOpen_firstReg : ∀ {xs : List (Option Reg)}, (∀ x ∈ xs, NamesOpen x) → NamesOpen (firstReg xs)
  | [], _ => namesOpen_none
  | some _ :: _, h => h _ List.mem_cons_self
  | none :: xs, h => namesOpen_firstReg (xs := xs) (List.forall_mem_cons.mp h).2

theorem namesOpen_queueReg {b : QBlock} {q : Nat} (hb : b ≠ .mailbox) (hq : q < 256) (o : Nat) : NamesOpen (queueReg b q o) :=
  namesOpen_firstReg (by simp [namesOpen_oneReg, OpenToService, hb, hq])

theorem namesOpen_lnkReg (p : PortId) (o : Nat) : NamesOpen (lnkReg p o) :=
  namesOpen_firstReg (by simp [namesOpen_oneReg, namesOpen_map, OpenToService])

theorem namesOpen_raspReg (o : Nat) : NamesOpen (raspReg o) :=
  namesOpen_ite (fun h => namesOpen_ite (fun k => namesOpen_queueReg (by decide) (by omega) _) fun _ => namesOpen_none) fun _ => by simp [namesOpen_map, OpenToService]

theorem namesOpen_intReg (o : Nat) : NamesOpen (intReg o) :=
  namesOpen_ite (fun _ => by simp [namesOpen_map, OpenToService]) fun _ => namesOpen_ite
    (fun _ => namesOpen_ite (fun _ => namesOpen_queueReg (by decide) (by omega) _) fun _ => namesOpen_none) fun _ => by simp [namesOpen_map, OpenToService]

theorem namesOpen_armReg (o : Nat) : NamesOpen (armReg o) :=
  namesOpen_ite (fun _ => namesOpen_ite (fun _ => namesOpen_lnkReg _ _) fun _ => namesOpen_none) fun _ =>
    namesOpen_firstReg (by simp [namesOpen_oneReg, namesOpen_map, OpenToService])

theorem namesOpen_chReg (o : Nat) : NamesOpen (chReg o) :=
  namesOpen_ite (fun _ => namesOpen_lnkReg _ _) fun _ => namesOpen_firstReg (by simp [namesOpen_oneReg, namesOpen_map, OpenToService])

theorem namesOpen_decodeReg (off : Nat) : NamesOpen (decodeReg off) := by
  unfold decodeReg
  extract_lets o
  refine namesOpen_ite (fun _ => namesOpen_none) fun _ => namesOpen_ite (fun _ => ?id) fun _ => namesOpen_ite (fun _ => ?pln) fun _ => namesOpen_ite (fun _ => ?tor) fun _ =>
    namesOpen_ite (fun _ => ?flt) fun _ => namesOpen_ite (fun _ => ?pwr) fun _ => namesOpen_ite (fun _ => namesOpen_ite (fun _ => ?core) fun _ => namesOpen_none) fun _ => ?block
  case block =>
    split
    · exact namesOpen_ite (fun _ => namesOpen_firstReg (by simp [namesOpen_oneReg, namesOpen_map, OpenToService])) fun _ => namesOpen_none
    · exact namesOpen_firstReg (by simp [namesOpen_map, OpenToService])
    · exact namesOpen_armReg o
    · exact namesOpen_chReg o
    · exact namesOpen_raspReg o
    · exact namesOpen_intReg o
    · exact namesOpen_firstReg (by simp [namesOpen_oneReg, namesOpen_map, OpenToService])
    · exact namesOpen_firstReg (by simp [namesOpen_oneReg, namesOpen_map, OpenToService])
    · exact namesOpen_firstReg (by simp [namesOpen_oneReg, namesOpen_map, OpenToService])
    · exact namesOpen_firstReg (by simp [namesOpen_oneReg, namesOpen_map, OpenToService])
    · exact namesOpen_none
  all_goals exact namesOpen_firstReg (by simp [namesOpen_oneReg, namesOpen_map, OpenToService])

/-! ### What a write does -/

/-- A register without a field to write takes nothing. -/
theorem writeReg_readOnly (h : hasWrite r = false) (v : View) : writeReg v r val s = s := by
  unfold writeReg
  split
  · rfl
  · cases r <;> simp_all [hasWrite]

/-- A module that is not in operation takes a write to few registers. -/
theorem held_ite (t : State) : (if !operating s && !false then s else t) = if operating s then t else s := by
  cases operating s <;> rfl

theorem powered_of_operates (h : operating s = true) : powered s = true := powered_of_operating h

theorem exec_registerWrite (v : View) : exec (.registerWrite v off val) s = if powered s then done s (regWrite v off val s) else .next s := rfl

theorem regWrite_service (h : decodeReg off = some r) : regWrite .service off val s = writeReg .service r val s := by simp only [regWrite, h]

theorem regWrite_part {p : Nat} (h : decodeReg off = some r) : regWrite (.part p) off val s = if partWritable p r s then writeReg (.part p) r val s else s := by
  simp only [regWrite, ctlWritePart, h]

/-- A register that only a module in operation takes acts as the operation that it is. -/
theorem exec_operated {v : View} (hs : Safety.settled s) (t : State) (h : regWrite v off val s = if operating s then t else s) :
    exec (.registerWrite v off val) s = if operating s then done s t else .next s := by
  rw [exec_registerWrite, h]
  by_cases ho : operating s = true
  · rw [if_pos ho, if_pos (powered_of_operates ho), if_pos ho]
  · rw [if_neg ho, if_neg ho, done_framed (.refl [] s) hs, ite_self]

/-- A register of plain fields takes them. -/
theorem exec_plain {t : State} (ho : operating s = true) (hr : decodeReg off = some r) (hw : writeReg .service r val s = t) (hd : done s t = .next t) :
    exec (.registerWrite .service off val) s = .next t := by
  rw [exec_registerWrite, if_pos (powered_of_operates ho), regWrite_service hr, hw, hd]

theorem fld_lt (w : Long) (hi lo : Nat) : fld w hi lo < 2 ^ (hi + 1 - lo) := Nat.mod_lt _ (Nat.two_pow_pos _)

theorem mayQueue_service {b : QBlock} {q : Nat} (hb : b ≠ .mailbox) (hq : q < 256) : mayQueue .service b q s = true := by
  simp [mayQueue, hb, hq, admin]

theorem exec_countUr {fn : Nat} {v : View} (hs : Safety.settled s) (hp : powered s = true) (h : regWrite v off val s = countUr fn s) :
    exec (.registerWrite v off val) s = .next (countUr fn s) := by
  rw [exec_registerWrite, if_pos hp, h]
  unfold countUr
  split
  · exact done_framed (frame_pf0 s _) hs
  · exact done_framed (frame_pf1 s _) hs

end

/-- Settles O60, by the register that the offset names. -/
theorem registerWritesActAsTheirCommands : Obligations.RegisterWritesActAsTheirCommands := by
  unfold Obligations.RegisterWritesActAsTheirCommands
  intro v off val s hs
  refine ⟨fun hp => if_neg (by simp [hp]), fun h => ?_, fun p r hr h => ?_, fun hp h => ?_, fun hp h => ?_, fun b q h => ?_, fun b q h => ?_, fun h => ?_, fun n h => ?_, fun h hf => ?_, fun p h hf => ?_,
    fun ho => ?_⟩
  · have hsame : regWrite .service off val s = s := by
      rcases h with h | ⟨r, h, hw⟩
      · simp only [regWrite, h]
      · exact (regWrite_service h).trans (writeReg_readOnly hw _)
    rw [exec_registerWrite, hsame, done_framed (.refl [] s) hs, ite_self]
  · rw [exec_registerWrite, regWrite_part hr, h, if_neg Bool.false_ne_true, done_framed (.refl [] s) hs, ite_self]
  · exact exec_countUr (fn := 0) hs hp (if_pos (by simpa using h))
  · exact exec_countUr (fn := 1) hs hp (if_pos (by simpa using h))
  · have ⟨hb, hq⟩ : b ≠ .mailbox ∧ q < 256 := namesOpen_decodeReg off _ h
    rw [exec_operated hs (doorbell b q (fld val 63 48) (fld val 47 32) s) ((regWrite_service h).trans (held_ite _))]
    exact (ite_cond_congr (by simp [mayQueue_service hb hq])).symm
  · have ⟨hb, hq⟩ : b ≠ .mailbox ∧ q < 256 := namesOpen_decodeReg off _ h
    have hcmd : exec (.registerWrite .service off val) s = if operating s then done s (queueStep b q (fld val 63 60) s) else .next s :=
      exec_operated hs _ ((regWrite_service h).trans (held_ite _))
    rw [hcmd]
    refine ⟨fun hf => ?_, fun hf => ?_, fun hf => ?_⟩ <;> rw [hf] <;> exact (ite_cond_congr (by simp [mayQueue_service hb hq])).symm
  · have hcmd : exec (.registerWrite .service off val) s = if operating s then done s (writeAttCmd val s) else .next s :=
      exec_operated hs _ ((regWrite_service h).trans (held_ite _))
    rw [hcmd]
    unfold writeAttCmd
    refine ⟨fun hf => ?_, fun hf => ?_⟩ <;> rw [hf] <;> exact (ite_cond_congr (by simp [admin])).symm
  · have hcmd : exec (.registerWrite (.part n) off val) s = if operating s then done s (pattWrite n val s) else .next s :=
      exec_operated hs _ ((regWrite_part h).trans ((if_pos (beq_self_eq_true n)).trans (held_ite _)))
    rw [hcmd]
    exact (ite_cond_congr (by simp)).symm
  · have hcmd : exec (.registerWrite .service off val) s = if operating s then done s (if fld val 63 60 = 1 then commitWindows (fld val 59 43) s else _) else .next s :=
      exec_operated hs _ ((regWrite_service h).trans (held_ite _))
    have hmask : (BitVec.ofNat 17 (fld val 59 43)).toNat = fld val 59 43 := by
      rw [BitVec.toNat_ofNat]
      exact Nat.mod_eq_of_lt (fld_lt val 59 43)
    rw [hcmd, if_pos hf]
    change _ = execCommit .service _ s
    unfold execCommit
    rw [hmask]
    exact (ite_cond_congr (by simp [admin])).symm
  · have hcmd : exec (.registerWrite (.part p) off val) s = if operating s then done s (qpCommand p val s) else .next s :=
      exec_operated hs _ ((regWrite_part h).trans ((if_pos rfl).trans (held_ite _)))
    have hkind : fld val 59 58 % 4 = fld val 59 58 := Nat.mod_eq_of_lt (fld_lt val 59 58)
    have hq : fld val 57 52 < 64 := fld_lt val 57 52
    rw [hcmd]
    change _ = execClaim (.part p) _ _ s
    unfold qpCommand execClaim
    simp only [hf, hkind, hq, and_true]
  · exact ⟨exec_plain ho rfl (if_neg (by simp [ho])) (done_framed (frame_pln s _) hs), exec_plain ho rfl (if_neg (by simp [ho])) (done_framed (frame_cs s _) hs),
      exec_plain ho rfl (if_neg (by simp [ho])) (done_framed (frame_hp s _) hs), exec_plain ho rfl (if_neg (by simp [ho])) (done_framed (frame_jnl s _) hs),
      exec_plain ho rfl (if_neg (by simp [ho])) (done_quiet hs rfl (sameReport_of_frame (frame_flt s _) (by decide) (by decide) (by decide)))⟩

end Sys2Proof.Machine
end


section
set_option Elab.async false
/-! PROOFS. O43: a device order in progress. -/

namespace Sys2Proof.Machine

section
variable {s t u w : State} {i n : Nat} {o : ChOp} {d : DevOrd} {v : EndVals}

/-! ### What leaves to the device, and what is notified -/

theorem frame_pushData {fin : Bool} {data : List Byte} : Touches sendRegs s (pushData i fin data s) := by
  unfold pushData
  split
  · exact .refl _ s
  · split
    · exact .refl _ s
    · exact (((frame_emits s _).mono (by decide)).trans ((frame_setSent _ (.ch _) (by exact sameLink_of rfl rfl)).mono (by decide))).trans (frame_txDrain _ _ _)

/-- A notification leaves the operation as it is but for what is notified. -/
theorem chNotify_spec (hop : opOf i s = some o) (a : Nat) : Touches [.ch, .offers] s (chNotify i a s) ∧ ∃ x, opOf i (chNotify i a s) = some { o with inter := x } := by
  unfold chNotify
  extract_lets e c
  refine (Decidable.em (e.mirror = true)).elim (fun h => ?_) fun h => ?_
  · rw [if_pos h]
    exact ⟨.refl _ s, o.inter, hop⟩
  · rw [if_neg h]
    have hc : c = setOp i (some { o with inter := some (s.tor.tor, torQuality s, a) }) s := modOp_eq hop _
    have hset : Touches [.ch, .offers] s c := hc ▸ (frame_setOp i _ s).mono (by decide)
    have hopc : opOf i c = some { o with inter := some (s.tor.tor, torQuality s, a) } := hc ▸ opOf_setOp_same i _ s
    split
    · exact ⟨hset, _, hopc⟩
    · exact ⟨hset.andThen (frame_offers c _), _, hopc⟩

/-- An element whose first byte has moved is notified once. -/
def notifyElem (i k : Nat) (d : DevOrd) (r : Nat × State) (e : Elem) : Nat × State :=
  (r.1 + e.len, if e.first && e.notify && e.order != d.first && decide (d.begun ≤ r.1) && decide (r.1 < k) then chNotify i e.order r.2 else r.2)

theorem notifyElem_spec {r : Nat × State} (hop : opOf i r.2 = some o) (k : Nat) (d : DevOrd) (e : Elem) :
    Touches [.ch, .offers] r.2 (notifyElem i k d r e).2 ∧ ∃ x, opOf i (notifyElem i k d r e).2 = some { o with inter := x } := by
  unfold notifyElem
  dsimp only
  split
  · exact chNotify_spec hop _
  · exact ⟨.refl _ r.2, o.inter, hop⟩

theorem notifyElems_spec (k : Nat) (d : DevOrd) (xs : List Elem) : ∀ {r : Nat × State} {o : ChOp}, opOf i r.2 = some o →
    Touches [.ch, .offers] r.2 (xs.foldl (notifyElem i k d) r).2 ∧ ∃ x, opOf i (xs.foldl (notifyElem i k d) r).2 = some { o with inter := x } := by
  induction xs with
  | nil => exact fun {r o} h => ⟨.refl _ r.2, o.inter, h⟩
  | cons e xs ih =>
    intro r o h
    obtain ⟨hframe, x, hx⟩ := notifyElem_spec h k d e
    obtain ⟨hrest, y, hy⟩ := ih hx
    exact ⟨hframe.trans hrest, y, hy⟩

theorem chBegin_spec (hop : opOf i s = some o) (hcur : o.cur = some d) (k : Nat) : Touches [.ch, .offers] s (chBegin i k s) ∧
    ∃ x, opOf i (chBegin i k s) = some { o with inter := x, cur := some { d with begun := max d.begun k } } := by
  have heq : chBegin i k s = modOp i (fun o => { o with cur := o.cur.map (fun d => { d with begun := max d.begun k }) }) (d.elems.foldl (notifyElem i k d) (0, s)).2 := by
    unfold chBegin
    simp only [hop, hcur]
    rfl
  obtain ⟨hframe, x, hx⟩ := notifyElems_spec k d d.elems (r := (0, s)) hop
  rw [heq, modOp_eq hx]
  exact ⟨hframe.andThen (frame_setOp i _ _), x, by rw [opOf_setOp_same]; simp only [hcur, Option.map_some]⟩

/-! ### Steps of a device order -/

/-- A WRITE whose data is ready is put out. -/
theorem devStep_push {out : List Byte} (hop : opOf i s = some o) (hcur : o.cur = some d) (hsent : d.sent = true) (hst : d.status = none) (hin : isIn d = false) (hpush : d.pushed = false) (hline : o.line = none)
    (hrel : o.released = true) (hout : d.out = some out) : devStep i o d s = chBegin i d.count
      (if d.count = 0 then setOp i (some { o with cur := some { d with pushed := true } }) s else pushData i true out (setOp i (some { o with cur := some { d with pushed := true } }) s)) := by
  have hmod : modCur i (fun d => { d with pushed := true }) s = setOp i (some { o with cur := some { d with pushed := true } }) s := by
    rw [modCur, modOp_eq hop, hcur, Option.map_some]
  unfold devStep
  rw [if_neg (by simp [hsent])]
  simp only [hst, hin, hpush, hline, hout, hrel, hmod, Bool.false_eq_true, if_false, Bool.not_true, and_false]

theorem devStep_pushed (hsent : d.sent = true) (hst : d.status = none) (hin : isIn d = false) (hpush : d.pushed = true) : devStep i o d s = opWait i .device s := by
  unfold devStep
  rw [if_neg (by simp [hsent])]
  simp only [hst, hin, hpush, Bool.false_eq_true, if_false, if_true]

theorem finishRead_without (hop : opOf i s = some o) (hcur : o.cur = some d) (h0 : d.eng = 0) : finishRead i s = s := by
  unfold finishRead
  simp only [hop, hcur, h0, true_or, if_true]

theorem devStep_status {dev r : Nat} {fin : Bool} (hop : opOf i s = some o) (hcur : o.cur = some d) (hsent : d.sent = true) (hst : d.status = some (dev, fin, r)) (h0 : d.eng = 0)
    (hw : o.wait = .none) (hh : o.halt = none) : devStep i o d s = orderEnd i dev fin r s := by
  unfold devStep
  rw [if_neg (by simp [hsent])]
  simp only [hst, finishRead_without hop hcur h0, hop, hw, hh]
  rfl

theorem orderResid_write {r : Nat} (h10 : d.opcode = 0x10) (h0 : d.eng = 0) (hc : d.count < 2 ^ 32) : orderResid d r s = (min r d.count, decide (0 < min r d.count), s) := by
  have hfit : fit32 (min r d.count) s = (min r d.count, s) := if_pos (by omega)
  unfold orderResid
  rw [if_neg (by simp [isIn, h10]), if_neg (by simp [h0]), hfit]

theorem frame_fit32 (k : Nat) : Touches [.free] s (fit32 k s).2 := by
  unfold fit32
  split
  · exact .refl _ s
  · exact frame_free s _

theorem frame_orderResid {r : Nat} : Touches [.free] s (orderResid d r s).2.2 := by
  unfold orderResid
  split
  · exact frame_fit32 _
  · split
    · exact frame_free s _
    · exact frame_fit32 _

/-- What the last order of a program leaves of its operation, for a WRITE that no engine takes. -/
def finalVals (o : ChOp) (d : DevOrd) (dev r ord : Nat) : EndVals :=
  { dev := dev, code := 0, length := decide (0 < min r d.count), halted := o.halted, addr := d.next, resid := min r d.count, engine := 0, ack := some ord }

/-- A final STATUS of the last order ends the operation. -/
theorem orderEnd_final {dev r : Nat} (hop : opOf i s = some o) (hcur : o.cur = some d) (hport : o.port = some n) (hf : d.flags.testBit 0 = false) (hcheck : o.check = none)
    (h10 : d.opcode = 0x10) (h0 : d.eng = 0) (hc : d.count < 2 ^ 32) : orderEnd i dev true r s =
      chEnd i (finalVals o d dev r (jent i s).ordinal) s := by
  unfold orderEnd finalVals
  simp only [hop, hcur, hport, hf, hcheck, orderResid_write h10 h0 hc, Bool.false_and, Bool.false_eq_true, if_false, if_true]

/-! ### Held release -/

/-- The entry of an operation whose held WRITE is released. -/
def releasedEntry (i : Nat) (o : ChOp) (s : State) : JEntry :=
  transEntry trRelease { jent i s with orderAddr := opAddr o, state := 2, flags := (jent i s).flags ||| 16, release := o.blk.relTag } s

theorem chRelease_eq (hop : opOf i s = some o) (hm : mirrorOn s = false) :
    chRelease i s = setJent i (releasedEntry i o s) (setOp i (some { o with released := true, wait := .none }) s) := by
  unfold chRelease
  simp only [hop]
  exact opTrans_eq (s := setOp i (some { o with released := true, wait := .none }) s) hm (opOf_setOp_same i _ s) trRelease _

theorem chRelease_spec (hop : opOf i s = some o) (hm : mirrorOn s = false) : Touches [.ch, .jnl, .journal] s (chRelease i s) ∧
    opOf i (chRelease i s) = some { o with released := true, wait := .none } ∧ jent i (chRelease i s) = releasedEntry i o s := by
  rw [chRelease_eq hop hm]
  exact ⟨((frame_setOp i _ s).mono (by decide)).andThen (frame_setJent i _ _), opOf_setOp_same i _ s, jent_setJent_same i _ _⟩

theorem releaseDue_iff (hop : opOf i s = some o) (hw : o.wait = .held) : releaseDue i s = true ↔ o.blk.relTor ≤ s.tor.tor := by
  simp [releaseDue, hop, hw]

/-- An operation whose WRITE has put out its data. -/
def pushedOp (o : ChOp) (d : DevOrd) : ChOp := { o with cur := some { d with pushed := true } }

/-- The data of a WRITE leaves. -/
def dataPushed (i : Nat) (o : ChOp) (d : DevOrd) (out : List Byte) (s : State) : State :=
  if d.count = 0 then setOp i (some (pushedOp o d)) s else pushData i true out (setOp i (some (pushedOp o d)) s)

theorem dataPushed_spec (out : List Byte) : Touches (.ch :: sendRegs) s (dataPushed i o d out s) ∧ opOf i (dataPushed i o d out s) = some (pushedOp o d) := by
  have hset : Touches (.ch :: sendRegs) s (setOp i (some (pushedOp o d)) s) := (frame_setOp i _ s).mono (by decide)
  have hop := opOf_setOp_same i (some (pushedOp o d)) s
  unfold dataPushed
  split
  · exact ⟨hset, hop⟩
  · exact ⟨hset.andThen frame_pushData, (opOf_of_ch (frame_pushData .ch (by decide)) i).trans hop⟩

/-- A WRITE with its data at hand puts it out, and waits for the device. -/
theorem chRunGo_pushes {out : List Byte} (hop : opOf i s = some o) (hr : Runs o) (hw : o.wait = .none) (hcur : o.cur = some d) (hsent : d.sent = true) (hst : d.status = none)
    (hin : isIn d = false) (hpush : d.pushed = false) (hline : o.line = none) (hrel : o.released = true) (hout : d.out = some out) (k : Nat) :
    Touches (.ch :: .offers :: sendRegs) s (chRunGo i (k + 3) s) ∧ ∃ o', opOf i (chRunGo i (k + 3) s) = some o' ∧ o'.released = true ∧ o'.wait = .device := by
  obtain ⟨hput, hop2⟩ := dataPushed_spec (s := s) (i := i) (o := o) (d := d) out
  rw [chRunGo_device (k + 2) hop hr hw hcur, devStep_push hop hcur hsent hst hin hpush hline hrel hout]
  change Touches _ s (chRunGo i (k + 2) (chBegin i d.count (dataPushed i o d out s))) ∧ ∃ o', opOf i (chRunGo i (k + 2) (chBegin i d.count (dataPushed i o d out s))) = some o' ∧ _
  generalize dataPushed i o d out s = q at *
  obtain ⟨hbegin, x, hop3⟩ := chBegin_spec hop2 rfl d.count
  generalize chBegin i d.count q = z at *
  obtain ⟨o3, ho3, hr3, hw3, hrel3, d3, hcur3, hsent3, hst3, hin3, hpush3⟩ : ∃ o3, opOf i z = some o3 ∧ Runs o3 ∧ o3.wait = .none ∧ o3.released = true ∧
      ∃ d3, o3.cur = some d3 ∧ d3.sent = true ∧ d3.status = none ∧ isIn d3 = false ∧ d3.pushed = true :=
    ⟨_, hop3, ⟨hr.halt, hr.ending, hr.reach, hr.cp⟩, hw, hrel, _, rfl, hsent, hst, hin, rfl⟩
  rw [chRunGo_device (k + 1) ho3 hr3 hw3 hcur3, devStep_pushed hsent3 hst3 hin3 hpush3, opWait_eq ho3]
  have hop4 := opOf_setOp_same i (some { o3 with wait := .device }) z
  rw [chRunGo_waitsDevice k hop4 rfl]
  exact ⟨((hput.mono (by decide)).andThen hbegin).andThen (frame_setOp i _ z), _, hop4, hrel3, rfl⟩

/-! ### Frames of the device -/

theorem frameOp_some {f0 : Nat} {dev seq : Nat} {origin : Nat} (h : frameOp n origin f0 dev seq s = some o) : o.port = some n ∧ o.origin = origin := by
  unfold frameOp at h
  split at h
  next o' _ =>
    split at h
    next hc =>
      obtain rfl := Option.some.inj h
      exact ⟨hc.1, hc.2.1⟩
    next => exact absurd h (by simp)
  next => exact absurd h (by simp)

theorem exec_dataFrame (ho : operating s = true) (hn : n < 12) (ha : portActive (.ch n) s = true) {f : DataFrame} (hl : f.data.length ≤ 65520) : exec (.dataFrame n f) s = done s (dataIn n f s) :=
  if_pos ⟨ho, hn, ha, hl⟩

theorem exec_statusFrame (ho : operating s = true) (hn : n < 12) (ha : portActive (.ch n) s = true) (f : StatusFrame) : exec (.statusFrame n f) s = done s (statusIn n f s) :=
  if_pos (by simp [ho, hn, ha])

theorem dataIn_old {f : DataFrame} (h : frameOp n f.origin f.subch f.dev f.seq s = none ∨
    ∃ o, frameOp n f.origin f.subch f.dev f.seq s = some o ∧ (o.halt.isSome = true ∨ f.ordinal < (jent f.subch s).ordinal)) : dataIn n f s = s := by
  unfold dataIn
  rcases h with h | ⟨o, h, hold⟩
  · simp only [h]
  · simp only [h]
    exact if_pos hold

theorem dataIn_current {f : DataFrame} (h : frameOp n f.origin f.subch f.dev f.seq s = some o) (hh : o.halt = none) (hord : f.ordinal = (jent f.subch s).ordinal) (hcur : o.cur = some d)
    (hsent : d.sent = true) : dataIn n f s = if isIn d then takeData f.subch d f s else breachEnd f.subch n o none s := by
  unfold dataIn
  simp only [h, hh, hord, hcur, hsent, Option.isSome_none, Bool.false_eq_true, Nat.lt_irrefl, or_self, if_false, true_and]

/-- DATA of a READ that no engine takes is stored as it arrives. -/
theorem takeData_stores {f : DataFrame} (hop : opOf i s = some o) (hcur : o.cur = some d) (h0 : d.eng = 0)
    (hgood : (storeElems (.subch i) (jent i s).part d.elems f.offset (f.data.take (d.count - f.offset)) s).1 = none)
    (hch : (storeElems (.subch i) (jent i s).part d.elems f.offset (f.data.take (d.count - f.offset)) s).2.2.ch = s.ch) : Touches runRegs s (takeData i d f s) ∧
      (takeData i d f s).sto = (storeElems (.subch i) (jent i s).part d.elems f.offset (f.data.take (d.count - f.offset)) s).2.2.sto ∧
      ∃ o' d', opOf i (takeData i d f s) = some o' ∧ o'.cur = some d' ∧ d'.offset = max d.offset (f.offset + f.data.length) ∧ d'.last = (d.last || f.last) := by
  unfold takeData
  extract_lets top e r c b
  rw [if_neg (by simp [h0])]
  have hstored : Touches runRegs s r.2.2 := run_storeElems d.elems
  have hr : opOf i r.2.2 = some o := (opOf_of_ch hch i).trans hop
  have hr1 : r.1 = none := hgood
  have hset : c = setOp i (some { o with cur := some { d with offset := max d.offset top, moved := max d.moved (f.offset + r.2.1), excess := d.excess || decide (d.count < top), last := d.last || f.last } }) r.2.2 := by
    unfold c
    rw [modCur, modOp_eq hr, hcur, Option.map_some]
  have hop1 := hset ▸ opOf_setOp_same i _ r.2.2
  obtain ⟨hbegin, x, hop2⟩ := chBegin_spec hop1 rfl (min top d.count)
  have hmoved : Touches [.ch] r.2.2 c := hset ▸ frame_setOp i _ r.2.2
  rw [hr1]
  exact ⟨(hstored.trans (hmoved.mono (by decide))).andThen hbegin, (hbegin .sto (by decide)).trans (hmoved .sto (by decide)), _, _, hop2, rfl, rfl, rfl⟩

/-- DATA that engines are to take is gathered. -/
theorem takeData_gathers {f : DataFrame} (hop : opOf i s = some o) (hcur : o.cur = some d) (h0 : d.eng ≠ 0) (hpush : d.pushed = false) (hw : o.wait = .device) (hlast : f.last = false) :
    takeData i d f s = setOp i (some { o with cur := some { d with got := putBytes d.got f.offset f.data, offset := max d.offset (f.offset + f.data.length), last := d.last || f.last } }) s := by
  have hset := modOp_eq hop fun o => { o with cur := o.cur.map fun d => { d with got := putBytes d.got f.offset f.data, offset := max d.offset (f.offset + f.data.length), last := d.last || f.last } }
  rw [hcur, Option.map_some] at hset
  unfold takeData
  extract_lets top e r c b
  have he : e = _ := (if_neg (by simp [hpush])).trans hset
  rw [if_pos h0, if_neg (by simp [hlast]), he]
  exact chRunGo_waitsDevice 4095 (opOf_setOp_same i _ s) hw

/-- A STATUS of the order in progress ends it. -/
theorem statusOf_current {f : StatusFrame} (hop : opOf f.subch s = some o) (hr : Runs o) (hcur : o.cur = some d) (hsent : d.sent = true) (hstale : f.stale = false) (hfinal : f.final = true)
    (hord : f.ordinal = (jent f.subch s).ordinal) (h0 : d.eng = 0) : ∃ o' d', statusOf n o f s = chRunGo f.subch 4095 (orderEnd f.subch (f.devStatus.toNat % 16) f.final f.residual (setOp f.subch (some o') s)) ∧
      o'.cur = some d' ∧ d' = { d with status := some (f.devStatus.toNat % 16, f.final, f.residual) } ∧ o' = { o with wait := .none, cur := some d' } := by
  refine ⟨_, _, ?_, rfl, rfl, rfl⟩
  unfold statusOf
  have hc : f.ordinal = (jent f.subch s).ordinal ∧ d.sent = true := ⟨hord, hsent⟩
  extract_lets j ord again
  rw [if_neg (by simp [hstale]), if_neg (by simp [hr.halt]), if_neg (by simp [hfinal])]
  simp only [hcur, ord, j, if_pos hc, modOp_eq hop]
  have hops := opOf_setOp_same f.subch (some { o with wait := .none, cur := some { d with status := some (f.devStatus.toNat % 16, f.final, f.residual) } }) s
  change chRunGo f.subch (4095 + 1) _ = _
  rw [chRunGo_device 4095 hops ⟨hr.halt, hr.ending, hr.reach, hr.cp⟩ rfl rfl, devStep_status hops rfl hsent rfl h0 rfl hr.halt]

/-- A STATUS that answers a halt ends the operation. -/
theorem statusOf_halted {f : StatusFrame} (hh : o.halt.isSome = true) (hended : o.ended = none) (hcheck : o.check = none) (hcur : o.cur = some d) (hstale : f.stale = false) (hfinal : f.final = true) :
    statusOf n o f s = chEnd f.subch { dev := f.devStatus.toNat % 16, resid := (orderResid d f.residual s).1, length := (orderResid d f.residual s).2.1, halted := true, uncertain := o.settling, addr := opAddr o, ack := some f.ordinal }
      (orderResid d f.residual s).2.2 := by
  unfold statusOf haltAnswer
  simp only [hstale, hh, hfinal, hcur, hended, hcheck, Bool.false_eq_true, if_false, if_true]

theorem statusIn_of {f : StatusFrame} (h : frameOp n f.origin f.subch f.dev f.seq s = some o) : statusIn n f s = dxHoldCheck (statusOf n o f s) := by
  unfold statusIn
  simp only [h]

/-! ### The end -/

theorem frame_breach (i n : Nat) (s : State) : Touches eventRegs s (breach i n s) := frame_raise s (code := 0x0E) (by decide) _ _ _

/-- An operation that ends in a command. -/
theorem ended_told (hs : Safety.settled s) (hg : Safety.graceful s) (hu : Touches runRegs s u) (hm : mirrorOn u = false) (hop : opOf i u = some o) (ha : agentPending (.subch i) u = false)
    (hw : Touches [.dx] (chEnd i v u) w) : ∃ t, done s w = .next t ∧ opOf i t = none ∧ jent i t = finalEntry o v (jent i u) u ∧ t.sto = u.sto ∧ t.flt = u.flt ∧
      (∀ n k, o.port = some n → v.ack = some k → Out.frame n (ackFrame o.origin i (subOf i u).dev (jent i u).seq k) ∈ t.out) ∧
      ((jent i u).mirror = false → ∃ x ∈ t.offers, x.subch = i ∧ x.inter = false ∧ x.part = (jent i u).part ∧ x.param = finalParam o (jent i u)) := by
  obtain ⟨hend, hgone, hents, hacks, hoffer⟩ := chEnd_spec hm hop ha v
  have hall : Touches (.dx :: runRegs) s w := ((hu.mono (by decide)).trans (hend.mono (by decide))).andThen hw
  obtain ⟨t, hdone, htold⟩ := done_told (b := s) (due_of_still (hall .still (by decide)) hs hg) (hall .pending (by decide))
  have hch : t.ch = (chEnd i v u).ch := (htold .ch (by decide)).trans (hw .ch (by decide))
  have hjnl : t.jnl = (chEnd i v u).jnl := (htold .jnl (by decide)).trans (hw .jnl (by decide))
  have hout : (chEnd i v u).out <+: t.out := (hw .said (by decide) : _ <+: w.out).trans (htold .said (by decide))
  have hoff : t.offers = (chEnd i v u).offers := (htold .offers (by decide)).trans (hw .offers (by decide))
  exact ⟨t, hdone, (opOf_of_ch hch i).trans hgone, (jent_of_jnl hjnl i).trans ((hents i).trans (if_pos rfl)), ((htold .sto (by decide)).trans (hw .sto (by decide))).trans (hend .sto (by decide)),
    ((htold .flt (by decide)).trans (hw .flt (by decide))).trans (hend .flt (by decide)), fun n k hp hk => hout.subset (hacks n k hp hk), fun hmir => hoff ▸ hoffer hmir⟩

/-- An operation that an adapter's breach of the protocol ends. -/
theorem breached_told (hs : Safety.settled s) (hg : Safety.graceful s) (hu : Touches eventRegs s u) (hm : mirrorOn s = false) (hop : opOf i s = some o) (ha : agentPending (.subch i) s = false)
    (hv : v.code = 6) (hw : Touches [.dx] (chEnd i v u) w) : ∃ t, done s w = .next t ∧ opOf i t = none ∧ (jent i t).state = 5 ∧ (jent i t).chCode = 6 ∧ (jent i t).trans = 11 ∧ t.sto = s.sto := by
  have hmu : mirrorOn u = false := (mirrorOn_of_pair (congrArg Jnl.pair (hu .jnl (by decide)))).trans hm
  have hopu : opOf i u = some o := (opOf_of_ch (hu .ch (by decide)) i).trans hop
  obtain ⟨t, hdone, hgone, hent, hsto, -⟩ := ended_told hs hg (hu.mono (by decide)) hmu hopu (agentPending_of_noAsk (noAsk_of_arm (hu .arm (by decide))) ha) hw
  exact ⟨t, hdone, hgone, by rw [hent]; rfl, by rw [hent]; exact hv, by rw [hent]; rfl, hsto.trans (hu .sto (by decide))⟩

/-! ### Halts -/

theorem haltOver_iff {x : Option Nat} {t0 : Nat} (h : x = some t0) (k : Nat) : (x.any (fun t => decide (t + ticksS ≤ k)) = true) ↔ t0 + 4000000000 ≤ k := by
  have hticks : ticksS = 4000000000 := rfl
  rw [hticks, h, Option.any_some, decide_eq_true_iff]

theorem exec_haltTimeout (ho : operating s = true) (hop : opOf i s = some o) (he : o.ending = none) {t0 : Nat} (hh : o.halt = some t0) :
    exec (.haltTimeout i) s = if t0 + 4000000000 ≤ s.tor.tor then done s (haltTimeout i o s) else .next s := by
  change execHaltTimeout i s = _
  unfold execHaltTimeout
  simp only [hop]
  by_cases ht : t0 + 4000000000 ≤ s.tor.tor
  · rw [if_pos ⟨ho, by simp [he], (haltOver_iff hh _).mpr ht⟩, if_pos ht]
  · rw [if_neg fun h => ht ((haltOver_iff hh _).mp h.2.2), if_neg ht]

theorem endFlags_halted (o : ChOp) (v : EndVals) (h : v.halted = true) : (endFlags o v).testBit 2 = true := by
  unfold endFlags
  rw [h]
  cases v.length <;> cases o.redriven <;> cases o.released <;> cases v.uncertain <;> rfl

end

/-- Settles O43, by the frame or the time that the operation waits for. -/
theorem deviceOrdersTransferAndEnd : Obligations.DeviceOrdersTransferAndEnd := by
  unfold Obligations.DeviceOrdersTransferAndEnd
  intro s i o d hs hg ho hop hm hreach hcp hend hmod hpend hcur hsent hst
  refine ⟨fun hw hh => ⟨fun ht => ?_, fun ht => ?_, fun n out h10 hpush hline ht hport hout => ?_⟩,
    fun n f hn ha hl => ⟨fun hf => ?_, fun hf hi h => ?_, fun hf hi hh hord hin h0 hgood hch => ?_, fun hf hi hh hord hin h0 hpush hw hlast => ?_, fun hf hi hh hord hin => ?_⟩,
    fun n f hn ha hf hi hstale hfinal => ⟨fun hh hw hord h10 h0 hflag hcount hcheck hmir => ?_, fun hh hended hcheck => ?_⟩, fun t0 hh => ⟨fun ht => ?_, fun ht => ?_⟩⟩
  · exact if_neg (by simp [releaseDue_iff hop hw, ht])
  · have hrun : Runs o := ⟨hh, hend, hreach, hcp⟩
    have hexec : exec (.heldWriteRelease i) s = done s (chRunGo i (4095 + 1) s) := if_pos (by simp [ho, (releaseDue_iff hop hw).mpr ht])
    obtain ⟨hrel, hopu, hent⟩ := chRelease_spec hop hm
    refine ⟨chRelease i s, by rw [hexec, chRunGo_held 4095 hop hrun hw ht]; rfl, hopu, ?_, ?_, ?_, ?_, ?_, hrel .sto (by decide), hrel .flt (by decide)⟩ <;> rw [hent] <;> rfl
  · have hrun : Runs o := ⟨hh, hend, hreach, hcp⟩
    have hexec : exec (.heldWriteRelease i) s = done s (chRunGo i (4092 + 4) s) := if_pos (by simp [ho, (releaseDue_iff hop hw).mpr ht])
    obtain ⟨hrel, hopu, hentu⟩ := chRelease_spec hop hm
    rw [hexec, chRunGo_held (4092 + 3) hop hrun hw ht]
    obtain ⟨hframe, o', hopw, hrel', hw'⟩ := chRunGo_pushes hopu ⟨hh, hend, hreach, hcp⟩ rfl hcur hsent hst (by simp [isIn, h10]) hpush hline rfl hout 4092
    generalize chRunGo i (4092 + 3) (chRelease i s) = w at *
    have hall : Touches (.ch :: .offers :: .jnl :: .journal :: sendRegs) s w := (hrel.mono (by decide)).trans (hframe.mono (by decide))
    obtain ⟨t, hdone, htold⟩ := done_told (b := s) ((hall .due (by decide)).trans hs) (hall .pending (by decide))
    have hent : jent i t = releasedEntry i o s := ((jent_of_jnl (htold .jnl (by decide)) i).trans (jent_of_jnl (hframe .jnl (by decide)) i)).trans hentu
    refine ⟨t, o', hdone, (opOf_of_ch (htold .ch (by decide)) i).trans hopw, hrel', hw', ?_, ?_, ?_, ?_, ?_, (htold .sto (by decide)).trans (hall .sto (by decide)),
      (htold .flt (by decide)).trans (hall .flt (by decide))⟩ <;> rw [hent] <;> rfl
  · rw [exec_dataFrame ho hn ha hl, dataIn_old (.inl hf)]
    exact done_framed (.refl [] s) hs
  · rw [exec_dataFrame ho hn ha hl, dataIn_old (.inr ⟨o, hf, by rwa [hi]⟩)]
    exact done_framed (.refl [] s) hs
  · rw [exec_dataFrame ho hn ha hl, dataIn_current hf hh (by rw [hi]; exact hord) hcur hsent, if_pos hin, hi]
    obtain ⟨hframe, hsto, o', d', hop', hcur', hoff', hlast'⟩ := takeData_stores hop hcur h0 hgood hch
    obtain ⟨t, hdone, htold⟩ := done_told (b := s) (due_of_still (hframe .still (by decide)) hs hg) (hframe .pending (by decide))
    exact ⟨t, o', d', hdone, (opOf_of_ch (htold .ch (by decide)) i).trans hop', hcur', hoff', hlast', (htold .sto (by decide)).trans hsto⟩
  · rw [exec_dataFrame ho hn ha hl, dataIn_current hf hh (by rw [hi]; exact hord) hcur hsent, if_pos hin, hi, takeData_gathers hop hcur h0 hpush hw hlast]
    exact ⟨_, _, _, done_framed (frame_setOp i _ s) hs, opOf_setOp_same i _ s, rfl, rfl, rfl, rfl⟩
  · rw [exec_dataFrame ho hn ha hl, dataIn_current hf hh (by rw [hi]; exact hord) hcur hsent, if_neg (by simp [hin]), hi]
    exact breached_told hs hg (frame_breach i n s) hm hop hpend rfl (.refl _ _)
  · obtain ⟨hport, horigin⟩ := frameOp_some hf
    obtain ⟨o', d', hstatus, hcur', hd', ho'⟩ := statusOf_current (n := n) (hi ▸ hop) ⟨hh, hend, hreach, hcp⟩ hcur hsent hstale hfinal (by rw [hi]; exact hord) h0
    have hop' := opOf_setOp_same i (some o') s
    have hset := frame_setOp i (some o') s
    have hordu : (jent i (setOp i (some o') s)).ordinal = f.ordinal := hord.symm
    rw [exec_statusFrame ho hn ha, statusIn_of hf, hstatus, hfinal, hi, orderEnd_final (n := n) hop' hcur' (by rw [ho']; exact hport) (by rw [hd']; exact hflag) (by rw [ho']; exact hcheck) (by rw [hd']; exact h10)
      (by rw [hd']; exact h0) (by rw [hd']; exact hcount), hordu]
    have hmu : mirrorOn (setOp i (some o') s) = false := hm
    have hpu : agentPending (.subch i) (setOp i (some o') s) = false := hpend
    have hgone := (chEnd_spec hmu hop' hpu (finalVals o' d' (f.devStatus.toNat % 16) f.residual f.ordinal)).2.1
    rw [chRunGo_over 4094 hgone]
    obtain ⟨t, hdone, hopt, hent, hsto, hflt, hack, hoffer⟩ := ended_told hs hg (hset.mono (by decide)) hmu hop' hpu (frame_dxHoldCheck (chEnd i (finalVals o' d' (f.devStatus.toNat % 16) f.residual f.ordinal) (setOp i (some o') s)))
    obtain ⟨x, hx, hxi, hxint, -, hxparam⟩ := hoffer hmir
    have hmod' : o'.mod_ = none := by rw [ho']; exact hmod
    have hout := hack n f.ordinal (by rw [ho']; exact hport) rfl
    refine ⟨t, hdone, hopt, ?_, ?_, ?_, ?_, ?_, ?_, ?_, ⟨x, hx, hxi, hxint, hxparam.trans (by simp [finalParam, hmod']; rfl)⟩, hsto.trans (hset .sto (by decide)), hflt.trans (hset .flt (by decide))⟩
    · rw [hent]; rfl
    · rw [hent]; rfl
    · rw [hent]; rfl
    · rw [hent]; rfl
    · rw [hent, hd']; rfl
    · rw [hent]; rfl
    · rw [ho'] at hout; exact hout
  · have hres : Touches [.free] s (orderResid d f.residual s).2.2 := frame_orderResid
    rw [exec_statusFrame ho hn ha, statusIn_of hf, statusOf_halted hh hended hcheck hcur hstale hfinal, hi]
    obtain ⟨t, hdone, hopt, hent, hsto, hflt, -⟩ := ended_told hs hg (hres.mono (by decide)) ((mirrorOn_of_pair (congrArg Jnl.pair (hres .jnl (by decide)))).trans hm)
      ((opOf_of_ch (hres .ch (by decide)) i).trans hop) (agentPending_of_noAsk (noAsk_of_arm (hres .arm (by decide))) hpend) (frame_dxHoldCheck _)
    refine ⟨t, hdone, hopt, ?_, ?_, ?_, ?_, ?_, hsto.trans (hres .sto (by decide)), hflt.trans (hres .flt (by decide))⟩
    · rw [hent]; rfl
    · rw [hent]; rfl
    · rw [hent]; rfl
    · rw [hent]; rfl
    · rw [hent]; exact endFlags_halted o _ rfl
  · rw [exec_haltTimeout ho hop hend hh, if_neg (by omega)]
  · rw [exec_haltTimeout ho hop hend hh, if_pos ht]
    unfold haltTimeout
    have hu : Touches eventRegs s (match o.port with | some n => breach i n s | none => s) := by
      cases o.port with
      | none => exact .refl _ s
      | some n => exact frame_breach i n s
    exact breached_told hs hg hu hm hop hpend rfl (frame_dxHoldCheck _)

end Sys2Proof.Machine
end


section
set_option Elab.async false
/-! PROOFS. O36: flits are delivered in order, or rejected, answered and replayed. -/

namespace Sys2Proof.Machine

section
variable {s t u : State} {p : PortId} {f : FlitIn} {l : Link}

/-! ### RECOVERY -/

/-- A link that has entered RECOVERY. -/
def recoveryLink (now : Nat) (l : Link) : Link :=
  { l with state := 7, since := now, uncorrRun := 0, recoveries := satAdd 16 l.recoveries 1, widthPending := false, widthAgreed := false }

/-- What entering RECOVERY writes beside the link itself. -/
def recoverRegs : List FrameReg := [.out, .pf0, .cpu, .core, .flt, .status, .live, .due, .tor, .arm, .armLink, .chLink]

theorem enterRecovery_spec (h6 : (linkOf p s).state = 6) : Touches (.links :: .idle :: recoverRegs) s (enterRecovery p s) ∧
    SameLink (recoveryLink s.tor.tor (linkOf p s)) (linkOf p (enterRecovery p s)) := by
  have hset := frame_setLink s p (recoveryLink s.tor.tor (linkOf p s))
  have hevent : Touches recoverRegs (setLink p (recoveryLink s.tor.tor (linkOf p s)) s) (enterRecovery p s) := by
    unfold enterRecovery
    extract_lets l x v
    rw [if_neg (by simp [l, h6])]
    have hv : Touches eventRegs (setLink p (recoveryLink s.tor.tor (linkOf p s)) s) v := frame_portEvent
    clear_value v
    cases p with
    | arm _ => exact ((hv.mono (by decide)).trans ((frame_checkMaster v).mono (by decide))).trans ((frame_announceChange _).mono (by decide))
    | ch _ => exact hv.mono (by decide)
  have hlinks := hevent .links (by decide) p
  rw [linkOf_set] at hlinks
  exact ⟨(hset.mono (by decide)).trans (hevent.mono (by decide)), hlinks⟩

/-- A command at whose end a link enters RECOVERY. -/
theorem done_recovery {b : State} (hs : Safety.settled b) (hg : Safety.graceful b) (h : Touches [.out, .armLink, .chLink, .links, .idle] b s) (h6 : (linkOf p s).state = 6) :
    ∃ t, done b (enterRecovery p s) = .next t ∧ SameLink (recoveryLink s.tor.tor (linkOf p s)) (linkOf p t) := by
  obtain ⟨hframe, hlink⟩ := enterRecovery_spec h6
  have hall : Touches (.links :: .idle :: recoverRegs) b (enterRecovery p s) := (h.mono (by decide)).trans hframe
  obtain ⟨t, hdone, htold⟩ := done_told (b := b) (due_of_still (hall .still (by decide)) hs hg) (hall .pending (by decide))
  exact ⟨t, hdone, hlink.trans (htold .links (by decide) p)⟩

/-! ### What sending leaves of a link, and of what is delivered -/

theorem linkOf_putFlit (b : List Byte) (s : State) : ∃ a, linkOf p (putFlit p b s) = { linkOf p s with alignTor := a } := by
  have hput : linkOf p (putFlit p b s) = linkOf p (sendAlign p s) := linkOf_same rfl rfl p
  rw [hput]
  unfold sendAlign
  extract_lets l
  split
  · exact ⟨(linkOf p s).alignTor, rfl⟩
  · exact ⟨s.tor.tor, (linkOf_same rfl rfl p).trans (linkOf_set p _ s)⟩

/-- The flit that a port with nothing to say puts out. -/
def idleFlit (nak : Bool) (l : Link) : List Byte :=
  mkFlit (flitHeader 0 0 0 (linkAck l) nak false 0 (creditReturn l).1 (creditReturn l).2 0 false false) []

theorem sendIdle_spec (nak : Bool) (s : State) : (∃ r a, linkOf p (sendIdle p nak s) = { linkOf p s with returns := r, alignTor := a }) ∧
    Out.flit p (codeword (idleFlit nak (linkOf p s))) ∈ (sendIdle p nak s).out := by
  unfold sendIdle
  extract_lets l cr h x
  obtain ⟨a, ha⟩ := linkOf_putFlit (p := p) (mkFlit h []) (setLink p x s)
  exact ⟨⟨_, a, by rw [ha, linkOf_set]⟩, putFlit_out _ _⟩

/-- No more has been delivered. -/
def NoneDelivered (s t : State) : Prop := ∀ p vc d, Out.delivered p vc d ∈ t.out → Out.delivered p vc d ∈ s.out

theorem NoneDelivered.trans (h : NoneDelivered s t) (k : NoneDelivered t u) : NoneDelivered s u := fun p vc d hd => h p vc d (k p vc d hd)

theorem noneDelivered_of_out (h : t.out = s.out) : NoneDelivered s t := fun _ _ _ hd => h ▸ hd

theorem noneDelivered_setLink (p : PortId) (l : Link) (s : State) : NoneDelivered s (setLink p l s) := noneDelivered_of_out (setLink_out p l s)

theorem noneDelivered_emit {o : Out} (h : ∀ p vc d, o ≠ .delivered p vc d) : NoneDelivered s (emit o s) := fun p vc d hd =>
  (List.mem_append.mp hd).elim id fun hx => absurd (List.mem_singleton.mp hx).symm (h p vc d)

theorem noneDelivered_putFlit (p : PortId) (b : List Byte) (s : State) : NoneDelivered s (putFlit p b s) := by
  have halign : NoneDelivered s (sendAlign p s) := by
    unfold sendAlign
    extract_lets l
    split
    · exact noneDelivered_of_out rfl
    · exact (noneDelivered_setLink p _ s).trans (noneDelivered_emit fun _ _ _ h => Out.noConfusion h)
  exact halign.trans (noneDelivered_emit fun _ _ _ h => Out.noConfusion h)

theorem noneDelivered_sendIdle (p : PortId) (nak : Bool) (s : State) : NoneDelivered s (sendIdle p nak s) :=
  (noneDelivered_setLink p _ s).trans (noneDelivered_putFlit p _ _)

theorem noneDelivered_txOne (p : PortId) (s : State) : NoneDelivered s (txOne p s) := by
  unfold txOne
  extract_lets l
  split
  · exact noneDelivered_of_out rfl
  · split
    · exact noneDelivered_of_out rfl
    · exact (noneDelivered_setLink p _ s).trans ((noneDelivered_setLink p _ _).trans (noneDelivered_putFlit p _ _))

theorem noneDelivered_txDrain (p : PortId) (n : Nat) : ∀ s, NoneDelivered s (txDrain p n s) := by
  induction n with
  | zero => exact fun _ => noneDelivered_of_out rfl
  | succ n ih =>
    intro s
    unfold txDrain
    split
    · exact noneDelivered_of_out rfl
    · exact (noneDelivered_txOne p s).trans (ih _)

theorem txPick_nil (h : l.txq = []) : txPick p l = none := by
  unfold txPick
  simp [h]

theorem txDrain_nil (n : Nat) (h : (linkOf p s).txq = []) : txDrain p n s = s := by
  cases n with
  | zero => rfl
  | succ n => exact if_pos (by simp [txPick_nil h])

/-- What the fields of a link that sending leaves alone are. -/
theorem SameLink.counts {m : Link} (h : SameLink l m) : m.expect = l.expect ∧ m.nakSince = l.nakSince ∧ m.cwUncorr = l.cwUncorr ∧ m.crcFail = l.crcFail :=
  ⟨(congrArg Link.expect h.1 :), (congrArg Link.nakSince h.1 :), (congrArg Link.cwUncorr h.1 :), (congrArg Link.crcFail h.1 :)⟩

/-! ### Lost flits -/

theorem lostFlit_spec (s : State) : Touches (.links :: .idle :: sendRegs) s (lostFlit p s) ∧ NoneDelivered s (lostFlit p s) ∧
    (∃ n r a, linkOf p (lostFlit p s) = { linkOf p s with nakSince := n, returns := r, alignTor := a }) ∧
    ((linkOf p s).nakSince = none → (linkOf p (lostFlit p s)).nakSince = some s.tor.tor ∧ ∃ cr : Nat × Nat,
      Out.flit p (codeword (mkFlit (flitHeader 0 0 0 (linkAck (linkOf p s)) true false 0 cr.1 cr.2 0 false false) [])) ∈ (lostFlit p s).out) := by
  unfold lostFlit
  split
  next h => exact ⟨.refl _ s, noneDelivered_of_out rfl, ⟨_, _, _, rfl⟩, fun hn => absurd h (by simp [hn])⟩
  next h =>
    obtain ⟨⟨r, a, hlink⟩, hout⟩ := sendIdle_spec (p := p) true (modLink p (fun l => { l with nakSince := some s.tor.tor }) s)
    rw [linkOf_mod] at hlink hout
    exact ⟨((frame_modLink s p _).mono (by decide)).trans ((frame_sendIdle _ p true).mono (by decide)), (noneDelivered_setLink p _ s).trans (noneDelivered_sendIdle p true _),
      ⟨_, r, a, hlink⟩, fun _ => ⟨by rw [hlink], creditReturn { linkOf p s with nakSince := some s.tor.tor }, hout⟩⟩

/-! ### What a codeword and its ACK leave of the link -/

/-- What a codeword that was read writes of its link before its flit is looked at. -/
def readLink (lanes : Tab Lane) (c : Nat) (l : Link) : Link := { l with lane := lanes, cwCorr := c, uncorrRun := 0 }

/-- A link whose flits were acknowledged to there. -/
def ackedLink (a t : Nat) (l : Link) : Link := { l with replay := l.replay.dropWhile fun x => decide ((a + 4096 - x.seq) % 4096 < 2048), ackTor := t }

theorem countSym_foldl (ks : List Nat) : ∀ l : Link, ∃ x, ks.foldl countSym l = { l with lane := x } := by
  induction ks with
  | nil => exact fun l => ⟨l.lane, rfl⟩
  | cons k ks ih =>
    intro l
    obtain ⟨x, hx⟩ := ih (countSym l k)
    exact ⟨x, hx⟩

theorem takeAck_eq (a now : Nat) (l : Link) : ∃ t, takeAck a now l = ackedLink a t l := by
  unfold takeAck ackedLink
  extract_lets rest
  split
  next h =>
    have hrest : rest = l.replay := (List.dropWhile_suffix _).eq_of_length h
    exact ⟨l.ackTor, by rw [show l.replay.dropWhile _ = l.replay from hrest]⟩
  next => exact ⟨now, rfl⟩

/-- What a flit moves on in its link when it is opened. -/
theorem openFlit_fields {now : Nat} {d : List Byte} {l' : Link} (h : openFlit f now l = some (d, l')) : l'.expect = l.expect ∧ l'.replay = l.replay ∧ l'.txq = l.txq := by
  unfold openFlit at h
  extract_lets key at h
  split at h
  · exact absurd h (by simp)
  · split at h
    · obtain ⟨x, -, hx⟩ := Option.map_eq_some_iff.mp h
      cases hx
      exact ⟨rfl, rfl, rfl⟩
    · split at h
      · obtain ⟨x, -, hx⟩ := Option.map_eq_some_iff.mp h
        cases hx
        exact ⟨rfl, rfl, rfl⟩
      · split at h
        · obtain ⟨x, -, hx⟩ := Option.map_eq_some_iff.mp h
          cases hx
          exact ⟨rfl, rfl, rfl⟩
        · exact absurd h (by simp)

/-- Opening a flit reads none of what its codeword and its ACK have written. -/
theorem openFlit_read (now c a t : Nat) (x : Tab Lane) (l : Link) :
    openFlit f now (ackedLink a t (readLink x c l)) = (openFlit f now l).map fun r => (r.1, ackedLink a t (readLink x c r.2)) := by
  unfold openFlit
  simp only [ackedLink, readLink, linkKey, linkSalt, linkDir, apply_ite (Option.map _), Option.map_map, Option.map_none, Function.comp_def]
  rfl

/-! ### Codewords -/

variable {b : List Byte} {errs : List (Nat × Byte)}

theorem exec_flitReceive (ho : operating s = true) (he : portExists p = true) (h : (linkOf p s).state = 5 ∨ (linkOf p s).state = 6) (hb : b.length = 256) :
    exec (.flitReceive p b errs) s = done s (recvFlit p b errs s) := by
  refine if_pos ?_
  rcases h with h | h <;> simp [linkIn_of ho he h, hb]

/-- A codeword that cannot be corrected. -/
def badLink (l : Link) : Link := { l with cwUncorr := satAdd 32 l.cwUncorr 1, uncorrRun := l.uncorrRun + 1 }

theorem recvFlit_uncorrectable (h : 8 < (symErrs errs).length) : recvFlit p b errs s =
    if uncorrMax ≤ (linkOf p s).uncorrRun + 1 ∧ (linkOf p s).state = 6 then enterRecovery p (setLink p (badLink (linkOf p s)) s) else lostFlit p (setLink p (badLink (linkOf p s)) s) := by
  unfold recvFlit
  extract_lets bad l run
  exact if_pos h

/-- A codeword that was read leaves its link with the corrected symbols counted. -/
theorem readLink_of (ks : List Nat) (c : Nat) (l : Link) : ∃ x, ks.foldl countSym { l with cwCorr := c, uncorrRun := 0 } = readLink x c l :=
  countSym_foldl ks { l with cwCorr := c, uncorrRun := 0 }

theorem recvFlit_crc (h : (symErrs errs).length ≤ 8) (hb : crc64 (b.take 248) ≠ BitVec.ofNat 64 (natAt b 248 8) ∨ headerOk p (flitOf b) = false) :
    ∃ x c, recvFlit p b errs s = lostFlit p (setLink p { readLink x c (linkOf p s) with crcFail := satAdd 32 (linkOf p s).crcFail 1 } s) := by
  unfold recvFlit
  extract_lets bad l run v l1 l2 f
  obtain ⟨x, hx⟩ := readLink_of bad (satAdd 32 l.cwCorr (b2n (!bad.isEmpty))) l
  have hl2 : l2 = readLink x _ l := hx
  refine ⟨x, satAdd 32 l.cwCorr (b2n (!bad.isEmpty)), ?_⟩
  rw [if_neg (by simp [bad, rsMax]; omega), if_pos hb, hl2]
  rfl

/-- A sound DATA flit is looked at on the link that its codeword and its ACK leave. -/
theorem recvFlit_data (h : (symErrs errs).length ≤ 8) (hcrc : crc64 (b.take 248) = BitVec.ofNat 64 (natAt b 248 8)) (hhead : headerOk p (flitOf b) = true) (h1 : (flitOf b).ftype = 1)
    (hn : (flitOf b).nak = false) : ∃ x c t, recvFlit p b errs s = txDrain p 1024 (dataFlit p (flitOf b) (setLink p (ackedLink (flitOf b).ack t (readLink x c (linkOf p s))) s)) := by
  unfold recvFlit
  extract_lets bad l run v l1 l2 f l3 a c d
  obtain ⟨x, hx⟩ := readLink_of bad (satAdd 32 l.cwCorr (b2n (!bad.isEmpty))) l
  have hl2 : l2 = readLink x _ l := hx
  obtain ⟨t, ht⟩ := takeAck_eq f.ack s.tor.tor l2
  have ha : a = setLink p (ackedLink f.ack t (readLink x (satAdd 32 l.cwCorr (b2n (!bad.isEmpty))) l)) s := by
    rw [← hl2, ← ht]
    exact congrArg (setLink p · s) (if_pos h1)
  refine ⟨x, satAdd 32 l.cwCorr (b2n (!bad.isEmpty)), t, ?_⟩
  rw [if_neg (by simp [bad, rsMax]; omega), if_neg (by simp [f, hcrc, hhead]), show d = c from if_neg (by simp [f, hn]), show c = dataFlit p f a from if_pos h1, ha]

/-! ### Delivery -/

theorem passUp_eq {vc : Nat} {body : List Byte} (h : ∀ k, p = .arm k → kindVc (msgOfBytes body).kind = some vc) : passUp p vc body s = emit (.delivered p vc body) s := by
  cases p with
  | arm k => exact if_pos (h k rfl)
  | ch _ => rfl

/-- A flit of one whole message is delivered. -/
theorem deliver_spec {d : List Byte} (hs : f.som = true) (he : f.eom = true) (hk : ∀ k, p = .arm k → kindVc (msgOfBytes (d.take f.len)).kind = some f.vc) :
    Touches (.links :: .idle :: sendRegs) s (deliver p f d s) ∧ Out.delivered p f.vc (d.take f.len) ∈ (deliver p f d s).out ∧
    (linkOf p (deliver p f d s)).expect = ((linkOf p s).expect + 1) % 4096 ∧ (linkOf p (deliver p f d s)).nakSince = none ∧
    (linkOf p (deliver p f d s)).replay = (linkOf p s).replay ∧ (linkOf p (deliver p f d s)).txq = (linkOf p s).txq := by
  unfold deliver
  extract_lets l body m v
  have hbody : body = d.take f.len := by simp [body, hs]
  have hv : linkOf p v = takeCredit f m := linkOf_set p _ s
  have hset : Touches [.armLink, .chLink, .links, .idle] s v := frame_setLink s p _
  clear_value v
  rw [if_pos he, passUp_eq (by rwa [hbody]), hbody]
  have hemit : linkOf p (emit (.delivered p f.vc (d.take f.len)) v) = takeCredit f m := (linkOf_same rfl rfl p).trans hv
  obtain ⟨⟨r, a, hlink⟩, -⟩ := sendIdle_spec (p := p) false (emit (.delivered p f.vc (d.take f.len)) v)
  have hsent := frame_sendIdle (emit (.delivered p f.vc (d.take f.len)) v) p false
  rw [hemit] at hlink
  refine ⟨((hset.mono (by decide)).andThen (frame_emit v _)).andThen hsent, (hsent .said (by decide) : _ <+: _).subset (List.mem_append_right _ (List.mem_singleton.2 rfl)), ?_, ?_, ?_, ?_⟩ <;>
    rw [hlink] <;> rfl

/-- What a link has after a flit in order on it is delivered: the flit's acknowledgements and its SEQ. -/
theorem dataFlit_delivers {x : Tab Lane} {c t : Nat} {d : List Byte} (hclear : clearForbidden p f (linkOf p s) = false) (hseq : f.seq = (linkOf p s).expect)
    (hd : (f.enc = false ∧ d = f.payload) ∨ (f.enc = true ∧ ∃ l', openFlit f s.tor.tor (linkOf p s) = some (d, l'))) :
    ∃ v, dataFlit p f (setLink p (ackedLink f.ack t (readLink x c (linkOf p s))) s) = deliver p f d v ∧ Touches [.armLink, .chLink, .links, .idle] s v ∧
      (linkOf p v).expect = (linkOf p s).expect ∧ (linkOf p v).replay = (ackedLink f.ack t (linkOf p s)).replay ∧ (linkOf p v).txq = (linkOf p s).txq := by
  have hset := frame_setLink s p (ackedLink f.ack t (readLink x c (linkOf p s)))
  have htor : (setLink p (ackedLink f.ack t (readLink x c (linkOf p s))) s).tor = s.tor := hset .tor (by decide)
  have hlink := linkOf_set p (ackedLink f.ack t (readLink x c (linkOf p s))) s
  generalize setLink p (ackedLink f.ack t (readLink x c (linkOf p s))) s = v at *
  have hc : clearForbidden p f (ackedLink f.ack t (readLink x c (linkOf p s))) = false := hclear
  have he : f.seq = (ackedLink f.ack t (readLink x c (linkOf p s))).expect := hseq
  rcases hd with ⟨henc, rfl⟩ | ⟨henc, l', hopen⟩
  · refine ⟨v, ?_, hset, by rw [hlink]; rfl, by rw [hlink]; rfl, by rw [hlink]; rfl⟩
    unfold dataFlit
    extract_lets l
    have hl : l = ackedLink f.ack t (readLink x c (linkOf p s)) := hlink
    rw [hl, if_neg (by simp [hc]), if_neg (by simp [he]), if_pos (by simp [henc])]
  · obtain ⟨hexp, hrep, htxq⟩ := openFlit_fields hopen
    have hl' := linkOf_set p (ackedLink f.ack t (readLink x c l')) v
    refine ⟨setLink p (ackedLink f.ack t (readLink x c l')) v, ?_, hset.trans (frame_setLink v p _), ?_, ?_, ?_⟩
    · have hopened := (openFlit_read s.tor.tor c f.ack t x (linkOf p s)).trans (congrArg _ hopen)
      unfold dataFlit
      extract_lets l
      have hl : l = ackedLink f.ack t (readLink x c (linkOf p s)) := hlink
      rw [hl, if_neg (by simp [hc]), if_neg (by simp [he]), if_neg (by simp [henc]), htor, hopened]
      rfl
    · rw [hl']
      exact hexp
    · rw [hl']
      exact congrArg (List.dropWhile fun x => decide ((f.ack + 4096 - x.seq) % 4096 < 2048)) hrep
    · rw [hl']
      exact htxq

/-- A flit out of turn is answered with NAK. -/
theorem dataFlit_lost {x : Tab Lane} {c t : Nat} (hclear : clearForbidden p f (linkOf p s) = false) (hseq : f.seq ≠ (linkOf p s).expect) :
    dataFlit p f (setLink p (ackedLink f.ack t (readLink x c (linkOf p s))) s) = lostFlit p (setLink p (ackedLink f.ack t (readLink x c (linkOf p s))) s) := by
  have hlink := linkOf_set p (ackedLink f.ack t (readLink x c (linkOf p s))) s
  have hc : clearForbidden p f (ackedLink f.ack t (readLink x c (linkOf p s))) = false := hclear
  have he : f.seq ≠ (ackedLink f.ack t (readLink x c (linkOf p s))).expect := hseq
  unfold dataFlit
  extract_lets l
  rw [show l = _ from hlink, if_neg (by simp [hc]), if_pos he]

/-! ### Replay -/

theorem putFlits_spec (fs : List TxFlit) : ∀ s : State, (∃ a, linkOf p (fs.foldl (fun s f => putFlit p f.bytes s) s) = { linkOf p s with alignTor := a }) ∧
    (∀ f ∈ fs, Out.flit p (codeword f.bytes) ∈ (fs.foldl (fun s f => putFlit p f.bytes s) s).out) ∧ Touches sendRegs s (fs.foldl (fun s f => putFlit p f.bytes s) s) := by
  induction fs with
  | nil => exact fun s => ⟨⟨_, rfl⟩, fun _ h => absurd h List.not_mem_nil, .refl _ s⟩
  | cons f fs ih =>
    intro s
    obtain ⟨a, ha⟩ := linkOf_putFlit (p := p) f.bytes s
    obtain ⟨⟨c, hc⟩, hout, hframe⟩ := ih (putFlit p f.bytes s)
    refine ⟨⟨c, by rw [List.foldl_cons, hc, ha]⟩, fun g hg => ?_, (frame_putFlit s p f.bytes).trans hframe⟩
    rcases List.mem_cons.mp hg with rfl | hg
    · exact (hframe .said (by decide) : _ <+: _).subset (putFlit_out _ s)
    · exact hout g hg

/-- A link whose unacknowledged flits are sent again, as no ACK has advanced. -/
def replayedLink (now : Nat) (l : Link) : Link :=
  { l with replayAck := none, replay := l.replay.map fun f => { f with replays := f.replays + 1 }, replays := satAdd 32 l.replays 1, ackTor := now,
           replayUntil := now + slotTicks l * l.replay.length }

/-- The unacknowledged flits of a link are sent again. -/
def replayed (p : PortId) (s : State) : State :=
  (replayedLink s.tor.tor (linkOf p s)).replay.foldl (fun s f => putFlit p f.bytes s)
    (setLink p (replayedLink s.tor.tor (linkOf p s)) (modLink p (fun l => { l with replayAck := none }) s))

theorem replayLate_eq (h : (linkOf p s).replay ≠ []) [Decidable (∃ f ∈ (linkOf p s).replay, 7 ≤ f.replays)] :
    replayLate p s = if ∃ f ∈ (linkOf p s).replay, 7 ≤ f.replays then enterRecovery p (replayed p s) else replayed p s := by
  have htor : (modLink p (fun l => { l with replayAck := none }) s).tor = s.tor := frame_modLink s p _ .tor (by decide)
  have hany : ((replayedLink s.tor.tor (linkOf p s)).replay.any fun f => decide (replayMax ≤ f.replays)) = true ↔ ∃ f ∈ (linkOf p s).replay, 7 ≤ f.replays := by
    simp [replayedLink, replayMax]
  unfold replayLate replayAll
  extract_lets l again l1 v
  have hl : l = { linkOf p s with replayAck := none } := linkOf_mod ..
  have hl1 : l1 = replayedLink s.tor.tor (linkOf p s) := by
    unfold l1 again
    rw [hl, htor]
    rfl
  have hv : v = replayed p s := by
    unfold v
    rw [hl1]
    rfl
  rw [if_neg (by simp [hl, h]), hv, hl1]
  exact ite_congr (propext hany) (fun _ => rfl) fun _ => rfl

theorem replayed_spec (p : PortId) (s : State) : Touches [.out, .armLink, .chLink, .links, .idle] s (replayed p s) ∧
    (∃ a, linkOf p (replayed p s) = { replayedLink s.tor.tor (linkOf p s) with alignTor := a }) ∧ ∀ f ∈ (linkOf p s).replay, Out.flit p (codeword f.bytes) ∈ (replayed p s).out := by
  have hset : Touches [.out, .armLink, .chLink, .links, .idle] s (setLink p (replayedLink s.tor.tor (linkOf p s)) (modLink p (fun l => { l with replayAck := none }) s)) :=
    ((frame_modLink s p _).trans (frame_setLink _ p _)).mono (by decide)
  obtain ⟨⟨a, ha⟩, hout, hframe⟩ := putFlits_spec (p := p) (replayedLink s.tor.tor (linkOf p s)).replay
    (setLink p (replayedLink s.tor.tor (linkOf p s)) (modLink p (fun l => { l with replayAck := none }) s))
  rw [linkOf_set] at ha
  exact ⟨hset.trans (hframe.mono (by decide)), ⟨a, ha⟩, fun f hf => hout { f with replays := f.replays + 1 } (List.mem_map.mpr ⟨f, hf, rfl⟩)⟩

theorem exec_nakRepeat (ho : operating s = true) (he : portExists p = true) (h : (linkOf p s).state = 5 ∨ (linkOf p s).state = 6) {t0 : Nat} (hn : (linkOf p s).nakSince = some t0)
    (ht : t0 + 4000 ≤ s.tor.tor) : exec (.nakRepeat p) s = done s (sendIdle p true (modLink p (fun l => { l with nakSince := some s.tor.tor }) s)) := by
  change execNakRepeat p s = _
  unfold execNakRepeat
  simp only [hn]
  refine if_pos ?_
  rcases h with h | h <;> simp [linkIn_of ho he h, nakTicks, ht]

theorem exec_replayTimeout (ho : operating s = true) (he : portExists p = true) (h : (linkOf p s).state = 5 ∨ (linkOf p s).state = 6) (hr : (linkOf p s).replay ≠ [])
    (ht : (linkOf p s).ackTor + 16000 ≤ s.tor.tor) : exec (.replayTimeout p) s = done s (replayLate p s) := by
  refine if_pos ?_
  rcases h with h | h <;> simp [linkIn_of ho he h, replayTicks, ht, hr]

end

/-- Settles O36, by what a codeword, its flit and a replay leave of the link. -/
theorem flitsAreDeliveredInOrderOrReplayed : Obligations.FlitsAreDeliveredInOrderOrReplayed := by
  unfold Obligations.FlitsAreDeliveredInOrderOrReplayed
  intro p s b errs hs ho he hst hb
  refine ⟨fun hbad hrun => ?_, fun hbad hrun h6 hg => ?_, fun hok hcrc => ?_, fun f hf hok hcrc hhead h1 hclear hnak => ⟨fun d hseq hsom heom hd hk => ?_, fun hseq hn => ?_⟩, fun t0 hn ht => ?_,
    fun hr ht => ⟨fun hlt => ?_, fun hge h6 hg => ?_⟩⟩
  · have hset := frame_setLink s p (badLink (linkOf p s))
    obtain ⟨hframe, hnone, ⟨n, r, a, hlink⟩, -⟩ := lostFlit_spec (p := p) (setLink p (badLink (linkOf p s)) s)
    rw [exec_flitReceive ho he hst hb, recvFlit_uncorrectable hbad, if_neg (by unfold uncorrMax; omega)]
    rw [linkOf_set] at hlink
    have hall : Touches (.links :: .idle :: sendRegs) s (lostFlit p (setLink p (badLink (linkOf p s)) s)) := (hset.mono (by decide)).trans hframe
    exact ⟨_, done_framed hall hs, by rw [hlink]; rfl, by rw [hlink]; rfl, (noneDelivered_setLink p _ s).trans hnone p, hall .sto (by decide), hall .flt (by decide)⟩
  · obtain ⟨t, hdone, hlink⟩ := done_recovery (p := p) hs hg ((frame_setLink s p (badLink (linkOf p s))).mono (by decide)) (by rw [linkOf_set]; exact h6)
    rw [exec_flitReceive ho he hst hb, recvFlit_uncorrectable hbad, if_pos ⟨by unfold uncorrMax; omega, h6⟩]
    exact ⟨t, hdone, hlink.fields.1⟩
  · obtain ⟨x, c, hrecv⟩ := recvFlit_crc (p := p) (s := s) hok hcrc
    have hset := frame_setLink s p { readLink x c (linkOf p s) with crcFail := satAdd 32 (linkOf p s).crcFail 1 }
    obtain ⟨hframe, hnone, ⟨n, r, a, hlink⟩, -⟩ := lostFlit_spec (p := p) (setLink p { readLink x c (linkOf p s) with crcFail := satAdd 32 (linkOf p s).crcFail 1 } s)
    rw [linkOf_set] at hlink
    rw [exec_flitReceive ho he hst hb, hrecv]
    exact ⟨_, done_framed ((hset.mono (by decide)).trans hframe) hs, by rw [hlink], by rw [hlink]; rfl, (noneDelivered_setLink p _ s).trans hnone p⟩
  · subst hf
    obtain ⟨x, c, t, hrecv⟩ := recvFlit_data (p := p) (s := s) hok hcrc hhead h1 hnak
    obtain ⟨v, hdata, hset, hexp, hrep, htxq⟩ := dataFlit_delivers (x := x) (c := c) (t := t) hclear hseq hd
    obtain ⟨hframe, hout, hexp', hnak', hrep', htxq'⟩ := deliver_spec (s := v) (d := d) hsom heom hk
    rw [exec_flitReceive ho he hst hb, hrecv, hdata]
    generalize deliver p (flitOf b) d v = w at *
    have hdrain : Touches sendRegs w (txDrain p 1024 w) := frame_txDrain p 1024 w
    have hall : Touches (.links :: .idle :: sendRegs) s (txDrain p 1024 w) := ((hset.mono (by decide)).trans hframe).andThen hdrain
    obtain ⟨hexp2, hnak2, -⟩ := (hdrain .links (by decide) p).counts
    refine ⟨_, done_framed hall hs, ?_, hnak2.trans hnak', (hdrain .said (by decide) : _ <+: _).subset hout, hall .sto (by decide), hall .flt (by decide), fun hq => ?_⟩
    · rw [hexp2, hexp', hexp, hseq]
    · rw [txDrain_nil 1024 (htxq'.trans (htxq.trans hq)), hrep', hrep]
      rfl
  · subst hf
    obtain ⟨x, c, t, hrecv⟩ := recvFlit_data (p := p) (s := s) hok hcrc hhead h1 hnak
    have hset := frame_setLink s p (ackedLink (flitOf b).ack t (readLink x c (linkOf p s)))
    have htor : (setLink p (ackedLink (flitOf b).ack t (readLink x c (linkOf p s))) s).tor = s.tor := hset .tor (by decide)
    obtain ⟨hframe, hnone, ⟨n, r, a, hlink⟩, hnaks⟩ := lostFlit_spec (p := p) (setLink p (ackedLink (flitOf b).ack t (readLink x c (linkOf p s))) s)
    rw [linkOf_set] at hlink hnaks
    obtain ⟨hsince, cr, hout⟩ := hnaks hn
    rw [exec_flitReceive ho he hst hb, hrecv, dataFlit_lost hclear hseq]
    have hfirst := (noneDelivered_setLink p (ackedLink (flitOf b).ack t (readLink x c (linkOf p s))) s).trans hnone
    generalize lostFlit p (setLink p (ackedLink (flitOf b).ack t (readLink x c (linkOf p s))) s) = w at *
    have hdrain : Touches sendRegs w (txDrain p 1024 w) := frame_txDrain p 1024 w
    have hall : Touches (.links :: .idle :: sendRegs) s (txDrain p 1024 w) := ((hset.mono (by decide)).trans hframe).andThen hdrain
    obtain ⟨hexp2, hnak2, -⟩ := (hdrain .links (by decide) p).counts
    exact ⟨_, done_framed hall hs, hexp2.trans (by rw [hlink]; rfl), hnak2.trans (hsince.trans (by rw [htor])), (hfirst.trans (noneDelivered_txDrain p 1024 w)) p, cr,
      (hdrain .said (by decide) : _ <+: _).subset hout⟩
  · have hmod := frame_modLink s p fun l => { l with nakSince := some s.tor.tor }
    obtain ⟨⟨r, a, hlink⟩, hout⟩ := sendIdle_spec (p := p) true (modLink p (fun l => { l with nakSince := some s.tor.tor }) s)
    rw [linkOf_mod] at hlink hout
    exact ⟨_, (exec_nakRepeat ho he hst hn ht).trans (done_framed ((hmod.mono (by decide)).trans ((frame_sendIdle _ p true).mono (by decide)) : Touches (.links :: .idle :: sendRegs) s _) hs),
      by rw [hlink], by rw [hlink], creditReturn { linkOf p s with nakSince := some s.tor.tor }, hout⟩
  · obtain ⟨hframe, ⟨a, hlink⟩, hout⟩ := replayed_spec p s
    classical
    rw [exec_replayTimeout ho he hst hr ht, replayLate_eq hr, if_neg fun ⟨f, hf, h7⟩ => absurd (hlt f hf) (by omega)]
    refine ⟨_, done_framed hframe hs, hout, by rw [hlink]; rfl, by rw [hlink]; rfl, ?_, by rw [hlink]; rfl⟩
    rw [hlink]
    simp [replayedLink]
  · obtain ⟨hframe, ⟨a, hlink⟩, -⟩ := replayed_spec p s
    obtain ⟨t, hdone, hrec⟩ := done_recovery (p := p) hs hg hframe (by rw [hlink]; exact h6)
    classical
    rw [exec_replayTimeout ho he hst hr ht, replayLate_eq hr, if_pos hge]
    exact ⟨t, hdone, hrec.fields.1⟩

end Sys2Proof.Machine
end


section
set_option Elab.async false
/-! PROOFS. O35: lanes, widths, keys and control of a port that carries flits, and RECOVERY. -/

namespace Sys2Proof.Machine

section
variable {s t u : State} {p : PortId} {l m : Link}

/-! ### Lanes -/

/-- A step of a loop over lanes, which writes one lane. -/
def LaneStep (g : Link → Nat → Link) (f : Nat → Lane → Lane) : Prop :=
  ∀ l i, (∀ j, laneOf j (g l i) = if j = i then f i (laneOf i l) else laneOf j l) ∧ ∃ x, g l i = { l with lane := x }

theorem laneOf_setLane (i j : Nat) (x : Lane) (l : Link) : laneOf j (setLane i x l) = if j = i then x else laneOf j l := tget_tset ..

theorem laneStep_setLane (f : Nat → Lane → Lane) : LaneStep (fun l i => setLane i (f i (laneOf i l)) l) f := fun l i =>
  ⟨fun j => laneOf_setLane i j _ l, _, rfl⟩

theorem laneFold {g : Link → Nat → Link} {f : Nat → Lane → Lane} (h : LaneStep g f) (is : List Nat) (hn : is.Nodup) : ∀ l : Link,
    (∀ j, laneOf j (is.foldl g l) = if j ∈ is then f j (laneOf j l) else laneOf j l) ∧ ∃ x, is.foldl g l = { l with lane := x } := by
  induction is with
  | nil => exact fun l => ⟨fun j => (if_neg List.not_mem_nil).symm, l.lane, rfl⟩
  | cons i is ih =>
    intro l
    obtain ⟨hi, his⟩ := List.nodup_cons.mp hn
    obtain ⟨hstep, x, hx⟩ := h l i
    obtain ⟨hrest, y, hy⟩ := ih his (g l i)
    refine ⟨fun j => ?_, y, by rw [List.foldl_cons, hy, hx]⟩
    rw [List.foldl_cons, hrest, hstep]
    by_cases e : j = i
    · subst e
      rw [if_neg hi, if_pos rfl, if_pos List.mem_cons_self]
    · rw [if_neg e]
      exact if_congr (by simp [e]) rfl rfl

/-- A link's sound lanes are those that are locked, have not failed and are not turned off. -/
theorem ownGood_of_lanes (h : ∀ i, i < portLanes p → (laneOf i m).lock = (laneOf i l).lock ∧ (laneOf i m).failed = (laneOf i l).failed) (ho : m.laneOff = l.laneOff) :
    ownGood p m = ownGood p l := by
  have hfilter : ∀ i ∈ List.range (portLanes p), ((tget {} i m.lane).lock && !(tget {} i m.lane).failed && !m.laneOff.testBit i) =
      ((tget {} i l.lane).lock && !(tget {} i l.lane).failed && !l.laneOff.testBit i) := fun i hi => by
    obtain ⟨hlock, hfail⟩ := h i (List.mem_range.mp hi)
    rw [show (tget {} i m.lane).lock = _ from hlock, show (tget {} i m.lane).failed = _ from hfail, ho]
    rfl
  unfold ownGood
  exact congrArg _ (List.filter_congr hfilter)

/-- A link at its alignment slot. -/
def alignedLink (a : Nat) (l : Link) : Link := { l with alignTor := a }

theorem markOff_align (a : Nat) (l : Link) : markOff p (alignedLink a l) = alignedLink a (markOff p l) := by
  have hfold : ∀ (is : List Nat) (l : Link), is.foldl (fun l i => setLane i { (laneOf i l) with failed := true } l) (alignedLink a l) =
      alignedLink a (is.foldl (fun l i => setLane i { (laneOf i l) with failed := true } l) l) := by
    intro is
    induction is with
    | nil => exact fun _ => rfl
    | cons i is ih => exact fun l => ih (setLane i { (laneOf i l) with failed := true } l)
  exact hfold (maskLanes p l.laneOff) l

/-! ### Widths -/

theorem linkOf_sendAlign (s : State) : ∃ a, linkOf p (sendAlign p s) = { linkOf p s with alignTor := a } := by
  obtain ⟨a, ha⟩ := linkOf_putFlit (p := p) [] s
  exact ⟨a, (linkOf_same rfl rfl p : linkOf p (putFlit p [] s) = _) ▸ ha⟩

/-- The WIDTH flit of a mask. -/
def widthFlitOf (m : Nat) (l : Link) : List Byte := mkFlit (flitHeader 2 0 0 (linkAck l) false false 0 0 0 0 false false) [2, BitVec.ofNat 8 m]

theorem putWidth_spec (k : Nat) (s : State) : Touches (.links :: .idle :: sendRegs) s (putWidth p k s) ∧ (∃ a, linkOf p (putWidth p k s) = { linkOf p s with widthAt := s.tor.tor, alignTor := a }) ∧
    Out.flit p (codeword (widthFlitOf k (linkOf p s))) ∈ (putWidth p k s).out := by
  have hmod := frame_modLink s p fun l => { l with widthAt := s.tor.tor }
  have hlink := linkOf_mod p (fun l => { l with widthAt := s.tor.tor }) s
  unfold putWidth linkFlit
  generalize modLink p (fun l => { l with widthAt := s.tor.tor }) s = v at *
  obtain ⟨a, ha⟩ := linkOf_putFlit (p := p) (mkFlit (flitHeader 2 0 0 (linkAck (linkOf p v)) false false 0 0 0 0 false false) [2, BitVec.ofNat 8 k]) v
  have hout := putFlit_out (p := p) (mkFlit (flitHeader 2 0 0 (linkAck (linkOf p v)) false false 0 0 0 0 false false) [2, BitVec.ofNat 8 k]) v
  rw [hlink] at ha hout
  rw [hlink]
  exact ⟨(hmod.mono (by decide)).andThen (frame_putFlit v p _), ⟨a, ha⟩, hout⟩

theorem sendWidth_spec (k : Nat) (s : State) : Touches (.links :: .idle :: sendRegs) s (sendWidth p k s) ∧
    ∃ a, linkOf p (sendWidth p k s) = { linkOf p s with widthPending := true, widthAgreed := false, widthSent := k, widthAt := s.tor.tor, alignTor := a } := by
  have hmod := frame_modLink s p fun l => { l with widthPending := true, widthAgreed := false, widthSent := k }
  have htor : (modLink p (fun l => { l with widthPending := true, widthAgreed := false, widthSent := k }) s).tor = s.tor := hmod .tor (by decide)
  obtain ⟨hframe, ⟨a, ha⟩, -⟩ := putWidth_spec (p := p) k (modLink p (fun l => { l with widthPending := true, widthAgreed := false, widthSent := k }) s)
  rw [linkOf_mod, htor] at ha
  exact ⟨(hmod.mono (by decide)).trans hframe, a, ha⟩

/-- Lanes change, and with the sound ones a WIDTH exchange begins. -/
theorem laneChange_spec (f : Link → Link) (s : State) : Touches (.links :: .idle :: sendRegs) s (laneChange p f s) ∧
    ∃ b c k w a, linkOf p (laneChange p f s) = { f (linkOf p s) with widthPending := b, widthAgreed := c, widthSent := k, widthAt := w, alignTor := a } := by
  have hset := frame_setLink s p (f (linkOf p s))
  have hlink := linkOf_set p (f (linkOf p s)) s
  unfold laneChange
  extract_lets l l' v
  split
  · obtain ⟨hframe, a, ha⟩ := sendWidth_spec (p := p) (ownGood p l') v
    rw [show linkOf p v = _ from hlink] at ha
    exact ⟨(hset.mono (by decide)).trans hframe, _, _, _, _, a, ha⟩
  · exact ⟨hset.mono (by decide), _, _, _, _, _, hlink⟩

theorem laneChange_quiet {f : Link → Link} (h : ownGood p (f (linkOf p s)) = ownGood p (linkOf p s)) : laneChange p f s = setLink p (f (linkOf p s)) s :=
  if_neg fun hc => hc.2 h

/-- A change of width is taken. -/
theorem takeWidth_spec (w : Nat × Nat) (s : State) : Touches (.links :: .idle :: recoverRegs) s (takeWidth p w s) ∧
    ∃ x, SameLink { linkOf p s with width := w.1, group := w.2, widthChg := x } (linkOf p (takeWidth p w s)) := by
  unfold takeWidth
  extract_lets l v x
  split
  next h =>
    refine ⟨.refl _ s, l.widthChg, ?_⟩
    rw [← h.1, ← h.2]
    exact .refl _
  next =>
    have hset := frame_setLink s p { l with width := w.1, group := w.2, widthChg := satAdd 16 l.widthChg 1 }
    have hlink := linkOf_set p { l with width := w.1, group := w.2, widthChg := satAdd 16 l.widthChg 1 } s
    have hx : Touches eventRegs v x := frame_portEvent
    have hall : ∀ y, Touches recoverRegs v y → Touches (.links :: .idle :: recoverRegs) s y ∧ ∃ x, SameLink { linkOf p s with width := w.1, group := w.2, widthChg := x } (linkOf p y) := fun y hy => by
      have hlinks := hy .links (by decide) p
      rw [show linkOf p v = _ from hlink] at hlinks
      exact ⟨(hset.mono (by decide)).trans (hy.mono (by decide)), _, hlinks⟩
    clear_value x v
    cases p with
    | arm _ => exact hall _ (touches_ite (fun _ => (hx.mono (by decide)).trans ((frame_announceChange x).mono (by decide))) fun _ => hx.mono (by decide))
    | ch _ => exact hall _ (hx.mono (by decide))

/-! ### An alignment slot -/

/-- A lane at an alignment slot. -/
def slotLane (missed skewed : List Nat) (i : Nat) (x : Lane) : Lane :=
  if 2 ≤ (if missed.contains i then x.missed + 1 else 0) ∨ skewed.contains i = true then { x with missed := 0, failed := true }
  else { x with missed := if missed.contains i then x.missed + 1 else 0 }

/-- One of the lanes of a link at an alignment slot. -/
def slotStep (missed skewed : List Nat) (l : Link) (i : Nat) : Link :=
  let x := laneOf i l
  let m := if missed.contains i then x.missed + 1 else 0
  if 2 ≤ m ∨ skewed.contains i = true then setLane i { x with missed := 0, failed := true } l else setLane i { x with missed := m } l

theorem laneStep_slotStep (missed skewed : List Nat) : LaneStep (slotStep missed skewed) (slotLane missed skewed) := fun l i => by
  unfold slotStep slotLane
  extract_lets x m
  split
  · exact ⟨fun j => laneOf_setLane i j _ l, _, rfl⟩
  · exact ⟨fun j => laneOf_setLane i j _ l, _, rfl⟩

theorem slotLane_failed (missed skewed : List Nat) (i : Nat) (x : Lane) :
    (slotLane missed skewed i x).failed = (x.failed || (missed.contains i && decide (1 ≤ x.missed)) || skewed.contains i) ∧ (slotLane missed skewed i x).lock = x.lock ∧
      (missed.contains i = false → (slotLane missed skewed i x).missed = 0) := by
  unfold slotLane
  cases missed.contains i <;> cases skewed.contains i <;> by_cases h : 1 ≤ x.missed <;> simp [h]

/-- The lanes of a link at an alignment slot. -/
def slotLanes (p : PortId) (missed skewed : List Nat) (l : Link) : Link := (List.range (portLanes p)).foldl (slotStep missed skewed) { l with slots := satAdd 64 l.slots 1 }

theorem slotLanes_spec (missed skewed : List Nat) (l : Link) : (∀ j, j < portLanes p → laneOf j (slotLanes p missed skewed l) = slotLane missed skewed j (laneOf j l)) ∧
    ∃ x, slotLanes p missed skewed l = { l with slots := satAdd 64 l.slots 1, lane := x } := by
  obtain ⟨hlane, x, hx⟩ := laneFold (laneStep_slotStep missed skewed) (List.range (portLanes p)) List.nodup_range { l with slots := satAdd 64 l.slots 1 }
  exact ⟨fun j hj => (hlane j).trans (if_pos (List.mem_range.mpr hj)), x, hx⟩

theorem alignSlot_idle (missed skewed : List Nat) (h : (linkOf p s).widthPending = false) : alignSlot p missed skewed s = laneChange p (slotLanes p missed skewed) (sendAlign p s) := by
  obtain ⟨a, ha⟩ := linkOf_sendAlign (p := p) s
  unfold alignSlot
  extract_lets v l z l' w x y
  rw [show y = v from if_neg (by simp [l, v, ha, h])]
  rfl

/-- The agreed change of width is taken at an alignment slot. -/
theorem alignSlot_agreed {w : Nat × Nat} (hp : (linkOf p s).widthPending = true) (ha : (linkOf p s).widthAgreed = true)
    (hl : l = { markOff p (linkOf p s) with widthPending := false, widthAgreed := false }) (hw : w = chooseWidth p (widthLimit p l s) (goodMask p l)) (h0 : w.1 ≠ 0) :
    ∃ a, alignSlot p [] [] s = laneChange p (slotLanes p [] []) (takeWidth p w (setLink p (alignedLink a l) (sendAlign p s))) := by
  obtain ⟨a, hal⟩ := linkOf_sendAlign (p := p) s
  have hframe := frame_sendAlign s p
  unfold alignSlot
  extract_lets v k z l' w' x y
  have hk : k = alignedLink a (linkOf p s) := hal
  have hl' : l' = alignedLink a l := by
    have hz : z = alignedLink a (markOff p (linkOf p s)) := (congrArg (markOff p) hk).trans (markOff_align a _)
    unfold l'
    rw [hz, hl]
    rfl
  have hw' : w' = w := by
    unfold w'
    rw [hl', hw]
    cases p with
    | arm _ => rfl
    | ch _ =>
      have hpln : v.pln = s.pln := hframe .pln (by decide)
      simp only [widthLimit, hpln]
      rfl
  refine ⟨a, ?_⟩
  have hy : y = takeWidth p w (setLink p (alignedLink a l) v) := by
    unfold y x
    rw [hk, hw', hl', if_pos (by simp [alignedLink, hp, ha]), if_pos h0]
  rw [hy]
  rfl

/-! ### The WIDTH exchange -/

theorem goodMask_set (k : Nat) (l : Link) : goodMask p { l with peerGood := k } = ownGood p l &&& k := rfl

theorem onWidth_spec (k : Nat) (s : State) : Touches (.links :: .idle :: sendRegs) s (onWidth p k s) ∧ ∃ w a, linkOf p (onWidth p k s) = { linkOf p s with
    peerGood := k % 2 ^ portLanes p, widthPending := true, widthSent := ownGood p (linkOf p s) &&& (k % 2 ^ portLanes p),
    widthAgreed := (ownGood p (linkOf p s) &&& (k % 2 ^ portLanes p)) == k % 2 ^ portLanes p, widthAt := w, alignTor := a } := by
  unfold onWidth
  extract_lets z l m v x
  have hset := frame_setLink s p l
  have hv : linkOf p v = l := linkOf_set p l s
  have hm : m = ownGood p (linkOf p s) &&& (k % 2 ^ portLanes p) := rfl
  have hx : Touches (.links :: .idle :: sendRegs) s x ∧ ∃ w a, linkOf p x = { l with widthPending := true, widthAgreed := (linkOf p x).widthAgreed, widthSent := m, widthAt := w, alignTor := a } := by
    by_cases h : m ≠ l.widthSent ∨ !l.widthPending
    · obtain ⟨hframe, a, ha⟩ := sendWidth_spec (p := p) m v
      rw [show x = sendWidth p m v from if_pos h, ha, hv]
      exact ⟨(hset.mono (by decide)).trans hframe, _, a, rfl⟩
    · rw [show x = v from if_neg h, hv]
      simp only [not_or, not_not, Bool.not_eq_true, Bool.not_eq_false'] at h
      refine ⟨hset.mono (by decide), l.widthAt, l.alignTor, ?_⟩
      rw [h.1, ← h.2]
  obtain ⟨hframe, w, a, hlink⟩ := hx
  refine ⟨hframe.trans ((frame_modLink x p _).mono (by decide)), w, a, ?_⟩
  rw [linkOf_mod, hlink, ← hm]
  rfl

/-! ### Control -/

theorem linkCtl_of {v : View} (hv : admin v s = true) (ho : operating s = true) (he : portExists p = true) : linkCtl v p s = true := by
  simp [linkCtl, hv, ho, he]

/-- A lane that has failed is to be tried again. -/
def retryStep (l : Link) (i : Nat) : Link := if (laneOf i l).failed then setLane i { (laneOf i l) with retry := true } l else l

theorem laneStep_retry : LaneStep retryStep (fun _ x => { x with retry := x.retry || x.failed }) := fun l i => by
  unfold retryStep
  cases h : (laneOf i l).failed with
  | false =>
    rw [if_neg Bool.false_ne_true]
    refine ⟨fun j => ?_, l.lane, rfl⟩
    split
    next e =>
      subst e
      change laneOf j l = { laneOf j l with retry := (laneOf j l).retry || (laneOf j l).failed }
      rw [h, Bool.or_false]
    next => rfl
  | true =>
    rw [if_pos rfl]
    exact ⟨fun j => (laneOf_setLane i j _ l).trans (by simp [h]), _, rfl⟩

theorem takeLanes_one (x : LaneEq) (l : Link) (h : x.lane < portLanes p) : takeLanes p true [x] l =
    setLane x.lane { (laneOf x.lane l) with lock := x.locked, margin := min x.margin 255, failed := (laneOf x.lane l).failed && !x.locked, missed := 0, retry := false } l := by
  simp only [takeLanes, List.foldl_cons, List.foldl_nil, if_neg (Nat.not_le.mpr h), Bool.true_and]

/-- A command that changes lanes. -/
theorem done_laneChange (hs : Safety.settled s) (f : Link → Link) : ∃ b c k w a, done s (laneChange p f s) = .next (laneChange p f s) ∧
    linkOf p (laneChange p f s) = { f (linkOf p s) with widthPending := b, widthAgreed := c, widthSent := k, widthAt := w, alignTor := a } ∧ (laneChange p f s).flt = s.flt := by
  obtain ⟨hframe, b, c, k, w, a, hlink⟩ := laneChange_spec (p := p) f s
  exact ⟨b, c, k, w, a, done_framed hframe hs, hlink, hframe .flt (by decide)⟩

/-! ### RECOVERY ends -/

theorem takeLanes_fields (heal : Bool) (xs : List LaneEq) : ∀ l : Link, ∃ x, takeLanes p heal xs l = { l with lane := x } := by
  induction xs with
  | nil => exact fun l => ⟨l.lane, rfl⟩
  | cons e xs ih =>
    intro l
    by_cases h : portLanes p ≤ e.lane
    · obtain ⟨x, hx⟩ := ih l
      exact ⟨x, by rw [← hx, takeLanes, List.foldl_cons, if_pos h, takeLanes]⟩
    · obtain ⟨x, hx⟩ := ih (setLane e.lane { (laneOf e.lane l) with lock := e.locked, margin := min e.margin 255, failed := (laneOf e.lane l).failed && !(heal && e.locked), missed := 0, retry := false } l)
      exact ⟨x, (by rw [takeLanes, List.foldl_cons, if_neg h]; exact hx : takeLanes p heal (e :: xs) l = _)⟩

theorem markOff_fields (l : Link) : ∃ x, markOff p l = { l with lane := x } :=
  (laneFold (laneStep_setLane fun _ x => { x with failed := true }) (maskLanes p l.laneOff) (List.nodup_range.filter _) l).2

/-- A link that is ACTIVE again after RECOVERY. -/
def activeAgain (p : PortId) (now : Nat) (l : Link) : Link :=
  { l with state := 6, since := now, ackTor := now, uncorrRun := 0, widthSent := ownGood p l, replay := l.replay.map fun f => { f with replays := 0 } }

theorem recovered_eq {lanes : List LaneEq} {k : Nat} {w : Nat × Nat} (hl : l = markOff p { takeLanes p true lanes (linkOf p s) with peerGood := k % 2 ^ portLanes p })
    (hw : w = chooseWidth p (widthLimit p l s) (goodMask p l)) : recovered p lanes k s = if w.1 = 0 then linkDown p (setLink p l s) else
      txDrain p 1024 (portUp p (modLink p (activeAgain p (takeWidth p w (setLink p l s)).tor.tor) (takeWidth p w (setLink p l s)))) := by
  subst hl hw
  rfl

/-- A port that RECOVERY leaves ACTIVE. -/
theorem recovered_spec (w : Nat × Nat) (l : Link) (s : State) : Touches (.fstate :: .tor :: .links :: .idle :: runRegs) s
      (txDrain p 1024 (portUp p (modLink p (activeAgain p (takeWidth p w (setLink p l s)).tor.tor) (takeWidth p w (setLink p l s))))) ∧
    ∃ x m, SameLink { l with width := w.1, group := w.2, widthChg := x } m ∧ SameLink (activeAgain p (takeWidth p w (setLink p l s)).tor.tor m)
      (linkOf p (txDrain p 1024 (portUp p (modLink p (activeAgain p (takeWidth p w (setLink p l s)).tor.tor) (takeWidth p w (setLink p l s)))))) := by
  have hset := frame_setLink s p l
  obtain ⟨htake, x, hx⟩ := takeWidth_spec (p := p) w (setLink p l s)
  rw [linkOf_set] at hx
  generalize takeWidth p w (setLink p l s) = v at *
  have hmod := frame_modLink v p (activeAgain p v.tor.tor)
  have hlink := linkOf_mod p (activeAgain p v.tor.tor) v
  generalize modLink p (activeAgain p v.tor.tor) v = y at *
  have hup : Touches (.fstate :: runRegs) y (portUp p y) := frame_portUp
  have hdrain := frame_txDrain p 1024 (portUp p y)
  have hlinks : SameLink (linkOf p y) (linkOf p (txDrain p 1024 (portUp p y))) := SameLink.trans (hup .links (by decide) p) (hdrain .links (by decide) p)
  rw [hlink] at hlinks
  exact ⟨((((hset.mono (by decide)).trans (htake.mono (by decide))).trans (hmod.mono (by decide))).trans (hup.mono (by decide))).andThen hdrain, x, _, hx, hlinks⟩

end

/-- Settles O35, by what each operation leaves of the link. -/
theorem activeLinkKeepsLanesWidthAndKeys : Obligations.ActiveLinkKeepsLanesWidthAndKeys := by
  unfold Obligations.ActiveLinkKeepsLanesWidthAndKeys
  intro p v s hs ho he hv hg
  have hctl := linkCtl_of hv ho he
  refine ⟨fun hst => ?_, fun h6 hen hrot => ?_, fun t0 hold ht => ?_, ?_, fun m => ?_, fun m => ?_, fun x hx hretry => ?_, fun i hi hlock => ?_, ?_, fun hf => ?_, fun hf => ⟨fun h0 => ?_, fun h0 hgr hfab => ?_⟩,
    fun h6 => ?_, fun h6 => ?_, fun h7 lanes m l w hl hw => ⟨fun h0 => ?_, fun h0 => ?_⟩⟩
  · have hin : (linkIn p 5 s || linkIn p 6 s) = true := by rcases hst with h | h <;> simp [linkIn_of ho he h]
    refine ⟨fun hp missed skewed => ?_, fun l w hp ha hl hw h0 => ?_, fun m => ?_, fun hp ha => ⟨fun ht => ?_, fun ht => ?_⟩⟩
    · have halign := frame_sendAlign s p
      obtain ⟨a, hal⟩ := linkOf_sendAlign (p := p) s
      obtain ⟨hframe, b, c, k, y, a', hlink⟩ := laneChange_spec (p := p) (slotLanes p missed skewed) (sendAlign p s)
      obtain ⟨hlane, z, hz⟩ := slotLanes_spec (p := p) missed skewed (linkOf p (sendAlign p s))
      have hexec : exec (.alignmentSlot p missed skewed) s = done s (laneChange p (slotLanes p missed skewed) (sendAlign p s)) := (if_pos hin).trans (by rw [alignSlot_idle _ _ hp])
      have hall := (halign.mono (by decide)).trans hframe
      refine ⟨_, hexec.trans (done_framed hall hs), ?_, ?_, ?_, fun i hi => ?_, hall .sto (by decide), hall .flt (by decide)⟩
      · rw [hlink, hz, hal]
      · rw [hlink, hz, hal]
      · rw [hlink, hz, hal]
      · have hof : laneOf i (linkOf p (laneChange p (slotLanes p missed skewed) (sendAlign p s))) = slotLane missed skewed i (laneOf i (linkOf p s)) := by
          rw [hlink]
          exact (hlane i hi).trans (by rw [hal]; rfl)
        obtain ⟨hfail, -, hmiss⟩ := slotLane_failed missed skewed i (laneOf i (linkOf p s))
        rw [hof]
        exact ⟨hfail, hmiss⟩
    · obtain ⟨a, halign⟩ := alignSlot_agreed hp ha hl hw h0
      have hset : Touches (.links :: .idle :: sendRegs) s (setLink p (alignedLink a l) (sendAlign p s)) := ((frame_sendAlign s p).mono (by decide)).trans ((frame_setLink _ p _).mono (by decide))
      obtain ⟨htake, x, hx⟩ := takeWidth_spec (p := p) w (setLink p (alignedLink a l) (sendAlign p s))
      rw [linkOf_set] at hx
      have hexec : exec (.alignmentSlot p [] []) s = done s (laneChange p (slotLanes p [] []) (takeWidth p w (setLink p (alignedLink a l) (sendAlign p s)))) := (if_pos hin).trans (by rw [halign])
      rw [hexec]
      generalize takeWidth p w (setLink p (alignedLink a l) (sendAlign p s)) = y at *
      obtain ⟨hlane, z, hz⟩ := slotLanes_spec (p := p) [] [] (linkOf p y)
      have hquiet : ownGood p (slotLanes p [] [] (linkOf p y)) = ownGood p (linkOf p y) := ownGood_of_lanes (fun i hi => by
        obtain ⟨hfail, hlock, -⟩ := slotLane_failed [] [] i (laneOf i (linkOf p y))
        rw [hlane i hi]
        exact ⟨hlock, hfail.trans (by simp)⟩) (by rw [hz])
      rw [laneChange_quiet hquiet]
      have hall : Touches (.links :: .idle :: recoverRegs) s (setLink p (slotLanes p [] [] (linkOf p y)) y) := ((hset.mono (by decide)).trans htake).trans ((frame_setLink y p _).mono (by decide))
      obtain ⟨t, hdone, htold⟩ := done_told (b := s) (due_of_still (hall .still (by decide)) hs hg) (hall .pending (by decide))
      have hlink := htold .links (by decide) p
      rw [linkOf_set, hz] at hlink
      obtain ⟨hst', -, hwidth, hgroup, -⟩ := hlink.fields
      obtain ⟨hst'', -, hwidth', hgroup', -⟩ := hx.fields
      have hpend : (linkOf p t).widthPending = (linkOf p y).widthPending := (congrArg Link.widthPending hlink.1 :)
      have hpend' : (linkOf p y).widthPending = l.widthPending := (congrArg Link.widthPending hx.1 :)
      have hstate : l.state = (linkOf p s).state := by
        obtain ⟨x, hx⟩ := markOff_fields (p := p) (linkOf p s)
        rw [hl, hx]
      refine ⟨t, hdone, hwidth.trans hwidth', hgroup.trans hgroup', hpend.trans (hpend'.trans (by rw [hl])), hst'.trans (hst''.trans hstate)⟩
    · obtain ⟨hframe, y, a, hlink⟩ := onWidth_spec (p := p) m.toNat s
      have hexec : exec (.widthFlit p m) s = done s (onWidth p m.toNat s) := if_pos hin
      refine ⟨_, hexec.trans (done_framed hframe hs), ?_, ?_, ?_, ?_, ?_, hframe .sto (by decide), hframe .flt (by decide)⟩ <;> rw [hlink]
    · obtain ⟨hframe, ⟨a, hlink⟩, hout⟩ := putWidth_spec (p := p) (linkOf p s).widthSent s
      have hexec : exec (.widthFlitRepeat p) s = done s (putWidth p (linkOf p s).widthSent s) := if_pos (by simp [hin, hp, ha, widthTicks, ht])
      exact ⟨_, hexec.trans (done_framed hframe hs), by rw [hlink], hout, hframe .sto (by decide), hframe .flt (by decide)⟩
    · have hticks : widthTicks = 4000 := rfl
      exact if_neg fun h => absurd (of_decide_eq_true (Bool.and_eq_true_iff.mp h).2) (by rw [hticks]; omega)
  · refine (if_pos ?_).trans (done_setLink hs _)
    have hperiod : rotPeriod = 2400000000000 := rfl
    simp [linkIn_of ho he h6, hen, hperiod, hrot]
  · have hexec : exec (.keyPhaseErase p) s = done s (modLink p (fun l => { l with oldPhaseUntil := none, ivOld := 0 }) s) := by
      change execKeyPhaseErase p s = _
      unfold execKeyPhaseErase
      simp only [hold]
      exact if_pos ⟨ho, he, ht⟩
    exact hexec.trans (done_setLink hs _)
  · have hframe := frame_modLink s p clearCounters
    refine ⟨_, (if_pos hctl : exec (.cntClr v p) s = _).trans (done_setLink hs _), ?_, ?_, ?_, ?_, ?_, ?_, ?_, ?_, ?_, ?_, hframe .sto (by decide), hframe .flt (by decide)⟩ <;> rw [linkOf_set] <;> rfl
  · obtain ⟨b, c, k, w, a, hdone, hlink, hflt⟩ := done_laneChange (p := p) hs fun l => { l with laneOff := m.toNat % 256 }
    refine ⟨_, (if_pos hctl : exec (.laneOff v p m) s = _).trans hdone, ?_, ?_, ?_, hflt⟩
    · rw [show linkOf p _ = _ from hlink]
      exact Nat.mod_eq_of_lt m.isLt
    · rw [show linkOf p _ = _ from hlink]
    · rw [show linkOf p _ = _ from hlink]
  · obtain ⟨hlane, x, hx⟩ := laneFold laneStep_retry (maskLanes p m.toNat) (List.nodup_range.filter _) (linkOf p s)
    have hlink : linkOf p (laneRetrySet p m.toNat s) = (maskLanes p m.toNat).foldl retryStep (linkOf p s) :=
      linkOf_mod p _ s
    have hexec : exec (.laneRetry v p m) s = .next (laneRetrySet p m.toNat s) := (if_pos hctl).trans (done_setLink hs _)
    refine ⟨_, hexec, ?_, ?_, fun i hi => ?_⟩
    · rw [hlink, hx]
    · rw [hlink, hx]
    · rw [hlink, hlane]
      by_cases hb : m.getLsbD i = true
      · have hmem : i ∈ maskLanes p m.toNat := List.mem_filter.mpr ⟨List.mem_range.mpr hi, hb⟩
        rw [if_pos hmem, hb, Bool.true_and]
      · have hmem : i ∉ maskLanes p m.toNat := fun h => hb (List.mem_filter.mp h).2
        rw [if_neg hmem, Bool.eq_false_iff.mpr hb, Bool.false_and, Bool.or_false]
  · obtain ⟨b, c, k, w, a, hdone, hlink, hflt⟩ := done_laneChange (p := p) hs (takeLanes p true [x])
    have hexec : exec (.laneRetryComplete p x) s = done s (laneChange p (takeLanes p true [x]) s) := if_pos (by simp [ho, he, hretry])
    have hof : laneOf x.lane (linkOf p (laneChange p (takeLanes p true [x]) s)) =
        { (laneOf x.lane (linkOf p s)) with lock := x.locked, margin := min x.margin 255, failed := (laneOf x.lane (linkOf p s)).failed && !x.locked, missed := 0, retry := false } := by
      rw [hlink]
      change laneOf x.lane (takeLanes p true [x] (linkOf p s)) = _
      rw [takeLanes_one x _ hx, laneOf_setLane, if_pos rfl]
    refine ⟨_, hexec.trans hdone, ?_, ?_, ?_, hflt⟩ <;> rw [hof]
  · obtain ⟨b, c, k, w, a, hdone, hlink, hflt⟩ := done_laneChange (p := p) hs fun l => setLane i { (laneOf i l) with lock := false } l
    have hexec : exec (.laneLockLoss p i) s = done s (laneChange p (fun l => setLane i { (laneOf i l) with lock := false } l) s) := if_pos (by simp [ho, he, hi, hlock])
    have hof : ∀ j, laneOf j (linkOf p (laneChange p (fun l => setLane i { (laneOf i l) with lock := false } l) s)) =
        if j = i then { (laneOf i (linkOf p s)) with lock := false } else laneOf j (linkOf p s) := fun j => by
      rw [hlink]
      exact laneOf_setLane i j _ _
    refine ⟨_, hexec.trans hdone, ?_, fun j hj => (hof j).trans (if_neg hj), hflt⟩
    rw [hof, if_pos rfl]
  · have hall : Touches linkRegs s (disablePort p s) := link_disablePort
    obtain ⟨t, hdone, htold⟩ := done_told (b := s) (due_of_still (hall .still (by decide)) hs hg) (hall .pending (by decide))
    have hlink := htold .links (by decide) p
    have hoff : linkOf p (disablePort p s) = { linkOf p (linkOff p s) with disable := true } := linkOf_mod p _ _
    rw [hoff] at hlink
    exact ⟨t, (if_pos hctl : exec (.linkDisable v p true) s = _).trans hdone, hlink.fields.1.trans linkIdle_state, (congrArg Link.disable hlink.1 :)⟩
  · have hexec : exec (.linkDisable v p false) s = done s (setDisable p false s) := if_pos hctl
    rw [hexec, show setDisable p false s = s from (if_neg Bool.false_ne_true).trans (if_pos hf)]
    exact done_framed (.refl [] s) hs
  · have hexec : exec (.linkDisable v p false) s = done s (setDisable p false s) := if_pos hctl
    have hset : setDisable p false s = setLink p { linkOf p s with disable := false } s :=
      ((if_neg Bool.false_ne_true).trans (if_neg (by simp [hf]))).trans (if_neg (by rw [linkOf_mod]; exact h0))
    rw [hexec, hset]
    exact done_setLink hs _
  · have hexec : exec (.linkDisable v p false) s = done s (setDisable p false s) := if_pos hctl
    have hmod := frame_modLink s p fun l => { l with disable := false }
    have hlink := linkOf_mod p (fun l => { l with disable := false }) s
    have hset : setDisable p false s = linkRestart p (modLink p (fun l => { l with disable := false }) s) :=
      ((if_neg Bool.false_ne_true).trans (if_neg (by simp [hf]))).trans (if_pos (by rw [linkOf_mod]; exact h0))
    have htor : (modLink p (fun l => { l with disable := false }) s).tor = s.tor := hmod .tor (by decide)
    have hen : portEnabled p (modLink p (fun l => { l with disable := false }) s) = true := by
      have hgranted : portGranted p (modLink p (fun l => { l with disable := false }) s) = true := by
        have hpln : (modLink p (fun l => { l with disable := false }) s).pln = s.pln := hmod .pln (by decide)
        cases p <;> simpa only [portGranted, portRole, hpln] using hgr
      have hfab' : (modLink p (fun l => { l with disable := false }) s).arm.fstate ≠ 6 := (hmod .fstate (by decide) : _ = _) ▸ hfab
      unfold portEnabled
      rw [hgranted, hlink]
      cases p <;> simp [hfab']
    rw [hexec, hset, linkRestart, if_pos hen]
    refine ⟨_, done_framed (hmod.trans (frame_modLink _ p _)) hs, ?_, ?_, ?_⟩ <;> rw [linkOf_mod, hlink]
    rw [htor]
  · have hexec : exec (.retrain v p) s = done s (enterRecovery p s) := if_pos hctl
    rw [hexec, show enterRecovery p s = s from if_pos h6]
    exact done_framed (.refl [] s) hs
  · obtain ⟨t, hdone, hlink⟩ := done_recovery (p := p) hs hg (.refl _ s) h6
    obtain ⟨hst, hsince, -, -, -, hsecret, -⟩ := hlink.fields
    have hrep : (linkOf p t).replay = (linkOf p s).replay := hlink.2.2.resolve_left (by simp [recoveryLink]) |>.resolve_left (by simp [recoveryLink])
    exact ⟨t, (if_pos hctl : exec (.retrain v p) s = _).trans hdone, hst, hsince, (congrArg Link.recoveries hlink.1 :), hrep, hsecret⟩
  · have hexec : exec (.recoveryComplete p lanes m) s = done s (recovered p lanes m.toNat s) := if_pos (linkIn_of ho he h7)
    obtain ⟨hall, x, y, hx, hy⟩ := recovered_spec (p := p) w l s
    rw [hexec, recovered_eq hl hw, if_neg h0]
    obtain ⟨t, hdone, htold⟩ := done_told (b := s) (due_of_still (hall .still (by decide)) hs hg) (hall .pending (by decide))
    have hlink := hy.trans (htold .links (by decide) p)
    obtain ⟨hst, -, hwidth, hgroup, -, hsecret, -⟩ := hlink.fields
    obtain ⟨-, -, hwidth', hgroup', -, hsecret', -⟩ := hx.fields
    have hfields : l.replay = (linkOf p s).replay ∧ l.secret = (linkOf p s).secret := by
      obtain ⟨a, ha⟩ := takeLanes_fields (p := p) true lanes (linkOf p s)
      obtain ⟨b, hb⟩ := markOff_fields (p := p) { takeLanes p true lanes (linkOf p s) with peerGood := m.toNat % 2 ^ portLanes p }
      rw [hl, hb, ha]
      exact ⟨rfl, rfl⟩
    refine ⟨t, hdone, hst, hwidth.trans hwidth', hgroup.trans hgroup', ?_, hsecret.trans (hsecret'.trans hfields.2)⟩
    have hold : (linkOf p s).replay.map (·.bytes) <+: y.replay.map (·.bytes) := hfields.1 ▸ hx.2.1.map _
    have hnew : (y.replay.map fun f => { f with replays := 0 }).map (·.bytes) <+: (linkOf p t).replay.map (·.bytes) := hlink.2.1.map _
    rw [List.map_map] at hnew
    exact hold.trans hnew
  · have hexec : exec (.recoveryComplete p lanes m) s = done s (recovered p lanes m.toNat s) := if_pos (linkIn_of ho he h7)
    rw [hexec, recovered_eq hl hw, if_pos h0]
    obtain ⟨t, hdone, hlink, -⟩ := done_linkDown (p := p) hs hg (frame_setLink s p l)
    exact ⟨t, hdone, hlink.fields.1⟩

end Sys2Proof.Machine
end


section
set_option Elab.async false
/-! PROOFS. O38: node IDs, advertisements and route epochs. -/

namespace Sys2Proof.Machine

section
variable {s t u : State}

/-! ### What the end of a command tells of the fabric -/

/-- The fabric but for what is told of this module. -/
def untold (a : Fabric) : Fabric := { a with seq := 0, db := [], change := false, dbChange := 0 }

/-- From one to the other the fabric has told other modules of this one at most: its own entry of the database is new. -/
structure Told (s t : State) : Prop where
  rest : untold t.arm = untold s.arm
  db : ∀ n, s.arm.node ≠ some n → tget none n t.arm.db = tget none n s.arm.db
  change : s.arm.change = true → t.arm.change = true

theorem Told.node (h : Told s t) : t.arm.node = s.arm.node := (congrArg Fabric.node h.rest :)

theorem Told.trans (h : Told s t) (k : Told t u) : Told s u :=
  ⟨k.rest.trans h.rest, fun n hn => (k.db n (h.node ▸ hn)).trans (h.db n hn), fun hc => k.change (h.change hc)⟩

theorem told_of_arm (h : t.arm = s.arm) : Told s t := ⟨by rw [h], fun _ _ => by rw [h], fun hc => h ▸ hc⟩

theorem Told.refl (s : State) : Told s s := told_of_arm rfl

/-- The fabric with this module's own advertisement in its database. -/
def ownTold (n : Nat) (s : State) : State :=
  { s with arm := { s.arm with seq := (ownAdv n s).seq, db := tset none n (some { adv := ownAdv n s, seen := s.tor.tor }) s.arm.db } }

theorem floodOwn_eq {n : Nat} (hn : s.arm.node = some n) : floodOwn s = floodAdv (fun _ => true) (ownAdv n s) (ownTold n s) := by
  unfold floodOwn
  split
  next h => exact absurd (hn.symm.trans h) (by simp)
  next m hm =>
    obtain rfl := Option.some.inj (hn.symm.trans hm)
    rfl

theorem tget_ownTold (n k : Nat) (s : State) : tget none k (ownTold n s).arm.db = if k = n then some { adv := ownAdv n s, seen := s.tor.tor } else tget none k s.arm.db := by
  change tget none k (tset none n (some { adv := ownAdv n s, seen := s.tor.tor }) s.arm.db) = _
  exact tget_tset ..

theorem told_ownTold {n : Nat} (hn : s.arm.node = some n) : Told s (ownTold n s) :=
  ⟨rfl, fun k hk => (tget_ownTold n k s).trans (if_neg fun e => hk (hn.trans (congrArg some e.symm))), id⟩

theorem told_floodOwn : Told s (floodOwn s) := by
  cases hn : s.arm.node with
  | none =>
    have heq : floodOwn s = s := by
      unfold floodOwn
      simp only [hn]
    rw [heq]
    exact .refl s
  | some n =>
    rw [floodOwn_eq hn]
    exact (told_ownTold hn).trans (told_of_arm (frame_floodAdv _ _ _ .arm (by decide)))

theorem told_announceChange : Told s (announceChange s) := by
  unfold announceChange
  split
  · have hchange : Told s (dbChanged s) := ⟨rfl, fun _ _ => rfl, fun _ => rfl⟩
    exact hchange.trans told_floodOwn
  · exact .refl s

theorem told_checkMaster : Told s (checkMaster s) := told_of_arm (frame_checkMaster s .arm (by decide))

theorem told_settle {b : State} (hd : s.flt.due = []) : Told s (settle b s) := by
  have hflood : Told s (torFlood b s) := by
    unfold torFlood
    split
    · exact told_announceChange
    · exact .refl s
  have hsignal : Told (torFlood b s) (signalStates b (torFlood b s)) := told_of_arm (frame_signalStates _ b .arm (by decide))
  unfold settle
  rw [settleDue_quiet _ hd]
  exact (hflood.trans hsignal).trans (told_of_arm rfl)

/-- A command that makes no step due, with what its end tells of the fabric. -/
theorem done_toldFabric {b : State} (hd : s.flt.due = []) (hp : s.pending = b.pending) :
    ∃ t, done b s = .next t ∧ Touches [.out, .pf0, .arm, .armLink, .chLink] s t ∧ Told s t :=
  ⟨_, rfl, frame_settle hd hp, told_settle hd⟩

/-! ### Node IDs -/

theorem setNode_node (n : Option Nat) (s : State) : (setNode n s).arm.node = n := by
  unfold setNode
  extract_lets a b v
  split <;> rfl

theorem frame_takeNode (n : Nat) (s : State) : Touches [.arm, .node, .sto, .mem] s (takeNode n s) :=
  (frame_setNode (some n) s).andThen (frame_fabric _ _ rfl rfl)

theorem takeNode_node (n : Nat) (s : State) : (takeNode n s).arm.node = some n := setNode_node (some n) s

/-- A module that joins under the ID it claims. -/
def claimedNode (s : State) : State := { s with arm := { s.arm with claimed := some s.tor.tor, fstate := 3, routes := [] } }

theorem exec_nodeIdClaim (hs : Safety.settled s) (ho : operating s = true) (h : mayClaim s = true) :
    ∃ t, exec .nodeIdClaim s = .next t ∧ t.arm.node = some (claimId s) ∧ t.arm.fstate = 3 ∧ t.arm.claimed = some s.tor.tor ∧ t.flt.status = s.flt.status := by
  have hexec : exec .nodeIdClaim s = done s (announceChange (claimedNode (takeNode (claimId s) s))) := if_pos (by simp [ho, h])
  have hv := frame_takeNode (claimId s) s
  have hnode := takeNode_node (claimId s) s
  rw [hexec]
  generalize takeNode (claimId s) s = v at *
  have htor : v.tor = s.tor := hv .tor (by decide)
  have hset : Touches [.arm, .fstate, .node, .depart, .routing] v (claimedNode v) := frame_arm v _
  have hall : Touches [.arm, .node, .sto, .mem, .fstate, .depart, .routing, .out, .armLink, .chLink] s (announceChange (claimedNode v)) :=
    ((hv.mono (by decide)).andThen hset).andThen (frame_announceChange _)
  obtain ⟨t, hdone, htold, hfab⟩ := done_toldFabric (b := s) ((hall .due (by decide)).trans hs) (hall .pending (by decide))
  have hend := (told_announceChange.trans hfab).rest
  exact ⟨t, hdone, (congrArg Fabric.node hend :).trans hnode, (congrArg Fabric.fstate hend :), (congrArg Fabric.claimed hend :).trans (by rw [← htor]; rfl),
    (htold .status (by decide)).trans (hall .status (by decide))⟩

theorem exec_alone (hs : Safety.settled s) (ho : operating s = true) (hf : s.arm.fstate = 1) (ha : activeArm s = []) (ht : s.arm.discoStart + 40000000000 ≤ s.tor.tor) :
    ∃ t, exec .alone s = .next t ∧ t.arm.fstate = 2 ∧ t.arm.node = some (s.arm.node.getD 0) ∧ t.sto = s.sto := by
  have hticks : aloneTicks = 40000000000 := rfl
  obtain ⟨v, hv, hnode, hsto, hframe⟩ : ∃ v, v = (if s.arm.node.isSome then s else takeNode 0 s) ∧ v.arm.node = some (s.arm.node.getD 0) ∧ v.sto = s.sto ∧ Touches [.arm, .node, .sto, .mem] s v := by
    cases hn : s.arm.node with
    | some n => exact ⟨s, rfl, hn, rfl, .refl _ s⟩
    | none =>
      refine ⟨takeNode 0 s, rfl, takeNode_node 0 s, ?_, frame_takeNode 0 s⟩
      change (setNode (some 0) s).sto = s.sto
      unfold setNode
      extract_lets a b w
      rw [if_pos (show a = b by simp [a, b, hn])]
  have hexec : exec .alone s = done s (floodOwn { v with arm := { v.arm with fstate := 2 } }) := by
    rw [hv]
    exact if_pos ⟨ho, hf, by simp [ha], by rw [hticks]; exact ht⟩
  have hset := frame_arm v { v.arm with fstate := 2 }
  have hall : Touches [.arm, .node, .sto, .mem, .fstate, .depart, .routing, .out, .armLink, .chLink] s (floodOwn { v with arm := { v.arm with fstate := 2 } }) :=
    ((hframe.mono (by decide)).andThen hset).andThen (frame_floodOwn _)
  obtain ⟨t, hdone, htold, hfab⟩ := done_toldFabric (b := s) ((hall .due (by decide)).trans hs) (hall .pending (by decide))
  have hend := (told_floodOwn.trans hfab).rest
  have hflood : Touches [.out, .arm, .armLink, .chLink] { v with arm := { v.arm with fstate := 2 } } (floodOwn { v with arm := { v.arm with fstate := 2 } }) := frame_floodOwn _
  exact ⟨t, hexec.trans hdone, (congrArg Fabric.fstate hend :), (congrArg Fabric.node hend :).trans hnode, ((htold .sto (by decide)).trans (hflood .sto (by decide))).trans hsto⟩

/-! ### Advertisements -/

theorem exec_advertise_own (hs : Safety.settled s) (ho : operating s = true) {p n : Nat} {a : Adv} (h0 : s.arm.fstate ≠ 0) (h6 : s.arm.fstate ≠ 6) (ha : a.serial = Config.serial)
    (hn : s.arm.node = some n) (hold : ∀ m, tget none n s.arm.db = some m → m.seen + 400000000 ≤ s.tor.tor) :
    ∃ t, exec (.linkStateAdvertisement p a) s = .next t ∧ t.arm.seq = s.arm.seq + 1 ∧ tget none n t.arm.db = some { adv := ownAdv n s, seen := s.tor.tor } ∧ t.sto = s.sto ∧ t.flt = s.flt := by
  have hticks : advTicks = 400000000 := rfl
  have hexec : exec (.linkStateAdvertisement p a) s = done s (floodOwn s) := by
    change execLinkStateAdvertisement p a s = _
    unfold execLinkStateAdvertisement
    rw [if_neg (by simp [ho, h0, h6]), if_pos ha]
    simp only [hn, Option.bind_some]
    cases hm : tget none n s.arm.db with
    | none => rfl
    | some m => exact if_pos (by rw [hticks]; exact hold m hm)
  have hframe := frame_floodOwn s
  have harm : (floodOwn s).arm = (ownTold n s).arm := by
    rw [floodOwn_eq hn]
    exact frame_floodAdv _ _ _ .arm (by decide)
  refine ⟨_, hexec.trans (done_framed hframe hs), ?_, ?_, hframe .sto (by decide), hframe .flt (by decide)⟩ <;> rw [harm]
  · rfl
  · exact (tget_ownTold n n s).trans (if_pos rfl)

/-- An advertisement of another module, from port `p`. -/
theorem exec_advertise (ho : operating s = true) {p : Nat} {a : Adv} (h0 : s.arm.fstate ≠ 0) (h6 : s.arm.fstate ≠ 6) (ha : a.serial ≠ Config.serial) (hp : p < 8)
    (hact : portActive (.arm p) s = true) (hn : a.node < 64) : exec (.linkStateAdvertisement p a) s = done s (onAdv p a s) := by
  change execLinkStateAdvertisement p a s = _
  unfold execLinkStateAdvertisement
  rw [if_neg (by simp [ho, h0, h6]), if_neg ha, if_pos ⟨hp, hact, hn⟩]

/-- The fabric's database with another module's advertisement. -/
def advStored (a : Adv) (s : State) : State := { s with arm := { s.arm with db := tset none a.node (some { adv := a, seen := s.tor.tor }) s.arm.db } }

/-- From one to the other the members other than this module are as before. -/
structure Members (s t : State) : Prop where
  node : t.arm.node = s.arm.node
  db : ∀ n, s.arm.node ≠ some n → tget none n t.arm.db = tget none n s.arm.db

theorem Members.trans (h : Members s t) (k : Members t u) : Members s u := ⟨k.node.trans h.node, fun n hn => (k.db n (h.node ▸ hn)).trans (h.db n hn)⟩

theorem Told.members (h : Told s t) : Members s t := ⟨h.node, h.db⟩

theorem Members.refl (s : State) : Members s s := (Told.refl s).members

/-- What taking an advertisement writes. -/
def advRegs : List FrameReg := [.arm, .routing, .tor, .flt, .live, .out, .armLink, .chLink]

/-- What an advertisement that is taken leaves: its entry, and the fabric but for what is told of this module. -/
theorem onAdv_newer {p : Nat} {a : Adv} (hn : s.arm.node ≠ some a.node) (hnew : ∀ m, tget none a.node s.arm.db = some m → m.adv.seq < a.seq) :
    Touches advRegs s (onAdv p a s) ∧ Members (advStored a s) (onAdv p a s) := by
  unfold onAdv
  extract_lets young x y z lost old newer same stored new pe peered checked flooded
  have hnewer : newer = true := by
    unfold newer old
    cases hm : tget none a.node s.arm.db with
    | none => rfl
    | some m => exact decide_eq_true (hnew m hm)
  rw [if_neg hn, if_neg (by simp [hnewer])]
  have hstored : Touches advRegs s (advStored a s) := (frame_fabric s (advStored a s).arm rfl rfl : Touches [.arm] s (advStored a s)).mono (by decide)
  have hpeered : Touches advRegs (advStored a s) peered ∧ Members (advStored a s) peered := by
    unfold peered
    split
    · exact ⟨(frame_setPeer p _ _).mono (by decide), ⟨rfl, fun _ _ => rfl⟩⟩
    · exact ⟨.refl _ _, .refl _⟩
  have hchecked : Touches advRegs peered checked ∧ Members peered checked := by
    unfold checked
    split
    · exact ⟨.refl _ _, .refl _⟩
    · have hchange : Members peered (dbChanged peered) := ⟨rfl, fun _ _ => rfl⟩
      have hframe : Touches [.arm] peered (dbChanged peered) := frame_fabric peered _ rfl rfl
      exact ⟨(hframe.mono (by decide)).trans ((frame_checkMaster _).mono (by decide)), hchange.trans told_checkMaster.members⟩
  have hflooded : Touches advRegs checked flooded ∧ Members checked flooded :=
    ⟨(frame_floodAdv checked _ a).mono (by decide), (told_of_arm (frame_floodAdv checked _ a .arm (by decide))).members⟩
  have hown : Touches advRegs flooded (if new = true then floodOwn flooded else flooded) ∧ Members flooded (if new = true then floodOwn flooded else flooded) := by
    split
    · exact ⟨(frame_floodOwn _).mono (by decide), told_floodOwn.members⟩
    · exact ⟨.refl _ _, .refl _⟩
  exact ⟨(((hstored.trans hpeered.1).trans hchecked.1).trans hflooded.1).trans hown.1, ((hpeered.2.trans hchecked.2).trans hflooded.2).trans hown.2⟩

theorem onAdv_older {p : Nat} {a : Adv} {m : Member} (hn : s.arm.node ≠ some a.node) (hm : tget none a.node s.arm.db = some m) (hold : a.seq ≤ m.adv.seq) : onAdv p a s = s := by
  unfold onAdv
  extract_lets young x y z lost old newer same stored new pe peered checked flooded
  rw [if_neg hn, if_pos]
  simp only [newer, old, hm, Bool.not_eq_true', decide_eq_false_iff_not, not_lt]
  exact hold

theorem exec_advertise_newer (hs : Safety.settled s) (ho : operating s = true) {p : Nat} {a : Adv} (h0 : s.arm.fstate ≠ 0) (h6 : s.arm.fstate ≠ 6) (ha : a.serial ≠ Config.serial) (hp : p < 8)
    (hact : portActive (.arm p) s = true) (ha64 : a.node < 64) (hn : s.arm.node ≠ some a.node) (hnew : ∀ m, tget none a.node s.arm.db = some m → m.adv.seq < a.seq) :
    ∃ t, exec (.linkStateAdvertisement p a) s = .next t ∧ tget none a.node t.arm.db = some { adv := a, seen := s.tor.tor } ∧
      (∀ n, n ≠ a.node → s.arm.node ≠ some n → tget none n t.arm.db = tget none n s.arm.db) ∧ t.sto = s.sto := by
  obtain ⟨hframe, hmem⟩ := onAdv_newer (p := p) hn hnew
  obtain ⟨t, hdone, htold, hfab⟩ := done_toldFabric (b := s) ((hframe .due (by decide)).trans hs) (hframe .pending (by decide))
  have hall := hmem.trans hfab.members
  have hof : ∀ n, tget none n (advStored a s).arm.db = if n = a.node then some { adv := a, seen := s.tor.tor } else tget none n s.arm.db := fun n => by
    change tget none n (tset none a.node (some { adv := a, seen := s.tor.tor }) s.arm.db) = _
    exact tget_tset ..
  exact ⟨t, (exec_advertise ho h0 h6 ha hp hact ha64).trans hdone, (hall.db a.node hn).trans ((hof _).trans (if_pos rfl)), fun n h hk => (hall.db n hk).trans ((hof n).trans (if_neg h)),
    (htold .sto (by decide)).trans (hframe .sto (by decide))⟩

/-- A module that claims no ID. -/
def claimDropped (a : Adv) (s : State) : State := { s with arm := { s.arm with db := tdel a.node s.arm.db, claimed := none } }

/-- A module without a node ID. -/
def unclaimed (a : Adv) (s : State) : State := setNode none (claimDropped a s)

/-- A module that begins discovery again, with another's advertisement in its database. -/
def rediscovering (a : Adv) (s : State) : State :=
  { s with arm := { s.arm with fstate := 1, db := tset none a.node (some { adv := a, seen := s.tor.tor }) s.arm.db, dbChange := s.tor.tor } }

theorem exec_advertise_lost (hs : Safety.settled s) (ho : operating s = true) {p t0 : Nat} {a : Adv} (h0 : s.arm.fstate ≠ 0) (h6 : s.arm.fstate ≠ 6) (ha : a.serial ≠ Config.serial) (hp : p < 8)
    (hact : portActive (.arm p) s = true) (ha64 : a.node < 64) (hn : s.arm.node = some a.node) (hc : s.arm.claimed = some t0) (ht : s.tor.tor < t0 + 40000000)
    (hlow : a.serial.toNat < Config.serial.toNat) :
    ∃ t, exec (.linkStateAdvertisement p a) s = .next t ∧ t.arm.node = none ∧ t.arm.fstate = 1 ∧ tget none a.node t.arm.db = some { adv := a, seen := s.tor.tor } := by
  have hticks : claimTicks = 40000000 := rfl
  have hon : onAdv p a s = floodAdv (fun q => q != p) a (rediscovering a (unclaimed a s)) := by
    unfold onAdv
    extract_lets young x y z lost old newer same stored new pe peered checked flooded
    have hyoung : young = true := by
      unfold young
      simp only [hc, hticks]
      exact decide_eq_true ht
    rw [if_pos hn, if_pos ⟨hyoung, hlow⟩]
    rfl
  have hclaim : Touches [.arm, .fstate, .node, .depart, .routing, .sto, .mem] s (unclaimed a s) :=
    ((frame_arm s (claimDropped a s).arm : Touches _ s (claimDropped a s)).mono (by decide)).andThen (frame_setNode none _)
  have htor : (unclaimed a s).tor = s.tor := hclaim .tor (by decide)
  have hframe : Touches [.arm, .fstate, .node, .depart, .routing, .sto, .mem, .out, .armLink, .chLink] s (onAdv p a s) := by
    rw [hon]
    exact ((hclaim.mono (by decide)).andThen (frame_arm _ _)).andThen (frame_floodAdv _ _ a)
  have harm : (onAdv p a s).arm = (rediscovering a (unclaimed a s)).arm := by
    rw [hon]
    exact frame_floodAdv _ _ a .arm (by decide)
  obtain ⟨t, hdone, htold, hfab⟩ := done_toldFabric (b := s) ((hframe .due (by decide)).trans hs) (hframe .pending (by decide))
  have hnode : (onAdv p a s).arm.node = none := by
    rw [harm]
    exact setNode_node none _
  refine ⟨t, (exec_advertise ho h0 h6 ha hp hact ha64).trans hdone, hfab.node.trans hnode, (congrArg Fabric.fstate hfab.rest :).trans (by rw [harm]; rfl), (hfab.db a.node (by simp [hnode])).trans ?_⟩
  rw [harm, ← htor]
  exact tget_tset_same none a.node (some { adv := a, seen := (unclaimed a s).tor.tor }) (unclaimed a s).arm.db

/-! ### Members that fall silent -/

theorem exec_memberTimeout (ho : operating s = true) {n : Nat} {m : Member} (hm : tget none n s.arm.db = some m) (hn : s.arm.node ≠ some n) :
    exec (.memberTimeout n) s = if m.seen + 4000000000 ≤ s.tor.tor then done s (dropMember n s) else .next s := by
  have hticks : memberTicks = 4000000000 := rfl
  change execMemberTimeout n s = _
  unfold execMemberTimeout
  simp only [hm, hticks, ho, true_and]
  exact if_congr (by simp [hn]) rfl rfl

/-- The database without a member. -/
def memberOut (n : Nat) (s : State) : State := { s with arm := { s.arm with db := tset none n none s.arm.db } }

theorem tget_memberOut (n k : Nat) (s : State) : tget none k (memberOut n s).arm.db = if k = n then none else tget none k s.arm.db := by
  change tget none k (tset none n none s.arm.db) = _
  exact tget_tset ..

theorem dropMember_spec (n : Nat) (s : State) : Touches [.arm, .tor, .flt, .live] s (dropMember n s) ∧ Told (dbChanged (memberOut n s)) (dropMember n s) := by
  have harm : Touches [.arm] s (dbChanged (memberOut n s)) := frame_fabric s (dbChanged (memberOut n s)).arm rfl rfl
  exact ⟨(harm.mono (by decide)).andThen (frame_checkMaster _), told_checkMaster⟩

theorem exec_memberTimeout_due (hs : Safety.settled s) (ho : operating s = true) {n : Nat} {m : Member} (hm : tget none n s.arm.db = some m) (hn : s.arm.node ≠ some n)
    (ht : m.seen + 4000000000 ≤ s.tor.tor) : ∃ t, exec (.memberTimeout n) s = .next t ∧ tget none n t.arm.db = none ∧ t.arm.change = true ∧
      ∀ k, k ≠ n → s.arm.node ≠ some k → tget none k t.arm.db = tget none k s.arm.db := by
  obtain ⟨hframe, hdrop⟩ := dropMember_spec n s
  obtain ⟨t, hdone, -, hfab⟩ := done_toldFabric (b := s) ((hframe .due (by decide)).trans hs) (hframe .pending (by decide))
  have hall := hdrop.trans hfab
  refine ⟨t, (exec_memberTimeout ho hm hn).trans ((if_pos ht).trans hdone), (hall.db n hn).trans ((tget_memberOut n n s).trans (if_pos rfl)), hall.change rfl, fun k hk hne => ?_⟩
  exact (hall.db k hne).trans ((tget_memberOut n k s).trans (if_neg hk))

/-! ### Route epochs -/

theorem frame_computeRoutes (s : State) : Touches [.flt, .arm] s (computeRoutes s).2 := by
  unfold computeRoutes
  split
  · exact .refl _ s
  · extract_lets db
    refine touches_foldl_on (fun r : Tab Route × State => r.2) (fun r d => ?_) _ ([], s)
    extract_lets x t
    have ht : Touches [.flt, .arm] r.2 t := touches_ite (fun _ => (frame_logState _ _ _).mono (by decide)) fun _ => .refl _ _
    exact touches_ite (fun _ => ht.andThen (frame_fabric t _ rfl rfl)) fun _ => ht

theorem frame_floodEpoch (num tor : Nat) (digest : List Byte) (s : State) : Touches sendRegs s (floodEpoch num tor digest s) :=
  ((frame_emit s _).mono (by decide)).trans (touches_foldl (fun _ _ => frame_mgtSend _ _ _ _) _ _)

theorem frame_castShadow (s : State) : Touches [.arm] s (castShadow s) := frame_fabric s _ rfl rfl

/-- A route epoch that is to come. -/
def epochNext (e : EpochAnn) (s : State) : State := castShadow { s with arm := { s.arm with next := some e, change := false } }

theorem frame_epochNext (e : EpochAnn) (s : State) : Touches [.arm, .routing] s (epochNext e s) := frame_routing s (epochNext e s).arm rfl rfl

/-- An epoch that is announced, here or by another module. -/
theorem done_epochNext (hs : Safety.settled s) (e : EpochAnn) : ∃ t, done s (floodEpoch e.num e.tor e.digest (epochNext e s)) = .next t ∧ t.arm.next = some e ∧ t.arm.change = false ∧
    t.arm.routes = s.arm.routes ∧ t.flt = s.flt := by
  have hflood := frame_floodEpoch e.num e.tor e.digest (epochNext e s)
  have hall : Touches [.arm, .routing, .out, .armLink, .chLink] s (floodEpoch e.num e.tor e.digest (epochNext e s)) := ((frame_epochNext e s).mono (by decide)).andThen hflood
  have harm : (floodEpoch e.num e.tor e.digest (epochNext e s)).arm = (epochNext e s).arm := hflood .arm (by decide)
  refine ⟨_, done_framed hall hs, ?_, ?_, ?_, hall .flt (by decide)⟩ <;> rw [harm] <;> rfl

theorem exec_epochAnnounce_own (hs : Safety.settled s) (ho : operating s = true) (ha : announcer s = true) (hc : s.arm.change = true) (hn : s.arm.next = none) :
    ∃ t e, exec (.epochAnnounce none) s = .next t ∧ t.arm.next = some e ∧ e.num = s.arm.epoch + 1 ∧ e.digest = dbDigest s ∧ e.tor % 4000000 = 0 ∧
      s.tor.tor + 4000000 ≤ e.tor ∧ e.tor < s.tor.tor + 8000000 ∧ t.arm.routes = s.arm.routes ∧ t.flt = s.flt := by
  have hexec : exec (.epochAnnounce none) s = done s (announceEpoch s) := (if_neg (by simp [ho])).trans (if_pos (by simp [ha, hc, hn]))
  have htor : switchTor s = (s.tor.tor + 4000000 + 4000000 - 1) / 4000000 * 4000000 := rfl
  obtain ⟨t, hdone, hnext, -, hroutes, hflt⟩ := done_epochNext hs { num := s.arm.epoch + 1, tor := switchTor s, digest := dbDigest s }
  refine ⟨t, _, hexec.trans hdone, hnext, rfl, rfl, ?_, ?_, ?_, hroutes, hflt⟩ <;> dsimp only <;> rw [htor] <;> omega

theorem exec_epochAnnounce (ho : operating s = true) (ha : activeArm s ≠ []) (num tor : Nat) (digest : List Byte) :
    exec (.epochAnnounce (some (num, tor, digest))) s = done s (onEpoch num tor digest s) :=
  (if_neg (by simp [ho])).trans (if_neg (by simp [ha]))

/-! ### The switch -/

theorem exec_routeEpochSwitch (ho : operating s = true) {e : EpochAnn} (hn : s.arm.next = some e) :
    exec .routeEpochSwitch s = if e.tor ≤ s.tor.tor then done s (fireStep s (switchEpoch e s)) else .next s := by
  change execRouteEpochSwitch s = _
  unfold execRouteEpochSwitch
  simp only [hn, ho, true_and]

theorem fireStep_same (h : t.tor.step = s.tor.step) : fireStep s t = t := if_pos h

/-- A switch at which the digests differ is reported, and another epoch is asked for. -/
def epochRefused (e : EpochAnn) (s : State) : State :=
  { s with arm := { s.arm with next := none, change := true, shadow := [], shadowLabels := [], report := some (e.num, dbDigest s) } }

theorem exec_routeEpochSwitch_differs (hs : Safety.settled s) (ho : operating s = true) {e : EpochAnn} (hn : s.arm.next = some e) (ht : e.tor ≤ s.tor.tor) (hd : dbDigest s ≠ e.digest) :
    ∃ t, exec .routeEpochSwitch s = .next t ∧ t.arm.epoch = s.arm.epoch ∧ t.arm.next = none ∧ t.arm.routes = s.arm.routes ∧ t.arm.change = true ∧ t.flt = s.flt := by
  have hswitch : switchEpoch e s = floodEpoch e.num 0 (dbDigest s) (epochRefused e s) := if_pos hd
  have hset : Touches [.arm, .routing] s (epochRefused e s) := frame_routing s (epochRefused e s).arm rfl rfl
  have hflood := frame_floodEpoch e.num 0 (dbDigest s) (epochRefused e s)
  have hall : Touches [.arm, .routing, .out, .armLink, .chLink] s (floodEpoch e.num 0 (dbDigest s) (epochRefused e s)) := (hset.mono (by decide)).andThen hflood
  have htor : (floodEpoch e.num 0 (dbDigest s) (epochRefused e s)).tor = s.tor := hall .tor (by decide)
  have harm : (floodEpoch e.num 0 (dbDigest s) (epochRefused e s)).arm = (epochRefused e s).arm := hflood .arm (by decide)
  rw [exec_routeEpochSwitch ho hn, if_pos ht, hswitch, fireStep_same (by rw [htor])]
  refine ⟨_, done_framed hall hs, ?_, ?_, ?_, ?_, hall .flt (by decide)⟩ <;> rw [harm] <;> rfl

/-- The tables of a route epoch that begins. -/
def epochBegun (e : EpochAnn) (routes : Tab Route) (s : State) : State :=
  { s with arm := { s.arm with epoch := e.num, epochTor := e.tor, next := none, prev := s.arm.routes, prevUntil := e.tor + ticksMs, routes := routes,
                               prevLabels := s.arm.labels, labels := levelsOf (hopsOf (routeDb s)) (rootOf (routeDb s)), root := rootOf (routeDb s), shadow := [], shadowLabels := [],
                               leaveAt := if s.arm.fstate = 5 ∧ s.arm.telling.isNone then some (e.tor + ticksMs) else s.arm.leaveAt } }

/-- The module of a route epoch that began: its master is elected anew, and one that was joining is a member where its image is applied. -/
def epochFollowed (e : EpochAnn) (s : State) : State :=
  let t := takeOffice (elect (routeDb s)) (logState (srcPort (.arm 0)) e.num s)
  if t.arm.fstate = 3 ∧ partsApplied t then becomeMember t else t

/-- What a route epoch that begins writes besides the tables. -/
def followRegs : List FrameReg := [.tor, .flt, .live, .fstate, .arm, .out, .armLink, .chLink]

theorem epochFollowed_spec (e : EpochAnn) (hw : s.tor.window = false) : Touches followRegs s (epochFollowed e s) ∧ (epochFollowed e s).tor.step = s.tor.step := by
  have hlog : Touches [.flt] s (logState (srcPort (.arm 0)) e.num s) := frame_logState s _ _
  have htor : (logState (srcPort (.arm 0)) e.num s).tor = s.tor := hlog .tor (by decide)
  obtain ⟨hoffice, -, hstep⟩ := takeOffice_spec (elect (routeDb s)) (s := logState (srcPort (.arm 0)) e.num s) (by rw [htor, hw])
  unfold epochFollowed
  extract_lets t
  have ht : Touches followRegs s t := (hlog.mono (by decide)).trans (hoffice.mono (by decide))
  have hts : t.tor.step = s.tor.step := hstep.trans (by rw [htor])
  split
  · have hmember := frame_becomeMember t
    exact ⟨ht.trans (hmember.mono (by decide)), (congrArg TorS.step (hmember .tor (by decide)) :).trans hts⟩
  · exact ⟨ht, hts⟩

theorem exec_routeEpochSwitch_agrees (hs : Safety.settled s) (ho : operating s = true) {e : EpochAnn} (hn : s.arm.next = some e) (ht : e.tor ≤ s.tor.tor) (hd : dbDigest s = e.digest)
    (hw : s.tor.window = false) : ∃ t, exec .routeEpochSwitch s = .next t ∧ t.arm.epoch = e.num ∧ t.arm.epochTor = e.tor ∧ t.arm.next = none ∧
        t.arm.prev = s.arm.routes ∧ t.arm.prevUntil = e.tor + 4000000 ∧ t.arm.routes = (computeRoutes s).1 := by
  have hticks : ticksMs = 4000000 := rfl
  have hcompute := frame_computeRoutes s
  have hroutes : (computeRoutes s).2.arm.routes = s.arm.routes := (congrArg (fun x => x.2.1) (hcompute .routing (by decide) :) :)
  have htor : (computeRoutes s).2.tor = s.tor := hcompute .tor (by decide)
  have hswitch : switchEpoch e s = epochFollowed e (epochBegun e (computeRoutes s).1 (computeRoutes s).2) := if_neg (not_not.mpr hd)
  have hbegun : Touches [.arm, .fstate, .node, .depart, .routing] (computeRoutes s).2 (epochBegun e (computeRoutes s).1 (computeRoutes s).2) := frame_arm _ _
  obtain ⟨hfollow, hstep⟩ := epochFollowed_spec e (s := epochBegun e (computeRoutes s).1 (computeRoutes s).2) ((congrArg TorS.window htor :).trans hw)
  rw [exec_routeEpochSwitch ho hn, if_pos ht, hswitch, fireStep_same (hstep.trans (congrArg TorS.step htor :))]
  have hall : Touches [.tor, .flt, .live, .fstate, .arm, .node, .depart, .routing, .out, .armLink, .chLink] s (epochFollowed e (epochBegun e (computeRoutes s).1 (computeRoutes s).2)) :=
    ((hcompute.mono (by decide)).andThen hbegun).trans (hfollow.mono (by decide))
  obtain ⟨t, hdone, htold, -⟩ := done_toldFabric (b := s) ((hall .due (by decide)).trans hs) (hall .pending (by decide))
  have hrouting : routingOf t.arm = routingOf (epochBegun e (computeRoutes s).1 (computeRoutes s).2).arm := (htold .routing (by decide)).trans (hfollow .routing (by decide))
  refine ⟨t, hdone, (congrArg (fun x => x.2.2.2.2.1) hrouting :), (congrArg (fun x => x.2.2.2.2.2.1) hrouting :), (congrArg (fun x => x.2.2.2.2.2.2) hrouting :),
    (congrArg (fun x => x.2.2.1) hrouting :).trans hroutes, (congrArg (fun x => x.2.2.2.1) hrouting :).trans ?_, (congrArg (fun x => x.2.1) hrouting :)⟩
  change e.tor + ticksMs = _
  rw [hticks]

/-- A report of a digest that differs, at the announcer. -/
theorem exec_epochAnnounce_report (ho : operating s = true) (ha : activeArm s ≠ []) {num : Nat} {digest : List Byte} (hr : s.arm.report ≠ some (num, digest)) (han : announcer s = true)
    (hs : Safety.settled s) : exec (.epochAnnounce (some (num, 0, digest))) s = .next { s with arm := { s.arm with report := some (num, digest), change := true } } := by
  have hreport : onEpoch num 0 digest s = { s with arm := { s.arm with report := some (num, digest), change := true } } := (if_pos rfl).trans ((if_neg hr).trans (if_pos han))
  rw [exec_epochAnnounce ho ha, hreport]
  exact done_framed (frame_fabric s _ rfl rfl) hs

end

/-- Settles O38: a claim, a member that falls silent and a newer advertisement change the database as they say, and a route epoch swaps the tables where the digests agree. -/
theorem nodeIdsAdvertisementsAndEpochs : Obligations.NodeIdsAdvertisementsAndEpochs := by
  unfold Obligations.NodeIdsAdvertisementsAndEpochs
  intro s hs ho
  refine ⟨exec_nodeIdClaim hs ho, fun h => if_neg (by simp [h]), exec_alone hs ho, fun p a n h0 h6 ha hn => exec_advertise_own hs ho h0 h6 ha hn, fun p a h0 h6 ha hp hact hn => ?_, fun n m hm hn => ?_,
    exec_epochAnnounce_own hs ho, fun num tor digest ha ht => ?_, fun num digest ha hr han => exec_epochAnnounce_report ho ha hr han hs, fun e he => ?_, fun h => ?_, fun h => if_neg fun k => by omega⟩
  · refine ⟨exec_advertise_newer hs ho h0 h6 ha hp hact hn, fun m hne hm hold => ?_, fun t0 hnode hc ht hlow => exec_advertise_lost hs ho h0 h6 ha hp hact hn hnode hc ht hlow⟩
    rw [exec_advertise ho h0 h6 ha hp hact hn, onAdv_older hne hm hold]
    exact done_framed (.refl [] s) hs
  · exact ⟨exec_memberTimeout_due hs ho hm hn, fun ht => (exec_memberTimeout ho hm hn).trans (if_neg (by omega))⟩
  · constructor <;> intro hnum
    · intro hnext
      have hon : onEpoch num tor digest s = floodEpoch num tor digest (epochNext { num := num, tor := tor, digest := digest } s) := (if_neg ht).trans (if_neg (by simp [hnext, hnum]))
      rw [exec_epochAnnounce ho ha, hon]
      exact done_epochNext hs { num := num, tor := tor, digest := digest }
    · have hon : onEpoch num tor digest s = s := (if_neg ht).trans (if_pos hnum)
      rw [exec_epochAnnounce ho ha, hon]
      exact done_framed (.refl [] s) hs
  · exact ⟨fun ht => (exec_routeEpochSwitch ho he).trans (if_neg (by omega)), exec_routeEpochSwitch_agrees hs ho he, exec_routeEpochSwitch_differs hs ho he⟩
  · have hexec : exec .routeTableRetire s = done s { s with arm := { s.arm with prev := [] } } := if_pos ⟨ho, h⟩
    rw [hexec]
    exact done_framed (frame_routing s _ rfl rfl) hs

end Sys2Proof.Machine
end


section
set_option Elab.async false
/-! PROOFS. O40 fails: what waits for room is gathered from every entry of the table of transactions, and the statement looks at those that a read of the table returns. A
state in which a second entry of the same key stands behind the first, which no read returns, serves that entry's request as well. -/

namespace Sys2Proof.Machine

/-- A READ of node 1 for line 0. -/
def behindRead : Msg where
  via := 0; vc := 0; dest := 0; src := 1; kind := 2; tag := 0; epoch := false; resent := false; addr := 0; body := []

/-- Line 0 is recalled from node 1. -/
def lateRecall : HomeTxn where
  req := behindRead; waiting := 2; since := 0; forRecall := true

/-- A request that waits for the room of line 0. -/
def roomWaiter : HomeTxn := { lateRecall with forRecall := false, room := some 0 }

/-- A recall of line 0 is unanswered for 3 ms; a request that waits for its room stands behind another entry of key 7. -/
def shadowedWaiter : State where
  pwr := { on := true }
  tor := { tor := 12000000 }
  arm := { txn := [(0, some lateRecall), (7, some lateRecall), (7, some roomWaiter)] }
  dram := (List.range 16).map fun n => (n, { capGiB := 16 })

/-- The directory's entry of line 0 after a command. -/
def entryAfter : Host.Outcome State Fault Refusal → Option DirEntry
  | .next t => dirOf 0 t
  | _ => none

/-- The request behind the other entry is served, and node 1 holds line 0 again. -/
theorem snoopTimeout_servesShadowed : entryAfter (exec (.snoopTimeout 0) shadowedWaiter) = some { line := 0, owned := false, holders := 2 } := by decide +kernel

/-- No transaction that a read of the table returns waits for the room of line 0. -/
theorem shadowedWaiter_noRoom (n : Nat) (y : HomeTxn) (h : txnOf n shadowedWaiter = some y) : y.room ≠ some 0 := by
  have hof : txnOf n shadowedWaiter = if 0 = n then some lateRecall else if 7 = n then some lateRecall else if 7 = n then some roomWaiter else none := rfl
  have hy : y = lateRecall := by
    rw [hof] at h
    split_ifs at h <;> exact (Option.some.inj h).symm
  rw [hy]
  decide

theorem shadowedWaiter_noneWaits : Safety.noneWaits shadowedWaiter :=
  ⟨rfl, fun b q => by cases b <;> rfl, fun _ => rfl, rfl, rfl, rfl, rfl, rfl, fun _ => ⟨fun _ h => absurd h (by simp [raspOf, shadowedWaiter, tget]), fun _ h => absurd h (by simp [intOf, shadowedWaiter, tget]), rfl⟩⟩

/-- Refutes O40: the recall of line 0 ends, and a request that no read of the table of transactions shows gives node 1 the line at once, so that its entry of the directory stays. -/
theorem not_requestsCompleteOrTimeOut : ¬ Obligations.RequestsCompleteOrTimeOut := by
  unfold Obligations.RequestsCompleteOrTimeOut
  intro h
  obtain ⟨-, -, -, hsnoop⟩ := h shadowedWaiter rfl rfl shadowedWaiter_noneWaits
  obtain ⟨-, hlate⟩ := hsnoop 0 lateRecall rfl
  obtain ⟨hrecall, -⟩ := hlate (by decide) rfl rfl shadowedWaiter_noRoom
  obtain ⟨t, hexec, -, -, hdir, -⟩ := hrecall rfl
  have hserved := snoopTimeout_servesShadowed
  rw [hexec] at hserved
  exact absurd (hdir.symm.trans hserved) (by decide)

end Sys2Proof.Machine
end


section
set_option Elab.async false
/-! PROOFS. Agents that wait for nothing: what would wake them leaves the module as it is. -/

namespace Sys2Proof.Machine

section
variable {s t : State}

theorem raspLoad_rest {k : Nat} (h : ∀ j, (raspOf k s).job = some j → j.loaded = true) : raspLoad k s = s := by
  unfold raspLoad
  extract_lets e
  split
  · rfl
  next j hj => exact if_pos (h j hj)

theorem intLoad_rest {k : Nat} (h : ∀ j, (intOf k s).job = some j → j.loaded = true) : intLoad k s = s := by
  unfold intLoad
  extract_lets e
  split
  · rfl
  next j hj => exact if_pos (by simp [h j hj])

theorem lineNext_rest (h : s.ch.ops = []) (cipher : Bool) (hub : Nat) : lineNext cipher hub s = none := by
  unfold lineNext
  rw [h]
  rfl

theorem lineStart_rest (h : s.ch.ops = []) : lineStart s = s := by
  have hr : ∀ k, raspLineNext k s = none := fun k => by simp only [raspLineNext, lineNext_rest h, ite_self]
  have hi : ∀ k, intLineNext k s = none := fun k => by simp only [intLineNext, lineNext_rest h, ite_self]
  exact List.foldl_fixed' (fun k => by simp only [hr, hi, ite_self]) _

/-- No engine's job waits for what it reads. -/
def enginesRead (s : State) : Prop := ∀ k, (∀ j, (raspOf k s).job = some j → j.loaded = true) ∧ (∀ j, (intOf k s).job = some j → j.loaded = true)

theorem engLoad_rest (h : enginesRead s) : engLoad s = s :=
  List.foldl_fixed' (fun k => by rw [raspLoad_rest (h k).1, intLoad_rest (h k).2]) _

theorem chWakeAll_still (he : enginesRead s) (hc : s.ch.ops = []) : chWakeAll s = s := by
  have horder : chOrder s = [] := by
    unfold chOrder
    rw [hc]
    rfl
  unfold chWakeAll
  rw [engLoad_rest he]
  dsimp only
  rw [horder]
  exact lineStart_rest hc

theorem chWakeAll_rest (h : Safety.noneWaits s) : chWakeAll s = s := by
  obtain ⟨hops, -, -, -, -, -, -, -, heng⟩ := h
  exact chWakeAll_still (fun k => ⟨(heng k).1, (heng k).2.1⟩) hops

theorem postDue_rest (hp : ∀ b q, (queueOf b q s).post = none) (hk : ∀ k, (intOf k s).posting = none) : postDue s = s := by
  have hgo : ∀ (b : QBlock) (qs : List Nat), qs.foldl (fun s q => match (queueOf b q s).post with
      | some r => if agentPending (queueAgent b q) s then s else postNow b q r.1 r.2 s
      | none => s) s = s := fun b qs => List.foldl_fixed' (fun q => by simp only [hp]) qs
  unfold postDue
  extract_lets go u v
  have hu : u = s := hgo .rasp _
  have hv : v = s := by
    unfold v
    rw [hu]
    exact hgo .intaglio _
  rw [hv]
  exact List.foldl_fixed' (fun k => by simp only [hk]) _

theorem lossDue_rest (h : ∀ l, (coreOf l s).losing = none) (l : Nat) : lossDue l s = s := by
  unfold lossDue
  simp only [h]

theorem startDue_rest (h : s.pln.starting = []) : startDue s = s := if_pos (by simp [h])

theorem zeroNext_rest (h : s.pln.zero = []) : zeroNext s = s := by
  unfold zeroNext
  simp only [h, ite_self]

theorem agentLater_rest (h : s.arm.later = []) : agentLater s = s := by
  unfold agentLater
  rw [h, List.foldl_nil, ← h]

theorem memDue_rest {ss : Session} (h : (sessionOf ss s).mem = none) : memDue ss s = s := by
  unfold memDue
  simp only [h]

/-- With no agent waiting, an end of a wait wakes none. -/
theorem wakeAll_rest (h : Safety.noneWaits s) : wakeAll s = s := by
  obtain ⟨-, hpost, hlosing, hstart, hzero, hlater, huart, hmbx, heng⟩ := id h
  unfold wakeAll wakeAgents
  rw [agentLater_rest hlater, chWakeAll_rest h, postDue_rest hpost fun k => (heng k).2.2, List.foldl_fixed' (lossDue_rest hlosing), startDue_rest hstart,
    zeroNext_rest hzero, memDue_rest (ss := .uart) huart, memDue_rest (ss := .mailbox) hmbx]

/-- Agents that wait for nothing still do not where neither what they are at nor what is held for them has changed. -/
theorem noneWaits_of (h : Safety.noneWaits s) (hch : t.ch = s.ch) (heng : t.eng = s.eng) (hhp : t.hp = s.hp) (hpln : t.pln = s.pln) (hmq : t.mq = s.mq) (hlater : t.arm.later = s.arm.later)
    (hcore : ∀ l, ownOf (coreOf l t) = ownOf (coreOf l s)) : Safety.noneWaits t := by
  obtain ⟨hops, hpost, hlosing, hstart, hzero, hl, huart, hmbx, he⟩ := h
  refine ⟨by rw [hch, hops], fun b q => ?_, fun l => ?_, by rw [hpln, hstart], by rw [hpln, hzero], by rw [hlater, hl], by rw [hmq, huart], by rw [hmq, hmbx], fun k => ?_⟩
  · rw [← hpost b q]
    cases b <;> simp only [queueOf, heng, hhp]
  · exact (congrArg Core.losing (hcore l) :).trans (hlosing l)
  · simpa only [raspOf, intOf, heng] using he k

/-- A frame over what storage traffic and messages write keeps agents at rest. -/
theorem noneWaits_of_frame {rs : List FrameReg} (h : Safety.noneWaits s) (hf : Touches rs s t) (hlater : t.arm.later = s.arm.later)
    (hr : ∀ r ∈ [FrameReg.ch, .eng, .hp, .pln, .mq, .own], r ∉ rs := by decide) : Safety.noneWaits t :=
  noneWaits_of h (hf .ch (hr _ (by decide))) (hf .eng (hr _ (by decide))) (hf .hp (hr _ (by decide))) (hf .pln (hr _ (by decide))) (hf .mq (hr _ (by decide))) hlater (hf .own (hr _ (by decide)))

end

end Sys2Proof.Machine
end


section
set_option Elab.async false
/-! PROOFS. A line of this module's storage of which no core holds what its home does not have. -/

namespace Sys2Proof.Machine

section
variable {s t u : State} {line : Nat}

/-- A core keeps no bytes of a line in a cache that was enabled again. -/
def noHeld (line : Nat) (c : Core) : Prop := tget none line c.held1 = none ∧ tget none line c.held2 = none

/-- No core holds a byte of a line that its home does not have. -/
def HomeHas (line : Nat) (s : State) : Prop := s.cpu.dirty = [] ∧ ∀ l, noHeld line (coreOf l s)

/-- From one to the other only caches, reservations and the record of replaced bytes change. -/
structure OnlyCaches (line : Nat) (s t : State) : Prop where
  frame : Touches [.sto, .cpu, .core] s t
  sto : ∃ x, t.sto = { s.sto with slices := x }
  dirty : t.cpu.dirty = s.cpu.dirty
  held : ∀ l, noHeld line (coreOf l s) → noHeld line (coreOf l t)

theorem OnlyCaches.trans (h : OnlyCaches line s t) (k : OnlyCaches line t u) : OnlyCaches line s u where
  frame := h.frame.trans k.frame
  sto := by
    obtain ⟨x, hx⟩ := h.sto
    obtain ⟨y, hy⟩ := k.sto
    exact ⟨y, by rw [hy, hx]⟩
  dirty := k.dirty.trans h.dirty
  held l := k.held l ∘ h.held l

theorem OnlyCaches.refl (line : Nat) (s : State) : OnlyCaches line s s := ⟨.refl _ s, ⟨_, rfl⟩, rfl, fun _ => id⟩

theorem OnlyCaches.arm (h : OnlyCaches line s t) : t.arm = s.arm := h.frame .arm (by decide)

theorem OnlyCaches.has (h : OnlyCaches line s t) (hh : HomeHas line s) : HomeHas line t := ⟨h.dirty.trans hh.1, fun l => h.held l (hh.2 l)⟩

theorem OnlyCaches.storedByte (h : OnlyCaches line s t) (a : Nat) : storedByte a t = storedByte a s := by
  obtain ⟨x, hx⟩ := h.sto
  simp only [Machine.storedByte, keyMask, hx]

theorem OnlyCaches.linePoisoned (h : OnlyCaches line s t) (n : Nat) : linePoisoned n t = linePoisoned n s := by
  obtain ⟨x, hx⟩ := h.sto
  simp only [Machine.linePoisoned, wbBuffer, hx, h.arm]

theorem OnlyCaches.isLocal (h : OnlyCaches line s t) (a : Nat) : isLocal a t = isLocal a s := by simp only [Machine.isLocal, h.arm]

/-- A change of one core's caches and reservation. -/
theorem caches_modCore (l : Nat) {f : Core → Core} (ho : ∀ c, ownOf (f c) = ownOf c) (hr : ∀ c, c.resv = none → (f c).resv = none)
    (hh : ∀ c, (f c).held1 = c.held1 ∧ (f c).held2 = c.held2) : OnlyCaches line s (modCore l f s) where
  frame := (frame_modCore_keeps s l ho hr).mono (by decide)
  sto := ⟨_, rfl⟩
  dirty := rfl
  held k hk := by
    rw [coreOf_modCore]
    split
    next e =>
      rw [noHeld, (hh _).1, (hh _).2, ← e]
      exact hk
    · exact hk

theorem caches_foldl {α : Type} {f : State → α → State} (hf : ∀ u x, OnlyCaches line u (f u x)) (xs : List α) : ∀ s, OnlyCaches line s (xs.foldl f s) := by
  induction xs with
  | nil => exact fun s => .refl line s
  | cons x xs ih => exact fun s => (hf s x).trans (ih _)

theorem caches_onCores (p : Nat → Bool) {f : Core → Core} (ho : ∀ c, ownOf (f c) = ownOf c) (hr : ∀ c, c.resv = none → (f c).resv = none)
    (hh : ∀ c, (f c).held1 = c.held1 ∧ (f c).held2 = c.held2) (s : State) : OnlyCaches line s (onCores p f s) :=
  caches_foldl (fun u l => by split; exacts [caches_modCore l ho hr hh, .refl line u]) _ s

theorem heldLines_loseResv (n : Nat) (c : Core) : (loseResv n c).held1 = c.held1 ∧ (loseResv n c).held2 = c.held2 := by
  unfold loseResv
  split <;> exact ⟨rfl, rfl⟩

theorem caches_lose (p : Nat → Bool) (n : Nat) (s : State) : OnlyCaches line s (onCores p (loseResv n) s) :=
  caches_onCores p (own_loseResv n) (fun c => (coreKeeps_loseResv n c).resv) (heldLines_loseResv n) s

theorem caches_drop (p : Nat → Bool) (n : Nat) (s : State) : OnlyCaches line s (onCores p (dropFromCore n) s) :=
  caches_onCores p (own_dropFromCore n) (fun c => (coreKeeps_dropFromCore n c).resv) (held_dropFromCore n) s

theorem caches_take (p : Nat → Bool) (n : Nat) (s : State) : OnlyCaches line s (onCores p (fun c => dropFromCore n (loseResv n c)) s) :=
  caches_onCores p (own_taken n) (fun c hc => (coreKeeps_dropFromCore n _).resv ((coreKeeps_loseResv n c).resv hc))
    (fun c => ⟨(held_dropFromCore n _).1.trans (heldLines_loseResv n c).1, (held_dropFromCore n _).2.trans (heldLines_loseResv n c).2⟩) s

theorem caches_snoopRead (l : Option Nat) (n : Nat) (s : State) : OnlyCaches line s (snoopRead l n s) := by
  refine caches_foldl (fun u e => ?_) _ s
  split
  · exact .refl line u
  · refine caches_modCore e.1 (fun c => ?_) (fun c hc => ?_) (fun c => ?_) <;> unfold snoopOff <;> split
    · rfl
    · rfl
    · exact hc
    · exact hc
    · exact ⟨rfl, rfl⟩
    · exact ⟨rfl, rfl⟩

theorem caches_sliceUse (n : Nat) (part : Option Nat) (s : State) : OnlyCaches line s (sliceUse n part s) where
  frame := ((frame_sliceUse n part).mono (by decide) : Touches [.mem, .sto, .cpu, .core] s _).holding (by
    unfold sliceUse
    extract_lets a p ways k set_
    split <;> rfl)
  sto := by
    unfold sliceUse
    extract_lets a p ways k set_
    split <;> exact ⟨_, rfl⟩
  dirty := congrArg CoresS.dirty (frame_sliceUse n part .cpu (by decide))
  held l hl := by
    have hcore : coreOf l (sliceUse n part s) = coreOf l s := coreOf_of_cores (congrArg CoresS.core (frame_sliceUse n part .cpu (by decide))) l
    rw [hcore]
    exact hl

theorem caches_noteOld (who : Fetchers) (a : Nat) (old : List Byte) (s : State) : OnlyCaches line s (noteOld who a old s) := by
  unfold noteOld
  split
  · exact .refl line s
  · have hframe : Touches [.cpu, .core] s { s with cpu := { s.cpu with old := { addr := a, data := old, who := who, seq := s.cpu.oldSeq } :: s.cpu.old, oldSeq := s.cpu.oldSeq + 1 } } :=
      frame_cores s _ (keeps_of_eq rfl rfl rfl rfl rfl rfl) fun _ => rfl
    exact ⟨hframe.mono (by decide), ⟨_, rfl⟩, rfl, fun _ => id⟩

/-- With nothing to write back, writing a line back changes nothing. -/
theorem writeBackLine_nothing (h : s.cpu.dirty = []) (n : Nat) : writeBackLine n s = s := by
  have hback : ∀ p, writeBackIf p s = s := fun p => by
    unfold writeBackIf
    extract_lets go put x
    have hgo : go = [] := by
      unfold go
      rw [h, List.filter_nil]
    have hput : put = s := by
      unfold put
      rw [hgo, List.foldl_nil]
    have hx : x = s.cpu := by
      unfold x
      rw [hput]
    rw [hput, hx, h, List.filter_nil, ← h]
  unfold writeBackLine
  rw [if_neg (by simp [lineDirty, h])]
  exact hback _

theorem caches_cleanLine (keep : Option Nat) (hh : HomeHas line s) : OnlyCaches line s (cleanLine keep line s) := by
  obtain ⟨hdirty, hheld⟩ := hh
  unfold cleanLine
  rw [writeBackLine_nothing hdirty]
  extract_lets v u
  have hu : u = s := by
    unfold u
    refine List.foldl_fixed' (fun l => ?_) _
    obtain ⟨h1, h2⟩ := hheld l
    exact if_pos (by simp [v, h1, h2])
  rw [hu]
  exact caches_drop _ line s

theorem caches_dropLocal (hh : HomeHas line s) : OnlyCaches line s (dropLocal line s) := by
  unfold dropLocal
  rw [writeBackLine_nothing hh.1]
  exact caches_take _ line s

theorem cohByte_has (h : s.cpu.dirty = []) {a : Nat} (hl : isLocal a s = true) : cohByte a s = storedByte a s := by
  unfold cohByte
  rw [h]
  exact homeByte_local hl

/-- The bytes that every observer sees of a line of this module are those of its home. -/
theorem cohBytes_has (h : s.cpu.dirty = []) {a n : Nat} (hl : ∀ i, i < n → isLocal (a + i) s = true) : cohBytes a n s = (List.range n).map fun i => storedByte (a + i) s :=
  List.map_congr_left fun i hi => cohByte_has h (hl i (List.mem_range.mp hi))

theorem isLocal_inLine {a b : Nat} (hl : isLocal a s = true) (h : b / 128 = a / 128) : isLocal b s = true := (isLocal_same_line (a := a) h s).trans hl

end

end Sys2Proof.Machine
end


section
set_option Elab.async false
/-! PROOFS. O39: a home answers the requests of other nodes. -/

namespace Sys2Proof.Machine

section
variable {s u v : State} {m : Msg}

/-! ### What a home does for each kind -/

/-- A request for a line of which the home may serve one more: no other is under way, the address is in the used DRAM, and its set of the directory has room. -/
structure Servable (m : Msg) (u : State) : Prop where
  txn : txnOf (m.addr / 128) u = none
  dram : physKind (physOfAddr m.addr) u = .dram
  room : recallVictim (m.addr / 128) u = none

/-- The nodes that the directory names for a line. -/
def holdersOf (line : Nat) (u : State) : Nat := ((dirOf line u).map (·.holders)).getD 0

/-- A node owns a line. -/
def ownedAt (line : Nat) (u : State) : Bool := ((dirOf line u).map (·.owned)).getD false

theorem homeServe_read (h : Servable m u) (hk : m.kind = 2) : homeServe m u =
    if ownedAt (m.addr / 128) u && !(ownedAt (m.addr / 128) u && (holdersOf (m.addr / 128) u).testBit m.src) then snoopHolders (m.addr / 128) 0 (holdersOf (m.addr / 128) u) m false u
    else dirPut (m.addr / 128) false (holdersOf (m.addr / 128) u ||| nodeBit m.src u) (answerLine m u) := by
  obtain ⟨htxn, hdram, hroom⟩ := h
  unfold homeServe
  extract_lets line entry holders owned mine op
  rw [if_neg (by simp [line, htxn]), if_neg (by simp [hdram]), if_neg (by simp [line, hroom])]
  simp only [hk]
  rfl

theorem homeServe_own (h : Servable m u) (hk : m.kind = 3 ∨ m.kind = 4) (ho : ownedAt (m.addr / 128) u = false) : homeServe m u =
    if holdersOf (m.addr / 128) u - (holdersOf (m.addr / 128) u &&& nodeBit m.src u) = 0 then finishOwn m u
    else snoopHolders (m.addr / 128) 2 (holdersOf (m.addr / 128) u - (holdersOf (m.addr / 128) u &&& nodeBit m.src u)) m false (dropLocal (m.addr / 128) u) := by
  obtain ⟨htxn, hdram, hroom⟩ := h
  unfold homeServe
  extract_lets line entry holders owned mine op
  have howned : owned = false := ho
  rw [if_neg (by simp [line, htxn]), if_neg (by simp [hdram]), if_neg (by simp [line, hroom])]
  rcases hk with hk | hk <;> simp only [hk, howned] <;> rfl

theorem homeServe_writeback (h : Servable m u) (hk : m.kind = 5) : homeServe m u =
    if ownedAt (m.addr / 128) u && (holdersOf (m.addr / 128) u).testBit m.src then
      answer m 9 [] (dirPut (m.addr / 128) false 0 (homeStoreLine (m.addr / 128) (dataOf m.body).1 (dataOf m.body).2 u))
    else answer m 9 [] u := by
  obtain ⟨htxn, hdram, hroom⟩ := h
  unfold homeServe
  extract_lets line entry holders owned mine op
  rw [if_neg (by simp [line, htxn]), if_neg (by simp [hdram]), if_neg (by simp [line, hroom])]
  simp only [hk]
  rfl

theorem homeServe_uncached (h : Servable m u) (hk : m.kind = 6) (hd : dirOf (m.addr / 128) u = none) (hop : natAt m.body 0 1 = 0 ∨ natAt m.body 0 1 = 1) :
    homeServe m u = uncachedAt m u := by
  obtain ⟨htxn, hdram, hroom⟩ := h
  have hneed : uncachedNeed m u = .inr 0 := by
    unfold uncachedNeed
    simp only [hd]
  unfold homeServe
  extract_lets line entry holders owned mine op
  have hop' : op = 0 ∨ op = 1 := hop
  rw [if_neg (by simp [line, htxn]), if_neg (by simp [hdram]), if_neg (by simp [line, hroom])]
  simp only [hk, hneed, if_true]
  rw [if_neg (by omega), if_neg (by omega)]

/-! ### The answer, and what else it writes -/

/-- What serving a request writes, but for the bytes of storage. -/
def homeRegs : List FrameReg := [.sto, .cpu, .core, .arm, .out, .armLink, .chLink, .flt, .live]

/-- The fabric's block with an answer kept. -/
def answerKept (m : Msg) (kind : Nat) (body : List Byte) (u : State) : Fabric :=
  { u.arm with answered := tset none (m.src * 65536 + m.tag) (some (ownMsg m.src kind m.tag m.addr body u)) u.arm.answered }

/-- A request has been answered. -/
structure Answered (m : Msg) (kind : Nat) (body : List Byte) (u t : State) : Prop where
  frame : Touches homeRegs u t
  arm : t.arm = answerKept m kind body u

theorem tget_answerKept (m : Msg) (kind : Nat) (body : List Byte) (u : State) :
    tget none (m.src * 65536 + m.tag) (answerKept m kind body u).answered = some (ownMsg m.src kind m.tag m.addr body u) :=
  tget_tset_same none (m.src * 65536 + m.tag) (some (ownMsg m.src kind m.tag m.addr body u)) u.arm.answered

theorem Answered.kept {kind : Nat} {body : List Byte} (h : Answered m kind body u v) :
    ∃ a, tget none (m.src * 65536 + m.tag) v.arm.answered = some a ∧ a.kind = kind ∧ a.dest = m.src ∧ a.tag = m.tag ∧ a.body = body :=
  ⟨ownMsg m.src kind m.tag m.addr body u, by rw [h.arm]; exact tget_answerKept m kind body u, rfl, rfl, rfl, rfl⟩

theorem Answered.dirOf {kind : Nat} {body : List Byte} (h : Answered m kind body u v) (line : Nat) : dirOf line v = dirOf line u := by
  unfold Machine.dirOf
  rw [h.arm]
  rfl

theorem OnlyCaches.regs {line : Nat} (h : OnlyCaches line u v) : Touches homeRegs u v := h.frame.mono (by decide)

/-- A request of another node is answered where only caches have changed. -/
theorem answered_of_caches {line kind : Nat} {body : List Byte} (h : OnlyCaches line u v) (ho : m.src ≠ u.arm.node.getD 0) : Answered m kind body u (answer m kind body v) := by
  obtain ⟨hframe, harm⟩ := answer_other (m := m) (kind := kind) (body := body) (s := v) (by rw [h.arm]; exact ho)
  refine ⟨h.regs.trans (hframe.mono (by decide)), harm.trans ?_⟩
  simp only [answerKept, ownMsg, h.arm]

theorem answered_self {kind : Nat} {body : List Byte} (ho : m.src ≠ u.arm.node.getD 0) : Answered m kind body u (answer m kind body u) := answered_of_caches (.refl 0 u) ho

/-- The bytes of a line at its home. -/
def lineBytes (line : Nat) (u : State) : List Byte := (List.range 128).map fun i => storedByte (line * 128 + i) u

theorem lineBytes_of {line : Nat} (h : ∀ a, storedByte a v = storedByte a u) : lineBytes line v = lineBytes line u := List.map_congr_left fun _ _ => h _

/-- A line of which no core holds what its home does not have is read from the home. -/
theorem homeLine_has {line : Nat} (hhas : HomeHas line u) (hl : isLocal (line * 128) u = true) :
    homeLine line u = (lineBytes line u, linePoisoned line u, snoopRead none line u) := by
  have hread : OnlyCaches line u (snoopRead none line u) := caches_snoopRead none line u
  unfold homeLine
  rw [writeBackLine_nothing hhas.1]
  dsimp only
  rw [cohBytes_has (hread.has hhas).1 fun i hi => (hread.isLocal _).trans (isLocal_inLine hl (by omega)), hread.linePoisoned]
  exact congrArg (fun b => (b, _, _)) (lineBytes_of hread.storedByte)

theorem answerLine_spec (hhas : HomeHas (m.addr / 128) u) (hl : isLocal m.addr u = true) (ho : m.src ≠ u.arm.node.getD 0) :
    Answered m 8 (dataBody (lineBytes (m.addr / 128) u) (linePoisoned (m.addr / 128) u)) u (answerLine m u) := by
  have hused : OnlyCaches (m.addr / 128) u (sliceUse (m.addr / 128) (partOfAddr m.addr u) u) := caches_sliceUse _ _ u
  unfold answerLine
  rw [homeLine_has (hused.has hhas) ((hused.isLocal _).trans (isLocal_inLine hl (by omega))), lineBytes_of hused.storedByte, hused.linePoisoned]
  exact answered_of_caches (hused.trans (caches_snoopRead none _ _)) ho

theorem dirOf_dirPut (line : Nat) (owned : Bool) (holders : Nat) (u : State) :
    dirOf line (dirPut line owned holders u) = if holders = 0 then none else some { line := line, owned := owned, holders := holders } := by
  have hset : tget [] (dirKey line) (dirPut line owned holders u).arm.dir = (if holders = 0 then none else some { line := line, owned := owned, holders := holders } : Option DirEntry).toList ++
      (tget [] (dirKey line) u.arm.dir).filter (fun e => e.line != line) := by
    unfold dirPut setDir
    refine (tget_tset_same ..).trans ?_
    by_cases h : holders = 0
    · rw [if_pos h]
      rfl
    · rw [if_neg h]
      rfl
  have hrest : ((tget [] (dirKey line) u.arm.dir).filter (fun e => e.line != line)).find? (fun e => e.line == line) = none := by
    rw [List.find?_eq_none]
    intro e he
    have := (List.mem_filter.1 he).2
    simpa using this
  unfold dirOf
  rw [hset, List.find?_append, hrest]
  split <;> simp

theorem frame_dirPut (line : Nat) (owned : Bool) (holders : Nat) (u : State) : Touches homeRegs u (dirPut line owned holders u) :=
  (frame_fabric u (dirPut line owned holders u).arm rfl rfl : Touches [.arm] u (dirPut line owned holders u)).mono (by decide)

/-! ### READ_OWN and UPGRADE -/

theorem finishOwn_line (hhas : HomeHas (m.addr / 128) u) (hl : isLocal m.addr u = true) (ho : m.src ≠ u.arm.node.getD 0) (hk : m.kind = 3) : ∃ w,
    Answered m 8 (dataBody (lineBytes (m.addr / 128) u) (linePoisoned (m.addr / 128) u)) u w ∧ finishOwn m u = dirPut (m.addr / 128) true (nodeBit m.src w) w := by
  have hdrop : OnlyCaches (m.addr / 128) u (dropLocal (m.addr / 128) u) := caches_dropLocal hhas
  have hanswer := answerLine_spec (m := m) (u := dropLocal (m.addr / 128) u) (hdrop.has hhas) ((hdrop.isLocal _).trans hl) (by rw [hdrop.arm]; exact ho)
  have hfinish : finishOwn m u = dirPut (m.addr / 128) true (nodeBit m.src (answerLine m (dropLocal (m.addr / 128) u))) (answerLine m (dropLocal (m.addr / 128) u)) := by
    unfold finishOwn
    simp only [hk]
    rfl
  refine ⟨_, ⟨hdrop.regs.trans hanswer.frame, hanswer.arm.trans ?_⟩, hfinish⟩
  rw [lineBytes_of hdrop.storedByte, hdrop.linePoisoned]
  simp only [answerKept, ownMsg, hdrop.arm]

theorem finishOwn_upgrade (hhas : HomeHas (m.addr / 128) u) (ho : m.src ≠ u.arm.node.getD 0) (hk : m.kind = 4) (hd : dirOf (m.addr / 128) u = some { line := m.addr / 128, owned := false, holders := 2 ^ m.src }) :
    ∃ w, Answered m 9 [] u w ∧ finishOwn m u = dirPut (m.addr / 128) true (nodeBit m.src w) w := by
  have hdrop : OnlyCaches (m.addr / 128) u (dropLocal (m.addr / 128) u) := caches_dropLocal hhas
  refine ⟨answer m 9 [] (dropLocal (m.addr / 128) u), answered_of_caches hdrop ho, ?_⟩
  unfold finishOwn
  simp only [hk, hd]
  rw [if_pos (by simp)]

/-! ### SNOOPs -/

theorem forwardMsg_arm (m : Msg) (via : Option Nat) (s : State) : (forwardMsg m via s).arm = s.arm := way_forwardMsg m via s .arm (by decide)

/-- The fabric's block with a request that waits for SNOOPs. -/
def snoopsAsked (line n : Nat) (x : HomeTxn) (a : Fabric) : Fabric := { a with nextTag := n, txn := tset none line (some x) a.txn }

theorem setTxn_asked {line n : Nat} {x : HomeTxn} {w : State} (h : w.arm = { u.arm with nextTag := n }) : (setTxn line (some x) w).arm = snoopsAsked line n x u.arm := by
  simp only [setTxn, h, snoopsAsked]

/-- What SNOOPs leave of the fabric: the request waits for those they go to. -/
theorem snoopHolders_spec (line act holders : Nat) (req : Msg) (u : State) : Touches msgRegs u (snoopHolders line act holders req false u) ∧
    ∃ n tags, (snoopHolders line act holders req false u).arm =
      snoopsAsked line n { req := req, waiting := holders, since := u.tor.tor, forRecall := false, tags := tags } u.arm := by
  have hsent : ∀ (ns : List Nat) (r : List (Nat × Nat) × State), ∃ n,
      (ns.foldl (fun (r : List (Nat × Nat) × State) n => (r.1 ++ [(n, freshTag r.2)], sendSnoop n line act req r.2)) r).2.arm = { r.2.arm with nextTag := n } := by
    intro ns
    induction ns with
    | nil => exact fun r => ⟨r.2.arm.nextTag, rfl⟩
    | cons x ns ih =>
      intro r
      obtain ⟨n, hn⟩ := ih (r.1 ++ [(x, freshTag r.2)], sendSnoop x line act req r.2)
      refine ⟨n, hn.trans ?_⟩
      change { (forwardMsg _ none _).arm with nextTag := n } = _
      rw [forwardMsg_arm]
  obtain ⟨n, hn⟩ := hsent (maskNodes holders) ([], u)
  refine ⟨frame_snoopHolders, n, ((maskNodes holders).foldl (fun (r : List (Nat × Nat) × State) n => (r.1 ++ [(n, freshTag r.2)], sendSnoop n line act req r.2)) ([], u)).1, ?_⟩
  exact setTxn_asked hn

/-- A request that waits for the answers of holders. -/
theorem snoopHolders_waits {line act holders : Nat} {req : Msg} : (snoopHolders line act holders req false u).arm.later = u.arm.later ∧
    ∃ tags, txnOf line (snoopHolders line act holders req false u) = some { req := req, waiting := holders, since := u.tor.tor, forRecall := false, tags := tags } := by
  obtain ⟨-, n, tags, harm⟩ := snoopHolders_spec line act holders req u
  refine ⟨(congrArg Fabric.later harm :), tags, ?_⟩
  unfold txnOf
  rw [harm]
  exact tget_tset_same (none : Option HomeTxn) line (some { req := req, waiting := holders, since := u.tor.tor, forRecall := false, tags := tags }) u.arm.txn

/-! ### Write-backs and uncached storage -/

/-- What storing bytes of a line at its home writes. -/
def storeRegs : List FrameReg := [.sto, .mem, .cpu, .core]

theorem storeAll_frame (a : Nat) (data : List Byte) (u : State) : Touches [.sto, .mem] u (storeAll a data u) := by
  induction data generalizing a u with
  | nil => exact .refl _ u
  | cons x data ih => exact (frame_sto u _).trans (ih (a + 1) _)

theorem storedByte_setPoison (line : Nat) (p : Bool) (b : Nat) (u : State) : storedByte b (setPoison line p u) = storedByte b u := rfl

/-- Both halves of a line are poisoned, or neither. -/
theorem poison_setPoison (line : Nat) (p : Bool) (u : State) : tget false (2 * line) (setPoison line p u).sto.poison = p ∧ tget false (2 * line + 1) (setPoison line p u).sto.poison = p := by
  refine ⟨tget_tset_same false (2 * line) p _, ?_⟩
  change tget false (2 * line + 1) (tset false (2 * line) p (tset false (2 * line + 1) p u.sto.poison)) = p
  rw [tget_tset_ne _ _ _ (by omega)]
  exact tget_tset_same false (2 * line + 1) p _

/-- A byte of storage after bytes stored from an address. -/
theorem storedByte_stored (b a : Nat) (data : List Byte) (u : State) :
    storedByte b (storeAll a data u) = if a ≤ b ∧ b < a + data.length then data.getD (b - a) 0 else storedByte b u := by
  rw [storedByte_storeAll]
  split
  · rw [List.getD_eq_getElem _ _ (by omega)]
  · rfl

theorem homeStoreLine_spec (line : Nat) (data : List Byte) (p : Bool) (u : State) : Touches storeRegs u (homeStoreLine line data p u) ∧
    (∀ b, storedByte b (homeStoreLine line data p u) = if line * 128 ≤ b ∧ b < line * 128 + data.length then data.getD (b - line * 128) 0 else storedByte b u) ∧
    tget false (2 * line) (homeStoreLine line data p u).sto.poison = p ∧ tget false (2 * line + 1) (homeStoreLine line data p u).sto.poison = p := by
  unfold homeStoreLine
  extract_lets x y
  have hused : OnlyCaches line u x := caches_sliceUse line none u
  have hnoted : OnlyCaches line x y := caches_noteOld _ _ _ x
  have hy := hused.trans hnoted
  obtain ⟨hlow, hhigh⟩ := poison_setPoison line p (storeAll (line * 128) data y)
  refine ⟨((hy.frame.mono (by decide)).trans ((storeAll_frame _ data y).mono (by decide))).trans ((frame_setPoison line p _).mono (by decide)), fun b => ?_, hlow, hhigh⟩
  rw [storedByte_setPoison, storedByte_stored, hy.storedByte]

/-- Bytes put in storage of this module. -/
theorem homeSetAll_local (data : List Byte) : ∀ (a : Nat) (u : State), (∀ i, i < data.length → isLocal (a + i) u = true) → homeSetAll a data u = storeAll a data u := by
  induction data with
  | nil => exact fun _ _ _ => rfl
  | cons x data ih =>
    intro a u hl
    have hset : homeSet a x u = storeByte a x u := if_pos (hl 0 (by simp))
    change homeSetAll (a + 1) data (homeSet a x u) = storeAll (a + 1) data (storeByte a x u)
    rw [hset]
    exact ih (a + 1) _ fun i hi => by
      have := hl (i + 1) (by simpa using hi)
      rw [show a + 1 + i = a + (i + 1) by omega]
      exact this

/-- A line of which every cached copy goes, with the reservations on it. -/
def copiesTaken (part : Option Nat) (line : Nat) (u : State) : State := onCores (fun k => some k != none) (loseResv line) (cleanLine none line (sliceUse line part u))

/-- A line before bytes of its home change. -/
def homeOpened (part : Option Nat) (a n line : Nat) (u : State) : State :=
  if a ≤ line * 128 ∧ line * 128 + 128 ≤ a + n then setPoison line false (copiesTaken part line u) else copiesTaken part line u

theorem homeOpened_spec {part : Option Nat} {a n line : Nat} (hhas : HomeHas line u) : Touches storeRegs u (homeOpened part a n line u) ∧
    (∀ b, storedByte b (homeOpened part a n line u) = storedByte b u) ∧ ∀ b, isLocal b (homeOpened part a n line u) = isLocal b u := by
  have hused : OnlyCaches line u (sliceUse line part u) := caches_sliceUse _ _ u
  have hv : OnlyCaches line u (copiesTaken part line u) := (hused.trans (caches_cleanLine none (hused.has hhas))).trans (caches_lose (fun k => some k != none) line _)
  unfold homeOpened
  generalize copiesTaken part line u = v at *
  split
  · exact ⟨(hv.frame.mono (by decide)).trans ((frame_setPoison _ _ v).mono (by decide)), fun b => hv.storedByte b, fun b => hv.isLocal b⟩
  · exact ⟨hv.frame.mono (by decide), hv.storedByte, hv.isLocal⟩

theorem linesOf_one {a n : Nat} (h0 : 0 < n) (hin : a % 128 + n ≤ 128) : linesOf a n = [a / 128] := by
  have hone : lineOf (a + n - 1) - lineOf a + 1 = 1 := by
    unfold lineOf
    omega
  unfold linesOf
  rw [hone]
  simp [lineOf]

/-- Bytes within one line of this module's DRAM reach their home. -/
theorem uncachedWrite_spec {data : List Byte} (hhas : HomeHas (m.addr / 128) u) (hl : isLocal m.addr u = true) (hd : physKind (physOfAddr m.addr) u = .dram) (h0 : 0 < data.length)
    (hin : m.addr % 128 + data.length ≤ 128) : Touches storeRegs u (uncachedWrite m.addr data u) ∧
    ∀ b, storedByte b (uncachedWrite m.addr data u) = if m.addr ≤ b ∧ b < m.addr + data.length then data.getD (b - m.addr) 0 else storedByte b u := by
  have hnoted : OnlyCaches (m.addr / 128) u (noteOld (.others none) m.addr (cohBytes m.addr data.length u) u) := caches_noteOld _ _ _ u
  have hwrite : uncachedWrite m.addr data u =
      homeSetAll m.addr data (homeOpened (partOfAddr m.addr u) m.addr data.length (m.addr / 128) (noteOld (.others none) m.addr (cohBytes m.addr data.length u) u)) := by
    unfold uncachedWrite homeWrite homeWriteKeep
    rw [if_neg (by simpa [List.isEmpty_iff] using List.length_pos_iff.mp h0), if_neg (by simp [hd]), linesOf_one h0 hin]
    rfl
  rw [hwrite]
  generalize noteOld (.others none) m.addr (cohBytes m.addr data.length u) u = w at *
  obtain ⟨hf, hs, hwl⟩ := homeOpened_spec (part := partOfAddr m.addr u) (a := m.addr) (n := data.length) (hnoted.has hhas)
  generalize homeOpened (partOfAddr m.addr u) m.addr data.length (m.addr / 128) w = x at *
  rw [homeSetAll_local data _ x fun i hi => (hwl _).trans ((hnoted.isLocal _).trans (isLocal_inLine hl (by omega)))]
  exact ⟨((hnoted.frame.mono (by decide)).trans hf).trans ((storeAll_frame _ data x).mono (by decide)), fun b => by rw [storedByte_stored, hs, hnoted.storedByte]⟩

/-! ### The commands -/

theorem exec_malformed (hs : Safety.settled s) (ho : operating s = true) (hv : m.via < 8) (hp : portActive (.arm m.via) s = true) (c : Instr) (k : Nat)
    (hc : (c, k) ∈ [(Instr.msgRead m, 2), (.msgReadOwn m, 3), (.msgUpgrade m, 4), (.msgWriteback m, 5), (.msgUncached m, 6), (.msgSnoop m, 7), (.msgData m, 8), (.msgDone m, 9)])
    (hm : malformed k m = true) : exec c s = .next (patina 0x299 s) := by
  have hon : onPort m s = true := by simp [onPort, ho, hv, hp]
  have hdone : ∀ once serve, done s (receive k once serve m s) = .next (patina 0x299 s) := fun once serve => by
    have hrec : receive k once serve m s = patina 0x299 s := if_pos hm
    rw [hrec]
    exact done_framed (frame_patina s _) hs
  simp only [List.mem_cons, Prod.mk.injEq, List.not_mem_nil, or_false] at hc
  rcases hc with ⟨rfl, rfl⟩ | ⟨rfl, rfl⟩ | ⟨rfl, rfl⟩ | ⟨rfl, rfl⟩ | ⟨rfl, rfl⟩ | ⟨rfl, rfl⟩ | ⟨rfl, rfl⟩ | ⟨rfl, rfl⟩ <;> exact (if_pos hon).trans (hdone _ _)

/-- A request that comes once is served, where no agent of the home waits. -/
theorem done_served {k : Nat} (hs : Safety.settled s) (hm : malformed k m = false) (hn : s.arm.node = some m.dest) (hr : m.resent = false) (hl : isLocal m.addr s = true)
    (hw : Safety.noneWaits s) (hv : Touches (.mem :: homeRegs) (tagTaken m s) v) (hlater : v.arm.later = s.arm.later) (hserve : homeServe m (tagTaken m s) = v) :
    done s (receive k true serveReq m s) = .next v := by
  have hall : Touches (.mem :: homeRegs) s v := ((frame_tagTaken m s).mono (by decide)).trans hv
  have hreq : serveReq m (tagTaken m s) = wakeAll (homeServe m (tagTaken m s)) := if_pos hl
  rw [receive_once hm hn hr, hreq, hserve, wakeAll_rest (noneWaits_of_frame hw hall hlater)]
  exact done_framed hall hs

/-- A request for a line of this home, of which no core holds what the home does not have. -/
structure HomeReq (m : Msg) (s : State) : Prop where
  settled : Safety.settled s
  on : onPort m s = true
  form : malformed m.kind m = false
  node : s.arm.node = some m.dest
  other : m.src ≠ m.dest
  once : m.resent = false
  here : isLocal m.addr s = true
  serv : Servable m (tagTaken m s)
  rest : Safety.noneWaits s
  has : HomeHas (m.addr / 128) (tagTaken m s)

theorem HomeReq.foreign (h : HomeReq m s) : m.src ≠ (tagTaken m s).arm.node.getD 0 := by
  have hnode : (tagTaken m s).arm.node = s.arm.node := rfl
  rw [hnode, h.node]
  exact h.other

theorem nodeBit_other (h : m.src ≠ u.arm.node.getD 0) : nodeBit m.src u = 2 ^ m.src := if_neg h

theorem Answered.nodeBit {kind : Nat} {body : List Byte} (h : Answered m kind body u v) (ho : m.src ≠ u.arm.node.getD 0) : nodeBit m.src v = 2 ^ m.src :=
  nodeBit_other (by rw [h.arm]; exact ho)

/-- A request that is answered, its entry of the directory then as given. -/
theorem HomeReq.answeredPut (h : HomeReq m s) {kind holders : Nat} {owned : Bool} {body : List Byte} {w : State} (hw : Answered m kind body (tagTaken m s) w)
    (hserve : homeServe m (tagTaken m s) = dirPut (m.addr / 128) owned holders w) (hne : holders ≠ 0) : ∃ t a, done s (receive m.kind true serveReq m s) = .next t ∧
      dirOf (m.addr / 128) t = some { line := m.addr / 128, owned := owned, holders := holders } ∧ tget none (m.src * 65536 + m.tag) t.arm.answered = some a ∧ a.kind = kind ∧
      a.dest = m.src ∧ a.tag = m.tag ∧ a.body = body ∧ t.sto.mem = s.sto.mem ∧ t.pln = s.pln := by
  have hall : Touches homeRegs (tagTaken m s) (dirPut (m.addr / 128) owned holders w) := hw.frame.trans (frame_dirPut _ _ _ w)
  have hlater : (dirPut (m.addr / 128) owned holders w).arm.later = s.arm.later := (congrArg Fabric.later hw.arm :)
  obtain ⟨a, ha, hkind, hdest, htag, hbody⟩ := hw.kept
  exact ⟨_, a, done_served h.settled h.form h.node h.once h.here h.rest (hall.mono (by decide)) hlater hserve, (dirOf_dirPut ..).trans (if_neg hne), ha, hkind, hdest, htag, hbody,
    (hall .mem (by decide)).trans (frame_tagTaken m s .mem (by decide)), (hall .pln (by decide)).trans (frame_tagTaken m s .pln (by decide))⟩

/-- A request that is answered with no change of the directory. -/
theorem HomeReq.answeredOnly (h : HomeReq m s) {kind : Nat} {body : List Byte} {w : State} (hw : Answered m kind body (tagTaken m s) w) (hserve : homeServe m (tagTaken m s) = w) :
    done s (receive m.kind true serveReq m s) = .next w :=
  done_served h.settled h.form h.node h.once h.here h.rest (hw.frame.mono (by decide)) (congrArg Fabric.later hw.arm :) hserve

/-- A request for which SNOOPs go out. -/
theorem HomeReq.snooped (h : HomeReq m s) {act holders : Nat} {w : State} (hw : OnlyCaches (m.addr / 128) (tagTaken m s) w)
    (hserve : homeServe m (tagTaken m s) = snoopHolders (m.addr / 128) act holders m false w) : ∃ t tags, done s (receive m.kind true serveReq m s) = .next t ∧
      txnOf (m.addr / 128) t = some { req := m, waiting := holders, since := s.tor.tor, forRecall := false, tags := tags } ∧ Touches msgRegs w t := by
  obtain ⟨hframe, -⟩ := snoopHolders_spec (m.addr / 128) act holders m w
  obtain ⟨hlater, tags, htxn⟩ := snoopHolders_waits (line := m.addr / 128) (act := act) (holders := holders) (req := m) (u := w)
  have htor : w.tor = s.tor := (hw.frame .tor (by decide)).trans (frame_tagTaken m s .tor (by decide))
  refine ⟨_, tags, done_served h.settled h.form h.node h.once h.here h.rest ((hw.regs.mono (by decide)).trans (hframe.mono (by decide))) (hlater.trans ?_) hserve, ?_, hframe⟩
  · rw [hw.arm]
    rfl
  · rw [htxn, htor]

theorem HomeReq.read (h : HomeReq m s) (hk : m.kind = 2) (ho : ownedAt (m.addr / 128) s = false) : ∃ t a, exec (.msgRead m) s = .next t ∧
    dirOf (m.addr / 128) t = some { line := m.addr / 128, owned := false, holders := holdersOf (m.addr / 128) s ||| 2 ^ m.src } ∧
    tget none (m.src * 65536 + m.tag) t.arm.answered = some a ∧ a.kind = 8 ∧ a.dest = m.src ∧ a.tag = m.tag ∧
    a.body = dataBody (lineBytes (m.addr / 128) s) (linePoisoned (m.addr / 128) s) ∧ t.sto.mem = s.sto.mem ∧ t.pln = s.pln := by
  have hexec : exec (.msgRead m) s = done s (receive m.kind true serveReq m s) := by
    rw [hk]
    exact if_pos h.on
  have howned : ownedAt (m.addr / 128) (tagTaken m s) = false := ho
  have hserve := homeServe_read h.serv hk
  rw [howned, if_neg (by simp), nodeBit_other h.foreign] at hserve
  rw [hexec]
  exact h.answeredPut (answerLine_spec h.has h.here h.foreign) hserve fun hz => Nat.two_pow_pos m.src |>.ne' (Nat.or_eq_zero_iff.mp hz).2

theorem HomeReq.readOwned (h : HomeReq m s) {hs : Nat} (hk : m.kind = 2) (hd : dirOf (m.addr / 128) s = some { line := m.addr / 128, owned := true, holders := hs })
    (hb : hs.testBit m.src = false) : ∃ t tags, exec (.msgRead m) s = .next t ∧
      txnOf (m.addr / 128) t = some { req := m, waiting := hs, since := s.tor.tor, forRecall := false, tags := tags } ∧ t.sto = s.sto := by
  have hexec : exec (.msgRead m) s = done s (receive m.kind true serveReq m s) := by
    rw [hk]
    exact if_pos h.on
  have hdir : dirOf (m.addr / 128) (tagTaken m s) = some { line := m.addr / 128, owned := true, holders := hs } := hd
  have hserve := homeServe_read h.serv hk
  simp only [ownedAt, holdersOf, hdir, Option.map_some, Option.getD_some, hb, Bool.and_false, Bool.not_false, Bool.and_true, if_true] at hserve
  obtain ⟨t, tags, hdone, htxn, hframe⟩ := h.snooped (.refl _ _) hserve
  exact ⟨t, tags, hexec.trans hdone, htxn, (hframe .sto (by decide)).trans (frame_tagTaken m s .sto (by decide))⟩

/-- READ_OWN and UPGRADE of a line that other nodes hold. -/
theorem HomeReq.ownShared (h : HomeReq m s) {c : Instr} {hs : Nat} (hc : (c = .msgReadOwn m ∧ m.kind = 3) ∨ (c = .msgUpgrade m ∧ m.kind = 4))
    (hd : dirOf (m.addr / 128) s = some { line := m.addr / 128, owned := false, holders := hs }) (hb : hs - (hs &&& 2 ^ m.src) ≠ 0) : ∃ t tags, exec c s = .next t ∧
      txnOf (m.addr / 128) t = some { req := m, waiting := hs - (hs &&& 2 ^ m.src), since := s.tor.tor, forRecall := false, tags := tags } ∧ t.sto.mem = s.sto.mem := by
  have hexec : exec c s = done s (receive m.kind true serveReq m s) := by
    rcases hc with ⟨rfl, hk⟩ | ⟨rfl, hk⟩ <;> rw [hk] <;> exact if_pos h.on
  have hdir : dirOf (m.addr / 128) (tagTaken m s) = some { line := m.addr / 128, owned := false, holders := hs } := hd
  have howned : ownedAt (m.addr / 128) (tagTaken m s) = false := by simp only [ownedAt, hdir, Option.map_some, Option.getD_some]
  have hholders : holdersOf (m.addr / 128) (tagTaken m s) = hs := by simp only [holdersOf, hdir, Option.map_some, Option.getD_some]
  have hserve := homeServe_own h.serv (by tauto) howned
  rw [hholders, nodeBit_other h.foreign, if_neg hb] at hserve
  have hdrop := caches_dropLocal h.has
  obtain ⟨t, tags, hdone, htxn, hframe⟩ := h.snooped hdrop hserve
  exact ⟨t, tags, hexec.trans hdone, htxn, (hframe .mem (by decide)).trans ((hdrop.frame .mem (by decide)).trans (frame_tagTaken m s .mem (by decide)))⟩

/-- No node but the one that asks holds a line. -/
theorem noOthers (h : dirOf (m.addr / 128) u = none ∨ dirOf (m.addr / 128) u = some { line := m.addr / 128, owned := false, holders := 2 ^ m.src }) :
    ownedAt (m.addr / 128) u = false ∧ holdersOf (m.addr / 128) u - (holdersOf (m.addr / 128) u &&& 2 ^ m.src) = 0 := by
  rcases h with h | h <;> simp [ownedAt, holdersOf, h]

theorem HomeReq.readOwn (h : HomeReq m s) (hk : m.kind = 3)
    (hd : dirOf (m.addr / 128) s = none ∨ dirOf (m.addr / 128) s = some { line := m.addr / 128, owned := false, holders := 2 ^ m.src }) : ∃ t a, exec (.msgReadOwn m) s = .next t ∧
      dirOf (m.addr / 128) t = some { line := m.addr / 128, owned := true, holders := 2 ^ m.src } ∧ tget none (m.src * 65536 + m.tag) t.arm.answered = some a ∧ a.kind = 8 ∧
      a.dest = m.src ∧ a.body = dataBody (lineBytes (m.addr / 128) s) (linePoisoned (m.addr / 128) s) ∧ t.sto.mem = s.sto.mem := by
  have hexec : exec (.msgReadOwn m) s = done s (receive m.kind true serveReq m s) := by
    rw [hk]
    exact if_pos h.on
  obtain ⟨howned, hothers⟩ := noOthers (u := tagTaken m s) hd
  obtain ⟨w, hw, hfinish⟩ := finishOwn_line h.has h.here h.foreign hk
  have hserve := homeServe_own h.serv (.inl hk) howned
  rw [nodeBit_other h.foreign, if_pos hothers, hfinish, hw.nodeBit h.foreign] at hserve
  obtain ⟨t, a, hdone, hdir, ha, hkind, hdest, -, hbody, hmem, -⟩ := h.answeredPut hw hserve (Nat.two_pow_pos m.src).ne'
  exact ⟨t, a, hexec.trans hdone, hdir, ha, hkind, hdest, hbody, hmem⟩

theorem HomeReq.upgrade (h : HomeReq m s) (hk : m.kind = 4) (hd : dirOf (m.addr / 128) s = some { line := m.addr / 128, owned := false, holders := 2 ^ m.src }) :
    ∃ t a, exec (.msgUpgrade m) s = .next t ∧ dirOf (m.addr / 128) t = some { line := m.addr / 128, owned := true, holders := 2 ^ m.src } ∧
      tget none (m.src * 65536 + m.tag) t.arm.answered = some a ∧ a.kind = 9 ∧ a.dest = m.src ∧ t.sto.mem = s.sto.mem := by
  have hexec : exec (.msgUpgrade m) s = done s (receive m.kind true serveReq m s) := by
    rw [hk]
    exact if_pos h.on
  obtain ⟨howned, hothers⟩ := noOthers (u := tagTaken m s) (.inr hd)
  obtain ⟨w, hw, hfinish⟩ := finishOwn_upgrade h.has h.foreign hk hd
  have hserve := homeServe_own h.serv (.inr hk) howned
  rw [nodeBit_other h.foreign, if_pos hothers, hfinish, hw.nodeBit h.foreign] at hserve
  obtain ⟨t, a, hdone, hdir, ha, hkind, hdest, -, -, hmem, -⟩ := h.answeredPut hw hserve (Nat.two_pow_pos m.src).ne'
  exact ⟨t, a, hexec.trans hdone, hdir, ha, hkind, hdest, hmem⟩

/-- The bytes of a line and whether it is poisoned, as an answer carries them. -/
theorem dataOf_dataBody (data : List Byte) (poison : Bool) : dataOf (dataBody data poison) = (data, poison) := by
  cases poison <;> simp [dataOf, dataBody, b2n]

theorem HomeReq.writeback (h : HomeReq m s) {data : List Byte} {poison : Bool} (hk : m.kind = 5)
    (hd : dirOf (m.addr / 128) s = some { line := m.addr / 128, owned := true, holders := 2 ^ m.src }) (hlen : data.length = 128) (hb : m.body = dataBody data poison) :
    ∃ t, exec (.msgWriteback m) s = .next t ∧ dirOf (m.addr / 128) t = none ∧
      (∀ b, storedByte b t = if m.addr / 128 * 128 ≤ b ∧ b < m.addr / 128 * 128 + 128 then data.getD (b - m.addr / 128 * 128) 0 else storedByte b s) ∧
      tget false (2 * (m.addr / 128)) t.sto.poison = poison ∧ tget false (2 * (m.addr / 128) + 1) t.sto.poison = poison := by
  have hexec : exec (.msgWriteback m) s = done s (receive m.kind true serveReq m s) := by
    rw [hk]
    exact if_pos h.on
  have hdir : dirOf (m.addr / 128) (tagTaken m s) = some { line := m.addr / 128, owned := true, holders := 2 ^ m.src } := hd
  have hserve := homeServe_writeback h.serv hk
  simp only [ownedAt, holdersOf, hdir, Option.map_some, Option.getD_some, Nat.testBit_two_pow_self, Bool.and_self, if_true, hb, dataOf_dataBody] at hserve
  obtain ⟨hframe, hbytes, hlow, hhigh⟩ := homeStoreLine_spec (m.addr / 128) data poison (tagTaken m s)
  generalize homeStoreLine (m.addr / 128) data poison (tagTaken m s) = w at *
  have hput := frame_dirPut (m.addr / 128) false 0 w
  have hgone : dirOf (m.addr / 128) (dirPut (m.addr / 128) false 0 w) = none := (dirOf_dirPut ..).trans (if_pos rfl)
  have hnode : (dirPut (m.addr / 128) false 0 w).arm.node = (tagTaken m s).arm.node := (hput .node (by decide)).trans (hframe .node (by decide))
  have hsto : (dirPut (m.addr / 128) false 0 w).sto = w.sto := rfl
  have hanswer := answered_self (m := m) (kind := 9) (body := []) (u := dirPut (m.addr / 128) false 0 w) (by rw [hnode]; exact h.foreign)
  have hlater : (dirPut (m.addr / 128) false 0 w).arm.later = s.arm.later := by
    change w.arm.later = _
    rw [hframe .arm (by decide)]
    rfl
  have hasto : (answer m 9 [] (dirPut (m.addr / 128) false 0 w)).sto = w.sto :=
    ((answer_other (m := m) (kind := 9) (body := []) (s := dirPut (m.addr / 128) false 0 w) (by rw [hnode]; exact h.foreign)).1 .sto (by decide)).trans hsto
  have hall : Touches (.mem :: homeRegs) (tagTaken m s) (answer m 9 [] (dirPut (m.addr / 128) false 0 w)) :=
    ((hframe.mono (by decide)).trans (hput.mono (by decide))).trans (hanswer.frame.mono (by decide))
  refine ⟨_, hexec.trans (done_served h.settled h.form h.node h.once h.here h.rest hall ((congrArg Fabric.later hanswer.arm :).trans hlater) hserve),
    (hanswer.dirOf _).trans hgone, fun b => ?_, by rw [hasto, hlow], by rw [hasto, hhigh]⟩
  rw [hlen] at hbytes
  have hsame : storedByte b (answer m 9 [] (dirPut (m.addr / 128) false 0 w)) = storedByte b w := by simp only [storedByte, keyMask, hasto]
  exact hsame.trans (hbytes b)

theorem HomeReq.writebackForeign (h : HomeReq m s) (hk : m.kind = 5) (hd : dirOf (m.addr / 128) s = none) : ∃ t a, exec (.msgWriteback m) s = .next t ∧ t.sto = s.sto ∧
    dirOf (m.addr / 128) t = none ∧ tget none (m.src * 65536 + m.tag) t.arm.answered = some a ∧ a.kind = 9 := by
  have hexec : exec (.msgWriteback m) s = done s (receive m.kind true serveReq m s) := by
    rw [hk]
    exact if_pos h.on
  have hdir : dirOf (m.addr / 128) (tagTaken m s) = none := hd
  have hserve := homeServe_writeback h.serv hk
  simp only [ownedAt, hdir, Option.map_none, Option.getD_none, Bool.false_and, Bool.false_eq_true, if_false] at hserve
  have hanswer := answered_self (m := m) (kind := 9) (body := []) h.foreign
  obtain ⟨a, ha, hkind, -⟩ := hanswer.kept
  exact ⟨_, a, hexec.trans (h.answeredOnly hanswer hserve), ((answer_other (m := m) (kind := 9) (body := []) h.foreign).1 .sto (by decide)).trans (frame_tagTaken m s .sto (by decide)),
    (hanswer.dirOf _).trans hdir, ha, hkind⟩

theorem HomeReq.uncachedRead (h : HomeReq m s) {n : Nat} (hk : m.kind = 6) (hd : dirOf (m.addr / 128) s = none) (hn : n < 256) (hin : m.addr % 128 + n ≤ 128)
    (hb : m.body = [0, BitVec.ofNat 8 n]) : ∃ t a, exec (.msgUncached m) s = .next t ∧ tget none (m.src * 65536 + m.tag) t.arm.answered = some a ∧ a.kind = 8 ∧ a.dest = m.src ∧
      a.body = dataBody ((List.range n).map (fun i => storedByte (m.addr + i) s)) (linePoisoned (m.addr / 128) s) ∧ t.sto.mem = s.sto.mem := by
  have hexec : exec (.msgUncached m) s = done s (receive m.kind true serveReq m s) := by
    rw [hk]
    exact if_pos h.on
  have hop : natAt m.body 0 1 = 0 := by
    rw [hb]
    rfl
  have hlen : natAt m.body 1 1 = n := by
    rw [hb]
    simp [natAt, bytesAt, beNat, Nat.mod_eq_of_lt hn]
  have hbytes : cohBytes m.addr n (tagTaken m s) = (List.range n).map fun i => storedByte (m.addr + i) s := cohBytes_has h.has.1 fun i hi => isLocal_inLine h.here (by omega)
  have hclean := caches_cleanLine none h.has
  have htouch : OnlyCaches (m.addr / 128) (tagTaken m s) (sliceUse (m.addr / 128) (partOfAddr m.addr (tagTaken m s)) (cleanLine none (m.addr / 128) (tagTaken m s))) :=
    hclean.trans (caches_sliceUse _ _ _)
  have hserve : homeServe m (tagTaken m s) = answer m 8 (dataBody ((List.range n).map (fun i => storedByte (m.addr + i) s)) (linePoisoned (m.addr / 128) (tagTaken m s)))
      (sliceUse (m.addr / 128) (partOfAddr m.addr (tagTaken m s)) (cleanLine none (m.addr / 128) (tagTaken m s))) := by
    rw [homeServe_uncached h.serv hk hd (.inl hop)]
    unfold uncachedAt
    rw [hop, hlen, ← hbytes]
    exact if_pos rfl
  have hanswer := answered_of_caches (kind := 8) (body := dataBody ((List.range n).map (fun i => storedByte (m.addr + i) s)) (linePoisoned (m.addr / 128) (tagTaken m s))) htouch h.foreign
  obtain ⟨a, ha, hkind, hdest, -, hbody⟩ := hanswer.kept
  exact ⟨_, a, hexec.trans (h.answeredOnly hanswer hserve), ha, hkind, hdest, hbody, (hanswer.frame .mem (by decide)).trans (frame_tagTaken m s .mem (by decide))⟩

theorem HomeReq.uncachedStore (h : HomeReq m s) {data : List Byte} (hk : m.kind = 6) (hd : dirOf (m.addr / 128) s = none) (h0 : 0 < data.length) (hin : m.addr % 128 + data.length ≤ 128)
    (hb : m.body = [1, BitVec.ofNat 8 data.length] ++ data) : ∃ t, exec (.msgUncached m) s = .next t ∧
      (∀ b, storedByte b t = if m.addr ≤ b ∧ b < m.addr + data.length then data.getD (b - m.addr) 0 else storedByte b s) ∧ dirOf (m.addr / 128) t = none ∧ t.pln = s.pln := by
  have hexec : exec (.msgUncached m) s = done s (receive m.kind true serveReq m s) := by
    rw [hk]
    exact if_pos h.on
  have hop : natAt m.body 0 1 = 1 := by
    rw [hb]
    rfl
  have hlen : natAt m.body 1 1 = data.length := by
    rw [hb]
    simp [natAt, bytesAt, beNat, Nat.mod_eq_of_lt (show data.length < 256 by omega)]
  have hdata : bytesAt m.body 2 data.length = data := by
    rw [hb]
    simp [bytesAt]
  have htouch : OnlyCaches (m.addr / 128) (tagTaken m s) (sliceUse (m.addr / 128) (partOfAddr m.addr (tagTaken m s)) (cleanLine none (m.addr / 128) (tagTaken m s))) :=
    (caches_cleanLine none h.has).trans (caches_sliceUse _ _ _)
  have hserve : homeServe m (tagTaken m s) = answer m 9 [] (uncachedWrite m.addr data (sliceUse (m.addr / 128) (partOfAddr m.addr (tagTaken m s)) (cleanLine none (m.addr / 128) (tagTaken m s)))) := by
    rw [homeServe_uncached h.serv hk hd (.inr hop)]
    unfold uncachedAt
    rw [hop, hlen]
    refine ((if_neg (by decide)).trans (if_pos rfl)).trans ?_
    rw [hdata]
  generalize sliceUse (m.addr / 128) (partOfAddr m.addr (tagTaken m s)) (cleanLine none (m.addr / 128) (tagTaken m s)) = w at *
  have hdram : physKind (physOfAddr m.addr) w = .dram := by
    have hregs : w.dram = (tagTaken m s).dram := htouch.frame .dram (by decide)
    have hused : usedDram w = usedDram (tagTaken m s) := by rw [usedDram, usedDram, hregs]
    have hkind : physKind (physOfAddr m.addr) w = physKind (physOfAddr m.addr) (tagTaken m s) := by rw [physKind, physKind, hused]
    exact hkind.trans h.serv.dram
  obtain ⟨hframe, hbytes⟩ := uncachedWrite_spec (htouch.has h.has) ((htouch.isLocal _).trans h.here) hdram h0 hin
  generalize uncachedWrite m.addr data w = x at *
  have harm : x.arm = (tagTaken m s).arm := (hframe .arm (by decide)).trans htouch.arm
  obtain ⟨hsent, hkept⟩ := answer_other (m := m) (kind := 9) (body := []) (s := x) (by rw [harm]; exact h.foreign)
  have hall : Touches (.mem :: homeRegs) (tagTaken m s) (answer m 9 [] x) := ((htouch.regs.mono (by decide)).trans (hframe.mono (by decide))).trans (hsent.mono (by decide))
  have hlater : (answer m 9 [] x).arm.later = s.arm.later := by
    rw [hkept, harm]
    rfl
  refine ⟨_, hexec.trans (done_served h.settled h.form h.node h.once h.here h.rest hall hlater hserve), fun b => ?_, ?_, (hall .pln (by decide)).trans (frame_tagTaken m s .pln (by decide))⟩
  · have hsto : (answer m 9 [] x).sto = x.sto := hsent .sto (by decide)
    rw [show storedByte b s = storedByte b w from (htouch.storedByte b).symm, ← hbytes b]
    simp only [storedByte, keyMask, hsto]
  · unfold dirOf
    rw [hkept, harm]
    exact hd

end

/-- Settles O39: a home answers a request of another node at once or sends SNOOPs for it, by the request's kind and the entry of its line in the directory. -/
theorem homeServesRequests : Obligations.HomeServesRequests := by
  unfold Obligations.HomeServesRequests
  intro m s line hs ho hv hp
  refine ⟨exec_malformed hs ho hv hp, fun hm hn hne hr hl hdram hline htxn hroom hrest hdirty hheld => ?_⟩
  subst hline
  have h : HomeReq m s := ⟨hs, by simp [onPort, ho, hv, hp], hm, hn, hne, hr, hl, ⟨htxn, hdram, hroom⟩, hrest, ⟨hdirty, hheld⟩⟩
  exact ⟨h.read, fun hs => h.readOwned, h.readOwn, h.upgrade, fun c hs hc hd hb => h.ownShared hc hd hb, fun data poison hk hd hlen hb => h.writeback hk hd hlen hb, h.writebackForeign,
    fun n hk hd hn hin hb => h.uncachedRead hk hd hn hin hb, fun data hk hd h0 hin hb => h.uncachedStore hk hd h0 hin hb⟩

end Sys2Proof.Machine
end


section
set_option Elab.async false
/-! PROOFS. A group of one A operation that takes no overflow interruption: what its commit leaves of the core. -/

namespace Sys2Proof.Machine

section
variable {s t u : State} {l : Nat} {env : CoreEnv} {op : AluOp} {cc : Bool} {rd ra : Nat} {b : Src}

/-- What a group of one A operation comes to. -/
def aluEff (op : AluOp) (cc : Bool) (rd ra : Nat) (b : Src) (c : Core) : Eff :=
  let r := aluResult op (getG c ra) (srcVal c b)
  if cc then effArith c rd r.1 (ccArith r.2 r.1) r.2 {} else effG rd r.1 {}

/-- An A operation without an overflow interruption has its register and its CC for effects, and nothing else. -/
theorem aluEff_eq {c : Core} (ho : (cc && (aluResult op (getG c ra) (srcVal c b)).2 && tswFom c) = false) : aluEff op cc rd ra b c =
    { g := if rd = 0 then [] else [(rd, (aluResult op (getG c ra) (srcVal c b)).1)], cc := if cc then some (aluCc op (getG c ra) (srcVal c b)) else none } := by
  unfold aluEff effG
  cases cc with
  | true =>
    have hov : ((aluResult op (getG c ra) (srcVal c b)).2 && tswFom c) = false := by simpa using ho
    simp only [if_true, effArith, hov, Bool.false_eq_true, if_false, effCC, effG, aluCc]
    split <;> rfl
  | false =>
    simp only [Bool.false_eq_true, if_false]
    split <;> rfl

/-- The registers after an A operation. -/
structure AluDone (op : AluOp) (cc : Bool) (rd ra : Nat) (b : Src) (next : Nat) (c d : Core) : Prop where
  core : d = { c with g := d.g, tsw := d.tsw, pc := BitVec.ofNat 64 next, ucBuf := [], atomBuf := [], part := none, code := none, sysBuf := [], held := none, ioHold := none, inRepn := false }
  g : ∀ n, getG d n = if n = rd ∧ n ≠ 0 then (aluResult op (getG c ra) (srcVal c b)).1 else getG c n
  tsw : d.tsw = if cc then setFld c.tsw 49 48 (aluCc op (getG c ra) (srcVal c b)).toNat else c.tsw

/-- The end of a group whose effects are one register and CC. -/
def aluHeld (e : Eff) (next : Nat) : HeldGroup := { eff := e, cont := next, count := none, repn := false }

/-- A core with a register and, where it is asked for, CC written. -/
def aluRegs (cc : Bool) (rd : Nat) (v : Long) (w : BitVec 2) (c : Core) : Core := if cc then setCC w (setG rd v c) else setG rd v c

theorem setG_eq (rd : Nat) (v : Long) (c : Core) : setG rd v c = { c with g := if rd = 0 then c.g else tset 0 rd v c.g } := by
  unfold setG
  split <;> rfl

theorem aluRegs_eq (cc : Bool) (rd : Nat) (v : Long) (w : BitVec 2) (c : Core) : aluRegs cc rd v w c =
    { c with g := if rd = 0 then c.g else tset 0 rd v c.g, tsw := if cc then setFld c.tsw 49 48 w.toNat else c.tsw } := by
  cases cc with
  | true => exact congrArg (setCC w) (setG_eq rd v c)
  | false => exact setG_eq rd v c

theorem writeRegs_alu (cc : Bool) (rd : Nat) (v : Long) (w : BitVec 2) (c : Core) :
    writeRegs { g := if rd = 0 then [] else [(rd, v)], cc := if cc then some w else none } c = aluRegs cc rd v w c := by
  have hregs : (if rd = 0 then [] else [(rd, v)]).foldl (fun c (w : Nat × Long) => setG w.1 w.2 c) c = setG rd v c := by
    by_cases h : rd = 0
    · rw [if_pos h, setG, if_pos h]
      rfl
    · rw [if_neg h]
      rfl
  unfold writeRegs aluRegs
  rw [hregs]
  generalize setG rd v c = d
  have hz : d.fpc ||| 0 = d.fpc := by simp
  cases cc <;> simp only [List.foldl_nil, hz, if_true, Bool.false_eq_true, if_false]

theorem getG_of_g {c d : Core} (h : d.g = c.g) (n : Nat) : getG d n = getG c n := by
  unfold getG
  rw [h]

theorem getG_setG (rd n : Nat) (v : Long) (c : Core) : getG (setG rd v c) n = if n = rd ∧ n ≠ 0 then v else getG c n := by
  unfold setG
  split
  next h => rw [if_neg (by omega)]
  next h =>
    unfold getG
    by_cases hn : n = 0
    · rw [if_pos hn, if_pos hn, if_neg (by omega)]
    · rw [if_neg hn, if_neg hn]
      exact (tget_tset ..).trans (if_congr (by simp [hn]) rfl rfl)

theorem endRegs_alu {c : Core} {next : Nat} (ho : (cc && (aluResult op (getG c ra) (srcVal c b)).2 && tswFom c) = false) :
    AluDone op cc rd ra b next c (endRegs (aluHeld (aluEff op cc rd ra b c) next) c) := by
  have hregs : writeRegs (aluEff op cc rd ra b c) c = aluRegs cc rd (aluResult op (getG c ra) (srcVal c b)).1 (aluCc op (getG c ra) (srcVal c b)) c := by
    rw [aluEff_eq ho, writeRegs_alu]
  have hend : endRegs (aluHeld (aluEff op cc rd ra b c) next) c =
      { aluRegs cc rd (aluResult op (getG c ra) (srcVal c b)).1 (aluCc op (getG c ra) (srcVal c b)) c with
        pc := BitVec.ofNat 64 next, ucBuf := [], atomBuf := [], part := none, code := none, sysBuf := [], held := none, ioHold := none, inRepn := false } := by
    have htarget : (aluEff op cc rd ra b c).target = none := by rw [aluEff_eq ho]
    have hovf : (aluEff op cc rd ra b c).ovf = none := by rw [aluEff_eq ho]
    unfold endRegs aluHeld
    simp only [htarget, hovf, Option.getD_none, Option.isSome_none, Bool.false_eq_true, if_false, hregs]
  rw [hend]
  refine ⟨by rw [aluRegs_eq], fun n => ?_, by rw [aluRegs_eq]⟩
  rw [← getG_setG]
  refine getG_of_g ?_ n
  rw [aluRegs_eq, setG_eq]

/-! ### The group commits -/

/-- A core with its performed-result buffer for reads emptied. -/
def ucEmptied (c : Core) : Core := { c with ucBuf := [] }

/-- Effects on registers and CC alone. -/
def regsEff (xs : List (Nat × Long)) (w : Option (BitVec 2)) : Eff := { g := xs, cc := w }

theorem outCheck_regs (xs : List (Nat × Long)) (w : Option (BitVec 2)) (s : State) : outCheck coreEnv l (regsEff xs w) s = .ok () s := rfl

theorem heldGo_regs (xs : List (Nat × Long)) (w : Option (BitVec 2)) (next : Nat) (s : State) :
    heldGo coreEnv l (aluHeld (regsEff xs w) next) s = .ok true (modCore l (endRegs (aluHeld (regsEff xs w) next)) s) := rfl

/-- Effects that are registers alone are written at once. -/
theorem commitGroup_regs (xs : List (Nat × Long)) (w : Option (BitVec 2)) (next : Nat) (hpart : (coreOf l s).part = none)
    (hsb : sbCount (coreOf l s).sb ≤ 48) : commitGroup coreEnv l (regsEff xs w) next none false s = .ok true (modCore l (endRegs (aluHeld (regsEff xs w) next)) (modCore l ucEmptied s)) := by
  unfold commitGroup
  dsimp only
  rw [hpart]
  refine (if_neg ?_).trans ?_
  · change ¬ 48 < sbCount (coreOf l s).sb + 0
    omega
  · cases w <;> rfl

/-- The state in which the words of a group that begins are kept. -/
def groupBegun (l : Nat) (f : Fetched) (s1 : State) (s : State) : State := modCore l (fun c => { c with code := some (f.toRep (coreOf l s).pc.toNat 0 false) }) s1

/-- The state after a group of one A operation. -/
def aluCommitted (l : Nat) (f : Fetched) (op : AluOp) (cc : Bool) (rd ra : Nat) (b : Src) (v : State) : State :=
  modCore l (endRegs (aluHeld (aluEff op cc rd ra b (coreOf l v)) f.next)) (modCore l ucEmptied v)

theorem runGroup_alu {s1 : State} {f : Fetched} (hmid : midGroup (coreOf l s) = false) (hrep : (coreOf l s).rep = none) (hpart : (coreOf l s1).part = none)
    (hsb : sbCount (coreOf l s1).sb ≤ 48) (hfetch : fetchGroup l (coreOf l s).pc.toNat s = .ok f s1) (hdec : decodeGroup f.raw f.stop = .ops [.alu op cc rd ra b])
    (ho : (cc && (aluResult op (getG (coreOf l (groupBegun l f s1 s)) ra) (srcVal (coreOf l (groupBegun l f s1 s)) b)).2 && tswFom (coreOf l (groupBegun l f s1 s))) = false) :
    runGroup coreEnv l s = .ok () (aluCommitted l f op cc rd ra b (groupBegun l f s1 s)) := by
  simp only [midGroup, Bool.or_eq_false_iff, Option.isSome_eq_false_iff, Option.isNone_iff_eq_none] at hmid
  obtain ⟨⟨⟨⟨⟨hrepn, hheld⟩, hio⟩, huc⟩, hatom⟩, hp⟩ := hmid
  have hbegun : begun (coreOf l s) = false := by simp [begun, hheld, hio, huc, hatom, hp]
  have hcode : codeAt l (coreOf l s).pc.toNat s = .ok f s1 := by
    unfold codeAt
    split
    · rw [if_neg (by simp [hbegun])]
      exact hfetch
    · exact hfetch
  have hcore : coreOf l (groupBegun l f s1 s) = { coreOf l s1 with code := some (f.toRep (coreOf l s).pc.toNat 0 false) } := (coreOf_modCore ..).trans (if_pos rfl)
  have hcommit : commitGroup coreEnv l (aluEff op cc rd ra b (coreOf l (groupBegun l f s1 s))) f.next none false (groupBegun l f s1 s) =
      .ok true (aluCommitted l f op cc rd ra b (groupBegun l f s1 s)) := by
    unfold aluCommitted
    rw [aluEff_eq ho]
    exact commitGroup_regs _ _ f.next (by rw [hcore]; exact hpart) (by rw [hcore]; exact hsb)
  have hrun : runOps coreEnv l (coreOf l s).pc.toNat f.next f.next none false [.alu op cc rd ra b] (groupBegun l f s1 s) =
      .ok () (aluCommitted l f op cc rd ra b (groupBegun l f s1 s)) := by
    unfold runOps
    rw [if_neg (by simp [COp.privileged])]
    change (commitGroup coreEnv l (aluEff op cc rd ra b (coreOf l (groupBegun l f s1 s))) f.next none false (groupBegun l f s1 s)).bind _ = _
    rw [hcommit]
    rfl
  unfold runGroup
  simp only [hheld]
  unfold runFresh
  simp only [hrep, hcode, Flow.bind, hdec]
  exact hrun

theorem AluDone.of_begun {c d : Core} {next : Nat} {w : Option RepGroup} (h : AluDone op cc rd ra b next (ucEmptied { c with code := w }) d) : AluDone op cc rd ra b next c d :=
  ⟨h.core, h.g, h.tsw⟩

/-- What the commit of one A operation leaves: the core's registers, and every other core. -/
theorem aluCommitted_spec {s1 : State} {f : Fetched} (ho : (cc && (aluResult op (getG (coreOf l s1) ra) (srcVal (coreOf l s1) b)).2 && tswFom (coreOf l s1)) = false) :
    OnlyCores s1 (aluCommitted l f op cc rd ra b (groupBegun l f s1 s)) ∧
    AluDone op cc rd ra b f.next (coreOf l s1) (coreOf l (aluCommitted l f op cc rd ra b (groupBegun l f s1 s))) ∧
    ∀ k, k ≠ l → coreOf k (aluCommitted l f op cc rd ra b (groupBegun l f s1 s)) = coreOf k s1 := by
  have hbegun : coreOf l (groupBegun l f s1 s) = { coreOf l s1 with code := some (f.toRep (coreOf l s).pc.toNat 0 false) } := (coreOf_modCore ..).trans (if_pos rfl)
  have hcore : coreOf l (aluCommitted l f op cc rd ra b (groupBegun l f s1 s)) =
      endRegs (aluHeld (aluEff op cc rd ra b (coreOf l (groupBegun l f s1 s))) f.next) (ucEmptied (coreOf l (groupBegun l f s1 s))) := by
    unfold aluCommitted
    rw [coreOf_modCore, if_pos rfl, coreOf_modCore, if_pos rfl]
  refine ⟨((onlyCores_modCore l _ s1).trans (onlyCores_modCore l _ _)).trans (onlyCores_modCore l _ _), ?_, fun k hk => ?_⟩
  · rw [hcore, hbegun]
    exact AluDone.of_begun (endRegs_alu (c := ucEmptied { coreOf l s1 with code := some (f.toRep (coreOf l s).pc.toNat 0 false) }) ho)
  · unfold aluCommitted groupBegun
    rw [coreOf_modCore, if_neg hk, coreOf_modCore, if_neg hk, coreOf_modCore, if_neg hk]

end

end Sys2Proof.Machine
end


section
set_option Elab.async false
/-! PROOFS. Maquette's reads and writes of storage: the monitor's own words are apart from storage, so a read leaves them as they are. -/

namespace Sys2Proof.Machine

section
variable {s t u : State}

/-- A state with the words of the monitor replaced. -/
def setMq (x : Maquette) (s : State) : State := { s with mq := x }

/-- An operation that neither reads nor writes the words of the monitor. -/
def Apart (f : State → State) : Prop := ∀ x s, f (setMq x s) = setMq x (f s)

theorem Apart.comp {f g : State → State} (hf : Apart f) (hg : Apart g) : Apart fun s => f (g s) := fun x s => (congrArg f (hg x s)).trans (hf x (g s))

theorem apart_foldl {α : Type} {f : State → α → State} (hf : ∀ e, Apart fun s => f s e) (xs : List α) : Apart fun s => xs.foldl f s := by
  induction xs with
  | nil => exact fun _ _ => rfl
  | cons e xs ih => exact Apart.comp (f := fun s => xs.foldl f s) ih (hf e)

theorem Apart.same {f : State → State} (hf : Apart f) (s : State) : (f s).mq = s.mq := by
  have h := congrArg State.mq (hf s.mq s)
  exact h

/-- With the words of the monitor put back afterwards, such an operation is as without them. -/
theorem Apart.back {f : State → State} (hf : Apart f) (x : Maquette) (s : State) : setMq s.mq (f (setMq x s)) = f s := by
  rw [hf x s]
  exact (hf s.mq s).symm

@[simp] theorem linkOf_setMq (p : PortId) (x : Maquette) (s : State) : linkOf p (setMq x s) = linkOf p s := by cases p <;> rfl

@[simp] theorem setLink_setMq (p : PortId) (l : Link) (x : Maquette) (s : State) : setLink p l (setMq x s) = setMq x (setLink p l s) := by cases p <;> rfl

@[simp] theorem emit_setMq (o : Out) (x : Maquette) (s : State) : emit o (setMq x s) = setMq x (emit o s) := rfl

@[simp] theorem tor_setMq (x : Maquette) (s : State) : (setMq x s).tor = s.tor := rfl

theorem apart_ite {f g : State → State} {c : State → Prop} [∀ s, Decidable (c s)] (hc : ∀ x s, c (setMq x s) = c s) (hf : Apart f) (hg : Apart g) :
    Apart fun s => if c s then f s else g s := fun x s => by
  by_cases h : c s
  · simp only [hc, if_pos h, hf x s]
  · simp only [hc, if_neg h, hg x s]

/-! ### What a line sends -/

theorem apart_sendAlign (p : PortId) : Apart (sendAlign p) := fun x s => by
  unfold sendAlign
  simp only [linkOf_setMq, tor_setMq, setLink_setMq, emit_setMq, apply_ite (setMq x)]

theorem apart_putFlit (p : PortId) (f : List Byte) : Apart (putFlit p f) := fun x s => congrArg (emit (.flit p (codeword f))) (apart_sendAlign p x s)

theorem apart_sendData (p : PortId) (vc : Nat) (data : List Byte) (som eom enc : Bool) (via : Option Nat) : Apart (sendData p vc data som eom enc via) := fun x s => by
  unfold sendData
  simp only [linkOf_setMq, tor_setMq, setLink_setMq, apart_putFlit p _ x]

theorem apart_txOne (p : PortId) : Apart (txOne p) := fun x s => by
  unfold txOne
  simp only [linkOf_setMq, setLink_setMq]
  split
  · rfl
  · split
    · rfl
    · exact apart_sendData p _ _ _ _ _ _ x _

theorem apart_txDrain (p : PortId) (n : Nat) : Apart (txDrain p n) := fun x s => by
  induction n generalizing s with
  | zero => rfl
  | succ n ih =>
    simp only [txDrain, linkOf_setMq]
    split
    · rfl
    · rw [apart_txOne, ih]

theorem apart_linkSendVia (p : PortId) (vc : Nat) (bytes : List Byte) (via : Option Nat) : Apart (linkSendVia p vc bytes via) := fun x s => by
  unfold linkSendVia modLink
  simp only [linkOf_setMq, setLink_setMq, apart_txDrain p _ x]

theorem apart_forwardMsg (m : Msg) (via : Option Nat) : Apart (forwardMsg m via) := fun x s => by
  have htable : tableFor m.epoch (setMq x s) = tableFor m.epoch s := rfl
  have hport : ∀ r d, pickPort r d (setMq x s) = pickPort r d s := fun _ _ => rfl
  have hdown : (fun q => cameDown m q (setMq x s)) = fun q => cameDown m q s := rfl
  unfold forwardMsg
  rw [htable, hdown]
  cases tableFor m.epoch s with
  | none => rfl
  | some r =>
    dsimp only
    rw [hport]
    cases pickPort (tget {} m.dest r) (via.any fun q => cameDown m q s) s with
    | none => rfl
    | some p => exact apart_linkSendVia (.arm p) _ _ via x (emit _ s)

/-- A state with the fabric's own words replaced. -/
def withArm (a : Fabric) (s : State) : State := { s with arm := a }

theorem apart_sendReq (kind addr : Nat) (body : List Byte) (who : Agent) (part : Option Nat) : Apart (sendReq kind addr body who part) := fun x s =>
  apart_forwardMsg _ none x (withArm _ s)

/-! ### What reading a line does -/

theorem apart_releaseRemote (line : Nat) (who : Agent) (part : Option Nat) : Apart (releaseRemote line who part) := fun x s => by
  have hr : tget none line (setMq x s).arm.rlines = tget none line s.arm.rlines := rfl
  have hany : anyHolds line (setMq x s) = anyHolds line s := rfl
  unfold releaseRemote
  rw [hr, hany]
  cases tget none line s.arm.rlines with
  | none => rfl
  | some r =>
    dsimp only
    split
    · rfl
    · split
      · exact apart_sendReq _ _ _ _ _ x (withArm _ s)
      · rfl

theorem apart_modCore (l : Nat) (f : Core → Core) : Apart (modCore l f) := fun _ _ => rfl

theorem apart_onCores (p : Nat → Bool) (f : Core → Core) : Apart (onCores p f) := fun x s => by
  unfold onCores
  refine apart_foldl (fun l => ?_) _ x s
  exact apart_ite (c := fun _ => p l = true) (fun _ _ => rfl) (apart_modCore l f) fun _ _ => rfl

theorem apart_snoopRead (l : Option Nat) (line : Nat) : Apart (snoopRead l line) := fun x s =>
  apart_foldl (f := fun s (e : Nat × Core) => if some e.1 == l || dataCached e.2 then s else modCore e.1 (snoopOff line) s)
    (fun e => apart_ite (fun _ _ => rfl) (fun _ _ => rfl) (apart_modCore e.1 _)) s.cpu.core x s

theorem apart_sliceUse (line : Nat) (part : Option Nat) : Apart (sliceUse line part) := fun x s => by
  have h : (!isLocal (line * 128) (setMq x s) || physKind (physOfAddr (line * 128)) (setMq x s) != .dram) = (!isLocal (line * 128) s || physKind (physOfAddr (line * 128)) s != .dram) := rfl
  unfold sliceUse
  dsimp only
  rw [h]
  split <;> rfl

theorem apart_homeSet (a : Nat) (v : Byte) : Apart (homeSet a v) := fun x s => by
  have hl : isLocal a (setMq x s) = isLocal a s := rfl
  have hr : tget none (lineOf a) (setMq x s).arm.rlines = tget none (lineOf a) s.arm.rlines := rfl
  unfold homeSet
  rw [hl, hr]
  split
  · rfl
  · split <;> rfl

theorem apart_homeSetAll (data : List Byte) : ∀ a, Apart (homeSetAll a data) := by
  induction data with
  | nil => exact fun _ _ _ => rfl
  | cons v data ih => exact fun a => (ih (a + 1)).comp (apart_homeSet a v)

theorem apart_writeBackIf (p : Nat → DByte → Bool) : Apart (writeBackIf p) := fun x s => by
  unfold writeBackIf
  extract_lets go put y go' put' y'
  have hput : put = setMq x put' := by
    unfold put put'
    refine apart_foldl (fun e x s => ?_) go' x s
    obtain ⟨a, d⟩ := e
    cases d with
    | none => rfl
    | some d => exact apart_homeSet a d.val x s
  unfold y y'
  rw [hput]
  rfl

theorem apart_writeBackLine (line : Nat) : Apart (writeBackLine line) :=
  Apart.comp (f := writeBackIf fun a _ => lineOf a == line) (apart_writeBackIf _)
    (apart_ite (c := fun s => lineDirty line (fun _ => true) s = true) (fun _ _ => rfl) (apart_sliceUse line none) fun _ _ => rfl)

/-- A modified held line that goes home. -/
def heldHome (line : Nat) (h : Option HeldLine) (s : State) : State :=
  match h with
  | some x => if x.dirty then homeSetAll (line * 128) x.data (sliceUse line none s) else s
  | none => s

theorem apart_heldHome (line : Nat) (h : Option HeldLine) : Apart (heldHome line h) := by
  cases h with
  | none => exact fun _ _ => rfl
  | some y => exact apart_ite (c := fun _ => y.dirty = true) (fun _ _ => rfl) ((apart_homeSetAll y.data _).comp (apart_sliceUse line none)) fun _ _ => rfl

/-- A core that holds no copy of a line any more. -/
def heldNone (line : Nat) (c : Core) : Core :=
  { c with held1 := if dataCached c then tset none line none c.held1 else c.held1, held2 := if l2On c then tset none line none c.held2 else c.held2 }

/-- A core's modified copies of a line go home, and it holds none of them any more. -/
def copiesHome (l line : Nat) (c : Core) (s : State) : State :=
  let s := if l2On c then heldHome line (tget none line c.held2) s else s
  let s := if dataCached c then heldHome line (tget none line c.held1) s else s
  modCore l (heldNone line) s

theorem evictHeld_eq (l line : Nat) (s : State) : evictHeld l line s = copiesHome l line (coreOf l s) s := rfl

theorem apart_copiesHome (l line : Nat) (c : Core) : Apart (copiesHome l line c) := by
  have h2 : Apart fun s => if l2On c then heldHome line (tget none line c.held2) s else s :=
    apart_ite (c := fun _ => l2On c = true) (fun _ _ => rfl) (apart_heldHome line _) fun _ _ => rfl
  have h1 : Apart fun s => if dataCached c then heldHome line (tget none line c.held1) s else s :=
    apart_ite (c := fun _ => dataCached c = true) (fun _ _ => rfl) (apart_heldHome line _) fun _ _ => rfl
  exact (apart_modCore l (heldNone line)).comp (h1.comp h2)

theorem apart_evictHeld (l line : Nat) : Apart (evictHeld l line) := fun x s => apart_copiesHome l line (coreOf l s) x s

theorem apart_cleanLine (keep : Option Nat) (line : Nat) : Apart (cleanLine keep line) := fun x s => by
  unfold cleanLine
  rw [apart_writeBackLine]
  extract_lets v u v' u'
  have hu : u = setMq x u' := by
    unfold u u'
    refine apart_foldl (fun l x s => ?_) _ x v'
    exact apart_ite (f := fun s => s) (g := evictHeld l line) (c := fun s => (some l == keep || ((tget none line (coreOf l s).held1).isNone && (tget none line (coreOf l s).held2).isNone)) = true)
      (fun _ _ => rfl) (fun _ _ => rfl) (apart_evictHeld l line) x s
  rw [hu]
  exact apart_onCores _ _ x u'

/-- What reading a line of this module's main storage does to one line. -/
def lineSeen (who : Agent) (part : Option Nat) (attr ln : Nat) (s : State) : State :=
  releaseRemote ln who part (snoopRead none ln (sliceUse ln (allocFor who part) (if 2 ≤ attr then cleanLine none ln s else s)))

theorem apart_lineSeen (who : Agent) (part : Option Nat) (attr ln : Nat) : Apart (lineSeen who part attr ln) :=
  (apart_releaseRemote ln who part).comp ((apart_snoopRead none ln).comp ((apart_sliceUse ln _).comp
    (apart_ite (c := fun _ => 2 ≤ attr) (fun _ _ => rfl) (apart_cleanLine none ln) fun _ _ => rfl)))

/-- Storage of this module that is read by an agent. -/
def linesSeen (who : Agent) (part : Option Nat) (attr a n : Nat) (s : State) : State := (linesOf a n).foldl (fun s ln => lineSeen who part attr ln s) s

theorem apart_linesSeen (who : Agent) (part : Option Nat) (attr a n : Nat) : Apart (linesSeen who part attr a n) := apart_foldl (apart_lineSeen who part attr) _

/-- An agent's read of this module's DRAM. -/
theorem agentSeen_dram {who : Agent} {part : Option Nat} {attr a n : Nat} (h0 : n ≠ 0) (hl : isLocal a s = true) (hd : physKind (physOfAddr a) s = .dram) :
    agentSeen who part attr a n s = linesSeen who part attr a n s := by
  unfold agentSeen
  rw [if_neg h0, if_neg (by simp [readAway, hl]), if_neg (by simp [hd])]
  rfl

end

end Sys2Proof.Machine
end


section
set_option Elab.async false
/-! PROOFS. Maquette's reads and writes of storage: what they write of the state, and the bytes that every observer sees afterwards. -/

namespace Sys2Proof.Machine

section
variable {s t u : State} {ss : Session} {sc : Scope}

/-! ### What a line that is taken home writes -/

/-- What taking the copies of a line home writes. -/
def cleanRegs : List FrameReg := [.sto, .mem, .cpu, .core, .arm]

theorem clean_sliceUse {line : Nat} {part : Option Nat} : Touches cleanRegs s (sliceUse line part s) := (frame_sliceUse line part).mono (by decide)

theorem clean_homeSet {a : Nat} {v : Byte} : Touches cleanRegs s (homeSet a v s) := frame_homeSet.mono (by decide)

theorem clean_homeSetAll {data : List Byte} : ∀ {a : Nat} {s : State}, Touches cleanRegs s (homeSetAll a data s) := by
  induction data with
  | nil => exact .refl _ _
  | cons v data ih => exact clean_homeSet.trans ih

theorem clean_dirty (d : Tab (Option DByte)) : Touches cleanRegs s { s with cpu := { s.cpu with dirty := d } } := (frame_dirty s d).mono (by decide)

theorem clean_writeBackIf {p : Nat → DByte → Bool} : Touches cleanRegs s (writeBackIf p s) := by
  refine (touches_foldl (fun u e => ?_) _ s).trans (clean_dirty _)
  split
  · exact clean_homeSet
  · exact .refl _ u

theorem clean_writeBackLine {line : Nat} : Touches cleanRegs s (writeBackLine line s) :=
  (touches_ite (fun _ => clean_sliceUse) fun _ => .refl _ s).trans clean_writeBackIf

theorem clean_heldHome {line : Nat} {h : Option HeldLine} : Touches cleanRegs s (heldHome line h s) := by
  cases h with
  | none => exact .refl _ s
  | some x => exact touches_ite (fun _ => clean_sliceUse.trans clean_homeSetAll) fun _ => .refl _ s

theorem clean_evictHeld {l line : Nat} : Touches cleanRegs s (evictHeld l line s) := by
  rw [evictHeld_eq]
  exact ((touches_ite (fun _ => clean_heldHome) fun _ => .refl _ s).trans (touches_ite (fun _ => clean_heldHome) fun _ => .refl _ _)).trans
    ((frame_modCore_keeps _ l (f := heldNone line) (fun _ => rfl) fun _ h => h).mono (by decide))

theorem clean_cores {p : Nat → Bool} {f : Core → Core} (ho : ∀ c, ownOf (f c) = ownOf c) (hr : ∀ c, c.resv = none → (f c).resv = none) : Touches cleanRegs s (onCores p f s) :=
  (frame_onCores_keeps s p ho hr).mono (by decide)

theorem clean_cleanLine {keep : Option Nat} {line : Nat} : Touches cleanRegs s (cleanLine keep line s) :=
  (clean_writeBackLine.trans (touches_foldl (fun u _ => touches_ite (fun _ => .refl _ u) fun _ => clean_evictHeld) _ _)).trans
    (clean_cores (own_dropFromCore line) fun c => (coreKeeps_dropFromCore line c).resv)

/-! ### What an agent's read writes -/

/-- What an agent's read of this module's storage writes. -/
def readRegs : List FrameReg := [.sto, .mem, .cpu, .core, .arm, .out, .armLink, .chLink, .flt, .live]

theorem read_lineSeen {who : Agent} {part : Option Nat} {attr ln : Nat} : Touches readRegs s (lineSeen who part attr ln s) := by
  have hclean : Touches readRegs s (if 2 ≤ attr then cleanLine none ln s else s) := touches_ite (fun _ => clean_cleanLine.mono (by decide)) fun _ => .refl _ s
  have hsnoop : ∀ u, Touches readRegs u (snoopRead none ln u) := fun u =>
    touches_foldl (fun v _ => touches_ite (fun _ => .refl _ v) fun _ => (frame_modCore_keeps v _ (own_snoopOff ln) fun c => (coreKeeps_snoopOff ln c).resv).mono (by decide)) _ u
  exact ((hclean.trans (clean_sliceUse.mono (by decide))).trans (hsnoop _)).trans (frame_releaseRemote.mono (by decide))

theorem read_linesSeen {who : Agent} {part : Option Nat} {attr a n : Nat} : Touches readRegs s (linesSeen who part attr a n s) := touches_foldl (fun _ _ => read_lineSeen) _ s

/-! ### The control level's storage commands -/

theorem control_of_grant {cover : Scope → Bool} (hc : s.flt.checkstop = false) (hg : grantIn ss s = some sc) (hcov : cover sc = true) : control ss cover s = .inr sc := by
  simp only [control, hc, hg, hcov, if_true, Bool.false_eq_true, if_false]

theorem sessionMem_of_idle (hm : Safety.monitorIdle s) (ss : Session) : (sessionOf ss s).mem = none := by
  obtain ⟨hbusy, -⟩ := hm
  simp only [mqBusy, Bool.or_eq_false_iff, Option.isSome_eq_false_iff, Option.isNone_iff_eq_none] at hbusy
  obtain ⟨⟨⟨⟨huart, hmbx⟩, -⟩, -⟩, -⟩ := hbusy
  cases ss with
  | uart => exact huart
  | mailbox => exact hmbx

/-- The words of the monitor while a session waits for storage. -/
def mqWaiting (ss : Session) (m : MqMem) (s : State) : Maquette := (mqWait ss (some m) s).mq

theorem mqWait_some (m : MqMem) (s : State) : mqWait ss (some m) s = setMq (mqWaiting ss m s) s := by
  cases ss <;> rfl

/-- A session that waited for nothing before waits for nothing again. -/
theorem mqWait_none {m : MqMem} (hm : (sessionOf ss s).mem = none) (hmq : u.mq = s.mq) : mqWait ss none (setMq (mqWaiting ss m s) u) = u := by
  have hs : setMq s.mq u = u := by
    rw [← hmq]
    rfl
  refine Eq.trans ?_ hs
  cases ss with
  | uart =>
    have hu : { s.mq.uart with mem := none } = s.mq.uart := by rw [← hm]; rfl
    change setMq { s.mq with uart := { s.mq.uart with mem := none } } u = _
    rw [hu]
  | mailbox =>
    have hu : { s.mq.mbx with mem := none } = s.mq.mbx := by rw [← hm]; rfl
    change setMq { s.mq with mbx := { s.mq.mbx with mem := none } } u = _
    rw [hu]

theorem exec_memRead (hs : Safety.settled s) (hu : mqUp s = true) (hm : Safety.monitorIdle s) {p addr a : Nat} {b : List Byte} (hc : s.flt.checkstop = false)
    (hg : grantIn ss s = some (.partition p)) (h8 : addr % 8 = 0) (ha : armOf p addr s = some a) (hl : isLocal a s = true)
    (hhas : agentHas .service (attrAt 0 p addr s) a s = true) (hread : agentRead .service (attrAt 0 p addr s) a 8 s = (b, false)) : exec (.mqMemR ss addr 1) s =
      .next (respond ss [hexLong (BitVec.ofNat 64 addr) ++ asc " " ++ hexLong (BitVec.ofNat 64 (beNat b))] (agentSeen .service (some p) (attrAt 0 p addr s) a 8 s)) := by
  have haway : readAway (attrAt 0 p addr s) a s = false := by simp [readAway, hl]
  have hdram : physKind (physOfAddr a) s = .dram := by
    unfold agentRead at hread
    rw [if_neg (by simp [haway])] at hread
    have hout := (congrArg Prod.snd hread :)
    simp only [hl, Bool.true_and, Bool.or_eq_false_iff, bne_eq_false_iff_eq] at hout
    exact hout.2
  have hplace : mqPlace (.partition p) addr s = some a := by simp only [mqPlace, h8, ne_eq, not_true_eq_false, if_false, ha]
  have hseen := agentSeen_dram (who := .service) (part := some p) (attr := attrAt 0 p addr s) (n := 8) (by decide) hl hdram
  have hframe : Touches readRegs s (linesSeen .service (some p) (attrAt 0 p addr s) a 8 s) := read_linesSeen
  have hstate : memRead ss (.partition p) addr 1 s =
      respond ss [hexLong (BitVec.ofNat 64 addr) ++ asc " " ++ hexLong (BitVec.ofNat 64 (beNat b))] (agentSeen .service (some p) (attrAt 0 p addr s) a 8 s) := by
    have hms : (sessionOf ss s).mem = none := sessionMem_of_idle hm ss
    have hback : mqWait ss none (linesSeen .service (some p) (attrAt 0 p addr s) a 8 (setMq (mqWaiting ss (.read (.partition p) addr 1) s) s)) =
        linesSeen .service (some p) (attrAt 0 p addr s) a 8 s := by
      rw [apart_linesSeen]
      exact mqWait_none hms ((apart_linesSeen .service (some p) (attrAt 0 p addr s) a 8).same s)
    have hask : (List.range 1).map (fun i => (addr + 8 * i, mqPlace (.partition p) (addr + 8 * i) s)) = [(addr, some a)] := by
      simp [List.range_succ, hplace]
    unfold memRead
    rw [hask, mqWait_some, hseen, ← hback]
    dsimp only
    generalize hx : mqWaiting ss (.read (.partition p) addr 1) s = x
    have hhas' : agentHas .service (mqAttr (.partition p) addr a (setMq x s)) a (setMq x s) = true := hhas
    have hread' : agentRead .service (mqAttr (.partition p) addr a (setMq x s)) a 8 (setMq x s) = (b, false) := hread
    have hseen' : agentSeen .service (some p) (mqAttr (.partition p) addr a (setMq x s)) a 8 (setMq x s) = linesSeen .service (some p) (attrAt 0 p addr s) a 8 (setMq x s) :=
      agentSeen_dram (s := setMq x s) (by decide) hl hdram
    rw [← hseen']
    simp [memAnswer, hhas', hread', scopePart]
  have hexec : mqExec ss (.memR addr 1) s = memRead ss (.partition p) addr 1 s := by
    simp only [mqExec, control_of_grant (cover := fun _ => true) hc hg rfl]
    rfl
  refine (mqDo_idle hm hu (.memR addr 1)).trans ?_
  rw [hexec, hstate, hseen]
  have hall : Touches (readRegs ++ [.svc, .pf0]) s (linesSeen .service (some p) (attrAt 0 p addr s) a 8 s) := hframe.mono (by decide)
  exact done_framed (hall.andThen (frame_respond ss _ _)) hs

/-! ### A write -/

/-- The line of a long. -/
theorem linesOf_long {a : Nat} (h8 : a % 8 = 0) : linesOf a 8 = [lineOf a] := linesOf_one (by decide) (by omega)

/-- A long before it is stored at its home: what it was is noted, and no copy of its line is cached any more. -/
def longOpened (a : Nat) (s : State) : State := copiesTaken none (lineOf a) (noteOld (.others none) a (cohBytes a 8 s) s)

theorem agentWrite_long {part : Option Nat} {a : Nat} {data : List Byte} (h8 : a % 8 = 0) (hn : data.length = 8) (hd : physKind (physOfAddr a) s = .dram)
    (hready : homeReady (lineOf a) true s = true) : agentWrite .service part a data s = homeSetAll a data (longOpened a s) := by
  have hne : data.isEmpty = false := by
    cases data with
    | nil => exact absurd hn (by decide)
    | cons => rfl
  have hwhole : ¬ (a ≤ lineOf a * 128 ∧ lineOf a * 128 + 128 ≤ a + 8) := by omega
  unfold agentWrite homeWrite homeWriteKeep longOpened copiesTaken
  rw [hn, linesOf_long h8]
  simp only [hne, hready, hd, allocFor, hwhole, List.any_cons, List.any_nil, List.foldl_cons, List.foldl_nil, Bool.not_true, Bool.or_self, Bool.false_and, Bool.false_eq_true,
    bne_self_eq_false, Bool.and_false, if_false, if_true]

theorem clean_longOpened (a : Nat) : Touches cleanRegs s (longOpened a s) := by
  have hnote : Touches cleanRegs s (noteOld (.others none) a (cohBytes a 8 s) s) := (caches_noteOld (line := 0) _ _ _ s).frame.mono (by decide)
  unfold longOpened copiesTaken
  generalize noteOld (.others none) a (cohBytes a 8 s) s = n at *
  refine (hnote.trans (clean_sliceUse (line := lineOf a) (part := none))).trans ?_
  generalize sliceUse (lineOf a) none n = w
  refine (clean_cleanLine (keep := none) (line := lineOf a)).trans ?_
  generalize cleanLine none (lineOf a) w = x
  exact clean_cores (own_loseResv (lineOf a)) fun c => (coreKeeps_loseResv (lineOf a) c).resv

theorem noAsk_longOpened (a : Nat) : NoAsk s (longOpened a s) := by
  have hnote : NoAsk s (noteOld (.others none) a (cohBytes a 8 s) s) := noAsk_of_arm (caches_noteOld (line := 0) _ _ _ s).arm
  exact ((hnote.trans (noAsk_sliceUse _ _ _)).trans (noAsk_cleanLine none _ _)).trans
    (noAsk_of_arm (caches_lose (line := 0) _ _ _).arm)

theorem exec_memWrite (hs : Safety.settled s) (hu : mqUp s = true) (hm : Safety.monitorIdle s) {p addr a : Nat} {v : Long} (hc : s.flt.checkstop = false)
    (hg : grantIn ss s = some (.partition p)) (h8 : addr % 8 = 0) (ha : armOf p addr s = some a) (hl : isLocal a s = true) (ha8 : a % 8 = 0)
    (hd : physKind (physOfAddr a) s = .dram) (hready : homeReady (lineOf a) true s = true) (hp : agentPending .service s = false) :
    exec (.mqMemW ss addr v) s = .next (respond ss [asc "ok"] (agentWrite .service (some p) a (beBytes 8 v.toNat) s)) := by
  have hplace : mqPlace (.partition p) addr s = some a := by simp only [mqPlace, h8, ne_eq, not_true_eq_false, if_false, ha]
  have hwrite := agentWrite_long (part := some p) (data := beBytes 8 v.toNat) ha8 (by simp [beBytes]) hd hready
  have hframe : Touches (cleanRegs ++ [.out, .svc, .pf0]) s (homeSetAll a (beBytes 8 v.toNat) (longOpened a s)) := ((clean_longOpened a).trans clean_homeSetAll).mono (by decide)
  have hput : agentPut { who := .service, part := some p, addr := a, data := beBytes 8 v.toNat } s = homeSetAll a (beBytes 8 v.toNat) (longOpened a s) := by
    rw [← hwrite]
    unfold agentPut agentStore
    rw [if_neg (by simp [hp])]
    exact (if_neg (by simp [beBytes])).trans (if_pos hl)
  have hstill : agentPending .service (homeSetAll a (beBytes 8 v.toNat) (longOpened a s)) = false :=
    agentPending_of_noAsk ((noAsk_longOpened a).trans (noAsk_homeSetAll _ _ _)) hp
  have hexec : mqExec ss (.memW addr v) s = respond ss [asc "ok"] (homeSetAll a (beBytes 8 v.toNat) (longOpened a s)) := by
    simp only [mqExec, control_of_grant (cover := fun _ => true) hc hg rfl, memWrite, hplace, scopePart, hput, hstill, Bool.false_eq_true, if_false]
  refine (mqDo_idle hm hu (.memW addr v)).trans ?_
  rw [hexec, hwrite]
  exact done_framed (hframe.andThen (frame_respond ss _ _)) hs

/-! ### The bytes after a write -/

/-- Bytes stored at home, of which none is modified in a cache. -/
theorem cohByte_stored {a b : Nat} {data : List Byte} (hdirty : ∀ b, a ≤ b → b < a + data.length → tget none b s.cpu.dirty = none)
    (hl : ∀ b, a ≤ b → b < a + data.length → isLocal b s = true) :
    cohByte b (storeAll a data s) = if a ≤ b ∧ b < a + data.length then data.getD (b - a) 0 else cohByte b s := by
  have hframe : Touches [.sto, .mem] s (storeAll a data s) := storeAll_frame a data s
  have hcpu : (storeAll a data s).cpu = s.cpu := hframe .cpu (by decide)
  have harm : (storeAll a data s).arm = s.arm := hframe .arm (by decide)
  have hlocal : isLocal b (storeAll a data s) = isLocal b s := by simp only [isLocal, harm]
  have hbyte := storedByte_stored b a data s
  unfold cohByte
  rw [hcpu]
  by_cases hin : a ≤ b ∧ b < a + data.length
  · rw [if_pos hin] at hbyte ⊢
    rw [hdirty b hin.1 hin.2]
    dsimp only
    rw [homeByte_local (hlocal.trans (hl b hin.1 hin.2)), hbyte]
  · rw [if_neg hin] at hbyte ⊢
    cases tget none b s.cpu.dirty with
    | some d => rfl
    | none =>
      dsimp only
      cases hlb : isLocal b s with
      | true => rw [homeByte_local (hlocal.trans hlb), homeByte_local hlb, hbyte]
      | false => exact homeByte_remote harm hlb

/-- A line that was written back has no modified byte any more. -/
theorem dirty_writeBackLine (hw : twf none s.cpu.dirty = true) {b line : Nat} (hb : lineOf b = line) : tget none b (writeBackLine line s).cpu.dirty = none := by
  have hused : ∀ u : State, twf none u.cpu.dirty = true → tget none b (writeBackIf (fun a _ => lineOf a == line) u).cpu.dirty = none := fun u hwu => by
    unfold writeBackIf
    extract_lets go put q
    have hput : Touches [.sto, .mem, .arm] u put := touches_foldl (fun u e => by split; exacts [frame_homeSet, .refl _ u]) _ u
    have hcpu : put.cpu = u.cpu := hput .cpu (by decide)
    dsimp only
    rw [hcpu, tget_filter hwu]
    cases hd : tget none b u.cpu.dirty with
    | none => exact ite_self _
    | some d => exact if_neg (by simp [hb])
  unfold writeBackLine
  extract_lets used
  refine hused used ?_
  have hcpu : used.cpu = s.cpu := (touches_ite (fun _ => frame_sliceUse _ _) fun _ => .refl _ s : Touches [.sto, .mem] s used) .cpu (by decide)
  rw [hcpu]
  exact hw

/-- Taking a line of which no core holds a copy: only the cores' tags change after its modified bytes went home. -/
theorem cleanLine_held {line : Nat} (hheld : ∀ l, noHeld line (coreOf l s)) : OnlyCores (writeBackLine line s) (cleanLine none line s) := by
  have hcores : (writeBackLine line s).cpu.core = s.cpu.core := by
    unfold writeBackLine
    rw [writeBackIf_core]
    exact congrArg CoresS.core ((touches_ite (fun _ => frame_sliceUse _ _) fun _ => .refl _ s : Touches [.sto, .mem] s _) .cpu (by decide))
  unfold cleanLine
  extract_lets v u
  have hu : u = v := by
    unfold u
    refine List.foldl_fixed' (fun l => ?_) _
    obtain ⟨h1, h2⟩ := hheld l
    exact if_pos (by simp [v, coreOf_of_cores hcores, h1, h2])
  rw [hu]
  exact onlyCores_onCores _ _ v

theorem longOpened_spec {a : Nat} (hw : twf none s.cpu.dirty = true) (hl : isLocal a s = true) (hheld : ∀ l, noHeld (lineOf a) (coreOf l s)) :
    (∀ b, cohByte b (longOpened a s) = cohByte b s) ∧ (∀ b, lineOf b = lineOf a → tget none b (longOpened a s).cpu.dirty = none ∧ isLocal b (longOpened a s) = true) := by
  have hnote : OnlyCaches (lineOf a) s (noteOld (.others none) a (cohBytes a 8 s) s) := caches_noteOld _ _ _ s
  have hnoted : SeesSame s (noteOld (.others none) a (cohBytes a 8 s) s) := (sees_noteOld (l := 0) _ _ _).1
  unfold longOpened copiesTaken
  generalize noteOld (.others none) a (cohBytes a 8 s) s = n at *
  have huse : OnlyCaches (lineOf a) n (sliceUse (lineOf a) none n) := caches_sliceUse _ _ n
  have hused : SeesSame n (sliceUse (lineOf a) none n) := seesSame_sliceUse _ _
  generalize sliceUse (lineOf a) none n = w at *
  have hcaches := hnote.trans huse
  have hlw : isLocal (lineOf a * 128) w = true := (hcaches.isLocal _).trans (isLocal_inLine hl (by simp [lineOf]))
  have hsees := hnoted.trans hused
  have hww : twf none w.cpu.dirty = true := (hsees hw).2.1
  have hback : SeesSame w (writeBackLine (lineOf a) w) := seesSame_writeBackLine hlw
  have hclean : OnlyCores (writeBackLine (lineOf a) w) (cleanLine none (lineOf a) w) := cleanLine_held fun l => hcaches.held l (hheld l)
  have hall : OnlyCores (writeBackLine (lineOf a) w) (onCores (fun k => some k != none) (loseResv (lineOf a)) (cleanLine none (lineOf a) w)) := hclean.trans (onlyCores_onCores _ _ _)
  have harm : (writeBackLine (lineOf a) w).arm = w.arm := (hback hww).1 .arm (by decide)
  generalize onCores (fun k => some k != none) (loseResv (lineOf a)) (cleanLine none (lineOf a) w) = x at *
  refine ⟨((hsees.trans hback).trans (seesSame_onlyCores hall) hw).2.2, fun b hb => ?_⟩
  obtain ⟨c, rfl⟩ := hall
  refine ⟨dirty_writeBackLine hww hb, ?_⟩
  have hlocal : isLocal b (writeBackLine (lineOf a) w) = isLocal b w := by simp only [isLocal, harm]
  exact hlocal.trans ((hcaches.isLocal b).trans (isLocal_inLine hl hb))

/-- The bytes that every observer sees after the monitor has written a long. -/
theorem cohByte_memWrite {part : Option Nat} {a : Nat} {data : List Byte} (h8 : a % 8 = 0) (hn : data.length = 8) (hd : physKind (physOfAddr a) s = .dram)
    (hready : homeReady (lineOf a) true s = true) (hw : twf none s.cpu.dirty = true) (hl : isLocal a s = true) (hheld : ∀ l, noHeld (lineOf a) (coreOf l s)) (b : Nat) :
    cohByte b (agentWrite .service part a data s) = if a ≤ b ∧ b < a + 8 then data.getD (b - a) 0 else cohByte b s := by
  obtain ⟨hsees, hline⟩ := longOpened_spec hw hl hheld
  have hin : ∀ b, a ≤ b → b < a + data.length → lineOf b = lineOf a := fun b h1 h2 => by
    unfold lineOf
    omega
  rw [agentWrite_long h8 hn hd hready, homeSetAll_local data a _ fun i hi => (hline _ (hin _ (by omega) (by omega))).2,
    cohByte_stored (fun b h1 h2 => (hline b (hin b h1 h2)).1) (fun b h1 h2 => (hline b (hin b h1 h2)).2), hn, hsees]

end

end Sys2Proof.Machine
end


section
set_option Elab.async false
/-! PROOFS. Frames of translation and of the fetch of a group: they write what storage traffic writes, and the core's own translations. -/

namespace Sys2Proof.Machine

section
variable {s t u : State} {l : Nat}

/-- What translation and the reads of a core write. -/
def fetchRegs : List FrameReg := .own :: trafficRegs

/-- The state after a result of a uncached read. -/
def SysRes.after : SysRes → State
  | .val _ s => s
  | .poison s => s
  | .wait s => s

theorem core_of {t : State} (h : Touches trafficRegs s t) : Touches fetchRegs s t := h.mono (by decide)

/-- A change of a core that leaves its registers and its place. -/
theorem core_modCore (f : Core → Core) (hf : ∀ c, CoreKeeps c (f c) := by exact fun _ => ⟨rfl, rfl, rfl, rfl, rfl, id⟩) : Touches fetchRegs s (modCore l f s) :=
  ((frame_modCore s l f).mono (by decide) : Touches (.keeps :: fetchRegs) s _).holding (keeps_modCore hf (.refl s))

theorem core_free (n : Nat) : Touches fetchRegs s { s with free := n } := (frame_free s n).mono (by decide)

theorem core_askLine {addr : Nat} {own : Bool} {who : Agent} {part : Option Nat} : Touches fetchRegs s (askLine addr own who part s) := frame_askLine.mono (by decide)

theorem core_sysAnswer (attr a n : Nat) : Touches fetchRegs s (sysAnswer l attr a n s).after := by
  unfold sysAnswer
  split
  · split
    · split <;> exact .refl _ s
    · exact .refl _ s
  · have hdrain : Touches fetchRegs s (if ucClear l attr a (max 1 n) s then s else drainSystem l s) := touches_ite (fun _ => .refl _ s) fun _ => core_of traffic_drainSystem
    refine hdrain.trans (touches_ite (fun _ => ?_) fun _ => .refl _ _)
    exact (frame_sendReq.mono (by decide)).trans (core_modCore _)

theorem core_sysRead (attr a n : Nat) : Touches fetchRegs s (sysRead l attr a n s).after := by
  unfold sysRead
  dsimp only
  split
  · exact core_sysAnswer attr a n
  · split
    · exact core_askLine
    · split
      · exact core_of (traffic_raisePart (by decide))
      · split
        · exact .refl _ s
        · split
          · exact core_of (traffic_cleanLine.trans traffic_sliceUse)
          · exact core_of (touches_ite (fun _ => traffic_fillL2) fun _ => .refl _ s)

/-- The state after the read of a table entry. -/
def EntryRes.after (s : State) : EntryRes → State
  | .val _ _ t => t
  | .noExtent => s
  | .poison _ t => t
  | .wait t => t

theorem core_readEntry (p real : Nat) : Touches fetchRegs s ((readEntry l p real s).after s) := by
  unfold readEntry
  split
  · exact .refl _ s
  next x _ =>
    have hread := core_sysRead (s := s) (l := l) (extAttr x) (x.phys + (real - x.real)) 8
    dsimp only
    generalize sysRead l (extAttr x) (x.phys + (real - x.real)) 8 s = r at *
    cases r <;> exact hread

theorem core_walkGo (p va n : Nat) : ∀ (t : Nat) (s : State), Touches fetchRegs s (walkGo l p va n t s).2 := by
  induction n with
  | zero => exact fun _ s => .refl _ s
  | succ level ih =>
    intro t s
    unfold walkGo
    extract_lets lv cached b pick v
    clear_value cached
    have hpick : Touches fetchRegs s pick.2 := by
      unfold pick
      cases cached with
      | some n => exact core_free _
      | none => exact .refl _ s
    clear_value pick
    split
    · exact hpick.trans (ih _ _)
    · have hread : Touches fetchRegs s ((readEntry l p (t + 8 * walkIndex va lv) v).after v) := hpick.trans (core_readEntry (l := l) p (t + 8 * walkIndex va lv))
      generalize readEntry l p (t + 8 * walkIndex va lv) v = r at *
      cases r with
      | noExtent => exact hpick
      | poison x w => exact hread
      | wait w => exact hread
      | val e a w =>
        dsimp only
        split
        · exact hread
        · split
          · exact hread
          · exact (hread.trans (core_modCore _)).trans (ih _ _)

theorem core_setEntryBits (a mask : Nat) : Touches fetchRegs s (setEntryBits l a mask s).2 := by
  unfold setEntryBits
  extract_lets v old new n
  have hdrain : Touches fetchRegs s v := touches_ite (fun _ => core_of traffic_drainSystem) fun _ => .refl _ s
  clear_value v
  split
  · exact hdrain
  · split
    · exact hdrain
    · split
      · exact hdrain.trans (core_of traffic_homeWrite)
      · exact (hdrain.trans (core_of (traffic_writeBackLine.trans traffic_noteOld) : Touches fetchRegs v n)).trans (core_of ((frame_losingResv _).trans traffic_homeSet))

theorem core_translate (va : Nat) (acc : Acc) : Touches fetchRegs s (translate l va acc s).2 := by
  unfold translate
  extract_lets c b pick
  split
  · exact .refl _ s
  next p _ =>
    split
    · split <;> exact .refl _ s
    · split
      · exact .refl _ s
      · have hpick : Touches fetchRegs s pick.2 := by
          unfold pick
          split
          · exact core_free _
          · exact .refl _ s
        clear_value pick
        split
        · exact hpick
        · have hwalk := hpick.trans (core_walkGo (l := l) p va 4 (fld c.xlRoot 51 12 * 4096) pick.2)
          generalize walkGo l p va 4 (fld c.xlRoot 51 12 * 4096) pick.2 = r at *
          obtain ⟨r, w⟩ := r
          cases r with
          | exc code cause lv => exact hwalk
          | poison x => exact hwalk
          | wait => exact hwalk
          | leaf e a lv =>
            dsimp only at hwalk ⊢
            split
            · exact hwalk.trans core_askLine
            · have hbits : Touches fetchRegs s (if lbit e 8 then (true, w) else setEntryBits l a 1 w).2 := by
                split
                · exact hwalk
                · exact hwalk.trans (core_setEntryBits a 1)
              generalize (if lbit e 8 then (true, w) else setEntryBits l a 1 w) = b at *
              split
              · exact hbits
              · refine hbits.trans ?_
                split
                · exact core_modCore _
                · exact .refl _ _

/-! ### The fetch -/

/-- The state after a part of a group. -/
def Flow.after {α : Type} : Flow α → State
  | .ok _ s => s
  | .pgm _ _ s => s
  | .poison _ s => s
  | .wait s => s

theorem touches_bind {α β : Type} {rs : List FrameReg} {x : Flow α} {k : α → State → Flow β} (h : Touches rs s x.after) (hk : ∀ a u, Touches rs u (k a u).after) :
    Touches rs s (x.bind k).after := by
  cases x with
  | ok a u => exact h.trans (hk a u)
  | pgm p xi u => exact h
  | poison r u => exact h
  | wait u => exact h

theorem core_accessExc {α : Type} (code cause level va : Nat) (store instr : Bool) : Touches fetchRegs s (accessExc (α := α) code cause level va store instr s).after := .refl _ s

theorem core_pickWord (a : Nat) (cur : List Byte) : Touches fetchRegs s (pickWord l a cur s).after := by
  unfold pickWord
  split
  · exact .refl _ s
  · exact core_free _

theorem core_outsideEvent (arm : Nat) : Touches fetchRegs s (outsideEvent l arm s) := core_of (traffic_raisePart (by decide))

theorem core_fetchWord (va : Nat) : Touches fetchRegs s (fetchWord l va s).after := by
  have hx := core_translate (s := s) (l := l) va accInstr
  unfold fetchWord
  generalize translate l va accInstr s = r at *
  obtain ⟨r, w⟩ := r
  cases r with
  | exc code cause lv => exact hx
  | poison x => exact hx
  | wait => exact hx
  | ctl q => exact hx
  | ok p =>
    have hw : Touches fetchRegs s w := hx
    refine hw.trans ?_
    dsimp only
    split
    · have hread := core_sysRead (s := w) (l := l) p.attr p.arm 4
      generalize sysRead l p.attr p.arm 4 w = r at *
      cases r with
      | val b v =>
        have hv : Touches fetchRegs w v := hread
        exact hv.trans (core_pickWord _ _)
      | poison v => exact hread
      | wait v => exact hread
    · split
      · exact core_outsideEvent _
      · split
        · exact core_askLine
        · split
          · exact .refl _ w
          · exact (core_of traffic_cacheFill).trans (core_pickWord _ _)

theorem core_fetchGo (n : Nat) : ∀ (a : Nat) (raw : List RawOp) (s : State), Touches fetchRegs s (fetchGo l n a raw s).after := by
  induction n with
  | zero => exact fun _ _ s => .refl _ s
  | succ n ih =>
    intro a raw s
    refine touches_bind (core_fetchWord a) fun w u => ?_
    dsimp only
    split
    · refine touches_bind (core_fetchWord _) fun w2 v => ?_
      split
      · exact .refl _ v
      · exact ih _ _ v
    · split
      · exact .refl _ u
      · exact ih _ _ u

/-- The fetch of a group. -/
theorem core_fetchGroup (a : Nat) : Touches fetchRegs s (fetchGroup l a s).after := by
  unfold fetchGroup
  split
  · exact core_accessExc _ _ _ _ _ _
  · exact core_fetchGo 8 a [] s

end

end Sys2Proof.Machine
end


section
set_option Elab.async false
/-! PROOFS. O59: the control level of Maquette over storage and cores. -/

namespace Sys2Proof.Machine

section
variable {s t u : State} {ss : Session} {sc : Scope} {l : Nat}

/-! ### Refusals -/

theorem exec_refused (hs : Safety.settled s) (hu : mqUp s = true) (hm : Safety.monitorIdle s) {c : MqCmd} {e : Nat} (h : mqExec ss c s = respondErr ss e s) :
    mqDo ss c s = .next (respond ss [errLine e] s) := by
  rw [mqDo_idle hm hu, h]
  exact done_respond hs ss _

theorem onCore_refused {f : State → State} {e : Nat} (h : control ss (coversCore l s) s = .inl e) : onCore ss l f s = respondErr ss e s := by
  unfold onCore
  rw [h]

theorem onCore_covered {f : State → State} (hl : l < 192) (h : control ss (coversCore l s) s = .inr sc) : onCore ss l f s = f s := by
  unfold onCore
  rw [h]
  exact if_pos hl

theorem control_spec (cover : Scope → Bool) : (s.flt.checkstop = true → control ss cover s = .inl 6) ∧
    (s.flt.checkstop = false → (∀ sc, grantIn ss s = some sc → cover sc = false) → (∀ sc, grantIn (otherSession ss) s = some sc → cover sc = false) → control ss cover s = .inl 4) ∧
    (∀ sc, s.flt.checkstop = false → grantIn ss s = none → grantIn (otherSession ss) s = some sc → cover sc = true → control ss cover s = .inl 8) := by
  refine ⟨fun h => if_pos h, fun hc hown hother => ?_, fun sc hc hown hother hcov => ?_⟩
  · have hany : (grantIn (otherSession ss) s).any cover = false := by
      cases h : grantIn (otherSession ss) s with
      | none => rfl
      | some sc => exact hother sc h
    unfold control
    rw [if_neg (by simp [hc]), hany]
    cases h : grantIn ss s with
    | none => rfl
    | some sc =>
      dsimp only
      rw [hown sc h]
      rfl
  · unfold control
    rw [if_neg (by simp [hc]), hown, hother]
    exact if_pos hcov

theorem memRead_refused {p addr : Nat} (h : addr % 8 ≠ 0 ∨ armOf p addr s = none) (hidle : (sessionOf ss s).mem = none) : memRead ss (.partition p) addr 1 s = respondErr ss 7 s := by
  have hplace : mqPlace (.partition p) addr s = none := by
    rcases h with h | h
    · exact if_pos h
    · simp only [mqPlace, h, ite_self]
  have hwait : mqWait ss none s = s := by
    cases ss with
    | uart =>
      have hu : { s.mq.uart with mem := none } = s.mq.uart := by rw [← hidle]; rfl
      change setMq { s.mq with uart := { s.mq.uart with mem := none } } s = s
      rw [hu]
      rfl
    | mailbox =>
      have hu : { s.mq.mbx with mem := none } = s.mq.mbx := by rw [← hidle]; rfl
      change setMq { s.mq with mbx := { s.mq.mbx with mem := none } } s = s
      rw [hu]
      rfl
  unfold memRead
  simp only [List.range_one, List.map_cons, List.map_nil, Nat.mul_zero, Nat.add_zero, hplace, List.any_cons, List.any_nil, Option.isNone_none, Bool.or_false, if_true, hwait]

theorem memWrite_refused {p addr : Nat} (h : addr % 8 ≠ 0 ∨ armOf p addr s = none) (v : Long) : memWrite ss (.partition p) addr v s = respondErr ss 7 s := by
  have hplace : mqPlace (.partition p) addr s = none := by
    rcases h with h | h
    · exact if_pos h
    · simp only [mqPlace, h, ite_self]
  unfold memWrite
  rw [hplace]

/-! ### Cores -/

/-- A core that the session may control, in its place and in service. -/
structure Controlled (ss : Session) (l : Nat) (s : State) : Prop where
  settled : Safety.settled s
  up : mqUp s = true
  idle : Safety.monitorIdle s
  lt : l < 192
  may : ∃ sc, control ss (coversCore l s) s = .inr sc
  place : recState l s = 0

theorem Controlled.exec (h : Controlled ss l s) {c : MqCmd} {f : State → State} (hc : mqExec ss c s = onCore ss l f s) : mqDo ss c s = done s (f s) := by
  obtain ⟨sc, hmay⟩ := h.may
  rw [mqDo_idle h.idle h.up, hc, onCore_covered h.lt hmay]

theorem Controlled.answers (h : Controlled ss l s) {c : MqCmd} {f : State → State} {lines : List (List Byte)} (hc : mqExec ss c s = onCore ss l f s) (hf : f s = respond ss lines s) :
    mqDo ss c s = .next (respond ss lines s) := by
  rw [h.exec hc, hf]
  exact done_respond h.settled ss lines

theorem coreCode_stopped (h : recState l s ≠ 2) : coreCode l s = 2 ↔ (coreOf l s).run = .stopped := by
  unfold coreCode
  dsimp only
  rw [if_neg h]
  cases (coreOf l s).run <;> simp

theorem coreCode_runs (h : recState l s ≠ 2) (hr : (coreOf l s).run = .running ∨ ∃ d, (coreOf l s).run = .waiting d) : coreCode l s = 0 ∨ coreCode l s = 1 := by
  unfold coreCode
  dsimp only
  rw [if_neg h]
  rcases hr with hr | ⟨d, hr⟩
  · exact .inl (by rw [hr])
  · exact .inr (by rw [hr])

/-- A core of which a session waits for the halt. -/
def askedHalt (ss : Session) (c : Core) : Core := { c with mqHalt := true, mqWait := some ss }

/-- A core asked to halt. -/
def haltAsked (ss : Session) (l : Nat) (s : State) : State := modCore l (askedHalt ss) s

/-- A core of which no session waits any more. -/
def answered (c : Core) : Core := { c with mqWait := none, mqStep := false }

theorem coreHalt_runs (h : coreCode l s = 0 ∨ coreCode l s = 1) : coreHalt ss l s = coreAnswer l (restCore l (haltAsked ss l s)) := by
  unfold coreHalt
  exact if_neg (by omega)

/-- What the answer of a core command leaves of the core. -/
theorem coreAnswer_spec : Touches [.cpu, .core, .keeps, .own, .out, .svc, .pf0] s (coreAnswer l s) ∧ (coreOf l (coreAnswer l s)).mqHalt = (coreOf l s).mqHalt := by
  have hmod : ∀ (ss : Session) (lines : List (List Byte)) (v : State), (v = modCore l answered s) →
      Touches [.cpu, .core, .keeps, .own, .out, .svc, .pf0] s (respond ss lines v) ∧ (coreOf l (respond ss lines v)).mqHalt = (coreOf l s).mqHalt := fun ss lines v hv => by
    have hrespond := frame_respond ss lines v
    refine ⟨Touches.trans (hv ▸ (frame_modCore _ _ _).mono (by decide)) (hrespond.mono (by decide)), ?_⟩
    rw [coreOf_of_cores (congrArg CoresS.core (hrespond .cpu (by decide))), hv, coreOf_modCore, if_pos rfl]
    rfl
  unfold coreAnswer
  split
  · exact ⟨.refl _ s, rfl⟩
  next ss _ =>
    extract_lets k
    split
    · exact hmod ss _ _ rfl
    · split
      · exact hmod ss _ _ rfl
      · exact ⟨.refl _ s, rfl⟩

theorem mqHalt_stopIn (c : Core) : (stopIn c).mqHalt = c.mqHalt := by
  unfold stopIn
  split <;> rfl

theorem mqHalt_restCore : (coreOf l (restCore l s)).mqHalt = (coreOf l s).mqHalt := by
  have hdrain : Touches trafficRegs s (drainSystem l s) := traffic_drainSystem
  have hown : (coreOf l (drainSystem l s)).mqHalt = (coreOf l s).mqHalt := (congrArg Core.mqHalt (hdrain .own (by decide) l) :)
  unfold restCore
  split
  · rfl
  · rw [stopCore_eq]
    split
    · rw [coreOf_modCore, if_pos rfl, mqHalt_stopIn, hown]
    · exact hown

theorem exec_halt (h : Controlled ss l s) (hg : Safety.graceful s) (hr : (coreOf l s).run = .running ∨ ∃ d, (coreOf l s).run = .waiting d) :
    ∃ t, exec (.mqCoreHalt ss l) s = .next t ∧ (coreOf l t).mqHalt = true := by
  have hcode := coreCode_runs (by rw [h.place]; decide) hr
  have hasked : Touches [.cpu, .core, .keeps, .own] s (haltAsked ss l s) := frame_modCore _ _ _
  have hrest : Touches resetRegs (haltAsked ss l s) (restCore l (haltAsked ss l s)) := frame_restCore
  obtain ⟨hanswer, hhalt⟩ := coreAnswer_spec (s := restCore l (haltAsked ss l s)) (l := l)
  have hall : Touches (.svc :: resetRegs) s (coreAnswer l (restCore l (haltAsked ss l s))) :=
    (hasked.mono (by decide)).trans ((hrest.mono (by decide)).trans (hanswer.mono (by decide)))
  have hkept : (coreOf l (restCore l (haltAsked ss l s))).mqHalt = true := by
    rw [mqHalt_restCore, haltAsked, coreOf_modCore, if_pos rfl]
    rfl
  obtain ⟨t, hdone, htold⟩ := done_told (b := s) (due_of_still (hall .still (by decide)) h.settled hg) (hall .pending (by decide))
  refine ⟨t, ?_, ?_⟩
  · rw [show exec (.mqCoreHalt ss l) s = mqDo ss (.halt l) s from rfl, h.exec rfl, coreHalt_runs hcode, hdone]
  · rw [coreOf_of_cores (congrArg CoresS.core (htold .cpu (by decide))), hhalt, hkept]

/-- What the commands of cores write. -/
def haltRegs : List FrameReg := [.cpu, .core, .keeps, .own, .still, .out, .svc, .pf0]

/-- A change of the cores, and the answer. -/
theorem done_answered (hs : Safety.settled s) (h : Touches [.cpu, .core, .keeps, .own, .still] s u) (lines : List (List Byte)) : done s (respond ss lines u) = .next (respond ss lines u) :=
  done_framed ((h.mono (by decide)).trans ((frame_respond ss lines u).mono (by decide)) : Touches haltRegs s _) hs

/-! ### A core at rest -/

/-- A core with nothing left in its buffers, within no group. -/
structure Resting (c : Core) : Prop where
  sb : c.sb = []
  wc : c.wc = []
  mid : midGroup c = false

theorem stopCore_resting (h : Resting (coreOf l s)) : stopCore l s = modCore l stopIn s := by
  have hdrained : drained l s = true := by simp [drained, h.sb, h.wc]
  rw [stopCore_eq, drainSystem_drained hdrained, if_pos hdrained]

theorem stopIn_runs {c : Core} (h : c.run = .running ∨ c.run = .stopped) : stopIn c = { c with run := .stopped, resv := none, rep := none, sysBuf := [], mqStep := false } := by
  unfold stopIn
  rcases h with h | h <;> rw [h]

/-- A session hears of a core that has stopped. -/
theorem coreAnswer_stopped (hw : (coreOf l s).mqWait = some ss) (hp : recState l s = 0) (hr : (coreOf l s).run = .stopped) :
    coreAnswer l s = respond ss [asc "ok"] (modCore l answered s) := by
  have hcode : coreCode l s = 2 := (coreCode_stopped (by rw [hp]; decide)).2 hr
  unfold coreAnswer
  rw [hw, hcode]
  rfl

/-- What a core becomes that stops and answers the session. -/
theorem stopped_answers (h : Resting (coreOf l s)) (hr : (coreOf l s).run = .running ∨ (coreOf l s).run = .stopped) (hw : (coreOf l s).mqWait = some ss) (hp : recState l s = 0) :
    ∃ u, coreAnswer l (stopCore l s) = respond ss [asc "ok"] u ∧ OnlyCores s u ∧
      coreOf l u = { coreOf l s with run := .stopped, resv := none, rep := none, sysBuf := [], mqStep := false, mqWait := none } ∧ ∀ k, k ≠ l → coreOf k u = coreOf k s := by
  have hstop : coreOf l (modCore l stopIn s) = { coreOf l s with run := .stopped, resv := none, rep := none, sysBuf := [], mqStep := false } :=
    ((coreOf_modCore ..).trans (if_pos rfl)).trans (stopIn_runs hr)
  refine ⟨modCore l answered (modCore l stopIn s), ?_, (onlyCores_modCore ..).trans (onlyCores_modCore ..), ?_, fun k hk => ?_⟩
  · rw [stopCore_resting h]
    exact coreAnswer_stopped (by rw [hstop]; exact hw) hp (by rw [hstop])
  · rw [coreOf_modCore, if_pos rfl, hstop]
    rfl
  · rw [coreOf_modCore, if_neg hk, coreOf_modCore, if_neg hk]

theorem done_onlyCores (hs : Safety.settled s) (h : OnlyCores s u) (lines : List (List Byte)) : done s (respond ss lines u) = .next (respond ss lines u) := by
  obtain ⟨x, rfl⟩ := h
  exact done_answered hs ((frame_cpu s _).mono (by decide)) lines

theorem exec_halt_resting (h : Controlled ss l s) (hr : (coreOf l s).run = .running) (hc : Resting (coreOf l s)) (hlose : (coreOf l s).losing = none) :
    ∃ u, exec (.mqCoreHalt ss l) s = .next (respond ss [asc "ok"] u) ∧ (coreOf l u).run = .stopped ∧ (coreOf l u).mqHalt = true ∧ (coreOf l u).mqWait = none ∧ (coreOf l u).resv = none ∧
      (coreOf l u).pc = (coreOf l s).pc ∧ (coreOf l u).g = (coreOf l s).g ∧ (∀ k, k ≠ l → coreOf k u = coreOf k s) ∧ u.sto = s.sto := by
  have hcode := coreCode_runs (by rw [h.place]; decide) (.inl hr)
  have hasked : coreOf l (haltAsked ss l s) = askedHalt ss (coreOf l s) := (coreOf_modCore ..).trans (if_pos rfl)
  have hrest : Resting (coreOf l (haltAsked ss l s)) := by
    rw [hasked]
    exact ⟨hc.sb, hc.wc, hc.mid⟩
  have hin : inService l (haltAsked ss l s) = true := by
    rw [inService, hasked]
    simp [askedHalt, hlose, show recState l (haltAsked ss l s) = 0 from h.place]
  obtain ⟨u, hanswer, honly, hcore, hothers⟩ := stopped_answers hrest (.inl (by rw [hasked]; exact hr)) (by rw [hasked]; rfl) h.place
  have hall : OnlyCores s u := (onlyCores_modCore l (askedHalt ss) s).trans honly
  have hrestCore : restCore l (haltAsked ss l s) = stopCore l (haltAsked ss l s) := if_neg (by simp [hrest.mid, hin])
  rw [hasked] at hcore
  refine ⟨u, ?_, by rw [hcore], by rw [hcore]; rfl, by rw [hcore], by rw [hcore], by rw [hcore]; rfl, by rw [hcore]; rfl, fun k hk => ?_, ?_⟩
  · rw [show exec (.mqCoreHalt ss l) s = mqDo ss (.halt l) s from rfl, h.exec rfl, coreHalt_runs hcode, hrestCore, hanswer]
    exact done_onlyCores h.settled hall _
  · rw [hothers k hk, haltAsked, coreOf_modCore, if_neg hk]
  · obtain ⟨x, rfl⟩ := hall
    rfl

/-! ### A stopped core -/

theorem exec_regs (h : Controlled ss l s) (hr : (coreOf l s).run = .stopped) :
    ∃ lines, exec (.mqCoreRegs ss l) s = .next (respond ss lines s) ∧ lines.length = 163 ∧
      (∀ n, n < 64 → lines[n]? = some (asc "g" ++ decNum n ++ asc " " ++ hexLong (getG (coreOf l s) n))) ∧
      lines[96]? = some (asc "PC " ++ hexLong (coreOf l s).pc) ∧ lines[97]? = some (asc "TSW " ++ hexLong (coreOf l s).tsw) ∧
      (∀ n, n < 64 → lines[99 + n]? = some (asc "c" ++ decNum n ++ asc " " ++ hexLong (readCr l n s))) := by
  have hcode : coreCode l s = 2 := (coreCode_stopped (by rw [h.place]; decide)).2 hr
  refine ⟨_, (h.answers (c := .regs l) rfl (if_neg (by simp [hcode]))), ?_, fun n hn => ?_, ?_, ?_, fun n hn => ?_⟩
  · simp
  · rw [List.getElem?_append_left (by simp; omega), List.getElem?_append_left (by simp; omega), List.getElem?_append_left (by simpa using hn)]
    simp [hn]
  · rw [List.getElem?_append_left (by simp), List.getElem?_append_right (by simp)]
    simp
  · rw [List.getElem?_append_left (by simp), List.getElem?_append_right (by simp)]
    simp
  · rw [List.getElem?_append_right (by simp)]
    simp [hn]

theorem frame_deliverHeld : Touches [.cpu, .core, .keeps, .own] s (deliverHeld l s) := by
  unfold deliverHeld
  split
  · exact .refl _ s
  next p _ =>
    split
    · exact ((frame_cores s { s.cpu with heldMc := tset [] p [] s.cpu.heldMc } (keeps_of_eq rfl rfl rfl rfl rfl rfl) fun _ => rfl).mono (by decide)).trans
        (touches_foldl (fun _ _ => frame_modCore _ _ _) _ _)
    · exact .refl _ s

theorem exec_run (h : Controlled ss l s) (hr : (coreOf l s).run = .stopped) : 
    (∀ p, (coreOf l s).mqHalt = true → partOfCore l s = some p → pstateOf p s = .running → exec (.mqCoreRun ss l) s =
      .next (respond ss [asc "ok"] (deliverHeld l (modCore l (fun c => { c with mqHalt := false, mqStep := false, mqBound := false, run := .running }) s)))) ∧
    ((coreOf l s).mqHalt = false → exec (.mqCoreRun ss l) s = .next (respond ss [errLine 6] s)) := by
  have hcode : coreCode l s = 2 := (coreCode_stopped (by rw [h.place]; decide)).2 hr
  refine ⟨fun p hh hp hrun => ?_, fun hh => h.answers (c := .run l) rfl (if_pos (by simp [hh]))⟩
  have hgo : coreRun ss l s = respond ss [asc "ok"] (deliverHeld l (modCore l (fun c => { c with mqHalt := false, mqStep := false, mqBound := false, run := .running }) s)) :=
    if_neg (by simp [hcode, hh, hp, hrun])
  rw [show exec (.mqCoreRun ss l) s = mqDo ss (.run l) s from rfl, h.exec (f := coreRun ss l) rfl, hgo]
  exact done_answered h.settled (((frame_modCore _ _ _).trans frame_deliverHeld).mono (by decide)) _

theorem exec_notStopped (h : Controlled ss l s) (hr : (coreOf l s).run ≠ .stopped) : exec (.mqCoreStep ss l) s = .next (respond ss [errLine 6] s) ∧
    exec (.mqCoreRun ss l) s = .next (respond ss [errLine 6] s) ∧ exec (.mqCoreRegs ss l) s = .next (respond ss [errLine 6] s) := by
  have hcode : coreCode l s ≠ 2 := fun hc => hr ((coreCode_stopped (by rw [h.place]; decide)).1 hc)
  exact ⟨h.answers (c := .step l) rfl (if_pos (.inl hcode)), h.answers (c := .run l) rfl (if_pos (.inl hcode)), h.answers (c := .regs l) rfl (if_pos hcode)⟩

/-! ### Recast -/

theorem recastCmd_refused (h : (recastCommand l s).cpu.recResult ≠ 0) :
    recastCmd ss l s = respond ss [asc "RESULT " ++ hexNum 2 (recastCommand l s).cpu.recResult] (recastCommand l s) := if_neg fun hc => h hc.1

theorem exec_recast_spec (h : Controlled ss l s) (hlose : (coreOf l s).losing = none) :
    (s.cpu.recBusy = true → exec (.mqRecast ss l) s = .next (respond ss [asc "RESULT 0x0C"] { s with cpu := { s.cpu with recResult := 0x0C } })) ∧
    (s.cpu.recBusy = false → spareFree (l / 16) s = true →
      ∃ t, exec (.mqRecast ss l) s = .next t ∧ t.mq.recast = some ss ∧ t.cpu.recBusy = true ∧ t.cpu.recLogical = l ∧ t.cpu.recResult = 0 ∧ t.sto = s.sto ∧ t.out = s.out) := by
  refine ⟨fun hb => ?_, fun hb hf => ?_⟩
  · have hcmd : recastCmd ss l s = respond ss [asc "RESULT 0x0C"] { s with cpu := { s.cpu with recResult := 0x0C } } := by
      have hres : (recastCommand l s).cpu.recResult = 0x0C := by rw [recastCommand_busy hb]
      have hline : asc "RESULT " ++ hexNum 2 0x0C = asc "RESULT 0x0C" := by decide
      rw [recastCmd_refused (by rw [hres]; decide), hres, hline, recastCommand_busy hb]
    rw [show exec (.mqRecast ss l) s = mqDo ss (.recast l) s from rfl, h.exec (f := recastCmd ss l) rfl, hcmd]
    exact done_answered h.settled ((frame_cpu s _).mono (by decide)) _
  · have hin : inService l s = true := by simp [inService, h.place, hlose]
    have hcmd : recastCmd ss l s = { recastCommand l s with mq := { s.mq with recast := some ss } } := by
      unfold recastCmd
      rw [recastCommand_accepted hb h.lt hin hf]
      exact if_pos ⟨rfl, rfl⟩
    have hframe : Touches [.cpu, .core, .keeps, .own, .still, .mq] s (recastCmd ss l s) := by
      rw [hcmd, recastCommand_accepted hb h.lt hin hf]
      exact ((frame_cpu s _).mono (by decide)).andThen (frame_mq _ _)
    refine ⟨recastCmd ss l s, ?_, ?_⟩
    · rw [show exec (.mqRecast ss l) s = mqDo ss (.recast l) s from rfl, h.exec (f := recastCmd ss l) rfl]
      exact done_framed hframe h.settled
    · rw [hcmd, recastCommand_accepted hb h.lt hin hf]
      exact ⟨rfl, rfl, Nat.mod_eq_of_lt (by have := h.lt; omega), rfl, rfl, rfl⟩

/-! ### One group of a halted core -/

/-- A stopped core that takes one group for the session. -/
def stepping (ss : Session) (c : Core) : Core := { c with mqHalt := true, mqStep := true, mqBound := false, mqWait := some ss, run := .running }

/-- Checks held for a partition are given to a core that runs; nothing else of it changes. -/
theorem coreOf_deliverHeld : ∃ x, coreOf l (deliverHeld l s) = { coreOf l s with mcs := x } := by
  have hgive : ∀ (ms : List McPend) (v : State), (∃ x, coreOf l v = { coreOf l s with mcs := x }) → ∃ x, coreOf l (ms.foldl (fun s m => mcOnCore l m s) v) = { coreOf l s with mcs := x } := by
    intro ms
    induction ms with
    | nil => exact fun _ h => h
    | cons m ms ih =>
      rintro v ⟨x, hx⟩
      refine ih _ ⟨mergeMc m x, ?_⟩
      exact ((coreOf_modCore l l (fun c => { c with mcs := mergeMc m c.mcs }) v).trans (if_pos rfl)).trans (by rw [hx])
  unfold deliverHeld
  split
  · exact ⟨_, rfl⟩
  · split
    · exact hgive _ _ ⟨_, rfl⟩
    · exact ⟨_, rfl⟩

/-- What the conditions of a boundary come from. -/
structure SameConds (c d : Core) : Prop where
  exig : d.exig = c.exig
  svc : d.svc = c.svc
  pgm : d.pgm = c.pgm
  inRepn : d.inRepn = c.inRepn
  tsw : d.tsw = c.tsw
  mcs : d.mcs = c.mcs
  torctl : d.torctl = c.torctl
  extCall : d.extCall = c.extCall
  notices : d.notices = c.notices
  iosub : d.iosub = c.iosub

theorem firstCond_same (h : SameConds (coreOf l s) (coreOf l t)) (ho : t.offers = s.offers) (hp : t.pln = s.pln) : firstCond l t = firstCond l s := by
  have hoffer : offerFor l t = offerFor l s := by simp only [offerFor, partOfCore, partIds, partOf, ho, hp, h.iosub]
  simp only [firstCond, extPending, tswMcm, tswExm, tswIom, hoffer, h.exig, h.svc, h.pgm, h.inRepn, h.tsw, h.mcs, h.torctl, h.extCall, h.notices] <;> rfl

/-- What the fetch of a group writes, where it changes the caches and translations of its core. -/
theorem frame_fetched (x : CoresS) (y : Storage) (n : Nat) : Touches [.cpu, .core, .keeps, .own, .still, .sto, .mem, .free] s { s with cpu := x, sto := y, free := n } :=
  (((frame_cpu s x).mono (by decide) : Touches [.cpu, .core, .keeps, .own, .still, .sto, .mem, .free] s _).andThen (frame_sto _ y)).andThen (frame_free _ n)

theorem srcVal_of_g {c d : Core} (h : d.g = c.g) (b : Src) : srcVal d b = srcVal c b := by
  cases b with
  | reg r => exact getG_of_g h r
  | imm v => rfl

/-- A halted core whose step has ended its group stops. -/
theorem stepped_stops (hb : (coreOf l s).mqBound = false) (hcond : firstCond l s = none) :
    ∃ v m, (if (coreOf l s).mqStep && !partStops l s then stepBoundary l s else stopCore l s) = stopCore l v ∧ OnlyCores s v ∧ (∀ k, k ≠ l → coreOf k v = coreOf k s) ∧
      coreOf l v = { coreOf l s with mqStep := m } := by
  split
  · have htake : ∀ n, takeConds l n s = s := fun n => by
      cases n with
      | zero => rfl
      | succ n => rw [takeConds, hcond]
    refine ⟨modCore l (fun c => { c with mqStep := false, mqBound := false }) s, false, ?_, onlyCores_modCore .., fun k hk => (coreOf_modCore ..).trans (if_neg hk), ?_⟩
    · unfold stepBoundary
      rw [htake]
      exact if_neg (by simp [condPending, hcond])
    · rw [coreOf_modCore, if_pos rfl, ← hb]
  · exact ⟨s, (coreOf l s).mqStep, rfl, ⟨_, rfl⟩, fun _ _ => rfl, rfl⟩

/-- A halted core that takes a step runs its group to the boundary. -/
theorem issueOne_stepping {w : State} (hh : (coreOf l s).mqHalt = true) (hb : (coreOf l s).mqBound = false) (hst : (coreOf l s).mqStep = true) (hr : (coreOf l s).run = .running)
    (hrun : runGroup coreEnv l s = .ok () w) (hhw : (coreOf l w).mqHalt = true) (hmw : midGroup (coreOf l w) = false) :
    (issueOne coreEnv l s).1 = if (coreOf l w).mqStep && !partStops l w then stepBoundary l w else stopCore l w := by
  have hheld : ∀ v, (coreOf l v).mqHalt = true → coreHeld l v = true := fun v hv => by simp [coreHeld, hv]
  have hboundary : (runBoundary coreEnv l s).1 = if (coreOf l w).mqStep && !partStops l w then stepBoundary l w else stopCore l w := by
    unfold runBoundary
    rw [hrun]
    dsimp only [settleGroup]
    rw [if_neg (by decide), if_pos (hheld w hhw), if_neg (by simp [hmw])]
  unfold issueOne
  dsimp only
  rw [if_pos (hheld s hh), if_neg (by simp [hb]), if_pos (by simp [hst, hr])]
  exact hboundary

theorem exec_step (h : Controlled ss l s) (hr : (coreOf l s).run = .stopped) {s0 s1 : State} {f : Fetched} {op : AluOp} {rd ra : Nat} {b : Src}
    (h0 : s0 = deliverHeld l (modCore l (stepping ss) s)) (hcond : firstCond l s0 = none) (hc : Resting (coreOf l s)) (hrep : (coreOf l s).rep = none)
    (hfetch : fetchGroup l (coreOf l s).pc.toNat s0 = .ok f s1) (hs1 : s1 = { s0 with cpu := s1.cpu, sto := s1.sto, free := s1.free })
    (hcore1 : coreOf l s1 = { coreOf l s0 with l1i := (coreOf l s1).l1i, l1d := (coreOf l s1).l1d, l2 := (coreOf l s1).l2, dtlb := (coreOf l s1).dtlb, itlb := (coreOf l s1).itlb, tlb2 := (coreOf l s1).tlb2, walk := (coreOf l s1).walk })
    (hdec : decodeGroup f.raw f.stop = .ops [.alu op false rd ra b]) :
    ∃ u, exec (.mqCoreStep ss l) s = .next (respond ss [asc "ok"] u) ∧ (coreOf l u).run = .stopped ∧ (coreOf l u).mqHalt = true ∧ (coreOf l u).mqStep = false ∧
      (coreOf l u).mqWait = none ∧ (coreOf l u).pc = BitVec.ofNat 64 f.next ∧ (coreOf l u).tsw = (coreOf l s).tsw ∧
      (∀ n, getG (coreOf l u) n = if n = rd ∧ n ≠ 0 then (aluResult op (getG (coreOf l s) ra) (srcVal (coreOf l s) b)).1 else getG (coreOf l s) n) ∧ u.sto = s1.sto := by
  have hframe0 : Touches [.cpu, .core, .keeps, .own] s s0 := by
    rw [h0]
    exact (frame_modCore _ _ _).trans frame_deliverHeld
  obtain ⟨x, hx⟩ := coreOf_deliverHeld (s := modCore l (stepping ss) s) (l := l)
  rw [← h0, coreOf_modCore, if_pos rfl] at hx
  have hpc : (coreOf l s0).pc = (coreOf l s).pc := by rw [hx]; rfl
  have hmid : midGroup (coreOf l s0) = false := by rw [hx]; exact hc.mid
  have hpart : (coreOf l s0).part = none := by
    have hm := hmid
    simp only [midGroup, Bool.or_eq_false_iff, Option.isSome_eq_false_iff, Option.isNone_iff_eq_none] at hm
    exact hm.2
  have hrepn : (coreOf l s0).inRepn = false := by
    have hm := hmid
    simp only [midGroup, Bool.or_eq_false_iff] at hm
    exact hm.1.1.1.1.1
  have hrun := runGroup_alu (op := op) (cc := false) (rd := rd) (ra := ra) (b := b) hmid (by rw [hx]; exact hrep) (by rw [hcore1]; exact hpart)
    (by rw [hcore1, hx, show (stepping ss (coreOf l s)).sb = [] from hc.sb]; decide) (by rw [hpc]; exact hfetch) hdec rfl
  obtain ⟨honly, hdone, -⟩ := aluCommitted_spec (l := l) (s := s0) (s1 := s1) (f := f) (op := op) (cc := false) (rd := rd) (ra := ra) (b := b) rfl
  generalize aluCommitted l f op false rd ra b (groupBegun l f s1 s0) = w at *
  obtain ⟨hd, hg, htsw⟩ := hdone
  have htswd : (coreOf l w).tsw = (coreOf l s0).tsw := by rw [htsw, hcore1]; rfl
  have hconds : SameConds (coreOf l s0) (coreOf l w) := by
    refine ⟨?_, ?_, ?_, ?_, htswd, ?_, ?_, ?_, ?_, ?_⟩ <;> rw [hd]
    case refine_4 => exact hrepn.symm
    all_goals rw [hcore1]
  have hcondw : firstCond l w = none := by
    obtain ⟨y, rfl⟩ := honly
    exact (firstCond_same hconds (by rw [hs1]) (by rw [hs1])).trans hcond
  have hhalt : (coreOf l w).mqHalt = true := by rw [hd, hcore1, hx]; rfl
  have hbound : (coreOf l w).mqBound = false := by rw [hd, hcore1, hx]; rfl
  have hwait : (coreOf l w).mqWait = some ss := by rw [hd, hcore1, hx]; rfl
  have hrunw : (coreOf l w).run = .running := by rw [hd, hcore1, hx]; rfl
  have hmidw : midGroup (coreOf l w) = false := by rw [hd]; rfl
  have hsbw : (coreOf l w).sb = [] := by rw [hd, hcore1, hx]; exact hc.sb
  have hwcw : (coreOf l w).wc = [] := by rw [hd, hcore1, hx]; exact hc.wc
  have hissue := issueOne_stepping (by rw [hx]; rfl) (by rw [hx]; rfl) (by rw [hx]; rfl) (by rw [hx]; rfl) hrun hhalt hmidw
  obtain ⟨v, m, hv, hvonly, -, hvcore⟩ := stepped_stops hbound hcondw
  have hrest : Resting (coreOf l v) := by
    rw [hvcore]
    exact ⟨hsbw, hwcw, hmidw⟩
  have hplace : recState l v = 0 := by
    have hfetched : Touches fetchRegs s0 s1 := by
      have hgo := core_fetchGroup (s := s0) (l := l) (coreOf l s).pc.toNat
      rw [hfetch] at hgo
      exact hgo
    have hsame : recState l v = recState l s1 := by
      obtain ⟨y, rfl⟩ := honly.trans hvonly
      rfl
    rw [hsame, recState_of_still (hfetched .still (by decide)), recState_of_still (hframe0 .still (by decide)), h.place]
  obtain ⟨u, hanswer, huonly, hcore, -⟩ := stopped_answers hrest (.inl (by rw [hvcore]; exact hrunw)) (by rw [hvcore]; exact hwait) hplace
  rw [hvcore] at hcore
  have hstep : coreStep ss l s = respond ss [asc "ok"] u := by
    have hcode : coreCode l s = 2 := (coreCode_stopped (by rw [h.place]; decide)).2 hr
    have hgroups : stepGroups l 65 s0 = stopCore l v := by
      have hstopped : (coreOf l (stopCore l v)).run = .stopped := by
        rw [stopCore_resting hrest, coreOf_modCore, if_pos rfl, stopIn_runs (.inl (by rw [hvcore]; exact hrunw))]
      rw [stepGroups, if_pos (by rw [hx]; rfl), hissue, hv, stepGroups, if_neg (by rw [hstopped]; decide)]
    unfold coreStep
    rw [if_neg (by simp [hcode, h.place]), ← hanswer, ← hgroups, h0]
    rfl
  have hall : OnlyCores s1 u := (honly.trans hvonly).trans huonly
  have hframe : Touches [.cpu, .core, .keeps, .own, .still, .sto, .mem, .free, .out, .svc, .pf0] s u := by
    have hfetched := frame_fetched (s := s0) s1.cpu s1.sto s1.free
    rw [← hs1] at hfetched
    obtain ⟨y, rfl⟩ := hall
    exact (hframe0.mono (by decide)).trans ((hfetched.mono (by decide)).trans ((frame_cpu s1 _).mono (by decide)))
  have hg1 : (coreOf l s1).g = (coreOf l s).g := by rw [hcore1, hx]; rfl
  refine ⟨u, ?_, by rw [hcore], by rw [hcore]; exact hhalt, by rw [hcore], by rw [hcore], ?_, ?_, fun n => ?_, ?_⟩
  · rw [show exec (.mqCoreStep ss l) s = mqDo ss (.step l) s from rfl, h.exec (f := coreStep ss l) rfl, hstep]
    exact done_framed (hframe.andThen (frame_respond ss _ _)) h.settled
  · rw [hcore]
    exact (congrArg Core.pc hd :)
  · rw [hcore]
    exact htswd.trans (by rw [hx]; rfl)
  · rw [hcore, ← srcVal_of_g hg1, ← getG_of_g hg1, ← getG_of_g hg1]
    exact hg n
  · obtain ⟨y, rfl⟩ := hall
    rfl

end

/-- Settles O59. -/
theorem maquetteControlsCores : Obligations.MaquetteControlsCores := by
  intro s ss hs hu hm hg
  refine ⟨fun e h a n v => ⟨?_, ?_⟩, fun l e h => ⟨?_, ?_, ?_, ?_, ?_⟩, fun cover => control_spec cover, fun p addr a hc hgr h8 ha hl => ⟨?_, ?_⟩, fun p addr hc hgr h => ⟨fun v => ?_, ?_⟩, ?_⟩
  · exact exec_refused hs hu hm (c := .memR a n) (by simp only [mqExec, h])
  · exact exec_refused hs hu hm (c := .memW a v) (by simp only [mqExec, h])
  · exact exec_refused hs hu hm (c := .halt l) (onCore_refused h)
  · exact exec_refused hs hu hm (c := .step l) (onCore_refused h)
  · exact exec_refused hs hu hm (c := .run l) (onCore_refused h)
  · exact exec_refused hs hu hm (c := .regs l) (onCore_refused h)
  · exact exec_refused hs hu hm (c := .recast l) (onCore_refused h)
  · exact fun b hhas hread => exec_memRead hs hu hm hc hgr h8 ha hl hhas hread
  · exact fun v ha8 hd hready hp => ⟨exec_memWrite hs hu hm hc hgr h8 ha hl ha8 hd hready hp, fun _ hw hheld b =>
      cohByte_memWrite ha8 (by simp [beBytes]) hd hready hw hl hheld b⟩
  · refine exec_refused hs hu hm (c := .memW addr v) ?_
    simp only [mqExec, control_of_grant (cover := fun _ => true) hc hgr rfl]
    exact memWrite_refused h v
  · refine exec_refused hs hu hm (c := .memR addr 1) ?_
    simp only [mqExec, control_of_grant (cover := fun _ => true) hc hgr rfl]
    exact memRead_refused h (sessionMem_of_idle hm ss)
  · intro l sc hl hc hgr hcov hplace hlose
    have h : Controlled ss l s := ⟨hs, hu, hm, hl, ⟨sc, control_of_grant hc hgr hcov⟩, hplace⟩
    refine ⟨fun hr => exec_halt h hg hr, fun hr hmid hsb hwc => exec_halt_resting h hr ⟨hsb, hwc, hmid⟩ hlose, fun hr => ⟨?_, exec_regs h hr, (exec_run h hr).1, (exec_run h hr).2, ?_⟩,
      fun hr => exec_notStopped h hr, (exec_recast_spec h hlose).1, (exec_recast_spec h hlose).2⟩
    · have hcode : coreCode l s = 2 := (coreCode_stopped (by rw [hplace]; decide)).2 hr
      exact h.answers (c := .halt l) rfl (if_pos (by simp [hcode]))
    · exact fun s0 s1 f op rd ra b h0 hcond hsb hwc hmid hrep hfetch hs1 hcore1 hdec => exec_step h hr h0 hcond ⟨hsb, hwc, hmid⟩ hrep hfetch hs1 hcore1 hdec

end Sys2Proof.Machine
end


section
set_option Elab.async false
/-! PROOFS. Frames of the operations of a group up to its commit: what they read, translate and ask for. -/

namespace Sys2Proof.Machine

section
variable {s t u : State} {l : Nat} {c : Core} {e : Eff} {o : COp}

/-! ### Storage that an operation reaches -/

theorem core_lookLines (xs : List (Nat × Nat × Nat)) : ∀ s, Touches fetchRegs s (lookLines l xs s).after := by
  induction xs with
  | nil => exact fun s => .refl _ s
  | cons x xs ih =>
    obtain ⟨attr, ln, real⟩ := x
    intro s
    have hlook := core_sysAnswer (s := s) (l := l) attr (ln * 128) 0
    unfold lookLines
    generalize sysAnswer l attr (ln * 128) 0 s = r at *
    cases r with
    | val b v => exact Touches.trans hlook (ih v)
    | poison v => exact hlook
    | wait v => exact hlook

theorem core_accessScan (acc : Acc) (long dec : Bool) (xs : List (Nat × Nat)) : ∀ ps bad s, Touches fetchRegs s (accessScan l acc long dec xs ps bad s).after := by
  induction xs with
  | nil => exact fun _ _ s => .refl _ s
  | cons x xs ih =>
    obtain ⟨va, n⟩ := x
    intro ps bad s
    have hx := core_translate (s := s) (l := l) va acc
    unfold accessScan
    extract_lets found
    have hfound : ∀ b v, Touches fetchRegs v (found b v).after := fun b v => by
      unfold found
      split
      · exact ih _ _ v
      · exact .refl _ v
    clear_value found
    generalize translate l va acc s = r at *
    obtain ⟨r, w⟩ := r
    cases r with
    | exc code cause lv => exact hx
    | poison x => exact Touches.trans hx (hfound _ w)
    | wait => exact hx
    | ctl q =>
      dsimp only
      split
      · exact hx
      · exact hx
    | ok p =>
      refine Touches.trans hx ?_
      dsimp only
      split
      · exact ih _ _ w
      · split
        · exact core_askLine
        · split
          · exact hfound _ w
          · exact ih _ _ w

theorem core_scanOf (va n : Nat) (acc : Acc) (bytes : Bool) : Touches fetchRegs s (scanOf l va n acc bytes s).after := by
  refine touches_bind (core_accessScan acc _ bytes _ [] none s) fun r v => ?_
  split
  · split
    · exact .refl _ v
    · exact touches_bind (core_lookLines _ v) fun _ w => .refl _ w
  · exact .refl _ v

theorem core_badFlow {α : Type} (acc : Acc) (b : AccBad) : Touches fetchRegs s (badFlow (α := α) l acc b s).after := by
  unfold badFlow
  split
  · exact core_accessExc _ _ _ _ _ _
  next out =>
    cases out with
    | none => exact .refl _ s
    | some a => exact core_outsideEvent a

theorem core_nextRead (attr arm real n : Nat) (decides : Bool) : Touches fetchRegs s (nextRead l attr arm real n decides e s).after := by
  unfold nextRead
  extract_lets k with_ fresh
  have hfresh : ∀ v, Touches fetchRegs v (fresh v).after := fun v => by
    unfold fresh
    split <;> exact .refl _ v
  clear_value fresh
  split
  · exact hfresh s
  · split
    · split
      · split <;> exact .refl _ s
      · exact .refl _ s
    · exact (core_modCore _).trans (hfresh _)

/-- A part of a group for each of a list, one after the other. -/
theorem touches_flow {α β : Type} {rs : List FrameReg} {k : β → α → State → Flow α} (hk : ∀ b a u, Touches rs u (k b a u).after) (xs : List β) :
    ∀ r : Flow α, Touches rs s r.after → Touches rs s (xs.foldl (fun r q => r.bind (k q)) r).after := by
  induction xs with
  | nil => exact fun _ h => h
  | cons x xs ih => exact fun r h => ih _ (touches_bind h (hk x))

theorem core_readPlace (n : Nat) (bytes decides : Bool) (pl : Place) : Touches fetchRegs s (readPlace l n bytes decides pl e s).after := by
  unfold readPlace
  split
  · exact touches_flow (fun q x u => touches_bind (core_nextRead _ _ _ _ _) fun _ v => .refl _ v) _ _ (.refl _ s)
  · exact (touches_foldl (fun _ _ => core_of traffic_cacheFill) _ s).trans (core_nextRead _ _ _ _ _)

theorem core_readPlaces (bytes decides : Bool) (ps : List (Nat × Nat × Place)) : Touches fetchRegs s (readPlaces l bytes decides ps e s).after :=
  touches_flow (fun _ _ _ => touches_bind (core_readPlace _ _ _ _) fun _ v => .refl _ v) _ _ (.refl _ s)

theorem core_loadBytes (va n : Nat) (acc : Acc) : Touches fetchRegs s (loadBytes coreEnv l va n acc e s).after := by
  refine touches_bind (core_scanOf va n acc false) fun r v => ?_
  split
  · exact core_badFlow acc _
  · exact core_readPlaces _ _ _
  next q =>
    split
    · exact core_accessExc _ _ _ _ _ _
    · have hread : ∀ x w, (partOfCore l v).bind (fun p => coreEnv.ctlRead p q.off v) = some (x, w) → w = v := fun x w h => by
        cases hp : partOfCore l v with
        | none => simp [hp] at h
        | some p =>
          simp only [hp, Option.bind_some, coreEnv, ctlReadPart] at h
          split at h
          · split at h
            · exact (congrArg Prod.snd (Option.some.inj h) :).symm
            · exact absurd h (by simp)
          · exact absurd h (by simp)
      split
      next x w hx =>
        rw [hread x w hx]
        exact .refl _ v
      · exact core_accessExc _ _ _ _ _ _

theorem core_storeBytes (va after : Nat) (strl : Option Nat) (data : List Byte) : Touches fetchRegs s (storeBytes coreEnv l va after strl data e s).after := by
  refine touches_bind (core_scanOf va data.length accStore false) fun r v => ?_
  split
  · exact core_badFlow accStore _
  · exact .refl _ v
  · split
    · exact core_accessExc _ _ _ _ _ _
    · split
      · exact .refl _ v
      · exact core_accessExc _ _ _ _ _ _

theorem core_atomPlace (va n : Nat) (acc : Acc) (uc : Bool) : Touches fetchRegs s (atomPlace l va n acc uc s).after := by
  have hx := core_translate (s := s) (l := l) va acc
  unfold atomPlace
  split
  · exact .refl _ s
  · generalize translate l va acc s = r at *
    obtain ⟨r, w⟩ := r
    cases r with
    | exc code cause lv => exact hx
    | poison x => exact hx
    | wait => exact hx
    | ctl q => exact hx
    | ok p =>
      dsimp only
      split
      · exact hx
      · exact hx

theorem core_lineSound (n va : Nat) (own : Bool) (pl : Place) : Touches fetchRegs s (lineSound l n va own pl s).after := by
  unfold lineSound
  split
  · exact core_askLine
  · split
    · exact core_badFlow accLoad _
    · exact .refl _ s

theorem core_holdGranule (pl : Place) : Touches fetchRegs s (holdGranule l pl s).after := by
  unfold holdGranule
  extract_lets mate v
  split
  · exact core_askLine
  · split
    · exact .refl _ s
    · exact (core_of traffic_cacheFill).trans (touches_ite (fun _ => .refl _ v) fun _ => core_of traffic_fillL2)

theorem core_atomOp (va n : Nat) (kind : AtomKind) (rd : Nat) : Touches fetchRegs s (atomOp l va n kind rd e s).after := by
  refine touches_bind (core_atomPlace va n accBoth false) fun pl v => ?_
  dsimp only
  split
  · exact .refl _ v
  · refine touches_bind (core_lineSound n va false pl) fun _ w => touches_bind ?_ fun _ x => .refl _ x
    split
    · exact core_lineSound n va true pl
    · exact .refl _ w

/-! ### The operations of a group -/

theorem core_drainScope (scope : Nat) : Touches fetchRegs s (drainScope l scope s) :=
  touches_ite (fun _ => .refl _ s) fun _ => touches_ite (fun _ => core_of traffic_drainCluster) fun _ => core_of traffic_drainSystem

theorem core_doLda (scope : Nat) : Touches fetchRegs s (doLda l scope s) :=
  touches_ite (fun _ => .refl _ s) fun _ => (core_drainScope 1).trans (touches_ite (fun _ => core_of traffic_drainSystem) fun _ => .refl _ _)

theorem core_msg (h : Touches msgRegs s t) : Touches fetchRegs s t := h.mono (by decide)

theorem core_prefDone (who : Agent) (line : Nat) (part : Option Nat) : Touches fetchRegs s (prefDone who line part s) := by
  unfold prefDone
  split
  · exact touches_ite (fun _ => .refl _ s) fun _ => touches_ite (fun _ => core_of traffic_cacheFill) fun _ => core_of traffic_fillL2
  · exact .refl _ s

theorem core_answer (m : Msg) (kind : Nat) (body : List Byte) : Touches fetchRegs s (answer m kind body s) := by
  unfold answer
  split
  · extract_lets r
    clear_value r
    cases r with
    | none => exact core_msg (frame_armMsg _)
    | some r => exact (core_msg (frame_armMsg _)).trans (touches_ite (fun _ => core_prefDone _ _ _) fun _ => .refl _ _)
  · exact (core_msg (frame_armMsg _)).trans (core_msg frame_forwardMsg)

theorem core_dirPut (line : Nat) (owned : Bool) (holders : Nat) : Touches fetchRegs s (dirPut line owned holders s) := core_msg (frame_armMsg _)

theorem core_answerLine (m : Msg) : Touches fetchRegs s (answerLine m s) :=
  ((core_of traffic_sliceUse).trans (core_of (traffic_writeBackLine.trans traffic_snoopRead))).trans (core_answer m 8 _)

theorem core_dropLocal (line : Nat) : Touches fetchRegs s (dropLocal line s) :=
  (core_of traffic_writeBackLine).trans (core_of (frame_coresTraffic (own_taken line) fun c => ((coreKeeps_loseResv line c).trans (coreKeeps_dropFromCore line _)).resv))

theorem core_finishOwn (m : Msg) : Touches fetchRegs s (finishOwn m s) := by
  unfold finishOwn
  extract_lets line up v w
  have hw : Touches fetchRegs v w := touches_ite (fun _ => core_answer m 9 _) fun _ => core_answerLine m
  exact ((core_dropLocal line).trans hw).trans (core_dirPut _ _ _)

theorem core_recallEntry (x : DirEntry) : Touches fetchRegs s (recallEntry x s) := by
  have hcount : Touches fetchRegs s (patina (recallCounter (sliceOf (physOfAddr (x.line * 128)))) s) := (frame_patina s _).mono (by decide)
  exact (hcount.trans (core_of (frame_losingResv _))).trans (core_msg frame_snoopHolders)

/-- A home serves a read of its own module. -/
theorem core_homeServe {m : Msg} (hk : m.kind = 2 ∨ m.kind = 3) : Touches fetchRegs s (homeServe m s) := by
  unfold homeServe
  extract_lets line entry holders owned mine op p v
  split
  · exact core_msg frame_queueReq
  · split
    · have hraise : Touches fetchRegs s v := core_of (traffic_raisePart (by decide))
      split
      · exact hraise.trans (core_answer m 9 _)
      · exact hraise.trans (core_answer m 8 _)
    · split
      · split
        · refine Touches.trans ?_ (core_msg frame_setTxn)
          exact touches_ite (fun _ => .refl _ s) fun _ => core_recallEntry _
        · exact .refl _ s
      · have hread : Touches fetchRegs s (if owned && !mine then snoopHolders line 0 holders m false s else dirPut line false (holders ||| nodeBit m.src s) (answerLine m s)) :=
          touches_ite (fun _ => core_msg frame_snoopHolders) fun _ => (core_answerLine m).trans (core_dirPut _ _ _)
        rcases hk with hk | hk
        · simp only [hk]
          exact hread
        · simp only [hk]
          exact touches_ite (fun _ => touches_ite (fun _ => core_finishOwn m) fun _ => core_msg frame_snoopHolders) fun _ =>
            touches_ite (fun _ => core_finishOwn m) fun _ => (core_dropLocal line).trans (core_msg frame_snoopHolders)

end

end Sys2Proof.Machine
end


section
set_option Elab.async false
/-! PROOFS. Frames of a group's operations, and of the one effect that may reach the outside before the group's fourth attempt fails. -/

namespace Sys2Proof.Machine

section
variable {s t u : State} {l : Nat} {c : Core} {e : Eff} {o : COp}

theorem core_sendPref (l1 own : Bool) (line : Nat) : Touches fetchRegs s (sendPref l l1 own line s) := by
  unfold sendPref
  extract_lets part a m r
  split
  · exact core_msg frame_askRemote
  · split
    · exact .refl _ s
    · refine (core_msg (frame_armMsg _)).trans (core_homeServe ?_)
      change (if own then 3 else 2) = 2 ∨ (if own then 3 else 2) = 3
      cases own
      · exact .inl rfl
      · exact .inr rfl

theorem core_doPref (hint line : Nat) : Touches fetchRegs s (doPref l hint line s) := by
  unfold doPref
  extract_lets part v
  refine touches_ite (fun _ => touches_ite (fun _ => core_of traffic_sliceUse) fun _ => core_msg frame_sendReq) fun _ => touches_ite (fun _ => .refl _ s) fun _ =>
    touches_ite (fun _ => core_sendPref _ _ _) fun _ => touches_ite (fun _ => ?_) fun _ => touches_ite (fun _ => core_of traffic_cacheFill) fun _ => core_of traffic_fillL2
  exact (core_of (traffic_writeBackIf.trans (frame_dropping line))).trans (core_of traffic_fillL2)

/-- The state after an operation, where a unit knows it. -/
def unitAfter (s : State) : Option (Flow Eff) → State
  | some r => r.after
  | none => s

theorem unit_evalInt : unitAfter s (evalInt c o e s) = s := by
  unfold evalInt
  split
  case h_13 =>
    generalize mulResult _ _ _ = r
    cases r <;> rfl
  all_goals rfl

theorem core_evalL : Touches fetchRegs s (unitAfter s (evalL coreEnv l c o e s)) := by
  unfold evalL
  split
  case h_1 => exact touches_bind (core_loadBytes _ _ _) fun _ v => .refl _ v
  case h_2 => exact touches_bind (core_loadBytes _ _ _) fun _ v => .refl _ v
  case h_3 => exact touches_bind (core_loadBytes _ _ _) fun _ v => .refl _ v
  case h_4 => exact core_storeBytes _ _ _ _
  case h_5 => exact core_storeBytes _ _ _ _
  case h_6 => exact core_storeBytes _ _ _ _
  case h_7 =>
    dsimp only [unitAfter]
    split
    · exact .refl _ s
    · split
      · exact core_doLda _
      · exact (core_doLda _).trans (touches_bind (core_loadBytes _ _ _) fun _ v => .refl _ v)
  case h_8 =>
    dsimp only [unitAfter]
    split
    · exact .refl _ s
    · exact core_storeBytes _ _ _ _
  case h_9 =>
    exact touches_bind (core_atomPlace _ _ _ _) fun _ v => touches_bind (core_lineSound _ _ _ _) fun _ w => touches_bind (core_holdGranule _) fun _ x => .refl _ x
  case h_10 =>
    refine touches_bind (core_atomPlace _ _ _ _) fun _ v => ?_
    dsimp only
    split
    · exact core_askLine
    · exact .refl _ v
  case h_11 => exact core_atomOp _ _ _ _
  case h_12 => exact core_atomOp _ _ _ _
  case h_13 => exact core_atomOp _ _ _ _
  case h_14 scope mask =>
    have hdrain : Touches fetchRegs s (if mask.testBit 1 then drainScope l scope s else s) := touches_ite (fun _ => core_drainScope scope) fun _ => .refl _ s
    dsimp only [unitAfter]
    generalize (if mask.testBit 1 then drainScope l scope s else s) = v at *
    split
    · exact hdrain
    · exact hdrain
  case h_15 hint a =>
    have hx := core_translate (s := s) (l := l) (addrVal c a).1 accLoad
    dsimp only [unitAfter]
    generalize translate l (addrVal c a).1 accLoad s = r at *
    obtain ⟨r, w⟩ := r
    cases r with
    | ok pl => exact Touches.trans hx (touches_ite (fun _ => .refl _ w) fun _ => core_doPref _ _)
    | ctl q => exact hx
    | exc code cause lv => exact hx
    | poison x => exact hx
    | wait => exact hx
  case h_16 k a =>
    have hx := core_translate (s := s) (l := l) (addrVal c a).1 (if k = .wb then accLoad else accStore)
    dsimp only [unitAfter]
    generalize translate l (addrVal c a).1 (if k = .wb then accLoad else accStore) s = r at *
    obtain ⟨r, w⟩ := r
    cases r <;> exact hx
  case h_17 => exact .refl _ s
  case h_18 => exact .refl _ s

theorem after_effFp (fl : FpFlags) : (effFp c fl e s).after = s := by
  unfold effFp
  split
  · split <;> rfl
  · rfl

theorem unit_evalF : unitAfter s (evalF c o e s) = s := by
  unfold evalF
  extract_lets fv rm
  split
  case h_5 | h_6 | h_10 => rfl
  all_goals exact after_effFp _

theorem after_decFlow {r : DecRes} {k : Nat → BitVec 2 → Flow Eff} (h : ∀ v w, (k v w).after = s) : (decFlow r k s).after = s := by
  cases r with
  | ok v w => exact h v w
  | data x => rfl
  | divide => rfl
  | range => rfl

theorem core_ssOperands (a1 l1 a2 l2 : Nat) (acc : Acc) : Touches fetchRegs s (ssOperands l a1 l1 a2 l2 acc e s).after := by
  refine touches_bind (core_scanOf _ _ _ _) fun r1 v => touches_bind (core_scanOf _ _ _ _) fun r2 w => ?_
  split
  · split
    · exact core_badFlow _ _
    · exact core_badFlow _ _
  · exact core_badFlow _ _
  · exact core_badFlow _ _
  · exact touches_bind (core_readPlaces _ _ _) fun _ x => touches_bind (core_readPlaces _ _ _) fun _ y => .refl _ y
  · exact core_accessExc _ _ _ _ _ _

theorem touches_of_eq {rs : List FrameReg} (h : t = s) : Touches rs s t := h ▸ .refl rs s

theorem core_evalD : Touches fetchRegs s (unitAfter s (evalD l c o e s)) := by
  unfold evalD
  extract_lets full
  have hfull : ∀ rd v w, (full rd v w).after = s := fun _ _ _ => rfl
  clear_value full
  split
  case h_1 | h_3 | h_4 | h_5 | h_10 => exact touches_of_eq (after_decFlow fun _ _ => hfull _ _ _)
  case h_2 | h_7 | h_9 => exact touches_of_eq (after_decFlow fun _ _ => rfl)
  case h_6 | h_8 => exact .refl _ s
  case h_11 =>
    refine touches_bind (core_ssOperands _ _ _ _ _) fun r v => ?_
    split
    · exact .refl _ v
    · exact touches_of_eq (after_decFlow fun _ _ => rfl)
  case h_12 =>
    refine touches_bind (core_ssOperands _ _ _ _ _) fun r v => ?_
    split
    · exact .refl _ v
    · exact touches_of_eq (after_decFlow fun _ _ => rfl)
  case h_13 => exact .refl _ s

theorem after_branchTo (t : Nat) (x : Bool) : (branchTo t x e s).after = s := by
  unfold branchTo
  split
  · rfl
  · split <;> rfl

theorem after_evalB (ga next : Nat) : (evalB l c ga next o e s).after = s := by
  unfold evalB
  extract_lets rel
  split
  case h_1 | h_3 =>
    split
    · exact after_branchTo _ _
    · rfl
  case h_2 | h_4 => exact after_branchTo _ _
  case h_6 =>
    split
    · rfl
    · split <;> rfl
  case h_8 => split <;> rfl
  case h_12 =>
    dsimp only
    split <;> rfl
  all_goals rfl

theorem core_evalOp (ga next : Nat) : Touches fetchRegs s (evalOp coreEnv l c ga next o e s).after := by
  have hint := unit_evalInt (s := s) (c := c) (o := o) (e := e)
  have hl := core_evalL (s := s) (l := l) (c := c) (o := o) (e := e)
  have hf := unit_evalF (s := s) (c := c) (o := o) (e := e)
  have hd := core_evalD (s := s) (l := l) (c := c) (o := o) (e := e)
  unfold evalOp
  split
  next r hr => exact touches_of_eq (by rw [hr] at hint; exact hint)
  · split
    next r hr => rw [hr] at hl; exact hl
    · split
      next r hr => exact touches_of_eq (by rw [hr] at hf; exact hf)
      · split
        next r hr => rw [hr] at hd; exact hd
        · exact touches_of_eq (after_evalB ga next)

/-- The operations of a group, up to its commit. -/
theorem core_evalOps (ga next : Nat) (ops : List COp) : ∀ e s, Touches fetchRegs s (evalOps coreEnv l c ga next ops e s).after := by
  induction ops with
  | nil => exact fun _ s => .refl _ s
  | cons o ops ih =>
    intro e s
    have ho := core_evalOp (s := s) (l := l) (c := c) (o := o) (e := e) ga next
    unfold evalOps
    generalize evalOp coreEnv l c ga next o e s = r at *
    cases r with
    | ok e' v => exact Touches.trans ho (ih e' v)
    | pgm p xi v => exact Touches.trans ho (touches_bind (core_lookLines _ v) fun _ w => .refl _ w)
    | poison x v => exact Touches.trans ho (touches_bind (core_lookLines _ v) fun _ w => .refl _ w)
    | wait v => exact ho

/-! ### The one effect that may reach the outside -/

/-- What a group may write before its commit, its one effect outside the core included. -/
def reachRegs : List FrameReg := .own :: runRegs

theorem reach_of {t : State} (h : Touches fetchRegs s t) : Touches reachRegs s t := h.mono (by decide)

theorem reach_run {t : State} (h : Touches runRegs s t) : Touches reachRegs s t := h.mono (by decide)

theorem core_codeAt (ga : Nat) : Touches fetchRegs s (codeAt l ga s).after := by
  unfold codeAt
  split
  · split
    · exact .refl _ s
    · exact core_fetchGroup ga
  · exact core_fetchGroup ga

theorem core_opsAt : Touches fetchRegs s (opsAt l s).after := by
  unfold opsAt
  extract_lets ga of_
  have hof : ∀ f n v, Touches fetchRegs v (of_ f n v).after := fun f n v => by
    unfold of_
    split <;> exact .refl _ v
  clear_value of_
  split
  · exact hof _ _ s
  · refine touches_bind (core_codeAt ga) fun f v => ?_
    split
    · exact touches_bind (core_fetchGroup _) fun f2 w => hof _ _ w
    · exact hof _ _ v

/-- The lines that an outside effect needs are asked for. -/
theorem core_outNeed {sp : Special} (h : outNeed sp l s = some t) : Touches fetchRegs s t := by
  unfold outNeed at h
  extract_lets need at h
  have hneed : ∀ a n m, need a n m = some t → Touches fetchRegs s t := fun a n m hn => by
    unfold need at hn
    split at hn
    · exact absurd hn (by simp)
    · extract_lets xs at hn
      split at hn
      · exact absurd hn (by simp)
      · rw [← Option.some.inj hn]
        exact core_msg frame_askMissing
  clear_value need
  split at h
  · exact hneed _ _ _ h
  · exact hneed _ _ _ h
  · exact hneed _ _ _ h
  · exact absurd h (by simp)

theorem core_outCheck (e : Eff) : Touches fetchRegs s (outCheck coreEnv l e s).after := by
  unfold outCheck
  extract_lets bad
  have hbad : ∀ w r, Touches fetchRegs s (bad w r).after := fun w r => by
    unfold bad
    split
    · exact .refl _ s
    · dsimp only [Flow.after]
      split
      · exact touches_ite (fun _ => core_outsideEvent _) fun _ => .refl _ s
      · exact .refl _ s
    · exact .refl _ s
  clear_value bad
  split
  next v hv => exact core_outNeed hv
  · split
    · exact hbad _ _
    · exact hbad _ _
    · exact .refl _ s

theorem core_askReads (n : Nat) : ∀ rs s, Touches fetchRegs s (askReads l n rs s).after := by
  induction n with
  | zero => exact fun _ s => .refl _ s
  | succ n ih =>
    intro rs s
    unfold askReads
    split
    · exact .refl _ s
    · split
      · exact .refl _ s
      next i _ _ r _ =>
        split
        · exact .refl _ s
        · extract_lets v bad w b x tag y
          have hdrain : Touches fetchRegs s v := touches_ite (fun _ => .refl _ s) fun _ => core_of traffic_drainSystem
          have hkeep : Touches fetchRegs v (ucKeep l (rs.take i) v) := core_modCore _
          split
          · exact hdrain
          · split
            · split
              · exact hdrain.trans (core_msg frame_askHome)
              · have hw : Touches fetchRegs v w := hkeep.trans (core_of (traffic_sliceUse.trans traffic_cleanLine))
                exact ((hdrain.trans hw).trans (core_modCore _)).trans (ih _ _)
            · have hy : Touches fetchRegs (ucKeep l (rs.take i) v) y := core_msg frame_sendReq
              dsimp only [Flow.after]
              exact ((hdrain.trans hkeep).trans hy).trans (core_modCore _)

end

end Sys2Proof.Machine
end


section
set_option Elab.async false
/-! PROOFS. Frames of the effect outside the core that a group whose fourth attempt fails may have made: an atomic at a remote home, a signal, an operation on a subchannel or a window. -/

namespace Sys2Proof.Machine

section
variable {s t u : State} {l : Nat} {e : Eff}

/-! ### An atomic -/

/-- The state after one storage effect. -/
def OpRes.after : OpRes → State
  | .done _ s => s
  | .again _ s => s
  | .poison _ s => s

/-- What is left of an effect that is not done is an atomic. -/
def OpRes.atomic : OpRes → Prop
  | .again o _ => ∃ a, o = .atom a
  | _ => True

theorem core_markLeaf (leaf : Nat) : Touches fetchRegs s (markLeaf l leaf s).2 := by
  unfold markLeaf
  split
  · exact core_askLine
  · extract_lets r
    have hbits : Touches fetchRegs s r.2 := core_setEntryBits leaf 3
    clear_value r
    split
    · exact hbits.trans (core_modCore _)
    · exact hbits

theorem core_markOpt (leaf : Option Nat) : Touches fetchRegs s (markOpt l leaf s).2 := by
  cases leaf with
  | none => exact .refl _ s
  | some a => exact core_markLeaf a

theorem core_atomMark (a : AtomOp) : Touches fetchRegs s (atomMark l a s).after := core_markOpt a.setC

theorem core_ownStoreResv (a n : Nat) (rest : List MemOp) : Touches fetchRegs s (ownStoreResv l a n rest s) := 
  touches_ite (fun _ => .refl _ s) fun _ => core_modCore _ (coreKeeps_foldl_loseResv _)

theorem core_storeNow (attr a : Nat) (data : List Byte) : Touches fetchRegs s (storeNow l attr a data s) := by
  unfold storeNow
  extract_lets part v w x
  have hv : Touches fetchRegs s v := core_of traffic_noteOld
  refine hv.trans (touches_ite (fun _ => core_of traffic_wbStore) fun _ => touches_ite (fun _ => core_of traffic_homeWriteKeep) fun _ =>
    touches_ite (fun _ => core_of traffic_wtRemote) fun _ => ?_)
  have hw : Touches fetchRegs v w := core_of (traffic_writeBackLine.trans traffic_noteOld)
  have hx : Touches fetchRegs w x := core_of traffic_homeSetAll
  have hall : Touches fetchRegs x (onCores (fun _ => true) (fun c => dropFromCore (lineOf a) (loseResv (lineOf a) c)) x) :=
    core_of (frame_coresTraffic (own_taken (lineOf a)) fun c => ((coreKeeps_loseResv (lineOf a) c).trans (coreKeeps_dropFromCore (lineOf a) _)).resv)
  exact ((hw.trans hx).trans hall).trans (core_msg frame_releaseRemote)

theorem core_doAtomHome (a : AtomOp) (rest : List MemOp) : Touches fetchRegs s (doAtomHome l a rest e s).after ∧ (doAtomHome l a rest e s).atomic := by
  unfold doAtomHome
  extract_lets clear cas tag v
  have hclear : ∀ u, Touches fetchRegs u (clear u) := fun _ => core_modCore _
  clear_value clear
  split
  · split
    · exact ⟨core_atomMark a, _, rfl⟩
    · have hv : Touches fetchRegs s v := core_msg frame_sendReq
      dsimp only [OpRes.after]
      exact ⟨hv.trans (core_modCore _), _, rfl⟩
  · split
    · exact ⟨.refl _ s, _, rfl⟩
    · split
      · exact ⟨.refl _ s, trivial⟩
      · split
        · exact ⟨hclear s, trivial⟩
        · split
          · have hmark := core_atomMark (s := s) (l := l) a
            split
            next b w hb =>
              rw [hb] at hmark
              exact ⟨Touches.trans hmark (touches_ite (fun _ => hclear w) fun _ => .refl _ w), _, rfl⟩
            · exact ⟨hmark, _, rfl⟩
          · exact ⟨(hclear s).trans (core_ownStoreResv _ _ _), trivial⟩

theorem core_doAtomHere (a : AtomOp) (rest : List MemOp) : Touches fetchRegs s (doAtomHere l a rest e s).after ∧ (doAtomHere l a rest e s).atomic := by
  unfold doAtomHere
  split
  · exact ⟨core_askLine, _, rfl⟩
  · split
    · exact ⟨.refl _ s, trivial⟩
    · extract_lets old
      split
      · exact ⟨touches_ite (fun _ => core_of traffic_cacheFill) fun _ => .refl _ s, trivial⟩
      · split
        · exact ⟨core_askLine, _, rfl⟩
        · split
          · exact ⟨core_atomMark a, _, rfl⟩
          · exact ⟨(core_ownStoreResv _ _ _).trans (core_storeNow _ _ _), trivial⟩

theorem doMem_atom (a : AtomOp) (rest : List MemOp) : doMem coreEnv l (.atom a) rest e s = if storesBefore l a.attr a.arm a.n s then .again (.atom a) (drainSystem l s)
    else if atomAtHome l a.attr a.arm s then doAtomHome l a rest e s else doAtomHere l a rest e s := rfl

theorem core_doAtom (a : AtomOp) (rest : List MemOp) : Touches fetchRegs s (doMem coreEnv l (.atom a) rest e s).after ∧ (doMem coreEnv l (.atom a) rest e s).atomic := by
  rw [doMem_atom]
  split
  · exact ⟨core_of traffic_drainSystem, _, rfl⟩
  · split
    · exact core_doAtomHome a rest
    · exact core_doAtomHere a rest

theorem core_tryAtom (n : Nat) (rest : List MemOp) : ∀ (a : AtomOp) (s : State), Touches fetchRegs s (tryMem coreEnv l n (.atom a) rest e s).after := by
  induction n with
  | zero => exact fun _ s => .refl _ s
  | succ n ih =>
    intro a s
    obtain ⟨hdo, hatom⟩ := core_doAtom (s := s) (l := l) (e := e) a rest
    unfold tryMem
    generalize doMem coreEnv l (.atom a) rest e s = r at *
    cases r with
    | done e' v => exact hdo
    | poison x v => exact hdo
    | again o v =>
      obtain ⟨b, rfl⟩ := hatom
      exact Touches.trans hdo (ih b v)

/-- The state after storage effects. -/
def OpsRes.after : OpsRes → State
  | .done _ s => s
  | .wait _ _ s => s
  | .poison _ s => s

theorem core_doOpsAtom (a : AtomOp) : Touches fetchRegs s (doOps coreEnv l [.atom a] e s).after := by
  have htry := core_tryAtom (l := l) (e := e) 6 [] a s
  unfold doOps
  generalize tryMem coreEnv l 6 (.atom a) [] e s = r at *
  cases r <;> exact htry

theorem core_heldAtom (a : AtomOp) (n : Nat) (old : List (Nat × Byte)) :
    Touches fetchRegs s (heldGo coreEnv l { eff := { ops := [.atom a] }, cont := 0, count := none, repn := false, first := some n, old := old } s).after := by
  have hops := core_doOpsAtom (s := s) (l := l) (e := { ops := [.atom a] }) a
  unfold heldGo
  dsimp only
  generalize doOps coreEnv l [.atom a] { ops := [.atom a] } s = r at *
  cases r with
  | done e' v =>
    dsimp only [Flow.after, OpsRes.after] at hops ⊢
    exact hops.trans (core_modCore _)
  | wait ops e' v =>
    dsimp only [Flow.after, OpsRes.after] at hops ⊢
    exact hops.trans (core_modCore _)
  | poison x v => exact hops

/-! ### Signals, subchannels and windows -/

theorem core_doSignal (t kind param : Nat) : Touches fetchRegs s (doSignal l t kind param s).2 := by
  unfold doSignal
  split
  · exact .refl _ s
  · split
    · exact .refl _ s
    · refine core_modCore _ fun c => ?_
      split
      · exact ⟨rfl, rfl, rfl, rfl, rfl, id⟩
      · split <;> exact ⟨rfl, rfl, rfl, rfl, rfl, id⟩

/-- The state after an effect outside the core. -/
def OutRes.afterFrom (s : State) : OutRes → State
  | .done _ t => t
  | .wait t => t
  | _ => s

theorem reach_ioWait : Touches reachRegs s ((ioWait l s).afterFrom u) := by
  unfold ioWait
  dsimp only [OutRes.afterFrom]
  exact reach_of (core_modCore _)

theorem run_op {t : State} (h : Touches opRegs s t) : Touches reachRegs s t := reach_run (run_of_op h)

theorem reach_startDurable (i : Nat) : Touches reachRegs s (startDurable i s) := by
  unfold startDurable
  split
  · exact .refl _ s
  · exact run_op (op_setOp.trans (touches_ite (fun _ => op_chEnd) fun _ => .refl _ _))

theorem reach_ioStart (p i : Nat) (b : List Byte) : Touches reachRegs s ((ioStart l p i b s).afterFrom u) := by
  unfold ioStart
  extract_lets prev blk again blk' o x v ch w y
  have hv : Touches reachRegs s v := run_op op_setOp
  have hw : Touches reachRegs v w := (frame_ch v { v.ch with nextOrder := v.ch.nextOrder + 1 }).mono (by decide)
  have hy : Touches reachRegs w y := run_op op_jnlTrans
  have hall := (hv.trans hw).trans hy
  split
  · exact hall.trans (reach_startDurable i)
  · exact hall.trans reach_ioWait

theorem reach_ioHalt (i : Nat) : Touches reachRegs s (ioHalt i s) := by
  unfold ioHalt
  split
  · exact .refl _ s
  · extract_lets v w
    have hw : Touches reachRegs s w := (run_op op_setOp).trans (run_op op_opTrans)
    exact hw.trans (touches_ite (fun _ => run_op op_chEnd) fun _ => touches_ite (fun _ => .refl _ w) fun _ => run_op op_beginHalt)

theorem reach_ioCancel (i : Nat) : Touches reachRegs s ((ioCancel l i s).afterFrom u) := by
  unfold ioCancel
  split
  · exact .refl _ s
  · extract_lets now cleared v w
    have hv : Touches opRegs s v := op_jnlTrans
    have hset : Touches opRegs v w := (op_setOp.trans op_setLast).trans op_dropOffers
    have hw : Touches reachRegs s w := run_op (hv.trans hset)
    split
    · exact hw
    · exact hw.trans reach_ioWait

theorem reach_applyMod (i : Nat) : Touches reachRegs s (applyMod i s) := by
  unfold applyMod
  split
  · exact run_op (op_setLast.trans op_offers)
  · split
    · exact .refl _ s
    · extract_lets reached b shown blk v w
      have hv : Touches reachRegs s v := run_op op_setOp
      have hw : Touches reachRegs v w := run_op op_offers
      exact (hv.trans hw).trans (touches_ite (fun _ => reach_run run_chRun) fun _ => .refl _ w)

theorem reach_ioModify (i : Nat) (b : List Byte) : Touches reachRegs s ((ioModify l i b s).afterFrom u) := by
  unfold ioModify
  split
  · exact .refl _ s
  · split
    · exact .refl _ s
    · extract_lets m now v w
      have hw : Touches reachRegs s w := run_op (op_setOp.trans op_jnlTrans)
      split
      · exact hw.trans (reach_applyMod i)
      · exact hw.trans reach_ioWait

theorem reach_partSeen (who : Agent) (p a n : Nat) : Touches reachRegs s (partSeen who p a n s) := reach_run run_partSeen

theorem reach_askMissing (who : Agent) (p : Nat) (xs : List (Nat × Nat)) : Touches reachRegs s (askMissing who p xs s) := reach_run run_askMissing

theorem reach_ioAccept (i : Nat) : Touches reachRegs s (ioAccept i s) := run_op (op_jnlTrans.trans op_dropOffers)

/-- An operation on a subchannel. -/
theorem reach_ioOp (k : IoOp) (a b : Long) : Touches reachRegs s ((ioOp k l a b s).afterFrom s) := by
  unfold ioOp
  split
  · exact .refl _ s
  · split <;> exact .refl _ s
  · split
    · exact .refl _ s
    next p _ =>
      extract_lets needs n addr i rd v st opn w
      have hv : Touches reachRegs s v := touches_ite (fun _ => reach_partSeen _ _ _ _) fun _ => .refl _ s
      have hw : Touches reachRegs v w := reach_run run_partWrite
      clear_value rd v st opn w
      split
      · exact .refl _ s
      · split
        · exact .refl _ s
        · cases rd with
          | addr => exact .refl _ s
          | poison r => exact .refl _ s
          | miss xs => exact reach_askMissing _ _ _
          | ok blk =>
            dsimp only
            split
            · exact hv
            · refine hv.trans ?_
              cases k with
              | start =>
                dsimp only
                split
                · exact reach_ioStart _ _ _
                · exact .refl _ v
              | halt =>
                dsimp only
                split
                · exact reach_ioHalt i
                · exact .refl _ v
              | cancel =>
                dsimp only
                split
                · exact reach_ioCancel i
                · exact .refl _ v
              | test => exact .refl _ v
              | store =>
                dsimp only
                split
                · exact hw.trans reach_ioWait
                · exact hw
              | modify =>
                dsimp only
                split
                · exact reach_ioModify i blk
                · exact .refl _ v
              | accept =>
                dsimp only
                split
                · exact reach_ioAccept i
                · exact .refl _ v

theorem reach_hwindowDo (p : Nat) (b : List Byte) : Touches reachRegs s ((hwindowDo l p b s).afterFrom u) := by
  unfold hwindowDo
  extract_lets k z base may pubs bind
  have hbind : ∀ v, Touches reachRegs s (bind v) := fun v => (frame_tr s _).mono (by decide)
  clear_value bind
  split
  · split
    · exact .refl _ s
    · split
      · exact .refl _ s
      · exact hbind _
  · split
    · exact .refl _ s
    · split
      · exact .refl _ s
      · split
        · dsimp only [OutRes.afterFrom]
          exact (hbind _).trans (reach_of (core_modCore _))
        · exact hbind _

/-- An operation on a window of the host. -/
theorem reach_hwindowOp (a : Long) : Touches reachRegs s ((hwindowOp l a s).afterFrom s) := by
  unfold hwindowOp
  extract_lets addr
  split
  · exact .refl _ s
  · split <;> exact .refl _ s
  · split
    · exact .refl _ s
    next p _ =>
      split
      · exact .refl _ s
      · split
        · exact .refl _ s
        · split
          · exact .refl _ s
          · exact .refl _ s
          · exact reach_askMissing _ _ _
          · extract_lets v
            have hv : Touches reachRegs s v := reach_partSeen _ _ _ _
            split
            · exact hv.trans (reach_hwindowDo _ _)
            · exact .refl _ s

/-! ### The fourth attempt -/

theorem reach_performOut : Touches reachRegs s (performOut coreEnv l e s) := by
  unfold performOut
  extract_lets keep v out
  have hkeep : ∀ cc v, Touches reachRegs v (keep cc v) := fun _ _ => reach_of (core_modCore _)
  have hv : Touches reachRegs s v := reach_of (core_of traffic_drainSystem)
  have hout : ∀ r : State → OutRes, (∀ v, Touches reachRegs v ((r v).afterFrom v)) → Touches reachRegs s (out r) := fun r hr => by
    unfold out
    clear_value v
    split
    · exact hv
    · have hgo := hv.trans (hr v)
      generalize r v = x at *
      cases x with
      | done cc w => exact hgo.trans (hkeep cc w)
      | pgm code addr => exact hv
      | poison real => exact hv
      | wait w => exact hgo
  clear_value keep v out
  split
  · have hask := reach_of (core_askReads (l := l) e.reads.length e.reads s)
    generalize askReads l e.reads.length e.reads s = r at *
    cases r with
    | ok a v => exact hask
    | pgm p xi v => exact .refl _ s
    | poison x v => exact .refl _ s
    | wait v => exact hask
  · split
    next a _ =>
      split
      · have hheld := reach_of (core_heldAtom (s := s) (l := l) a 1 (replaced l [.atom a] s))
        generalize heldGo coreEnv l { eff := { ops := [.atom a] }, cont := 0, count := none, repn := false, first := some 1, old := replaced l [.atom a] s } s = r at *
        cases r with
        | ok b v => exact hheld
        | pgm p xi v => exact .refl _ s
        | poison x v => exact .refl _ s
        | wait v => exact hheld
      · exact .refl _ s
    · split
      · split
        · exact (reach_of (core_doSignal _ _ _)).trans (hkeep _ _)
        · exact .refl _ s
      · exact hout _ fun v => reach_ioOp _ _ _
      · exact hout _ fun v => reach_hwindowOp _
      · exact .refl _ s

theorem reach_reachOut : Touches reachRegs s (reachOut coreEnv l s) := by
  unfold reachOut
  extract_lets b v c
  have hv : Touches reachRegs s v := reach_of (core_free _)
  clear_value v
  split
  · exact hv
  · refine hv.trans ?_
    have hops := reach_of (core_opsAt (s := v) (l := l))
    generalize opsAt l v = r at *
    cases r with
    | pgm p xi w => exact .refl _ v
    | poison x w => exact .refl _ v
    | wait w => exact hops
    | ok q w =>
      obtain ⟨ops, ga, next⟩ := q
      have hw : Touches reachRegs v w := hops
      refine hw.trans ?_
      dsimp only
      split
      · exact .refl _ w
      · have heval := reach_of (core_evalOps (l := l) (c := c) ga next ops {} w)
        generalize evalOps coreEnv l c ga next ops {} w = r at *
        cases r with
        | pgm p xi x => exact .refl _ w
        | poison y x => exact .refl _ w
        | wait x => exact heval
        | ok e x =>
          have hx : Touches reachRegs w x := heval
          refine hx.trans ?_
          have hcheck := reach_of (core_outCheck (s := x) (l := l) e)
          dsimp only
          generalize outCheck coreEnv l e x = r at *
          cases r with
          | ok u y => exact Touches.trans hcheck reach_performOut
          | pgm p xi y => exact .refl _ x
          | poison z y => exact .refl _ x
          | wait y => exact hcheck

theorem reach_dropBadTlb : Touches reachRegs s (dropBadTlb l s) := by
  unfold dropBadTlb
  extract_lets c ts r
  have hr : Touches reachRegs s r.2 := reach_of (core_free _)
  clear_value r
  split
  · exact hr.trans (reach_of (core_modCore _))
  · exact hr

end

end Sys2Proof.Machine
end


section
set_option Elab.async false
/-! PROOFS. O30: a group of one A operation commits; a group whose fourth attempt fails is a hard error. -/

namespace Sys2Proof.Machine

section
variable {s t u : State} {l : Nat}

/-! ### The fourth attempt -/

/-- The state in which the attempts of a group are over. -/
def attemptsOver (l : Nat) (s : State) : State :=
  let v := reachOut coreEnv l (dropBadTlb l s)
  if (coreOf l v).attempts = 0 then v else modCore l (fun c => { c with attempts := 0 }) v

theorem reach_attemptsOver : Touches reachRegs s (attemptsOver l s) := by
  unfold attemptsOver
  extract_lets v
  have hv : Touches reachRegs s v := reach_dropBadTlb.trans reach_reachOut
  exact hv.trans (touches_ite (fun _ => .refl _ v) fun _ => reach_of (core_modCore _))

theorem issueGroup_failed {failed : Nat} (hf : 4 ≤ failed) : issueGroup l failed s = hardTrigger l .hard (attemptsOver l s) := by
  have hdrop : (if failed = 0 then s else dropBadTlb l s) = dropBadTlb l s := if_neg (by omega)
  unfold issueGroup
  rw [hdrop]
  exact if_pos (Nat.le_trans hf (Nat.le_add_left _ _))

theorem exec_issueGroup (h : coreLive l s = true) (failed : Nat) : exec (.issueGroup l failed) s = donePoll s (issueGroup l failed s) := if_pos h

theorem exec_failedGroup (hs : Safety.settled s) (hg : Safety.graceful s) (hlive : coreLive l s = true) (hq : s.mq.queue = []) {failed : Nat} (hf : 4 ≤ failed) :
    (spareFree (l / 16) s = true → ∃ t, exec (.issueGroup l failed) s = .next t ∧ recState l t = 1 ∧ recastIn (l / 16) t = some ⟨l, .hard, false⟩) ∧
    (spareFree (l / 16) s = false → ∃ t, exec (.issueGroup l failed) s = .next t ∧ inService l t = false) := by
  have hover : Touches reachRegs s (attemptsOver l s) := reach_attemptsOver
  have hkeeps : Keeps s (attemptsOver l s) := hover .keeps (by decide)
  have hcalm : Calm (attemptsOver l s) := Calm.of_keeps ⟨hs, hg, hq⟩ hkeeps
  have hin : inService l s = true := by
    unfold coreLive at hlive
    simp only [Bool.and_eq_true, beq_iff_eq] at hlive
    obtain ⟨⟨⟨-, hrec⟩, hlose⟩, -⟩ := hlive
    simp [inService, recState, hrec, hlose]
  have hin' : inService l (attemptsOver l s) = true := by
    rw [← hin]
    simp only [inService, recState_of_keeps hkeeps, (hkeeps.core l).losing]
  rw [exec_issueGroup hlive, issueGroup_failed hf]
  refine ⟨fun hfree => ?_, fun _ => donePoll_hardTrigger s hcalm hin' .hard⟩
  have hfree' : spareFree (l / 16) (attemptsOver l s) = true := by
    rw [spareFree_iff, spareState_of_regs hkeeps.regs, recastIn_of_regs hkeeps.regs]
    exact (spareFree_iff _ _).1 hfree
  rw [hardTrigger_of_spare hin' (by decide) hfree']
  exact donePoll_beginRecast s hcalm l .hard false

/-! ### A group of one A operation -/

/-- Where no condition waits, none of the conditions that are always enabled does. -/
theorem nothingTaken (h : firstCond l s = none) : (coreOf l s).exig = [] ∧ (coreOf l s).svc = none ∧ (coreOf l s).pgm = none := by
  unfold firstCond at h
  dsimp only at h
  split at h
  · exact absurd h (by simp)
  next hexig =>
    split at h
    · exact absurd h (by simp)
    next hsvc =>
      split at h
      · exact absurd h (by simp)
      next hpgm => exact ⟨hexig, hsvc, hpgm⟩

/-- A running core with nothing to take runs its group to the boundary. -/
theorem issueOne_running {w : State} (hh : coreHeld l s = false) (hr : (coreOf l s).run = .running) (hc : condPending l s = false) (hb : begun (coreOf l s) = false)
    (hrun : runGroup coreEnv l s = .ok () w) (hhw : coreHeld l w = false) (hsvc : (coreOf l w).svc = none) (hpgm : (coreOf l w).pgm = none) (hexig : (coreOf l w).exig = []) :
    issueOne coreEnv l s = (w, .ended) := by
  have hfirst : firstCond l s = none := by simpa [condPending] using hc
  have htake : ∀ n, takeConds l n s = s := fun n => by
    cases n with
    | zero => rfl
    | succ n => rw [takeConds, hfirst]
  have hresume : resumeIfDue l s = s := by
    unfold resumeIfDue
    dsimp only
    rw [hr]
  have hboundary : runBoundary coreEnv l s = (w, .ended) := by
    unfold runBoundary
    rw [hrun]
    dsimp only [settleGroup]
    rw [if_neg (by decide), if_neg (by simp [hhw]), if_neg (by simp [hsvc, hpgm, hexig])]
  have hstate : (if begun (coreOf l s) then s else takeConds l (condBound l s) s) = s := (if_neg (by simp [hb])).trans (htake _)
  unfold issueOne
  dsimp only
  rw [if_neg (by simp [hh]), hresume, hstate, if_neg (by simp [hr]), if_neg (by simp [hc])]
  exact hboundary

theorem mem_tdel {α : Type} {k : Nat} {x : Nat × α} : ∀ {t : Tab α}, x ∈ tdel k t → x ∈ t
  | [], h => h
  | (j, w) :: t, h => by
    rw [tdel] at h
    split at h
    · exact List.mem_cons_of_mem _ (mem_tdel h)
    · exact (List.mem_cons.1 h).elim (fun e => e ▸ List.mem_cons_self) fun h => List.mem_cons_of_mem _ (mem_tdel h)

theorem mem_tins {α : Type} {v : α} {k : Nat} {x : Nat × α} : ∀ {t : Tab α}, x ∈ tins k v t → x = (k, v) ∨ x ∈ t
  | [], h => .inl (List.mem_singleton.1 h)
  | (j, w) :: t, h => by
    rw [tins] at h
    split at h
    · exact List.mem_cons.1 h
    · split at h
      · exact (List.mem_cons.1 h).imp_right (List.mem_cons_of_mem _)
      · rcases List.mem_cons.1 h with h | h
        · exact .inr (h ▸ List.mem_cons_self)
        · exact (mem_tins h).imp_right (List.mem_cons_of_mem _)

/-- An entry of a table after a write is the written one or one of before. -/
theorem mem_tset {α : Type} [DecidableEq α] {d v : α} {k : Nat} {x : Nat × α} {t : Tab α} (h : x ∈ tset d k v t) : x = (k, v) ∨ x ∈ t := by
  unfold tset at h
  split at h
  · exact .inr (mem_tdel h)
  · exact mem_tins h

theorem mqWait_modCore {f : Core → Core} (h : ∀ e ∈ s.cpu.core, e.2.mqWait = none) (hf : (f (coreOf l s)).mqWait = none) : ∀ e ∈ (modCore l f s).cpu.core, e.2.mqWait = none := fun e he => by
  rcases mem_tset he with rfl | he
  · exact hf
  · exact h e he

theorem mqWait_coreOf (h : ∀ e ∈ s.cpu.core, e.2.mqWait = none) (k : Nat) : (coreOf k s).mqWait = none := by
  by_cases hd : coreOf k s = {}
  · rw [hd]
  · exact h _ (mem_of_tget (d := ({} : Core)) rfl hd)

/-- A change of a core that leaves what a session waits for. -/
theorem monitorIdle_modCore {f : Core → Core} (h : Safety.monitorIdle s) (hf : (f (coreOf l s)).mqWait = (coreOf l s).mqWait) : Safety.monitorIdle (modCore l f s) := by
  obtain ⟨⟨hwait, -, hq⟩, -⟩ := monitorStill_of_idle h
  refine ⟨?_, hq⟩
  have hcores : ∀ u : State, (∀ e ∈ u.cpu.core, e.2.mqWait = none) → u.cpu.core.any (fun e => e.2.mqWait.isSome) = false := fun u hu => by
    rw [List.any_eq_false]
    exact fun e he => by simp [hu e he]
  have hb := h.1
  unfold mqBusy at hb ⊢
  rw [hcores s hwait] at hb
  rw [hcores _ (mqWait_modCore hwait (hf.trans (mqWait_coreOf hwait l)))]
  exact hb

/-- A commit of one A operation leaves what the monitor waits for. -/
theorem monitorIdle_aluCommitted {s1 : State} {f : Fetched} {op : AluOp} {cc : Bool} {rd ra : Nat} {b : Src} (h : Safety.monitorIdle s1)
    (ho : (cc && (aluResult op (getG (coreOf l s1) ra) (srcVal (coreOf l s1) b)).2 && tswFom (coreOf l s1)) = false) :
    Safety.monitorIdle (aluCommitted l f op cc rd ra b (groupBegun l f s1 s)) := by
  have hbegun : coreOf l (groupBegun l f s1 s) = { coreOf l s1 with code := some (f.toRep (coreOf l s).pc.toNat 0 false) } := (coreOf_modCore ..).trans (if_pos rfl)
  have hbegan : Safety.monitorIdle (groupBegun l f s1 s) := monitorIdle_modCore h rfl
  refine monitorIdle_modCore (monitorIdle_modCore (f := ucEmptied) hbegan rfl) ?_
  have hempty : coreOf l (modCore l ucEmptied (groupBegun l f s1 s)) = ucEmptied (coreOf l (groupBegun l f s1 s)) := (coreOf_modCore ..).trans (if_pos rfl)
  rw [hempty, hbegun]
  have hdone : AluDone op cc rd ra b f.next (ucEmptied { coreOf l s1 with code := some (f.toRep (coreOf l s).pc.toNat 0 false) })
      (endRegs (aluHeld (aluEff op cc rd ra b (coreOf l s1)) f.next) (ucEmptied { coreOf l s1 with code := some (f.toRep (coreOf l s).pc.toNat 0 false) })) := endRegs_alu ho
  exact (congrArg Core.mqWait hdone.core :)

theorem exec_aluGroup {s1 : State} {f : Fetched} {op : AluOp} {cc : Bool} {rd ra : Nat} {b : Src} (hs : Safety.settled s) (hlive : coreLive l s = true)
    (hheld : coreHeld l s = false) (hrun : (coreOf l s).run = .running) (hcond : condPending l s = false) (hmid : midGroup (coreOf l s) = false) (hrep : (coreOf l s).rep = none)
    (hatt : (coreOf l s).attempts = 0) (hbusy : mqBusy s1 = false) (hq : s.mq.queue = []) (hsb : sbCount (coreOf l s).sb ≤ 48)
    (hfetch : fetchGroup l (coreOf l s).pc.toNat s = .ok f s1) (hs1 : s1 = { s with cpu := s1.cpu, sto := s1.sto, free := s1.free })
    (hcore1 : coreOf l s1 = { coreOf l s with l1i := (coreOf l s1).l1i, l1d := (coreOf l s1).l1d, l2 := (coreOf l s1).l2, dtlb := (coreOf l s1).dtlb, itlb := (coreOf l s1).itlb, tlb2 := (coreOf l s1).tlb2, walk := (coreOf l s1).walk })
    (hdec : decodeGroup f.raw f.stop = .ops [.alu op cc rd ra b])
    (ho : (cc && (aluResult op (getG (coreOf l s) ra) (srcVal (coreOf l s) b)).2 && tswFom (coreOf l s)) = false) :
    ∃ t, exec (.issueGroup l 0) s = .next t ∧ OnlyCores s1 t ∧ AluDone op cc rd ra b f.next (coreOf l s1) (coreOf l t) ∧ ∀ k, k ≠ l → coreOf k t = coreOf k s1 := by
  have hg1 : (coreOf l s1).g = (coreOf l s).g := by rw [hcore1]
  have htsw1 : (coreOf l s1).tsw = (coreOf l s).tsw := by rw [hcore1]
  have ho1 : (cc && (aluResult op (getG (coreOf l s1) ra) (srcVal (coreOf l s1) b)).2 && tswFom (coreOf l s1)) = false := by
    simpa only [getG_of_g hg1, srcVal_of_g hg1, tswFom, htsw1] using ho
  have hmids := hmid
  simp only [midGroup, Bool.or_eq_false_iff, Option.isSome_eq_false_iff, Option.isNone_iff_eq_none] at hmids
  obtain ⟨⟨⟨⟨⟨hrepn, hholds⟩, hio⟩, huc⟩, hatom⟩, hpart⟩ := hmids
  have hbegun : begun (coreOf l s) = false := by simp [begun, hholds, hio, huc, hatom, hpart]
  have hgroup := runGroup_alu (op := op) (cc := cc) (rd := rd) (ra := ra) (b := b) hmid hrep (by rw [hcore1]; exact hpart) (by rw [hcore1]; exact hsb) hfetch hdec ?_
  · obtain ⟨honly, hdone, hothers⟩ := aluCommitted_spec (l := l) (s := s) (s1 := s1) (f := f) (op := op) (cc := cc) (rd := rd) (ra := ra) (b := b) ho1
    have hidle1 : Safety.monitorIdle s1 := ⟨hbusy, by rw [hs1]; exact hq⟩
    have hidle : Safety.monitorIdle (aluCommitted l f op cc rd ra b (groupBegun l f s1 s)) := monitorIdle_aluCommitted hidle1 ho1
    generalize aluCommitted l f op cc rd ra b (groupBegun l f s1 s) = w at *
    have hpend : firstCond l s = none := by simpa [condPending] using hcond
    have hheldw : coreHeld l w = false := by
      have hmq : (coreOf l w).mqHalt = (coreOf l s).mqHalt := by rw [hdone.core, hcore1]
      have hpln : w.pln = s.pln := by
        obtain ⟨y, rfl⟩ := honly
        rw [hs1]
      rw [← hheld]
      simp only [coreHeld, partOfCore, partIds, partOf, pstateOf, hmq, hpln]
    have hclear := nothingTaken hpend
    have hissue : issueOne coreEnv l s = (w, .ended) := by
      obtain ⟨hexig, hsvc, hpgm⟩ := hclear
      refine issueOne_running hheld hrun hcond hbegun hgroup hheldw ?_ ?_ ?_ <;> rw [hdone.core, hcore1]
      · exact hsvc
      · exact hpgm
      · exact hexig
    have hgo : issueGroup l 0 s = w := by
      unfold issueGroup
      dsimp only
      rw [hatt, if_pos rfl, hissue]
      rfl
    refine ⟨w, ?_, honly, hdone, hothers⟩
    rw [exec_issueGroup hlive, hgo, donePoll, mqPoll_idle hidle]
    have hfetched := frame_fetched (s := s) s1.cpu s1.sto s1.free
    rw [← hs1] at hfetched
    obtain ⟨y, rfl⟩ := honly
    exact done_framed (hfetched.trans ((frame_cpu s1 _).mono (by decide))) hs
  · have hcode : coreOf l (groupBegun l f s1 s) = { coreOf l s1 with code := some (f.toRep (coreOf l s).pc.toNat 0 false) } := (coreOf_modCore ..).trans (if_pos rfl)
    rw [hcode]
    exact ho1

end

/-- Settles O30. -/
theorem groupOfOneIntegerOperationCommits : Obligations.GroupOfOneIntegerOperationCommits := by
  refine ⟨fun l s s1 f op cc rd ra b hs hlive hheld hrun hcond hmid hrep hatt _ hbusy hq hsb hfetch hs1 hcore1 hdec ho => ?_,
    fun l failed s hs hg hlive hq hf => exec_failedGroup hs hg hlive hq hf⟩
  obtain ⟨t, hexec, honly, ⟨hcore, hg, htsw⟩, hothers⟩ := exec_aluGroup hs hlive hheld hrun hcond hmid hrep hatt hbusy hq hsb hfetch hs1 hcore1 hdec ho
  have hg1 : (coreOf l s1).g = (coreOf l s).g := by rw [hcore1]
  have htsw1 : (coreOf l s1).tsw = (coreOf l s).tsw := by rw [hcore1]
  have hmod : t.tor = s.tor ∧ t.flt = s.flt ∧ t.pln = s.pln ∧ t.sto = s1.sto := by
    obtain ⟨y, rfl⟩ := honly
    exact ⟨by rw [hs1], by rw [hs1], by rw [hs1], rfl⟩
  obtain ⟨htor, hflt, hpln, hsto⟩ := hmod
  refine ⟨t, hexec, (congrArg Core.pc hcore :), fun n => ?_, ?_, ?_, ?_, ?_, ?_, ?_, ?_, hothers, hsto, htor, hflt, hpln⟩
  · rw [← srcVal_of_g hg1, ← getG_of_g hg1, ← getG_of_g hg1]
    exact hg n
  · rw [htsw, htsw1, srcVal_of_g hg1, getG_of_g hg1]
  all_goals rw [hcore, hcore1]
  exact hrun

end Sys2Proof.Machine
end


section
set_option Elab.async false
/-! PROOFS. O49: a Rasp engine takes a job. -/

namespace Sys2Proof.Machine

section
variable {s t u w : State} {k i q p : Nat} {j : RaspJob} {r : LineReq}

theorem raspOf_setRasp_same (k : Nat) (v : RaspEng) (s : State) : raspOf k (setRasp k v s) = v := tget_tset_same ({} : RaspEng) k v s.eng.rasp

theorem raspOf_setRasp_other {m : Nat} (h : m ≠ k) (v : RaspEng) (s : State) : raspOf m (setRasp k v s) = raspOf m s := tget_tset_ne ({} : RaspEng) v s.eng.rasp h

theorem raspOf_of_eng (h : t.eng = s.eng) (k : Nat) : raspOf k t = raspOf k s := by rw [raspOf, raspOf, h]

theorem rq_of_eng (h : t.eng = s.eng) (q : Nat) : queueOf .rasp q t = queueOf .rasp q s := by simp only [queueOf, h]

/-- What loading a job and reading its input touch. -/
def loadRegs : List FrameReg := .eng :: trafficRegs

/-! ### Loading a job -/

/-- The job `j` of an engine is loaded, from the state `s`. -/
def loadedJob (j : RaspJob) (s : State) : RaspJob :=
  { j with ctx := (partRead (jobAgent .rasp j.queue j.line) j.part (raspAreas j).2.1 (raspAreas j).2.2 s).1,
           input := if j.line.isSome then j.input else (partRead (jobAgent .rasp j.queue j.line) j.part (raspAreas j).1.1 (raspAreas j).1.2 s).1,
           bad := partBad (jobAgent .rasp j.queue j.line) j.part (raspAreas j).1.1 (raspAreas j).1.2 s,
           early := if j.early.isNone && (partRead (jobAgent .rasp j.queue j.line) j.part (raspAreas j).2.1 (raspAreas j).2.2 s).2 then some 4 else j.early,
           loaded := true }

/-- The bytes that the job reads have been read. -/
def jobSeen (j : RaspJob) (s : State) : State :=
  partSeen (jobAgent .rasp j.queue j.line) j.part (raspAreas j).2.1 (raspAreas j).2.2
    (partSeen (jobAgent .rasp j.queue j.line) j.part (raspAreas j).1.1 (raspAreas j).1.2 s)

theorem traffic_jobSeen : Touches trafficRegs s (jobSeen j s) := traffic_partSeen.trans traffic_partSeen

theorem raspLoad_reads (hj : (raspOf k s).job = some j) (hl : j.loaded = false)
    (hin : partMissing (jobAgent .rasp j.queue j.line) j.part (raspAreas j).1.1 (raspAreas j).1.2 s = [])
    (hctx : partMissing (jobAgent .rasp j.queue j.line) j.part (raspAreas j).2.1 (raspAreas j).2.2 s = []) :
    raspLoad k s = setRasp k { raspOf k s with job := some (loadedJob j s) } (jobSeen j s) := by
  simp only [raspLoad, hj, hl, hin, hctx]
  rfl

theorem raspLoad_asks (hj : (raspOf k s).job = some j) (hl : j.loaded = false)
    (hmiss : ¬ (partMissing (jobAgent .rasp j.queue j.line) j.part (raspAreas j).1.1 (raspAreas j).1.2 s = [] ∧
      partMissing (jobAgent .rasp j.queue j.line) j.part (raspAreas j).2.1 (raspAreas j).2.2 s = [])) :
    Touches msgRegs s (raspLoad k s) := by
  have hne : (partMissing (jobAgent .rasp j.queue j.line) j.part (raspAreas j).1.1 (raspAreas j).1.2 s ++
      partMissing (jobAgent .rasp j.queue j.line) j.part (raspAreas j).2.1 (raspAreas j).2.2 s).isEmpty = false := by
    rwa [List.isEmpty_eq_false_iff, ne_eq, List.append_eq_nil_iff]
  simp only [raspLoad, hj, hl, hne]
  exact frame_askMissing

/-- The engines, but for the Rasp engines themselves. -/
def besideRasp (s : State) : Engines := { s.eng with rasp := [] }

/-- The job is the engine's, loaded or not, and nothing else of the engines has changed. -/
structure RaspHas (k : Nat) (j : RaspJob) (s t : State) : Prop where
  own : raspOf k t = { raspOf k s with job := some j }
  other : ∀ m, m ≠ k → raspOf m t = raspOf m s
  beside : besideRasp t = besideRasp s
  frame : Touches loadRegs s t

theorem RaspHas.queue (h : RaspHas k j s t) (q : Nat) : queueOf .rasp q t = queueOf .rasp q s := congrArg (tget ({} : Queue) q) (congrArg Engines.rq h.beside :)

theorem RaspHas.opOf (h : RaspHas k j s t) (i : Nat) : opOf i t = opOf i s := by rw [Machine.opOf, Machine.opOf, h.frame .ch (by decide)]

theorem raspHas_setRasp (hf : Touches loadRegs s t) (heng : t.eng = s.eng) : RaspHas k j s (setRasp k { raspOf k s with job := some j } t) :=
  ⟨raspOf_setRasp_same .., fun m hm => (raspOf_setRasp_other hm _ t).trans (raspOf_of_eng heng m), congrArg (fun e : Engines => { e with rasp := [] }) heng,
    hf.trans ((frame_eng t _).mono (by decide))⟩

theorem RaspHas.andThen (h : RaspHas k j s t) (ht : Touches trafficRegs t u) : RaspHas k j s u :=
  have heng : u.eng = t.eng := ht .eng (by decide)
  ⟨(raspOf_of_eng heng k).trans h.own, fun m hm => (raspOf_of_eng heng m).trans (h.other m hm),
    (congrArg (fun e : Engines => { e with rasp := [] }) heng).trans h.beside, h.frame.trans (ht.mono (by decide))⟩

/-- Where nothing of its bytes is away, the job is loaded at once. -/
theorem raspBegin_reads (hl : j.loaded = false)
    (hin : partMissing (jobAgent .rasp j.queue j.line) j.part (raspAreas j).1.1 (raspAreas j).1.2 s = [])
    (hctx : partMissing (jobAgent .rasp j.queue j.line) j.part (raspAreas j).2.1 (raspAreas j).2.2 s = []) :
    raspBegin k j s = setRasp k { raspOf k s with job := some (loadedJob j s) } (jobSeen j (setRasp k { raspOf k s with job := some j } s)) := by
  refine (raspLoad_reads (s := setRasp k { raspOf k s with job := some j } s) (by rw [raspOf_setRasp_same]) hl hin hctx).trans ?_
  rw [raspOf_setRasp_same]
  rfl

theorem raspBegin_loads (hl : j.loaded = false)
    (hin : partMissing (jobAgent .rasp j.queue j.line) j.part (raspAreas j).1.1 (raspAreas j).1.2 s = [])
    (hctx : partMissing (jobAgent .rasp j.queue j.line) j.part (raspAreas j).2.1 (raspAreas j).2.2 s = []) :
    RaspHas k (loadedJob j s) s (raspBegin k j s) ∧ (Clean s → Unwritten s (raspBegin k j s)) := by
  rw [raspBegin_reads hl hin hctx]
  have hset : RaspHas k j s (setRasp k { raspOf k s with job := some j } s) := raspHas_setRasp (.refl _ s) rfl
  have hseen := hset.andThen (traffic_jobSeen (j := j))
  refine ⟨⟨raspOf_setRasp_same .., fun m hm => (raspOf_setRasp_other hm _ _).trans (hseen.other m hm), hseen.beside,
    hseen.frame.trans ((frame_eng _ _).mono (by decide))⟩, fun hc => ?_⟩
  have hw : Unwritten s (setRasp k { raspOf k s with job := some j } s) := unwritten_of_cpu hc rfl rfl rfl
  have hread := unwritten_partSeen hw.clean (jobAgent .rasp j.queue j.line) j.part (raspAreas j).1.1 (raspAreas j).1.2
  have hboth := (hw.trans hread).trans (unwritten_partSeen hread.clean (jobAgent .rasp j.queue j.line) j.part (raspAreas j).2.1 (raspAreas j).2.2)
  exact hboth.trans (unwritten_of_cpu hboth.clean rfl rfl rfl)

theorem raspBegin_has (hl : j.loaded = false) : ∃ x, (x = j ∨ x = loadedJob j s) ∧ RaspHas k x s (raspBegin k j s) := by
  by_cases hmiss : partMissing (jobAgent .rasp j.queue j.line) j.part (raspAreas j).1.1 (raspAreas j).1.2 s = [] ∧
      partMissing (jobAgent .rasp j.queue j.line) j.part (raspAreas j).2.1 (raspAreas j).2.2 s = []
  · exact ⟨loadedJob j s, .inr rfl, (raspBegin_loads hl hmiss.1 hmiss.2).1⟩
  · have hset : RaspHas k j s (setRasp k { raspOf k s with job := some j } s) := raspHas_setRasp (.refl _ s) rfl
    have hask := raspLoad_asks (s := setRasp k { raspOf k s with job := some j } s) (by rw [raspOf_setRasp_same]) hl hmiss
    exact ⟨j, .inl rfl, hset.andThen (hask.mono (by decide))⟩

/-! ### Work in line -/

theorem raspTake_line (ho : operating s = true) (hk : k < 8) (hf : (raspOf k s).failed = false) (hj : (raspOf k s).job = none) (hn : raspLineNext k s = some (i, r))
    (want : Nat → Bool) : raspTake k want s = if want (if r.back then 2 else 1) then raspTakeLine k i r s else s := by
  have hidle : raspIdle k s = true := by simp [raspIdle, ho, hk, hf, hj]
  simp only [raspTake, hidle, hn]
  rfl

/-- Each queue counts one job in line that is served before it. -/
def queuesWait (s : State) : State := { s with eng := { s.eng with rq := inlineCount s.eng.rq } }

/-- The job that the work in line of an operation makes. -/
def jobInLine (i : Nat) (r : LineReq) (o : ChOp) (s : State) : RaspJob :=
  { queue := noQueue, part := (jent i s).part, desc := raspLineDesc r.back o.blk.raspProfile o.blk.raspCtx r.input.length, input := r.input,
    early := if o.blk.raspCtx % 128 ≠ 0 ∨ (r.back ∧ (bits o.blk.raspProfile 12 11 = 1 ∨ bits o.blk.raspProfile 12 11 = 2)) then some 2
             else if !partMapped (jent i s).part o.blk.raspCtx (if o.blk.raspCtx = 0 then 0 else ctxLen) s then some 3 else none,
    line := some i, space := if r.back then o.cur.map (·.count) else none }

/-- The operation whose work in line the engine `k` does. -/
def servedBy (k : Nat) (r : LineReq) (o : ChOp) : ChOp := { o with line := some { r with engine := some k, input := [] } }

/-- Work in line that is taken: the operation knows its engine, which has the job. -/
theorem raspTakeLine_eq {o : ChOp} (hop : opOf i s = some o) (hline : o.line = some r) :
    raspTakeLine k i r s = raspBegin k (jobInLine i r o s) (setOp i (some (servedBy k r o)) (queuesWait s)) := by
  have htaken : lineTaken i k (queuesWait s) = setOp i (some (servedBy k r o)) (queuesWait s) := by
    rw [lineTaken, modOp_eq (s := queuesWait s) hop, hline]
    rfl
  rw [← htaken]
  simp only [raspTakeLine, hop]
  rfl

theorem raspTakeLine_spec {o : ChOp} (hop : opOf i s = some o) (hline : o.line = some r) :
    ∃ x, x.line = some i ∧ x.part = (jent i s).part ∧ x.input = r.input ∧ RaspHas k x (setOp i (some (servedBy k r o)) (queuesWait s)) (raspTakeLine k i r s) := by
  rw [raspTakeLine_eq hop hline]
  obtain ⟨x, hx, hhas⟩ := raspBegin_has (k := k) (s := setOp i (some (servedBy k r o)) (queuesWait s)) (j := jobInLine i r o s) rfl
  obtain rfl | rfl := hx
  all_goals exact ⟨_, rfl, rfl, rfl, hhas⟩

theorem raspLine_taken {o : ChOp} (ho : operating s = true) (hk : k < 8) (hf : (raspOf k s).failed = false) (hj : (raspOf k s).job = none)
    (hn : raspLineNext k s = some (i, r)) (hop : opOf i s = some o) (hline : o.line = some r) :
    (exec (if r.back then .compress k else .decompress k) s = .next (settle s (chWakeAll s))) ∧
    ∃ t u j, exec (if r.back then .decompress k else .compress k) s = .next t ∧ t = settle s (chWakeAll u) ∧ (raspOf k u).job = some j ∧
      j.line = some i ∧ j.part = (jent i s).part ∧ j.input = r.input ∧ opOf i u = some { o with line := some { r with engine := some k, input := [] } } ∧
      (∀ m, m ≠ k → raspOf m u = raspOf m s) ∧ u.eng.inta = s.eng.inta ∧ u.jnl = s.jnl := by
  have htake := raspTake_line ho hk hf hj hn
  constructor
  · cases hb : r.back
    · exact congrArg (fun w => done s (chWakeAll w)) ((htake fun op => op == 2).trans (by rw [hb]; rfl))
    · exact congrArg (fun w => done s (chWakeAll w)) ((htake fun op => op != 2).trans (by rw [hb]; rfl))
  · obtain ⟨x, hx, hpart, hinput, hhas⟩ := raspTakeLine_spec (k := k) hop hline
    refine ⟨_, raspTakeLine k i r s, x, ?_, rfl, congrArg RaspEng.job hhas.own, hx, hpart, hinput, (hhas.opOf i).trans (opOf_setOp_same ..), fun m hm => hhas.other m hm,
      (congrArg Engines.inta hhas.beside :), hhas.frame .jnl (by decide)⟩
    cases hb : r.back
    · exact congrArg (fun w => done s (chWakeAll w)) ((htake fun op => op != 2).trans (by rw [hb]; rfl))
    · exact congrArg (fun w => done s (chWakeAll w)) ((htake fun op => op == 2).trans (by rw [hb]; rfl))

/-! ### The job at HEAD of a queue -/

/-- The areas of the descriptor lie in storage of the partition. -/
def areasMapped (q p : Nat) (d : List Byte) (s : State) : Bool :=
  jobMapped q p (natAt d 8 8) (natAt d 4 4) s && jobMapped q p (natAt d 0x10 8) (natAt d 0x18 4) s && jobMapped q p (natAt d 0x20 8) (if natAt d 0x20 8 = 0 then 0 else ctxLen) s

/-- The job of the descriptor at HEAD of a queue. -/
def jobAtHead (q p : Nat) (d : List Byte) (s : State) : RaspJob :=
  { queue := q, part := p, desc := d, early := if raspParamBad d then some 2 else if !areasMapped q p d s then some 3 else none, space := some (natAt d 0x18 4) }

/-- The descriptor is taken, and the queue after it is served next. -/
def raspTook (q : Nat) (s : State) : State := { tookDesc .rasp q s with eng := { (tookDesc .rasp q s).eng with rNext := (q + 1) % 256 } }

theorem raspTake_queue {d : List Byte} (ho : operating s = true) (hk : k < 8) (hf : (raspOf k s).failed = false) (hj : (raspOf k s).job = none)
    (hn : raspLineNext k s = none) (hask : askDescs .rasp s = s) (hq : nextQueue .rasp s.eng.rNext (fun q => descHere .rasp q s) s = some q)
    (hp : queuePart .rasp q s = some p) (hd : takeDesc .rasp q s = .desc d) (want : Nat → Bool) :
    raspTake k want s = if want (natAt d 0 1) then raspBegin k (jobAtHead q p d s) (raspTook q s) else s := by
  have hidle : raspIdle k s = true := by simp [raspIdle, ho, hk, hf, hj]
  simp only [raspTake, hidle, hn, hask, hq, hp, hd]
  cases want (natAt d 0 1) <;> rfl

theorem traffic_descSeen {b : QBlock} : Touches trafficRegs s (descSeen b q s) := by
  unfold descSeen
  extract_lets v
  split
  · exact .refl _ s
  · split
    · exact traffic_partSeen
    · exact .refl _ s

/-- The queue whose descriptor was taken. -/
def headMoved (v : Queue) : Queue := { v with head := (v.head + 1) % 2 ^ v.size, busy := true, slot := none, behind := 0 }

theorem tookDesc_eq (b : QBlock) (q : Nat) (s : State) : tookDesc b q s = setQueue b q (headMoved (queueOf b q (descSeen b q s))) (descSeen b q s) := rfl

theorem tookDesc_spec {b : QBlock} (hb : b ≠ .mailbox) (q : Nat) (s : State) : Touches loadRegs s (tookDesc b q s) ∧
    queueOf b q (tookDesc b q s) = headMoved (queueOf b q s) ∧ ∀ j, j ≠ q → queueOf b j (tookDesc b q s) = queueOf b j s := by
  have hseen : Touches trafficRegs s (descSeen b q s) := traffic_descSeen
  have hsame : ∀ j, queueOf b j (descSeen b q s) = queueOf b j s := queueOf_same (hseen .eng (by decide)) (congrArg HostPort.mq (hseen .hp (by decide))) b
  have hset : Touches loadRegs (descSeen b q s) (tookDesc b q s) := by
    cases b with
    | rasp => exact (frame_eng (descSeen .rasp q s) (tookDesc .rasp q s).eng).mono (by decide)
    | intaglio => exact (frame_eng (descSeen .intaglio q s) (tookDesc .intaglio q s).eng).mono (by decide)
    | mailbox => exact absurd rfl hb
  refine ⟨(hseen.mono (by decide)).trans hset, (queueOf_setQueue_same b q _ _).trans (congrArg headMoved (hsame q)), fun j hj => ?_⟩
  have hne : (b, j) ≠ (b, q) := fun h => hj (congrArg Prod.snd h)
  exact (queueOf_setQueue_other hne (headMoved (queueOf b q (descSeen b q s))) (descSeen b q s)).trans (hsame j)

theorem raspTook_spec (q : Nat) (s : State) : Touches loadRegs s (raspTook q s) ∧ queueOf .rasp q (raspTook q s) = headMoved (queueOf .rasp q s) ∧
    (∀ j, j ≠ q → queueOf .rasp j (raspTook q s) = queueOf .rasp j s) ∧ (raspTook q s).eng = { s.eng with rq := (raspTook q s).eng.rq, rNext := (q + 1) % 256 } := by
  obtain ⟨hframe, hown, hother⟩ := tookDesc_spec (b := .rasp) (by decide) q s
  have heng : (descSeen .rasp q s).eng = s.eng := traffic_descSeen .eng (by decide)
  exact ⟨hframe.trans ((frame_eng _ _).mono (by decide)), hown, hother, congrArg (fun e : Engines => { e with rq := (raspTook q s).eng.rq, rNext := (q + 1) % 256 }) heng⟩

theorem partMissing_nothing (who : Agent) (p a : Nat) (s : State) : partMissing who p a 0 s = [] := rfl

theorem partRead_nothing (who : Agent) (p a : Nat) (s : State) : partRead who p a 0 s = ([], false) := rfl

theorem partBad_nothing (who : Agent) (p a : Nat) (s : State) : partBad who p a 0 s = none := rfl

/-- A job whose status is decided reads nothing. -/
theorem raspAreas_decided {c : Nat} (h : j.early = some c) : raspAreas j = ((0, 0), (0, 0)) := by simp [raspAreas, h]

theorem raspAreas_queue (h : j.early = none) (hl : j.line = none) :
    raspAreas j = ((natAt j.desc 8 8, natAt j.desc 4 4), (natAt j.desc 0x20 8, if natAt j.desc 0x20 8 = 0 then 0 else ctxLen)) := by simp [raspAreas, h, hl]

theorem loadedJob_decided {c : Nat} (h : j.early = some c) (hl : j.line = none) (s : State) :
    loadedJob j s = { j with ctx := [], input := [], bad := none, loaded := true } := by
  simp only [loadedJob, raspAreas_decided h, h, hl]
  rfl

theorem unwritten_descSeen (h : Clean s) (b : QBlock) (q : Nat) : Unwritten s (descSeen b q s) := by
  unfold descSeen
  extract_lets v
  split
  · exact .refl h
  · split
    · exact unwritten_partSeen h ..
    · exact .refl h

theorem unwritten_raspTook (h : Clean s) (q : Nat) : Unwritten s (raspTook q s) :=
  have hseen := unwritten_descSeen h .rasp q
  hseen.trans (unwritten_of_cpu hseen.clean rfl rfl rfl)

/-- What the job of a queue is once it is loaded, and what it needs for that: the three ends that taking it can have. -/
def QueueJob (q p : Nat) (d : List Byte) (s w : State) (early : Option Nat) (ctx input : List Byte) (bad : Option Nat) : Prop :=
  (raspParamBad d = true ∧ early = some 2 ∧ ctx = [] ∧ input = [] ∧ bad = none) ∨
  (raspParamBad d = false ∧ areasMapped q p d s = false ∧ early = some 3 ∧ ctx = [] ∧ input = [] ∧ bad = none) ∨
  (raspParamBad d = false ∧ areasMapped q p d s = true ∧ partMissing (.rasp q) p (natAt d 8 8) (natAt d 4 4) w = [] ∧
    partMissing (.rasp q) p (natAt d 0x20 8) (if natAt d 0x20 8 = 0 then 0 else ctxLen) w = [] ∧
    early = (if (partRead (.rasp q) p (natAt d 0x20 8) (if natAt d 0x20 8 = 0 then 0 else ctxLen) w).2 then some 4 else none) ∧
    ctx = (partRead (.rasp q) p (natAt d 0x20 8) (if natAt d 0x20 8 = 0 then 0 else ctxLen) w).1 ∧
    input = (partRead (.rasp q) p (natAt d 8 8) (natAt d 4 4) w).1 ∧ bad = partBad (.rasp q) p (natAt d 8 8) (natAt d 4 4) w)

theorem queueJob_loads {d ctx input : List Byte} {early bad : Option Nat} (h : QueueJob q p d s w early ctx input bad) :
    partMissing (.rasp q) p (raspAreas (jobAtHead q p d s)).1.1 (raspAreas (jobAtHead q p d s)).1.2 w = [] ∧
    partMissing (.rasp q) p (raspAreas (jobAtHead q p d s)).2.1 (raspAreas (jobAtHead q p d s)).2.2 w = [] ∧
    loadedJob (jobAtHead q p d s) w =
      { queue := q, part := p, desc := d, ctx := ctx, input := input, early := early, bad := bad, space := some (natAt d 0x18 4), loaded := true } := by
  have hdecided : ∀ c, (jobAtHead q p d s).early = some c → early = some c → ctx = [] → input = [] → bad = none →
      partMissing (.rasp q) p (raspAreas (jobAtHead q p d s)).1.1 (raspAreas (jobAtHead q p d s)).1.2 w = [] ∧
      partMissing (.rasp q) p (raspAreas (jobAtHead q p d s)).2.1 (raspAreas (jobAtHead q p d s)).2.2 w = [] ∧
      loadedJob (jobAtHead q p d s) w =
        { queue := q, part := p, desc := d, ctx := ctx, input := input, early := early, bad := bad, space := some (natAt d 0x18 4), loaded := true } := by
    rintro c hc rfl rfl rfl rfl
    rw [raspAreas_decided hc, loadedJob_decided hc rfl]
    exact ⟨rfl, rfl, congrArg (fun e => ({ queue := q, part := p, desc := d, early := e, space := some (natAt d 0x18 4), loaded := true } : RaspJob)) hc⟩
  obtain ⟨hparam, hearly, hctx, hinput, hbad⟩ | ⟨hparam, hmap, hearly, hctx, hinput, hbad⟩ | ⟨hparam, hmap, hin, hmiss, rfl, rfl, rfl, rfl⟩ := h
  · exact hdecided 2 (if_pos hparam) hearly hctx hinput hbad
  · exact hdecided 3 (by simp [jobAtHead, hparam, hmap]) hearly hctx hinput hbad
  · have hnone : (jobAtHead q p d s).early = none := by simp [jobAtHead, hparam, hmap]
    refine ⟨by rw [raspAreas_queue hnone rfl]; exact hin, by rw [raspAreas_queue hnone rfl]; exact hmiss, ?_⟩
    simp only [loadedJob, raspAreas_queue hnone rfl, hnone]
    rfl

theorem raspQueue_taken {d ctx input : List Byte} {early bad : Option Nat} (ho : operating s = true) (hk : k < 8) (hf : (raspOf k s).failed = false)
    (hj : (raspOf k s).job = none) (hn : raspLineNext k s = none) (hask : askDescs .rasp s = s)
    (hq : nextQueue .rasp s.eng.rNext (fun q => descHere .rasp q s) s = some q) (hp : queuePart .rasp q s = some p) (hd : takeDesc .rasp q s = .desc d)
    (hjob : QueueJob q p d s (raspTook q s) early ctx input bad) :
    ∃ t u, exec (if natAt d 0 1 = 2 then .decompress k else .compress k) s = .next t ∧ t = settle s (chWakeAll u) ∧ u.ch = s.ch ∧
      raspOf k u = { raspOf k s with job := some { queue := q, part := p, desc := d, ctx := ctx, input := input, early := early,
                                                   bad := bad, space := some (natAt d 0x18 4), loaded := true } } ∧
      (∀ j, j ≠ k → raspOf j u = raspOf j s) ∧ u.eng.rNext = (q + 1) % 256 ∧ queueOf .rasp q u = headMoved (queueOf .rasp q s) ∧
      (∀ j, j ≠ q → queueOf .rasp j u = queueOf .rasp j s) ∧ u.eng.iq = s.eng.iq ∧ u.eng.inta = s.eng.inta ∧
      (s.cpu.dirty = [] → (∀ l, (coreOf l s).held1 = [] ∧ (coreOf l s).held2 = []) → u.sto.mem = s.sto.mem ∧ u.sto.poison = s.sto.poison) := by
  obtain ⟨hin, hctx, hloaded⟩ := queueJob_loads hjob
  obtain ⟨hframe, hown, hother, heng⟩ := raspTook_spec q s
  obtain ⟨hhas, hmem⟩ := raspBegin_loads (k := k) (j := jobAtHead q p d s) (s := raspTook q s) rfl hin hctx
  have hrasp : ∀ m, raspOf m (raspTook q s) = raspOf m s := fun m => congrArg (tget ({} : RaspEng) m) (congrArg Engines.rasp heng :)
  refine ⟨_, raspBegin k (jobAtHead q p d s) (raspTook q s), ?_, rfl, ?_, ?_, fun j hj => (hhas.other j hj).trans (hrasp j), ?_, (hhas.queue q).trans hown,
    fun j hj => (hhas.queue j).trans (hother j hj), ?_, ?_, fun hdirty hheld => ?_⟩
  · have htake := raspTake_queue ho hk hf hj hn hask hq hp hd
    by_cases h2 : natAt d 0 1 = 2
    · rw [if_pos h2]
      exact congrArg (fun w => done s (chWakeAll w)) ((htake fun op => op == 2).trans (if_pos (by simp [h2])))
    · rw [if_neg h2]
      exact congrArg (fun w => done s (chWakeAll w)) ((htake fun op => op != 2).trans (if_pos (by simp [h2])))
  · exact (hhas.frame .ch (by decide)).trans (hframe .ch (by decide))
  · rw [hhas.own, hloaded, hrasp]
  · exact (congrArg Engines.rNext hhas.beside :).trans (congrArg Engines.rNext heng :)
  · exact (congrArg Engines.iq hhas.beside :).trans (congrArg Engines.iq heng :)
  · exact (congrArg Engines.inta hhas.beside :).trans (congrArg Engines.inta heng :)
  · have htook := unwritten_raspTook ⟨hdirty, hheld⟩ q
    have hall := htook.trans (hmem htook.clean)
    exact ⟨hall.mem, hall.poison⟩

theorem raspQueue_left {d : List Byte} (hs : Safety.settled s) (ho : operating s = true) (hk : k < 8) (hf : (raspOf k s).failed = false)
    (hj : (raspOf k s).job = none) (hn : raspLineNext k s = none) (hask : askDescs .rasp s = s)
    (hq : nextQueue .rasp s.eng.rNext (fun q => descHere .rasp q s) s = some q) (hp : queuePart .rasp q s = some p) (hd : takeDesc .rasp q s = .desc d)
    (hw : Safety.noneWaits s) : exec (if natAt d 0 1 = 2 then .compress k else .decompress k) s = .next s := by
  have htake := raspTake_queue ho hk hf hj hn hask hq hp hd
  have hleft : ∀ want : Nat → Bool, want (natAt d 0 1) = false → done s (chWakeAll (raspTake k want s)) = .next s := by
    intro want h
    rw [htake want, h, if_neg (by decide), chWakeAll_rest hw]
    exact done_quiet (hs : s.flt.due = []) rfl (sameReport_refl s)
  by_cases h2 : natAt d 0 1 = 2
  · rw [if_pos h2]
    exact hleft (fun op => op != 2) (by simp [h2])
  · rw [if_neg h2]
    exact hleft (fun op => op == 2) (by simp [h2])

end

end Sys2Proof.Machine
end


section
set_option Elab.async false
/-! PROOFS. O49: a Rasp engine ends its job. -/

namespace Sys2Proof.Machine

section
variable {s t u w : State} {k i q p : Nat} {j : RaspJob} {b : QBlock}

/-! ### What the posting of a record leaves of the engines -/

/-- The engines, but for their queues. -/
def unqueued (s : State) : Engines := { s.eng with rq := [], iq := [] }

/-- What the end of a job and its record touch. -/
structure Served (s t : State) : Prop where
  frame : Touches runRegs s t
  engines : unqueued t = unqueued s

theorem Served.refl (s : State) : Served s s := ⟨.refl _ s, rfl⟩

theorem Served.trans (h : Served s t) (k : Served t u) : Served s u := ⟨h.frame.trans k.frame, k.engines.trans h.engines⟩

theorem served_ite {c : Prop} [Decidable c] (ht : c → Served s t) (hu : ¬c → Served s u) : Served s (if c then t else u) := by
  split
  · exact ht ‹_›
  · exact hu ‹_›

theorem Served.rasp (h : Served s t) (k : Nat) : raspOf k t = raspOf k s := congrArg (tget ({} : RaspEng) k) (congrArg Engines.rasp h.engines :)

theorem Served.inta (h : Served s t) (k : Nat) : intOf k t = intOf k s := congrArg (tget ({} : IntEng) k) (congrArg Engines.inta h.engines :)

theorem Served.slots (h : Served s t) : t.eng.slots = s.eng.slots := (congrArg Engines.slots h.engines :)

theorem served_of_frame {rs : List FrameReg} (h : Touches rs s t) (hr : rs ⊆ runRegs) (he : .eng ∉ rs) : Served s t :=
  ⟨h.mono hr, congrArg (fun e : Engines => { e with rq := [], iq := [] }) (h .eng he)⟩

theorem served_traffic (h : Touches trafficRegs s t) : Served s t := served_of_frame h (by decide) (by decide)

theorem served_op (h : Touches opRegs s t) : Served s t := served_of_frame h (by decide) (by decide)

theorem served_setQueue (b : QBlock) (q : Nat) (v : Queue) (s : State) : Served s (setQueue b q v s) := by
  refine ⟨run_setQueue, ?_⟩
  cases b <;> rfl

theorem served_modQueue (b : QBlock) (q : Nat) (f : Queue → Queue) (s : State) : Served s (modQueue b q f s) := served_setQueue b q _ s

theorem served_pf1Vector (v : Nat) (s : State) : Served s (pf1Vector v s) := served_of_frame (frame_pf1Vector s v) (by decide) (by decide)

theorem served_hostRecord (b : QBlock) (q : Nat) (rcd : List Byte) (bad : Bool) (s : State) : Served s (hostRecord b q rcd bad s) :=
  (((served_op op_emit).trans (served_setQueue b q _ _)).trans (served_pf1Vector _ _)).trans (served_ite (fun _ => served_pf1Vector _ _) fun _ => .refl _)

theorem served_hostFetch (b : QBlock) (q : Nat) (s : State) : Served s (hostFetch b q s) :=
  served_ite (fun _ => .refl s) fun _ => ((served_setQueue b q _ s).trans (served_of_frame (frame_hp _ _) (by decide) (by decide))).trans (served_op op_emit)

theorem served_pauseQueue (b : QBlock) (q cause : Nat) (s : State) : Served s (pauseQueue b q cause s) :=
  (served_modQueue b q _ s).trans (served_ite (fun _ => served_pf1Vector _ _) fun _ => .refl _)

/-- The queue whose record has been posted. -/
def recordPosted (v : Queue) : Queue := wipeIfDue { v with busy := false, drop := false, post := none, state := if v.state = 2 then 0 else v.state }

/-- The record is out: the queue goes on, and its next descriptor is fetched. -/
def goOn (b : QBlock) (q : Nat) (s : State) : State := hostFetch b q (modQueue b q recordPosted s)

theorem served_goOn (b : QBlock) (q : Nat) (s : State) : Served s (goOn b q s) := (served_modQueue b q _ s).trans (served_hostFetch b q _)

theorem served_postNow (b : QBlock) (q : Nat) (rcd : List Byte) (bad : Bool) (s : State) : Served s (postNow b q rcd bad s) := by
  have hlast : ∀ w, Served w (hostFetch b q (modQueue b q recordPosted w)) := served_goOn b q
  unfold postNow
  dsimp only
  refine Served.trans ?_ (hlast _)
  refine served_ite (fun _ => served_of_frame (frame_pf1 s _) (by decide) (by decide)) fun _ =>
    served_ite (fun _ => served_ite (fun _ => served_setQueue b q _ s) fun _ => served_hostRecord b q _ bad s) fun _ => ?_
  split
  · exact .refl s
  · exact served_ite (fun _ => (served_traffic traffic_partWrite).trans (served_setQueue b q _ _)) fun _ => served_pauseQueue b q 2 s

theorem served_postRecord (b : QBlock) (q : Nat) (rcd : List Byte) (bad : Bool) (s : State) : Served s (postRecord b q rcd bad s) :=
  served_ite (fun _ => served_modQueue b q _ s) fun _ => served_postNow b q rcd bad s

theorem served_junkOutput (who : Agent) (p a n : Nat) (s : State) : Served s (junkOutput who p a n s) :=
  ((served_op op_drawBelow).trans (served_op (op_drawBytes _))).trans (served_traffic traffic_partWrite)

/-! ### Where the record is posted -/

theorem wipeIfDue_idle {v : Queue} (h : v.busy = false) : (wipeIfDue v).busy = false := by
  unfold wipeIfDue
  split
  · rfl
  · exact h

theorem recordPosted_of (v : Queue) (hw : v.wipe = false) :
    recordPosted v = { v with busy := false, drop := false, post := none, state := if v.state = 2 then 0 else v.state } := if_neg (by simp [hw])

theorem goOn_idle (b : QBlock) (q : Nat) (s : State) : (queueOf b q (goOn b q s)).busy = false := by
  obtain ⟨f, hf⟩ := hostFetch_queue (b := b) (q := q) (s := modQueue b q recordPosted s) b q
  rw [goOn, hf, if_pos ⟨rfl, rfl⟩, modQueue, queueOf_setQueue_same]
  exact wipeIfDue_idle (v := { queueOf b q s with busy := false, drop := false, post := none, state := if (queueOf b q s).state = 2 then 0 else (queueOf b q s).state }) rfl

theorem postNow_idle (b : QBlock) (q : Nat) (rcd : List Byte) (bad : Bool) (s : State) : (queueOf b q (postNow b q rcd bad s)).busy = false := goOn_idle b q _

theorem agentPending_setQueue (who : Agent) (v : Queue) (s : State) : agentPending who (setQueue b q v s) = agentPending who s := by
  cases b <;> rfl

theorem postRecord_idle (b : QBlock) (q : Nat) (rcd : List Byte) (bad : Bool) (s : State) (h : agentPending (queueAgent b q) (postRecord b q rcd bad s) = false) :
    (queueOf b q (postRecord b q rcd bad s)).busy = false := by
  unfold postRecord at h ⊢
  split at h
  next hp =>
    rw [modQueue, agentPending_setQueue, hp] at h
    exact absurd h (by decide)
  next hp =>
    rw [if_neg hp]
    exact postNow_idle b q rcd bad s

/-- The record of a queue of the partition itself goes into storage. -/
theorem postNow_own {rcd : List Byte} {bad : Bool} (hq : 64 ≤ q) (hd : (queueOf b q s).drop = false) (hw : (queueOf b q s).wipe = false) (hp : queuePart b q s = some p)
    (hm : partMapped p ((queueOf b q s).cqBase + (queueOf b q s).cqTail * recordLen b) (recordLen b) s = true) :
    ∃ x, x = partWrite (queueAgent b q) p ((queueOf b q s).cqBase + (queueOf b q s).cqTail * recordLen b) (withTor b s.tor.tor (withPhase (queueOf b q s) rcd)) s ∧
      postNow b q rcd bad s = setQueue b q { cqAdvance (queueOf b q s) with busy := false, drop := false, post := none, state := if (queueOf b q s).state = 2 then 0 else (queueOf b q s).state }
        (setQueue b q (cqAdvance (queueOf b q s)) x) := by
  refine ⟨_, rfl, ?_⟩
  have hlow : ¬ q < 64 := Nat.not_lt.mpr hq
  have hadv : (cqAdvance (queueOf b q s)).wipe = false ∧ (cqAdvance (queueOf b q s)).state = (queueOf b q s).state := by
    unfold cqAdvance
    split <;> exact ⟨hw, rfl⟩
  have hidle : ∀ u, hostFetch b q u = u := fun u => hostFetch_idle (.inl hq)
  have hlast : ∀ u, hostFetch b q (modQueue b q recordPosted (setQueue b q (cqAdvance (queueOf b q s)) u)) =
      setQueue b q { cqAdvance (queueOf b q s) with busy := false, drop := false, post := none, state := if (queueOf b q s).state = 2 then 0 else (queueOf b q s).state }
        (setQueue b q (cqAdvance (queueOf b q s)) u) := by
    intro u
    rw [hidle, modQueue, queueOf_setQueue_same, recordPosted_of _ hadv.1, hadv.2]
  rw [← hlast]
  simp only [postNow, hd, hp, hm, if_neg hlow]
  rfl

/-- The record of a queue of the host goes out, and the queue goes on. -/
theorem postNow_host {rcd : List Byte} {bad : Bool} (hq : q < 64) (hd : (queueOf b q s).drop = false) (h1 : (queueOf b q s).state = 1) (hm : fnMaster s.pf1 = true) :
    postNow b q rcd bad s = goOn b q (hostRecord b q (withPhase (queueOf b q s) rcd) bad s) := by
  simp only [postNow, hd, h1, hm, if_pos hq]
  rfl

theorem hostRecord_out (b : QBlock) (q : Nat) (rcd : List Byte) (bad : Bool) (s : State) :
    Out.hostWrite ((qpOf q s).pcBase + (queueOf b q s).cqTail * recordLen b) (withTor b s.tor.tor rcd) false ∈ (hostRecord b q rcd bad s).out := by
  unfold hostRecord
  extract_lets v rcd' x y z
  have hy : Out.hostWrite ((qpOf q s).pcBase + v.cqTail * recordLen b) rcd' false ∈ y.out := by
    have hx : y.out = x.out := by cases b <;> rfl
    rw [hx]
    exact List.mem_append_right _ (List.mem_singleton_self _)
  have hz : Out.hostWrite ((qpOf q s).pcBase + v.cqTail * recordLen b) rcd' false ∈ z.out := ((served_pf1Vector (2 * q) y).frame .said (by decide)).subset hy
  split
  · exact ((served_pf1Vector (2 * q + 1) z).frame .said (by decide)).subset hz
  · exact hz

theorem frame_goOn (b : QBlock) (q : Nat) (s : State) : Touches queueRegs s (goOn b q s) := ((frame_setQueue s b q _).mono (by decide)).trans frame_hostFetch

theorem frame_hostRecord (b : QBlock) (q : Nat) (rcd : List Byte) (bad : Bool) (s : State) : Touches queueRegs s (hostRecord b q rcd bad s) := by
  unfold hostRecord
  extract_lets v rcd' x y z
  have hz : Touches queueRegs s z := ((((frame_emit s _).mono (by decide)).trans ((frame_setQueue x b q _).mono (by decide))).trans ((frame_pf1Vector y (2 * q)).mono (by decide)))
  exact touches_ite (fun _ => hz.trans ((frame_pf1Vector z _).mono (by decide))) fun _ => hz

/-! ### The end of a job -/

/-- The engine that has ended its job. -/
def raspFreed (k : Nat) (s : State) : State := setRasp k { raspOf k s with job := none, jobs := satAdd 32 (raspOf k s).jobs 1 } s

theorem raspFreed_own (k : Nat) (s : State) : raspOf k (raspFreed k s) = { raspOf k s with job := none, jobs := satAdd 32 (raspOf k s).jobs 1 } := raspOf_setRasp_same ..

theorem run_raspFreed : Touches runRegs s (raspFreed k s) := run_setRasp

/-- The state in which the result of the job is stored and posted: a poisoned context is an event of the engine. -/
def raspTold (k status : Nat) (j : RaspJob) (s : State) : State :=
  if status = 4 then raise (srcRasp k) 0x04 (some j.part) (natAt j.desc 8 8) (raspFreed k s) else raspFreed k s

theorem served_raise {src code : Nat} (hc : code ≠ 0x10) (part : Option Nat) (detail : Nat) (s : State) : Served s (raise src code part detail s) :=
  served_of_frame (frame_raise s hc src part detail) (by decide) (by decide)

theorem served_raspTold (k status : Nat) (j : RaspJob) (s : State) : Served (raspFreed k s) (raspTold k status j s) :=
  served_ite (fun _ => served_raise (by decide) ..) fun _ => .refl _

/-- What the engine makes of the job. -/
def raspMade (j : RaspJob) : RaspRes := raspRun (raspParams j.desc) (if natAt j.desc 0x20 8 = 0 then none else some j.ctx) j.input j.bad j.space

/-- The context of the job has been changed by another job since it was read. -/
def raspStale (k : Nat) (j : RaspJob) (s : State) : Bool :=
  natAt j.desc 0x20 8 != 0 && (!(ctxAway j.part (natAt j.desc 0x20 8 + 0x18) true (raspFreed k s)).isEmpty ||
    (partRead (jobAgent .rasp j.queue j.line) j.part (natAt j.desc 0x20 8 + 0x18) 8 (raspFreed k s)).1 != bytesAt j.ctx 0x18 8)

/-- The status of a job that is ended: 7 after a parity error, else the one that was decided, else what the run gives. -/
def raspStatus (k : Nat) (parity : Bool) (j : RaspJob) (s : State) : Nat :=
  if parity then 7 else j.early.getD (if (raspMade j).status ≠ 0 then (raspMade j).status else if raspStale k j s then 6 else 0)

/-- The output and the context of a job that succeeds, in storage. -/
def raspStored (j : RaspJob) (s : State) : State :=
  if natAt j.desc 0x20 8 = 0 then partWrite (jobAgent .rasp j.queue j.line) j.part (natAt j.desc 0x10 8) (raspMade j).out s
  else partWrite (jobAgent .rasp j.queue j.line) j.part (natAt j.desc 0x20 8) (raspMade j).ctx
    (partWrite (jobAgent .rasp j.queue j.line) j.part (natAt j.desc 0x10 8) (raspMade j).out s)

/-- The output area of a job that fails. -/
def raspJunk (j : RaspJob) (s : State) : State :=
  if jobMapped j.queue j.part (natAt j.desc 0x10 8) (natAt j.desc 0x18 4) s then junkOutput (jobAgent .rasp j.queue j.line) j.part (natAt j.desc 0x10 8) (natAt j.desc 0x18 4) s else s

/-- The answer to an operation in line. -/
def raspInLine (i k status : Nat) (j : RaspJob) (s : State) : State :=
  lineDone i k status (raspMade j).out
    (if status = 0 ∧ natAt j.desc 0x20 8 ≠ 0 then partWrite (jobAgent .rasp j.queue j.line) j.part (natAt j.desc 0x20 8) (raspMade j).ctx s else s)

/-- The record of a job of a queue. -/
def raspPosted (status : Nat) (j : RaspJob) (s : State) : State :=
  if status = 0 then postRecord .rasp j.queue (raspRecord j.desc 0 (raspMade j) (queueOf .rasp j.queue s).head) false (raspStored j s)
  else postRecord .rasp j.queue (raspRecord j.desc status { status := status, read := if 0x10 ≤ status then (raspMade j).read else 0 } (queueOf .rasp j.queue s).head)
    (status == 3 || status == 4 || status == 7) (raspJunk j s)

/-- The status that `raspEnd` itself computes. -/
theorem raspStatus_eq (parity : Bool) {c : Option Nat} (h : j.early = c) :
    raspStatus k parity j s = if parity then 7 else c.getD (if (raspMade j).status ≠ 0 then (raspMade j).status else if raspStale k j s then 6 else 0) := by rw [← h, raspStatus]

theorem raspEnd_line (hj : (raspOf k s).job = some j) (hl : j.line = some i) (parity : Bool) :
    raspEnd k parity s = raspInLine i k (raspStatus k parity j s) j (raspTold k (raspStatus k parity j s) j s) := by
  simp only [raspEnd, hj, hl]
  cases hearly : j.early
  all_goals
    rw [raspStatus_eq parity hearly]
    simp only [raspInLine, raspStale, hl]
    rfl

theorem raspEnd_queue (hj : (raspOf k s).job = some j) (hl : j.line = none) (parity : Bool) :
    raspEnd k parity s = raspPosted (raspStatus k parity j s) j (raspTold k (raspStatus k parity j s) j s) := by
  simp only [raspEnd, hj, hl]
  cases hearly : j.early
  all_goals
    rw [raspStatus_eq parity hearly]
    simp only [raspPosted, raspStored, raspJunk, raspStale, hl]
    rfl

theorem served_raspStored : Served s (raspStored j s) :=
  served_ite (fun _ => served_traffic traffic_partWrite) fun _ => (served_traffic traffic_partWrite).trans (served_traffic traffic_partWrite)

theorem served_raspJunk : Served s (raspJunk j s) := served_ite (fun _ => served_junkOutput ..) fun _ => .refl s

theorem served_raspPosted (status : Nat) : Served s (raspPosted status j s) :=
  served_ite (fun _ => served_raspStored.trans (served_postRecord ..)) fun _ => served_raspJunk.trans (served_postRecord ..)

theorem served_raspInLine (status : Nat) : Served s (raspInLine i k status j s) :=
  (served_ite (fun _ => served_traffic traffic_partWrite) fun _ => .refl s).trans (served_op op_lineDone)

theorem served_raspEnd (hj : (raspOf k s).job = some j) (parity : Bool) : Served (raspTold k (raspStatus k parity j s) j s) (raspEnd k parity s) := by
  cases hl : j.line with
  | none => exact raspEnd_queue hj hl parity ▸ served_raspPosted _
  | some i => exact raspEnd_line hj hl parity ▸ served_raspInLine _

theorem raspEnd_own (hj : (raspOf k s).job = some j) (parity : Bool) :
    raspOf k (raspEnd k parity s) = { raspOf k s with job := none, jobs := satAdd 32 (raspOf k s).jobs 1 } :=
  ((served_raspTold k _ j s).trans (served_raspEnd hj parity)).rasp k |>.trans (raspFreed_own k s)

/-! ### The command -/

theorem raspTryEnd_ends {parity : Bool} (hj : (raspOf k s).job = some j) (hload : parity = false → j.loaded = true)
    (haway : ctxAway j.part (natAt j.desc 0x20 8 + 0x18) (raspWrites j parity) s = []) : raspTryEnd k parity s = raspEnd k parity s := by
  simp only [raspTryEnd, hj, haway]
  cases parity
  · rw [hload rfl]
    rfl
  · exact if_neg (by simp)

/-- The job ends in the state after the event of a parity error. -/
def raspFaulted (k : Nat) (parity : Bool) (j : RaspJob) (s : State) : State := if parity then raise (srcRasp k) 0x05 (some j.part) 0 s else s

theorem served_raspFaulted (k : Nat) (parity : Bool) (j : RaspJob) (s : State) : Served s (raspFaulted k parity j s) :=
  served_ite (fun _ => served_raise (by decide) ..) fun _ => .refl s

theorem exec_raspJobComplete {parity : Bool} (ho : operating s = true) (hk : k < 8) (hj : (raspOf k s).job = some j) (hload : parity = false → j.loaded = true)
    (haway : parity = false → ctxAway j.part (natAt j.desc 0x20 8 + 0x18) (raspWrites j false) s = []) :
    exec (.raspJobComplete k parity) s = .next (settle s (chWakeAll (raspEnd k parity (raspFaulted k parity j s)))) := by
  have hjob : (raspOf k (raspFaulted k parity j s)).job = some j := by rw [(served_raspFaulted k parity j s).rasp, hj]
  have hends : raspTryEnd k parity (raspFaulted k parity j s) = raspEnd k parity (raspFaulted k parity j s) := by
    refine raspTryEnd_ends hjob hload ?_
    cases parity
    · exact haway rfl
    · rfl
  have hcomplete : raspComplete k parity s = chWakeAll (raspTryEnd k parity (raspFaulted k parity j s)) := by
    simp only [raspComplete, hj]
    rfl
  have hrun : exec (.raspJobComplete k parity) s = done s (raspComplete k parity s) := if_pos ⟨ho, hk⟩
  rw [hrun, hcomplete, hends]
  rfl

theorem raspJobComplete_none (hs : Safety.settled s) (hj : (raspOf k s).job = none) (parity : Bool) : exec (.raspJobComplete k parity) s = .next s := by
  have hrest : raspComplete k parity s = s := by simp only [raspComplete, hj]
  refine (if_congr Iff.rfl (congrArg (done s) hrest) rfl : exec (.raspJobComplete k parity) s = if operating s ∧ k < 8 then done s s else .next s).trans ?_
  rw [done_quiet (hs : s.flt.due = []) rfl (sameReport_refl s), ite_self]

theorem ctxAway_decided {c gen : Nat} (h : j.early = some c) (parity : Bool) : ctxAway j.part gen (raspWrites j parity) s = [] := by
  have hw : raspWrites j parity = false := by simp [raspWrites, h]
  rw [hw]
  rfl

/-- A poisoned context ends the job with an event of the engine. -/
theorem raspJobComplete_poison (ho : operating s = true) (hk : k < 8) (hj : (raspOf k s).job = some j) (hload : j.loaded = true) (hearly : j.early = some 4) :
    ∃ t u, exec (.raspJobComplete k false) s = .next t ∧ t = settle s (chWakeAll u) ∧
      (fltStatus (srcRasp k) u).pending = true ∧ raspOf k u = { raspOf k s with job := none, jobs := satAdd 32 (raspOf k s).jobs 1 } := by
  have hstatus : raspStatus k false j s = 4 := by simp [raspStatus, hearly]
  have htold : (fltStatus (srcRasp k) (raspTold k (raspStatus k false j s) j s)).pending = true := by
    rw [hstatus, raspTold, if_pos rfl]
    exact raise_pending ..
  exact ⟨_, raspEnd k false s, exec_raspJobComplete ho hk hj (fun _ => hload) (fun _ => ctxAway_decided hearly false), rfl,
    ((served_raspEnd hj false).frame .pend (by decide) _ htold).1, raspEnd_own hj false⟩

theorem queuePart_own (hq : 64 ≤ q) (s t : State) : queuePart .rasp q t = queuePart .rasp q s := by
  simp only [queuePart, if_neg (Nat.not_lt.mpr hq)]

/-- A job that succeeds, of a queue of the partition itself: its output and its context are stored before its record. -/
theorem raspJobComplete_stores {r : RaspRes} {s0 s1 s2 : State} {a : Nat} (ho : operating s = true) (hk : k < 8) (hj : (raspOf k s).job = some j) (hearly : j.early = none)
    (hl : j.line = none) (hload : j.loaded = true) (hq : 64 ≤ j.queue) (hd : (queueOf .rasp j.queue s).drop = false) (hw : (queueOf .rasp j.queue s).wipe = false)
    (hp : queuePart .rasp j.queue s = some j.part) (hs0 : s0 = raspFreed k s) (hr : r = raspMade j) (hok : r.status = 0)
    (hctx : natAt j.desc 0x20 8 ≠ 0 → partUnowned j.part (natAt j.desc 0x20 8 + 0x18) 8 s = [] ∧
      (partRead (.rasp j.queue) j.part (natAt j.desc 0x20 8 + 0x18) 8 s0).1 = bytesAt j.ctx 0x18 8)
    (hs1 : s1 = partWrite (.rasp j.queue) j.part (natAt j.desc 0x10 8) r.out s0)
    (hs2 : s2 = (if natAt j.desc 0x20 8 = 0 then s1 else partWrite (.rasp j.queue) j.part (natAt j.desc 0x20 8) r.ctx s1))
    (hpend : agentPending (.rasp j.queue) s2 = false) (ha : a = (queueOf .rasp j.queue s).cqBase + (queueOf .rasp j.queue s).cqTail * 32)
    (hm : partMapped j.part a 32 s2 = true) :
    ∃ t u, exec (.raspJobComplete k false) s = .next t ∧ t = settle s (chWakeAll u) ∧ u.ch = s2.ch ∧
      u.sto = (partWrite (.rasp j.queue) j.part a
        (withTor .rasp s.tor.tor (withPhase (queueOf .rasp j.queue s) (raspRecord j.desc 0 r (queueOf .rasp j.queue s).head))) s2).sto ∧
      raspOf k u = { raspOf k s with job := none, jobs := satAdd 32 (raspOf k s).jobs 1 } ∧
      queueOf .rasp j.queue u = { cqAdvance (queueOf .rasp j.queue s) with
        busy := false, post := none, state := if (queueOf .rasp j.queue s).state = 2 then 0 else (queueOf .rasp j.queue s).state } := by
  subst hr
  have hstored : raspStored j s0 = s2 := by
    rw [hs2, hs1, raspStored, hl]
    rfl
  have hframe : Touches trafficRegs s0 s2 := by
    rw [← hstored]
    exact touches_ite (fun _ => traffic_partWrite) fun _ => traffic_partWrite.trans traffic_partWrite
  have hqueue : queueOf .rasp j.queue s2 = queueOf .rasp j.queue s := by
    rw [rq_of_eng (hframe .eng (by decide)), hs0]
    rfl
  have htor : s2.tor = s.tor := (hframe .tor (by decide)).trans (by rw [hs0]; rfl)
  have hstale : raspStale k j s = false := by
    by_cases hc : natAt j.desc 0x20 8 = 0
    · simp [raspStale, hc]
    · obtain ⟨hown, hread⟩ := hctx hc
      have haway : ctxAway j.part (natAt j.desc 0x20 8 + 0x18) true (raspFreed k s) = [] := hown
      rw [hs0] at hread
      simp only [raspStale, haway, hl, jobAgent, queueAgent, hread]
      simp
  have hstatus : raspStatus k false j s = 0 := by simp [raspStatus, hearly, hok, hstale]
  have hrecord : raspEnd k false s =
      postNow .rasp j.queue (raspRecord j.desc 0 (raspMade j) (queueOf .rasp j.queue s).head) false s2 := by
    have htold : raspTold k 0 j s = s0 := hs0.symm
    rw [raspEnd_queue hj hl, hstatus, htold, raspPosted, if_pos rfl, hstored, hs0]
    exact if_neg (by rw [show queueAgent .rasp j.queue = .rasp j.queue from rfl, hpend]; decide)
  obtain ⟨x, hx, hpost⟩ := postNow_own (b := .rasp) (rcd := raspRecord j.desc 0 (raspMade j) (queueOf .rasp j.queue s).head) (bad := false) hq (hqueue ▸ hd) (hqueue ▸ hw)
    ((queuePart_own hq s s2).trans hp) (by rw [hqueue]; exact ha ▸ hm)
  rw [hqueue, htor] at hx
  rw [hqueue] at hpost
  have haway : ctxAway j.part (natAt j.desc 0x20 8 + 0x18) (raspWrites j false) s = [] := by
    by_cases hc : natAt j.desc 0x20 8 = 0
    · simp [raspWrites, hc, ctxAway]
    · rw [show raspWrites j false = true by simp [raspWrites, hearly, hc]]
      exact (hctx hc).1
  have hxframe : Touches trafficRegs s2 x := hx ▸ traffic_partWrite
  have hdrop : (cqAdvance (queueOf .rasp j.queue s)).drop = false := by
    unfold cqAdvance
    split <;> exact hd
  have hu := hrecord.trans hpost
  refine ⟨_, raspEnd k false s, exec_raspJobComplete ho hk hj (fun _ => hload) (fun _ => haway), rfl, ?_, ?_, raspEnd_own hj false, ?_⟩
  · exact (congrArg State.ch hu).trans (hxframe .ch (by decide))
  · subst ha
    have hsto := congrArg State.sto hx
    exact (congrArg State.sto hu).trans hsto
  · rw [hu, queueOf_setQueue_same, ← hdrop]

theorem junkOutput_nothing (who : Agent) (p a : Nat) (s : State) : junkOutput who p a 0 s = { s with free := s.free + 1 } := by
  simp only [junkOutput, drawBelow, Nat.zero_add, Nat.mod_one]
  rfl

theorem agentPending_of_arm (h : t.arm = s.arm) (who : Agent) : agentPending who t = agentPending who s := by simp only [agentPending, agentSent, h]

/-- The record of a parity error on a queue of the host: the output area is empty, and nothing is stored. -/
theorem raspPosted_parity (hq : j.queue < 64) (hn : natAt j.desc 0x18 4 = 0) (hpend : agentPending (.rasp j.queue) s = false)
    (hd : (queueOf .rasp j.queue s).drop = false) (hm : fnMaster s.pf1 = true) (h1 : (queueOf .rasp j.queue s).state = 1) :
    (queueOf .rasp j.queue (raspPosted 7 j s)).busy = false ∧ (raspPosted 7 j s).sto = s.sto ∧
    Out.hostWrite ((qpOf j.queue s).pcBase + (queueOf .rasp j.queue s).cqTail * 32)
      (withTor .rasp s.tor.tor (withPhase (queueOf .rasp j.queue s) (raspRecord j.desc 7 { status := 7 } (queueOf .rasp j.queue s).head))) false ∈ (raspPosted 7 j s).out := by
  have hjunk : ∃ n, raspJunk j s = { s with free := n } := by
    unfold raspJunk
    split
    · exact ⟨_, by rw [hn, junkOutput_nothing]⟩
    · exact ⟨s.free, rfl⟩
  obtain ⟨n, hn⟩ := hjunk
  have hpost : raspPosted 7 j s = goOn .rasp j.queue (hostRecord .rasp j.queue
      (withPhase (queueOf .rasp j.queue s) (raspRecord j.desc 7 { status := 7 } (queueOf .rasp j.queue s).head)) true { s with free := n }) := by
    rw [raspPosted, if_neg (by decide), hn, postRecord]
    refine (if_neg ?_).trans (postNow_host (s := { s with free := n }) hq hd h1 hm)
    rw [agentPending_of_arm (t := { s with free := n }) (s := s) rfl]
    exact fun h => absurd (hpend.symm.trans h) (by decide)
  have hrecord := frame_hostRecord .rasp j.queue (withPhase (queueOf .rasp j.queue s) (raspRecord j.desc 7 { status := 7 } (queueOf .rasp j.queue s).head)) true { s with free := n }
  have hgo := frame_goOn .rasp j.queue (hostRecord .rasp j.queue
    (withPhase (queueOf .rasp j.queue s) (raspRecord j.desc 7 { status := 7 } (queueOf .rasp j.queue s).head)) true { s with free := n })
  rw [hpost]
  exact ⟨goOn_idle .., (hgo .sto (by decide)).trans (hrecord .sto (by decide)), (hgo .said (by decide)).subset (hostRecord_out ..)⟩

/-- A parity error ends the job, and is an event of the engine. -/
theorem raspJobComplete_parity (ho : operating s = true) (hk : k < 8) (hj : (raspOf k s).job = some j) :
    ∃ t u, exec (.raspJobComplete k true) s = .next t ∧ t = settle s (chWakeAll u) ∧
      (fltStatus (srcRasp k) u).pending = true ∧ raspOf k u = { raspOf k s with job := none, jobs := satAdd 32 (raspOf k s).jobs 1 } ∧
      (∀ i o r, j.line = some i → opOf i s = some o → o.line = some r → r.engine = some k →
        ∃ b, opOf i u = some { o with line := some { r with engine := none, done := some (7, b) } }) ∧
      (j.line = none → j.queue < 64 → natAt j.desc 0x18 4 = 0 → agentPending (.rasp j.queue) s = false → (queueOf .rasp j.queue s).drop = false → fnMaster s.pf1 = true →
        (queueOf .rasp j.queue s).state = 1 → (queueOf .rasp j.queue u).busy = false ∧ u.sto = s.sto ∧
        Out.hostWrite ((qpOf j.queue s).pcBase + (queueOf .rasp j.queue s).cqTail * 32)
          (withTor .rasp s.tor.tor (withPhase (queueOf .rasp j.queue s) (raspRecord j.desc 7 { status := 7 } (queueOf .rasp j.queue s).head))) false ∈ u.out) := by
  have hfault : raspFaulted k true j s = raise (srcRasp k) 0x05 (some j.part) 0 s := rfl
  have hserved := served_raspFaulted k true j s
  have hjob : (raspOf k (raspFaulted k true j s)).job = some j := by rw [hserved.rasp, hj]
  have htold : raspTold k (raspStatus k true j (raspFaulted k true j s)) j (raspFaulted k true j s) = raspFreed k (raspFaulted k true j s) := rfl
  have hend := served_raspEnd hjob true
  rw [htold] at hend
  refine ⟨_, raspEnd k true (raspFaulted k true j s), exec_raspJobComplete ho hk hj (fun h => nomatch h) (fun h => nomatch h), rfl, ?_, ?_, ?_, ?_⟩
  · have hpend : (fltStatus (srcRasp k) (raspFreed k (raspFaulted k true j s))).pending = true := raise_pending (srcRasp k) 0x05 (some j.part) 0 s
    exact (hend.frame .pend (by decide) _ hpend).1
  · rw [raspEnd_own hjob, hserved.rasp]
  · intro i o r hl hop hline hengine
    have hopf : opOf i (raspFreed k (raspFaulted k true j s)) = some o := by
      have hch : (raspFreed k (raspFaulted k true j s)).ch = s.ch := frame_raise s (code := 0x05) (by decide) (srcRasp k) (some j.part) 0 .ch (by decide)
      rw [opOf, hch]
      exact hop
    refine ⟨(raspMade j).out, ?_⟩
    rw [raspEnd_line hjob hl, htold]
    have hdone : raspInLine i k 7 j (raspFreed k (raspFaulted k true j s)) = lineDone i k 7 (raspMade j).out (raspFreed k (raspFaulted k true j s)) := rfl
    refine (congrArg (opOf i) (hdone.trans (modOp_eq hopf _))).trans ((opOf_setOp_same i _ _).trans ?_)
    simp only [hline, hengine, if_true]
  · intro hl hq hn hpend hd hmaster h1
    have hraise : Touches eventRegs s (raspFaulted k true j s) := frame_raise s (code := 0x05) (by decide) (srcRasp k) (some j.part) 0
    have hv : Touches (.eng :: eventRegs) s (raspFreed k (raspFaulted k true j s)) := (hraise.mono (by decide)).trans ((frame_eng _ _).mono (by decide))
    have hqv : queueOf .rasp j.queue (raspFreed k (raspFaulted k true j s)) = queueOf .rasp j.queue s :=
      rq_of_eng (t := raspFaulted k true j s) (hraise .eng (by decide)) j.queue
    have hpost := raspPosted_parity (j := j) (s := raspFreed k (raspFaulted k true j s)) hq hn
      ((agentPending_of_arm (hv .arm (by decide)) _).trans hpend) (by rw [hqv]; exact hd) (by rw [hv .pf1 (by decide)]; exact hmaster) (by rw [hqv]; exact h1)
    rw [hqv, hv .tor (by decide), qpOf, hv .hp (by decide), hv .sto (by decide)] at hpost
    rw [raspEnd_queue hjob hl, htold]
    exact hpost

end

/-- Settles O49: what an engine takes is `raspTake` by its two cases, a job is loaded by `raspLoad_reads`, and ended by `raspEnd_line` and
`raspEnd_queue`, which say what is stored before the record. -/
theorem raspEnginesTakeAndEndJobs : Obligations.RaspEnginesTakeAndEndJobs := by
  intro s k hs ho hk
  refine ⟨?_, ?_, ?_, ?_, ?_, ?_⟩
  · exact fun i r o hf hj hn hop hline => raspLine_taken ho hk hf hj hn hop hline
  · intro q p d w hf hj hn hask hq hp hd hw
    refine ⟨raspQueue_left hs ho hk hf hj hn hask hq hp hd, ?_⟩
    rintro early ctx input bad mapped ri rc rfl rfl rfl hjob
    subst hw
    exact raspQueue_taken ho hk hf hj hn hask hq hp hd hjob
  · exact raspJobComplete_none hs
  · rintro j r s0 s1 s2 a hj hearly hl hload hq hd hw hp hs0 hr hok hctx hs1 hs2 hpend ha hm
    exact raspJobComplete_stores ho hk hj hearly hl hload hq hd hw hp hs0 hr hok hctx hs1 hs2 hpend ha hm
  · exact fun j hj hload hearly => raspJobComplete_poison ho hk hj hload hearly
  · exact fun j hj => raspJobComplete_parity ho hk hj

end Sys2Proof.Machine
end


section
set_option Elab.async false
/-! PROOFS. O50: an Intaglio engine starts a request, and reads what it needs. -/

namespace Sys2Proof.Machine

section
variable {s t u : State} {k i q p : Nat} {j x : IntJob} {r : LineReq} {o : ChOp}

theorem intOf_setInt_same (k : Nat) (v : IntEng) (s : State) : intOf k (setInt k v s) = v := tget_tset_same ({} : IntEng) k v s.eng.inta

theorem intOf_setInt_other {m : Nat} (h : m ≠ k) (v : IntEng) (s : State) : intOf m (setInt k v s) = intOf m s := tget_tset_ne ({} : IntEng) v s.eng.inta h

theorem iq_of_eng (h : t.eng = s.eng) (q : Nat) : queueOf .intaglio q t = queueOf .intaglio q s := by simp only [queueOf, h]

/-! ### What a request reads -/

/-- The same request, with what it read. -/
structure RequestRead (j x : IntJob) : Prop where
  request : { x with ctx := j.ctx, input := j.input, aad := j.aad, early := j.early } = j
  input : j.line.isSome = true → x.input = j.input
  decided : j.early.isSome = true → x = j

theorem RequestRead.refl (j : IntJob) : RequestRead j j := ⟨rfl, fun _ => rfl, fun _ => rfl⟩

theorem RequestRead.desc (h : RequestRead j x) : x.desc = j.desc := (congrArg IntJob.desc h.request :)

theorem RequestRead.line (h : RequestRead j x) : x.line = j.line := (congrArg IntJob.line h.request :)

theorem RequestRead.part (h : RequestRead j x) : x.part = j.part := (congrArg IntJob.part h.request :)

theorem RequestRead.queue (h : RequestRead j x) : x.queue = j.queue := (congrArg IntJob.queue h.request :)

theorem intRead_spec (h : intRead j s = .inr x) : RequestRead j x := by
  unfold intRead at h
  extract_lets d who cn m c a n m2 ra ri early at h
  split at h
  · exact Sum.inr.inj h ▸ .refl j
  next hearly =>
    have hread : ∀ ctx input aad early, (j.line.isSome = true → input = j.input) → RequestRead j { j with ctx := ctx, input := input, aad := aad, early := early } :=
      fun ctx input aad early hi => ⟨rfl, hi, fun he => absurd he hearly⟩
    split at h
    · exact Sum.inr.inj h ▸ hread _ _ _ _ fun _ => rfl
    · split at h
      · exact nomatch h
      · split at h
        · exact Sum.inr.inj h ▸ hread _ _ _ _ fun _ => rfl
        · split at h
          · exact Sum.inr.inj h ▸ hread _ _ _ _ fun _ => rfl
          · split at h
            · exact nomatch h
            · exact Sum.inr.inj h ▸ hread _ _ _ _ fun hl => if_pos hl

/-! ### Loading a request -/

/-- A CLEAR empties its slot. -/
def slotCleared (j : IntJob) (s : State) : State := if j.early.isNone ∧ (intDesc j.desc).op = 0x13 then setKeySlot (intDesc j.desc).slot none s else s

/-- Poisoned input is an event of the engine. -/
def intTold (k : Nat) (j : IntJob) (s : State) : State := if j.early = some 4 then raise (srcInt k) 0x04 (some j.part) (intDesc j.desc).inAddr s else s

/-- The engine with its request loaded. -/
def intHolds (k : Nat) (j : IntJob) (s : State) : State := setInt k { intOf k s with job := some { j with loaded := true } } s

/-- The request is loaded: what it reads has been read, and part of a plaintext may lie in its area. -/
def intLoaded (k : Nat) (j : IntJob) (s : State) : State := intPlain j (intTold k j (slotCleared j (intSeen j (intHolds k j s))))

theorem intLoad_waits (hj : (intOf k s).job = some j) (ht : slotTurn j s = false) : intLoad k s = s := by
  simp only [intLoad, hj, ht]
  simp

theorem intLoad_asks {m : List (Nat × Nat)} (hj : (intOf k s).job = some j) (hl : j.loaded = false) (ht : slotTurn j s = true) (hr : intRead j s = .inl m) :
    Touches msgRegs s (intLoad k s) := by
  simp only [intLoad, hj, hl, ht, hr]
  exact frame_askMissing

theorem intLoad_reads (hj : (intOf k s).job = some j) (hl : j.loaded = false) (ht : slotTurn j s = true) (hr : intRead j s = .inr x) : intLoad k s = intLoaded k x s := by
  simp only [intLoad, hj, hl, ht, hr]
  rfl

theorem traffic_intSeen : Touches trafficRegs s (intSeen j s) :=
  ((touches_ite (fun _ => .refl _ s) fun _ => traffic_partSeen).trans (touches_ite (fun _ => .refl _ _) fun _ => traffic_partSeen)).trans
    (touches_ite (fun _ => .refl _ _) fun _ => traffic_partSeen)

theorem traffic_intTold : Touches trafficRegs s (intTold k j s) := touches_ite (fun _ => (frame_raise s (by decide) _ _ _).mono (by decide)) fun _ => .refl _ s

theorem traffic_intPlain : Touches trafficRegs s (intPlain j s) := by
  unfold intPlain
  dsimp only
  split
  · exact .refl _ s
  · refine ((?_ : Touches trafficRegs s _).trans frame_freeTraffic).trans traffic_partWrite
    split
    · exact .refl _ s
    · split
      · exact .refl _ s
      · exact (frame_drawBytes _).mono (by decide)

theorem touches_slotCleared : Touches [.eng] s (slotCleared j s) := touches_ite (fun _ => frame_eng s _) fun _ => .refl _ s

/-- The engines, but for the Intaglio engines, the key slots and the order of requests. -/
def besideInt (s : State) : Engines := { s.eng with inta := [], slots := [], order := 0 }

theorem besideInt_of_eng (h : t.eng = s.eng) : besideInt t = besideInt s := congrArg (fun e : Engines => { e with inta := [], slots := [], order := 0 }) h

/-- The request is the engine's, loaded or not, and nothing else of the engines has changed but, by a CLEAR, its slot. -/
structure IntHas (k : Nat) (j : IntJob) (s t : State) : Prop where
  own : intOf k t = { intOf k s with job := some j }
  other : ∀ m, m ≠ k → intOf m t = intOf m s
  beside : besideInt t = besideInt s
  frame : Touches loadRegs s t

theorem IntHas.queue (h : IntHas k j s t) (q : Nat) : queueOf .intaglio q t = queueOf .intaglio q s := congrArg (tget ({} : Queue) q) (congrArg Engines.iq h.beside :)

theorem IntHas.opOf (h : IntHas k j s t) (i : Nat) : opOf i t = opOf i s := by rw [Machine.opOf, Machine.opOf, h.frame .ch (by decide)]

theorem intHas_setInt (j : IntJob) (s : State) : IntHas k j s (setInt k { intOf k s with job := some j } s) :=
  ⟨intOf_setInt_same .., fun _ hm => intOf_setInt_other hm _ s, rfl, (frame_eng s _).mono (by decide)⟩

theorem IntHas.andThen (h : IntHas k j s t) (ht : Touches trafficRegs t u) : IntHas k j s u :=
  have heng : u.eng = t.eng := ht .eng (by decide)
  have hint : ∀ m, intOf m u = intOf m t := fun m => by rw [intOf, intOf, heng]
  ⟨(hint k).trans h.own, fun m hm => (hint m).trans (h.other m hm), (besideInt_of_eng heng).trans h.beside, h.frame.trans (ht.mono (by decide))⟩

theorem IntHas.trans (h : IntHas k j s t) (hx : IntHas k x t u) : IntHas k x s u :=
  ⟨by rw [hx.own, h.own], fun m hm => (hx.other m hm).trans (h.other m hm), hx.beside.trans h.beside, h.frame.trans hx.frame⟩

theorem IntHas.slotCleared (h : IntHas k j s t) (x : IntJob) : IntHas k j s (slotCleared x t) := by
  unfold Machine.slotCleared
  split
  · exact ⟨h.own, h.other, h.beside, h.frame.trans ((frame_eng t _).mono (by decide))⟩
  · exact h

theorem intLoaded_has (k : Nat) (j : IntJob) (s : State) : IntHas k { j with loaded := true } s (intLoaded k j s) :=
  ((((intHas_setInt { j with loaded := true } s).andThen (traffic_intSeen (j := j))).slotCleared j).andThen (traffic_intTold (k := k) (j := j))).andThen (traffic_intPlain (j := j))

theorem slotCleared_other (h : (intDesc j.desc).op ≠ 0x13) : slotCleared j s = s := if_neg fun hc => h hc.2

theorem slots_intLoaded (h : (intDesc j.desc).op ≠ 0x13) : (intLoaded k j s).eng.slots = s.eng.slots := by
  unfold intLoaded
  rw [slotCleared_other h]
  have hall : Touches trafficRegs (intHolds k j s) (intPlain j (intTold k j (intSeen j (intHolds k j s)))) := (traffic_intSeen.trans traffic_intTold).trans traffic_intPlain
  exact (congrArg Engines.slots (hall .eng (by decide)) :)

theorem slot_intLoaded (h : (intDesc j.desc).op = 0x13) (he : j.early = none) : keySlotOf (intDesc j.desc).slot (intLoaded k j s) = none := by
  have hall : Touches trafficRegs (slotCleared j (intSeen j (intHolds k j s))) (intLoaded k j s) := traffic_intTold.trans traffic_intPlain
  have hcleared : keySlotOf (intDesc j.desc).slot (slotCleared j (intSeen j (intHolds k j s))) = none := by
    rw [slotCleared, if_pos ⟨by rw [he]; rfl, h⟩]
    exact tget_tset_same (none : Option KeySlot) (intDesc j.desc).slot none (intSeen j (intHolds k j s)).eng.slots
  exact (congrArg (fun e : Engines => tget none (intDesc j.desc).slot e.slots) (hall .eng (by decide))).trans hcleared

theorem pending_intLoaded (h : j.early = some 4) : (fltStatus (srcInt k) (intLoaded k j s)).pending = true := by
  have htold : (fltStatus (srcInt k) (intTold k j (slotCleared j (intSeen j (intHolds k j s))))).pending = true := by
    rw [intTold, if_pos h]
    exact raise_pending ..
  exact ((traffic_intPlain (j := j)) .pend (by decide) _ htold).1

/-! ### What lies in storage then -/

theorem unwritten_intSeen (h : Clean s) : Unwritten s (intSeen j s) := by
  have hpart : ∀ {c : Prop} [Decidable c] {u : State} (who : Agent) (p a n : Nat), Unwritten s u → Unwritten s (if c then u else partSeen who p a n u) := by
    intro c _ u who p a n hu
    split
    · exact hu
    · exact hu.trans (unwritten_partSeen hu.clean who p a n)
  exact hpart _ _ _ _ (hpart _ _ _ _ (hpart _ _ _ _ (.refl h)))

theorem unwritten_slotCleared (h : Clean s) : Unwritten s (slotCleared j s) := by
  unfold slotCleared
  split
  · exact unwritten_of_cpu h rfl rfl rfl
  · exact .refl h

theorem unwritten_intTold (h : Clean s) : Unwritten s (intTold k j s) := by
  unfold intTold
  split
  · exact unwritten_raise h ..
  · exact .refl h

/-- Before the plaintext, storage is as it was. -/
theorem unwritten_read (h : Clean s) : Unwritten s (intTold k j (slotCleared j (intSeen j (intHolds k j s)))) := by
  have hheld : Unwritten s (intHolds k j s) := unwritten_of_cpu h rfl rfl rfl
  have hseen := hheld.trans (unwritten_intSeen (j := j) hheld.clean)
  have hcleared := hseen.trans (unwritten_slotCleared (j := j) hseen.clean)
  exact hcleared.trans (unwritten_intTold hcleared.clean)

theorem intPlain_other (h2 : (intDesc j.desc).op ≠ 2) (h7 : (intDesc j.desc).op ≠ 7) : intPlain j s = s := if_pos (by simp [h2, h7])

/-- The key of a request, or no bytes. -/
def keyBytes (j : IntJob) : List Byte := match j.key with | some key => key.key | none => []

/-- Part of the plaintext of a DECRYPT lies in its output area. -/
theorem intPlain_decrypt (h2 : (intDesc j.desc).op = 2) (he : j.early = none) (hl : j.line = none) :
    ∃ n, intPlain j s = partWrite (.intaglio j.queue) j.part (intDesc j.desc).outAddr ((plainText (intDesc j.desc) (keyBytes j) j.ctx j.input).take n) { s with free := s.free + 1 } := by
  unfold intPlain
  simp only [h2, he, hl]
  exact ⟨_, rfl⟩

/-! ### The start of a request -/

/-- The state in which the request is the engine's, and has its place in the order. -/
def intGiven (k : Nat) (j : IntJob) (s : State) : State := setInt k { intOf k s with job := some j } { s with eng := { s.eng with order := s.eng.order + 1 } }

/-- The request with its place in the order. -/
def placed (k : Nat) (j : IntJob) (s : State) : IntJob := { j with start := s.eng.order, dual := (intOf k s).dual }

theorem intBegin_eq (k : Nat) (j : IntJob) (s : State) : intBegin k j s = intLoad k (intGiven k (placed k j s) s) := rfl

theorem intGiven_has (k : Nat) (j : IntJob) (s : State) : IntHas k j s (intGiven k j s) :=
  have h := intHas_setInt (k := k) j { s with eng := { s.eng with order := s.eng.order + 1 } }
  ⟨h.own, h.other, h.beside, ((frame_eng s { s.eng with order := s.eng.order + 1 }).mono (by decide)).trans h.frame⟩

theorem intGiven_job (k : Nat) (j : IntJob) (s : State) : (intOf k (intGiven k j s)).job = some j := by rw [(intGiven_has k j s).own]

/-- A request that is started waits for its turn, or for what it reads, or is loaded. -/
theorem intBegin_has (hl : j.loaded = false) : ∃ x, RequestRead (placed k j s) { x with loaded := false } ∧ IntHas k x s (intBegin k j s) ∧
    ((intDesc j.desc).op ≠ 0x13 → (intBegin k j s).eng.slots = s.eng.slots) := by
  have hgiven := intGiven_has k (placed k j s) s
  have hjob := intGiven_job k (placed k j s) s
  have hself : RequestRead (placed k j s) { placed k j s with loaded := false } := by
    rw [← hl]
    exact .refl _
  rw [intBegin_eq]
  cases ht : slotTurn (placed k j s) (intGiven k (placed k j s) s)
  · rw [intLoad_waits hjob ht]
    exact ⟨placed k j s, hself, hgiven, fun _ => rfl⟩
  · cases hr : intRead (placed k j s) (intGiven k (placed k j s) s) with
    | inl m =>
      have hask := intLoad_asks hjob hl ht hr
      exact ⟨placed k j s, hself, hgiven.andThen (hask.mono (by decide)), fun _ => (congrArg Engines.slots (hask .eng (by decide)) :)⟩
    | inr x =>
      have hread := intRead_spec hr
      rw [intLoad_reads hjob hl ht hr]
      refine ⟨{ x with loaded := true }, ?_, hgiven.trans (intLoaded_has k x _), fun hop => slots_intLoaded (hread.desc ▸ hop)⟩
      have hloaded : x.loaded = false := (congrArg IntJob.loaded hread.request :).trans hl
      have hsame : ({ ({ x with loaded := true } : IntJob) with loaded := false } : IntJob) = x := by rw [← hloaded]
      rw [hsame]
      exact hread

/-! ### Work in line -/

theorem intIdle_of (ho : operating s = true) (hk : k < 8) (hf : (intOf k s).failed = false) (hj : (intOf k s).job = none) (hsusp : (intOf k s).susp = none) : intIdle k s = true := by
  simp [intIdle, ho, hk, hf, hj, hsusp]

theorem urgentNext_of_line (h : intLineNext k s = some (i, r)) : urgentNext s = none := by
  unfold intLineNext at h
  split at h
  next hc => exact Option.isNone_iff_eq_none.mp (Bool.and_eq_true_iff.mp hc).2
  next => exact nomatch h

theorem intTake_line (hidle : intIdle k s = true) (hask : askDescs .intaglio s = s) (hn : intLineNext k s = some (i, r)) (want : Nat → Bool) :
    intTake k want s = if want (if r.back then 2 else 1) then intTakeLine k i r s else s := by
  simp only [intTake, hidle, hask, urgentNext_of_line hn, hn]
  rfl

/-- Each queue counts one request in line that is served before it. -/
def intQueuesWait (s : State) : State := { s with eng := { s.eng with iq := inlineCount s.eng.iq } }

/-- The request that an engine makes of a descriptor. -/
def requestOf (q p : Nat) (line : Option Nat) (b input : List Byte) (s : State) : IntJob :=
  { queue := q, part := p, desc := b, ctx := [], input := input, aad := [], key := (intEarly q p line.isSome (intDesc b) s).2,
    early := (intEarly q p line.isSome (intDesc b) s).1, suspended := false, dual := false, line := line }

theorem intStart_eq (k q p : Nat) (line : Option Nat) (b input : List Byte) (s : State) : intStart k q p line b input s = intBegin k (requestOf q p line b input s) s := rfl

/-- The descriptor of work in line. -/
def lineDescOf (r : LineReq) (o : ChOp) : List Byte := intLineDesc (!r.back) o.blk.cipherProfile ((o.cur.map (·.slot)).getD 0xFFFF) o.blk.cipherCtx r.input.length

theorem op_lineDescOf (r : LineReq) (o : ChOp) : (intDesc (lineDescOf r o)).op = if r.back then 2 else 1 := by
  cases hb : r.back
  all_goals
    rw [lineDescOf, hb]
    rfl

theorem intTakeLine_eq (hop : opOf i s = some o) (hline : o.line = some r) :
    intTakeLine k i r s = intStart k noQueue (jent i s).part (some i) (lineDescOf r o) r.input (setOp i (some (servedBy k r o)) (intQueuesWait s)) := by
  have htaken : lineTaken i k (intQueuesWait s) = setOp i (some (servedBy k r o)) (intQueuesWait s) := by
    rw [lineTaken, modOp_eq (s := intQueuesWait s) hop, hline]
    rfl
  rw [← htaken]
  simp only [intTakeLine, hop]
  rfl

theorem intLine_taken (ho : operating s = true) (hk : k < 8) (hf : (intOf k s).failed = false) (hj : (intOf k s).job = none) (hsusp : (intOf k s).susp = none)
    (hask : askDescs .intaglio s = s) (hn : intLineNext k s = some (i, r)) (hop : opOf i s = some o) (hline : o.line = some r) :
    ∃ t u j, exec (if r.back then .decrypt k else .encrypt k) s = .next t ∧ t = settle s (chWakeAll u) ∧ (intOf k u).job = some j ∧ j.line = some i ∧
      j.part = (jent i s).part ∧ j.input = r.input ∧ opOf i u = some { o with line := some { r with engine := some k, input := [] } } ∧
      (∀ m, m ≠ k → intOf m u = intOf m s) ∧ u.eng.rasp = s.eng.rasp ∧ u.eng.slots = s.eng.slots ∧ u.jnl = s.jnl := by
  have htake := intTake_line (intIdle_of ho hk hf hj hsusp) hask hn
  have hop13 : (intDesc (lineDescOf r o)).op ≠ 0x13 := by
    rw [op_lineDescOf]
    split <;> decide
  obtain ⟨x, hread, hhas, hslots⟩ := intBegin_has (k := k) (s := setOp i (some (servedBy k r o)) (intQueuesWait s))
    (j := requestOf noQueue (jent i s).part (some i) (lineDescOf r o) r.input (setOp i (some (servedBy k r o)) (intQueuesWait s))) rfl
  rw [← intStart_eq, ← intTakeLine_eq hop hline] at hhas hslots
  refine ⟨_, intTakeLine k i r s, x, ?_, rfl, congrArg IntEng.job hhas.own, hread.line, hread.part, hread.input rfl, (hhas.opOf i).trans (opOf_setOp_same ..), fun m hm => hhas.other m hm,
    (congrArg Engines.rasp hhas.beside :), hslots hop13, hhas.frame .jnl (by decide)⟩
  cases hb : r.back
  · exact congrArg (fun w => done s (chWakeAll w)) ((htake fun op => !(decide (2 ≤ op ∧ op ≤ 7) || decide (0x10 ≤ op ∧ op ≤ 0x13))).trans (by rw [hb]; rfl))
  · exact congrArg (fun w => done s (chWakeAll w)) ((htake fun op => op == 2).trans (by rw [hb]; rfl))

end

end Sys2Proof.Machine
end


section
set_option Elab.async false
/-! PROOFS. O50: an Intaglio engine takes the request at HEAD of a queue, or an urgent one. -/

namespace Sys2Proof.Machine

section
variable {s t u w : State} {k i q p : Nat} {j x j1 : IntJob} {d : List Byte}

/-! ### The request at HEAD of a queue -/

/-- The descriptor is taken, and the queue after it is served next. -/
def intTook (q : Nat) (s : State) : State := { tookDesc .intaglio q s with eng := { (tookDesc .intaglio q s).eng with iNext := (q + 1) % 256 } }

theorem intTook_spec (q : Nat) (s : State) : Touches loadRegs s (intTook q s) ∧ queueOf .intaglio q (intTook q s) = headMoved (queueOf .intaglio q s) ∧
    (∀ j, j ≠ q → queueOf .intaglio j (intTook q s) = queueOf .intaglio j s) ∧ (intTook q s).eng = { s.eng with iq := (intTook q s).eng.iq, iNext := (q + 1) % 256 } := by
  obtain ⟨hframe, hown, hother⟩ := tookDesc_spec (b := .intaglio) (by decide) q s
  have heng : (descSeen .intaglio q s).eng = s.eng := traffic_descSeen .eng (by decide)
  exact ⟨hframe.trans ((frame_eng _ _).mono (by decide)), hown, hother, congrArg (fun e : Engines => { e with iq := (intTook q s).eng.iq, iNext := (q + 1) % 256 }) heng⟩

theorem intOf_intTook (q m : Nat) (s : State) : intOf m (intTook q s) = intOf m s := congrArg (tget ({} : IntEng) m) (congrArg Engines.inta (intTook_spec q s).2.2.2 :)

theorem order_intTook (q : Nat) (s : State) : (intTook q s).eng.order = s.eng.order := (congrArg Engines.order (intTook_spec q s).2.2.2 :)

/-- What an idle engine takes from a queue: an urgent request first, and else the next in turn where none waits in line. -/
def TakesFrom (k q : Nat) (s : State) : Prop :=
  urgentNext s = some q ∨ urgentNext s = none ∧ intLineNext k s = none ∧ nextQueue .intaglio s.eng.iNext (fun q => descHere .intaglio q s) s = some q

theorem intTake_queue (hidle : intIdle k s = true) (hask : askDescs .intaglio s = s) (hq : TakesFrom k q s) (hp : queuePart .intaglio q s = some p)
    (hd : takeDesc .intaglio q s = .desc d) (want : Nat → Bool) :
    intTake k want s = if want (natAt d 0 1) then intStart k q p none d [] (intTook q s) else s := by
  have htake : intTake k want s = intTakeQueue k q want s := by
    obtain hurgent | ⟨hurgent, hline, hnext⟩ := hq
    · simp only [intTake, hidle, hask, hurgent]
      rfl
    · simp only [intTake, hidle, hask, hurgent, hline, hnext]
      rfl
  rw [htake]
  simp only [intTakeQueue, hp, hd]
  cases want (natAt d 0 1) <;> rfl

/-- The request that the engine `k` takes, `w` being the state with its descriptor taken. -/
def queueRequest (k q p : Nat) (d : List Byte) (s w : State) : IntJob :=
  { queue := q, part := p, desc := d, ctx := [], input := [], aad := [], key := (intEarly q p false (intDesc d) w).2,
    early := (intEarly q p false (intDesc d) w).1, suspended := false, dual := (intOf k s).dual, start := s.eng.order }

/-- The descriptor is taken, and the request has its place in the order. -/
def intOrdered (q : Nat) (s : State) : State := { intTook q s with eng := { (intTook q s).eng with order := (intTook q s).eng.order + 1 } }

theorem placed_request (k q p : Nat) (d : List Byte) (s : State) : placed k (requestOf q p none d [] (intTook q s)) (intTook q s) = queueRequest k q p d s (intOrdered q s) := by
  rw [placed, order_intTook, intOf_intTook]
  rfl

/-- The state with the request started. -/
def requestStarted (k q p : Nat) (d : List Byte) (s : State) : State :=
  setInt k { intOf k s with job := some (queueRequest k q p d s (intOrdered q s)) } (intOrdered q s)

theorem intStart_queue (k q p : Nat) (d : List Byte) (s : State) : intStart k q p none d [] (intTook q s) = intLoad k (requestStarted k q p d s) := by
  rw [intStart_eq, intBegin_eq, placed_request, intGiven, intOf_intTook]
  rfl

theorem requestStarted_has (k q p : Nat) (d : List Byte) (s : State) : IntHas k (queueRequest k q p d s (intOrdered q s)) (intTook q s) (requestStarted k q p d s) := by
  have h := intGiven_has k (queueRequest k q p d s (intOrdered q s)) (intTook q s)
  rwa [intGiven, intOf_intTook] at h

theorem requestStarted_job (k q p : Nat) (d : List Byte) (s : State) : (intOf k (requestStarted k q p d s)).job = some (queueRequest k q p d s (intOrdered q s)) := by
  rw [requestStarted, intOf_setInt_same]

/-! ### The commands -/

/-- Opcodes with a command of their own. -/
def OwnCommand (op : Nat) : Prop := (2 ≤ op ∧ op ≤ 7) ∨ (0x10 ≤ op ∧ op ≤ 0x13)

theorem ownCommand_cases {op : Nat} (h : OwnCommand op) : op = 2 ∨ op = 3 ∨ op = 4 ∨ op = 5 ∨ op = 6 ∨ op = 7 ∨ op = 0x10 ∨ op = 0x11 ∨ op = 0x12 ∨ op = 0x13 := by
  unfold OwnCommand at h
  omega

theorem intCommand_encrypt {op : Nat} (h : ¬ OwnCommand op) (k : Nat) : Safety.intCommand k op = .encrypt k := by
  unfold OwnCommand at h
  unfold Safety.intCommand
  split
  case h_11 => rfl
  all_goals omega

/-- The opcode by which a command is known, 0 for ENCRYPT, which takes every other. -/
def intClass (op : Nat) : Nat := if (2 ≤ op ∧ op ≤ 7) ∨ (0x10 ≤ op ∧ op ≤ 0x13) then op else 0

/-- The opcodes that the command of an opcode takes. -/
def intWants (op c : Nat) : Bool := decide (intClass c = intClass op)

/-- The class of a command. -/
def commandClass : Instr → Nat
  | .decrypt _ => 2
  | .macGen _ => 3
  | .macVerify _ => 4
  | .hash _ => 5
  | .kwWrap _ => 6
  | .kwUnwrap _ => 7
  | .genkey _ => 0x10
  | .unwrap _ => 0x11
  | .wrap _ => 0x12
  | .clear _ => 0x13
  | _ => 0

theorem intClass_own {op : Nat} (h : OwnCommand op) : intClass op = op := if_pos h

theorem intClass_other {op : Nat} (h : ¬ OwnCommand op) : intClass op = 0 := if_neg h

theorem commandClass_intCommand (k op : Nat) : commandClass (Safety.intCommand k op) = intClass op := by
  by_cases h : OwnCommand op
  · rw [intClass_own h]
    obtain rfl | rfl | rfl | rfl | rfl | rfl | rfl | rfl | rfl | rfl := ownCommand_cases h
    all_goals rfl
  · rw [intCommand_encrypt h, intClass_other h]
    rfl

theorem intCommand_class (k op : Nat) : Safety.intCommand k (intClass op) = Safety.intCommand k op := by
  by_cases h : OwnCommand op
  · rw [intClass_own h]
  · rw [intClass_other h, intCommand_encrypt h]
    rfl

theorem intWants_iff (k op c : Nat) : intWants op c = true ↔ Safety.intCommand k op = Safety.intCommand k c := by
  rw [intWants, decide_eq_true_iff]
  constructor
  · intro h
    rw [← intCommand_class k op, ← h, intCommand_class]
  · intro h
    rw [← commandClass_intCommand k, ← commandClass_intCommand k, h]

theorem intWants_own {m : Nat} (h : OwnCommand m) : (fun op => op == m) = intWants m := by
  funext c
  rw [Bool.eq_iff_iff, beq_iff_eq, intWants, decide_eq_true_iff, intClass_own h]
  by_cases hc : OwnCommand c
  · rw [intClass_own hc]
  · rw [intClass_other hc]
    unfold OwnCommand at h hc
    omega

theorem intWants_rest {m : Nat} (h : ¬ OwnCommand m) : (fun op => !(decide (2 ≤ op ∧ op ≤ 7) || decide (0x10 ≤ op ∧ op ≤ 0x13))) = intWants m := by
  funext c
  rw [intWants, intClass_other h, ← Bool.decide_or, ← decide_not]
  refine decide_eq_decide.mpr ?_
  by_cases hc : OwnCommand c
  · rw [intClass_own hc]
    unfold OwnCommand at hc
    omega
  · rw [intClass_other hc]
    exact ⟨fun _ => rfl, fun _ => hc⟩

theorem exec_intCommand (k op : Nat) (s : State) : exec (Safety.intCommand k op) s = done s (chWakeAll (intTake k (intWants op) s)) := by
  by_cases h : OwnCommand op
  · rw [← intWants_own h]
    obtain rfl | rfl | rfl | rfl | rfl | rfl | rfl | rfl | rfl | rfl := ownCommand_cases h
    all_goals rfl
  · rw [intCommand_encrypt h, ← intWants_rest h]
    rfl

theorem exec_intCommand_own (hidle : intIdle k s = true) (hask : askDescs .intaglio s = s) (hq : TakesFrom k q s) (hp : queuePart .intaglio q s = some p)
    (hd : takeDesc .intaglio q s = .desc d) : exec (Safety.intCommand k (natAt d 0 1)) s = .next (settle s (chWakeAll (intLoad k (requestStarted k q p d s)))) := by
  rw [exec_intCommand, intTake_queue hidle hask hq hp hd, if_pos (by simp [intWants]), intStart_queue]
  rfl

/-- The command of another opcode leaves the request. -/
theorem exec_intCommand_other (hs : Safety.settled s) (hidle : intIdle k s = true) (hask : askDescs .intaglio s = s) (hq : TakesFrom k q s)
    (hp : queuePart .intaglio q s = some p) (hd : takeDesc .intaglio q s = .desc d) (hw : Safety.noneWaits s) (op : Nat)
    (hop : Safety.intCommand k op ≠ Safety.intCommand k (natAt d 0 1)) : exec (Safety.intCommand k op) s = .next s := by
  rw [exec_intCommand, intTake_queue hidle hask hq hp hd, if_neg fun h => hop ((intWants_iff k op _).mp h), chWakeAll_rest hw]
  exact done_quiet (hs : s.flt.due = []) rfl (sameReport_refl s)

theorem requestStarted_early (h : intParamBad (intDesc d) = true) (w : State) : (queueRequest k q p d s w).early = some 2 :=
  congrArg Prod.fst (if_pos h : intEarly q p false (intDesc d) w = (some 2, none))

theorem unwritten_eng (h : Clean s) (e : Engines) : Unwritten s { s with eng := e } := unwritten_of_cpu h rfl rfl rfl

theorem unwritten_intTook (h : Clean s) (q : Nat) : Unwritten s (intTook q s) :=
  have hseen := unwritten_descSeen h .intaglio q
  hseen.trans (unwritten_of_cpu hseen.clean rfl rfl rfl)

theorem unwritten_intOrdered (h : Clean s) (q : Nat) : Unwritten s (intOrdered q s) :=
  have htook := unwritten_intTook h q
  htook.trans (unwritten_eng htook.clean { (intTook q s).eng with order := (intTook q s).eng.order + 1 })

theorem unwritten_requestStarted (h : Clean s) (k q p : Nat) (d : List Byte) : Unwritten s (requestStarted k q p d s) := by
  have hordered := unwritten_intOrdered h q
  unfold requestStarted
  generalize queueRequest k q p d s (intOrdered q s) = x
  exact hordered.trans (unwritten_eng hordered.clean _)

/-- The request that is taken and loaded: what has changed, and what has not. -/
theorem requestLoaded_spec (hr : intRead (queueRequest k q p d s (intOrdered q s)) (requestStarted k q p d s) = .inr j1) (hu : u = intLoaded k j1 (requestStarted k q p d s)) :
    intOf k u = { intOf k s with job := some { j1 with loaded := true } } ∧
    (intParamBad (intDesc d) = true → j1.early = some 2) ∧ (∀ i, i ≠ k → intOf i u = intOf i s) ∧ u.eng.iNext = (q + 1) % 256 ∧
    queueOf .intaglio q u = headMoved (queueOf .intaglio q s) ∧ (∀ i, i ≠ q → queueOf .intaglio i u = queueOf .intaglio i s) ∧
    u.eng.rq = s.eng.rq ∧ u.eng.rasp = s.eng.rasp ∧ (natAt d 0 1 ≠ 0x13 → u.eng.slots = s.eng.slots) ∧
    (natAt d 0 1 = 0x13 → j1.early = none → keySlotOf (natAt d 4 2) u = none) ∧ (j1.early = some 4 → (fltStatus (srcInt k) u).pending = true) := by
  have hread := intRead_spec hr
  have hdesc : j1.desc = d := hread.desc
  obtain ⟨-, hown, hother, heng⟩ := intTook_spec q s
  have hhas : IntHas k { j1 with loaded := true } (intTook q s) u := hu ▸ (requestStarted_has k q p d s).trans (intLoaded_has k j1 _)
  have hop : (intDesc j1.desc).op = natAt d 0 1 := by rw [hdesc]; rfl
  refine ⟨by rw [hhas.own, intOf_intTook], fun hbad => ?_, fun i hi => (hhas.other i hi).trans (intOf_intTook q i s), ?_, (hhas.queue q).trans hown,
    fun i hi => (hhas.queue i).trans (hother i hi), ?_, ?_, fun h => ?_, fun h he => ?_, fun h => ?_⟩
  · have hearly : (queueRequest k q p d s (intOrdered q s)).early = some 2 := requestStarted_early hbad _
    rw [hread.decided (by rw [hearly]; rfl), hearly]
  · exact (congrArg Engines.iNext hhas.beside :).trans (congrArg Engines.iNext heng :)
  · exact (congrArg Engines.rq hhas.beside :).trans (congrArg Engines.rq heng :)
  · exact (congrArg Engines.rasp hhas.beside :).trans (congrArg Engines.rasp heng :)
  · have hslots : u.eng.slots = (requestStarted k q p d s).eng.slots := hu ▸ slots_intLoaded (hop ▸ h)
    exact hslots.trans (congrArg Engines.slots heng :)
  · have hslot := slot_intLoaded (k := k) (s := requestStarted k q p d s) (hop.trans h) he
    rw [hdesc, ← hu] at hslot
    exact hslot
  · exact hu ▸ pending_intLoaded h

/-- Storage after a request has been loaded: as it was, but for part of a plaintext. -/
theorem requestLoaded_storage (hr : intRead (queueRequest k q p d s (intOrdered q s)) (requestStarted k q p d s) = .inr j1) (hu : u = intLoaded k j1 (requestStarted k q p d s))
    (hc : Clean s) : (natAt d 0 1 ≠ 2 → natAt d 0 1 ≠ 7 → u.sto.mem = s.sto.mem ∧ u.sto.poison = s.sto.poison) ∧
    (natAt d 0 1 = 2 → j1.early = none → ∃ n y, y.sto.mem = s.sto.mem ∧
      u.sto = (partWrite (.intaglio q) p (intDesc d).outAddr ((plainText (intDesc d) (keyBytes j1) j1.ctx j1.input).take n) y).sto) := by
  have hread := intRead_spec hr
  have hdesc : j1.desc = d := hread.desc
  have hop : (intDesc j1.desc).op = natAt d 0 1 := by rw [hdesc]; rfl
  have hstarted := unwritten_requestStarted hc k q p d
  have hbefore := hstarted.trans (unwritten_read (k := k) (j := j1) hstarted.clean)
  subst hu
  constructor
  · intro h2 h7
    rw [intLoaded, intPlain_other (hop ▸ h2) (hop ▸ h7)]
    exact ⟨hbefore.mem, hbefore.poison⟩
  · intro h2 he
    unfold intLoaded
    generalize intTold k j1 (slotCleared j1 (intSeen j1 (intHolds k j1 (requestStarted k q p d s)))) = z at hbefore ⊢
    obtain ⟨n, hplain⟩ := intPlain_decrypt (s := z) (hop.trans h2) he hread.line
    refine ⟨n, { z with free := z.free + 1 }, hbefore.mem, ?_⟩
    rw [hplain, hdesc, hread.queue, hread.part]
    rfl

end

end Sys2Proof.Machine
end


section
set_option Elab.async false
/-! PROOFS. O50: an urgent request finds no engine idle. -/

namespace Sys2Proof.Machine

section
variable {s t u w : State} {k i q p : Nat} {j x j1 j2 : IntJob} {d : List Byte}

/-! ### How far the requests have read -/

/-- From `s` to `t` requests of the Intaglio engines read on at most. -/
structure ReadsOn (s t : State) : Prop where
  frame : Touches [.eng, .free] s t
  engine : ∀ m, { intOf m t with job := none } = { intOf m s with job := none }
  others : { t.eng with inta := [] } = { s.eng with inta := [] }

theorem ReadsOn.refl (s : State) : ReadsOn s s := ⟨.refl _ s, fun _ => rfl, rfl⟩

theorem ReadsOn.trans (h : ReadsOn s t) (k : ReadsOn t u) : ReadsOn s u := ⟨h.frame.trans k.frame, fun m => (k.engine m).trans (h.engine m), k.others.trans h.others⟩

theorem readsOn_intProgress (k : Nat) (s : State) : ReadsOn s (intProgress k s) := by
  unfold intProgress
  split
  · exact .refl s
  · extract_lets b r
    have hr : Touches [.free] s r.2 := frame_free s _
    have heng : r.2.eng = s.eng := hr .eng (by decide)
    refine ⟨(hr.mono (by decide)).trans ((frame_eng r.2 _).mono (by decide)), fun m => ?_, congrArg (fun e : Engines => { e with inta := [] }) heng⟩
    have hsame : ∀ m, intOf m r.2 = intOf m s := fun m => by rw [intOf, intOf, heng]
    by_cases hm : m = k
    · subst hm
      rw [intOf_setInt_same]
      exact congrArg (fun e : IntEng => { e with job := none }) (hsame m)
    · rw [intOf_setInt_other hm, hsame]

/-- The requests of all engines have read on. -/
def allReadOn (s : State) : State := (List.range 8).foldl (fun s m => intProgress m s) s

theorem readsOn_foldl (ms : List Nat) : ∀ s, ReadsOn s (ms.foldl (fun s m => intProgress m s) s) := by
  induction ms with
  | nil => exact ReadsOn.refl
  | cons m ms ih => exact fun s => (readsOn_intProgress m s).trans (ih _)

theorem readsOn_all (s : State) : ReadsOn s (allReadOn s) := readsOn_foldl _ s

theorem ReadsOn.failed (h : ReadsOn s t) (m : Nat) : (intOf m t).failed = (intOf m s).failed := (congrArg IntEng.failed (h.engine m) :)

theorem ReadsOn.susp (h : ReadsOn s t) (m : Nat) : (intOf m t).susp = (intOf m s).susp := (congrArg IntEng.susp (h.engine m) :)

theorem ReadsOn.dual (h : ReadsOn s t) (m : Nat) : (intOf m t).dual = (intOf m s).dual := (congrArg IntEng.dual (h.engine m) :)

theorem ReadsOn.order (h : ReadsOn s t) : t.eng.order = s.eng.order := (congrArg Engines.order h.others :)

theorem ReadsOn.rasp (h : ReadsOn s t) : t.eng.rasp = s.eng.rasp := (congrArg Engines.rasp h.others :)

theorem operating_of_readsOn (h : ReadsOn s t) : operating t = operating s := by
  rw [operating, operating, h.frame .pwr (by decide), h.frame .flt (by decide), h.frame .tr (by decide)]

/-! ### The command -/

theorem susp_of_maySuspend (h : maySuspend k s = true) : (intOf k s).susp = none := Option.isNone_iff_eq_none.mp (Bool.and_eq_true_iff.mp h).1

theorem exec_urgentSuspend (ho : operating s = true) (hk : k < 8) (hm : maySuspend k s = true) (hw : urgentWaits s = true) :
    exec (.urgentSuspend k) s = done s (urgentStep k s) := if_pos (by simp [ho, hk, hm, hw])

theorem urgentStep_eq (k : Nat) (s : State) : urgentStep k s = if urgentEngine (allReadOn s) = some k then urgentSuspend k (allReadOn s) else allReadOn s := rfl

theorem urgentSuspend_elsewhere (hs : Safety.settled s) (ho : operating s = true) (hk : k < 8) (hm : maySuspend k s = true) (hw : urgentWaits s = true)
    (hu : urgentEngine (allReadOn s) ≠ some k) : exec (.urgentSuspend k) s = .next (allReadOn s) := by
  rw [exec_urgentSuspend ho hk hm hw, urgentStep_eq, if_neg hu]
  exact done_framed (readsOn_all s).frame hs

theorem urgentSuspend_none (hj : (intOf k s).job = none) : exec (.urgentSuspend k) s = .next s := by
  have hm : maySuspend k s = false := by simp [maySuspend, hj]
  exact if_neg (by simp [hm])

/-- The engine's request put aside. -/
def intFreed (k : Nat) (s : State) : State := setInt k { intOf k s with job := none } s

theorem dual_intFreed (h : ReadsOn s t) (k : Nat) : (intOf k s).dual = (intOf k (intFreed k t)).dual :=
  (h.dual k).symm.trans (congrArg IntEng.dual (intOf_setInt_same k { intOf k t with job := none } t)).symm

theorem order_intFreed (h : ReadsOn s t) (k : Nat) : s.eng.order = (intFreed k t).eng.order := h.order.symm

/-- The engine's request in its context store. -/
def intSuspended (k : Nat) (j : IntJob) (u : State) : State := setInt k { intOf k u with susp := some { j with suspended := true } } u

theorem urgentSuspend_takes (hidle : intIdle k (intFreed k s) = true) (hask : askDescs .intaglio (intFreed k s) = intFreed k s) (hq : urgentNext (intFreed k s) = some q)
    (hp : queuePart .intaglio q (intFreed k s) = some p) (hd : takeDesc .intaglio q (intFreed k s) = .desc d) (hj : (intOf k s).job = some j)
    (ht : slotTurn (queueRequest k q p d (intFreed k s) (intOrdered q (intFreed k s))) (requestStarted k q p d (intFreed k s)) = true)
    (hr : intRead (queueRequest k q p d (intFreed k s) (intOrdered q (intFreed k s))) (requestStarted k q p d (intFreed k s)) = .inr j2) :
    ∃ u, IntHas k { j2 with loaded := true } (intTook q (intFreed k s)) u ∧ urgentSuspend k s = intSuspended k j u := by
  have hhas := (requestStarted_has k q p d (intFreed k s)).trans (intLoaded_has k j2 (requestStarted k q p d (intFreed k s)))
  refine ⟨_, hhas, ?_⟩
  have htake : intTake k (fun _ => true) (intFreed k s) = intLoaded k j2 (requestStarted k q p d (intFreed k s)) := by
    rw [intTake_queue hidle hask (.inl hq) hp hd, if_pos rfl, intStart_queue, intLoad_reads (requestStarted_job ..) rfl ht hr]
  generalize intLoaded k j2 (requestStarted k q p d (intFreed k s)) = u at *
  have hjob : (intOf k u).job.isSome = true := by
    rw [hhas.own]
    rfl
  have hfreed : setInt k { intOf k s with job := none } s = intFreed k s := rfl
  rw [urgentSuspend]
  simp only [hj]
  rw [hfreed, htake, if_pos hjob]
  rfl

theorem intIdle_freed (ho : operating s = true) (hk : k < 8) (hf : (intOf k s).failed = false) (hsusp : (intOf k s).susp = none) : intIdle k (intFreed k s) = true :=
  have hown : intOf k (intFreed k s) = { intOf k s with job := none } := intOf_setInt_same ..
  intIdle_of (s := intFreed k s) ho hk ((congrArg IntEng.failed hown).trans hf) (congrArg IntEng.job hown) ((congrArg IntEng.susp hown).trans hsusp)

/-- What is told after the suspension leaves the engines as they are. -/
theorem done_intSuspended {v : State} (hs : Safety.settled s) (hg : Safety.graceful s) (hv : Touches loadRegs s v) (hu : IntHas k x (intTook q v) u) :
    ∃ t, done s (intSuspended k j u) = .next t ∧ (intOf k t).job = some x ∧ (intOf k t).susp = some { j with suspended := true } ∧
      (∀ i, i ≠ k → intOf i t = intOf i v) ∧ t.eng.rasp = v.eng.rasp := by
  have htook := (hv.trans (intTook_spec q v).1).trans hu.frame
  have hall : Touches loadRegs s (intSuspended k j u) := htook.trans ((frame_eng u _).mono (by decide))
  obtain ⟨t, hdone, htold⟩ := done_told (due_of_still (hall .still (by decide)) hs hg) (hall .pending (by decide))
  have heng : t.eng = (intSuspended k j u).eng := htold .eng (by decide)
  have hint : ∀ m, intOf m t = intOf m (intSuspended k j u) := fun m => by rw [intOf, intOf, heng]
  refine ⟨t, hdone, ?_, ?_, fun i hi => ?_, ?_⟩
  · rw [hint, intSuspended, intOf_setInt_same, hu.own]
  · rw [hint, intSuspended, intOf_setInt_same]
  · rw [hint, intSuspended, intOf_setInt_other hi, hu.other i hi, intOf_intTook]
  · rw [heng]
    exact (congrArg Engines.rasp hu.beside :).trans (congrArg Engines.rasp (intTook_spec q v).2.2.2 :)

/-- The request of the engine goes to the context store, and the urgent one is the engine's. -/
theorem urgentSuspend_runs {v : State} (hs : Safety.settled s) (hg : Safety.graceful s) (ho : operating s = true) (hk : k < 8) (hm : maySuspend k s = true)
    (hw : urgentWaits s = true) (hu : urgentEngine (allReadOn s) = some k) (hf : (intOf k s).failed = false) (hj : (intOf k (allReadOn s)).job = some j)
    (hv : v = intFreed k (allReadOn s)) (hask : askDescs .intaglio v = v) (hq : urgentNext v = some q) (hp : queuePart .intaglio q v = some p)
    (hd : takeDesc .intaglio q v = .desc d) (ht : slotTurn (queueRequest k q p d v (intOrdered q v)) (requestStarted k q p d v) = true)
    (hr : intRead (queueRequest k q p d v (intOrdered q v)) (requestStarted k q p d v) = .inr j2) :
    ∃ t, exec (.urgentSuspend k) s = .next t ∧ (intOf k t).job = some { j2 with loaded := true } ∧ (intOf k t).susp = some { j with suspended := true } ∧
      (∀ i, i ≠ k → intOf i t = intOf i (allReadOn s)) ∧ t.eng.rasp = s.eng.rasp := by
  have hread := readsOn_all s
  rw [exec_urgentSuspend ho hk hm hw, urgentStep_eq, if_pos hu]
  clear hu
  generalize allReadOn s = a at *
  subst hv
  have hidle : intIdle k (intFreed k a) = true := intIdle_freed ((operating_of_readsOn hread).trans ho) hk ((hread.failed k).trans hf)
    ((hread.susp k).trans (susp_of_maySuspend hm))
  obtain ⟨u, hhas, hrun⟩ := urgentSuspend_takes hidle hask hq hp hd hj ht hr
  have hfreed : Touches loadRegs s (intFreed k a) := (hread.frame.mono (by decide)).trans ((frame_eng a _).mono (by decide))
  obtain ⟨t, hdone, hjob, hsusp, hother, hrasp⟩ := done_intSuspended (j := j) hs hg hfreed hhas
  refine ⟨t, ?_, hjob, hsusp, fun i hi => (hother i hi).trans (intOf_setInt_other hi _ a), hrasp.trans hread.rasp⟩
  rw [hrun, hdone]

end

end Sys2Proof.Machine
end


section
set_option Elab.async false
/-! PROOFS. O50: an Intaglio engine ends its request. -/

namespace Sys2Proof.Machine

section
variable {s t u : State} {k i q p : Nat} {j x y : IntJob} {d : List Byte} {forced : Option Nat}

/-! ### What a request comes to -/

/-- The request has no status yet, and manages a key slot. -/
def Manages (j : IntJob) (forced : Option Nat) : Prop := j.early.or forced = none ∧ 0x10 ≤ (intDesc j.desc).op

theorem intOutcome_decided {c : Nat} (h : j.early.or forced = some c) (s : State) : intOutcome j forced s = (c, [], [], s) := by
  unfold intOutcome
  extract_lets d
  have horElse : (j.early.orElse fun _ => forced) = some c := by rwa [Option.orElse_eq_or]
  split
  next hc => rw [Option.some.inj (hc.symm.trans horElse)]
  next hc => exact nomatch hc.symm.trans horElse

theorem intOutcome_manages (h : Manages j forced) (s : State) : intOutcome j forced s =
    ((intManage j.part (intDesc j.desc) j s).1, (intManage j.part (intDesc j.desc) j s).2.1, [], (intManage j.part (intDesc j.desc) j s).2.2) := by
  unfold intOutcome
  extract_lets d
  have horElse : (j.early.orElse fun _ => forced) = none := by
    rw [Option.orElse_eq_or]
    exact h.1
  split
  next hc => exact nomatch hc.symm.trans horElse
  next => exact if_pos h.2

theorem intOutcome_state (h : ¬ Manages j forced) (s : State) : (intOutcome j forced s).2.2.2 = s := by
  cases hd : j.early.or forced with
  | some c => rw [intOutcome_decided hd]
  | none =>
    unfold intOutcome
    extract_lets d
    split
    · rfl
    · split
      next hop => exact absurd ⟨hd, hop⟩ h
      next => split <;> rfl

/-- A slot's key is drawn. -/
theorem frame_drawKey {inst : Nat} {xts : Bool} {n : Nat} (m : Nat) : ∀ {s : State}, Touches [.tr, .free] s (drawKey inst xts n m s).2 := by
  have hdrawn : ∀ s : State, Touches [.tr, .free] s (drawBytes (drbgCount inst s) n).2 := fun s =>
    ((frame_tr s _).mono (by decide)).trans ((frame_drawBytes n).mono (by decide))
  induction m with
  | zero => exact fun {s} => hdrawn s
  | succ m ih =>
    intro s
    unfold drawKey
    extract_lets r
    split
    · exact (hdrawn s).trans ih
    · exact hdrawn s

theorem length_drawKey {inst : Nat} {xts : Bool} {n : Nat} (m : Nat) : ∀ {s : State}, (drawKey inst xts n m s).1.length = n := by
  induction m with
  | zero =>
    intro s
    have hlen := length_drawBytes n (drbgCount inst s)
    unfold drawKey
    extract_lets r
    split
    · rw [List.length_append, List.length_map, ← List.length_append, List.take_append_drop]
      exact hlen
    · exact hlen
  | succ m ih =>
    intro s
    unfold drawKey
    extract_lets r
    split
    · exact ih
    · exact length_drawBytes n _

theorem inta_intManage (p : Nat) (d : IntDesc) (j : IntJob) (s : State) : (intManage p d j s).2.2.eng.inta = s.eng.inta := by
  unfold intManage
  split
  · extract_lets r usage never v w
    have heng : r.2.eng = s.eng := frame_drawKey _ .eng (by decide)
    exact (congrArg Engines.inta heng :)
  · extract_lets b
    split
    · rfl
    · rfl
  · split <;> rfl
  · rfl

theorem intManage_other (h0 : (intDesc d).op ≠ 0x10) (h1 : (intDesc d).op ≠ 0x11) (p : Nat) (j : IntJob) (s : State) : (intManage p (intDesc d) j s).2.2 = s := by
  unfold intManage
  split
  · exact absurd ‹_› h0
  · exact absurd ‹_› h1
  · split <;> rfl
  · rfl

/-- The key that a GENKEY puts into its slot. -/
def drawnKey (p : Nat) (d : IntDesc) (s : State) : KeySlot :=
  { key := (drawKey p (d.mode == 4 || d.mode == 5) (genLen d) redraws s).1, alg := d.mode, usage := bits d.aux 63 48, never := d.aux.testBit 47, uuid := uuidOf p s }

theorem intManage_genkey {d : IntDesc} (h : d.op = 0x10) (p : Nat) (j : IntJob) (s : State) : keySlotOf d.slot (intManage p d j s).2.2 = some (drawnKey p d s) := by
  have hset : (intManage p d j s).2.2 = setKeySlot d.slot (some (drawnKey p d s)) (drawKey p (d.mode == 4 || d.mode == 5) (genLen d) redraws s).2 := by
    simp only [intManage, h]
    rfl
  rw [hset]
  exact tget_tset_same (none : Option KeySlot) d.slot (some (drawnKey p d s)) (drawKey p (d.mode == 4 || d.mode == 5) (genLen d) redraws s).2.eng.slots

/-! ### The end of a request -/

/-- The engine has counted its request. -/
def intCounted (k : Nat) (j : IntJob) (forced : Option Nat) (s : State) : State :=
  setInt k { intOf k s with jobs := satAdd 32 (intOf k s).jobs 1,
                            faults := if forced = some 7 ∧ j.early.isNone then satAdd 16 (intOf k s).faults 1 else (intOf k s).faults } s

/-- The state once the request has come to its end, before its output is stored. -/
def intMade (k : Nat) (j : IntJob) (forced : Option Nat) (s : State) : State := (intOutcome j forced (intCounted k j forced s)).2.2.2

/-- What a request came to. -/
def intStatus (k : Nat) (j : IntJob) (forced : Option Nat) (s : State) : Nat × List Byte := ((intOutcome j forced (intCounted k j forced s)).1, (intOutcome j forced (intCounted k j forced s)).2.1)

theorem served_partWrite (who : Agent) (p a : Nat) (data : List Byte) (s : State) : Served s (partWrite who p a data s) := served_traffic traffic_partWrite

/-- A request of a queue ends with its record, one in line with its answer; the engines have not changed since then. -/
theorem intFinish_line (hl : j.line = some i) : ∃ w, Touches trafficRegs (intMade k j forced s) w ∧
    intFinish k j forced s = lineDone i k (intStatus k j forced s).1 (intStatus k j forced s).2 w := by
  unfold intFinish
  extract_lets d e counted who r put
  have hput : Touches trafficRegs (intMade k j forced s) put := touches_ite (fun _ => traffic_partWrite) fun _ => .refl _ _
  split
  next h => exact ⟨put, hput, by rw [Option.some.inj (h.symm.trans hl)]; rfl⟩
  next h => exact nomatch h.symm.trans hl

theorem intFinish_queue (hl : j.line = none) : ∃ w rcd bad, Touches trafficRegs (intMade k j forced s) w ∧ intFinish k j forced s = postRecord .intaglio j.queue rcd bad w := by
  unfold intFinish
  extract_lets d e counted who r put
  have hput : Touches trafficRegs (intMade k j forced s) put := touches_ite (fun _ => traffic_partWrite) fun _ => .refl _ _
  split
  next h => exact nomatch h.symm.trans hl
  next =>
    split
    · exact ⟨_, _, _, hput.trans (touches_ite (fun _ => traffic_partWrite) fun _ => .refl _ put), rfl⟩
    · exact ⟨_, _, _, hput.trans traffic_partWrite, rfl⟩

theorem served_intFinish (k : Nat) (j : IntJob) (forced : Option Nat) (s : State) : Served (intMade k j forced s) (intFinish k j forced s) := by
  cases hl : j.line with
  | none =>
    obtain ⟨w, rcd, bad, hw, hpost⟩ := intFinish_queue (k := k) (forced := forced) (s := s) hl
    exact hpost ▸ (served_traffic hw).trans (served_postRecord ..)
  | some i =>
    obtain ⟨w, hw, hdone⟩ := intFinish_line (k := k) (forced := forced) (s := s) hl
    exact hdone ▸ (served_traffic hw).trans (served_op op_lineDone)

theorem intOf_intMade (m : Nat) : intOf m (intMade k j forced s) = intOf m (intCounted k j forced s) := by
  have hinta : (intMade k j forced s).eng.inta = (intCounted k j forced s).eng.inta := by
    unfold intMade
    by_cases h : Manages j forced
    · rw [intOutcome_manages h]
      exact inta_intManage ..
    · rw [intOutcome_state h]
  rw [intOf, intOf, hinta]

theorem slots_intMade (h0 : (intDesc j.desc).op ≠ 0x10) (h1 : (intDesc j.desc).op ≠ 0x11) : (intMade k j forced s).eng.slots = s.eng.slots := by
  unfold intMade
  by_cases h : Manages j forced
  · rw [intOutcome_manages h, intManage_other h0 h1]
    rfl
  · rw [intOutcome_state h]
    rfl

theorem run_intMade : Touches runRegs s (intMade k j forced s) := run_setInt.trans run_intOutcome

/-- The engine after its request: it has counted it. -/
theorem intFinish_engine (m : Nat) : intOf m (intFinish k j forced s) = intOf m (intCounted k j forced s) := ((served_intFinish k j forced s).inta m).trans (intOf_intMade m)

theorem intFinish_slots (h0 : (intDesc j.desc).op ≠ 0x10) (h1 : (intDesc j.desc).op ≠ 0x11) : (intFinish k j forced s).eng.slots = s.eng.slots :=
  (served_intFinish k j forced s).slots.trans (slots_intMade h0 h1)

theorem intFinish_genkey (he : j.early = none) (hf : forced = none) (hop : (intDesc j.desc).op = 0x10) :
    keySlotOf (intDesc j.desc).slot (intFinish k j forced s) = some (drawnKey j.part (intDesc j.desc) (intCounted k j forced s)) := by
  have hm : Manages j forced := ⟨by rw [he, hf]; rfl, by rw [hop]⟩
  have hslot : keySlotOf (intDesc j.desc).slot (intMade k j forced s) = some (drawnKey j.part (intDesc j.desc) (intCounted k j forced s)) := by
    rw [intMade, intOutcome_manages hm]
    exact intManage_genkey hop ..
  rw [keySlotOf, (served_intFinish k j forced s).slots]
  exact hslot

/-- Where a record has not to wait, its queue is served on. -/
theorem intFinish_idle (hl : j.line = none) (h : agentPending (.intaglio j.queue) (intFinish k j forced s) = false) : (queueOf .intaglio j.queue (intFinish k j forced s)).busy = false := by
  obtain ⟨w, rcd, bad, -, hpost⟩ := intFinish_queue (k := k) (forced := forced) (s := s) hl
  rw [hpost] at h ⊢
  exact postRecord_idle .intaglio j.queue rcd bad w h

/-- An operation in line whose engine failed is answered with the status. -/
theorem intFinish_answers {o : ChOp} {r : LineReq} {c : Nat} (hl : j.line = some i) (hop : opOf i s = some o) (hline : o.line = some r) (hr : r.engine = some k)
    (hc : j.early.or forced = some c) : opOf i (intFinish k j forced s) = some { o with line := some { r with engine := none, done := some (c, []) } } := by
  obtain ⟨w, hw, hdone⟩ := intFinish_line (k := k) (forced := forced) (s := s) hl
  have hmade : intMade k j forced s = intCounted k j forced s := by rw [intMade, intOutcome_decided hc]
  have hstatus : intStatus k j forced s = (c, []) := by rw [intStatus, intOutcome_decided hc]
  have hopw : opOf i w = some o := by
    rw [opOf, hw .ch (by decide), hmade]
    exact hop
  rw [hdone, hstatus, lineDone, modOp_eq hopw, opOf_setOp_same]
  simp only [hline, hr, if_true]

end

end Sys2Proof.Machine
end


section
set_option Elab.async false
/-! PROOFS. O50: INTAGLIO_REQUEST_COMPLETE, and the statement. -/

namespace Sys2Proof.Machine

section
variable {s t u : State} {k i q p : Nat} {j x y : IntJob} {fault : Bool}

/-! ### The engine goes on -/

/-- A request that was suspended is the engine's again, at once or once the record is posted. -/
def intResumes (k : Nat) (j : IntJob) (s : State) : State :=
  if (intOf k s).susp.isNone then s
  else if j.line.isNone ∧ (queueOf .intaglio j.queue s).post.isSome then setInt k { intOf k s with posting := some j.queue } s
  else restoreInt k s

theorem frame_intResumes (k : Nat) (j : IntJob) (s : State) : Touches [.eng] s (intResumes k j s) :=
  touches_ite (fun _ => .refl _ s) fun _ => touches_ite (fun _ => frame_eng s _) fun _ => frame_eng s _

theorem beside_intResumes (k : Nat) (j : IntJob) (s : State) : { (intResumes k j s).eng with inta := [] } = { s.eng with inta := [] } := by
  unfold intResumes
  split
  · rfl
  · split <;> rfl

theorem queueOf_intResumes (q : Nat) : queueOf .intaglio q (intResumes k j s) = queueOf .intaglio q s := congrArg (tget ({} : Queue) q) (congrArg Engines.iq (beside_intResumes k j s) :)

theorem slots_intResumes : (intResumes k j s).eng.slots = s.eng.slots := (congrArg Engines.slots (beside_intResumes k j s) :)

theorem intResumes_none (h : (intOf k s).susp = none) : intResumes k j s = s := if_pos (by rw [h]; rfl)

theorem intResumes_waits (h : (intOf k s).susp = some y) (hl : j.line = none) (hp : (queueOf .intaglio j.queue s).post ≠ none) :
    intOf k (intResumes k j s) = { intOf k s with posting := some j.queue } := by
  rw [intResumes, if_neg (by rw [h]; exact Bool.false_ne_true), if_pos ⟨by rw [hl]; rfl, Option.isSome_iff_ne_none.mpr hp⟩, intOf_setInt_same]

theorem intResumes_runs (h : (intOf k s).susp = some y) (hp : j.line ≠ none ∨ (queueOf .intaglio j.queue s).post = none) :
    intOf k (intResumes k j s) = { intOf k s with job := some y, susp := none, posting := none } := by
  have hno : ¬ (j.line.isNone ∧ (queueOf .intaglio j.queue s).post.isSome) := by
    rintro ⟨hl, hq⟩
    obtain hline | hpost := hp
    · exact hline (Option.isNone_iff_eq_none.mp hl)
    · rw [hpost] at hq
      exact absurd hq (by decide)
  rw [intResumes, if_neg (by rw [h]; exact Bool.false_ne_true), if_neg hno, restoreInt, intOf_setInt_same, h]

theorem intResumes_counts (k : Nat) (j : IntJob) (s : State) : (intOf k (intResumes k j s)).jobs = (intOf k s).jobs ∧ (intOf k (intResumes k j s)).faults = (intOf k s).faults := by
  unfold intResumes
  split
  · exact ⟨rfl, rfl⟩
  · split
    · rw [intOf_setInt_same]
      exact ⟨rfl, rfl⟩
    · rw [restoreInt, intOf_setInt_same]
      exact ⟨rfl, rfl⟩

theorem intEnd_eq (hj : (intOf k s).job = some j) (forced : Option Nat) : intEnd k forced s = intResumes k j (intFinish k j forced (intFreed k s)) := by
  have hsusp : (intOf k (intFinish k j forced (intFreed k s))).susp = (intOf k s).susp := by
    rw [intFinish_engine, intCounted, intOf_setInt_same, intFreed, intOf_setInt_same]
  simp only [intEnd, hj]
  rw [intResumes, hsusp]
  rfl

/-! ### The command -/

/-- A fault of the engine, where no status was decided before, is an event of it. -/
def intFaulted (k : Nat) (fault : Bool) (j : IntJob) (s : State) : State :=
  if fault ∧ j.early.isNone then raiseClass 0 (srcInt k) 0x05 (some j.part) 0 false s else s

theorem served_intFaulted (k : Nat) (fault : Bool) (j : IntJob) (s : State) : Served s (intFaulted k fault j s) :=
  served_ite (fun _ => served_of_frame (frame_raiseBelow s (by decide) _ _ _ _ _) (by decide) (by decide)) fun _ => .refl s

/-- The status that a fault forces. -/
def forcedBy (fault : Bool) : Option Nat := if fault then some 7 else none

theorem exec_intComplete (ho : operating s = true) (hk : k < 8) (fault : Bool) : exec (.intaglioRequestComplete k fault) s = done s (intComplete k fault s) := if_pos ⟨ho, hk⟩

theorem intComplete_eq (hj : (intOf k s).job = some j) (fault : Bool) : intComplete k fault s = chWakeAll (intTryEnd k (forcedBy fault) (intFaulted k fault j s)) := by
  simp only [intComplete, hj]
  rfl

theorem intComplete_none (hs : Safety.settled s) (hj : (intOf k s).job = none) (fault : Bool) : exec (.intaglioRequestComplete k fault) s = .next s := by
  have hrest : intComplete k fault s = s := by simp only [intComplete, hj]
  refine (if_congr Iff.rfl (congrArg (done s) hrest) rfl : exec (.intaglioRequestComplete k fault) s = if operating s ∧ k < 8 then done s s else .next s).trans ?_
  rw [done_quiet (hs : s.flt.due = []) rfl (sameReport_refl s), ite_self]

/-- A CLEAR waits for the requests that started with the key before it. -/
theorem intComplete_waits (hs : Safety.settled s) (ho : operating s = true) (hk : k < 8) (hj : (intOf k s).job = some j) (hl : j.loaded = true) (hc : clearWaits j s = true)
    (hw : Safety.noneWaits s) : exec (.intaglioRequestComplete k false) s = .next s := by
  have hstill : intTryEnd k none s = s := by
    simp only [intTryEnd, hj, hl, hc]
    rfl
  have hfault : intFaulted k false j s = s := if_neg fun h => absurd h.1 (by decide)
  rw [exec_intComplete ho hk, intComplete_eq hj, hfault, show forcedBy false = none from rfl, hstill, chWakeAll_rest hw]
  exact done_quiet (hs : s.flt.due = []) rfl (sameReport_refl s)

theorem intTryEnd_ends {forced : Option Nat} (hj : (intOf k s).job = some j) (hload : forced = none → j.loaded = true) (hc : clearWaits j s = false)
    (haway : ctxAway j.part ((intDesc j.desc).ctxAddr + 0x60) (forced.isNone && j.early.isNone && (intDesc j.desc).ctxAddr != 0) s = []) :
    intTryEnd k forced s = intEnd k forced s := by
  have hloads : (!j.loaded && forced.isNone) = false := by
    cases forced with
    | none => rw [hload rfl]; rfl
    | some c => exact Bool.and_false _
  simp only [intTryEnd, hj, hloads, hc, haway]
  rfl

/-- The engine once its request has ended, before it goes on with the one that it suspended. -/
def intEnded (k : Nat) (fault : Bool) (j : IntJob) (s : State) : State := intFinish k j (forcedBy fault) (intFreed k (intFaulted k fault j s))

/-- The state in which the engine has ended its request, and gone on. -/
def intDone (k : Nat) (fault : Bool) (j : IntJob) (s : State) : State := intResumes k j (intEnded k fault j s)

theorem clearWaits_of_eng (h : t.eng = s.eng) (j : IntJob) : clearWaits j t = clearWaits j s := by simp only [clearWaits, intJobs, h]

theorem eng_intFaulted (k : Nat) (fault : Bool) (j : IntJob) (s : State) : (intFaulted k fault j s).eng = s.eng := by
  unfold intFaulted
  split
  · exact frame_raiseBelow s (by decide) _ _ _ _ _ .eng (by decide)
  · rfl

theorem exec_intComplete_ends (ho : operating s = true) (hk : k < 8) (hj : (intOf k s).job = some j) (hload : fault = false → j.loaded = true) (hc : clearWaits j s = false)
    (haway : fault = false → j.early = none → (intDesc j.desc).ctxAddr ≠ 0 → partUnowned j.part ((intDesc j.desc).ctxAddr + 0x60) 8 s = []) :
    exec (.intaglioRequestComplete k fault) s = .next (settle s (chWakeAll (intDone k fault j s))) := by
  have heng := eng_intFaulted k fault j s
  have hjob : (intOf k (intFaulted k fault j s)).job = some j := by rw [intOf, heng]; exact hj
  have hctx : ctxAway j.part ((intDesc j.desc).ctxAddr + 0x60) ((forcedBy fault).isNone && j.early.isNone && (intDesc j.desc).ctxAddr != 0) (intFaulted k fault j s) = [] := by
    cases fault with
    | true => rfl
    | false =>
      have hfault : intFaulted k false j s = s := if_neg fun h => absurd h.1 (by decide)
      rw [hfault]
      unfold ctxAway
      split
      next h =>
        obtain ⟨he, hne⟩ : j.early = none ∧ (intDesc j.desc).ctxAddr ≠ 0 := by simpa [forcedBy] using h
        exact haway rfl he hne
      next => rfl
  have hends := intTryEnd_ends (forced := forcedBy fault) hjob (fun h => hload (by cases fault <;> simp_all [forcedBy])) ((clearWaits_of_eng heng j).trans hc) hctx
  rw [exec_intComplete ho hk, intComplete_eq hj, hends, intEnd_eq hjob]
  rfl

theorem intEnded_engine (k : Nat) (fault : Bool) (j : IntJob) (s : State) : intOf k (intEnded k fault j s) =
    { intOf k s with job := none, jobs := satAdd 32 (intOf k s).jobs 1, faults := if fault && j.early.isNone then satAdd 16 (intOf k s).faults 1 else (intOf k s).faults } := by
  have hsame : intOf k (intFaulted k fault j s) = intOf k s := (served_intFaulted k fault j s).inta k
  rw [intEnded, intFinish_engine, intCounted, intOf_setInt_same, intFreed, intOf_setInt_same, hsame]
  cases fault with
  | true => simp [forcedBy]
  | false => simp [forcedBy]

theorem intDone_counts (k : Nat) (fault : Bool) (j : IntJob) (s : State) : (intOf k (intDone k fault j s)).jobs = satAdd 32 (intOf k s).jobs 1 ∧
    (intOf k (intDone k fault j s)).faults = (if fault && j.early.isNone then satAdd 16 (intOf k s).faults 1 else (intOf k s).faults) := by
  obtain ⟨hjobs, hfaults⟩ := intResumes_counts k j (intEnded k fault j s)
  rw [intEnded_engine] at hjobs hfaults
  exact ⟨hjobs, hfaults⟩

theorem intDone_free (h : (intOf k s).susp = none) : (intOf k (intDone k fault j s)).job = none := by
  have hsusp : (intOf k (intEnded k fault j s)).susp = none := by rw [intEnded_engine]; exact h
  have hdone : intDone k fault j s = intEnded k fault j s := intResumes_none hsusp
  rw [hdone, intEnded_engine]

/-- The request that was suspended goes on, at once or once the record is posted. -/
theorem intDone_resumes (h : (intOf k s).susp = some y) :
    (j.line ≠ none ∨ (queueOf .intaglio j.queue (intDone k fault j s)).post = none → (intOf k (intDone k fault j s)).job = some y ∧ (intOf k (intDone k fault j s)).susp = none) ∧
    (j.line = none → (queueOf .intaglio j.queue (intDone k fault j s)).post ≠ none →
      (intOf k (intDone k fault j s)).job = none ∧ (intOf k (intDone k fault j s)).susp = some y ∧ (intOf k (intDone k fault j s)).posting = some j.queue) := by
  have hsusp : (intOf k (intEnded k fault j s)).susp = some y := by rw [intEnded_engine]; exact h
  have hqueue : queueOf .intaglio j.queue (intDone k fault j s) = queueOf .intaglio j.queue (intEnded k fault j s) := queueOf_intResumes j.queue
  rw [hqueue]
  constructor
  · intro hp
    have hruns : intOf k (intDone k fault j s) = _ := intResumes_runs hsusp hp
    rw [hruns]
    exact ⟨rfl, rfl⟩
  · intro hl hp
    have hwaits : intOf k (intDone k fault j s) = _ := intResumes_waits hsusp hl hp
    have hjob : (intOf k (intEnded k fault j s)).job = none := by rw [intEnded_engine]
    rw [hwaits]
    exact ⟨hjob, hsusp, rfl⟩

theorem intDone_idle (hl : j.line = none) (h : agentPending (.intaglio j.queue) (intDone k fault j s) = false) : (queueOf .intaglio j.queue (intDone k fault j s)).busy = false := by
  have hpend : agentPending (.intaglio j.queue) (intEnded k fault j s) = false := by
    rw [← agentPending_of_arm (t := intDone k fault j s) (frame_intResumes k j (intEnded k fault j s) .arm (by decide))]
    exact h
  have hqueue : queueOf .intaglio j.queue (intDone k fault j s) = queueOf .intaglio j.queue (intEnded k fault j s) := queueOf_intResumes j.queue
  rw [hqueue]
  exact intFinish_idle hl hpend

theorem intDone_pending (hf : fault = true) (he : j.early = none) : (fltStatus (srcInt k) (intDone k fault j s)).pending = true := by
  have hraised : (fltStatus (srcInt k) (intFaulted k fault j s)).pending = true := by
    rw [intFaulted, if_pos ⟨hf, by rw [he]; rfl⟩]
    exact raiseClass_pending ..
  have hrun : Touches runRegs (intFaulted k fault j s) (intDone k fault j s) := (run_setInt.trans run_intFinish).trans ((frame_intResumes k j (intEnded k fault j s)).mono (by decide))
  exact (hrun .pend (by decide) _ hraised).1

theorem intDone_answers {o : ChOp} {r : LineReq} (hf : fault = true) (hl : j.line = some i) (hop : opOf i s = some o) (hline : o.line = some r) (hr : r.engine = some k) :
    opOf i (intDone k fault j s) = some { o with line := some { r with engine := none, done := some (j.early.getD 7, []) } } := by
  have hch : (intFreed k (intFaulted k fault j s)).ch = s.ch := by
    unfold intFaulted
    split
    · exact frame_raiseBelow s (by decide) _ _ _ _ _ .ch (by decide)
    · rfl
  have hopf : opOf i (intFreed k (intFaulted k fault j s)) = some o := by rw [opOf, hch]; exact hop
  have hc : j.early.or (forcedBy fault) = some (j.early.getD 7) := by
    rw [hf]
    cases j.early <;> rfl
  have hend := intFinish_answers hl hopf hline hr hc
  have hsame : (intDone k fault j s).ch = (intEnded k fault j s).ch := frame_intResumes k j (intEnded k fault j s) .ch (by decide)
  rw [opOf, hsame]
  exact hend

theorem intDone_slots (h0 : natAt j.desc 0 1 ≠ 0x10) (h1 : natAt j.desc 0 1 ≠ 0x11) : (intDone k fault j s).eng.slots = s.eng.slots := by
  have hdone : (intDone k fault j s).eng.slots = (intEnded k fault j s).eng.slots := slots_intResumes
  rw [hdone, intEnded, intFinish_slots h0 h1]
  exact (congrArg Engines.slots (eng_intFaulted k fault j s) :)

theorem intDone_genkey (hf : fault = false) (he : j.early = none) (hop : natAt j.desc 0 1 = 0x10) :
    ∃ key, keySlotOf (natAt j.desc 4 2) (intDone k fault j s) = some key ∧ key.alg = natAt j.desc 1 1 ∧ key.usage = bits (natAt j.desc 48 8) 63 48 ∧
      key.never = (natAt j.desc 48 8).testBit 47 ∧ key.uuid = uuidOf j.part s ∧ key.key.length = genLen (intDesc j.desc) := by
  subst hf
  have hfault : intFaulted k false j s = s := if_neg fun h => absurd h.1 (by decide)
  have hslot := intFinish_genkey (k := k) (forced := forcedBy false) (s := intFreed k (intFaulted k false j s)) he rfl hop
  have hdone : (intDone k false j s).eng.slots = (intEnded k false j s).eng.slots := slots_intResumes
  refine ⟨_, by rw [keySlotOf, hdone]; exact hslot, rfl, rfl, rfl, ?_, length_drawKey _⟩
  rw [hfault]
  rfl

end

/-- Settles O50: an engine takes a request by `intTake_line` and `intTake_queue`, loads it by `intLoad_reads`, suspends it for an urgent one by
`urgentSuspend_takes`, and ends it by `intFinish_line` and `intFinish_queue`, after which `intResumes` goes on with what was suspended. -/
theorem intaglioEnginesTakeAndEndRequests : Obligations.IntaglioEnginesTakeAndEndRequests := by
  intro s k hs ho hk
  refine ⟨?_, ?_, ?_, ?_, ?_⟩
  · exact fun i r o hf hj hsusp hask hn hop hline => intLine_taken ho hk hf hj hsusp hask hn hop hline
  · rintro q p d w j x hf hj hsusp hask hq hp hd rfl rfl rfl
    have hidle := intIdle_of ho hk hf hj hsusp
    have hexec := exec_intCommand_own hidle hask hq hp hd
    refine ⟨fun hw op hop => exec_intCommand_other hs hidle hask hq hp hd hw op hop, fun ht => ?_, fun j1 ht hr => ?_⟩
    · have hwaits : intLoad k (requestStarted k q p d s) = requestStarted k q p d s := intLoad_waits (requestStarted_job ..) ht
      rw [hexec, hwaits]
      rfl
    · have hloads : intLoad k (requestStarted k q p d s) = intLoaded k j1 (requestStarted k q p d s) := intLoad_reads (requestStarted_job ..) rfl ht hr
      obtain ⟨hown, hbad, hother, hnext, hqueue, hqueues, hrq, hrasp, hslots, hclear, hpend⟩ := requestLoaded_spec hr rfl
      refine ⟨_, intLoaded k j1 (requestStarted k q p d s), by rw [hexec, hloads], rfl, hown, hbad, hother, hnext, hqueue, hqueues, hrq, hrasp, hslots, hclear, hpend, ?_, ?_⟩
      · exact fun hdirty hheld h2 h7 => (requestLoaded_storage hr rfl ⟨hdirty, hheld⟩).1 h2 h7
      · exact fun hdirty hheld h2 he => (requestLoaded_storage hr rfl ⟨hdirty, hheld⟩).2 h2 he
  · rintro s0 rfl hm hw
    refine ⟨fun hu => urgentSuspend_elsewhere hs ho hk hm hw hu, ?_⟩
    rintro j s1 q p d w j1 j2 x hu hf hj hs1 hask hq hp hd rfl rfl rfl ht hr hg
    have hfreed : s1 = intFreed k (allReadOn s) := hs1
    have hdual : (intOf k s).dual = (intOf k s1).dual := hfreed ▸ dual_intFreed (readsOn_all s) k
    have horder : s.eng.order = s1.eng.order := hfreed ▸ order_intFreed (readsOn_all s) k
    rw [hdual, horder] at ht hr
    exact urgentSuspend_runs hs hg ho hk hm hw hu hf hj hfreed hask hq hp hd ht hr
  · exact fun hj => ⟨urgentSuspend_none hj, intComplete_none hs hj⟩
  · intro j hj
    refine ⟨fun hl hc hw => intComplete_waits hs ho hk hj hl hc hw, fun fault hload hc haway => ?_⟩
    obtain ⟨hjobs, hfaults⟩ := intDone_counts k fault j s
    exact ⟨_, intDone k fault j s, exec_intComplete_ends ho hk hj hload hc haway, rfl, hjobs, hfaults, intDone_free, fun y hy => intDone_resumes hy, intDone_idle, intDone_pending,
      fun i o r hf hl hop hline hr => intDone_answers hf hl hop hline hr, intDone_slots, fun hf he hop _ => intDone_genkey hf he hop⟩

end Sys2Proof.Machine
end
